-- ==== Sys2Proof/Word.lean ====
section
/-! DEFINITION. The words of the module (R14, R15, R36) and the tables that hold numbered things. -/

namespace Sys2Proof

/-- One byte. -/
abbrev Byte := BitVec 8

/-- One register: registers are 32 bits wide (R36). -/
abbrev Word := BitVec 32

/-- A 64-bit value, such as tide time (R417) or a remote address. -/
abbrev DWord := BitVec 64

/-- A table of numbered things: pairs of a number and a value, the numbers rising.
A number that is not listed holds the table's default value, which its reader names. -/
abbrev Tbl (α : Type) := List (Nat × α)

end Sys2Proof
end

