-- ==== Sys2Proof/Syntax.lean ====
section
/-! DEFINITION. The commands of the module: one constructor per row of spec/opcode_table.json, in the table's order. The
operands of a command say which unit acts and what the surroundings supply (log entry 9). -/

namespace Sys2Proof

/-- A landing: 0-15 the berths' landings, 16 the management landing (R491). -/
abbrev Landing := Fin 17

/-- The outcome of the error code of what a command reads (R318, R545). The location is the detail that the code reports:
of a deck buffer, the detail of BUF_CORR (R546); of an accumulator, the detail of ACC_PARITY. -/
inductive Ecc where
  | ok
  | corrected (loc : Nat)
  | uncorrectable (loc : Nat)
deriving DecidableEq, Repr

/-- The erroneous symbols that a read meets in the 32-byte block of HBM at a device address: their numbers among the block's 36 and what is
added to each (R318). -/
structure BlockErr where
  addr : Nat
  symbols : List (Nat × Byte)
deriving DecidableEq, Repr

/-- What becomes of the HBM accesses that a command makes within its step: the blocks that reads find with errors, the corrections that the
stack made itself, and an address of the transaction, if any, that the memory does not complete within 1 ms (R318-R320, R339, R348). -/
structure HbmOutcome where
  errs : List BlockErr := []
  onDie : Nat := 0
  late : Option Nat := none
deriving DecidableEq, Repr

/-- What R399 looks at in an inbound RoCE packet, and what its request carries besides its target: the port and sub-port it
arrived on, its priority code point (R379), the destination QPN, the source address and QPN, its PSN (R401), whether the ICRC is correct, whether
CE is marked (R410), whether it was sent in a sailing (R412), and the R_Key (R400). `unsupported` marks a request outside R398's subset. -/
structure Packet where
  port : Fin 8
  sub : Fin 4
  pcp : Nat
  dqpn : Nat
  sip : BitVec 128
  sqpn : Nat
  psn : Nat
  icrcOk : Bool
  ce : Bool
  inSailing : Bool
  unsupported : Bool
  rkey : Word
deriving DecidableEq, Repr

/-- An occurrence that unit hardware detects by itself, outside any other command (R545, R586). -/
inductive HwFault where
  | bufCorr (deck : Fin 16) (loc : Nat)
  | bufUncorr (deck : Fin 16) (loc : Nat)
  | cmdmemCorr (quay : Fin 4) (slot : Nat)
  | pfsParity (quay : Fin 4) (line : Nat)
  | bridgeCorr (bridge : Fin 3) (replays : Nat)
  | bridgeUncorr (bridge : Fin 3) (direction : Fin 2)
deriving DecidableEq, Repr

/-- A frame that is neither RoCE v2 nor LLDP nor PTP (R378): a Neighbor Solicitation, or another IPv4, ARP or IPv6 frame. -/
inductive NetFrame where
  | solicitation (target : BitVec 128)
  | ipv4
  | arp
  | ipv6
deriving DecidableEq, Repr

/-- How an attempt at a bring-up step ends (R385). -/
inductive StepOutcome where
  | done
  | failed
deriving DecidableEq, Repr

/-- A PTP message that a sub-port receives, with what the best master clock algorithm and the servo take from it
(R418-R422): an Announce with the dataset it compares, or an exchange that measured an offset. -/
inductive PtpMessage where
  | announce (domain prio1 clockClass accuracy variance prio2 : Nat) (identity : BitVec 64) (steps : Nat)
  | sync (domain : Nat) (offset : Int)
  | delayReq (domain : Nat)
deriving DecidableEq, Repr

/-- The PTP messages that the module sends at a configured rate (R418). -/
inductive PtpKind where
  | announce
  | sync
  | delayReq
deriving DecidableEq, Repr

/-- A transit frame (R468): the addressed SYS and DEVICE, the IPv6 hop limit, the priority, and the frame's bytes. -/
structure TransitFrame where
  sys : BitVec 8
  device : BitVec 14
  hop : Nat
  pcp : Nat
  bytes : List Byte
deriving DecidableEq, Repr

/-- The NAKs and why they are sent or received (R406, R403). -/
inductive NakKind where
  | remoteAccess
  | invalidRequest
  | remoteOperational
  | sequence
  | rnr
deriving DecidableEq, Repr

/-- One unit that power-up BIST finds failing (R557). -/
inductive BistFailure where
  | deck (d : Fin 16) (test : Fin 4)
  | lane (p : Fin 8)
  | serdes (p : Fin 8) (lanes : BitVec 8)
  | stack (k : Fin 16) (testBand : Bool)
  | chip (unitId : BitVec 8)
deriving DecidableEq, Repr

/-- What an IEEE 1149.1 operation is (R583). -/
inductive JtagOp where
  | bypass
  | samplePreload
  | extest
  | idcode
  | privateInstruction
  | internalScan
deriving DecidableEq, Repr

/-- One row of the opcode table each. -/
inductive Instr where
  | cmdFetchIssue (q : Fin 4) (c : Fin 18) (ecc : Ecc)
  | fetchWaitEnter (q : Fin 4) (c : Fin 18)
  | nop (q : Fin 4) (c : Fin 18)
  | cinit (q : Fin 4) (c : Fin 18)
  | cadd (q : Fin 4) (c : Fin 18)
  | ccmp (q : Fin 4) (c : Fin 18)
  | flagset (q : Fin 4) (c : Fin 18)
  | settle (q : Fin 4) (c : Fin 18)
  | waitt (q : Fin 4) (c : Fin 18)
  | endCmd (q : Fin 4) (c : Fin 18)
  | endNotifyHome (q : Fin 4) (c : Fin 18)
  | tilecfg (q : Fin 4) (c : Fin 18)
  | stream (q : Fin 4) (c : Fin 18)
  | load (q : Fin 4) (c : Fin 18)
  | loadComplete (q : Fin 4) (c : Fin 18) (remote : List Byte) (mem : HbmOutcome)
  | store (q : Fin 4) (c : Fin 18) (ecc : Ecc)
  | storeComplete (q : Fin 4) (c : Fin 18)
  | holdStallWake (b : Fin 16)
  | holdStallTimeout (b : Fin 16)
  | swap (q : Fin 4) (c : Fin 18)
  | maskset (q : Fin 4) (c : Fin 18)
  | pass (q : Fin 4) (c : Fin 18) (ecc : Ecc)
  | skipReplay (q : Fin 4) (c : Fin 18) (quad : Fin 4)
  | passComplete (q : Fin 4) (c : Fin 18) (quad : Fin 4)
  | saveacc (q : Fin 4) (c : Fin 18) (parity : Ecc)
  | saveaccComplete (q : Fin 4) (c : Fin 18)
  | restacc (q : Fin 4) (c : Fin 18) (mem : HbmOutcome)
  | drain (q : Fin 4) (c : Fin 18) (buffer : Ecc) (parity : Ecc) (mem : HbmOutcome)
  | drainComplete (q : Fin 4) (c : Fin 18) (mem : HbmOutcome)
  | fmtsel (q : Fin 4) (c : Fin 18) (mem : HbmOutcome)
  | gather (q : Fin 4) (mem : HbmOutcome)
  | scatter (q : Fin 4) (mem : HbmOutcome)
  | prefetch (q : Fin 4) (mem : HbmOutcome)
  | gatherRecall (q : Fin 4)
  | gatherThreadAction (q : Fin 4) (ecc : Ecc) (mem : HbmOutcome)
  | gatherComplete (q : Fin 4) (run : Nat)
  | recallPieceDone (q : Fin 4) (run page piece : Nat) (data : List Byte)
  | reduce (q : Fin 4)
  | reduceComplete (q : Fin 4) (run : Nat)
  | norm (q : Fin 4)
  | xfer (q : Fin 4)
  | xferComplete (q : Fin 4) (run : Nat)
  | waitTmo (q : Fin 4) (c : Fin 18) (kind : Fin 6)
  | segmentReceive (pkt : Packet) (payload : List Byte)
  | segmentAddDone (p : Fin 8) (residueErrors : Nat)
  | collTmo (q : Fin 4) (run : Nat)
  | sailingBoundary (p : Fin 8)
  | sailingLate (p : Fin 8)
  | ptpMessageSend (p : Fin 8) (sub : Fin 4) (kind : PtpKind)
  | ptpMessageReceive (p : Fin 8) (sub : Fin 4) (msg : PtpMessage)
  | announceReceiptTimeout
  | lockQualify
  | holdoverTimeout
  | ppsOutPulse
  | ppsInEdge (highNs : Nat)
  | ttTblLoadGo
  | ttTblLoadDone (mem : HbmOutcome)
  | ttTblActivate
  | portBringupStep (p : Fin 8) (sub : Fin 4) (outcome : StepOutcome)
  | linkDown (p : Fin 8) (sub : Fin 4) (cause : Fin 4)
  | fecLimitWindow (p : Fin 8) (sub : Fin 4) (corrected uncorrectable : Nat)
  | landingCardSend (p : Fin 8) (sub : Fin 4)
  | landingCardReceive (p : Fin 8) (sub : Fin 4) (company subtype : Nat) (info : List Byte) (ttlSeconds : Nat) (mac : BitVec 48)
  | landingCardTtlExpire (p : Fin 8) (sub : Fin 4)
  | cardAwaitTimeout (p : Fin 8)
  | neighborSolicitation (p : Fin 8) (sub : Fin 4) (frame : NetFrame)
  | pfcFrameReceive (p : Fin 8) (priority : Fin 8) (xoff : Bool)
  | pfcWatchdogExpire (p : Fin 8) (priority : Fin 8)
  | pfcWatchdogRearm (p : Fin 8) (priority : Fin 8)
  | inboundRdmaWrite (pkt : Packet) (addr : Nat) (data : List Byte) (mem : HbmOutcome)
  | inboundRdmaRead (pkt : Packet) (addr len : Nat) (mem : HbmOutcome)
  | inboundWriteImm (pkt : Packet) (addr : Nat) (data : List Byte) (imm : Word) (mem : HbmOutcome)
  | inboundSend (pkt : Packet) (data : List Byte)
  | cmdMemWrite (pkt : Packet) (addr : Nat) (data : List Byte)
  | cmdHalfArm (pkt : Packet) (addr : Nat) (data : List Byte)
  | cmdMemRead (pkt : Packet) (addr len : Nat)
  | nakReceive (conn : Fin 8192) (kind : NakKind) (acked rnrNs : Nat)
  | retransmitTimeout (conn : Fin 8192) (acked : Nat)
  | rnrRetry (conn : Fin 8192)
  | cnpReceive (conn : Fin 8192) (scheduled : Bool)
  | ccRateIncrease (conn : Fin 8192)
  | transitFrame (p : Fin 8) (frame : TransitFrame)
  | hbmReadComplete (entry : Nat) (errs : List BlockErr) (onDie : Nat)
  | hbmWriteEnqueue (entry : Nat)
  | memTmo (entry : Nat)
  | arbHold (entry : Nat)
  | prefetchFillReturn (q : Fin 4) (line : Nat) (errs : List BlockErr) (onDie : Nat)
  | refreshRateCheck (stack : Fin 16) (temperature : Nat)
  | mwTrkCommit
  | qyArbCommit (q : Fin 4)
  | holdReset (b : Fin 16)
  | fcValidClear (n : Fin 8) (value : Word)
  | fcClearAll
  | scDebugReq (overSmbus : Bool)
  | scManPolicyLock (value : Word)
  | mgmtConnRestart (value : Word)
  | mgmtConnStop (value : Word)
  | mgCoordWrite (value : Word)
  | portModeWrite (p : Fin 8) (value : Word)
  | portPlanWrite (p : Fin 8) (value : Word)
  | netPrefixWrite (high : Bool) (value : Word)
  | mgFerryWrite (value : Word)
  | ttNowLoRead
  | rcRegisterRead (addr : Nat)
  | registerWrite (addr : Nat) (value : Word)
  | smbRegWrite (index : BitVec 16) (value : Word) (count : Nat) (pecOk : Bool)
  | smbRegPoint (index : BitVec 16) (count : Nat) (pecOk : Bool)
  | smbRegRead
  | smbAlertResponse
  | smbusTmo (command : BitVec 8) (sclHeldLow : Bool)
  | startTask (l : Landing)
  | abort (l : Landing)
  | preempt (l : Landing) (cuts : List (Nat × Nat))
  | suspendComplete (b : Fin 16) (parity : Option (Fin 16 × Nat)) (mem : HbmOutcome)
  | resume (l : Landing) (mem : HbmOutcome)
  | resumeComplete (b : Fin 16) (mem : HbmOutcome)
  | disableBerth (l : Landing)
  | disableComplete (b : Fin 16)
  | query (l : Landing)
  | loadManifest
  | manifestVerifyDone (read : Option (List Byte))
  | manifestApply
  | taskEndLatch (b : Fin 16)
  | taskCompletionRecord (b : Fin 16)
  | transactionAbandon (b : Fin 16)
  | ringRecordWrite (l : Landing)
  | diagBist
  | diagBistDone (failed : Option (Fin 4))
  | diagAttest
  | diagExtend
  | diagFwWrite
  | diagFwActivate
  | diagLog
  | diagDone (hostFailed : Bool) (read : List Byte)
  | faultCollect (detected : Option HwFault)
  | barrierArrive (b : Fin 16)
  | ferryHello (conn : Fin 8192) (msg : List Byte)
  | ferryArrive (conn : Fin 8192) (msg : List Byte)
  | ferryRelease (conn : Fin 8192) (msg : List Byte)
  | ferryHealth (conn : Fin 8192) (msg : List Byte)
  | ferrySilent (conn : Fin 8192) (msg : List Byte)
  | ferryEvent (conn : Fin 8192) (msg : List Byte)
  | ferryTidePlan (conn : Fin 8192) (msg : List Byte)
  | healthSendTick
  | workerSilentTimeout (worker : Fin 256)
  | groupWindowClose (sys : BitVec 8) (device : BitVec 14)
  | systemWindowClose (sys : BitVec 8) (device : BitVec 14)
  | timetableMissCheck (gens : List (Nat × Nat))
  | pwrEnAssert (millivolts : Nat)
  | pwrEnDeassert (millivolts : Option Nat)
  | resetNAssert
  | vinOv (millivolts : Nat)
  | vinUv (millivolts : Nat)
  | vinBrownout (millivolts : Nat)
  | railFail (step : Fin 4) (rail : Fin 4) (high : Bool)
  | deckPwr (d : Fin 16) (rail : Fin 16)
  | throttleTick (watts : Nat)
  | fastThrottleTrigger (fellByMillivolts millivolts centiamps : Nat)
  | fastThrottleDecay
  | sensorReading (sensor : Fin 28) (raw : Int)
  | refclkFail (missing : Bool) (ppm : Int)
  | wearCompute (ro0 ro1 ro2 ro3 hbmPerDay eyeMui capEvents : Nat) (days : List Nat)
  | bootRomCheck (ok : Bool) (addressPins : Fin 8)
  | signedBoot
  | keyStoreCheck (ok : Bool)
  | powerUpBist (failures : List BistFailure)
  | measure
  | moduleReady
  | secViol (kind : Fin 3)
  | serdesFail (p : Fin 8) (lanes : BitVec 8)
  | vinRecovers (millivolts : Nat)
  | ppsInTimeout
  | jtagAccess (op : JtagOp)
deriving DecidableEq, Repr

end Sys2Proof
end

