-- ==== Sys2Proof/Decode.lean ====
section
/-! DEFINITION. The command that a word spells by the table's bits. -/

namespace Sys2Proof

/-- No row of spec/opcode_table.json gives its command any bits, so no word spells a command. The 256-bit Fairhel commands
that a program holds are decoded in Machine/Fairhel.lean. (DESIGN CHOICE, log entry 67.) -/
def decodeTableWord (_nbits _w : Nat) : Option Instr := none

end Sys2Proof
end

