-- ==== Sys2Proof/Config.lean ====
section
/-! DEFINITION. What the spec leaves open and what is fixed when a module is made: constants with no body, so that no proof
can see their values (log entries 2, 5, 8). -/

namespace Sys2Proof.Config

/-- A byte whose contents the spec calls undefined: the `gen`-th time a range became undefined, at this address
(R127, R173, R211, R273, R339, R371, R458, R509, R550, R619). -/
opaque freeByte (gen address : Nat) : Byte

/-- The `n`-th undefined or unstated value that is not a byte of a memory, cut to the width it is used at. -/
opaque freeWord (n : Nat) : DWord

/-- The `n`-th draw of the random sources of stochastic rounding (R71, R72). (DEDUCED, log entry 64.) -/
opaque random16 (n : Nat) : BitVec 16

/-- The order in which the `n`-th sum of unspecified order adds its terms: the term of the lowest key first
(R83, R186, R189). (DEDUCED, log entry 62.) -/
opaque orderKey (n term : Nat) : Nat

/-- By how many units in the last place an activation function misses the correctly rounded result; at most two, which
the use cuts it to (R185). The arguments are the function's code, whether it is the derivative, and the input.
(DEDUCED, log entry 63.) -/
opaque ulpError (code : Nat) (derivative : Bool) (x : Word) : Int

/-- The 57-byte firmware public key in the boot ROM (R553). (DESIGN CHOICE, log entries 5, 8.) -/
opaque firmwareKey : List Byte

/-- The public half of the identity key derived from the fuse secret at the `n`-th full reset (R556).
(DESIGN CHOICE, log entry 8.) -/
opaque identityPublic (n : Nat) : List Byte

/-- The Ed448 signature that the identity key of the `n`-th full reset makes over a message (R564).
(DESIGN CHOICE, log entry 8.) -/
opaque identitySign (n : Nat) (message : List Byte) : List Byte

end Sys2Proof.Config
end

