-- ==== Sys2Proof/Machine/State.lean ====
section
/-! DEFINITION. The state of the module: every register, memory, queue, counter and pin that the spec gives it, as plain
data. INVENTORY.md lists each field with its rule and its reset value. -/

namespace Sys2Proof.Machine

/-! ### Memories -/

/-- A range of a memory whose unlisted bytes are not the memory's common default: undefined contents of generation `gen`,
or zero again. -/
structure Mark where
  lo : Nat
  hi : Nat
  gen : Option Nat
deriving DecidableEq, Repr

/-- An addressed memory. The newest mark that covers an address says what an unlisted byte there reads as; without a mark it
reads as zero (log entry 7). -/
structure Mem where
  marks : List Mark := []
  cells : List Host.Cell := []
deriving DecidableEq, Repr, Inhabited

/-! ### Assembly -/

/-- The variants that are built (R4): the stacks and I/O dies of XB4-16M-2E, XB4-12M-2E, XB4-8M-2E and XB4-16M-1E. -/
inductive Part where
  | m16e2
  | m12e2
  | m8e2
  | m16e1
deriving DecidableEq, Repr, Inhabited

/-- What assembly fixes: the variant and the grade (R4, R33). -/
structure Fitted where
  part : Part := .m16e2
  gradeX : Bool := false
deriving DecidableEq, Repr, Inhabited

/-- The populated stacks (R4, R5, R33): a variant with fewer than 16 leaves the highest-numbered positions of each quay empty. -/
def Fitted.stackSet (f : Fitted) : BitVec 16 :=
  match f.part with
  | .m12e2 => 0x7777
  | .m8e2 => 0x3333
  | _ => 0xFFFF

/-- Whether I/O die E1 is fitted (R4, R6). -/
def Fitted.e1 (f : Fitted) : Bool := f.part != .m16e1

/-- The fitted ports (R6): P4 to P7 exist with I/O die E1. -/
def Fitted.portSet (f : Fitted) : BitVec 8 := if f.e1 then 0xFF else 0x0F

/-- The maximum module power in watts (R4). -/
def Fitted.maxWatts (f : Fitted) : Nat :=
  match f.part with
  | .m16e2 => 2600
  | .m12e2 => 2450
  | .m8e2 => 2300
  | .m16e1 => 2500

/-! ### Flags, waits, timers -/

/-- An absolute flag (R260, R271). -/
inductive FlagKey where
  | quay (q f : Nat)
  | chip (f : Nat)
deriving DecidableEq, Repr

/-- A timer of elapsed time: what it has counted, and since when it is counting (R265, R272). -/
structure Timer where
  acc : Nat := 0
  since : Option Nat := none
deriving DecidableEq, Repr

/-- A flag wait that has begun and not succeeded (R261, R262, R265): the context that made it, whether in the context or at
the head of its queue, the flag, the count, the WFLAG field and the timer. -/
structure Wait where
  q : Nat
  c : Nat
  atHead : Bool
  flag : FlagKey
  val : Nat
  wflag : Nat
  timer : Timer
deriving DecidableEq, Repr

/-! ### Contexts and queues -/

/-- A command copied into a queue (R243): its bits, the slot it was fetched from, the tile registers it keeps in use
(deck, register) (R145), whether its wait has succeeded, the timer of its own stall (R148, R155), the element, scale and
zero-map cursors that it took at its issue (R156), its number in the order of issue (R155), and of a PASS the masked quads (deck, quad) and the
marked blocks that it read when it reached the head of its queue (R201, R297). -/
structure QCmd where
  word : BitVec 256
  slot : Nat
  uses : List (Nat × Nat) := []
  begun : Bool := false
  waitDone : Bool := false
  stall : Option Timer := none
  curs : Option (Nat × Nat × Nat) := none
  seq : Nat := 0
  masked : List (Nat × Nat) := []
  skips : List Nat := []
deriving DecidableEq, Repr

/-- What a context does (R270, QY_CTX_STAT.STATE); that its task is suspended stands in its berth. -/
inductive CtxMode where
  | idle
  | running
  | endQueued
deriving DecidableEq, Repr

/-- Why a running context cannot fetch on (R265). -/
inductive Stall where
  | none
  | flagWait
  | queueFull
  | fetchWait
  | inuse (reg : Nat)
  | tile (reg : Nat)
deriving DecidableEq, Repr

/-- One of the 18 contexts of a quay (R238-R254). -/
structure Ctx where
  mode : CtxMode := .idle
  stall : Stall := .none
  pc : Nat := 0
  start : Nat := 0
  len : Nat := 0
  berth : Option Nat := none
  cnt : Tbl Word := []
  cmp : Tbl Bool := []
  queue : List QCmd := []
  held : Option QCmd := none
  occ : Option Nat := none
  left0 : Nat := 0
  left1 : Nat := 0
  timer : Timer := {}
  named : Bool := false
  endDone : Bool := false
  endSeen : Bool := false
deriving DecidableEq, Repr

/-- One half of a berth's command memory in one quay (R249-R253): armed, and how often it has been armed. -/
structure Half where
  armed : Bool := false
  gen : Nat := 0
deriving DecidableEq, Repr

/-! ### Decks -/

/-- The role of a tile register (R139). -/
inductive Role where
  | none
  | a
  | b
  | output
  | stash
  | mask
deriving DecidableEq, Repr

/-- A tile register (R139). -/
structure TileReg where
  aliased : Bool := false
  aft : Bool := false
  role : Role := .none
  orient : Bool := false
  mx : Bool := false
  fmt : Nat := 0
  base : Nat := 0
  rows16 : Nat := 0
  cols : Nat := 0
  inuse : Nat := 0
deriving DecidableEq, Repr

/-- An armed stream descriptor with its cursors (R153, R156). -/
structure Desc where
  store : Bool := false
  cls : Nat := 0
  mfmt : Nat := 0
  mmx : Bool := false
  morient : Bool := false
  rnd : Nat := 0
  ovf : Bool := false
  cur : Nat := 0
  stride : Int := 0
  advance : Int := 0
  scur : Nat := 0
  zcur : Nat := 0
deriving DecidableEq, Repr

/-- The zero record of a destination (R165): its name among all records, its key, and per block of 32 K indices whether it is done and
non-zero. -/
structure ZRec where
  id : Nat
  half : Bool
  base : Nat
  fmt : Nat
  mx : Bool
  orient : Bool
  rows16 : Nat
  cols : Nat
  blocks : List (Bool × Bool)
deriving DecidableEq, Repr

/-- The tag of a slot of a quad (R87). -/
inductive Tag where
  | none
  | fp32
  | int32
  | comp
deriving DecidableEq, Repr

/-- A sounding accumulator (R191, R192). -/
structure Sounding where
  amax : Word := 0
  count : Nat := 0
  nonzero : Nat := 0
  underflow : Nat := 0
  zeroblk : Nat := 0
  nonfinite : Nat := 0
  histE0 : Int := 0
  bins : Tbl Nat := []
deriving DecidableEq, Repr

/-- One deck. `acc` holds the four slot images in the layout of R123, `gang` is DK_GANG (R96); `hadBerth`
says that a berth has held it since the last full reset (R172), and `saveBase` is none for a deck without a save area (R124). -/
structure Deck where
  tiles : Tbl TileReg := []
  descs : Tbl Desc := []
  zrecs : List ZRec := []
  buf0 : Mem := {}
  buf1 : Mem := {}
  acc : Mem := {}
  tags : Tbl Tag := []
  sat : BitVec 16 := 0
  fore1 : Bool := false
  swapCnt : BitVec 16 := 0
  skipMiss : Word := 0
  skipDone : Word := 0
  gang : Word := 0x0F000000
  saveBase : Option Nat := none
  nacc : Tbl DWord := []
  snd : Sounding := {}
  hadBerth : Bool := false
deriving DecidableEq, Repr

/-- A shape of a gang with its members in row-major order (R92, R93, R97). -/
structure Shape where
  gmLog : Nat
  gnLog : Nat
  members : List Nat
deriving DecidableEq, Repr

/-- A gang record of the manifest: shape 0 is the primary one, the others the fallback entries (R97, R566). -/
structure Gang where
  quad : Bool := false
  shapes : List Shape := []
deriving DecidableEq, Repr

/-! ### Running engine commands -/

/-- An HBM request of an engine (R333-R340): device address, length, whether it writes, the bytes written, the class, the
allotments it may draw on (R336, R338), of a SCATTER's write the table row that it belongs to, and the extents on which another
write has met it (R368). -/
structure Req where
  addr : Nat
  len : Nat
  write : Bool
  data : List Byte
  cls : Nat
  pool : List Nat
  row : Option (Nat × Nat) := none
  spoil : List (Nat × Nat) := []
deriving DecidableEq, Repr

/-- A tracker entry (R334, R336, R339): its request, the allotment that holds it, the run it serves, the berth and task of
that run, and the moment it took its entry. -/
structure Trk where
  id : Nat
  req : Req
  allot : Nat
  run : Nat
  q : Nat
  unit16 : BitVec 16
  berth : Option Nat
  task : Nat
  start : Nat
deriving DecidableEq, Repr

/-- Where a piece of a transaction stands: on its way over the crossbar (R346), waiting at the arbiter of its quay (R342), in the
queue of its bank (R315), or granted since a moment (R345). -/
inductive PieceSt where
  | sent
  | waiting
  | queued
  | granted (at_ : Nat)
deriving DecidableEq, Repr

/-- A piece of a transaction within one 256-byte unit (R313, R333): the tracker entry that its transaction took and the allotment that holds
it, its device address and its place in HBM, what a read has taken or a write brings, the poisoned blocks that a read has met, and where it stands. -/
structure Piece where
  trk : Nat
  addr : Nat
  len : Nat
  loc : Nat
  write : Bool
  cls : Nat
  unit16 : BitVec 16
  berth : Option Nat
  task : Nat
  allot : Nat
  row : Option (Nat × Nat) := none
  spoil : List (Nat × Nat) := []
  data : List Byte := []
  bad : List Nat := []
  st : PieceSt := .sent
deriving DecidableEq, Repr

/-- A pseudo-channel (R314, R316): its direction, the accesses made in it while a request of the other direction headed a bank queue, and
until when its bus is busy, in tenths of a nanosecond. -/
structure Channel where
  write : Bool := false
  run : Nat := 0
  busy : Nat := 0
deriving DecidableEq, Repr

/-- A bank (R314): the row that it has activated and from when it accepts another activation. -/
structure Bank where
  row : Option Nat := none
  ready : Nat := 0
deriving DecidableEq, Repr

/-- The memory fabric: the pieces in it, those of one state in the order in which they came to it, the pseudo-channels and banks by number, and
the source that the chip arbiter's round-robin order comes to next (R346). -/
structure Fabric where
  pieces : List Piece := []
  channels : Tbl Channel := []
  banks : Tbl Bank := []
  source : Nat := 0
deriving DecidableEq, Repr, Inhabited

/-- An operand pair of a PASS in one deck as its stream reads it: the registers and the halves of the buffer (R147). -/
structure OperandPair where
  deck : Nat
  a : TileReg
  ma : Mem
  b : TileReg
  mb : Mem
deriving DecidableEq, Repr

/-- Step groups that have entered the array, as first K index and length, and the operands they were read from: the main stream, or the
replay (R101, R117). -/
structure StreamPart where
  groups : List (Nat × Nat)
  ops : List OperandPair
deriving DecidableEq, Repr

/-- What a running PASS keeps (R101-R121): the quad in quad mode, K, the first K index from which it entered (R125), its stream length
and fill (R104), the slots per deck before its first step, whether it overwrites, what has entered, the skipped blocks not yet replayed, the
masked quads (deck, quad) (R109), the marked blocks, the zero records (deck, record) that its checks use (R166), the marked blocks streamed in place, the
counts of replayed and of confirmed blocks, the quads (deck, quad) in which an entry was clamped that no SAT flag shows yet, whether all
its step groups have entered for certain, and whether a pre-emption has stopped it. -/
structure PassRun where
  quad : Nat := 0
  k : Nat := 0
  from_ : Nat := 0
  stream : Nat := 0
  fill : Nat := 0
  pre : List (Nat × Mem) := []
  clear : Bool := false
  streams : List StreamPart := []
  pend : List Nat := []
  masked : List (Nat × Nat) := []
  recs : List (Nat × Nat) := []
  inPlace : List Nat := []
  misses : Nat := 0
  skipped : Nat := 0
  sats : List (Nat × Nat) := []
  entered : Bool := false
  cut : Bool := false
deriving DecidableEq, Repr

/-- One position of a gather command, or piece of a recall, that a thread carries (R364, R365, R369): its index, weight, table and
contiguous addresses and row length, whether it is a SCATTER's, and whether another write has met its table row (R368); phase 0 before its
first access, 1 while it reads, 2 while it writes. -/
structure Thread where
  run : Nat
  pos : Nat
  index : Nat
  weight : Word
  got : List Host.Cell := []
  todo : List Req := []
  waiting : List Nat := []
  phase : Nat := 0
  row : Nat := 0
  cont : Nat := 0
  len : Nat := 0
  scatter : Bool := false
  spoiled : Bool := false
  page : Option (Nat × Nat) := none
deriving DecidableEq, Repr

/-- What a running gather command keeps (R353-R369); of a recall the pages, those that it is bringing back now, and the pieces written. -/
structure GatherRun where
  desc : List Byte := []
  next : Nat := 0
  count : Nat := 0
  stopped : Bool := false
  pages : List Nat := []
  taken : List Nat := []
  pieces : List (Nat × Nat) := []
deriving DecidableEq, Repr

/-- Data of a chunk that is to be sent on, or that waits for more (R450, R453): the contributions summed in it, whether it is
thinned, whether it carries this module's contribution that a fenced lane did not add, and its bytes. -/
structure CollPiece where
  contrib : Nat
  thin : Bool
  unred : Bool
  data : List Byte
deriving DecidableEq, Repr

/-- The elements of a received segment with what has been added so far (R447, R450): phase, chunk, first element and elements, the
contributions in it, whether the own one is among them, and the data. -/
structure CollPart where
  phase : Nat
  chunk : Nat
  off : Nat
  elems : Nat
  total : Nat
  own : Bool
  pieces : List CollPiece
deriving DecidableEq, Repr

/-- What a running REDUCE or NORM keeps (R444-R456): the group it now runs over, its sequence number, the kind and length now
running, where its own contribution comes from (0 DRAINs, 1 HBM, 2 the list `own`), the elements delivered, the elements of a
segment, how many segments of its plan have been sent, what it has received, whether its own chunk is written, whether it has
saturated, when it last received a segment, the sailings it took, and whether it runs over a chained group. An XFER keeps the
pieces it has sent and its sailings here. -/
structure CollRun where
  group : Nat := 0
  seq : Word := 0
  kind : Nat := 0
  len : Nat := 0
  src : Nat := 0
  staged : Nat := 0
  own : List Byte := []
  seg : Nat := 0
  next : Nat := 0
  parts : List CollPart := []
  ownDone : Bool := false
  saturated : Bool := false
  lastSeg : Nat := 0
  sails : List Nat := []
  chained : Bool := false
deriving DecidableEq, Repr

/-- A piece of a hold transfer within one page (R218, R224): its offset in the hold and length, where it lies (0 a free page,
1 a frame, 2 the offload target), and its address there. -/
structure HoldPiece where
  off : Nat
  len : Nat
  place : Nat
  addr : Nat
deriving DecidableEq, Repr

/-- A tile in a deck buffer that a command writes: the deck, the half, the register as configured, and the columns [lo, hi) written (R173,
R211). -/
structure BufDest where
  deck : Nat
  half : Bool
  tile : TileReg
  cols : List (Nat × Nat)
deriving DecidableEq, Repr

/-- A command that its engine has started and not completed. `poolDecks` are the decks it works on, `bind` the physical half
bound for each tile register (deck, register, half 1) (R147), `todo` the requests not yet issued (R338), `outs` the extents of HBM and `dests` the tiles that it writes, `got` the bytes read, `pieces` where a hold transfer lies, `stash` the bytes of a stash write not placed yet and
`waitHold` its wait under STALL (R221): the page and since when. -/
structure Run where
  id : Nat
  q : Nat
  c : Nat
  berth : Nat
  task : Nat
  cmd : QCmd
  decks : List Nat := []
  bind : List (Nat × Nat × Bool) := []
  todo : List Req := []
  outs : List (Nat × Nat) := []
  dests : List BufDest := []
  got : List Host.Cell := []
  failed : Bool := false
  cur : Nat := 0
  scur : Nat := 0
  zcur : Nat := 0
  desc : Desc := {}
  pieces : List HoldPiece := []
  stash : List (Nat × List Byte) := []
  waitHold : Option (Nat × Nat) := none
  rows : List Byte := []
  drainHeld : Option Timer := none
  pass : PassRun := {}
  gather : GatherRun := {}
  coll : CollRun := {}
deriving DecidableEq, Repr

/-- A context's suspended pass as the state page keeps it is in HBM; here stands which quads have one (R121, R125). -/
structure SuspendedPass where
  q : Nat
  c : Nat
  cmd : QCmd
  quad : Nat
  step : Nat
  misses : Nat := 0
  skipped : Nat := 0
deriving DecidableEq, Repr

/-! ### Quays -/

/-- One quay: its 18 contexts, the context that its control core comes to next, the round-robin pointer of its gather threads, the threads, and its prefetch store as the line
addresses held, least recently used first, with the fills on their way and whether a write has made them stale (R242, R349,
R350, R363, R364). -/
structure Quay where
  ctxs : Tbl Ctx := []
  nextCtx : Nat := 0
  nextThread : Nat := 0
  threads : Tbl Thread := []
  lines : List Nat := []
  fills : List (Nat × Bool × Nat) := []
deriving DecidableEq, Repr

/-! ### Memory system -/

/-- A memory window (R324). -/
structure Window where
  en : Bool := false
  sealedW : Bool := false
  mode : Nat := 0
  berth : Nat := 0
  quay : Nat := 0
  stackB : Nat := 0
  stackA : Nat := 0
  base : Word := 0
  limit : Word := 0
  phys : Nat := 0
deriving DecidableEq, Repr

/-- The registers of a stack (R347, R348), the moment of its last RS_CORR (R319), and when its temperature was last read (R317). -/
structure Stack where
  hot : Bool := false
  temp : BitVec 8 := 0
  rscorr : Word := 0
  uncorr : Word := 0
  odecc : Word := 0
  corrAt : Option Nat := none
  readAt : Nat := 0
deriving DecidableEq, Repr

/-! ### Ports and connections -/

/-- A landing card held of a peer (R388), with the source address of its frame, the moment it arrived and its time-to-live. -/
structure Card where
  sys : BitVec 8 := 0
  device : BitVec 14 := 0
  port : Nat := 0
  role : BitVec 8 := 0
  flags : BitVec 8 := 0
  ttFmt : BitVec 8 := 0
  contract : BitVec 16 := 0
  fw : Word := 0
  mac : BitVec 48 := 0
  at_ : Nat := 0
  ttl : Nat := 120
deriving DecidableEq, Repr

/-- One sub-port's link (R385, R387): the bring-up step done so far (0 down, 4 link up), the failed attempts in a row, the moment from which the
present attempt at a step counts, when the link came up, the peer's card, when the own card was last sent and what it held, and when each kind of
PTP message last left (0 Announce, 1 Sync, 2 Delay_Req) (R418). -/
structure Link where
  step : Nat := 0
  fails : Nat := 0
  since : Option Nat := none
  upAt : Nat := 0
  card : Option Card := none
  sentAt : Option Nat := none
  sent : List Byte := []
  ptpAt : Tbl Nat := []
deriving DecidableEq, Repr

/-- A priority of a port under flow control (R394, R397). -/
structure Pfc where
  pausedAt : Option Nat := none
  lastXoff : Nat := 0
  ignoring : Bool := false
deriving DecidableEq, Repr

/-- What PT_STAT.STATE says of a port (R413). -/
inductive PortState where
  | down
  | training
  | awaiting
  | up
  | remapped
  | quarantined
  | fenced
deriving DecidableEq, Repr

/-- A segment that a lane holds (R444, R445, R450): its connection, header and data. -/
structure Segment where
  conn : Nat
  header : List Byte
  data : List Byte
deriving DecidableEq, Repr

/-- A frame of the transit store with the moment its last byte arrived (R470). -/
structure Transit where
  frame : TransitFrame
  at_ : Nat
deriving DecidableEq, Repr

/-- What the module puts into an RDMA packet. -/
inductive Roce where
  | write (addr : Nat) (data : List Byte) (imm : Option Word)
  | read (addr len : Nat)
  | send (data : List Byte)
  | ack
  | response (data : List Byte)
  | nak (kind : NakKind) (rnrNs : Option Nat)
  | resend
  | cnp
deriving DecidableEq, Repr

/-- The frame round an RDMA packet (R377, R379, R404): the physical port and sub-port, the destination address, the VLAN, priority code point,
DSCP and ECN field, the R_Key of a WRITE or READ, and whether it leaves in a sailing. -/
structure Frame where
  port : Nat
  sub : Nat
  dst : BitVec 48
  vlan : Nat
  pcp : Nat
  dscp : Nat
  ecn : Nat
  key : Option Word
  sailing : Bool
deriving DecidableEq, Repr

/-- Everything the module sends, in order (R1). RDMA requests and answers name the connection. -/
inductive Out where
  | roce (conn : Nat) (frame : Frame) (msg : Roce)
  | card (port sub : Nat) (tlv : List Byte) (ttl : Nat)
  | advertisement (port sub : Nat) (target : BitVec 128)
  | ptp (port sub : Nat) (kind : PtpKind) (fields : List Nat)
  | delayResp (port sub : Nat) (fields : List Nat)
  | transit (port : Nat) (frame : TransitFrame)
  | smbus (value : Word)
  | smbusAddress (address : Nat)
deriving DecidableEq, Repr

/-- One port. `swap` is the other logical port that a remapped port carries (R392), and `held` the frames that wait for a paused priority, with
that priority (R394). -/
structure Port where
  state : PortState := .down
  qcause : Nat := 0
  swap : Option Nat := none
  links : Tbl Link := []
  fecCorr : Word := 0
  fecUncorr : Word := 0
  rxDrop : Word := 0
  linkDown : Word := 0
  sailLate : Word := 0
  lateSince : Nat := 0
  lateAt : Option Nat := none
  laneFenced : Bool := false
  laneRetry : Word := 0
  pfc : Tbl Pfc := []
  held : List (Nat × Out) := []
  transit : List Transit := []
  segs : List Segment := []
  adding : List Segment := []
  sailed : Option Nat := none
deriving DecidableEq, Repr

/-- What an outbound request serves (R403). -/
inductive ReqKind where
  | record
  | xfer (run : Nat)
  | hold (page run : Nat)
  | recall (run page : Nat)
  | segment (run : Nat)
  | ferry
  | diag
  | manifest
deriving DecidableEq, Repr

/-- An outbound request that has not been acknowledged (R403): what it serves, how many PSNs it takes, when it was last sent, whether it is an RDMA
READ, and its message while it waits for an earlier READ to be answered (R398). -/
structure OutReq where
  kind : ReqKind
  packets : Nat
  at_ : Nat := 0
  read : Bool := false
  unsent : Option Roce := none
deriving DecidableEq, Repr

/-- A connection (R404-R411); `reason` says why it is in the error state (R407), `rnrUntil` until when an RNR NAK makes it wait, and `rxPcp` the
priority code point of the packet that it received last (R379). Rates are in units of L / 2^20 (log entry 22). -/
structure Conn where
  valid : Bool := false
  ctrl : Bool := false
  mgmt : Bool := false
  berth : Nat := 0
  lport : Nat := 0
  sub : Nat := 0
  tmo : Nat := 4
  retry : Nat := 7
  rqpn : Nat := 0
  sqPsn : Nat := 0
  rqPsn : Nat := 0
  rip : BitVec 128 := 0
  lkey : Word := 0
  rkey : Word := 0
  nhMac : BitVec 48 := 0
  err : Bool := false
  reason : Nat := 0
  reqs : List OutReq := []
  tries : Nat := 0
  rnrUntil : Option Nat := none
  rxPcp : Nat := 0
  rate : Nat := 1048576
  cutAt : Option Nat := none
  riseAt : Nat := 0
  cnpAt : Option Nat := none
  bound : Option Nat := none
deriving DecidableEq, Repr

/-! ### Landings, records, berths -/

/-- A message in a landing buffer with the connection that carried it (R491). -/
structure Msg where
  conn : Nat
  data : List Byte
deriving DecidableEq, Repr

/-- A record before it is written (R499): everything but DSEQ, DSEQ2 and LOST. `soft` marks a NOTE or CORR FAULT record, which a
full queue drops (R501); `entry` is the store entry a FAULT record reports (R534). `hseq` is none where H of the landing at
writing stands. -/
structure Rec where
  type : Nat
  berth : Nat
  hseq : Option Word
  task : Word
  tide : Nat
  body : List Byte
  soft : Bool := false
  entry : Option Nat := none
deriving DecidableEq, Repr

/-- A landing and its ring (R491-R502). -/
structure LandingSt where
  h : Word := 0
  dseq : Word := 0
  ack : Word := 0
  bufs : List Msg := []
  waiting : List Rec := []
  lost : Nat := 0
  closed : Bool := false
deriving DecidableEq, Repr

/-- The state of a berth (R488). -/
inductive BerthState where
  | undefined
  | idle
  | running
  | suspending
  | suspended
  | resuming
  | disabling
  | disabled
  | halted
deriving DecidableEq, Repr

/-- A hold page (R219): free, resident in a frame, or spilled to a page of the target. -/
inductive PageState where
  | free
  | resident (frame : Nat)
  | spilled (target : Nat)
deriving DecidableEq, Repr

/-- The hold of a berth at run time (R219-R231); `lost` numbers a disable that has left its page states undefined (R228). -/
structure Hold where
  lost : Option Nat := none
  pages : Tbl PageState := []
  recalling : Tbl Nat := []
  peak : Nat := 0
  stalled : Bool := false
  spillEv : Bool := false
  hwmHit : Bool := false
  taskSpilled : Bool := false
deriving DecidableEq, Repr

/-- A reduction group (R443). -/
structure Group where
  n : Nat
  rank : Nat
  next : Nat
  prev : Nat
  sched : Bool
  rot : Bool
  chain : Nat
deriving DecidableEq, Repr

/-- The fields that the manifest gives a berth (R181, R217, R246, R429, R443, R464, R486). -/
structure BerthCfg where
  decks : BitVec 16 := 0
  ringConn : Nat := 0
  ringAddr : Nat := 0
  ringLog2 : Nat := 4
  job : Option Nat := none
  sliceLo : List Nat := []
  sliceLen : List Nat := []
  sliceWrap : List Bool := []
  barFlag : Option Nat := none
  relFlag : Option Nat := none
  qf : List (Nat × Nat) := []
  cfBase : Nat := 0
  cfCount : Nat := 0
  scalar : Nat := 0
  nl : Nat := 0
  sndLog : Nat := 0
  lft : Nat := 0
  fns : List (BitVec 128) := []
  holdBase : Nat := 0
  holdPages : Nat := 0
  holdFrames : Nat := 0
  stall : Bool := false
  holdTmo : Nat := 10000
  tgtConn : Option Nat := none
  tgtBase : Nat := 0
  tgtPages : Nat := 0
  groups : List Group := []
deriving DecidableEq, Repr

/-- Why a task ended (R499, R507). -/
structure EndInfo where
  status : Nat
  cause : Nat
  source : BitVec 16 := 0
  hseq : Word := 0
  tide : Nat := 0
  at_ : Nat := 0
  elapsed : Nat := 0
deriving DecidableEq, Repr

/-- A REPLY that is written later: the landing, the message's HSEQ and TASK_ID (R511, R515). -/
structure Owed where
  landing : Nat
  berth : Nat
  hseq : Word
  task : Word
  type : Nat
deriving DecidableEq, Repr

/-- The restore of a resuming task (R125, R514, R576): still to be made, stopped by what it met, or done. -/
inductive Restore where
  | waiting
  | stopped
  | done
deriving DecidableEq, Repr

/-- One berth. -/
structure Berth where
  cfg : BerthCfg := {}
  st : BerthState := .undefined
  cur : Option Word := none
  last : Option Word := none
  lastStatus : Nat := 0
  lastElapsed : Nat := 0
  fromMgmt : Bool := false
  startTide : Nat := 0
  ranFor : Nat := 0
  ranSince : Nat := 0
  suspFor : Nat := 0
  suspSince : Nat := 0
  epoch : BitVec 16 := 0
  seqs : Tbl Word := []
  bseq : Word := 0
  taskDecks : BitVec 16 := 0
  ended : Option EndInfo := none
  preemptOwed : Option Owed := none
  disableOwed : Option Owed := none
  afterEnd : BerthState := .idle
  hold : Hold := {}
  suspended : List SuspendedPass := []
  restore : Restore := .waiting
  disableAt : Nat := 0
  freed : List (Nat × Nat) := []
deriving DecidableEq, Repr

/-! ### Faults -/

/-- The classes (R525). -/
abbrev FaultClass := Nat

/-- An occurrence on its way to the chip fault collector (R521), with the class that applied at its raising collector. -/
structure Occ where
  source : BitVec 16
  cls : FaultClass
  berth : Option Nat
  task : Word
  tide : Nat
  at_ : Nat
  detail : DWord
  fromTask : Bool := true
deriving DecidableEq, Repr

/-- A stored fault record (R523), with the order in which it was stored (R533). -/
structure FaultRec where
  source : BitVec 16
  cls : FaultClass
  berth : Option Nat
  seq : Word
  task : Word
  count : Nat
  tide : Nat
  detail : DWord
  age : Nat
deriving DecidableEq, Repr

/-- The chip fault collector (R533, R543). `halt` says that the module is halted (R538): nothing but a full reset ends that.
`reported` holds, per source id and key, when a rate-limited source last raised. -/
structure Collector where
  recs : Tbl FaultRec := []
  halt : Bool := false
  drop : Word := 0
  ovf : Bool := false
  age : Nat := 0
  reported : List ((Nat × Nat) × Nat) := []
  replays : Tbl Nat := []
deriving DecidableEq, Repr, Inhabited

/-- An event that ends a task, on its way to the berth's home quay (R507, R521). -/
structure EndEvt where
  berth : Nat
  task : Word
  info : EndInfo
  sev : Nat
deriving DecidableEq, Repr

/-! ### Time and timetable -/

/-- TT_STAT.STATE (R422, R426). -/
inductive TtState where
  | free
  | locking
  | locked
  | holdover
  | grandmaster
deriving DecidableEq, Repr, Inhabited

/-- A master's dataset as the best master clock algorithm compares it, with when it was last announced (R418). -/
structure Master where
  prio1 : Nat
  clockClass : Nat
  accuracy : Nat
  variance : Nat
  prio2 : Nat
  identity : BitVec 64
  steps : Nat
  at_ : Nat
deriving DecidableEq, Repr

/-- TT_TBL_STAT.STATE (R435). -/
inductive TblState where
  | idle
  | loading
  | waiting
deriving DecidableEq, Repr, Inhabited

/-- Tide time, PTP, PPS and the timetable (R417-R435). `mono` is the elapsed tide time, which steps of tide time leave alone (R12, R265).
`slew` is what the servo has still to take up, in nanoseconds, `phase` the nanoseconds since it last could take up one, and `stepped` whether the first lock since
reset has stepped tide time. -/
structure TimeUnit where
  tide : Nat := 0
  mono : Nat := 0
  slew : Int := 0
  phase : Nat := 0
  latchHi : Word := 0
  st : TtState := .free
  syncLost : Bool := false
  slave : Option (Nat × Nat) := none
  offset : Int := 0
  okSince : Option Nat := none
  holdSince : Option Nat := none
  schedFrom : Nat := 0
  stepped : Bool := false
  bases : Tbl Master := []
  ppsLast : Nat := 0
  ppsMono : Option Nat := none
  ppsOk : Bool := false
  ppsRejects : BitVec 16 := 0
  ppsOut : Bool := false
  tblState : TblState := .idle
  tblReject : Bool := false
  tblLate : Bool := false
  tblGen : BitVec 16 := 0
  standby : Tbl DWord := []
  active : Tbl DWord := []
  tblOn : Bool := false
  sailing : Nat := 100
  cycleLen : Nat := 65536
  origin : Nat := 0
deriving DecidableEq, Repr, Inhabited

/-! ### Ferry -/

/-- The sequence of an ordered pair of modules, both ways (R477); `owed` says that a HELLO with NEW = 1 found no connection. -/
structure Peer where
  sys : BitVec 8
  device : BitVec 14
  owed : Bool := false
  mseq : Nat := 0
  acted : Nat := 0
  kept : List (Nat × List Byte) := []
deriving DecidableEq, Repr

/-- A barrier sum (R479). -/
structure Barrier where
  job : Nat
  bseq : Nat
  sum : Nat
  from_ : List (BitVec 8 × BitVec 14)
  atSystem : Bool
deriving DecidableEq, Repr

/-- An open window for a subject (R483, R484): at a group ferrymaster the reporters are workers; at the system ferrymaster they
are groups with their largest counts. -/
structure RepWindow where
  sys : BitVec 8
  device : BitVec 14
  at_ : Nat
  reasons : Nat
  first : Nat
  reporters : List (Nat × Nat)
deriving DecidableEq, Repr

/-- The report limiter of a subject (R482): when the last SILENT was sent, and the triggers folded since. -/
structure Silence where
  sys : BitVec 8
  device : BitVec 14
  sentAt : Nat
  folded : Nat
  reasons : Nat
  first : Nat
deriving DecidableEq, Repr

/-- The ferry duties of the management core: the peers, the barrier sums, the windows of reports, when each worker was last heard
and whose HEALTH body FERRY_AREA holds (R481), the report limiters, the timetable plan (epoch and generation), and the timetable
misses counted since the last summary (R480). -/
structure Ferry where
  peers : List Peer := []
  barriers : List Barrier := []
  groupWins : List RepWindow := []
  sysWins : List RepWindow := []
  heard : Tbl Nat := []
  kept : List Nat := []
  silences : List Silence := []
  plan : Option (Nat × Nat) := none
  misses : Nat := 0
  healthAt : Option Nat := none
deriving DecidableEq, Repr, Inhabited

/-! ### Boot, security, manifest, diagnostics -/

/-- Start-up (R547-R559): the phase and cause of MG_BOOT_STAT, the slot booted and whether it is the fallback, what the image said of itself,
its digest, how many full resets there have been, and when the phase began. -/
structure Boot where
  phase : Nat := 0
  hcause : Nat := 0
  slot : Bool := false
  fallback : Bool := false
  ready : Bool := false
  fenced : BitVec 16 := 0
  heldReset : Bool := false
  fwVersion : Word := 0
  fwSvn : BitVec 16 := 0
  commitSvn : Bool := false
  digest : List Byte := []
  resets : Nat := 0
  romDone : Bool := false
  phaseAt : Nat := 0
deriving DecidableEq, Repr, Inhabited

/-- What survives in flash and fuses (R550, R553, R555). `commit` marks a slot activated with COMMIT_SVN = 1. -/
structure Flash where
  slot0 : Mem := {}
  slot1 : Mem := {}
  svnMin : BitVec 16 := 0
  commit0 : Bool := false
  commit1 : Bool := false
deriving DecidableEq, Repr, Inhabited

/-- The security unit (R556, R562, R582, R585): the debug latch, the cleared key store, whether an identity key is derived, the measurement
registers, and the digest of the manifest in force. -/
structure Sec where
  debug : Bool := false
  keysCleared : Bool := false
  identity : Bool := false
  meas : Tbl (List Byte) := []
  digest : List Byte := []
deriving DecidableEq, Repr, Inhabited

/-- The manifest fields that belong to no berth (R464, R566). -/
structure Manifest where
  loaded : Bool := false
  ident : DWord := 0
  vlan : Nat := 1
  prioSched : Nat := 0
  prioColl : Nat := 0
  prioBulk : Nat := 0
  prioMgmt : Nat := 0
  pfcEn : BitVec 8 := 0
  remapOk : Bool := false
  roles : List Nat := [0, 0, 0, 0, 0, 0, 0, 0]
  mgmtBerth : Option Nat := none
  ferryArea : Option Nat := none
  bistArea : Option Nat := none
  roster : List (Nat × Nat × Nat) := []
deriving DecidableEq, Repr, Inhabited

/-- A LOAD_MANIFEST in progress (R568-R572): the message, and the bytes once verified. -/
structure Load where
  conn : Nat
  hseq : Word
  addr : Nat
  len : Nat
  verified : Option (List Byte) := none
deriving DecidableEq, Repr

/-- The diagnostic in progress (R577-R581). -/
structure Diag where
  busy : Bool := false
  type : Nat := 0
  outcome : Nat := 0
  hseq : Word := 0
  conn : Nat := 0
  addr : Nat := 0
  off : Nat := 0
  len : Nat := 0
  bistDeck : Option Nat := none
deriving DecidableEq, Repr, Inhabited

/-! ### Power and SMBus -/

/-- One sensor (R604): the last accepted reading, consecutive discards, readings at or above 110 in a row, failed, and
when it was read last. -/
structure Sensor where
  val : Option Int := none
  bad : Nat := 0
  hot : Nat := 0
  failed : Bool := false
  readAt : Option Nat := none
deriving DecidableEq, Repr

/-- The power and health controller (R587-R614): rails, PG and the PWR_EN pin as they are, VIN, the state and cause of PW_STAT, the throttle
levels and counts, the readings, the reference clock, the alert bits, the wear registers, and when the last 1 ms tick was, when Q_FAST's condition held
last or Q_FAST fell, and when wear was computed last. -/
structure Power where
  hkOn : Bool := true
  loadsOn : Bool := true
  pg : Bool := true
  pwrEn : Bool := true
  offAt : Option Nat := none
  restart : Bool := false
  vinMv : Nat := 44000
  state : Nat := 1
  scause : Nat := 0
  coolRange : Bool := false
  coolSince : Option Nat := none
  qLim : Nat := 0
  qFast : Nat := 0
  qTh : Nat := 0
  fastHeld : Bool := false
  evPower : BitVec 16 := 0
  evTherm : BitVec 16 := 0
  vin : BitVec 17 := 0
  iin : BitVec 16 := 0
  watts : BitVec 16 := 0
  sensors : Tbl Sensor := []
  clkOk : Bool := false
  clkPpm : BitVec 16 := 0
  alert : BitVec 7 := 0
  answered : Bool := false
  wearEol : Word := 0x0000FFFF
  wearBelow : Bool := false
  wearRo : Tbl Word := []
  wearHbm : Word := 0
  wearEye : Word := 0x0000FFFF
  wearCap : Word := 0
  tickAt : Option Nat := none
  fastAt : Option Nat := none
  wearAt : Option Nat := none
deriving DecidableEq, Repr, Inhabited

/-- The SMBus port (R609): its pointer, and the address that the ADDR pins gave it when BOOT_ROM_CHECK sampled them. -/
structure Smb where
  pointer : BitVec 16 := 0
  address : Nat := 0x60
deriving DecidableEq, Repr, Inhabited

/-! ### The whole module -/

/-- The module. A table (Tbl) lists only what differs from its default. `pending` is the queue of commands, `rw` holds every register kept as
written, by device address, `out` what has been sent, `free` and `nextId` are the model's counters (log entry 2). -/
structure State where
  pending : List Instr := []
  fitted : Fitted := {}
  rw : Tbl Word := []
  time : TimeUnit := {}
  ports : Tbl Port := []
  conns : Tbl Conn := []
  ringAddr : Nat := 0
  ringLog2 : Nat := 4
  landings : Tbl LandingSt := []
  berths : Tbl Berth := []
  windows : Tbl Window := []
  trkAlloc : Tbl Nat := []
  trkErr : Bool := false
  trk : List Trk := []
  fabric : Fabric := {}
  arbRank : Tbl Nat := []
  stk : Tbl Stack := []
  hbm : Mem := {}
  poison : List Nat := []
  quays : Tbl Quay := []
  qflags : Tbl (BitVec 16) := []
  cflags : Tbl (BitVec 16) := []
  waits : List Wait := []
  halves : Tbl Half := []
  cmdMem : Mem := {}
  decks : Tbl Deck := []
  gangs : Tbl Gang := []
  runs : List Run := []
  fc : Collector := {}
  occ : List Occ := []
  ends : List EndEvt := []
  ferry : Ferry := {}
  boot : Boot := {}
  flash : Flash := {}
  sec : Sec := {}
  man : Manifest := {}
  load : Option Load := none
  diag : Diag := {}
  pw : Power := {}
  smb : Smb := {}
  out : List Out := []
  free : Nat := 0
  nextId : Nat := 0
deriving DecidableEq, Repr, Inhabited

/-- Why the model would stop. No rule of the spec stops the module: every fault of the spec is a next state, so nothing raises
this one. -/
inductive Fault where
  /-- Raised by no command. Safe: nothing rests on it. -/
  | none
deriving DecidableEq, Repr

/-- Why the model would refuse a command. -/
inductive Refusal where
  /-- Raised by exec's arm of a command that has no meaning yet. Safe: nothing is claimed of it. -/
  | notModelled (mnemonic : String)
deriving DecidableEq, Repr

/-- A memory of which the bytes [0, size) are undefined, as generation `gen`. -/
def Mem.open_ (size gen : Nat) : Mem := { marks := [⟨0, size, some gen⟩] }

/-- A deck after a full reset: buffers and accumulators undefined, as three generations from `gen` on (R619). -/
def Deck.afterReset (gen : Nat) : Deck :=
  { buf0 := Mem.open_ 0x600000 gen, buf1 := Mem.open_ 0x600000 (gen + 1), acc := Mem.open_ 0x100000 (gen + 2) }

/-- What a full reset leaves before the boot ROM has checked itself, with the undefined contents of HBM, command memory and decks
numbered from `gen` on (R550, R617, R619): every field at the value the spec gives for reset, and at the value a log entry names
where the spec gives none (log entries 2, 4-8). -/
def State.afterReset (gen : Nat) : State :=
  { hbm := Mem.open_ (2 ^ 38) gen, cmdMem := Mem.open_ 0x200000 (gen + 1),
    decks := (List.range 16).map (fun d => (d, Deck.afterReset (gen + 2 + 3 * d))), free := gen + 50 }

/-- The module at the end of its first full reset, before its boot ROM has checked itself. What its flash holds is left open (log entry
5). -/
def State.reset : State :=
  { State.afterReset 2 with flash := { slot0 := Mem.open_ 0x1000000 0, slot1 := Mem.open_ 0x1000000 1 } }

end Sys2Proof.Machine

namespace Sys2Proof.Config

/-- The state of the module after what the JTAG port has done to it for the `n`-th time: the spec calls it undefined (R583, log
entry 2). -/
opaque scannedState (n : Nat) : Machine.State

end Sys2Proof.Config
end

