-- ==== Sys2Proof/Machine/Tables.lean ====
section
/-! DEFINITION. Tables, memories in canonical form, bit fields and byte order. -/

namespace Sys2Proof.Machine

/-! ### Tables -/

/-- The value a table holds for `k`; `d` is the table's default. -/
def tget {α : Type} (d : α) : Tbl α → Nat → α
  | [], _ => d
  | (j, v) :: r, k => if j = k then v else tget d r k

/-- Whether a table lists `k`. -/
def thas {α : Type} : Tbl α → Nat → Bool
  | [], _ => false
  | (j, _) :: r, k => if j = k then true else thas r k

/-- The table with `k` holding `v`, the numbers kept rising. -/
def tput {α : Type} : Tbl α → Nat → α → Tbl α
  | [], k, v => [(k, v)]
  | (j, w) :: r, k, v =>
    if k < j then (k, v) :: (j, w) :: r
    else if k = j then (k, v) :: r
    else (j, w) :: tput r k v

/-- The table without `k`. -/
def tdel {α : Type} (t : Tbl α) (k : Nat) : Tbl α := t.filter (fun e => e.1 != k)

/-! ### Bit fields and byte order (R14, R15) -/

/-- Bits [hi:lo] of a number. -/
def bits (n hi lo : Nat) : Nat := (n >>> lo) % 2 ^ (hi + 1 - lo)

/-- Bit `i` of a number. -/
def bit (n i : Nat) : Bool := n.testBit i

/-- 1 or 0, placed at bit `i`. -/
def flagAt (b : Bool) (i : Nat) : Nat := if b then 2 ^ i else 0

/-- The number that little-endian bytes hold (R15). -/
def leNat : List Byte → Nat
  | [] => 0
  | b :: r => b.toNat + 256 * leNat r

/-- A number as `len` little-endian bytes (R15). -/
def natLe : Nat → Nat → List Byte
  | 0, _ => []
  | len + 1, n => BitVec.ofNat 8 n :: natLe len (n / 256)

/-- The bytes [off, off + len) of a list, zero beyond its end. -/
def slice (l : List Byte) (off len : Nat) : List Byte :=
  let m := (l.drop off).take len
  m ++ List.replicate (len - m.length) 0

/-- The little-endian field at an offset. -/
def leAt (l : List Byte) (off len : Nat) : Nat := leNat (slice l off len)

/-- A two's complement number of `w` bits. -/
def signed (w n : Nat) : Int := if n % 2 ^ w < 2 ^ (w - 1) then (n % 2 ^ w : Nat) else (n % 2 ^ w : Nat) - (2 ^ w : Nat)

/-- Two's complement of an integer in `w` bits. -/
def unsigned (w : Nat) (i : Int) : Nat := (i % (2 ^ w : Nat)).toNat

/-- Round up to a multiple. -/
def roundUp (n m : Nat) : Nat := (n + m - 1) / m * m

/-- Ceiling of a quotient. -/
def cdiv (n m : Nat) : Nat := (n + m - 1) / m

/-- The unit of a saturating 32-bit counter (R120, R348, R413). -/
def satInc (w : Word) (n : Nat) : Word := BitVec.ofNat 32 (min (w.toNat + n) 0xFFFFFFFF)

/-- The element at a position, or a default. -/
def nth {α : Type} (d : α) (l : List α) (i : Nat) : α := l.getD i d

/-- The position of the first element that a test accepts. -/
def indexWhere {α : Type} (p : α → Bool) : List α → Option Nat
  | [] => none
  | a :: r => if p a then some 0 else (indexWhere p r).map (· + 1)

/-- Change the elements that a test accepts. -/
def mapWhere {α : Type} (p : α → Bool) (f : α → α) (l : List α) : List α := l.map (fun a => if p a then f a else a)

/-- Remove the first element that a test accepts. -/
def dropFirst {α : Type} (p : α → Bool) : List α → List α
  | [] => []
  | a :: r => if p a then r else a :: dropFirst p r

/-! ### Memories -/

/-- What an unlisted byte reads as, by the newest mark that covers it. -/
def markByte : List Mark → Nat → Byte
  | [], _ => 0
  | m :: r, a =>
    if m.lo ≤ a ∧ a < m.hi then
      match m.gen with
      | some g => Config.freeByte g a
      | none => 0
    else markByte r a

/-- What an unlisted byte of a memory reads as. -/
def Mem.unlisted (m : Mem) (a : Nat) : Byte := markByte m.marks a

/-- Read one byte. -/
def Mem.read (m : Mem) (a : Nat) : Byte := tget (m.unlisted a) m.cells a

/-- Write one byte, keeping the canonical form. -/
def Mem.write (m : Mem) (a : Nat) (v : Byte) : Mem :=
  if v = m.unlisted a then { m with cells := tdel m.cells a } else { m with cells := tput m.cells a v }

/-- Read `len` bytes. -/
def Mem.readBytes (m : Mem) (a : Nat) : Nat → List Byte
  | 0 => []
  | n + 1 => m.read a :: m.readBytes (a + 1) n

/-- Write bytes from an address up. -/
def Mem.writeBytes (m : Mem) (a : Nat) : List Byte → Mem
  | [] => m
  | b :: r => (m.write a b).writeBytes (a + 1) r

/-- The cells outside [lo, hi). -/
def cellsOutside (cells : List Host.Cell) (lo hi : Nat) : List Host.Cell :=
  cells.filter (fun c => decide (c.1 < lo ∨ hi ≤ c.1))

/-- The bytes of [lo, hi) become undefined, as generation `gen`. -/
def Mem.undefine (m : Mem) (lo hi gen : Nat) : Mem :=
  { marks := ⟨lo, hi, some gen⟩ :: m.marks, cells := cellsOutside m.cells lo hi }

/-- The bytes of [lo, hi) become zero. -/
def Mem.zero (m : Mem) (lo hi : Nat) : Mem :=
  let marks := m.marks.filter (fun k => !(decide (lo ≤ k.lo) && decide (k.hi ≤ hi)))
  if marks.all (fun k => decide (k.hi ≤ lo) || decide (hi ≤ k.lo)) then
    { marks := marks, cells := cellsOutside m.cells lo hi }
  else { marks := ⟨lo, hi, none⟩ :: marks, cells := cellsOutside m.cells lo hi }

/-- The canonical form: addresses strictly rising, and no entry equal to what an unlisted byte reads as. -/
def rising : List Nat → Bool
  | [] => true
  | [_] => true
  | a :: b :: r => decide (a < b) && rising (b :: r)

/-- The canonical form of a memory. -/
def Mem.wf (m : Mem) : Bool :=
  rising (m.cells.map (·.1)) && m.cells.all (fun c => c.2 != m.unlisted c.1)

end Sys2Proof.Machine
end

