-- ==== Sys2Proof/Machine/Crypto.lean ====
section
/-! DEFINITION. SHAKE256 (FIPS 202) and the verification of pure Ed448 with an empty context (RFC 8032), which R553, R562 and
R565 name. -/

namespace Sys2Proof.Machine

/-! ### SHAKE256 -/

/-- A state of Keccak-f[1600]: five planes of five lanes, plane by plane. -/
abbrev Planes := List (List (BitVec 64))

/-- The lane in column `x` of plane `y`, both counted modulo 5. -/
def lane (p : Planes) (x y : Nat) : BitVec 64 := nth 0 (nth [] p (y % 5)) (x % 5)

/-- The state whose lanes a function gives. -/
def planes (f : Nat → Nat → BitVec 64) : Planes := (List.range 5).map (fun y => (List.range 5).map (fun x => f x y))

/-- The parity of a column of lanes. -/
def columnParity (p : Planes) (x : Nat) : BitVec 64 := p.foldl (fun v q => v ^^^ nth 0 q (x % 5)) 0

/-- Step θ: to each lane the parities of the column before it and, rotated, of the one behind. -/
def stepTheta (p : Planes) : Planes :=
  let mix := (List.range 5).map (fun x => columnParity p (x + 4) ^^^ (columnParity p (x + 1)).rotateLeft 1)
  p.map (fun q => q.zipWith (fun v w => v ^^^ w) mix)

/-- The rotations of step ρ: from lane (1, 0) on, the walk (x, y) to (y, 2x + 3y) meets each lane once, and its step `t` gives the lane it
meets the rotation (t + 1)(t + 2) / 2. -/
def rhoWalk : Nat → Nat → Nat × Nat → List ((Nat × Nat) × Nat)
  | 0, _, _ => []
  | n + 1, t, k => (k, (t + 1) * (t + 2) / 2 % 64) :: rhoWalk n (t + 1) (k.2, (2 * k.1 + 3 * k.2) % 5)

/-- The rotation of a lane; that of lane (0, 0) is none. -/
def rhoOf (walk : List ((Nat × Nat) × Nat)) (x y : Nat) : Nat :=
  match walk.find? (fun e => e.1 == (x % 5, y % 5)) with
  | some e => e.2
  | none => 0

/-- Steps ρ and π: the lane at (x, y) is the rotated one of (x + 3y, x). -/
def stepRhoPi (p : Planes) : Planes :=
  let walk := rhoWalk 24 0 (1, 0)
  planes (fun x y => (lane p (x + 3 * y) x).rotateLeft (rhoOf walk (x + 3 * y) x))

/-- Step χ. -/
def stepChi (p : Planes) : Planes := planes (fun x y => lane p x y ^^^ (lane p (x + 2) y &&& ~~~lane p (x + 1) y))

/-- The shift register behind the round constants, moved on `n` times. -/
def shiftRegister : Nat → Nat → Nat
  | 0, r => r
  | n + 1, r => shiftRegister n (if 128 ≤ r then (2 * r) ^^^ 0x171 else 2 * r)

/-- The constant of a round: bit 2^j − 1 is the register's output at moment 7 × round + j, j = 0 to 6. -/
def roundConstant (round : Nat) : BitVec 64 :=
  BitVec.ofNat 64 ((List.range 7).foldl (fun v j => v + shiftRegister (7 * round + j) 1 % 2 * 2 ^ (2 ^ j - 1)) 0)

/-- A round, which step ι ends. -/
def keccakRound (p : Planes) (round : Nat) : Planes :=
  match stepChi (stepRhoPi (stepTheta p)) with
  | (v :: first) :: rest => ((v ^^^ roundConstant round) :: first) :: rest
  | q => q

/-- Keccak-f[1600]. -/
def keccakF (p : Planes) : Planes := (List.range 24).foldl keccakRound p

/-- The bytes that one application of SHAKE256 takes in. -/
def shakeRate : Nat := 136

/-- A block is added to the state, which is then permuted. -/
def absorbBlock (p : Planes) (block : List Byte) : Planes :=
  keccakF (planes (fun x y => lane p x y ^^^ BitVec.ofNat 64 (leAt block (8 * (5 * y + x)) 8)))

/-- The message with SHAKE256's suffix 1111 and the padding 10*1, a whole number of blocks. -/
def shakePad (l : List Byte) : List Byte :=
  let last := shakeRate - 1 - l.length % shakeRate
  let tail := 0x1F :: List.replicate last 0
  l ++ tail.dropLast ++ [nth 0 tail last ||| 0x80]

/-- SHAKE256 with `n` bytes of output, at most the rate. (DESIGN CHOICE, log entry 8.) -/
def shake256 (n : Nat) (l : List Byte) : List Byte :=
  let padded := shakePad l
  let blocks := (List.range (padded.length / shakeRate)).map (fun i => slice padded (shakeRate * i) shakeRate)
  let p := blocks.foldl absorbBlock (planes (fun _ _ => 0))
  (p.flatMap (fun q => q.flatMap (fun v => natLe 8 v.toNat))).take n

/-- The 64-byte digest that the spec uses throughout (R553, R562, R565). -/
def digest64 (l : List Byte) : List Byte := shake256 64 l

/-! ### Ed448 -/

/-- The field's prime. -/
def edP : Nat := 2 ^ 448 - 2 ^ 224 - 1

/-- The order of the base point. -/
def edL : Nat := 2 ^ 446 - 0x8335dc163bb124b65129c96fde933d8d723a70aadc873d6d54a7bb0d

/-- The curve constant −39081. -/
def edD : Nat := edP - 39081

/-- Powers modulo p: `fuel` bits of the exponent. -/
def powMod : Nat → Nat → Nat → Nat
  | 0, _, _ => 1
  | f + 1, b, e =>
    let h := powMod f (b * b % edP) (e / 2)
    if e % 2 = 1 then h * b % edP else h

/-- A point in projective coordinates. -/
structure EdPoint where
  x : Nat
  y : Nat
  z : Nat
deriving DecidableEq, Repr

/-- The sum of two points. -/
def edAdd (u v : EdPoint) : EdPoint :=
  let a := u.z * v.z % edP
  let b := a * a % edP
  let c := u.x * v.x % edP
  let d := u.y * v.y % edP
  let e := edD * (c * d % edP) % edP
  let f := (b + edP - e) % edP
  let g := (b + e) % edP
  let h := (u.x + u.y) * (v.x + v.y) % edP
  { x := a * f % edP * ((h + 2 * edP - c - d) % edP) % edP,
    y := a * g % edP * ((d + edP - c) % edP) % edP,
    z := f * g % edP }

/-- Multiples of a point: `fuel` bits of the scalar. -/
def edMul : Nat → Nat → EdPoint → EdPoint
  | 0, _, _ => ⟨0, 1, 1⟩
  | f + 1, k, p =>
    let h := edMul f (k / 2) (edAdd p p)
    if k % 2 = 1 then edAdd h p else h

/-- Equality of points. -/
def edEq (u v : EdPoint) : Bool :=
  u.x * v.z % edP == v.x * u.z % edP && u.y * v.z % edP == v.y * u.z % edP

/-- The base point. -/
def edBase : EdPoint :=
  ⟨224580040295924300187604334099896036246789641632564134246125461686950415467406032909029192869357953282578032075146446173674602635247710,
   298819210078481492676017930443930673437544040154080242095928241372331506189835876003536878655418784733982303233503462500531545062832660, 1⟩

/-- Decoding of a 57-byte point. -/
def edDecode (l : List Byte) : Option EdPoint :=
  let n := leNat (l.take 57)
  let sign := n / 2 ^ 455 % 2
  let y := n % 2 ^ 455
  if l.length ≠ 57 ∨ edP ≤ y then none
  else
    let u := (y * y + edP - 1) % edP
    let v := (edD * (y * y % edP) + edP - 1) % edP
    let u3 := u * u % edP * u % edP
    let v3 := v * v % edP * v % edP
    let x := u3 * v % edP * powMod 448 (u3 * u % edP * u % edP * v3 % edP) ((edP - 3) / 4) % edP
    if v * (x * x % edP) % edP ≠ u then none
    else if x = 0 ∧ sign = 1 then none
    else some ⟨if x % 2 = sign then x else edP - x, y, 1⟩

/-- The octets "SigEd448", the flag 0 and the empty context's length. -/
def edDom : List Byte := [0x53, 0x69, 0x67, 0x45, 0x64, 0x34, 0x34, 0x38, 0, 0]

/-- Whether a 114-byte signature of a message verifies under a 57-byte key. (DESIGN CHOICE, log entry 8.) -/
def ed448Verify (key msg sig : List Byte) : Bool :=
  let s := leNat ((sig.drop 57).take 57)
  if sig.length ≠ 114 ∨ edL ≤ s then false
  else
    match edDecode key, edDecode (sig.take 57) with
    | some a, some r =>
      let k := leNat (shake256 114 (edDom ++ sig.take 57 ++ key ++ msg)) % edL
      edEq (edMul 3 4 (edMul 448 s edBase)) (edMul 3 4 (edAdd r (edMul 448 k a)))
    | _, _ => false

end Sys2Proof.Machine
end

