-- ==== Sys2Proof/Machine/Ops.lean ====
section
/-! DEFINITION. The named operations over the state: access to its parts, the registers' reset values, raising a fault,
writing records and sending, the memory windows, transactions, undefined values. -/

namespace Sys2Proof.Machine

/-- What a command answers. -/
abbrev Answer := Host.Outcome State Fault Refusal

/-! ### Parts of the state -/

/-- Deck `d`. -/
def deckOf (s : State) (d : Nat) : Deck := tget {} s.decks d

/-- Deck `d` replaced. -/
def setDeck (s : State) (d : Nat) (x : Deck) : State := { s with decks := tput s.decks d x }

/-- Quay `q`. -/
def quayOf (s : State) (q : Nat) : Quay := tget {} s.quays q

/-- Quay `q` replaced. -/
def setQuay (s : State) (q : Nat) (x : Quay) : State := { s with quays := tput s.quays q x }

/-- Context `c` of quay `q`. -/
def ctxOf (s : State) (q c : Nat) : Ctx := tget {} (quayOf s q).ctxs c

/-- Context `c` of quay `q` replaced. -/
def setCtx (s : State) (q c : Nat) (x : Ctx) : State :=
  let y := quayOf s q
  setQuay s q { y with ctxs := tput y.ctxs c x }

/-- Port `p`. -/
def portOf (s : State) (p : Nat) : Port := tget {} s.ports p

/-- Port `p` replaced. -/
def setPort (s : State) (p : Nat) (x : Port) : State := { s with ports := tput s.ports p x }

/-- Sub-port `k` of port `p`. -/
def linkOf (s : State) (p k : Nat) : Link := tget {} (portOf s p).links k

/-- Sub-port `k` of port `p` replaced. -/
def setLink (s : State) (p k : Nat) (x : Link) : State :=
  let y := portOf s p
  setPort s p { y with links := tput y.links k x }

/-- Connection `n`. -/
def connOf (s : State) (n : Nat) : Conn := tget {} s.conns n

/-- Connection `n` replaced. -/
def setConn (s : State) (n : Nat) (x : Conn) : State := { s with conns := tput s.conns n x }

/-- Landing `l`; 16 is the management landing. -/
def landOf (s : State) (l : Nat) : LandingSt := tget {} s.landings l

/-- Landing `l` replaced. -/
def setLand (s : State) (l : Nat) (x : LandingSt) : State := { s with landings := tput s.landings l x }

/-- Berth `b`. -/
def berthOf (s : State) (b : Nat) : Berth := tget {} s.berths b

/-- Berth `b` replaced. -/
def setBerth (s : State) (b : Nat) (x : Berth) : State := { s with berths := tput s.berths b x }

/-- Window `n`. -/
def windowOf (s : State) (n : Nat) : Window := tget {} s.windows n

/-- Stack `k`. -/
def stackOf (s : State) (k : Nat) : Stack := tget {} s.stk k

/-- Stack `k` replaced. -/
def setStack (s : State) (k : Nat) (x : Stack) : State := { s with stk := tput s.stk k x }

/-- The running command named `id`. -/
def runOf (s : State) (id : Nat) : Option Run := s.runs.find? (fun r => r.id == id)

/-- A running command replaced. -/
def setRun (s : State) (r : Run) : State := { s with runs := mapWhere (fun x => x.id == r.id) (fun _ => r) s.runs }

/-- A running command removed. -/
def dropRun (s : State) (id : Nat) : State := { s with runs := s.runs.filter (fun r => r.id != id) }

/-- A name not used before. (DESIGN CHOICE, log entry 2.) -/
def freshId (s : State) : Nat × State := (s.nextId, { s with nextId := s.nextId + 1 })

/-- An undefined or unstated 64-bit value (log entry 2). -/
def freshWord (s : State) : DWord × State := (Config.freeWord s.free, { s with free := s.free + 1 })

/-- A number that names a range becoming undefined (log entry 2). -/
def freshGen (s : State) : Nat × State := (s.free, { s with free := s.free + 1 })

/-! ### Assembly (R4-R7, R33) -/

/-- Whether stack `k` is populated. -/
def populated (s : State) (k : Nat) : Bool := bit s.fitted.stackSet.toNat k

/-- The populated stacks in ascending order. -/
def stacksIn (s : State) : List Nat := (List.range 16).filter (populated s)

/-- The populated capacity in bytes (R34). -/
def capacity (s : State) : Nat := 2 ^ 34 * (stacksIn s).length

/-- Whether port `p` is fitted. -/
def fittedPort (s : State) (p : Nat) : Bool := bit s.fitted.portSet.toNat p

/-! ### The address map (R34) -/

/-- Base of the MG_ block. -/
def mgBase : Nat := 0xFF0000000000
/-- Base of the FC_ block. -/
def fcBase : Nat := 0xFF0000010000
/-- Base of the TT_ block. -/
def ttBase : Nat := 0xFF0000020000
/-- Base of the SC_ block. -/
def scBase : Nat := 0xFF0000030000
/-- Base of the PW_ block. -/
def pwBase : Nat := 0xFF0000040000
/-- Base of the MW_ block. -/
def mwBase : Nat := 0xFF0000050000
/-- Base of the QY_ block of quay `q`. -/
def qyBase (q : Nat) : Nat := 0xFF0001000000 + q * 0x100000
/-- Base of the DK_ block of deck `d`. -/
def dkBase (d : Nat) : Nat := 0xFF0002000000 + d * 0x10000
/-- Base of the PT_ block of port `p`. -/
def ptBase (p : Nat) : Nat := 0xFF0003000000 + p * 0x10000
/-- Base of the command memory of quay `q`. -/
def cmBase (q : Nat) : Nat := 0xFF1000000000 + q * 0x80000
/-- Base of the debug view of deck `d`. -/
def dbgBase (d : Nat) : Nat := 0x800000000000 + d * 0x1000000

/-! ### Fault sources (R544) -/

/-- The default class of a source code, none for a code that names no source. -/
def faultDefault (code : Nat) : Option Nat :=
  if [0x0A, 0x0B, 0x22, 0x2B, 0x34, 0x37, 0x40, 0x41, 0x42, 0x43, 0x44, 0x47, 0x4A, 0x50, 0x52, 0x53, 0x54, 0x58, 0x59, 0x5A,
      0x5B, 0x5C, 0x71, 0x74, 0x82, 0x83, 0x85, 0x87, 0x88].contains code then some 0
  else if [0x0D, 0x24, 0x2C, 0x30, 0x48, 0x51, 0x60].contains code then some 1
  else if [0x08, 0x09, 0x0C, 0x0E, 0x20, 0x21, 0x23, 0x25, 0x26, 0x27, 0x28, 0x29, 0x2A, 0x31, 0x32, 0x33, 0x35, 0x36, 0x38,
           0x39, 0x45, 0x4B].contains code then some 2
  else if [0x01, 0x02, 0x0F, 0x46, 0x49].contains code then some 3
  else if [0x3A, 0x55, 0x5D, 0x61, 0x70, 0x81, 0x84, 0x86].contains code then some 4
  else if [0x72, 0x73, 0x80].contains code then some 5
  else none

/-- Whether the class of a source may only be raised (R530, R544). -/
def faultRaiseOnly (code : Nat) : Bool := [0x70, 0x71, 0x72, 0x73, 0x74, 0x80].contains code

/-! ### Registers kept by address (R617) -/

/-- The address of FC_SEV_n. -/
def fcSevAddr (code : Nat) : Nat := fcBase + 0x400 + 4 * code

/-- The reset value of the register kept at a device address (R617): what 18_register_index.md gives, zero where it gives
zero. -/
def rwReset (s : State) (a : Nat) : Word :=
  if a = mgBase + 0x17C then 0x01380000
  else if a = mgBase + 0x190 then 4
  else if a = fcBase + 4 then 2
  else if fcBase + 0x400 ≤ a ∧ a < fcBase + 0x800 then BitVec.ofNat 32 ((faultDefault ((a - fcBase - 0x400) / 4)).getD 0)
  else if a = pwBase + 4 then BitVec.ofNat 32 s.fitted.maxWatts
  else if a = pwBase + 0x84 then 0x7F
  else if a = pwBase + 0x104 then 0xB4
  else if a = ttBase + 0x10 then 0x80808000
  else if a = ttBase + 0x14 then 0x80000000
  else if a = ttBase + 0x20 then 2000
  else if mwBase + 0x200 ≤ a ∧ a < mwBase + 0x254 then
    (if a < mwBase + 0x240 then 192 else if a < mwBase + 0x250 then 128 else 512)
  else if mwBase + 0x1000 ≤ a ∧ a < mwBase + 0x1400 ∧ a % 0x40 = 0x0C then 10000
  else if qyBase 0 ≤ a ∧ a < qyBase 4 then
    let o := a % 0x100000
    if 0x100 ≤ o ∧ o < 0x118 then BitVec.ofNat 32 ((o - 0x100) / 4)
    else if o = 0x124 then 0x1000
    else if 0x400 ≤ o ∧ o < 0x880 ∧ o % 0x40 = 8 then 100000
    else 0
  else if ptBase 0 ≤ a ∧ a < ptBase 8 then
    let o := a % 0x10000
    if o = 0x20 then 0x640000 else if o = 0x24 then 0x80044032 else if o = 0x28 then 0x10 else 0
  else 0

/-- The register kept at a device address. -/
def regGet (s : State) (a : Nat) : Word := tget (rwReset s a) s.rw a

/-- The register kept at a device address, set. -/
def regSet (s : State) (a : Nat) (w : Word) : State := { s with rw := tput s.rw a w }

/-- The class applied to a source (R529). -/
def faultClass (s : State) (code : Nat) : Nat := (regGet s (fcSevAddr code)).toNat % 8

/-- Bits [hi:lo] of a register kept at a device address. -/
def regBits (s : State) (a hi lo : Nat) : Nat := bits (regGet s a).toNat hi lo

/-! ### Ownership and gangs -/

/-- Whether a berth is defined by the manifest in force. -/
def berthDefined (s : State) (b : Nat) : Bool := (berthOf s b).st != .undefined

/-- The decks of a berth in ascending order. -/
def berthDecks (s : State) (b : Nat) : List Nat :=
  (List.range 16).filter (fun d => bit (berthOf s b).cfg.decks.toNat d)

/-- The berth that holds a deck. -/
def deckBerth (s : State) (d : Nat) : Option Nat :=
  (List.range 16).find? (fun b => bit (berthOf s b).cfg.decks.toNat d)

/-- The home quay of a berth (R487). -/
def homeQuay (s : State) (b : Nat) : Nat := (berthDecks s b).headD 0 / 4

/-- Whether a deck is fenced (R96). -/
def deckFenced (s : State) (d : Nat) : Bool := bit (deckOf s d).gang.toNat 30

/-- Whether a deck is in quad mode (R96). -/
def deckQuad (s : State) (d : Nat) : Bool := bit (deckOf s d).gang.toNat 31

/-- FB_IDX of a deck; 15 means in no gang (R96). -/
def deckFb (s : State) (d : Nat) : Nat := bits (deckOf s d).gang.toNat 27 24

/-- The lead deck of a deck's gang (R96). -/
def deckLead (s : State) (d : Nat) : Nat := bits (deckOf s d).gang.toNat 19 16

/-- The members of a deck's gang in row-major order; none for a deck in no gang (R93, R96). -/
def gangMembers (s : State) (d : Nat) : List Nat :=
  if deckFb s d = 15 then []
  else (nth { gmLog := 0, gnLog := 0, members := [] }
    (tget {} s.gangs (bits (deckOf s d).gang.toNat 23 20)).shapes (deckFb s d)).members

/-- gm of a deck's gang. -/
def gangM (s : State) (d : Nat) : Nat := 2 ^ bits (deckOf s d).gang.toNat 14 12

/-- gn of a deck's gang. -/
def gangN (s : State) (d : Nat) : Nat := 2 ^ bits (deckOf s d).gang.toNat 10 8

/-- The decks that a task of a berth uses: those not fenced when it starts (R620). -/
def usedDecks (s : State) (b : Nat) : List Nat :=
  (List.range 16).filter (fun d => bit (berthOf s b).taskDecks.toNat d)

/-- Whether a berth has a task that has not ended. -/
def taskLive (s : State) (b : Nat) : Bool := (berthOf s b).cur.isSome && (berthOf s b).ended.isNone

/-- Whether the berth's task runs, so that its contexts and engines start commands (R272). -/
def taskRuns (s : State) (b : Nat) : Bool := taskLive s b && (berthOf s b).st == .running

/-- Whether engines of the berth's task still finish what they have started (R272). -/
def taskMoves (s : State) (b : Nat) : Bool :=
  taskLive s b && ((berthOf s b).st == .running || (berthOf s b).st == .suspending || (berthOf s b).st == .resuming)

/-! ### Raising a fault (R521, R522, R524) -/

/-- A source id (R522). -/
def sourceId (level unit code : Nat) : BitVec 16 := BitVec.ofNat 16 (level * 16384 + unit * 256 + code)

/-- An occurrence reaches its raising collector. The class in force there travels with it (R529); where it names a running
task and its class is TASK or above, the ending event reaches the home quay of the berth (R521). `task` is none where the
occurrence belongs to no task (R524). -/
def raise (s : State) (level unit code : Nat) (berth : Option Nat) (task : Option Word) (detail : Nat) : State :=
  let cls := faultClass s code
  let src := sourceId level unit code
  let o : Occ := { source := src, cls := cls, berth := berth, task := task.getD 0, tide := s.time.tide, at_ := s.time.mono,
                   detail := BitVec.ofNat 64 detail, fromTask := task.isSome }
  let s1 := { s with occ := s.occ ++ [o] }
  match berth, task with
  | some b, some t =>
    if 2 ≤ cls then
      { s1 with ends := s1.ends ++
          [{ berth := b, task := t, sev := cls,
             info := { status := 1, cause := 2, source := src, tide := s.time.tide, at_ := s.time.mono } }] }
    else s1
  | _, _ => s1

/-- An occurrence that names no berth and no task, at chip level. -/
def raiseChip (s : State) (unit code detail : Nat) : State := raise s 3 unit code none none detail

/-- An occurrence that names a berth and its current task. -/
def raiseBerth (s : State) (level unit code b detail : Nat) : State :=
  raise s level unit code (some b) (berthOf s b).cur detail

/-- An occurrence at a deck: it names the berth that holds the deck and its current task. -/
def raiseDeck (s : State) (level d code detail : Nat) : State :=
  match deckBerth s d with
  | some b => raiseBerth s level d code b detail
  | none => raise s level d code none none detail

/-- Level and unit of the requester of a context (R544): the deck of contexts 0-15, the quay of contexts 16 and 17. -/
def ctxUnit (q c : Nat) : Nat × Nat := if c < 16 then (1, 4 * q + c / 4) else (2, q)

/-- The deck of a context 0-15. -/
def ctxDeck (q c : Nat) : Nat := 4 * q + c / 4

/-- An occurrence of a request of a context. -/
def raiseCtx (s : State) (q c code b detail : Nat) : State :=
  raiseBerth s (ctxUnit q c).1 (ctxUnit q c).2 code b detail

/-- An occurrence at a port that concerns a connection: it names the berth that owns it (R524). -/
def raiseConn (s : State) (p code n detail : Nat) : State :=
  if n = 0 then raise s 3 (8 + p) code none none detail
  else raiseBerth s 3 (8 + p) code (connOf s n).berth detail

/-- Whether a source reported at a bounded rate may raise again: `every` nanoseconds since it last did. (DEDUCED, log entry 45.) -/
def mayReport (s : State) (code key every : Nat) : Bool :=
  match s.fc.reported.find? (fun e => e.1 == (code, key)) with
  | some e => decide (e.2 + every ≤ s.time.mono)
  | none => true

/-- Whether a period has passed since the last of a recurring event. -/
def due (s : State) (last : Option Nat) (period : Nat) : Bool :=
  match last with
  | some a => decide (a + period ≤ s.time.mono)
  | none => true

/-- The moment of a report of bounded rate. (DEDUCED, log entry 45.) -/
def noteReport (s : State) (code key : Nat) : State :=
  { s with fc := { s.fc with reported := ((code, key), s.time.mono) :: s.fc.reported.filter (fun e => e.1 != (code, key)) } }

/-! ### Sending -/

/-- Append to what the module has sent. -/
def send (s : State) (o : Out) : State := { s with out := s.out ++ [o] }

/-- Whether a connection can carry a request: valid and not in the error state (R406). -/
def connUsable (s : State) (n : Nat) : Bool := (connOf s n).valid && !(connOf s n).err

/-- The packets of an RDMA message of `len` bytes with a payload of 4,096 bytes (R398). -/
def packetsOf (len : Nat) : Nat := max 1 (cdiv len 4096)

/-- The logical port that a physical port carries (R392). -/
def lportOf (s : State) (p : Nat) : Nat := (portOf s p).swap.getD p

/-- The physical port that carries a logical port: a remap swaps two ports (R391, R392). -/
def portFor (s : State) (l : Nat) : Nat := lportOf s l

/-- The physical port of a connection. -/
def connPort (s : State) (n : Nat) : Nat := portFor s (connOf s n).lport

/-- Whether a connection belongs to the management function: connection 0 or one with MGMT = 1 (R393). -/
def connMgmt (s : State) (n : Nat) : Bool := n == 0 || (connOf s n).mgmt

/-- Whether a port carries the packets of a connection now: its sub-port's link is up, and the port is up, or awaits a card or is
quarantined and the connection is a management one (R389, R393). -/
def carries (s : State) (n : Nat) : Bool :=
  let p := connPort s n
  (linkOf s p (connOf s n).sub).step == 4 &&
  (match (portOf s p).state with
   | .up => true
   | .remapped => true
   | .awaiting => connMgmt s n
   | .quarantined => connMgmt s n
   | _ => false)

/-! ### Frames (R377, R379, R394, R404) -/

/-- The priority code point of a kind of request (R379). That of one that the spec's table does not list, such as a record on a berth's own
connection, is a free value. (DESIGN CHOICE, log entry 37.) -/
def kindPcp (s : State) (n : Nat) (kind : ReqKind) (sailing : Bool) : Nat :=
  if connMgmt s n then s.man.prioMgmt
  else if sailing then s.man.prioSched
  else
    match kind with
    | .segment _ => s.man.prioColl
    | .xfer _ => s.man.prioBulk
    | .hold _ _ => s.man.prioBulk
    | .recall _ _ => s.man.prioBulk
    | _ => (Config.freeWord (2 ^ 64 + 2)).toNat % 8

/-- The address of the next hop (R404): that of the connection's entry, or where it is zero that of the landing-card peer on its port; without a card it
is a free value. (DEDUCED, log entry 37.) -/
def nextHop (s : State) (n : Nat) : BitVec 48 :=
  let c := connOf s n
  if c.nhMac != 0 || n == 0 then c.nhMac
  else
    match (linkOf s (connPort s n) c.sub).card with
    | some k => k.mac
    | none => BitVec.ofNat 48 (Config.freeWord (2 ^ 64 + 3)).toNat

/-- The frame of a packet on a connection: the manifest's VLAN_ID, the priority code point, a DSCP of eight times it, ECT(0), and the R_Key of
WRITE and READ (R379, R404). -/
def frameOf (s : State) (n pcp : Nat) (m : Roce) (sailing : Bool) : Frame :=
  { port := connPort s n, sub := (connOf s n).sub, dst := nextHop s n, vlan := s.man.vlan, pcp := pcp, dscp := 8 * pcp, ecn := 2,
    key := (match m with
      | .write _ _ _ => some (connOf s n).rkey
      | .read _ _ => some (connOf s n).rkey
      | _ => none),
    sailing := sailing }

/-- Whether a priority of a port is paused: PFC is enabled on it and an XOFF is in force (R394). -/
def paused (s : State) (p n : Nat) : Bool :=
  bit (regGet s (ptBase p + 0x20)).toNat n && (tget {} (portOf s p).pfc n).pausedAt.isSome

/-- A frame leaves a port, or waits there while its priority is paused (R394). -/
def sendFrame (s : State) (p pcp : Nat) (o : Out) : State :=
  if paused s p pcp then setPort s p { portOf s p with held := (portOf s p).held ++ [(pcp, o)] } else send s o

/-- Frames of a priority that is no longer paused leave, in their order (R394). -/
def releaseHeld (s : State) (p n : Nat) : State :=
  let x := portOf s p
  (x.held.filter (fun e => e.1 == n)).foldl (fun t e => send t e.2) (setPort s p { x with held := x.held.filter (fun e => e.1 != n) })

/-- What a connection has waiting at its port is dropped: a connection that is stopped or fails sends nothing more (R405, R406). -/
def dropHeld (s : State) (n : Nat) : State :=
  let p := connPort s n
  let x := portOf s p
  setPort s p { x with held := x.held.filter (fun e => match e.2 with
    | .roce c _ _ => c != n
    | _ => true) }

/-- Send over a connection: one that is stopped or in the error state sends nothing (R405, R406), nor does one whose port carries nothing
(R393); what it has not sent is retransmitted (R403). -/
def sendOn (s : State) (n pcp : Nat) (m : Roce) (sailing : Bool) : State :=
  if connUsable s n && carries s n then sendFrame s (connPort s n) pcp (.roce n (frameOf s n pcp m sailing) m) else s

/-- An answer to a packet takes its priority code point (R379). -/
def answerOn (s : State) (n : Nat) (m : Roce) : State := sendOn s n (connOf s n).rxPcp m false

/-! ### Outbound requests (R398, R403) -/

/-- Whether a message is an RDMA READ. -/
def isRead : Roce → Bool
  | .read _ _ => true
  | _ => false

/-- The RDMA READs of a connection that have been sent and not been answered. -/
def readsOut (c : Conn) : Nat := (c.reqs.filter (fun x => x.read && x.unsent.isNone)).length

/-- Whether a connection may send a request now: none before it waits, and no more than 16 RDMA READs are outstanding (R398). -/
def mayAsk (c : Conn) (read : Bool) : Bool := c.reqs.all (fun x => x.unsent.isNone) && (!read || decide (readsOut c < 16))

/-- Send a request over a connection, or let it wait behind the RDMA READs outstanding, and keep it until it is acknowledged (R398, R403). -/
def request (s : State) (n : Nat) (kind : ReqKind) (packets : Nat) (m : Roce) (sailing : Bool := false) : State :=
  let c := connOf s n
  let may := mayAsk c (isRead m)
  let x : OutReq := { kind := kind, packets := packets, at_ := s.time.mono, read := isRead m, unsent := if may then none else some m }
  let s1 := setConn s n { c with reqs := c.reqs ++ [x], sqPsn := (c.sqPsn + packets) % 2 ^ 24 }
  if may then sendOn s1 n (kindPcp s n kind sailing) m sailing else s1

/-- The requests of a connection that waited are sent as far as R398 lets them. -/
def sendWaiting (n : Nat) : Nat → State → State
  | 0, s => s
  | fuel + 1, s =>
    let c := connOf s n
    match c.reqs.find? (fun x => x.unsent.isSome) with
    | some x =>
      match x.unsent with
      | some m =>
        if !x.read || decide (readsOut c < 16) then
          let i := c.reqs.findIdx (fun y => y.unsent.isSome)
          sendWaiting n fuel (sendOn (setConn s n { c with reqs := c.reqs.set i { x with unsent := none, at_ := s.time.mono } }) n
            (kindPcp s n x.kind false) m false)
        else s
      | none => s
    | none => s

/-- Requests of a connection have been answered: those left stand, and what waited behind them goes on (R398, R403). -/
def setReqs (s : State) (n : Nat) (l : List OutReq) : State := sendWaiting n l.length (setConn s n { connOf s n with reqs := l })

/-! ### Records (R499-R504) -/

/-- The ring that takes the records of a berth: the berth's own, or the management ring where the berth is not defined or its
RING_CONN is in the error state (R503). (DEDUCED, log entry 41.) -/
def ringOf (s : State) (b : Nat) : Nat :=
  if berthDefined s b && !(connOf s (berthOf s b).cfg.ringConn).err then b else 16

/-- The connection of a ring. -/
def ringConn (s : State) (l : Nat) : Nat := if l = 16 then 0 else (berthOf s l).cfg.ringConn

/-- The address of slot 0 of a ring. -/
def ringBase (s : State) (l : Nat) : Nat := if l = 16 then s.ringAddr else (berthOf s l).cfg.ringAddr

/-- log2 of the size of a ring. -/
def ringLog (s : State) (l : Nat) : Nat := if l = 16 then s.ringLog2 else (berthOf s l).cfg.ringLog2

/-- Whether the next record of a ring may be written now (R501, R504). (DEDUCED, log entry 60.) -/
def ringRoom (s : State) (l : Nat) : Bool :=
  let x := landOf s l
  (if l = 16 then bit (regGet s (mgBase + 0x190)).toNat 31 && connUsable s 0 else true) &&
  decide (((x.dseq + 1) - x.ack).toNat ≤ 2 ^ ringLog s l)

/-- The 64 bytes of a record (R499). A FAULT record's own sequence field equals DSEQ. -/
def recordBytes (r : Rec) (hseq dseq : Word) (lost : Nat) : List Byte :=
  let body := if r.type = 4 then slice r.body 0 4 ++ natLe 4 dseq.toNat ++ slice r.body 8 24 else slice r.body 0 36
  natLe 1 r.type ++ natLe 1 r.berth ++ natLe 2 (min lost 0xFFFF) ++ natLe 4 dseq.toNat ++ natLe 4 hseq.toNat ++
    natLe 4 r.task.toNat ++ natLe 8 r.tide ++ slice body 0 36 ++ natLe 4 dseq.toNat

/-- Write a record to the ring of landing `l` (R500, R501): it takes the next DSEQ and the losses so far. The stored copy of a
FAULT record takes the DSEQ (R534). (DEDUCED, log entry 41.) -/
def writeRecord (s : State) (l : Nat) (r : Rec) : State :=
  let x := landOf s l
  let d := x.dseq + 1
  let a := ringBase s l + 64 * (d.toNat % 2 ^ ringLog s l)
  let s1 := setLand s l { x with dseq := d, lost := 0 }
  let s2 := request s1 (ringConn s l) .record 1
    (.write a (recordBytes r (r.hseq.getD x.h) d x.lost) none)
  match r.entry with
  | some e =>
    { s2 with fc := { s2.fc with recs := (s2.fc.recs.map (fun p => if p.2.age = e then (p.1, { p.2 with seq := d }) else p)) } }
  | none => s2

/-- A record joins the ring of landing `l`: written at once where nothing waits and there is room, else it waits. A full queue
drops a NOTE or CORR FAULT record and counts it in LOST (R501). (DEDUCED, log entry 41.) -/
def emit (s : State) (l : Nat) (r : Rec) : State :=
  let x := landOf s l
  if x.waiting.isEmpty && ringRoom s l then writeRecord s l r
  else if r.soft && decide (64 ≤ x.waiting.length) then setLand s l { x with lost := min (x.lost + 1) 0xFFFF }
  else setLand s l { x with waiting := x.waiting ++ [r] }

/-- A REPLY body: status, message type, then the fields of a QUERY (R499, R517). (DEDUCED, log entry 40.) -/
def replyBody (status type : Nat) (query : List Byte) : List Byte :=
  natLe 1 status ++ natLe 1 type ++ natLe 2 0 ++ query

/-- A REPLY on the ring of the landing that received the message (R497, R503): the ring of a berth whose RING_CONN has failed
is the management ring. -/
def reply (s : State) (l berth : Nat) (hseq task : Word) (type status : Nat) (query : List Byte) : State :=
  emit s (if l = 16 then 16 else ringOf s l)
    { type := 1, berth := berth, hseq := some hseq, task := task, tide := s.time.tide, body := replyBody status type query }

/-! ### Memory windows (R324-R332) -/

/-- The stack list of a window (R325). -/
def windowStacks (s : State) (w : Window) : List Nat :=
  if w.mode = 2 then (stacksIn s).filter (fun k => k / 4 == w.quay)
  else if w.mode = 3 then (if w.stackA ≤ w.stackB then [w.stackA, w.stackB] else [w.stackB, w.stackA])
  else stacksIn s

/-- The interleave unit of a window (R325). -/
def windowUnit (w : Window) : Nat := if w.mode = 1 then 4096 else if w.mode = 3 then 2048 else 256

/-- First device address of a window. -/
def windowLo (w : Window) : Nat := w.base.toNat * 65536

/-- One past the last device address of a window. -/
def windowHi (w : Window) : Nat := w.limit.toNat * 65536 + 65536

/-- The enabled window that holds a device address. -/
def windowAt (s : State) (a : Nat) : Option Window :=
  ((List.range 16).map (windowOf s)).find? (fun w => w.en && decide (windowLo w ≤ a ∧ a < windowHi w))

/-- Stack and stack-local address of a device address in a window (R326). -/
def windowMap (s : State) (w : Window) (a : Nat) : Nat × Nat :=
  let l := windowStacks s w
  let u := (a - windowLo w) / windowUnit w
  (nth 0 l (u % l.length), 65536 * w.phys + u / l.length * windowUnit w + (a - windowLo w) % windowUnit w)

/-- The key of a byte of HBM: its stack and its stack-local address (R313, R326). -/
def hbmKey (s : State) (a : Nat) : Nat :=
  match windowAt s a with
  | some w => let p := windowMap s w a; p.1 * 2 ^ 34 + p.2
  | none => a

/-- The first device address of [a, a + len) that lies in no enabled window for which `ok` holds, looking through at most
`fuel` windows in turn. -/
def outsideFrom (s : State) (ok : Window → Bool) : Nat → Nat → Nat → Option Nat
  | 0, a, hi => if a < hi then some a else none
  | fuel + 1, a, hi =>
    if a < hi then
      match windowAt s a with
      | some w => if ok w then outsideFrom s ok fuel (windowHi w) hi else some a
      | none => some a
    else none

/-- The first device address of an extent that fails R329 for a berth. -/
def outside (s : State) (b a len : Nat) : Option Nat :=
  outsideFrom s (fun w => !w.sealedW && w.berth == b) 17 a (a + len)

/-- The first device address of an extent that no enabled window holds (R331). -/
def outsideAny (s : State) (a len : Nat) : Option Nat := outsideFrom s (fun _ => true) 17 a (a + len)

/-- The first failing address of a list of extents, in their order. -/
def firstOutside (s : State) (b : Nat) : List (Nat × Nat) → Option Nat
  | [] => none
  | e :: r =>
    match outside s b e.1 e.2 with
    | some a => some a
    | none => firstOutside s b r

/-! ### HBM (R313, R318-R322) -/

/-- A byte of HBM by device address. -/
def hbmByte (s : State) (a : Nat) : Byte := s.hbm.read (hbmKey s a)

/-- Bytes of HBM by device address. -/
def hbmRead (s : State) (a : Nat) : Nat → List Byte
  | 0 => []
  | n + 1 => hbmByte s a :: hbmRead s (a + 1) n

/-- The 32-byte block of a key. -/
def blockOf (key : Nat) : Nat := key / 32

/-- The device addresses of the 32-byte blocks that [a, a + len) touches. -/
def blockAddrs (a len : Nat) : List Nat :=
  if len = 0 then [] else (List.range ((a + len - 1) / 32 + 1 - a / 32)).map (fun i => (a / 32 + i) * 32)

/-- Whether the block at a device address is poisoned. -/
def poisoned (s : State) (a : Nat) : Bool := s.poison.contains (blockOf (hbmKey s a))

/-- The poisoned blocks that an extent touches, as device addresses. -/
def poisonIn (s : State) (a len : Nat) : List Nat := (blockAddrs a len).filter (poisoned s)

/-- Write the bytes of [lo, lo + data.length) that fall in one block at `b`: a write that covers only part of a poisoned block
is not performed on it; one that covers all 32 bytes clears the poison (R321). -/
def writeBlock (s : State) (lo : Nat) (data : List Byte) (b : Nat) : State :=
  let from_ := max lo b
  let upto := min (lo + data.length) (b + 32)
  let piece := (data.drop (from_ - lo)).take (upto - from_)
  let k := hbmKey s b
  if poisoned s b && decide (piece.length < 32) then s
  else { s with hbm := s.hbm.writeBytes (k + (from_ - b)) piece,
                poison := if piece.length = 32 then s.poison.filter (fun x => x != blockOf k) else s.poison }

/-- Whether a prefetch line at `line` meets [a, a + len). -/
def lineMeets (line a len : Nat) : Bool := decide (line < a + len ∧ a < line + 2048)

/-- Invalidate every prefetch line that an extent touches in all four stores, and mark fills on their way stale (R350). -/
def invalidate (s : State) (a len : Nat) : State :=
  { s with quays := s.quays.map (fun e =>
      (e.1, { e.2 with lines := e.2.lines.filter (fun l => !lineMeets l a len),
                       fills := e.2.fills.map (fun f => if lineMeets f.1 a len then (f.1, true, f.2.2) else f) })) }

/-- Write bytes to HBM by device address (R334): blocks are written and prefetch lines invalidated. -/
def hbmWrite (s : State) (a : Nat) (data : List Byte) : State :=
  if data.isEmpty then s
  else invalidate ((blockAddrs a data.length).foldl (fun t b => writeBlock t a data b) s) a data.length

/-- The ranges of keys that the device extent [a, a + len) of one window covers: in each stack of the window one range (R326). -/
def windowRanges (s : State) (w : Window) (a len : Nat) : List (Nat × Nat) :=
  let l := windowStacks s w
  let k := l.length
  let u := windowUnit w
  let o0 := a - windowLo w
  let o1 := o0 + len - 1
  let u0 := o0 / u
  let u1 := o1 / u
  (List.range k).filterMap (fun j =>
    let uf := u0 + (j + k - u0 % k) % k
    let back := (u1 % k + k - j) % k
    if len = 0 ∨ u1 < uf + back then none
    else
      let ul := u1 - back
      let base := nth 0 l j * 2 ^ 34 + 65536 * w.phys
      some (base + uf / k * u + (if uf = u0 then o0 % u else 0), base + ul / k * u + (if ul = u1 then o1 % u + 1 else u)))

/-- The ranges of keys that a device extent covers, window by window. -/
def keyRanges (s : State) : Nat → Nat → Nat → List (Nat × Nat)
  | 0, _, _ => []
  | fuel + 1, a, hi =>
    if a < hi then
      match windowAt s a with
      | some w => windowRanges s w a (min hi (windowHi w) - a) ++ keyRanges s fuel (windowHi w) hi
      | none => []
    else []

/-- The bytes of a device extent become undefined (R227, R339, R509). -/
def hbmUndefine (s : State) (a len : Nat) : State :=
  let g := freshGen s
  (keyRanges g.2 17 a (a + len)).foldl (fun t r => { t with hbm := t.hbm.undefine r.1 r.2 g.1 }) g.2

/-- The bytes of a device extent become zero, and their poison is gone (R328). -/
def hbmZero (s : State) (a len : Nat) : State :=
  (keyRanges s 17 a (a + len)).foldl
    (fun t r => { t with hbm := t.hbm.zero r.1 r.2,
                         poison := t.poison.filter (fun b => !(decide (r.1 ≤ b * 32 ∧ b * 32 < r.2))) }) s

/-- A little-endian field of HBM. -/
def hbmLe (s : State) (a len : Nat) : Nat := leNat (hbmRead s a len)

/-- The stack and local address of a device address, as a POISON_READ names it (R352). -/
def poisonDetail (s : State) (a : Nat) : Nat :=
  let k := hbmKey s a
  bits (k % 2 ^ 34) 33 5 + (k / 2 ^ 34) * 2 ^ 48

/-! ### Time -/

/-- What a timer has counted (R265). -/
def timerNow (s : State) (t : Timer) : Nat :=
  t.acc + (match t.since with
    | some a => s.time.mono - a
    | none => 0)

/-- A timer that starts now. -/
def timerStart (s : State) : Timer := { acc := 0, since := some s.time.mono }

/-- A timer that stops counting. -/
def timerStop (s : State) (t : Timer) : Timer := { acc := timerNow s t, since := none }

/-- A timer that goes on counting. -/
def timerGo (s : State) (t : Timer) : Timer := { t with since := some s.time.mono }

/-- Whether the module takes no work (R538): a HALT or LOCK occurrence, or what takes effect as one (R526), has halted it. -/
def halted (s : State) : Bool := s.fc.halt

/-- Whether the module is in harbour state: MG_BOOT_STAT.PHASE 0x8 (R552, R559). -/
def harbour (s : State) : Bool := s.boot.phase == 8

end Sys2Proof.Machine
end

