-- ==== Sys2Proof/Machine/ReedSolomon.lean ====
section
/-! DEFINITION. The Reed–Solomon code over GF(2^8) that protects each 32-byte block of HBM with four check bytes (R318). -/

namespace Sys2Proof.Machine

/-! ### The field (R318): primitive polynomial x^8 + x^4 + x^3 + x^2 + 1 -/

/-- A field element times α. -/
def gfAlpha (a : Nat) : Nat := if 128 ≤ a then (2 * a) ^^^ 0x11D else 2 * a

/-- A product of two field elements: the bits of the second, from its top bit of `n` down. -/
def gfMulBits (a : Nat) : Nat → Nat → Nat
  | 0, _ => 0
  | n + 1, b => gfAlpha (gfMulBits a n (b / 2)) ^^^ (if b % 2 = 1 then a else 0)

/-- A product of two field elements. -/
def gfMul (a b : Nat) : Nat := gfMulBits a 8 b

/-- α^n. -/
def gfExp : Nat → Nat
  | 0 => 1
  | n + 1 => gfAlpha (gfExp n)

/-- The inverse of a field element, a^254: the product of a^2, a^4, … , a^128. -/
def gfInv (a : Nat) : Nat := ((List.range 7).foldl (fun p _ => (gfMul p.1 p.1, gfMul p.2 (gfMul p.1 p.1))) (a, 1)).2

/-! ### The code: 36 symbols of which the first 32 are the data; the generator has roots α^0 to α^3 -/

/-- The symbol-wise sum of two lists of symbols. -/
def rsSum (a b : List Nat) : List Nat := List.zipWith (fun x y => x ^^^ y) a b

/-- The generator's coefficients, from x^4 down: the product of x + α^i for i = 0 to 3. -/
def rsGenerator : List Nat :=
  (List.range 4).foldl (fun p i => rsSum (p ++ [0]) (0 :: p.map (gfMul (gfExp i)))) [1]

/-- The check bytes after one more data symbol has been divided in. -/
def rsShift (check : List Nat) (v : Nat) : List Nat :=
  let lead := check.headD 0 ^^^ v
  rsSum (check.tail ++ [0]) (rsGenerator.tail.map (gfMul lead))

/-- The four check bytes of a block: the remainder of its data, byte 0 of the highest power, on division by the generator.
(DESIGN CHOICE, log entry 68.) -/
def rsCheck (data : List Byte) : List Nat := data.foldl (fun c b => rsShift c b.toNat) [0, 0, 0, 0]

/-- The 36 symbols that HBM holds of a block. -/
def rsWord (data : List Byte) : List Nat := data.map (·.toNat) ++ rsCheck data

/-- What stands in for α^(power of symbol i) in a syndrome. -/
def rsLocator (i : Nat) : Nat := gfExp (35 - i)

/-- A received word's value at α^j, by Horner's rule. -/
def rsSyndrome (word : List Nat) (j : Nat) : Nat := word.foldl (fun acc v => gfMul acc (gfExp j) ^^^ v) 0

/-- The syndromes of an error of value `v` in a symbol of locator `x`: v, v·x, v·x², v·x³. -/
def rsPattern (x v : Nat) : List Nat := [v, gfMul v x, gfMul v (gfMul x x), gfMul v (gfMul x (gfMul x x))]

/-- The one erroneous symbol that explains the syndromes. -/
def rsSingle (syn : List Nat) : Option (List (Nat × Nat)) :=
  ((List.range 36).find? (fun i => rsPattern (rsLocator i) (syn.headD 0) == syn)).map (fun i => [(i, syn.headD 0)])

/-- The values of errors in symbols `i` and `k` that the first two syndromes call for. -/
def rsValues (syn : List Nat) (i k : Nat) : Nat × Nat :=
  let x := rsLocator i
  let y := rsLocator k
  let w := gfMul (nth 0 syn 1 ^^^ gfMul (nth 0 syn 0) x) (gfInv (x ^^^ y))
  (nth 0 syn 0 ^^^ w, w)

/-- The two erroneous symbols that explain the syndromes. -/
def rsDouble (syn : List Nat) : Option (List (Nat × Nat)) :=
  ((List.range 36).flatMap (fun i => (List.range (35 - i)).map (fun k => (i, i + k + 1)))).findSome? (fun p =>
    let v := rsValues syn p.1 p.2
    if rsSum (rsPattern (rsLocator p.1) v.1) (rsPattern (rsLocator p.2) v.2) = syn
    then some [(p.1, v.1), (p.2, v.2)] else none)

/-- What is added to each of some symbols of a word. -/
def rsAdd (word : List Nat) (errs : List (Nat × Nat)) : List Nat :=
  errs.foldl (fun w e => w.zipIdx.map (fun x => if x.2 = e.1 then x.1 ^^^ e.2 % 256 else x.1)) word

/-- How a read finds a block: with data, corrected or as it stands, or uncorrectable (R318, R320). -/
inductive BlockRead where
  | found (corrected : Bool) (data : List Byte)
  | uncorrectable
deriving DecidableEq, Repr

/-- The data symbols of a word. -/
def rsData (word : List Nat) : List Byte := (word.take 32).map (BitVec.ofNat 8)

/-- A block of HBM read with errors added to its symbols: one or two erroneous symbols are corrected, and a word that no two
symbols explain is uncorrectable (R318, R320). (DESIGN CHOICE, log entry 68.) -/
def rsRead (data : List Byte) (errs : List (Nat × Nat)) : BlockRead :=
  let word := rsAdd (rsWord data) errs
  let syn := (List.range 4).map (rsSyndrome word)
  if syn = [0, 0, 0, 0] then .found false (rsData word)
  else
    match (rsSingle syn).or (rsDouble syn) with
    | some fix => .found true (rsData (rsAdd word fix))
    | none => .uncorrectable

end Sys2Proof.Machine
end

