-- ==== Sys2Proof/Machine/Fabric.lean ====
section
/-! DEFINITION. The memory fabric: transactions and their tracker entries, the crossbar, the arbiters of the quays, the bank queues and
pseudo-channels, the Reed–Solomon outcome of a read, and the accesses of HBM that a command makes within its own step (R26,
R313-R323, R333-R346). -/

namespace Sys2Proof.Machine

/-! ### Transactions and the tracker (R333, R336-R339) -/

/-- An extent cut at the multiples of a unit. -/
def cutExtent (unit : Nat) : Nat → Nat → Nat → List (Nat × Nat)
  | 0, _, _ => []
  | fuel + 1, a, len =>
    if len = 0 then []
    else
      let n := min len (unit - a % unit)
      (a, n) :: cutExtent unit fuel (a + n) (len - n)

/-- The extents of a transfer's transactions: none crosses a 2 KiB boundary (R333). -/
def transOf (a len : Nat) : List (Nat × Nat) := cutExtent 2048 (len / 2048 + 2) a len

/-- The extents of a transaction's pieces, one for each 256-byte unit that it touches (R313, R333). (DEDUCED, log entry 68.) -/
def unitsOf (a len : Nat) : List (Nat × Nat) := cutExtent 256 (len / 256 + 2) a len

/-- Reads of an extent. -/
def readReqs (cls : Nat) (pool : List Nat) (a len : Nat) : List Req :=
  (transOf a len).map (fun e => { addr := e.1, len := e.2, write := false, data := [], cls := cls, pool := pool })

/-- Writes of bytes to an extent. -/
def writeReqs (cls : Nat) (pool : List Nat) (a : Nat) (data : List Byte) : List Req :=
  (transOf a data.length).map (fun e =>
    { addr := e.1, len := e.2, write := true, data := slice data (e.1 - a) e.2, cls := cls, pool := pool })

/-- Entries that an allotment holds (MW_TRK_ALLOC_n.INUSE). -/
def allotUsed (s : State) (n : Nat) : Nat := (s.trk.filter (fun t => t.allot == n)).length

/-- The reset size of an allotment (R336). -/
def allotReset (n : Nat) : Nat := if n < 16 then 192 else if n < 20 then 128 else 512

/-- The size of an allotment in force. -/
def allotSize (s : State) (n : Nat) : Nat := tget (allotReset n) s.trkAlloc n

/-- Whether an allotment admits a transaction (R337, R536). -/
def allotOpen (s : State) (n : Nat) : Bool :=
  decide (allotUsed s n < allotSize s n) && !(decide (n < 16) && deckFenced s n)

/-- The pieces of a transaction as they leave for the crossbar (R333). -/
def piecesOf (s : State) (t : Trk) : List Piece :=
  (unitsOf t.req.addr t.req.len).map (fun e =>
    { trk := t.id, addr := e.1, len := e.2, loc := hbmKey s e.1, write := t.req.write, cls := t.req.cls, unit16 := t.unit16,
      berth := t.berth, task := t.task, allot := t.allot, row := t.req.row, spoil := t.req.spoil,
      data := if t.req.write then slice t.req.data (e.1 - t.req.addr) e.2 else [] })

/-- A transaction takes its tracker entry and its pieces leave for the crossbar (R333, R334). -/
def takeEntry (s : State) (t : Trk) : State :=
  { s with trk := s.trk ++ [t], nextId := s.nextId + 1, fabric := { s.fabric with pieces := s.fabric.pieces ++ piecesOf s t } }

/-- Issue the requests of a list that the allotments admit, in order, for a run (R338). -/
def issueFrom (s : State) (run q : Nat) (unit16 : BitVec 16) (berth : Option Nat) (task : Nat) :
    List Req → State × List Req
  | [] => (s, [])
  | r :: rest =>
    match r.pool.find? (allotOpen s) with
    | some n =>
      issueFrom (takeEntry s { id := s.nextId, req := r, allot := n, run := run, q := q, unit16 := unit16, berth := berth,
                               task := task, start := s.time.mono }) run q unit16 berth task rest
    | none => (s, r :: rest)

/-- Issue what a run still has to issue. -/
def issueRun (s : State) (id : Nat) : State :=
  match runOf s id with
  | some r =>
    let u := ctxUnit r.q r.c
    let p := issueFrom s id r.q (sourceId u.1 u.2 0) (some r.berth) r.task r.todo
    setRun p.1 { r with todo := p.2 }
  | none => s

/-- Let every run issue on, in the order in which they started: entries have been released. -/
def issueAll (s : State) : State := s.runs.foldl (fun t r => if r.todo.isEmpty then t else issueRun t r.id) s

/-- Whether a run has a transaction in flight or still to issue. -/
def runBusy (s : State) (id : Nat) : Bool :=
  s.trk.any (fun t => t.run == id) ||
  (match runOf s id with
   | some r => !r.todo.isEmpty
   | none => false)

/-! ### Where a piece goes (R313, R326, R333) -/

/-- The stack of a place in HBM. -/
def locStack (loc : Nat) : Nat := loc / 2 ^ 34

/-- The pseudo-channel of a place in HBM, numbered over all stacks: bits [12:8] of its stack-local address. -/
def locChannel (loc : Nat) : Nat := locStack loc * 32 + bits loc 12 8

/-- The bank of a place in HBM, numbered over all stacks: bits [19:15] XOR bits [24:20] of its stack-local address, in its pseudo-channel. -/
def locBank (loc : Nat) : Nat := locChannel loc * 32 + (bits loc 19 15 ^^^ bits loc 24 20)

/-- The row of a place in HBM: bits [33:20] of its stack-local address. -/
def locRow (loc : Nat) : Nat := bits loc 33 20

/-- The level and unit of a requester. -/
def reqUnit (unit16 : BitVec 16) : Nat × Nat := (bits unit16.toNat 15 14, bits unit16.toNat 13 8)

/-- The source that the chip arbiter counts a piece's requester as: quays 0-3 by the unit, I/O dies 4 and 5 where it draws on the chip allotment
(R21, R336, R346); a requester of the chip allotment that is no port counts as E0. (DEDUCED, log entry 68.) -/
def pieceSource (x : Piece) : Nat :=
  let u := reqUnit x.unit16
  if x.allot = 20 then (if u.1 = 3 ∧ 12 ≤ u.2 then 5 else 4) else if u.1 = 1 then u.2 / 4 else u.2 % 4

/-- Two pieces are the same: a transaction has one piece at an address. -/
def samePiece (x y : Piece) : Bool := x.trk == y.trk && x.addr == y.addr

/-- The pieces of the fabric replaced. -/
def setPieces (s : State) (l : List Piece) : State := { s with fabric := { s.fabric with pieces := l } }

/-- A piece moves on: it joins those of its new state as the last of them. -/
def movePiece (s : State) (x : Piece) : State :=
  setPieces s (s.fabric.pieces.filter (fun y => !samePiece y x) ++ [x])

/-! ### The crossbar (R26, R346) -/

/-- The first piece that a source has on its way. -/
def firstSent (s : State) (src : Nat) : Option Piece :=
  s.fabric.pieces.find? (fun x => x.st == .sent && pieceSource x == src)

/-- The chip arbiter passes the pieces on their way to the arbiters of the quays, one of each source in turn. -/
def crossbar : Nat → State → State
  | 0, s => s
  | fuel + 1, s =>
    match ((List.range 6).map (fun i => (s.fabric.source + i) % 6)).findSome? (firstSent s) with
    | none => s
    | some x =>
      let s1 := movePiece s { x with st := .waiting }
      crossbar fuel { s1 with fabric := { s1.fabric with source := (pieceSource x + 1) % 6 } }

/-! ### Writes that meet (R368) -/

/-- Extents become undefined. -/
def undefineAll (s : State) (es : List (Nat × Nat)) : State := es.foldl (fun t e => hbmUndefine t e.1 e.2) s

/-- Whether two extents have a byte in common. -/
def extentsMeet (a la b lb : Nat) : Bool := decide (max a b < min (a + la) (b + lb))

/-- Whether a writer and a SCATTER of quay `q` fall under R368's row for parties without order: they do unless the writer is a SCATTER of
that engine itself. -/
def foreignTo (q : Nat) (unit16 : BitVec 16) (row : Option (Nat × Nat)) : Bool :=
  row.isNone || unit16 != sourceId 2 q 0

/-- Whether a thread carries a SCATTER position in progress whose table row a foreign write at [a, a + len) meets. -/
def threadMet (q : Nat) (unit16 : BitVec 16) (row : Option (Nat × Nat)) (a len : Nat) (t : Thread) : Bool :=
  t.scatter && t.phase != 0 && foreignTo q unit16 row && extentsMeet t.row t.len a len

/-- Whether a write in the fabric that has not entered its bank queue meets the table row of a SCATTER's write, as a foreign one. -/
def pieceMet (unit16 : BitVec 16) (row : Nat × Nat) (x : Piece) : Bool :=
  x.write && (x.st == .sent || x.st == .waiting) && (x.row.isNone || x.unit16 != unit16) &&
    extentsMeet row.1 row.2 x.addr x.len

/-- The table rows of the SCATTERs in progress that a write meets. -/
def rowsMet (s : State) (unit16 : BitVec 16) (row : Option (Nat × Nat)) (a len : Nat) : List (Nat × Nat) :=
  s.quays.flatMap (fun e => e.2.threads.filterMap (fun t =>
    if threadMet e.1 unit16 row a len t.2 then some (t.2.row, t.2.len) else none))

/-- A write is performed where a SCATTER's row may be met (R368): the rows of SCATTERs in progress that it meets, and its own row where it is
a SCATTER's and meets a write on its way, become undefined, now and again when the other party's write is performed.
(DEDUCED, log entry 29.) -/
def meetWrites (s : State) (unit16 : BitVec 16) (row : Option (Nat × Nat)) (a len : Nat) : State × List (Nat × Nat) :=
  let hit := rowsMet s unit16 row a len
  let s1 := if hit.isEmpty then s
    else { setPieces s (s.fabric.pieces.map (fun x => if hit.any (fun r => x.row == some r) then { x with spoil := hit ++ x.spoil } else x)) with
      quays := s.quays.map (fun e => (e.1, { e.2 with
        threads := e.2.threads.map (fun t => (t.1, { t.2 with spoiled := t.2.spoiled || threadMet e.1 unit16 row a len t.2 })) })) }
  match row with
  | none => (s1, hit)
  | some r =>
    if s1.fabric.pieces.any (pieceMet unit16 r) then
      (setPieces s1 (s1.fabric.pieces.map (fun x => if pieceMet unit16 r x then { x with spoil := r :: x.spoil } else x)), r :: hit)
    else (s1, hit)

/-! ### The arbiters of the quays (R26, R315, R341-R343) -/

/-- The rank of a class at a quay's arbiter in force (R341). -/
def arbRankOf (s : State) (q n : Nat) : Nat := tget n s.arbRank (8 * q + n)

/-- The rank of a piece at the arbiter of its stack's quay. -/
def pieceRank (s : State) (x : Piece) : Nat := arbRankOf s (locStack x.loc / 4) x.cls

/-- Whether the queue of a bank has room: it takes 16 requests (R315). -/
def bankRoom (s : State) (bank : Nat) : Bool :=
  decide ((s.fabric.pieces.filter (fun x => x.st == .queued && locBank x.loc == bank)).length < 16)

/-- The waiting pieces whose bank has room: those of full banks are passed (R342). -/
def enterable (s : State) : List Piece := s.fabric.pieces.filter (fun x => x.st == .waiting && bankRoom s (locBank x.loc))

/-- The piece that an arbiter takes next: of those whose bank has room the oldest of the lowest rank (R342). -/
def nextPiece (s : State) : Option Piece :=
  let l := enterable s
  let least := (l.map (pieceRank s)).foldl min 7
  l.find? (fun x => pieceRank s x == least)

/-- A write takes its place in its bank queue: its bytes are what every request that enters after it finds (R321, R334, R350, R368). A write
that comes back after a withdrawn grant does so again. One that covers a poisoned block in part is not performed on it, and raises nothing
where an engine of a task made it (R321, R322). (DEDUCED, log entry 68.) -/
def enterWrite (s : State) (x : Piece) : State :=
  let m := meetWrites s x.unit16 x.row x.addr x.len
  undefineAll (hbmWrite m.1 x.addr x.data) (x.spoil ++ m.2)

/-- A piece enters the queue of its bank. A read finds what the writes before it have left, poison with it (R315, R321, R334).
(DEDUCED, log entry 68.) -/
def enterBank (s : State) (x : Piece) : State :=
  if x.write then enterWrite (movePiece s { x with st := .queued }) x
  else movePiece s { x with st := .queued, data := hbmRead s x.addr x.len, bad := poisonIn s x.addr x.len }

/-- The arbiters fill the bank queues while a waiting piece has room (R342). -/
def arbitrate : Nat → State → State
  | 0, s => s
  | fuel + 1, s =>
    match nextPiece s with
    | some x => arbitrate fuel (enterBank s x)
    | none => s

/-- The crossbar and the arbiters work off what they have. -/
def routePieces (s : State) : State :=
  let n := s.fabric.pieces.length
  arbitrate n (crossbar n s)

/-! ### Banks and pseudo-channels (R314-R316) -/

/-- The requests that head the bank queues of a pseudo-channel (R315). -/
def bankHeads (s : State) (c : Nat) : List Piece :=
  (s.fabric.pieces.filter (fun x => x.st == .queued && locChannel x.loc == c)).foldl
    (fun l x => if l.any (fun y => locBank y.loc == locBank x.loc) then l else l ++ [x]) []

/-- Whether a bank can serve a request now: its row is the one activated, or 48 ns have passed since the last activation (R314). -/
def bankServes (s : State) (x : Piece) : Bool :=
  let k := tget {} s.fabric.banks (locBank x.loc)
  k.row == some (locRow x.loc) || decide (k.ready ≤ s.time.mono)

/-- A request leaves its bank queue: its grant starts, and the bus is busy for 10 ns per 256 bytes (R314, R345). `other` says that a request
of the other direction heads a queue, so that the access counts towards the 64 (R316). -/
def grantPiece (s : State) (c : Nat) (x : Piece) (other : Bool) : State :=
  let ch := tget {} s.fabric.channels c
  let k := tget {} s.fabric.banks (locBank x.loc)
  let open_ := k.row == some (locRow x.loc)
  let s1 := movePiece s { x with st := .granted s.time.mono }
  { s1 with fabric := { s1.fabric with
      channels := tput s1.fabric.channels c
        { ch with run := if other then ch.run + 1 else 0, busy := 10 * s.time.mono + cdiv (100 * x.len) 256 },
      banks := if open_ then s1.fabric.banks
        else tput s1.fabric.banks (locBank x.loc) { row := some (locRow x.loc), ready := s.time.mono + 48 } } }

/-- A pseudo-channel turns, which costs 9.4 ns of its bus (R314, R316). -/
def turnChannel (s : State) (c : Nat) : State :=
  let ch := tget {} s.fabric.channels c
  { s with fabric := { s.fabric with
      channels := tput s.fabric.channels c { write := !ch.write, run := 0, busy := 10 * s.time.mono + 94 } } }

/-- A pseudo-channel whose bus is free serves the oldest head of its direction that its bank can serve; it turns when no request of that direction heads a
queue, or when 64 accesses have been made in it while one of the other did (R314-R316). (DESIGN CHOICE, log entry 68.) -/
def serveChannel (s : State) (c : Nat) : State :=
  let ch := tget {} s.fabric.channels c
  let heads := bankHeads s c
  let same := heads.filter (fun x => x.write == ch.write)
  let other := heads.any (fun x => x.write != ch.write)
  if heads.isEmpty || decide (10 * s.time.mono < ch.busy) then s
  else if same.isEmpty || (other && decide (64 ≤ ch.run)) then turnChannel s c
  else
    match same.find? (bankServes s) with
    | some x => grantPiece s c x other
    | none => s

/-- The limit of a grant at the arbiter of a piece's quay, in tenths of a nanosecond (R345). -/
def grantLimit (s : State) (x : Piece) : Nat := 8 * regBits s (qyBase (locStack x.loc / 4) + 0x124) 15 0

/-- Whether a piece's grant has lasted longer than its limit (R345). -/
def grantOver (s : State) (x : Piece) : Bool :=
  match x.st with
  | .granted t => decide (grantLimit s x < 10 * (s.time.mono - t))
  | _ => false

/-- Whether a granted piece has done what it was to do: a write has had its data supplied, and nobody waits for a read. (DEDUCED, log entry
68.) -/
def pieceOver (s : State) (x : Piece) : Bool :=
  match x.st with
  | .granted _ => if x.write then grantOver s x else !s.trk.any (fun t => t.id == x.trk)
  | _ => false

/-- What the fabric does as time passes: grants that have ended are forgotten, pieces move on to the bank queues, and each pseudo-channel serves
(R314-R316, R342). -/
def fabricTick (s : State) : State :=
  let s1 := routePieces (setPieces s (s.fabric.pieces.filter (fun x => !pieceOver s x)))
  let cs := ((s1.fabric.pieces.filter (fun x => x.st == .queued)).map (fun x => locChannel x.loc)).eraseDups
  cs.foldl serveChannel s1

/-! ### Requesters that are masked (R344) -/

/-- The waiting requests of the transactions that a test picks are discarded and their entries released; requests in bank queues are served
(R344). -/
def maskTrk (s : State) (p : Trk → Bool) : State :=
  let open_ (t : Trk) : Bool := s.fabric.pieces.any (fun x => x.trk == t.id && (x.st == .sent || x.st == .waiting))
  let gone := (s.trk.filter (fun t => p t && open_ t)).map (·.id)
  let mine := (s.trk.filter p).map (·.id)
  setPieces { s with trk := s.trk.filter (fun t => !gone.contains t.id) }
    (s.fabric.pieces.filter (fun x => !(mine.contains x.trk && (x.st == .sent || x.st == .waiting))))

/-! ### The outcome of a read (R318-R323, R348) -/

/-- Who accesses HBM, and in which class (R340): level and unit, berth and task. -/
structure Requester where
  level : Nat
  unit : Nat
  berth : Option Nat
  task : Option Word
  cls : Nat
deriving DecidableEq, Repr

/-- An occurrence against the task of a request (R320, R323). -/
def raiseReq (s : State) (w : Requester) (level unit code detail : Nat) : State := raise s level unit code w.berth w.task detail

/-- The stack of a device address. -/
def stackAt (s : State) (a : Nat) : Nat := locStack (hbmKey s a)

/-- The detail of RS_CORR and RS_UNCORR: bits [33:5] of the stack-local address. -/
def blockDetail (s : State) (a : Nat) : Nat := bits (hbmKey s a % 2 ^ 34) 33 5

/-- Whether the block of an address touches an extent. -/
def inExtent (lo len a : Nat) : Bool := (blockAddrs lo len).contains (a / 32 * 32)

/-- A read needed correction of a block (R319, R348): it is counted, and reported at most once per millisecond per stack. -/
def corrBlock (w : Requester) (s : State) (a : Nat) : State :=
  let k := stackAt s a
  let x := stackOf s k
  let x1 := { x with rscorr := satInc x.rscorr 1 }
  let may := match x.corrAt with
    | some c => decide (c + 1000000 ≤ s.time.mono)
    | none => true
  if may then raiseReq (setStack s k { x1 with corrAt := some s.time.mono }) w 2 (16 + k) 0x30 (blockDetail s a)
  else setStack s k x1

/-- A read found a block uncorrectable (R320, R348): it is counted, poisoned and raised. -/
def uncorrBlock (w : Requester) (s : State) (a : Nat) : State :=
  let k := stackAt s a
  let x := stackOf s k
  let s1 := setStack s k { x with uncorr := satInc x.uncorr 1 }
  let b := blockOf (hbmKey s a)
  let s2 := { s1 with poison := if s1.poison.contains b then s1.poison else b :: s1.poison }
  raiseReq s2 w 2 (16 + k) 0x31 (blockDetail s a)

/-- The stack's own corrections are counted at the stack that holds an address (R348). (DEDUCED, log entry 27.) -/
def odeccAdd (s : State) (a n : Nat) : State :=
  if n = 0 then s
  else
    let x := stackOf s (stackAt s a)
    setStack s (stackAt s a) { x with odecc := satInc x.odecc n }

/-- Whether a write to a block is in its bank queue, so that its corrected contents are not written back (R319). -/
def writeQueued (s : State) (b : Nat) : Bool :=
  s.fabric.pieces.any (fun x => x.write && !(x.st == .sent || x.st == .waiting) && extentsMeet x.addr x.len b 32)

/-- The contents of a block as a read has corrected them are written back (R319). -/
def writeBack (s : State) (b : Nat) (data : List Byte) : State :=
  if writeQueued s b then s else { s with hbm := s.hbm.writeBytes (hbmKey s b) data }

/-- One block of a read meets its erroneous symbols (R318-R320): the third part tells of the bytes that the read finds other than they
were, the fourth that it is uncorrectable. A block that is poisoned is not decoded again (R321). -/
def blockRead (w : Requester) (s : State) (e : BlockErr) : State × List Host.Cell × Bool :=
  let b := e.addr / 32 * 32
  let was := hbmRead s b 32
  if poisoned s b then (s, [], false)
  else
    match rsRead was (e.symbols.map (fun v => (v.1, v.2.toNat))) with
    | .uncorrectable => (uncorrBlock w s b, [], true)
    | .found fixed data =>
      let s1 := if fixed then corrBlock w s b else s
      (if fixed && data != was then writeBack s1 b data else s1, if data = was then [] else data.zipIdx.map (fun v => (b + v.2, v.1)), false)

/-- The blocks of an extent meet their erroneous symbols in turn: the bytes found other than they were, and whether any was
uncorrectable. -/
def readErrors (w : Requester) (errs : List BlockErr) (a len : Nat) (s : State) : State × List Host.Cell × Bool :=
  (errs.filter (fun e => inExtent a len e.addr)).foldl (fun p e =>
    let x := blockRead w p.1 e
    (x.1, p.2.1 ++ x.2.1, p.2.2 || x.2.2)) (s, [], false)

/-! ### Accesses within a step (R329, R330, R334, R338-R340) -/

/-- What a read within a step finds (R318-R322): poison fails it, RS_UNCORR standing in for POISON_READ where the read itself found the
block uncorrectable. -/
def readFound (s : State) (w : Requester) (a len : Nat) (mem : HbmOutcome) : State × Option (List Byte) :=
  let p := readErrors w mem.errs a len (odeccAdd s a mem.onDie)
  match poisonIn p.1 a len with
  | x :: _ => (if p.2.2 then p.1 else raiseReq p.1 w w.level w.unit 0x32 (poisonDetail p.1 x), none)
  | [] =>
    let found := p.2.1
    (p.1, some ((hbmRead s a len).zipIdx.map (fun v => tget v.1 found (a + v.2))))

/-- A read within a step whose extent may be accessed: a transaction that the memory does not complete in time is abandoned (R339). -/
def readAllowed (s : State) (w : Requester) (a len : Nat) (mem : HbmOutcome) : State × Option (List Byte) :=
  match mem.late with
  | some x =>
    if inExtent a len x then (raiseReq s w w.level w.unit 0x35 (stackAt s x * 2 ^ 48 + w.cls), none) else readFound s w a len mem
  | none => readFound s w a len mem

/-- An HBM extent that a command reads within its step (log entry 23): its transactions take entries, complete or are abandoned, and release
them. It is checked against the berth's windows (R330). (DESIGN CHOICE, log entry 23.) -/
def stepRead (s : State) (w : Requester) (b a len : Nat) (mem : HbmOutcome) : State × Option (List Byte) :=
  match outside s b a len with
  | some x => (raiseReq s w w.level w.unit 0x33 x, none)
  | none => readAllowed s w a len mem

/-- Bytes that a command writes to HBM within its step (log entry 23), inside the berth's windows: a transaction that the memory does not
complete in time is abandoned and leaves its bytes undefined (R339); writes that meet fall under R368. The second part says whether every byte
has been written. (DESIGN CHOICE, log entry 23.) -/
def stepWrite (s : State) (w : Requester) (a : Nat) (data : List Byte) (late : Option Nat) : State × Bool :=
  let m := meetWrites s (sourceId w.level w.unit 0) none a data.length
  let s1 := undefineAll (hbmWrite m.1 a data) m.2
  match late.bind (fun x => (transOf a data.length).find? (fun e => decide (e.1 ≤ x ∧ x < e.1 + e.2))) with
  | some e => (hbmUndefine (raiseReq s1 w w.level w.unit 0x35 (stackAt s e.1 * 2 ^ 48 + w.cls)) e.1 e.2, false)
  | none => (s1, true)

/-- Whether an allotment of a pool has an entry for an access within a step: a requester whose allotment is full stalls (R338). -/
def stepRoom (s : State) (pool : List Nat) : Bool := pool.any (allotOpen s)

/-- The requester that a context speaks for (R544). -/
def ctxRequester (s : State) (q c b cls : Nat) : Requester :=
  let u := ctxUnit q c
  { level := u.1, unit := u.2, berth := some b, task := (berthOf s b).cur, cls := cls }

end Sys2Proof.Machine
end

