-- ==== Sys2Proof/Machine/Fairhel.lean ====
section
/-! DEFINITION. The 256-bit command: its fields, its decoding and encoding, and the fetch checks that need nothing but the
bits (07_command_model.md R267-R269, 08_command_reference.md R274-R311). -/

namespace Sys2Proof.Machine

/-- The fields of every command above bit 207 (R267). -/
structure FHead where
  pred : Nat
  wflag : Nat
  wval : Nat
  sflag : Nat
deriving DecidableEq, Repr

/-- The operands of a DRAIN (R304). -/
structure DrainOps where
  slot : Nat
  quads : Nat
  fn : Nat
  dest : Nat
  hold : Bool
  spillNow : Bool
  oreg : Nat
  desc : Nat
  breg : Nat
  rreg : Nat
  zreg : Nat
  sreg : Nat
  mreg : Nat
  maskEn : Bool
  flush : Bool
  nacc : Nat
  l : Nat
  step : Nat
  rstream : Nat
deriving DecidableEq, Repr

/-- The operands of a PASS (R295). -/
structure PassOps where
  areg : Nat
  breg : Nat
  slot : Nat
  acc : Nat
  add : Bool
  quad : Nat
  maskEn : Bool
  mreg : Nat
  skipEn : Bool
  chkB : Bool
  sreg : Nat
  k : Nat
deriving DecidableEq, Repr

/-- The operands of a STREAM (R289). -/
structure StreamOps where
  desc : Nat
  store : Bool
  cls : Nat
  mfmt : Nat
  mmx : Bool
  morient : Bool
  rnd : Nat
  ovf : Bool
  base : Nat
  stride : Int
  advance : Int
  scaleOff : Int
  zmap : Nat
deriving DecidableEq, Repr

/-- The operands of a REDUCE (R308). -/
structure ReduceOps where
  rstream : Nat
  kind : Nat
  int32 : Bool
  thin : Bool
  fromHbm : Bool
  group : Nat
  addr : Nat
  saddr : Nat
  eaddr : Nat
  len : Nat
deriving DecidableEq, Repr

/-- The operands of an XFER (R311). -/
structure XferOps where
  conn : Nat
  imm : Bool
  sched : Bool
  laddr : Nat
  raddr : Nat
  len : Nat
  immval : Nat
deriving DecidableEq, Repr

/-- A command with its operands (R268). -/
inductive FOp where
  | nop
  | tilecfg (reg : Nat) (gang : Bool) (ldeck rows16 cols cfg0 : Nat)
  | load (desc reg : Nat) (gang hold release : Bool)
  | store (desc reg : Nat) (gang hold spillNow : Bool)
  | stream (o : StreamOps)
  | swap (gang : Bool)
  | settle
  | flagset (tflag : Nat) (set : Bool) (value : Nat)
  | cinit (cnt value : Nat)
  | cadd (cnt value : Nat)
  | ccmp (cnti cmpn cond src cntj fref imm : Nat)
  | pass (o : PassOps)
  | saveacc (slots : Nat) (gang : Bool) (addr : Nat)
  | restacc (slots : Nat) (gang : Bool) (addr : Nat)
  | drain (o : DrainOps)
  | fmtsel (l t wm1 decks cand : Nat) (mx : Bool) (margin thresh : Nat)
  | maskset (mreg : Nat) (gang row : Bool) (bits : Nat)
  | gatherIndex (kind form ldeck ireg count desc : Nat)
  | gatherRecall (kind first count : Nat)
  | reduce (o : ReduceOps)
  | norm (nacc group nidx fidx : Nat) (c : Word)
  | xfer (o : XferOps)
  | waitt (tide : Nat)
  | endc
  | reserved (op : Nat)
deriving DecidableEq, Repr

/-- The common fields of a command (R267). -/
def headOf (w : BitVec 256) : FHead :=
  let n := w.toNat
  { pred := bits n 247 244, wflag := bits n 243 232, wval := bits n 231 224, sflag := bits n 223 212 }

/-- The opcode (R267). -/
def opcodeOf (w : BitVec 256) : Nat := bits w.toNat 255 248

/-- The operands by opcode (R268, R282-R311). -/
def opOf (w : BitVec 256) : FOp :=
  let n := w.toNat
  match bits n 255 248 with
  | 0x00 => .nop
  | 0x01 => .tilecfg (bits n 207 204) (bit n 203) (bits n 201 200) (bits n 63 52) (bits n 51 32) (bits n 23 0)
  | 0x02 => .load (bits n 207 204) (bits n 203 200) (bit n 199) (bit n 198) (bit n 197)
  | 0x03 => .store (bits n 207 204) (bits n 203 200) (bit n 199) (bit n 198) (bit n 197)
  | 0x04 => .stream
    { desc := bits n 207 204, store := bit n 203, cls := bits n 202 201, mfmt := bits n 200 197, mmx := bit n 196,
      morient := bit n 195, rnd := bits n 194 193, ovf := bit n 192, base := bits n 191 144,
      stride := signed 32 (bits n 143 112), advance := signed 32 (bits n 111 80), scaleOff := signed 32 (bits n 79 48),
      zmap := bits n 47 6 }
  | 0x05 => .swap (bit n 207)
  | 0x06 => .settle
  | 0x08 => .flagset (bits n 207 196) (bit n 195) (bits n 191 176)
  | 0x09 => .cinit (bits n 207 206) (bits n 31 0)
  | 0x0A => .cadd (bits n 207 206) (bits n 31 0)
  | 0x0B => .ccmp (bits n 207 206) (bits n 205 203) (bits n 202 200) (bits n 199 198) (bits n 197 196) (bits n 195 184)
      (bits n 31 0)
  | 0x10 => .pass
    { areg := bits n 207 204, breg := bits n 203 200, slot := bits n 199 198, acc := bits n 197 196, add := bit n 195,
      quad := bits n 194 193, maskEn := bit n 192, mreg := bits n 191 188, skipEn := bit n 187, chkB := bit n 186,
      sreg := bits n 185 182, k := bits n 31 0 }
  | 0x11 => .saveacc (bits n 207 204) (bit n 203) (bits n 191 156)
  | 0x12 => .restacc (bits n 207 204) (bit n 203) (bits n 191 156)
  | 0x14 => .drain
    { slot := bits n 207 206, quads := bits n 205 202, fn := bits n 201 196, dest := bits n 195 194, hold := bit n 193,
      spillNow := bit n 192, oreg := bits n 191 188, desc := bits n 187 184, breg := bits n 183 180, rreg := bits n 179 176,
      zreg := bits n 175 172, sreg := bits n 171 168, mreg := bits n 167 164, maskEn := bit n 163, flush := bit n 162,
      nacc := bits n 161 160, l := bits n 159 148, step := bits n 147 144, rstream := bits n 143 140 }
  | 0x15 => .fmtsel (bits n 207 196) (bits n 195 192) (bits n 191 188) (bits n 187 172) (bits n 171 164) (bit n 163)
      (bits n 162 159) (bits n 158 143)
  | 0x16 => .maskset (bits n 207 204) (bit n 203) (bit n 202) (bits n 63 0)
  | 0x20 =>
    if bits n 207 206 = 1 then .gatherRecall 0 (bits n 199 182) (bits n 181 163)
    else .gatherIndex 0 (bits n 207 206) (bits n 205 204) (bits n 203 200) (bits n 199 180) (bits n 179 138)
  | 0x21 => .gatherIndex 1 (bits n 207 206) (bits n 205 204) (bits n 203 200) (bits n 199 180) (bits n 179 138)
  | 0x22 => .gatherIndex 2 (bits n 207 206) (bits n 205 204) (bits n 203 200) (bits n 199 180) (bits n 179 138)
  | 0x28 => .reduce
    { rstream := bits n 207 204, kind := bits n 203 201, int32 := bit n 200, thin := bit n 199, fromHbm := bit n 198,
      group := bits n 197 190, addr := bits n 189 142, saddr := bits n 141 94, eaddr := bits n 93 52, len := bits n 51 20 }
  | 0x29 => .norm (bits n 207 206) (bits n 205 198) (bits n 197 190) (bits n 189 182) (BitVec.ofNat 32 (bits n 31 0))
  | 0x2A => .xfer
    { conn := bits n 207 195, imm := bit n 194, sched := bit n 193, laddr := bits n 192 145, raddr := bits n 144 81,
      len := bits n 80 49, immval := bits n 48 17 }
  | 0x2B => .waitt (bits n 63 0)
  | 0x3F => .endc
  | o => .reserved o

/-- The opcode of a command. -/
def opcodeFor : FOp → Nat
  | .nop => 0x00
  | .tilecfg .. => 0x01
  | .load .. => 0x02
  | .store .. => 0x03
  | .stream _ => 0x04
  | .swap _ => 0x05
  | .settle => 0x06
  | .flagset .. => 0x08
  | .cinit .. => 0x09
  | .cadd .. => 0x0A
  | .ccmp .. => 0x0B
  | .pass _ => 0x10
  | .saveacc .. => 0x11
  | .restacc .. => 0x12
  | .drain _ => 0x14
  | .fmtsel .. => 0x15
  | .maskset .. => 0x16
  | .gatherIndex k .. => 0x20 + k
  | .gatherRecall k .. => 0x20 + k
  | .reduce _ => 0x28
  | .norm .. => 0x29
  | .xfer _ => 0x2A
  | .waitt _ => 0x2B
  | .endc => 0x3F
  | .reserved o => o

/-- A field placed at its low bit, cut to its width. -/
def place (v hi lo : Nat) : Nat := v % 2 ^ (hi + 1 - lo) * 2 ^ lo

/-- The operand bits of a command (R282-R311). -/
def operandBits : FOp → Nat
  | .tilecfg reg g ld r c cfg =>
    place reg 207 204 + flagAt g 203 + place ld 201 200 + place r 63 52 + place c 51 32 + place cfg 23 0
  | .load d r g h e => place d 207 204 + place r 203 200 + flagAt g 199 + flagAt h 198 + flagAt e 197
  | .store d r g h e => place d 207 204 + place r 203 200 + flagAt g 199 + flagAt h 198 + flagAt e 197
  | .stream o =>
    place o.desc 207 204 + flagAt o.store 203 + place o.cls 202 201 + place o.mfmt 200 197 + flagAt o.mmx 196 +
    flagAt o.morient 195 + place o.rnd 194 193 + flagAt o.ovf 192 + place o.base 191 144 +
    place (unsigned 32 o.stride) 143 112 + place (unsigned 32 o.advance) 111 80 + place (unsigned 32 o.scaleOff) 79 48 +
    place o.zmap 47 6
  | .swap g => flagAt g 207
  | .flagset t m v => place t 207 196 + flagAt m 195 + place v 191 176
  | .cinit c v => place c 207 206 + place v 31 0
  | .cadd c v => place c 207 206 + place v 31 0
  | .ccmp i n co s j f v =>
    place i 207 206 + place n 205 203 + place co 202 200 + place s 199 198 + place j 197 196 + place f 195 184 + place v 31 0
  | .pass o =>
    place o.areg 207 204 + place o.breg 203 200 + place o.slot 199 198 + place o.acc 197 196 + flagAt o.add 195 +
    place o.quad 194 193 + flagAt o.maskEn 192 + place o.mreg 191 188 + flagAt o.skipEn 187 + flagAt o.chkB 186 +
    place o.sreg 185 182 + place o.k 31 0
  | .saveacc s g a => place s 207 204 + flagAt g 203 + place a 191 156
  | .restacc s g a => place s 207 204 + flagAt g 203 + place a 191 156
  | .drain o =>
    place o.slot 207 206 + place o.quads 205 202 + place o.fn 201 196 + place o.dest 195 194 + flagAt o.hold 193 +
    flagAt o.spillNow 192 + place o.oreg 191 188 + place o.desc 187 184 + place o.breg 183 180 + place o.rreg 179 176 +
    place o.zreg 175 172 + place o.sreg 171 168 + place o.mreg 167 164 + flagAt o.maskEn 163 + flagAt o.flush 162 +
    place o.nacc 161 160 + place o.l 159 148 + place o.step 147 144 + place o.rstream 143 140
  | .fmtsel l t w d c m ma th =>
    place l 207 196 + place t 195 192 + place w 191 188 + place d 187 172 + place c 171 164 + flagAt m 163 +
    place ma 162 159 + place th 158 143
  | .maskset r g m b => place r 207 204 + flagAt g 203 + flagAt m 202 + place b 63 0
  | .gatherIndex _ f l i c d =>
    place f 207 206 + place l 205 204 + place i 203 200 + place c 199 180 + place d 179 138
  | .gatherRecall _ f c => place 1 207 206 + place f 199 182 + place c 181 163
  | .reduce o =>
    place o.rstream 207 204 + place o.kind 203 201 + flagAt o.int32 200 + flagAt o.thin 199 + flagAt o.fromHbm 198 +
    place o.group 197 190 + place o.addr 189 142 + place o.saddr 141 94 + place o.eaddr 93 52 + place o.len 51 20
  | .norm a g n f c => place a 207 206 + place g 205 198 + place n 197 190 + place f 189 182 + place c.toNat 31 0
  | .xfer o =>
    place o.conn 207 195 + flagAt o.imm 194 + flagAt o.sched 193 + place o.laddr 192 145 + place o.raddr 144 81 +
    place o.len 80 49 + place o.immval 48 17
  | .waitt t => place t 63 0
  | _ => 0

/-- The 256 bits of a command (R267). -/
def encodeFairhel (h : FHead) (o : FOp) : BitVec 256 :=
  BitVec.ofNat 256
    (place (opcodeFor o) 255 248 + place h.pred 247 244 + place h.wflag 243 232 + place h.wval 231 224 +
     place h.sflag 223 212 + operandBits o)

/-- The reserved operand ranges [hi:lo] of an opcode, by its FORM where it has one (R274). -/
def reservedRanges (op form : Nat) : List (Nat × Nat) :=
  match op with
  | 0x00 => [(207, 0)]
  | 0x01 => [(202, 202), (199, 64), (31, 24)]
  | 0x02 => [(196, 0)]
  | 0x03 => [(196, 0)]
  | 0x04 => [(5, 0)]
  | 0x05 => [(206, 0)]
  | 0x06 => [(207, 0)]
  | 0x08 => [(194, 192), (175, 0)]
  | 0x09 => [(205, 32)]
  | 0x0A => [(205, 32)]
  | 0x0B => [(183, 32)]
  | 0x10 => [(181, 32)]
  | 0x11 => [(202, 192), (155, 0)]
  | 0x12 => [(202, 192), (155, 0)]
  | 0x14 => [(139, 0)]
  | 0x15 => [(142, 0)]
  | 0x16 => [(201, 64)]
  | 0x20 => if form = 1 then [(205, 200), (162, 0)] else [(137, 0)]
  | 0x21 => [(137, 0)]
  | 0x22 => [(137, 0)]
  | 0x28 => [(19, 0)]
  | 0x29 => [(181, 32)]
  | 0x2A => [(16, 0)]
  | 0x2B => [(207, 64)]
  | 0x3F => [(207, 0)]
  | _ => []

/-- Whether every reserved operand bit of a command is zero (R274). -/
def reservedZero (w : BitVec 256) : Bool :=
  (reservedRanges (opcodeOf w) (bits w.toNat 207 206)).all (fun r => bits w.toNat r.1 r.2 == 0)

/-- Whether an opcode is implemented (R268). -/
def opKnown (op : Nat) : Bool :=
  [0x00, 0x01, 0x02, 0x03, 0x04, 0x05, 0x06, 0x08, 0x09, 0x0A, 0x0B, 0x10, 0x11, 0x12, 0x14, 0x15, 0x16, 0x20, 0x21, 0x22,
   0x28, 0x29, 0x2A, 0x2B, 0x3F].contains op

/-- Whether context `c` accepts opcode `op` (R238). -/
def accepts (c op : Nat) : Bool :=
  if [0x00, 0x09, 0x0A, 0x0B, 0x08, 0x06, 0x2B, 0x3F, 0x01].contains op then true
  else if op = 0x05 ∨ op = 0x16 then decide (c < 16)
  else if op = 0x04 then decide (c < 16 ∧ (c % 4 = 0 ∨ c % 4 = 3))
  else if op = 0x02 then decide (c < 16 ∧ c % 4 = 0)
  else if op = 0x03 then decide (c < 16 ∧ c % 4 = 3)
  else if op = 0x10 ∨ op = 0x12 then decide (c < 16 ∧ c % 4 = 1)
  else if op = 0x14 ∨ op = 0x11 then decide (c < 16 ∧ c % 4 = 2)
  else if op = 0x15 then decide (c = 17 ∨ (c < 16 ∧ c % 4 = 2))
  else if op = 0x20 ∨ op = 0x21 ∨ op = 0x22 then decide (c = 16)
  else if op = 0x28 ∨ op = 0x29 ∨ op = 0x2A then decide (c = 17)
  else false

/-- Whether an FP32 word is positive and finite (NORM's threshold). -/
def posFinite (c : Word) : Bool := decide (0 < c.toNat ∧ c.toNat < 0x7F800000)

/-- Whether no operand holds a value marked "reserved (fetch)" (R274). `flagOk` says whether a WFLAG-encoded field names a flag
of the berth or none; `connOk` whether the berth owns a connection. FREF of a CCMP is checked only where SRC = 0b10 uses it; that a FREF which is
not used passes is the model's choice. (DEDUCED, log entry 12.) -/
def operandsOk (flagOk : Nat → Bool) (connOk : Nat → Bool) : FOp → Bool
  | .load _ _ _ h r => !(r && !h)
  | .store _ _ _ h r => !(r && !h)
  | .flagset t _ _ => flagOk t
  | .ccmp _ n co s _ f _ => n != 0 && decide (co < 6) && s != 3 && (s != 2 || (f != 0xFFF && flagOk f))
  | .pass o => o.acc != 3
  | .saveacc s _ _ => s != 0
  | .restacc s _ _ => s != 0
  | .drain o => !(o.hold && o.dest != 1) && !(o.spillNow && !o.hold)
  | .gatherIndex _ f _ _ _ _ => f == 0
  | .gatherRecall _ _ c => c != 0
  | .reduce o => decide (o.kind < 3) && !(o.thin && (o.int32 || o.kind == 2))
  | .norm _ _ n f c => n != f && posFinite c
  | .xfer o => connOk o.conn
  | _ => true

/-- The commands that execute in the context (R238). -/
def inContext (op : Nat) : Bool := op == 0x00 || op == 0x09 || op == 0x0A || op == 0x0B

end Sys2Proof.Machine
end

