-- ==== Sys2Proof/Machine/Num.lean ====
section
/-! DEFINITION. Number formats, exact values, roundings and conversions (02_numbers.md, R44-R78, R185). -/

namespace Sys2Proof.Machine

/-! ### Exact values -/

/-- An exact value: NaN, an infinity, or a finite number ±m × 2^e with its sign kept for zero. -/
inductive FV where
  | nan
  | inf (neg : Bool)
  | fin (neg : Bool) (m : Nat) (e : Int)
deriving DecidableEq, Repr

namespace FV

/-- The zero of a sign. -/
def zero (neg : Bool) : FV := .fin neg 0 0

/-- Whether a value is a zero of either sign. -/
def isZero : FV → Bool
  | .fin _ m _ => m == 0
  | _ => false

/-- Whether a value is finite. -/
def isFinite : FV → Bool
  | .fin _ _ _ => true
  | _ => false

/-- Whether a value is a NaN. -/
def isNan : FV → Bool
  | .nan => true
  | _ => false

/-- The sign. -/
def neg? : FV → Bool
  | .nan => false
  | .inf n => n
  | .fin n _ _ => n

/-- The exact product (R59, R61). -/
def mul : FV → FV → FV
  | .nan, _ => .nan
  | _, .nan => .nan
  | .inf a, .inf b => .inf (a != b)
  | .inf a, .fin b m _ => if m = 0 then .nan else .inf (a != b)
  | .fin a m _, .inf b => if m = 0 then .nan else .inf (a != b)
  | .fin a m e, .fin b n f => .fin (a != b) (m * n) (e + f)

/-- A finite value as an integer multiple of 2^lo. -/
def scaled (lo : Int) : FV → Int
  | .fin n m e => let v : Int := ((m <<< (e - lo).toNat : Nat) : Int); if n then -v else v
  | _ => 0

/-- The exponent of a finite value. -/
def expo : FV → Int
  | .fin _ _ e => e
  | _ => 0

/-- The exact sum (R59, R61). A zero sum has the sign − only where every addend is −0. -/
def sum (l : List FV) : FV :=
  if l.any isNan then .nan
  else if l.any (· == .inf false) && l.any (· == .inf true) then .nan
  else if l.any (· == .inf false) then .inf false
  else if l.any (· == .inf true) then .inf true
  else
    let lo := l.foldl (fun a v => min a (expo v)) 0
    let t := l.foldl (fun a v => a + scaled lo v) 0
    if t = 0 then .fin (!l.isEmpty && l.all neg?) 0 0 else .fin (decide (t < 0)) t.natAbs lo

/-- The sum of two. -/
def add (a b : FV) : FV := sum [a, b]

/-- The value with its sign turned. -/
def negate : FV → FV
  | .nan => .nan
  | .inf n => .inf (!n)
  | .fin n m e => .fin (!n) m e

/-- The magnitude. -/
def abs : FV → FV
  | .nan => .nan
  | .inf _ => .inf false
  | .fin _ m e => .fin false m e

/-- a < b for values that are not NaN; zeros of both signs are equal. -/
def lt : FV → FV → Bool
  | .nan, _ => false
  | _, .nan => false
  | .inf a, .inf b => a && !b
  | .inf a, _ => a
  | _, .inf b => !b
  | a, b => let lo := min (expo a) (expo b); decide (scaled lo a < scaled lo b)

/-- An integer. -/
def ofInt (i : Int) : FV := .fin (decide (i < 0)) i.natAbs 0

/-- 2^k. -/
def pow2 (k : Int) : FV := .fin false 1 k

/-- ⌊log2 |v|⌋ of a non-zero finite value. -/
def log2 : FV → Int
  | .fin _ m e => (Nat.log2 m : Int) + e
  | _ => 0

end FV

/-! ### Formats (R44, R46, R47) -/

/-- The parameters of a float format. -/
structure FloatFmt where
  ebits : Nat
  mbits : Nat
  bias : Int
  hasInf : Bool
  hasNan : Bool
  maxM : Nat
  maxE : Int
deriving DecidableEq, Repr

/-- FP32. -/
def fp32 : FloatFmt := ⟨8, 23, 127, true, true, 2 ^ 24 - 1, 104⟩

/-- binary64, of the norm accumulators (R190). -/
def fp64 : FloatFmt := ⟨11, 52, 1023, true, true, 2 ^ 53 - 1, 971⟩

/-- bfloat16. -/
def bf16 : FloatFmt := ⟨8, 7, 127, true, true, 2 ^ 8 - 1, 120⟩

/-- The float format of a code, none for the integer formats and the reserved codes. -/
def floatFmt : Nat → Option FloatFmt
  | 0 => some fp32
  | 1 => some bf16
  | 2 => some ⟨5, 10, 15, true, true, 2 ^ 11 - 1, 5⟩
  | 3 => some ⟨4, 3, 7, false, true, 14, 5⟩
  | 4 => some ⟨5, 2, 15, true, true, 7, 13⟩
  | 5 => some ⟨3, 2, 3, false, false, 7, 2⟩
  | 6 => some ⟨2, 3, 1, false, false, 15, -1⟩
  | 7 => some ⟨2, 1, 1, false, false, 3, 1⟩
  | _ => none

/-- The width of a format in bits (R44). -/
def fmtWidth : Nat → Nat
  | 0 => 32
  | 1 => 16
  | 2 => 16
  | 3 => 8
  | 4 => 8
  | 5 => 6
  | 6 => 6
  | 7 => 4
  | 8 => 8
  | 9 => 4
  | _ => 0

/-- Whether a code is one of the ten formats (R44, R45). -/
def fmtOk (f : Nat) : Bool := decide (f < 10)

/-- Whether a code accepts MX (R52). -/
def fmtMxOk (f : Nat) : Bool := decide (3 ≤ f ∧ f ≤ 8)

/-- Whether a format is an integer format; an MX INT8 operand is a float operand (R53). -/
def isIntFmt (f : Nat) (mx : Bool) : Bool := (f == 8 || f == 9) && !mx

/-- The canonical NaN of a format (R48). -/
def canonNan (f : FloatFmt) : Nat :=
  if f.hasInf then (2 ^ f.ebits - 1) <<< f.mbits ||| 2 ^ (f.mbits - 1) else 2 ^ (f.ebits + f.mbits) - 1

/-- The code of an infinity. -/
def infCode (f : FloatFmt) (neg : Bool) : Nat :=
  ((2 ^ f.ebits - 1) <<< f.mbits) + flagAt neg (f.ebits + f.mbits)

/-- The value of a float code (R46, R47). -/
def floatVal (f : FloatFmt) (n : Nat) : FV :=
  let neg := bit n (f.ebits + f.mbits)
  let ex := bits n (f.ebits + f.mbits - 1) f.mbits
  let fr := n % 2 ^ f.mbits
  if f.hasInf && ex == 2 ^ f.ebits - 1 then (if fr = 0 then .inf neg else .nan)
  else if !f.hasInf && f.hasNan && ex == 2 ^ f.ebits - 1 && fr == 2 ^ f.mbits - 1 then .nan
  else if ex = 0 then .fin neg fr (1 - f.bias - f.mbits)
  else .fin neg (fr + 2 ^ f.mbits) (ex - f.bias - f.mbits)

/-- The value of an element code of a format; an MX INT8 element n is n × 2^−6 before its scale (R53). -/
def elemVal (fmt : Nat) (mx : Bool) (n : Nat) : FV :=
  match floatFmt fmt with
  | some f => floatVal f n
  | none =>
    let i := FV.ofInt (signed (fmtWidth fmt) n)
    if mx then FV.mul i (FV.pow2 (-6)) else i

/-- The value of an E8M0 scale (R51). -/
def scaleVal (x : Byte) : FV := if x = 0xFF then .nan else FV.pow2 ((x.toNat : Int) - 127)

/-- An FP32 word as an exact value. -/
def f32 (w : Word) : FV := floatVal fp32 w.toNat

/-- A binary64 word as an exact value. -/
def f64 (w : DWord) : FV := floatVal fp64 w.toNat

/-! ### Rounding -/

/-- The rounding modes (R70). -/
inductive Rnd where
  | rne
  | rtz
  | sr
deriving DecidableEq, Repr

/-- The rounding mode of an RND field. -/
def rndOf (n : Nat) : Rnd := if n = 0 then .rne else if n = 1 then .rtz else .sr

/-- m × 2^−sh rounded to an integer; `r` is the random draw of SR (R71). -/
def roundShift (rnd : Rnd) (r : Nat) (m : Nat) (sh : Int) : Nat :=
  if sh ≤ 0 then m <<< (-sh).toNat
  else
    let s := sh.toNat
    let k := m >>> s
    let rem := m % 2 ^ s
    match rnd with
    | .rtz => k
    | .rne => if 2 * rem > 2 ^ s ∨ (2 * rem = 2 ^ s ∧ k % 2 = 1) then k + 1 else k
    | .sr =>
      let d := if s ≥ 16 then rem >>> (s - 16) else rem <<< (16 - s)
      if d + r ≥ 65536 then k + 1 else k

/-- The code of a rounded magnitude k × 2^q that the format represents. -/
def encodeMag (f : FloatFmt) (k : Nat) (q : Int) : Nat :=
  if k < 2 ^ f.mbits then k
  else
    let k' := if k = 2 ^ (f.mbits + 1) then 2 ^ f.mbits else k
    let q' := if k = 2 ^ (f.mbits + 1) then q + 1 else q
    ((q' + f.mbits + f.bias).toNat <<< f.mbits) + (k' - 2 ^ f.mbits)

/-- The code of the largest finite value. -/
def maxCode (f : FloatFmt) : Nat := encodeMag f f.maxM f.maxE

/-- What replaces an overflow (R73); `fromInf` marks an infinite input (R74). -/
def overflow (f : FloatFmt) (rnd : Rnd) (ovf fromInf : Bool) : Nat :=
  if !f.hasInf && !f.hasNan then maxCode f
  else if rnd = .rtz && !fromInf then maxCode f
  else if !ovf then maxCode f
  else if f.hasInf then infCode f false
  else canonNan f

/-- Conversion of an exact value to a float code (R71-R75). -/
def toFloat (f : FloatFmt) (rnd : Rnd) (ovf : Bool) (r : Nat) : FV → Nat
  | .nan => if f.hasNan then canonNan f else 0
  | .inf n =>
    if f.hasInf then infCode f n
    else
      let c := overflow f rnd ovf true
      if c = canonNan f && f.hasNan then c else c + flagAt n (f.ebits + f.mbits)
  | .fin n m e =>
    if m = 0 then flagAt n (f.ebits + f.mbits)
    else
      let q := max ((Nat.log2 m : Int) + e) (1 - f.bias) - f.mbits
      let k := roundShift rnd r m (q - e)
      if FV.lt (.fin false f.maxM f.maxE) (.fin false k q) then
        let c := overflow f rnd ovf false
        if c = canonNan f && f.hasNan then c else c + flagAt n (f.ebits + f.mbits)
      else encodeMag f k q + flagAt n (f.ebits + f.mbits)

/-- An integer clamped to a range. -/
def clampInt (i lo hi : Int) : Int := max lo (min hi i)

/-- A value rounded to an integer and clamped; NaN gives 0 (R74, R76). -/
def toInt (rnd : Rnd) (r : Nat) (lo hi : Int) : FV → Int
  | .nan => 0
  | .inf n => if n then lo else hi
  | .fin n m e =>
    let k : Int := roundShift rnd r m (-e)
    clampInt (if n then -k else k) lo hi

/-- The range of an integer format. -/
def intLo (fmt : Nat) : Int := if fmt = 9 then -8 else -128

/-- The range of an integer format. -/
def intHi (fmt : Nat) : Int := if fmt = 9 then 7 else 127

/-- Conversion of a value to an element code of a format without MX (R71-R76). -/
def toElem (fmt : Nat) (rnd : Rnd) (ovf : Bool) (r : Nat) (v : FV) : Nat :=
  match floatFmt fmt with
  | some f => toFloat f rnd ovf r v
  | none => unsigned (fmtWidth fmt) (toInt rnd r (intLo fmt) (intHi fmt) v)

/-- RNE to FP32 with overflow to infinity (R59, R61). -/
def rne32 (v : FV) : Word := BitVec.ofNat 32 (toFloat fp32 .rne true 0 v)

/-- RNE to binary64. -/
def rne64 (v : FV) : DWord := BitVec.ofNat 64 (toFloat fp64 .rne true 0 v)

/-- RNE to bfloat16 with overflow to infinity (R361). -/
def rneBf (v : FV) : BitVec 16 := BitVec.ofNat 16 (toFloat bf16 .rne true 0 v)

/-! ### MX blocks (R54, R77) -/

/-- emax of an element format (R77). -/
def emaxOf : Nat → Int
  | 3 => 8
  | 4 => 15
  | 5 => 4
  | 6 => 2
  | 7 => 2
  | _ => 0

/-- The largest magnitude of a list of finite values. -/
def amaxOf (l : List FV) : FV := l.foldl (fun a v => if FV.lt a v.abs then v.abs else a) (FV.zero false)

/-- The scale byte that R77 chooses for a block. -/
def mxScale (fmt : Nat) (vs : List FV) : Byte :=
  if vs.any (fun v => !v.isFinite) then 0xFF
  else
    let am := amaxOf vs
    if am.isZero then 0x00
    else BitVec.ofNat 8 (clampInt (am.log2 - emaxOf fmt + 127) 0 254).toNat

/-- An element of an MX block under its scale byte (R77). -/
def mxElem (fmt : Nat) (rnd : Rnd) (r : Nat) (scale : Byte) (v : FV) : Nat :=
  if scale = 0xFF then 0
  else
    let x := FV.mul v (FV.pow2 (127 - (scale.toNat : Int)))
    match floatFmt fmt with
    | some f => toFloat f rnd false r x
    | none => unsigned 8 (toInt rnd r (-128) 127 (FV.mul x (FV.pow2 6)))

/-! ### Quotients and roots -/

/-- A value ±(n / d) × 2^e as an exact value that rounds as the quotient does: enough bits and a sticky bit. -/
def ratFV (neg : Bool) (n d : Nat) : FV :=
  if n = 0 then FV.zero neg
  else
    let s := 400 + Nat.log2 d
    let q := (n <<< s) / d
    let st := if (n <<< s) % d = 0 then 0 else 1
    .fin neg (2 * q + st) (-(s : Int) - 1)

/-- The integer square root, by bits from the top. -/
def isqrtFrom (n : Nat) : Nat → Nat → Nat
  | 0, acc => acc
  | k + 1, acc => let t := acc + 2 ^ k; if t * t ≤ n then isqrtFrom n k t else isqrtFrom n k acc

/-- The integer square root. -/
def isqrt (n : Nat) : Nat := isqrtFrom n (Nat.log2 n / 2 + 1) 0

/-- RNE(√v) in FP32 of a finite positive value (R310). -/
def sqrt32 (v : Word) : Word :=
  match f32 v with
  | .fin false m e =>
    let odd := e % 2 ≠ 0
    let m' := (if odd then 2 * m else m) <<< 200
    let e' := (if odd then e - 1 else e) - 200
    let q := isqrt m'
    let st := if q * q = m' then 0 else 1
    rne32 (.fin false (2 * q + st) (e' / 2 - 1))
  | .inf false => 0x7F800000
  | _ => 0x7FC00000

/-- RNE(a / b) in FP32 of finite positive values. -/
def div32 (a b : Word) : Word :=
  match f32 a, f32 b with
  | .fin n m e, .fin n' m' e' =>
    if m' = 0 then (if m = 0 then 0x7FC00000 else BitVec.ofNat 32 (infCode fp32 (n != n')))
    else rne32 (FV.mul (ratFV (n != n') m m') (FV.pow2 (e - e')))
  | .nan, _ => 0x7FC00000
  | _, .nan => 0x7FC00000
  | .fin n _ _, .inf n' => BitVec.ofNat 32 (flagAt (n != n') 31)
  | .inf n, .fin n' _ _ => BitVec.ofNat 32 (infCode fp32 (n != n'))
  | .inf _, .inf _ => 0x7FC00000

/-! ### Activation functions (R185) -/

/-- The fixed-point precision in which the references are formed. -/
def fixP : Nat := 400

/-- 1.0 in fixed point. -/
def fixOne : Int := (2 ^ fixP : Nat)

/-- Product of fixed-point numbers. -/
def fixMul (a b : Int) : Int := (a * b) / fixOne

/-- Quotient of fixed-point numbers. -/
def fixDiv (a b : Int) : Int := (a * fixOne) / b

/-- A finite value in fixed point. -/
def toFix (v : FV) : Int :=
  match v with
  | .fin n m e =>
    let s := e + fixP
    let k : Int := if s ≥ 0 then ((m <<< s.toNat : Nat) : Int) else ((m >>> (-s).toNat : Nat) : Int)
    if n then -k else k
  | _ => 0

/-- The Taylor terms of exp, from term `k` on. -/
def expTaylor (y : Int) : Nat → Nat → Int → Int → Int
  | 0, _, _, acc => acc
  | fuel + 1, k, term, acc =>
    let t := fixMul term y / (k : Int)
    expTaylor y fuel (k + 1) t (acc + t)

/-- Repeated squaring. -/
def squareTimes : Nat → Int → Int
  | 0, v => v
  | k + 1, v => squareTimes k (fixMul v v)

/-- e^x in fixed point for |x| ≤ 256: the argument is divided by 2^12 first. -/
def fixExp (x : Int) : Int :=
  squareTimes 12 (expTaylor (x / 4096) 60 1 fixOne fixOne)

/-- tanh in fixed point. -/
def fixTanh (x : Int) : Int :=
  if x > 200 * fixOne then fixOne
  else if x < -200 * fixOne then -fixOne
  else let e := fixExp (2 * x); fixDiv (e - fixOne) (e + fixOne)

/-- The logistic function in fixed point. -/
def fixSigma (x : Int) : Int :=
  if x > 200 * fixOne then fixOne
  else if x < -200 * fixOne then 0
  else fixDiv fixOne (fixOne + fixExp (-x))

/-- √(2/π) in fixed point. -/
def fixC : Int :=
  2060337309860625669158887524896583040847384015804865113243324589387049149478680161082114736606036866790242378560860575272

/-- A fixed-point number as an exact value; `neg` is the sign of a zero. -/
def ofFix (neg : Bool) (i : Int) : FV :=
  if i = 0 then FV.zero neg else .fin (decide (i < 0)) i.natAbs (-(fixP : Int))

/-- c(x + 0.044715x³) in fixed point. -/
def geluArg (x : Int) : Int :=
  fixMul fixC (x + fixMul (fixMul x x) x * 44715 / 1000000)

/-- The correctly rounded f(x) of a finite x (R185). (DEDUCED, log entry 63.) -/
def actRef (code : Nat) (x : FV) : Word :=
  let i := toFix x
  let big := FV.lt (FV.pow2 40) x.abs
  match code with
  | 2 =>
    if big then (if x.neg? then 0x80000000 else rne32 x)
    else
      let t := fixTanh (geluArg i)
      rne32 (FV.mul x (FV.mul (ofFix false (fixOne + t)) (FV.pow2 (-1))))
  | 3 =>
    if big then (if x.neg? then 0x80000000 else rne32 x)
    else rne32 (FV.mul x (ofFix false (fixSigma i)))
  | 4 =>
    if FV.lt x.abs (FV.pow2 (-100)) then rne32 x
    else if big then (if x.neg? then 0xBF800000 else 0x3F800000)
    else rne32 (ofFix x.neg? (fixTanh i))
  | _ =>
    if FV.lt (FV.pow2 7) x.abs then (if x.neg? then 0 else 0x7F800000)
    else rne32 (ofFix false (fixExp i))

/-- The correctly rounded f′(z) of a finite z (R185). (DEDUCED, log entry 63.) -/
def actDerivRef (code : Nat) (z : FV) : Word :=
  let i := toFix z
  let big := FV.lt (FV.pow2 40) z.abs
  let atEnds : Word := if z.neg? then 0 else 0x3F800000
  match code with
  | 2 =>
    if big then atEnds
    else
      let t := fixTanh (geluArg i)
      let a := (fixOne + t) / 2
      let b := fixMul (fixMul (fixMul i (fixOne - fixMul t t)) fixC) (fixOne + fixMul i i * 134145 / 1000000) / 2
      rne32 (ofFix false (a + b))
  | 3 =>
    if big then atEnds
    else
      let g := fixSigma i
      rne32 (ofFix false (fixMul g (fixOne + fixMul i (fixOne - g))))
  | 4 =>
    if big then 0
    else let t := fixTanh i; rne32 (ofFix false (fixOne - fixMul t t))
  | _ =>
    if FV.lt (FV.pow2 7) z.abs then (if z.neg? then 0 else 0x7F800000)
    else rne32 (ofFix false (fixExp i))

/-- An FP32 word moved by `e` units in the last place, at most two, without leaving the numbers (R185). (DEDUCED, log entry 63.) -/
def moveUlps (w : Word) (e : Int) : Word :=
  let d := clampInt e (-2) 2
  if d = 0 then w
  else
    let mag : Int := (w.toNat % 2 ^ 31 : Nat)
    let i := (if bit w.toNat 31 then -mag else mag) + d
    let j := clampInt i (-0x7F800000) 0x7F800000
    if j = 0 then BitVec.ofNat 32 (flagAt (bit w.toNat 31) 31)
    else BitVec.ofNat 32 (j.natAbs + flagAt (decide (j < 0)) 31)

/-- f(x) of an activation code (R185). (DEDUCED, log entry 63.) -/
def act (code : Nat) (x : Word) : Word :=
  match f32 x with
  | .nan => 0x7FC00000
  | .inf n =>
    match code with
    | 0 => x
    | 1 => if n then 0 else x
    | 2 => if n then 0x80000000 else x
    | 3 => if n then 0x80000000 else x
    | 4 => if n then 0xBF800000 else 0x3F800000
    | _ => if n then 0 else x
  | .fin n m e =>
    match code with
    | 0 => x
    | 1 => if n || m == 0 then 0 else x
    | _ => moveUlps (actRef code (.fin n m e)) (Config.ulpError code false x)

/-- f′(z) of an activation code (R185). (DEDUCED, log entry 63.) -/
def actDeriv (code : Nat) (z : Word) : Word :=
  match f32 z with
  | .nan => 0x7FC00000
  | .inf n =>
    match code with
    | 0 => 0x3F800000
    | 1 => if n then 0 else 0x3F800000
    | 2 => if n then 0 else 0x3F800000
    | 3 => if n then 0 else 0x3F800000
    | 4 => 0
    | _ => if n then 0 else z
  | .fin n m e =>
    match code with
    | 0 => 0x3F800000
    | 1 => if n || m == 0 then 0 else 0x3F800000
    | _ => moveUlps (actDerivRef code (.fin n m e)) (Config.ulpError code true z)

/-- FP32 exponential under R185, as the row statistics use it (R186). (DEDUCED, log entry 63.) -/
def exp32 (x : Word) : Word := act 5 x

/-- FP32 add, product and difference, each rounded once under RNE (R182). -/
def add32 (a b : Word) : Word := rne32 (FV.add (f32 a) (f32 b))

/-- FP32 product. -/
def mul32 (a b : Word) : Word := rne32 (FV.mul (f32 a) (f32 b))

/-- FP32 difference. -/
def sub32 (a b : Word) : Word := rne32 (FV.add (f32 a) (FV.negate (f32 b)))

/-! ### Sums of unspecified order (R82, R83) -/

/-- Insert by key. -/
def insertKey {α : Type} (k : Nat) (a : α) : List (Nat × α) → List (Nat × α)
  | [] => [(k, a)]
  | (j, b) :: r => if k < j then (k, a) :: (j, b) :: r else (j, b) :: insertKey k a r

/-- The list in the order that the n-th sum takes its terms in. (DEDUCED, log entry 62.) -/
def freeOrder {α : Type} (n : Nat) (l : List α) : List α :=
  ((l.zipIdx.foldl (fun acc p => insertKey (Config.orderKey n p.2) p.1 acc) []).map (·.2))

/-- The sum of FP32 words in the order of the n-th sum. (DEDUCED, log entry 62.) -/
def sum32 (n : Nat) (l : List Word) : Word :=
  match freeOrder n l with
  | [] => 0
  | a :: r => r.foldl add32 a

/-! ### Accumulators (R59, R63, R68, R69) -/

/-- The INT32 value of an entry. -/
def i32 (w : Word) : Int := signed 32 w.toNat

/-- The clamp of R63. -/
def clamp32 (i : Int) : Int := clampInt i (-(2 ^ 31 - 1)) (2 ^ 31 - 1)

/-- One INT32 update: the new entry and whether it was clamped (R63). -/
def accInt (acc : Word) (g : Int) : Word × Bool :=
  let t := i32 acc + g
  let c := clamp32 t
  (BitVec.ofInt 32 c, c != t)

/-- One FP32 update (R59). -/
def accFp (acc : Word) (g : List FV) : Word := rne32 (FV.sum (f32 acc :: [FV.sum g]))

/-- One compensated update (R68). -/
def accComp (sigma eps : Word) (g : List FV) : Word × Word :=
  let x := rne32 (FV.sum g)
  let s1 := add32 sigma x
  let v := sub32 s1 sigma
  let t := add32 (sub32 sigma (sub32 s1 v)) (sub32 x v)
  (s1, add32 eps t)

/-- The value of a compensated entry (R69). -/
def compValue (sigma eps : Word) : Word := if (f32 sigma).isFinite then add32 sigma eps else sigma

/-- G as (step groups, K indices): the K indices of a step group, and the cycles it takes (R56). -/
def groupOf (fmt : Nat) : Nat :=
  if fmt = 0 then 0
  else if fmt = 1 ∨ fmt = 2 then 1
  else if fmt = 3 ∨ fmt = 4 ∨ fmt = 8 then 2
  else 4

/-- G of a pair of operand formats, with 0 standing for 1/4 (R56). -/
def groupG (a b : Nat) : Nat := min (groupOf a) (groupOf b)

end Sys2Proof.Machine
end

