-- ==== Sys2Proof/Machine/Operands.lean ====
section
/-! DEFINITION. Operand forms: tile registers and the layout of their fragments (R139-R144), transfers between memory and tiles
(R156-R160), drain function entries (R180), what a PASS reads at the head of its queue (R201,
R297), and the registers that a command names (R145, R276). -/

namespace Sys2Proof.Machine

/-! ### The layout of a fragment (R140-R142) -/

/-- The role of a ROLE field, none for a reserved encoding (R139). -/
def roleOf : Nat → Option Role
  | 0 => some .none
  | 1 => some .a
  | 2 => some .b
  | 3 => some .output
  | 4 => some .stash
  | 5 => some .mask
  | _ => none

/-- The ROLE field of a role. -/
def roleCode : Role → Nat
  | .none => 0
  | .a => 1
  | .b => 2
  | .output => 3
  | .stash => 4
  | .mask => 5

/-- Whether a role is an operand role. -/
def isOperand (r : Role) : Bool := r == .a || r == .b

/-- Stored rows. -/
def tileRows (t : TileReg) : Nat := 16 * t.rows16

/-- Bytes that `n` elements of a format take (R49). -/
def packedBytes (fmt n : Nat) : Nat := cdiv (n * fmtWidth fmt) 8

/-- The row pitch P. -/
def tilePitch (t : TileReg) : Nat := roundUp (packedBytes t.fmt t.cols) 64

/-- Whether MX blocks run along stored rows (R141). -/
def blocksAlongRows (t : TileReg) : Bool := !(t.orient && isOperand t.role)

/-- The element area per lane group (R140). -/
def elemArea (t : TileReg) : Nat := t.rows16 * tilePitch t

/-- The pitch of the scale area (R141). -/
def scalePitch (t : TileReg) : Nat := if blocksAlongRows t then roundUp (cdiv t.cols 32) 64 else roundUp t.cols 64

/-- The scale area per lane group (R141). -/
def scaleArea (t : TileReg) : Nat :=
  if !t.mx then 0
  else if blocksAlongRows t then t.rows16 * scalePitch t
  else cdiv (cdiv (tileRows t) 32) 16 * scalePitch t

/-- The footprint of a register as local offsets [lo, hi) (R142). -/
def footLo (t : TileReg) : Nat := 64 * t.base

/-- The end of the footprint. -/
def footHi (t : TileReg) : Nat := 64 * t.base + elemArea t + scaleArea t

/-- Whether two ranges meet. -/
def meets (a b c d : Nat) : Bool := decide (a < d ∧ c < b)

/-- The offset within a half of lane group `g`, local offset `o` (R132, R133). -/
def laneAddr (g o : Nat) : Nat := g * 0x60000 + o

/-- Where row `i` of a fragment starts (R140). -/
def rowAddr (t : TileReg) (i : Nat) : Nat := laneAddr (i % 16) (64 * t.base + i / 16 * tilePitch t)

/-- Where the scale byte of element (i, j) lies (R141). -/
def scaleAddr (t : TileReg) (i j : Nat) : Nat :=
  if blocksAlongRows t then laneAddr (i % 16) (64 * t.base + elemArea t + i / 16 * scalePitch t + j / 32)
  else laneAddr (i / 32 % 16) (64 * t.base + elemArea t + i / 32 / 16 * scalePitch t + j)

/-- Element `j` of a packed row that starts at `a` (R49). -/
def readPacked (m : Mem) (a fmt j : Nat) : Nat :=
  let w := fmtWidth fmt
  bits (leNat (m.readBytes (a + j * w / 8) (cdiv (j * w % 8 + w) 8))) (j * w % 8 + w - 1) (j * w % 8)

/-- Element `j` of a packed row that starts at `a`, replaced (R49). -/
def writePacked (m : Mem) (a fmt j v : Nat) : Mem :=
  let w := fmtWidth fmt
  let n := cdiv (j * w % 8 + w) 8
  let old := leNat (m.readBytes (a + j * w / 8) n)
  let sh := j * w % 8
  let new := old - bits old (sh + w - 1) sh * 2 ^ sh + v % 2 ^ w * 2 ^ sh
  m.writeBytes (a + j * w / 8) (natLe n new)

/-- The code of element (i, j). -/
def tileCode (m : Mem) (t : TileReg) (i j : Nat) : Nat := readPacked m (rowAddr t i) t.fmt j

/-- The value of element (i, j), its block scale applied (R51, R54). -/
def tileVal (m : Mem) (t : TileReg) (i j : Nat) : FV :=
  let v := elemVal t.fmt t.mx (tileCode m t i j)
  if t.mx then FV.mul v (scaleVal (m.read (scaleAddr t i j))) else v

/-- The K extent of an operand tile (R142). -/
def kExtent (t : TileReg) : Nat := if t.orient then tileRows t else t.cols

/-- The M or N extent of an operand tile (R142). -/
def xExtent (t : TileReg) : Nat := if t.orient then t.cols else tileRows t

/-- The value of an operand at M or N index `x` and K index `k`. -/
def operandVal (m : Mem) (t : TileReg) (x k : Nat) : FV := if t.orient then tileVal m t k x else tileVal m t x k

/-! ### Writing a tile (R70-R78) -/

/-- The indices of the block that holds (i, j), within rows and columns of the extent. -/
def blockCells (t : TileReg) (i j : Nat) : List (Nat × Nat) :=
  if blocksAlongRows t then
    (List.range (min 32 (t.cols - j / 32 * 32))).map (fun k => (i, j / 32 * 32 + k))
  else (List.range (min 32 (tileRows t - i / 32 * 32))).map (fun k => (i / 32 * 32 + k, j))

/-- Write element (i, j) of a tile from the values of the whole tile; `draw` is the random draw of stochastic rounding.
The scale of its block is chosen from the values of the block (R77). (DEDUCED, log entry 64.) -/
def writeCell (t : TileReg) (rnd : Rnd) (ovf : Bool) (draw : Nat) (val : Nat → Nat → FV) (m : Mem) (i j : Nat) : Mem :=
  if t.mx then
    let sc := mxScale t.fmt ((blockCells t i j).map (fun p => val p.1 p.2))
    (writePacked m (rowAddr t i) t.fmt j (mxElem t.fmt rnd draw sc (val i j))).write (scaleAddr t i j) sc
  else writePacked m (rowAddr t i) t.fmt j (toElem t.fmt rnd ovf draw (val i j))

/-- Write the cells of a tile that `on` selects. Draws of stochastic rounding are numbered from `base`. (DEDUCED, log entry 64.) -/
def writeTile (t : TileReg) (rnd : Rnd) (ovf : Bool) (base : Nat) (on : Nat → Nat → Bool) (val : Nat → Nat → FV) (m : Mem) :
    Mem :=
  (List.range (tileRows t)).foldl
    (fun a i => (List.range t.cols).foldl
      (fun b j => if on i j then writeCell t rnd ovf (Config.random16 (base + i * t.cols + j)).toNat val b i j else b) a) m

/-! ### Decks and halves -/

/-- A tile register of a deck. -/
def tileOf (s : State) (d r : Nat) : TileReg := tget {} (deckOf s d).tiles r

/-- The physical half that a register's logical half is bound to now (R131, R147): true is half 1. -/
def physHalf (s : State) (d : Nat) (t : TileReg) : Bool := t.aft != (deckOf s d).fore1

/-- A physical half of a deck's buffer. -/
def bufOf (s : State) (d : Nat) (h : Bool) : Mem := if h then (deckOf s d).buf1 else (deckOf s d).buf0

/-- The footprint of a zero record's destination (R165). -/
def zrecTile (z : ZRec) : TileReg :=
  { role := .a, orient := z.orient, mx := z.mx, fmt := z.fmt, base := z.base, rows16 := z.rows16, cols := z.cols }

/-- Whether a zero record is of a register in a physical half (R165, R166). -/
def zrecIs (z : ZRec) (h : Bool) (t : TileReg) : Bool :=
  z.half == h && z.base == t.base && z.fmt == t.fmt && z.mx == t.mx && z.orient == t.orient && z.rows16 == t.rows16 &&
    z.cols == t.cols

/-- A physical half replaced, after a write to local offsets [lo, hi) of its lane groups: a zero record whose footprint the
write meets is removed (R165). -/
def putBuf (s : State) (d : Nat) (h : Bool) (lo hi : Nat) (m : Mem) : State :=
  let x := deckOf s d
  let z := x.zrecs.filter (fun r => !(r.half == h && meets (footLo (zrecTile r)) (footHi (zrecTile r)) lo hi))
  setDeck s d (if h then { x with buf1 := m, zrecs := z } else { x with buf0 := m, zrecs := z })

/-- The decks that a command of deck `d` addresses: the gang's members with gang scope, the deck alone with deck scope and in
quad mode (R288). (DEDUCED, log entry 16.) -/
def addressed (s : State) (d : Nat) (gang : Bool) : List Nat :=
  if gang && !deckQuad s d then gangMembers s d else [d]

/-- The decks that a PASS or DRAIN of deck `d` works on: its gang, or the deck itself in quad mode or without a gang.
(DEDUCED, log entry 16.) -/
def arrayDecks (s : State) (d : Nat) : List Nat :=
  if deckQuad s d || (gangMembers s d).isEmpty then [d] else gangMembers s d

/-- Whether a gang-scope command of deck `d` fails R288. -/
def gangScopeBad (s : State) (d : Nat) (gang : Bool) : Bool :=
  gang && (deckFb s d == 15 || (!deckQuad s d && deckLead s d != d))

/-! ### TILECFG (R139, R143, R144) -/

/-- The configuration that a TILECFG carries, none for a reserved ROLE. -/
def cfgTile (cfg0 rows16 cols : Nat) : Option TileReg :=
  match roleOf (bits cfg0 21 19) with
  | some r =>
    some { aliased := bit cfg0 23, aft := bit cfg0 22, role := r, orient := bit cfg0 18, mx := bit cfg0 17, fmt := bits cfg0 16 13,
           base := bits cfg0 12 0, rows16 := rows16, cols := cols }
  | none => none

/-- Whether a configuration fails a check of R144 in deck `d`, register `r`. -/
def cfgFails (s : State) (d r : Nat) (t : TileReg) : Bool :=
  if t.role = .none then false
  else
    !fmtOk t.fmt || (t.mx && !fmtMxOk t.fmt) || (t.role == .mask && (t.fmt != 8 || t.mx)) ||
    (t.orient && !isOperand t.role) || t.rows16 == 0 || t.cols == 0 ||
    ((t.fmt == 5 || t.fmt == 6) && t.cols % 4 != 0) || ((t.fmt == 7 || t.fmt == 9) && t.cols % 2 != 0) ||
    decide (393216 < footHi t) ||
    (!t.aliased && (List.range 16).any (fun k =>
      let o := tileOf s d k
      k != r && o.role != .none && o.aft == t.aft && meets (footLo o) (footHi o) (footLo t) (footHi t)))

/-! ### Transfers (R156-R160) -/

/-- The logical tile of a transfer in stored rows and columns: rows, columns, and how many members split the rows and the
columns. -/
structure Extent where
  rows : Nat
  cols : Nat
  splitR : Nat
  splitC : Nat
deriving DecidableEq, Repr

/-- The logical tile of a LOAD (R156, R160) or of a STORE (R291) of register configuration `t` of deck `d`. The spec gives the extents 128·gm
and 512·gn for roles A and B and states no check; for a register of another M or N extent the model takes the fragment's own extent times gm or
gn, which is its own choice. (DESIGN CHOICE, log entry 16.) -/
def extentOf (s : State) (d : Nat) (t : TileReg) (gang store : Bool) : Extent :=
  let gm := gangM s d
  let gn := gangN s d
  let r := tileRows t
  if !gang || deckQuad s d then ⟨r, t.cols, 1, 1⟩
  else if t.role = .a then (if t.orient then ⟨r, t.cols * gm, 1, gm⟩ else ⟨r * gm, t.cols, gm, 1⟩)
  else if t.role = .b then (if t.orient then ⟨r, t.cols * gn, 1, gn⟩ else ⟨r * gn, t.cols, gn, 1⟩)
  else if store then ⟨r * gm, t.cols * gn, gm, gn⟩
  else ⟨r, t.cols, 1, 1⟩

/-- Memory rows of a transfer and elements per memory row (R157). -/
def memRows (e : Extent) (morient : Bool) : Nat × Nat := if morient then (e.cols, e.rows) else (e.rows, e.cols)

/-- Whether the tile's blocks run along memory rows (R158). -/
def blocksAlongMem (t : TileReg) (morient : Bool) : Bool := blocksAlongRows t != morient

/-- The number of scale bytes of a transfer (R158). -/
def scaleCount (t : TileReg) (e : Extent) (ds : Desc) : Nat :=
  if !ds.mmx then 0
  else
    let n := memRows e ds.morient
    if blocksAlongMem t ds.morient then n.1 * cdiv n.2 32 else cdiv n.1 32 * n.2

/-- The index of the scale byte of memory row `i`, memory column `j` (R158). -/
def scaleIndex (t : TileReg) (e : Extent) (ds : Desc) (i j : Nat) : Nat :=
  let n := memRows e ds.morient
  if blocksAlongMem t ds.morient then i * cdiv n.2 32 + j / 32 else i / 32 * n.2 + j

/-- An address moved by a signed offset, within 48 bits. -/
def moveAddr (a : Nat) (o : Int) : Nat := (((a : Int) + o) % (2 ^ 48 : Nat)).toNat

/-- The extents of a transfer's memory rows (R157). -/
def rowExtents (e : Extent) (ds : Desc) (cur : Nat) : List (Nat × Nat) :=
  let n := memRows e ds.morient
  (List.range n.1).map (fun (i : Nat) => (moveAddr cur ((i : Int) * ds.stride), packedBytes ds.mfmt n.2))

/-- The K extent of the logical tile of an operand transfer. -/
def logicalK (t : TileReg) (e : Extent) : Nat := if t.orient then e.rows else e.cols

/-- The blocks of 32 K indices of an operand tile (R163). -/
def kBlocks (t : TileReg) (e : Extent) : Nat := cdiv (logicalK t e) 32

/-- The bytes of the zero map of a LOAD, 0 for one that writes none (R163, R164). -/
def zmapBytes (t : TileReg) (e : Extent) (ds : Desc) (zcur : Nat) : Nat :=
  if ds.cls = 0 && isOperand t.role && zcur != 0 then roundUp (cdiv (kBlocks t e) 8) 64 else 0

/-- A descriptor of a deck, none when it is not armed. -/
def descOf (s : State) (d n : Nat) : Option Desc :=
  if thas (deckOf s d).descs n then some (tget {} (deckOf s d).descs n) else none

/-- The cursors that a transfer takes at its issue, with the descriptor's cursors advanced past it (R156).
(DEDUCED, log entry 15.) -/
def takeCursors (s : State) (d n : Nat) (t : TileReg) (e : Extent) (zmap : Bool) : State × Option (Nat × Nat × Nat) :=
  match descOf s d n with
  | some ds =>
    let x := deckOf s d
    let z := if zmap then zmapBytes t e ds ds.zcur else 0
    let ds1 : Desc :=
      { ds with cur := moveAddr ds.cur ds.advance, scur := moveAddr ds.scur (scaleCount t e ds : Nat),
                zcur := if z = 0 then ds.zcur else moveAddr ds.zcur (z : Nat) }
    (setDeck s d { x with descs := tput x.descs n ds1 }, some (ds.cur, ds.scur, ds.zcur))
  | none => (s, none)

/-! ### Drain function entries (R180) -/

/-- A drain function table entry. -/
structure FnEntry where
  scaleK : Word
  scaleIdx : Nat
  scaleSrc : Nat
  biasEn : Bool
  biasAxis : Bool
  resEn : Bool
  act : Nat
  actBwd : Bool
  rowstat : Bool
  merge : Bool
  sumsq : Bool
  snd : Bool
  fmtSrc : Bool
  rnd : Nat
  ovf : Bool
  histE0 : Int
deriving DecidableEq, Repr

/-- The fields of a 128-bit entry. -/
def fnEntry (w : BitVec 128) : FnEntry :=
  let n := w.toNat
  { scaleK := BitVec.ofNat 32 (bits n 127 96), scaleIdx := bits n 95 88, scaleSrc := bits n 87 86, biasEn := bit n 85,
    biasAxis := bit n 84, resEn := bit n 83, act := bits n 82 80, actBwd := bit n 79, rowstat := bit n 78, merge := bit n 77,
    sumsq := bit n 76, snd := bit n 75, fmtSrc := bit n 74, rnd := bits n 73 72, ovf := bit n 71, histE0 := signed 8 (bits n 63 56) }

/-- Whether an entry holds no reserved encoding and no non-zero reserved field (R180). -/
def fnEntryOk (w : BitVec 128) : Bool :=
  let n := w.toNat
  decide (bits n 82 80 < 6) && bits n 73 72 != 3 && bits n 70 64 == 0 && bits n 55 0 == 0

/-- The entry that a DRAIN of a berth names, none where the index is not below the entry count. -/
def fnOf (s : State) (b fn : Nat) : Option FnEntry :=
  match (berthOf s b).cfg.fns[fn]? with
  | some w => some (fnEntry w)
  | none => none

/-! ### What a PASS reads at the head of its queue (R103, R200, R201, R296, R297) -/

/-- The quads that a PASS of deck `d` works on (R103). -/
def passQuads (s : State) (d : Nat) (o : PassOps) : List Nat := if deckQuad s d then [o.quad] else [0, 1, 2, 3]

/-- Whether a mask register of a deck masks a quad (R200). -/
def maskOn (s : State) (k r quad : Nat) : Bool :=
  let t := tileOf s k r
  decide (quad < t.cols) && tileCode (bufOf s k (physHalf s k t)) t 0 quad != 0

/-- The masked quads of a PASS, as (deck, quad). -/
def passMasked (s : State) (d : Nat) (o : PassOps) : List (Nat × Nat) :=
  if o.maskEn then
    (arrayDecks s d).flatMap (fun k => ((passQuads s d o).filter (fun qd => maskOn s k o.mreg qd)).map (fun qd => (k, qd)))
  else []

/-- Bit `j` of the skip map in a register (R296). -/
def skipBit (s : State) (d r j : Nat) : Bool :=
  let t := tileOf s d r
  bit (tileCode (bufOf s d (physHalf s d t)) t (j / (8 * t.cols)) (j % (8 * t.cols) / 8)) (j % 8)

/-- The marked blocks of a PASS as its skip map stands, bits beyond the last block left out (R111, R296, R298). -/
def passSkips (s : State) (d : Nat) (o : PassOps) : List Nat :=
  if o.skipEn then
    (List.range (min (cdiv o.k 32) (128 * (tileOf s d o.sreg).rows16 * (tileOf s d o.sreg).cols))).filter (skipBit s d o.sreg)
  else []

/-! ### The registers that a command names (R145, R276) -/

/-- Every register once. -/
def dedup (l : List (Nat × Nat)) : List (Nat × Nat) :=
  l.foldl (fun a x => if a.contains x then a else a ++ [x]) []

/-- The tile registers that a command of context `c` of quay `q` names, as (deck, register). -/
def namedRegs (s : State) (q c b : Nat) (w : BitVec 256) : List (Nat × Nat) :=
  let d := ctxDeck q c
  let all (r : Nat) : List (Nat × Nat) := (arrayDecks s d).map (fun m => (m, r))
  match opOf w with
  | .load _ r g _ _ => (addressed s d g).map (fun m => (m, r))
  | .store _ r g _ _ => (addressed s d g).map (fun m => (m, r))
  | .maskset r g _ _ => (addressed s d g).map (fun m => (m, r))
  | .pass o =>
    dedup (all o.areg ++ all o.breg ++ (if o.maskEn then all o.mreg else []) ++ (if o.skipEn then [(d, o.sreg)] else []))
  | .drain o =>
    match fnOf s b o.fn with
    | some f =>
      dedup ((if o.dest = 0 ∨ o.dest = 3 then all o.oreg else []) ++ (if f.biasEn then all o.breg else []) ++
        (if f.resEn then all o.rreg else []) ++ (if f.actBwd then all o.zreg else []) ++
        (if f.rowstat then all o.sreg else []) ++ (if o.maskEn then all o.mreg else []))
    | none => []
  | .gatherIndex _ _ ld ir _ _ => [(4 * q + ld, ir)]
  | _ => []

/-- The registers that a TILECFG configures. -/
def cfgRegs (s : State) (q c : Nat) (w : BitVec 256) : List (Nat × Nat) :=
  match opOf w with
  | .tilecfg r g ld _ _ _ => (addressed s (if c < 16 then ctxDeck q c else 4 * q + ld) g).map (fun m => (m, r))
  | _ => []

/-- The registers by which the issue of a command is held back behind a stalled TILECFG (R146): a TILECFG names those that it configures. -/
def issueRegs (s : State) (q c b : Nat) (w : BitVec 256) : List (Nat × Nat) := namedRegs s q c b w ++ cfgRegs s q c w

/-- Whether a TILECFG stands stalled at a queue head of another context for one of these registers (R146). -/
def cfgBlocks (s : State) (q c : Nat) (regs : List (Nat × Nat)) : Option Nat :=
  let hits := (List.range 72).filterMap (fun n =>
    let x := ctxOf s (n / 18) (n % 18)
    if n / 18 = q ∧ n % 18 = c then none
    else
      match x.queue with
      | m :: _ =>
        if opcodeOf m.word = 0x01 && m.waitDone then
          match (cfgRegs s (n / 18) (n % 18) m.word).find? (fun r => regs.contains r) with
          | some r => some r.2
          | none => none
        else none
      | [] => none)
  hits.head?

/-- The detail of a TILE_CFG or TILE_SHAPE record (R281). -/
def shapeDetail (c : Nat) (m : QCmd) (deck : Option Nat) : Nat :=
  c + opcodeOf m.word * 2 ^ 8 + m.slot * 2 ^ 16 +
    (match deck with
     | some d => d * 2 ^ 32
     | none => 2 ^ 36)

/-- A TILE_CFG (0x08) or TILE_SHAPE (0x09): at the deck in which the check failed, or at the quay (R281). -/
def raiseShape (s : State) (code q c b : Nat) (m : QCmd) (deck : Option Nat) : State :=
  match deck with
  | some d => raiseBerth s 1 d code b (shapeDetail c m deck)
  | none => raiseBerth s 2 q code b (shapeDetail c m deck)

end Sys2Proof.Machine
end

