-- ==== Sys2Proof/Machine/Flags.lean ====
section
/-! DEFINITION. Flags and waits (R260-R266, R271), the heads of the queues, and the occupation of command-memory halves
(R248-R256). -/

namespace Sys2Proof.Machine

/-! ### Flags -/

/-- The flag that a field of the WFLAG encoding names for a berth in a quay, none for an index outside the berth's ranges and
for 0xFFF (R260). -/
def flagKey (s : State) (b q field : Nat) : Option FlagKey :=
  let g := (berthOf s b).cfg
  if field = 0xFFF then none
  else if bit field 11 then
    (if bits field 10 0 < g.cfCount then some (.chip (g.cfBase + bits field 10 0)) else none)
  else
    let r := nth (0, 0) g.qf q
    if bits field 10 0 < r.2 then some (.quay q (r.1 + bits field 10 0)) else none

/-- Whether a field names a flag of the berth, or none (R260, R269). -/
def flagFieldOk (s : State) (b q field : Nat) : Bool := field == 0xFFF || (flagKey s b q field).isSome

/-- The value of a flag (R271). -/
def flagVal (s : State) : FlagKey → Nat
  | .quay q f => (tget 0 s.qflags (q * 1024 + f)).toNat
  | .chip f => (tget 0 s.cflags f).toNat

/-- A flag set to a value. -/
def flagPut (s : State) (k : FlagKey) (v : Nat) : State :=
  match k with
  | .quay q f => { s with qflags := tput s.qflags (q * 1024 + f) (BitVec.ofNat 16 v) }
  | .chip f => { s with cflags := tput s.cflags f (BitVec.ofNat 16 v) }

/-- A command at the head of the queue of context `c` of quay `q` whose wait has succeeded. A TILECFG or STREAM begins the stall that R148 and R155
time; a PASS reads its mask register and its skip map (R201, R297). -/
def waitedCmd (s : State) (q c : Nat) (m : QCmd) : QCmd :=
  let m1 := { m with begun := true, waitDone := true,
                     stall := if opcodeOf m.word = 0x01 ∨ opcodeOf m.word = 0x04 then some (timerStart s) else none }
  match opOf m.word with
  | .pass o => { m1 with masked := passMasked s (ctxDeck q c) o, skips := passSkips s (ctxDeck q c) o }
  | _ => m1

/-- The wait of the command at the head of a queue, or of the command held in the context, has succeeded. -/
def waitSucceeds (s : State) (q c : Nat) (atHead : Bool) : State :=
  let x := ctxOf s q c
  if atHead then
    match x.queue with
    | m :: r => setCtx s q c { x with queue := waitedCmd s q c m :: r }
    | [] => s
  else
    match x.held with
    | some m => setCtx s q c { x with held := some { m with begun := true, waitDone := true }, stall := .none }
    | none => s

/-- Test the waits of a list in the order in which they began (R262): each that the flag's value satisfies consumes its count
and succeeds; the others stay. -/
def testList (s : State) (k : FlagKey) : List Wait → State × List Wait
  | [] => (s, [])
  | w :: r =>
    if w.flag = k ∧ w.val ≤ flagVal s k then
      testList (waitSucceeds (flagPut s k (flagVal s k - w.val)) w.q w.c w.atHead) k r
    else
      let p := testList s k r
      (p.1, w :: p.2)

/-- Test the waits on a flag after a change of it (R262). -/
def testWaits (s : State) (k : FlagKey) : State :=
  let p := testList s k s.waits
  { p.1 with waits := p.2 }

/-- Add to a flag for a context; a sum above 65,535 leaves 65,535 and raises FLAG_OVF (R263). Waits are tested after it. -/
def flagAdd (s : State) (q c b field n : Nat) : State :=
  match flagKey s b q field with
  | some k =>
    let v := flagVal s k + n
    let s1 := if v > 65535 then raiseBerth s 2 q 0x23 b (c + field * 65536) else s
    testWaits (flagPut s1 k (min v 65535)) k
  | none => s

/-- Set a flag for a context (R284). -/
def flagSet (s : State) (q b field n : Nat) : State :=
  match flagKey s b q field with
  | some k => testWaits (flagPut s k (n % 65536)) k
  | none => s

/-- The SFLAG of a command increments: its effects are complete (R263). -/
def sflagUp (s : State) (q c b : Nat) (w : BitVec 256) : State := flagAdd s q c b (headOf w).sflag 1

/-- A wait begins (R261): with no flag or WVAL = 0 it succeeds at once; with enough in the flag it succeeds and consumes;
otherwise it joins the waits and its timer starts (R265). -/
def waitBegin (s : State) (q c b : Nat) (atHead : Bool) (w : BitVec 256) : State :=
  let h := headOf w
  match flagKey s b q h.wflag with
  | none => waitSucceeds s q c atHead
  | some k =>
    if h.wval = 0 then waitSucceeds s q c atHead
    else if h.wval ≤ flagVal s k then testWaits (waitSucceeds (flagPut s k (flagVal s k - h.wval)) q c atHead) k
    else
      { s with waits := s.waits ++
          [{ q := q, c := c, atHead := atHead, flag := k, val := h.wval, wflag := h.wflag, timer := timerStart s }] }

/-- The command that has become the head of a queue begins its wait (R244). -/
def headBegin (s : State) (q c : Nat) : State :=
  let x := ctxOf s q c
  match x.queue, x.berth with
  | m :: r, some b =>
    if m.begun then s
    else waitBegin (setCtx s q c { x with queue := { m with begun := true } :: r }) q c b true m.word
  | _, _ => s

/-- The head of a queue leaves it, and the next command begins its wait (R243, R244). -/
def popHead (s : State) (q c : Nat) : State :=
  let x := ctxOf s q c
  headBegin (setCtx s q c { x with queue := x.queue.drop 1 }) q c

/-- The command at the head of the queue of a context whose task runs, once its wait has succeeded (R244). -/
def headReady (s : State) (q c : Nat) : Option (Nat × QCmd) :=
  let x := ctxOf s q c
  match x.berth, x.queue with
  | some b, m :: _ =>
    if taskRuns s b && m.waitDone && (x.mode == .running || x.mode == .endQueued) then some (b, m) else none
  | _, _ => none

/-- The head of a queue where it has the given opcode. -/
def headOp (s : State) (q c op : Nat) : Option (Nat × QCmd) :=
  match headReady s q c with
  | some p => if opcodeOf p.2.word = op then some p else none
  | none => none

/-- Whether commands that the queue has started have not completed (R169, R245). -/
def queueBusy (s : State) (q c : Nat) : Bool := s.runs.any (fun r => r.q == q && r.c == c)

/-! ### Tile-register in-use counts (R145) -/

/-- Change the in-use count of one tile register. -/
def inuseStep (up : Bool) (s : State) (u : Nat × Nat) : State :=
  let d := deckOf s u.1
  let t := tget {} d.tiles u.2
  setDeck s u.1 { d with tiles := tput d.tiles u.2 { t with inuse := if up then t.inuse + 1 else t.inuse - 1 } }

/-- The counts of the registers a command names rise at its issue. (DEDUCED, log entry 16.) -/
def inuseUp (s : State) (uses : List (Nat × Nat)) : State := uses.foldl (inuseStep true) s

/-- The counts fall when the command has finished with the registers, or is flushed. (DEDUCED, log entry 16.) -/
def inuseDown (s : State) (uses : List (Nat × Nat)) : State := uses.foldl (inuseStep false) s

/-! ### Halves of command memory (R248-R256) -/

/-- The key of half `h` of berth `b` in quay `q`. -/
def halfKey (q b h : Nat) : Nat := q * 32 + b * 2 + h

/-- Half `h` of berth `b` in quay `q`. -/
def halfOf (s : State) (q b h : Nat) : Half := tget {} s.halves (halfKey q b h)

/-- Half `h` of berth `b` in quay `q` replaced. -/
def setHalf (s : State) (q b h : Nat) (x : Half) : State := { s with halves := tput s.halves (halfKey q b h) x }

/-- Whether a half is busy: a context of the berth occupies it (R249). -/
def halfBusy (s : State) (q b h : Nat) : Bool :=
  (List.range 18).any (fun c => (ctxOf s q c).berth == some b && (ctxOf s q c).occ == some h)

/-- A HALF_WRITABLE record (R255, R499). -/
def halfRecord (s : State) (q b h : Nat) : State :=
  emit s (ringOf s b)
    { type := 3, berth := b, hseq := none, task := (berthOf s b).cur.getD 0, tide := s.time.tide,
      body := natLe 1 q ++ natLe 1 h }

/-- Context `c` now occupies `occ`. A half that it leaves and that no context of the berth occupies any more turns unarmed and
writable, and a record says so (R253-R255). -/
def occupy (s : State) (q c b : Nat) (occ : Option Nat) : State :=
  let x := ctxOf s q c
  if x.occ = occ then s
  else
    match x.occ with
    | none => setCtx s q c { x with occ := occ }
    | some h =>
      let g := (halfOf s q b h).gen
      let x1 := { x with occ := occ, left0 := if h = 0 then g else x.left0, left1 := if h = 1 then g else x.left1 }
      let s1 := setCtx s q c x1
      if halfBusy s1 q b h then s1
      else halfRecord (setHalf s1 q b h { halfOf s1 q b h with armed := false }) q b h

/-- Whether context `c` may enter half `h`: armed, and armed since the context last left it (R253). -/
def mayEnter (s : State) (q c b h : Nat) : Bool :=
  let x := ctxOf s q c
  let y := halfOf s q b h
  y.armed && decide ((if h = 0 then x.left0 else x.left1) < y.gen)

/-- The slot that follows a slot in a context's region (R248). -/
def nextSlot (x : Ctx) : Nat :=
  if x.pc % 8192 + 1 = x.start + x.len then (1 - x.pc / 8192) * 8192 + x.start else x.pc + 1

/-- The 256 bits in a command slot (R15, R246, R267). -/
def slotWord (s : State) (q slot : Nat) : BitVec 256 :=
  BitVec.ofNat 256 (leNat (s.cmdMem.readBytes (q * 0x80000 + slot * 32) 32))

/-! ### Timers of a berth (R272) -/

/-- Change the timers of every context of a berth, of its queue heads, and of its waits. -/
def mapTimers (s : State) (b : Nat) (f : Timer → Timer) : State :=
  let qs := s.quays.map (fun e => (e.1, { e.2 with ctxs := e.2.ctxs.map (fun p =>
    if p.2.berth = some b then
      (p.1, { p.2 with timer := f p.2.timer, queue := p.2.queue.map (fun m => { m with stall := m.stall.map f }) })
    else p) }))
  let s1 := { s with quays := qs }
  { s1 with
    waits := s.waits.map (fun w => if (ctxOf s w.q w.c).berth = some b then { w with timer := f w.timer } else w),
    runs := s.runs.map (fun r => if r.berth = b then { r with drainHeld := r.drainHeld.map f } else r) }

end Sys2Proof.Machine
end

