-- ==== Sys2Proof/Machine/TaskOps.lean ====
section
/-! DEFINITION. How a task ends: the one latch of its end, and what an end other than completion does to contexts, engines,
decks, flags, halves and save areas (R127, R128, R173, R211, R256, R273, R371, R458, R507, R509). -/

namespace Sys2Proof.Machine

/-- A number as a two's complement value for elapsed time of a task (R519): the time run so far. -/
def ranTotal (s : State) (b : Nat) : Nat :=
  let x := berthOf s b
  x.ranFor + (if x.st == .running || x.st == .suspending || x.st == .resuming || x.st == .disabling
    then s.time.mono - x.ranSince else 0)

/-- The flags of a range take undefined values (R273). -/
def undefineFlags (keys : List FlagKey) (s : State) : State :=
  keys.foldl (fun t k => let p := freshWord t; flagPut p.2 k (p.1.toNat % 65536)) s

/-- The flags of a berth. -/
def berthFlags (s : State) (b : Nat) : List FlagKey :=
  let g := (berthOf s b).cfg
  (List.range 4).flatMap (fun q => let r := nth (0, 0) g.qf q; (List.range r.2).map (fun i => .quay q (r.1 + i))) ++
  (List.range g.cfCount).map (fun i => .chip (g.cfBase + i))

/-- A context of a task that ends other than by completion: idle, its queue flushed, its program counter, counters and
comparators undefined (R273). -/
def stopCtx (s : State) (q c : Nat) : State :=
  let x := ctxOf s q c
  let uses := x.queue.flatMap (fun m => m.uses)
  let s1 := inuseDown s uses
  let p0 := freshWord s1
  let p1 := freshWord p0.2
  let p2 := freshWord p1.2
  let p3 := freshWord p2.2
  let p4 := freshWord p3.2
  let p5 := freshWord p4.2
  let w (v : DWord) : Word := BitVec.ofNat 32 v.toNat
  setCtx p5.2 q c
    { x with mode := .idle, stall := .none, pc := p0.1.toNat % 16384, cnt := [(0, w p1.1), (1, w p2.1), (2, w p3.1), (3, w p4.1)],
             cmp := (List.range 7).map (fun i => (i + 1, bit p5.1.toNat i)), queue := [], held := none, occ := none,
             left0 := if x.occ = some 0 then (halfOf s q (x.berth.getD 0) 0).gen else x.left0,
             left1 := if x.occ = some 1 then (halfOf s q (x.berth.getD 0) 1).gen else x.left1,
             timer := {}, named := false, endDone := false, endSeen := false }

/-- The contexts of a berth as numbers 18q + c. -/
def berthCtxs (s : State) (b : Nat) : List Nat :=
  (List.range 72).filter (fun n => (ctxOf s (n / 18) (n % 18)).berth == some b)

/-- Both halves of a berth in every quay turn free and unarmed; those that were not writable are to be reported (R255, R256). -/
def freeHalves (s : State) (b : Nat) : State :=
  let keys := (List.range 4).flatMap (fun q =>
    if (List.range 18).any (fun c => (ctxOf s q c).berth == some b && decide (0 < (ctxOf s q c).len))
    then [(q, 0), (q, 1)] else [])
  let changed := keys.filter (fun k => (halfOf s k.1 b k.2).armed || halfBusy s k.1 b k.2)
  let s1 := keys.foldl (fun t k => setHalf t k.1 b k.2 { halfOf t k.1 b k.2 with armed := false }) s
  setBerth s1 b { berthOf s1 b with freed := (berthOf s1 b).freed ++ changed }

/-- The ranges of a half that the columns [lo, hi) of a tile take: its elements row by row, and its scales (R140, R141). -/
def colRanges (t : TileReg) (lo hi : Nat) : List (Nat × Nat) :=
  let w := fmtWidth t.fmt
  (List.range (tileRows t)).map (fun i => (rowAddr t i + lo * w / 8, rowAddr t i + cdiv (hi * w) 8)) ++
  (if !t.mx then []
   else if blocksAlongRows t then (List.range (tileRows t)).map (fun i => (scaleAddr t i lo, scaleAddr t i lo + cdiv (hi - lo) 32))
   else (List.range (cdiv (tileRows t) 32)).map (fun k => (scaleAddr t (32 * k) lo, scaleAddr t (32 * k) lo + (hi - lo))))

/-- What a command was writing in a deck buffer becomes undefined; bytes that it does not write keep their values (R173, R202,
R211). -/
def undefineBuf (s : State) (x : BufDest) : State :=
  let g := freshGen s
  let m := (x.cols.flatMap (fun c => colRanges x.tile c.1 c.2)).foldl (fun m r => m.undefine r.1 r.2 g.1) (bufOf g.2 x.deck x.half)
  putBuf g.2 x.deck x.half (footLo x.tile) (footHi x.tile) m

/-- The size of a hold page and of a frame. -/
def pageSize : Nat := 2097152

/-- The frames of the page table (R217). -/
def tableFrames (g : BerthCfg) : Nat := cdiv (8 * g.holdPages) pageSize

/-- The address of the frame `f` that backs a page. -/
def frameAddr (g : BerthCfg) (f : Nat) : Nat := g.holdBase + (tableFrames g + f) * pageSize

/-- The rows that the threads of a run were writing (R371). -/
def threadRows (s : State) (r : Run) : List (Nat × Nat) :=
  (quayOf s r.q).threads.filterMap (fun e =>
    if e.2.run == r.id && e.2.phase == 2 && e.2.page.isNone
    then some (if opcodeOf r.cmd.word = 0x20 then e.2.cont else e.2.row, e.2.len) else none)

/-- The frames of the pages that a recall was bringing back (R371). -/
def recallFrames (s : State) (r : Run) : List (Nat × Nat) :=
  let x := berthOf s r.berth
  (x.hold.recalling.filter (fun e => r.gather.taken.contains e.1)).map (fun e => (frameAddr x.cfg e.2, pageSize))

/-- The HBM extents that a run was writing: those of its writes, and of its transactions in flight. (DEDUCED, log entry 42.) -/
def openWrites (s : State) (r : Run) : List (Nat × Nat) :=
  r.outs ++ threadRows s r ++ recallFrames s r ++
    (s.trk.filter (fun t => t.run == r.id && t.req.write)).map (fun t => (t.req.addr, t.req.len))

/-- The writes of a run in flight still enter their bank queues (R344), and leave undefined bytes. -/
def spoilFlight (s : State) (r : Run) : State :=
  setPieces s (s.fabric.pieces.map (fun x =>
    if x.write && s.trk.any (fun t => t.id == x.trk && t.run == r.id) then { x with spoil := (x.addr, x.len) :: x.spoil } else x))

/-- The HBM extents that an aborted collective command leaves undefined (R458): its result and staging bytes, its error memory, or
the words of a NORM. -/
def collExtents (s : State) (r : Run) : List (Nat × Nat) :=
  let g := (berthOf s r.berth).cfg
  match opOf r.cmd.word with
  | .reduce o =>
    let n := match g.groups[o.group]? with
      | some x => x.n
      | none => 1
    (o.addr, if o.kind = 2 then 4 * n * o.len else 4 * o.len) :: (if o.thin then [(o.eaddr * 64, 4 * o.len)] else [])
  | .norm _ _ n f _ => [(g.scalar + 4 * n, 4), (g.scalar + 4 * f, 4)]
  | _ => []

/-- A run that is flushed: its in-use counts fall, and the bytes it was writing become undefined (R145, R173, R211, R371, R458).
(DEDUCED, log entry 42.) -/
def flushRun (s : State) (r : Run) : State :=
  let s1 := inuseDown s r.cmd.uses
  let s2 := r.dests.foldl undefineBuf s1
  let s3 := (openWrites s r ++ collExtents s r).foldl (fun t e => hbmUndefine t e.1 e.2) s2
  dropRun (spoilFlight s3 r) r.id

/-- A deck that an aborted task used: slots undefined with tag none and SAT undefined (R127), descriptors disarmed and zero
records discarded (R173), norm and sounding accumulators undefined (R211). (DEDUCED, log entry 42.) -/
def ruinDeck (s : State) (d : Nat) : State :=
  let g := freshGen s
  let ps := (List.range 14).foldl (fun (a : List DWord × State) _ => let p := freshWord a.2; (a.1 ++ [p.1], p.2)) ([], g.2)
  let v (i : Nat) : Nat := (nth 0 ps.1 i).toNat
  let x := deckOf ps.2 d
  let snd : Sounding :=
    { amax := BitVec.ofNat 32 (v 5), count := v 6 % 2 ^ 32, nonzero := v 7 % 2 ^ 32, underflow := v 8 % 2 ^ 32,
      zeroblk := v 9 % 2 ^ 32, nonfinite := v 10 % 2 ^ 32, histE0 := signed 8 (v 11),
      bins := (List.range 16).map (fun i => (i, (v 12 + v 13 * i) % 2 ^ 32)) }
  setDeck ps.2 d
    { x with acc := x.acc.undefine 0 0x100000 g.1, tags := [], sat := BitVec.ofNat 16 (v 0), descs := [], zrecs := [],
             nacc := [(0, nth 0 ps.1 1), (1, nth 0 ps.1 2), (2, nth 0 ps.1 3), (3, nth 0 ps.1 4)], snd := snd }

/-- The save area of a deck becomes undefined (R128, R513). -/
def ruinSave (s : State) (d : Nat) : State :=
  match (deckOf s d).saveBase with
  | some a => hbmUndefine s a 0x101000
  | none => s

/-- What an end other than completion does (R127, R128, R173, R211, R256, R273, R371, R458, R513): contexts, waits, runs, decks,
flags, halves and, during a pre-emption or before a resumption is complete, save areas. Passes that are suspended and have not been re-entered still
keep their registers in use until now (R145). That an end while the task is resuming leaves its save areas undefined too is the model's
choice (log entry 42). (DEDUCED, log entry 42.) -/
def stopTask (s : State) (b : Nat) : State :=
  let x := berthOf s b
  let s0 := freeHalves s b
  let s1 := ((berthCtxs s0 b).filter (fun n => (ctxOf s0 (n / 18) (n % 18)).named)).foldl (fun t n => stopCtx t (n / 18) (n % 18)) s0
  let s1a := if x.st == .suspending then s1 else x.suspended.foldl (fun t e => inuseDown t e.cmd.uses) s1
  let s2 := { s1a with waits := s1a.waits.filter (fun w => (ctxOf s1a w.q w.c).berth != some b) }
  let s3 := (s2.runs.filter (fun r => r.berth == b)).foldl flushRun s2
  let s4 := (usedDecks s3 b).foldl ruinDeck s3
  let s5 := { s4 with
    quays := s4.quays.map (fun e => (e.1, { e.2 with threads := e.2.threads.filter (fun t => (runOf s4 t.2.run).isSome) })),
    ports := s4.ports.map (fun e => (e.1, { e.2 with
      segs := e.2.segs.filter (fun g => (connOf s4 g.conn).berth != b),
      adding := e.2.adding.filter (fun g => (connOf s4 g.conn).berth != b) })) }
  let s6 := if x.st == .suspending || x.st == .suspended || x.st == .resuming
    then (usedDecks s5 b).foldl ruinSave s5 else s5
  undefineFlags (berthFlags s6 b) (setBerth s6 b
    { berthOf s6 b with suspended := [], hold := { (berthOf s6 b).hold with recalling := [] } })

/-- A task ends, once, by an event latched in its home quay (R507): the event's status and cause are kept for the COMPLETION,
with the time run; completion stops nothing, every other end stops the task. `after` is the state that the berth takes once
the COMPLETION is written (R509). (DEDUCED, log entry 42.) -/
def latchEnd (s : State) (b : Nat) (info : EndInfo) (after : BerthState) : State :=
  if taskLive s b then
    let x := berthOf s b
    let susp := x.suspFor + (if x.st == .suspended then s.time.mono - x.suspSince else 0)
    let e : EndInfo := { info with tide := s.time.tide, at_ := s.time.mono, elapsed := ranTotal s b }
    let s1 := if info.status = 0 then s else stopTask s b
    setBerth s1 b { berthOf s1 b with ended := some e, suspFor := susp, afterEnd := after }
  else s

/-- A deck of a berth, or the berth itself, goes to HALT (R99, R489): its task ends with CAUSE 4, and the berth is halted once the
task's COMPLETION is written, or at once without a task. A task that has ended keeps its end. -/
def haltBerth (s : State) (b : Nat) : State :=
  if !berthDefined s b || (berthOf s b).st == .disabled then s
  else
    let s1 := latchEnd s b { status := 1, cause := 4 } .halted
    let x := berthOf s1 b
    if x.st == .disabling then s1
    else if x.cur.isSome then setBerth s1 b { x with afterEnd := .halted }
    else setBerth s1 b { x with st := .halted }

end Sys2Proof.Machine
end

