-- ==== Sys2Proof/Machine/Command.lean ====
section
/-! DEFINITION. The control core: fetching, skipping, queueing and the commands that execute in a context or are queue control
(R238-R266, R274-R286). -/

namespace Sys2Proof.Machine

/-! ### Fetch checks (R269) -/

/-- The lowest detail number of the CMD_ILLEGAL checks that a command fails. -/
def illegal (s : State) (q c b : Nat) (w : BitVec 256) : Option Nat :=
  let op := opcodeOf w
  let h := headOf w
  if !opKnown op then some 1
  else if !accepts c op then some 2
  else if bits w.toNat 211 208 != 0 then some 3
  else if !(flagFieldOk s b q h.wflag && flagFieldOk s b q h.sflag) then some 4
  else if !(reservedZero w &&
      operandsOk (flagFieldOk s b q) (fun n => (connOf s n).valid && n != 0 && (connOf s n).berth == b) (opOf w)) then some 5
  else none

/-- Whether a predicate lets a command execute (R257). -/
def predTrue (x : Ctx) (p : Nat) : Bool :=
  if p = 0 then true
  else if p = 8 then false
  else if p < 8 then tget false x.cmp p
  else !tget false x.cmp (p - 8)

/-! ### Commands executed in the context (R259, R282, R283) -/

/-- A condition of CCMP (R259). -/
def condTrue (cond : Nat) (a v : Word) : Bool :=
  match cond with
  | 0 => a == v
  | 1 => a != v
  | 2 => decide (a.toNat < v.toNat)
  | 3 => decide (v.toNat ≤ a.toNat)
  | 4 => decide (a.toInt < v.toInt)
  | _ => decide (v.toInt ≤ a.toInt)

/-- The value that a CCMP compares against (R259, R283). -/
def cmpValue (s : State) (q b : Nat) (x : Ctx) (src cntj fref imm : Nat) : Word :=
  if src = 1 then tget 0 x.cnt cntj
  else if src = 2 then
    match flagKey s b q fref with
    | some k => BitVec.ofNat 32 (flagVal s k)
    | none => 0
  else BitVec.ofNat 32 imm

/-- The effect of a command on its context's counters and comparators (R259). -/
def ctxEffect (s : State) (q b : Nat) (x : Ctx) (o : FOp) : Ctx :=
  match o with
  | .cinit c v => { x with cnt := tput x.cnt c (BitVec.ofNat 32 v) }
  | .cadd c v => { x with cnt := tput x.cnt c (tget 0 x.cnt c + BitVec.ofNat 32 v) }
  | .ccmp i n co sr j f v => { x with cmp := tput x.cmp n (condTrue co (tget 0 x.cnt i) (cmpValue s q b x sr j f v)) }
  | _ => x

/-- A command executes in its context, and its SFLAG increments (R263). (DEDUCED, log entry 12.) -/
def runInCtx (s : State) (q c b : Nat) (w : BitVec 256) : State :=
  let x := ctxOf s q c
  sflagUp (setCtx s q c { ctxEffect s q b x (opOf w) with held := none, stall := .none }) q c b w

/-- A command held in its context whose wait has succeeded at once executes in its issue cycle. -/
def runReady (s : State) (q c b : Nat) : State :=
  match (ctxOf s q c).held with
  | some m => if m.waitDone then runInCtx s q c b m.word else s
  | none => s

/-! ### Pushing (R243, R145, R146, R279) -/

/-- Whether a TILECFG or STREAM that the context pushed has not applied yet (R279). -/
def applyPending (x : Ctx) : Bool :=
  x.queue.any (fun m => opcodeOf m.word == 0x01 || opcodeOf m.word == 0x04)

/-- The extent of a DRAIN's logical tile (R197). -/
def drainExtent (s : State) (d : Nat) (o : DrainOps) : Extent :=
  if deckQuad s d then ⟨128, 128 * ((List.range 4).filter (bit o.quads)).length, 1, 1⟩
  else ⟨128 * gangM s d, 512 * gangN s d, gangM s d, gangN s d⟩

/-- A DRAIN whose format comes from the layer format table takes its cursors at issue; how far its scale cursor advances is known when it has read
the table. (DEDUCED, log entry 15.) -/
def takeElement (s : State) (d n : Nat) : State × Option (Nat × Nat × Nat) :=
  match descOf s d n with
  | some ds =>
    let x := deckOf s d
    (setDeck s d { x with descs := tput x.descs n { ds with cur := moveAddr ds.cur ds.advance } }, some (ds.cur, ds.scur, ds.zcur))
  | none => (s, none)

/-- A command's transfer cursors are taken at its issue (R156). (DEDUCED, log entry 15.) -/
def takeAtIssue (s : State) (q c b : Nat) (w : BitVec 256) : State × Option (Nat × Nat × Nat) :=
  let d := ctxDeck q c
  match opOf w with
  | .load n r g _ _ => takeCursors s d n (tileOf s d r) (extentOf s d (tileOf s d r) g false) true
  | .store n r g _ _ => takeCursors s d n (tileOf s d r) (extentOf s d (tileOf s d r) g true) false
  | .drain o =>
    match fnOf s b o.fn with
    | some f =>
      if o.dest != 1 then (s, none)
      else if f.fmtSrc then takeElement s d o.desc
      else takeCursors s d o.desc { role := .output } (drainExtent s d o) false
    | none => (s, none)
  | _ => (s, none)

/-- The stall that refuses the issue of a command, if any: a full queue, a stalled TILECFG of another context, a full in-use
count (R243, R145, R146). -/
def pushStall (s : State) (q c b : Nat) (w : BitVec 256) : Option Stall :=
  let regs := namedRegs s q c b w
  if 64 ≤ (ctxOf s q c).queue.length then some .queueFull
  else
    match cfgBlocks s q c (issueRegs s q c b w) with
    | some r => some (.tile r)
    | none =>
      match regs.find? (fun r => decide (255 ≤ (tileOf s r.1 r.2).inuse)) with
      | some r => some (.inuse r.2)
      | none => none

/-- A command is pushed: a copy joins the queue, the counts of its registers rise, and at the head of the queue its wait begins.
After END the context fetches nothing (R243-R245). -/
def pushCmd (s : State) (q c b : Nat) (w : BitVec 256) (slot : Nat) : State :=
  let uses := namedRegs s q c b w
  let n := freshId s
  let p := takeAtIssue (inuseUp n.2 uses) q c b w
  let x := ctxOf p.1 q c
  headBegin (setCtx p.1 q c
    { x with queue := x.queue ++ [{ word := w, slot := slot, uses := uses, curs := p.2, seq := n.1 }], held := none, stall := .none,
             timer := {}, mode := if opcodeOf w = 0x3F then .endQueued else x.mode }) q c

/-- Whether two stalls are of one kind: a command refused by another full count is still refused (R265). -/
def sameStall : Stall → Stall → Bool
  | .inuse _, .inuse _ => true
  | .tile _, .tile _ => true
  | a, b => a == b

/-- A command is pushed, or stalls its context: the stall of a full in-use count is timed from the moment the issue is refused
(R265). (DEDUCED, log entry 12.) -/
def issueCmd (s : State) (q c b : Nat) (m : QCmd) : State :=
  match pushStall s q c b m.word with
  | none => pushCmd s q c b m.word m.slot
  | some st =>
    let x := ctxOf s q c
    setCtx s q c { x with held := some m, stall := st, timer := if sameStall x.stall st then x.timer else timerStart s }

/-! ### Fetching (R242, R248, R253-R258) -/

/-- A fetched command: checked, skipped, executed in its context, held there by its wait, or issued. -/
def dispatchCmd (s : State) (q c b : Nat) (w : BitVec 256) (slot : Nat) : State :=
  match illegal s q c b w with
  | some n => raiseBerth s 2 q 0x21 b n
  | none =>
    if !predTrue (ctxOf s q c) (headOf w).pred then s
    else
      let m : QCmd := { word := w, slot := slot }
      if inContext (opcodeOf w) then
        let s1 := waitBegin (setCtx s q c { ctxOf s q c with held := some m, stall := .flagWait }) q c b false w
        runReady s1 q c b
      else issueCmd s q c b m

/-- The fetch of the next slot: the context occupies its half, the program counter moves on (R248, R254), the slot's error code
is looked at (R545), and the command is dispatched unless it is uncorrectable. (DEDUCED, log entries 27, 66.) -/
def fetchCmd (s : State) (q c b : Nat) (ecc : Ecc) : State :=
  let x := ctxOf s q c
  let slot := x.pc
  let s1 := occupy s q c b (some (slot / 8192))
  let y := ctxOf s1 q c
  let s2 := setCtx s1 q c { y with pc := nextSlot y, stall := .none, timer := {} }
  match ecc with
  | .uncorrectable _ => raiseBerth s2 2 q 0x25 b slot
  | .corrected _ => dispatchCmd (raiseBerth s2 2 q 0x24 b slot) q c b (slotWord s2 q slot) slot
  | .ok => dispatchCmd s2 q c b (slotWord s2 q slot) slot

/-- Whether a context is ready (R242): it runs, and its next command can be executed or pushed. (DEDUCED, log entry 12.) -/
def ctxReady (s : State) (q c : Nat) : Bool :=
  let x := ctxOf s q c
  match x.berth with
  | none => false
  | some b =>
    taskRuns s b && x.mode == .running && x.named &&
    (match x.held with
     | some m => if inContext (opcodeOf m.word) then m.waitDone else (pushStall s q c b m.word).isNone
     | none => !applyPending x && x.stall != .fetchWait && (x.occ == some (x.pc / 8192) || mayEnter s q c b (x.pc / 8192)))

/-- Whether it is a context's turn: it is the first ready one in the control core's round-robin order (R242). -/
def ctxTurn (s : State) (q c : Nat) : Bool :=
  ((List.range 18).map (fun i => ((quayOf s q).nextCtx + i) % 18)).find? (ctxReady s q) == some c

/-- A context has taken its issue cycle (R242, R278): the control core comes to the context after it. -/
def passTurn (s : State) (q c : Nat) : State := setQuay s q { quayOf s q with nextCtx := (c + 1) % 18 }

/-- A ready context fetches and issues its next command, or issues the one it holds. -/
def issueNext (s : State) (q c b : Nat) (ecc : Ecc) : State :=
  match (ctxOf s q c).held with
  | some m => if inContext (opcodeOf m.word) then runInCtx s q c b m.word else issueCmd s q c b m
  | none => fetchCmd s q c b ecc

/-- CMD_FETCH_ISSUE (R242): the context whose turn it is takes its issue cycle; a context that may not enter the half it has come to begins its fetch
wait (R253); a context that is stalled, or whose turn it is not, does nothing. (DEDUCED, log entry 12.) -/
def cmdFetchIssue (s : State) (q c : Nat) (ecc : Ecc) : State :=
  let x := ctxOf s q c
  match x.berth with
  | none => s
  | some b =>
    if !(taskRuns s b && x.mode == .running && x.named) then s
    else if ctxTurn s q c then issueNext (passTurn s q c) q c b ecc
    else if x.held.isNone && !applyPending x && x.stall != .fetchWait && !ctxReady s q c
      then setCtx s q c { x with stall := .fetchWait, timer := timerStart s }
    else
      match x.held with
      | some m => if inContext (opcodeOf m.word) || (pushStall s q c b m.word).isNone then s else issueCmd s q c b m
      | none => s

/-- CMD_FETCH_ISSUE. -/
def execCmdFetchIssue (q : Fin 4) (c : Fin 18) (ecc : Ecc) (s : State) : Answer := .next (cmdFetchIssue s q c ecc)

/-- FETCH_WAIT_ENTER (R253): the fetch wait ends once the half is armed; the context's next fetch enters the half.
(DEDUCED, log entry 12.) -/
def fetchWaitEnter (s : State) (q c : Nat) : State :=
  let x := ctxOf s q c
  match x.berth with
  | none => s
  | some b =>
    if taskRuns s b && x.stall == .fetchWait && mayEnter s q c b (x.pc / 8192) then
      setCtx s q c { x with stall := .none, timer := {} }
    else s

/-- FETCH_WAIT_ENTER. -/
def execFetchWaitEnter (q : Fin 4) (c : Fin 18) (s : State) : Answer := .next (fetchWaitEnter s q c)

/-- A command held in its context by its wait, and of the given opcode, executes once the wait has succeeded and its turn has come (R242).
(DEDUCED, log entry 12.) -/
def runHeld (s : State) (q c op : Nat) : State :=
  let x := ctxOf s q c
  match x.berth, x.held with
  | some b, some m =>
    if opcodeOf m.word == op && inContext op && ctxTurn s q c then runInCtx (passTurn s q c) q c b m.word else s
  | _, _ => s

/-- NOP held by its wait executes once the wait has succeeded (R282). -/
def execNop (q : Fin 4) (c : Fin 18) (s : State) : Answer := .next (runHeld s q c 0x00)

/-- CINIT held by its wait sets its counter once the wait has succeeded (R259). -/
def execCinit (q : Fin 4) (c : Fin 18) (s : State) : Answer := .next (runHeld s q c 0x09)

/-- CADD held by its wait adds to its counter once the wait has succeeded (R259). -/
def execCadd (q : Fin 4) (c : Fin 18) (s : State) : Answer := .next (runHeld s q c 0x0A)

/-- CCMP held by its wait sets its comparator once the wait has succeeded (R259, R283). -/
def execCcmp (q : Fin 4) (c : Fin 18) (s : State) : Answer := .next (runHeld s q c 0x0B)

/-! ### Queue control (R169, R245, R284-R286) -/

/-- FLAGSET at the head (R284): the target changes and the waits on it are tested; then it leaves the queue and its SFLAG increments. -/
def flagsetAt (s : State) (q c b : Nat) (m : QCmd) : State :=
  let s1 :=
    match opOf m.word with
    | .flagset t set v => if set then flagSet s q b t v else flagAdd s q c b t v
    | _ => s
  sflagUp (popHead s1 q c) q c b m.word

/-- FLAGSET. -/
def execFlagset (q : Fin 4) (c : Fin 18) (s : State) : Answer :=
  .next (match headOp s q c 0x08 with
    | some p => flagsetAt s q c p.1 p.2
    | none => s)

/-- SETTLE (R169): once no earlier command of its engine is in progress. -/
def execSettle (q : Fin 4) (c : Fin 18) (s : State) : Answer :=
  .next (match headOp s q c 0x06 with
    | some p => if queueBusy s q c then s else sflagUp (popHead s q c) q c p.1 p.2.word
    | none => s)

/-- WAITT (R286): once tide time is at least TIDE. -/
def execWaitt (q : Fin 4) (c : Fin 18) (s : State) : Answer :=
  .next (match headOp s q c 0x2B with
    | some p =>
      match opOf p.2.word with
      | .waitt t => if t ≤ s.time.tide then sflagUp (popHead s q c) q c p.1 p.2.word else s
      | _ => s
    | none => s)

/-- END executes (R245): the context stops, occupies no half, and its SFLAG increments. -/
def endAt (s : State) (q c b : Nat) (m : QCmd) : State :=
  let s1 := popHead s q c
  let s2 := setCtx s1 q c { ctxOf s1 q c with mode := .idle, endDone := true }
  occupy (sflagUp s2 q c b m.word) q c b none

/-- END: once every earlier command of its queue has completed. -/
def execEndCmd (q : Fin 4) (c : Fin 18) (s : State) : Answer :=
  .next (match headOp s q c 0x3F with
    | some p => if queueBusy s q c then s else endAt s q c p.1 p.2
    | none => s)

/-- Whether the home quay has seen END from every named context of a berth (R245, R508). -/
def allEnded (s : State) (b : Nat) : Bool :=
  (berthCtxs s b).all (fun n => let x := ctxOf s (n / 18) (n % 18); !x.named || x.endSeen)

/-- An END reaches the home quay (R508). The task completes when every named context has ended (R507). -/
def endNotify (s : State) (q c : Nat) : State :=
  let x := ctxOf s q c
  match x.berth with
  | none => s
  | some b =>
    if taskLive s b && x.endDone && !x.endSeen then
      let s1 := setCtx s q c { x with endSeen := true }
      if allEnded s1 b then latchEnd s1 b { status := 0, cause := 0 } .idle else s1
    else s

/-- END_NOTIFY_HOME. -/
def execEndNotifyHome (q : Fin 4) (c : Fin 18) (s : State) : Answer := .next (endNotify s q c)

/-! ### Wait timeouts (R265, R266) -/

/-- The wait timeout of a context in nanoseconds (R270). -/
def waitTmoNs (s : State) (q c : Nat) : Nat := regBits s (qyBase q + 0x400 + 0x40 * c + 8) 23 0 * 1000

/-- Whether a timer that counts has reached the context's timeout. -/
def tmoHit (s : State) (q c : Nat) (t : Timer) : Bool := t.since.isSome && decide (waitTmoNs s q c ≤ timerNow s t)

/-- WAIT_TMO is raised by the quay with its detail (R266). -/
def raiseWaitTmo (s : State) (q c b kind field value : Nat) : State :=
  raiseBerth s 2 q 0x20 b (c + kind * 2 ^ 8 + field * 2 ^ 16 + value * 2 ^ 32)

/-- Whether a flag wait of a context has lasted up to the timeout. -/
def waitExpired (s : State) (q c : Nat) (w : Wait) : Bool := w.q == q && w.c == c && tmoHit s q c w.timer

/-- An expired flag wait: raised with the flag's value, its timer restarted, the wait kept. -/
def tmoFlag (s : State) (q c b : Nat) : State :=
  match s.waits.find? (waitExpired s q c) with
  | some w =>
    let s1 := raiseWaitTmo s q c b 0 w.wflag (flagVal s w.flag)
    { s1 with waits := s1.waits.map (fun v => if v = w then { v with timer := timerStart s } else v) }
  | none => s

/-- Whether a TILECFG waits for in-use counts (R146). -/
def cfgWaits (s : State) (q c : Nat) (w : BitVec 256) : Bool :=
  (cfgRegs s q c w).any (fun r => (tileOf s r.1 r.2).inuse != 0)

/-- Whether a command is a LOAD or STORE of a deck that names a descriptor. -/
def namesDesc (d n : Nat) (q c : Nat) (w : BitVec 256) : Bool :=
  c < 16 && ctxDeck q c == d &&
  (match opOf w with
   | .load k _ _ _ _ => k == n
   | .store k _ _ _ _ => k == n
   | _ => false)

/-- Whether a LOAD or STORE of a deck that was issued before number `seq` has not finished with a descriptor (R155). -/
def descBusy (s : State) (d n seq : Nat) : Bool :=
  s.runs.any (fun r => namesDesc d n r.q r.c r.cmd.word && decide (r.cmd.seq < seq)) ||
  (List.range 4).any (fun x =>
    let c := d % 4 * 4 + x
    (ctxOf s (d / 4) c).queue.any (fun m => namesDesc d n (d / 4) c m.word && decide (m.seq < seq)))

/-- The head of a queue with its own stall timer restarted. -/
def restartHead (s : State) (q c : Nat) : State :=
  let x := ctxOf s q c
  setCtx s q c { x with queue := match x.queue with
    | m :: r => { m with stall := some (timerStart s) } :: r
    | [] => [] }

/-- An expired stall of a TILECFG (kind 1) or STREAM (kind 2) at its queue head (R148, R155). -/
def tmoHead (s : State) (q c b kind : Nat) : State :=
  match (ctxOf s q c).queue with
  | m :: _ =>
    match m.stall, opOf m.word with
    | some t, .tilecfg r _ _ _ _ _ =>
      if kind = 1 && tmoHit s q c t && cfgWaits s q c m.word then restartHead (raiseWaitTmo s q c b 1 r 0) q c else s
    | some t, .stream o =>
      if kind = 2 && tmoHit s q c t && descBusy s (ctxDeck q c) o.desc m.seq
      then restartHead (raiseWaitTmo s q c b 2 o.desc 0) q c else s
    | _, _ => s
  | [] => s

/-- An expired fetch wait (kind 3) or in-use stall (kind 4) of a context. -/
def tmoCtx (s : State) (q c b kind : Nat) : State :=
  let x := ctxOf s q c
  let is := match x.stall with
    | .fetchWait => kind == 3
    | .inuse _ => kind == 4
    | _ => false
  if is && tmoHit s q c x.timer then
    setCtx (raiseWaitTmo s q c b kind 0xFFF 0) q c { x with timer := timerStart s }
  else s

/-- Whether a command of a context is a DRAIN whose rows have waited for a REDUCE on their stream up to the timeout. -/
def drainExpired (s : State) (q c : Nat) (r : Run) : Bool :=
  r.q == q && r.c == c && (match r.drainHeld with
    | some t => tmoHit s q c t
    | none => false)

/-- An expired wait of a DRAIN's rows for a REDUCE on their stream (kind 5, R305). -/
def tmoDrain (s : State) (q c b : Nat) : State :=
  match s.runs.find? (drainExpired s q c) with
  | some r =>
    match opOf r.cmd.word with
    | .drain o => setRun (raiseWaitTmo s q c b 5 o.rstream 0) { r with drainHeld := some (timerStart s) }
    | _ => s
  | none => s

/-- A timed wait of a context expires (R266): WAIT_TMO is raised, the timer starts again, and the wait goes on. -/
def waitTmo (s : State) (q c kind : Nat) : State :=
  match (ctxOf s q c).berth with
  | none => s
  | some b =>
    if !taskMoves s b then s
    else
      match kind with
      | 0 => tmoFlag s q c b
      | 1 => tmoHead s q c b 1
      | 2 => tmoHead s q c b 2
      | 3 => tmoCtx s q c b 3
      | 4 => tmoCtx s q c b 4
      | _ => tmoDrain s q c b

/-- WAIT_TMO. -/
def execWaitTmo (q : Fin 4) (c : Fin 18) (kind : Fin 6) (s : State) : Answer := .next (waitTmo s q c kind)

end Sys2Proof.Machine
end

