-- ==== Sys2Proof/Machine/HoldOps.lean ====
section
/-! DEFINITION. The hold: page states, admission, the overflow policies, and where a hold transfer lies (R217-R231, R370). -/

namespace Sys2Proof.Machine

/-- The state of a hold page. -/
def pageState (s : State) (b p : Nat) : PageState := tget .free (berthOf s b).hold.pages p

/-- A hold replaced. -/
def setHold (s : State) (b : Nat) (h : Hold) : State := setBerth s b { berthOf s b with hold := h }

/-- The frames that back resident pages. -/
def residentFrames (h : Hold) : List Nat :=
  h.pages.filterMap (fun e => match e.2 with
    | .resident f => some f
    | _ => none)

/-- The target pages in use. -/
def targetPages (h : Hold) : List Nat :=
  h.pages.filterMap (fun e => match e.2 with
    | .spilled t => some t
    | _ => none)

/-- The frames taken: resident ones and those that recalls are filling (R231, R369). -/
def framesTaken (h : Hold) : List Nat := residentFrames h ++ h.recalling.map (·.2)

/-- The lowest number below `n` that a list does not hold. (DESIGN CHOICE, log entry 19.) -/
def lowestFree (n : Nat) (l : List Nat) : Option Nat := (List.range n).find? (fun i => !l.contains i)

/-- The high-water mark in force (R229). -/
def holdHwm (s : State) (b : Nat) : Nat := regBits s (mwBase + 0x1000 + 0x40 * b + 8) 18 0

/-- The stall timeout in nanoseconds (R221, R229). -/
def holdTmoNs (s : State) (b : Nat) : Nat := regBits s (mwBase + 0x1000 + 0x40 * b + 0xC) 23 0 * 1000

/-- What an admission comes to. -/
inductive Admit where
  | placed
  | full
  | stall
deriving DecidableEq, Repr

/-- A free page becomes resident in the lowest free frame, and PEAK follows (R219, R229). (DESIGN CHOICE, log entry 19.) -/
def makeResident (s : State) (b p f : Nat) : State :=
  let h := (berthOf s b).hold
  let h1 := { h with pages := tput h.pages p (.resident f) }
  setHold s b { h1 with peak := max h1.peak (residentFrames h1).length }

/-- A free page is spilled to the lowest free target page (R220); the first of a task raises HOLD_SPILL (R222). `full` where
no target page serves. -/
def spillPage (s : State) (level unit b p : Nat) : State × Admit :=
  let g := (berthOf s b).cfg
  let h := (berthOf s b).hold
  match g.tgtConn, lowestFree g.tgtPages (targetPages h) with
  | some _, some t =>
    let s1 := setHold s b { h with pages := tput h.pages p (.spilled t), spillEv := true, taskSpilled := true }
    (if h.taskSpilled then s1 else raiseBerth s1 level unit 0x37 b p, .placed)
  | _, _ => (s, .full)

/-- A frame for a page that becomes resident (R219): none at or above the high-water mark, which counts the resident frames, and none while
recalls fill those that are left. (DESIGN CHOICE, log entry 19.) -/
def frameFor (s : State) (b : Nat) : Option Nat :=
  let h := (berthOf s b).hold
  if (residentFrames h).length < holdHwm s b then lowestFree (berthOf s b).cfg.holdFrames (framesTaken h) else none

/-- The first touch of a page by a stash write (R219-R221, R230): resident below the high-water mark, else the overflow policy. HWM_HIT notes
an admission that finds USED equal to HWM; one under SPILL_NOW, which does not look at the mark, does not. A frame that is taken afresh holds undefined
bytes (R227). (DESIGN CHOICE, log entry 19.) -/
def admitPage (s : State) (level unit b p : Nat) (spillNow : Bool) : State × Admit :=
  let g := (berthOf s b).cfg
  let h := (berthOf s b).hold
  match pageState s b p with
  | .free =>
    if spillNow then spillPage s level unit b p
    else
      match frameFor s b with
      | some f => (hbmUndefine (makeResident s b p f) (frameAddr g f) pageSize, .placed)
      | none =>
        let s1 := setHold s b { h with hwmHit := h.hwmHit || (residentFrames h).length == holdHwm s b }
        if g.stall then (s1, .stall) else spillPage s1 level unit b p
  | _ => (s, .placed)

/-- An extent of the hold cut at page boundaries. -/
def cutPages : Nat → Nat → Nat → List (Nat × Nat)
  | 0, _, _ => []
  | fuel + 1, o, len =>
    if len = 0 then []
    else
      let n := min len (pageSize - o % pageSize)
      (o, n) :: cutPages fuel (o + n) (len - n)

/-- The pieces of hold extents, each within one page. -/
def pagePieces (es : List (Nat × Nat)) : List (Nat × Nat) :=
  es.flatMap (fun e => cutPages (e.2 / pageSize + 2) e.1 e.2)

/-- The bytes of a stash write cut at page boundaries. -/
def stashPieces (ws : List (Nat × List Byte)) : List (Nat × List Byte) :=
  ws.flatMap (fun w => (cutPages (w.2.length / pageSize + 2) w.1 w.2.length).map (fun e => (e.1, slice w.2 (e.1 - w.1) e.2)))

/-- Whether a hold extent reaches beyond HOLD_PAGES pages (R225). -/
def holdBeyond (s : State) (b : Nat) (es : List (Nat × Nat)) : Bool :=
  let n := (berthOf s b).cfg.holdPages
  n == 0 || es.any (fun e => decide (n * pageSize < e.1 + e.2))

/-- HOLD_RANGE (R225): the spec states no detail, so the detail is a free value. (DESIGN CHOICE, log entry 19.) -/
def raiseHoldRange (s : State) (q c b : Nat) : State :=
  let p := freshWord s
  raiseCtx p.2 q c 0x39 b p.1.toNat

/-- Where a piece of the hold lies now (R224, R370). -/
def holdPiece (s : State) (b : Nat) (e : Nat × Nat) : HoldPiece :=
  let g := (berthOf s b).cfg
  match pageState s b (e.1 / pageSize) with
  | .free => { off := e.1, len := e.2, place := 0, addr := 0 }
  | .resident f => { off := e.1, len := e.2, place := 1, addr := frameAddr g f + e.1 % pageSize }
  | .spilled t => { off := e.1, len := e.2, place := 2, addr := g.tgtBase + pageSize * t + e.1 % pageSize }

/-- The offload connection cannot carry a run's access to a spilled page: HOLD_REMOTE names the page, and the run fails (R222). -/
def failRemote (s : State) (id page : Nat) : State :=
  match runOf s id with
  | some r => if r.failed then s else setRun (raiseCtx s r.q r.c 0x38 r.berth page) { r with failed := true }
  | none => s

/-- An access of a run to a spilled page goes out over the offload connection (R220, R224). -/
def holdRequest (s : State) (id b page packets : Nat) (m : Roce) : State :=
  match (berthOf s b).cfg.tgtConn with
  | some n => if connUsable s n then request s n (.hold page id) packets m else failRemote s id page
  | none => s

/-- A piece of a stash write goes to its page where it lies: to the frame as a write transaction, or to the target by RDMA
WRITE (R219, R220). -/
def placePiece (s : State) (id b : Nat) (pool : List Nat) (w : Nat × List Byte) : State :=
  let e := holdPiece s b (w.1, w.2.length)
  if e.place = 2 then
    holdRequest s id b (w.1 / pageSize) (packetsOf w.2.length) (.write e.addr w.2 none)
  else
    match runOf s id with
    | some r => setRun s { r with todo := r.todo ++ writeReqs 4 pool e.addr w.2, outs := r.outs ++ [(e.addr, w.2.length)] }
    | none => s

/-- A run that fails: its registers are released and it leaves without its SFLAG. (DEDUCED, log entry 18.) -/
def failRun (s : State) (id : Nat) : State :=
  match runOf s id with
  | some r => dropRun (inuseDown s r.cmd.uses) id
  | none => s

/-- A stash write waits at a page: the wait counts from its start, which is kept while the page is the same (R221, R370). -/
def holdWait (s : State) (id p : Nat) (ws : List (Nat × List Byte)) : State :=
  match runOf s id with
  | some r =>
    setRun s { r with stash := ws, waitHold := some (p, match r.waitHold with
      | some x => if x.1 = p then x.2 else s.time.mono
      | none => s.time.mono) }
  | none => s

/-- Place the pieces of a stash write in order (R219): it ends placed, fails with HOLD_FULL (R220), waits under STALL for a
frame (R221), or waits until a page that a recall brings back is resident (R370). (DESIGN CHOICE, log entry 19.) -/
def placeAll (id q c b : Nat) (pool : List Nat) (spillNow : Bool) : List (Nat × List Byte) → State → State
  | [], s =>
    match runOf s id with
    | some r => setRun s { r with stash := [], waitHold := none }
    | none => s
  | w :: rest, s =>
    let u := ctxUnit q c
    let page := w.1 / pageSize
    if thas (berthOf s b).hold.recalling page then holdWait s id page (w :: rest)
    else
      let p := admitPage s u.1 u.2 b page spillNow
      match p.2 with
      | .placed => placeAll id q c b pool spillNow rest (placePiece p.1 id b pool w)
      | .full => failRun (raiseCtx p.1 q c 0x36 b page) id
      | .stall =>
        let h := (berthOf p.1 b).hold
        let s1 := setHold p.1 b { h with stalled := true }
        if holdTmoNs s1 b = 0 then failRun (raiseCtx s1 q c 0x36 b page) id else holdWait s1 id page (w :: rest)

/-- A recall gives up a page that it is bringing back (R370): its writes of it are discarded, no further piece of it is dispatched, and the
data that the target still returns is dropped. (DEDUCED, log entry 31.) -/
def giveUpPage (p : Nat) (s : State) (r : Run) : State :=
  let q := quayOf s r.q
  let mine (t : Thread) : Bool := t.run == r.id && (match t.page with
    | some k => k.1 == p
    | none => false)
  let ids := (q.threads.filter (fun e => mine e.2)).flatMap (fun e => e.2.waiting)
  let s1 := setQuay (maskTrk s (fun t => ids.contains t.id)) r.q { q with
    threads := (q.threads.filter (fun e => !(mine e.2 && e.2.phase == 2))).map (fun e =>
      (e.1, { e.2 with spoiled := e.2.spoiled || mine e.2 })) }
  let i := r.gather.next
  let inside := i % 32 != 0 && nth 0 r.gather.pages (i / 32) == p
  setRun s1 { r with gather := { r.gather with
    taken := r.gather.taken.filter (fun k => k != p), next := if inside then (i / 32 + 1) * 32 else i } }

/-- Free a page (R223): a recall of it is abandoned (R370). -/
def freePage (b : Nat) (s : State) (p : Nat) : State :=
  let s1 := (s.runs.filter (fun r => r.berth == b && r.gather.taken.contains p)).foldl (giveUpPage p) s
  let h := (berthOf s1 b).hold
  setHold s1 b { h with pages := tdel h.pages p, recalling := tdel h.recalling p }

/-- A recall stops: its threads and its writes are given up with the frames that it was filling, and pages not yet resident stay spilled
(R222, R370). (DEDUCED, log entry 31.) -/
def stopRecall (s : State) (id : Nat) : State :=
  match runOf s id with
  | some r =>
    let h := (berthOf s r.berth).hold
    let s1 := setHold s r.berth { h with recalling := h.recalling.filter (fun e => !r.gather.taken.contains e.1) }
    let q := quayOf s1 r.q
    let s2 := setQuay s1 r.q { q with threads := q.threads.filter (fun e => e.2.run != id) }
    setRun (maskTrk s2 (fun t => t.run == id)) { r with gather := { r.gather with stopped := true, taken := [] } }
  | none => s

/-- The recall of a page over a connection that fails (R222, R370): HOLD_REMOTE, and the recall stops. -/
def failRecall (s : State) (id page : Nat) : State := stopRecall (failRemote s id page) id

/-- The pages that extents touch. -/
def pagesOf (es : List (Nat × Nat)) : List Nat :=
  (pagePieces es).foldl (fun a e => if a.contains (e.1 / pageSize) then a else a ++ [e.1 / pageSize]) []

/-- The whole hold is freed and its counts cleared (R228). -/
def resetHold (s : State) (b : Nat) : State :=
  let h := (berthOf s b).hold
  setHold s b { h with lost := none, pages := [], recalling := [], peak := 0 }

/-- The stash write of a berth that has waited longest for a page. -/
def oldestStalled (s : State) (b : Nat) : Option Run :=
  (s.runs.filter (fun r => r.berth == b && r.waitHold.isSome)).foldl
    (fun a r => match a with
      | none => some r
      | some x => if (r.waitHold.getD (0, 0)).2 < (x.waitHold.getD (0, 0)).2 then some r else some x) none

/-- Whether a page that a stash write waits at can be met now: no recall is bringing it back, and it lies somewhere already, or a frame serves it
(R219, R221, R370). -/
def pageOpen (s : State) (b p : Nat) : Bool :=
  !thas (berthOf s b).hold.recalling p && (pageState s b p != .free || (frameFor s b).isSome)

/-- The stash write that has waited longest goes on where its page can be met (R221, R226, R370). -/
def wakeStash (s : State) (b : Nat) : State :=
  match oldestStalled s b with
  | some r =>
    if pageOpen s b (r.waitHold.getD (0, 0)).1 && taskMoves s b
    then issueRun (placeAll r.id r.q r.c b r.decks false r.stash s) r.id else s
  | none => s

/-- Before the first touch of a further stash write those that came earlier are served as far as frames allow (R226). -/
def wakeAll (b : Nat) : Nat → State → State
  | 0, s => s
  | fuel + 1, s =>
    match oldestStalled s b with
    | some r => if pageOpen s b (r.waitHold.getD (0, 0)).1 then wakeAll b fuel (wakeStash s b) else s
    | none => s

end Sys2Proof.Machine
end

