-- ==== Sys2Proof/Machine/Staging.lean ====
section
/-! DEFINITION. Operand staging: TILECFG, STREAM, LOAD, STORE, the hold's stalls, SWAP and MASKSET (R143-R174, R203, R204,
R287-R294). -/

namespace Sys2Proof.Machine

/-! ### Leaving a queue -/

/-- A command that failed a check leaves its queue unexecuted: its registers are released and its SFLAG does not increment. -/
def refuseHead (s : State) (q c : Nat) (m : QCmd) : State := popHead (inuseDown s m.uses) q c

/-- A command that fails a shape check (R152). -/
def shapeFail (s : State) (code q c b : Nat) (m : QCmd) (deck : Option Nat) : State :=
  refuseHead (raiseShape s code q c b m deck) q c m

/-- A command that executes whole at the head of its queue leaves it, releases its registers and increments its SFLAG. -/
def headDone (s : State) (q c b : Nat) (m : QCmd) : State := sflagUp (popHead (inuseDown s m.uses) q c) q c b m.word

/-- A started command completes: its registers are released, it leaves, and its SFLAG increments (R263). -/
def runDone (s : State) (r : Run) : State :=
  sflagUp (dropRun (inuseDown s r.cmd.uses) r.id) r.q r.c r.berth r.cmd.word

/-- The oldest command that a queue has started and not completed. (DEDUCED, log entry 24.) -/
def oldestRun (s : State) (q c : Nat) : Option Run := s.runs.find? (fun r => r.q == q && r.c == c)

/-- A command starts: it leaves the queue and joins the running commands under a new name. -/
def startRun (s : State) (q c b : Nat) (m : QCmd) (decks : List Nat) : State × Nat :=
  let p := freshId (popHead s q c)
  let r : Run := { id := p.1, q := q, c := c, berth := b, task := ((berthOf s b).cur.getD 0).toNat, cmd := m, decks := decks,
                   bind := m.uses.map (fun u => (u.1, u.2, physHalf s u.1 (tileOf s u.1 u.2))) }
  ({ p.2 with runs := p.2.runs ++ [r] }, p.1)

/-- The physical half bound for a register of a run (R147). -/
def boundHalf (s : State) (r : Run) (d reg : Nat) : Bool :=
  match r.bind.find? (fun e => e.1 == d && e.2.1 == reg) with
  | some e => e.2.2
  | none => physHalf s d (tileOf s d reg)

/-- The error code of a buffer read by a command of deck `d` (R545): a corrected error is reported at most once per
millisecond per deck, an uncorrectable one fails the command. (DEDUCED, log entry 27.) -/
def bufEcc (s : State) (d : Nat) : Ecc → State × Bool
  | .ok => (s, true)
  | .corrected loc =>
    if mayReport s 0x0D d 1000000 then (noteReport (raiseDeck s 1 d 0x0D loc) 0x0D d, true) else (s, true)
  | .uncorrectable loc => (raiseDeck s 1 d 0x0E loc, false)

/-! ### TILECFG and STREAM (R143, R144, R154, R155, R287-R289) -/

/-- A tile register set, its in-use count kept. -/
def putTile (t : TileReg) (r : Nat) (s : State) (d : Nat) : State :=
  let x := deckOf s d
  setDeck s d { x with tiles := tput x.tiles r { t with inuse := (tget {} x.tiles r).inuse } }

/-- TILECFG at the head once the counts are zero: checked in every addressed deck, then applied in all or in none (R144). -/
def tilecfgAt (s : State) (q c b : Nat) (m : QCmd) : State :=
  match opOf m.word with
  | .tilecfg r g ld rows cols cfg =>
    let d := if c < 16 then ctxDeck q c else 4 * q + ld
    if gangScopeBad s d g then shapeFail s 0x09 q c b m (some d)
    else
      match cfgTile cfg rows cols with
      | none => shapeFail s 0x08 q c b m (some d)
      | some t =>
        match (addressed s d g).find? (fun k => cfgFails s k r t) with
        | some k => shapeFail s 0x08 q c b m (some k)
        | none => headDone ((addressed s d g).foldl (putTile t r) s) q c b m
  | _ => s

/-- TILECFG. -/
def execTilecfg (q : Fin 4) (c : Fin 18) (s : State) : Answer :=
  .next (match headOp s q c 0x01 with
    | some p => if cfgWaits s q c p.2.word then s else tilecfgAt s q c p.1 p.2
    | none => s)

/-- Whether a STREAM fails R154. -/
def streamBad (o : StreamOps) : Bool :=
  o.cls == 3 || !fmtOk o.mfmt || o.rnd == 3 || (o.mmx && !fmtMxOk o.mfmt)

/-- The descriptor that a STREAM arms (R153). -/
def streamDesc (o : StreamOps) : Desc :=
  { store := o.store, cls := o.cls, mfmt := o.mfmt, mmx := o.mmx, morient := o.morient, rnd := o.rnd, ovf := o.ovf, cur := o.base,
    stride := o.stride, advance := o.advance, scur := moveAddr o.base o.scaleOff, zcur := o.zmap * 64 }

/-- STREAM at the head once earlier transfers are done (R155): it arms its descriptor, or fails and leaves it unarmed (R154). -/
def streamAt (s : State) (q c b : Nat) (m : QCmd) : State :=
  match opOf m.word with
  | .stream o =>
    let d := ctxDeck q c
    let x := deckOf s d
    if streamBad o then shapeFail (setDeck s d { x with descs := tdel x.descs o.desc }) 0x08 q c b m (some d)
    else headDone (setDeck s d { x with descs := tput x.descs o.desc (streamDesc o) }) q c b m
  | _ => s

/-- STREAM. -/
def execStream (q : Fin 4) (c : Fin 18) (s : State) : Answer :=
  .next (match headOp s q c 0x04 with
    | some p =>
      match opOf p.2.word with
      | .stream o => if descBusy s (ctxDeck q c) o.desc p.2.seq then s else streamAt s q c p.1 p.2
      | _ => s
    | none => s)

/-! ### LOAD (R156-R168, R290) -/

/-- Whether register `r` of deck `k` differs from that of deck `d` in a field that gang scope requires to agree (R152). -/
def tileDiffers (s : State) (d k r : Nat) : Bool :=
  let a := tileOf s d r
  let t := tileOf s k r
  a.fmt != t.fmt || a.mx != t.mx || a.orient != t.orient || a.rows16 != t.rows16 || a.cols != t.cols

/-- The deck in which a LOAD or STORE fails a shape check (R152, R288). -/
def transferBad (s : State) (d n r : Nat) (gang store : Bool) : Option Nat :=
  if gangScopeBad s d gang then some d
  else if (match descOf s d n with
    | some ds => ds.store != store
    | none => true) then some d
  else
    (addressed s d gang).find? (fun k =>
      let role := (tileOf s k r).role
      (if store then role == .mask || role == .none else role == .none || role == .output) || (gang && tileDiffers s d k r))

/-- Whether an engine may start another transfer: the previous one has issued its last request, and at most one other is in
progress (R290, R291). -/
def transferRoom (s : State) (q c : Nat) : Bool :=
  let l := s.runs.filter (fun r => r.q == q && r.c == c)
  decide (l.length < 2) && l.all (fun r => r.todo.isEmpty && r.stash.isEmpty)

/-- Keep a zero record for every destination of a LOAD of class data, a new one where it had one, or remove it for another class (R165). -/
def startZrec (t : TileReg) (blocks : Nat) (dataCls : Bool) (s : State) (u : Nat × Bool) : State :=
  let n := freshId s
  let x := deckOf n.2 u.1
  let rest := x.zrecs.filter (fun z => !zrecIs z u.2 t)
  let new : ZRec := { id := n.1, half := u.2, base := t.base, fmt := t.fmt, mx := t.mx, orient := t.orient, rows16 := t.rows16,
                      cols := t.cols, blocks := List.replicate blocks (false, false) }
  setDeck n.2 u.1 { x with zrecs := if dataCls then rest ++ [new] else rest }

/-- Look the lines of a prefetch-only LOAD up in the quay's prefetch store (R162, R349): the bytes of hits, the reads left for
the misses, and the lines with those used now last. -/
def lookupLines (s : State) (lines : List Nat) : List (Nat × Nat) → List Host.Cell × List (Nat × Nat) × List Nat
  | [] => ([], [], lines)
  | e :: rest =>
    let l := e.1 / 2048 * 2048
    if lines.contains l then
      let p := lookupLines s (lines.filter (fun x => x != l) ++ [l]) rest
      ((hbmRead s e.1 e.2).zipIdx.map (fun v => (e.1 + v.2, v.1)) ++ p.1, p.2)
    else
      let p := lookupLines s lines rest
      (p.1, e :: p.2.1, p.2.2)

/-- The element and scale extents of a transfer. -/
def transferExtents (t : TileReg) (e : Extent) (ds : Desc) (cur scur : Nat) : List (Nat × Nat) :=
  rowExtents e ds cur ++ (if scaleCount t e ds = 0 then [] else [(scur, scaleCount t e ds)])

/-- The reads of a LOAD from HBM: those that the prefetch store does not serve. -/
def loadHbm (s : State) (id q : Nat) (pool : List Nat) (cls : Nat) (es : List (Nat × Nat)) : State :=
  match runOf s id with
  | none => s
  | some r =>
    let tr := es.flatMap (fun e => transOf e.1 e.2)
    let p := if cls = 2 then lookupLines s (quayOf s q).lines tr else ([], tr, (quayOf s q).lines)
    let s1 := setQuay s q { quayOf s q with lines := p.2.2 }
    setRun s1 { r with
      got := p.1.foldl (fun a e => tput a e.1 e.2) [],
      todo := p.2.1.map (fun e => { addr := e.1, len := e.2, write := false, data := [], cls := 2, pool := pool }) }

/-- The reads of a LOAD from the hold (R224): frames as HBM is read, spilled pages by RDMA READ, free pages not at all. -/
def loadHold (s : State) (id q b : Nat) (pool : List Nat) (cls : Nat) (es : List (Nat × Nat)) : State :=
  let ps := (pagePieces es).map (holdPiece s b)
  let s0 := loadHbm s id q pool cls ((ps.filter (fun p => p.place == 1)).map (fun p => (p.addr, p.len)))
  match runOf s0 id with
  | none => s0
  | some r =>
    let s1 := setRun s0 { r with pieces := ps }
    (ps.filter (fun p => p.place == 2)).foldl
      (fun a p => holdRequest a id b (p.off / pageSize) (packetsOf p.len) (.read p.addr p.len)) s1

/-- LOAD starts (R290): shape checks, window or hold checks over the whole extent, zero records, and its reads. -/
def loadAt (s : State) (q c b : Nat) (m : QCmd) : State :=
  match opOf m.word with
  | .load n r g h _ =>
    let d := ctxDeck q c
    match transferBad s d n r g false, m.curs with
    | none, some cu =>
      let t := tileOf s d r
      let e := extentOf s d t g false
      let ds := (descOf s d n).getD {}
      let es := transferExtents t e ds cu.1 cu.2.1
      let zlen := zmapBytes t e ds cu.2.2
      let zx := if zlen = 0 then [] else [(cu.2.2, zlen)]
      if h && holdBeyond s b es then refuseHead (raiseHoldRange s q c b) q c m
      else
        match firstOutside s b ((if h then [] else es) ++ zx) with
        | some a => refuseHead (raiseCtx s q c 0x33 b a) q c m
        | none =>
          let decks := addressed s d g
          let p := startRun s q c b m decks
          let s1 := match runOf p.1 p.2 with
            | some x => setRun p.1 { x with
                cur := cu.1, scur := cu.2.1, zcur := cu.2.2, desc := ds,
                dests := decks.map (fun k => ⟨k, boundHalf s x k r, tileOf s k r, [(0, (tileOf s k r).cols)]⟩) }
            | none => p.1
          let halves := decks.map (fun k => (k, physHalf s k (tileOf s k r)))
          let s2 := if isOperand t.role || t.role == .stash || t.role == .mask
            then halves.foldl (fun a u => startZrec (tileOf a u.1 r) (kBlocks t e) (ds.cls == 0 && isOperand t.role) a u) s1 else s1
          let s3 := if h then loadHold s2 p.2 q b decks ds.cls es else loadHbm s2 p.2 q decks ds.cls es
          issueRun s3 p.2
    | some k, _ => shapeFail s 0x09 q c b m (some k)
    | none, none => shapeFail s 0x09 q c b m (some d)
  | _ => s

/-- LOAD. -/
def execLoad (q : Fin 4) (c : Fin 18) (s : State) : Answer :=
  .next (match headOp s q c 0x02 with
    | some p => if transferRoom s q c then loadAt s q c p.1 p.2 else s
    | none => s)

/-- The bytes that a LOAD has read, by address in HBM or offset in the hold; `remote` are the bytes that the offload target
returned, in the order of the pieces (R224). -/
def loadBytes (r : Run) (remote : List Byte) : Mem :=
  if r.pieces.isEmpty then { cells := r.got }
  else
    (r.pieces.foldl
      (fun (a : Mem × List Byte) p =>
        if p.place = 2 then (a.1.writeBytes p.off (slice a.2 0 p.len), a.2.drop p.len)
        else if p.place = 1 then
          (a.1.writeBytes p.off ((List.range p.len).map (fun i => tget 0 r.got (p.addr + i))), a.2)
        else a) (({} : Mem), remote)).1

/-- The bytes that a LOAD waits for from the offload target. -/
def remoteLen (r : Run) : Nat := (r.pieces.filter (fun p => p.place == 2)).foldl (fun a p => a + p.len) 0

/-- The code in memory of the element of a transfer at memory row `i`, column `j` (R157). (DEDUCED, log entry 17.) -/
def memCode (m : Mem) (ds : Desc) (cur i j : Nat) : Nat := readPacked m (moveAddr cur ((i : Int) * ds.stride)) ds.mfmt j

/-- Its value, the block scale applied (R158, R159). (DEDUCED, log entry 17.) -/
def memVal (m : Mem) (t : TileReg) (e : Extent) (ds : Desc) (cur scur i j : Nat) : FV :=
  let v := elemVal ds.mfmt ds.mmx (memCode m ds cur i j)
  if ds.mmx then FV.mul v (scaleVal (m.read (scur + scaleIndex t e ds i j))) else v

/-- The position of a deck in its gang: row and column (R93). (DEDUCED, log entry 16.) -/
def gangPos (s : State) (k : Nat) : Nat × Nat :=
  (bits (deckOf s k).gang.toNat 7 4, bits (deckOf s k).gang.toNat 3 0)

/-- The logical row and column at which a member's fragment starts (R160, R291). (DEDUCED, log entry 16.) -/
def memberAt (s : State) (k : Nat) (t : TileReg) (e : Extent) : Nat × Nat :=
  let p := gangPos s k
  let along (split : Nat) : Nat := if split = 1 then 0 else if t.role = .b then p.2 else p.1
  if isOperand t.role then (along e.splitR * tileRows t, along e.splitC * t.cols)
  else ((if e.splitR = 1 then 0 else p.1 * tileRows t), (if e.splitC = 1 then 0 else p.2 * t.cols))

/-- Write a member's fragment from what a LOAD has read (R159, R160). Where the format in memory is the tile's and neither has
scales, the codes are copied. (DEDUCED, log entry 16.) -/
def loadMember (m : Mem) (e : Extent) (ds : Desc) (r : Run) (reg : Nat) (s : State) (k : Nat) : State :=
  let t := tileOf s k reg
  let h := boundHalf s r k reg
  let o := memberAt s k t e
  let mi (i j : Nat) : Nat × Nat := if ds.morient then (o.2 + j, o.1 + i) else (o.1 + i, o.2 + j)
  let buf :=
    if ds.mfmt = t.fmt && !ds.mmx && !t.mx then
      (List.range (tileRows t)).foldl
        (fun a i => (List.range t.cols).foldl
          (fun b j => writePacked b (rowAddr t i) t.fmt j (memCode m ds r.cur (mi i j).1 (mi i j).2)) a) (bufOf s k h)
    else
      writeTile t (rndOf ds.rnd) ds.ovf s.free (fun _ _ => true)
        (fun i j => memVal m t e ds r.cur r.scur (mi i j).1 (mi i j).2) (bufOf s k h)
  let keep := (deckOf s k).zrecs.filter (fun z => zrecIs z h t)
  let s1 := putBuf { s with free := s.free + tileRows t * t.cols } k h (footLo t) (footHi t) buf
  setDeck s1 k { deckOf s1 k with zrecs := (deckOf s1 k).zrecs ++ keep }

/-- Whether a member holds a value other than zero in block `j` of K (R163). -/
def blockNonzero (s : State) (h : Bool) (reg j k : Nat) : Bool :=
  let t := tileOf s k reg
  (List.range (min 32 (kExtent t - 32 * j))).any (fun i =>
    (List.range (xExtent t)).any (fun x => !(operandVal (bufOf s k h) t x (32 * j + i)).isZero))

/-- Set the done and non-zero bits of the zero records that a LOAD keeps (R165). (DEDUCED, log entry 21.) -/
def setZrec (r : Run) (reg : Nat) (nz : List Bool) (s : State) (k : Nat) : State :=
  let t := tileOf s k reg
  let h := boundHalf s r k reg
  let x := deckOf s k
  setDeck s k { x with zrecs := x.zrecs.map (fun z => if zrecIs z h t then { z with blocks := nz.map (fun b => (true, b)) } else z) }

/-- The bytes of a zero map (R164): bit j is 1 when block j is all zero. -/
def zmapData (len : Nat) (nz : List Bool) : List Byte :=
  (List.range len).map (fun i =>
    BitVec.ofNat 8 ((List.range 8).foldl
      (fun a b => a + flagAt (decide (8 * i + b < nz.length) && !(nth true nz (8 * i + b))) b) 0))

/-- The bytes of the zero map that a LOAD writes when it completes (R164). -/
def loadZmap (s : State) (r : Run) : Nat :=
  match opOf r.cmd.word with
  | .load _ reg g _ _ =>
    let t := tileOf s (ctxDeck r.q r.c) reg
    zmapBytes t (extentOf s (ctxDeck r.q r.c) t g false) r.desc r.zcur
  | _ => 0

/-- A LOAD that has written its tile and its zero map frees the pages that it releases and completes; where the zero map was lost it ends without its
SFLAG. (DEDUCED, log entry 18.) -/
def loadEnd (s : State) (r : Run) (pages : List Nat) (ok : Bool) : State :=
  if ok then runDone (pages.foldl (freePage r.berth) s) r else failRun s r.id

/-- LOAD completes (R160-R165, R223, R290). (DEDUCED, log entries 13, 18, 21.) -/
def loadFinish (s : State) (r : Run) (remote : List Byte) (mem : HbmOutcome) : State :=
  match opOf r.cmd.word with
  | .load _ reg g h rel =>
    let d := ctxDeck r.q r.c
    let t := tileOf s d reg
    let e := extentOf s d t g false
    let m := loadBytes r remote
    let s1 := r.decks.foldl (loadMember m e r.desc r reg) s
    let nz := (List.range (kBlocks t e)).map (fun j =>
      r.decks.any (fun k => blockNonzero s1 (boundHalf s1 r k reg) reg j k))
    let s2 := if r.desc.cls = 0 && isOperand t.role then r.decks.foldl (setZrec r reg nz) s1 else s1
    let zlen := zmapBytes t e r.desc r.zcur
    let p := if zlen = 0 then (s2, true) else stepWrite s2 (ctxRequester s2 r.q r.c r.berth 4) r.zcur (zmapData zlen nz) mem.late
    loadEnd p.1 r (if h && rel then pagesOf (transferExtents t e r.desc r.cur r.scur) else []) p.2
  | _ => s

/-- The requests of a run on the offload connection of its berth are acknowledged. -/
def ackHold (s : State) (b id : Nat) : State :=
  match (berthOf s b).cfg.tgtConn with
  | some n =>
    setReqs s n ((connOf s n).reqs.filter (fun x => match x.kind with
      | .hold _ k => k != id
      | _ => true))
  | none => s

/-- Whether the offload connection, if the run uses it, still works (R222). -/
def holdLinkOk (s : State) (r : Run) : Bool :=
  match (berthOf s r.berth).cfg.tgtConn with
  | some n => !(connOf s n).err || !(connOf s n).reqs.any (fun x => match x.kind with
      | .hold _ k => k == r.id
      | _ => false)
  | none => true

/-- LOAD_COMPLETE: the oldest LOAD of the context has all it reads; a LOAD that received poison or lost a transaction ends without
its effect and its SFLAG (R322, R527). The write of the zero map needs a tracker entry (R338); `mem` says what becomes of it. -/
def execLoadComplete (q : Fin 4) (c : Fin 18) (remote : List Byte) (mem : HbmOutcome) (s : State) : Answer :=
  .next (match oldestRun s q c with
    | some r =>
      if opcodeOf r.cmd.word == 0x02 && taskMoves s r.berth && !runBusy s r.id then
        if r.failed then failRun (ackHold s r.berth r.id) r.id
        else if remote.length = remoteLen r && holdLinkOk s r && (loadZmap s r == 0 || stepRoom s r.decks)
          then loadFinish (ackHold s r.berth r.id) r remote mem
        else s
      else s
    | none => s)

/-! ### STORE (R157-R159, R277, R291) -/

/-- The bytes of one memory row from its element codes. -/
def memRowBytes (fmt n : Nat) (code : Nat → Nat) : List Byte :=
  ((List.range n).foldl (fun m j => writePacked m 0 fmt j (code j)) ({} : Mem)).readBytes 0 (packedBytes fmt n)

/-- The scale of the block of memory element (i, j), of a transfer whose blocks run along memory rows or down memory columns,
within `n` rows and `w` columns (R77, R158). -/
def memScale (fmt : Nat) (along : Bool) (n w : Nat) (val : Nat → Nat → FV) (i j : Nat) : Byte :=
  mxScale fmt (if along then (List.range (min 32 (w - j / 32 * 32))).map (fun k => val i (j / 32 * 32 + k))
    else (List.range (min 32 (n - i / 32 * 32))).map (fun k => val (i / 32 * 32 + k) j))

/-- The memory image of a tile of `n` memory rows of `w` elements: the bytes of each row, and the scale bytes (R157-R159).
(DEDUCED, log entry 17.) -/
def memImage (fmt : Nat) (mx along : Bool) (rnd : Rnd) (ovf : Bool) (base n w : Nat) (val : Nat → Nat → FV) :
    List (List Byte) × List Byte :=
  ((List.range n).map (fun i => memRowBytes fmt w (fun j =>
      let dr := (Config.random16 (base + i * w + j)).toNat
      if mx then mxElem fmt rnd dr (memScale fmt along n w val i j) (val i j) else toElem fmt rnd ovf dr (val i j))),
   if !mx then []
   else if along then
     (List.range n).flatMap (fun i => (List.range (cdiv w 32)).map (fun k => memScale fmt along n w val i (32 * k)))
   else
     (List.range (cdiv n 32)).flatMap (fun k => (List.range w).map (fun j => memScale fmt along n w val (32 * k) j)))

/-- The member that supplies logical element (i, j) of a STORE, and where in its fragment (R291). -/
def storeSource (s : State) (d : Nat) (t : TileReg) (e : Extent) (gang : Bool) (i j : Nat) : Nat × Nat × Nat :=
  let a := i / tileRows t
  let c := j / t.cols
  let k :=
    if !gang || deckQuad s d then d
    else
      let n := gangN s d
      let idx := if t.role = .a then (a + c) * n else if t.role = .b then a + c else a * n + c
      nth d (gangMembers s d) (if e.splitR = 1 && e.splitC = 1 then 0 else idx)
  (k, i % tileRows t, j % t.cols)

/-- The writes of a STORE: addresses or hold offsets with their bytes. (DEDUCED, log entry 13.) -/
def storeWrites (s : State) (d reg : Nat) (gang : Bool) (ds : Desc) (cur scur : Nat) (half : Nat → Bool) :
    List (Nat × List Byte) :=
  let t := tileOf s d reg
  let e := extentOf s d t gang true
  let n := memRows e ds.morient
  let at_ (i j : Nat) : Nat × Nat × Nat :=
    if ds.morient then storeSource s d t e gang j i else storeSource s d t e gang i j
  if ds.mfmt = t.fmt && !ds.mmx && !t.mx then
    (List.range n.1).map (fun (i : Nat) => (moveAddr cur ((i : Int) * ds.stride), memRowBytes ds.mfmt n.2 (fun j =>
      let a := at_ i j
      tileCode (bufOf s a.1 (half a.1)) (tileOf s a.1 reg) a.2.1 a.2.2)))
  else
    let img := memImage ds.mfmt ds.mmx (blocksAlongMem t ds.morient) (rndOf ds.rnd) ds.ovf s.free n.1 n.2 (fun i j =>
      let a := at_ i j
      tileVal (bufOf s a.1 (half a.1)) (tileOf s a.1 reg) a.2.1 a.2.2)
    img.1.zipIdx.map (fun x => (moveAddr cur ((x.2 : Int) * ds.stride), x.1)) ++ (if img.2.isEmpty then [] else [(scur, img.2)])

/-- The writes of a started run go out: to HBM as transactions, or to the hold page by page, after the stash writes that wait there already
(R219, R226, R338). -/
def sendWrites (s : State) (id q c b : Nat) (pool : List Nat) (hold spillNow : Bool) (ws : List (Nat × List Byte)) : State :=
  let s1 :=
    if hold then placeAll id q c b pool spillNow (stashPieces ws) (wakeAll b (s.runs.length + 1) s)
    else
      match runOf s id with
      | some r => setRun s { r with todo := r.todo ++ ws.flatMap (fun w => writeReqs 4 pool w.1 w.2),
                                    outs := r.outs ++ ws.map (fun w => (w.1, w.2.length)) }
      | none => s
  issueRun s1 id

/-- STORE starts (R291): checks, the read of the buffer, and its writes. -/
def storeAt (s : State) (q c b : Nat) (m : QCmd) (ecc : Ecc) : State :=
  match opOf m.word with
  | .store n r g h sn =>
    let d := ctxDeck q c
    match transferBad s d n r g true, m.curs with
    | none, some cu =>
      let t := tileOf s d r
      let e := extentOf s d t g true
      let ds := (descOf s d n).getD {}
      let es := transferExtents t e ds cu.1 cu.2.1
      if h && holdBeyond s b es then refuseHead (raiseHoldRange s q c b) q c m
      else
        match firstOutside s b (if h then [] else es) with
        | some a => refuseHead (raiseCtx s q c 0x33 b a) q c m
        | none =>
          let f := bufEcc s d ecc
          if !f.2 then refuseHead f.1 q c m
          else
            let decks := addressed s d g
            let ws := storeWrites f.1 d r g ds cu.1 cu.2.1 (fun k => physHalf f.1 k (tileOf f.1 k r))
            let p := startRun { f.1 with free := f.1.free + e.rows * e.cols } q c b m decks
            sendWrites p.1 p.2 q c b decks h sn ws
    | some k, _ => shapeFail s 0x09 q c b m (some k)
    | none, none => shapeFail s 0x09 q c b m (some d)
  | _ => s

/-- STORE. -/
def execStore (q : Fin 4) (c : Fin 18) (ecc : Ecc) (s : State) : Answer :=
  .next (match headOp s q c 0x03 with
    | some p => if transferRoom s q c then storeAt s q c p.1 p.2 ecc else s
    | none => s)

/-- Whether every write of a run has been placed and has become visible. (DEDUCED, log entry 18.) -/
def writesDone (s : State) (r : Run) : Bool :=
  !runBusy s r.id && r.stash.isEmpty && r.waitHold.isNone && holdLinkOk s r

/-- The oldest run of a context completes once its writes are visible (R168); one that lost a write ends without its SFLAG.
(DEDUCED, log entry 18.) -/
def completeWrites (s : State) (q c op : Nat) : State :=
  match oldestRun s q c with
  | some r =>
    if opcodeOf r.cmd.word == op && taskMoves s r.berth && writesDone s r then
      if r.failed then failRun (ackHold s r.berth r.id) r.id else runDone (ackHold s r.berth r.id) r
    else s
  | none => s

/-- STORE_COMPLETE. -/
def execStoreComplete (q : Fin 4) (c : Fin 18) (s : State) : Answer := .next (completeWrites s q c 0x03)

/-! ### Stalled stash writes (R221) -/

/-- HOLD_STALL_WAKE: a frame has become free. -/
def execHoldStallWake (b : Fin 16) (s : State) : Answer := .next (wakeStash s b)

/-- The stash write of a berth, if any, whose wait for a frame has lasted longer than TMO_US (R221). -/
def stalledLong (s : State) (b : Nat) : Option Run :=
  s.runs.find? (fun r => r.berth == b && (match r.waitHold with
    | some w => !thas (berthOf s b).hold.recalling w.1 && decide (w.2 + holdTmoNs s b < s.time.mono)
    | none => false))

/-- HOLD_STALL_TIMEOUT: the wait for a frame has lasted longer than TMO_US; a wait for a page that a recall brings back is not timed (R221,
R370). -/
def execHoldStallTimeout (b : Fin 16) (s : State) : Answer :=
  .next (match stalledLong s b with
    | some r =>
      match r.waitHold with
      | some w =>
        if taskMoves s b
        then failRun (raiseCtx s r.q r.c 0x36 b w.1) r.id else s
      | none => s
    | none => s)

/-! ### SWAP and MASKSET (R149-R151, R203, R204, R293, R294) -/

/-- Whether every earlier command of a queue has finished accessing the deck buffer (R150, R204): of a PASS, the last step group has entered; of
a STORE, the last write has been issued; a SAVEACC does not access the buffer, and a DRAIN has done so when it has started, but for one whose
only destination is the buffer, which is done when it is complete; of another command, it has completed. (DEDUCED, log entry 13.) -/
def bufferClear (s : State) (q c : Nat) : Bool :=
  s.runs.all (fun r => r.q != q || r.c != c ||
    (match opOf r.cmd.word with
     | .pass _ => r.pass.pend.isEmpty
     | .store .. => r.todo.isEmpty && r.stash.isEmpty
     | .saveacc .. => true
     | .drain o => o.dest != 0
     | _ => false))

/-- SAT flags that change from 0 to 1 are set, and each raises SAT_INT32 (R64, R65). -/
def setSat (slot : Nat) (s : State) (u : Nat × Nat) : State :=
  let x := deckOf s u.1
  if bit x.sat.toNat (4 * u.2 + slot) then s
  else raiseDeck (setDeck s u.1 { x with sat := x.sat ||| BitVec.ofNat 16 (2 ^ (4 * u.2 + slot)) }) 1 u.1 0x0A (slot + u.2 * 4)

/-- The clamps that a PASS has met show in the SAT flags. -/
def showClamps (s : State) (r : Run) (slot : Nat) : State :=
  r.pass.sats.foldl (setSat slot) (setRun s { r with pass := { r.pass with sats := [] } })

/-- A PASS whose last step group has entered: no pre-emption stops it any more, it has finished with its registers, and the clamps that it has
met show in the SAT flags (R65, R121, R145). (DEDUCED, log entry 14.) -/
def settlePass (s : State) (r : Run) : State :=
  match opOf r.cmd.word with
  | .pass o =>
    if r.pass.pend.isEmpty && !r.pass.entered && !r.pass.cut then
      showClamps (inuseDown s r.cmd.uses) { r with cmd := { r.cmd with uses := [] }, pass := { r.pass with entered := true } } o.slot
    else s
  | _ => s

/-- The passes of a queue that have entered whole are settled: what follows them in the queue rests on it. -/
def settleQueue (s : State) (q c : Nat) : State := (s.runs.filter (fun r => r.q == q && r.c == c)).foldl settlePass s

/-- The halves of a deck change roles (R149). -/
def swapDeck (s : State) (d : Nat) : State :=
  let x := deckOf s d
  setDeck s d { x with fore1 := !x.fore1, swapCnt := x.swapCnt + 1 }

/-- SWAP at the head. -/
def swapAt (s : State) (q c b : Nat) (m : QCmd) : State :=
  match opOf m.word with
  | .swap g =>
    let d := ctxDeck q c
    if gangScopeBad s d g then shapeFail s 0x09 q c b m (some d)
    else headDone ((addressed s d g).foldl swapDeck s) q c b m
  | _ => s

/-- SWAP. -/
def execSwap (q : Fin 4) (c : Fin 18) (s : State) : Answer :=
  .next (match headOp s q c 0x05 with
    | some p => if bufferClear s q c then swapAt (settleQueue s q c) q c p.1 p.2 else s
    | none => s)

/-- Whether a mask register cannot take a MASKSET (R204). -/
def maskBad (s : State) (r k : Nat) : Bool := (tileOf s k r).role != .mask || decide ((tileOf s k r).cols < 4)

/-- Elements 0-3 of stored row 0 of a mask register, from four bits (R203); no zero record is removed, since R165 names no MASKSET. -/
def putMask (r : Nat) (on : Nat → Bool) (s : State) (k : Nat) : State :=
  let t := tileOf s k r
  let h := physHalf s k t
  putBuf s k h 0 0
    ((bufOf s k h).writeBytes (rowAddr t 0) ((List.range 4).map (fun i => if on i then 1 else 0)))

/-- MASKSET at the head (R203, R204). -/
def masksetAt (s : State) (q c b : Nat) (m : QCmd) : State :=
  match opOf m.word with
  | .maskset r g row bs =>
    let d := ctxDeck q c
    if gangScopeBad s d g then shapeFail s 0x09 q c b m (some d)
    else
      match (addressed s d g).find? (maskBad s r) with
      | some k => shapeFail s 0x09 q c b m (some k)
      | none =>
        let n := if g && !deckQuad s d then gangN s d else 1
        headDone ((addressed s d g).zipIdx.foldl
          (fun a p => putMask r (fun i => if row then bit bs (p.2 / n) else bit bs (4 * p.2 + i)) a p.1) s) q c b m
  | _ => s

/-- MASKSET. -/
def execMaskset (q : Fin 4) (c : Fin 18) (s : State) : Answer :=
  .next (match headOp s q c 0x16 with
    | some p => if bufferClear s q c then masksetAt (settleQueue s q c) q c p.1 p.2 else s
    | none => s)

end Sys2Proof.Machine
end

