-- ==== Sys2Proof/Machine/Pass.lean ====
section
/-! DEFINITION. The array: PASS with masks and skip maps, SAVEACC and RESTACC, and what pre-emption saves and resume re-enters
(R85-R130, R54-R69, R295-R303). -/

namespace Sys2Proof.Machine

/-! ### Slots (R86, R87, R123) -/

/-- The offset of entry (r, c) of a slot (R123). -/
def entryAt (slot r c : Nat) : Nat := slot * 0x40000 + (r * 512 + c) * 4

/-- An accumulator entry. -/
def entryOf (m : Mem) (slot r c : Nat) : Word := BitVec.ofNat 32 (leNat (m.readBytes (entryAt slot r c) 4))

/-- An accumulator entry set. -/
def putEntry (m : Mem) (slot r c : Nat) (w : Word) : Mem := m.writeBytes (entryAt slot r c) (natLe 4 w.toNat)

/-- The number of the tag and SAT flag of a slot of a quad (R66). -/
def slotKey (quad slot : Nat) : Nat := 4 * quad + slot

/-- The tag of a slot of a quad. -/
def tagOf (x : Deck) (quad slot : Nat) : Tag := tget .none x.tags (slotKey quad slot)

/-- Tags of quads set. -/
def putTags (x : Deck) (quads slots : List Nat) (t : Tag) : Deck :=
  { x with tags := quads.foldl (fun a k => slots.foldl (fun b s => tput b (slotKey k s) t) a) x.tags }

/-- The SAT flags of quads cleared for a slot. -/
def clearSat (x : Deck) (quads slots : List Nat) : Deck :=
  { x with sat := quads.foldl (fun a k => slots.foldl (fun b s => b &&& ~~~(BitVec.ofNat 16 (2 ^ slotKey k s))) a) x.sat }

/-- A slot of a quad set to +0 (R62, R102, R109). -/
def zeroQuad (slot : Nat) (m : Mem) (quad : Nat) : Mem :=
  (List.range 128).foldl (fun a r => a.zero (entryAt slot r (128 * quad)) (entryAt slot r (128 * quad) + 512)) m

/-- A slot set to +0 in the given quads. -/
def zeroSlot (quads : List Nat) (m : Mem) (slot : Nat) : Mem :=
  if quads.length = 4 then m.zero (slot * 0x40000) ((slot + 1) * 0x40000) else quads.foldl (zeroQuad slot) m

/-- The tag of an ACC field. -/
def accTag (acc : Nat) : Tag := if acc = 0 then .fp32 else if acc = 1 then .int32 else .comp

/-- The slots that a PASS writes: its slot, and the odd one of the pair for compensated accumulation (R67). -/
def passSlots (o : PassOps) : List Nat := if o.acc = 2 then [o.slot, o.slot + 1] else [o.slot]

/-! ### Checks (R152, R298, R58, R67, R88, R95, R100) -/

/-- Whether the operand formats and the accumulator disagree (R58). -/
def accMismatch (a b : TileReg) (acc : Nat) : Bool :=
  let ia := isIntFmt a.fmt a.mx
  let ib := isIntFmt b.fmt b.mx
  ia != ib || (ia && acc != 1) || (!ia && acc == 1)

/-- Whether a PASS fails a check in member `k`. -/
def passBadIn (s : State) (d : Nat) (o : PassOps) (k : Nat) : Bool :=
  let a := tileOf s k o.areg
  let b := tileOf s k o.breg
  a.role != .a || b.role != .b || (o.maskEn && (tileOf s k o.mreg).role != .mask) ||
  xExtent a != 128 || xExtent b != (if deckQuad s d then 128 else 512) ||
  kExtent a != kExtent b || decide (kExtent a < o.k) ||
  tileDiffers s d k o.areg || tileDiffers s d k o.breg || (o.maskEn && tileDiffers s d k o.mreg) ||
  accMismatch a b o.acc || (o.acc == 2 && o.slot % 2 == 1) ||
  (o.add && (passQuads s d o).any (fun qd => (passSlots o).any (fun sl => tagOf (deckOf s k) qd sl != accTag o.acc)))

/-- Whether the skip-map register of a PASS fails R298. -/
def skipBad (s : State) (d : Nat) (o : PassOps) : Bool :=
  let t := tileOf s d o.sreg
  o.skipEn && (t.role != .stash || t.fmt != 8 || t.mx || decide (128 * t.rows16 * t.cols < cdiv o.k 32))

/-- Whether array work of a deck fails R95, R100 or R175: a deck in no gang, or not the lead of its gang. -/
def notLead (s : State) (d : Nat) : Bool := deckFb s d == 15 || (!deckQuad s d && deckLead s d != d)

/-- The deck in which a PASS fails a check. -/
def passBad (s : State) (d : Nat) (o : PassOps) : Option Nat :=
  if notLead s d || skipBad s d o then some d else (arrayDecks s d).find? (passBadIn s d o)

/-! ### Skip maps (R111-R120) -/

/-- The checked operand's register of a PASS. -/
def checkedReg (o : PassOps) : Nat := if o.chkB then o.breg else o.areg

/-- The zero records that match the checked operand at the entry of a PASS, as (deck, record) (R166). -/
def passRecs (s : State) (r : Run) (o : PassOps) : List (Nat × Nat) :=
  r.decks.filterMap (fun k =>
    ((deckOf s k).zrecs.find? (fun z => zrecIs z (boundHalf s r k (checkedReg o)) (tileOf s k (checkedReg o)))).map (fun z => (k, z.id)))

/-- The zero record that the checks of a PASS use in a member, none once it has been removed: one that a later LOAD makes afresh is another record
(R165, R166). -/
def checkRec (s : State) (r : Run) (k : Nat) : Option ZRec :=
  match r.pass.recs.find? (fun e => e.1 == k) with
  | some e => (deckOf s k).zrecs.find? (fun z => z.id == e.2)
  | none => none

/-- Whether the check of block `j` is done: in every member, or its record has been removed (R114, R166).
(DEDUCED, log entry 21.) -/
def checkDone (s : State) (r : Run) (j : Nat) : Bool :=
  r.decks.any (fun k => (checkRec s r k).isNone) ||
  r.decks.all (fun k => match checkRec s r k with
    | some z => (nth (true, true) z.blocks j).1
    | none => true)

/-- Whether block `j` is a miss (R114, R166). (DEDUCED, log entry 21.) -/
def checkMiss (s : State) (r : Run) (j : Nat) : Bool :=
  r.decks.any (fun k => match checkRec s r k with
    | some z => (nth (true, true) z.blocks j).2
    | none => true)

/-! ### The stream (R101, R56-R69) -/

/-- Step groups of K indices [lo, hi): their first index and length; `g` = 0 stands for one index in four cycles (R56, R57). -/
def kGroups (g lo hi : Nat) : List (Nat × Nat) :=
  let n := max g 1
  (List.range (cdiv (hi - lo) n)).map (fun i => (lo + i * n, min n (hi - (lo + i * n))))

/-- The step groups of block `j` of a PASS that runs over K indices [from, upto). -/
def blockGroups (g from_ upto j : Nat) : List (Nat × Nat) := kGroups g (max (32 * j) from_) (min (32 * j + 32) upto)

/-- One step group into an entry: value, error term, and whether it was clamped (R59, R63, R68). -/
def groupStep (acc : Nat) (ps : List (FV × FV)) (v : Word × Word × Bool) : Word × Word × Bool :=
  let g := ps.map (fun p => FV.mul p.1 p.2)
  if acc = 0 then (accFp v.1 g, v.2.1, v.2.2)
  else if acc = 1 then
    let r := accInt v.1 (g.foldl (fun a x => a + FV.scaled 0 x) 0)
    (r.1, v.2.1, v.2.2 || r.2)
  else let r := accComp v.1 v.2.1 g; (r.1, r.2, v.2.2)

/-- The operand pair that a PASS reads in a member now (R147). -/
def operandsOf (s : State) (r : Run) (o : PassOps) (k : Nat) : OperandPair :=
  { deck := k, a := tileOf s k o.areg, ma := bufOf s k (boundHalf s r k o.areg),
    b := tileOf s k o.breg, mb := bufOf s k (boundHalf s r k o.breg) }

/-- Step groups with the operands of every member as they stand. -/
def streamOf (s : State) (r : Run) (o : PassOps) (groups : List (Nat × Nat)) : StreamPart :=
  { groups := groups, ops := r.decks.map (operandsOf s r o) }

/-- The factors of a step group at row `row` of A and column `col` of B. -/
def groupPairs (p : OperandPair) (row col : Nat) (g : Nat × Nat) : List (FV × FV) :=
  (List.range g.2).map (fun i => (operandVal p.ma p.a row (g.1 + i), operandVal p.mb p.b col (g.1 + i)))

/-- The column of the B tile that column `col` of quad `qd` reads (R101, R103). -/
def bColumn (quad : Bool) (qd col : Nat) : Nat := if quad then col else 128 * qd + col

/-- Step groups into every unmasked entry of a member's slot; the answer also lists the quads in which an entry was clamped. -/
def streamDeck (s : State) (r : Run) (o : PassOps) (groups : List (Nat × Nat)) (p : OperandPair) (m : Mem) : Mem × List Nat :=
  ((passQuads s p.deck o).filter (fun qd => !r.pass.masked.contains (p.deck, qd))).foldl
    (fun (x : Mem × List Nat) qd =>
      (List.range 128).foldl
        (fun y row => (List.range 128).foldl
          (fun (z : Mem × List Nat) col =>
            let c := 128 * qd + col
            let v := groups.foldl (fun v g => groupStep o.acc (groupPairs p row (bColumn (deckQuad s p.deck) qd col) g) v)
              (entryOf m o.slot row c, if o.acc = 2 then entryOf m (o.slot + 1) row c else 0, false)
            let m1 := putEntry z.1 o.slot row c v.1
            (if o.acc = 2 then putEntry m1 (o.slot + 1) row c v.2.1 else m1,
             if v.2.2 && !z.2.contains qd then z.2 ++ [qd] else z.2)) y) x) (m, [])

/-- The step groups of a part of the stream go into the slots of a member; the quads in which an entry is clamped join a list. -/
def streamInto (r : Run) (o : PassOps) (groups : List (Nat × Nat)) (a : State × List (Nat × Nat)) (p : OperandPair) :
    State × List (Nat × Nat) :=
  let x := deckOf a.1 p.deck
  let m := streamDeck a.1 r o groups p x.acc
  (setDeck a.1 p.deck { x with acc := m.1 }, a.2 ++ m.2.map (fun qd => (p.deck, qd)))

/-- A part of the stream of a PASS enters: the slots take it, and the run keeps it and the quads in which an entry has been clamped, for which
`settlePass` sets the SAT flags (R64, R65, R101). -/
def streamPart (s : State) (r : Run) (o : PassOps) (x : StreamPart) : State :=
  let p := if x.groups.isEmpty then (s, []) else x.ops.foldl (streamInto r o x.groups) (s, [])
  setRun p.1 { r with pass := { r.pass with streams := r.pass.streams ++ [x], sats := r.pass.sats ++ p.2 } }

/-- The cycles that step groups take at the entry of the array (R104). -/
def streamCycles (g : Nat) (groups : List (Nat × Nat)) : Nat := if g = 0 then 4 * groups.length else groups.length

/-- The fill latency of the array that a PASS of deck `d` runs on (R104). -/
def fillOf (s : State) (d : Nat) : Nat := if deckQuad s d then 256 else 128 * gangM s d + 512 * gangN s d

/-- G of a PASS (R56). -/
def passG (s : State) (d : Nat) (o : PassOps) : Nat := groupG (tileOf s d o.areg).fmt (tileOf s d o.breg).fmt

/-- The blocks of the main stream of a PASS in order, the blocks skipped, and the misses met in place (R116).
(DEDUCED, log entry 21.) -/
def mainBlocks (s : State) (r : Run) (marked : Nat → Bool) (first n : Nat) : List Nat × List Nat × List Nat :=
  ((List.range n).filter (fun j => decide (first ≤ j))).foldl
    (fun a j =>
      if !marked j then (a.1 ++ [j], a.2.1, a.2.2)
      else if checkDone s r j && checkMiss s r j then (a.1 ++ [j], a.2.1, a.2.2 ++ [j])
      else (a.1, a.2.1 ++ [j], a.2.2)) ([], [], [])

/-- The registers of a command bound to physical halves now (R147). -/
def bindNow (s : State) (q c b : Nat) (w : BitVec 256) : List (Nat × Nat × Bool) :=
  (namedRegs s q c b w).map (fun u => (u.1, u.2, physHalf s u.1 (tileOf s u.1 u.2)))

/-- A PASS runs from K index `from_`: it enters every unskipped step group, and keeps what a pre-emption or a replay needs
(R101, R105, R116, R125). The queue command carries the masked quads and the marked blocks (R201, R297); `pre` are the accumulators of the members
before its first step. (DEDUCED, log entries 13, 14.) -/
def enterPass (s : State) (r : Run) (o : PassOps) (from_ : Nat) (clear : Bool) (pre : List (Nat × Mem)) : State :=
  let d := ctxDeck r.q r.c
  let masked := r.cmd.masked
  let whole := r.decks.all (fun k => (passQuads s d o).all (fun qd => masked.contains (k, qd)))
  let r0 := { r with bind := bindNow s r.q r.c r.berth r.cmd.word }
  let recs := passRecs s r0 o
  let useMap := o.skipEn && !whole && recs.length == r.decks.length
  let r1 := { r0 with pass := { r0.pass with recs := recs } }
  let upto := if whole then from_ else o.k
  let g := passG s d o
  let p := mainBlocks s r1 (fun j => useMap && r.cmd.skips.contains j) (from_ / 32) (cdiv upto 32)
  let groups := p.1.flatMap (blockGroups g from_ upto)
  let r2 := { r1 with pass := { r1.pass with
    quad := if deckQuad s d then o.quad else 0, k := o.k, from_ := from_, stream := streamCycles g groups, fill := fillOf s d,
    pre := pre, clear := clear, pend := p.2.1, masked := masked, inPlace := p.2.2 } }
  streamPart s r2 o (streamOf s r2 o groups)

/-- What a PASS in overwrite mode does before its first step: its entries are +0, its tag is set, its SAT flags are clear
(R62, R64, R87, R102, R109). -/
def overwriteSlots (o : PassOps) (quads : List Nat) (s : State) (k : Nat) : State :=
  let x := deckOf s k
  let x1 := { x with acc := (passSlots o).foldl (zeroSlot quads) x.acc }
  setDeck s k (clearSat (putTags x1 quads (passSlots o) (accTag o.acc)) quads (passSlots o))

/-- Whether a run is a PASS of a context on a quad. -/
def passOn (q c quad : Nat) (r : Run) : Bool := r.q == q && r.c == c && opcodeOf r.cmd.word == 0x10 && r.pass.quad == quad

/-- Whether the previous PASS of the same gang or quad has finished entering (R103, R105). -/
def arrayFree (s : State) (q c quad : Nat) : Bool := s.runs.all (fun r => !passOn q c quad r || r.pass.pend.isEmpty)

/-- The passes of a gang or quad that have entered whole are settled: another one enters behind them (R105). -/
def settleArray (s : State) (q c quad : Nat) : State := (s.runs.filter (passOn q c quad)).foldl settlePass s

/-- PASS at the head: checked, then entered (R105, R295-R299). -/
def passAt (s : State) (q c b : Nat) (m : QCmd) (ecc : Ecc) : State :=
  match opOf m.word with
  | .pass o =>
    let d := ctxDeck q c
    match passBad s d o with
    | some k => shapeFail s 0x09 q c b m (some k)
    | none =>
      let f := bufEcc s d ecc
      if !f.2 then refuseHead f.1 q c m
      else
        let s0 := settleArray f.1 q c (if deckQuad s d then o.quad else 0)
        let p := startRun s0 q c b m (arrayDecks s d)
        let s1 := if o.add then p.1 else (arrayDecks s d).foldl (overwriteSlots o (passQuads s d o)) p.1
        match runOf s1 p.2 with
        | some r => enterPass s1 r o 0 (!o.add) ((arrayDecks s d).map (fun k => (k, (deckOf s0 k).acc)))
        | none => s1
  | _ => s

/-- PASS. -/
def execPass (q : Fin 4) (c : Fin 18) (ecc : Ecc) (s : State) : Answer :=
  .next (match headOp s q c 0x10 with
    | some p =>
      match opOf p.2.word with
      | .pass o =>
        if arrayFree s q c (if deckQuad s (ctxDeck q c) then o.quad else 0) then passAt s q c p.1 p.2 ecc else s
      | _ => s
    | none => s)

/-- The oldest PASS of a context on a quad. (DEDUCED, log entry 24.) -/
def oldestPass (s : State) (q c quad : Nat) : Option Run := s.runs.find? (passOn q c quad)

/-- The skipped blocks found to be misses are streamed behind the main stream in ascending order (R117); the checks being done, a PASS that no
pre-emption has stopped has then entered whole. (DEDUCED, log entries 14, 21.) -/
def replayRun (s : State) (r : Run) (o : PassOps) : State :=
  let miss := r.pass.pend.filter (checkMiss s r)
  let g := passG s (ctxDeck r.q r.c) o
  let groups := miss.flatMap (blockGroups g r.pass.from_ o.k)
  let pr := { r.pass with pend := [], misses := r.pass.misses + miss.length,
                          skipped := r.pass.skipped + (r.pass.pend.length - miss.length),
                          stream := r.pass.stream + streamCycles g groups }
  let r1 := { r with pass := pr }
  let s1 := streamPart s r1 o (streamOf s r1 o groups)
  match runOf s1 r.id with
  | some x => if x.pass.cut then showClamps s1 x o.slot else settlePass s1 x
  | none => s1

/-- The PASS of a context and quad that waits to replay. -/
def replayable (s : State) (q c quad : Nat) : Option Run :=
  s.runs.find? (fun r => passOn q c quad r && !r.pass.pend.isEmpty)

/-- SKIP_REPLAY: once the checks of all skipped blocks are complete. -/
def execSkipReplay (q : Fin 4) (c : Fin 18) (quad : Fin 4) (s : State) : Answer :=
  .next (match replayable s q c quad with
    | some r =>
      match opOf r.cmd.word with
      | .pass o => if taskMoves s r.berth && r.pass.pend.all (checkDone s r) then replayRun s r o else s
      | _ => s
    | none => s)

/-- The skip outcomes of a PASS are counted in its lead deck, and misses raise one SKIP_MISS (R119, R120). -/
def countSkips (s : State) (r : Run) : State :=
  let d := ctxDeck r.q r.c
  let x := deckOf s d
  let n := r.pass.misses + r.pass.inPlace.length
  let s1 := setDeck s d { x with skipMiss := satInc x.skipMiss n, skipDone := satInc x.skipDone r.pass.skipped }
  if n = 0 then s1 else raiseBerth s1 1 d 0x0B r.berth n

/-- A PASS completes (R105). -/
def passDone (s : State) (r : Run) : State :=
  let s1 := settlePass s r
  match runOf s1 r.id with
  | some x => runDone (countSkips s1 x) x
  | none => s1

/-- PASS_COMPLETE: passes of one gang or quad complete in order (R105, R106); one that a pre-emption has stopped does not complete. -/
def execPassComplete (q : Fin 4) (c : Fin 18) (quad : Fin 4) (s : State) : Answer :=
  .next (match oldestPass s q c quad with
    | some r => if taskMoves s r.berth && r.pass.pend.isEmpty && !r.pass.cut then passDone s r else s
    | none => s)

/-! ### The state page and the images (R123) -/

/-- The two bits of a tag in the state page. -/
def tagCode : Tag → Nat
  | .none => 0
  | .fp32 => 1
  | .int32 => 2
  | .comp => 3

/-- The tag of two bits. -/
def tagFrom (n : Nat) : Tag := if n = 1 then .fp32 else if n = 2 then .int32 else if n = 3 then .comp else .none

/-- The tags of a deck as a word of the state page. -/
def tagWord (x : Deck) : Nat :=
  (List.range 4).foldl (fun a k => (List.range 4).foldl (fun b s => b + tagCode (tagOf x k s) * 2 ^ (8 * k + 2 * s)) a) 0

/-- The state page of a deck: the copies of suspended PASS commands and their step indices, the marks of the suspended quads,
tags, SAT flags and DK_GANG. (DEDUCED, log entry 43.) -/
def statePage (x : Deck) (cmds : List (Nat × BitVec 256 × Nat)) : List Byte :=
  let find (k : Nat) : Option (Nat × BitVec 256 × Nat) := cmds.find? (fun e => e.1 == k)
  let cmd (k : Nat) : List Byte := match find k with
    | some e => natLe 32 e.2.1.toNat
    | none => natLe 32 0
  let step (k : Nat) : List Byte := match find k with
    | some e => natLe 4 e.2.2
    | none => natLe 4 0
  (List.range 4).flatMap cmd ++ (List.range 4).flatMap step ++
  natLe 4 ((List.range 4).foldl (fun a k => a + flagAt (find k).isSome k) 0) ++
  natLe 4 (tagWord x) ++ natLe 4 x.sat.toNat ++ natLe 4 x.gang.toNat ++ List.replicate 3936 0

/-- The bytes of a slot image. -/
def slotImage (x : Deck) (slot : Nat) : List Byte := x.acc.readBytes (slot * 0x40000) 0x40000

/-- What has been read, in the form it is used in. -/
def readAs {α : Type} (p : State × Option (List Byte)) (f : List Byte → α) : State × Option α := (p.1, p.2.map f)

/-- ACC_PARITY at an entry (R545): the entry that reads wrongly holds an undefined value. (DEDUCED, log entry 20.) -/
def parityHit (s : State) (d loc : Nat) : State :=
  let p := freshWord s
  let x := deckOf p.2 d
  raiseDeck (setDeck p.2 d
    { x with acc := putEntry x.acc (bits loc 1 0) (bits loc 8 2) (bits loc 17 9) (BitVec.ofNat 32 p.1.toNat) }) 0 d 0x01 loc

/-- The parity outcome of a read of accumulator entries. (DEDUCED, log entry 20.) -/
def accEcc (s : State) (d : Nat) : Ecc → State
  | .uncorrectable loc => parityHit s d loc
  | _ => s

/-! ### SAVEACC and RESTACC (R300-R303) -/

/-- The slots that a SLOTS field selects. -/
def slotSet (n : Nat) : List Nat := (List.range 4).filter (bit n)

/-- Whether a selected set splits a compensated pair of a quad (R303). -/
def splitsPair (sel : List Nat) (tag : Nat → Nat → Tag) : Bool :=
  (List.range 4).any (fun k => [0, 2].any (fun p =>
    (tag k p == .comp || tag k (p + 1) == .comp) && (sel.contains p != sel.contains (p + 1))))

/-- The image extents of a deck: the selected slots and the state page. -/
def imageExtents (addr : Nat) (sel : List Nat) : List (Nat × Nat) :=
  sel.map (fun s => (addr + s * 0x40000, 0x40000)) ++ [(addr + 0x100000, 4096)]

/-! ### A slot with a PASS into it still in progress (R89, R90) -/

/-- The passes in progress into a pair of slots of a quad of deck `k`, in the order of their entry. -/
def passesInto (s : State) (k pair quad : Nat) : List (Run × PassOps) :=
  s.runs.filterMap (fun r => match opOf r.cmd.word with
    | .pass o => if r.decks.contains k && o.slot / 2 == pair && (passQuads s k o).contains quad then some (r, o) else none
    | _ => none)

/-- What a PASS in progress does to an entry, one after the other: its start from +0 where it overwrites, and its step groups. -/
def passEvents (s : State) (k quad row col : Nat) (e : Run × PassOps) : List (PassOps × Option (List (FV × FV))) :=
  (if e.1.pass.clear then [(e.2, none)] else []) ++
  (if e.1.pass.masked.contains (k, quad) then []
   else e.1.pass.streams.flatMap (fun x => (x.ops.filter (fun p => p.deck == k)).flatMap (fun p =>
     x.groups.map (fun g => (e.2, some (groupPairs p row (bColumn (deckQuad s k) quad col) g))))))

/-- One of these in the entries of an even slot and the odd one behind it. -/
def pairEvent (v : Word × Word) (e : PassOps × Option (List (FV × FV))) : Word × Word :=
  let f (x : Word × Word × Bool) : Word × Word × Bool := match e.2 with
    | none => (0, 0, false)
    | some ps => groupStep e.1.acc ps x
  if e.1.acc = 2 then ((f (v.1, v.2, false)).1, (f (v.1, v.2, false)).2.1)
  else if e.1.slot % 2 = 0 then ((f (v.1, 0, false)).1, v.2)
  else (v.1, (f (v.2, 0, false)).1)

/-- The accumulators of deck `k` before the first of some passes in progress. -/
def beforePasses (m : Mem) (k : Nat) (l : List (Run × PassOps)) : Mem :=
  match l with
  | e :: _ => (match e.1.pass.pre.find? (fun p => p.1 == k) with
    | some p => p.2
    | none => m)
  | [] => m

/-- The entries of a pair of slots of a quad as a read port finds them part way through the passes in progress: how far each entry has come is left
open, and no entry is a mixture (R89, R90, log entry 14). -/
def partWay (s : State) (k base : Nat) (m : Mem) (u : Nat × Nat) : Mem :=
  let l := passesInto s k u.1 u.2
  let pre := beforePasses m k l
  (List.range 128).foldl (fun a row => (List.range 128).foldl (fun z col =>
    let c := 128 * u.2 + col
    let es := l.flatMap (passEvents s k u.2 row col)
    let n := (Config.freeWord (base + row * 512 + c)).toNat % (es.length + 1)
    let v := (es.take n).foldl pairEvent (entryOf pre (2 * u.1) row c, entryOf pre (2 * u.1 + 1) row c)
    putEntry (putEntry z (2 * u.1) row c v.1) (2 * u.1 + 1) row c v.2) a) m

/-- What a read port finds in slots of quads of deck `k`: those with a PASS into them still in progress part way through it (R90). -/
def readPort (sel : List (Nat × Nat)) (s : State) (k : Nat) : State :=
  let hit := (sel.map (fun e => (e.1 / 2, e.2))).eraseDups.filter (fun u => !(passesInto s k u.1 u.2).isEmpty)
  if hit.isEmpty then s
  else
    let x := deckOf s k
    setDeck { s with free := s.free + 131072 } k { x with acc := hit.foldl (fun m u => partWay s k (s.free + u.1 * 65536) m u) x.acc }

/-- What a SAVEACC reads of a deck (R90, R301). -/
def savePort (sel : List Nat) (s : State) (k : Nat) : State :=
  readPort ((List.range 4).flatMap (fun qd => sel.map (fun sl => (sl, qd)))) s k

/-- SAVEACC at the head (R301). -/
def saveaccAt (s : State) (q c b : Nat) (m : QCmd) (parity : Ecc) : State :=
  match opOf m.word with
  | .saveacc sl g a =>
    let d := ctxDeck q c
    let sel := slotSet sl
    if gangScopeBad s d g || deckFb s d == 15 then shapeFail s 0x09 q c b m (some d)
    else
      let decks := addressed s d g
      match decks.find? (fun k => splitsPair sel (tagOf (deckOf s k))) with
      | some k => shapeFail s 0x09 q c b m (some k)
      | none =>
        match firstOutside s b (decks.zipIdx.flatMap (fun k => imageExtents (a * 4096 + k.2 * 0x101000) sel)) with
        | some x => refuseHead (raiseCtx s q c 0x33 b x) q c m
        | none =>
          let s1 := accEcc s d parity
          let s2 := decks.foldl (savePort sel) s1
          let ws := decks.zipIdx.flatMap (fun k =>
            sel.map (fun i => (a * 4096 + k.2 * 0x101000 + i * 0x40000, slotImage (deckOf s2 k.1) i)) ++
            [(a * 4096 + k.2 * 0x101000 + 0x100000, statePage (deckOf s1 k.1) [])])
          let p := startRun { s1 with free := s2.free } q c b m decks
          sendWrites p.1 p.2 q c b decks false false ws
  | _ => s

/-- SAVEACC: once every earlier command of its queue has completed. -/
def execSaveacc (q : Fin 4) (c : Fin 18) (parity : Ecc) (s : State) : Answer :=
  .next (match headOp s q c 0x11 with
    | some p => if queueBusy s q c then s else saveaccAt s q c p.1 p.2 parity
    | none => s)

/-- SAVEACC_COMPLETE. -/
def execSaveaccComplete (q : Fin 4) (c : Fin 18) (s : State) : Answer := .next (completeWrites s q c 0x11)

/-- The tags of a state page. -/
def pageTag (page : List Byte) (k s : Nat) : Tag := tagFrom (bits (leAt page 0x94 4) (8 * k + 2 * s + 1) (8 * k + 2 * s))

/-- A slot of a deck restored from its image and state page, in all four quads (R302). -/
def restoreSlot (page image : List Byte) (x : Deck) (slot : Nat) : Deck :=
  let x1 := { x with acc := (x.acc.zero (slot * 0x40000) ((slot + 1) * 0x40000)).writeBytes (slot * 0x40000) image }
  (List.range 4).foldl (fun y k =>
    let y1 := putTags y [k] [slot] (pageTag page k slot)
    let y2 := clearSat y1 [k] [slot]
    if bit (leAt page 0x98 4) (slotKey k slot) then { y2 with sat := y2.sat ||| BitVec.ofNat 16 (2 ^ slotKey k slot) } else y2) x1

/-- The requester that a deck is by itself, for a berth (R544). -/
def deckRequester (s : State) (b d cls : Nat) : Requester :=
  { level := 1, unit := d, berth := some b, task := (berthOf s b).cur, cls := cls }

/-- One more state page, where every page before it could be read (R340, R352). (DEDUCED, log entry 23.) -/
def readPage (w : Nat → Nat → Requester) (b : Nat) (mem : HbmOutcome) (a : State × Option (List (Nat × Nat × List Byte))) (e : Nat × Nat) :
    State × Option (List (Nat × Nat × List Byte)) :=
  match a.2 with
  | none => a
  | some l => readAs (stepRead a.1 (w e.1 0) b (e.2 + 0x100000) 4096 mem) (fun page => l ++ [(e.1, e.2, page)])

/-- The state pages of decks with the addresses of their images; none where one cannot be read. `w` gives the requester by deck and class. -/
def readPages (w : Nat → Nat → Requester) (b : Nat) (mem : HbmOutcome) (l : List (Nat × Nat)) (s : State) :
    State × Option (List (Nat × Nat × List Byte)) :=
  l.foldl (readPage w b mem) (s, some [])

/-- RESTORE_SHAPE for a deck whose saved DK_GANG differs (R125, R302, R546). -/
def restoreShape (s : State) (b : Nat) (e : Nat × Nat × List Byte) : State :=
  raiseBerth s 1 e.1 0x0C b (leAt e.2.2 0x9C 4 + (deckOf s e.1).gang.toNat * 2 ^ 32)

/-- A slot of a deck restored from its image, where that could be read. -/
def restoreFrom (e : Nat × Nat × List Byte) (i : Nat) (ok : Bool) (p : State × Option (List Byte)) : State × Bool :=
  match p.2 with
  | some img => (setDeck p.1 e.1 (restoreSlot e.2.2 img (deckOf p.1 e.1) i), ok)
  | none => (p.1, false)

/-- One selected slot of a deck whose page has been read. -/
def restoreImage (w : Nat → Nat → Requester) (b : Nat) (mem : HbmOutcome) (e : Nat × Nat × List Byte) (z : State × Bool) (i : Nat) :
    State × Bool :=
  restoreFrom e i z.2 (stepRead z.1 (w e.1 2) b (e.2.1 + i * 0x40000) 0x40000 mem)

/-- Restore selected slots of the decks whose pages have been read, as far as their images can be read. -/
def restoreAll (w : Nat → Nat → Requester) (b : Nat) (mem : HbmOutcome) (sel : List Nat) (l : List (Nat × Nat × List Byte)) (s : State) :
    State × Bool :=
  l.foldl (fun (a : State × Bool) e => sel.foldl (restoreImage w b mem e) a) (s, true)

/-- RESTACC at the head (R302, R303). -/
def restaccAt (s : State) (q c b : Nat) (m : QCmd) (mem : HbmOutcome) : State :=
  match opOf m.word with
  | .restacc sl g a =>
    let d := ctxDeck q c
    let sel := slotSet sl
    let w (_ cls : Nat) : Requester := ctxRequester s q c b cls
    if gangScopeBad s d g || deckFb s d == 15 then shapeFail s 0x09 q c b m (some d)
    else
      let at_ := (addressed s d g).zipIdx.map (fun k => (k.1, a * 4096 + k.2 * 0x101000))
      match firstOutside s b (at_.flatMap (fun e => imageExtents e.2 sel)) with
      | some x => refuseHead (raiseCtx s q c 0x33 b x) q c m
      | none =>
        if !stepRoom s (addressed s d g) then s
        else
          let p := readPages w b mem at_ s
          match p.2 with
          | none => refuseHead p.1 q c m
          | some l =>
            match l.find? (fun e => leAt e.2.2 0x9C 4 != (deckOf s e.1).gang.toNat) with
            | some e => refuseHead (restoreShape p.1 b e) q c m
            | none =>
              match l.find? (fun e => splitsPair sel (pageTag e.2.2)) with
              | some e => shapeFail p.1 0x09 q c b m (some e.1)
              | none =>
                let r := restoreAll w b mem sel l p.1
                if r.2 then headDone r.1 q c b m else refuseHead r.1 q c m
  | _ => s

/-- Whether a PASS of the gang of a deck, or of a quad of it, has not completed; those of a gang run in its lead deck's queue (R302). -/
def arrayBusy (s : State) (d : Nat) : Bool :=
  s.runs.any (fun r => opcodeOf r.cmd.word == 0x10 && (arrayDecks s d).any (fun k => r.decks.contains k))

/-- RESTACC: once every earlier PASS and RESTACC of its gang or deck has completed. -/
def execRestacc (q : Fin 4) (c : Fin 18) (mem : HbmOutcome) (s : State) : Answer :=
  .next (match headOp s q c 0x12 with
    | some p => if queueBusy s q c || arrayBusy s (ctxDeck q c) then s else restaccAt s q c p.1 p.2 mem
    | none => s)

/-! ### Pre-emption and resume of passes (R121-R126) -/

/-- The slots of a PASS as they were before its first step group, put back into a member. (DEDUCED, log entry 14.) -/
def undoPass (o : PassOps) (r : Run) (s : State) (k : Nat) : State :=
  let x := deckOf s k
  let pre := match r.pass.pre.find? (fun e => e.1 == k) with
    | some e => e.2
    | none => x.acc
  let quads := passQuads s k o
  let m := quads.foldl
    (fun a qd => (List.range 128).foldl
      (fun b row => (passSlots o).foldl
        (fun z sl => z.writeBytes (entryAt sl row (128 * qd)) (pre.readBytes (entryAt sl row (128 * qd)) 512)) b) a) x.acc
  setDeck s k { x with acc := if r.pass.clear then (passSlots o).foldl (zeroSlot quads) m else m }

/-- The step groups before K index `step` of those that a PASS has entered, skipped blocks left out. -/
def groupsBefore (r : Run) (g step : Nat) : List (Nat × Nat) :=
  ((List.range (cdiv step 32)).filter (fun j => decide (r.pass.from_ / 32 ≤ j) && !r.pass.pend.contains j)).flatMap
    (blockGroups g r.pass.from_ step)

/-- A PASS that has step groups not yet entered stops before K index `step` (R121): its slots hold what the entered groups give, the clamps among
them show, and skipped blocks lying wholly before the step still await their replay. A marked block that the step divides is checked, and counted,
when the PASS has been re-entered. (DEDUCED, log entry 14.) -/
def cutPass (s : State) (r : Run) (o : PassOps) (step : Nat) : State :=
  let g := passG s (ctxDeck r.q r.c) o
  let groups := groupsBefore r g step
  let s1 := r.decks.foldl (undoPass o r) s
  let r1 := { r with pass := { r.pass with
    k := step, stream := streamCycles g groups, streams := [], sats := [], cut := true,
    inPlace := r.pass.inPlace.filter (fun j => decide (32 * j + 32 ≤ step)),
    pend := r.pass.pend.filter (fun j => decide (32 * j + 32 ≤ step)) } }
  let ops := match r.pass.streams with
    | x :: _ => x.ops
    | [] => []
  let s2 := streamPart s1 r1 o { groups := groups, ops := ops }
  let s3 := match runOf s2 r.id with
    | some x => showClamps s2 x o.slot
    | none => s2
  let x := berthOf s3 r.berth
  setBerth s3 r.berth { x with suspended := x.suspended ++ [{ q := r.q, c := r.c, cmd := r.cmd, quad := r.pass.quad, step := step }] }

/-- Whether a PASS can stop before K index `step` (R121): a first K index not yet entered, which is a multiple of G, lies below K and does not lie
inside a block that was skipped. -/
def cutsAt (s : State) (r : Run) (o : PassOps) (step : Nat) : Bool :=
  decide (r.pass.from_ ≤ step ∧ step < r.pass.k) && step % max 1 (passG s (ctxDeck r.q r.c) o) == 0 &&
    (step % 32 == 0 || !r.pass.pend.contains (step / 32))

/-- Apply the cuts of a pre-emption: each names a running PASS of the berth that has not entered whole for certain, the last of its gang or
quad, and the first K index not yet entered (R121). -/
def cutAll (b : Nat) (cuts : List (Nat × Nat)) (s : State) : State :=
  cuts.foldl
    (fun t e =>
      match runOf t e.1 with
      | some r =>
        match opOf r.cmd.word with
        | .pass o =>
          let last := ((t.runs.filter (passOn r.q r.c r.pass.quad)).getLast?).map (·.id)
          if r.berth == b && last == some r.id && !r.pass.entered && !r.pass.cut && cutsAt t r o e.2 then cutPass t r o e.2 else t
        | _ => t
      | none => t) s

/-- The suspended passes whose copies the state page of deck `k` holds. -/
def pageCmds (s : State) (b k : Nat) : List (Nat × BitVec 256 × Nat) :=
  ((berthOf s b).suspended.filter (fun x => ctxDeck x.q x.c == k)).map (fun x => (x.quad, x.cmd.word, x.step))

/-- Write a deck's four slot images and state page to a save area of `n` bytes at an address (R122, R123); one outside the berth's windows
raises WIN_VIOL (R330). The flag says whether every deck so far has been saved. (DEDUCED, log entry 23.) -/
def saveInto (b : Nat) (late : Option Nat) (a : State × Bool) (k base n : Nat) : State × Bool :=
  match outside a.1 b base n with
  | some v => (raiseBerth a.1 1 k 0x33 b v, false)
  | none =>
    let p := stepWrite a.1 (deckRequester a.1 b k 4) base
      ((List.range 4).flatMap (slotImage (deckOf a.1 k)) ++ statePage (deckOf a.1 k) (pageCmds a.1 b k)) late
    (p.1, a.2 && p.2)

/-- Write a deck to its save area; a deck without one raises WIN_VIOL (R124). -/
def saveDeck (b : Nat) (late : Option Nat) (a : State × Bool) (k : Nat) : State × Bool :=
  match (deckOf a.1 k).saveBase with
  | none => (raiseBerth a.1 1 k 0x33 b 0, false)
  | some base => saveInto b late a k base 0x101000

/-- The passes that a state page says are suspended: their quads, PASS copies and step indices (R123). -/
def pagePasses (page : List Byte) : List (Nat × BitVec 256 × Nat) :=
  ((List.range 4).filter (bit (leAt page 0x90 4))).map (fun k => (k, BitVec.ofNat 256 (leAt page (32 * k) 32), leAt page (0x80 + 4 * k) 4))

/-- The suspended passes of a deck as its state page gives them (R125); what the page does not hold, the slot of the command, its registers in use and
the counts, is the control core's. The page is valid only in the lead deck, or in the deck itself in quad mode (R123). -/
def passesFrom (s : State) (b : Nat) (e : Nat × Nat × List Byte) : List SuspendedPass :=
  let q := e.1 / 4
  let c := 4 * (e.1 % 4) + 1
  if notLead s e.1 then []
  else (pagePasses e.2.2).map (fun p =>
    match (berthOf s b).suspended.find? (fun x => x.q == q && x.c == c && x.quad == p.1) with
    | some x => { x with cmd := { x.cmd with word := p.2.1 }, step := p.2.2 }
    | none => { q := q, c := c, cmd := { word := p.2.1, slot := 0 }, quad := p.1, step := p.2.2 })

/-- Re-enter a suspended PASS from its saved step index (R125): it binds, and reads its mask and its skip map, afresh.
(DEDUCED, log entry 43.) -/
def reenterPass (b : Nat) (s : State) (x : SuspendedPass) : State :=
  match opOf x.cmd.word with
  | .pass o =>
    let p := freshId s
    let d := ctxDeck x.q x.c
    let m := { x.cmd with masked := passMasked s d o, skips := passSkips s d o }
    let r : Run := { id := p.1, q := x.q, c := x.c, berth := b, task := ((berthOf s b).cur.getD 0).toNat, cmd := m,
                     decks := arrayDecks s d, pass := { misses := x.misses, skipped := x.skipped } }
    enterPass { p.2 with runs := p.2.runs ++ [r] } r o x.step false ((arrayDecks s d).map (fun k => (k, (deckOf s k).acc)))
  | _ => s

end Sys2Proof.Machine
end

