-- ==== Sys2Proof/Machine/CollOps.lean ====
section
/-! DEFINITION. Collectives: the plan of a reduction, its segments, when they are ready, sending them, thinning, chains, and the
streams that DRAINs feed (R305, R308, R310, R427, R430, R431, R436-R456). -/

namespace Sys2Proof.Machine

/-! ### The timetable in force (R427, R430, R432) -/

/-- Whether the module is in scheduled mode (R422, R427, R428). (DEDUCED, log entry 35.) -/
def scheduled (s : State) : Bool :=
  (s.time.st == .locked || s.time.st == .holdover || s.time.st == .grandmaster) && s.time.tblOn && !s.time.syncLost &&
    decide (s.time.schedFrom ≤ s.time.tide)

/-- The length of a sailing in nanoseconds. -/
def sailingNs (s : State) : Nat := s.time.sailing * 10

/-- Sailings are numbered from 2^64 cycles before ORIGIN, so that every moment has a sailing with a natural number of the right
place in its cycle (R430). (DEDUCED, log entry 34.) -/
def sailBase (s : State) : Nat := s.time.cycleLen * 2 ^ 64

/-- The number of the sailing that holds a moment of tide time. (DEDUCED, log entry 34.) -/
def sailAt (s : State) (t : Nat) : Nat := (((t : Int) - (s.time.origin : Int)) / (sailingNs s : Int) + (sailBase s : Int)).toNat

/-- The number of the first sailing that begins at or after a moment. (DEDUCED, log entry 34.) -/
def sailFrom (s : State) (t : Nat) : Nat := sailAt s (t + sailingNs s - 1)

/-- When a sailing begins. (DEDUCED, log entry 34.) -/
def sailStart (s : State) (k : Nat) : Int := (s.time.origin : Int) + ((k : Int) - (sailBase s : Int)) * (sailingNs s : Int)

/-- The timetable entry of sailing `k` on logical port `l`. -/
def sailEntry (s : State) (l k : Nat) : Nat := (tget 0 s.time.active (l * 65536 + k % s.time.cycleLen)).toNat

/-- Whether a timetable entry is a local sailing of a connection. -/
def localOf (e n : Nat) : Bool := bits e 63 62 == 1 && bits e 39 27 == n

/-- The split of the port that a logical port is carried on (R381). -/
def splitOf (s : State) (p : Nat) : Nat := regBits s (mgBase + 0x100 + 8 * p) 27 26

/-- The entries of a cycle that are local sailings of a connection; none on a split port. -/
def localEntries (s : State) (n : Nat) : List Nat :=
  let l := (connOf s n).lport
  if splitOf s (portFor s l) != 0 then []
  else ((s.time.active.filter (fun e => e.1 / 65536 == l && localOf e.2.toNat n)).map (fun e => e.1 % 65536)).filter
    (fun k => decide (k < s.time.cycleLen))

/-- The first local sailing of a connection from sailing `k` on; `k` where it has none. -/
def nextLocal (s : State) (n : Nat) (k : Nat) : Nat :=
  let l := s.time.cycleLen
  let waits := (localEntries s n).map (fun e => (e + l - k % l) % l)
  k + waits.foldl min (waits.headD 0)

/-- As many consecutive local sailings from `k` on. -/
def takeLocal (s : State) (n : Nat) : Nat → Nat → List Nat
  | 0, _ => []
  | m + 1, k => let x := nextLocal s n k; x :: takeLocal s n m (x + 1)

/-- The sailings that a starting command takes on a connection for `m` segments or pieces (R437), none outside scheduled mode and
on a connection without local sailings; the last one is noted on the connection. (DEDUCED, log entry 34.) -/
def bindSailings (s : State) (n m : Nat) : State × List Nat :=
  if !scheduled s || (localEntries s n).isEmpty || m == 0 then (s, [])
  else
    let lead := regBits s (ttBase + 0x20) 15 0
    let early := sailFrom s (s.time.tide + lead)
    let k := match (connOf s n).bound with
      | some x => max early (x + 1)
      | none => early
    let l := takeLocal s n m k
    (setConn s n { connOf s n with bound := l.getLast? }, l)

/-- P: how many packets a sailing holds (R431). -/
def sailPackets (s : State) : Nat := (sailingNs s - 150) * 100 / 4222

/-- SEGMAX in bytes: the cap of R431 in scheduled mode on a connection whose sailings the group uses, else 65,536. -/
def segMax (s : State) (sched : Bool) : Nat :=
  if sched && scheduled s then min 65536 (1024 * ((4096 * sailPackets s - 32) / 1024)) else 65536

/-! ### The plan (R447) -/

/-- A segment of the plan: phase (0 reduce, 1 gather), ring step, chunk, first element and elements. -/
structure CollSeg where
  phase : Nat
  step : Nat
  chunk : Nat
  off : Nat
  elems : Nat
deriving DecidableEq, Repr

/-- Whether an all-reduce runs as a relay. -/
def isRelay (kind len n : Nat) : Bool := kind == 0 && len % n != 0

/-- The elements of a chunk. -/
def chunkLen (kind len n : Nat) : Nat := if kind = 2 || isRelay kind len n then len else len / n

/-- One chunk cut into segments of at most `seg` elements. -/
def cutChunk (phase step chunk c seg : Nat) : List CollSeg :=
  (List.range (cdiv c seg)).map (fun i => { phase := phase, step := step, chunk := chunk, off := i * seg, elems := min seg (c - i * seg) })

/-- The ring steps 1 to n − 1. -/
def ringSteps (n : Nat) : List Nat := (List.range (n - 1)).map (· + 1)

/-- The segments that rank `r` of `n` sends, in send order. -/
def sendPlan (n r kind len seg : Nat) : List CollSeg :=
  let c := chunkLen kind len n
  if n < 2 then []
  else if isRelay kind len n then
    (if r < n - 1 then cutChunk 0 (r + 1) 0 c seg else cutChunk 1 1 0 c seg) ++
      (if r + 2 < n then cutChunk 1 (r + 2) 0 c seg else [])
  else
    (if kind = 2 then [] else (ringSteps n).flatMap (fun t => cutChunk 0 t ((r + n - t) % n) c seg)) ++
      (if kind = 1 then [] else (ringSteps n).flatMap (fun t => cutChunk 1 t ((r + n - t + 1) % n) c seg))

/-- The segments that rank `r` of `n` receives. -/
def recvPlan (n r kind len seg : Nat) : List CollSeg :=
  let c := chunkLen kind len n
  if n < 2 then []
  else if isRelay kind len n then
    (if 0 < r then cutChunk 0 r 0 c seg else []) ++ (if r + 1 < n then cutChunk 1 (r + 1) 0 c seg else [])
  else
    (if kind = 2 then [] else (ringSteps n).flatMap (fun t => cutChunk 0 t ((r + n - 1 - t + n) % n) c seg)) ++
      (if kind = 1 then [] else (ringSteps n).flatMap (fun t => cutChunk 1 t ((r + n - t) % n) c seg))

/-- The contributions that a received segment's elements must reach: in the reduce phase those of its step and the own one. -/
def expected (n kind : Nat) (g : CollSeg) : Nat := if g.phase = 0 then g.step + 1 else if kind = 2 then 1 else n

/-- Whether the sum of a received reduce segment ends at this rank. -/
def isFinal (n r kind len : Nat) (g : CollSeg) : Bool :=
  g.phase == 1 || g.step == n - 1 && (if isRelay kind len n then r == n - 1 else g.chunk == r)

/-! ### A run's group and contribution -/

/-- The group that a run now runs over. -/
def runGroup (s : State) (r : Run) : Group :=
  ((berthOf s r.berth).cfg.groups[r.coll.group]?).getD
    { n := 1, rank := 0, next := 0, prev := 0, sched := false, rot := false, chain := 0xFF }

/-- The REDUCE operands of a run; those of an all-reduce of one FP32 element for a NORM. -/
def runReduce (r : Run) : ReduceOps :=
  match opOf r.cmd.word with
  | .reduce o => o
  | _ => { rstream := 0, kind := 0, int32 := false, thin := false, fromHbm := false, group := 0, addr := 0, saddr := 0, eaddr := 0,
           len := 1 }

/-- Whether a run is a NORM. -/
def isNorm (r : Run) : Bool := opcodeOf r.cmd.word == 0x29

/-- Whether a run is a REDUCE or a NORM. -/
def isColl (r : Run) : Bool := opcodeOf r.cmd.word == 0x28 || isNorm r

/-- The plan of a run for sending. -/
def runSends (s : State) (r : Run) : List CollSeg :=
  let g := runGroup s r
  sendPlan g.n g.rank r.coll.kind r.coll.len r.coll.seg

/-- The plan of a run for receiving. -/
def runRecvs (s : State) (r : Run) : List CollSeg :=
  let g := runGroup s r
  recvPlan g.n g.rank r.coll.kind r.coll.len r.coll.seg

/-- Whether the delivered elements are rotated (R449); a relay has no chunks to rotate by. (DEDUCED, log entry 33.) -/
def rotates (g : Group) (k : CollRun) : Bool := g.rot && k.src == 0 && k.kind != 2 && !isRelay k.kind k.len g.n

/-- The place in delivery order of a logical element (R449). In an all-gather the own chunk alone is contributed. -/
def ownPos (g : Group) (k : CollRun) (i : Nat) : Nat :=
  if k.kind = 2 then i - g.rank * k.len
  else if rotates g k then
    let c := k.len / g.n
    (g.rank + 2 * g.n - 1 - i / c) % g.n * c + i % c
  else i

/-- The logical element of the e-th delivered element (R449). -/
def logicalOf (g : Group) (k : CollRun) (e : Nat) : Nat :=
  if k.kind = 2 then g.rank * k.len + e
  else if rotates g k then
    let c := k.len / g.n
    (g.rank + 2 * g.n - 1 - e / c) % g.n * c + e % c
  else e

/-- Whether a run still waits for a read of a device extent. -/
def readsLeft (s : State) (r : Run) (a len : Nat) : Bool :=
  let hit (q : Req) : Bool := !q.write && decide (q.addr < a + len ∧ a < q.addr + q.len)
  r.todo.any hit || s.trk.any (fun t => t.run == r.id && hit t.req)

/-- Whether `n` elements of the own contribution from logical element `i` on are at hand (R450). -/
def ownReady (s : State) (r : Run) (i n : Nat) : Bool :=
  let p := ownPos (runGroup s r) r.coll i
  match r.coll.src with
  | 0 => decide (p + n ≤ r.coll.staged)
  | 1 => !readsLeft s r ((runReduce r).saddr + 4 * p) (4 * n)
  | _ => true

/-- The bytes of `n` elements of the own contribution from logical element `i` on. -/
def ownBytes (s : State) (r : Run) (i n : Nat) : List Byte :=
  let p := ownPos (runGroup s r) r.coll i
  if r.coll.src = 1 then (List.range (4 * n)).map (fun x => tget 0 r.got ((runReduce r).saddr + 4 * p + x))
  else slice r.coll.own (4 * p) (4 * n)

/-- The logical element at which a segment of the plan begins. -/
def segStart (s : State) (r : Run) (g : CollSeg) : Nat :=
  g.chunk * chunkLen r.coll.kind r.coll.len (runGroup s r).n + g.off

/-! ### What is received and added -/

/-- The part of a run that holds the elements of a phase, chunk and offset. -/
def partOf (r : Run) (phase chunk off : Nat) : Option CollPart :=
  r.coll.parts.find? (fun p => p.phase == phase && p.chunk == chunk && p.off == off)

/-- A part replaced or added. -/
def putPart (r : Run) (p : CollPart) : Run :=
  { r with coll := { r.coll with
      parts := p :: r.coll.parts.filter (fun x => !(x.phase == p.phase && x.chunk == p.chunk && x.off == p.off)) } }

/-- Whether the elements of a received segment have all their contributions. -/
def segComplete (s : State) (r : Run) (g : CollSeg) : Bool :=
  match partOf r g.phase g.chunk g.off with
  | some p => p.total == expected (runGroup s r).n r.coll.kind g
  | none => false

/-- The pieces that a segment of the plan sends, once they are ready (R447, R450). -/
def segPieces (s : State) (r : Run) (g : CollSeg) : Option (List CollPiece) :=
  let x := runGroup s r
  let own := if g.phase = 0 then g.step == 1 else r.coll.kind == 2 && g.step == 1
  if own then
    if ownReady s r (segStart s r g) g.elems then
      some [{ contrib := 1, thin := false, unred := false, data := ownBytes s r (segStart s r g) g.elems }]
    else none
  else
    let phase := if g.phase = 1 && g.step == 1 then 0 else g.phase
    match (runRecvs s r).find? (fun y => y.phase == phase && y.chunk == g.chunk && y.off == g.off &&
        (g.phase == 1 || isRelay r.coll.kind r.coll.len x.n || y.step + 1 == g.step)), partOf r phase g.chunk g.off with
    | some y, some p => if p.total = expected x.n r.coll.kind y then some p.pieces else none
    | _, _ => none

/-! ### Adding (R451) -/

/-- The sum of two elements, and whether it saturated. -/
def addElem (int : Bool) (a b : Word) : Word × Bool :=
  if int then
    let v := i32 a + i32 b
    (BitVec.ofInt 32 (clamp32 v), clamp32 v != v)
  else (add32 a b, false)

/-- The sums of the elements of two byte lists, and whether one saturated. -/
def addBytes (int : Bool) (n : Nat) (a b : List Byte) : List Byte × Bool :=
  let l := (List.range n).map (fun i =>
    addElem int (BitVec.ofNat 32 (leAt a (4 * i) 4)) (BitVec.ofNat 32 (leAt b (4 * i) 4)))
  (l.flatMap (fun e => natLe 4 e.1.toNat), l.any (·.2))

/-! ### Thinning (R455) -/

/-- One thinned block: the record, and the new error words. `n` numbers the sum of unspecified order. -/
def thinBlock (n : Nat) (g m : List Word) : List Byte × List Word :=
  let x := (g.zip m).map (fun e => add32 e.1 e.2)
  let sum := sum32 n (x.map (fun w => if (f32 w).isNan then w else BitVec.ofNat 32 (w.toNat % 2 ^ 31)))
  let sg := div32 sum (rne32 (FV.ofInt (x.length : Int)))
  let neg (w : Word) : Bool := !(f32 w).isNan && bit w.toNat 31
  let signs := (List.range 32).map (fun j =>
    BitVec.ofNat 8 ((List.range 8).foldl (fun a i => a + flagAt (decide (8 * j + i < x.length) && neg (nth 0 x (8 * j + i))) i) 0))
  let d (w : Word) : Word := if neg w then rne32 (FV.negate (f32 sg)) else sg
  (natLe 4 sg.toNat ++ signs, x.map (fun w => sub32 w (d w)))

/-- The words of a byte list. -/
def wordsOf (l : List Byte) : List Word := (List.range (l.length / 4)).map (fun i => BitVec.ofNat 32 (leAt l (4 * i) 4))

/-- Thinned data of elements with their error words: the records, and the new error words. -/
def thinData (n : Nat) : Nat → List Word → List Word → List Byte × List Word
  | 0, _, _ => ([], [])
  | fuel + 1, g, m =>
    if g.isEmpty then ([], [])
    else
      let a := thinBlock (n + fuel) (g.take 256) (m.take 256)
      let b := thinData n fuel (g.drop 256) (m.drop 256)
      (a.1 ++ b.1, a.2 ++ b.2)

/-- The elements of thinned data (R455). -/
def unthin (data : List Byte) (n : Nat) : List Byte :=
  (List.range n).flatMap (fun i =>
    let rec36 := slice data (i / 256 * 36) 36
    let sg := leAt rec36 0 4
    let neg := bit (leAt rec36 (4 + i % 256 / 8) 1) (i % 8)
    natLe 4 (if neg then rne32 (FV.negate (f32 (BitVec.ofNat 32 sg))) else BitVec.ofNat 32 sg).toNat)

/-- Whether a piece is thinned as it is sent: it carries this module's contribution alone. In chained groups nothing is thinned, since what they
send is a sum. (DEDUCED, log entry 33.) -/
def thins (r : Run) (g : CollSeg) (p : CollPiece) : Bool :=
  (runReduce r).thin && p.contrib == 1 && g.phase == 0 && !r.coll.chained && !p.thin

/-- The words of the error memory for a segment of the plan (R455). -/
def errorExtent (s : State) (r : Run) (g : CollSeg) : Nat × Nat := ((runReduce r).eaddr * 64 + 4 * segStart s r g, 4 * g.elems)

/-- Whether the error words of a segment have been read. -/
def errorReady (s : State) (r : Run) (g : CollSeg) : Bool :=
  let e := errorExtent s r g
  thas r.got e.1 && !readsLeft s r e.1 e.2

/-- The pieces that a segment of the plan sends, once they and the error words that thinning needs are ready (R450, R455). -/
def readyPieces (s : State) (r : Run) (g : CollSeg) : Option (List CollPiece) :=
  match segPieces s r g with
  | some ps => if ps.any (thins r g) && !errorReady s r g then none else some ps
  | none => none

/-- The error words that the next segment of the plan needs are read, once, as transactions of the class of source reads.
(DEDUCED, log entry 33.) -/
def askError (s : State) (id : Nat) : State :=
  match runOf s id with
  | none => s
  | some r =>
    match (runSends s r)[r.coll.next]? with
    | none => s
    | some g =>
      let e := errorExtent s r g
      match segPieces s r g with
      | some ps =>
        if ps.any (thins r g) && !thas r.got e.1 && !readsLeft s r e.1 e.2
        then issueRun (setRun s { r with todo := r.todo ++ readReqs 3 [20] e.1 e.2 }) id else s
      | none => s

/-- A piece is thinned as it is sent, with the error words that have been read; their new values are written as class-4 transactions of the
run (R455). -/
def thinPiece (s : State) (r : Run) (g : CollSeg) (p : CollPiece) : State × CollPiece :=
  let n := p.data.length / 4
  let a := (errorExtent s r g).1
  let words := wordsOf ((List.range (4 * n)).map (fun i => tget 0 r.got (a + i)))
  let t := thinData s.free (n / 256 + 1) (wordsOf p.data) words
  let s1 : State := { s with free := s.free + n / 256 + 1 }
  (issueRun (setRun s1 { r with todo := r.todo ++ writeReqs 4 [20] a (t.2.flatMap (fun w => natLe 4 w.toNat)) }) r.id,
   { p with thin := true, data := t.1 })

/-- A run of the collective engine has lost data or its connection: it fails, and a NORM with nothing in flight ends at once, without its
SFLAG. (DEDUCED, log entry 33.) -/
def loseRun (s : State) (id : Nat) : State :=
  match runOf s id with
  | some r =>
    let s1 := setRun s { r with failed := true }
    if isNorm r && !runBusy s1 id then failRun s1 id else s1
  | none => s

/-! ### Sending (R444) -/

/-- The header of a segment (R444). -/
def segHeader (s : State) (r : Run) (g : CollSeg) (p : CollPiece) (late : Bool) : List Byte :=
  let o := runReduce r
  let x := runGroup s r
  let coord := (regGet s (mgBase + 0x20)).toNat
  let flags := flagAt late 0 + flagAt p.thin 1 + flagAt o.int32 2 + flagAt p.unred 3 + flagAt (g.phase == 1) 4 +
    flagAt (isRelay r.coll.kind r.coll.len x.n) 5
  natLe 1 1 ++ natLe 1 flags ++ natLe 2 g.step ++ natLe 1 o.rstream ++ natLe 1 r.coll.group ++
    natLe 2 (berthOf s r.berth).epoch.toNat ++ natLe 4 r.coll.seq.toNat ++ natLe 2 g.chunk ++ natLe 2 p.contrib ++
    natLe 4 g.off ++ natLe 4 g.elems ++ natLe 2 (bits coord 13 0) ++ natLe 1 (bits coord 21 14) ++ natLe 5 0

/-- One segment goes out as an RDMA WRITE WITH IMMEDIATE on CONN_NEXT; the spec states no address for it.
(DEDUCED, log entry 33.) -/
def sendPiece (s : State) (id : Nat) (g : CollSeg) (late sched : Bool) (p : CollPiece) : State :=
  match runOf s id with
  | none => s
  | some r =>
    let t := if thins r g p then thinPiece s r g p else (s, p)
    match runOf t.1 id with
    | none => t.1
    | some r1 =>
      let n := (runGroup t.1 r1).next
      let w := freshWord t.1
      let bytes := segHeader w.2 r1 g t.2 late ++ t.2.data
      if connUsable w.2 n then
        request w.2 n (.segment id) (packetsOf bytes.length) (.write w.1.toNat bytes (some 0xC0110000)) sched
      else loseRun w.2 id

/-- A segment of the plan is sent: its first piece, then what a fenced lane did not add, as unscheduled traffic (R453). -/
def sendSeg (s : State) (id : Nat) (g : CollSeg) (ps : List CollPiece) (late sched : Bool) : State :=
  let s1 := match ps with
    | [] => s
    | p :: rest => rest.foldl (fun t x => sendPiece t id g late false x) (sendPiece s id g late sched p)
  match runOf s1 id with
  | some r => setRun s1 { r with coll := { r.coll with next := r.coll.next + 1 } }
  | none => s1

/-! ### Results (R448) -/

/-- Result or staged elements go to the logical vector at ADDR. A NORM keeps no vector. -/
def writeVector (s : State) (id i : Nat) (data : List Byte) : State :=
  match runOf s id with
  | some r =>
    if isNorm r then s
    else issueRun (setRun s { r with todo := r.todo ++ writeReqs 4 [20] ((runReduce r).addr + 4 * i) data }) id
  | none => s

/-- The own contribution is written as a result where it is one: the own chunk of an all-gather, and everything in a group of one
member (R447, R448). -/
def writeOwn (s : State) (id : Nat) : State :=
  match runOf s id with
  | some r =>
    let start := if r.coll.kind = 2 then (runGroup s r).rank * r.coll.len else 0
    if !r.coll.ownDone && ownReady s r start r.coll.len then
      let s1 := setRun s { r with coll := { r.coll with ownDone := true } }
      if r.coll.src = 1 then writeVector s1 id start (ownBytes s r start r.coll.len) else s1
    else s
  | none => s

/-- Whether the reduction of a run over its present group is complete at this module: everything sent, received and written. -/
def groupComplete (s : State) (r : Run) : Bool :=
  decide ((runSends s r).length ≤ r.coll.next) && (runRecvs s r).all (segComplete s r) && r.coll.ownDone && !runBusy s r.id

/-- The bytes of the logical vector that a complete all-reduce holds. -/
def resultBytes (s : State) (r : Run) : List Byte :=
  let g := runGroup s r
  if g.n < 2 then ownBytes s r 0 r.coll.len
  else
    let fin := (runRecvs s r).filter (isFinal g.n g.rank r.coll.kind r.coll.len)
    ((fin.foldl (fun (m : Mem) x =>
      match partOf r x.phase x.chunk x.off with
      | some p => m.writeBytes (4 * segStart s r x) (p.pieces.flatMap (fun y => y.data))
      | none => m) ({} : Mem)).readBytes 0 (4 * r.coll.len))

/-! ### Receiving (R445, R446) -/

/-- The segment of the plan that a header names. -/
def headerSeg (h : List Byte) : CollSeg :=
  { phase := bits (leAt h 1 1) 4 4, step := leAt h 2 2, chunk := leAt h 0xC 2, off := leAt h 0x10 4, elems := leAt h 0x14 4 }

/-- The running REDUCE or NORM of a berth with a stream and sequence number. -/
def streamRun (s : State) (b stream seq : Nat) : Option Run :=
  s.runs.find? (fun r => r.berth == b && isColl r && (runReduce r).rstream == stream && r.coll.seq.toNat == seq)

/-- Whether a held segment belongs to a run: connection, stream, EPOCH and OP_SEQ (R445). -/
def segMatches (s : State) (r : Run) (g : Segment) : Bool :=
  g.conn == (runGroup s r).prev && leAt g.header 4 1 == (runReduce r).rstream && leAt g.header 8 4 == r.coll.seq.toNat &&
    leAt g.header 6 2 == (berthOf s r.berth).epoch.toNat

/-- The contributions on their way to the same elements: in the run's part and in the lanes. -/
def contribsOf (s : State) (r : Run) (g : CollSeg) : Nat :=
  (match partOf r g.phase g.chunk g.off with
   | some p => if p.own then p.total - 1 else p.total
   | none => 0) +
  s.ports.foldl (fun a e => e.2.adding.foldl (fun b x =>
    if segMatches s r x && headerSeg x.header == g then b + leAt x.header 0xE 2 else b) a) 0

/-- Whether a segment fits the plan of its run (R446). -/
def segFits (s : State) (r : Run) (x : Segment) : Bool :=
  let g := headerSeg x.header
  let o := runReduce r
  let f := leAt x.header 1 1
  let thin := bit f 1
  let c := leAt x.header 0xE 2
  let max_ := expected (runGroup s r).n r.coll.kind g - (if g.phase = 0 then 1 else 0)
  (runRecvs s r).contains g && bit f 2 == o.int32 &&
    thin == (o.thin && c == 1 && g.phase == 0 && !r.coll.chained) &&
    decide (c ≠ 0 ∧ contribsOf s r g + c ≤ max_) &&
    x.data.length == (if thin then 36 * cdiv g.elems 256 else 4 * g.elems)

/-- A segment that matches a run joins the lane's work, or is discarded with COLL_SEG (R446). -/
def takeSegment (s : State) (p : Nat) (r : Run) (x : Segment) : State :=
  if segFits s r x then
    let y := portOf s p
    setPort s p { y with adding := y.adding ++ [x] }
  else raiseConn s p 0x4B x.conn (leAt x.header 4 1 % 16 + leAt x.header 8 4 * 2 ^ 32)

/-- The segments that the lanes hold for a run are taken up, in arrival order (R445). -/
def feedHeld (s : State) (id : Nat) : State :=
  (List.range 8).foldl (fun t p =>
    let held := (portOf t p).segs
    held.foldl (fun u x =>
      match runOf u id with
      | some r =>
        if segMatches u r x then
          let y := portOf u p
          takeSegment (setPort u p { y with segs := dropFirst (fun z => z == x) y.segs }) p r x
        else u
      | none => u) t) s

/-! ### Starting a group, chains, and going on -/

/-- The run begins over a group: its segment length, the sailings it takes on CONN_NEXT where the group uses them (R436, R437), and
whether it has an own result to write. (DEDUCED, log entry 33.) -/
def beginGroup (s : State) (id : Nat) : State :=
  match runOf s id with
  | none => s
  | some r =>
    let g := runGroup s r
    let use := g.sched && decide (2 ≤ g.n) && !(localEntries s g.next).isEmpty
    let r1 := { r with coll := { r.coll with
      seg := segMax s use / 4, next := 0, parts := [], ownDone := decide (2 ≤ g.n) && r.coll.kind != 2, lastSeg := s.time.mono } }
    let b := if use then bindSailings s g.next (sendPlan g.n g.rank r1.coll.kind r1.coll.len r1.coll.seg).length else (s, [])
    feedHeld (setRun b.1 { r1 with coll := { r1.coll with sails := b.2 } }) id

/-- f of R310. -/
def clipFactor (c n : Word) : Word :=
  match f32 n with
  | .nan => 0x7FC00000
  | .inf neg => if neg then 0x7FC00000 else 0
  | v =>
    if v.isZero then 0x3F800000
    else if bit n.toNat 31 then 0x7FC00000
    else
      let f := div32 c (sqrt32 n)
      if FV.lt (f32 f) (FV.ofInt 1) then f else 0x3F800000

/-- NORM ends (R310): n and f go to the scalar area as transactions of class 4, and when they have been written its SFLAG increments.
(DEDUCED, log entry 33.) -/
def finishNorm (s : State) (r : Run) : State :=
  match opOf r.cmd.word with
  | .norm _ _ nidx fidx c =>
    let a := (berthOf s r.berth).cfg.scalar
    let n : Word := BitVec.ofNat 32 (leAt (resultBytes s r) 0 4)
    if r.outs.isEmpty then
      issueRun (setRun s { r with
        todo := r.todo ++ writeReqs 4 [20] (a + 4 * nidx) (natLe 4 n.toNat) ++ writeReqs 4 [20] (a + 4 * fidx) (natLe 4 (clipFactor c n).toNat),
        outs := [(a + 4 * nidx, 4), (a + 4 * fidx, 4)] }) r.id
    else flagAdd (dropRun s r.id) r.q r.c r.berth (headOf r.cmd.word).sflag 1
  | _ => s

/-- Segments of the plan that are ready go out in send order (R450); those bound to sailings wait for them in scheduled mode. -/
def sendReady (id : Nat) : Nat → State → State
  | 0, s => s
  | fuel + 1, s =>
    match runOf s id with
    | none => s
    | some r =>
      if r.failed then s
      else if scheduled s && decide (r.coll.next < r.coll.sails.length) then askError s id
      else
        match (runSends s r)[r.coll.next]? with
        | none => s
        | some g =>
          match readyPieces s r g with
          | some ps => sendReady id fuel (sendSeg s id g ps false false)
          | none => askError s id

/-- A run of the collective engine goes on as far as it can: it sends what is ready and writes its own result; an all-reduce or NORM
that completes goes on over the group that CHAIN names (R456), and a NORM without one ends. (DEDUCED, log entry 33.) -/
def pump (id : Nat) : Nat → State → State
  | 0, s => s
  | fuel + 1, s =>
    match runOf s id with
    | none => s
    | some r =>
      if isNorm r && r.failed && !runBusy s id then failRun s id
      else if !isColl r || r.failed || !taskMoves s r.berth then s
      else
        let s1 := writeOwn (sendReady id ((runSends s r).length + 1) s) id
        match runOf s1 id with
        | none => s1
        | some r1 =>
          if r1.failed || !groupComplete s1 r1 then s1
          else
            let ch := (runGroup s1 r1).chain
            if r1.coll.kind = 0 && ch != 0xFF then
              let k := { r1.coll with group := ch, own := resultBytes s1 r1, src := 2, chained := true }
              pump id fuel (beginGroup (setRun s1 { r1 with coll := k }) id)
            else if isNorm r1 then finishNorm s1 r1
            else s1

/-! ### XFER (R311, R441) -/

/-- The operands of a running XFER. -/
def runXfer (r : Run) : XferOps :=
  match opOf r.cmd.word with
  | .xfer o => o
  | _ => { conn := 0, imm := false, sched := false, laddr := 0, raddr := 0, len := 0, immval := 0 }

/-- The pieces of an XFER: one for each sailing it took, or the whole of it (R441). -/
def xferPieces (r : Run) : Nat := max 1 r.coll.sails.length

/-- Offset and length of piece `i` of an XFER. -/
def xferPiece (s : State) (r : Run) (i : Nat) : Nat × Nat :=
  let o := runXfer r
  if r.coll.sails.isEmpty then (0, o.len)
  else
    let n := 4096 * sailPackets s
    (i * n, min n (o.len - i * n))

/-- Whether a piece's data has been read from LADDR. -/
def xferReady (s : State) (r : Run) (i : Nat) : Bool :=
  let p := xferPiece s r i
  !readsLeft s r ((runXfer r).laddr + p.1) p.2

/-- The next piece of an XFER goes out; the last one carries the immediate. -/
def sendXfer (s : State) (r : Run) (sched : Bool) : State :=
  let o := runXfer r
  let i := r.coll.next
  let p := xferPiece s r i
  let data := (List.range p.2).map (fun x => tget 0 r.got (o.laddr + p.1 + x))
  let imm : Option Word := if o.imm && i + 1 == xferPieces r then some (BitVec.ofNat 32 o.immval) else none
  if connUsable s o.conn then
    request (setRun s { r with coll := { r.coll with next := i + 1 } }) o.conn (.xfer r.id) (packetsOf p.2)
      (.write ((o.raddr + p.1) % 2 ^ 64) data imm) sched
  else setRun s { r with failed := true }

/-- An XFER sends what it may: pieces bound to sailings wait for them in scheduled mode. -/
def pumpXfer (id : Nat) : Nat → State → State
  | 0, s => s
  | fuel + 1, s =>
    match runOf s id with
    | some r =>
      if opcodeOf r.cmd.word != 0x2A || r.failed || !taskMoves s r.berth || decide (xferPieces r ≤ r.coll.next) then s
      else if scheduled s && decide (r.coll.next < r.coll.sails.length) then s
      else if xferReady s r r.coll.next then pumpXfer id fuel (sendXfer s r false)
      else s
    | none => s

/-- A run of the collective engine goes on: a reduction over as many groups as a berth's table can chain, an XFER piece by piece. -/
def pumpRun (s : State) (id : Nat) : State :=
  match runOf s id with
  | some r => if opcodeOf r.cmd.word = 0x2A then pumpXfer id (xferPieces r + 1) s else pump id 257 s
  | none => s

/-! ### Streams (R199, R305, R308, R449) -/

/-- The REDUCE of a berth that is running on a stream and takes rows of DRAINs (R305, R308). -/
def streamReduce (s : State) (b stream : Nat) : Option Run :=
  s.runs.find? (fun r => r.berth == b && (match opOf r.cmd.word with
    | .reduce o => o.rstream == stream && !o.fromHbm && decide (r.coll.staged < o.len)
    | _ => false))

/-- Whether a run is a DRAIN of a berth that has rows for a stream. -/
def feedsStream (b stream : Nat) (r : Run) : Bool :=
  r.berth == b && !r.rows.isEmpty && (match opOf r.cmd.word with
    | .drain o => o.rstream == stream
    | _ => false)

/-- The DRAIN of a berth whose rows come next on a stream. -/
def streamDrain (s : State) (b stream : Nat) : Option Run := s.runs.find? (feedsStream b stream)

/-- No REDUCE is running on a stream: the rows of each DRAIN for it are held, and its wait is timed from when its first row is (R265, R305). -/
def holdRows (s : State) (b stream : Nat) : State :=
  (s.runs.filter (feedsStream b stream)).foldl (fun t r => setRun t { r with drainHeld := some (r.drainHeld.getD (timerStart s)) }) s

/-- A REDUCE is running on a stream: the waits of the DRAINs for it have ended (R305). -/
def endHolds (s : State) (b stream : Nat) : State :=
  (s.runs.filter (feedsStream b stream)).foldl (fun t r => setRun t { r with drainHeld := none }) s

/-- Whether a DRAIN run sends INT32: it kept that when it started, in the format field of its descriptor copy. -/
def runSendsInt (r : Run) : Bool := r.desc.mfmt == 8

/-- Delivered elements cut where their logical places are not consecutive: pairs of logical element and bytes. -/
def stagePieces (g : Group) (k : CollRun) : Nat → Nat → List Byte → List (Nat × List Byte)
  | 0, _, _ => []
  | fuel + 1, e, data =>
    if data.isEmpty then []
    else
      let c := if rotates g k then k.len / g.n else k.len
      let n := min (c - e % c) (data.length / 4)
      (logicalOf g k e, data.take (4 * n)) :: stagePieces g k fuel (e + n) (data.drop (4 * n))

/-- Elements reach a REDUCE: they are its contribution, and are staged into the logical vector at ADDR (R449). -/
def stageElems (s : State) (id : Nat) (data : List Byte) : State :=
  match runOf s id with
  | some e =>
    let g := runGroup s e
    let ps := stagePieces g e.coll (g.n + 2) e.coll.staged data
    let e1 := { e with coll := { e.coll with own := e.coll.own ++ data, staged := e.coll.staged + data.length / 4 } }
    pumpRun (ps.foldl (fun t p => writeVector t id p.1 p.2) (setRun s e1)) id
  | none => s

/-- Deliver rows on a stream (R305, R308): elements go to the running REDUCE up to its LEN; a REDUCE of another DTYPE makes the DRAIN
fail; rows without a REDUCE are held. -/
def deliverRows (b stream : Nat) : Nat → State → State
  | 0, s => s
  | fuel + 1, s =>
    match streamReduce s b stream with
    | none => holdRows s b stream
    | some e =>
      match streamDrain s b stream with
      | none => s
      | some r =>
        let s1 := endHolds s b stream
        if (runReduce e).int32 != runSendsInt r then
          deliverRows b stream fuel (failRun (raiseShape s1 0x09 r.q r.c b r.cmd (some (ctxDeck r.q r.c))) r.id)
        else
          let n := min (4 * ((runReduce e).len - e.coll.staged)) r.rows.length
          deliverRows b stream fuel (stageElems (setRun s1 { r with rows := r.rows.drop n, drainHeld := none }) e.id (r.rows.take n))

end Sys2Proof.Machine
end

