-- ==== Sys2Proof/Machine/Memory.lean ====
section
/-! DEFINITION. The memory system: transactions completing, refresh, allotments, arbitration ranks, and the prefetch store
(R312-R352). -/

namespace Sys2Proof.Machine

/-- A tracker entry. -/
def trkOf (s : State) (id : Nat) : Option Trk := s.trk.find? (fun t => t.id == id)

/-- A tracker entry is released (R334). -/
def freeTrk (s : State) (id : Nat) : State := { s with trk := s.trk.filter (fun t => t.id != id) }

/-- The task of a transaction: the task that its run served, while it is still the current one (R323). -/
def trkTask (s : State) (t : Trk) : Option Word :=
  match t.berth with
  | some b => if (berthOf s b).cur = some (BitVec.ofNat 32 t.task) then some (BitVec.ofNat 32 t.task) else none
  | none => none

/-- The requester of a transaction. -/
def trkRequester (s : State) (t : Trk) : Requester :=
  { level := (reqUnit t.unit16).1, unit := (reqUnit t.unit16).2, berth := t.berth, task := trkTask s t, cls := t.req.cls }

/-- The pieces of a transaction. -/
def trkPieces (s : State) (id : Nat) : List Piece := s.fabric.pieces.filter (fun x => x.trk == id)

/-- Whether a piece has left its bank queue. -/
def pieceServed (x : Piece) : Bool :=
  match x.st with
  | .granted _ => true
  | _ => false

/-- Whether every piece of a read has been served, so that its data can be delivered (R315, R334). -/
def readServed (s : State) (id : Nat) : Bool := (trkPieces s id).all pieceServed

/-- The pieces of a transaction that is over leave the fabric. -/
def dropPieces (s : State) (id : Nat) : State := setPieces s (s.fabric.pieces.filter (fun x => x.trk != id))

/-- The run of a transaction fails: it has lost data (R322, R339). -/
def failReads (s : State) (id : Nat) : State := loseRun s id

/-- Whether a gather thread waits for a transaction. -/
def threadWaits (s : State) (t : Trk) : Bool := (quayOf s t.q).threads.any (fun e => e.2.waiting.contains t.id)

/-- A transaction of a thread has completed with the bytes it read. -/
def threadTake (id : Nat) (cells : List Host.Cell) (t : Thread) : Thread :=
  if t.waiting.contains id then
    { t with waiting := t.waiting.filter (fun w => w != id), got := cells.foldl (fun g c => tput g c.1 c.2) t.got }
  else t

/-- The bytes that the pieces of a read have taken, with their addresses, as the error code has found them. -/
def readCells (s : State) (id : Nat) (found : List Host.Cell) : List Host.Cell :=
  (trkPieces s id).flatMap (fun x => x.data.zipIdx.map (fun v => (x.addr + v.2, tget v.1 found (x.addr + v.2))))

/-- The poisoned blocks that a read has met. -/
def readPoison (s : State) (id : Nat) : List Nat := (trkPieces s id).flatMap (·.bad)

/-- A read delivers its data to the thread or the run that waits for it (R334). -/
def deliver (s : State) (t : Trk) (cells : List Host.Cell) : State :=
  if threadWaits s t then
    let q := quayOf s t.q
    setQuay s t.q { q with threads := q.threads.map (fun e => (e.1, threadTake t.id cells e.2)) }
  else
    match runOf s t.run with
    | some r => setRun s { r with got := cells.foldl (fun g c => tput g c.1 c.2) r.got }
    | none => s

/-- The thread that waits for a transaction is discarded: its position is not performed. -/
def dropThread (s : State) (t : Trk) : State :=
  let q := quayOf s t.q
  setQuay s t.q { q with threads := q.threads.filter (fun e => !e.2.waiting.contains t.id) }

/-- The consumer receives poison (R322): it raises POISON_READ unless RS_UNCORR stands in for it, and what it does fails. -/
def takePoison (s : State) (t : Trk) (standIn : Bool) (a : Nat) : State :=
  let w := trkRequester s t
  let s1 := if standIn then s else raiseReq s w w.level w.unit 0x32 (poisonDetail s a)
  failReads (dropThread s1 t) t.run

/-- What a read finds as its pieces have been served (R318-R322): the state with what has been counted, poisoned and raised, the bytes found
other than they were, whether the read itself found a block uncorrectable, and the poisoned blocks that it has met. The erroneous symbols
and the stack's own corrections are the operands. (DEDUCED, log entry 27.) -/
def readFinds (s : State) (t : Trk) (errs : List BlockErr) (onDie : Nat) : State × List Host.Cell × Bool × List Nat :=
  let good := errs.filter (fun e => !(readPoison s t.id).contains (e.addr / 32 * 32))
  let p := readErrors (trkRequester s t) good t.req.addr t.req.len (odeccAdd s t.req.addr onDie)
  (p.1, p.2.1, p.2.2, readPoison s t.id ++ (if p.2.2 then poisonIn p.1 t.req.addr t.req.len else []))

/-- A read transaction completes (R318-R322, R334). -/
def readComplete (s : State) (t : Trk) (errs : List BlockErr) (onDie : Nat) : State :=
  let p := readFinds s t errs onDie
  let s1 := match p.2.2.2 with
    | a :: _ => takePoison p.1 t p.2.2.1 a
    | [] => deliver p.1 t (readCells s t.id p.2.1)
  pumpRun (issueAll (dropPieces (freeTrk s1 t.id) t.id)) t.run

/-- HBM_READ_COMPLETE: the data of a read whose pieces have been served is delivered. -/
def execHbmReadComplete (entry : Nat) (errs : List BlockErr) (onDie : Nat) (s : State) : Answer :=
  .next (match trkOf s entry with
    | some t => if t.req.write || t.req.cls == 5 || !readServed s entry then s else readComplete s t errs onDie
    | none => s)

/-- Whether a piece of a transaction has not entered its bank queue. -/
def pieceOutside (s : State) (id : Nat) : Bool := (trkPieces s id).any (fun x => x.st == .sent || x.st == .waiting)

/-- A write transaction whose pieces are all in their bank queues is complete: its entry is released, and its thread goes on (R334). -/
def writeDone (s : State) (t : Trk) : State :=
  let s1 := freeTrk s t.id
  let q := quayOf s1 t.q
  let s2 := setQuay s1 t.q { q with threads := q.threads.map (fun e => (e.1, threadTake t.id [] e.2)) }
  pumpRun (issueAll s2) t.run

/-- HBM_WRITE_ENQUEUE: the arbiters fill the bank queues (R342); a write all of whose pieces have entered theirs is complete. -/
def execHbmWriteEnqueue (entry : Nat) (s : State) : Answer :=
  .next (match trkOf s entry with
    | some t => if t.req.write then (if pieceOutside (routePieces s) entry then routePieces s else writeDone (routePieces s) t) else s
    | none => s)

/-- Whether a piece of a transaction is not complete (R333): a read's data has not left its bank queue, a write has not entered it. -/
def pieceOpen (x : Piece) : Bool := if x.write then x.st == .sent || x.st == .waiting else !pieceServed x

/-- The lowest-numbered stack that holds an incomplete piece of a transaction (R352). -/
def lowStack (s : State) (t : Trk) : Nat :=
  let l := trkPieces s t.id
  let held := (if l.any pieceOpen then l.filter pieceOpen else l).map (fun x => locStack x.loc)
  held.foldl min (held.headD (stackAt s t.req.addr))

/-- A transaction is abandoned (R339): MEM_TMO, its entry released, read data discarded, the bytes of a write undefined. Its pieces that are in
bank queues are served; the bytes that they still write are undefined. -/
def abandon (s : State) (t : Trk) : State :=
  let w := trkRequester s t
  let s1 := raiseReq s w w.level w.unit 0x35 (lowStack s t * 2 ^ 48 + t.req.cls)
  let s2 := if t.req.write then hbmUndefine s1 t.req.addr t.req.len else s1
  let s3 := failReads (dropThread s2 t) t.run
  let q := quayOf s3 t.q
  let s4 := setQuay s3 t.q { q with fills := q.fills.filter (fun f => f.2.2 != t.id) }
  let s5 := setPieces s4 (s4.fabric.pieces.filter (fun x => !(x.trk == t.id && (x.st == .sent || x.st == .waiting))))
  pumpRun (issueAll (freeTrk s5 t.id)) t.run

/-- MEM_TMO: 1 ms after it took its tracker entry. -/
def execMemTmo (entry : Nat) (s : State) : Answer :=
  .next (match trkOf s entry with
    | some t => if t.start + 1000000 ≤ s.time.mono then abandon s t else s
    | none => s)

/-- A grant is withdrawn (R345): the request waits again as a new request of its class, keeping its entry and its clock, and ARB_HOLD is
raised at the quay of its stack. (DEDUCED, log entry 28.) -/
def withdraw (s : State) (x : Piece) : State :=
  let t : Option Word := match s.trk.find? (fun t => t.id == x.trk) with
    | some t => trkTask s t
    | none => none
  movePiece (raise s 2 (locStack x.loc / 4) 0x2B x.berth t (x.cls + bits x.unit16.toNat 15 8 * 2 ^ 8)) { x with st := .waiting }

/-- ARB_HOLD: a piece of a transaction has held its grant longer than QY_ARB_HOLD_MAX (R345). -/
def execArbHold (entry : Nat) (s : State) : Answer :=
  .next (match (trkPieces s entry).find? (grantOver s) with
    | some x => withdraw s x
    | none => s)

/-- REFRESH_RATE_CHECK (R317): every 1 ms the controller of a stack reads its temperature, and the refresh rate follows. -/
def execRefreshRateCheck (stack : Fin 16) (temperature : Nat) (s : State) : Answer :=
  .next (if populated s stack.val && decide ((stackOf s stack.val).readAt + 1000000 ≤ s.time.mono) then
      setStack s stack.val
        { stackOf s stack.val with temp := BitVec.ofNat 8 (min temperature 255), hot := decide (85 ≤ temperature), readAt := s.time.mono }
    else s)

/-! ### The prefetch store (R349-R351, R363, R367) -/

/-- The set of a line (R363). -/
def lineSet (line : Nat) : Nat := bits line 18 11

/-- Lines with one installed: in a full set of 16 ways it takes the place of the least recently used line. -/
def installLine (lines : List Nat) (line : Nat) : List Nat :=
  let inSet := lines.filter (fun l => lineSet l == lineSet line)
  let kept := if 16 ≤ inSet.length then dropFirst (fun l => lineSet l == lineSet line) lines else lines
  kept ++ [line]

/-- A line used now becomes the most recently used of its set. -/
def touchLine (lines : List Nat) (line : Nat) : List Nat := lines.filter (fun l => l != line) ++ [line]

/-- A prefetch fill returns (R322, R350, R367): dropped when stale, poisoned or already present, installed otherwise. What the read finds
is counted and raised as of any read (R319, R320); a consumer of poison it is not. -/
def fillReturn (s : State) (t : Trk) (f : Nat × Bool × Nat) (errs : List BlockErr) (onDie : Nat) : State :=
  let p := readFinds s t errs onDie
  let x := quayOf p.1 t.q
  let drop := f.2.1 || !p.2.2.2.isEmpty || x.lines.contains f.1
  let s1 := setQuay p.1 t.q { x with fills := dropFirst (fun g => g == f) x.fills,
                                     lines := if drop then x.lines else installLine x.lines f.1 }
  issueAll (dropPieces (freeTrk s1 t.id) t.id)

/-- PREFETCH_FILL_RETURN: the data of a fill whose pieces have been served returns. -/
def execPrefetchFillReturn (q : Fin 4) (line : Nat) (errs : List BlockErr) (onDie : Nat) (s : State) : Answer :=
  .next (match (quayOf s q.val).fills.find? (fun f => f.1 == line) with
    | some f =>
      (match trkOf s f.2.2 with
       | some t => if readServed s t.id then fillReturn s t f errs onDie else s
       | none => s)
    | none => s)

/-! ### Commits (R337, R341) -/

/-- The shadow size of an allotment. -/
def trkShadow (s : State) (n : Nat) : Nat := regBits s (mwBase + 0x200 + 4 * n) 12 0

/-- Whether a commit of the shadows is refused (R337). -/
def trkRefused (s : State) : Bool :=
  decide (4096 < ((List.range 21).map (trkShadow s)).foldl (· + ·) 0) ||
  (List.range 21).any (fun n => decide (trkShadow s n < 4) || (n < 16 && trkShadow s n % 4 != 0))

/-- A commit of the allotment shadows (R337). -/
def commitTrk (s : State) : State :=
  if trkRefused s then { s with trkErr := true }
  else issueAll { s with trkErr := false, trkAlloc := (List.range 21).map (fun n => (n, trkShadow s n)) }

/-- MW_TRK_COMMIT. -/
def execMwTrkCommit (s : State) : Answer := .next (commitTrk s)

/-- QY_ARB_COMMIT: the shadow ranks take effect together (R341). -/
def commitArb (s : State) (q : Nat) : State :=
  { s with arbRank := (List.range 6).foldl (fun t n => tput t (8 * q + n) (regBits s (qyBase q + 0x100 + 4 * n) 2 0)) s.arbRank }

/-- QY_ARB_COMMIT. -/
def execQyArbCommit (q : Fin 4) (s : State) : Answer := .next (commitArb s q.val)

end Sys2Proof.Machine
end

