-- ==== Sys2Proof/Machine/Net.lean ====
section
/-! DEFINITION. Connections: the packets that are accepted, refusals, and the error state with what it does to outstanding requests
(R222, R393, R398-R410, R503). -/

namespace Sys2Proof.Machine

/-! ### The error state (R406-R408) -/

/-- What the failure of an outstanding request does. -/
def failReq (s : State) (x : OutReq) : State :=
  match x.kind with
  | .xfer run => failReads s run
  | .segment run => failReads s run
  | .hold page run =>
    let s1 := failRemote s run page
    match runOf s1 run with
    | some r => setRun s1 { r with stash := [], waitHold := none }
    | none => s1
  | .recall run page => failRecall s run page
  | _ => s

/-- The records that wait for a ring go to the management ring (R502, R503). -/
def moveWaiting (s : State) (b : Nat) : State :=
  let x := landOf s b
  x.waiting.foldl (fun t r => emit t 16 r) (setLand s b { x with waiting := [] })

/-- A connection enters the error state (R406): its outstanding requests fail, CONN_FAIL is raised where `record`, and the waiting
records of a berth whose RING_CONN it is go to the management ring. -/
def connFail (s : State) (n reason : Nat) (record : Bool) : State :=
  let c := connOf s n
  if !c.valid || c.err then s
  else
    let s1 := setConn (dropHeld s n) n { c with err := true, reason := reason, reqs := [], tries := 0, rnrUntil := none }
    let s2 := if record then raiseConn s1 (connPort s n) 0x45 n (n + reason * 2 ^ 16) else s1
    let s3 := c.reqs.foldl failReq s2
    ((List.range 16).filter (fun b => berthDefined s b && (berthOf s b).cfg.ringConn == n)).foldl moveWaiting s3

/-- The reason of R407 that a NAK gives. -/
def nakReason : NakKind → Nat
  | .remoteAccess => 1
  | .invalidRequest => 2
  | _ => 3

/-- The module answers an inbound request with a NAK that ends the connection (R406, R408). -/
def refuseWith (s : State) (n : Nat) (k : NakKind) : State := connFail (answerOn s n (.nak k none)) n (nakReason k) true

/-- An occurrence of an inbound request: it names the berth of its connection and no task (R524). -/
def raiseInbound (s : State) (n level unit code detail : Nat) : State :=
  raise s level unit code (if n = 0 then none else some (connOf s n).berth) none detail

/-- An inbound request that fails a window or key check (R330, R400): WIN_REMOTE against the port, and a remote-access-error
completion. (DEDUCED, log entry 39.) -/
def windowFail (s : State) (p n a : Nat) : State :=
  refuseWith (raiseInbound s n 3 (8 + p) 0x34 (a % 2 ^ 48 + n * 2 ^ 48)) n .remoteAccess

/-- An inbound request that is refused without a record of its own (R35, R36, R43, R251, R618). (DEDUCED, log entry 39.) -/
def accessFail (s : State) (n : Nat) : State := refuseWith s n .remoteAccess

/-! ### Accepting packets (R393, R399) -/

/-- A dropped frame or packet is counted (R399, R413). (DEDUCED, log entry 37.) -/
def countDrop (s : State) (p : Nat) : State :=
  let x := portOf s p
  setPort s p { x with rxDrop := satInc x.rxDrop 1 }

/-- The connection of a packet where R399 accepts it: QPN, source, binding to the receiving logical port and sub-port, ICRC. A
connection in the error state drops every inbound packet (R406). (DEDUCED, log entry 37.) -/
def packetConn (s : State) (k : Packet) : Option Nat :=
  let n := k.dqpn - 0x100
  let c := connOf s n
  if 0x100 ≤ k.dqpn ∧ n < 8192 then
    if connUsable s n && k.sip == c.rip && k.sqpn == c.rqpn && c.lport == lportOf s k.port.val && c.sub == k.sub.val && k.icrcOk
    then some n else none
  else none

/-- Whether a packet can arrive on a port at all: the sub-port's link is up. -/
def portHears (s : State) (k : Packet) : Bool := (linkOf s k.port.val k.sub.val).step == 4

/-- The CNP that a marked data packet draws (R410, R412): at most one per connection every PERIOD_US. -/
def drawCnp (s : State) (k : Packet) (n : Nat) : State :=
  let c := connOf s n
  let period := regBits s (ptBase k.port.val + 0x24) 9 0 * 1000
  let may := match c.cnpAt with
    | some a => decide (a + period ≤ s.time.mono)
    | none => true
  if k.ce && !k.inSailing && may then
    answerOn (setConn s n { c with cnpAt := some s.time.mono }) n .cnp
  else s

/-- How far a packet's PSN lies ahead of the one that its connection expects, half of all PSNs counting as behind (R401).
(PRESUMED, log entry 38.) -/
def psnAhead (c : Conn) (k : Packet) : Nat := (k.psn % 2 ^ 24 + 2 ^ 24 - c.rqPsn % 2 ^ 24) % 2 ^ 24

/-- The kinds of request as far as the transport treats them differently: a READ, and one that carries data. -/
inductive Carried where
  | read
  | data
deriving DecidableEq, Repr

/-- An inbound packet of a request: dropped and counted, or accepted, with its connection (R393, R398, R399, R410). One whose PSN lies ahead
follows a request that has not taken effect, and is answered with a sequence-error NAK; one that repeats a request that has taken effect is
acknowledged again, and a repeated READ is answered again (R401, R403). (DEDUCED and PRESUMED, log entries 37, 38.) -/
def accept (s : State) (k : Packet) (what : Carried) : State × Option Nat :=
  if !portHears s k then (s, none)
  else
    match packetConn s k with
    | none => (countDrop s k.port.val, none)
    | some n =>
      if !carries s n then (countDrop s k.port.val, none)
      else
        let s0 := setConn s n { connOf s n with rxPcp := k.pcp }
        let s1 := if what = .data then drawCnp s0 k n else s0
        let ahead := psnAhead (connOf s1 n) k
        if ahead = 0 then (if k.unsupported then (refuseWith s1 n .invalidRequest, none) else (s1, some n))
        else if ahead < 2 ^ 23 then (answerOn s1 n (.nak .sequence none), none)
        else if what = .read ∧ !k.unsupported then (s1, some n)
        else (answerOn s1 n .ack, none)

/-- The expected PSN of a connection moves on over a request that has taken effect, unless it was a repeated one. -/
def nextPsn (s : State) (n : Nat) (k : Packet) (packets : Nat) : State :=
  let c := connOf s n
  if psnAhead c k = 0 then setConn s n { c with rqPsn := (c.rqPsn + packets) % 2 ^ 24 } else s

/-- A request has taken effect: the expected PSN moves on, and it is acknowledged (R401). (DEDUCED, log entry 38.) -/
def acknowledge (s : State) (n packets : Nat) : State :=
  let c := connOf s n
  answerOn (setConn s n { c with rqPsn := (c.rqPsn + packets) % 2 ^ 24 }) n .ack

/-- The RNR timer that the module's RNR NAKs carry, in nanoseconds (R402). -/
def rnrTimer : Nat := 655360

/-- The answer to a request that finds no buffer (R402, R445, R493, R569): the expected PSN stays, so that no later request of the connection
takes effect before this one (R401). (DEDUCED, log entry 38.) -/
def notReady (s : State) (n : Nat) : State := answerOn s n (.nak .rnr (some rnrTimer))

end Sys2Proof.Machine
end

