-- ==== Sys2Proof/Machine/Sensors.lean ====
section
/-! DEFINITION. The sensors as every purpose reads them (R601, R604, R605), and the alert bits (R612). Sensors are numbered as
the bits of PW_SENSOR_FAIL: 0-15 the decks, 16-19 the quays, 20-21 die E0, 22-23 die E1, 24 VIN, 25 input current, 26 and 27
the coolant inlet and outlet. -/

namespace Sys2Proof.Machine

/-- Sensor `n`. -/
def sensorOf (s : State) (n : Nat) : Sensor := tget {} s.pw.sensors n

/-- The die of a junction sensor: 0 A, 1 B, 2 E0, 3 E1 (R20, R21, R601). -/
def sensorDie (n : Nat) : Nat :=
  if n < 8 then 0 else if n < 16 then 1 else if n < 18 then 0 else if n < 20 then 1 else if n < 22 then 2 else 3

/-- Whether a sensor is there: those of die E1 only where that die is fitted. -/
def sensorFitted (s : State) (n : Nat) : Bool := !(sensorDie n == 3 && decide (n < 24)) || s.fitted.e1

/-- The larger of two readings that may be absent. -/
def maxReading (a b : Option Int) : Option Int :=
  match a, b with
  | some x, some y => some (max x y)
  | some x, none => some x
  | none, y => y

/-- The highest accepted reading of the working junction sensors of a die. -/
def dieWorking (s : State) (die : Nat) : Option Int :=
  ((List.range 24).filter (fun n => sensorDie n == die && sensorFitted s n && !(sensorOf s n).failed)).foldl
    (fun a n => maxReading a (sensorOf s n).val) none

/-- What a junction sensor reads for every purpose (R605). -/
def junction (s : State) (n : Nat) : Option Int :=
  if !sensorFitted s n then none
  else if (sensorOf s n).failed then
    (match dieWorking s (sensorDie n) with
     | some v => some (v + 10)
     | none => some 105)
  else (sensorOf s n).val

/-- The highest reading of the junction sensors of a die. -/
def dieHottest (s : State) (die : Nat) : Option Int :=
  ((List.range 24).filter (fun n => sensorDie n == die)).foldl (fun a n => maxReading a (junction s n)) none

/-- The highest junction reading of the module (R601). -/
def hottest (s : State) : Option Int := (List.range 24).foldl (fun a n => maxReading a (junction s n)) none

/-- The die that the highest junction reading is on. -/
def hottestDie (s : State) : Nat := ((List.range 4).find? (fun d => dieHottest s d == hottest s)).getD 0

/-- A bit of PW_ALERT_STAT sets (R612, R614). Where it is enabled, ALERT_N is asserted again. -/
def alertSet (s : State) (i : Nat) : State :=
  let on := bit (regGet s (pwBase + 0x84)).toNat i
  { s with pw := { s.pw with alert := s.pw.alert ||| BitVec.ofNat 7 (2 ^ i), answered := if on then false else s.pw.answered } }

/-- Whether ALERT_N is asserted (R612). -/
def alertN (s : State) : Bool := (s.pw.alert.toNat &&& (regGet s (pwBase + 0x84)).toNat) % 128 != 0 && !s.pw.answered

end Sys2Proof.Machine
end

