-- ==== Sys2Proof/Machine/Ferry.lean ====
section
/-! DEFINITION. The ferry duties of the management core: message sequences, step barriers, health, reports of silence and the
distribution of timetables (R473-R485). -/

namespace Sys2Proof.Machine

/-! ### Who is who (R460, R473, R475) -/

/-- The module's own system id. -/
def ownSys (s : State) : Nat := regBits s (mgBase + 0x20) 21 14

/-- The module's own device id. -/
def ownDevice (s : State) : Nat := regBits s (mgBase + 0x20) 13 0

/-- GROUP_FM. -/
def groupFm (s : State) : Bool := regBits s (mgBase + 0x24) 31 31 == 1

/-- SYSTEM_FM. -/
def systemFm (s : State) : Bool := regBits s (mgBase + 0x24) 30 30 == 1

/-- GFM_DEVICE. -/
def gfmDevice (s : State) : Nat := regBits s (mgBase + 0x24) 27 14

/-- SFM_DEVICE. -/
def sfmDevice (s : State) : Nat := regBits s (mgBase + 0x24) 13 0

/-- The SYS and DEVICE that an IPv6 address of R377 names. (DEDUCED, log entry 46.) -/
def ipNames (ip : BitVec 128) : Option (Nat × Nat) :=
  let n := ip.toNat
  if bits n 63 56 = 2 ∧ bits n 47 46 = 0 ∧ bits n 31 8 = 0 then some (bits n 55 48, bits n 45 32) else none

/-- Whether a connection carries ferry messages: one of the management berth with MGMT = 1 and CTRL = 1 (R475).
(DEDUCED, log entry 46.) -/
def ferryConn (s : State) (n : Nat) : Bool :=
  let c := connOf s n
  n != 0 && c.valid && c.mgmt && c.ctrl && s.man.mgmtBerth == some c.berth

/-- The lowest-numbered such connection to a peer that is not in the error state (R475). -/
def connTo (s : State) (sys dev : Nat) : Option Nat :=
  (s.conns.map (·.1)).find? (fun n => ferryConn s n && !(connOf s n).err && ipNames (connOf s n).rip == some (sys, dev))

/-! ### Message sequences (R476-R478) -/

/-- The pair state toward a peer. -/
def peerOf (s : State) (sys dev : Nat) : Peer :=
  (s.ferry.peers.find? (fun p => p.sys.toNat == sys && p.device.toNat == dev)).getD
    { sys := BitVec.ofNat 8 sys, device := BitVec.ofNat 14 dev }

/-- The pair state toward a peer, replaced. -/
def setPeer (s : State) (p : Peer) : State :=
  { s with ferry := { s.ferry with
      peers := s.ferry.peers.filter (fun x => !(x.sys == p.sys && x.device == p.device)) ++ [p] } }

/-- A ferry message. -/
def ferryBytes (s : State) (type mseq aseq : Nat) (body : List Byte) : List Byte :=
  natLe 1 type ++ natLe 3 0 ++ natLe 4 mseq ++ natLe 4 aseq ++ natLe 2 (ownDevice s) ++ natLe 1 (ownSys s) ++ natLe 1 0 ++
    natLe 8 s.time.tide ++ slice body 0 40

/-- No usable connection to a peer: FERRY_NOCONN, at most once per second per peer (R475). -/
def noConn (s : State) (sys dev : Nat) : State :=
  if mayReport s 0x59 (sys * 2 ^ 14 + dev) 1000000000 then
    noteReport (raiseChip s 0 0x59 (sys + dev * 2 ^ 8)) 0x59 (sys * 2 ^ 14 + dev)
  else s

/-- Send a message as it stands; whether a connection was there. -/
def ferryOut (s : State) (sys dev : Nat) (msg : List Byte) : State × Bool :=
  match connTo s sys dev with
  | some n => (request s n .ferry 1 (.send msg), true)
  | none => (noConn s sys dev, false)

/-- HELLO: it carries no number of the sequence it concerns (R477, R478). One with NEW = 1 that finds no connection goes ahead of
the next message to the peer. -/
def sendHello (s : State) (sys dev : Nat) (new : Bool) : State :=
  let t := ferryOut s sys dev (ferryBytes s 1 0 (peerOf s sys dev).acted (natLe 1 (flagAt new 0)))
  if new then setPeer t.1 { peerOf t.1 sys dev with owed := !t.2 } else t.1

/-- Send a new message to a peer: it takes the next MSEQ and is kept until acknowledged, the last 256 of them (R477). -/
def ferryTo (s0 : State) (sys dev type : Nat) (body : List Byte) : State :=
  let s := if (peerOf s0 sys dev).owed && (connTo s0 sys dev).isSome then sendHello s0 sys dev true else s0
  let p := peerOf s sys dev
  let t := ferryOut s sys dev (ferryBytes s type (p.mseq + 1) p.acted body)
  if t.2 then
    let kept := p.kept ++ [(p.mseq + 1, natLe 1 type ++ slice body 0 40)]
    setPeer t.1 { p with mseq := p.mseq + 1, kept := kept.drop (kept.length - 256) }
  else t.1

/-- Send kept messages again as new ones, from MSEQ 1. -/
def ferryRestart (s : State) (sys dev : Nat) (old : List (List Byte)) : State :=
  old.foldl (fun t m => ferryTo t sys dev (leAt m 0 1) (m.drop 1)) (setPeer s { peerOf s sys dev with mseq := 0, kept := [] })

/-- Send every kept message above `a` again under its own number. -/
def ferryResend (s : State) (sys dev a : Nat) : State :=
  let p := peerOf s sys dev
  p.kept.foldl (fun t m =>
    if a < m.1 then (ferryOut t sys dev (ferryBytes t (leAt m.2 0 1) m.1 p.acted (m.2.drop 1))).1 else t) s

/-- The messages that an ASEQ acknowledges are kept no longer. -/
def ferryAcked (s : State) (sys dev a : Nat) : State :=
  let p := peerOf s sys dev
  setPeer s { p with kept := p.kept.filter (fun m => decide (a < m.1)) }

/-- The pair starts afresh from HELLO with NEW = 1, and what was never acknowledged is sent as new (R477, R478). -/
def ferryAfresh (s : State) (sys dev : Nat) : State :=
  let old := (peerOf s sys dev).kept.map (·.2)
  ferryRestart (sendHello (setPeer s { peerOf s sys dev with acted := 0 }) sys dev true) sys dev old

/-- A HELLO: without NEW, every message above its ASEQ is sent again, and a gap that reaches beyond the kept ones raises FERRY_SEQ;
with NEW the pair has no history. -/
def takeHello (s : State) (sys dev a : Nat) (new : Bool) : State :=
  if new then
    let p := peerOf s sys dev
    ferryRestart (setPeer s { p with acted := 0 }) sys dev (p.kept.map (·.2))
  else
    let s1 := ferryAcked s sys dev a
    let p := peerOf s1 sys dev
    if p.mseq ≤ a + p.kept.length then ferryResend s1 sys dev a
    else ferryAfresh (raiseChip s1 0 0x5A (dev * 2 ^ 8 + a * 2 ^ 32)) sys dev

/-! ### Step barriers (R479) -/

/-- The body of ARRIVE. -/
def arriveBody (job bseq count : Nat) : List Byte := natLe 2 job ++ natLe 2 0 ++ natLe 4 bseq ++ natLe 4 count

/-- The body of RELEASE. -/
def releaseBody (job bseq : Nat) : List Byte := natLe 2 job ++ natLe 2 0 ++ natLe 4 bseq

/-- A chip flag of a berth increments by the management core (R260, R263): beyond 65,535 it stays and FLAG_OVF is raised; no context
is behind it, so the detail is unstated. -/
def coreFlagUp (s : State) (b i : Nat) : State :=
  let k := FlagKey.chip ((berthOf s b).cfg.cfBase + i)
  let v := flagVal s k + 1
  if v ≤ 65535 then testWaits (flagPut s k v) k
  else
    let w := freshWord s
    raiseBerth w.2 2 (homeQuay s b) 0x23 b w.1.toNat

/-- RELEASE at a module: REL_FLAG of every berth of the job whose BSEQ is the released one. -/
def workerRelease (s : State) (job bseq : Nat) : State :=
  (List.range 16).foldl (fun t b =>
    let x := berthOf t b
    if x.st != .undefined && x.cfg.job == some job && x.bseq.toNat == bseq then
      (match x.cfg.relFlag with
       | some i => coreFlagUp t b i
       | none => t)
    else t) s

/-- The barrier sum of a job and BSEQ at a level. -/
def barrierOf (s : State) (job bseq : Nat) (atSystem : Bool) : Barrier :=
  (s.ferry.barriers.find? (fun x => x.job == job && x.bseq == bseq && x.atSystem == atSystem)).getD
    { job := job, bseq := bseq, sum := 0, from_ := [], atSystem := atSystem }

/-- The barrier sums without one. -/
def dropBarrier (s : State) (job bseq : Nat) (atSystem : Bool) : State :=
  { s with ferry := { s.ferry with
      barriers := s.ferry.barriers.filter (fun x => !(x.job == job && x.bseq == bseq && x.atSystem == atSystem)) } }

/-- A barrier sum replaced. -/
def setBarrier (s : State) (x : Barrier) : State :=
  let t := dropBarrier s x.job x.bseq x.atSystem
  { t with ferry := { t.ferry with barriers := t.ferry.barriers ++ [x] } }

/-- A sum with one ARRIVE more. -/
def addArrive (x : Barrier) (sys dev count : Nat) : Barrier :=
  let k := (BitVec.ofNat 8 sys, BitVec.ofNat 14 dev)
  { x with sum := x.sum + count, from_ := if x.from_.contains k then x.from_ else x.from_ ++ [k] }

/-- RELEASE to every worker that arrived at this group ferrymaster. -/
def groupRelease (s : State) (job bseq : Nat) : State :=
  let x := barrierOf s job bseq false
  x.from_.foldl (fun t k =>
    if k.1.toNat = ownSys t ∧ k.2.toNat = ownDevice t then workerRelease t job bseq
    else ferryTo t k.1.toNat k.2.toNat 3 (releaseBody job bseq)) (dropBarrier s job bseq false)

/-- The roster's entry of a job: GROUP_COUNT and TOTAL. -/
def rosterOf (s : State) (job : Nat) : Option (Nat × Nat) := (s.man.roster.find? (fun e => e.1 == job)).map (·.2)

/-- An ARRIVE for a job that the roster lacks (R479). -/
def noRoster (s : State) (job bseq : Nat) : State := raiseChip s 0 0x5B (job + bseq * 2 ^ 32)

/-- An ARRIVE at the system ferrymaster. -/
def systemArrive (s : State) (sys dev job bseq count : Nat) : State :=
  match rosterOf s job with
  | none => noRoster s job bseq
  | some r =>
    let old := barrierOf s job bseq true
    let x := addArrive old sys dev count
    if old.sum < r.2 ∧ r.2 ≤ x.sum then
      x.from_.foldl (fun t k =>
        if k.1.toNat = ownSys t ∧ k.2.toNat = ownDevice t then groupRelease t job bseq
        else ferryTo t k.1.toNat k.2.toNat 3 (releaseBody job bseq)) (dropBarrier s job bseq true)
    else setBarrier s x

/-- An ARRIVE at a group ferrymaster. -/
def groupArrive (s : State) (sys dev job bseq count : Nat) : State :=
  match rosterOf s job with
  | none => noRoster s job bseq
  | some r =>
    let old := barrierOf s job bseq false
    let x := addArrive old sys dev count
    let s1 := setBarrier s x
    if old.sum < r.1 ∧ r.1 ≤ x.sum then
      (if r.1 = r.2 then groupRelease s1 job bseq
       else if systemFm s1 then systemArrive s1 (ownSys s1) (ownDevice s1) job bseq x.sum
       else ferryTo s1 (ownSys s1) (sfmDevice s1) 2 (arriveBody job bseq x.sum))
    else s1

/-- Whether a sender is a worker of this group ferrymaster's group. -/
def ownWorker (s : State) (sys dev : Nat) : Bool :=
  groupFm s && sys == ownSys s && dev / 256 == ownDevice s / 256

/-- Whether this module sends a report to itself as its group ferrymaster. -/
def selfGroup (s : State) : Bool := groupFm s && gfmDevice s == ownDevice s

/-- BARRIER_ARRIVE (R479). -/
def barrierArrive (s : State) (b : Nat) : State :=
  let x := berthOf s b
  match x.cfg.barFlag with
  | none => s
  | some i =>
    let k := FlagKey.chip (x.cfg.cfBase + i)
    if x.st = .undefined ∨ flagVal s k = 0 then s
    else
      let s1 := setBerth (flagPut s k (flagVal s k - 1)) b { x with bseq := x.bseq + 1 }
      let job := x.cfg.job.getD 0xFFFF
      let n := (x.bseq + 1).toNat
      if selfGroup s1 then groupArrive s1 (ownSys s1) (ownDevice s1) job n 1
      else ferryTo s1 (ownSys s1) (gfmDevice s1) 2 (arriveBody job n 1)

/-- BARRIER_ARRIVE. -/
def execBarrierArrive (b : Fin 16) (s : State) : Answer := .next (barrierArrive s b.val)

/-! ### Health (R481) -/

/-- The uncleared fault records of a class. -/
def uncleared (s : State) (c : Nat) : Nat := (s.fc.recs.filter (fun e => e.2.cls == c)).length

/-- PW_WEAR_EOL and the highest temperature, as two fields. -/
def healthTail (eol : Nat) (temp : Int) : List Byte := natLe 4 eol ++ natLe 2 (unsigned 16 temp)

/-- A worker's HEALTH body: it summarises one module. (DEDUCED, log entry 52.) -/
def healthBody (s : State) : List Byte :=
  ((List.range 6).map (fun c => natLe 2 (uncleared s c))).flatten ++ healthTail s.pw.wearEol.toNat ((hottest s).getD 0) ++
    natLe 2 (((List.range 16).filter (deckFenced s)).foldl (fun a d => a + 2 ^ d) 0) ++
    natLe 1 (((List.range 8).filter (fun p => (portOf s p).state == .fenced)).foldl (fun a p => a + 2 ^ p) 0) ++
    natLe 2 1 ++ natLe 2 0

/-- The address of a worker's body. -/
def workerBody (area w : Nat) : Nat := area + 0x40000000 + 64 * w

/-- Keep a worker's latest body. -/
def groupHealth (s : State) (dev : Nat) (body : List Byte) : State :=
  let w := dev % 256
  let s1 := { s with ferry := { s.ferry with
    heard := tput s.ferry.heard w s.time.mono, kept := if s.ferry.kept.contains w then s.ferry.kept else s.ferry.kept ++ [w] } }
  match s.man.ferryArea with
  | some a => hbmWrite s1 (workerBody a w) (slice body 0 40)
  | none => s1

/-- Keep a group's summary. -/
def systemHealth (s : State) (dev : Nat) (body : List Byte) : State :=
  match s.man.ferryArea with
  | some a => hbmWrite s (a + 0x40008000 + 64 * (dev / 256 % 64)) (slice body 0 40)
  | none => s

/-- The summary of the bodies held: sums, the lowest days to end of life, the highest temperature, the modules, and the timetable
misses. -/
def summaryBody (s : State) (bodies : List (List Byte)) : List Byte :=
  let sum := fun c => min 65535 (bodies.foldl (fun a b => a + leAt b (2 * c) 2) 0)
  let eol := bodies.foldl (fun a b => if leAt b 12 2 < a % 65536 then leAt b 12 4 else a) 0xFFFF
  let temp := (bodies.foldl (fun a b => maxReading a (some (signed 16 (leAt b 16 2)))) none).getD 0
  ((List.range 6).map (fun c => natLe 2 (sum c))).flatten ++ healthTail eol temp ++ natLe 3 0 ++ natLe 2 bodies.length ++
    natLe 2 s.ferry.misses

/-- HEALTH_SEND_TICK: a worker's HEALTH, and a group ferrymaster's summary. -/
def healthTick (s : State) : State :=
  let s1 := if selfGroup s then groupHealth s (ownDevice s) (healthBody s)
    else ferryTo s (ownSys s) (gfmDevice s) 4 (healthBody s)
  if groupFm s1 then
    match s1.man.ferryArea with
    | none => s1
    | some a =>
      let body := summaryBody s1 (s1.ferry.kept.map (fun w => hbmRead s1 (workerBody a w) 40))
      let s2 := { s1 with ferry := { s1.ferry with misses := 0 } }
      if systemFm s2 then systemHealth s2 (ownDevice s2) body else ferryTo s2 (ownSys s2) (sfmDevice s2) 4 body
  else s1

/-- HEALTH_SEND_TICK: once per second (R481). -/
def execHealthSendTick (s : State) : Answer :=
  .next (if due s s.ferry.healthAt 1000000000 then healthTick { s with ferry := { s.ferry with healthAt := some s.time.mono } } else s)

/-! ### Reports of silence (R482-R484) -/

/-- Fifty milliseconds of tide time. -/
def reportWindow : Nat := 50000000

/-- The subject of the overflow window. -/
def overflowKey : Nat × Nat := (0xFF, 0x3FFF)

/-- The window of a subject. -/
def winOf (l : List RepWindow) (k : Nat × Nat) : Option RepWindow := l.find? (fun w => w.sys.toNat == k.1 && w.device.toNat == k.2)

/-- The windows without that of a subject. -/
def winDrop (l : List RepWindow) (k : Nat × Nat) : List RepWindow :=
  l.filter (fun w => !(w.sys.toNat == k.1 && w.device.toNat == k.2))

/-- The key under which a report about a subject joins: its own, or the overflow window where 512 are open. -/
def winKey (l : List RepWindow) (k : Nat × Nat) : Nat × Nat :=
  if (winOf l k).isSome || decide ((winDrop l overflowKey).length < 512) then k else overflowKey

/-- The larger count of a reporter. -/
def addReporter (l : List (Nat × Nat)) (r n : Nat) : List (Nat × Nat) :=
  if l.any (fun e => e.1 == r) then l.map (fun e => if e.1 = r then (r, max e.2 n) else e) else l ++ [(r, n)]

/-- A report joins or opens a window. -/
def joinWindow (l : List RepWindow) (now : Nat) (k0 : Nat × Nat) (reporter count reasons first : Nat) : List RepWindow :=
  let k := winKey l k0
  let w := (winOf l k).getD
    { sys := BitVec.ofNat 8 k.1, device := BitVec.ofNat 14 k.2, at_ := now, reasons := 0, first := first, reporters := [] }
  winDrop l k ++ [{ w with reasons := w.reasons ||| reasons, reporters := addReporter w.reporters reporter count }]

/-- A SILENT at the group ferrymaster, sent by worker `w` at tide time `first`. -/
def groupSilent (s : State) (w sys dev reasons first : Nat) : State :=
  { s with ferry := { s.ferry with groupWins := joinWindow s.ferry.groupWins s.time.tide (sys, dev) w 1 reasons first } }

/-- An EVENT at the system ferrymaster, from group `g`. -/
def systemEvent (s : State) (g : Nat) (body : List Byte) : State :=
  { s with ferry := { s.ferry with
      sysWins := joinWindow s.ferry.sysWins s.time.tide (leAt body 0 1, leAt body 2 2) g (leAt body 8 4) (leAt body 4 1)
        (leAt body 12 8) } }

/-- The body of EVENT. -/
def eventBody (w : RepWindow) (reporters groups : Nat) : List Byte :=
  natLe 1 w.sys.toNat ++ natLe 1 0 ++ natLe 2 w.device.toNat ++ natLe 1 w.reasons ++ natLe 3 0 ++ natLe 4 reporters ++
    natLe 8 w.first ++ natLe 2 groups

/-- The body of SILENT. -/
def silentBody (sys dev reasons first folded : Nat) : List Byte :=
  natLe 1 sys ++ natLe 1 0 ++ natLe 2 dev ++ natLe 1 reasons ++ natLe 3 0 ++ natLe 8 first ++ natLe 2 folded

/-- The limiter of a subject. -/
def silenceOf (s : State) (sys dev : Nat) : Option Silence :=
  s.ferry.silences.find? (fun x => x.sys.toNat == sys && x.device.toNat == dev)

/-- The limiter of a subject, replaced. -/
def setSilence (s : State) (x : Silence) : State :=
  { s with ferry := { s.ferry with
      silences := s.ferry.silences.filter (fun y => !(y.sys == x.sys && y.device == x.device)) ++ [x] } }

/-- A report about a subject leaves: SILENT to the group ferrymaster, and PEER_SILENT (R482). -/
def sendSilent (s : State) (sys dev reasons first folded : Nat) : State :=
  let s1 := raiseChip s 0 0x58 (sys + dev * 2 ^ 8 + reasons * 2 ^ 24)
  let s2 := setSilence s1
    { sys := BitVec.ofNat 8 sys, device := BitVec.ofNat 14 dev, sentAt := s.time.mono, folded := 0, reasons := 0, first := 0 }
  if selfGroup s2 then groupSilent s2 (ownDevice s2 % 256) sys dev reasons s2.time.tide
  else ferryTo s2 (ownSys s2) (gfmDevice s2) 5 (silentBody sys dev reasons first folded)

/-- A trigger of a report about a subject (R482): within 10 ms of the last report it is folded into the next. `reason` is 1 for a
connection's time limit and 2 for a lost landing card. (DEDUCED, log entry 52.) -/
def silentTrigger (s : State) (sys dev reason : Nat) : State :=
  match silenceOf s sys dev with
  | none => sendSilent s sys dev reason s.time.tide 0
  | some x =>
    let first := if x.folded = 0 then s.time.tide else x.first
    if s.time.mono < x.sentAt + 10000000 then
      setSilence s { x with folded := min (x.folded + 1) 65535, reasons := x.reasons ||| reason, first := first }
    else sendSilent s sys dev (x.reasons ||| reason) first x.folded

/-- A connection's time limit passes (R403, R406, R482). -/
def connTimeLimit (s : State) (n : Nat) : State :=
  if connUsable s n then
    let s1 := connFail s n 0 true
    match ipNames (connOf s n).rip with
    | some k => silentTrigger s1 k.1 k.2 1
    | none => s1
  else s

/-- GROUP_WINDOW_CLOSE (R483). -/
def groupClose (s : State) (k : Nat × Nat) : State :=
  match winOf s.ferry.groupWins k with
  | none => s
  | some w =>
    if s.time.tide < w.at_ + reportWindow then s
    else
      let s1 := { s with ferry := { s.ferry with groupWins := winDrop s.ferry.groupWins k } }
      let body := eventBody w w.reporters.length 1
      if systemFm s1 then systemEvent s1 (ownDevice s1 / 256) body else ferryTo s1 (ownSys s1) (sfmDevice s1) 6 body

/-- GROUP_WINDOW_CLOSE. -/
def execGroupWindowClose (sys : BitVec 8) (device : BitVec 14) (s : State) : Answer :=
  .next (groupClose s (sys.toNat, device.toNat))

/-- SYSTEM_WINDOW_CLOSE (R484, R499): one PEER_EVENT record on the management ring. -/
def systemClose (s : State) (k : Nat × Nat) : State :=
  match winOf s.ferry.sysWins k with
  | none => s
  | some w =>
    if s.time.tide < w.at_ + reportWindow then s
    else
      let s1 := { s with ferry := { s.ferry with sysWins := winDrop s.ferry.sysWins k } }
      emit s1 16
        { type := 5, berth := 0xFF, hseq := none, task := 0, tide := s.time.tide,
          body := slice (eventBody w (w.reporters.foldl (fun a e => a + e.2) 0) w.reporters.length) 0 22 }

/-- SYSTEM_WINDOW_CLOSE. -/
def execSystemWindowClose (sys : BitVec 8) (device : BitVec 14) (s : State) : Answer :=
  .next (systemClose s (sys.toNat, device.toNat))

/-- WORKER_SILENT_TIMEOUT (R481): a worker unheard for 3 s counts as if the ferrymaster had reported it itself. -/
def workerSilent (s : State) (w : Nat) : State :=
  let dev := ownDevice s / 256 * 256 + w
  if groupFm s && decide (tget 0 s.ferry.heard w + 3000000000 ≤ s.time.mono) then
    groupSilent { s with ferry := { s.ferry with heard := tput s.ferry.heard w s.time.mono } } (ownDevice s % 256) (ownSys s) dev 0
      s.time.tide
  else s

/-- WORKER_SILENT_TIMEOUT. -/
def execWorkerSilentTimeout (worker : Fin 256) (s : State) : Answer := .next (workerSilent s worker.val)

/-! ### Timetables (R480) -/

/-- The workers of the group that this ferrymaster's manifest holds ferry connections to, but for itself. -/
def workersOf (s : State) : List Nat :=
  (List.range 256).filter (fun w =>
    let dev := ownDevice s / 256 * 256 + w
    dev != ownDevice s && (s.conns.map (·.1)).any (fun n => ferryConn s n && ipNames (connOf s n).rip == some (ownSys s, dev)))

/-- The three registers of a plan in the layout of control space from TT_TBL_BASE_LO: base and epoch. -/
def planWords (base epoch : Nat) : List Byte := natLe 8 base ++ natLe 8 epoch

/-- One worker's images and registers are written through its control window. The spec states no address for the images: it is a
free value. (DESIGN CHOICE, log entry 53.) -/
def planWorker (s : State) (area epoch : Nat) (w : Nat) : State :=
  let dev := ownDevice s / 256 * 256 + w
  match connTo s (ownSys s) dev with
  | none => noConn s (ownSys s) dev
  | some n =>
    let f := freshWord s
    let base := f.1.toNat % 2 ^ 48
    let put := fun (t : State) (a : Nat) (d : List Byte) => request t n .ferry (packetsOf d.length) (.write a d none)
    put (put (put f.2 base (hbmRead s (area + 0x400000 * w) 0x400000)) (ttBase + 0x30) (planWords base epoch)) (ttBase + 0x40)
      (natLe 4 1)

/-- TT_TBL_BASE and TT_TBL_EPOCH of the module itself, and GO. (DESIGN CHOICE, log entry 53.) -/
def planSelf (s : State) (area epoch : Nat) : State :=
  let base := area + 0x400000 * (ownDevice s % 256)
  let w := fun (n i : Nat) => BitVec.ofNat 32 (n / 2 ^ (32 * i))
  let s1 := regSet (regSet s (ttBase + 0x30) (w base 0)) (ttBase + 0x34) (w base 1)
  let s2 := regSet (regSet s1 (ttBase + 0x38) (w epoch 0)) (ttBase + 0x3C) (w epoch 1)
  if s2.time.tblState = .loading then s2
  else { s2 with time := { s2.time with tblState := .loading, tblReject := false, tblLate := false, standby := [] } }

/-- A TIDE_PLAN at a group ferrymaster. (DESIGN CHOICE, log entry 53.) -/
def groupPlan (s : State) (epoch gen : Nat) : State :=
  match s.man.ferryArea with
  | none => s
  | some area =>
    let s1 := (workersOf s).foldl (fun t w => planWorker t area epoch w) s
    planSelf { s1 with ferry := { s1.ferry with plan := some (epoch, gen) } } area epoch

/-- TIMETABLE_MISS_CHECK: at the epoch plus one cycle TT_TBL_STAT of every worker is read; `gens` are the generations read. A worker
whose generation is not the plan's, or that does not answer, is a miss. (DESIGN CHOICE, log entry 53.) -/
def missCheck (s : State) (gens : List (Nat × Nat)) : State :=
  match s.ferry.plan with
  | none => s
  | some p =>
    if s.time.tide < p.1 + s.time.sailing * 10 * s.time.cycleLen then s
    else
      let ws := workersOf s
      let s1 := ws.foldl (fun t w =>
        match connTo t (ownSys t) (ownDevice t / 256 * 256 + w) with
        | some n => request t n .ferry 1 (.read (ttBase + 0x44) 4)
        | none => noConn t (ownSys t) (ownDevice t / 256 * 256 + w)) s
      let missed := (ws.filter (fun w => !gens.any (fun g => g.1 == w && g.2 == p.2))).length +
        (if s.time.tblGen.toNat = p.2 then 0 else 1)
      { s1 with ferry := { s1.ferry with plan := none, misses := min 65535 (s1.ferry.misses + missed) } }

/-- TIMETABLE_MISS_CHECK. -/
def execTimetableMissCheck (gens : List (Nat × Nat)) (s : State) : Answer := .next (missCheck s gens)

/-! ### Receiving (R475-R477) -/

/-- A ferry message on a connection: where it can arrive, it is acknowledged. The sender is what the message names. A message whose
MSEQ is one above the last acted on is acted on by `act sys dev body`; one at or below is discarded; a gap draws HELLO. -/
def ferryTake (s : State) (n type : Nat) (msg : List Byte) (act : State → Nat → Nat → List Byte → State) : State :=
  if ferryConn s n && connUsable s n && carries s n && msg.length == 64 && leAt msg 0 1 == type then
    let s1 := acknowledge s n 1
    let sys := leAt msg 14 1
    let dev := leAt msg 12 2 % 2 ^ 14
    let m := leAt msg 4 4
    let s2 := ferryAcked s1 sys dev (leAt msg 8 4)
    let p := peerOf s2 sys dev
    if m = p.acted + 1 then act (setPeer s2 { p with acted := m }) sys dev (msg.drop 24)
    else if m ≤ p.acted then s2
    else sendHello s2 sys dev false
  else s

/-- FERRY_HELLO. -/
def ferryHello (s : State) (n : Nat) (msg : List Byte) : State :=
  if ferryConn s n && connUsable s n && carries s n && msg.length == 64 && leAt msg 0 1 == 1 then
    takeHello (acknowledge s n 1) (leAt msg 14 1) (leAt msg 12 2 % 2 ^ 14) (leAt msg 8 4) (bit (leAt msg 24 1) 0)
  else s

/-- FERRY_HELLO. -/
def execFerryHello (conn : Fin 8192) (msg : List Byte) (s : State) : Answer := .next (ferryHello s conn.val msg)

/-- What an ARRIVE does. -/
def actArrive (s : State) (sys dev : Nat) (body : List Byte) : State :=
  if ownWorker s sys dev then groupArrive s sys dev (leAt body 0 2) (leAt body 4 4) (leAt body 8 4)
  else if systemFm s then systemArrive s sys dev (leAt body 0 2) (leAt body 4 4) (leAt body 8 4)
  else s

/-- FERRY_ARRIVE. -/
def execFerryArrive (conn : Fin 8192) (msg : List Byte) (s : State) : Answer := .next (ferryTake s conn.val 2 msg actArrive)

/-- What a RELEASE does: a group ferrymaster that holds the barrier passes it on, another module releases its berths. -/
def actRelease (s : State) (_sys _dev : Nat) (body : List Byte) : State :=
  let job := leAt body 0 2
  let bseq := leAt body 4 4
  if groupFm s && s.ferry.barriers.any (fun x => x.job == job && x.bseq == bseq && !x.atSystem) then groupRelease s job bseq
  else workerRelease s job bseq

/-- FERRY_RELEASE. -/
def execFerryRelease (conn : Fin 8192) (msg : List Byte) (s : State) : Answer := .next (ferryTake s conn.val 3 msg actRelease)

/-- What a HEALTH does. -/
def actHealth (s : State) (sys dev : Nat) (body : List Byte) : State :=
  if ownWorker s sys dev then groupHealth s dev body else if systemFm s then systemHealth s dev body else s

/-- FERRY_HEALTH. -/
def execFerryHealth (conn : Fin 8192) (msg : List Byte) (s : State) : Answer := .next (ferryTake s conn.val 4 msg actHealth)

/-- What a SILENT sent at tide time `at_` does. -/
def actSilent (at_ : Nat) (s : State) (sys dev : Nat) (body : List Byte) : State :=
  if ownWorker s sys dev then groupSilent s (dev % 256) (leAt body 0 1) (leAt body 2 2 % 2 ^ 14) (leAt body 4 1) at_ else s

/-- FERRY_SILENT. -/
def execFerrySilent (conn : Fin 8192) (msg : List Byte) (s : State) : Answer :=
  .next (ferryTake s conn.val 5 msg (actSilent (leAt msg 16 8)))

/-- What an EVENT does. -/
def actEvent (s : State) (_sys dev : Nat) (body : List Byte) : State :=
  if systemFm s then systemEvent s (dev / 256) body else s

/-- FERRY_EVENT. -/
def execFerryEvent (conn : Fin 8192) (msg : List Byte) (s : State) : Answer := .next (ferryTake s conn.val 6 msg actEvent)

/-- What a TIDE_PLAN does. -/
def actPlan (s : State) (_sys _dev : Nat) (body : List Byte) : State :=
  if groupFm s then groupPlan s (leAt body 0 8) (leAt body 8 2) else s

/-- FERRY_TIDE_PLAN. -/
def execFerryTidePlan (conn : Fin 8192) (msg : List Byte) (s : State) : Answer := .next (ferryTake s conn.val 7 msg actPlan)

/-- A ferry message by its type; one with a reserved type is discarded (R476). -/
def ferryMsg (s : State) (n : Nat) (msg : List Byte) : State :=
  let t := leAt msg 0 1
  if t = 1 then ferryHello s n msg
  else if t = 2 then ferryTake s n 2 msg actArrive
  else if t = 3 then ferryTake s n 3 msg actRelease
  else if t = 4 then ferryTake s n 4 msg actHealth
  else if t = 5 then ferryTake s n 5 msg (actSilent (leAt msg 16 8))
  else if t = 6 then ferryTake s n 6 msg actEvent
  else if t = 7 then ferryTake s n 7 msg actPlan
  else acknowledge s n 1

/-! ### A new ferrymaster (R473, R474, R478) -/

/-- Toward a new ferrymaster: HELLO with NEW = 1, MSEQ from 1, and every message sent toward the role and never acknowledged. -/
def newMaster (s : State) (old dev : Nat) : State :=
  let kept := (peerOf s (ownSys s) old).kept.map (·.2)
  let up := kept.filter (fun m => [2, 4, 5, 6].contains (leAt m 0 1))
  let s1 := setPeer s { peerOf s (ownSys s) old with kept := [] }
  let s2 := setPeer s1 { peerOf s1 (ownSys s) dev with acted := 0 }
  ferryRestart (sendHello s2 (ownSys s) dev true) (ownSys s) dev up

/-- Whether the module has a sequence with a device of its system. -/
def knownPeer (s : State) (dev : Nat) : Bool :=
  s.ferry.peers.any (fun p => p.sys.toNat == ownSys s && p.device.toNat == dev)

/-- MG_FERRY_WRITE: reserved encodings leave their fields unchanged (R18, R474). -/
def ferryWrite (s : State) (v : Word) : State :=
  let n := v.toNat
  let gf := bits n 31 31
  let sf := bits n 30 30
  let own := ownDevice s
  let gdev := bits n 27 14
  let sdev := bits n 13 0
  let g := if gdev / 256 ≠ own / 256 ∨ (gf = 1 ∧ gdev ≠ own) then gfmDevice s else gdev
  let f := if sf = 1 ∧ sdev ≠ own then sfmDevice s else sdev
  let s1 := regSet s (mgBase + 0x24) (BitVec.ofNat 32 (gf * 2 ^ 31 + sf * 2 ^ 30 + g * 2 ^ 14 + f))
  let s2 := if g ≠ own ∧ (g ≠ gfmDevice s ∨ !knownPeer s g) then newMaster s1 (gfmDevice s) g else s1
  if gf = 1 ∧ f ≠ own ∧ (f ≠ sfmDevice s ∨ !knownPeer s f) then newMaster s2 (sfmDevice s) f else s2

/-- MG_FERRY_WRITE. -/
def execMgFerryWrite (value : Word) (s : State) : Answer := .next (ferryWrite s value)

end Sys2Proof.Machine
end

