-- ==== Sys2Proof/Machine/Timetable.lean ====
section
/-! DEFINITION. Tide time: PTP and its servo, PPS, SYNC_LOST, and loading the timetable (R417-R435). -/

namespace Sys2Proof.Machine

/-- The time unit changed. -/
def setTime (s : State) (f : TimeUnit → TimeUnit) : State := { s with time := f s.time }

/-! ### PTP (R418-R422) -/

/-- GM_EN. -/
def gmEn (s : State) : Bool := regBits s (ttBase + 0x10) 31 31 == 1

/-- DOMAIN. -/
def ptpDomain (s : State) : Nat := regBits s (ttBase + 0x10) 6 0

/-- Whether PTP runs on a sub-port (R389, R393, R419). -/
def ptpRuns (s : State) (p k : Nat) : Bool :=
  (linkOf s p k).step == 4 && ((portOf s p).state == .up || (portOf s p).state == .remapped)

/-- The MAC address of a sub-port, as a number with the first byte highest (R377). -/
def macOf (s : State) (p k : Nat) : Nat :=
  let c := (regGet s (mgBase + 0x20)).toNat
  0x0A * 2 ^ 40 + bits c 21 14 * 2 ^ 32 + bits c 13 8 * 2 ^ 24 + bits c 7 0 * 2 ^ 16 + (p * 16 + k) * 2 ^ 8

/-- The clock identity: the EUI-64 of sub-port 0 of port 0 (R418). (PRESUMED, log entry 61.) -/
def clockId (s : State) : BitVec 64 :=
  let m := macOf s 0 0
  BitVec.ofNat 64 (m / 2 ^ 24 * 2 ^ 40 + 0xFFFE * 2 ^ 24 + m % 2 ^ 24)

/-- Whether PPS_IN disciplines the module (R420, R425): it is grandmaster in discipline mode, and accepted edges follow one another within
1.1 s. -/
def disciplined (s : State) : Bool := s.time.st == .grandmaster && s.time.ppsOk && regBits s (ttBase + 0x14) 30 29 == 2

/-- The clockClass that the module advertises as itself (R420). -/
def ownClass (s : State) : Nat := if !gmEn s then 255 else if disciplined s then 6 else 248

/-- The module's own dataset. The spec states no accuracy and no variance: they are free values. (DEDUCED, log entry 35.) -/
def ownMaster (s : State) : Master :=
  { prio1 := regBits s (ttBase + 0x10) 23 16, clockClass := ownClass s, accuracy := (Config.freeWord (2 ^ 64)).toNat % 256,
    variance := (Config.freeWord (2 ^ 64 + 1)).toNat % 65536, prio2 := regBits s (ttBase + 0x10) 15 8, identity := clockId s,
    steps := 0, at_ := s.time.mono }

/-- The order in which the default algorithm compares datasets: priority1, class, accuracy, variance, priority2, identity, steps.
(DEDUCED and PRESUMED, log entries 35, 61.) -/
def masterKey (m : Master) : List Nat :=
  [m.prio1, m.clockClass, m.accuracy, m.variance, m.prio2, m.identity.toNat, m.steps]

/-- Whether the first list comes before the second. -/
def listLt : List Nat → List Nat → Bool
  | a :: r, b :: t => decide (a < b) || (a == b && listLt r t)
  | _, _ => false

/-- Whether a dataset is better. -/
def betterMaster (a b : Master) : Bool := listLt (masterKey a) (masterKey b)

/-- Three Announce intervals (R418). -/
def announceTmo : Nat := 3000000000

/-- Whether a master counts: PTP runs on the sub-port where it was heard, and it has announced itself within three intervals (R418, R419). -/
def masterCounts (s : State) (e : Nat × Master) : Bool :=
  ptpRuns s (e.1 / 4) (e.1 % 4) && decide (s.time.mono < e.2.at_ + announceTmo)

/-- The best master that counts: its key 4p + k and dataset. -/
def bestMaster (s : State) : Option (Nat × Master) :=
  (s.time.bases.filter (masterCounts s)).foldl
    (fun a e => match a with
      | some b => if betterMaster e.2 b.2 then some e else a
      | none => some e) none

/-- The module becomes grandmaster. -/
def becomeMaster (s : State) : State :=
  setTime s (fun t => { t with st := .grandmaster, slave := none, okSince := none, holdSince := none })

/-- The best master clock algorithm decides (R419, R420): a better master makes its port the slave port; a module that is better
than every master it hears, or disciplined by PPS, is grandmaster where GM_EN = 1. A grandmaster that gives way runs free until it
measures an offset. (DEDUCED, log entry 35.) -/
def decideMaster (s : State) : State :=
  match bestMaster s with
  | none => s
  | some e =>
    let own := ownMaster s
    if gmEn s && (decide (own.clockClass ≤ 127) || betterMaster own e.2) then becomeMaster s
    else
      setTime s (fun t => { t with
        slave := some (e.1 / 4, e.1 % 4), st := if t.st = .grandmaster then .free else t.st })

/-- A write of GM_EN = 0 ends a grandmaster's role (R420). -/
def gmChanged (s : State) : State :=
  decideMaster (if s.time.st == .grandmaster && !gmEn s then setTime s (fun t => { t with st := .free }) else s)

/-- The slave port has lost its master (R422): a locked module enters holdover, one that was locking runs free. -/
def loseMaster (s : State) : State :=
  match s.time.slave with
  | none => s
  | some k =>
    let s1 := setTime s (fun t => { t with
      slave := none, okSince := none, bases := tdel t.bases (4 * k.1 + k.2),
      holdSince := if t.st = .locked then some t.mono else t.holdSince,
      st := if t.st = .locked then .holdover else if t.st = .locking then .free else t.st })
    decideMaster s1

/-- Tide time steps (R421). (DEDUCED, log entry 35.) -/
def stepTime (s : State) (by_ : Int) : State :=
  raiseChip (setTime s (fun t => { t with tide := (((t.tide : Int) + by_) % (2 ^ 64 : Int)).toNat, slew := 0 })) 1 0x50
    (unsigned 64 by_)

/-- SYNC_LOST comes into force (R428). -/
def loseSync (s : State) (detail : Nat) : State :=
  if s.time.syncLost then s else raiseChip (setTime s (fun t => { t with syncLost := true })) 1 0x51 detail

/-- TT_STAT.STATE after a measured offset (R422). (DEDUCED, log entry 35.) -/
def afterOffset (st : TtState) (offset : Int) : TtState :=
  match st with
  | .free => .locking
  | .holdover => if offset.natAbs ≤ 2000 then .locked else .locking
  | x => x

/-- The servo measures an offset of tide time against the master on the slave port (R421, R422, R428): beyond 100 µs it steps, and at the first
offset after a reset, which makes the first lock; else it slews. (DEDUCED, log entry 35.) -/
def measureOffset (s : State) (offset : Int) : State :=
  let s1 := setTime s (fun t => { t with
    st := afterOffset t.st offset, offset := offset, holdSince := none, slew := -offset,
    okSince := if offset.natAbs ≤ 500 then (match t.okSince with
      | some a => some a
      | none => some t.mono) else none })
  let s2 := if 2000 < offset.natAbs then loseSync s1 0 else s1
  if 100000 < offset.natAbs || !s.time.stepped then stepTime (setTime s2 (fun t => { t with stepped := true })) (-offset) else s2

/-- PTP_MESSAGE_RECEIVE: messages of another domain are ignored. A Delay_Req on a master port is answered by a Delay_Resp with its time of
receipt (R418). -/
def ptpReceive (s : State) (p k : Nat) (m : PtpMessage) : State :=
  if !ptpRuns s p k then s
  else
    match m with
    | .announce d p1 cl ac va p2 id st =>
      if d = ptpDomain s then
        decideMaster (setTime s (fun t => { t with
          bases := tput t.bases (4 * p + k) { prio1 := p1, clockClass := cl, accuracy := ac, variance := va, prio2 := p2,
                                              identity := id, steps := st, at_ := t.mono } }))
      else s
    | .sync d o => if d = ptpDomain s ∧ s.time.slave = some (p, k) then measureOffset s o else s
    | .delayReq d =>
      if d = ptpDomain s ∧ s.time.slave ≠ some (p, k) then send s (.delayResp p k [ptpDomain s, s.time.tide]) else s

/-- PTP_MESSAGE_RECEIVE. -/
def execPtpMessageReceive (p : Fin 8) (sub : Fin 4) (msg : PtpMessage) (s : State) : Answer :=
  .next (ptpReceive s p.val sub.val msg)

/-- The dataset that the module announces: its own, or its master's one step further. -/
def announced (s : State) : Master :=
  match s.time.slave with
  | some k =>
    if thas s.time.bases (4 * k.1 + k.2) then
      let m := tget (ownMaster s) s.time.bases (4 * k.1 + k.2)
      { m with steps := m.steps + 1 }
    else ownMaster s
  | none => ownMaster s

/-- The number of a kind of PTP message. -/
def ptpIndex : PtpKind → Nat
  | .announce => 0
  | .sync => 1
  | .delayReq => 2

/-- The interval of a kind of PTP message in nanoseconds (R418): Announce one per second, Sync and Delay_Req 16. -/
def ptpInterval : PtpKind → Nat
  | .announce => 1000000000
  | _ => 62500000

/-- Whether a message of a kind is due on a sub-port: its interval has passed since the last one. -/
def ptpDue (s : State) (p k : Nat) (kind : PtpKind) : Bool :=
  match (linkOf s p k).ptpAt.find? (fun e => e.1 == ptpIndex kind) with
  | some e => decide (e.2 + ptpInterval kind ≤ s.time.mono)
  | none => true

/-- The fields of a message that the module sends. -/
def ptpFields (s : State) (kind : PtpKind) : List Nat :=
  let m := announced s
  match kind with
  | .announce => [ptpDomain s, m.prio1, m.clockClass, m.accuracy, m.variance, m.prio2, m.identity.toNat, m.steps]
  | .sync => [ptpDomain s, s.time.tide]
  | .delayReq => [ptpDomain s]

/-- Whether a kind of message leaves a sub-port (R418, R419): Announce and Sync leave master ports, Delay_Req the slave port. -/
def ptpLeaves (s : State) (p k : Nat) (kind : PtpKind) : Bool := (kind == .delayReq) == (s.time.slave == some (p, k))

/-- PTP_MESSAGE_SEND (R418, R419). -/
def ptpSend (s : State) (p k : Nat) (kind : PtpKind) : State :=
  if ptpRuns s p k && ptpLeaves s p k kind && ptpDue s p k kind then
    let x := linkOf s p k
    setLink (send s (.ptp p k kind (ptpFields s kind))) p k { x with ptpAt := tput x.ptpAt (ptpIndex kind) s.time.mono }
  else s

/-- PTP_MESSAGE_SEND. -/
def execPtpMessageSend (p : Fin 8) (sub : Fin 4) (kind : PtpKind) (s : State) : Answer := .next (ptpSend s p.val sub.val kind)

/-- ANNOUNCE_RECEIPT_TIMEOUT (R418, R422): the slave port's master has been silent for three intervals; a module that hears no master
and has GM_EN = 1 becomes grandmaster. -/
def announceTimeout (s : State) : State :=
  match s.time.slave with
  | some k =>
    match s.time.bases.find? (fun e => e.1 == 4 * k.1 + k.2) with
    | some e => if e.2.at_ + announceTmo ≤ s.time.mono then loseMaster s else s
    | none => loseMaster s
  | none =>
    if (bestMaster s).isNone && gmEn s && decide (6 ≤ s.boot.phase ∧ announceTmo ≤ s.time.mono) && s.time.st != .grandmaster
    then becomeMaster s else s

/-- ANNOUNCE_RECEIPT_TIMEOUT. -/
def execAnnounceReceiptTimeout (s : State) : Answer := .next (announceTimeout s)

/-- LOCK_QUALIFY (R422, R428): the offset has stayed within ±500 ns for 1 s: the module reads locked, SYNC_LOST ends, and scheduled
mode resumes at the next sailing boundary. (DEDUCED, log entry 35.) -/
def lockQualify (s : State) : State :=
  match s.time.okSince with
  | some a =>
    if a + 1000000000 ≤ s.time.mono then
      setTime s (fun t => { t with
        st := if t.st = .locking then .locked else t.st, syncLost := false,
        schedFrom := if t.syncLost then (sailStart s (sailFrom s t.tide)).toNat else t.schedFrom })
    else s
  | none => s

/-- LOCK_QUALIFY. -/
def execLockQualify (s : State) : Answer := .next (lockQualify s)

/-- HOLDOVER_TIMEOUT (R428): holdover without a master for 2 s. -/
def holdoverTimeout (s : State) : State :=
  match s.time.holdSince with
  | some a =>
    if s.time.st == .holdover && s.time.slave.isNone && decide (a + 2000000000 ≤ s.time.mono) then loseSync s 1 else s
  | none => s

/-- HOLDOVER_TIMEOUT. -/
def execHoldoverTimeout (s : State) : Answer := .next (holdoverTimeout s)

/-! ### PPS (R424, R425) -/

/-- Whether the module counts as locked (R422). (DEDUCED, log entry 35.) -/
def countsLocked (s : State) : Bool :=
  s.time.st == .locked || s.time.st == .grandmaster || (s.time.st == .holdover && !s.time.syncLost)

/-- PPS_OUT_PULSE: PPS_OUT is high for 100 ms from each whole second while the module is locked and OUT_EN = 1, and low at other
times. (DEDUCED, log entry 35.) -/
def execPpsOutPulse (s : State) : Answer :=
  .next (setTime s (fun t => { t with
    ppsOut := countsLocked s && regBits s (ttBase + 0x14) 31 31 == 1 && decide (t.tide % 1000000000 < 100000000) }))

/-- The signed distance of tide time from the nearest whole second. -/
def fromSecond (t : Nat) : Int :=
  if t % 1000000000 < 500000000 then (t % 1000000000 : Nat) else (t % 1000000000 : Nat) - 1000000000

/-- A rejected pulse (R425). -/
def rejectPps (s : State) : State :=
  let n : BitVec 16 := BitVec.ofNat 16 (min (s.time.ppsRejects.toNat + 1) 0xFFFF)
  let s1 := setTime s (fun t => { t with ppsRejects := n })
  if mayReport s1 0x52 0 1000000000 then noteReport (raiseChip s1 1 0x52 n.toNat) 0x52 0 else s1

/-- An accepted edge: it is timestamped; in discipline mode a grandmaster steers tide time to it. -/
def acceptPps (s : State) (discipline : Bool) : State :=
  let close := match s.time.ppsMono with
    | some a => decide (s.time.mono ≤ a + 1100000000)
    | none => false
  let s1 := setTime s (fun t => { t with ppsLast := t.tide, ppsMono := some t.mono, ppsOk := discipline && close })
  let o := fromSecond s.time.tide
  if discipline && s.time.st == .grandmaster then
    (if 100000 < o.natAbs then stepTime s1 (-o) else setTime s1 (fun t => { t with slew := -o }))
  else s1

/-- PPS_IN_EDGE. -/
def ppsIn (s : State) (high : Nat) : State :=
  let mode := regBits s (ttBase + 0x14) 30 29
  if mode = 1 ∨ mode = 2 then
    if high < 100 ∨ 500000000 < high ∨ (mode = 2 ∧ 1000000 < (fromSecond s.time.tide).natAbs) then rejectPps s
    else acceptPps s (mode == 2)
  else s

/-- PPS_IN_EDGE. -/
def execPpsInEdge (highNs : Nat) (s : State) : Answer := .next (ppsIn s highNs)

/-- PPS_IN_TIMEOUT (R425): no accepted edge follows the last one within 1.1 s. -/
def execPpsInTimeout (s : State) : Answer :=
  .next (match s.time.ppsMono with
    | some a => if a + 1100000000 < s.time.mono then setTime s (fun t => { t with ppsOk := false }) else s
    | none => s)

/-! ### Loading the timetable (R432-R435) -/

/-- A 64-bit register pair. -/
def regPair (s : State) (lo : Nat) : Nat := (regGet s lo).toNat + (regGet s (lo + 4)).toNat * 2 ^ 32

/-- TT_TBL_BASE. -/
def tblBase (s : State) : Nat := regPair s (ttBase + 0x30) % 2 ^ 48

/-- TT_TBL_EPOCH. -/
def tblEpoch (s : State) : Nat := regPair s (ttBase + 0x38)

/-- TT_TBL_LOAD_GO: a load starts, unless one is in progress. (DEDUCED, log entry 36.) -/
def tblGo (s : State) : State :=
  if s.time.tblState = .loading then s
  else setTime s (fun t => { t with tblState := .loading, tblReject := false, tblLate := false, standby := [] })

/-- TT_TBL_LOAD_GO. -/
def execTtTblLoadGo (s : State) : Answer := .next (tblGo s)

/-- KIND of a port's plan. -/
def planKind (s : State) (p : Nat) : Nat := regBits s (mgBase + 0x104 + 8 * p) 31 30

/-- Whether an entry of logical port `p` is refused (R433). -/
def ttEntryBad (s : State) (p e : Nat) : Bool :=
  let mode := bits e 63 62
  let job := bits e 55 40
  let c := connOf s (bits e 39 27)
  mode == 3 || bits e 58 56 != 0 || bits e 26 0 != 0 ||
  (mode == 1 && !(c.valid && (berthOf s c.berth).cfg.job == some job && c.lport == p)) ||
  (mode == 2 && (bits e 61 59 == p || (List.range 16).any (fun b => berthDefined s b && (berthOf s b).cfg.job == some job))) ||
  (mode != 0 && (!fittedPort s p || splitOf s p != 0 || planKind s p == 0))

/-- Entry `k` of the image of logical port `p`. -/
def imageEntry (s : State) (p k : Nat) : Nat := hbmLe s (tblBase s + p * 0x80000 + 8 * k) 8

/-- The first entry that is refused, or that lies outside the management berth's windows: port and entry.
(DEDUCED, log entry 36.) -/
def ttRefused (s : State) : Option (Nat × Nat) :=
  match s.man.mgmtBerth with
  | none => some (0, 0)
  | some b =>
    match outside s b (tblBase s) 0x400000 with
    | some a => some (min 7 ((a - tblBase s) / 0x80000), (a - tblBase s) % 0x80000 / 8)
    | none =>
      ((List.range (8 * s.time.cycleLen)).map (fun i => (i / s.time.cycleLen, i % s.time.cycleLen))).find?
        (fun x => ttEntryBad s x.1 (imageEntry s x.1 x.2))

/-- The entries of the images that assign a sailing, keyed 65536p + k. -/
def ttImage (s : State) : Tbl DWord :=
  (List.range (8 * s.time.cycleLen)).filterMap (fun i =>
    let p := i / s.time.cycleLen
    let k := i % s.time.cycleLen
    let e := imageEntry s p k
    if bits e 63 62 = 0 then none else some (p * 65536 + k, BitVec.ofNat 64 e))

/-- A load that misses its epoch is discarded (R433). (DEDUCED, log entry 36.) -/
def tblMissed (s : State) : State :=
  raiseChip (setTime s (fun t => { t with tblState := .idle, tblLate := true, standby := [] })) 1 0x54 s.time.tblGen.toNat

/-- `n` bytes of images are read as collective reads, of class 3, by the time unit (R434); whether they could be read. -/
def tblReadAt (s : State) (b a n : Nat) (mem : HbmOutcome) : State × Bool :=
  if (outside s b a n).isSome then (s, true)
  else
    let p := stepRead s { level := 3, unit := 1, berth := none, task := none, cls := 3 } b a n mem
    (p.1, p.2.isSome)

/-- The images of the timetables are read; one that is poisoned or that the memory does not complete in time discards the load, as data that a
consumer has lost (R322, R339). (DEDUCED, log entry 36.) -/
def tblRead (s : State) (mem : HbmOutcome) : State × Bool :=
  match s.man.mgmtBerth with
  | none => (s, true)
  | some b => tblReadAt s b (tblBase s) 0x400000 mem

/-- A load is discarded, and the active timetable stays in force (R433). -/
def tblDiscard (s : State) : State := setTime s (fun t => { t with tblState := .idle, tblReject := true, standby := [] })

/-- TT_TBL_LOAD_DONE: the images have been read and checked. (DEDUCED, log entry 36.) -/
def tblDone (s : State) (mem : HbmOutcome) : State :=
  if s.time.tblState ≠ .loading then s
  else if tblEpoch s ≤ s.time.tide then tblMissed s
  else
    let p := tblRead s mem
    if !p.2 then tblDiscard p.1
    else
      match ttRefused p.1 with
      | some x => raiseChip (tblDiscard p.1) 1 0x53 (x.1 + x.2 * 2 ^ 16)
      | none => setTime p.1 (fun t => { t with tblState := .waiting, standby := ttImage p.1 })

/-- TT_TBL_LOAD_DONE; `mem` says what becomes of the reads of the images. -/
def execTtTblLoadDone (mem : HbmOutcome) (s : State) : Answer := .next (tblDone s mem)

/-- The first cycle start at or after the epoch (R433). (DEDUCED, log entry 36.) -/
def cycleStart (s : State) : Int :=
  let c : Int := ((sailingNs s * s.time.cycleLen : Nat) : Int)
  let d : Int := (tblEpoch s : Int) - (s.time.origin : Int)
  (s.time.origin : Int) + (d + c - 1) / c * c

/-- TT_TBL_ACTIVATE: the loaded timetable becomes active at its cycle start; a load still incomplete at the epoch is late.
(DEDUCED, log entry 36.) -/
def tblActivate (s : State) : State :=
  match s.time.tblState with
  | .waiting =>
    if cycleStart s ≤ (s.time.tide : Int) then
      setTime s (fun t => { t with tblState := .idle, active := t.standby, standby := [], tblOn := true, tblGen := t.tblGen + 1 })
    else s
  | .loading => if tblEpoch s ≤ s.time.tide then tblMissed s else s
  | .idle => s

/-- TT_TBL_ACTIVATE. -/
def execTtTblActivate (s : State) : Answer := .next (tblActivate s)

end Sys2Proof.Machine
end

