-- ==== Sys2Proof/Machine/Ports.lean ====
section
/-! DEFINITION. Ports: bring-up, landing cards, classification, flow and congestion control, retransmission, and transit frames
(R373-R416, R468-R472). -/

namespace Sys2Proof.Machine

/-! ### Mode and plan (R382) -/

/-- MG_PORT_MODE_p. -/
def portMode (s : State) (p : Nat) : Nat := (regGet s (mgBase + 0x100 + 8 * p)).toNat

/-- MG_PORT_PLAN_p. -/
def portPlan (s : State) (p : Nat) : Nat := (regGet s (mgBase + 0x104 + 8 * p)).toNat

/-- The sub-ports of a port in its mode (R373). -/
def subPorts (s : State) (p : Nat) : Nat := 2 ^ bits (portMode s p) 27 26

/-- Whether the media of a port has no auto-negotiation and no training (R375). -/
def opticalPort (s : State) (p : Nat) : Bool := bits (portMode s p) 30 28 == 2

/-- Whether a port is fenced. -/
def portFenced (s : State) (p : Nat) : Bool := (portOf s p).state == .fenced

/-- Whether the module runs its ports at all: from the phase of R547 on, not in a shutdown (R589), with a reference clock (R606). -/
def portsRun (s : State) : Bool := decide (6 ≤ s.boot.phase) && s.pw.state != 3 && s.pw.scause != 5

/-- Whether the sub-ports of a port are brought up (R385, R386). -/
def mayBringUp (s : State) (p k : Nat) : Bool :=
  portsRun s && regBits s (mgBase + 0x20) 31 31 == 1 && fittedPort s p && !portFenced s p && bit (portMode s p) 31 &&
    planKind s p != 0 && decide (k < subPorts s p) && !(planKind s p == 1 && subPorts s p != 1)

/-- Whether a sub-port's link is up. -/
def linkUp (s : State) (p k : Nat) : Bool := (linkOf s p k).step == 4

/-- Whether a port has a link that is up. -/
def anyUp (s : State) (p : Nat) : Bool := (List.range 4).any (linkUp s p)

/-- A port's state and cause; a change of the state shows in PW_ALERT_STAT (R614). -/
def setPortState (s : State) (p : Nat) (st : PortState) (cause : Nat) : State :=
  let x := portOf s p
  let s1 := setPort s p { x with state := st, qcause := cause }
  if x.state = st then s1 else alertSet s1 5

/-! ### Landing cards (R387, R388) -/

/-- The card held on a port: that of the first sub-port that holds one. -/
def cardOn (s : State) (p : Nat) : Option Card := (List.range 4).findSome? (fun k => (linkOf s p k).card)

/-- The role of a logical port in the manifest in force. -/
def roleOn (s : State) (l : Nat) : Nat := if s.man.loaded then nth 0 s.man.roles l else 0

/-- The information string of the own card on a port (R388). -/
def ownCard (s : State) (p : Nat) : List Byte :=
  let x := portOf s p
  natLe 1 1 ++ natLe 1 (ownSys s) ++ natLe 2 (ownDevice s) ++ natLe 1 (lportOf s p) ++ natLe 1 (roleOn s (lportOf s p)) ++
    natLe 1 (flagAt (x.state == .quarantined) 0 + flagAt (x.state == .remapped) 1 + flagAt (harbour s) 2) ++ natLe 1 1 ++
    natLe 2 0x0100 ++ natLe 2 0 ++ natLe 4 s.boot.fwVersion.toNat

/-- The company identifier of Gwefin's TLV (R388). -/
def cardCompany : Nat := 0x4AC2E5

/-- The Gwefin TLV (R388): type 127 in seven bits, length 20 in nine, company identifier, subtype, information string. -/
def cardTlv (info : List Byte) : List Byte :=
  (natLe 2 (127 * 2 ^ 9 + 20)).reverse ++ (natLe 3 cardCompany).reverse ++ natLe 1 1 ++ info

/-- Send the own card on a sub-port. -/
def sendCard (s : State) (p k : Nat) : State :=
  setLink (send s (.card p k (cardTlv (ownCard s p)) 120)) p k
    { linkOf s p k with sentAt := some s.time.mono, sent := ownCard s p }

/-- Whether a card is due (R387): its content has changed, or 1 s has passed without and 30 s with a peer's card. -/
def cardDue (s : State) (p k : Nat) : Bool :=
  let x := linkOf s p k
  match x.sentAt with
  | none => true
  | some a => x.sent != ownCard s p || decide (a + (if x.card.isSome then 30000000000 else 1000000000) ≤ s.time.mono)

/-- LANDING_CARD_SEND. -/
def execLandingCardSend (p : Fin 8) (sub : Fin 4) (s : State) : Answer :=
  .next (if linkUp s p.val sub.val && cardDue s p.val sub.val then sendCard s p.val sub.val else s)

/-! ### Classifying (R389-R393) -/

/-- Whether a card matches the plan of a port: SYS, DEVICE and PORT are equal, whatever the plan's KIND. -/
def cardMatches (s : State) (c : Card) (p : Nat) : Bool :=
  let n := portPlan s p
  c.sys.toNat == bits n 29 22 && c.device.toNat == bits n 21 8 && c.port == bits n 7 5

/-- The version test of a card: contract major version and timetable format. -/
def cardVersion (c : Card) : Bool := bits c.contract.toNat 15 8 == 1 && c.ttFmt == 1

/-- What the classification of a port finds: it is up, a swap with another port, in quarantine for a cause, or awaits a card. -/
inductive Verdict where
  | up
  | swap (q : Nat)
  | quar (cause : Nat)
  | await
deriving DecidableEq, Repr

/-- Whether 10 s have passed since a port's link came up. -/
def cardLate (s : State) (p : Nat) : Bool := decide ((linkOf s p 0).upAt + 10000000000 ≤ s.time.mono)

/-- The pseudo-code of R389. -/
def verdict (s : State) (p : Nat) : Verdict :=
  if planKind s p = 2 then (if (cardOn s p).isSome then .quar 5 else .up)
  else
    match cardOn s p with
    | none => if cardLate s p then .quar 1 else .await
    | some c =>
      if !cardVersion c then .quar 3
      else if cardMatches s c p then .up
      else
        match (List.range 8).find? (fun q => q != p && cardMatches s c q) with
        | none => .quar 2
        | some q =>
          match cardOn s q with
          | none => if cardLate s p then .quar 2 else .await
          | some d => if cardVersion d && cardMatches s d p then .swap q else .quar 2

/-- The detail of PORT_QUAR (R416). -/
def quarDetail (s : State) (p cause : Nat) : Nat :=
  match cardOn s p with
  | some c => cause + c.sys.toNat * 2 ^ 8 + c.device.toNat * 2 ^ 16 + c.port * 2 ^ 32
  | none => cause

/-- A port carries a logical port (R392). -/
def setLport (s : State) (p l : Nat) : State := setPort s p { portOf s p with swap := if l = p then none else some l }

/-- A port enters or stays in quarantine; each entry raises PORT_QUAR (R393). -/
def quarantine (s : State) (p cause : Nat) : State :=
  let s1 := setPortState (setLport s p p) p .quarantined cause
  if (portOf s p).state = .quarantined then s1 else raiseChip s1 (8 + p) 0x42 (quarDetail s p cause)

/-- Carry out a verdict. -/
def applyVerdict (s : State) (p : Nat) (v : Verdict) : State :=
  match v with
  | .up => setPortState (setLport s p p) p .up 0
  | .await => setPortState (setLport s p p) p .awaiting 0
  | .quar c => quarantine s p c
  | .swap q =>
    if s.man.loaded && s.man.remapOk then
      let was := lportOf s p == q && lportOf s q == p && (portOf s p).state == .remapped
      let s1 := setPortState (setLport s p q) p .remapped 0
      let s2 := setPortState (setLport s1 q p) q .remapped 0
      if was then s2 else raiseChip s2 (8 + p) 0x43 q
    else quarantine (quarantine s p 4) q 4

/-- Classify a port that has a link up and is not fenced. -/
def classifyOne (s : State) (p : Nat) : State :=
  if anyUp s p && !portFenced s p then applyVerdict s p (verdict s p) else s

/-- Classify a port, and every port whose own classification rests on its card: the partner of its swap, and ports whose card
matches its plan (R389). -/
def classify (s : State) (p : Nat) : State :=
  let old := lportOf s p
  let others := (List.range 8).filter (fun q => q != p && (q == old || (match cardOn s q with
    | some c => cardMatches s c p
    | none => false)))
  let s0 := if anyUp s p then s else (if old = p then s else setLport s p p)
  others.foldl (fun t q => if (portOf t q).state == .remapped && lportOf t p == q then t else classifyOne t q)
    (classifyOne s0 p)

/-- Every port is classified, when a manifest is loaded. -/
def classifyAll (s : State) : State := (List.range 8).foldl classifyOne s

/-- A card is received (R388) with the company identifier, subtype and information string of its TLV, its time-to-live, and the source address of its
frame: another company, subtype, length or version counts as no card. -/
def cardReceive (s : State) (p k company subtype : Nat) (info : List Byte) (ttl : Nat) (mac : BitVec 48) : State :=
  if linkUp s p k && company == cardCompany && subtype == 1 && info.length == 16 && leAt info 0 1 == 1 then
    let c : Card :=
      { sys := BitVec.ofNat 8 (leAt info 1 1), device := BitVec.ofNat 14 (leAt info 2 2), port := leAt info 4 1 % 8,
        role := BitVec.ofNat 8 (leAt info 5 1), flags := BitVec.ofNat 8 (leAt info 6 1), ttFmt := BitVec.ofNat 8 (leAt info 7 1),
        contract := BitVec.ofNat 16 (leAt info 8 2), fw := BitVec.ofNat 32 (leAt info 12 4), mac := mac, at_ := s.time.mono,
        ttl := ttl }
    classify (setLink s p k { linkOf s p k with card := some c }) p
  else s

/-- LANDING_CARD_RECEIVE. -/
def execLandingCardReceive (p : Fin 8) (sub : Fin 4) (company subtype : Nat) (info : List Byte) (ttlSeconds : Nat) (mac : BitVec 48)
    (s : State) : Answer :=
  .next (cardReceive s p.val sub.val company subtype info ttlSeconds mac)

/-- A peer's card is lost (R387); on a port planned to a module that is a trigger of a report (R482). -/
def loseCard (s : State) (p k : Nat) : State :=
  match (linkOf s p k).card with
  | none => s
  | some c =>
    let s1 := setLink s p k { linkOf s p k with card := none }
    if planKind s p = 1 then silentTrigger s1 c.sys.toNat c.device.toNat 2 else s1

/-- LANDING_CARD_TTL_EXPIRE. -/
def execLandingCardTtlExpire (p : Fin 8) (sub : Fin 4) (s : State) : Answer :=
  .next (match (linkOf s p.val sub.val).card with
    | some c => if c.at_ + c.ttl * 1000000000 ≤ s.time.mono then classify (loseCard s p.val sub.val) p.val else s
    | none => s)

/-- CARD_AWAIT_TIMEOUT: 10 s have passed since the link of a port that awaits a card came up. -/
def execCardAwaitTimeout (p : Fin 8) (s : State) : Answer :=
  .next (if (portOf s p.val).state == .awaiting && cardLate s p.val then classify s p.val else s)

/-! ### Links (R385, R414, R416) -/

/-- The state of a port without a link that is up. -/
def downState (s : State) (p : Nat) : PortState := if mayBringUp s p 0 then .training else .down

/-- Where QCAUSE 6 applies (R386). -/
def downCause (s : State) (p : Nat) : Nat := if planKind s p == 1 && subPorts s p != 1 then 6 else 0

/-- What waits at a port for a paused priority is lost with its last link. -/
def loseHeld (s : State) (p : Nat) : State := setPort s p { portOf s p with held := [] }

/-- A sub-port's link is gone: its card is lost, PTP loses what it heard there, and a port without links is down. -/
def dropLink (s : State) (p k : Nat) : State :=
  let was := linkUp s p k
  let s1 := loseCard s p k
  let s2 := setLink s1 p k { (linkOf s1 p k) with step := 0, since := none, sentAt := none, sent := [], ptpAt := [] }
  let s3 := setTime s2 (fun t => { t with bases := tdel t.bases (4 * p + k) })
  let s4 := if s3.time.slave = some (p, k) then loseMaster s3 else s3
  let s5 := if portFenced s4 p || anyUp s4 p then s4 else setPortState (loseHeld s4 p) p (downState s4 p) (downCause s4 p)
  if was then classify s5 p else s5

/-- A link that was up is lost: counted, and LINK_DOWN (R413, R416). -/
def loseLink (s : State) (p k cause : Nat) : State :=
  if linkUp s p k then
    let x := portOf s p
    let s1 := setPort s p { x with linkDown := satInc x.linkDown 1 }
    dropLink (raiseChip s1 (8 + p) 0x40 (cause + k * 16)) p k
  else s

/-- LINK_DOWN. -/
def execLinkDown (p : Fin 8) (sub : Fin 4) (cause : Fin 4) (s : State) : Answer := .next (loseLink s p.val sub.val cause.val)

/-- The step of bring-up that follows the steps done (R385). -/
def nextStep (s : State) (p done : Nat) : Nat := if opticalPort s p && decide (done < 2) then 3 else done + 1

/-- The limit of an attempt at a step of bring-up in nanoseconds (R385). -/
def stepLimit (n : Nat) : Nat := if n ≤ 2 then 500000000 else if n = 3 then 10000000 else 1000000

/-- The time after a failed attempt before the next one, after so many failed ones in a row (R385). -/
def retryAfter (n fails : Nat) : Nat := if 8 ≤ fails then 10000000000 else if n ≤ 2 then 1000000000 else 0

/-- Whether a step can be done now: its attempt has begun, and its limit has not passed (R385). An attempt of which the model has not seen the
beginning, the first after a port is enabled, can end at any moment. (DEDUCED, log entry 37.) -/
def stepInTime (s : State) (x : Link) (n : Nat) : Bool :=
  match x.since with
  | some a => decide (a ≤ s.time.mono ∧ s.time.mono ≤ a + stepLimit n)
  | none => true

/-- Whether a step can have failed now: its attempt has lasted for its limit (R385). (DEDUCED, log entry 37.) -/
def stepOver (s : State) (x : Link) (n : Nat) : Bool :=
  match x.since with
  | some a => decide (a + stepLimit n ≤ s.time.mono)
  | none => true

/-- PORT_BRINGUP_STEP: a step that is done brings the next; a failed one starts again from step 1 after the time that R385 gives, and after eight
failures in a row LINK_TRAIN_FAIL is raised. At step 4 the first card is sent and the port classified. -/
def bringup (s : State) (p k : Nat) (outcome : StepOutcome) : State :=
  let x := linkOf s p k
  if planKind s p = 1 ∧ subPorts s p ≠ 1 ∧ ¬ portFenced s p then setPortState s p .down 6
  else if !mayBringUp s p k || x.step == 4 then s
  else
    let s0 := if anyUp s p then s else setPortState s p .training 0
    let n := nextStep s p x.step
    match outcome with
    | .done =>
      if !stepInTime s x n then s0
      else if n = 4 then
        let s1 := setLink s0 p k { x with step := 4, fails := 0, since := none, upAt := s.time.mono }
        classify (sendCard (if anyUp s p then s1 else setPortState s1 p .awaiting 0) p k) p
      else setLink s0 p k { x with step := n, since := some s.time.mono }
    | .failed =>
      if n = 4 || !stepOver s x n then s0
      else
        let s1 := setLink s0 p k
          { x with step := 0, fails := x.fails + 1, since := some (s.time.mono + retryAfter n (x.fails + 1)) }
        if x.fails + 1 = 8 then raiseChip s1 (8 + p) 0x41 (8 + n % 4 * 256) else s1

/-- PORT_BRINGUP_STEP. -/
def execPortBringupStep (p : Fin 8) (sub : Fin 4) (outcome : StepOutcome) (s : State) : Answer :=
  .next (bringup s p.val sub.val outcome)

/-- FEC_LIMIT_WINDOW: the codewords of one second are counted, and a sub-port above the limit is taken down (R413, R414). -/
def fecWindow (s : State) (p k corr uncorr : Nat) : State :=
  if linkUp s p k then
    let x := portOf s p
    let s1 := setPort s p { x with fecCorr := satInc x.fecCorr corr, fecUncorr := satInc x.fecUncorr uncorr }
    let limit := regBits s (ptBase p + 0x28) 15 0
    if limit ≠ 0 ∧ limit < uncorr then loseLink s1 p k 2 else s1
  else s

/-- FEC_LIMIT_WINDOW. -/
def execFecLimitWindow (p : Fin 8) (sub : Fin 4) (corrected uncorrectable : Nat) (s : State) : Answer :=
  .next (fecWindow s p.val sub.val corrected uncorrectable)

/-- A port is fenced (R415): its connections fail with reason 4, its links go down, and what its lane holds is discarded with the lane's requests
(R344). It stays fenced. -/
def fencePort (s : State) (p : Nat) : State :=
  if portFenced s p then s
  else
    let mine := (s.conns.map (·.1)).filter (fun n => (connOf s n).valid && connPort s n == p)
    let s1 := mine.foldl (fun t n => connFail t n 4 true) s
    let s2 := setPortState ((List.range 4).foldl (fun t k => dropLink t p k) s1) p .fenced 0
    setPort s2 p { portOf s2 p with segs := [], adding := [], transit := [] }

/-- SERDES_FAIL of a fitted port: raised, and the port is fenced at once where its class in force is FENCE (R525). -/
def serdesFails (s : State) (p lanes : Nat) : State :=
  if fittedPort s p && !portFenced s p then
    let s1 := raiseChip s (8 + p) 0x46 lanes
    if faultClass s 0x46 = 3 then fencePort s1 p else s1
  else s

/-- SERDES_FAIL (R416): lanes failed calibration or lost their PLL. -/
def execSerdesFail (p : Fin 8) (lanes : BitVec 8) (s : State) : Answer := .next (serdesFails s p.val lanes.toNat)

/-- A new mode: reserved encodings leave their fields unchanged (R18); a change of EN, MEDIA or SPLIT takes the port down with cause
4 and brings it up afresh (R382). -/
def modeWrite (s : State) (p : Nat) (v : Word) : State :=
  if !fittedPort s p then s
  else
    let n := v.toNat
    let old := portMode s p
    let media := if bits n 30 28 ≤ 2 then bits n 30 28 else bits old 30 28
    let split := if bits n 27 26 ≤ 2 then bits n 27 26 else bits old 27 26
    let new := bits n 31 31 * 2 ^ 31 + media * 2 ^ 28 + split * 2 ^ 26
    if new = old then s
    else
      let s1 := (List.range 4).foldl (fun t k => loseLink t p k 4) s
      let s2 := regSet s1 (mgBase + 0x100 + 8 * p) (BitVec.ofNat 32 new)
      let s3 := (List.range 4).foldl (fun t k => setLink t p k { linkOf t p k with step := 0, fails := 0, since := none }) s2
      if portFenced s3 p then s3 else setPortState s3 p (downState s3 p) (downCause s3 p)

/-- PORT_MODE_WRITE. -/
def execPortModeWrite (p : Fin 8) (value : Word) (s : State) : Answer := .next (modeWrite s p.val value)

/-- A new plan reclassifies the port at once (R382); a port whose plan is unused is not brought up, so its links go down. -/
def planWrite (s : State) (p : Nat) (v : Word) : State :=
  if !fittedPort s p then s
  else
    let n := v.toNat
    let kind := if bits n 31 30 ≤ 2 then bits n 31 30 else planKind s p
    let s1 := regSet s (mgBase + 0x104 + 8 * p) (BitVec.ofNat 32 (kind * 2 ^ 30 + bits n 29 5 * 32))
    let s2 := if kind = 0 ∨ (kind = 1 ∧ subPorts s1 p ≠ 1) then (List.range 4).foldl (fun t k => dropLink t p k) s1 else s1
    if anyUp s2 p then classify s2 p
    else if portFenced s2 p then s2 else setPortState s2 p (downState s2 p) (downCause s2 p)

/-- PORT_PLAN_WRITE. -/
def execPortPlanWrite (p : Fin 8) (value : Word) (s : State) : Answer := .next (planWrite s p.val value)

/-! ### Addresses (R377, R378, R383) -/

/-- The IPv6 address of sub-port `k` of port `p`. -/
def ownAddress (s : State) (p k : Nat) : Nat :=
  regPair s (mgBase + 0x150) * 2 ^ 64 + 0x0200000000000000 + ownSys s * 2 ^ 48 + ownDevice s * 2 ^ 32 + p * 16 + k

/-- Whether an address is one of the module's own. -/
def ownsAddress (s : State) (target : BitVec 128) : Bool :=
  (List.range 32).any (fun i => fittedPort s (i / 4) && decide (i % 4 < subPorts s (i / 4)) && ownAddress s (i / 4) (i % 4) == target.toNat)

/-- NEIGHBOR_SOLICITATION: of the frames that are neither RoCE v2 nor LLDP nor PTP, the module answers solicitations for its own addresses and
drops and counts all others (R378). -/
def neighbor (s : State) (p k : Nat) (f : NetFrame) : State :=
  if !linkUp s p k then s
  else
    match f with
    | .solicitation target => if ownsAddress s target then send s (.advertisement p k target) else countDrop s p
    | .ipv4 => countDrop s p
    | .arp => countDrop s p
    | .ipv6 => countDrop s p

/-- NEIGHBOR_SOLICITATION. -/
def execNeighborSolicitation (p : Fin 8) (sub : Fin 4) (frame : NetFrame) (s : State) : Answer :=
  .next (neighbor s p.val sub.val frame)

/-- A change of the prefix re-addresses every sub-port: every connection's local address changes, so it enters the error state with
reason 5 (R383, R406). -/
def prefixWrite (s : State) (high : Bool) (v : Word) : State :=
  let a := mgBase + (if high then 0x154 else 0x150)
  if regGet s a = v then s
  else
    let s1 := regSet s a v
    (s1.conns.map (·.1)).foldl (fun t n => connFail t n 5 true) s1

/-- NET_PREFIX_WRITE. -/
def execNetPrefixWrite (high : Bool) (value : Word) (s : State) : Answer := .next (prefixWrite s high value)

/-! ### Priority flow control (R394-R397) -/

/-- A priority of a port. -/
def pfcOf (s : State) (p n : Nat) : Pfc := tget {} (portOf s p).pfc n

/-- A priority of a port, replaced. -/
def setPfc (s : State) (p n : Nat) (x : Pfc) : State :=
  let y := portOf s p
  setPort s p { y with pfc := tput y.pfc n x }

/-- PFC_FRAME_RECEIVE: frames for priorities that are not enabled are ignored, a quarantined port drops them (R393, R394). -/
def pfcFrame (s : State) (p n : Nat) (xoff : Bool) : State :=
  if !anyUp s p then s
  else if (portOf s p).state = .quarantined ∨ (portOf s p).state = .awaiting then countDrop s p
  else if !bit (regGet s (ptBase p + 0x20)).toNat n then s
  else
    let x := pfcOf s p n
    if xoff then
      setPfc s p n { x with lastXoff := s.time.mono, pausedAt := if x.ignoring then none else (match x.pausedAt with
        | some a => some a
        | none => some s.time.mono) }
    else releaseHeld (setPfc s p n { x with pausedAt := none }) p n

/-- PFC_FRAME_RECEIVE. -/
def execPfcFrameReceive (p priority : Fin 8) (xoff : Bool) (s : State) : Answer := .next (pfcFrame s p.val priority.val xoff)

/-- PFC_WATCHDOG_EXPIRE (R397). -/
def pfcWatchdog (s : State) (p n : Nat) : State :=
  let x := pfcOf s p n
  let ms := regBits s (ptBase p + 0x20) 23 16
  match x.pausedAt with
  | some a =>
    if ms ≠ 0 ∧ a + ms * 1000000 ≤ s.time.mono then
      raiseChip (releaseHeld (setPfc s p n { x with pausedAt := none, ignoring := true }) p n) (8 + p) 0x44 n
    else s
  | none => s

/-- PFC_WATCHDOG_EXPIRE. -/
def execPfcWatchdogExpire (p priority : Fin 8) (s : State) : Answer := .next (pfcWatchdog s p.val priority.val)

/-- PFC_WATCHDOG_REARM (R397): 100 ms without an XOFF. -/
def pfcRearm (s : State) (p n : Nat) : State :=
  let x := pfcOf s p n
  if x.ignoring && decide (x.lastXoff + 100000000 ≤ s.time.mono) then setPfc s p n { x with ignoring := false } else s

/-- PFC_WATCHDOG_REARM. -/
def execPfcWatchdogRearm (p priority : Fin 8) (s : State) : Answer := .next (pfcRearm s p.val priority.val)

/-! ### Retransmission (R403) -/

/-- The oldest `k` outstanding requests of a connection are acknowledged; the count of tries is that of the oldest one left. -/
def ackRequests (s : State) (n k : Nat) : State :=
  let c := connOf s n
  if k = 0 then s else setReqs (setConn s n { c with tries := 0, rnrUntil := none }) n (c.reqs.drop k)

/-- T of a connection in nanoseconds (R403). -/
def connTimeout (c : Conn) : Nat := 4096 * 2 ^ c.tmo

/-- The requests of a connection that have been sent are sent again, from the first unacknowledged PSN on (R403). -/
def resend (s : State) (n : Nat) : State :=
  let c := connOf s n
  match c.reqs with
  | [] => s
  | x :: _ =>
    sendOn (setConn s n { c with rnrUntil := none,
                                 reqs := c.reqs.map (fun y => if y.unsent.isSome then y else { y with at_ := s.time.mono }) }) n
      (kindPcp s n x.kind false) .resend false

/-- The oldest request is tried once more, at once or after the timer of an RNR NAK, unless RETRY is used up: then the time limit has passed
(R403). (DEDUCED, log entry 38.) -/
def retry (s : State) (n : Nat) (wait : Option Nat) : State :=
  let c := connOf s n
  if c.reqs.isEmpty then s
  else if c.retry ≤ c.tries then connTimeLimit s n
  else
    let s1 := setConn s n { c with tries := c.tries + 1, rnrUntil := wait.map (fun t => s.time.mono + t) }
    if wait.isSome then s1 else resend s1 n

/-- NAK_RECEIVE (R403, R406). `acked` requests are acknowledged by the NAK's PSN; an RNR NAK carries a timer. (DEDUCED, log entry 38.) -/
def nakReceive (s : State) (n : Nat) (kind : NakKind) (acked rnrNs : Nat) : State :=
  if !connUsable s n || !carries s n then s
  else
    let s1 := ackRequests s n acked
    match kind with
    | .sequence => retry s1 n none
    | .rnr => retry s1 n (some rnrNs)
    | k => connFail s1 n (nakReason k) true

/-- NAK_RECEIVE. -/
def execNakReceive (conn : Fin 8192) (kind : NakKind) (acked rnrNs : Nat) (s : State) : Answer :=
  .next (nakReceive s conn.val kind acked rnrNs)

/-- Whether the oldest request of a connection has had no acknowledgement for T since it was last sent (R403); an RNR NAK is one, and its timer
runs instead. (DEDUCED, log entry 38.) -/
def timeoutPassed (s : State) (n : Nat) : Bool :=
  let c := connOf s n
  match c.reqs with
  | x :: _ => x.unsent.isNone && c.rnrUntil.isNone && decide (x.at_ + connTimeout c ≤ s.time.mono)
  | [] => false

/-- RETRANSMIT_TIMEOUT: after `acked` requests have been acknowledged, the next has no acknowledgement within T. -/
def retransmit (s : State) (n acked : Nat) : State :=
  let s1 := ackRequests s n acked
  if connUsable s n && timeoutPassed s1 n then retry s1 n none else s

/-- RETRANSMIT_TIMEOUT. -/
def execRetransmitTimeout (conn : Fin 8192) (acked : Nat) (s : State) : Answer := .next (retransmit s conn.val acked)

/-- RNR_RETRY: the timer that an RNR NAK carried has run out. -/
def rnrRetry (s : State) (n : Nat) : State :=
  match (connOf s n).rnrUntil with
  | some t => if connUsable s n && decide (t ≤ s.time.mono) then resend s n else s
  | none => s

/-- RNR_RETRY. -/
def execRnrRetry (conn : Fin 8192) (s : State) : Answer := .next (rnrRetry s conn.val)

/-! ### Congestion control (R410-R412) -/

/-- PT_CC of the port of a connection. (DESIGN CHOICE, log entry 22.) -/
def ccOf (s : State) (n : Nat) : Nat := (regGet s (ptBase (connPort s n) + 0x24)).toNat

/-- PERIOD_US of the port of a connection, in nanoseconds. -/
def ccPeriod (s : State) (n : Nat) : Nat := bits (ccOf s n) 9 0 * 1000

/-- L, in units of L / 2^20. (DESIGN CHOICE, log entry 22.) -/
def fullRate : Nat := 1048576

/-- CNP_RECEIVE (R411, R412). (DESIGN CHOICE, log entry 22.) -/
def cnpReceive (s : State) (n : Nat) (sched : Bool) : State :=
  let c := connOf s n
  let late := match c.cutAt with
    | some a => decide (a + ccPeriod s n ≤ s.time.mono)
    | none => true
  if connUsable s n && carries s n && bit (ccOf s n) 31 && !sched && late then
    setConn s n { c with rate := max (fullRate / 1024) (c.rate * (16 - bits (ccOf s n) 15 12) / 16),
                         cutAt := some s.time.mono, riseAt := s.time.mono }
  else s

/-- CNP_RECEIVE. -/
def execCnpReceive (conn : Fin 8192) (scheduled : Bool) (s : State) : Answer := .next (cnpReceive s conn.val scheduled)

/-- CC_RATE_INCREASE (R411): a period without a cut. (DESIGN CHOICE, log entry 22.) -/
def rateIncrease (s : State) (n : Nat) : State :=
  let c := connOf s n
  if !connUsable s n then s
  else if !bit (ccOf s n) 31 then setConn s n { c with rate := fullRate }
  else if c.riseAt + ccPeriod s n ≤ s.time.mono then
    setConn s n { c with rate := min fullRate (c.rate + bits (ccOf s n) 23 16 * 4096), riseAt := s.time.mono }
  else s

/-- CC_RATE_INCREASE. -/
def execCcRateIncrease (conn : Fin 8192) (s : State) : Answer := .next (rateIncrease s conn.val)

/-! ### Transit (R468-R472) -/

/-- The role opposite to a torus role. -/
def oppositeRole (r : Nat) : Nat := if r % 2 = 1 then r + 1 else r - 1

/-- The coordinates of a device id in which the module and the device may differ on the axis of a role, put to zero. -/
def offAxis (role dev : Nat) : Nat :=
  let lo := 4 ^ ((role - 1) / 2)
  dev - dev / lo % 4 * lo

/-- The port that a transit frame leaves on, none where it is not forwarded. -/
def transitPort (s : State) (p : Nat) (f : TransitFrame) : Option Nat :=
  let role := roleOn s (lportOf s p)
  if role = 0 ∨ 6 < role ∨ harbour s ∨ f.hop ≤ 1 ∨ f.sys.toNat ≠ ownSys s ∨ offAxis role f.device.toNat ≠ offAxis role (ownDevice s)
  then none
  else
    match (List.range 8).find? (fun l => roleOn s l == oppositeRole role) with
    | none => none
    | some l =>
      let q := portFor s l
      let y := portOf s q
      if (y.state == .up || y.state == .remapped) &&
          decide (y.transit.foldl (fun a t => a + t.frame.bytes.length) 0 + f.bytes.length ≤ 0x100000)
      then some q else none

/-- A transit frame as it leaves: one hop less; it waits while its priority is paused (R394). -/
def sendTransit (s : State) (p : Nat) (t : Transit) : State :=
  sendFrame s p t.frame.pcp (.transit p { t.frame with hop := t.frame.hop - 1 })

/-- All transit frames that a port holds leave, in arrival order (R470). -/
def flushTransit (s : State) (p : Nat) : State :=
  let x := portOf s p
  x.transit.foldl (fun t f => sendTransit t p f) (setPort s p { x with transit := [] })

/-- TRANSIT_FRAME: a frame to another module is stored on the port of the opposite role, or dropped and counted. Outside scheduled
mode the whole time is a gap, and it leaves at once. -/
def transitFrame (s : State) (p : Nat) (f : TransitFrame) : State :=
  if !anyUp s p || (f.sys.toNat == ownSys s && f.device.toNat == ownDevice s) then s
  else if !((portOf s p).state == .up || (portOf s p).state == .remapped) then countDrop s p
  else
    match transitPort s p f with
    | none => countDrop s p
    | some q =>
      let y := portOf s q
      let s1 := setPort s q { y with transit := y.transit ++ [{ frame := f, at_ := s.time.tide }] }
      if scheduled s1 then s1 else flushTransit s1 q

/-- TRANSIT_FRAME. -/
def execTransitFrame (p : Fin 8) (frame : TransitFrame) (s : State) : Answer := .next (transitFrame s p.val frame)

end Sys2Proof.Machine
end

