-- ==== Sys2Proof/Machine/Faults.lean ====
section
/-! DEFINITION. The chip fault collector and what the classes do: folding, the record store, FAULT records, fencing, halting,
locking, and clearing (R521-R543). -/

namespace Sys2Proof.Machine

/-! ### Ending events at the home quays (R507, R521, R528) -/

/-- The ending events of a berth's current task on their way to its home quay. -/
def endsFor (s : State) (b : Nat) : List EndEvt := s.ends.filter (fun e => e.berth == b && (berthOf s b).cur == some e.task)

/-- The order of events at a collector: moment, then class, most severe first, then source id (R528). -/
def endBefore (a b : EndEvt) : Bool :=
  decide (a.info.at_ < b.info.at_) ||
    (a.info.at_ == b.info.at_ && (decide (b.sev < a.sev) || (a.sev == b.sev && decide (a.info.source.toNat < b.info.source.toNat))))

/-- The first event of a list. (DEDUCED, log entry 42.) -/
def firstEnd : List EndEvt → Option EndEvt
  | [] => none
  | e :: r =>
    match firstEnd r with
    | some x => some (if endBefore x e then x else e)
    | none => some e

/-- The ending events of a berth reach its home quay: the first ends the task, the others find it ended (R507).
(DEDUCED, log entry 42.) -/
def latchPending (s : State) (b : Nat) : State :=
  let s1 := match firstEnd (endsFor s b) with
    | some e => latchEnd s b e.info .idle
    | none => s
  { s1 with ends := s1.ends.filter (fun e => e.berth != b) }

/-- TASK_END_LATCH. -/
def execTaskEndLatch (b : Fin 16) (s : State) : Answer := .next (latchPending s b.val)

/-! ### Fencing a deck (R96-R99, R535, R537) -/

/-- DK_GANG of a member of a gang in a shape. -/
def gangWord (s : State) (g i d : Nat) : Word :=
  let x := tget ({} : Gang) s.gangs g
  let sh := nth { gmLog := 0, gnLog := 0, members := [] } x.shapes i
  let pos := (indexWhere (· == d) sh.members).getD 0
  let lead := sh.members.foldl min (sh.members.headD 0)
  let fenced := flagAt (deckFenced s d) 30
  BitVec.ofNat 32 (flagAt x.quad 31 + fenced + i * 2 ^ 24 + g * 2 ^ 20 + lead * 2 ^ 16 + sh.gmLog * 2 ^ 12 + sh.gnLog * 2 ^ 8 +
    pos / 2 ^ sh.gnLog * 16 + pos % 2 ^ sh.gnLog)

/-- DK_GANG of a deck in no gang. -/
def noGangWord (s : State) (d : Nat) : Word := BitVec.ofNat 32 (0x0F000000 + flagAt (deckFenced s d) 30)

/-- DK_GANG of a deck that its gang's shape leaves out: it is in no gang, and keeps its mode, which only a manifest changes (R91, R98). -/
def leftWord (s : State) (d : Nat) : Word := noGangWord s d ||| BitVec.ofNat 32 (flagAt (deckQuad s d) 31)

/-- DK_GANG of a deck, set. -/
def setGang (s : State) (d : Nat) (w : Word) : State := setDeck s d { deckOf s d with gang := w }

/-- The lowest-numbered shape of a gang whose members are all unfenced. -/
def gangShape (s : State) (g : Nat) : Option Nat :=
  indexWhere (fun sh => sh.members.all (fun d => !deckFenced s d)) (tget ({} : Gang) s.gangs g).shapes

/-- A gang takes its lowest shape without a fenced member (R98); without one the berth that owns it halts (R99). The spec does not say what
DK_GANG of its members reads then: the fenced ones are in no gang, the others keep the word of the broken shape. (DESIGN CHOICE, log entry
44.) -/
def refitGang (s : State) (g : Nat) : State :=
  let all := (nth { gmLog := 0, gnLog := 0, members := [] } (tget ({} : Gang) s.gangs g).shapes 0).members
  match gangShape s g with
  | some i =>
    let sh := nth { gmLog := 0, gnLog := 0, members := [] } (tget ({} : Gang) s.gangs g).shapes i
    all.foldl (fun t d => setGang t d (if sh.members.contains d then gangWord t g i d else leftWord t d)) s
  | none =>
    let s1 := (all.filter (deckFenced s)).foldl (fun t d => setGang t d (leftWord t d)) s
    match deckBerth s1 (all.headD 0) with
    | some b => haltBerth s1 b
    | none => s1

/-- The gangs whose shape in force holds a fenced deck. -/
def brokenGangs (s : State) : List Nat :=
  (s.gangs.map (·.1)).filter (fun g => (List.range 16).any (fun d =>
    deckFenced s d && deckFb s d != 15 && bits (deckOf s d).gang.toNat 23 20 == g))

/-- Every gang with a fenced member is re-formed (R98, R537). -/
def refitGangs (s : State) : State := (brokenGangs s).foldl refitGang s

/-- Whether a transaction is a deck's: the deck's contexts made it, or it draws on the deck's allotment. (DEDUCED, log entry 44.) -/
def deckTrk (d : Nat) (t : Trk) : Bool := t.unit16 == sourceId 1 d 0 || t.allot == d

/-- Steps 2 and 3 of R535: the deck is masked at every arbiter and fenced (R344); its slots have no tag any more (R87). -/
def maskDeck (s : State) (d : Nat) : State :=
  let s1 := setGang s d (BitVec.ofNat 32 ((deckOf s d).gang.toNat ||| 2 ^ 30))
  issueAll (maskTrk (setDeck s1 d { deckOf s1 d with tags := [] }) (deckTrk d))

/-- A deck is fenced (R535). While a manifest is loading, only steps 2 and 3 are taken (R537). (DEDUCED, log entry 44.) -/
def fenceDeck (s : State) (d : Nat) (source : BitVec 16) : State :=
  if deckFenced s d then s
  else if s.load.isSome then maskDeck s d
  else
    let s1 := match deckBerth s d with
      | some b => latchEnd (latchPending s b) b { status := 1, cause := 2, source := source } .idle
      | none => s
    refitGangs (maskDeck s1 d)

/-! ### Halt and lock (R538, R539, R572) -/

/-- A LOAD_MANIFEST that has not reached its apply step ends with HALTED (R572): its REPLY has zero result bytes; the berth landings
open again, and fences latched meanwhile are settled. -/
def endLoad (s : State) : State :=
  match s.load with
  | none => s
  | some l =>
    let s1 := { s with load := none }
    let s2 := refitGangs ((List.range 16).foldl (fun t b => setLand t b { landOf t b with closed := false }) s1)
    let x := landOf s2 16
    reply (setLand s2 16 { x with bufs := x.bufs.drop 1 }) 16 0xFF l.hseq 0 7 0x0C []

/-- The module halts (R538): every berth halts, after the ending events on their way to it have been latched.
(DEDUCED, log entry 44.) -/
def haltModule (s : State) : State :=
  let s1 := { s with fc := { s.fc with halt := true } }
  endLoad ((List.range 16).foldl (fun t b => haltBerth (latchPending t b) b) s1)

/-- LOCK clears the key store as well (R539). -/
def lockModule (s : State) : State :=
  let s1 := haltModule s
  { s1 with sec := { s1.sec with keysCleared := true } }

/-- The unit of a source is fenced (R526): a deck, a reduction lane, a port; any other unit halts the module.
(DEDUCED, log entry 44.) -/
def fenceUnit (s : State) (source : BitVec 16) : State :=
  let n := source.toNat
  let level := n / 16384
  let unit := n / 256 % 64
  if level = 0 ∨ level = 1 then fenceDeck s unit source
  else if level = 3 ∧ 8 ≤ unit ∧ unit < 16 then
    (if n % 256 = 0x49 then setPort s (unit - 8) { portOf s (unit - 8) with laneFenced := true } else fencePort s (unit - 8))
  else haltModule s

/-- A unit whose occurrence has the class FENCE is fenced at once (R525, R535). (DEDUCED, log entry 44.) -/
def fenceNow (s : State) (source : BitVec 16) : State := if faultClass s (source.toNat % 256) = 3 then fenceUnit s source else s

/-- The reaction of a class (R525). Tasks that a TASK-class record names end at their home quays. (DEDUCED, log entry 44.) -/
def react (s : State) (o : Occ) : State :=
  if o.cls = 3 then fenceUnit s o.source
  else if o.cls = 4 then haltModule s
  else if o.cls = 5 then lockModule s
  else s

/-! ### The record store (R523, R532-R534) -/

/-- The CLASS byte of a record. -/
def classByte (source : BitVec 16) (cls : Nat) : Nat :=
  let d := (faultDefault (source.toNat % 256)).getD 0
  cls + d * 8 + flagAt (cls != d) 6

/-- The 32 bytes of a record (R523). -/
def faultBytes (r : FaultRec) : List Byte :=
  natLe 2 r.source.toNat ++ natLe 1 (classByte r.source r.cls) ++ natLe 1 (r.berth.getD 0xFF) ++ natLe 4 r.seq.toNat ++
    natLe 4 r.task.toNat ++ natLe 2 r.count ++ natLe 2 0 ++ natLe 8 r.tide ++ natLe 8 r.detail.toNat

/-- The stored record that an occurrence folds into. -/
def foldsInto (s : State) (o : Occ) : Option Nat :=
  (s.fc.recs.find? (fun e => e.2.source == o.source && e.2.berth == o.berth && e.2.task == o.task && e.2.cls == o.cls)).map (·.1)

/-- The oldest stored record of classes [lo, hi]. -/
def oldestRec (s : State) (lo hi : Nat) : Option Nat :=
  ((s.fc.recs.filter (fun e => decide (lo ≤ e.2.cls ∧ e.2.cls ≤ hi))).foldl
    (fun (a : Option (Nat × FaultRec)) e => match a with
      | none => some e
      | some x => if e.2.age < x.2.age then some e else some x) none).map (·.1)

/-- The entry that a new record takes, and whether it replaces one (R533); none where it is dropped. (DEDUCED, log entry 41.) -/
def entryFor (s : State) (cls : Nat) : Option (Nat × Bool) :=
  match (List.range (if 3 ≤ cls then 256 else 192)).find? (fun n => !thas s.fc.recs n) with
  | some n => some (n, false)
  | none =>
    if cls ≤ 1 then none
    else
      match oldestRec s 0 1 with
      | some n => some (n, true)
      | none => if cls = 2 then none else (oldestRec s 2 2).map (fun n => (n, true))

/-- A new record is stored, or dropped, and counted where one is lost. (DEDUCED, log entry 41.) -/
def storeRec (s : State) (r : FaultRec) : State :=
  let c := s.fc
  let lose (x : Collector) : Collector := { x with drop := satInc x.drop 1, ovf := true }
  match entryFor s r.cls with
  | none => { s with fc := { lose c with age := c.age + 1 } }
  | some (n, repl) =>
    let c1 := { c with recs := tput c.recs n r, age := c.age + 1 }
    { s with fc := if repl then lose c1 else c1 }

/-- An occurrence reaches the chip fault collector: it folds into a record, or makes a new one, which is stored, shown in
PW_ALERT_STAT, reported in a FAULT record, and reacted to. -/
def collect (s : State) (o : Occ) : State :=
  match foldsInto s o with
  | some n =>
    { s with fc := { s.fc with recs := s.fc.recs.map (fun e =>
        if e.1 = n then (n, { e.2 with count := min (e.2.count + 1) 0xFFFF }) else e) } }
  | none =>
    let r : FaultRec :=
      { source := o.source, cls := o.cls, berth := o.berth, seq := 0, task := o.task, count := 1, tide := o.tide,
        detail := o.detail, age := s.fc.age }
    let s1 := storeRec s r
    let s2 := if regBits s1 (fcBase + 4) 2 0 ≤ o.cls then alertSet s1 0 else s1
    let ring := match o.berth with
      | some b => ringOf s2 b
      | none => 16
    let s3 := emit s2 ring
      { type := 4, berth := o.berth.getD 0xFF, hseq := none, task := o.task, tide := o.tide, body := faultBytes r,
        soft := decide (o.cls ≤ 1), entry := some r.age }
    react s3 o

/-- The order in which occurrences reach the collector (R528). -/
def occBefore (a b : Occ) : Bool :=
  decide (a.at_ < b.at_) ||
    (a.at_ == b.at_ && (decide (b.cls < a.cls) || (a.cls == b.cls && decide (a.source.toNat < b.source.toNat))))

/-- The first occurrence of a list. -/
def firstOcc : List Occ → Option Occ
  | [] => none
  | o :: r =>
    match firstOcc r with
    | some x => some (if occBefore x o then x else o)
    | none => some o

/-! ### Hardware detections (R545) -/

/-- Whether a bridge unit exists: that of E1 only where E1 is fitted (R23). -/
def bridgeFitted (s : State) (b : Nat) : Bool := b != 2 || s.fitted.e1

/-- Flits of a bridge have been replayed `n` times: the record names the replays since the one before it (R545, R546). Beyond the field's
width the number stays at 65,535. (DEDUCED, log entry 45.) -/
def bridgeReplayed (s : State) (b n : Nat) : State :=
  let total := min 65535 (tget 0 s.fc.replays b + n)
  let keep (t : State) (k : Nat) : State := { t with fc := { t.fc with replays := tput t.fc.replays b k } }
  if mayReport s 0x60 b 1000000 then keep (noteReport (raiseChip s (4 + b) 0x60 total) 0x60 b) 0 else keep s total

/-- Unit hardware detects a fault by itself. (DEDUCED, log entry 44.) -/
def detect (s : State) (f : HwFault) : State :=
  match f with
  | .bufCorr d loc =>
    if mayReport s 0x0D d.val 1000000 then noteReport (raiseDeck s 1 d.val 0x0D loc) 0x0D d.val else s
  | .bufUncorr d loc => raiseDeck s 1 d.val 0x0E loc
  | .cmdmemCorr q slot => raise s 2 q.val 0x24 none none (slot % 16384)
  | .pfsParity q line =>
    let x := quayOf s q.val
    if x.lines.contains line then
      raise (setQuay s q.val { x with lines := x.lines.filter (fun l => l != line) }) 2 q.val 0x2C none none (line / 2048)
    else s
  | .bridgeCorr b n => if bridgeFitted s b.val then bridgeReplayed s b.val n else s
  | .bridgeUncorr b dir => if bridgeFitted s b.val then raiseChip s (4 + b.val) 0x61 dir.val else s

/-- FAULT_COLLECT: what hardware has detected is raised, and the first occurrence on its way is collected. -/
def faultCollect (s : State) (detected : Option HwFault) : State :=
  let s1 := match detected with
    | some f => detect s f
    | none => s
  match firstOcc s1.occ with
  | some o => collect { s1 with occ := dropFirst (fun x => x == o) s1.occ } o
  | none => s1

/-- FAULT_COLLECT. -/
def execFaultCollect (detected : Option HwFault) (s : State) : Answer := .next (faultCollect s detected)

/-! ### Clearing (R541-R543) -/

/-- Clear the stored records of class TASK or below for whose entry a test holds. -/
def clearRecs (s : State) (on : Nat → Bool) : State :=
  { s with fc := { s.fc with recs := s.fc.recs.filter (fun e => !(on e.1 && decide (e.2.cls ≤ 2))) } }

/-- FC_VALID_CLEAR: a 1 clears its entry. -/
def execFcValidClear (n : Fin 8) (value : Word) (s : State) : Answer :=
  .next (clearRecs s (fun e => e / 32 == n.val && bit value.toNat (e % 32)))

/-- FC_CLEAR_ALL. -/
def execFcClearAll (s : State) : Answer := .next (clearRecs s (fun _ => true))

/-! ### ERR_N (R540) and FC_STAT (R543) -/

/-- Whether ERR_N is driven low. -/
def errN (s : State) : Bool :=
  let t := regBits s (fcBase + 4) 2 0
  s.fc.recs.any (fun e => decide (t ≤ e.2.cls)) || (s.fc.ovf && decide (t ≤ 2)) || harbour s || s.boot.heldReset

/-- FC_STAT. -/
def fcStat (s : State) : Nat :=
  flagAt (errN s) 31 + flagAt s.fc.ovf 30 + flagAt (harbour s) 29 + s.fc.recs.length * 2 ^ 16 +
    (List.range 6).foldl (fun a k => a + flagAt (s.fc.recs.any (fun e => e.2.cls == k)) k) 0

/-- Word `w` of stored record `n`. -/
def recWord (s : State) (n w : Nat) : Nat :=
  match s.fc.recs.find? (fun e => e.1 == n) with
  | some e => leAt (faultBytes e.2) (4 * w) 4
  | none => 0

end Sys2Proof.Machine
end

