-- ==== Sys2Proof/Machine/Secure.lean ====
section
/-! DEFINITION. The security unit: SC_STAT, the measurement registers, debug access, the locked policy and the manifest key, security
violations, harbour state and JTAG (R539, R556, R559-R563, R582-R586). -/

namespace Sys2Proof.Machine

/-- Whether a LOCK record is held. -/
def lockHeld (s : State) : Bool := s.fc.recs.any (fun e => e.2.cls == 5)

/-- SC_MAN_POLICY.LOCK. -/
def policyLocked (s : State) : Bool := bit (regGet s (scBase + 8)).toNat 0

/-- SC_STAT (R585). -/
def scStat (s : State) : Nat :=
  flagAt (lockHeld s) 31 + flagAt s.sec.debug 30 + flagAt s.sec.keysCleared 29 + flagAt (policyLocked s) 28

/-! ### Measurement (R562, R563) -/

/-- Measurement register Mi. -/
def measOf (s : State) (i : Nat) : List Byte := tget (List.replicate 64 0) s.sec.meas i

/-- Mi is extended by a digest of 64 bytes. -/
def extendM (s : State) (i : Nat) (d : List Byte) : State :=
  { s with sec := { s.sec with meas := tput s.sec.meas i (digest64 (measOf s i ++ slice d 0 64)) } }

/-- M1 is extended by the digest of the four bytes of SC_STAT. (DEDUCED, log entry 51.) -/
def extendStat (s : State) : State := extendM s 1 (digest64 (natLe 4 (scStat s)))

/-! ### Debug access, policy and key (R582, R585) -/

/-- SC_DEBUG_REQ (R582): the first request clears the keys, latches DEBUG, extends M1 and raises DEBUG_EN.
(DEDUCED, log entry 51.) -/
def debugRequest (s : State) (smbus : Bool) : State :=
  if s.sec.debug then s
  else raiseChip (extendStat { s with sec := { s.sec with debug := true, keysCleared := true } }) 2 0x74 (flagAt smbus 0)

/-- SC_DEBUG_REQ. -/
def execScDebugReq (overSmbus : Bool) (s : State) : Answer := .next (debugRequest s overSmbus)

/-- A write of SC_MAN_POLICY: nothing while LOCK = 1; setting LOCK extends M1 (R563, R585). (DEDUCED, log entry 51.) -/
def policyWrite (s : State) (v : Word) : State :=
  if policyLocked s then s
  else
    let s1 := regSet s (scBase + 8) (v &&& 3)
    if bit v.toNat 0 then extendStat s1 else s1

/-- SC_MAN_POLICY_LOCK. -/
def execScManPolicyLock (value : Word) (s : State) : Answer := .next (policyWrite s value)

/-- A write of word `n` of the manifest key: 57 bytes, so the upper bytes of word 14 are reserved. -/
def keyWrite (s : State) (n : Nat) (v : Word) : State :=
  if policyLocked s then s else regSet s (scBase + 0x40 + 4 * n) (if n = 14 then v &&& 0xFF else v)

/-- The manifest public key. -/
def manifestKey (s : State) : List Byte :=
  ((List.range 15).flatMap (fun n => natLe 4 (regGet s (scBase + 0x40 + 4 * n)).toNat)).take 57

/-- The public half of the identity key, zero where none is derived (R556). -/
def identityKey (s : State) : List Byte :=
  if s.sec.identity then slice (Config.identityPublic s.boot.resets) 0 57 else List.replicate 57 0

/-! ### Harbour state (R552, R559) and violations (R586) -/

/-- The module enters harbour state for a cause; of several causes the lowest shows. (DEDUCED, log entry 54.) -/
def enterHarbour (s : State) (cause : Nat) : State :=
  { s with boot := { s.boot with phase := 8, hcause := if s.boot.hcause = 0 then cause else min s.boot.hcause cause } }

/-- Whether start-up is going on: the phases before Ready (R547). (DEDUCED, log entry 54.) -/
def startingUp (s : State) : Bool := decide (s.boot.phase < 7) && !s.boot.heldReset

/-- SEC_VIOL: raised, and during start-up harbour state. (DEDUCED, log entry 54.) -/
def execSecViol (kind : Fin 3) (s : State) : Answer :=
  .next (let s1 := raiseChip s 2 0x73 kind.val
         if startingUp s then enterHarbour s1 6 else s1)

/-! ### JTAG (R583) -/

/-- What debug access over JTAG leaves: everything undefined but what a full reset keeps, the fitted parts, the non-volatile
memories, and this model's own bookkeeping (log entry 2). -/
def scanState (s : State) : State :=
  let f := Config.scannedState s.free
  { f with pending := s.pending, fitted := s.fitted, flash := s.flash, out := s.out, free := s.free + 51,
           nextId := s.nextId + f.runs.length, runs := f.runs.zipIdx.map (fun e => { e.1 with id := s.nextId + e.2 }),
           hbm := Mem.open_ (2 ^ 38) (s.free + 1), cmdMem := Mem.open_ 0x200000 (s.free + 2),
           decks := (List.range 16).map (fun d =>
             let x := Deck.afterReset (s.free + 3 + 3 * d)
             (d, { deckOf f d with buf0 := x.buf0, buf1 := x.buf1, acc := x.acc })),
           fc := { f.fc with recs := s.fc.recs },
           sec := { f.sec with debug := s.sec.debug },
           boot := { f.boot with resets := s.boot.resets },
           rw := ((scBase + 8) :: (scBase + 12) :: (List.range 15).map (fun n => scBase + 0x40 + 4 * n)).foldl
             (fun t a => tput t a (regGet s a)) f.rw }

/-- JTAG_ACCESS: private instructions and internal scan act only while DEBUG is latched (R583). EXTEST in service breaks a must for which no outcome is
stated (R11); it leaves the state as it is. (DEDUCED and, for EXTEST in service, DESIGN CHOICE, log entry 55.) -/
def execJtagAccess (op : JtagOp) (s : State) : Answer :=
  .next (match op with
    | .privateInstruction => if s.sec.debug then scanState s else s
    | .internalScan => if s.sec.debug then scanState s else s
    | .bypass => s
    | .samplePreload => s
    | .extest => s
    | .idcode => s)

end Sys2Proof.Machine
end

