-- ==== Sys2Proof/Machine/Landing.lean ====
section
/-! DEFINITION. Landings: messages, their sequence and checks, REPLYs and QUERY, and the records that wait for a ring
(R491-R504, R517, R518). -/

namespace Sys2Proof.Machine

/-! ### A message and its header (R494, R505) -/

/-- A work message as its fields. -/
structure Header where
  type : Nat
  berth : Nat
  flags : Nat
  hseq : Word
  ack : Word
  task : Word
deriving DecidableEq, Repr

/-- The header of a message. -/
def headerOf (d : List Byte) : Header :=
  { type := leAt d 0 1, berth := leAt d 1 1, flags := leAt d 2 2, hseq := BitVec.ofNat 32 (leAt d 4 4),
    ack := BitVec.ofNat 32 (leAt d 8 4), task := BitVec.ofNat 32 (leAt d 12 4) }

/-- The contexts that a START_TASK names, as numbers 18q + c. -/
def startCtxs (d : List Byte) : List Nat := (List.range 72).filter (bit (leAt d 0x22 9))

/-- The length of a message of a type, none for a reserved type (R494, R577). -/
def msgLen (d : List Byte) : Option Nat :=
  let t := leAt d 0 1
  if t = 1 then some (48 + 2 * (startCtxs d).length)
  else if t = 2 ∨ t = 3 ∨ t = 4 ∨ t = 5 ∨ t = 6 then some 32
  else if t = 7 then some 48
  else if t = 0x11 then some 80
  else if t = 0x12 then some 112
  else if t = 0x10 ∨ t = 0x13 ∨ t = 0x14 ∨ t = 0x15 then some 48
  else none

/-- Whether bytes [off, off + len) of a message are zero. -/
def zeroAt (d : List Byte) (off len : Nat) : Bool := leAt d off len == 0

/-- Whether the body of a message has a field that must be zero and is not. -/
def bodyZero (d : List Byte) : Bool :=
  let t := leAt d 0 1
  if t = 1 then
    zeroAt d 0x2B 5 && (List.range (startCtxs d).length).all (fun i => bits (leAt d (0x30 + 2 * i) 2) 15 14 == 0)
  else if t = 7 then zeroAt d 0x2C 4
  else if t = 0x10 ∨ t = 0x12 then zeroAt d 0x21 15
  else if t = 0x11 ∨ t = 0x15 then zeroAt d 0x28 8
  else if t = 0x14 then decide (leAt d 0x20 1 < 2) && zeroAt d 0x21 15
  else true

/-- Whether a message is a BAD_MESSAGE on landing `l` (R497). (DEDUCED, log entry 40.) -/
def badMessage (l : Nat) (d : List Byte) : Bool :=
  let h := headerOf d
  msgLen d != some d.length || bits h.berth 7 4 != 0 || bits h.flags 15 2 != 0 || (bit h.flags 0 && h.type != 6) ||
    (bit h.flags 1 && (h.type != 6 || l != 16)) || !zeroAt d 16 16 ||
    ((h.type == 5 || h.type == 6 || h.type == 7) && h.task != 0) || (l != 16 && h.berth != l) || !bodyZero d

/-- The berth that a message concerns, as its REPLY names it: that of a message of types 1 to 6, none for the others. -/
def msgBerth (l : Nat) (h : Header) : Nat := if l ≠ 16 then l else if h.type ≤ 6 then h.berth % 16 else 0xFF

/-! ### ACK_DSEQ and sequences (R495, R496) -/

/-- An ACK_DSEQ is applied where it lies ahead of the last one and not beyond the last DSEQ (R496). -/
def applyAck (s : State) (l : Nat) (ack : Word) : State :=
  let x := landOf s l
  let ahead := (ack - x.ack).toNat
  if ahead ≤ 2 ^ 31 ∧ ahead ≤ (x.dseq - x.ack).toNat then setLand s l { x with ack := ack } else s

/-- The status that the sequence of a message gives it, none where it is taken (R495). -/
def seqStatus (x : LandingSt) (h : Header) : Option Nat :=
  if h.type = 6 ∨ h.hseq = x.h + 1 then none
  else if (x.h - h.hseq).toNat < 2 ^ 31 then some 0x09 else some 0x0A

/-- A status that ends the handling of a message before its own checks, in the order of R498. (DEDUCED, log entry 40.) -/
def earlyStatus (s : State) (l : Nat) (d : List Byte) : Option Nat :=
  let h := headerOf d
  if badMessage l d then some 0x08
  else if l ≠ 16 ∧ 7 ≤ h.type then some 0x0F
  else if harbour s && h.type != 6 && decide (h.type < 16) then some 0x0D
  else if 1 ≤ h.type ∧ h.type ≤ 5 then
    let st := (berthOf s (h.berth % 16)).st
    if st = .undefined ∨ st = .disabling ∨ st = .disabled then some 0x0B
    else if st = .halted ∨ halted s then some 0x0C
    else none
  else if h.type = 7 ∧ halted s then some 0x0C
  else none

/-- The first message of a landing leaves its buffer. -/
def popMsg (s : State) (l : Nat) : State :=
  let x := landOf s l
  setLand s l { x with bufs := x.bufs.drop 1 }

/-- A REPLY to a message. -/
def answer (s : State) (l : Nat) (h : Header) (status : Nat) (rest : List Byte) : State :=
  reply s l (msgBerth l h) h.hseq h.task h.type status rest

/-- The first message of a landing is handled: its HSEQ, then what ends it early, then `act` on what is taken (R495-R498). `act`
answers it. (DEDUCED, log entry 40.) -/
def handle (s : State) (l : Nat) (d : List Byte) (act : State → Header → State) : State :=
  let h := headerOf d
  let s1 := popMsg s l
  match seqStatus (landOf s1 l) h with
  | some st => answer s1 l h st []
  | none =>
    let s2 := if h.type = 6 then s1 else setLand s1 l { landOf s1 l with h := h.hseq }
    match earlyStatus s2 l d with
    | some st => answer s2 l h st []
    | none => act s2 h

/-- Whether the first message of a landing has no row of its own: a reserved type, one too short for a header, or a type that the
landing does not serve. -/
def noRow (l : Nat) (d : List Byte) : Bool :=
  let t := leAt d 0 1
  d.length < 32 || !(decide (1 ≤ t ∧ t ≤ 6) || (l == 16 && (t == 7 || decide (0x10 ≤ t ∧ t ≤ 0x15))))

/-- Messages without a row of their own are answered as they come to the front. (DEDUCED, log entry 40.) -/
def clearFront (l : Nat) : Nat → State → State
  | 0, s => s
  | fuel + 1, s =>
    match (landOf s l).bufs with
    | m :: _ => if (l == 16 && s.load.isSome) || !noRow l m.data then s else clearFront l fuel (handle s l m.data (fun t _ => t))
    | [] => s

/-- A landing goes on to its next message. -/
def nextMsg (s : State) (l : Nat) : State := clearFront l 64 s

/-- A row handles the first message of a landing where it is of the row's type; a LOAD_MANIFEST in progress holds the management
landing. -/
def onMsg (s : State) (l type : Nat) (act : State → Msg → Header → State) : State :=
  match (landOf s l).bufs with
  | m :: _ =>
    if leAt m.data 0 1 = type && decide (32 ≤ m.data.length) && !(l == 16 && s.load.isSome) then
      nextMsg (handle s l m.data (fun t h => act t m h)) l
    else s
  | [] => s

/-! ### QUERY (R517, R518) -/

/-- MG_BERTH_STAT_b.STATE. -/
def stateCode : BerthState → Nat
  | .undefined => 0
  | .idle => 1
  | .running => 2
  | .suspending => 3
  | .suspended => 4
  | .resuming => 5
  | .disabling => 6
  | .disabled => 7
  | .halted => 8

/-- The fields of a QUERY for landing `t`, in a REPLY on the ring of landing `l`. -/
def queryFields (s : State) (t : Nat) : List Byte :=
  let x := landOf s t
  let b := berthOf s t
  if t = 16 then
    natLe 4 x.h.toNat ++ natLe 4 x.dseq.toNat ++ natLe 1 0 ++ natLe 1 0xFF ++ natLe 2 x.waiting.length ++ natLe 20 0
  else
    natLe 4 x.h.toNat ++ natLe 4 x.dseq.toNat ++ natLe 1 (stateCode b.st) ++ natLe 1 t ++ natLe 2 x.waiting.length ++
      natLe 4 (b.cur.getD 0).toNat ++ natLe 4 (b.last.getD 0).toNat ++ natLe 1 b.lastStatus ++ natLe 3 0 ++ natLe 8 b.lastElapsed

/-- One REPLY to a QUERY about landing `t`. -/
def queryReply (l : Nat) (h : Header) (s : State) (t : Nat) : State :=
  reply s l (if t = 16 then 0xFF else t) h.hseq 0 6 0 (queryFields s t)

/-- QUERY. (DEDUCED, log entry 40.) -/
def doQuery (l : Nat) (s : State) (_ : Msg) (h : Header) : State :=
  if bit h.flags 0 then s
  else if l ≠ 16 then queryReply l h s l
  else if bit h.flags 1 then ((List.range 16).filter (berthDefined s) ++ [16]).foldl (queryReply l h) s
  else queryReply l h s (h.berth % 16)

/-- QUERY. -/
def execQuery (l : Landing) (s : State) : Answer := .next (onMsg s l.val 6 (doQuery l.val))

/-! ### Records that wait (R501, R504) -/

/-- RING_RECORD_WRITE: the first record that waits is written where there is room. -/
def ringWrite (s : State) (l : Nat) : State :=
  let x := landOf s l
  match x.waiting with
  | r :: rest => if ringRoom s l then writeRecord (setLand s l { x with waiting := rest }) l r else s
  | [] => s

/-- RING_RECORD_WRITE. -/
def execRingRecordWrite (l : Landing) (s : State) : Answer := .next (ringWrite s l.val)

end Sys2Proof.Machine
end

