-- ==== Sys2Proof/Machine/Tasks.lean ====
section
/-! DEFINITION. Tasks: starting, aborting, pre-empting and resuming them, their COMPLETION records, and disabling a berth
(R241, R505-R516, R519). -/

namespace Sys2Proof.Machine

/-! ### START_TASK (R241, R505, R506) -/

/-- The starting program counter of the `i`-th named context. -/
def startPc (d : List Byte) (i : Nat) : Nat := leAt d (0x30 + 2 * i) 2 % 16384

/-- Whether a named context may start (R249, R506). -/
def ctxStarts (s : State) (b n pc : Nat) : Bool :=
  let x := ctxOf s (n / 18) (n % 18)
  x.berth == some b && decide (0 < x.len ∧ x.start ≤ pc % 8192 ∧ pc % 8192 < x.start + x.len) &&
    !(decide (n % 18 < 16) && deckFenced s (ctxDeck (n / 18) (n % 18)))

/-- The named contexts with their program counters. -/
def startList (d : List Byte) : List (Nat × Nat) :=
  ((List.range (startCtxs d).length).zip (startCtxs d)).map (fun e => (e.2, startPc d e.1))

/-- A named context starts: counters 0, comparators false, its queue empty, in no half. -/
def startCtx (s : State) (e : Nat × Nat) : State :=
  let q := e.1 / 18
  let c := e.1 % 18
  let x := ctxOf s q c
  setCtx s q c { x with mode := .running, stall := .none, pc := e.2, cnt := [], cmp := [], queue := [], held := none, occ := none,
                        timer := {}, named := true, endDone := false, endSeen := false }

/-- A context of the berth that is not named stays idle. -/
def idleCtx (s : State) (n : Nat) : State :=
  let x := ctxOf s (n / 18) (n % 18)
  setCtx s (n / 18) (n % 18) { x with mode := .idle, named := false, endDone := false, endSeen := false }

/-- Segments of another epoch that lanes hold for a berth are discarded (R445). -/
def dropOldSegs (s : State) (b epoch : Nat) : State :=
  { s with ports := s.ports.map (fun e => (e.1, { e.2 with
      segs := e.2.segs.filter (fun g => (connOf s g.conn).berth != b || leAt g.header 6 2 == epoch) })) }

/-- Whether the deck under in-field test belongs to a berth (R576). -/
def bistHolds (s : State) (b : Nat) : Bool :=
  match s.diag.bistDeck with
  | some d => s.diag.busy && deckBerth s d == some b
  | none => false

/-- A task starts. -/
def startTask (s : State) (l b : Nat) (task : Word) (d : List Byte) : State :=
  let epoch := leAt d 0x20 2
  let s1 := (berthCtxs s b).foldl idleCtx s
  let s2 := (startList d).foldl startCtx s1
  let s3 := (berthFlags s2 b).foldl (fun t k => flagPut t k 0) s2
  let x := berthOf s3 b
  let used := (berthDecks s3 b).filter (fun k => !deckFenced s3 k)
  dropOldSegs (setBerth s3 b
    { x with st := .running, cur := some task, fromMgmt := l == 16, startTide := s.time.tide, ranFor := 0, ranSince := s.time.mono,
             suspFor := 0, epoch := BitVec.ofNat 16 epoch, seqs := [], bseq := 0,
             taskDecks := BitVec.ofNat 16 (used.foldl (fun a k => a + 2 ^ k) 0), ended := none, preemptOwed := none,
             afterEnd := .idle, suspended := [], freed := [], restore := .waiting, hold := { x.hold with taskSpilled := false } }) b epoch

/-- START_TASK. -/
def doStart (l : Nat) (s : State) (m : Msg) (h : Header) : State :=
  let b := h.berth % 16
  if (berthOf s b).st ≠ .idle ∨ bistHolds s b then answer s l h 0x02 []
  else if (startList m.data).isEmpty || !(startList m.data).all (fun e => ctxStarts s b e.1 e.2) then answer s l h 0x07 []
  else answer (startTask s l b h.task m.data) l h 0x00 []

/-- START_TASK. -/
def execStartTask (l : Landing) (s : State) : Answer := .next (onMsg s l.val 1 (doStart l.val))

/-! ### ABORT (R510) -/

/-- ABORT. (DEDUCED, log entry 42.) -/
def doAbort (l : Nat) (s : State) (_ : Msg) (h : Header) : State :=
  let b := h.berth % 16
  if (berthOf s b).cur = some h.task then
    latchEnd (answer s l h 0x00 []) b { status := 1, cause := 1, hseq := h.hseq } .idle
  else if (berthOf s b).last = some h.task then answer s l h 0x04 []
  else answer s l h 0x03 []

/-- ABORT. -/
def execAbort (l : Landing) (s : State) : Answer := .next (onMsg s l.val 2 (doAbort l.val))

/-! ### PREEMPT (R121, R272, R511, R512) -/

/-- PREEMPT. Each cut names a running PASS and its first K index not yet entered. -/
def doPreempt (l : Nat) (cuts : List (Nat × Nat)) (s : State) (_ : Msg) (h : Header) : State :=
  let b := h.berth % 16
  let x := berthOf s b
  if x.cur = some h.task then
    if x.ended.isSome then answer s l h 0x05 []
    else if x.st = .running then
      cutAll b cuts (setBerth s b { x with st := .suspending,
                                           preemptOwed := some { landing := l, berth := b, hseq := h.hseq, task := h.task, type := 3 } })
    else answer s l h 0x06 []
  else if x.last = some h.task then answer s l h 0x05 []
  else answer s l h 0x03 []

/-- PREEMPT. -/
def execPreempt (l : Landing) (cuts : List (Nat × Nat)) (s : State) : Answer := .next (onMsg s l.val 3 (doPreempt l.val cuts))

/-- A REPLY that was owed. -/
def payOwed (s : State) (o : Owed) (status : Nat) : State := reply s o.landing o.berth o.hseq o.task o.type status []

/-- Whether a run is a pass that has been suspended, with its replays made (R121). -/
def suspendedRun (r : Run) : Bool := r.pass.cut && r.pass.pend.isEmpty

/-- Whether transactions of a berth are in flight. -/
def berthBusy (s : State) (b : Nat) : Bool := s.trk.any (fun t => t.berth == some b)

/-- Whether every engine of a suspending task has finished (R121, R272, R371, R458). -/
def enginesDone (s : State) (b : Nat) : Bool :=
  (s.runs.filter (fun r => r.berth == b)).all suspendedRun && !berthBusy s b

/-- The counts of a suspended pass go with it. -/
def keepCounts (s : State) (e : SuspendedPass) : SuspendedPass :=
  match s.runs.find? (fun r => r.pass.cut && r.q == e.q && r.c == e.c && r.pass.quad == e.quad) with
  | some r => { e with misses := r.pass.misses + r.pass.inPlace.length, skipped := r.pass.skipped }
  | none => e

/-- Every used deck of a berth is saved, unless a fault of the task is recorded (R128); the berth is suspended and the PREEMPT
answered. `x` is the berth before. (DEDUCED, log entry 43.) -/
def saveTask (s : State) (b : Nat) (x : Berth) (late : Option Nat) : State :=
  let s1 := setBerth s b { berthOf s b with suspended := x.suspended.map (keepCounts s) }
  let t := (usedDecks s1 b).foldl (saveDeck b late) (s1, true)
  if !(endsFor t.1 b).isEmpty then t.1
  else
    let s2 := { t.1 with runs := t.1.runs.filter (fun r => r.berth != b) }
    let y := berthOf s2 b
    let s3 := setBerth s2 b { y with st := .suspended, ranFor := y.ranFor + (s.time.mono - y.ranSince), suspSince := s.time.mono,
                                     preemptOwed := none }
    let s4 := mapTimers s3 b (timerStop s3)
    match x.preemptOwed with
    | some o => payOwed s4 o 0x01
    | none => s4

/-- Whether the decks of a task have tracker entries for an access of their save areas: a deck whose allotment is full stalls (R338). -/
def decksRoom (s : State) (b : Nat) : Bool := (usedDecks s b).all (fun k => stepRoom s [k])

/-- SUSPEND_COMPLETE: once no engine of the task is at work. `parity` is an accumulator entry that the save finds in error.
(DEDUCED, log entry 42.) -/
def suspendDone (s : State) (b : Nat) (parity : Option (Nat × Nat)) (late : Option Nat) : State :=
  if (berthOf s b).st = .suspending && taskLive s b && enginesDone s b && (endsFor s b).isEmpty && decksRoom s b then
    saveTask (match parity with
      | some p => if (usedDecks s b).contains p.1 then parityHit s p.1 p.2 else s
      | none => s) b (berthOf s b) late
  else s

/-- SUSPEND_COMPLETE. -/
def execSuspendComplete (b : Fin 16) (parity : Option (Fin 16 × Nat)) (mem : HbmOutcome) (s : State) : Answer :=
  .next (suspendDone s b.val (parity.map (fun p => (p.1.val, p.2))) mem.late)

/-! ### RESUME (R125, R514, R576) -/

/-- The restore of a resuming task is stopped or done. -/
def setRestore (s : State) (b : Nat) (r : Restore) : State := setBerth s b { berthOf s b with restore := r }

/-- The suspended passes that the state pages name are re-entered (R125); one that its page no longer names is lost, and its registers are out of
use. (DEDUCED, log entry 43.) -/
def reenterAll (s : State) (b : Nat) (l : List (Nat × Nat × List Byte)) : State :=
  let ps := l.flatMap (passesFrom s b)
  let lost := (berthOf s b).suspended.filter (fun e => !ps.any (fun p => p.q == e.q && p.c == e.c && p.quad == e.quad))
  let s1 := lost.foldl (fun t e => inuseDown t e.cmd.uses) (setBerth s b { berthOf s b with suspended := [], restore := .done })
  ps.foldl (reenterPass b) s1

/-- What the state pages of all used decks, once read, lead to (R125): where a saved shape differs the resume does not proceed, and the first such
deck raises RESTORE_SHAPE; else the decks are restored and the suspended passes re-entered. -/
def restorePages (s : State) (b : Nat) (mem : HbmOutcome) (l : List (Nat × Nat × List Byte)) : State :=
  match l.find? (fun e => leAt e.2.2 0x9C 4 != (deckOf s e.1).gang.toNat) with
  | some e => setRestore (restoreShape s b e) b .stopped
  | none =>
    let r := restoreAll (deckRequester s b) b mem [0, 1, 2, 3] l s
    if r.2 then reenterAll r.1 b l else setRestore r.1 b .stopped

/-- The decks are restored from their save areas and the suspended passes are re-entered (R125). A deck without a save area raises WIN_VIOL, as
its save does (R124). (DEDUCED, log entry 43.) -/
def restoreTask (s : State) (b : Nat) (mem : HbmOutcome) : State :=
  match (usedDecks s b).find? (fun d => (deckOf s d).saveBase.isNone) with
  | some d => setRestore (raiseBerth s 1 d 0x33 b 0) b .stopped
  | none =>
    let pages := readPages (deckRequester s b) b mem ((usedDecks s b).map (fun d => (d, (deckOf s d).saveBase.getD 0))) s
    match pages.2 with
    | none => setRestore pages.1 b .stopped
    | some l => restorePages pages.1 b mem l

/-- Whether the restore of a resuming task can be made now: it has not been, no deck of the berth is under test (R576), and the decks have
tracker entries for it (R338). -/
def restoreReady (s : State) (b : Nat) : Bool := (berthOf s b).restore == .waiting && !bistHolds s b && decksRoom s b

/-- A resuming task is restored as soon as it can be. -/
def tryRestore (s : State) (b : Nat) (mem : HbmOutcome) : State := if restoreReady s b then restoreTask s b mem else s

/-- RESUME (R514). -/
def doResume (l : Nat) (mem : HbmOutcome) (s : State) (_ : Msg) (h : Header) : State :=
  let b := h.berth % 16
  let x := berthOf s b
  if x.cur = some h.task then
    if x.ended.isSome || x.st != .suspended then answer s l h 0x06 []
    else
      let s1 := setBerth s b { x with st := .resuming, suspFor := x.suspFor + (s.time.mono - x.suspSince), ranSince := s.time.mono,
                                      restore := .waiting }
      tryRestore (answer (mapTimers s1 b (timerGo s1)) l h 0x00 []) b mem
  else if x.last = some h.task then answer s l h 0x06 []
  else answer s l h 0x03 []

/-- RESUME. -/
def execResume (l : Landing) (mem : HbmOutcome) (s : State) : Answer := .next (onMsg s l.val 4 (doResume l.val mem))

/-- Whether a berth is resuming a task that nothing has ended. -/
def resumeGoes (s : State) (b : Nat) : Bool :=
  (berthOf s b).st == .resuming && taskLive s b && (endsFor s b).isEmpty

/-- RESUME_COMPLETE: a restore that had to wait is made; the berth is running once every engine has resumed (R514, R576). -/
def resumeDone (s : State) (b : Nat) (mem : HbmOutcome) : State :=
  if resumeGoes s b then
    let t := tryRestore s b mem
    if resumeGoes t b && (berthOf t b).restore == .done then setBerth t b { berthOf t b with st := .running } else t
  else s

/-- RESUME_COMPLETE. -/
def execResumeComplete (b : Fin 16) (mem : HbmOutcome) (s : State) : Answer := .next (resumeDone s b.val mem)

/-! ### COMPLETION (R499, R503, R509, R519) -/

/-- The body of a COMPLETION record. -/
def completionBody (x : Berth) (e : EndInfo) : List Byte :=
  natLe 1 e.status ++ natLe 1 e.cause ++ natLe 2 e.source.toNat ++ natLe 8 x.startTide ++ natLe 8 e.elapsed ++ natLe 8 x.suspFor ++
    natLe 4 e.hseq.toNat

/-- The COMPLETION record of a berth's ended task: on the berth's ring, with a copy on the management ring where the task was started
from the management landing. (DEDUCED, log entry 41.) -/
def writeCompletion (s : State) (b : Nat) (e : EndInfo) : State :=
  let x := berthOf s b
  let r : Rec := { type := 2, berth := b, hseq := none, task := x.cur.getD 0, tide := e.tide, body := completionBody x e }
  let s1 := emit s (ringOf s b) r
  if x.fromMgmt && ringOf s b != 16 then emit s1 16 r else s1

/-- Whether the occurrence that ended a task has still to reach the collector (R534). -/
def faultOnWay (s : State) (b : Nat) (e : EndInfo) : Bool :=
  e.cause == 2 && s.occ.any (fun o => o.source == e.source && o.berth == some b && some o.task == (berthOf s b).cur)

/-- The task is done with: its COMPLETION, the halves that its end made writable, and a PREEMPT_LATE that is owed (R255, R509, R512).
(DEDUCED, log entry 42.) -/
def finishTask (s : State) (b : Nat) (e : EndInfo) (st : BerthState) : State :=
  let s1 := writeCompletion s b e
  let x := berthOf s1 b
  let s2 := x.freed.foldl (fun t k => halfRecord t k.1 b k.2) s1
  let s3 := setBerth s2 b { berthOf s2 b with
    cur := none, last := x.cur, lastStatus := e.status, lastElapsed := e.elapsed, ended := none, freed := [], preemptOwed := none, st := st }
  match x.preemptOwed with
  | some o => payOwed s3 o 0x05
  | none => s3

/-- TASK_COMPLETION_RECORD: once no transaction of the task is in flight and the FAULT record of what ended it is queued. -/
def completeTask (s : State) (b : Nat) : State :=
  let x := berthOf s b
  match x.ended with
  | some e => if x.st = .disabling || berthBusy s b || faultOnWay s b e then s else finishTask s b e x.afterEnd
  | none => s

/-- TASK_COMPLETION_RECORD. -/
def execTaskCompletionRecord (b : Fin 16) (s : State) : Answer := .next (completeTask s b.val)

/-- The transactions of a berth are abandoned: the bytes that they were writing are undefined (R509), and their pieces that are not in bank queues
are gone. -/
def abandonBerth (s : State) (b : Nat) : State :=
  let mine := s.trk.filter (fun t => t.berth == some b)
  let s1 := { s with
    trk := s.trk.filter (fun t => t.berth != some b),
    quays := s.quays.map (fun e => (e.1, { e.2 with fills := e.2.fills.filter (fun f => !mine.any (fun t => t.id == f.2.2)) })) }
  let s2 := setPieces s1 (s1.fabric.pieces.filter (fun x => !(mine.any (fun t => t.id == x.trk) && (x.st == .sent || x.st == .waiting))))
  issueAll ((mine.filter (fun t => t.req.write)).foldl (fun t e => hbmUndefine t e.req.addr e.req.len) s2)

/-- TRANSACTION_ABANDON: 5 ms after the latch that ended the task. -/
def execTransactionAbandon (b : Fin 16) (s : State) : Answer :=
  .next (match (berthOf s b.val).ended with
    | some e => if e.at_ + 5000000 ≤ s.time.mono then abandonBerth s b.val else s
    | none => s)

/-! ### DISABLE_BERTH (R332, R406, R515) -/

/-- The contexts, flags and halves of a berth without a live task are left as an abort leaves them (R256, R273). -/
def stopIdle (s : State) (b : Nat) : State :=
  let s1 := ((berthCtxs s b).filter (fun n => (ctxOf s (n / 18) (n % 18)).named)).foldl (fun t n => stopCtx t (n / 18) (n % 18))
    (freeHalves s b)
  undefineFlags (berthFlags s1 b) s1

/-- DISABLE_BERTH. (DEDUCED, log entry 42.) -/
def doDisable (l : Nat) (s : State) (_ : Msg) (h : Header) : State :=
  let b := h.berth % 16
  let s1 := if taskLive s b then latchEnd s b { status := 2, cause := 3, hseq := h.hseq } .disabled else stopIdle s b
  setBerth s1 b { berthOf s1 b with
    st := .disabling, disableAt := s.time.mono,
    disableOwed := some { landing := l, berth := b, hseq := h.hseq, task := h.task, type := 5 } }

/-- DISABLE_BERTH. -/
def execDisableBerth (l : Landing) (s : State) : Answer := .next (onMsg s l.val 5 (doDisable l.val))

/-- The connections of a berth enter the error state without a record (R407). -/
def failConns (s : State) (b : Nat) : State :=
  ((s.conns.map (·.1)).filter (fun n => n != 0 && (connOf s n).valid && (connOf s n).berth == b)).foldl
    (fun t n => connFail t n 0 false) s

/-- The windows of a berth are sealed (R332). -/
def sealWindows (s : State) (b : Nat) : State :=
  { s with windows := s.windows.map (fun e => if e.2.berth = b then (e.1, { e.2 with sealedW := true }) else e) }

/-- The page states of a disabled berth's hold are undefined (R228). -/
def loseHold (s : State) (b : Nat) : State :=
  let g := freshGen s
  setHold g.2 b { (berthOf g.2 b).hold with lost := some g.1 }

/-- DISABLE_COMPLETE: once the berth's transactions have completed, or 5 ms after the latch. -/
def disableDone (s : State) (b : Nat) : State :=
  let x := berthOf s b
  let late := decide (x.disableAt + 5000000 ≤ s.time.mono)
  let fault := match x.ended with
    | some e => faultOnWay s b e
    | none => false
  if x.st != .disabling || (berthBusy s b && !late) || fault then s
  else
    let s1 := sealWindows (loseHold (failConns (abandonBerth s b) b) b) b
    let s2 := match x.ended with
      | some e => finishTask s1 b e .disabled
      | none =>
        let y := berthOf s1 b
        setBerth (y.freed.foldl (fun t k => halfRecord t k.1 b k.2) s1) b { y with st := .disabled, freed := [] }
    let s3 := setBerth s2 b { berthOf s2 b with disableOwed := none }
    match x.disableOwed with
    | some o => payOwed s3 o 0x00
    | none => s3

/-- DISABLE_COMPLETE. -/
def execDisableComplete (b : Fin 16) (s : State) : Answer := .next (disableDone s b.val)

end Sys2Proof.Machine
end

