-- ==== Sys2Proof/Machine/Regs.lean ====
section
/-! DEFINITION. The registers: what each reads as, what a read clears, and what a write does (R16-R18, R36-R40, R616, R617, and the
register maps of every chapter). -/

namespace Sys2Proof.Machine

/-- A value the spec leaves undefined, cut to `w` bits (log entry 2). -/
def openBits (s : State) (w : Nat) : Nat := (Config.freeWord s.free).toNat % 2 ^ w

/-- The throttle level in force (R599): the largest source level. -/
def throttleQ (s : State) : Nat := min 56 (max s.pw.qLim (max s.pw.qFast s.pw.qTh))

/-! ### Reads by block -/

/-- MG_FITTED (R33). -/
def fittedWord (s : State) : Nat :=
  flagAt s.fitted.gradeX 31 + (1 + flagAt s.fitted.e1 1) * 2 ^ 24 + s.fitted.portSet.toNat * 2 ^ 16 + s.fitted.stackSet.toNat

/-- MG_FEATn (R617). -/
def featWord (n : Nat) : Nat :=
  nth 0 [0x12404710, 0x04000100, 0x20002000, 0x00770F7F, 0x80000F07, 0x01F803FF, 0x80119DFF, 0] n

/-- MG_BOOT_STAT (R552). -/
def bootStat (s : State) : Nat :=
  s.boot.phase % 16 * 2 ^ 28 + s.boot.hcause % 16 * 2 ^ 24 + flagAt s.boot.slot 23 + flagAt s.boot.fallback 22 +
    flagAt s.boot.ready 21 + s.boot.fenced.toNat

/-- MG_DIAG_STAT (R580). -/
def diagStat (s : State) : Nat := flagAt s.diag.busy 31 + s.diag.type % 256 * 2 ^ 16 + s.diag.outcome % 256 * 2 ^ 8

/-- PT_STAT.STATE of a port (R413). -/
def portCode (s : State) (p : Nat) : Nat :=
  if !fittedPort s p then 7
  else match (portOf s p).state with
    | .down => 0
    | .training => 1
    | .awaiting => 2
    | .up => 3
    | .remapped => 4
    | .quarantined => 5
    | .fenced => 6

/-- MG_PORT_SUMMARY (R384). -/
def portSummary (s : State) : Nat := (List.range 8).foldl (fun a p => a + portCode s p * 16 ^ p) 0

/-- MG_BERTH_STAT_b (R488). -/
def berthStat (s : State) (b : Nat) : Nat :=
  stateCode (berthOf s b).st * 2 ^ 28 + min 127 (landOf s b).waiting.length * 2 ^ 16 + (berthOf s b).cfg.decks.toNat

/-- MG_BERTH_TASK_b (R488): the current task, else the last one ended. -/
def berthTask (s : State) (b : Nat) : Nat :=
  match (berthOf s b).cur with
  | some t => t.toNat
  | none => ((berthOf s b).last.getD 0).toNat

/-- A register of the MG_ block at an offset. -/
def mgValue (s : State) (o : Nat) : Nat :=
  if o = 0x04 then 0x100
  else if o = 0x10 then fittedWord s
  else if o = 0x30 then bootStat s
  else if o = 0x34 then s.boot.fwVersion.toNat
  else if o = 0x38 then diagStat s
  else if o = 0x3C then s.diag.hseq.toNat
  else if 0x40 ≤ o ∧ o < 0x60 then featWord ((o - 0x40) / 4)
  else if 0x100 ≤ o ∧ o < 0x140 then (if fittedPort s ((o - 0x100) / 8) then (regGet s (mgBase + o)).toNat else 0)
  else if o = 0x140 then portSummary s
  else if o = 0x17C then (regGet s (mgBase + o)).toNat + flagAt (connOf s 0).err 0
  else if 0x200 ≤ o ∧ o < 0x280 then (if o % 8 = 0 then berthStat s ((o - 0x200) / 8) else berthTask s ((o - 0x200) / 8))
  else if 0x800 ≤ o ∧ o < 0xC00 then flagVal s (.chip ((o - 0x800) / 4))
  else if o = 0x20 ∨ o = 0x24 ∨ o = 0x150 ∨ o = 0x154 ∨ (0x160 ≤ o ∧ o < 0x198) then (regGet s (mgBase + o)).toNat
  else 0

/-- FC_VALID_n (R543). -/
def fcValid (s : State) (n : Nat) : Nat :=
  (List.range 32).foldl (fun a i => a + flagAt (thas s.fc.recs (32 * n + i)) i) 0

/-- FC_SEV_n (R529); a code that names no source reads as zero. -/
def fcSev (s : State) (n : Nat) : Nat :=
  match faultDefault n with
  | some d => faultClass s n + d * 16 + flagAt (faultRaiseOnly n) 7
  | none => 0

/-- A register of the FC_ block at an offset. -/
def fcValue (s : State) (o : Nat) : Nat :=
  if o = 0 then fcStat s
  else if o = 4 then (regGet s (fcBase + 4)).toNat
  else if o = 8 then s.fc.drop.toNat
  else if 0x10 ≤ o ∧ o < 0x30 then fcValid s ((o - 0x10) / 4)
  else if 0x400 ≤ o ∧ o < 0x800 then fcSev s ((o - 0x400) / 4)
  else if 0x1000 ≤ o ∧ o < 0x3000 then recWord s ((o - 0x1000) / 32) (o % 32 / 4)
  else 0

/-- A register of the SC_ block at an offset. -/
def scValue (s : State) (o : Nat) : Nat :=
  if o = 0 then scStat s
  else if o = 8 ∨ o = 0xC ∨ (0x40 ≤ o ∧ o < 0x7C) then (regGet s (scBase + o)).toNat
  else if o = 0x10 then s.flash.svnMin.toNat * 2 ^ 16 + s.boot.fwSvn.toNat
  else if 0x80 ≤ o ∧ o < 0xBC then leAt (identityKey s) (o - 0x80) 4
  else if 0x200 ≤ o ∧ o < 0x400 then leAt (measOf s ((o - 0x200) / 64)) (o % 64) 4
  else if 0x400 ≤ o ∧ o < 0x440 then leAt s.sec.digest (o - 0x400) 4
  else 0

/-- What PW_TEMP_n tells: whether a sensor of it works, and the highest reading. -/
def tempOf (s : State) (n : Nat) : Bool × Option Int :=
  if n < 4 then ((dieWorking s n).isSome, dieHottest s n)
  else (!(sensorOf s (22 + n)).failed && (sensorOf s (22 + n)).val.isSome, (sensorOf s (22 + n)).val)

/-- Whether a temperature is below zero, which DEGC has no stated form for. -/
def tempNegative (s : State) (n : Nat) : Bool :=
  match (tempOf s n).2 with
  | some v => decide (v < 0)
  | none => false

/-- PW_TEMP_n (R614). (DEDUCED, log entry 57.) -/
def tempWord (s : State) (n : Nat) : Nat :=
  let t := tempOf s n
  if n = 3 && !s.fitted.e1 then 0
  else flagAt t.1 31 + (if tempNegative s n then openBits s 8 else min 255 (t.2.getD 0).toNat)

/-- PW_SENSOR_FAIL (R614). -/
def sensorFail (s : State) : Nat := (List.range 28).foldl (fun a n => a + flagAt (sensorOf s n).failed n) 0

/-- A register of the PW_ block at an offset. -/
def pwValue (s : State) (o : Nat) : Nat :=
  let p := s.pw
  if o = 0 then p.state % 16 * 2 ^ 28 + p.scause % 16 * 2 ^ 24 + flagAt p.coolRange 3 + flagAt (decide (0 < p.qTh)) 2 +
    flagAt (decide (0 < p.qFast)) 1 + flagAt (decide (0 < p.qLim)) 0
  else if o = 8 then throttleQ s * 2 ^ 24 + p.qTh % 64 * 2 ^ 16 + p.qFast % 64 * 2 ^ 8 + p.qLim % 64
  else if o = 0xC then p.evTherm.toNat * 2 ^ 16 + p.evPower.toNat
  else if o = 0x10 then p.vin.toNat
  else if o = 0x14 then p.iin.toNat
  else if o = 0x18 then p.watts.toNat
  else if 0x40 ≤ o ∧ o < 0x58 then tempWord s ((o - 0x40) / 4)
  else if o = 0x60 then sensorFail s
  else if o = 0x64 then flagAt p.clkOk 31 + p.clkPpm.toNat
  else if o = 0x80 then p.alert.toNat
  else if o = 0x100 then p.wearEol.toNat
  else if 0x110 ≤ o ∧ o < 0x120 then
    (if o = 0x11C && !s.fitted.e1 then 0 else (tget 0 p.wearRo ((o - 0x110) / 4)).toNat)
  else if o = 0x120 then p.wearHbm.toNat
  else if o = 0x124 then p.wearEye.toNat
  else if o = 0x128 then p.wearCap.toNat
  else if o = 4 ∨ o = 0x84 ∨ o = 0x104 ∨ (0xF00 ≤ o ∧ o < 0xF20) then (regGet s (pwBase + o)).toNat
  else 0

/-- TT_STAT.STATE (R426). -/
def ttCode : TtState → Nat
  | .free => 0
  | .locking => 1
  | .locked => 2
  | .holdover => 3
  | .grandmaster => 4

/-- TT_STAT (R426). -/
def ttStat (s : State) : Nat :=
  let t := s.time
  let slave := match t.slave with
    | some (p, k) =>
      if t.st = .locking ∨ t.st = .locked then 2 ^ 25 + lportOf s p % 8 * 2 ^ 22 + k % 4 * 2 ^ 20 else 0
    | none => 0
  ttCode t.st * 2 ^ 28 + flagAt (scheduled s) 27 + flagAt t.syncLost 26 + slave

/-- TT_OFFSET (R426): saturating at ±(2^31 - 1). -/
def ttOffset (s : State) : Nat := unsigned 32 (max (-2147483647) (min 2147483647 s.time.offset))

/-- TT_TBL_STAT (R435). -/
def tblStat (s : State) : Nat :=
  (match s.time.tblState with
   | .idle => 0
   | .loading => 1
   | .waiting => 2) * 2 ^ 30 + flagAt s.time.tblReject 29 + flagAt s.time.tblLate 28 + s.time.tblGen.toNat

/-- A register of the TT_ block at an offset. -/
def ttValue (s : State) (o : Nat) : Nat :=
  let t := s.time
  if o = 0 then bits t.tide 31 0
  else if o = 4 then t.latchHi.toNat
  else if o = 8 then ttStat s
  else if o = 0xC then ttOffset s
  else if o = 0x14 then (regGet s (ttBase + 0x14)).toNat + t.ppsRejects.toNat
  else if o = 0x18 then bits t.ppsLast 31 0
  else if o = 0x1C then bits t.ppsLast 63 32
  else if o = 0x20 then t.sailing % 1024 * 2 ^ 16 + regBits s (ttBase + 0x20) 15 0
  else if o = 0x24 then t.cycleLen % 2 ^ 17
  else if o = 0x28 then bits t.origin 31 0
  else if o = 0x2C then bits t.origin 63 32
  else if o = 0x44 then tblStat s
  else if o = 0x10 ∨ (0x30 ≤ o ∧ o < 0x40) then (regGet s (ttBase + o)).toNat
  else 0

/-- Word `i` of window `n` (R324): BASE, LIMIT, CTL, PHYS. -/
def windowWord (s : State) (n i : Nat) : Nat :=
  let w := windowOf s n
  if i = 0 then w.base.toNat
  else if i = 1 then w.limit.toNat
  else if i = 2 then flagAt w.en 31 + flagAt w.sealedW 30 + w.mode % 4 * 2 ^ 28 + w.berth % 16 * 2 ^ 24 + w.quay % 4 * 2 ^ 20 +
    w.stackB % 16 * 2 ^ 12 + w.stackA % 16 * 2 ^ 8
  else w.phys % 2 ^ 18

/-- Whether the hold registers of a berth read as zero: under a manifest, those of a berth with no hold.
(DESIGN CHOICE, log entry 19.) -/
def noHold (s : State) (b : Nat) : Bool := s.man.loaded && (berthOf s b).cfg.holdPages == 0

/-- A hold register of a berth (R229); the page states of a disabled berth are undefined (R228). (DESIGN CHOICE, log entry 19.) -/
def holdValue (s : State) (b o : Nat) : Nat :=
  let g := (berthOf s b).cfg
  let h := (berthOf s b).hold
  if noHold s b then 0
  else if o = 0 then flagAt g.stall 31 + flagAt (g.tgtPages != 0 && g.tgtConn.isSome) 30 + g.holdPages % 2 ^ 19
  else if o = 4 then g.holdFrames % 2 ^ 19
  else if o = 8 ∨ o = 0xC then (regGet s (mwBase + 0x1000 + 0x40 * b + o)).toNat
  else if o = 0x10 then (if h.lost.isSome then openBits s 19 else (residentFrames h).length)
  else if o = 0x14 then (if h.lost.isSome then openBits s 19 else (targetPages h).length)
  else if o = 0x18 then flagAt h.stalled 21 + flagAt h.spillEv 20 + flagAt h.hwmHit 19 + h.peak % 2 ^ 19
  else 0

/-- A register of the MW_ block at an offset. -/
def mwValue (s : State) (o : Nat) : Nat :=
  if o < 0x100 then windowWord s (o / 16) (o % 16 / 4)
  else if 0x200 ≤ o ∧ o < 0x254 then
    min 8191 (allotUsed s ((o - 0x200) / 4)) * 2 ^ 16 + trkShadow s ((o - 0x200) / 4)
  else if o = 0x260 then flagAt s.trkErr 1
  else if 0x1000 ≤ o ∧ o < 0x1400 then holdValue s ((o - 0x1000) / 0x40) (o % 0x40)
  else 0

/-- Whether a berth has a region in a quay (R255): a context of it with commands. -/
def regionIn (s : State) (q b : Nat) : Bool :=
  (List.range 18).any (fun c => (ctxOf s q c).berth == some b && decide (0 < (ctxOf s q c).len))

/-- QY_CMD_HALF_FREE and QY_CMD_HALF_ARMED (R255): the halves of every berth for which a test holds. -/
def halfBits (s : State) (q : Nat) (on : Nat → Nat → Bool) : Nat :=
  (List.range 32).foldl (fun a i => a + flagAt (regionIn s q (i / 2) && on (i / 2) (i % 2)) i) 0

/-- Whether writes to a half are accepted (R249, R251). -/
def halfWritable (s : State) (q b h : Nat) : Bool := !(halfOf s q b h).armed && !halfBusy s q b h

/-- Whether a context belongs to a suspended task: its berth is suspended, and the task named it (R270, R272). -/
def ctxSuspended (s : State) (x : Ctx) : Bool :=
  match x.berth with
  | some b => (berthOf s b).st == .suspended && x.mode != .idle
  | none => false

/-- QY_CTX_STAT.STATE (R270). -/
def ctxCode (s : State) (x : Ctx) : Nat :=
  if ctxSuspended s x then 8
  else match x.mode with
  | .idle => 0
  | .endQueued => 7
  | .running =>
    match x.stall with
    | .flagWait => 2
    | .queueFull => 3
    | .fetchWait => 4
    | .inuse _ => 5
    | .tile _ => 5
    | .none =>
      match x.queue with
      | m :: _ => if m.stall.isSome then (if opcodeOf m.word = 0x04 then 6 else 5) else 1
      | [] => 1

/-- QY_CTX_STAT (R270). -/
def ctxStat (s : State) (q c : Nat) : Nat :=
  let x := ctxOf s q c
  ctxCode s x * 2 ^ 28 + flagAt (s.waits.any (fun w => w.q == q && w.c == c && w.atHead)) 27 +
    min 127 x.queue.length * 2 ^ 16 + x.berth.getD 0 % 16 * 2 ^ 8 + flagAt x.berth.isSome 0

/-- A register of context `c` of a quay (R270). -/
def ctxValue (s : State) (q c o : Nat) : Nat :=
  let x := ctxOf s q c
  if o = 0 then ctxStat s q c
  else if o = 4 then x.pc % 2 ^ 14
  else if o = 8 then (regGet s (qyBase q + 0x400 + 0x40 * c + 8)).toNat
  else if o = 0xC then x.len % 2 ^ 14 * 2 ^ 16 + x.start % 2 ^ 13
  else if 0x10 ≤ o ∧ o < 0x20 then (tget 0 x.cnt ((o - 0x10) / 4)).toNat
  else if o = 0x20 then (List.range 8).foldl (fun a n => a + flagAt (n != 0 && tget false x.cmp n) n) 0
  else 0

/-- A register of stack `k` (R347, R348); those of an unpopulated one read as zero (R7). -/
def stackValue (s : State) (k o : Nat) : Nat :=
  let x := stackOf s k
  if !populated s k then 0
  else if o = 0 then 2 ^ 31 + flagAt x.hot 30 + x.temp.toNat * 2 ^ 16
  else if o = 4 then x.rscorr.toNat
  else if o = 8 then x.uncorr.toNat
  else x.odecc.toNat

/-- A register of the QY_ block of quay `q` at an offset. -/
def qyValue (s : State) (q o : Nat) : Nat :=
  if o = 0x10 then halfBits s q (halfWritable s q)
  else if o = 0x14 then halfBits s q (fun b h => (halfOf s q b h).armed)
  else if 0x100 ≤ o ∧ o < 0x118 ∨ o = 0x124 then (regGet s (qyBase q + o)).toNat
  else if 0x200 ≤ o ∧ o < 0x240 then stackValue s (4 * q + (o - 0x200) / 16) (o % 16)
  else if 0x400 ≤ o ∧ o < 0x880 then ctxValue s q ((o - 0x400) / 0x40) (o % 0x40)
  else if 0x8000 ≤ o ∧ o < 0x9000 then flagVal s (.quay q ((o - 0x8000) / 4))
  else 0

/-- DK_TILEn_CFG0 (R139). -/
def tileCfg0 (t : TileReg) : Nat :=
  t.inuse % 256 * 2 ^ 24 + flagAt t.aliased 23 + flagAt t.aft 22 + roleCode t.role * 2 ^ 19 + flagAt t.orient 18 +
    flagAt t.mx 17 + t.fmt % 16 * 2 ^ 13 + t.base % 2 ^ 13

/-- DK_TILEn_CFG1 (R139). -/
def tileCfg1 (t : TileReg) : Nat := t.rows16 % 2 ^ 12 * 2 ^ 20 + t.cols % 2 ^ 20

/-- Whether an offset of a DK_ block holds a register. -/
def dkHolds (o : Nat) : Bool :=
  [0x40, 0x48, 0x4C, 0x50, 0x60, 0x64, 0x80].contains o || decide (0x100 ≤ o ∧ o < 0x180) || decide (0x200 ≤ o ∧ o < 0x220)

/-- A register of the DK_ block of deck `d` at an offset; those of a fenced deck but DK_GANG are undefined (R536). -/
def dkValue (s : State) (d o : Nat) : Nat :=
  let x := deckOf s d
  if deckFenced s d && o != 0x50 && dkHolds o then openBits s 32
  else if o = 0x40 then x.sat.toNat
  else if o = 0x48 then x.skipMiss.toNat
  else if o = 0x4C then x.skipDone.toNat
  else if o = 0x50 then x.gang.toNat
  else if o = 0x60 then bits (x.saveBase.getD 0) 31 0
  else if o = 0x64 then bits (x.saveBase.getD 0) 47 32
  else if o = 0x80 then x.swapCnt.toNat * 2 ^ 16 + flagAt x.fore1 0
  else if 0x100 ≤ o ∧ o < 0x180 then
    (if o % 8 = 0 then tileCfg0 (tileOf s d ((o - 0x100) / 8)) else tileCfg1 (tileOf s d ((o - 0x100) / 8)))
  else if 0x200 ≤ o ∧ o < 0x220 then
    (let v := (tget 0 x.nacc ((o - 0x200) / 8)).toNat
     if o % 8 = 0 then bits v 31 0 else bits v 63 32)
  else 0

/-- LPORT and ROLE of PT_STAT: a port that is not up carries no logical port, and both read zero (R392, R413).
(DEDUCED, log entry 37.) -/
def ptCarried (s : State) (p : Nat) : Nat :=
  let l := lportOf s p
  if (portOf s p).state == .up || (portOf s p).state == .remapped then l % 8 * 2 ^ 20 + roleOn s l % 256 * 2 ^ 8 else 0

/-- A register of the PT_ block of port `p` at an offset; those of an absent port read as zero (R7, R413). -/
def ptValue (s : State) (p o : Nat) : Nat :=
  let x := portOf s p
  if !fittedPort s p then 0
  else if o = 0 then
    portCode s p * 2 ^ 28 + x.qcause % 16 * 2 ^ 24 + ptCarried s p +
      (List.range 4).foldl (fun a k => a + flagAt (linkUp s p k) (16 + k)) 0
  else if o = 4 then
    (match cardOn s p with
     | some c => 2 ^ 31 + c.port % 8 * 2 ^ 28 + c.sys.toNat * 2 ^ 20 + bits c.flags.toNat 3 0 * 2 ^ 16 + c.device.toNat
     | none => 0)
  else if o = 8 then
    (match cardOn s p with
     | some c => c.role.toNat * 2 ^ 24 + c.ttFmt.toNat * 2 ^ 16 + c.contract.toNat
     | none => 0)
  else if o = 0xC then
    (match cardOn s p with
     | some c => c.fw.toNat
     | none => 0)
  else if o = 0x20 ∨ o = 0x24 ∨ o = 0x28 then (regGet s (ptBase p + o)).toNat
  else if o = 0x40 then x.fecCorr.toNat
  else if o = 0x44 then x.fecUncorr.toNat
  else if o = 0x48 then x.rxDrop.toNat
  else if o = 0x4C then x.linkDown.toNat
  else if o = 0x50 then x.sailLate.toNat
  else if o = 0x54 then flagAt x.laneFenced 31
  else if o = 0x58 then x.laneRetry.toNat
  else 0

/-! ### Blocks (R34) -/

/-- A block of control space with its unit. -/
inductive Block where
  | mg
  | fc
  | tt
  | sc
  | pw
  | mw
  | qy (q : Nat)
  | dk (d : Nat)
  | pt (p : Nat)
deriving DecidableEq, Repr

/-- The block of a control-space address and the offset in it; none outside every block (R34, R37). -/
def blockAt (a : Nat) : Option (Block × Nat) :=
  if mgBase ≤ a ∧ a < fcBase then some (.mg, a - mgBase)
  else if fcBase ≤ a ∧ a < ttBase then some (.fc, a - fcBase)
  else if ttBase ≤ a ∧ a < scBase then some (.tt, a - ttBase)
  else if scBase ≤ a ∧ a < pwBase then some (.sc, a - scBase)
  else if pwBase ≤ a ∧ a < mwBase then some (.pw, a - pwBase)
  else if mwBase ≤ a ∧ a < mwBase + 0x10000 then some (.mw, a - mwBase)
  else if qyBase 0 ≤ a ∧ a < qyBase 4 then some (.qy ((a - qyBase 0) / 0x100000), (a - qyBase 0) % 0x100000)
  else if dkBase 0 ≤ a ∧ a < dkBase 16 then some (.dk ((a - dkBase 0) / 0x10000), (a - dkBase 0) % 0x10000)
  else if ptBase 0 ≤ a ∧ a < ptBase 8 then some (.pt ((a - ptBase 0) / 0x10000), (a - ptBase 0) % 0x10000)
  else none

/-- What the register at an address reads as; an address that holds no register reads as zero (R37). -/
def regValue (s : State) (a : Nat) : Word :=
  if a % 4 ≠ 0 then 0
  else BitVec.ofNat 32 (match blockAt a with
    | some (.mg, o) => mgValue s o
    | some (.fc, o) => fcValue s o
    | some (.tt, o) => ttValue s o
    | some (.sc, o) => scValue s o
    | some (.pw, o) => pwValue s o
    | some (.mw, o) => mwValue s o
    | some (.qy q, o) => qyValue s q o
    | some (.dk d, o) => dkValue s d o
    | some (.pt p, o) => ptValue s p o
    | none => 0)

/-- Whether a read takes a value that the spec leaves undefined. (DEDUCED, log entry 59.) -/
def regOpen (s : State) (a : Nat) : Bool :=
  a % 4 == 0 &&
  match blockAt a with
  | some (.pw, o) => decide (0x40 ≤ o ∧ o < 0x58) && tempNegative s ((o - 0x40) / 4)
  | some (.mw, o) =>
    decide (0x1000 ≤ o ∧ o < 0x1400) && (o % 0x40 == 0x10 || o % 0x40 == 0x14) &&
      (berthOf s ((o - 0x1000) / 0x40)).hold.lost.isSome
  | some (.dk d, o) => deckFenced s d && o != 0x50 && dkHolds o
  | _ => false

/-! ### What a read changes (R16, R426) -/

/-- A port's RC registers are cleared by a read. (DEDUCED, log entry 59.) -/
def ptClear (s : State) (p o : Nat) : State :=
  let x := portOf s p
  if !fittedPort s p then s
  else if o = 0x40 then setPort s p { x with fecCorr := 0 }
  else if o = 0x44 then setPort s p { x with fecUncorr := 0 }
  else if o = 0x48 then setPort s p { x with rxDrop := 0 }
  else if o = 0x4C then setPort s p { x with linkDown := 0 }
  else if o = 0x50 then setPort s p { x with sailLate := 0 }
  else if o = 0x58 then setPort s p { x with laneRetry := 0 }
  else s

/-- A stack's RC registers are cleared by a read. (DEDUCED, log entry 59.) -/
def stackClear (s : State) (k o : Nat) : State :=
  let x := stackOf s k
  if !populated s k then s
  else if o = 4 then setStack s k { x with rscorr := 0 }
  else if o = 8 then setStack s k { x with uncorr := 0 }
  else if o = 0xC then setStack s k { x with odecc := 0 }
  else s

/-- What a read of a register changes: an RC field is cleared, TT_NOW_LO latches the count. (DEDUCED, log entry 59.) -/
def readEffect (s : State) (a : Nat) : State :=
  if a % 4 ≠ 0 then s
  else match blockAt a with
    | some (.fc, o) => if o = 8 then { s with fc := { s.fc with drop := 0 } } else s
    | some (.tt, o) =>
      if o = 0 then setTime s (fun t => { t with latchHi := BitVec.ofNat 32 (bits t.tide 63 32) })
      else if o = 0x14 then setTime s (fun t => { t with ppsRejects := 0 })
      else s
    | some (.pw, o) => if o = 0xC then { s with pw := { s.pw with evPower := 0, evTherm := 0 } } else s
    | some (.mw, o) =>
      if 0x1000 ≤ o ∧ o < 0x1400 ∧ o % 0x40 = 0x18 then
        (let b := (o - 0x1000) / 0x40
         if noHold s b then s else setHold s b { (berthOf s b).hold with peak := 0 })
      else s
    | some (.qy q, o) => if 0x200 ≤ o ∧ o < 0x240 then stackClear s (4 * q + (o - 0x200) / 16) (o % 16) else s
    | some (.dk d, o) =>
      if deckFenced s d then s
      else if o = 0x48 then setDeck s d { deckOf s d with skipMiss := 0 }
      else if o = 0x4C then setDeck s d { deckOf s d with skipDone := 0 }
      else s
    | some (.pt p, o) => ptClear s p o
    | _ => s

/-- A register is read: what it returns, and the state it leaves. -/
def regRead (s : State) (a : Nat) : State × Word :=
  let s1 := if regOpen s a then { s with free := s.free + 1 } else s
  (readEffect s1 a, regValue s a)

/-! ### Writes with effects of their own -/

/-- MG_COORD_WRITE (R461): once VALID reads 1 every write is ignored. A write that sets VALID ends the Coordinates phase (R547). -/
def coordWrite (s : State) (v : Word) : State :=
  if regBits s (mgBase + 0x20) 31 31 = 1 then s
  else
    let s1 := regSet s (mgBase + 0x20) (v &&& 0x803FFFFF)
    if bit v.toNat 31 && s1.boot.phase == 5 then { s1 with boot := { s1.boot with phase := 6 } } else s1

/-- MG_COORD_WRITE. -/
def execMgCoordWrite (value : Word) (s : State) : Answer := .next (coordWrite s value)

/-- The fields of MG_MGMT_CTL from a write: TMO = 0 leaves TMO unchanged (R18, R405). (DEDUCED, log entry 60.) -/
def ctlFields (s : State) (v : Word) : State :=
  let old := (regGet s (mgBase + 0x17C)).toNat
  let n := v.toNat
  let tmo := if bits n 25 22 = 0 then bits old 25 22 else bits n 25 22
  regSet s (mgBase + 0x17C) (BitVec.ofNat 32 (bits n 31 26 * 2 ^ 26 + tmo * 2 ^ 22 + bits n 21 19 * 2 ^ 19))

/-- The connection that the MG_MGMT_ registers define (R405). (DEDUCED, log entry 60.) -/
def mgmtConn (s : State) : Conn :=
  let r (o : Nat) : Nat := (regGet s (mgBase + o)).toNat
  { valid := true, ctrl := true, mgmt := true, lport := bits (r 0x17C) 30 28, sub := bits (r 0x17C) 27 26,
    tmo := bits (r 0x17C) 25 22, retry := bits (r 0x17C) 21 19, rqpn := r 0x170, sqPsn := r 0x174, rqPsn := r 0x174,
    rip := BitVec.ofNat 128 (r 0x160 + r 0x164 * 2 ^ 32 + r 0x168 * 2 ^ 64 + r 0x16C * 2 ^ 96), lkey := BitVec.ofNat 32 (r 0x178),
    rkey := BitVec.ofNat 32 (r 0x194), nhMac := BitVec.ofNat 48 (r 0x180 + r 0x184 * 2 ^ 32), riseAt := s.time.mono }

/-- The outstanding requests of connection 0 fail, without a record. (DEDUCED, log entry 60.) -/
def failMgmt (s : State) : State := (connOf s 0).reqs.foldl failReq (setConn s 0 { connOf s 0 with reqs := [] })

/-- MGMT_CONN_RESTART (R405, R504): the connection starts afresh, and the management ring is taken. (DEDUCED, log entry 60.) -/
def mgmtRestart (s : State) (v : Word) : State :=
  let s1 := failMgmt (ctlFields (dropHeld s 0) v)
  { setConn s1 0 (mgmtConn s1) with
    ringAddr := regPair s1 (mgBase + 0x188), ringLog2 := regBits s1 (mgBase + 0x190) 4 0 }

/-- MGMT_CONN_STOP (R405): a write of 0 while VALID reads 1 stops the connection. (DEDUCED, log entry 60.) -/
def mgmtStop (s : State) (v : Word) : State :=
  let s1 := ctlFields s v
  if (connOf s 0).valid then
    let s2 := failMgmt (dropHeld s1 0)
    setConn s2 0 { connOf s2 0 with valid := false, err := false, tries := 0, rnrUntil := none }
  else s1

/-- A write of MG_MGMT_CTL. -/
def ctlWrite (s : State) (v : Word) : State := if bit v.toNat 31 then mgmtRestart s v else mgmtStop s v

/-- MGMT_CONN_RESTART: a write with VALID = 1. -/
def execMgmtConnRestart (value : Word) (s : State) : Answer := .next (mgmtRestart s (value ||| 0x80000000))

/-- MGMT_CONN_STOP: a write with VALID = 0. -/
def execMgmtConnStop (value : Word) (s : State) : Answer := .next (mgmtStop s (value &&& 0x7FFFFFFF))

/-- HOLD_RESET (R228, R229): only while the berth is idle. -/
def holdReset (s : State) (b : Nat) : State := if (berthOf s b).st == .idle then resetHold s b else s

/-- HOLD_RESET. -/
def execHoldReset (b : Fin 16) (s : State) : Answer := .next (holdReset s b.val)

/-- A write of MW_HOLD_STAT_b: RESET, and the bits that a 1 clears. -/
def holdStatWrite (s : State) (b : Nat) (v : Word) : State :=
  let s1 := if bit v.toNat 31 then holdReset s b else s
  let h := (berthOf s1 b).hold
  setHold s1 b { h with stalled := h.stalled && !bit v.toNat 21, spillEv := h.spillEv && !bit v.toNat 20,
                        hwmHit := h.hwmHit && !bit v.toNat 19 }

/-- A write of FC_SEV_n.CLASS: reserved classes, codes without a source, and the lowering of a RAISE_ONLY source leave it
unchanged (R529, R530). -/
def sevWrite (s : State) (n : Nat) (v : Word) : State :=
  let c := bits v.toNat 2 0
  match faultDefault n with
  | some d => if 5 < c ∨ (faultRaiseOnly n ∧ c < d) then s else regSet s (fcSevAddr n) (BitVec.ofNat 32 c)
  | none => s

/-- A write of PW_ALERT_EN (R612): an alert bit that it adds to the enabled ones asserts ALERT_N again. (DEDUCED, log entry 57.) -/
def alertEnWrite (s : State) (v : Word) : State :=
  let old := (regGet s (pwBase + 0x84)).toNat
  let added := (List.range 7).any (fun i => bit s.pw.alert.toNat i && bit v.toNat i && !bit old i)
  let s1 := regSet s (pwBase + 0x84) (v &&& 0x7F)
  if added then { s1 with pw := { s1.pw with answered := false } } else s1

/-- The encodings of PW_DBGMUX_n.SEL (R584). -/
def dbgSignal (n : Nat) : Bool :=
  n == 0 || n == 0x600 || n == 0x700 || decide (0x100 ≤ n ∧ n < 0x110) || decide (0x200 ≤ n ∧ n < 0x210) ||
    decide (0x300 ≤ n ∧ n < 0x304) || decide (0x400 ≤ n ∧ n < 0x408) || decide (0x500 ≤ n ∧ n < 0x508)

/-- A write of PT_PFC (R394, R395): a pause ends on a priority that is disabled. -/
def pfcWrite (s : State) (p : Nat) (v : Word) : State :=
  let n := v.toNat
  let en := if s.man.loaded && bit n s.man.prioSched then regBits s (ptBase p + 0x20) 7 0 else bits n 7 0
  let s1 := regSet s (ptBase p + 0x20) (BitVec.ofNat 32 (bits n 23 16 * 2 ^ 16 + en))
  (List.range 8).foldl (fun t i => if bit en i then t else
    (if (pfcOf t p i).pausedAt.isSome then releaseHeld (setPfc t p i { pfcOf t p i with pausedAt := none }) p i else t)) s1

/-- A write of PT_CC: a reserved encoding leaves its field unchanged; with EN = 0 every rate of the port stays at L (R411). -/
def ccWrite (s : State) (p : Nat) (v : Word) : State :=
  let n := v.toNat
  let old := (regGet s (ptBase p + 0x24)).toNat
  let f (hi lo : Nat) : Nat := (if bits n hi lo = 0 then bits old hi lo else bits n hi lo) * 2 ^ lo
  let s1 := regSet s (ptBase p + 0x24) (BitVec.ofNat 32 (bits n 31 31 * 2 ^ 31 + f 23 16 + f 15 12 + f 9 0))
  if bit n 31 then s1
  else { s1 with conns := s1.conns.map (fun e => if e.2.lport = lportOf s1 p then (e.1, { e.2 with rate := fullRate }) else e) }

/-! ### Writes by block -/

/-- A field kept as written, but where the written value is a reserved encoding (R16, R18). (DEDUCED, log entry 59.) -/
def putIf (s : State) (a : Nat) (ok : Bool) (v : Nat) : State := if ok then regSet s a (BitVec.ofNat 32 v) else s

/-- A write in the MG_ block. -/
def mgWrite (s : State) (o : Nat) (v : Word) : State :=
  let n := v.toNat
  let a := mgBase + o
  if o = 0x20 then coordWrite s v
  else if o = 0x24 then ferryWrite s v
  else if 0x100 ≤ o ∧ o < 0x140 then (if o % 8 = 0 then modeWrite s ((o - 0x100) / 8) v else planWrite s ((o - 0x100) / 8) v)
  else if o = 0x150 then prefixWrite s false v
  else if o = 0x154 then prefixWrite s true v
  else if o = 0x170 ∨ o = 0x174 then regSet s a (v &&& 0xFFFFFF)
  else if o = 0x17C then ctlWrite s v
  else if o = 0x184 then regSet s a (v &&& 0xFFFF)
  else if o = 0x188 then regSet s a (v &&& 0xFFFFFFC0)
  else if o = 0x190 then
    regSet s a (BitVec.ofNat 32 (bits n 31 31 * 2 ^ 31 +
      (if 4 ≤ bits n 4 0 ∧ bits n 4 0 ≤ 16 then bits n 4 0 else regBits s a 4 0)))
  else if o = 0x178 ∨ o = 0x180 ∨ o = 0x18C ∨ o = 0x194 ∨ (0x160 ≤ o ∧ o < 0x170) then regSet s a v
  else s

/-- A write in the FC_ block. -/
def fcWrite (s : State) (o : Nat) (v : Word) : State :=
  if o = 0 then (if bit v.toNat 30 then { s with fc := { s.fc with ovf := false } } else s)
  else if o = 4 then putIf s (fcBase + 4) (decide (bits v.toNat 2 0 ≤ 5)) (bits v.toNat 2 0)
  else if 0x10 ≤ o ∧ o < 0x30 then clearRecs s (fun e => e / 32 == (o - 0x10) / 4 && bit v.toNat (e % 32))
  else if o = 0x30 then (if bit v.toNat 0 then clearRecs s (fun _ => true) else s)
  else if 0x400 ≤ o ∧ o < 0x800 then sevWrite s ((o - 0x400) / 4) v
  else s

/-- A write in the SC_ block. -/
def scWrite (s : State) (smbus : Bool) (o : Nat) (v : Word) : State :=
  if o = 4 then (if bit v.toNat 0 then debugRequest s smbus else s)
  else if o = 8 then policyWrite s v
  else if o = 0xC then regSet s (scBase + 0xC) (v &&& 1)
  else if 0x40 ≤ o ∧ o < 0x7C then keyWrite s ((o - 0x40) / 4) v
  else s

/-- A write in the PW_ block. -/
def pwWrite (s : State) (o : Nat) (v : Word) : State :=
  let n := v.toNat % 65536
  if o = 4 then putIf s (pwBase + 4) (decide (800 ≤ n ∧ n ≤ s.fitted.maxWatts)) n
  else if o = 0x80 then { s with pw := { s.pw with alert := s.pw.alert &&& ~~~(v.setWidth 7) } }
  else if o = 0x84 then alertEnWrite s v
  else if o = 0x104 then regSet s (pwBase + 0x104) (v &&& 0xFFFF)
  else if 0xF00 ≤ o ∧ o < 0xF20 then putIf s (pwBase + o) (dbgSignal n) n
  else s

/-- A write in the TT_ block. (DEDUCED, log entry 36.) -/
def ttWrite (s : State) (o : Nat) (v : Word) : State :=
  let n := v.toNat
  let a := ttBase + o
  if o = 0x10 then gmChanged (regSet s a (v &&& 0x80FFFF7F))
  else if o = 0x14 then
    regSet s a (BitVec.ofNat 32 (bits n 31 31 * 2 ^ 31 + (if bits n 30 29 = 3 then regBits s a 30 29 else bits n 30 29) * 2 ^ 29))
  else if o = 0x20 then regSet s a (v &&& 0xFFFF)
  else if o = 0x30 then regSet s a (v &&& 0xFFF80000)
  else if o = 0x34 then regSet s a (v &&& 0xFFFF)
  else if o = 0x38 ∨ o = 0x3C then regSet s a v
  else if o = 0x40 then (if bit n 0 then tblGo s else s)
  else s

/-- A write of a hold register; those of a berth with no hold ignore it. -/
def holdWrite (s : State) (b o : Nat) (v : Word) : State :=
  let a := mwBase + 0x1000 + 0x40 * b + o
  if noHold s b then s
  else if o = 8 then putIf s a (decide (v.toNat % 2 ^ 19 ≤ (berthOf s b).cfg.holdFrames)) (v.toNat % 2 ^ 19)
  else if o = 0xC then regSet s a (v &&& 0xFFFFFF)
  else if o = 0x18 then holdStatWrite s b v
  else s

/-- A write in the MW_ block. -/
def mwWrite (s : State) (o : Nat) (v : Word) : State :=
  if 0x200 ≤ o ∧ o < 0x254 then regSet s (mwBase + o) (v &&& 0x1FFF)
  else if o = 0x260 then (if bit v.toNat 0 then commitTrk s else s)
  else if 0x1000 ≤ o ∧ o < 0x1400 then holdWrite s ((o - 0x1000) / 0x40) (o % 0x40) v
  else s

/-- A write in the QY_ block of quay `q`. -/
def qyWrite (s : State) (q o : Nat) (v : Word) : State :=
  let n := v.toNat
  let a := qyBase q + o
  if 0x100 ≤ o ∧ o < 0x118 then regSet s a (v &&& 7)
  else if o = 0x120 then (if bit n 0 then commitArb s q else s)
  else if o = 0x124 then putIf s a (n % 65536 != 0) (n % 65536)
  else if 0x400 ≤ o ∧ o < 0x880 ∧ o % 0x40 = 8 then putIf s a (n % 2 ^ 24 != 0) (n % 2 ^ 24)
  else s

/-- A write in the DK_ block of deck `d`: the halves of the norm accumulators (R190). -/
def dkWrite (s : State) (d o : Nat) (v : Word) : State :=
  if 0x200 ≤ o ∧ o < 0x220 && !deckFenced s d then
    let x := deckOf s d
    let i := (o - 0x200) / 8
    let w := tget 0 x.nacc i
    let y : DWord := BitVec.ofNat 64 (if o % 8 = 0 then bits w.toNat 63 32 * 2 ^ 32 + v.toNat
      else v.toNat * 2 ^ 32 + bits w.toNat 31 0)
    setDeck s d { x with nacc := tput x.nacc i y }
  else s

/-- A write in the PT_ block of port `p`; an absent port ignores it (R7). -/
def ptWrite (s : State) (p o : Nat) (v : Word) : State :=
  if !fittedPort s p then s
  else if o = 0x20 then pfcWrite s p v
  else if o = 0x24 then ccWrite s p v
  else if o = 0x28 then regSet s (ptBase p + 0x28) (v &&& 0xFFFF)
  else s

/-- A register is written over the control window or SMBus (R16, R40): an address without a register, and every RO and RC field,
ignore it. -/
def regWrite (s : State) (smbus : Bool) (a : Nat) (v : Word) : State :=
  if a % 4 ≠ 0 then s
  else match blockAt a with
    | some (.mg, o) => mgWrite s o v
    | some (.fc, o) => fcWrite s o v
    | some (.tt, o) => ttWrite s o v
    | some (.sc, o) => scWrite s smbus o v
    | some (.pw, o) => pwWrite s o v
    | some (.mw, o) => mwWrite s o v
    | some (.qy q, o) => qyWrite s q o v
    | some (.dk d, o) => dkWrite s d o v
    | some (.pt p, o) => ptWrite s p o v
    | none => s

/-- REGISTER_WRITE. -/
def execRegisterWrite (addr : Nat) (value : Word) (s : State) : Answer := .next (regWrite s false addr value)

/-- TT_NOW_LO_READ. -/
def execTtNowLoRead (s : State) : Answer := .next (regRead s ttBase).1

/-- RC_REGISTER_READ. -/
def execRcRegisterRead (addr : Nat) (s : State) : Answer := .next (regRead s addr).1

/-! ### SMBus (R39, R548, R609-R612) -/

/-- Whether the SMBus port answers: powered, not held in reset, and past the ROM check (R548, R551). -/
def smbusUp (s : State) : Bool := s.pw.hkOn && s.boot.romDone && !s.boot.heldReset

/-- The address of a register index (R39). -/
def indexAddr (i : Nat) : Nat := nth 0 [mgBase, fcBase, scBase, pwBase] (bits i 15 14) + bits i 13 0 * 4

/-- SMB_REG_WRITE: with the right count and PEC. -/
def execSmbRegWrite (index : BitVec 16) (value : Word) (count : Nat) (pecOk : Bool) (s : State) : Answer :=
  .next (if smbusUp s && count == 6 && pecOk then regWrite s true (indexAddr index.toNat) value else s)

/-- SMB_REG_POINT: with the right count and PEC. -/
def execSmbRegPoint (index : BitVec 16) (count : Nat) (pecOk : Bool) (s : State) : Answer :=
  .next (if smbusUp s && count == 2 && pecOk then { s with smb := { s.smb with pointer := index } } else s)

/-- SMB_REG_READ: the register at the pointer, which then advances modulo 2^16. -/
def smbRead (s : State) : State :=
  let r := regRead s (indexAddr s.smb.pointer.toNat)
  send { r.1 with smb := { r.1.smb with pointer := s.smb.pointer + 1 } } (.smbus r.2)

/-- SMB_REG_READ. -/
def execSmbRegRead (s : State) : Answer := .next (if smbusUp s then smbRead s else s)

/-- SMB_ALERT_RESPONSE: a port that asserts ALERT_N answers with its own address and releases it. (DEDUCED, log entry 57.) -/
def execSmbAlertResponse (s : State) : Answer :=
  .next (if smbusUp s && alertN s then send { s with pw := { s.pw with answered := true } } (.smbusAddress s.smb.address) else s)

/-- SMBUS_TMO: reported at most once per second. -/
def execSmbusTmo (command : BitVec 8) (sclHeldLow : Bool) (s : State) : Answer :=
  .next (if smbusUp s && mayReport s 0x88 0 1000000000 then
      noteReport (raiseChip s 3 0x88 (command.toNat + flagAt sclHeldLow 8)) 0x88 0
    else s)

end Sys2Proof.Machine
end

