-- ==== Sys2Proof/Machine/Manifest.lean ====
section
/-! DEFINITION. The manifest: its framing, what its sections define, what the loader rejects, and the load of one (R464-R467, R565-R572,
and the loader rules of every chapter). -/

namespace Sys2Proof.Machine

/-! ### Container and records (R565, R566) -/

/-- A record: its key, its fields after the key, and its fixed-layout entries as numbers. -/
structure MRec where
  key : Nat
  f : List Nat
  ents : List Nat
deriving DecidableEq, Repr

/-- The sizes of the fields of a section's records, after the key. -/
def fieldSizes (t : Nat) : List Nat :=
  if t = 1 then [2, 2, 8, 1, 2, 1, 1, 1, 1, 1, 1, 1, 1, 1, 2, 2, 2, 2, 2, 2, 2, 2, 2, 2, 1, 2]
  else if t = 2 then [1, 1, 4]
  else if t = 3 then [8]
  else if t = 4 then [4, 4, 4, 4]
  else if t = 5 then List.replicate 36 2 ++ [1, 1]
  else if t = 6 then [8, 2, 8, 8, 1]
  else if t = 7 then [8, 4, 4, 1, 4, 2, 8, 4]
  else if t = 9 ∨ t = 12 ∨ t = 13 then [2]
  else if t = 10 then [2, 1, 1, 1, 1, 1, 1, 1, 1, 1, 1, 1, 1, 1, 1, 1, 8, 8]
  else if t = 11 then [2, 4, 8]
  else []

/-- The size of a fixed-layout entry of a section. -/
def entrySize (t : Nat) : Nat :=
  if t = 2 then 24 else if t = 6 ∨ t = 9 then 16 else if t = 8 then 64 else if t = 12 then 8 else if t = 13 then 2 else 0

/-- Fields read one after the other. -/
def readFields : List Nat → List Byte → List Nat
  | [], _ => []
  | n :: r, d => leAt d 0 n :: readFields r (d.drop n)

/-- How many entries a record holds. -/
def entryCount (t : Nat) (f : List Nat) : Nat :=
  if t = 2 then 1 + nth 0 f 1 else if t = 8 then 1 else if t = 6 then nth 0 f 4 else if t = 9 ∨ t = 12 ∨ t = 13 then nth 0 f 0 else 0

/-- One record at the front of a section's bytes, and the bytes after it; none where it runs past the section or its padding is not
zero. -/
def readRec (t : Nat) (d : List Byte) : Option (MRec × List Byte) :=
  let sizes := fieldSizes t
  let lo := 2 + sizes.foldl (· + ·) 0
  let f := readFields sizes (d.drop 2)
  let n := entryCount t f
  let used := lo + n * entrySize t
  let len := roundUp used 8
  if d.length < lo ∨ d.length < len ∨ leAt d used (len - used) ≠ 0 then none
  else some ({ key := leAt d 0 2, f := f, ents := (List.range n).map (fun i => leAt d (lo + i * entrySize t) (entrySize t)) },
    d.drop len)

/-- The records of a section, in strictly ascending key order and filling it; none on a framing break. -/
def readRecs (t : Nat) : Nat → Option Nat → List Byte → Option (List MRec)
  | 0, _, d => if d.isEmpty then some [] else none
  | k + 1, last, d =>
    match readRec t d with
    | some (r, rest) =>
      let up := match last with
        | some l => decide (l < r.key)
        | none => true
      if up then (readRecs t k (some r.key) rest).map (fun l => r :: l) else none
    | none => none

/-- A directory entry. -/
structure MDir where
  type : Nat
  recs : Nat
  off : Nat
  len : Nat
  zero : Nat
deriving DecidableEq, Repr

/-- The directory. -/
def dirOf (d : List Byte) : List MDir :=
  (List.range (leAt d 12 2)).map (fun i =>
    let o := 0x40 + 16 * i
    { type := leAt d o 2, recs := leAt d (o + 2) 2, off := leAt d (o + 4) 4, len := leAt d (o + 8) 4, zero := leAt d (o + 12) 4 })

/-- Whether a manifest is signed. -/
def manSigned (d : List Byte) : Bool := bit (leAt d 6 2) 0

/-- Where the trailer starts. -/
def trailerAt (d : List Byte) : Nat := d.length - (if manSigned d then 178 else 64)

/-- DIGEST of the trailer. -/
def manDigest (d : List Byte) : List Byte := slice d (trailerAt d) 64

/-- Whether the header breaks its layout. -/
def headerBad (d : List Byte) : Bool :=
  decide (d.length < 256 ∨ 1048576 < d.length) || leAt d 0 4 != 0x464D4258 || leAt d 4 2 != 1 || bits (leAt d 6 2) 15 1 != 0 ||
    decide (13 < leAt d 12 2) || leAt d 14 2 != 0 || leAt d 24 40 != 0

/-- Whether a directory entry is broken: its type, its place, or one that an earlier entry repeats or overlaps. -/
def dirBad (d : List Byte) (i : Nat) (e : MDir) : Bool :=
  let before := (dirOf d).take i
  e.type == 0 || decide (13 < e.type) || e.off % 8 != 0 || e.zero != 0 || decide (e.off < 0x40 + 16 * (dirOf d).length) ||
    decide (trailerAt d < e.off + e.len) ||
    before.any (fun x => x.type == e.type || meets x.off (x.off + x.len) e.off (e.off + e.len))

/-- The records of a directory entry. -/
def entryRecs (d : List Byte) (e : MDir) : Option (List MRec) := readRecs e.type e.recs none ((d.drop e.off).take e.len)

/-- The sections where framing breaks, 0 for the header and for types that there are none of (LOAD_RESULT 3).
(DEDUCED, log entry 46.) -/
def framingBad (d : List Byte) : List Nat :=
  if headerBad d then [0]
  else
    let l := (dirOf d).zipIdx
    let bad := l.filter (fun e => dirBad d e.2 e.1)
    if bad.isEmpty then (l.filter (fun e => (entryRecs d e.1).isNone)).map (fun e => e.1.type)
    else bad.map (fun e => if e.1.type ≤ 13 then e.1.type else 0)

/-- The records of a section; an absent one has none. -/
def section_ (d : List Byte) (t : Nat) : List MRec :=
  match (dirOf d).find? (fun e => e.type == t) with
  | some e => (entryRecs d e).getD []
  | none => []

/-- The record of a key in a section. -/
def recOf (d : List Byte) (t k : Nat) : Option MRec := (section_ d t).find? (fun r => r.key == k)

/-- Field `i` of a record. -/
def fld (r : MRec) (i : Nat) : Nat := nth 0 r.f i

/-! ### What the sections define -/

/-- A field that may be none, encoded as all ones in its size. -/
def optField (size n : Nat) : Option Nat := if n = 2 ^ (8 * size) - 1 then none else some n

/-- A reduction group of a berth (R443). -/
def manGroup (n : Nat) : Group :=
  { n := bits n 15 0, rank := bits n 31 16, next := bits n 44 32, prev := bits n 60 48, sched := bit n 64, rot := bit n 65,
    chain := bits n 79 72 }

/-- The fields of a berth from its records of TYPE 0x01, 0x06, 0x07 and 0x09. -/
def berthCfg (d : List Byte) (r : MRec) : BerthCfg :=
  let c : BerthCfg :=
    { decks := BitVec.ofNat 16 (fld r 0), ringConn := fld r 1, ringAddr := fld r 2, ringLog2 := fld r 3,
      job := optField 2 (fld r 4), sliceLo := [fld r 5, fld r 8, fld r 11], sliceLen := [fld r 6, fld r 9, fld r 12],
      sliceWrap := [fld r 7 == 1, fld r 10 == 1, fld r 13 == 1], barFlag := optField 2 (fld r 14), relFlag := optField 2 (fld r 15),
      qf := (List.range 4).map (fun q => (fld r (16 + 2 * q), fld r (17 + 2 * q))), cfBase := fld r 24, cfCount := fld r 25 }
  let c1 := match recOf d 6 r.key with
    | some x => { c with scalar := fld x 0, nl := fld x 1, sndLog := fld x 2, lft := fld x 3, fns := x.ents.map (BitVec.ofNat 128) }
    | none => c
  let c2 := match recOf d 7 r.key with
    | some x => { c1 with holdBase := fld x 0, holdPages := fld x 1, holdFrames := fld x 2, stall := fld x 3 == 1, holdTmo := fld x 4,
                          tgtConn := optField 2 (fld x 5), tgtBase := fld x 6, tgtPages := fld x 7 }
    | none => c1
  match recOf d 9 r.key with
  | some x => { c2 with groups := x.ents.map manGroup }
  | none => c2

/-- The berths that a manifest defines. -/
def manBerths (d : List Byte) : Tbl BerthCfg := (section_ d 1).map (fun r => (r.key, berthCfg d r))

/-- A connection from its 64-byte entry (R404); NH_MAC is in transmission order. -/
def entryConn (n : Nat) : Conn :=
  { valid := bit n 31, ctrl := bit n 30, mgmt := bit n 29, berth := bits n 28 25, lport := bits n 24 22, sub := bits n 21 20,
    tmo := bits n 15 12, retry := bits n 11 9, rqpn := bits n 55 32, sqPsn := bits n 87 64, rqPsn := bits n 119 96,
    rip := BitVec.ofNat 128 (bits n 255 128), lkey := BitVec.ofNat 32 (bits n 287 256), rkey := BitVec.ofNat 32 (bits n 319 288),
    nhMac := BitVec.ofNat 48 ((List.range 6).foldl (fun a i => a * 256 + bits n (327 + 8 * i) (320 + 8 * i)) 0) }

/-- The connections that a manifest defines. -/
def manConns (d : List Byte) : Tbl Conn := (section_ d 8).map (fun r => (r.key, entryConn (nth 0 r.ents 0)))

/-- A valid connection of a manifest. -/
def manConn (d : List Byte) (n : Nat) : Option Conn :=
  match recOf d 8 n with
  | some r => let c := entryConn (nth 0 r.ents 0); if c.valid then some c else none
  | none => none

/-- The windows that a manifest enables or describes (R324). -/
def manWindows (d : List Byte) : Tbl Window :=
  (section_ d 4).map (fun r =>
    let n := fld r 2
    (r.key, { en := bit n 31, mode := bits n 29 28, berth := bits n 27 24, quay := bits n 21 20, stackB := bits n 15 12,
              stackA := bits n 11 8, base := BitVec.ofNat 32 (fld r 0), limit := BitVec.ofNat 32 (fld r 1), phys := fld r 3 }))

/-- The enabled windows of a manifest. -/
def manEnabled (d : List Byte) : List (Nat × Window) := (manWindows d).filter (fun e => e.2.en)

/-- A shape of a gang record (R566). -/
def shapeOf (n : Nat) : Shape :=
  let k := 2 ^ bits n 6 4 * 2 ^ bits n 2 0
  { gmLog := bits n 6 4, gnLog := bits n 2 0,
    members := ((List.range (min k 16)).map (fun i => bits n (71 + 8 * i) (64 + 8 * i))) }

/-- The gangs that a manifest defines. -/
def manGangs (d : List Byte) : Tbl Gang :=
  (section_ d 2).map (fun r => (r.key, { quad := fld r 0 == 1, shapes := r.ents.map shapeOf }))

/-- The berth of a manifest that holds a deck. -/
def manDeckBerth (d : List Byte) (k : Nat) : Option Nat :=
  ((manBerths d).find? (fun e => bit e.2.decks.toNat k)).map (·.1)

/-- The berth that owns context `c` of quay `q` in a manifest (R239). -/
def manCtxBerth (d : List Byte) (q c : Nat) : Option Nat :=
  if c < 16 then manDeckBerth d (4 * q + c / 4)
  else
    match recOf d 5 q with
    | some r => optField 1 (fld r (20 + c))
    | none => none

/-- START and LEN of context `c` of quay `q` (R246). -/
def manRegion (d : List Byte) (q c : Nat) : Nat × Nat :=
  match recOf d 5 q with
  | some r => (fld r (2 * c), fld r (2 * c + 1))
  | none => (0, 0)

/-- The system fields of a manifest (R464, R566); without the section, roles 0, no management berth and no areas. -/
def manGlobal (d : List Byte) : Manifest :=
  let m : Manifest :=
    { loaded := true, ident := BitVec.ofNat 64 (leAt d 16 8),
      roster := match recOf d 12 0 with
        | some r => r.ents.map (fun n => (bits n 15 0, bits n 31 16, bits n 63 32))
        | none => [] }
  match recOf d 10 0 with
  | some r => { m with vlan := fld r 0, prioSched := fld r 1, prioColl := fld r 2, prioBulk := fld r 3, prioMgmt := fld r 4,
                       pfcEn := BitVec.ofNat 8 (fld r 5), remapOk := fld r 6 == 1, roles := (r.f.drop 7).take 8,
                       mgmtBerth := optField 1 (fld r 15), ferryArea := optField 8 (fld r 16), bistArea := optField 8 (fld r 17) }
  | none => m

/-- SAILING, CYCLE_LEN and ORIGIN (R429, R566). -/
def manSched (d : List Byte) : Nat × Nat × Nat :=
  match recOf d 11 0 with
  | some r => (fld r 0, fld r 1, fld r 2)
  | none => (100, 65536, 0)

/-- The severity list (R531). -/
def manSev (d : List Byte) : List (Nat × Nat) :=
  match recOf d 13 0 with
  | some r => r.ents.map (fun n => (bits n 7 0, bits n 15 8))
  | none => []

/-! ### What the loader rejects (LOAD_RESULT 6) -/

/-- Whether an extent lies within one enabled window of a berth. -/
def inWindow (d : List Byte) (b a len : Nat) : Bool :=
  (manEnabled d).any (fun e => e.2.berth == b && decide (windowLo e.2 ≤ a ∧ a + len ≤ windowHi e.2))

/-- Whether a connection is a valid one of a berth. -/
def connOfBerth (d : List Byte) (n b : Nat) : Bool :=
  match manConn d n with
  | some c => c.berth == b
  | none => false

/-- Whether two ranges of a list, by start and length, overlap; an empty one shares nothing (R246, R247). -/
def rangesMeet (l : List (Nat × Nat)) : Bool :=
  l.zipIdx.any (fun x => l.zipIdx.any (fun y => decide (x.2 < y.2) && x.1.2 != 0 && y.1.2 != 0 && meets x.1.1 (x.1.1 + x.1.2) y.1.1 (y.1.1 + y.1.2)))

/-- Whether a list holds an element twice. -/
def repeats (l : List Nat) : Bool := l.zipIdx.any (fun x => l.zipIdx.any (fun y => decide (x.2 < y.2) && x.1 == y.1))

/-- The coordinate of the module on an axis (R460). -/
def ownCoord (s : State) (axis : Nat) : Nat := ownDevice s / 4 ^ axis % 4

/-- Whether a coordinate lies in a slice (R464). -/
def inSlice (c : BerthCfg) (axis x : Nat) : Bool := decide ((x + 4 - nth 0 c.sliceLo axis % 4) % 4 < nth 0 c.sliceLen axis)

/-- A berth record (R181, R247, R464-R467, R486). -/
def berthBad (s : State) (d : List Byte) (r : MRec) : Bool :=
  let c := berthCfg d r
  let flagBad (o : Option Nat) : Bool := match o with
    | some i => decide (c.cfCount ≤ i)
    | none => false
  let conn := manConn d c.ringConn
  decide (15 < r.key) || c.ringConn == 0 || decide (8191 < c.ringConn) || decide (c.ringLog2 < 4 ∨ 16 < c.ringLog2) ||
    c.ringAddr % 64 != 0 ||
    !(match conn with
      | some x => x.berth == r.key && !x.mgmt
      | none => false) ||
    [5, 8, 11].any (fun i => decide (3 < fld r i)) || [6, 9, 12].any (fun i => decide (fld r i < 1 ∨ 4 < fld r i)) ||
    [7, 10, 13].any (fun i => decide (1 < fld r i)) || flagBad c.barFlag || flagBad c.relFlag ||
    c.qf.any (fun q => decide (1023 < q.1 ∨ 1024 < q.1 + q.2)) || decide (256 < c.cfBase + c.cfCount) ||
    (s.fitted.e1 && (List.range 3).any (fun a => !inSlice c a (ownCoord s a) || (nth false c.sliceWrap a && nth 0 c.sliceLen a != 4)))

/-- The berth records together: a deck given twice, flag ranges that overlap. -/
def berthsBad (d : List Byte) : Bool :=
  let l := manBerths d
  (List.range 16).any (fun k => decide (1 < (l.filter (fun e => bit e.2.decks.toNat k)).length)) ||
    (List.range 4).any (fun q => rangesMeet (l.map (fun e => nth (0, 0) e.2.qf q))) ||
    rangesMeet (l.map (fun e => (e.2.cfBase, e.2.cfCount)))

/-- A gang record (R92, R97, R537, R566, R567). (DEDUCED, log entry 46.) -/
def gangBad (s : State) (d : List Byte) (r : MRec) : Bool :=
  let shapes := r.ents.map shapeOf
  let first := (nth { gmLog := 0, gnLog := 0, members := [] } shapes 0).members
  decide (15 < r.key) || decide (1 < fld r 0) || decide (3 < fld r 1) || fld r 2 != 0 ||
    r.ents.any (fun n =>
      let sh := shapeOf n
      bit n 7 || bit n 3 || bits n 63 8 != 0 || decide (4 < sh.gmLog + sh.gnLog) || sh.members.any (fun m => decide (15 < m)) ||
        repeats sh.members || (fld r 0 == 1 && sh.members.length != 1) || sh.members.any (fun m => !first.contains m) ||
        (List.range 16).any (fun i => decide (sh.members.length ≤ i) && bits n (71 + 8 * i) (64 + 8 * i) != 0xFF)) ||
    first.any (fun m => (manDeckBerth d m).isNone || manDeckBerth d m != manDeckBerth d (first.headD 0)) ||
    !(shapes.any (fun sh => sh.members.all (fun m => !deckFenced s m)))

/-- A deck in two gangs. -/
def gangsBad (d : List Byte) : Bool :=
  repeats ((manGangs d).flatMap (fun e => (nth { gmLog := 0, gnLog := 0, members := [] } e.2.shapes 0).members))

/-- A deck record (R124). -/
def deckBad (d : List Byte) (r : MRec) : Bool :=
  decide (15 < r.key) || decide (2 ^ 48 ≤ fld r 0) || fld r 0 % 4096 != 0 ||
    (match manDeckBerth d r.key with
     | some b => !inWindow d b (fld r 0) 0x101000
     | none => false)

/-- The part of each stack that a window takes (R327): the stacks, the first address and the length there. -/
def footprint (s : State) (w : Window) : List Nat × Nat × Nat :=
  let l := windowStacks s w
  (l, 65536 * w.phys, (windowHi w - windowLo w) / l.length)

/-- Whether two windows overlap, in device addresses or in footprint. -/
def windowsMeet (s : State) (v w : Window) : Bool :=
  let a := footprint s v
  let b := footprint s w
  meets (windowLo v) (windowHi v) (windowLo w) (windowHi w) ||
    (a.1.any (fun k => b.1.contains k) && meets a.2.1 (a.2.1 + a.2.2) b.2.1 (b.2.1 + b.2.2))

/-- A window record (R324, R327). -/
def windowBad (s : State) (d : List Byte) (r : MRec) : Bool :=
  let n := fld r 2
  let w := ((manWindows d).find? (fun e => e.1 == r.key)).map (·.2)
  decide (15 < r.key) || bit n 30 || bits n 23 22 != 0 || bits n 19 16 != 0 || bits n 7 0 != 0 || decide (2 ^ 18 ≤ fld r 3) ||
    (match w with
     | some v =>
       let f := footprint s v
       let z := windowHi v - windowLo v
       v.en && (decide (v.limit.toNat < v.base.toNat) || decide (capacity s < windowHi v) || f.1.isEmpty ||
         z % (f.1.length * 65536) != 0 || f.1.any (fun k => !populated s k) || (v.mode == 3 && v.stackA == v.stackB) ||
         decide (2 ^ 34 < f.2.1 + f.2.2) || (manEnabled d).any (fun e => decide (e.1 < r.key) && windowsMeet s e.2 v))
     | none => false)

/-- A quay record (R239, R246). -/
def quayBad (d : List Byte) (r : MRec) : Bool :=
  let q := r.key
  decide (3 < q) ||
    (List.range 18).any (fun c =>
      let g := manRegion d q c
      decide (8191 < g.1 ∨ 8192 < g.1 + g.2) || (g.2 != 0 && (manCtxBerth d q c).isNone)) ||
    rangesMeet ((List.range 18).map (manRegion d q)) ||
    [16, 17].any (fun c => match manCtxBerth d q c with
      | some b => decide (15 < b) || !((List.range 4).any (fun k => manDeckBerth d (4 * q + k) == some b))
      | none => false)

/-- Whether a record is keyed by a berth that is not defined (R567). -/
def noBerth (d : List Byte) (r : MRec) : Bool := (recOf d 1 r.key).isNone

/-- A drain record (R180, R181). -/
def drainRecBad (d : List Byte) (r : MRec) : Bool :=
  noBerth d r || decide (fld r 4 < 1 ∨ 64 < fld r 4) || decide (fld r 1 < 1 ∨ 4096 < fld r 1) ||
    r.ents.any (fun n => !fnEntryOk (BitVec.ofNat 128 n)) || !inWindow d r.key (fld r 0) 1024 ||
    !inWindow d r.key (fld r 2) (fld r 1 * 32768) || !inWindow d r.key (fld r 3) (fld r 1 * 4)

/-- A hold record (R217). -/
def holdBad (s : State) (d : List Byte) (r : MRec) : Bool :=
  let pages := fld r 1
  let frames := fld r 2
  noBerth d r || fld r 0 % 0x200000 != 0 || decide (capacity s ≤ fld r 0) || decide (262144 < pages) ||
    (if pages = 0 then frames != 0 else decide (frames < 1 ∨ pages < frames)) || decide (1 < fld r 3) ||
    decide (2 ^ 24 ≤ fld r 4) || (match optField 2 (fld r 5) with
      | some n => !connOfBerth d n r.key
      | none => false) || fld r 6 % 4096 != 0 || decide (262144 < fld r 7) ||
    (pages != 0 && !inWindow d r.key (fld r 0) ((cdiv (8 * pages) 0x200000 + frames) * 0x200000))

/-- The axis of a torus role, and whether it runs in the positive direction. -/
def roleAxis (role : Nat) : Nat × Bool := ((role - 1) / 2, role % 2 == 1)

/-- Whether the path of a connection from a position to another leaves its berth's slice or crosses an open closing link (R466). -/
def pathBad (c : BerthCfg) (axis : Nat) (up : Bool) : Nat → Nat → Nat → Bool
  | 0, _, _ => false
  | k + 1, at_, dest =>
    if at_ = dest then false
    else
      let next := if up then (at_ + 1) % 4 else (at_ + 3) % 4
      let lo := nth 0 c.sliceLo axis
      let last := (lo + 3) % 4
      let closing := if up then at_ == last && next == lo else at_ == lo && next == last
      !inSlice c axis next || (closing && !nth false c.sliceWrap axis) || pathBad c axis up k next dest

/-- Whether the device at the far end of a torus connection is out of its line, or its path is not allowed (R466). -/
def torusBad (s : State) (d : List Byte) (c : Conn) : Bool :=
  let role := nth 0 (manGlobal d).roles c.lport
  if !s.fitted.e1 || role == 0 || decide (6 < role) then false
  else
    let a := roleAxis role
    match ipNames c.rip with
    | none => true
    | some (sys, dev) =>
      sys != ownSys s || dev - dev / 4 ^ a.1 % 4 * 4 ^ a.1 != ownDevice s - ownCoord s a.1 * 4 ^ a.1 ||
        (match recOf d 1 c.berth with
         | some r => pathBad (berthCfg d r) a.1 a.2 4 (ownCoord s a.1) (dev / 4 ^ a.1 % 4)
         | none => false)

/-- A connection record (R404, R466). (DEDUCED, log entry 46.) -/
def connBad (s : State) (d : List Byte) (r : MRec) : Bool :=
  let n := nth 0 r.ents 0
  let c := entryConn n
  decide (8191 < r.key) || bits n 19 16 != 0 || bits n 8 0 != 0 || bits n 63 56 != 0 || bits n 95 88 != 0 || bits n 127 120 != 0 ||
    bits n 511 368 != 0 ||
    (c.valid && (r.key == 0 || (recOf d 1 c.berth).isNone || !fittedPort s c.lport || !bit (portMode s c.lport) 31 ||
      decide (subPorts s c.lport ≤ c.sub) || decide (c.rqpn < 2) || c.tmo == 0 ||
      (c.ctrl && (manGlobal d).mgmtBerth != some c.berth) || torusBad s d c))

/-- Two valid connections to one address and QPN. -/
def connsBad (d : List Byte) : Bool :=
  repeats (((manConns d).filter (fun e => e.2.valid)).map (fun e => e.2.rip.toNat * 2 ^ 24 + e.2.rqpn))

/-- Whether following chains from a group comes to no end. -/
def chainLoops (l : List Group) : Nat → Nat → Bool
  | 0, _ => true
  | k + 1, i =>
    match l[i]? with
    | some g => if g.chain = 0xFF then false else chainLoops l k g.chain
    | none => false

/-- A group table (R443). -/
def groupsBad (s : State) (d : List Byte) (r : MRec) : Bool :=
  let l := r.ents.map manGroup
  noBerth d r || decide (256 < fld r 0) ||
    r.ents.any (fun n =>
      let g := manGroup n
      g.n == 0 || decide (16384 < g.n) || decide (g.n ≤ g.rank) || bits n 47 45 != 0 || bits n 63 61 != 0 || bits n 71 66 != 0 ||
        bits n 127 80 != 0 || (g.chain != 0xFF && decide (l.length ≤ g.chain)) ||
        (decide (2 ≤ g.n) && [g.next, g.prev].any (fun c => !connOfBerth d c r.key || (g.sched && (match manConn d c with
          | some x => subPorts s x.lport != 1
          | none => false))))) ||
    (List.range l.length).any (chainLoops l (l.length + 1))

/-- The system record (R395, R464, R465, R566). (DEDUCED, log entry 46.) -/
def globalBad (s : State) (d : List Byte) (r : MRec) : Bool :=
  let m := manGlobal d
  let area (o : Option Nat) (unit len : Nat) : Bool := match o with
    | some a => a % unit != 0 || (match m.mgmtBerth with
      | some b => !inWindow d b a len
      | none => true)
    | none => false
  r.key != 0 || decide (m.vlan < 1 ∨ 4094 < m.vlan) || [1, 2, 3, 4].any (fun i => decide (7 < fld r i)) || decide (1 < fld r 6) ||
    bit m.pfcEn.toNat m.prioSched || m.roles.any (fun x => decide (8 < x)) || repeats (m.roles.filter (fun x => x != 0)) ||
    (if s.fitted.e1 then m.roles.contains 8 else m.roles.any (fun x => decide (1 ≤ x ∧ x ≤ 7))) ||
    [1, 3, 5].any (fun x => m.roles.contains x != m.roles.contains (x + 1)) ||
    (List.range 8).any (fun l =>
      let x := nth 0 m.roles l
      (decide (1 ≤ x ∧ x ≤ 6) && planKind s l != 1) || ((x == 7 || x == 8) && planKind s l != 2)) ||
    (match m.mgmtBerth with
     | some b => decide (15 < b)
     | none => false) ||
    area m.ferryArea 0x40000000 0x40010000 || area m.bistArea 0x1000000 0x1000000

/-- The timetable record (R429). -/
def schedBad (r : MRec) : Bool :=
  r.key != 0 || decide (fld r 0 < 50 ∨ 800 < fld r 0) || decide (fld r 1 < 1 ∨ 65536 < fld r 1)

/-- The roster (R464, R479). -/
def rosterBad (r : MRec) : Bool :=
  r.key != 0 || decide (1024 < fld r 0) ||
    r.ents.any (fun n => decide (4096 < bits n 31 16) || decide (bits n 63 32 < 1 ∨ 262144 < bits n 63 32))

/-- The severity list (R531). -/
def sevBad (r : MRec) : Bool :=
  r.key != 0 || decide (256 < fld r 0) ||
    r.ents.any (fun n =>
      let cls := bits n 15 8
      match faultDefault (bits n 7 0) with
      | some x => decide (5 < cls) || (faultRaiseOnly (bits n 7 0) && decide (cls < x))
      | none => true)

/-- Whether a record of a section is rejected. -/
def recBad (s : State) (d : List Byte) (t : Nat) (r : MRec) : Bool :=
  if t = 1 then berthBad s d r
  else if t = 2 then gangBad s d r
  else if t = 3 then deckBad d r
  else if t = 4 then windowBad s d r
  else if t = 5 then quayBad d r
  else if t = 6 then drainRecBad d r
  else if t = 7 then holdBad s d r
  else if t = 8 then connBad s d r
  else if t = 9 then groupsBad s d r
  else if t = 10 then globalBad s d r
  else if t = 11 then schedBad r
  else if t = 12 then rosterBad r
  else sevBad r

/-- The sections that the loader rejects. (DEDUCED, log entry 46.) -/
def rejected (s : State) (d : List Byte) : List Nat :=
  ((List.range 14).drop 1).filter (fun t =>
    (section_ d t).any (recBad s d t) || (t == 1 && berthsBad d) || (t == 2 && gangsBad d) || (t == 8 && connsBad d))

/-! ### LOAD_MANIFEST (R568, R569) -/

/-- Every berth landing is closed, or opened. (DEDUCED, log entry 48.) -/
def closeLandings (s : State) (on : Bool) : State :=
  (List.range 16).foldl (fun t b => setLand t b { landOf t b with closed := on }) s

/-- Whether every berth is idle, disabled, halted or undefined, so that a manifest may be loaded (R569).
(DEDUCED, log entry 48.) -/
def allIdle (s : State) : Bool :=
  (List.range 16).all (fun b =>
    let st := (berthOf s b).st
    st == .idle || st == .disabled || st == .halted || st == .undefined)

/-- The REPLY to a LOAD_MANIFEST, at the end of the load (R568). -/
def loadReply (s : State) (hseq : Word) (result type off : Nat) (digest : List Byte) : State :=
  reply s 16 0xFF hseq 0 7 0 (natLe 1 result ++ natLe 1 type ++ natLe 2 0 ++ natLe 4 off ++ slice digest 0 8)

/-- What LOAD_MANIFEST does once taken and not refused. While the manifest is read the message keeps its buffer. -/
def doLoad (s : State) (m : Msg) (h : Header) : State :=
  if !allIdle s then answer (closeLandings s false) 16 h 0x0E []
  else if !s.boot.ready then loadReply (closeLandings s false) h.hseq 1 0 0 []
  else if s.diag.busy && s.diag.type == 0x10 then loadReply (closeLandings s false) h.hseq 7 0 0 []
  else
    let addr := leAt m.data 0x20 8
    let len := leAt m.data 0x28 4
    let x := landOf s 16
    let s1 := setLand s 16 { x with bufs := m :: x.bufs }
    request { s1 with load := some { conn := m.conn, hseq := h.hseq, addr := addr, len := len } } m.conn .manifest (packetsOf len)
      (.read addr len)

/-- Whether the message in front is a LOAD_MANIFEST that is taken and not refused before its own checks. -/
def loadTaken (s : State) : Bool :=
  match (landOf s 16).bufs with
  | m :: _ =>
    let h := headerOf m.data
    h.type == 7 && s.load.isNone && decide (32 ≤ m.data.length) && (seqStatus (landOf s 16) h).isNone &&
      (earlyStatus s 16 m.data).isNone
  | [] => false

/-- LOAD_MANIFEST: the berth landings close; once the messages in their buffers have been processed, the load goes on.
(DEDUCED, log entry 48.) -/
def loadManifest (s : State) : State :=
  if loadTaken s then
    let s1 := closeLandings s true
    if (List.range 16).all (fun b => (landOf s1 b).bufs.isEmpty) then onMsg s1 16 7 doLoad else s1
  else onMsg s 16 7 doLoad

/-- LOAD_MANIFEST. -/
def execLoadManifest (s : State) : Answer := .next (loadManifest s)

/-! ### Verification (R568) -/

/-- A load ends without a change: the landings open, fences latched meanwhile are settled (R537), and the message leaves its buffer with
its REPLY. (DESIGN CHOICE and DEDUCED, log entries 2, 48.) -/
def rejectLoad (s : State) (l : Load) (result type off : Nat) (digest : List Byte) : State :=
  let s1 := refitGangs (closeLandings { s with load := none } false)
  nextMsg (loadReply (popMsg s1 16) l.hseq result type off digest) 16

/-- The outcome of the checks: LOAD_RESULT and the sections that fail. (DEDUCED, log entry 46.) -/
def verdictOf (s : State) (l : Load) (read : Option (List Byte)) : Nat × List Nat :=
  match read with
  | none => (2, [0])
  | some d =>
    if d.length ≠ l.len ∨ leAt d 8 4 ≠ l.len then (2, [0])
    else if !(framingBad d).isEmpty then (3, framingBad d)
    else if digest64 (d.take (trailerAt d)) != manDigest d then (4, [0])
    else if manSigned d && !ed448Verify (manifestKey s) (manDigest d) (slice d (d.length - 114) 114) then (5, [0])
    else if !manSigned d && bit (regGet s (scBase + 8)).toNat 1 then (5, [0])
    else if !(rejected s d).isEmpty then (6, rejected s d)
    else (0, [0])

/-- A failed check is raised and answered. Which of several failing sections is named, and the byte offset, are free values (log entry 2). -/
def failLoad (s : State) (l : Load) (d : List Byte) (result : Nat) (types : List Nat) : State :=
  let i := freshWord s
  let o := freshWord i.2
  let type := nth 0 types (i.1.toNat % types.length)
  let off := o.1.toNat % 2 ^ 32
  let s1 := if result = 5 then raiseChip o.2 2 0x71 (if manSigned d then 0 else 1)
    else raiseChip o.2 0 0x5C (result + type * 2 ^ 8 + off * 2 ^ 32)
  rejectLoad s1 l result type off (if result = 2 then [] else manDigest d)

/-- MANIFEST_VERIFY_DONE: what has been read, none where the read failed. -/
def verifyDone (s : State) (read : Option (List Byte)) : State :=
  match s.load with
  | none => s
  | some l =>
    if l.verified.isSome then s
    else
      let got := if connUsable s l.conn then read else none
      let s1 := setReqs s l.conn (dropFirst (fun x => x.kind == .manifest) (connOf s l.conn).reqs)
      let v := verdictOf s1 l got
      if v.1 = 0 then { s1 with load := some { l with verified := got } } else failLoad s1 l (got.getD []) v.1 v.2

/-- MANIFEST_VERIFY_DONE. -/
def execManifestVerifyDone (read : Option (List Byte)) (s : State) : Answer := .next (verifyDone s read)

/-! ### The apply step (R570, and the rules of every chapter that name a manifest load) -/

/-- A range of keys of HBM becomes zero, and its poison is gone. -/
def zeroKeys (s : State) (lo hi : Nat) : State :=
  { s with hbm := s.hbm.zero lo hi, poison := s.poison.filter (fun b => !(decide (lo ≤ b * 32) && decide (b * 32 < hi))) }

/-- Whether the windows in force gave a berth all of [a, hi) of a stack. -/
def coveredBy (s : State) (b k : Nat) : Nat → Nat → Nat → Bool
  | 0, a, hi => decide (hi ≤ a)
  | fuel + 1, a, hi =>
    if hi ≤ a then true
    else
      match (s.windows.map (·.2)).find? (fun w =>
        let f := footprint s w
        w.en && w.berth == b && f.1.contains k && decide (f.2.1 ≤ a ∧ a < f.2.1 + f.2.2)) with
      | some w => coveredBy s b k fuel ((footprint s w).2.1 + (footprint s w).2.2) hi
      | none => false

/-- A new window's footprint is zeroed where a byte of it changes its owner, or the window was not enabled before (R328). `old` is the
state before the load. -/
def zeroWindow (old s : State) (e : Nat × Window) : State :=
  let f := footprint old e.2
  if (windowOf old e.1).en && f.1.all (fun k => coveredBy old e.2.berth k 17 f.2.1 (f.2.1 + f.2.2)) then s
  else f.1.foldl (fun t k => zeroKeys t (k * 2 ^ 34 + f.2.1) (k * 2 ^ 34 + f.2.1 + f.2.2)) s

/-- A berth as a manifest leaves it: idle with the new fields, or not defined. -/
def applyBerth (d : List Byte) (s : State) (b : Nat) : State :=
  let x := berthOf s b
  let y : Berth := { last := x.last, lastStatus := x.lastStatus, lastElapsed := x.lastElapsed, epoch := x.epoch }
  match recOf d 1 b with
  | some r =>
    let c := berthCfg d r
    let s1 := setBerth s b { y with cfg := c, st := .idle }
    let a := mwBase + 0x1000 + 0x40 * b
    regSet (regSet s1 (a + 8) (BitVec.ofNat 32 c.holdFrames)) (a + 12) (BitVec.ofNat 32 c.holdTmo)
  | none => setBerth s b y

/-- A deck as a manifest leaves it (R131, R171, R172, R213). -/
def applyDeck (old : State) (d : List Byte) (s : State) (k : Nat) : State :=
  let x := deckOf s k
  let was := deckBerth old k
  let now := manDeckBerth d k
  let zero := was != now && (was.isSome || !x.hadBerth)
  setDeck s k { x with tiles := [], descs := [], zrecs := [], fore1 := false, nacc := [], snd := {}, hadBerth := x.hadBerth || now.isSome,
                       saveBase := match recOf d 3 k with
                         | some r => some (fld r 0)
                         | none => none,
                       buf0 := if zero then {} else x.buf0, buf1 := if zero then {} else x.buf1, gang := noGangWord s k }

/-- A gang in its primary shape, or in the one that fenced decks leave it (R98, R537). -/
def applyGang (s : State) (g : Nat) : State :=
  let sh := nth { gmLog := 0, gnLog := 0, members := [] } (tget ({} : Gang) s.gangs g).shapes 0
  let s1 := sh.members.foldl (fun t k => setGang t k (gangWord t g 0 k)) s
  if sh.members.any (deckFenced s1) then refitGang s1 g else s1

/-- The contexts of a quay as a manifest leaves them (R239, R246, R256); its prefetch lines are invalidated, and fills on their way are stale
(R351). -/
def applyQuay (d : List Byte) (s : State) (q : Nat) : State :=
  setQuay s q
    { ctxs := (List.range 18).map (fun c =>
        (c, { berth := manCtxBerth d q c, start := (manRegion d q c).1, len := (manRegion d q c).2 })),
      fills := (quayOf s q).fills.map (fun f => (f.1, true, f.2.2)) }

/-- The severities: defaults, then the list in order (R531). -/
def applySev (d : List Byte) (s : State) : State :=
  let s1 := (List.range 256).foldl (fun t n => match faultDefault n with
    | some c => regSet t (fcSevAddr n) (BitVec.ofNat 32 c)
    | none => t) s
  (manSev d).foldl (fun t e => regSet t (fcSevAddr e.1) (BitVec.ofNat 32 e.2)) s1

/-- The connections of a manifest, ready; connection 0 stays (R404, R405). -/
def applyConns (d : List Byte) (s : State) : State :=
  { s with conns := (0, connOf s 0) :: ((manConns d).filter (fun e => e.1 != 0)).map (fun e => (e.1, { e.2 with riseAt := s.time.mono })) }

/-- The allotments at their reset sizes, shadows too (R337). -/
def applyTrk (s : State) : State :=
  { (List.range 21).foldl (fun t n => regSet t (mwBase + 0x200 + 4 * n) (BitVec.ofNat 32 (allotReset n))) s with trkAlloc := [] }

/-- PT_PFC.EN of every fitted port (R413). -/
def applyPfc (d : List Byte) (s : State) : State :=
  (List.range 8).foldl (fun t p =>
    if fittedPort t p then
      pfcWrite t p (BitVec.ofNat 32 (regBits t (ptBase p + 0x20) 23 16 * 2 ^ 16 + (manGlobal d).pfcEn.toNat))
    else t) s

/-- The grid and an empty timetable (R429, R434). (DEDUCED, log entry 36.) -/
def applySched (d : List Byte) (s : State) : State :=
  let c := manSched d
  setTime s (fun t => { t with sailing := c.1, cycleLen := c.2.1, origin := c.2.2, active := [], tblOn := false })

/-- Records of berth landings still waiting go to the management ring, and the berth landings start afresh and open (R502, R503). -/
def applyLandings (s : State) : State :=
  (List.range 16).foldl (fun t b => setLand t b {}) ((List.range 16).foldl moveWaiting s)

/-- The tables of a manifest that name connections, windows and gangs; every enabled window that R328 names is zeroed. -/
def applyTables (d : List Byte) (s : State) : State :=
  let s1 := applyConns d (applyLandings s)
  let s2 := { s1 with windows := manWindows d, gangs := manGangs d, halves := [] }
  (manEnabled d).foldl (zeroWindow s) s2

/-- Berths, decks, gangs and quays as a manifest leaves them. -/
def applyUnits (old : State) (d : List Byte) (s : State) : State :=
  let s1 := (List.range 16).foldl (applyBerth d) s
  let s2 := (List.range 16).foldl (applyDeck old d) s1
  let s3 := { s2 with waits := [] }
  let s4 := (List.range 4).foldl (applyQuay d) s3
  ((manGangs d).map (·.1)).foldl applyGang s4

/-- The fields of a manifest that belong to no berth, and the registers that a load sets. -/
def applyGlobal (d : List Byte) (s : State) : State :=
  let s1 := extendM { s with man := manGlobal d, sec := { s.sec with digest := manDigest d } } 2 (manDigest d)
  applySev d (applySched d (applyPfc d (applyTrk s1)))

/-- Whether a frame that waits at a port is one of a connection that a manifest load discards (R570). -/
def discardedFrame : Out → Bool
  | .roce n _ _ => n != 0
  | _ => false

/-- Segments and frames of discarded connections leave the lanes and the ports, and every port is classified (R388, R570). -/
def applyPorts (s : State) : State :=
  classifyAll { s with ports := s.ports.map (fun e =>
    (e.1, { e.2 with segs := [], adding := [], held := e.2.held.filter (fun h => !discardedFrame h.2) })) }

/-- A manifest that has passed is applied whole, and its message is answered (R570). (DEDUCED, log entry 47.) -/
def applyManifest (s : State) (l : Load) (d : List Byte) : State :=
  let s1 := applyPorts (applyGlobal d (applyUnits s d (applyTables d s)))
  nextMsg (loadReply (popMsg { s1 with load := none } 16) l.hseq 0 0 0 (manDigest d)) 16

/-- MANIFEST_APPLY: the load that has passed its checks. -/
def execManifestApply (s : State) : Answer :=
  .next (match s.load with
    | some l => (match l.verified with
      | some d => applyManifest s l d
      | none => s)
    | none => s)

end Sys2Proof.Machine
end

