-- ==== Sys2Proof/Machine/Collective.lean ====
section
/-! DEFINITION. The collective engine and the reduction lanes: REDUCE, NORM, XFER, segments received and added, and the collective
timeout (R308-R311, R444-R458). -/

namespace Sys2Proof.Machine

/-- Whether the collective queue may start a command: an XFER before it has issued its last packet (R311). -/
def collRoom (s : State) (q : Nat) : Bool :=
  s.runs.all (fun r => r.q != q || r.c != 17 || opcodeOf r.cmd.word != 0x2A || decide (xferPieces r ≤ r.coll.next) || r.failed)

/-- A REDUCE or NORM takes the next value of its stream's counter (R445). (DEDUCED, log entry 33.) -/
def takeSeq (s : State) (b stream : Nat) : State × Word :=
  let x := berthOf s b
  let v : Word := tget 0 x.seqs stream
  (setBerth s b { x with seqs := tput x.seqs stream (v + 1) }, v)

/-- The detail of COLL_SHAPE, LANE_NONE, COLL_TMO and SAT_COLL (R459). -/
def collDetail (stream : Nat) (seq : Word) : Nat := stream + seq.toNat * 2 ^ 32

/-- A run's collective part replaced. -/
def setColl (s : State) (id : Nat) (f : CollRun → CollRun) : State :=
  match runOf s id with
  | some r => setRun s { r with coll := f r.coll }
  | none => s

/-! ### REDUCE (R308, R309, R447-R449) -/

/-- The extents that a REDUCE reads and writes, checked before its first transaction (R329). -/
def reduceExtents (o : ReduceOps) (n : Nat) : List (Nat × Nat) :=
  (if o.fromHbm then [(o.saddr, 4 * o.len)] else []) ++
  [(o.addr, if o.kind = 2 then 4 * n * o.len else 4 * o.len)] ++
  (if o.thin then [(o.eaddr * 64, 4 * o.len)] else [])

/-- A REDUCE on a group whose entry the table does not hold: the spec states no result, so its bytes are undefined.
(DESIGN CHOICE, log entry 32.) -/
def reduceNoGroup (s : State) (q b : Nat) (m : QCmd) (o : ReduceOps) : State :=
  match firstOutside s b (reduceExtents o 1) with
  | some a => refuseHead (raiseCtx s q 17 0x33 b a) q 17 m
  | none => headDone (hbmUndefine s o.addr (4 * o.len)) q 17 b m

/-- A REDUCE starts (R308, R447). -/
def reduceAt (s : State) (q b : Nat) (m : QCmd) (o : ReduceOps) : State :=
  let p := takeSeq s b o.rstream
  match (berthOf s b).cfg.groups[o.group]? with
  | none => reduceNoGroup p.1 q b m o
  | some g =>
    if o.kind = 1 && o.len % g.n != 0 then refuseHead (raiseBerth p.1 2 q 0x28 b (collDetail o.rstream p.2)) q 17 m
    else
      match firstOutside p.1 b (reduceExtents o g.n) with
      | some a => refuseHead (raiseCtx p.1 q 17 0x33 b a) q 17 m
      | none =>
        if o.len = 0 then headDone p.1 q 17 b m
        else
          let t := startRun p.1 q 17 b m []
          let k : CollRun := { group := o.group, seq := p.2, kind := o.kind, len := o.len, src := if o.fromHbm then 1 else 0 }
          let s1 := match runOf t.1 t.2 with
            | some r => setRun t.1 { r with coll := k, todo := if o.fromHbm then readReqs 3 [20] o.saddr (4 * o.len) else [] }
            | none => t.1
          deliverRows b o.rstream (s1.runs.length + 1) (pumpRun (issueRun (beginGroup s1 t.2) t.2) t.2)

/-- Whether a REDUCE of a berth is running on a stream (R308). -/
def streamBusy (s : State) (b stream : Nat) : Bool :=
  s.runs.any (fun r => r.berth == b && opcodeOf r.cmd.word == 0x28 && (runReduce r).rstream == stream)

/-- REDUCE at the head of the collective queue. -/
def reduceStart (s : State) (q : Nat) : State :=
  match headOp s q 17 0x28 with
  | some p =>
    match opOf p.2.word with
    | .reduce o => if collRoom s q && !streamBusy s p.1 o.rstream then reduceAt s q p.1 p.2 o else s
    | _ => s
  | none => s

/-- REDUCE. -/
def execReduce (q : Fin 4) (s : State) : Answer := .next (reduceStart s q.val)

/-- REDUCE_COMPLETE (R309): everything of the last group has been sent, received and written. A REDUCE that has lost data or its
connection ends without its SFLAG. (DEDUCED, log entry 33.) -/
def reduceComplete (s : State) (q run : Nat) : State :=
  match runOf s run with
  | some r =>
    if r.q == q && opcodeOf r.cmd.word == 0x28 && taskMoves s r.berth then
      if r.failed then (if runBusy s run then s else failRun s run)
      else if groupComplete s r && !(r.coll.kind == 0 && (runGroup s r).chain != 0xFF) then runDone s r
      else s
    else s
  | none => s

/-- REDUCE_COMPLETE. -/
def execReduceComplete (q : Fin 4) (run : Nat) (s : State) : Answer := .next (reduceComplete s q.val run)

/-! ### NORM (R310) -/

/-- The sum in binary64 of accumulators, in the order of the n-th sum, rounded once to FP32. (DEDUCED, log entry 62.) -/
def normSum (n : Nat) (l : List DWord) : Word :=
  match freeOrder n l with
  | [] => 0
  | a :: r => rne32 (f64 (r.foldl (fun x y => rne64 (FV.add (f64 x) (f64 y))) a))

/-- An accumulator set to +0. -/
def clearNorm (acc : Nat) (s : State) (d : Nat) : State :=
  let x := deckOf s d
  setDeck s d { x with nacc := tput x.nacc acc 0 }

/-- The norm accumulator of the `i`-th deck of a NORM; that of a fenced deck is undefined (R536), so it is a free value. (DEDUCED, log entry
33.) -/
def normWord (s : State) (acc d i : Nat) : DWord :=
  if deckFenced s d then Config.freeWord (s.free + i) else tget 0 (deckOf s d).nacc acc

/-- A NORM starts (R310). One on a group whose entry the table does not hold leaves its words undefined.
(DESIGN CHOICE and DEDUCED, log entries 32, 33.) -/
def normAt (s : State) (q b : Nat) (m : QCmd) (acc grp nidx fidx : Nat) : State :=
  let g := (berthOf s b).cfg
  let words := [(g.scalar + 4 * nidx, 4), (g.scalar + 4 * fidx, 4)]
  match firstOutside s b words with
  | some a => refuseHead (raiseCtx s q 17 0x33 b a) q 17 m
  | none =>
    let p := takeSeq s b 0
    let ds := berthDecks s b
    let n := normSum (s.free + ds.length) (ds.zipIdx.map (fun e => normWord s acc e.1 e.2))
    let s1 := ds.foldl (clearNorm acc) { p.1 with free := p.1.free + ds.length + 1 }
    match g.groups[grp]? with
    | none => headDone (undefineAll s1 words) q 17 b m
    | some _ =>
      let t := startRun s1 q 17 b m []
      pumpRun (beginGroup (setColl t.1 t.2
        (fun _ => { group := grp, seq := p.2, kind := 0, len := 1, src := 2, own := natLe 4 n.toNat })) t.2) t.2

/-- NORM at the head of the collective queue. -/
def normStart (s : State) (q : Nat) : State :=
  match headOp s q 17 0x29 with
  | some p =>
    match opOf p.2.word with
    | .norm acc grp nidx fidx _ => if collRoom s q then normAt s q p.1 p.2 acc grp nidx fidx else s
    | _ => s
  | none => s

/-- NORM. -/
def execNorm (q : Fin 4) (s : State) : Answer := .next (normStart s q.val)

/-! ### XFER (R311, R441) -/

/-- A transfer that its connection cannot complete (R311, R407): CONN_FAIL against the task, with the reason of the failure.
(DEDUCED, log entry 33.) -/
def connRefused (s : State) (n : Nat) : State := raiseConn s (connPort s n) 0x45 n (n + (connOf s n).reason * 2 ^ 16)

/-- The sailings that an XFER takes (R437, R441). -/
def xferSails (s : State) (o : XferOps) : State × List Nat :=
  if o.sched then bindSailings s o.conn (cdiv (packetsOf o.len) (sailPackets s)) else (s, [])

/-- An XFER starts. -/
def xferAt (s : State) (q b : Nat) (m : QCmd) (o : XferOps) : State :=
  if o.len = 0 && !o.imm then headDone s q 17 b m
  else
    match firstOutside s b [(o.laddr, o.len)] with
    | some a => refuseHead (raiseCtx s q 17 0x33 b a) q 17 m
    | none =>
      if !connUsable s o.conn then refuseHead (connRefused s o.conn) q 17 m
      else
        let x := xferSails s o
        let t := startRun x.1 q 17 b m []
        match runOf t.1 t.2 with
        | some r =>
          pumpRun (issueRun (setRun t.1 { r with todo := readReqs 3 [20] o.laddr o.len, coll := { r.coll with sails := x.2 } }) t.2) t.2
        | none => t.1

/-- XFER at the head of the collective queue. -/
def xferStart (s : State) (q : Nat) : State :=
  match headOp s q 17 0x2A with
  | some p =>
    match opOf p.2.word with
    | .xfer o => if collRoom s q then xferAt s q p.1 p.2 o else s
    | _ => s
  | none => s

/-- XFER. -/
def execXfer (q : Fin 4) (s : State) : Answer := .next (xferStart s q.val)

/-- The acknowledged requests of an XFER leave its connection. -/
def ackXfer (s : State) (n run : Nat) : State :=
  let c := connOf s n
  setReqs (setConn s n { c with tries := 0 }) n (c.reqs.filter (fun x => x.kind != .xfer run))

/-- XFER_COMPLETE: the responder has acknowledged every byte. -/
def xferComplete (s : State) (q run : Nat) : State :=
  match runOf s run with
  | some r =>
    if r.q == q && opcodeOf r.cmd.word == 0x2A && taskMoves s r.berth then
      if r.failed then (if runBusy s run then s else failRun (ackXfer s (runXfer r).conn run) run)
      else if decide (xferPieces r ≤ r.coll.next) && connUsable s (runXfer r).conn then runDone (ackXfer s (runXfer r).conn run) r
      else s
    else s
  | none => s

/-- XFER_COMPLETE. -/
def execXferComplete (q : Fin 4) (run : Nat) (s : State) : Answer := .next (xferComplete s q.val run)

/-! ### Receiving segments (R444-R446) -/

/-- Whether a group of a connection's berth names it (R444). -/
def groupNames (s : State) (n : Nat) : Bool :=
  (connOf s n).valid && n != 0 && (berthOf s (connOf s n).berth).cfg.groups.any (fun g => decide (2 ≤ g.n) && (g.prev == n || g.next == n))

/-- The bytes that a lane's store holds (R445). -/
def laneStore (p : Port) : Nat := (p.segs ++ p.adding).foldl (fun a x => a + x.header.length + x.data.length) 0

/-- A run has received a segment now (R457). -/
def noteSeg (s : State) (id : Nat) : State := setColl s id (fun k => { k with lastSeg := s.time.mono })

/-- A segment reaches the reduction lane of its port: matched, held, or discarded (R445, R446). (DEDUCED, log entry 33.) -/
def segmentAt (s : State) (p n : Nat) (payload : List Byte) : State :=
  let b := (connOf s n).berth
  let x : Segment := { conn := n, header := payload.take 32, data := payload.drop 32 }
  let stream := leAt x.header 4 1
  let seq := leAt x.header 8 4
  let done (t : State) : State := acknowledge t n (packetsOf payload.length)
  if payload.length < 32 || leAt x.header 0 1 != 1 || leAt x.header 6 2 != (berthOf s b).epoch.toNat then done s
  else
    let room := decide (laneStore (portOf s p) + payload.length ≤ 4194304)
    match streamRun s b stream seq with
    | some r =>
      if !room then notReady s n
      else if segMatches s r x then done (noteSeg (takeSegment s p r x) r.id)
      else done (setPort s p { portOf s p with segs := (portOf s p).segs ++ [x] })
    | none =>
      if seq < (tget (0 : Word) (berthOf s b).seqs stream).toNat then done s
      else if !room then notReady s n
      else done (setPort s p { portOf s p with segs := (portOf s p).segs ++ [x] })

/-- A segment that has been accepted on a connection: its R_Key is checked (R400, R444). The spec's segment names no address, so the
detail of a refusal is a free value. (DEDUCED, log entry 33.) -/
def segmentIn (s : State) (k : Packet) (n : Nat) (payload : List Byte) : State :=
  if k.rkey != (connOf s n).lkey then let w := freshWord s; windowFail w.2 k.port.val n w.1.toNat
  else segmentAt s k.port.val n payload

/-- SEGMENT_RECEIVE. -/
def execSegmentReceive (pkt : Packet) (payload : List Byte) (s : State) : Answer :=
  .next (let a := accept s pkt .data
    match a.2 with
    | some n => if groupNames s n then segmentIn a.1 pkt n payload else a.1
    | none => a.1)

/-! ### Adding (R450-R453) -/

/-- The residue errors of a segment (R453): the first is raised and the adds redone; the second fences the lane. -/
def residue (s : State) (p n chunk errors : Nat) : State :=
  if errors = 0 then s
  else
    let x := portOf s p
    let s1 := setPort s p { x with laneRetry := satInc x.laneRetry (min errors 2), laneFenced := x.laneFenced || decide (2 ≤ errors) }
    let s2 := raiseConn s1 p 0x48 n (n + chunk * 2 ^ 32)
    if 2 ≤ errors then raiseConn s2 p 0x49 n n else s2

/-- Whether some lane may add: one of a fitted port that is not fenced (R453). -/
def laneFree (s : State) : Bool :=
  (List.range 8).any (fun p => fittedPort s p && !(portOf s p).laneFenced && (portOf s p).state != .fenced)

/-- The part of a run for a segment's elements. -/
def partFor (r : Run) (g : CollSeg) : CollPart :=
  (partOf r g.phase g.chunk g.off).getD
    { phase := g.phase, chunk := g.chunk, off := g.off, elems := g.elems, total := 0, own := false, pieces := [] }

/-- A segment's elements are added (R451): to the own contribution first, then to the sum so far. A saturation is told. -/
def addPart (s : State) (r : Run) (g : CollSeg) (c : Nat) (data : List Byte) (v : CollPart) : CollPart × Bool :=
  let int := (runReduce r).int32
  match v.pieces with
  | [] =>
    let a := addBytes int g.elems (ownBytes s r (segStart s r g) g.elems) data
    ({ v with total := v.total + c + 1, own := true, pieces := [{ contrib := c + 1, thin := false, unred := false, data := a.1 }] }, a.2)
  | p :: rest =>
    let a := addBytes int g.elems (if p.thin then unthin p.data g.elems else p.data) data
    ({ v with total := v.total + c, pieces := { p with contrib := p.contrib + c, thin := false, data := a.1 } :: rest }, a.2)

/-- A fenced lane forwards a segment as received; the own contribution follows it (R453). -/
def passPart (s : State) (r : Run) (g : CollSeg) (x : Segment) (v : CollPart) : CollPart :=
  let f := leAt x.header 1 1
  let c := leAt x.header 0xE 2
  let raw : CollPiece := { contrib := c, thin := bit f 1, unred := bit f 3, data := x.data }
  let mine : CollPiece := { contrib := 1, thin := false, unred := true, data := ownBytes s r (segStart s r g) g.elems }
  { v with total := v.total + c + (if v.own then 0 else 1), own := true,
           pieces := v.pieces ++ [raw] ++ (if v.own then [] else [mine]) }

/-- The first saturation of a REDUCE (R451). Its SAT_COLL names port `p`, at which the segment arrived, also where a lane of another port makes
the final add for a fenced lane (R453). (DESIGN CHOICE, log entry 33.) -/
def noteSat (s : State) (p : Nat) (r : Run) (sat : Bool) : State :=
  if sat && !r.coll.saturated then
    setColl (raiseBerth s 3 (8 + p) 0x4A r.berth (collDetail (runReduce r).rstream r.coll.seq)) r.id (fun k => { k with saturated := true })
  else s

/-- A run's part replaced. -/
def storePart (s : State) (id : Nat) (v : CollPart) : State :=
  match runOf s id with
  | some r => setRun s (putPart r v)
  | none => s

/-- A part that ends here is written to the logical vector once it is whole (R448). -/
def finishPart (s : State) (r : Run) (g : CollSeg) (v : CollPart) : State :=
  let x := runGroup s r
  if isFinal x.n x.rank r.coll.kind r.coll.len g && v.total == expected x.n r.coll.kind g then
    writeVector s r.id (segStart s r g) (v.pieces.flatMap (fun p => p.data))
  else s

/-- A lane works on a segment of a run: a gather segment is taken as it is; a reduce segment is added, or forwarded by a fenced
lane, whose final adds another lane makes (R447, R450-R453). (DESIGN CHOICE for the port that SAT_COLL then names, log entry 33.) -/
def laneWork (s : State) (p : Nat) (r : Run) (x : Segment) (errors : Nat) : State :=
  let g := headerSeg x.header
  let c := leAt x.header 0xE 2
  let data := if bit (leAt x.header 1 1) 1 then unthin x.data g.elems else x.data
  let v := partFor r g
  let grp := runGroup s r
  if g.phase = 1 then
    let w := { v with total := c, pieces := [{ contrib := c, thin := false, unred := false, data := data }] }
    finishPart (storePart s r.id w) r g w
  else
    let fencedNow := (portOf s p).laneFenced
    let s1 := if fencedNow then s else residue s p x.conn g.chunk errors
    if !(portOf s1 p).laneFenced then
      let a := addPart s r g c data v
      finishPart (storePart (noteSat s1 p r a.2) r.id a.1) r g a.1
    else if isFinal grp.n grp.rank r.coll.kind r.coll.len g then
      if laneFree s1 then
        let a := addPart s r g c data v
        finishPart (storePart (noteSat s1 p r a.2) r.id a.1) r g a.1
      else failReads (raiseBerth s1 2 r.q 0x29 r.berth (collDetail (runReduce r).rstream r.coll.seq)) r.id
    else storePart s1 r.id (passPart s r g x v)

/-- Whether the own contribution that an add needs is at hand (R450). -/
def addReady (s : State) (r : Run) (x : Segment) : Bool :=
  let g := headerSeg x.header
  g.phase == 1 || ownReady s r (segStart s r g) g.elems

/-- The first segment in a lane's work leaves it. -/
def popAdding (s : State) (p : Nat) : State :=
  let y := portOf s p
  setPort s p { y with adding := y.adding.drop 1 }

/-- SEGMENT_ADD_DONE: a lane finishes its oldest segment. -/
def segmentAddDone (s : State) (p errors : Nat) : State :=
  match (portOf s p).adding with
  | [] => s
  | x :: _ =>
    match streamRun s (connOf s x.conn).berth (leAt x.header 4 1) (leAt x.header 8 4) with
    | some r =>
      if addReady s r x then pumpRun (laneWork (popAdding s p) p r x errors) r.id else s
    | none => popAdding s p

/-- SEGMENT_ADD_DONE. -/
def execSegmentAddDone (p : Fin 8) (residueErrors : Nat) (s : State) : Answer := .next (segmentAddDone s p.val residueErrors)

/-! ### The timeout (R457) -/

/-- COLL_TMO: a REDUCE or NORM that waits for a segment has received none for the timeout of context 17.
(DEDUCED, log entry 33.) -/
def collTmo (s : State) (q run : Nat) : State :=
  match runOf s run with
  | some r =>
    if r.q == q && isColl r && taskMoves s r.berth && !(runRecvs s r).all (segComplete s r) &&
        decide (r.coll.lastSeg + waitTmoNs s q 17 ≤ s.time.mono) then
      noteSeg (raiseBerth s 2 q 0x2A r.berth (collDetail (runReduce r).rstream r.coll.seq)) run
    else s
  | none => s

/-- COLL_TMO. -/
def execCollTmo (q : Fin 4) (run : Nat) (s : State) : Answer := .next (collTmo s q.val run)

end Sys2Proof.Machine
end

