-- ==== Sys2Proof/Machine/Rdma.lean ====
section
/-! DEFINITION. Inbound RDMA: where a WRITE, a READ and a SEND go, and what refuses them (R34-R43, R250-R252, R320-R322, R329-R331,
R398-R402, R444, R491-R493, R618, R621). -/

namespace Sys2Proof.Machine

/-! ### The target of an access (R34, R35, R37) -/

/-- Where a device address lies. -/
inductive Target where
  | hbm
  | debug (d off : Nat)
  | cmd (q off : Nat)
  | ctrl
  | nowhere
deriving DecidableEq, Repr

/-- The target of a device address. (DEDUCED, log entry 39.) -/
def targetAt (a : Nat) : Target :=
  if a < 2 ^ 38 then .hbm
  else if dbgBase 0 ≤ a ∧ a < dbgBase 16 then .debug ((a - dbgBase 0) / 0x1000000) ((a - dbgBase 0) % 0x1000000)
  else if cmBase 0 ≤ a ∧ a < cmBase 4 then .cmd ((a - cmBase 0) / 0x80000) ((a - cmBase 0) % 0x80000)
  else if mgBase ≤ a then .ctrl
  else .nowhere

/-- Whether every word of an access of control space lies in a block (R37); one of no bytes is judged by the word that it names.
(DEDUCED, log entry 38.) -/
def inBlocks (a len : Nat) : Bool := (List.range (max 1 (len / 4))).all (fun i => (blockAt (a + 4 * i)).isSome)

/-! ### Command memory (R248-R252, R618) -/

/-- The context of quay `q` whose region holds a slot of either half. -/
def slotCtx (s : State) (q off : Nat) : Option Nat :=
  (List.range 18).find? (fun c =>
    let x := ctxOf s q c
    x.berth.isSome && decide (x.start ≤ off ∧ off < x.start + x.len))

/-- The berth whose region holds a slot. -/
def slotBerth (s : State) (q off : Nat) : Option Nat := (slotCtx s q off).bind (fun c => (ctxOf s q c).berth)

/-- Whether an access of command memory covers whole commands of one half. -/
def wholeCommands (off len : Nat) : Bool :=
  off % 32 == 0 && len % 32 == 0 && decide (off % 0x40000 + len ≤ 0x40000)

/-- The berth alone in whose regions an access of at least one slot lies. -/
def accessBerth (s : State) (q off len : Nat) : Option Nat :=
  let first := off % 0x40000 / 32
  match slotBerth s q first with
  | some b => if (List.range (max 1 (len / 32))).all (fun i => slotBerth s q (first + i) == some b) then some b else none
  | none => none

/-- A write into command memory, which arms its half where `arm` (R250-R252). -/
def cmdWrite (s : State) (n q off : Nat) (data : List Byte) (arm : Bool) : State :=
  let c := connOf s n
  let h := off / 0x40000
  match accessBerth s q off data.length with
  | some b =>
    if !wholeCommands off data.length || !(c.ctrl || c.berth == b) then accessFail s n
    else if !halfWritable s q b h then
      accessFail (raiseInbound s n 2 q 0x22 (b + h * 16 + (slotCtx s q (off % 0x40000 / 32)).getD 0 * 2 ^ 8)) n
    else
      let s1 := { s with cmdMem := s.cmdMem.writeBytes (q * 0x80000 + off) data }
      let y := halfOf s1 q b h
      acknowledge (if arm then setHalf s1 q b h { y with armed := true, gen := y.gen + 1 } else s1) n (packetsOf data.length)
  | none => accessFail s n

/-- The answer to a READ (R400, R401). -/
def respond (s : State) (k : Packet) (n : Nat) (data : List Byte) : State :=
  answerOn (nextPsn s n k (packetsOf data.length)) n (.response data)

/-- A read of command memory (R618). -/
def cmdRead (s : State) (k : Packet) (n q off len : Nat) : State :=
  let c := connOf s n
  if wholeCommands off len && (c.ctrl || accessBerth s q off len == some c.berth) then
    respond s k n (s.cmdMem.readBytes (q * 0x80000 + off) len)
  else accessFail s n

/-! ### The debug view (R42, R43) -/

/-- The part of an access of the debug view that lies in physical half `h`: its offset in the half, and the bytes. -/
def halfPart (off : Nat) (data : List Byte) (h : Bool) : Nat × List Byte :=
  let lo := if h then 0x600000 else 0
  let from_ := max off lo
  (from_ - lo, (data.drop (from_ - off)).take (lo + 0x600000 - from_))

/-- Write a part of a half, lane group by lane group: a zero record whose footprint a group's part meets is removed (R165). -/
def dbgPut (s : State) (d off : Nat) (data : List Byte) (h : Bool) : State :=
  let p := halfPart off data h
  (cutExtent 0x60000 17 p.1 p.2.length).foldl (fun t e =>
    let lo := e.1 % 0x60000
    putBuf t d h lo (lo + e.2) ((bufOf t d h).writeBytes e.1 (slice p.2 (e.1 - p.1) e.2))) s

/-- Whether a deck is under in-field test, so that its debug view reads as zero and ignores writes (R574).
(DEDUCED, log entry 50.) -/
def underTest (s : State) (d : Nat) : Bool := s.diag.busy && s.diag.bistDeck == some d

/-- A write of the debug view: ignored by a fenced deck and by one under test, performed while the deck's berth is idle, else refused.
(DEDUCED, log entry 39.) -/
def dbgWrite (s : State) (n d off : Nat) (data : List Byte) : State :=
  let idle : Bool := match deckBerth s d with
    | some b => (berthOf s b).st == .idle
    | none => false
  if deckFenced s d || underTest s d then acknowledge s n (packetsOf data.length)
  else if idle then acknowledge (dbgPut (dbgPut s d off data false) d off data true) n (packetsOf data.length)
  else accessFail s n

/-- A byte of the debug view. -/
def dbgByte (s : State) (d off : Nat) : Byte :=
  if deckFenced s d || underTest s d then 0
  else if off < 0x600000 then (deckOf s d).buf0.read off
  else if off < 0xC00000 then (deckOf s d).buf1.read (off - 0x600000)
  else 0

/-! ### HBM (R35, R320-R322, R329-R331) -/

/-- What refuses an access of HBM: none where it is allowed, else the address of a window failure where it is one. An access above the
capacity on a berth's connection fails R329 too, since no window reaches there (R35, R330). One of no bytes is judged by the byte that it
names. (DEDUCED, log entries 38, 39.) -/
def hbmRefused (s : State) (n a len : Nat) : Option (Option Nat) :=
  let c := connOf s n
  let l := max 1 len
  if c.ctrl then (if capacity s < a + l ∨ (outsideAny s a l).isSome then some none else none)
  else (outside s c.berth a l).map some

/-- Refuse an access of HBM. -/
def hbmRefuse (s : State) (p n : Nat) (why : Option Nat) : State :=
  match why with
  | some a => windowFail s p n a
  | none => accessFail s n

/-- The first block that is poisoned and that a write covers only in part (R321). -/
def partPoison (s : State) (a len : Nat) : Option Nat :=
  (poisonIn s a len).find? (fun b => decide (b < a ∨ a + len < b + 32))

/-- The port as the requester of an inbound access: it names the berth of its connection and no task (R322, R340, R524). -/
def portRequester (s : State) (p n cls : Nat) : Requester :=
  { level := 3, unit := 8 + p, berth := if n = 0 then none else some (connOf s n).berth, task := none, cls := cls }

/-- The end of an inbound write whose bytes have been performed as far as poison let them, with the first poisoned block that it covers only
in part (R321). One that was abandoned draws no answer: the requester sends it again (R339, R401). (DEDUCED, log entry 38.) -/
def hbmInEnd (s : State) (p n len : Nat) (bad : Option Nat) (done : Bool) : State :=
  match bad with
  | some b => accessFail (raiseInbound s n 3 (8 + p) 0x32 (poisonDetail s b)) n
  | none => if done then acknowledge s n (packetsOf len) else s

/-- An inbound write to HBM (R321, R322, R339, R368, R401): performed whole, but on poisoned blocks that it covers in part. While the chip
allotment is full it waits in the port (R336, R338). (DESIGN CHOICE, log entry 23.) -/
def hbmIn (s : State) (p n a : Nat) (data : List Byte) (mem : HbmOutcome) : State :=
  match hbmRefused s n a data.length with
  | some why => hbmRefuse s p n why
  | none =>
    if stepRoom s [20] then
      let w := stepWrite s (portRequester s p n 4) a data mem.late
      hbmInEnd w.1 p n data.length (partPoison s a data.length) w.2
    else s

/-- An inbound read of HBM (R318-R322, R339): its data, unless it meets poison. One that was abandoned draws no answer.
(DEDUCED and DESIGN CHOICE, log entries 23, 38.) -/
def hbmOut (s : State) (k : Packet) (n a len : Nat) (mem : HbmOutcome) : State :=
  let p := k.port.val
  match hbmRefused s n a len with
  | some why => hbmRefuse s p n why
  | none =>
    if stepRoom s [20] then
      let r := readAllowed s (portRequester s p n 3) a len mem
      match r.2 with
      | some data => respond r.1 k n data
      | none => if (poisonIn r.1 a len).isEmpty then r.1 else accessFail r.1 n
    else s

/-! ### WRITE and READ (R36, R38, R400) -/

/-- A read of words of control space, in ascending order. (DEDUCED, log entry 59.) -/
def ctrlRead : Nat → Nat → State → State × List Byte
  | 0, _, s => (s, [])
  | k + 1, a, s =>
    let r := regRead s a
    let t := ctrlRead k (a + 4) r.1
    (t.1, natLe 4 r.2.toNat ++ t.2)

/-- A write of words of control space, in ascending order. (DEDUCED, log entry 59.) -/
def ctrlWrite (s : State) (a : Nat) (data : List Byte) : State :=
  (List.range (data.length / 4)).foldl (fun t i => regWrite t false (a + 4 * i) (BitVec.ofNat 32 (leAt data (4 * i) 4))) s

/-- Whether an access lies wholly in what its first address names. (DEDUCED, log entry 39.) -/
def staysIn (a len : Nat) : Bool :=
  match targetAt a, targetAt (a + max 1 len - 1) with
  | .hbm, .hbm => true
  | .debug d _, .debug e _ => d == e
  | .cmd q _, .cmd r _ => q == r
  | .ctrl, .ctrl => inBlocks a len
  | _, _ => false

/-- Whether a write on connection 0 restarts or stops the connection that carries it, which then acknowledges nothing (R405).
(DEDUCED, log entry 39.) -/
def restarts (n a len : Nat) : Bool := n == 0 && decide (a ≤ mgBase + 0x17C ∧ mgBase + 0x17C < a + len)

/-- An inbound WRITE on an accepted connection; `arm` marks a WRITE WITH IMMEDIATE. -/
def writeIn (s : State) (k : Packet) (n a : Nat) (data : List Byte) (arm : Bool) (mem : HbmOutcome) : State :=
  let c := connOf s n
  let p := k.port.val
  if k.rkey != c.lkey then windowFail s p n a
  else
    match targetAt a with
    | .hbm => hbmIn s p n a data mem
    | .cmd q off => cmdWrite s n q off data arm
    | .debug d off => if c.ctrl && staysIn a data.length then dbgWrite s n d off data else accessFail s n
    | .ctrl =>
      if !c.ctrl then windowFail s p n a
      else if a % 4 ≠ 0 ∨ data.length % 4 ≠ 0 ∨ staysIn a data.length = false then accessFail s n
      else if restarts n a data.length then ctrlWrite s a data
      else acknowledge (ctrlWrite s a data) n (packetsOf data.length)
    | .nowhere => accessFail s n

/-- An inbound READ on an accepted connection. -/
def readIn (s : State) (k : Packet) (n a len : Nat) (mem : HbmOutcome) : State :=
  let c := connOf s n
  let p := k.port.val
  if k.rkey != c.lkey then windowFail s p n a
  else
    match targetAt a with
    | .hbm => hbmOut s k n a len mem
    | .cmd q off => if staysIn a len then cmdRead s k n q off len else accessFail s n
    | .debug d off =>
      if c.ctrl && staysIn a len then respond s k n ((List.range len).map (fun i => dbgByte s d (off + i))) else accessFail s n
    | .ctrl =>
      if !c.ctrl then windowFail s p n a
      else if a % 4 ≠ 0 ∨ len % 4 ≠ 0 ∨ staysIn a len = false then accessFail s n
      else let r := ctrlRead (len / 4) a s; respond r.1 k n r.2
    | .nowhere => accessFail s n

/-- Whether an address lies in command memory. -/
def isCmd (a : Nat) : Bool :=
  match targetAt a with
  | .cmd _ _ => true
  | _ => false

/-- What an accepted request does; a packet that is not accepted does nothing more. -/
def inbound (s : State) (k : Packet) (what : Carried) (act : State → Nat → State) : State :=
  let r := accept s k what
  match r.2 with
  | some n => act r.1 n
  | none => r.1

/-- INBOUND_RDMA_WRITE. -/
def execInboundRdmaWrite (pkt : Packet) (addr : Nat) (data : List Byte) (mem : HbmOutcome) (s : State) : Answer :=
  .next (inbound s pkt .data (fun t n => writeIn t pkt n addr data false mem))

/-- INBOUND_RDMA_READ. -/
def execInboundRdmaRead (pkt : Packet) (addr len : Nat) (mem : HbmOutcome) (s : State) : Answer :=
  .next (inbound s pkt .read (fun t n => readIn t pkt n addr len mem))

/-- INBOUND_WRITE_IMM (R444, R252, R621): a segment of a collective, a write that arms a half, or a plain write. -/
def writeImm (s : State) (k : Packet) (n a : Nat) (data : List Byte) (imm : Word) (mem : HbmOutcome) : State :=
  if groupNames s n && imm == 0xC0110000 then segmentIn s k n data else writeIn s k n a data true mem

/-- INBOUND_WRITE_IMM. -/
def execInboundWriteImm (pkt : Packet) (addr : Nat) (data : List Byte) (imm : Word) (mem : HbmOutcome) (s : State) : Answer :=
  .next (inbound s pkt .data (fun t n => writeImm t pkt n addr data imm mem))

/-- CMD_MEM_WRITE: an RDMA WRITE into command memory. -/
def execCmdMemWrite (pkt : Packet) (addr : Nat) (data : List Byte) (s : State) : Answer :=
  .next (if isCmd addr then inbound s pkt .data (fun t n => writeIn t pkt n addr data false {}) else s)

/-- CMD_HALF_ARM: an RDMA WRITE WITH IMMEDIATE into command memory. -/
def execCmdHalfArm (pkt : Packet) (addr : Nat) (data : List Byte) (s : State) : Answer :=
  .next (if isCmd addr then inbound s pkt .data (fun t n => writeIn t pkt n addr data true {}) else s)

/-- CMD_MEM_READ: an RDMA READ of command memory. -/
def execCmdMemRead (pkt : Packet) (addr len : Nat) (s : State) : Answer :=
  .next (if isCmd addr then inbound s pkt .read (fun t n => readIn t pkt n addr len {}) else s)

/-! ### SEND (R402, R475, R491-R493) -/

/-- A message takes a buffer of a landing: its ACK_DSEQ is applied (R496). A landing without a free buffer, closed by a load, or
with more than 32 records waiting answers not ready. (DEDUCED, log entry 40.) -/
def landMsg (s : State) (n l : Nat) (data : List Byte) : State :=
  let x := landOf s l
  if x.closed || decide (64 ≤ x.bufs.length) || decide (32 < x.waiting.length) then notReady s n
  else
    let s1 := acknowledge (setLand s l { x with bufs := x.bufs ++ [{ conn := n, data := data }] }) n 1
    nextMsg (if 12 ≤ data.length then applyAck s1 l (BitVec.ofNat 32 (leAt data 8 4)) else s1) l

/-- A SEND on an accepted connection: a ferry message from a module, or a message for the landing of the connection. -/
def sendIn (s : State) (n : Nat) (data : List Byte) : State :=
  let c := connOf s n
  if 256 < data.length then refuseWith s n .invalidRequest
  else if ferryConn s n && (ipNames c.rip).isSome && data.length == 64 then ferryMsg s n data
  else landMsg s n (if n = 0 ∨ c.mgmt then 16 else c.berth) data

/-- INBOUND_SEND. -/
def execInboundSend (pkt : Packet) (data : List Byte) (s : State) : Answer :=
  .next (inbound s pkt .data (fun t n => sendIn t n data))

end Sys2Proof.Machine
end

