-- ==== Sys2Proof/Machine/Diag.lean ====
section
/-! DEFINITION. Diagnostics on the management landing, the firmware images in flash, and the in-field self-test of a deck (R553, R564,
R573-R581). -/

namespace Sys2Proof.Machine

/-! ### Firmware images (R553) -/

/-- A slot of the flash. -/
def slotOf (s : State) (slot : Bool) : Mem := if slot then s.flash.slot1 else s.flash.slot0

/-- The header of the image in a slot. -/
def imageHead (s : State) (slot : Bool) : List Byte := (slotOf s slot).readBytes 0 64

/-- LEN of an image. -/
def imageLen (s : State) (slot : Bool) : Nat := leAt (imageHead s slot) 12 4

/-- SVN of an image. -/
def imageSvn (s : State) (slot : Bool) : Nat := leAt (imageHead s slot) 8 2

/-- The firmware digest of an image. -/
def imageDigest (s : State) (slot : Bool) : List Byte := digest64 ((slotOf s slot).readBytes 0 (imageLen s slot))

/-- Whether the header fields of an image hold their stated values and ranges. -/
def imageHeadOk (s : State) (slot : Bool) : Bool :=
  let h := imageHead s slot
  leAt h 0 4 == 0x57464258 && leAt h 10 2 == 0 && decide (64 ≤ imageLen s slot ∧ imageLen s slot ≤ 16777102) && leAt h 16 48 == 0

/-- Whether a slot passes (R553). -/
def imagePasses (s : State) (slot : Bool) : Bool :=
  imageHeadOk s slot && decide (s.flash.svnMin.toNat ≤ imageSvn s slot) &&
    ed448Verify Config.firmwareKey (imageDigest s slot) ((slotOf s slot).readBytes (imageLen s slot) 114)

/-! ### Starting and ending a diagnostic (R577-R581) -/

/-- A diagnostic starts: it is the latest one. -/
def diagStart (s : State) (m : Msg) (h : Header) (off len : Nat) : State :=
  { s with diag := { busy := true, type := h.type, hseq := h.hseq, conn := m.conn, addr := leAt m.data 0x20 8, off := off, len := len } }

/-- The latest diagnostic ends with an outcome. -/
def diagEnd (s : State) (outcome : Nat) : State :=
  { s with diag := { s.diag with busy := false, outcome := outcome, bistDeck := none } }

/-- The REPLY to a diagnostic, with its DRESULT. -/
def diagReply (s : State) (h : Header) (dresult : Nat) : State := answer s 16 h 0 (natLe 1 dresult)

/-- Bytes written to the host over the connection of the diagnostic in progress, where it can still carry them. -/
def diagOutput (s : State) (addr : Nat) (data : List Byte) : State :=
  if connUsable s s.diag.conn then
    request s s.diag.conn .diag (packetsOf data.length) (.write addr data none)
  else s

/-! ### DIAG_BIST (R573-R576) -/

/-- Whether an in-field test of a deck may start (R573). -/
def bistReady (s : State) (d : Nat) : Bool :=
  decide (d < 16) && !s.diag.busy && !deckFenced s d && (s.man.bistArea.isSome || harbour s) &&
    (match deckBerth s d with
     | some b =>
       let st := (berthOf s b).st
       st == .undefined || st == .idle || st == .suspended || st == .disabled || st == .halted
     | none => true)

/-- What the test saves to BIST_AREA: the physical halves, and the slots, tags and SAT flags in the layout of R123 (R574).
(DEDUCED, log entry 50.) -/
def bistSave (s : State) (d : Nat) : State :=
  match s.man.bistArea with
  | some a =>
    if harbour s then s
    else
      let x := deckOf s d
      let s1 := hbmWrite s a (x.buf0.readBytes 0 0x600000)
      let s2 := hbmWrite s1 (a + 0x600000) (x.buf1.readBytes 0 0x600000)
      hbmWrite s2 (a + 0xC00000) ((List.range 4).flatMap (slotImage x) ++ statePage x [])
  | none => s

/-- DIAG_BIST. -/
def doBist (s : State) (m : Msg) (h : Header) : State :=
  let d := leAt m.data 0x20 1
  if bistReady s d then
    let s1 := bistSave (diagStart s m h 0 0) d
    diagReply { s1 with diag := { s1.diag with bistDeck := some d } } h 0
  else diagReply s h 1

/-- DIAG_BIST. -/
def execDiagBist (s : State) : Answer := .next (onMsg s 16 0x10 doBist)

/-- A deck that was not saved, or not restored, holds undefined contents. (DEDUCED, log entry 50.) -/
def bistRuin (s : State) (d : Nat) : State :=
  let g := freshGen (ruinDeck s d)
  let x := deckOf g.2 d
  let y := deckOf s d
  setDeck g.2 d { y with buf0 := y.buf0.undefine 0 0x600000 g.1, buf1 := y.buf1.undefine 0 0x600000 g.1, acc := x.acc, tags := x.tags,
                         sat := x.sat }

/-- A pass: the deck returns as it was, but for what harbour state does not save, and a RESUME that waits can go on (R574, R576).
(DEDUCED, log entry 50.) -/
def bistPass (s : State) (d : Nat) : State := diagEnd (if harbour s then bistRuin s d else s) 0

/-- A failure: BIST_DECK, and the deck is fenced (R575). (DEDUCED, log entry 50.) -/
def bistFail (s : State) (d test : Nat) : State :=
  fenceNow (raiseDeck (diagEnd (bistRuin s d) 1) 0 d 0x02 (test + 16)) (sourceId 0 d 0x02)

/-- DIAG_BIST_DONE: the test ends, with the test that failed where one did. -/
def execDiagBistDone (failed : Option (Fin 4)) (s : State) : Answer :=
  .next (match s.diag.bistDeck with
    | some d => (match failed with
      | some t => bistFail s d t.val
      | none => bistPass s d)
    | none => s)

/-! ### DIAG_ATTEST (R564) -/

/-- Bytes 0x000 to 0x27F of the attestation report. (DEDUCED, log entry 51.) -/
def attestBody (s : State) (nonce : List Byte) : List Byte :=
  natLe 2 1 ++ natLe 2 (flagAt s.sec.keysCleared 0 + flagAt (harbour s) 1) ++ natLe 1 (ownSys s) ++ natLe 2 (ownDevice s) ++ natLe 1 0 ++
    natLe 4 s.boot.fwVersion.toNat ++ natLe 4 (scStat s) ++ natLe 8 s.time.tide ++
    natLe 8 (if s.man.loaded then s.man.ident.toNat else 0) ++ slice nonce 0 32 ++ natLe 4 (fittedWord s) ++
    natLe 2 ((List.range 16).foldl (fun a d => a + flagAt (deckFenced s d) d) 0) ++ List.replicate 58 0 ++
    (List.range 8).flatMap (fun i => slice (measOf s i) 0 64)

/-- The signature field of a report. (DESIGN CHOICE, log entry 8.) -/
def attestSign (s : State) (body : List Byte) : List Byte :=
  if s.sec.keysCleared then List.replicate 114 0 else slice (Config.identitySign s.boot.resets body) 0 114

/-- DIAG_ATTEST. -/
def doAttest (s : State) (m : Msg) (h : Header) : State :=
  let addr := leAt m.data 0x20 8
  if s.diag.busy then diagReply s h 1
  else if addr % 64 ≠ 0 then diagReply s h 2
  else
    let body := attestBody s (slice m.data 0x30 32)
    diagReply (diagOutput (diagStart s m h 0 0x2F8) addr (body ++ attestSign s body ++ List.replicate 6 0)) h 0

/-- DIAG_ATTEST. -/
def execDiagAttest (s : State) : Answer := .next (onMsg s 16 0x11 doAttest)

/-! ### DIAG_EXTEND (R563) -/

/-- DIAG_EXTEND. -/
def doExtend (s : State) (m : Msg) (h : Header) : State :=
  let reg := leAt m.data 0x20 1
  if s.diag.busy || decide (reg < 4 ∨ 7 < reg) then diagReply s h 1
  else diagReply (diagEnd (extendM (diagStart s m h 0 0) reg (slice m.data 0x30 64)) 0) h 0

/-- DIAG_EXTEND. -/
def execDiagExtend (s : State) : Answer := .next (onMsg s 16 0x12 doExtend)

/-! ### DIAG_FW_WRITE, DIAG_FW_ACTIVATE, DIAG_LOG (R579) -/

/-- DIAG_FW_WRITE: the read from the host starts. An OFFSET or LEN off its multiple or range is outside range. -/
def doFwWrite (s : State) (m : Msg) (h : Header) : State :=
  let addr := leAt m.data 0x20 8
  let off := leAt m.data 0x28 4
  let len := leAt m.data 0x2C 4
  if s.diag.busy then diagReply s h 1
  else if addr % 64 ≠ 0 ∨ off % 4096 ≠ 0 ∨ len % 64 ≠ 0 ∨ len < 64 ∨ 1048576 < len ∨ 0x1000000 < off + len then diagReply s h 2
  else diagReply (request (diagStart s m h off len) m.conn .diag (packetsOf len) (.read addr len)) h 0

/-- DIAG_FW_WRITE. -/
def execDiagFwWrite (s : State) : Answer := .next (onMsg s 16 0x13 doFwWrite)

/-- Whether a slot's image counts as activated with COMMIT_SVN = 1, set. -/
def setCommit (s : State) (slot on : Bool) : State :=
  { s with flash := if slot then { s.flash with commit1 := on } else { s.flash with commit0 := on } }

/-- DIAG_FW_ACTIVATE: the slot not booted is verified, and selected where it passes. -/
def doFwActivate (s : State) (m : Msg) (h : Header) : State :=
  if s.diag.busy then diagReply s h 1
  else
    let slot := !s.boot.slot
    let s1 := diagStart s m h 0 0
    let s2 := if imagePasses s slot then
        diagEnd (setCommit (regSet s1 (scBase + 0xC) (if slot then 1 else 0)) slot (leAt m.data 0x20 1 == 1)) 0
      else diagEnd s1 3
    diagReply s2 h 0

/-- DIAG_FW_ACTIVATE. -/
def execDiagFwActivate (s : State) : Answer := .next (onMsg s 16 0x14 doFwActivate)

/-- The head and the record entries that DIAG_LOG writes. -/
def logBytes (s : State) : List Byte :=
  natLe 4 (bootStat s) ++ natLe 4 (fcStat s) ++ natLe 4 s.fc.drop.toNat ++ List.replicate 52 0 ++
    (List.range 256).flatMap (fun n => (List.range 8).flatMap (fun w => natLe 4 (recWord s n w)))

/-- DIAG_LOG. -/
def doLog (s : State) (m : Msg) (h : Header) : State :=
  let addr := leAt m.data 0x20 8
  if s.diag.busy then diagReply s h 1
  else if addr % 64 ≠ 0 then diagReply s h 2
  else diagReply (diagOutput (diagStart s m h 0 8256) addr (logBytes s)) h 0

/-- DIAG_LOG. -/
def execDiagLog (s : State) : Answer := .next (onMsg s 16 0x15 doLog)

/-! ### DIAG_DONE (R580, R581) -/

/-- The bytes that DIAG_FW_WRITE has read go to the slot not booted, whose image is then no longer an activated one. -/
def flashWrite (s : State) (off : Nat) (data : List Byte) : State :=
  let m := (slotOf s (!s.boot.slot)).writeBytes off data
  setCommit { s with flash := if s.boot.slot then { s.flash with slot0 := m } else { s.flash with slot1 := m } } (!s.boot.slot) false

/-- A part of the slot not booted that a failed copy leaves undefined. -/
def flashRuin (s : State) (off len : Nat) : State :=
  let g := freshGen s
  let m := (slotOf s (!s.boot.slot)).undefine off (off + len) g.1
  setCommit { g.2 with flash := if s.boot.slot then { s.flash with slot0 := m } else { s.flash with slot1 := m } } (!s.boot.slot) false

/-- The host read of a DIAG_FW_WRITE ends. -/
def fwDone (s : State) (hostFailed : Bool) (read : List Byte) : State :=
  let s1 := setReqs s s.diag.conn (dropFirst (fun x => x.kind == .diag) (connOf s s.diag.conn).reqs)
  if hostFailed || !connUsable s s.diag.conn || read.length != s.diag.len then diagEnd (flashRuin s1 s.diag.off s.diag.len) 2
  else diagEnd (flashWrite s1 s.diag.off read) 0

/-- The output of a diagnostic is complete: its DIAG_DONE word is written last. -/
def outputDone (s : State) (hostFailed : Bool) : State :=
  let outcome := if hostFailed || !connUsable s s.diag.conn then 2 else 0
  diagEnd (diagOutput s (s.diag.addr + s.diag.len) (natLe 4 s.diag.hseq.toNat ++ natLe 1 outcome ++ natLe 3 0)) outcome

/-- DIAG_DONE. -/
def execDiagDone (hostFailed : Bool) (read : List Byte) (s : State) : Answer :=
  .next (if !s.diag.busy || s.diag.type == 0x10 then s
    else if s.diag.type == 0x13 then fwDone s hostFailed read
    else outputDone s hostFailed)

end Sys2Proof.Machine
end

