-- ==== Sys2Proof/Machine/Power.lean ====
section
/-! DEFINITION. The input, the rails and full resets, throttling, sensors, the reference clock and the wear monitors (R550, R587-R608,
R615). -/

namespace Sys2Proof.Machine

/-! ### Full reset and power cycle (R539, R550, R556, R592) -/

/-- The registers kept by address that survive: SC_BOOT_SEL always; the locked policy and manifest key but for a power cycle. -/
def keptRegs (s : State) (cycle : Bool) : List Nat :=
  if policyLocked s && !cycle then (scBase + 0xC) :: (scBase + 8) :: (List.range 15).map (fun n => scBase + 0x40 + 4 * n)
  else [scBase + 0xC]

/-- The state that a full reset, or a loss of power, leaves: everything at its reset value but what R550 and R592 keep. Rails stay as
they are. -/
def volatile (s : State) (cycle : Bool) : State :=
  let locks := if cycle then [] else s.fc.recs.filter (fun e => e.2.cls == 5)
  let debug := s.sec.debug && !cycle
  let t := State.afterReset s.free
  let rw := (keptRegs s cycle).foldl (fun l a => tput l a (regGet s a)) t.rw
  { t with pending := s.pending, fitted := s.fitted, flash := s.flash, out := s.out, nextId := s.nextId, rw := rw,
           fc := { recs := locks, halt := !locks.isEmpty, age := s.fc.age },
           sec := { debug := debug, keysCleared := debug || !locks.isEmpty },
           boot := { resets := s.boot.resets }, smb := { address := s.smb.address },
           pw := { hkOn := s.pw.hkOn, loadsOn := s.pw.loadsOn, pg := s.pw.pg, pwrEn := s.pw.pwrEn, offAt := s.pw.offAt,
                   restart := s.pw.restart, vinMv := s.pw.vinMv } }

/-- A full reset (R550). -/
def fullReset (s : State) (cycle : Bool) : State :=
  let t := volatile s cycle
  { t with boot := { t.boot with resets := t.boot.resets + 1 } }

/-- Whether every junction reading is below 85 °C (R593). (DEDUCED, log entry 56.) -/
def coolEnough (s : State) : Bool :=
  match hottest s with
  | some v => decide (v < 85)
  | none => true

/-- A start of the load rails that is due goes on where VIN and the temperatures allow it: PG rises (R593, R595).
(DEDUCED, log entry 56.) -/
def tryRestart (s : State) : State :=
  if s.pw.hkOn && s.pw.restart && decide (40000 ≤ s.pw.vinMv ∧ s.pw.vinMv ≤ 58000) && coolEnough s then
    { s with pw := { s.pw with loadsOn := true, pg := true, restart := false, sensors := [] },
             boot := { s.boot with phaseAt := s.time.mono } }
  else s

/-- The housekeeping domain is powered where PWR_EN is asserted and VIN is at least 30 V (R588). An interval without power of 100 ms is
a power cycle; whether a shorter one counts is a free value (R592, log entry 2). -/
def powerUp (s : State) : State :=
  if s.pw.pwrEn && !s.pw.hkOn && decide (30000 ≤ s.pw.vinMv) then
    let long : Bool := match s.pw.offAt with
      | some a => decide (a + 100000000 ≤ s.time.mono)
      | none => true
    let w := freshWord s
    let t := fullReset w.2 (long || w.1.toNat % 2 == 1)
    tryRestart { t with pw := { t.pw with hkOn := true, loadsOn := false, pg := false, restart := true, offAt := none } }
  else s

/-- PWR_EN_ASSERT. -/
def execPwrEnAssert (millivolts : Nat) (s : State) : Answer :=
  .next (powerUp { s with pw := { s.pw with pwrEn := true, vinMv := millivolts } })

/-- Every rail goes off, the housekeeping domain included (R590). (DEDUCED, log entry 56.) -/
def powerOff (s : State) : State :=
  if s.pw.hkOn then
    let t := volatile s false
    { t with pw := { t.pw with hkOn := false, loadsOn := false, pg := false, restart := false, offAt := some t.time.mono } }
  else s

/-- PWR_EN_DEASSERT: PWR_EN is deasserted, or VIN has fallen below 30 V. -/
def execPwrEnDeassert (millivolts : Option Nat) (s : State) : Answer :=
  .next (match millivolts with
    | none => powerOff { s with pw := { s.pw with pwrEn := false } }
    | some v => if v < 30000 then powerOff { s with pw := { s.pw with vinMv := v } } else s)

/-- The condition of the fast throttle holds until now, where VIN was below 40.0 V (R599). -/
def fastUntil (s : State) : State :=
  if s.pw.vinMv < 40000 ∧ 0 < s.pw.qFast then { s with pw := { s.pw with fastAt := some s.time.mono } } else s

/-- VIN_RECOVERS. -/
def execVinRecovers (millivolts : Nat) (s : State) : Answer :=
  .next (let s1 := fastUntil s
    tryRestart (powerUp { s1 with pw := { s1.pw with vinMv := millivolts } }))

/-- RESET_N_ASSERT: with the load rails up start-up begins again at the ROM check; after a shutdown only once R593 allows. -/
def execResetNAssert (s : State) : Answer :=
  .next (if !s.pw.hkOn then s
    else if s.pw.loadsOn then fullReset s false
    else
      let t := fullReset s false
      tryRestart { t with pw := { t.pw with restart := true, sensors := s.pw.sensors.map (fun e => (e.1, { val := e.2.val })) } })

/-! ### Supervision of the input and the rails (R589-R591, R596) -/

/-- Every load rail is off: HBM, command memory and the decks' buffers and accumulators hold nothing any more (R589). -/
def loseLoads (s : State) : State :=
  let g := freshGen s
  (List.range 16).foldl
    (fun t d =>
      let y := deckOf t d
      setDeck t d { y with buf0 := y.buf0.undefine 0 0x600000 (g.1 + 1 + 3 * d), buf1 := y.buf1.undefine 0 0x600000 (g.1 + 2 + 3 * d),
                           acc := y.acc.undefine 0 0x100000 (g.1 + 3 + 3 * d) })
    { g.2 with free := g.1 + 49, hbm := g.2.hbm.undefine 0 (2 ^ 38) g.1, cmdMem := g.2.cmdMem.undefine 0 0x200000 g.1 }

/-- Every link goes down, and transit stops. -/
def portsOff (s : State) : State :=
  let s1 := (List.range 8).foldl (fun t p => (List.range 4).foldl (fun u k => dropLink u p k) t) s
  { s1 with ports := s1.ports.map (fun e => (e.1, { e.2 with transit := [] })) }

/-- A shutdown (R589): the load rails go off and PG low; no work of the module goes on. (DEDUCED, log entry 56.) -/
def shutdown (s : State) (cause : Nat) : State :=
  if !s.pw.loadsOn then s
  else
    let s1 := haltModule s
    let s2 := { s1 with pw := { s1.pw with state := 3, scause := cause, loadsOn := false, pg := false, restart := false } }
    alertSet (loseLoads (portsOff s2)) 6

/-- An orderly stop (R591): the module halts. (DEDUCED, log entry 56.) -/
def orderlyStop (s : State) (cause : Nat) : State :=
  if s.pw.state ≠ 1 ∨ !s.pw.loadsOn then s
  else
    let s1 := haltModule s
    alertSet { s1 with pw := { s1.pw with state := 2, scause := cause } } 6

/-- VIN_OV. (DEDUCED, log entry 56.) -/
def execVinOv (millivolts : Nat) (s : State) : Answer :=
  .next (if s.pw.hkOn && decide (60000 < millivolts) then
      shutdown (raiseChip { s with pw := { s.pw with vinMv := millivolts } } 3 0x80 (millivolts % 2 ^ 17)) 1
    else s)

/-- VIN_UV. (DEDUCED, log entry 56.) -/
def execVinUv (millivolts : Nat) (s : State) : Answer :=
  .next (if s.pw.hkOn && decide (millivolts < 39000) then
      orderlyStop (raiseChip { s with pw := { s.pw with vinMv := millivolts } } 3 0x81 millivolts) 2
    else s)

/-- VIN_BROWNOUT. (DEDUCED, log entry 56.) -/
def execVinBrownout (millivolts : Nat) (s : State) : Answer :=
  .next (if s.pw.hkOn && decide (millivolts < 36000) then
      shutdown (raiseChip { s with pw := { s.pw with vinMv := millivolts } } 3 0x81 (millivolts + 2 ^ 16)) 2
    else s)

/-- RAIL_FAIL of rail `rail` of step `step` + 1. (DEDUCED, log entry 56.) -/
def execRailFail (step rail : Fin 4) (high : Bool) (s : State) : Answer :=
  .next (if s.pw.hkOn && s.pw.loadsOn then
      shutdown (raiseChip s 3 0x86 ((step.val + 1) * 4 + rail.val + flagAt high 8)) 4
    else s)

/-- DECK_PWR: a rail of an unfenced deck. -/
def execDeckPwr (d rail : Fin 16) (s : State) : Answer :=
  .next (if s.pw.loadsOn && !deckFenced s d.val then
      fenceNow (raiseDeck s 1 d.val 0x0F rail.val) (sourceId 1 d.val 0x0F)
    else s)

/-! ### Throttling (R597-R600) -/

/-- One more entry of a 16-bit saturating count. -/
def satInc16 (w : BitVec 16) : BitVec 16 := BitVec.ofNat 16 (min (w.toNat + 1) 0xFFFF)

/-- The limit or fast source has gone from 0 to a positive level: counted, and reported at most once per second per source. -/
def powerEntry (s : State) (fast overcurrent : Bool) : State :=
  let s1 := alertSet { s with pw := { s.pw with evPower := satInc16 s.pw.evPower } } 1
  let key := flagAt fast 0
  if mayReport s1 0x82 key 1000000000 then
    noteReport (raiseChip s1 3 0x82 (throttleQ s1 + flagAt fast 8 + flagAt overcurrent 9)) 0x82 key
  else s1

/-- The thermal source has gone from 0 to a positive level. -/
def thermEntry (s : State) : State :=
  let s1 := alertSet { s with pw := { s.pw with evTherm := satInc16 s.pw.evTherm } } 1
  if mayReport s1 0x83 0 1000000000 then
    noteReport (raiseChip s1 3 0x83 (((hottest s1).getD 0).toNat % 256 + hottestDie s1 * 2 ^ 8)) 0x83 0
  else s1

/-- Q_LIM after a tick. -/
def nextLim (q watts limit : Nat) : Nat :=
  if limit < watts then min 56 (q + 1) else if 100 * watts < 97 * limit then q - 1 else q

/-- Q_TH after a tick. -/
def nextTh (q : Nat) (hot : Option Int) : Nat :=
  match hot with
  | some v => if 100 ≤ v then min 56 (q + 2) else if v ≤ 97 then q - 1 else q
  | none => q

/-- A 1 ms tick with the power averaged over it. -/
def throttleTick (s : State) (watts : Nat) : State :=
  let w := min watts 0xFFFF
  let lim := nextLim s.pw.qLim w (regBits s (pwBase + 4) 15 0)
  let th := nextTh s.pw.qTh (hottest s)
  let s1 := { s with pw := { s.pw with watts := BitVec.ofNat 16 w, qLim := lim, qTh := th } }
  let s2 := if s.pw.qLim = 0 ∧ 0 < lim then powerEntry s1 false false else s1
  if s.pw.qTh = 0 ∧ 0 < th then thermEntry s2 else s2

/-- THROTTLE_TICK: every 1 ms. -/
def execThrottleTick (watts : Nat) (s : State) : Answer :=
  .next (if s.pw.hkOn && due s s.pw.tickAt 1000000 then
      throttleTick { s with pw := { s.pw with tickAt := some s.time.mono } } watts
    else s)

/-- Q_FAST becomes 32. -/
def fastThrottle (s : State) (overcurrent : Bool) : State :=
  let s1 := { s with pw := { s.pw with qFast := 32, fastAt := some s.time.mono } }
  if s.pw.qFast = 0 then powerEntry s1 true overcurrent else s1

/-- FAST_THROTTLE_TRIGGER: how far VIN fell within 50 µs, VIN, and the input current in 10 mA. -/
def execFastThrottleTrigger (fellByMillivolts millivolts centiamps : Nat) (s : State) : Answer :=
  .next (if s.pw.hkOn && decide (3000 < fellByMillivolts ∨ millivolts < 40000 ∨ 6500 < centiamps) then
      fastThrottle { s with pw := { s.pw with vinMv := millivolts } } (decide (6500 < centiamps))
    else s)

/-- FAST_THROTTLE_DECAY: 1 ms after the condition has ended, and every 1 ms from then on (R599); not while VIN is below 40.0 V, nor where both
sensors have failed (R605). (DEDUCED, log entry 57.) -/
def execFastThrottleDecay (s : State) : Answer :=
  .next (if s.pw.hkOn && !s.pw.fastHeld && decide (40000 ≤ s.pw.vinMv) && due s s.pw.fastAt 1000000 then
      { s with pw := { s.pw with qFast := s.pw.qFast - 8, fastAt := some s.time.mono } }
    else s)

/-! ### Sensors (R601-R605) -/

/-- The range of a sensor's readings: °C, mV or 10 mA. (DEDUCED, log entry 57.) -/
def sensorRange (n : Nat) : Int × Int :=
  if n < 24 then (-40, 150) else if n = 24 then (0, 80000) else if n = 25 then (-500, 10000) else (-10, 100)

/-- The step of a sensor. -/
def sensorStep (n : Nat) : Int := if n < 24 then 20 else if n = 24 then 10000 else if n = 25 then 4000 else 5

/-- Whether a reading is accepted. (DEDUCED, log entry 57.) -/
def plausible (x : Sensor) (n : Nat) (raw : Int) : Bool :=
  let r := sensorRange n
  decide (r.1 ≤ raw ∧ raw ≤ r.2) &&
    (match x.val with
     | some v => decide (raw - v ≤ sensorStep n ∧ v - raw ≤ sensorStep n)
     | none => true)

/-- Sensor `n` replaced. -/
def setSensor (s : State) (n : Nat) (x : Sensor) : State := { s with pw := { s.pw with sensors := tput s.pw.sensors n x } }

/-- The coolant inlet range of the module's grade (R8). -/
def inletOk (s : State) (v : Int) : Bool := if s.fitted.gradeX then decide (5 ≤ v ∧ v ≤ 45) else decide (15 ≤ v ∧ v ≤ 40)

/-- The inlet has been read: COOL_RANGE (R603). -/
def inletRead (s : State) (v : Int) : State :=
  if inletOk s v then { s with pw := { s.pw with coolSince := none, coolRange := false } }
  else
    let since := s.pw.coolSince.getD s.time.mono
    let s1 := { s with pw := { s.pw with coolSince := some since } }
    if since + 1000000000 < s.time.mono && !s.pw.coolRange then alertSet { s1 with pw := { s1.pw with coolRange := true } } 2 else s1

/-- A junction sensor has been read: the second reading in a row at or above 110 °C trips (R602). -/
def junctionRead (s : State) (n : Nat) (v : Int) : State :=
  let x := sensorOf s n
  let hot := if 110 ≤ v then x.hot + 1 else 0
  let s1 := setSensor s n { x with hot := hot }
  if hot = 2 then shutdown (raiseChip s1 3 0x84 (v.toNat % 256 + sensorDie n * 2 ^ 8 + n * 2 ^ 16)) 3 else s1

/-- A reading that is accepted. -/
def acceptReading (s : State) (n : Nat) (raw : Int) : State :=
  let s1 := setSensor s n { sensorOf s n with val := some raw, bad := 0 }
  if n < 24 then junctionRead s1 n raw
  else if n = 24 then { s1 with pw := { s1.pw with vin := BitVec.ofInt 17 raw } }
  else if n = 25 then { s1 with pw := { s1.pw with iin := BitVec.ofInt 16 raw } }
  else if n = 26 then inletRead s1 raw
  else s1

/-- A reading that is discarded: the third in a row fails the sensor; with VIN and current both failed the fast throttle is held.
(DEDUCED, log entry 57.) -/
def discardReading (s : State) (n : Nat) (raw : Int) : State :=
  let x := sensorOf s n
  if x.bad < 2 then setSensor s n { x with bad := x.bad + 1 }
  else
    let s1 := raiseChip (setSensor s n { x with bad := 3, failed := true }) 3 0x85 (n + unsigned 32 raw * 2 ^ 16)
    if (n = 24 ∨ n = 25) ∧ (sensorOf s1 24).failed ∧ (sensorOf s1 25).failed then
      fastThrottle { s1 with pw := { s1.pw with fastHeld := true } } false
    else s1

/-- The nanoseconds between two readings of a sensor: 100 µs for a junction, the 10 µs of their steps for VIN and the input current; for the
coolant none is stated (R601, R604). (DEDUCED, log entry 57.) -/
def sensorPeriod (n : Nat) : Nat := if n < 24 then 100000 else if n < 26 then 10000 else 0

/-- One reading of one sensor. A restart that waits for the module to cool may go on. -/
def sensorReading (s : State) (n : Nat) (raw : Int) : State :=
  if !s.pw.hkOn || !sensorFitted s n || (sensorOf s n).failed || !due s (sensorOf s n).readAt (sensorPeriod n) then s
  else
    let s1 := setSensor s n { sensorOf s n with readAt := some s.time.mono }
    tryRestart (if plausible (sensorOf s1 n) n raw then acceptReading s1 n raw else discardReading s1 n raw)

/-- SENSOR_READING. -/
def execSensorReading (sensor : Fin 28) (raw : Int) (s : State) : Answer := .next (sensorReading s sensor.val raw)

/-! ### Reference clock and wear (R606-R608) -/

/-- A deviation as PW_CLK_STAT.PPM shows it. -/
def ppmField (ppm : Int) : BitVec 16 := BitVec.ofInt 16 (max (-32768) (min 32767 ppm))

/-- REFCLK is missing or has been measured: beyond 500 ppm REFCLK_FAIL, and the ports are down. (DEDUCED, log entry 57.) -/
def refclk (s : State) (missing : Bool) (ppm : Int) : State :=
  let s1 := if missing then s else { s with pw := { s.pw with clkPpm := ppmField ppm } }
  if missing || decide (500 < ppm ∨ ppm < -500) then
    let s2 := { s1 with pw := { s1.pw with clkOk := false } }
    let s3 := raiseChip s2 1 0x55 (flagAt (!missing) 0 + s2.pw.clkPpm.toNat * 2 ^ 16)
    let s4 := if s3.pw.state = 1 then alertSet { s3 with pw := { s3.pw with state := 2, scause := 5 } } 6 else s3
    portsOff s4
  else { s1 with pw := { s1.pw with clkOk := true } }

/-- REFCLK_FAIL. -/
def execRefclkFail (missing : Bool) (ppm : Int) (s : State) : Answer := .next (if s.pw.hkOn then refclk s missing ppm else s)

/-- The smallest of a list of results with its place, and the lowest place of several. (DESIGN CHOICE, log entry 58.) -/
def leastDays : List Nat → Nat → Option (Nat × Nat)
  | [], _ => none
  | d :: r, i =>
    match leastDays r (i + 1) with
    | some x => some (if x.1 < d then x else (d, i))
    | none => some (d, i)

/-- WEAR_COMPUTE: the monitors, and the days to its threshold of each where 7 days of history exist.
(DESIGN CHOICE, log entry 58.) -/
def wearCompute (s : State) (ro : List Nat) (hbm eye cap : Nat) (days : List Nat) : State :=
  let word (n : Nat) : Word := BitVec.ofNat 32 (min n 0xFFFFFFFF)
  let least := (leastDays (days.take 4) 0).getD (0xFFFF, 0)
  let d := min least.1 0xFFFF
  let below := decide (d < regBits s (pwBase + 0x104) 15 0)
  let s1 := { s with pw := { s.pw with
    wearRo := ro.zipIdx.map (fun e => (e.2, word e.1)), wearHbm := word hbm, wearEye := BitVec.ofNat 32 (min eye 0xFFFF),
    wearCap := word cap, wearEol := BitVec.ofNat 32 (d + least.2 * 2 ^ 16), wearBelow := below } }
  if below && !s.pw.wearBelow then alertSet (raiseChip s1 3 0x87 (d + least.2 * 2 ^ 16)) 3 else s1

/-- WEAR_COMPUTE: once per hour. -/
def execWearCompute (ro0 ro1 ro2 ro3 hbmPerDay eyeMui capEvents : Nat) (days : List Nat) (s : State) : Answer :=
  .next (if s.pw.hkOn && due s s.pw.wearAt 3600000000000 then
      wearCompute { s with pw := { s.pw with wearAt := some s.time.mono } } [ro0, ro1, ro2, ro3] hbmPerDay eyeMui capEvents days
    else s)

end Sys2Proof.Machine
end

