-- ==== Sys2Proof/Machine/Boot.lean ====
section
/-! DEFINITION. Start-up: the ROM check, signed boot, the key store, power-up BIST, measurement and readiness (R547-R559, R563, R622). -/

namespace Sys2Proof.Machine

/-- The phase of MG_BOOT_STAT, set. -/
def setPhase (s : State) (n : Nat) : State := { s with boot := { s.boot with phase := n, phaseAt := s.time.mono } }

/-- Whether a phase has exceeded its limit, in nanoseconds: it has failed (R547). -/
def phaseLate (s : State) (limit : Nat) : Bool := decide (s.boot.phaseAt + limit < s.time.mono)

/-- BOOT_ROM_CHECK: a failed check holds the module in reset (R551); a LOCK record kept brings it up in harbour state (R539, R559). -/
def execBootRomCheck (ok : Bool) (addressPins : Fin 8) (s : State) : Answer :=
  .next (if !(s.pw.pg && s.boot.phase == 0 && !s.boot.romDone && !s.boot.heldReset) then s
    else if !ok || phaseLate s 5000000 then { s with boot := { s.boot with heldReset := true } }
    else
      let s1 := { s with boot := { s.boot with romDone := true }, smb := { s.smb with address := 0x60 + addressPins.val } }
      if lockHeld s1 then enterHarbour s1 5 else setPhase s1 1)

/-- The image of a slot is booted. -/
def bootSlot (s : State) (slot fallback : Bool) : State :=
  setPhase { s with boot := { s.boot with
    slot := slot, fallback := fallback, fwVersion := BitVec.ofNat 32 (leAt (imageHead s slot) 4 4),
    fwSvn := BitVec.ofNat 16 (imageSvn s slot), commitSvn := if slot then s.flash.commit1 else s.flash.commit0,
    digest := imageDigest s slot } } 2

/-- The slot that SC_BOOT_SEL selects. -/
def selectedSlot (s : State) : Bool := regBits s (scBase + 0xC) 0 0 == 1

/-- SIGNED_BOOT (R547, R553, R554): a slot that takes longer than its 80 ms fails. (DESIGN CHOICE, log entry 5.) -/
def signedBoot (s : State) : State :=
  let sel := selectedSlot s
  if s.boot.phase ≠ 1 then s
  else if imagePasses s sel && !phaseLate s 80000000 then bootSlot s sel false
  else if imagePasses s (!sel) && !phaseLate s 160000000 then bootSlot s (!sel) true
  else
    enterHarbour (raiseChip s 2 0x70 (flagAt sel 0 + flagAt (decide (imageSvn s sel < s.flash.svnMin.toNat)) 1 + flagAt true 2)) 1

/-- SIGNED_BOOT. -/
def execSignedBoot (s : State) : Answer := .next (signedBoot s)

/-- KEY_STORE_CHECK, which fails where it takes longer than 2 ms (R547): the identity key is derived unless the key store stays cleared (R556). -/
def execKeyStoreCheck (ok : Bool) (s : State) : Answer :=
  .next (if s.boot.phase ≠ 2 then s
    else if !ok || phaseLate s 2000000 then enterHarbour (raiseChip s 2 0x72 0) 2
    else setPhase { s with sec := { s.sec with identity := !s.sec.keysCleared } } 3)

/-- One failing unit of power-up BIST (R557). LANE_FENCE names the connection of a segment, and there is none: the detail is unstated, a free
value. (DESIGN CHOICE, log entry 2.) -/
def bistUnit (s : State) (f : BistFailure) : State :=
  match f with
  | .deck d test =>
    let s1 := fenceDeck (raiseDeck s 0 d.val 0x02 test.val) d.val (sourceId 0 d.val 0x02)
    { s1 with boot := { s1.boot with fenced := s1.boot.fenced ||| BitVec.ofNat 16 (2 ^ d.val) } }
  | .lane p =>
    if fittedPort s p.val then
      let w := freshWord s
      raiseChip (setPort w.2 p.val { portOf w.2 p.val with laneFenced := true }) (8 + p.val) 0x49 (w.1.toNat % 8192)
    else s
  | .serdes p lanes => serdesFails s p.val lanes.toNat
  | .stack k band => if populated s k.val then raise s 2 (16 + k.val) 0x3A none none (k.val + flagAt band 4) else s
  | .chip u => raiseChip s 0 0x5D (u.toNat * 2 ^ 8)

/-- The cause of harbour state that a failing unit gives (R557, R622). -/
def bistCause (s : State) (f : BistFailure) : Option Nat :=
  match f with
  | .chip _ => some 3
  | .stack k _ => if populated s k.val then some 4 else none
  | _ => none

/-- POWER_UP_BIST. -/
def powerUpBist (s : State) (failures : List BistFailure) : State :=
  if s.boot.phase ≠ 3 then s
  else
    let s1 := failures.foldl bistUnit s
    let causes := failures.filterMap (bistCause s)
    if causes.isEmpty && s1.boot.phase == 3 then setPhase s1 4 else causes.foldl enterHarbour s1

/-- POWER_UP_BIST. -/
def execPowerUpBist (failures : List BistFailure) (s : State) : Answer := .next (powerUpBist s failures)

/-- MEASURE: M0 by the firmware digest, M1 by that of SC_STAT (R563); the Coordinates phase ends at once where they are valid.
(DEDUCED, log entry 51.) -/
def execMeasure (s : State) : Answer :=
  .next (if s.boot.phase ≠ 4 then s
    else setPhase (extendStat (extendM s 0 s.boot.digest)) (if regBits s (mgBase + 0x20) 31 31 = 1 then 6 else 5))

/-- SC_SVN.MIN rises to the booted image's SVN where it was activated so (R555). (DESIGN CHOICE, log entry 5.) -/
def commitSvn (s : State) : State :=
  if s.boot.commitSvn && decide (s.flash.svnMin.toNat < s.boot.fwSvn.toNat) then
    { s with flash := { s.flash with svnMin := s.boot.fwSvn } }
  else s

/-- MODULE_READY (R549). -/
def moduleReady (s : State) : State :=
  if s.boot.phase = 6 ∧ regBits s (mgBase + 0x20) 31 31 = 1 ∧ (s.time.st = .locked ∨ s.time.st = .grandmaster) then
    commitSvn (alertSet { s with boot := { s.boot with phase := 7, ready := true } } 4)
  else s

/-- MODULE_READY. -/
def execModuleReady (s : State) : Answer := .next (moduleReady s)

end Sys2Proof.Machine
end

