-- ==== Sys2Proof/Machine/Drain.lean ====
section
/-! DEFINITION. Drain units: DRAIN with its chain, statistics, soundings and destinations, and FMTSEL (R175-R213, R304, R305). -/

namespace Sys2Proof.Machine

/-! ### Checks (R152, R175, R178, R304) -/

/-- The drained quads of a DRAIN of deck `d` in ascending order. -/
def drainQuads (s : State) (d : Nat) (o : DrainOps) : List Nat :=
  if deckQuad s d then (List.range 4).filter (bit o.quads) else [0, 1, 2, 3]

/-- The output columns per member. -/
def drainCols (s : State) (d : Nat) (o : DrainOps) : Nat := 128 * (drainQuads s d o).length

/-- The pairs of statistics or row biases per row: one in ganged mode, one per drained quad in quad mode. -/
def drainParts (s : State) (d : Nat) (o : DrainOps) : Nat := if deckQuad s d then (drainQuads s d o).length else 1

/-- Whether a register cannot serve as a bias (R178). -/
def biasBad (t : TileReg) (axis : Bool) (cols parts : Nat) : Bool :=
  t.role != .stash || decide (7 < t.fmt) || t.mx ||
    (if axis then t.rows16 != 8 || decide (t.cols < parts) else decide (t.cols < cols))

/-- Whether a register cannot serve as a residual or Z tile (R178). -/
def plainBad (t : TileReg) (cols : Nat) : Bool :=
  t.role != .stash || decide (7 < t.fmt) || t.mx || t.rows16 != 8 || t.cols != cols

/-- Whether a register cannot serve as a row-statistics tile (R178). -/
def statBad (t : TileReg) (parts : Nat) : Bool :=
  t.role != .stash || t.fmt != 0 || t.mx || t.rows16 != 8 || decide (t.cols < 2 * parts)

/-- Whether a DRAIN fails a check in member `k`. -/
def drainBadIn (s : State) (d : Nat) (o : DrainOps) (f : FnEntry) (k : Nat) : Bool :=
  let cols := drainCols s d o
  let parts := drainParts s d o
  let out := tileOf s k o.oreg
  (drainQuads s d o).any (fun qd =>
    tagOf (deckOf s k) qd o.slot == .none || (tagOf (deckOf s k) qd o.slot == .comp && o.slot % 2 == 1)) ||
  ((o.dest == 0 || o.dest == 3) && ((out.role != .output && out.role != .stash) || out.rows16 != 8 || out.cols != cols)) ||
  (f.biasEn && biasBad (tileOf s k o.breg) f.biasAxis cols parts) ||
  (f.resEn && plainBad (tileOf s k o.rreg) cols) || (f.actBwd && plainBad (tileOf s k o.zreg) cols) ||
  (f.rowstat && statBad (tileOf s k o.sreg) parts) || (o.maskEn && (tileOf s k o.mreg).role != .mask)

/-- Whether a layer format table entry names a format that R198 refuses. -/
def layerBad (e : Nat) : Bool := bit e 4 && (decide (7 < bits e 3 0) || (bit e 5 && !(decide (3 ≤ bits e 3 0 ∧ bits e 3 0 ≤ 7))))

/-- The deck in which a DRAIN fails a check, but for that of the layer format table's entry. -/
def drainBad (s : State) (b d : Nat) (o : DrainOps) : Option Nat :=
  match fnOf s b o.fn with
  | none => some d
  | some f =>
    if notLead s d || (drainQuads s d o).isEmpty then some d
    else if o.dest == 1 && (match descOf s d o.desc with
      | some ds => !ds.store
      | none => true) then some d
    else if f.fmtSrc && o.dest != 1 then some d
    else if (o.flush || f.fmtSrc) && decide ((berthOf s b).cfg.nl ≤ o.l) then some d
    else (arrayDecks s d).find? (drainBadIn s d o f)

/-! ### The chain (R177, R182-R185) -/

/-- Whether stages 1-4 of an entry are in their identity settings (R196). -/
def fnIdentity (f : FnEntry) : Bool := f.scaleSrc == 0 && !f.biasEn && !f.resEn && f.act == 0 && !f.actBwd

/-- The integer of an INT32 entry that a DRAIN passes on unchanged, or its FP32 value (R76, R177). -/
def slotValue (x : Deck) (quad slot r c : Nat) : Word :=
  match tagOf x quad slot with
  | .comp => compValue (entryOf x.acc slot r c) (entryOf x.acc (slot + 1) r c)
  | .int32 => rne32 (FV.ofInt (i32 (entryOf x.acc slot r c)))
  | _ => entryOf x.acc slot r c

/-- An element of a stash tile widened to FP32 (R184). -/
def stashVal (s : State) (r : Run) (k reg i j : Nat) : Word := rne32 (tileVal (bufOf s k (boundHalf s r k reg)) (tileOf s k reg) i j)

/-- The scale factor of a function entry with the scalar word read (R183). -/
def scaleFactor (f : FnEntry) (w : Word) : Word :=
  if f.scaleSrc = 1 then f.scaleK else if f.scaleSrc = 2 then w else mul32 f.scaleK w

/-- The stage-4 value of output entry (row, col) of member `k` (R182); `part` is the drained quad's index. -/
def stage4 (s : State) (r : Run) (o : DrainOps) (f : FnEntry) (w : Word) (k quad part row col oc : Nat) : Word :=
  let x0 := slotValue (deckOf s k) quad o.slot row col
  let x1 := if f.scaleSrc = 0 then x0 else mul32 x0 (scaleFactor f w)
  let x2 := if f.biasEn then
      add32 x1 (if f.biasAxis then stashVal s r k o.breg row (if deckQuad s k then part else 0) else stashVal s r k o.breg 0 oc)
    else x1
  let x3 := if f.resEn then add32 x2 (stashVal s r k o.rreg row oc) else x2
  if f.actBwd then mul32 x3 (actDeriv f.act (stashVal s r k o.zreg row oc)) else act f.act x3

/-- The stage-4 values of a member, row by row over its output columns. -/
def stageRows (s : State) (r : Run) (o : DrainOps) (f : FnEntry) (w : Word) (d k : Nat) : List (List Word) :=
  (List.range 128).map (fun row => (drainQuads s d o).zipIdx.flatMap (fun p =>
    (List.range 128).map (fun c => stage4 s r o f w k p.1 p.2 row (128 * p.1 + c) (128 * p.2 + c))))

/-- A value of rows. -/
def rowVal (rows : List (List Word)) (i j : Nat) : Word := nth 0 (nth [] rows i) j

/-- Whether output column `oc` of member `k` is masked (R200, R202). -/
def colMasked (masked : List (Nat × Nat)) (quads : List Nat) (k oc : Nat) : Bool :=
  masked.contains (k, nth 0 quads (oc / 128))

/-! ### Row statistics, sums of squares, soundings (R186-R194) -/

/-- The larger of two FP32 words that are not NaN. Of two zeros of either sign it is the first: which zero a row's maximum is, where both occur,
the spec leaves open. (DESIGN CHOICE, log entry 26.) -/
def max32 (a b : Word) : Word := if FV.lt (f32 a) (f32 b) then b else a

/-- The pair (m, l) of a row (R186). -/
def rowPair (n : Nat) (l : List Word) : Word × Word :=
  if l.any (fun x => (f32 x).isNan) then (0x7FC00000, 0x7FC00000)
  else
    let m := l.foldl max32 0xFF800000
    if m = 0x7F800000 then (m, 0x7FC00000)
    else if m = 0xFF800000 then (m, 0)
    else (m, sum32 n (l.map (fun x => exp32 (sub32 x m))))

/-- The merge of two pairs (R187). -/
def mergePair (a b : Word × Word) : Word × Word :=
  if [a.1, a.2, b.1, b.2].any (fun x => (f32 x).isNan) then (0x7FC00000, 0x7FC00000)
  else
    let m := max32 a.1 b.1
    let term (p : Word × Word) : Word := if p.1 = 0xFF800000 then 0 else mul32 p.2 (exp32 (sub32 p.1 m))
    (m, add32 (term a) (term b))

/-- An FP32 element of a tile in a half. -/
def putF32 (t : TileReg) (m : Mem) (i j : Nat) (w : Word) : Mem := writePacked m (rowAddr t i) 0 j w.toNat

/-- The row statistics of one part of a member, written or merged (R187). -/
def statPart (r : Run) (o : DrainOps) (f : FnEntry) (d k : Nat) (rows : List (List Word)) (masked : List (Nat × Nat))
    (s : State) (part : Nat) : State :=
  let t := tileOf s k o.sreg
  let h := boundHalf s r k o.sreg
  let quads := drainQuads s d o
  let colsOf : List Nat := if deckQuad s k then (List.range 128).map (fun c => 128 * part + c) else List.range 512
  let open_ := colsOf.filter (fun c => !colMasked masked quads k c)
  let m := (List.range 128).foldl
    (fun a row =>
      let p := rowPair (s.free + row) (open_.map (rowVal rows row))
      let old := (BitVec.ofNat 32 (readPacked a (rowAddr t row) 0 (2 * part)), BitVec.ofNat 32 (readPacked a (rowAddr t row) 0 (2 * part + 1)))
      let v := if f.merge then mergePair old p else p
      putF32 t (putF32 t a row (2 * part) v.1) row (2 * part + 1) v.2) (bufOf s k h)
  putBuf { s with free := s.free + 128 } k h (footLo t) (footHi t) m

/-- The unmasked stage-4 values of a member. -/
def openVals (quads : List Nat) (masked : List (Nat × Nat)) (k : Nat) (rows : List (List Word)) : List Word :=
  rows.flatMap (fun r => (r.zipIdx.filter (fun p => !colMasked masked quads k p.2)).map (·.1))

/-- The tile partial of a member joins its norm accumulator (R189). That each x² is rounded to FP32 before the FP32 sum is the model's
choice. (DESIGN CHOICE, log entry 26.) -/
def addNorm (acc : Nat) (vals : List Word) (s : State) (k : Nat) : State :=
  let p := sum32 s.free (vals.map (fun x => mul32 x x))
  let x := deckOf s k
  let n := tget 0 x.nacc acc
  setDeck { s with free := s.free + 1 } k { x with nacc := tput x.nacc acc (rne64 (FV.add (f64 n) (f32 p))) }

/-- A count of a sounding accumulator (R194). -/
def sndAdd (a n : Nat) : Nat := min (a + n) 0xFFFFFFFF

/-- The histogram bin of an exponent relative to e0 (R192). -/
def histBin (e0 e : Int) : Nat :=
  if e0 ≤ e then 0 else if e ≤ e0 - 29 then 15 else ((e0 - e + 1) / 2).toNat

/-- A member's values join its sounding accumulator (R191, R192): each with whether its stage-8 result is a zero; `zeroRuns` are the
aligned runs of 32 columns whose results are all zero. -/
def addSound (e0 : Int) (vals : List (Word × Bool)) (zeroRuns : Nat) (x : Sounding) : Sounding :=
  let y := vals.foldl
    (fun (a : Sounding) v =>
      let fv := f32 v.1
      if !fv.isFinite then { a with count := sndAdd a.count 1, nonfinite := sndAdd a.nonfinite 1 }
      else if fv.isZero then { a with count := sndAdd a.count 1 }
      else
        let b := histBin e0 fv.log2
        { a with count := sndAdd a.count 1, nonzero := sndAdd a.nonzero 1,
                 underflow := if v.2 then sndAdd a.underflow 1 else a.underflow,
                 amax := if FV.lt (f32 a.amax) fv.abs then BitVec.ofNat 32 (v.1.toNat % 2 ^ 31) else a.amax,
                 bins := tput a.bins b (sndAdd (tget 0 a.bins b) 1) }) x
  { y with zeroblk := sndAdd y.zeroblk zeroRuns, histE0 := e0 }

/-- The 128-byte sounding record (R193). -/
def soundRecord (x : Sounding) (l step : Nat) : List Byte :=
  natLe 4 x.amax.toNat ++ natLe 4 x.count ++ natLe 4 x.nonzero ++ natLe 4 x.underflow ++ natLe 4 x.zeroblk ++ natLe 4 x.nonfinite ++
  natLe 4 (2 ^ 31 + step * 4096 + l) ++ natLe 4 (unsigned 32 x.histE0) ++
  (List.range 16).flatMap (fun b => natLe 4 (tget 0 x.bins b)) ++ List.replicate 32 0

/-! ### Destinations (R195-R199, R202) -/

/-- The value that enters conversion: the exact integer of an INT32 slot whose chain is the identity where the target is an integer
format, the FP32 value otherwise (R76). -/
def convIn (s : State) (o : DrainOps) (f : FnEntry) (k quad : Nat) (fmt : Nat) (mx : Bool) (row col : Nat) (x : Word) : FV :=
  if tagOf (deckOf s k) quad o.slot == .int32 && fnIdentity f && isIntFmt fmt mx
  then FV.ofInt (i32 (entryOf (deckOf s k).acc o.slot row col)) else f32 x

/-- The converted output of a DRAIN as exact input values of a member, by output row and column. -/
def convVal (s : State) (o : DrainOps) (f : FnEntry) (d k fmt : Nat) (mx : Bool) (rows : List (List Word)) (i j : Nat) : FV :=
  let quads := drainQuads s d o
  let qd := nth 0 quads (j / 128)
  convIn s o f k qd fmt mx i (128 * qd + j % 128) (rowVal rows i j)

/-- Write a member's output register (R195, R202). -/
def drainBuf (r : Run) (o : DrainOps) (f : FnEntry) (d k base : Nat) (rows : List (List Word)) (masked : List (Nat × Nat))
    (s : State) : State :=
  let t := tileOf s k o.oreg
  let h := boundHalf s r k o.oreg
  let m := writeTile t (rndOf f.rnd) f.ovf base (fun _ j => !colMasked masked (drainQuads s d o) k j)
    (convVal s o f d k t.fmt t.mx rows) (bufOf s k h)
  putBuf s k h (footLo t) (footHi t) m

/-- The draw of stochastic rounding that the converted element (i, j) of member number `p` takes, the draws of a DRAIN being numbered from
`base`: by its place in the register, or in the memory rows of the destination. (DEDUCED, log entry 64.) -/
def drainDraw (s : State) (o : DrainOps) (d : Nat) (ds : Desc) (base p i j : Nat) : Nat :=
  if o.dest = 1 then
    let e := drainExtent s d o
    let at_ : Nat × Nat := if deckQuad s d then (i, j) else (p / gangN s d * 128 + i, p % gangN s d * 512 + j)
    base + (if ds.morient then at_.2 * (memRows e ds.morient).2 + at_.1 else at_.1 * (memRows e ds.morient).2 + at_.2)
  else base + p * 65536 + i * drainCols s d o + j

/-- Consecutive bytes joined into writes. -/
def joinBytes : List (Nat × Byte) → List (Nat × List Byte)
  | [] => []
  | (a, v) :: r =>
    match joinBytes r with
    | (a', l) :: rest => if a' = a + 1 then (a, v :: l) :: rest else (a, [v]) :: (a', l) :: rest
    | [] => [(a, [v])]

/-- The format and scales of an HBM destination, `e` being the layer format table's entry (R195, R198). -/
def drainFmt (f : FnEntry) (ds : Desc) (e : Nat) : Nat × Bool :=
  if f.fmtSrc && bit e 4 then (bits e 3 0, bit e 5) else (ds.mfmt, ds.mmx)

/-- The writes of a DRAIN to HBM or the hold; bytes of masked entries are left out (R197, R202). -/
def drainWrites (s : State) (o : DrainOps) (f : FnEntry) (d : Nat) (ds : Desc) (cur scur base : Nat)
    (rows : List (Nat × List (List Word))) (masked : List (Nat × Nat)) : List (Nat × List Byte) :=
  let e := drainExtent s d o
  let n := memRows e ds.morient
  let w := drainCols s d o
  let at_ (i j : Nat) : Nat × Nat × Nat :=
    let p : Nat × Nat := if ds.morient then (j, i) else (i, j)
    let idx := if deckQuad s d then 0 else p.1 / 128 * gangN s d + p.2 / 512
    (idx, p.1 % 128, p.2 % w)
  let val (i j : Nat) : FV :=
    let a := at_ i j
    let m := nth (d, []) rows a.1
    convVal s o f d m.1 ds.mfmt ds.mmx m.2 a.2.1 a.2.2
  let off (i j : Nat) : Bool :=
    let a := at_ i j
    colMasked masked (drainQuads s d o) (nth (d, []) rows a.1).1 a.2.2
  let along := !ds.morient
  let img := memImage ds.mfmt ds.mmx along (rndOf f.rnd) f.ovf base n.1 n.2 val
  let els := img.1.zipIdx.flatMap (fun x =>
    joinBytes ((x.1.zipIdx.filter (fun y => !off x.2 (y.2 * 8 / fmtWidth ds.mfmt))).map (fun y =>
      (moveAddr cur ((x.2 : Int) * ds.stride) + y.2, y.1))))
  let scs := joinBytes ((img.2.zipIdx.filter (fun y =>
    if along then !off (y.2 / cdiv n.2 32) (y.2 % cdiv n.2 32 * 32) else !off (y.2 / n.2 * 32) (y.2 % n.2))).map (fun y =>
      (scur + y.2, y.1)))
  els ++ scs

/-- Whether a DRAIN sends INT32 values to the collective engine: an INT32 slot through identity stages (R196). Where its quads or members hold slots of
different tags the spec names no type: the model goes by the lead deck's drained quads, all of which must be INT32. (DESIGN CHOICE, log entry
26.) -/
def sendsInt (s : State) (d : Nat) (o : DrainOps) (f : FnEntry) : Bool :=
  fnIdentity f && (drainQuads s d o).all (fun qd => tagOf (deckOf s d) qd o.slot == .int32)

/-- The words of a DRAIN for the collective engine: member by member, rows ascending, masked entries +0 (R199, R202). -/
def drainRows (s : State) (o : DrainOps) (f : FnEntry) (d : Nat) (rows : List (Nat × List (List Word))) (masked : List (Nat × Nat)) :
    List Byte :=
  let quads := drainQuads s d o
  let int := sendsInt s d o f
  rows.flatMap (fun m => m.2.zipIdx.flatMap (fun r => r.1.zipIdx.flatMap (fun c =>
    if colMasked masked quads m.1 c.2 then natLe 4 0
    else if int then natLe 4 (entryOf (deckOf s m.1).acc o.slot r.2 (128 * nth 0 quads (c.2 / 128) + c.2 % 128)).toNat
    else natLe 4 c.1.toNat)))

/-! ### DRAIN (R209, R210) -/

/-- Whether a DRAIN may start reading: no earlier DRAIN of a member is in progress, so every output store is empty (R209). -/
def drainFree (s : State) (d : Nat) : Bool :=
  s.runs.all (fun r => opcodeOf r.cmd.word != 0x14 || r.decks.all (fun k => !(arrayDecks s d).contains k))

/-- The format in which the soundings judge a member's results: the destination's (R191, R192); of an output register the member's own.
(DEDUCED, log entry 25.) -/
def soundFmt (s : State) (k : Nat) (o : DrainOps) (fm : Nat × Bool) : Nat × Bool :=
  if o.dest = 1 then fm
  else if o.dest = 2 then (0, false)
  else ((tileOf s k o.oreg).fmt, (tileOf s k o.oreg).mx)

/-- The statistics of member number `e.2` (R186-R192). `fm` is the format of an HBM destination, and `draw` numbers the draws of stochastic rounding.
(DEDUCED, log entry 26.) -/
def drainStats (r : Run) (o : DrainOps) (f : FnEntry) (d : Nat) (fm : Nat × Bool) (draw : Nat → Nat → Nat → Nat)
    (masked : List (Nat × Nat)) (s : State) (e : (Nat × List (List Word)) × Nat) : State :=
  let m := e.1
  let quads := drainQuads s d o
  let vals := openVals quads masked m.1 m.2
  let s1 := if f.rowstat then (List.range (drainParts s d o)).foldl (statPart r o f d m.1 m.2 masked) s else s
  let s2 := if f.sumsq then addNorm o.nacc vals s1 m.1 else s1
  if f.snd then
    let fmt := (soundFmt s m.1 o fm).1
    let mx := (soundFmt s m.1 o fm).2
    let conv (i j : Nat) : Bool :=
      let v := convVal s o f d m.1 fmt mx m.2 i j
      let dr := (Config.random16 (draw e.2 i j)).toNat
      if mx then
        let sc := mxScale fmt ((List.range 32).map (fun x => convVal s o f d m.1 fmt mx m.2 i (j / 32 * 32 + x)))
        (elemVal fmt true (mxElem fmt (rndOf f.rnd) dr sc v)).isZero && sc != 0xFF
      else (elemVal fmt false (toElem fmt (rndOf f.rnd) f.ovf dr v)).isZero
    let list := m.2.zipIdx.flatMap (fun row => (row.1.zipIdx.filter (fun c => !colMasked masked quads m.1 c.2)).map (fun c =>
      (c.1, conv row.2 c.2)))
    let runs := m.2.zipIdx.foldl (fun a row =>
      a + ((List.range (row.1.length / 32)).filter (fun k =>
        !colMasked masked quads m.1 (32 * k) && (List.range 32).all (fun x => conv row.2 (32 * k + x)))).length) 0
    let x := deckOf s2 m.1
    setDeck s2 m.1 { x with snd := addSound f.histE0 list runs x.snd }
  else s2

/-- The cursors of a DRAIN to HBM, which it took at its issue. Where its format comes from the layer format table, the scale cursor of its
descriptor advances now by the scale bytes of that format (R156, R198). (DEDUCED, log entry 15.) -/
def drainCursors (s : State) (d : Nat) (o : DrainOps) (f : FnEntry) (fm : Nat × Bool) (m : QCmd) :
    State × Option (Nat × Nat × Nat) :=
  if o.dest != 1 then (s, some (0, 0, 0))
  else if f.fmtSrc then
    let x := deckOf s d
    let ds := (descOf s d o.desc).getD {}
    let k := scaleCount { role := .output } (drainExtent s d o) { ds with mfmt := fm.1, mmx := fm.2 }
    (setDeck s d { x with descs := tput x.descs o.desc { ds with scur := moveAddr ds.scur (k : Nat) } }, m.curs)
  else (s, m.curs)

/-- What a DRAIN reads of a deck: a slot with a PASS into it still in progress gives an image taken part way through it (R90). -/
def drainPort (o : DrainOps) (quads : List Nat) (s : State) (k : Nat) : State :=
  readPort (quads.flatMap (fun qd =>
    (if tagOf (deckOf s k) qd o.slot == .comp then [o.slot, o.slot + 1] else [o.slot]).map (fun sl => (sl, qd)))) s k

/-- The accumulators as they were before a DRAIN read them. -/
def keepSlots (old : State) (decks : List Nat) (s : State) : State :=
  decks.foldl (fun t k => setDeck t k { deckOf t k with acc := (deckOf old k).acc }) s

/-- The entry of the layer format table that a DRAIN with FMT_SRC = 1 reads (R198), where it needs none 0. -/
def readLayer (s : State) (w : Requester) (b : Nat) (o : DrainOps) (f : FnEntry) (mem : HbmOutcome) : State × Option Nat :=
  if f.fmtSrc then readAs (stepRead s w b ((berthOf s b).cfg.lft + 4 * o.l) 4 mem) leNat else (s, some 0)

/-- The scalar word of a DRAIN whose scale factor takes one (R183), where it needs none 0. -/
def readScalar (s : State) (w : Requester) (b : Nat) (f : FnEntry) (mem : HbmOutcome) : State × Option Word :=
  if f.scaleSrc = 2 ∨ f.scaleSrc = 3 then
    readAs (stepRead s w b ((berthOf s b).cfg.scalar + 4 * f.scaleIdx) 4 mem) (fun l => BitVec.ofNat 32 (leNat l))
  else (s, some 0)

/-- The columns of a member's output register that a DRAIN writes: those of its unmasked quads (R176, R202). -/
def openCols (quads : List Nat) (masked : List (Nat × Nat)) (k : Nat) : List (Nat × Nat) :=
  (quads.zipIdx.filter (fun e => !masked.contains (k, e.1))).map (fun e => (128 * e.2, 128 * e.2 + 128))

/-- The tiles that a DRAIN writes in a member's buffer (R211). -/
def drainDests (s : State) (r : Run) (o : DrainOps) (f : FnEntry) (d : Nat) (masked : List (Nat × Nat)) (k : Nat) : List BufDest :=
  (if o.dest = 0 ∨ o.dest = 3 then [⟨k, boundHalf s r k o.oreg, tileOf s k o.oreg, openCols (drainQuads s d o) masked k⟩] else []) ++
  (if f.rowstat then [⟨k, boundHalf s r k o.sreg, tileOf s k o.sreg, [(0, 2 * drainParts s d o)]⟩] else [])

/-- The registers that a DRAIN has finished with once it has read its slot: all, but for the output register of one whose only destination is the
buffer, which it keeps until it is complete (R145, R179). (DEDUCED, log entry 13.) -/
def drainUsed (o : DrainOps) (uses : List (Nat × Nat)) : List (Nat × Nat) :=
  if o.dest = 0 then uses.filter (fun u => u.2 != o.oreg) else uses

/-- The masked quads of a DRAIN, read as it reads the first row of its slot (R201). -/
def drainMasked (s : State) (d : Nat) (o : DrainOps) : List (Nat × Nat) :=
  if o.maskEn then
    (arrayDecks s d).flatMap (fun k => ((drainQuads s d o).filter (fun qd => maskOn s k o.mreg qd)).map (fun qd => (k, qd)))
  else []

/-- A DRAIN reads its slot through the chain and delivers it (R182-R202). `ds` is its descriptor with the format of its HBM destination, `cv` its
cursors, `w` its scalar word. (DEDUCED, log entries 13, 26.) -/
def drainRun (s0 : State) (q c b : Nat) (m : QCmd) (o : DrainOps) (f : FnEntry) (ds : Desc) (cv : Nat × Nat × Nat) (w : Word) : State :=
  let d := ctxDeck q c
  let decks := arrayDecks s0 d
  let s1 := decks.foldl (drainPort o (drainQuads s0 d o)) s0
  let p := startRun s1 q c b m decks
  match runOf p.1 p.2 with
  | none => p.1
  | some r0 =>
    let masked := drainMasked s1 d o
    let used := drainUsed o m.uses
    let r := { r0 with
      desc := { ds with mfmt := if sendsInt s1 d o f then 8 else 0 },
      cmd := { m with uses := m.uses.filter (fun u => !used.contains u) },
      dests := decks.flatMap (drainDests s1 r0 o f d masked) }
    let rows := decks.map (fun k => (k, stageRows s1 r o f w d k))
    let s2 := setRun (inuseDown p.1 used) { r with rows := if o.dest = 2 ∨ o.dest = 3 then drainRows s1 o f d rows masked else [] }
    let base := s2.free
    let s3 := rows.zipIdx.foldl (drainStats r o f d (ds.mfmt, ds.mmx) (drainDraw s1 o d ds base) masked)
      { s2 with free := base + 65536 * decks.length }
    let s4 := keepSlots s0 decks (if o.dest = 0 ∨ o.dest = 3
      then rows.zipIdx.foldl (fun t e => drainBuf r o f d e.1.1 (base + e.2 * 65536) e.1.2 masked t) s3 else s3)
    if o.dest = 1 then
      sendWrites s4 p.2 q c b decks o.hold o.spillNow (drainWrites s3 o f d ds cv.1 cv.2.1 base rows masked)
    else deliverRows b o.rstream (s4.runs.length + 1) s4

/-- A DRAIN whose checks have passed and whose words have been read: its destination is checked, and it runs (R178, R197, R330). -/
def drainGo (s : State) (q c b : Nat) (m : QCmd) (o : DrainOps) (f : FnEntry) (e : Nat) (w : Word) (buffer parity : Ecc) : State :=
  let d := ctxDeck q c
  let ds0 := (descOf s d o.desc).getD {}
  let fm := drainFmt f ds0 e
  let cu := drainCursors s d o f fm m
  match cu.2 with
  | none => shapeFail s 0x09 q c b m (some d)
  | some cv =>
    let ds := { ds0 with mfmt := fm.1, mmx := fm.2 }
    let es := if o.dest = 1 then transferExtents { role := .output } (drainExtent s d o) ds cv.1 cv.2.1 else []
    if o.hold && holdBeyond s b es then refuseHead (raiseHoldRange s q c b) q c m
    else
      match firstOutside s b (if o.hold then [] else es) with
      | some a => refuseHead (raiseCtx s q c 0x33 b a) q c m
      | none =>
        let g := bufEcc cu.1 d buffer
        if !g.2 then refuseHead g.1 q c m else drainRun (accEcc g.1 d parity) q c b m o f ds cv w

/-- Whether a DRAIN reads words of HBM, for which it needs a tracker entry (R338). -/
def drainReads (f : FnEntry) : Bool := f.fmtSrc || f.scaleSrc == 2 || f.scaleSrc == 3

/-- DRAIN at the head: checked, then the words that it reads of HBM, then its run (R178, R183, R198, R209). -/
def drainAt (s : State) (q c b : Nat) (m : QCmd) (buffer parity : Ecc) (mem : HbmOutcome) : State :=
  match opOf m.word with
  | .drain o =>
    let d := ctxDeck q c
    match drainBad s b d o, fnOf s b o.fn with
    | none, some f =>
      if drainReads f && !stepRoom s (arrayDecks s d) then s
      else
        let r := ctxRequester s q c b 0
        let e := readLayer s r b o f mem
        match e.2 with
        | none => refuseHead e.1 q c m
        | some v =>
          if layerBad v then shapeFail e.1 0x09 q c b m (some d)
          else
            let w := readScalar e.1 r b f mem
            match w.2 with
            | none => refuseHead w.1 q c m
            | some x => drainGo w.1 q c b m o f v x buffer parity
    | some k, _ => shapeFail s 0x09 q c b m (some k)
    | none, none => shapeFail s 0x09 q c b m (some d)
  | _ => s

/-- DRAIN. `mem` says what becomes of the words that it reads of HBM. -/
def execDrain (q : Fin 4) (c : Fin 18) (buffer : Ecc) (parity : Ecc) (mem : HbmOutcome) (s : State) : Answer :=
  .next (match headOp s q c 0x14 with
    | some p => if drainFree s (ctxDeck q c) then drainAt s q c p.1 p.2 buffer parity mem else s
    | none => s)

/-- A flushing DRAIN writes each member's sounding record to the log and empties the accumulator (R193).
(DEDUCED, log entry 26.) -/
def flushSound (r : Run) (l step : Nat) (late : Option Nat) (a : State × Bool) (k : Nat) : State × Bool :=
  let x := deckOf a.1 k
  let p := stepWrite a.1 (ctxRequester a.1 r.q r.c r.berth 4)
    ((berthOf a.1 r.berth).cfg.sndLog + ((l * 16 + step) * 16 + k) * 128) (soundRecord x.snd l step) late
  (setDeck p.1 k { x with snd := {} }, a.2 && p.2)

/-- A DRAIN whose rows have all been delivered ends: its sounding records are written where it flushes; one that lost a write ends without its
SFLAG (R193, R210). (DEDUCED, log entry 18.) -/
def drainEnd (s : State) (r : Run) (o : DrainOps) (late : Option Nat) : State :=
  let p := if o.flush then r.decks.foldl (flushSound r o.l o.step late) (s, true) else (s, true)
  if r.failed || !p.2 then failRun (ackHold p.1 r.berth r.id) r.id else runDone (ackHold p.1 r.berth r.id) r

/-- DRAIN_COMPLETE: every row of every member has been delivered (R210); the SFLAGs of a drain queue increment in its order (R280).
(DEDUCED, log entry 26.) -/
def execDrainComplete (q : Fin 4) (c : Fin 18) (mem : HbmOutcome) (s : State) : Answer :=
  .next (match oldestRun s q c with
    | some r =>
      match opOf r.cmd.word with
      | .drain o =>
        if taskMoves s r.berth && writesDone s r && r.rows.isEmpty && (!o.flush || stepRoom s r.decks) then drainEnd s r o mem.late else s
      | _ => s
    | none => s)

/-! ### FMTSEL (R205-R208) -/

/-- The candidates in the order of R207: code, largest finite magnitude, exponent of the smallest subnormal. -/
def fmtOrder : List (Nat × Int) :=
  [(7, -1), (6, -3), (5, -4), (3, -9), (4, -16), (2, -24), (1, -133), (0, -149)]

/-- The largest finite magnitude of a float format code. -/
def maxFinite (c : Nat) : FV :=
  match floatFmt c with
  | some f => .fin false f.maxM f.maxE
  | none => FV.zero false

/-- U of R207 for a record and an exponent. -/
def underBins (rec : List Byte) (sx : Int) : Nat :=
  let e0 := signed 32 (leAt rec 0x1C 4)
  (List.range 15).foldl (fun (a : Nat) (i : Nat) =>
    let b : Nat := i + 1
    let top : Int := if b = 15 then e0 - 29 else e0 - 2 * (b : Int) + 1
    if top < sx then a + leAt rec (0x20 + 4 * b) 4 else a) 0

/-- Whether a candidate passes (R207). -/
def fmtPasses (recs : List (List Byte)) (margin thresh : Nat) (c : Nat × Int) : Bool :=
  let aw := amaxOf (recs.map (fun r => f32 (BitVec.ofNat 32 (leAt r 0 4))))
  !FV.lt (maxFinite c.1) (FV.mul aw (FV.pow2 margin)) &&
  recs.all (fun r => decide (underBins r c.2 * 65536 ≤ thresh * leAt r 8 4))

/-- A layer format table entry (R208). -/
def fmtWord (recs : Nat) (fallback mx : Bool) (code : Nat) : Nat :=
  recs * 256 + flagAt fallback 7 + flagAt (mx && decide (3 ≤ code ∧ code ≤ 7)) 5 + 16 + code

/-- The entry that FMTSEL writes, none where it leaves the entry unchanged (R207, R208). -/
def fmtChoose (recs : List (List Byte)) (cand margin thresh : Nat) (mx : Bool) : Option Nat :=
  if recs.isEmpty || recs.all (fun r => leAt r 8 4 == 0) then none
  else
    let on := fmtOrder.filter (fun c => bit cand c.1)
    match on.find? (fmtPasses recs margin thresh) with
    | some c => some (fmtWord recs.length false mx c.1)
    | none => some (fmtWord recs.length true mx ((on.getLast?.map (·.1)).getD 0))

/-- One more sounding record, where every record before it could be read. (DEDUCED, log entry 23.) -/
def readRecord (w : Requester) (b : Nat) (mem : HbmOutcome) (x : State × Option (List (List Byte))) (a : Nat) :
    State × Option (List (List Byte)) :=
  match x.2 with
  | none => x
  | some l => readAs (stepRead x.1 w b a 128 mem) (fun r => l ++ [r])

/-- The sounding records at addresses; none where one cannot be read. -/
def readRecords (w : Requester) (b : Nat) (mem : HbmOutcome) (l : List Nat) (s : State) : State × Option (List (List Byte)) :=
  l.foldl (readRecord w b mem) (s, some [])

/-- The allotment on which a command of a context draws: that of its deck, that of the gather engine, or the chip allotment (R336). -/
def ctxPool (q c : Nat) : List Nat := if c < 16 then [ctxDeck q c] else if c = 16 then [16 + q] else [20]

/-- FMTSEL with its records read writes the layer's entry, or leaves it (R207, R208); where the write is lost it ends without its SFLAG
(log entry 18). -/
def fmtselEnd (s : State) (q c b : Nat) (m : QCmd) (l : Nat) (late : Option Nat) (v : Option Nat) : State :=
  match v with
  | none => headDone s q c b m
  | some w =>
    let p := stepWrite s (ctxRequester s q c b 4) ((berthOf s b).cfg.lft + 4 * l) (natLe 4 w) late
    if p.2 then headDone p.1 q c b m else refuseHead p.1 q c m

/-- FMTSEL at the head (R205-R208). -/
def fmtselAt (s : State) (q c b : Nat) (m : QCmd) (mem : HbmOutcome) : State :=
  match opOf m.word with
  | .fmtsel l t wm1 decks cand mx margin thresh =>
    let g := (berthOf s b).cfg
    if cand % 256 = 0 ∨ g.nl ≤ l ∨ (List.range 16).any (fun k => bit decks k && !bit g.decks.toNat k) then
      shapeFail s 0x09 q c b m (if c < 16 then some (ctxDeck q c) else none)
    else if !stepRoom s (ctxPool q c) then s
    else
      let addrs := (List.range (wm1 + 1)).flatMap (fun i =>
        ((List.range 16).filter (bit decks)).map (fun k => g.sndLog + ((l * 16 + (t + 16 - i) % 16) * 16 + k) * 128))
      let p := readRecords (ctxRequester s q c b 0) b mem addrs s
      match p.2 with
      | none => refuseHead p.1 q c m
      | some all =>
        fmtselEnd p.1 q c b m l mem.late
          (fmtChoose (all.filter (fun r => bit (leAt r 0x18 4) 31 && bits (leAt r 0x18 4) 11 0 == l)) cand margin thresh mx)
  | _ => s

/-- FMTSEL: after every earlier command of its queue has completed. `mem` says what becomes of the records that it reads and the entry that it
writes. -/
def execFmtsel (q : Fin 4) (c : Fin 18) (mem : HbmOutcome) (s : State) : Answer :=
  .next (match headOp s q c 0x15 with
    | some p => if queueBusy s q c then s else fmtselAt s q c p.1 p.2 mem
    | none => s)

end Sys2Proof.Machine
end

