-- ==== Sys2Proof/Machine/Gather.lean ====
section
/-! DEFINITION. The gather engine: GATHER, SCATTER, PREFETCH and recall (R231, R306, R307, R353-R372). -/

namespace Sys2Proof.Machine

/-! ### The descriptor (R353-R355) -/

/-- The fields of a gather descriptor (R354). -/
structure GDesc where
  tbl : Nat
  cont : Nat
  idx : Nat
  tblStride : Int
  contStride : Int
  nrows : Nat
  first : Nat
  inHbm : Bool
  nullz : Bool
  wpair : Bool
  add : Bool
  elem : Nat
  len : Nat
deriving DecidableEq, Repr

/-- The fields of 64 descriptor bytes. -/
def gdesc (d : List Byte) : GDesc :=
  let ctl := leAt d 0x28 4
  { tbl := bits (leAt d 0 8) 47 0, cont := bits (leAt d 8 8) 47 0, idx := bits (leAt d 0x10 8) 47 0,
    tblStride := signed 32 (leAt d 0x18 4), contStride := signed 32 (leAt d 0x1C 4), nrows := leAt d 0x20 4,
    first := bits (leAt d 0x24 4) 19 0, inHbm := bit ctl 21, nullz := bit ctl 20, wpair := bit ctl 19, add := bit ctl 18,
    elem := bits ctl 17 16, len := 32 * bits ctl 15 0 }

/-- How many list elements a command of `count` positions uses (R357). -/
def listLen (g : GDesc) (count : Nat) : Nat := if g.wpair then 2 * count else count

/-- Whether a descriptor fails R355; `kind` is 0 GATHER, 1 SCATTER, 2 PREFETCH. -/
def gdescBad (d : List Byte) (kind count elements : Nat) : Bool :=
  let g := gdesc d
  leAt d 6 2 != 0 || leAt d 0xE 2 != 0 || leAt d 0x16 2 != 0 || bits (leAt d 0x24 4) 31 20 != 0 ||
  bits (leAt d 0x28 4) 31 22 != 0 || leAt d 0x2C 20 != 0 || g.elem == 3 ||
  g.len == 0 || g.nrows == 0 ||
  g.tbl % 32 != 0 || g.cont % 32 != 0 || g.tblStride % 32 != 0 || g.contStride % 32 != 0 || g.idx % 4 != 0 ||
  (g.elem == 0 && (g.wpair || g.add)) || (g.add && kind != 1) || (g.inHbm && kind == 2) ||
  (kind == 1 && decide (g.tblStride.natAbs < g.len)) ||
  (!g.inHbm && count != 0 && decide (elements < g.first + listLen g count))

/-! ### Starting (R306, R307, R353) -/

/-- Whether the gather engine may start another command: the previous ones have issued their last requests (R306).
(DEDUCED, log entry 30.) -/
def gatherRoom (s : State) (q : Nat) : Bool :=
  (s.runs.filter (fun r => r.q == q && r.c == 16)).all (fun r => r.gather.stopped || r.gather.count ≤ r.gather.next) &&
  (quayOf s q).threads.all (fun e => e.2.phase == 2 && e.2.todo.isEmpty)

/-- An index-form command starts (R306, R353-R356): the read of its descriptor is a transaction of class 0. (DEDUCED, log entries 23, 30.) -/
def gatherAt (s : State) (q b : Nat) (m : QCmd) (mem : HbmOutcome) : State :=
  match opOf m.word with
  | .gatherIndex kind _ ld ir count desc =>
    let d := 4 * q + ld
    let t := tileOf s d ir
    if t.role != .stash then shapeFail s 0x09 q 16 b m (some d)
    else
      let p := stepRead s (ctxRequester s q 16 b 0) b (desc * 64) 64 mem
      match p.2 with
      | none => refuseHead p.1 q 16 m
      | some bytes =>
        if gdescBad bytes kind count (tileRows t * t.cols) then refuseHead (raiseBerth s 2 q 0x26 b (desc * 64)) q 16 m
        else if !(gdesc bytes).inHbm && (t.fmt != 0 || t.mx) then shapeFail s 0x09 q 16 b m (some d)
        else if count = 0 then headDone s q 16 b m
        else
          let r := startRun s q 16 b m [d]
          match runOf r.1 r.2 with
          | some x => setRun r.1 { x with gather := { desc := bytes, count := count } }
          | none => r.1
  | _ => s

/-- An index-form command of the given opcode at the head of the gather queue starts, once its engine and the gather allotment have room (R306,
R338). -/
def gatherStart (s : State) (q op : Nat) (mem : HbmOutcome) : State :=
  match headOp s q 16 op with
  | some p => if gatherRoom s q && stepRoom s [16 + q] then gatherAt s q p.1 p.2 mem else s
  | none => s

/-- GATHER in index form; `mem` says what becomes of the read of its descriptor. -/
def execGather (q : Fin 4) (mem : HbmOutcome) (s : State) : Answer := .next (gatherStart s q.val 0x20 mem)

/-- SCATTER. -/
def execScatter (q : Fin 4) (mem : HbmOutcome) (s : State) : Answer := .next (gatherStart s q.val 0x21 mem)

/-- PREFETCH. -/
def execPrefetch (q : Fin 4) (mem : HbmOutcome) (s : State) : Answer := .next (gatherStart s q.val 0x22 mem)

/-- A recall starts (R307): its pages are taken in ascending order, 32 pieces each (R369). -/
def recallAt (s : State) (q b : Nat) (m : QCmd) : State :=
  match opOf m.word with
  | .gatherRecall _ first count =>
    if (berthOf s b).cfg.holdPages < first + count then refuseHead (raiseHoldRange s q 16 b) q 16 m
    else
      let r := startRun s q 16 b m []
      match runOf r.1 r.2 with
      | some x => setRun r.1 { x with gather := { pages := (List.range count).map (fun i => first + i), count := 32 * count } }
      | none => r.1
  | _ => s

/-- GATHER in recall form. -/
def execGatherRecall (q : Fin 4) (s : State) : Answer :=
  .next (match headOp s q.val 16 0x20 with
    | some p => if gatherRoom s q.val then recallAt s q.val p.1 p.2 else s
    | none => s)

/-! ### Positions (R356-R363) -/

/-- A run stops dispatching, and will not count as done. (DEDUCED, log entry 30.) -/
def stopGather (s : State) (id : Nat) : State :=
  match runOf s id with
  | some r => setRun s { r with failed := true, gather := { r.gather with stopped := true } }
  | none => s

/-- A part of an index list that the prefetch store does not hold is read, as a transaction of class 1 (R356, R362), and joins what is at
hand. -/
def listRead (r : Run) (mem : HbmOutcome) (p : State × Option (List Host.Cell)) (e : Nat × Nat) : State × Option (List Host.Cell) :=
  match p.2 with
  | none => p
  | some l =>
    let y := stepRead p.1 (ctxRequester p.1 r.q r.c r.berth 1) r.berth e.1 e.2 mem
    (y.1, y.2.map (fun bs => bs.zipIdx.map (fun v => (e.1 + v.2, v.1)) ++ l))

/-- Bytes [a, a + n) of an index list in HBM: after the window check the prefetch store is looked up, and what it does not hold is read
(R329, R349, R356). (DEDUCED, log entries 23, 30.) -/
def listBytes (s : State) (r : Run) (a n : Nat) (mem : HbmOutcome) : State × Option (List Byte) :=
  match outside s r.berth a n with
  | some x => (raiseBerth s 2 r.q 0x33 r.berth x, none)
  | none =>
    let p := lookupLines s (quayOf s r.q).lines (transOf a n)
    let y := p.2.1.foldl (listRead r mem) (setQuay s r.q { quayOf s r.q with lines := p.2.2 }, some p.1)
    (y.1, y.2.map (fun l => (List.range n).map (fun i => tget 0 l (a + i))))

/-- List elements [e, e + n) of a run, read from the index register or from HBM (R356, R357). (DEDUCED, log entries 23, 30.) -/
def listWords (s : State) (r : Run) (g : GDesc) (e n : Nat) (ecc : Ecc) (mem : HbmOutcome) : State × Option (List Nat) :=
  if g.inHbm then
    let p := listBytes s r (g.idx + 4 * e) (4 * n) mem
    (p.1, p.2.map (fun bs => (List.range n).map (fun i => leAt bs (4 * i) 4)))
  else
    match opOf r.cmd.word with
    | .gatherIndex _ _ ld ir _ _ =>
      let d := 4 * r.q + ld
      let t := tileOf s d ir
      let f := bufEcc s d ecc
      if f.2 then
        (f.1, some ((List.range n).map (fun i => tileCode (bufOf s d (boundHalf s r d ir)) t ((e + i) / t.cols) ((e + i) % t.cols))))
      else (f.1, none)
    | _ => (s, none)

/-- A row address (R359), none outside the 48-bit space. -/
def rowAddress (base : Nat) (stride : Int) (x : Nat) : Int := (base : Int) + (x : Int) * stride

/-- The first failing address of a row (R330, R359). (DEDUCED, log entry 30.) -/
def rowFails (s : State) (b : Nat) (a : Int) (len : Nat) : Option Nat :=
  if a < 0 ∨ (2 ^ 48 : Int) < a + (len : Int) then some ((a % 2 ^ 48).toNat) else outside s b a.toNat len

/-- The opcode's kind: 0 GATHER, 1 SCATTER, 2 PREFETCH. -/
def gatherKind (r : Run) : Nat := opcodeOf r.cmd.word - 0x20

/-- The result element of a position (R361). -/
def gatherElem (elem : Nat) (add : Bool) (w : Word) (d v : Nat) : Nat :=
  let one (x : Nat) : FV := if elem = 1 then f32 (BitVec.ofNat 32 x) else floatVal bf16 x
  let p := FV.mul (f32 w) (one v)
  let r := rne32 (if add then FV.add (one d) p else p)
  if elem = 1 then r.toNat else (rneBf (f32 r)).toNat

/-- The bytes of a row at an address, from the bytes that a thread has. -/
def gotRow (t : Thread) (a len : Nat) : List Byte := (List.range len).map (fun i => tget 0 t.got (a + i))

/-- The bytes that a position writes (R360, R361). -/
def positionBytes (g : GDesc) (kind : Nat) (t : Thread) : List Byte :=
  if kind = 0 && t.index == 0xFFFFFFFF then List.replicate g.len 0
  else
    let src := gotRow t (if kind = 0 then t.row else t.cont) g.len
    let dst := if g.add then gotRow t t.row g.len else []
    if g.elem = 0 then src
    else
      let w := if g.elem = 1 then 4 else 2
      (List.range (g.len / w)).flatMap (fun i => natLe w (gatherElem g.elem g.add t.weight (leAt dst (w * i) w) (leAt src (w * i) w)))

/-- The reads of a position, the prefetch store looked up for table rows (R360, R363): bytes at hand, reads to issue, and the
store's lines. -/
def positionReads (s : State) (q : Nat) (g : GDesc) (kind : Nat) (t : Thread) : List Host.Cell × List Req × List Nat :=
  let pool := [16 + q]
  let rd (l : List (Nat × Nat)) : List Req :=
    l.map (fun e => { addr := e.1, len := e.2, write := false, data := [], cls := 1, pool := pool })
  let lines := (quayOf s q).lines
  if t.index = 0xFFFFFFFF then ([], [], lines)
  else if kind = 0 then
    let p := lookupLines s lines (transOf t.row g.len)
    (p.1, rd p.2.1, p.2.2)
  else if g.add then
    let p := lookupLines s lines (transOf t.row g.len)
    (p.1, rd p.2.1 ++ rd (transOf t.cont g.len), p.2.2)
  else ([], rd (transOf t.cont g.len), lines)

/-- The lines that a table row touches. -/
def rowLines (a len : Nat) : List Nat := (List.range ((a + len - 1) / 2048 + 1 - a / 2048)).map (fun i => (a / 2048 + i) * 2048)

/-- The free order in which positions of SCATTERs that name one row are applied (R368). (DEDUCED, log entry 29.) -/
def scatterKey (q : Nat) (t : Thread) : Nat := Config.orderKey (2 ^ 64 + q) (t.run * 2 ^ 20 + t.pos)

/-- Whether a thread of a SCATTER may begin its accesses: no other position of a SCATTER of the engine that names its row has
begun, and none that waits comes before it (R368). (DEDUCED, log entry 29.) -/
def scatterMay (s : State) (q n : Nat) (t : Thread) : Bool :=
  (quayOf s q).threads.all (fun e =>
    let u := e.2
    e.1 == n || !(u.scatter && extentsMeet t.row t.len u.row u.len) ||
      (u.phase == 0 && (decide (scatterKey q t < scatterKey q u) || (scatterKey q t == scatterKey q u && decide (n < e.1)))))

/-! ### Thread actions (R364-R366) -/

/-- A thread replaced. -/
def setThread (s : State) (q n : Nat) (t : Thread) : State :=
  let x := quayOf s q
  setQuay s q { x with threads := tput x.threads n t }

/-- A thread becomes free. -/
def freeThread (s : State) (q n : Nat) : State :=
  let x := quayOf s q
  setQuay s q { x with threads := tdel x.threads n }

/-- The requests that a thread still has to issue, those of a row that another write has met marked with it (R368). -/
def threadTodo (t : Thread) : List Req :=
  if t.spoiled then t.todo.map (fun e => if e.row.isSome then { e with spoil := [(t.row, t.len)] } else e) else t.todo

/-- A thread issues what the gather allotment admits, in address order (R366). Fills join the quay's fills on their way. -/
def threadIssue (s : State) (q n : Nat) (r : Run) (t : Thread) : State :=
  let p := issueFrom s r.id q (sourceId 2 q 0) (some r.berth) r.task (threadTodo t)
  let ids := (List.range (p.1.nextId - s.nextId)).map (fun i => s.nextId + i)
  if gatherKind r = 2 then
    let fresh := (t.todo.zip ids).map (fun e => (e.1.addr, false, e.2))
    let x := quayOf p.1 q
    let s1 := setQuay p.1 q { x with fills := x.fills ++ fresh }
    if p.2.isEmpty then freeThread s1 q n else setThread s1 q n { t with todo := p.2 }
  else setThread p.1 q n { t with todo := p.2, waiting := t.waiting ++ ids }

/-- A thread begins the accesses of its position: its reads, its fills, or at once its writes. -/
def threadBegin (s : State) (q n : Nat) (r : Run) (t : Thread) : State :=
  let g := gdesc r.gather.desc
  let kind := gatherKind r
  if kind = 2 then
    let ls := rowLines t.row g.len
    let x := quayOf s q
    let here := ls.filter (fun l => x.lines.contains l)
    let s1 := setQuay s q { x with lines := here.foldl touchLine x.lines }
    let todo : List Req := (ls.filter (fun l => !x.lines.contains l)).map (fun l =>
      { addr := l, len := 2048, write := false, data := [], cls := 5, pool := [16 + q] })
    threadIssue s1 q n r { t with phase := 1, todo := todo }
  else
    let p := positionReads s q g kind t
    let x := quayOf s q
    let s1 := setQuay s q { x with lines := p.2.2 }
    threadIssue s1 q n r { t with phase := 1, got := p.1.foldl (fun a c => tput a c.1 c.2) t.got, todo := p.2.1 }

/-- A thread writes the result of its position; a SCATTER's writes name the table row that they belong to (R368). -/
def threadWrite (s : State) (q n : Nat) (r : Run) (t : Thread) : State :=
  let g := gdesc r.gather.desc
  let a := if gatherKind r = 0 then t.cont else t.row
  let todo := writeReqs 4 [16 + q] a (positionBytes g (gatherKind r) t)
  threadIssue s q n r { t with phase := 2, todo := if t.scatter then todo.map (fun e => { e with row := some (t.row, t.len) }) else todo }

/-- Whether a position has an effect: a non-null index, or a GATHER that zeroes (R360). -/
def positionActs (g : GDesc) (kind x : Nat) : Bool := x != 0xFFFFFFFF || (kind == 0 && g.nullz)

/-- The extents that a position accesses, in the order of its accesses. -/
def positionRows (g : GDesc) (kind x i : Nat) : List (Int × Nat) :=
  let row := (rowAddress g.tbl g.tblStride x, g.len)
  let cont := (rowAddress g.cont g.contStride i, g.len)
  if x = 0xFFFFFFFF then [cont]
  else if kind = 0 then [row, cont]
  else if kind = 1 then [cont, row]
  else [row]

/-- A free thread takes the next position of a run (R357-R360). (DEDUCED, log entry 30.) -/
def takePosition (s : State) (q n : Nat) (r : Run) (ecc : Ecc) (mem : HbmOutcome) : State :=
  let g := gdesc r.gather.desc
  let i := r.gather.next
  let kind := gatherKind r
  let k := if g.wpair then 2 else 1
  let p := listWords s r g (g.first + k * i) k ecc mem
  match p.2 with
  | none => stopGather p.1 r.id
  | some ws =>
    let x := nth 0 ws 0
    let w : Word := if g.wpair then BitVec.ofNat 32 (nth 0 ws 1) else 0x3F800000
    if x ≠ 0xFFFFFFFF ∧ g.nrows ≤ x then stopGather (raiseBerth p.1 2 q 0x27 r.berth (i + x * 2 ^ 32)) r.id
    else
      let s1 := setRun p.1 { r with gather := { r.gather with next := i + 1 } }
      if !positionActs g kind x then s1
      else
        match (positionRows g kind x i).filterMap (fun e => rowFails s1 r.berth e.1 e.2) with
        | a :: _ => stopGather (raiseBerth s1 2 q 0x33 r.berth a) r.id
        | [] =>
          setThread s1 q n
            { run := r.id, pos := i, index := x, weight := w, row := if x = 0xFFFFFFFF then 0 else (rowAddress g.tbl g.tblStride x).toNat,
              cont := if kind = 2 then 0 else (rowAddress g.cont g.contStride i).toNat, len := g.len, scatter := kind == 1 }

/-- A page of a recall takes the lowest free frame below the high-water mark when its first piece is dispatched; a page that is
not spilled, that another recall is bringing back, or that finds no frame, is passed over (R231, R369). The second part says whether it has
one. (DEDUCED, log entry 31.) -/
def takePage (s : State) (r : Run) (p : Nat) : State × Bool :=
  let h := (berthOf s r.berth).hold
  if thas h.recalling p then (s, false)
  else
    match pageState s r.berth p, frameFor s r.berth with
    | .spilled _, some f =>
      (setRun (setHold s r.berth { h with recalling := tput h.recalling p f })
        { r with gather := { r.gather with taken := p :: r.gather.taken } }, true)
    | _, _ => (s, false)

/-- A piece of a page that a recall has taken a frame for is dispatched: an RDMA READ of 64 KiB over TGT_CONN, or HOLD_REMOTE where the
connection cannot carry it (R222, R369). (DEDUCED, log entry 31.) -/
def askPiece (s : State) (q n id p : Nat) : State :=
  match runOf s id with
  | none => s
  | some r =>
    let i := r.gather.next
    let g := (berthOf s r.berth).cfg
    match pageState s r.berth p, g.tgtConn with
    | .spilled t, some c =>
      if connUsable s c then
        let s1 := setRun s { r with gather := { r.gather with next := i + 1 } }
        let a := g.tgtBase + pageSize * t + i % 32 * 65536
        setThread (request s1 c (.recall id p) (packetsOf 65536) (.read a 65536)) q n
          { run := id, pos := i, index := 0, weight := 0, phase := 1, page := some (p, i % 32) }
      else failRecall s id p
    | _, _ => failRecall s id p

/-- A free thread takes the next piece of a recall (R369). -/
def takePiece (s : State) (q n : Nat) (r : Run) : State :=
  let i := r.gather.next
  let p := nth 0 r.gather.pages (i / 32)
  let first := if i % 32 = 0 then takePage s r p else (s, true)
  if first.2 then askPiece first.1 q n r.id p
  else setRun s { r with gather := { r.gather with next := (i / 32 + 1) * 32 } }

/-- A page whose pieces have all been written turns from spilled to resident (R369). -/
def pageDone (s : State) (r : Run) (p f : Nat) : State :=
  let s1 := makeResident s r.berth p f
  let h := (berthOf s1 r.berth).hold
  setRun (setHold s1 r.berth { h with recalling := tdel h.recalling p })
    { r with gather := { r.gather with taken := r.gather.taken.filter (fun k => k != p) } }

/-- A piece has been written to the frame of its page; the last of 32 makes the page resident (R369). -/
def pieceWritten (s : State) (r : Run) (p k : Nat) : State :=
  let r1 := { r with gather := { r.gather with pieces := (p, k) :: r.gather.pieces } }
  if (r1.gather.pieces.filter (fun e => e.1 == p)).length = 32
  then pageDone s r1 p (tget 0 (berthOf s r.berth).hold.recalling p) else setRun s r1

/-- The run of a quay whose positions are being dispatched (R364). -/
def dispatching (s : State) (q : Nat) : Option Run :=
  s.runs.find? (fun r => r.q == q && r.c == 16 && !r.gather.stopped && decide (r.gather.next < r.gather.count))

/-- Whether a thread can act: it has not begun and may, it has requests to issue and an entry is free, or all that it waits for has come;
a piece of a recall waits until the target has returned it (R365, R369). -/
def threadReady (s : State) (q n : Nat) (t : Thread) : Bool :=
  match runOf s t.run with
  | none => false
  | some _ =>
    if t.page.isSome && t.phase != 2 then false
    else if t.phase = 0 then !t.scatter || scatterMay s q n t
    else if !t.todo.isEmpty then allotOpen s (16 + q)
    else t.waiting.isEmpty

/-- The action of a thread that carries a position, or a piece of a recall (R365, R369). -/
def threadAct (s : State) (q n : Nat) (t : Thread) : State :=
  match runOf s t.run with
  | none => freeThread s q n
  | some r =>
    if t.phase = 0 then threadBegin s q n r t
    else if !t.todo.isEmpty then threadIssue s q n r t
    else if t.phase = 1 then threadWrite s q n r t
    else
      match t.page with
      | some p => pieceWritten (freeThread s q n) r p.1 p.2
      | none => freeThread s q n

/-- Whether a position of a run can be dispatched: an index list in HBM needs an entry of the gather allotment for its read (R338, R366). -/
def mayDispatch (s : State) (q : Nat) (r : Run) : Bool :=
  !r.gather.pages.isEmpty || !(gdesc r.gather.desc).inHbm || stepRoom s [16 + q]

/-- The next thread in round-robin order that can act (R365): a free thread where a position is to be dispatched, or a thread that
is ready. -/
def nextReady (s : State) (q : Nat) : Option Nat :=
  let x := quayOf s q
  ((List.range 128).map (fun i => (x.nextThread + i) % 128)).find? (fun n =>
    if thas x.threads n then threadReady s q n (tget { run := 0, pos := 0, index := 0, weight := 0 } x.threads n)
    else (dispatching s q).any (mayDispatch s q))

/-- GATHER_THREAD_ACTION: the next ready thread acts (R364-R366). (DEDUCED, log entry 30.) -/
def threadAction (s : State) (q : Nat) (ecc : Ecc) (mem : HbmOutcome) : State :=
  match nextReady s q with
  | none => s
  | some n =>
    let s1 := setQuay s q { quayOf s q with nextThread := (n + 1) % 128 }
    if thas (quayOf s q).threads n then
      threadAct s1 q n (tget { run := 0, pos := 0, index := 0, weight := 0 } (quayOf s q).threads n)
    else
      match dispatching s q with
      | some r => if r.gather.pages.isEmpty then takePosition s1 q n r ecc mem else takePiece s1 q n r
      | none => s

/-- Whether the task of the gather queue of a quay still moves (R272, R371). -/
def gatherMoves (s : State) (q : Nat) : Bool :=
  match (ctxOf s q 16).berth with
  | some b => taskMoves s b
  | none => false

/-- GATHER_THREAD_ACTION; `ecc` and `mem` say what becomes of the read of an index list. -/
def execGatherThreadAction (q : Fin 4) (ecc : Ecc) (mem : HbmOutcome) (s : State) : Answer :=
  .next (if gatherMoves s q.val then threadAction s q.val ecc mem else s)

/-- Whether a gather run has nothing left (R307, R367): every position dispatched, no thread, no transaction or fill.
(DEDUCED, log entry 30.) -/
def gatherDone (s : State) (r : Run) : Bool :=
  (r.gather.stopped || decide (r.gather.count ≤ r.gather.next)) && !runBusy s r.id &&
  !(quayOf s r.q).threads.any (fun e => e.2.run == r.id)

/-- GATHER_COMPLETE. -/
def gatherComplete (s : State) (q run : Nat) : State :=
  match runOf s run with
  | some r =>
    if r.q == q && r.c == 16 && gatherMoves s q && gatherDone s r then (if r.failed then failRun (stopRecall s run) run else runDone s r) else s
  | none => s

/-- GATHER_COMPLETE. -/
def execGatherComplete (q : Fin 4) (run : Nat) (s : State) : Answer := .next (gatherComplete s q.val run)

/-! ### Recall (R369, R370) -/

/-- The acknowledged read of a recall leaves its connection's requests. -/
def ackRecall (s : State) (b run p : Nat) : State :=
  match (berthOf s b).cfg.tgtConn with
  | some n =>
    setReqs s n (dropFirst (fun x => x.kind == .recall run p) (connOf s n).reqs)
  | none => s

/-- A piece arrives: its thread writes it into the frame with transactions of class 4 that draw on the gather allotment, unless the recall
of its page has been abandoned (R369, R370). (DEDUCED, log entry 31.) -/
def pieceDone (s : State) (q n : Nat) (r : Run) (t : Thread) (p k : Nat) (data : List Byte) : State :=
  let s1 := ackRecall s r.berth r.id p
  if t.spoiled then freeThread s1 q n
  else
    let x := berthOf s1 r.berth
    setThread s1 q n { t with phase := 2, todo := writeReqs 4 [16 + q] (frameAddr x.cfg (tget 0 x.hold.recalling p) + k * 65536) data }

/-- RECALL_PIECE_DONE: the target has returned a piece. (DEDUCED, log entry 31.) -/
def recallPiece (s : State) (q run p k : Nat) (data : List Byte) : State :=
  match runOf s run, (quayOf s q).threads.find? (fun e => e.2.run == run && e.2.page == some (p, k)) with
  | some r, some e =>
    if gatherMoves s q && e.2.phase == 1 && decide (data.length = 65536) && (match (berthOf s r.berth).cfg.tgtConn with
      | some c => connUsable s c
      | none => false) then pieceDone s q e.1 r e.2 p k data else s
  | _, _ => s

/-- RECALL_PIECE_DONE. -/
def execRecallPieceDone (q : Fin 4) (run page piece : Nat) (data : List Byte) (s : State) : Answer :=
  .next (recallPiece s q.val run page piece data)

end Sys2Proof.Machine
end

