-- ==== Sys2Proof/Machine/Sailing.lean ====
section
/-! DEFINITION. The sailings of a port: bound segments and pieces, late ones, gaps, and transit sailings (R436-R442, R470). -/

namespace Sys2Proof.Machine

/-- The connection that a run of the collective engine sends on. -/
def runConn (s : State) (r : Run) : Nat := if opcodeOf r.cmd.word = 0x2A then (runXfer r).conn else (runGroup s r).next

/-- The sailing of the next segment or piece of a run that is bound to one. -/
def runSailing (r : Run) : Option Nat := r.coll.sails[r.coll.next]?

/-- The first command, in the order in which they started, that has still to send in a sailing of a connection (R437). -/
def boundRun (s : State) (n : Nat) : Option Run :=
  s.runs.find? (fun r => (isColl r || opcodeOf r.cmd.word == 0x2A) && !r.failed && (runSailing r).isSome && runConn s r == n)

/-- Whether the next segment or piece of a run is ready. -/
def itemReady (s : State) (r : Run) : Bool :=
  taskMoves s r.berth && connUsable s (runConn s r) &&
  (if opcodeOf r.cmd.word = 0x2A then xferReady s r r.coll.next
   else match (runSends s r)[r.coll.next]? with
     | some g => (readyPieces s r g).isSome
     | none => false)

/-- The packets of the next segment or piece of a run (R431). -/
def itemPackets (s : State) (r : Run) : Nat :=
  if opcodeOf r.cmd.word = 0x2A then packetsOf (xferPiece s r r.coll.next).2
  else match (runSends s r)[r.coll.next]? with
    | some g =>
      let thin := (runReduce r).thin && g.phase == 0 && g.step == 1 && !r.coll.chained
      packetsOf (32 + (if thin then 36 * cdiv g.elems 256 else 4 * g.elems))
    | none => 0

/-- Whether now is no later than the latest start, in sailing `k`, of so many packets (R438). (DEDUCED, log entry 34.) -/
def inTime (s : State) (k packets : Nat) : Bool :=
  decide (((s.time.tide : Int) - sailStart s k) * 100 + (packets * 4222 : Nat) ≤ ((sailingNs s : Int) - 150) * 100)

/-- A late segment is counted as it is sent (R439, R442). (DEDUCED, log entry 34.) -/
def countLate (s : State) (p : Nat) : State :=
  let x := portOf s p
  setPort s p { x with sailLate := satInc x.sailLate 1, lateSince := x.lateSince + 1 }

/-- The next segment or piece of a run leaves port `p`. -/
def sendItem (s : State) (p : Nat) (r : Run) (late sched : Bool) : State :=
  let s1 :=
    if opcodeOf r.cmd.word = 0x2A then sendXfer s r sched
    else match (runSends s r)[r.coll.next]? with
      | some g => sendSeg s r.id g ((readyPieces s r g).getD []) late sched
      | none => s
  pumpRun (if late then countLate s1 p else s1) r.id

/-- Late items of a connection leave in a gap in sailing `k`, in their order, once they are ready. -/
def gapConn (p k n : Nat) : Nat → State → State
  | 0, s => s
  | fuel + 1, s =>
    match boundRun s n with
    | some r =>
      let b := (runSailing r).getD 0
      if (decide (b < k) || (b == k && !inTime s k (itemPackets s r))) && itemReady s r then
        gapConn p k n fuel (sendItem s p r true false)
      else s
    | none => s

/-- The connections of logical port `l` on which something bound to sailings is still to be sent. -/
def boundConns (s : State) (l : Nat) : List Nat :=
  ((s.runs.filter (fun r => (isColl r || opcodeOf r.cmd.word == 0x2A) && (runSailing r).isSome)).map (runConn s)).eraseDups.filter
    (fun n => (connOf s n).lport == l)

/-- An unscheduled gap (R440): transit frames that no sailing took and late items leave. (DEDUCED, log entry 34.) -/
def gap (s : State) (p k : Nat) : State :=
  (boundConns s (lportOf s p)).foldl
    (fun t n => gapConn p k n (t.runs.foldl (fun a r => a + r.coll.sails.length) 0) t) (flushTransit s p)

/-- Sailing `k` of a port is used. -/
def useSailing (s : State) (p k : Nat) : State := setPort s p { portOf s p with sailed := some k }

/-- A local sailing (R438, R439): the item due in it, or a late one before it, leaves if it is ready in time.
(DEDUCED, log entry 34.) -/
def localSailing (s : State) (p k n : Nat) : State :=
  match boundRun s n with
  | none => gap s p k
  | some r =>
    let b := (runSailing r).getD 0
    if k < b then gap s p k
    else if inTime s k (itemPackets s r) then
      (if itemReady s r then sendItem (useSailing s p k) p r (decide (b < k)) true else s)
    else gap s p k

/-- The transit frames of a list that leave in a sailing: those that had arrived 300 ns before it, while their line time fits
(R470); the others stay. (DEDUCED, log entry 34.) -/
def fitFrames (start : Int) (budget : Int) : List Transit → List Transit × List Transit
  | [] => ([], [])
  | f :: r =>
    let need : Int := ((f.frame.bytes.length + 20 : Nat) : Int)
    if (f.at_ : Int) + 300 ≤ start ∧ need ≤ budget then
      let x := fitFrames start (budget - need) r
      (f :: x.1, x.2)
    else ([], f :: r)

/-- A transit sailing: it serves only the port of the opposite role; another is a gap (R470). (DEDUCED, log entry 34.) -/
def transitSailing (s : State) (p k inPort : Nat) : State :=
  let role := roleOn s (lportOf s p)
  if role = 0 ∨ 6 < role ∨ roleOn s inPort ≠ oppositeRole role then gap s p k
  else
    let x := portOf s p
    let f := fitFrames (sailStart s k) (((sailingNs s : Int) - 150) * 100) x.transit
    f.1.foldl (fun t y => sendTransit t p y) (setPort s p { x with transit := f.2, sailed := some k })

/-- SAILING_BOUNDARY on a port: what its timetable gives the sailing in progress. -/
def sailingBoundary (s : State) (p : Nat) : State :=
  let x := portOf s p
  if !scheduled s || !(x.state == .up || x.state == .remapped) || splitOf s p != 0 then s
  else
    let k := sailAt s s.time.tide
    let e := sailEntry s (lportOf s p) k
    if bits e 63 62 = 1 then
      (if x.sailed = some k then gap s p k else localSailing s p k (bits e 39 27))
    else if bits e 63 62 = 2 then
      (if x.sailed = some k then s else transitSailing s p k (bits e 61 59))
    else gap s p k

/-- SAILING_BOUNDARY. -/
def execSailingBoundary (p : Fin 8) (s : State) : Answer := .next (sailingBoundary s p.val)

/-- SAILING_LATE (R439): at most once per millisecond, with the late segments since the previous record. -/
def sailingLate (s : State) (p : Nat) : State :=
  let x := portOf s p
  let may := match x.lateAt with
    | some a => decide (a + 1000000 ≤ s.time.mono)
    | none => true
  if x.lateSince != 0 && may then
    raiseChip (setPort s p { x with lateSince := 0, lateAt := some s.time.mono }) (8 + p) 0x47 x.lateSince
  else s

/-- SAILING_LATE. -/
def execSailingLate (p : Fin 8) (s : State) : Answer := .next (sailingLate s p.val)

end Sys2Proof.Machine
end

