-- ==== Sys2Proof/Machine/Dispatch.lean ====
section
/-! DEFINITION. What each command does: one arm per row of the table. -/

namespace Sys2Proof.Machine

/-- The effect of a command on everything but the queue. -/
def exec (i : Instr) (s : State) : Host.Outcome State Fault Refusal :=
  match i with
  | .cmdFetchIssue q c ecc => Sys2Proof.Machine.execCmdFetchIssue q c ecc s
  | .fetchWaitEnter q c => Sys2Proof.Machine.execFetchWaitEnter q c s
  | .nop q c => Sys2Proof.Machine.execNop q c s
  | .cinit q c => Sys2Proof.Machine.execCinit q c s
  | .cadd q c => Sys2Proof.Machine.execCadd q c s
  | .ccmp q c => Sys2Proof.Machine.execCcmp q c s
  | .flagset q c => Sys2Proof.Machine.execFlagset q c s
  | .settle q c => Sys2Proof.Machine.execSettle q c s
  | .waitt q c => Sys2Proof.Machine.execWaitt q c s
  | .endCmd q c => Sys2Proof.Machine.execEndCmd q c s
  | .endNotifyHome q c => Sys2Proof.Machine.execEndNotifyHome q c s
  | .tilecfg q c => Sys2Proof.Machine.execTilecfg q c s
  | .stream q c => Sys2Proof.Machine.execStream q c s
  | .load q c => Sys2Proof.Machine.execLoad q c s
  | .loadComplete q c remote mem => Sys2Proof.Machine.execLoadComplete q c remote mem s
  | .store q c ecc => Sys2Proof.Machine.execStore q c ecc s
  | .storeComplete q c => Sys2Proof.Machine.execStoreComplete q c s
  | .holdStallWake b => Sys2Proof.Machine.execHoldStallWake b s
  | .holdStallTimeout b => Sys2Proof.Machine.execHoldStallTimeout b s
  | .swap q c => Sys2Proof.Machine.execSwap q c s
  | .maskset q c => Sys2Proof.Machine.execMaskset q c s
  | .pass q c ecc => Sys2Proof.Machine.execPass q c ecc s
  | .skipReplay q c quad => Sys2Proof.Machine.execSkipReplay q c quad s
  | .passComplete q c quad => Sys2Proof.Machine.execPassComplete q c quad s
  | .saveacc q c parity => Sys2Proof.Machine.execSaveacc q c parity s
  | .saveaccComplete q c => Sys2Proof.Machine.execSaveaccComplete q c s
  | .restacc q c mem => Sys2Proof.Machine.execRestacc q c mem s
  | .drain q c buffer parity mem => Sys2Proof.Machine.execDrain q c buffer parity mem s
  | .drainComplete q c mem => Sys2Proof.Machine.execDrainComplete q c mem s
  | .fmtsel q c mem => Sys2Proof.Machine.execFmtsel q c mem s
  | .gather q mem => Sys2Proof.Machine.execGather q mem s
  | .scatter q mem => Sys2Proof.Machine.execScatter q mem s
  | .prefetch q mem => Sys2Proof.Machine.execPrefetch q mem s
  | .gatherRecall q => Sys2Proof.Machine.execGatherRecall q s
  | .gatherThreadAction q ecc mem => Sys2Proof.Machine.execGatherThreadAction q ecc mem s
  | .gatherComplete q run => Sys2Proof.Machine.execGatherComplete q run s
  | .recallPieceDone q run page piece data => Sys2Proof.Machine.execRecallPieceDone q run page piece data s
  | .reduce q => Sys2Proof.Machine.execReduce q s
  | .reduceComplete q run => Sys2Proof.Machine.execReduceComplete q run s
  | .norm q => Sys2Proof.Machine.execNorm q s
  | .xfer q => Sys2Proof.Machine.execXfer q s
  | .xferComplete q run => Sys2Proof.Machine.execXferComplete q run s
  | .waitTmo q c kind => Sys2Proof.Machine.execWaitTmo q c kind s
  | .segmentReceive pkt payload => Sys2Proof.Machine.execSegmentReceive pkt payload s
  | .segmentAddDone p residueErrors => Sys2Proof.Machine.execSegmentAddDone p residueErrors s
  | .collTmo q run => Sys2Proof.Machine.execCollTmo q run s
  | .sailingBoundary p => Sys2Proof.Machine.execSailingBoundary p s
  | .sailingLate p => Sys2Proof.Machine.execSailingLate p s
  | .ptpMessageSend p sub kind => Sys2Proof.Machine.execPtpMessageSend p sub kind s
  | .ptpMessageReceive p sub msg => Sys2Proof.Machine.execPtpMessageReceive p sub msg s
  | .announceReceiptTimeout => Sys2Proof.Machine.execAnnounceReceiptTimeout s
  | .lockQualify => Sys2Proof.Machine.execLockQualify s
  | .holdoverTimeout => Sys2Proof.Machine.execHoldoverTimeout s
  | .ppsOutPulse => Sys2Proof.Machine.execPpsOutPulse s
  | .ppsInEdge highNs => Sys2Proof.Machine.execPpsInEdge highNs s
  | .ttTblLoadGo => Sys2Proof.Machine.execTtTblLoadGo s
  | .ttTblLoadDone mem => Sys2Proof.Machine.execTtTblLoadDone mem s
  | .ttTblActivate => Sys2Proof.Machine.execTtTblActivate s
  | .portBringupStep p sub outcome => Sys2Proof.Machine.execPortBringupStep p sub outcome s
  | .linkDown p sub cause => Sys2Proof.Machine.execLinkDown p sub cause s
  | .fecLimitWindow p sub corrected uncorrectable => Sys2Proof.Machine.execFecLimitWindow p sub corrected uncorrectable s
  | .landingCardSend p sub => Sys2Proof.Machine.execLandingCardSend p sub s
  | .landingCardReceive p sub company subtype info ttlSeconds mac => Sys2Proof.Machine.execLandingCardReceive p sub company subtype info ttlSeconds mac s
  | .landingCardTtlExpire p sub => Sys2Proof.Machine.execLandingCardTtlExpire p sub s
  | .cardAwaitTimeout p => Sys2Proof.Machine.execCardAwaitTimeout p s
  | .neighborSolicitation p sub frame => Sys2Proof.Machine.execNeighborSolicitation p sub frame s
  | .pfcFrameReceive p priority xoff => Sys2Proof.Machine.execPfcFrameReceive p priority xoff s
  | .pfcWatchdogExpire p priority => Sys2Proof.Machine.execPfcWatchdogExpire p priority s
  | .pfcWatchdogRearm p priority => Sys2Proof.Machine.execPfcWatchdogRearm p priority s
  | .inboundRdmaWrite pkt addr data mem => Sys2Proof.Machine.execInboundRdmaWrite pkt addr data mem s
  | .inboundRdmaRead pkt addr len mem => Sys2Proof.Machine.execInboundRdmaRead pkt addr len mem s
  | .inboundWriteImm pkt addr data imm mem => Sys2Proof.Machine.execInboundWriteImm pkt addr data imm mem s
  | .inboundSend pkt data => Sys2Proof.Machine.execInboundSend pkt data s
  | .cmdMemWrite pkt addr data => Sys2Proof.Machine.execCmdMemWrite pkt addr data s
  | .cmdHalfArm pkt addr data => Sys2Proof.Machine.execCmdHalfArm pkt addr data s
  | .cmdMemRead pkt addr len => Sys2Proof.Machine.execCmdMemRead pkt addr len s
  | .nakReceive conn kind acked rnrNs => Sys2Proof.Machine.execNakReceive conn kind acked rnrNs s
  | .retransmitTimeout conn acked => Sys2Proof.Machine.execRetransmitTimeout conn acked s
  | .rnrRetry conn => Sys2Proof.Machine.execRnrRetry conn s
  | .cnpReceive conn scheduled => Sys2Proof.Machine.execCnpReceive conn scheduled s
  | .ccRateIncrease conn => Sys2Proof.Machine.execCcRateIncrease conn s
  | .transitFrame p frame => Sys2Proof.Machine.execTransitFrame p frame s
  | .hbmReadComplete entry errs onDie => Sys2Proof.Machine.execHbmReadComplete entry errs onDie s
  | .hbmWriteEnqueue entry => Sys2Proof.Machine.execHbmWriteEnqueue entry s
  | .memTmo entry => Sys2Proof.Machine.execMemTmo entry s
  | .arbHold entry => Sys2Proof.Machine.execArbHold entry s
  | .prefetchFillReturn q line errs onDie => Sys2Proof.Machine.execPrefetchFillReturn q line errs onDie s
  | .refreshRateCheck stack temperature => Sys2Proof.Machine.execRefreshRateCheck stack temperature s
  | .mwTrkCommit => Sys2Proof.Machine.execMwTrkCommit s
  | .qyArbCommit q => Sys2Proof.Machine.execQyArbCommit q s
  | .holdReset b => Sys2Proof.Machine.execHoldReset b s
  | .fcValidClear n value => Sys2Proof.Machine.execFcValidClear n value s
  | .fcClearAll => Sys2Proof.Machine.execFcClearAll s
  | .scDebugReq overSmbus => Sys2Proof.Machine.execScDebugReq overSmbus s
  | .scManPolicyLock value => Sys2Proof.Machine.execScManPolicyLock value s
  | .mgmtConnRestart value => Sys2Proof.Machine.execMgmtConnRestart value s
  | .mgmtConnStop value => Sys2Proof.Machine.execMgmtConnStop value s
  | .mgCoordWrite value => Sys2Proof.Machine.execMgCoordWrite value s
  | .portModeWrite p value => Sys2Proof.Machine.execPortModeWrite p value s
  | .portPlanWrite p value => Sys2Proof.Machine.execPortPlanWrite p value s
  | .netPrefixWrite high value => Sys2Proof.Machine.execNetPrefixWrite high value s
  | .mgFerryWrite value => Sys2Proof.Machine.execMgFerryWrite value s
  | .ttNowLoRead => Sys2Proof.Machine.execTtNowLoRead s
  | .rcRegisterRead addr => Sys2Proof.Machine.execRcRegisterRead addr s
  | .registerWrite addr value => Sys2Proof.Machine.execRegisterWrite addr value s
  | .smbRegWrite index value count pecOk => Sys2Proof.Machine.execSmbRegWrite index value count pecOk s
  | .smbRegPoint index count pecOk => Sys2Proof.Machine.execSmbRegPoint index count pecOk s
  | .smbRegRead => Sys2Proof.Machine.execSmbRegRead s
  | .smbAlertResponse => Sys2Proof.Machine.execSmbAlertResponse s
  | .smbusTmo command sclHeldLow => Sys2Proof.Machine.execSmbusTmo command sclHeldLow s
  | .startTask l => Sys2Proof.Machine.execStartTask l s
  | .abort l => Sys2Proof.Machine.execAbort l s
  | .preempt l cuts => Sys2Proof.Machine.execPreempt l cuts s
  | .suspendComplete b parity mem => Sys2Proof.Machine.execSuspendComplete b parity mem s
  | .resume l mem => Sys2Proof.Machine.execResume l mem s
  | .resumeComplete b mem => Sys2Proof.Machine.execResumeComplete b mem s
  | .disableBerth l => Sys2Proof.Machine.execDisableBerth l s
  | .disableComplete b => Sys2Proof.Machine.execDisableComplete b s
  | .query l => Sys2Proof.Machine.execQuery l s
  | .loadManifest => Sys2Proof.Machine.execLoadManifest s
  | .manifestVerifyDone read => Sys2Proof.Machine.execManifestVerifyDone read s
  | .manifestApply => Sys2Proof.Machine.execManifestApply s
  | .taskEndLatch b => Sys2Proof.Machine.execTaskEndLatch b s
  | .taskCompletionRecord b => Sys2Proof.Machine.execTaskCompletionRecord b s
  | .transactionAbandon b => Sys2Proof.Machine.execTransactionAbandon b s
  | .ringRecordWrite l => Sys2Proof.Machine.execRingRecordWrite l s
  | .diagBist => Sys2Proof.Machine.execDiagBist s
  | .diagBistDone failed => Sys2Proof.Machine.execDiagBistDone failed s
  | .diagAttest => Sys2Proof.Machine.execDiagAttest s
  | .diagExtend => Sys2Proof.Machine.execDiagExtend s
  | .diagFwWrite => Sys2Proof.Machine.execDiagFwWrite s
  | .diagFwActivate => Sys2Proof.Machine.execDiagFwActivate s
  | .diagLog => Sys2Proof.Machine.execDiagLog s
  | .diagDone hostFailed read => Sys2Proof.Machine.execDiagDone hostFailed read s
  | .faultCollect detected => Sys2Proof.Machine.execFaultCollect detected s
  | .barrierArrive b => Sys2Proof.Machine.execBarrierArrive b s
  | .ferryHello conn msg => Sys2Proof.Machine.execFerryHello conn msg s
  | .ferryArrive conn msg => Sys2Proof.Machine.execFerryArrive conn msg s
  | .ferryRelease conn msg => Sys2Proof.Machine.execFerryRelease conn msg s
  | .ferryHealth conn msg => Sys2Proof.Machine.execFerryHealth conn msg s
  | .ferrySilent conn msg => Sys2Proof.Machine.execFerrySilent conn msg s
  | .ferryEvent conn msg => Sys2Proof.Machine.execFerryEvent conn msg s
  | .ferryTidePlan conn msg => Sys2Proof.Machine.execFerryTidePlan conn msg s
  | .healthSendTick => Sys2Proof.Machine.execHealthSendTick s
  | .workerSilentTimeout worker => Sys2Proof.Machine.execWorkerSilentTimeout worker s
  | .groupWindowClose sys device => Sys2Proof.Machine.execGroupWindowClose sys device s
  | .systemWindowClose sys device => Sys2Proof.Machine.execSystemWindowClose sys device s
  | .timetableMissCheck gens => Sys2Proof.Machine.execTimetableMissCheck gens s
  | .pwrEnAssert millivolts => Sys2Proof.Machine.execPwrEnAssert millivolts s
  | .pwrEnDeassert millivolts => Sys2Proof.Machine.execPwrEnDeassert millivolts s
  | .resetNAssert => Sys2Proof.Machine.execResetNAssert s
  | .vinOv millivolts => Sys2Proof.Machine.execVinOv millivolts s
  | .vinUv millivolts => Sys2Proof.Machine.execVinUv millivolts s
  | .vinBrownout millivolts => Sys2Proof.Machine.execVinBrownout millivolts s
  | .railFail step rail high => Sys2Proof.Machine.execRailFail step rail high s
  | .deckPwr d rail => Sys2Proof.Machine.execDeckPwr d rail s
  | .throttleTick watts => Sys2Proof.Machine.execThrottleTick watts s
  | .fastThrottleTrigger fellByMillivolts millivolts centiamps => Sys2Proof.Machine.execFastThrottleTrigger fellByMillivolts millivolts centiamps s
  | .fastThrottleDecay => Sys2Proof.Machine.execFastThrottleDecay s
  | .sensorReading sensor raw => Sys2Proof.Machine.execSensorReading sensor raw s
  | .refclkFail missing ppm => Sys2Proof.Machine.execRefclkFail missing ppm s
  | .wearCompute ro0 ro1 ro2 ro3 hbmPerDay eyeMui capEvents days => Sys2Proof.Machine.execWearCompute ro0 ro1 ro2 ro3 hbmPerDay eyeMui capEvents days s
  | .bootRomCheck ok addressPins => Sys2Proof.Machine.execBootRomCheck ok addressPins s
  | .signedBoot => Sys2Proof.Machine.execSignedBoot s
  | .keyStoreCheck ok => Sys2Proof.Machine.execKeyStoreCheck ok s
  | .powerUpBist failures => Sys2Proof.Machine.execPowerUpBist failures s
  | .measure => Sys2Proof.Machine.execMeasure s
  | .moduleReady => Sys2Proof.Machine.execModuleReady s
  | .secViol kind => Sys2Proof.Machine.execSecViol kind s
  | .serdesFail p lanes => Sys2Proof.Machine.execSerdesFail p lanes s
  | .vinRecovers millivolts => Sys2Proof.Machine.execVinRecovers millivolts s
  | .ppsInTimeout => Sys2Proof.Machine.execPpsInTimeout s
  | .jtagAccess op => Sys2Proof.Machine.execJtagAccess op s

end Sys2Proof.Machine
end

