-- ==== Sys2Proof/Machine/Idle.lean ====
section
/-! DEFINITION. What passes when no command waits: one nanosecond, in which tide time advances by one, or by two or none where the servo
slews it at 500 ppm (R417, R421, log entry 1), and the memory fabric moves on (R314-R316, R342, R346, log entry 68). -/

namespace Sys2Proof.Machine

/-- Whether the servo takes up a nanosecond in this one: it does in one of every 2,000. -/
def slewNow (t : TimeUnit) : Bool := decide (t.phase % 2000 = 1999 ∧ t.slew ≠ 0)

/-- How far tide time advances in a nanosecond. (DESIGN CHOICE, log entry 1.) -/
def tideStep (t : TimeUnit) : Nat := if slewNow t then (if 0 < t.slew then 2 else 0) else 1

/-- What the servo has still to take up after a nanosecond. (DESIGN CHOICE, log entry 1.) -/
def slewLeft (t : TimeUnit) : Int := if slewNow t then (if 0 < t.slew then t.slew - 1 else t.slew + 1) else t.slew

/-- The counters of time after one nanosecond. Tide time is a 64-bit count that wraps. (DESIGN CHOICE, log entry 1.) -/
def timeTick (t : TimeUnit) : TimeUnit :=
  { t with tide := (t.tide + tideStep t) % 2 ^ 64, mono := t.mono + tideStep t, slew := slewLeft t, phase := (t.phase + 1) % 2000 }

/-- One nanosecond passes. (DESIGN CHOICE, log entries 1, 68.) -/
def idle (s : State) : State := fabricTick { s with time := timeTick s.time }

end Sys2Proof.Machine
end

