-- ==== Sys2Proof/Safety.lean ====
section
/-! DEFINITION. What counts as a safe run, and what a step keeps: the canonical form of the addressed memories, the latches that
only a full reset or a power cycle undoes, and what no command changes. -/

namespace Sys2Proof.Safety

open Sys2Proof.Machine

/-- A step is safe when it answers a next state: the spec describes every fault as a next state, so a stop would be the
model's own. -/
def SafeStep (s : State) : Prop := ∃ t, step s = .next t

/-- The addressed memories are in canonical form: HBM, the command memories, and the two slots of the flash. -/
structure MemWf (s : State) : Prop where
  hbm : s.hbm.wf = true
  cmdMem : s.cmdMem.wf = true
  slot0 : s.flash.slot0.wf = true
  slot1 : s.flash.slot1.wf = true

/-- The names of the running commands lie below the next name to be given (log entry 2), so that no two commands share one. -/
def NamesFresh (s : State) : Prop := ∀ r ∈ s.runs, r.id < s.nextId

/-- What every command leaves: the queue of the commands that wait and what assembly fixes as they were, no free value used twice,
the fuse value SC_SVN.MIN never lower (R555), the memories in canonical form, and
the names of running commands fresh. -/
structure Always (s t : State) : Prop where
  pending : t.pending = s.pending
  fitted : t.fitted = s.fitted
  free : s.free ≤ t.free
  svn : s.flash.svnMin.toNat ≤ t.flash.svnMin.toNat
  mem : MemWf s → MemWf t
  names : NamesFresh s → NamesFresh t

/-- Word `n` of the manifest public key (R585). -/
def keyWord (s : State) (n : Nat) : Word := regGet s (scBase + 0x40 + 4 * n)

/-- What only a full reset or a power cycle undoes: once VALID reads 1 the coordinates stay (R461), READY stays (R549), harbour
state stays (R561), the module stays halted (R538), a latched DEBUG stays (R582), cleared keys stay cleared (R585), and while
LOCK = 1 the policy and the manifest key stay (R585). Elapsed time does not pass in a command. -/
structure Latched (s t : State) : Prop where
  coord : regBits s (mgBase + 0x20) 31 31 = 1 → regGet t (mgBase + 0x20) = regGet s (mgBase + 0x20)
  ready : s.boot.ready = true → t.boot.ready = true
  harbour : s.boot.phase = 8 → t.boot.phase = 8
  halt : s.fc.halt = true → t.fc.halt = true
  debug : s.sec.debug = true → t.sec.debug = true
  keys : s.sec.keysCleared = true → t.sec.keysCleared = true
  policy : policyLocked s = true → regGet t (scBase + 8) = regGet s (scBase + 8) ∧ ∀ n, n < 15 → keyWord t n = keyWord s n
  mono : t.time.mono = s.time.mono

/-- The requests in the queue of a bank (R315). -/
def bankLoad (s : State) (bank : Nat) : Nat :=
  (s.fabric.pieces.filter (fun x => x.st == .queued && locBank x.loc == bank)).length

/-! ### The terms of the statements about flags and contexts -/

/-- Two flags that are different registers (R260, R271). -/
def Apart : FlagKey → FlagKey → Prop
  | .quay q f, .quay r g => q * 1024 + f ≠ r * 1024 + g
  | .chip f, .chip g => f ≠ g
  | _, _ => True

/-- No context waits for a flag. -/
def Unwaited (s : State) (k : FlagKey) : Prop := ∀ w ∈ s.waits, w.flag ≠ k

/-- What the end of somebody's wait may change of a context: the context keeps its mode, counters, comparators, program counter, region,
occupation and the words of its queue. -/
def CtxKept (x y : Ctx) : Prop :=
  y = { x with stall := y.stall, queue := y.queue, held := y.held } ∧ y.queue.map (·.word) = x.queue.map (·.word)

/-- A state in which only contexts, flags and waits have changed, and occurrences may have been raised. -/
def OnlyFlags (s t : State) : Prop :=
  t = { s with quays := t.quays, qflags := t.qflags, cflags := t.cflags, waits := t.waits, occ := t.occ, ends := t.ends }

/-- What an SFLAG leaves in its flag (R263). -/
def raised (v : Nat) : Nat := min (v + 1) 65535

/-- The SFLAG of a command has risen by one, and no other flag has changed; `s` is the state before. Flags that somebody waits for are left
to the statement about waits. -/
def SflagDone (s t : State) (b q : Nat) (w : BitVec 256) : Prop :=
  (∀ k, flagKey s b q (headOf w).sflag = some k → Unwaited s k → flagVal t k = raised (flagVal s k)) ∧
  (∀ j, (∀ k, flagKey s b q (headOf w).sflag = some k → Unwaited s k ∧ Apart k j) → flagVal t j = flagVal s j)

/-- Context `c` of quay `q` holds a command whose wait has succeeded, its task runs, and it is its turn (R242). -/
def HeldReady (s : State) (q c b : Nat) (m : QCmd) : Prop :=
  (ctxOf s q c).berth = some b ∧ (ctxOf s q c).held = some m ∧ taskRuns s b = true ∧ (ctxOf s q c).mode = .running ∧ m.waitDone = true ∧
  ctxTurn s q c = true

/-- What a command executed in its context leaves: its context as `y` says, every other as it was. -/
def RanInContext (s t : State) (q c b : Nat) (w : BitVec 256) (y : Ctx) : Prop :=
  OnlyFlags s t ∧ SflagDone s t b q w ∧ CtxKept { y with held := none, stall := .none } (ctxOf t q c) ∧ (ctxOf t q c).held = none ∧
  ∀ q' c', (q', c') ≠ (q, c) → CtxKept (ctxOf s q' c') (ctxOf t q' c')

/-- Context `c` of quay `q` fetches its next command from the half that it occupies: its task runs, it is running and named, holds no
command, and nothing stalls it. -/
def CanFetch (s : State) (q c b : Nat) : Prop :=
  (ctxOf s q c).berth = some b ∧ taskRuns s b = true ∧ (ctxOf s q c).mode = .running ∧ (ctxOf s q c).named = true ∧
  (ctxOf s q c).held = none ∧ applyPending (ctxOf s q c) = false ∧ (ctxOf s q c).stall ≠ .fetchWait

/-- The state in which the control core has come to the next context (R242) and the context's program counter to the next slot (R248). -/
def fetched (s : State) (q c : Nat) : State :=
  let x := ctxOf s q c
  setCtx (passTurn s q c) q c { x with pc := nextSlot x, stall := .none, timer := {} }

/-! ### The terms of the statements about engines -/

/-- A command has left its queue and runs as `y`, under the next name. -/
def Started (s t : State) (q c b : Nat) (m : QCmd) (y : Run) : Prop :=
  y.id = s.nextId ∧ y.q = q ∧ y.c = c ∧ y.berth = b ∧ y.cmd = m ∧
  (ctxOf t q c).queue.map (·.word) = (ctxOf s q c).queue.tail.map (·.word)

/-- The element and scale extents of a LOAD into register `r` by descriptor `n` (R157, R158). -/
def loadRows (s : State) (d n r : Nat) (g : Bool) (cu : Nat × Nat × Nat) : List (Nat × Nat) :=
  transferExtents (tileOf s d r) (extentOf s d (tileOf s d r) g false) ((descOf s d n).getD {}) cu.1 cu.2.1

/-- The extent of the zero map that a LOAD writes, if it writes one (R163). -/
def loadZmap (s : State) (d n r : Nat) (g : Bool) (cu : Nat × Nat × Nat) : List (Nat × Nat) :=
  let z := zmapBytes (tileOf s d r) (extentOf s d (tileOf s d r) g false) ((descOf s d n).getD {}) cu.2.2
  if z = 0 then [] else [(cu.2.2, z)]

/-- The extents of a STORE. -/
def storeRows (s : State) (d n r : Nat) (g : Bool) (cu : Nat × Nat × Nat) : List (Nat × Nat) :=
  transferExtents (tileOf s d r) (extentOf s d (tileOf s d r) g true) ((descOf s d n).getD {}) cu.1 cu.2.1

/-- The sum of the products of K indices in step groups (R57). -/
def productSum (a b : Nat → Int) (groups : List (Nat × Nat)) : Int :=
  (groups.flatMap (fun g => (List.range g.2).map (fun i => a (g.1 + i) * b (g.1 + i)))).sum

/-- The extents of the images of SAVEACC and RESTACC (R123, R301). -/
def saveRows (s : State) (d : Nat) (g : Bool) (a : Nat) (sel : List Nat) : List (Nat × Nat) :=
  (addressed s d g).zipIdx.flatMap (fun k => imageExtents (a * 4096 + k.2 * 0x101000) sel)

/-- The layer format table's entry of a DRAIN as HBM holds it, 0 where it takes none (R198). -/
def layerWord (s : State) (b : Nat) (o : DrainOps) (f : FnEntry) : Nat :=
  if f.fmtSrc then leNat (hbmRead s ((berthOf s b).cfg.lft + 4 * o.l) 4) else 0

/-- The scalar word of a DRAIN as HBM holds it, 0 where its scale factor takes none (R183). -/
def scalarWord (s : State) (b : Nat) (f : FnEntry) : Word :=
  if f.scaleSrc = 2 ∨ f.scaleSrc = 3 then BitVec.ofNat 32 (leNat (hbmRead s ((berthOf s b).cfg.scalar + 4 * f.scaleIdx) 4)) else 0

/-- The extents of a DRAIN's memory destination, in the format in force (R197, R198). -/
def drainRowsAt (s : State) (b d : Nat) (o : DrainOps) (f : FnEntry) (cu : Nat × Nat × Nat) : List (Nat × Nat) :=
  let ds := (descOf s d o.desc).getD {}
  let fm := drainFmt f ds (layerWord s b o f)
  transferExtents { role := .output } (drainExtent s d o) { ds with mfmt := fm.1, mmx := fm.2 } cu.1 cu.2.1

/-- Bytes of HBM that a task may read, none of them poisoned (R322, R330). -/
def Readable (s : State) (b a len : Nat) : Prop := outside s b a len = none ∧ poisonIn s a len = []

/-- The words of HBM that a DRAIN reads, if any, can be read, and a tracker entry is free for them (R183, R198, R338). -/
def DrainReads (s : State) (b d : Nat) (o : DrainOps) (f : FnEntry) : Prop :=
  (drainReads f = false ∨ stepRoom s (arrayDecks s d) = true) ∧
  (f.fmtSrc = true → Readable s b ((berthOf s b).cfg.lft + 4 * o.l) 4) ∧ layerBad (layerWord s b o f) = false ∧
  (f.scaleSrc = 2 ∨ f.scaleSrc = 3 → Readable s b ((berthOf s b).cfg.scalar + 4 * f.scaleIdx) 4)

/-! ### The terms of the statements about messages and tasks -/

/-- The state in which a message has been taken from the front of its landing: its buffer is free, and H has moved to its HSEQ, which a
QUERY leaves (R495). -/
def received (s : State) (l : Nat) (m : Msg) : State :=
  if (headerOf m.data).type = 6 then popMsg s l
  else setLand (popMsg s l) l { landOf (popMsg s l) l with h := (headerOf m.data).hseq }

/-- The one message that landing `l` holds has a type and a whole header, is in sequence, and no check of R498 ends it before its own. -/
def Taken (s : State) (l type : Nat) (m : Msg) : Prop :=
  (landOf s l).bufs = [m] ∧ 32 ≤ m.data.length ∧ leAt m.data 0 1 = type ∧ (l = 16 → s.load = none) ∧
  seqStatus (landOf s l) (headerOf m.data) = none ∧ earlyStatus (received s l m) l m.data = none

/-- The REPLY to a message of landing `l`, alone, with a status. -/
def Answers (s : State) (c : Instr) (l : Nat) (m : Msg) (status : Nat) : Prop :=
  Machine.exec c s = .next (answer (received s l m) l (headerOf m.data) status [])

/-- What an end other than completion leaves of a task (R127, R273): the contexts that the task named idle with nothing queued, no command of
it running and no wait of it left; `s` is the state before. -/
def Stopped (s t : State) (b : Nat) : Prop :=
  (∀ n, n < 72 → (ctxOf s (n / 18) (n % 18)).berth = some b → (ctxOf s (n / 18) (n % 18)).named = true →
    (ctxOf t (n / 18) (n % 18)).mode = .idle ∧ (ctxOf t (n / 18) (n % 18)).queue = [] ∧ (ctxOf t (n / 18) (n % 18)).held = none) ∧
  (∀ r ∈ t.runs, r.berth ≠ b) ∧ (∀ w ∈ t.waits, (ctxOf t w.q w.c).berth ≠ some b)

/-- What PREEMPT and its engines leave of a suspending task whose save goes on: the counts of its suspended passes kept, and every used
deck saved as far as its area can be written (R128). -/
def savedDecks (s : State) (b : Nat) (late : Option Nat) : State × Bool :=
  let s1 := setBerth s b { berthOf s b with suspended := (berthOf s b).suspended.map (keepCounts s) }
  (usedDecks s1 b).foldl (saveDeck b late) (s1, true)

/-- The settings of the module are as they were: the registers kept by address, time, what the manifest gives the module as a whole, the
windows and gangs, command memory, and the start-up, security and power units. -/
structure SettingsKept (s t : State) : Prop where
  rw : t.rw = s.rw
  time : t.time = s.time
  man : t.man = s.man
  windows : t.windows = s.windows
  gangs : t.gangs = s.gangs
  cmdMem : t.cmdMem = s.cmdMem
  boot : t.boot = s.boot
  flash : t.flash = s.flash
  sec : t.sec = s.sec
  pw : t.pw = s.pw

/-- A new request of a kind leaves on a connection at once: nothing of the connection waits, it is usable and its port carries it, and the
priority is not paused (R379, R393, R394, R398, R406). -/
def Leaves (s : State) (n : Nat) (kind : ReqKind) (m : Roce) : Prop :=
  mayAsk (connOf s n) (isRead m) = true ∧ connUsable s n = true ∧ carries s n = true ∧
    paused s (connPort s n) (kindPcp s n kind false) = false

/-- A request of a kind as it leaves on a connection, in its frame (R377, R379, R404). -/
def leaving (s : State) (n : Nat) (kind : ReqKind) (m : Roce) : Out := .roce n (frameOf s n (kindPcp s n kind false) m false) m

/-! ### The terms of the statements about power -/

/-- What a full reset leaves (R550, R592, R556): everything at its reset value but what a power cycle (`cycle`) or RESET_N keeps. -/
structure ResetLeaves (s t : State) (cycle : Bool) : Prop where
  pending : t.pending = s.pending
  fitted : t.fitted = s.fitted
  flash : t.flash = s.flash
  boot : t.boot = { resets := s.boot.resets + 1 }
  time : t.time = {}
  man : t.man = {}
  berths : t.berths = []
  conns : t.conns = []
  windows : t.windows = []
  runs : t.runs = []
  trk : t.trk = []
  occ : t.occ = []
  load : t.load = none
  meas : t.sec.meas = []
  hbm : ∃ g, s.free ≤ g ∧ t.hbm = Mem.open_ (2 ^ 38) g
  recs : t.fc.recs = if cycle then [] else s.fc.recs.filter (fun e => e.2.cls == 5)
  halt : t.fc.halt = !t.fc.recs.isEmpty
  debug : t.sec.debug = (s.sec.debug && !cycle)
  keys : t.sec.keysCleared = (t.sec.debug || !t.fc.recs.isEmpty)
  slot : regGet t (scBase + 0xC) = regGet s (scBase + 0xC)
  locked : policyLocked s = true → cycle = false → regGet t (scBase + 8) = regGet s (scBase + 8) ∧ ∀ n, n < 15 → keyWord t n = keyWord s n
  unlocked : policyLocked s = false ∨ cycle = true → regGet t (scBase + 8) = 0 ∧ ∀ n, n < 15 → keyWord t n = 0

/-- An occurrence of a source of the power unit is on its way. -/
def PowerRaised (t : State) (code detail : Nat) : Prop := ∃ x ∈ t.occ, x.source = sourceId 3 3 code ∧ x.detail.toNat = detail

/-- A shutdown for a cause (R589): the module halts, its load rails are off and PG low. -/
def ShutDown (t : State) (cause : Nat) : Prop :=
  t.fc.halt = true ∧ t.pw.loadsOn = false ∧ t.pw.pg = false ∧ t.pw.state = 3 ∧ t.pw.scause = cause

end Sys2Proof.Safety
end

