-- ==== Sys2Proof/WellFormed.lean ====
section
/-! DEFINITION. Which commands are well formed: operands that fit the fields which carry them. exec gives an ill-formed command a meaning
too; no statement rests on one. -/

namespace Sys2Proof

/-- Whether a number fits a field of `w` bits. -/
def fits (w n : Nat) : Bool := decide (n < 2 ^ w)

/-- Whether an integer lies in a range. -/
def within (lo hi i : Int) : Bool := decide (lo ≤ i ∧ i ≤ hi)

/-- Whether a list repeats no element. -/
def distinct : List Nat → Bool
  | [] => true
  | a :: r => !r.contains a && distinct r

/-- A packet: 24-bit QPNs and PSN (R401, R404), a 3-bit priority code point (R379). -/
def Packet.wf (p : Packet) : Bool := fits 24 p.dqpn && fits 24 p.sqpn && fits 24 p.psn && fits 3 p.pcp

/-- An access of `len` bytes of the 48-bit device address space (R34): a DMA length has 32 bits. -/
def accessWf (addr len : Nat) : Bool := fits 48 addr && fits 32 len

/-- A block's errors: a 48-bit device address, and distinct symbols among the block's 36 (R318). -/
def BlockErr.wf (e : BlockErr) : Bool := fits 48 e.addr && distinct (e.symbols.map (·.1)) && e.symbols.all (fun x => decide (x.1 < 36))

/-- What the memory does within a command: errors of blocks, a count that fits 32 bits (R319), and a 48-bit device address that is not
completed (R339). -/
def HbmOutcome.wf (m : HbmOutcome) : Bool := m.errs.all BlockErr.wf && fits 32 m.onDie && (match m.late with | some a => fits 48 a | none => true)

/-- A PTP message: the widths of IEEE 1588's fields (R418). -/
def PtpMessage.wf : PtpMessage → Bool
  | .announce domain prio1 clockClass accuracy variance prio2 _ steps =>
    fits 8 domain && fits 8 prio1 && fits 8 clockClass && fits 8 accuracy && fits 16 variance && fits 8 prio2 && fits 16 steps
  | .sync domain _ => fits 8 domain
  | .delayReq domain => fits 8 domain

/-- A transit frame: hop limit and priority (R468). -/
def TransitFrame.wf (f : TransitFrame) : Bool := fits 8 f.hop && fits 3 f.pcp

/-- A ferry message is 64 bytes long (R475). -/
def ferryWf (msg : List Byte) : Bool := msg.length == 64

/-- A detected fault: its detail fits 64 bits (R523). -/
def HwFault.wf : HwFault → Bool
  | .bufCorr _ loc => fits 64 loc
  | .bufUncorr _ loc => fits 64 loc
  | .cmdmemCorr _ slot => fits 14 slot
  | .pfsParity _ line => fits 38 line
  | .bridgeCorr _ n => fits 16 n
  | .bridgeUncorr _ _ => true

/-- The location that an error code reports fits the detail of a fault (R523). -/
def Ecc.wf : Ecc → Bool
  | .ok => true
  | .corrected loc => fits 64 loc
  | .uncorrectable loc => fits 64 loc

/-- Whether a command is well formed. Commands whose operands are bounded by their types are so always. -/
def Instr.wf : Instr → Bool
  | .cmdFetchIssue _ _ ecc => ecc.wf
  | .fetchWaitEnter _ _ => true
  | .nop _ _ => true
  | .cinit _ _ => true
  | .cadd _ _ => true
  | .ccmp _ _ => true
  | .flagset _ _ => true
  | .settle _ _ => true
  | .waitt _ _ => true
  | .endCmd _ _ => true
  | .endNotifyHome _ _ => true
  | .tilecfg _ _ => true
  | .stream _ _ => true
  | .load _ _ => true
  | .loadComplete _ _ remote mem => fits 32 remote.length && mem.wf
  | .store _ _ ecc => ecc.wf
  | .storeComplete _ _ => true
  | .holdStallWake _ => true
  | .holdStallTimeout _ => true
  | .swap _ _ => true
  | .maskset _ _ => true
  | .pass _ _ ecc => ecc.wf
  | .skipReplay _ _ _ => true
  | .passComplete _ _ _ => true
  | .saveacc _ _ parity => parity.wf
  | .saveaccComplete _ _ => true
  | .restacc _ _ mem => mem.wf
  | .drain _ _ buffer parity mem => buffer.wf && parity.wf && mem.wf
  | .drainComplete _ _ mem => mem.wf
  | .fmtsel _ _ mem => mem.wf
  | .gather _ mem => mem.wf
  | .scatter _ mem => mem.wf
  | .prefetch _ mem => mem.wf
  | .gatherRecall _ => true
  | .gatherThreadAction _ ecc mem => ecc.wf && mem.wf
  | .gatherComplete _ _ => true
  | .recallPieceDone _ _ _ _ data => fits 32 data.length
  | .reduce _ => true
  | .reduceComplete _ _ => true
  | .norm _ => true
  | .xfer _ => true
  | .xferComplete _ _ => true
  | .waitTmo _ _ _ => true
  | .segmentReceive pkt _ => pkt.wf
  | .segmentAddDone _ residueErrors => fits 32 residueErrors
  | .collTmo _ _ => true
  | .sailingBoundary _ => true
  | .sailingLate _ => true
  | .ptpMessageSend _ _ _ => true
  | .ptpMessageReceive _ _ msg => msg.wf
  | .announceReceiptTimeout => true
  | .lockQualify => true
  | .holdoverTimeout => true
  | .ppsOutPulse => true
  | .ppsInEdge highNs => fits 32 highNs
  | .ttTblLoadGo => true
  | .ttTblLoadDone mem => mem.wf
  | .ttTblActivate => true
  | .portBringupStep _ _ _ => true
  | .linkDown _ _ _ => true
  | .fecLimitWindow _ _ corrected uncorrectable => fits 32 corrected && fits 32 uncorrectable
  | .landingCardSend _ _ => true
  | .landingCardReceive _ _ company subtype info ttlSeconds _ => fits 24 company && fits 8 subtype && fits 16 ttlSeconds && fits 9 info.length
  | .landingCardTtlExpire _ _ => true
  | .cardAwaitTimeout _ => true
  | .neighborSolicitation _ _ _ => true
  | .pfcFrameReceive _ _ _ => true
  | .pfcWatchdogExpire _ _ => true
  | .pfcWatchdogRearm _ _ => true
  | .inboundRdmaWrite pkt addr data mem => pkt.wf && accessWf addr data.length && mem.wf
  | .inboundRdmaRead pkt addr len mem => pkt.wf && accessWf addr len && mem.wf
  | .inboundWriteImm pkt addr data _ mem => pkt.wf && accessWf addr data.length && mem.wf
  | .inboundSend pkt data => pkt.wf && fits 32 data.length
  | .cmdMemWrite pkt addr data => pkt.wf && accessWf addr data.length
  | .cmdHalfArm pkt addr data => pkt.wf && accessWf addr data.length
  | .cmdMemRead pkt addr len => pkt.wf && accessWf addr len
  | .nakReceive _ _ acked rnrNs => fits 24 acked && fits 30 rnrNs
  | .retransmitTimeout _ acked => fits 24 acked
  | .rnrRetry _ => true
  | .cnpReceive _ _ => true
  | .ccRateIncrease _ => true
  | .transitFrame _ frame => frame.wf
  | .hbmReadComplete _ errs onDie => errs.all BlockErr.wf && fits 32 onDie
  | .hbmWriteEnqueue _ => true
  | .memTmo _ => true
  | .arbHold _ => true
  | .prefetchFillReturn _ line errs onDie => fits 38 line && errs.all BlockErr.wf && fits 32 onDie
  | .refreshRateCheck _ temperature => fits 8 temperature
  | .mwTrkCommit => true
  | .qyArbCommit _ => true
  | .holdReset _ => true
  | .fcValidClear _ _ => true
  | .fcClearAll => true
  | .scDebugReq _ => true
  | .scManPolicyLock _ => true
  | .mgmtConnRestart _ => true
  | .mgmtConnStop _ => true
  | .mgCoordWrite _ => true
  | .portModeWrite _ _ => true
  | .portPlanWrite _ _ => true
  | .netPrefixWrite _ _ => true
  | .mgFerryWrite _ => true
  | .ttNowLoRead => true
  | .rcRegisterRead addr => fits 48 addr
  | .registerWrite addr _ => fits 48 addr
  | .smbRegWrite _ _ count _ => fits 8 count
  | .smbRegPoint _ count _ => fits 8 count
  | .smbRegRead => true
  | .smbAlertResponse => true
  | .smbusTmo _ _ => true
  | .startTask _ => true
  | .abort _ => true
  | .preempt _ cuts => distinct (cuts.map (·.1))
  | .suspendComplete _ parity mem => (match parity with | some p => fits 64 p.2 | none => true) && mem.wf
  | .resume _ mem => mem.wf
  | .resumeComplete _ mem => mem.wf
  | .disableBerth _ => true
  | .disableComplete _ => true
  | .query _ => true
  | .loadManifest => true
  | .manifestVerifyDone read => (match read with | some d => fits 32 d.length | none => true)
  | .manifestApply => true
  | .taskEndLatch _ => true
  | .taskCompletionRecord _ => true
  | .transactionAbandon _ => true
  | .ringRecordWrite _ => true
  | .diagBist => true
  | .diagBistDone _ => true
  | .diagAttest => true
  | .diagExtend => true
  | .diagFwWrite => true
  | .diagFwActivate => true
  | .diagLog => true
  | .diagDone _ read => fits 32 read.length
  | .faultCollect detected => (match detected with | some f => f.wf | none => true)
  | .barrierArrive _ => true
  | .ferryHello _ msg => ferryWf msg
  | .ferryArrive _ msg => ferryWf msg
  | .ferryRelease _ msg => ferryWf msg
  | .ferryHealth _ msg => ferryWf msg
  | .ferrySilent _ msg => ferryWf msg
  | .ferryEvent _ msg => ferryWf msg
  | .ferryTidePlan _ msg => ferryWf msg
  | .healthSendTick => true
  | .workerSilentTimeout _ => true
  | .groupWindowClose _ _ => true
  | .systemWindowClose _ _ => true
  | .timetableMissCheck gens => distinct (gens.map (·.1))
  | .pwrEnAssert millivolts => fits 17 millivolts
  | .pwrEnDeassert millivolts => (match millivolts with | some v => fits 17 v | none => true)
  | .resetNAssert => true
  | .vinOv millivolts => fits 17 millivolts
  | .vinUv millivolts => fits 16 millivolts
  | .vinBrownout millivolts => fits 16 millivolts
  | .railFail _ _ _ => true
  | .deckPwr _ _ => true
  | .throttleTick watts => fits 16 watts
  | .fastThrottleTrigger fellByMillivolts millivolts centiamps => fits 17 fellByMillivolts && fits 17 millivolts && fits 16 centiamps
  | .fastThrottleDecay => true
  | .sensorReading _ raw => within (-2147483648) 2147483647 raw
  | .refclkFail _ ppm => within (-1000000) 1000000 ppm
  | .wearCompute ro0 ro1 ro2 ro3 hbmPerDay eyeMui capEvents days => [ro0, ro1, ro2, ro3, hbmPerDay, capEvents].all (fits 32) && fits 16 eyeMui && (days.length == 0 || days.length == 4)
  | .bootRomCheck _ _ => true
  | .signedBoot => true
  | .keyStoreCheck _ => true
  | .powerUpBist failures => failures.eraseDups.length == failures.length
  | .measure => true
  | .moduleReady => true
  | .secViol _ => true
  | .serdesFail _ _ => true
  | .vinRecovers millivolts => fits 17 millivolts
  | .ppsInTimeout => true
  | .jtagAccess _ => true

end Sys2Proof
end

