-- ==== Sys2Proof/Certificates/Slice0/Obligations.lean ====
section
/-! DEFINITION. The statements for the provers. Each says what a command, or the module, does: its conclusion is the next state that exec
answers, with hypotheses on the state and the operands alone. -/

open Sys2Proof Sys2Proof.Machine Sys2Proof.Safety

/-! ### The module as a whole -/

/-- A step takes the command at the front of the queue and runs it on the rest. -/
def Obligations.StepRunsFrontCommand : Prop :=
  ∀ (c : Instr) (rest : List Instr) (s : State), step { s with pending := c :: rest } = exec c { s with pending := rest }

/-- The model's choice (log entries 1, 68): with no command waiting one nanosecond passes: tide time and elapsed tide time advance by one, and
in one nanosecond of every 2,000 by two or by none while the servo has an offset to take up. Where no request is in the memory fabric
nothing else changes; otherwise the fabric moves on, and with it only HBM, its poison, the table rows that SCATTERs meet on, and the free values
used. -/
def Obligations.EmptyQueueLetsTimePass : Prop :=
  ∀ s : State, s.pending = [] →
    ∃ (u : State) (t : TimeUnit), step s = .next u ∧
      u = { s with time := t, fabric := u.fabric, hbm := u.hbm, poison := u.poison, quays := u.quays, free := u.free } ∧
      (s.fabric.pieces = [] → u = { s with time := t }) ∧
      t = { s.time with tide := t.tide, mono := t.mono, slew := t.slew, phase := t.phase } ∧
      t.phase = (s.time.phase + 1) % 2000 ∧
      (s.time.phase % 2000 ≠ 1999 ∨ s.time.slew = 0 →
        t.tide = (s.time.tide + 1) % 2 ^ 64 ∧ t.mono = s.time.mono + 1 ∧ t.slew = s.time.slew) ∧
      (s.time.phase % 2000 = 1999 → 0 < s.time.slew →
        t.tide = (s.time.tide + 2) % 2 ^ 64 ∧ t.mono = s.time.mono + 2 ∧ t.slew = s.time.slew - 1) ∧
      (s.time.phase % 2000 = 1999 → s.time.slew < 0 →
        t.tide = s.time.tide % 2 ^ 64 ∧ t.mono = s.time.mono ∧ t.slew = s.time.slew + 1)

/-! ### The control core (R238-R286) -/

/-- CINIT, CADD, CCMP and NOP, held by their wait, execute in their context once it has succeeded and it is the context's turn: a counter takes the 32-bit value, or
the sum modulo 2^32; a comparator takes the condition; NOP changes neither. SFLAG rises, and nothing else changes. -/
def Obligations.ContextCommandsExecute : Prop :=
  ∀ (s : State) (q : Fin 4) (c : Fin 18) (b : Nat) (m : QCmd), HeldReady s q c b m →
    (opOf m.word = .nop → ∃ t, exec (.nop q c) s = .next t ∧ RanInContext s t q c b m.word (ctxOf s q c)) ∧
    (∀ i v, opOf m.word = .cinit i v → ∃ t, exec (.cinit q c) s = .next t ∧
      RanInContext s t q c b m.word { ctxOf s q c with cnt := tput (ctxOf s q c).cnt i (BitVec.ofNat 32 v) }) ∧
    (∀ i v, opOf m.word = .cadd i v → ∃ t, exec (.cadd q c) s = .next t ∧
      RanInContext s t q c b m.word
        { ctxOf s q c with cnt := tput (ctxOf s q c).cnt i (tget 0 (ctxOf s q c).cnt i + BitVec.ofNat 32 v) }) ∧
    (∀ i n cond src j f v, opOf m.word = .ccmp i n cond src j f v → ∃ t, exec (.ccmp q c) s = .next t ∧
      RanInContext s t q c b m.word
        { ctxOf s q c with
          cmp := tput (ctxOf s q c).cmp n (condTrue cond (tget 0 (ctxOf s q c).cnt i) (cmpValue s q b (ctxOf s q c) src j f v)) })

/-- A fetch within the half that the context occupies: the program counter moves to the next slot; a slot that is uncorrectable raises
CMDMEM_ECC_UNCORR and a command that fails a check CMD_ILLEGAL, and neither executes; a command whose predicate is false has no other
effect; a legal command joins its queue, END closing the context to further fetches.
The contexts that are ready take turns: the turn is the first ready context's from where the control core has come to, and passes on to the
context after it; a ready context whose turn it is not fetches nothing.
A context that is about to enter a half which is not armed, or which it has left since it was last armed, enters a fetch wait whose
timer starts; the wait ends, and the timer with it, once the half is armed. Nothing else changes. -/
def Obligations.FetchChecksSkipsQueuesAndWaits : Prop :=
  (∀ (s : State) (q : Fin 4) (c : Fin 18) (b : Nat), CanFetch s q c b → (ctxOf s q c).occ = some ((ctxOf s q c).pc / 8192) →
    (ctxTurn s q c = true ↔ ∃ i, i < 18 ∧ ((quayOf s q).nextCtx + i) % 18 = c.val ∧
      ∀ j, j < i → ctxReady s q (((quayOf s q).nextCtx + j) % 18) = false) ∧
    (∀ ecc, ctxTurn s q c = false → exec (.cmdFetchIssue q c ecc) s = .next s)) ∧
  (∀ (s : State) (q : Fin 4) (c : Fin 18) (b : Nat), CanFetch s q c b → (ctxOf s q c).occ = some ((ctxOf s q c).pc / 8192) →
    ctxTurn s q c = true →
    (∀ l, exec (.cmdFetchIssue q c (.uncorrectable l)) s = .next (raiseBerth (fetched s q c) 2 q 0x25 b (ctxOf s q c).pc)) ∧
    (∀ n, illegal s q c b (slotWord s q (ctxOf s q c).pc) = some n →
      exec (.cmdFetchIssue q c .ok) s = .next (raiseBerth (fetched s q c) 2 q 0x21 b n)) ∧
    (illegal s q c b (slotWord s q (ctxOf s q c).pc) = none →
      predTrue (ctxOf s q c) (headOf (slotWord s q (ctxOf s q c).pc)).pred = false →
      exec (.cmdFetchIssue q c .ok) s = .next (fetched s q c)) ∧
    (illegal s q c b (slotWord s q (ctxOf s q c).pc) = none →
      predTrue (ctxOf s q c) (headOf (slotWord s q (ctxOf s q c).pc)).pred = true →
      inContext (opcodeOf (slotWord s q (ctxOf s q c).pc)) = false →
      pushStall (fetched s q c) q c b (slotWord s q (ctxOf s q c).pc) = none →
      ∃ t, exec (.cmdFetchIssue q c .ok) s = .next t ∧ (ctxOf t q c).pc = nextSlot (ctxOf s q c) ∧ (quayOf t q).nextCtx = (c + 1) % 18 ∧
        (ctxOf t q c).queue.map (·.word) = (ctxOf s q c).queue.map (·.word) ++ [slotWord s q (ctxOf s q c).pc] ∧
        (ctxOf t q c).mode = (if opcodeOf (slotWord s q (ctxOf s q c).pc) = 0x3F then .endQueued else .running))) ∧
  (∀ (s : State) (q : Fin 4) (c : Fin 18) (b : Nat),
    (∀ ecc, CanFetch s q c b → (ctxOf s q c).occ ≠ some ((ctxOf s q c).pc / 8192) →
      mayEnter s q c b ((ctxOf s q c).pc / 8192) = false →
      exec (.cmdFetchIssue q c ecc) s = .next (setCtx s q c { ctxOf s q c with stall := .fetchWait, timer := timerStart s })) ∧
    ((ctxOf s q c).berth = some b → taskRuns s b = true → (ctxOf s q c).stall = .fetchWait →
      mayEnter s q c b ((ctxOf s q c).pc / 8192) = true →
      exec (.fetchWaitEnter q c) s = .next (setCtx s q c { ctxOf s q c with stall := .none, timer := {} })))

/-- FLAGSET, SETTLE, WAITT and END at the head of their queue: FLAGSET sets its target or adds to it, saturating at 65,535, before the next
command of the queue begins its wait; SETTLE and END
wait until no earlier command of the queue is in progress, WAITT until tide time is at least TIDE; each leaves the queue, and its SFLAG
rises. END leaves the context idle and occupying no half. The state after the head has left the queue is that of popHead. -/
def Obligations.QueueControlExecutes : Prop :=
  ∀ (s : State) (q : Fin 4) (c : Fin 18) (b : Nat) (m : QCmd),
    (headOp s q c 0x08 = some (b, m) → ∀ tf set v k, opOf m.word = .flagset tf set v → (headOf m.word).sflag = 0xFFF →
      flagKey s b q tf = some k → Unwaited s k →
      ∃ t, exec (.flagset q c) s = .next (popHead t q c) ∧ OnlyFlags s t ∧ t.quays = s.quays ∧
        flagVal t k = (if set then v % 65536 else min (flagVal s k + v) 65535) ∧ ∀ j, Apart k j → flagVal t j = flagVal s j) ∧
    (headOp s q c 0x06 = some (b, m) →
      (queueBusy s q c = true → exec (.settle q c) s = .next s) ∧
      (queueBusy s q c = false → ∃ t, exec (.settle q c) s = .next t ∧ OnlyFlags (popHead s q c) t ∧
        SflagDone (popHead s q c) t b q m.word ∧ ∀ q' c', CtxKept (ctxOf (popHead s q c) q' c') (ctxOf t q' c'))) ∧
    (headOp s q c 0x2B = some (b, m) → ∀ tide, opOf m.word = .waitt tide →
      (s.time.tide < tide → exec (.waitt q c) s = .next s) ∧
      (tide ≤ s.time.tide → ∃ t, exec (.waitt q c) s = .next t ∧ OnlyFlags (popHead s q c) t ∧
        SflagDone (popHead s q c) t b q m.word ∧ ∀ q' c', CtxKept (ctxOf (popHead s q c) q' c') (ctxOf t q' c'))) ∧
    (headOp s q c 0x3F = some (b, m) →
      (queueBusy s q c = true → exec (.endCmd q c) s = .next s) ∧
      (queueBusy s q c = false → ∃ t, exec (.endCmd q c) s = .next t ∧ (ctxOf t q c).mode = .idle ∧ (ctxOf t q c).endDone = true ∧
        (ctxOf t q c).occ = none ∧ SflagDone (popHead s q c) t b q m.word ∧
        (ctxOf t q c).queue.map (·.word) = (ctxOf s q c).queue.tail.map (·.word)))

/-- A timed wait that reaches the timeout of its context raises WAIT_TMO, whose detail names the context, the kind of the wait, the field
or register waited for and the flag's value, and then times again; the wait goes on, whichever of the six kinds it is.
After a change of a flag no wait on it is left that its value satisfies: waits are tested in the order in which they began, each takes
its count from the flag, and the value never rises by it. -/
def Obligations.WaitsEndWhenSatisfiedAndTimeOut : Prop :=
  (∀ (s : State) (q : Fin 4) (c : Fin 18) (b : Nat), (ctxOf s q c).berth = some b → taskMoves s b = true →
    (∀ w, s.waits.find? (waitExpired s q c) = some w →
      ∃ t, exec (.waitTmo q c 0) s = .next t ∧ t.waits = s.waits.map (fun v => if v = w then { v with timer := timerStart s } else v) ∧
        t = { raiseBerth s 2 q 0x20 b (c + w.wflag * 2 ^ 16 + flagVal s w.flag * 2 ^ 32) with waits := t.waits }) ∧
    (∀ m r tm reg g l r16 co cfg, (ctxOf s q c).queue = m :: r → m.stall = some tm → opOf m.word = .tilecfg reg g l r16 co cfg →
      tmoHit s q c tm = true → cfgWaits s q c m.word = true →
      exec (.waitTmo q c 1) s = .next (setCtx (raiseBerth s 2 q 0x20 b (c + 1 * 2 ^ 8 + reg * 2 ^ 16)) q c
        { ctxOf s q c with queue := { m with stall := some (timerStart s) } :: r })) ∧
    (∀ m r tm o, (ctxOf s q c).queue = m :: r → m.stall = some tm → opOf m.word = .stream o →
      tmoHit s q c tm = true → descBusy s (ctxDeck q c) o.desc m.seq = true →
      exec (.waitTmo q c 2) s = .next (setCtx (raiseBerth s 2 q 0x20 b (c + 2 * 2 ^ 8 + o.desc * 2 ^ 16)) q c
        { ctxOf s q c with queue := { m with stall := some (timerStart s) } :: r })) ∧
    ((ctxOf s q c).stall = .fetchWait → tmoHit s q c (ctxOf s q c).timer = true →
      exec (.waitTmo q c 3) s = .next (setCtx (raiseBerth s 2 q 0x20 b (c + 3 * 2 ^ 8 + 0xFFF * 2 ^ 16)) q c
        { ctxOf s q c with timer := timerStart s })) ∧
    (∀ reg, (ctxOf s q c).stall = .inuse reg → tmoHit s q c (ctxOf s q c).timer = true →
      exec (.waitTmo q c 4) s = .next (setCtx (raiseBerth s 2 q 0x20 b (c + 4 * 2 ^ 8 + 0xFFF * 2 ^ 16)) q c
        { ctxOf s q c with timer := timerStart s })) ∧
    (∀ r o, s.runs.find? (drainExpired s q c) = some r → opOf r.cmd.word = .drain o →
      exec (.waitTmo q c 5) s = .next (setRun (raiseBerth s 2 q 0x20 b (c + 5 * 2 ^ 8 + o.rstream * 2 ^ 16))
        { r with drainHeld := some (timerStart s) }))) ∧
  (∀ (s : State) (k : FlagKey), (∀ w ∈ (testWaits s k).waits, w.flag = k → flagVal (testWaits s k) k < w.val) ∧
    flagVal (testWaits s k) k ≤ flagVal s k ∧ (∀ w ∈ (testWaits s k).waits, w ∈ s.waits))

/-! ### Operand staging (R143-R174, R203-R224, R287-R294) -/

/-- A command that executes whole at the head of its queue: it leaves the queue, its SFLAG rises, and neither HBM nor any other part of the
module changes; a command that fails a check leaves the queue too, and its SFLAG does not rise. -/
def Obligations.HeadLeavesWithOrWithoutSflag : Prop :=
  ∀ (s : State) (q c b : Nat) (m : QCmd),
    SflagDone (popHead (inuseDown s m.uses) q c) (headDone s q c b m) b q m.word ∧
    OnlyFlags (popHead (inuseDown s m.uses) q c) (headDone s q c b m) ∧
    (ctxOf (headDone s q c b m) q c).queue.map (·.word) = (ctxOf s q c).queue.tail.map (·.word) ∧
    OnlyFlags (inuseDown s m.uses) (refuseHead s q c m) ∧
    (ctxOf (refuseHead s q c m) q c).queue.map (·.word) = (ctxOf s q c).queue.tail.map (·.word)

/-- TILECFG waits while a register it names is in use. With its checks passed it configures its register in every addressed deck; where
the role is reserved, or the check fails in one deck, TILE_CFG is raised and no register changes in any. -/
def Obligations.TilecfgAppliesToAllDecksOrNone : Prop :=
  ∀ (s : State) (q : Fin 4) (c : Fin 18) (b : Nat) (m : QCmd) (r : Nat) (g : Bool) (ld rows cols cfg d : Nat),
    headOp s q c 0x01 = some (b, m) → opOf m.word = .tilecfg r g ld rows cols cfg →
    d = (if c.val < 16 then ctxDeck q c else 4 * q.val + ld) →
    (cfgWaits s q c m.word = true → exec (.tilecfg q c) s = .next s) ∧
    (cfgWaits s q c m.word = false → gangScopeBad s d g = false →
      (cfgTile cfg rows cols = none → exec (.tilecfg q c) s = .next (refuseHead (raiseShape s 0x08 q c b m (some d)) q c m)) ∧
      (∀ t k, cfgTile cfg rows cols = some t → (addressed s d g).find? (fun k => cfgFails s k r t) = some k →
        exec (.tilecfg q c) s = .next (refuseHead (raiseShape s 0x08 q c b m (some k)) q c m)) ∧
      (∀ t, cfgTile cfg rows cols = some t → (addressed s d g).find? (fun k => cfgFails s k r t) = none →
        ∃ u, exec (.tilecfg q c) s = .next u ∧
          (∀ k ∈ addressed s d g, { tileOf u k r with inuse := 0 } = { t with inuse := 0 }) ∧
          (∀ k i, k ∉ addressed s d g ∨ i ≠ r → { tileOf u k i with inuse := 0 } = { tileOf s k i with inuse := 0 }) ∧
          (∀ k, deckOf u k = { deckOf s k with tiles := (deckOf u k).tiles }) ∧
          u = { s with decks := u.decks, quays := u.quays, qflags := u.qflags, cflags := u.cflags, waits := u.waits, occ := u.occ,
                       ends := u.ends }))

/-- STREAM arms its descriptor with the addresses, strides and classes it carries, or fails and leaves it unarmed; SWAP exchanges the
roles of the halves of every addressed deck and counts; MASKSET writes elements 0 to 3 of stored row 0 of its register. STREAM waits for the
LOADs and STOREs of its deck that name its descriptor and were issued before it, SWAP and MASKSET until the earlier commands of their queue have
finished with the deck buffer; the passes among these have then entered whole. No other deck and no HBM changes. -/
def Obligations.StreamSwapMasksetExecute : Prop :=
  ∀ (s : State) (q : Fin 4) (c : Fin 18) (b : Nat) (m : QCmd),
    (∀ o, headOp s q c 0x04 = some (b, m) → opOf m.word = .stream o →
      (descBusy s (ctxDeck q c) o.desc m.seq = true → exec (.stream q c) s = .next s) ∧
      (descBusy s (ctxDeck q c) o.desc m.seq = false →
        exec (.stream q c) s = .next (
          let d := ctxDeck q c
          if o.cls = 3 ∨ fmtOk o.mfmt = false ∨ o.rnd = 3 ∨ (o.mmx = true ∧ fmtMxOk o.mfmt = false) then
            refuseHead (raiseShape (setDeck s d { deckOf s d with descs := tdel (deckOf s d).descs o.desc }) 0x08 q c b m (some d)) q c m
          else
            let y : Desc := { store := o.store, cls := o.cls, mfmt := o.mfmt, mmx := o.mmx, morient := o.morient, rnd := o.rnd, ovf := o.ovf, cur := o.base, stride := o.stride, advance := o.advance, scur := moveAddr o.base o.scaleOff, zcur := o.zmap * 64 }
            headDone (setDeck s d { deckOf s d with descs := tput (deckOf s d).descs o.desc y })
              q c b m))) ∧
    (∀ g u, headOp s q c 0x05 = some (b, m) → opOf m.word = .swap g → u = settleQueue s q c →
      (bufferClear s q c = false → exec (.swap q c) s = .next s) ∧
      (bufferClear s q c = true → gangScopeBad u (ctxDeck q c) g = true →
        exec (.swap q c) s = .next (refuseHead (raiseShape u 0x09 q c b m (some (ctxDeck q c))) q c m)) ∧
      (bufferClear s q c = true → gangScopeBad u (ctxDeck q c) g = false →
        exec (.swap q c) s = .next (headDone ((addressed u (ctxDeck q c) g).foldl
          (fun a k => setDeck a k { deckOf a k with fore1 := !(deckOf a k).fore1, swapCnt := (deckOf a k).swapCnt + 1 }) u) q c b m))) ∧
    (∀ r g row bs u, headOp s q c 0x16 = some (b, m) → opOf m.word = .maskset r g row bs → u = settleQueue s q c →
      (bufferClear s q c = false → exec (.maskset q c) s = .next s) ∧
      (bufferClear s q c = true → gangScopeBad u (ctxDeck q c) g = false →
        (∀ k, (addressed u (ctxDeck q c) g).find? (fun k => maskBad u r k) = some k →
          exec (.maskset q c) s = .next (refuseHead (raiseShape u 0x09 q c b m (some k)) q c m)) ∧
        ((addressed u (ctxDeck q c) g).find? (fun k => maskBad u r k) = none →
          exec (.maskset q c) s = .next (headDone ((addressed u (ctxDeck q c) g).zipIdx.foldl (fun a p => putMask r (fun i =>
            if row then bit bs (p.2 / (if g && !deckQuad u (ctxDeck q c) then gangN u (ctxDeck q c) else 1)) else bit bs (4 * p.2 + i))
            a p.1) u) q c b m))))

/-- LOAD and STORE at the head of their queue start when the engine has room: the command leaves the queue and joins the running ones
under a new name with the cursors it took at its issue, and no byte of HBM has changed yet. A STORE whose buffer read is corrected starts too,
one whose read is uncorrectable raises BUF_ECC_UNCORR. Outside the berth's windows the first byte
raises WIN_VIOL, beyond the hold HOLD_RANGE, and registers or a descriptor that do not fit raise TILE_SHAPE: then it does not start. -/
def Obligations.TransferStarts : Prop :=
  (∀ (s : State) (q : Fin 4) (c : Fin 18) (b : Nat) (m : QCmd) (n r : Nat) (g h x : Bool), NamesFresh s →
    headOp s q c 0x02 = some (b, m) → opOf m.word = .load n r g h x →
    (transferRoom s q c = false → exec (.load q c) s = .next s) ∧
    (∀ k, transferRoom s q c = true → transferBad s (ctxDeck q c) n r g false = some k →
      exec (.load q c) s = .next (refuseHead (raiseShape s 0x09 q c b m (some k)) q c m)) ∧
    (∀ cu, transferRoom s q c = true → transferBad s (ctxDeck q c) n r g false = none → m.curs = some cu →
      (h = true → holdBeyond s b (loadRows s (ctxDeck q c) n r g cu) = true →
        exec (.load q c) s = .next (refuseHead (raiseHoldRange s q c b) q c m)) ∧
      (h = false ∨ holdBeyond s b (loadRows s (ctxDeck q c) n r g cu) = false →
        (∀ a, firstOutside s b ((if h then [] else loadRows s (ctxDeck q c) n r g cu) ++ loadZmap s (ctxDeck q c) n r g cu) = some a →
          exec (.load q c) s = .next (refuseHead (raiseCtx s q c 0x33 b a) q c m)) ∧
        (firstOutside s b ((if h then [] else loadRows s (ctxDeck q c) n r g cu) ++ loadZmap s (ctxDeck q c) n r g cu) = none →
          ∃ t, exec (.load q c) s = .next t ∧ t.hbm = s.hbm ∧ s.nextId < t.nextId ∧
            (ctxOf t q c).queue.map (·.word) = (ctxOf s q c).queue.tail.map (·.word) ∧
            ∃ y ∈ t.runs, Started s t q c b m y ∧ y.cur = cu.1 ∧ y.scur = cu.2.1)))) ∧
  (∀ (s : State) (q : Fin 4) (c : Fin 18) (b : Nat) (m : QCmd) (n r : Nat) (g h x : Bool), NamesFresh s →
    headOp s q c 0x03 = some (b, m) → opOf m.word = .store n r g h x →
    (∀ ecc, transferRoom s q c = false → exec (.store q c ecc) s = .next s) ∧
    (∀ ecc k, transferRoom s q c = true → transferBad s (ctxDeck q c) n r g true = some k →
      exec (.store q c ecc) s = .next (refuseHead (raiseShape s 0x09 q c b m (some k)) q c m)) ∧
    (∀ cu, transferRoom s q c = true → transferBad s (ctxDeck q c) n r g true = none → m.curs = some cu →
      (h = true → holdBeyond s b (storeRows s (ctxDeck q c) n r g cu) = true →
        ∀ ecc, exec (.store q c ecc) s = .next (refuseHead (raiseHoldRange s q c b) q c m)) ∧
      (h = false → ∀ a, firstOutside s b (storeRows s (ctxDeck q c) n r g cu) = some a →
        ∀ ecc, exec (.store q c ecc) s = .next (refuseHead (raiseCtx s q c 0x33 b a) q c m)) ∧
      ((h = true ∧ holdBeyond s b (storeRows s (ctxDeck q c) n r g cu) = false) ∨
          (h = false ∧ firstOutside s b (storeRows s (ctxDeck q c) n r g cu) = none) →
        (∀ l, exec (.store q c (.uncorrectable l)) s = .next (refuseHead (raiseDeck s 1 (ctxDeck q c) 0x0E l) q c m)) ∧
        ∀ ecc, (∀ l, ecc ≠ .uncorrectable l) →
          ∃ u ws, exec (.store q c ecc) s = .next (sendWrites u s.nextId q c b (addressed s (ctxDeck q c) g) h x ws) ∧
            u.nextId = s.nextId + 1 ∧ u.hbm = s.hbm ∧ (∃ y ∈ u.runs, Started s u q c b m y) ∧
            (h = false → ∃ t, exec (.store q c ecc) s = .next t ∧ t.hbm = s.hbm ∧ ∃ y ∈ t.runs, Started s t q c b m y))))

/-- LOAD_COMPLETE places what the LOAD has read in its tiles, in every member deck, and STORE_COMPLETE ends a STORE whose writes are all
visible; the run is gone, and the SFLAG rises. A LOAD that writes a zero map waits for a tracker entry first. A run that received poison or lost a
transaction leaves with no effect and no SFLAG.
The stash write of a berth that has waited longest under STALL goes on when its page lies somewhere, or when fewer frames than the high-water mark
are resident and one is free; while a recall brings its page back it waits. The first one to have waited longer than TMO_US for a page that
no recall brings back raises HOLD_FULL and fails. Otherwise nothing happens. -/
def Obligations.TransferCompletesAndStashWakes : Prop :=
  (∀ (s : State) (q : Fin 4) (c : Fin 18) (r : Run), oldestRun s q c = some r → taskMoves s r.berth = true →
    (∀ n reg g h rel remote mem, opOf r.cmd.word = .load n reg g h rel → runBusy s r.id = false →
      (r.failed = true → exec (.loadComplete q c remote mem) s = .next (failRun (ackHold s r.berth r.id) r.id)) ∧
      (r.failed = false → remote.length = remoteLen r → holdLinkOk s r = true →
        (Machine.loadZmap s r ≠ 0 → stepRoom s r.decks = false → exec (.loadComplete q c remote mem) s = .next s) ∧
        (Machine.loadZmap s r = 0 ∨ (stepRoom s r.decks = true ∧ mem.late = none) →
          ∃ t u, exec (.loadComplete q c remote mem) s = .next t ∧ t = runDone u r ∧ (∀ x ∈ t.runs, x.id ≠ r.id) ∧
            (∀ k half, bufOf u k half = bufOf (r.decks.foldl (loadMember (loadBytes r remote)
              (extentOf (ackHold s r.berth r.id) (ctxDeck r.q r.c) (tileOf (ackHold s r.berth r.id) (ctxDeck r.q r.c) reg) g false)
              r.desc r reg) (ackHold s r.berth r.id)) k half) ∧
            (Machine.loadZmap s r = 0 → u.hbm = s.hbm)))) ∧
    (∀ n reg g h sn, opOf r.cmd.word = .store n reg g h sn → writesDone s r = true →
      (r.failed = true → exec (.storeComplete q c) s = .next (failRun (ackHold s r.berth r.id) r.id)) ∧
      (r.failed = false → exec (.storeComplete q c) s = .next (runDone (ackHold s r.berth r.id) r)))) ∧
  (∀ (s : State) (b : Fin 16) (r : Run) (w : Nat × Nat), taskMoves s b = true →
    (oldestStalled s b = some r → r.waitHold = some w →
      (thas (berthOf s b).hold.recalling w.1 = false →
        pageState s b w.1 ≠ .free ∨ ((residentFrames (berthOf s b).hold).length < holdHwm s b ∧
          ∃ f, f < (berthOf s b).cfg.holdFrames ∧ f ∉ framesTaken (berthOf s b).hold) →
        exec (.holdStallWake b) s = .next (issueRun (placeAll r.id r.q r.c b r.decks false r.stash s) r.id)) ∧
      (thas (berthOf s b).hold.recalling w.1 = true ∨ (pageState s b w.1 = .free ∧
          (holdHwm s b ≤ (residentFrames (berthOf s b).hold).length ∨
            ∀ f, f < (berthOf s b).cfg.holdFrames → f ∈ framesTaken (berthOf s b).hold)) →
        exec (.holdStallWake b) s = .next s)) ∧
    (stalledLong s b = some r → r.waitHold = some w →
      exec (.holdStallTimeout b) s = .next (failRun (raiseCtx s r.q r.c 0x36 b w.1) r.id)) ∧
    ((∀ x ∈ s.runs, ∀ v, x.berth = b → x.waitHold = some v → thas (berthOf s b).hold.recalling v.1 = true ∨
        s.time.mono ≤ v.2 + holdTmoNs s b) → exec (.holdStallTimeout b) s = .next s))

/-- An element written to a packed row reads back cut to its format's width, and every other element of the row reads as before.
The value of a code of any of the ten formats converts back to that code in every rounding mode, infinities and signed zeros
included; a NaN converts to the canonical one of its format. -/
def Obligations.StoredElementsReadBack : Prop :=
  (∀ (m : Mem) (a fmt i j v : Nat), 1 ≤ fmtWidth fmt →
    readPacked (writePacked m a fmt j v) a fmt j = v % 2 ^ fmtWidth fmt ∧
    (i ≠ j → readPacked (writePacked m a fmt j v) a fmt i = readPacked m a fmt i)) ∧
  (∀ (fmt n : Nat) (rnd : Rnd) (ovf : Bool) (d : Nat), fmtOk fmt = true → n < 2 ^ fmtWidth fmt →
    toElem fmt rnd ovf d (elemVal fmt false n) =
      (if (elemVal fmt false n).isNan then (match floatFmt fmt with
        | some f => canonNan f
        | none => 0)
       else n))

/-! ### The array and the drain units (R44-R78, R85-R130, R175-R213, R295-R305) -/

/-- PASS at the head of its queue waits while an earlier PASS of its gang or quad still enters; a PASS that fails a shape check raises
TILE_SHAPE and one whose buffer read is uncorrectable BUF_ECC_UNCORR, and neither runs. Otherwise it runs in every member of its gang:
only accumulator slots, their tags, their SAT flags and in-use counts of registers change, in the members, and of the other decks only what the
earlier passes that have entered whole leave to show. In overwrite mode its quads take the tag of its accumulation; in add mode every tag stays. -/
def Obligations.PassRunsInItsMembers : Prop :=
  ∀ (s : State) (q : Fin 4) (c : Fin 18) (b : Nat) (m : QCmd) (o : PassOps) (e : Nat), NamesFresh s →
    headOp s q c 0x10 = some (b, m) → opOf m.word = .pass o → e = (if deckQuad s (ctxDeck q c) then o.quad else 0) →
    (∀ ecc, arrayFree s q c e = false → exec (.pass q c ecc) s = .next s) ∧
    (∀ ecc k, arrayFree s q c e = true → passBad s (ctxDeck q c) o = some k →
      exec (.pass q c ecc) s = .next (refuseHead (raiseShape s 0x09 q c b m (some k)) q c m)) ∧
    (∀ l, arrayFree s q c e = true → passBad s (ctxDeck q c) o = none →
      exec (.pass q c (.uncorrectable l)) s = .next (refuseHead (raiseDeck s 1 (ctxDeck q c) 0x0E l) q c m)) ∧
    (arrayFree s q c e = true → passBad s (ctxDeck q c) o = none →
      ∃ t, exec (.pass q c .ok) s = .next t ∧
        (∃ y ∈ t.runs, Started s t q c b m y ∧ y.decks = arrayDecks s (ctxDeck q c)) ∧ t.hbm = s.hbm ∧
        (∀ k, deckOf t k = { deckOf s k with acc := (deckOf t k).acc, tags := (deckOf t k).tags, sat := (deckOf t k).sat,
                                             tiles := (deckOf t k).tiles }) ∧
        (∀ k i, { tileOf t k i with inuse := 0 } = { tileOf s k i with inuse := 0 }) ∧
        (∀ k, k ∉ arrayDecks s (ctxDeck q c) → deckOf t k = deckOf (settleArray s q c e) k) ∧
        (∀ k, (deckOf (settleArray s q c e) k).acc = (deckOf s k).acc ∧ (deckOf (settleArray s q c e) k).tags = (deckOf s k).tags) ∧
        (o.add = true → ∀ k, (deckOf t k).tags = (deckOf s k).tags) ∧
        (o.add = false → ∀ k ∈ arrayDecks s (ctxDeck q c), ∀ e ∈ passQuads s (ctxDeck q c) o, ∀ l ∈ passSlots o,
          tagOf (deckOf t k) e l = accTag o.acc))

/-- The integer accumulation of a PASS is exact, however K is cut into step groups, as long as no sum on the way leaves the range of the
clamp: the entry is its old value plus the sum of the products, and no clamping is reported. -/
def Obligations.IntegerPassIsExactInRange : Prop :=
  ∀ (groups : List (Nat × Nat)) (a b : Nat → Int) (v e : Word) (f : Bool),
    (∀ j, 1 ≤ j → j ≤ groups.length → clamp32 (i32 v + productSum a b (groups.take j)) = i32 v + productSum a b (groups.take j)) →
    groups.foldl (fun x g => groupStep 1 ((List.range g.2).map (fun i => (FV.ofInt (a (g.1 + i)), FV.ofInt (b (g.1 + i))))) x) (v, e, f) =
      (BitVec.ofInt 32 (i32 v + productSum a b groups), e, f)

/-- The skipped blocks of a PASS wait until all their checks are complete; then those that were misses are streamed, and all leave: the
misses and the remaining skips are counted, and no byte of HBM changes.
PASS completes, oldest first for its gang or quad, once its skipped blocks have gone: the run leaves, its SFLAG rises, the skips are
counted in the lead deck, and misses raise SKIP_MISS with their number. One that a pre-emption has stopped does not complete. -/
def Obligations.PassCompletesAfterItsReplays : Prop :=
  (∀ (s : State) (q : Fin 4) (c : Fin 18) (e : Fin 4) (r : Run) (o : PassOps), replayable s q c e = some r → taskMoves s r.berth = true →
    opOf r.cmd.word = .pass o →
    (r.pass.pend.all (checkDone s r) = false → exec (.skipReplay q c e) s = .next s) ∧
    (r.pass.pend.all (checkDone s r) = true →
      ∃ t, exec (.skipReplay q c e) s = .next t ∧ t.hbm = s.hbm ∧ ∃ y ∈ t.runs, y.id = r.id ∧ y.pass.pend = [] ∧
        y.pass.misses = r.pass.misses + (r.pass.pend.filter (checkMiss s r)).length ∧
        y.pass.skipped = r.pass.skipped + (r.pass.pend.length - (r.pass.pend.filter (checkMiss s r)).length))) ∧
  (∀ (s : State) (q : Fin 4) (c : Fin 18) (e : Fin 4) (r : Run), oldestPass s q c e = some r → runOf s r.id = some r →
    taskMoves s r.berth = true →
    (r.pass.pend.isEmpty = false ∨ r.pass.cut = true → exec (.passComplete q c e) s = .next s) ∧
    (r.pass.pend.isEmpty = true → r.pass.cut = false →
      ∃ u y, exec (.passComplete q c e) s = .next (runDone u y) ∧ runOf (settlePass s r) r.id = some y ∧
        (∀ x ∈ (runDone u y).runs, x.id ≠ r.id) ∧
        (r.pass.misses + r.pass.inPlace.length = 0 → u = { settlePass s r with decks := u.decks }) ∧
        (r.pass.misses + r.pass.inPlace.length ≠ 0 →
          u = raiseBerth { settlePass s r with decks := u.decks } 1 (ctxDeck r.q r.c) 0x0B r.berth
            (r.pass.misses + r.pass.inPlace.length)) ∧
        (deckOf u (ctxDeck r.q r.c)).skipDone = satInc (deckOf s (ctxDeck r.q r.c)).skipDone r.pass.skipped ∧
        (deckOf u (ctxDeck r.q r.c)).skipMiss =
          satInc (deckOf s (ctxDeck r.q r.c)).skipMiss (r.pass.misses + r.pass.inPlace.length) ∧
        ∀ k, k ≠ ctxDeck r.q r.c → deckOf u k = deckOf (settlePass s r) k))

/-- SAVEACC waits for the earlier commands of its queue, fails on a deck outside gang scope, on a compensated pair split by its slots, or
outside the windows, and otherwise starts writing without changing any deck; it completes as a STORE does.
RESTACC waits for the earlier commands of its queue and the passes of its gang, and for a tracker entry. With every state page and image
readable, a saved DK_GANG that differs raises RESTORE_SHAPE and restores nothing; otherwise every selected slot of every addressed deck takes its
image, no other state changes, and it completes. -/
def Obligations.SaveaccAndRestaccExecute : Prop :=
  (∀ (s : State) (q : Fin 4) (c : Fin 18),
    (∀ b m sl g a par, NamesFresh s → headOp s q c 0x11 = some (b, m) → opOf m.word = .saveacc sl g a →
      (queueBusy s q c = true → exec (.saveacc q c par) s = .next s) ∧
      (queueBusy s q c = false →
        ((gangScopeBad s (ctxDeck q c) g || deckFb s (ctxDeck q c) == 15) = true →
          exec (.saveacc q c par) s = .next (refuseHead (raiseShape s 0x09 q c b m (some (ctxDeck q c))) q c m)) ∧
        ((gangScopeBad s (ctxDeck q c) g || deckFb s (ctxDeck q c) == 15) = false →
          (∀ k, (addressed s (ctxDeck q c) g).find? (fun k => splitsPair (slotSet sl) (tagOf (deckOf s k))) = some k →
            exec (.saveacc q c par) s = .next (refuseHead (raiseShape s 0x09 q c b m (some k)) q c m)) ∧
          ((addressed s (ctxDeck q c) g).find? (fun k => splitsPair (slotSet sl) (tagOf (deckOf s k))) = none →
            (∀ x, firstOutside s b (saveRows s (ctxDeck q c) g a (slotSet sl)) = some x →
              exec (.saveacc q c par) s = .next (refuseHead (raiseCtx s q c 0x33 b x) q c m)) ∧
            (firstOutside s b (saveRows s (ctxDeck q c) g a (slotSet sl)) = none →
              ∃ t, exec (.saveacc q c .ok) s = .next t ∧ t.hbm = s.hbm ∧ t.decks = s.decks ∧ ∃ y ∈ t.runs, Started s t q c b m y))))) ∧
    (∀ r, oldestRun s q c = some r → opcodeOf r.cmd.word = 0x11 → taskMoves s r.berth = true → writesDone s r = true →
      (r.failed = true → exec (.saveaccComplete q c) s = .next (failRun (ackHold s r.berth r.id) r.id)) ∧
      (r.failed = false → exec (.saveaccComplete q c) s = .next (runDone (ackHold s r.berth r.id) r)))) ∧
  (∀ (s : State) (q : Fin 4) (c : Fin 18) (b : Nat) (m : QCmd) (sl a : Nat) (g : Bool),
    headOp s q c 0x12 = some (b, m) → opOf m.word = .restacc sl g a →
    (∀ mem, (queueBusy s q c || arrayBusy s (ctxDeck q c)) = true → exec (.restacc q c mem) s = .next s) ∧
    ((queueBusy s q c || arrayBusy s (ctxDeck q c)) = false →
      (gangScopeBad s (ctxDeck q c) g || deckFb s (ctxDeck q c) == 15) = false →
      (∀ x mem, firstOutside s b (saveRows s (ctxDeck q c) g a (slotSet sl)) = some x →
        exec (.restacc q c mem) s = .next (refuseHead (raiseCtx s q c 0x33 b x) q c m)) ∧
      (∀ mem, firstOutside s b (saveRows s (ctxDeck q c) g a (slotSet sl)) = none →
        stepRoom s (addressed s (ctxDeck q c) g) = false → exec (.restacc q c mem) s = .next s) ∧
      (∀ l, firstOutside s b (saveRows s (ctxDeck q c) g a (slotSet sl)) = none → stepRoom s (addressed s (ctxDeck q c) g) = true →
        (∀ e ∈ saveRows s (ctxDeck q c) g a (slotSet sl), Readable s b e.1 e.2) →
        l = (addressed s (ctxDeck q c) g).zipIdx.map (fun k =>
          (k.1, a * 4096 + k.2 * 0x101000, hbmRead s (a * 4096 + k.2 * 0x101000 + 0x100000) 4096)) →
        (∀ e, l.find? (fun e => leAt e.2.2 0x9C 4 != (deckOf s e.1).gang.toNat) = some e →
          exec (.restacc q c {}) s = .next (refuseHead (raiseBerth s 1 e.1 0x0C b
            (leAt e.2.2 0x9C 4 + (deckOf s e.1).gang.toNat * 2 ^ 32)) q c m)) ∧
        (l.find? (fun e => leAt e.2.2 0x9C 4 != (deckOf s e.1).gang.toNat) = none →
          l.find? (fun e => splitsPair (slotSet sl) (pageTag e.2.2)) = none →
          exec (.restacc q c {}) s = .next (headDone (l.foldl (fun u e => (slotSet sl).foldl (fun v i =>
            setDeck v e.1 (restoreSlot e.2.2 (hbmRead s (e.2.1 + i * 0x40000) 0x40000) (deckOf v e.1) i)) u) s) q c b m)))))

/-- A slot saved by SAVEACC and restored by RESTACC is the slot it was: its entries, its tags and its SAT flags; the other slots of the
deck that it is restored into keep theirs. -/
def Obligations.SaveRestoreRoundTrip : Prop :=
  ∀ (x y : Deck) (cmds : List (Nat × BitVec 256 × Nat)) (slot : Nat), slot < 4 →
    slotImage (restoreSlot (statePage x cmds) (slotImage x slot) y slot) slot = slotImage x slot ∧
    (∀ e, e < 4 →
      tagOf (restoreSlot (statePage x cmds) (slotImage x slot) y slot) e slot = tagOf x e slot ∧
      bit (restoreSlot (statePage x cmds) (slotImage x slot) y slot).sat.toNat (slotKey e slot) = bit x.sat.toNat (slotKey e slot)) ∧
    (∀ l, l < 4 → l ≠ slot →
      slotImage (restoreSlot (statePage x cmds) (slotImage x slot) y slot) l = slotImage y l ∧
      ∀ e, e < 4 → tagOf (restoreSlot (statePage x cmds) (slotImage x slot) y slot) e l = tagOf y e l)

/-- DRAIN waits while an earlier DRAIN of a member is in progress, and fails its checks with TILE_SHAPE. With them passed and the words of HBM
that it needs readable it runs: it reads its slot and leaves every accumulator and tag as it was, its results go to its destination, and no byte of
HBM has changed yet; a destination beyond the hold raises HOLD_RANGE, and one outside the windows WIN_VIOL. -/
def Obligations.DrainRunsAndKeepsAccumulators : Prop :=
  ∀ (s : State) (q : Fin 4) (c : Fin 18) (b : Nat) (m : QCmd) (o : DrainOps), NamesFresh s →
    headOp s q c 0x14 = some (b, m) → opOf m.word = .drain o →
    (∀ e p mem, drainFree s (ctxDeck q c) = false → exec (.drain q c e p mem) s = .next s) ∧
    (∀ e p mem k, drainFree s (ctxDeck q c) = true → drainBad s b (ctxDeck q c) o = some k →
      exec (.drain q c e p mem) s = .next (refuseHead (raiseShape s 0x09 q c b m (some k)) q c m)) ∧
    (∀ f, drainFree s (ctxDeck q c) = true → drainBad s b (ctxDeck q c) o = none → fnOf s b o.fn = some f →
      DrainReads s b (ctxDeck q c) o f → o.dest ≠ 1 → o.hold = false →
      ∃ u, exec (.drain q c .ok .ok {}) s = .next (deliverRows b o.rstream (u.runs.length + 1) u) ∧ u.hbm = s.hbm ∧
        (∃ y ∈ u.runs, Started s u q c b y.cmd y ∧ y.cmd = { m with uses := y.cmd.uses }) ∧
        ∀ k, (deckOf u k).acc = (deckOf s k).acc ∧ (deckOf u k).tags = (deckOf s k).tags) ∧
    (∀ f cu, drainFree s (ctxDeck q c) = true → drainBad s b (ctxDeck q c) o = none → fnOf s b o.fn = some f →
      DrainReads s b (ctxDeck q c) o f → o.dest = 1 → m.curs = some cu →
      (o.hold = true → holdBeyond s b (drainRowsAt s b (ctxDeck q c) o f cu) = true →
        exec (.drain q c .ok .ok {}) s = .next (refuseHead (raiseHoldRange s q c b) q c m)) ∧
      (o.hold = false → ∀ a, firstOutside s b (drainRowsAt s b (ctxDeck q c) o f cu) = some a →
        exec (.drain q c .ok .ok {}) s = .next (refuseHead (raiseCtx s q c 0x33 b a) q c m)) ∧
      ((o.hold = true ∧ holdBeyond s b (drainRowsAt s b (ctxDeck q c) o f cu) = false) ∨
          (o.hold = false ∧ firstOutside s b (drainRowsAt s b (ctxDeck q c) o f cu) = none) →
        ∃ u ws, exec (.drain q c .ok .ok {}) s =
            .next (sendWrites u s.nextId q c b (arrayDecks s (ctxDeck q c)) o.hold o.spillNow ws) ∧ u.hbm = s.hbm ∧
          (∃ y ∈ u.runs, Started s u q c b y.cmd y ∧ y.cmd = { m with uses := y.cmd.uses }) ∧
          (∀ k, (deckOf u k).acc = (deckOf s k).acc ∧ (deckOf u k).tags = (deckOf s k).tags) ∧
          (o.hold = false → ∃ t, exec (.drain q c .ok .ok {}) s = .next t ∧ t.hbm = s.hbm ∧
            ∃ y ∈ t.runs, Started s t q c b y.cmd y ∧ y.cmd = { m with uses := y.cmd.uses })))

/-- What a unit writes into a tile reads back: every element that it writes holds its value converted to the tile's format, and every
other element of the tile reads as before. -/
def Obligations.TileHoldsConvertedValues : Prop :=
  ∀ (m : Mem) (t : TileReg) (rnd : Rnd) (ovf : Bool) (base : Nat) (on : Nat → Nat → Bool) (val : Nat → Nat → FV) (i j : Nat),
    t.mx = false → fmtOk t.fmt = true → footHi t ≤ 393216 → i < tileRows t → j < t.cols →
    tileCode (writeTile t rnd ovf base on val m) t i j =
      (if on i j then toElem t.fmt rnd ovf (Config.random16 (base + i * t.cols + j)).toNat (val i j) % 2 ^ fmtWidth t.fmt
       else tileCode m t i j)

/-- DRAIN completes once it is the oldest command of its queue in progress, every row is delivered and every write visible: a DRAIN that failed
leaves without its SFLAG; otherwise its SFLAG rises. One that flushes waits for a tracker entry, and has then written the sounding record of every
member to its place in the log and emptied the accumulators. -/
def Obligations.DrainCompletesAndFlushes : Prop :=
  ∀ (s : State) (q : Fin 4) (c : Fin 18) (r : Run) (o : DrainOps), oldestRun s q c = some r → opOf r.cmd.word = .drain o →
    taskMoves s r.berth = true →
    (∀ mem, (writesDone s r && r.rows.isEmpty) = false ∨ (o.flush = true ∧ stepRoom s r.decks = false) →
      exec (.drainComplete q c mem) s = .next s) ∧
    (∀ mem, (writesDone s r && r.rows.isEmpty) = true → o.flush = false → r.failed = true →
      exec (.drainComplete q c mem) s = .next (failRun (ackHold s r.berth r.id) r.id)) ∧
    (∀ mem, (writesDone s r && r.rows.isEmpty) = true → o.flush = false → r.failed = false →
      exec (.drainComplete q c mem) s = .next (runDone (ackHold s r.berth r.id) r)) ∧
    ((writesDone s r && r.rows.isEmpty) = true → o.flush = true → stepRoom s r.decks = true → r.failed = false →
      ∃ u, exec (.drainComplete q c {}) s = .next (runDone (ackHold u r.berth r.id) r) ∧
        (∀ k ∈ r.decks, (deckOf u k).snd = {}) ∧ (∀ k, k ∉ r.decks → deckOf u k = deckOf s k) ∧
        ((∀ e ∈ s.quays, e.2.threads = []) → u = r.decks.foldl (fun t k =>
          setDeck (hbmWrite t ((berthOf s r.berth).cfg.sndLog + ((o.l * 16 + o.step) * 16 + k) * 128)
            (soundRecord (deckOf t k).snd o.l o.step)) k { deckOf t k with snd := {} }) s))

/-- FMTSEL waits for the earlier commands of its queue and for a tracker entry, and fails on an empty candidate set, a layer beyond the table or a
deck outside the berth. Otherwise it writes the entry of its layer, or nothing where it has nothing to judge by; the format it chooses is one of its
candidates, and unless it says that it fell back the candidate passes the test of every record. -/
def Obligations.FmtselChoosesACandidate : Prop :=
  (∀ (s : State) (q : Fin 4) (c : Fin 18) (b : Nat) (m : QCmd) (l t wm1 decks cand margin thresh : Nat) (mx : Bool) (at_ : List Nat),
    headOp s q c 0x15 = some (b, m) → opOf m.word = .fmtsel l t wm1 decks cand mx margin thresh →
    at_ = (List.range (wm1 + 1)).flatMap (fun i => ((List.range 16).filter (bit decks)).map (fun k =>
      (berthOf s b).cfg.sndLog + ((l * 16 + (t + 16 - i) % 16) * 16 + k) * 128)) →
    (∀ mem, queueBusy s q c = true → exec (.fmtsel q c mem) s = .next s) ∧
    (∀ mem, queueBusy s q c = false →
      cand % 256 = 0 ∨ (berthOf s b).cfg.nl ≤ l ∨ (∃ k, k < 16 ∧ bit decks k = true ∧ bit (berthOf s b).cfg.decks.toNat k = false) →
      exec (.fmtsel q c mem) s =
        .next (refuseHead (raiseShape s 0x09 q c b m (if c.val < 16 then some (ctxDeck q c) else none)) q c m)) ∧
    (queueBusy s q c = false → cand % 256 ≠ 0 → l < (berthOf s b).cfg.nl →
      (∀ k, k < 16 → bit decks k = true → bit (berthOf s b).cfg.decks.toNat k = true) →
      (∀ mem, stepRoom s (ctxPool q c) = false → exec (.fmtsel q c mem) s = .next s) ∧
      (stepRoom s (ctxPool q c) = true → (∀ a ∈ at_, Readable s b a 128) →
        exec (.fmtsel q c {}) s = .next
          (match fmtChoose ((at_.map (fun a => hbmRead s a 128)).filter (fun r => bit (leAt r 0x18 4) 31 && bits (leAt r 0x18 4) 11 0 == l))
              cand margin thresh mx with
           | some w => headDone (stepWrite s (ctxRequester s q c b 4) ((berthOf s b).cfg.lft + 4 * l) (natLe 4 w) none).1 q c b m
           | none => headDone s q c b m)))) ∧
  (∀ (s : State) (w : Requester) (a : Nat) (data : List Byte), (∀ e ∈ s.quays, e.2.threads = []) →
    stepWrite s w a data none = (hbmWrite s a data, true)) ∧
  (∀ (recs : List (List Byte)) (cand margin thresh w : Nat) (mx : Bool), cand % 256 ≠ 0 → recs.length < 2 ^ 24 →
    fmtChoose recs cand margin thresh mx = some w →
    bit cand (w % 16) = true ∧ bit w 4 = true ∧
    (bit w 7 = false → ∃ x, (w % 16, x) ∈ fmtOrder ∧ fmtPasses recs margin thresh (w % 16, x) = true))

/-! ### The gather engine (R306, R307, R353-R372) -/

/-- GATHER, SCATTER and PREFETCH of the index form start when the engine has room. A register that is no stash raises TILE_SHAPE, and a
descriptor that fails its checks GATHER_DESC with its address; a command of no positions is done at once; any other leaves its queue and
runs under a new name with its descriptor, and no byte of HBM has changed yet.
The next ready thread of a quay acts, and where none is ready nothing changes. A free thread takes the next position of the command
that is being dispatched: an index beyond the table raises GATHER_IDX and stops the command, a null index without effect is passed over,
an extent outside the windows raises WIN_VIOL and stops it, and otherwise the thread holds the position with the addresses of its row
and of its place in the contiguous block.
A gather command completes when every position has been dispatched or it has stopped, and no thread and no transaction of it is left:
the run leaves with its SFLAG, or, if it failed, without. Until then nothing changes. -/
def Obligations.GatherEnginesStartStepAndComplete : Prop :=
  (∀ (s : State) (q : Fin 4) (b : Nat) (m : QCmd) (kind x ld ir count desc : Nat) (mem : HbmOutcome) (i : Instr) (op : Nat),
    NamesFresh s → (i, op) ∈ [(Instr.gather q mem, 0x20), (Instr.scatter q mem, 0x21), (Instr.prefetch q mem, 0x22)] →
    headOp s q 16 op = some (b, m) → opOf m.word = .gatherIndex kind x ld ir count desc →
    ((gatherRoom s q && stepRoom s [16 + q]) = false → exec i s = .next s) ∧
    ((gatherRoom s q && stepRoom s [16 + q]) = true → (tileOf s (4 * q + ld) ir).role ≠ .stash →
      exec i s = .next (refuseHead (raiseShape s 0x09 q 16 b m (some (4 * q + ld))) q 16 m)) ∧
    (∀ bytes, (gatherRoom s q && stepRoom s [16 + q]) = true → (tileOf s (4 * q + ld) ir).role = .stash →
      mem = {} → Readable s b (desc * 64) 64 → bytes = hbmRead s (desc * 64) 64 →
      (gdescBad bytes kind count (tileRows (tileOf s (4 * q + ld) ir) * (tileOf s (4 * q + ld) ir).cols) = true →
        exec i s = .next (refuseHead (raiseBerth s 2 q 0x26 b (desc * 64)) q 16 m)) ∧
      (gdescBad bytes kind count (tileRows (tileOf s (4 * q + ld) ir) * (tileOf s (4 * q + ld) ir).cols) = false →
        ((gdesc bytes).inHbm = false → (tileOf s (4 * q + ld) ir).fmt ≠ 0 ∨ (tileOf s (4 * q + ld) ir).mx = true →
          exec i s = .next (refuseHead (raiseShape s 0x09 q 16 b m (some (4 * q + ld))) q 16 m)) ∧
        ((gdesc bytes).inHbm = true ∨ (tileOf s (4 * q + ld) ir).fmt = 0 ∧ (tileOf s (4 * q + ld) ir).mx = false →
          (count = 0 → exec i s = .next (headDone s q 16 b m)) ∧
          (count ≠ 0 → ∃ t, exec i s = .next t ∧ t.hbm = s.hbm ∧
            ∃ y ∈ t.runs, Started s t q 16 b m y ∧ y.gather = { desc := bytes, count := count }))))) ∧
  (∀ (s : State) (q : Fin 4) (ecc : Ecc) (mem : HbmOutcome),
    (gatherMoves s q = false → exec (.gatherThreadAction q ecc mem) s = .next s) ∧
    (nextReady s q = none → exec (.gatherThreadAction q ecc mem) s = .next s) ∧
    (∀ n, gatherMoves s q = true → nextReady s q = some n → thas (quayOf s q).threads n = true →
      exec (.gatherThreadAction q ecc mem) s = .next (threadAct (setQuay s q { quayOf s q with nextThread := (n + 1) % 128 }) q n
        (tget { run := 0, pos := 0, index := 0, weight := 0 } (quayOf s q).threads n))) ∧
    (∀ n r u ws, gatherMoves s q = true → nextReady s q = some n → thas (quayOf s q).threads n = false →
      dispatching s q = some r → r.gather.pages = [] →
      listWords (setQuay s q { quayOf s q with nextThread := (n + 1) % 128 }) r (gdesc r.gather.desc)
        ((gdesc r.gather.desc).first + (if (gdesc r.gather.desc).wpair then 2 else 1) * r.gather.next)
        (if (gdesc r.gather.desc).wpair then 2 else 1) ecc mem = (u, some ws) →
      (nth 0 ws 0 ≠ 0xFFFFFFFF → (gdesc r.gather.desc).nrows ≤ nth 0 ws 0 →
        exec (.gatherThreadAction q ecc mem) s =
          .next (stopGather (raiseBerth u 2 q 0x27 r.berth (r.gather.next + nth 0 ws 0 * 2 ^ 32)) r.id)) ∧
      (nth 0 ws 0 = 0xFFFFFFFF → (gatherKind r = 0 ∧ (gdesc r.gather.desc).nullz = true → False) →
        exec (.gatherThreadAction q ecc mem) s =
          .next (setRun u { r with gather := { r.gather with next := r.gather.next + 1 } })) ∧
      (nth 0 ws 0 = 0xFFFFFFFF ∧ gatherKind r = 0 ∧ (gdesc r.gather.desc).nullz = true ∨
          nth 0 ws 0 ≠ 0xFFFFFFFF ∧ nth 0 ws 0 < (gdesc r.gather.desc).nrows →
        (∀ a l, (positionRows (gdesc r.gather.desc) (gatherKind r) (nth 0 ws 0) r.gather.next).filterMap
            (fun e => rowFails u r.berth e.1 e.2) = a :: l →
          exec (.gatherThreadAction q ecc mem) s = .next (stopGather (raiseBerth
            (setRun u { r with gather := { r.gather with next := r.gather.next + 1 } }) 2 q 0x33 r.berth a) r.id)) ∧
        ((positionRows (gdesc r.gather.desc) (gatherKind r) (nth 0 ws 0) r.gather.next).filterMap
            (fun e => rowFails u r.berth e.1 e.2) = [] →
          ∃ t, exec (.gatherThreadAction q ecc mem) s = .next t ∧
            let y := tget { run := 0, pos := 0, index := 0, weight := 0 } (quayOf t q).threads n
            y.run = r.id ∧ y.pos = r.gather.next ∧ y.index = nth 0 ws 0 ∧ y.phase = 0 ∧
            (nth 0 ws 0 ≠ 0xFFFFFFFF →
              y.row = ((gdesc r.gather.desc).tbl + (nth 0 ws 0 : Nat) * (gdesc r.gather.desc).tblStride : Int).toNat) ∧
            (gatherKind r ≠ 2 →
              y.cont = ((gdesc r.gather.desc).cont + (r.gather.next : Nat) * (gdesc r.gather.desc).contStride : Int).toNat))))) ∧
  (∀ (s : State) (q : Fin 4) (r : Run), runOf s r.id = some r → r.q = q → r.c = 16 → gatherMoves s q = true →
    (gatherDone s r = false → exec (.gatherComplete q r.id) s = .next s) ∧
    (gatherDone s r = true →
      exec (.gatherComplete q r.id) s = .next (if r.failed then failRun (stopRecall s r.id) r.id else runDone s r)))

/-- A recall starts when the engine has room: pages beyond the hold raise HOLD_RANGE; otherwise the command runs over its pages in
ascending order, 32 pieces each.
A piece of a recall arrives: its thread writes its 64 KiB at their place in the page's frame, unless the recall of the page was given up: then the
thread is free again. A piece that has been written frees its thread, and the page that has its last piece turns resident in that frame. -/
def Obligations.RecallStartsAndBringsPagesBack : Prop :=
  (∀ (s : State) (q : Fin 4) (b : Nat) (m : QCmd) (kind first count : Nat), NamesFresh s →
    headOp s q 16 0x20 = some (b, m) → opOf m.word = .gatherRecall kind first count →
    (gatherRoom s q = false → exec (.gatherRecall q) s = .next s) ∧
    (gatherRoom s q = true → (berthOf s b).cfg.holdPages < first + count →
      exec (.gatherRecall q) s = .next (refuseHead (raiseHoldRange s q 16 b) q 16 m)) ∧
    (gatherRoom s q = true → first + count ≤ (berthOf s b).cfg.holdPages →
      ∃ t, exec (.gatherRecall q) s = .next t ∧ t.hbm = s.hbm ∧
        ∃ y ∈ t.runs, Started s t q 16 b m y ∧ y.gather.count = 32 * count ∧ y.gather.next = 0 ∧
          y.gather.pages = (List.range count).map (fun i => first + i))) ∧
  (∀ (s : State) (q : Fin 4) (run page piece n : Nat) (data : List Byte) (r : Run) (c : Nat) (th : Thread),
    runOf s run = some r → gatherMoves s q = true → data.length = 65536 → th.phase = 1 →
    (quayOf s q).threads.find? (fun e => e.2.run == run && e.2.page == some (page, piece)) = some (n, th) →
    (berthOf s r.berth).cfg.tgtConn = some c → connUsable s c = true →
    (th.spoiled = true →
      exec (.recallPieceDone q run page piece data) s = .next (freeThread (ackRecall s r.berth r.id page) q n)) ∧
    (th.spoiled = false →
      exec (.recallPieceDone q run page piece data) s = .next (setThread (ackRecall s r.berth r.id page) q n
        { th with phase := 2, todo := writeReqs 4 [16 + q] (frameAddr (berthOf s r.berth).cfg (tget 0 (berthOf s r.berth).hold.recalling page) + piece * 65536)
                      data }))) ∧
  (∀ (s : State) (q : Fin 4) (ecc : Ecc) (mem : HbmOutcome) (page piece n : Nat) (r : Run) (th : Thread),
    gatherMoves s q = true → nextReady s q = some n → thas (quayOf s q).threads n = true →
    tget { run := 0, pos := 0, index := 0, weight := 0 } (quayOf s q).threads n = th → runOf s th.run = some r →
    th.phase = 2 → th.todo = [] → th.page = some (page, piece) →
    ((r.gather.pieces.filter (fun e => e.1 == page)).length ≠ 31 →
      exec (.gatherThreadAction q ecc mem) s = .next (setRun
        (freeThread (setQuay s q { quayOf s q with nextThread := (n + 1) % 128 }) q n)
        { r with gather := { r.gather with pieces := (page, piece) :: r.gather.pieces } })) ∧
    ((r.gather.pieces.filter (fun e => e.1 == page)).length = 31 →
      ∃ t, exec (.gatherThreadAction q ecc mem) s = .next t ∧ t.hbm = s.hbm ∧
        pageState t r.berth page = .resident (tget 0 (berthOf s r.berth).hold.recalling page) ∧
        thas (berthOf t r.berth).hold.recalling page = false))

/-! ### The collective engine (R308-R311, R436-R459) -/

/-- REDUCE waits for room in its queue and for an earlier REDUCE on its stream; every other one takes the next value of its stream's
counter. A reduce-scatter whose length its group's size does not divide raises COLL_SHAPE, an extent outside the windows WIN_VIOL; one of
no elements is done at once; any other runs over its group with its operands, and no byte of HBM has changed at its start.
REDUCE completes over the last group of its chain, its run leaving with its SFLAG; one that lost data or its connection leaves without
once its transactions are done; and a REDUCE or NORM that has waited its timeout for a segment raises COLL_TMO, and waits on.
NORM adds the accumulators of its berth's decks, that of a fenced deck, which is undefined, as a free value, clears them, and runs an all-reduce of
that one FP32 element over its group, on stream 0; where its words lie outside the windows it raises WIN_VIOL and reads nothing.
XFER of nothing and no immediate is done at once; outside the windows it raises WIN_VIOL, and over a connection that cannot carry it
CONN_FAIL; otherwise it runs, reading its extent. It completes once its last piece has gone out and been acknowledged. -/
def Obligations.CollectiveCommandsExecute : Prop :=
  (∀ (s : State) (q : Fin 4) (b : Nat) (m : QCmd) (o : ReduceOps) (g : Group), NamesFresh s →
    headOp s q 17 0x28 = some (b, m) → opOf m.word = .reduce o → (berthOf s b).cfg.groups[o.group]? = some g →
    ((collRoom s q && !streamBusy s b o.rstream) = false → exec (.reduce q) s = .next s) ∧
    ((collRoom s q && !streamBusy s b o.rstream) = true →
      (o.kind = 1 → o.len % g.n ≠ 0 → exec (.reduce q) s = .next (refuseHead
        (raiseBerth (takeSeq s b o.rstream).1 2 q 0x28 b (collDetail o.rstream (tget 0 (berthOf s b).seqs o.rstream))) q 17 m)) ∧
      (o.kind ≠ 1 ∨ o.len % g.n = 0 →
        (∀ a, firstOutside s b (reduceExtents o g.n) = some a →
          exec (.reduce q) s = .next (refuseHead (raiseCtx (takeSeq s b o.rstream).1 q 17 0x33 b a) q 17 m)) ∧
        (firstOutside s b (reduceExtents o g.n) = none →
          (o.len = 0 → exec (.reduce q) s = .next (headDone (takeSeq s b o.rstream).1 q 17 b m)) ∧
          (o.len ≠ 0 → ∃ u y, exec (.reduce q) s =
              .next (deliverRows b o.rstream (u.runs.length + 1) (pumpRun (issueRun (beginGroup u s.nextId) s.nextId) s.nextId)) ∧
            y ∈ u.runs ∧ Started s u q 17 b m y ∧ u.hbm = s.hbm ∧ y.coll.group = o.group ∧ y.coll.kind = o.kind ∧ y.coll.len = o.len ∧
            y.coll.seq = tget 0 (berthOf s b).seqs o.rstream ∧
            tget 0 (berthOf u b).seqs o.rstream = tget 0 (berthOf s b).seqs o.rstream + 1 ∧
            y.todo = (if o.fromHbm then readReqs 3 [20] o.saddr (4 * o.len) else [])))))) ∧
  (∀ (s : State) (q : Fin 4) (r : Run), runOf s r.id = some r → r.q = q → taskMoves s r.berth = true →
    (opcodeOf r.cmd.word = 0x28 →
      (r.failed = true → exec (.reduceComplete q r.id) s = .next (if runBusy s r.id then s else failRun s r.id)) ∧
      (r.failed = false → groupComplete s r = true → (r.coll.kind ≠ 0 ∨ (runGroup s r).chain = 0xFF) →
        exec (.reduceComplete q r.id) s = .next (runDone s r)) ∧
      (r.failed = false → groupComplete s r = false → exec (.reduceComplete q r.id) s = .next s)) ∧
    (isColl r = true → (runRecvs s r).all (segComplete s r) = false →
      (s.time.mono < r.coll.lastSeg + waitTmoNs s q 17 → exec (.collTmo q r.id) s = .next s) ∧
      (r.coll.lastSeg + waitTmoNs s q 17 ≤ s.time.mono →
        exec (.collTmo q r.id) s = .next (setRun (raiseBerth s 2 q 0x2A r.berth (collDetail (runReduce r).rstream r.coll.seq))
          { r with coll := { r.coll with lastSeg := s.time.mono } })))) ∧
  (∀ (s : State) (q : Fin 4) (b : Nat) (m : QCmd) (acc grp n f : Nat) (k : Word), NamesFresh s →
    headOp s q 17 0x29 = some (b, m) → opOf m.word = .norm acc grp n f k →
    (collRoom s q = false → exec (.norm q) s = .next s) ∧
    (∀ a, collRoom s q = true →
      firstOutside s b [((berthOf s b).cfg.scalar + 4 * n, 4), ((berthOf s b).cfg.scalar + 4 * f, 4)] = some a →
      exec (.norm q) s = .next (refuseHead (raiseCtx s q 17 0x33 b a) q 17 m)) ∧
    (∀ g, collRoom s q = true → (berthOf s b).cfg.groups[grp]? = some g →
      firstOutside s b [((berthOf s b).cfg.scalar + 4 * n, 4), ((berthOf s b).cfg.scalar + 4 * f, 4)] = none →
      ∃ u y, exec (.norm q) s = .next (pumpRun (beginGroup u s.nextId) s.nextId) ∧ y ∈ u.runs ∧ Started s u q 17 b m y ∧
        u.hbm = s.hbm ∧ y.coll.group = grp ∧ y.coll.kind = 0 ∧ y.coll.len = 1 ∧ y.coll.seq = tget 0 (berthOf s b).seqs 0 ∧
        y.coll.own = natLe 4 (normSum (s.free + (berthDecks s b).length) ((berthDecks s b).zipIdx.map (fun e =>
          if deckFenced s e.1 then Config.freeWord (s.free + e.2) else tget 0 (deckOf s e.1).nacc acc))).toNat ∧
        (∀ d ∈ berthDecks s b, tget 0 (deckOf u d).nacc acc = 0) ∧ (∀ d, d ∉ berthDecks s b → deckOf u d = deckOf s d))) ∧
  ((∀ (s : State) (q : Fin 4) (b : Nat) (m : QCmd) (o : XferOps), NamesFresh s →
    headOp s q 17 0x2A = some (b, m) → opOf m.word = .xfer o →
    (collRoom s q = false → exec (.xfer q) s = .next s) ∧
    (collRoom s q = true → o.len = 0 → o.imm = false → exec (.xfer q) s = .next (headDone s q 17 b m)) ∧
    (collRoom s q = true → o.len ≠ 0 ∨ o.imm = true →
      (∀ a, firstOutside s b [(o.laddr, o.len)] = some a →
        exec (.xfer q) s = .next (refuseHead (raiseCtx s q 17 0x33 b a) q 17 m)) ∧
      (firstOutside s b [(o.laddr, o.len)] = none →
        (connUsable s o.conn = false → exec (.xfer q) s =
          .next (refuseHead (raiseConn s (connPort s o.conn) 0x45 o.conn (o.conn + (connOf s o.conn).reason * 2 ^ 16)) q 17 m)) ∧
        (connUsable s o.conn = true → ∃ u y, exec (.xfer q) s = .next (pumpRun (issueRun u s.nextId) s.nextId) ∧ y ∈ u.runs ∧
          Started s u q 17 b m y ∧ u.hbm = s.hbm ∧ y.todo = readReqs 3 [20] o.laddr o.len ∧
          y.coll.sails = (xferSails s o).2)))) ∧
  (∀ (s : State) (q : Fin 4) (r : Run), runOf s r.id = some r → r.q = q → taskMoves s r.berth = true →
    opcodeOf r.cmd.word = 0x2A →
    (r.failed = true → exec (.xferComplete q r.id) s =
      .next (if runBusy s r.id then s else failRun (ackXfer s (runXfer r).conn r.id) r.id)) ∧
    (r.failed = false → (xferPieces r ≤ r.coll.next ∧ connUsable s (runXfer r).conn = true) →
      exec (.xferComplete q r.id) s = .next (runDone (ackXfer s (runXfer r).conn r.id) r)) ∧
    (r.failed = false → r.coll.next < xferPieces r → exec (.xferComplete q r.id) s = .next s)))

/-- Every segment that a member of a group sends, its successor in the ring expects, in the same order: for every kind, length and segment
size, in the relay as in the ring. -/
def Obligations.SegmentsSentAreExpected : Prop :=
  ∀ (n r kind len seg : Nat), 2 ≤ n → r < n → sendPlan n r kind len seg = recvPlan n ((r + 1) % n) kind len seg

/-- A collective segment accepted on a connection that a group names: under a wrong key the window check fails; a short one, one of
another version and one of another epoch are acknowledged and dropped, as is one whose operation is past; one that its lane has no room
for is answered not ready; one that no running operation matches yet is held in the lane, in arrival order, and one that matches joins the
lane's work. The detail of the failed check is a free value (log entry 33).
A reduction lane with nothing to add does nothing, and its oldest segment waits until the own contribution it needs is at hand; then
the segment leaves the lane, whatever residue errors it met, and its elements are added: each sum is that of the two elements, clamped in
INT32 and rounded in FP32, and counts the contributions of the segment and the module's own. -/
def Obligations.LaneTakesAndAddsSegments : Prop :=
  (∀ (s u : State) (k : Packet) (n : Nat) (d : List Byte), accept s k .data = (u, some n) →
    (groupNames s n = false → exec (.segmentReceive k d) s = .next u) ∧
    (groupNames s n = true → k.rkey ≠ (connOf u n).lkey →
      exec (.segmentReceive k d) s = .next (windowFail (freshWord u).2 k.port.val n (freshWord u).1.toNat)) ∧
    (groupNames s n = true → k.rkey = (connOf u n).lkey →
      (d.length < 32 ∨ leAt (d.take 32) 0 1 ≠ 1 ∨ leAt (d.take 32) 6 2 ≠ (berthOf u (connOf u n).berth).epoch.toNat →
        exec (.segmentReceive k d) s = .next (acknowledge u n (packetsOf d.length))) ∧
      (32 ≤ d.length → leAt (d.take 32) 0 1 = 1 → leAt (d.take 32) 6 2 = (berthOf u (connOf u n).berth).epoch.toNat →
        (streamRun u (connOf u n).berth (leAt (d.take 32) 4 1) (leAt (d.take 32) 8 4) = none →
          (leAt (d.take 32) 8 4 < (tget (0 : Word) (berthOf u (connOf u n).berth).seqs (leAt (d.take 32) 4 1)).toNat →
            exec (.segmentReceive k d) s = .next (acknowledge u n (packetsOf d.length))) ∧
          ((tget (0 : Word) (berthOf u (connOf u n).berth).seqs (leAt (d.take 32) 4 1)).toNat ≤ leAt (d.take 32) 8 4 →
            (4194304 < laneStore (portOf u k.port.val) + d.length →
              exec (.segmentReceive k d) s = .next (notReady u n)) ∧
            (laneStore (portOf u k.port.val) + d.length ≤ 4194304 →
              exec (.segmentReceive k d) s = .next (acknowledge (setPort u k.port.val { portOf u k.port.val with
                segs := (portOf u k.port.val).segs ++ [{ conn := n, header := d.take 32, data := d.drop 32 }] })
                n (packetsOf d.length))))) ∧
        (∀ r, streamRun u (connOf u n).berth (leAt (d.take 32) 4 1) (leAt (d.take 32) 8 4) = some r →
          (4194304 < laneStore (portOf u k.port.val) + d.length → exec (.segmentReceive k d) s = .next (notReady u n)) ∧
          (laneStore (portOf u k.port.val) + d.length ≤ 4194304 →
            segMatches u r { conn := n, header := d.take 32, data := d.drop 32 } = true →
            exec (.segmentReceive k d) s = .next (acknowledge (noteSeg (takeSegment u k.port.val r
              { conn := n, header := d.take 32, data := d.drop 32 }) r.id) n (packetsOf d.length))) ∧
          (laneStore (portOf u k.port.val) + d.length ≤ 4194304 →
            segMatches u r { conn := n, header := d.take 32, data := d.drop 32 } = false →
            exec (.segmentReceive k d) s = .next (acknowledge (setPort u k.port.val { portOf u k.port.val with
              segs := (portOf u k.port.val).segs ++ [{ conn := n, header := d.take 32, data := d.drop 32 }] })
              n (packetsOf d.length))))))) ∧
  ((∀ (s : State) (p : Fin 8) (errors : Nat),
    ((portOf s p).adding = [] → exec (.segmentAddDone p errors) s = .next s) ∧
    (∀ x l r, (portOf s p).adding = x :: l →
      streamRun s (connOf s x.conn).berth (leAt x.header 4 1) (leAt x.header 8 4) = some r →
      (addReady s r x = false → exec (.segmentAddDone p errors) s = .next s) ∧
      (addReady s r x = true → exec (.segmentAddDone p errors) s =
        .next (pumpRun (laneWork (setPort s p { portOf s p with adding := l }) p r x errors) r.id))) ∧
    (∀ x l, (portOf s p).adding = x :: l →
      streamRun s (connOf s x.conn).berth (leAt x.header 4 1) (leAt x.header 8 4) = none →
      exec (.segmentAddDone p errors) s = .next (setPort s p { portOf s p with adding := l }))) ∧
  (∀ (s : State) (r : Run) (g : CollSeg) (c i : Nat) (data : List Byte) (v : CollPart), v.pieces = [] → i < g.elems →
    let a := (addPart s r g c data v).1
    a.total = v.total + c + 1 ∧ a.own = true ∧ a.pieces.length = 1 ∧
    let w := leAt (a.pieces.flatMap (fun p => p.data)) (4 * i) 4
    let x : Word := BitVec.ofNat 32 (leAt (ownBytes s r (segStart s r g) g.elems) (4 * i) 4)
    let y : Word := BitVec.ofNat 32 (leAt data (4 * i) 4)
    BitVec.ofNat 32 w = (if (runReduce r).int32 then BitVec.ofInt 32 (clamp32 (i32 x + i32 y)) else add32 x y)))

/-! ### Tide time and the timetable (R417-R442) -/

/-- A PTP message on a sub-port where PTP does not run, or of another domain, is ignored. A Sync on the slave port measures an offset: it is
recorded; beyond 100 microseconds, and at the first lock after a reset, tide time steps by it and TIME_STEP is raised, else the servo slews; beyond
2,000 ns SYNC_LOST comes into force. A Delay_Req on another port is answered by a Delay_Resp with tide time; an Announce is noted and the best master
decided anew.
Sync and Announce leave master ports, Delay_Req the slave port, each once its interval has passed since the last one there, one second for Announce
and 62.5 ms for the others; nothing leaves a sub-port where PTP does not run. A Sync carries tide time, and of the module's own state a message that
leaves changes the time of the last one alone. -/
def Obligations.PtpSteersTideTimeAndIsPassedOn : Prop :=
  (∀ (s : State) (p : Fin 8) (k : Fin 4) (d : Nat),
    (∀ m, ptpRuns s p k = false → exec (.ptpMessageReceive p k m) s = .next s) ∧
    (∀ o, d ≠ ptpDomain s ∨ s.time.slave ≠ some (p.val, k.val) → exec (.ptpMessageReceive p k (.sync d o)) s = .next s) ∧
    (∀ o, ptpRuns s p k = true → d = ptpDomain s → s.time.slave = some (p.val, k.val) →
      ∃ t, exec (.ptpMessageReceive p k (.sync d o)) s = .next t ∧ t = { s with time := t.time, occ := t.occ, ends := t.ends } ∧
        t.time.offset = o ∧ t.time.holdSince = none ∧ t.time.st = afterOffset s.time.st o ∧
        t.time.syncLost = (s.time.syncLost || decide (2000 < o.natAbs)) ∧ (o.natAbs ≤ 500 → t.time.okSince ≠ none) ∧
        (500 < o.natAbs → t.time.okSince = none) ∧
        (o.natAbs ≤ 100000 → s.time.stepped = true → t.time.tide = s.time.tide ∧ t.time.slew = -o) ∧
        (100000 < o.natAbs ∨ s.time.stepped = false →
          t.time.tide = (((s.time.tide : Int) - o) % (2 ^ 64 : Int)).toNat ∧ t.time.slew = 0 ∧ t.time.stepped = true ∧
          ∃ x ∈ t.occ, x.source = sourceId 3 1 0x50 ∧ x.detail.toNat = unsigned 64 (-o))) ∧
    (ptpRuns s p k = true → d = ptpDomain s → s.time.slave ≠ some (p.val, k.val) →
      exec (.ptpMessageReceive p k (.delayReq d)) s = .next (send s (.delayResp p k [ptpDomain s, s.time.tide]))) ∧
    (∀ p1 cl ac va p2 id st, ptpRuns s p k = true → d = ptpDomain s →
      exec (.ptpMessageReceive p k (.announce d p1 cl ac va p2 id st)) s = .next (decideMaster { s with time := { s.time with
        bases := tput s.time.bases (4 * p + k) { prio1 := p1, clockClass := cl, accuracy := ac, variance := va, prio2 := p2, identity := id, steps := st, at_ := s.time.mono } } }))) ∧
  (∀ (s : State) (p : Fin 8) (k : Fin 4),
    (∀ m, ptpRuns s p k = false ∨ ptpDue s p k m = false → exec (.ptpMessageSend p k m) s = .next s) ∧
    (∀ m, ptpDue s p k m = false ↔ ∃ e, (linkOf s p k).ptpAt.find? (fun e => e.1 == ptpIndex m) = some e ∧
      s.time.mono < e.2 + (if m = .announce then 1000000000 else 62500000)) ∧
    (s.time.slave = some (p.val, k.val) →
      exec (.ptpMessageSend p k .announce) s = .next s ∧ exec (.ptpMessageSend p k .sync) s = .next s) ∧
    (s.time.slave ≠ some (p.val, k.val) → exec (.ptpMessageSend p k .delayReq) s = .next s) ∧
    (∀ m, ptpRuns s p k = true → ptpDue s p k m = true → (m = .delayReq ↔ s.time.slave = some (p.val, k.val)) →
      ∃ t l, exec (.ptpMessageSend p k m) s = .next t ∧ t = { s with out := s.out ++ [.ptp p k m (ptpDomain s :: l)], ports := t.ports } ∧
        linkOf t p k = { linkOf s p k with ptpAt := tput (linkOf s p k).ptpAt (ptpIndex m) s.time.mono } ∧
        (m = .sync → l = [s.time.tide]) ∧ (m = .delayReq → l = []) ∧
        (m = .announce → s.time.slave = none → l.headD 0 = regBits s (ttBase + 0x10) 23 16)))

/-- A locked module whose slave port loses its master enters holdover, one that was locking runs free; holdover without a master for two
seconds brings SYNC_LOST into force, and an offset within 500 ns for one second ends it and locks the module, scheduled mode resuming at
the next sailing boundary. Before its time each of the three does nothing.
PPS_OUT is high for 100 ms from each whole second of tide time while the module counts as locked and OUT_EN = 1. A pulse on PPS_IN is
ignored where its mode is off, rejected where it is shorter than 100 ns or longer than 500 ms, or in discipline mode further than 1 ms
from a whole second, and else timestamped; without an accepted edge for 1.1 s PPS_IN no longer counts as good. -/
def Obligations.LockHoldoverAndPulses : Prop :=
  (∀ s : State,
    (∀ k e, s.time.slave = some k → s.time.bases.find? (fun e => e.1 == 4 * k.1 + k.2) = some e →
      (s.time.mono < e.2.at_ + 3000000000 → exec .announceReceiptTimeout s = .next s) ∧
      (e.2.at_ + 3000000000 ≤ s.time.mono → bestMaster { s with time := { s.time with bases := tdel s.time.bases (4 * k.1 + k.2) } } = none →
        exec .announceReceiptTimeout s = .next { s with time := { s.time with
          slave := none, okSince := none, bases := tdel s.time.bases (4 * k.1 + k.2),
          holdSince := if s.time.st = .locked then some s.time.mono else s.time.holdSince,
          st := if s.time.st = .locked then .holdover else if s.time.st = .locking then .free else s.time.st } })) ∧
    (∀ a, s.time.okSince = some a →
      (s.time.mono < a + 1000000000 → exec .lockQualify s = .next s) ∧
      (a + 1000000000 ≤ s.time.mono → exec .lockQualify s = .next { s with time := { s.time with
        st := if s.time.st = .locking then .locked else s.time.st, syncLost := false,
        schedFrom := if s.time.syncLost then (sailStart s (sailFrom s s.time.tide)).toNat else s.time.schedFrom } })) ∧
    (∀ a, s.time.holdSince = some a → s.time.st = .holdover → s.time.slave = none →
      (s.time.mono < a + 2000000000 → exec .holdoverTimeout s = .next s) ∧
      (a + 2000000000 ≤ s.time.mono → s.time.syncLost = false →
        exec .holdoverTimeout s = .next (raiseChip { s with time := { s.time with syncLost := true } } 1 0x51 1))) ∧
    (s.time.slave = none → bestMaster s = none → gmEn s = true → 6 ≤ s.boot.phase → 3000000000 ≤ s.time.mono → s.time.st ≠ .grandmaster →
      exec .announceReceiptTimeout s = .next { s with time := { s.time with
        st := .grandmaster, slave := none, okSince := none, holdSince := none } })) ∧
  (∀ (s : State) (high : Nat),
    exec .ppsOutPulse s = .next { s with time := { s.time with
      ppsOut := countsLocked s && regBits s (ttBase + 0x14) 31 31 == 1 && decide (s.time.tide % 1000000000 < 100000000) } } ∧
    (regBits s (ttBase + 0x14) 30 29 ≠ 1 → regBits s (ttBase + 0x14) 30 29 ≠ 2 → exec (.ppsInEdge high) s = .next s) ∧
    (regBits s (ttBase + 0x14) 30 29 = 1 ∨ regBits s (ttBase + 0x14) 30 29 = 2 →
      (high < 100 ∨ 500000000 < high ∨ regBits s (ttBase + 0x14) 30 29 = 2 ∧ 1000000 < (fromSecond s.time.tide).natAbs →
        ∃ t, exec (.ppsInEdge high) s = .next t ∧ t.time.ppsRejects.toNat = min (s.time.ppsRejects.toNat + 1) 65535 ∧
          t.time.ppsLast = s.time.ppsLast ∧ t.time.tide = s.time.tide) ∧
      (100 ≤ high → high ≤ 500000000 →
        (regBits s (ttBase + 0x14) 30 29 = 2 → (fromSecond s.time.tide).natAbs ≤ 1000000) →
        ∃ t, exec (.ppsInEdge high) s = .next t ∧ t.time.ppsLast = s.time.tide ∧ t.time.ppsMono = some s.time.mono ∧
          t.time.ppsRejects = s.time.ppsRejects ∧
          (regBits s (ttBase + 0x14) 30 29 = 1 → t.time.ppsOk = false ∧ t.time.tide = s.time.tide ∧ t.time.slew = s.time.slew))) ∧
    (∀ a, s.time.ppsMono = some a →
      (a + 1100000000 < s.time.mono → exec .ppsInTimeout s = .next { s with time := { s.time with ppsOk := false } }) ∧
      (s.time.mono ≤ a + 1100000000 → exec .ppsInTimeout s = .next s)))

/-- A timetable load starts unless one is in progress, and the active timetable stays in force meanwhile. A load whose epoch has passed is
discarded with TBL_LATE; an image with a refused entry is discarded whole with TBL_REJECT, which names the entry, and one of which a byte is poisoned
is discarded too; an accepted one waits for its cycle start and becomes active there as one, its generation one higher. -/
def Obligations.TimetableLoadsWholeOrNotAtAll : Prop :=
  ∀ s : State,
    (s.time.tblState = .loading → exec .ttTblLoadGo s = .next s) ∧
    (s.time.tblState ≠ .loading → exec .ttTblLoadGo s = .next { s with time := { s.time with
      tblState := .loading, tblReject := false, tblLate := false, standby := [] } }) ∧
    (∀ mem, s.time.tblState ≠ .loading → exec (.ttTblLoadDone mem) s = .next s) ∧
    (s.time.tblState = .loading →
      (∀ mem, tblEpoch s ≤ s.time.tide → exec (.ttTblLoadDone mem) s = .next (raiseChip { s with time := { s.time with
        tblState := .idle, tblLate := true, standby := [] } } 1 0x54 s.time.tblGen.toNat)) ∧
      (∀ b, s.time.tide < tblEpoch s → s.man.mgmtBerth = some b → outside s b (tblBase s) 0x400000 = none →
        poisonIn s (tblBase s) 0x400000 ≠ [] → ∃ t, exec (.ttTblLoadDone {}) s = .next t ∧ t.time.tblState = .idle ∧
          t.time.tblReject = true ∧ t.time.active = s.time.active) ∧
      (s.time.tide < tblEpoch s →
        (∀ b, s.man.mgmtBerth = some b → outside s b (tblBase s) 0x400000 = none → poisonIn s (tblBase s) 0x400000 = []) →
        (∀ e, ttRefused s = some e → exec (.ttTblLoadDone {}) s = .next (raiseChip { s with time := { s.time with
          tblState := .idle, tblReject := true, standby := [] } } 1 0x53 (e.1 + e.2 * 2 ^ 16))) ∧
        (ttRefused s = none → exec (.ttTblLoadDone {}) s = .next { s with time := { s.time with
          tblState := .waiting, standby := ttImage s } })) ∧
      (s.time.tide < tblEpoch s → exec .ttTblActivate s = .next s)) ∧
    (s.time.tblState = .waiting →
      ((s.time.tide : Int) < cycleStart s → exec .ttTblActivate s = .next s) ∧
      (cycleStart s ≤ (s.time.tide : Int) → exec .ttTblActivate s = .next { s with time := { s.time with
        tblState := .idle, active := s.time.standby, standby := [], tblOn := true, tblGen := s.time.tblGen + 1 } })) ∧
    (s.time.tblState = .idle → exec .ttTblActivate s = .next s)

/-- At a sailing boundary a port outside scheduled mode, down or split does nothing. In a local sailing the item bound to it leaves if it
is ready in time; one bound to a later sailing, or none, leaves the sailing a gap. In a transit sailing the transit frames leave that had
arrived 300 ns before it and fit. Late segments are told at most once a millisecond, with their number. -/
def Obligations.SailingsServeWhatTheyCarry : Prop :=
  ∀ (s : State) (p : Fin 8),
    (scheduled s = false ∨ ((portOf s p).state ≠ .up ∧ (portOf s p).state ≠ .remapped) ∨ splitOf s p ≠ 0 →
      exec (.sailingBoundary p) s = .next s) ∧
    (∀ k e, scheduled s = true → (portOf s p).state = .up ∨ (portOf s p).state = .remapped → splitOf s p = 0 →
      k = sailAt s s.time.tide → e = sailEntry s (lportOf s p) k →
      (bits e 63 62 ≠ 1 → bits e 63 62 ≠ 2 → exec (.sailingBoundary p) s = .next (gap s p k)) ∧
      (bits e 63 62 = 1 → (portOf s p).sailed ≠ some k →
        (boundRun s (bits e 39 27) = none → exec (.sailingBoundary p) s = .next (gap s p k)) ∧
        (∀ r b, boundRun s (bits e 39 27) = some r → runSailing r = some b →
          (k < b ∨ inTime s k (itemPackets s r) = false → exec (.sailingBoundary p) s = .next (gap s p k)) ∧
          (b ≤ k → inTime s k (itemPackets s r) = true →
            (itemReady s r = false → exec (.sailingBoundary p) s = .next s) ∧
            (itemReady s r = true → exec (.sailingBoundary p) s = .next
              (sendItem (setPort s p { portOf s p with sailed := some k }) p r (decide (b < k)) true))))) ∧
      (bits e 63 62 = 2 → (portOf s p).sailed = some k → exec (.sailingBoundary p) s = .next s) ∧
      (bits e 63 62 = 2 → (portOf s p).sailed ≠ some k → exec (.sailingBoundary p) s = .next (transitSailing s p k (bits e 61 59)))) ∧
    ((portOf s p).lateSince = 0 → exec (.sailingLate p) s = .next s) ∧
    (∀ a, (portOf s p).lateAt = some a → s.time.mono < a + 1000000 → exec (.sailingLate p) s = .next s) ∧
    ((portOf s p).lateSince ≠ 0 → (∀ a, (portOf s p).lateAt = some a → a + 1000000 ≤ s.time.mono) →
      exec (.sailingLate p) s = .next (raiseChip (setPort s p { portOf s p with lateSince := 0, lateAt := some s.time.mono })
        (8 + p) 0x47 (portOf s p).lateSince))

/-! ### Ports (R373-R416, R468-R472) -/

/-- The links of a port: bring-up goes step by step, each step within its limit; a failed step starts it again, after the time that follows a failure,
and the eighth failure in a row raises LINK_TRAIN_FAIL; a step that has not begun or whose limit has passed is not done, and one whose limit has not
passed has not failed;
a link that was up and is lost is counted and raises LINK_DOWN with its cause, a second's uncorrectable codewords above the limit take it
down with cause 2, and SERDES_FAIL is raised for a fitted port that is not fenced, which it fences where its class is FENCE.
A landing card leaves a link that is up when it is due, as the TLV of Gwefin's company identifier; a card of that company and the right subtype,
length and version that arrives there is held with its fields and the port classified, any other ignored; a card past its time to live is dropped and the port classified again, as is a port
that has waited ten seconds for its card. -/
def Obligations.LinksAndLandingCards : Prop :=
  (∀ (s : State) (p : Fin 8) (k : Fin 4),
    (planKind s p ≠ 1 ∨ subPorts s p = 1 →
      (mayBringUp s p k = false ∨ (linkOf s p k).step = 4 → ∀ o, exec (.portBringupStep p k o) s = .next s) ∧
      (∀ n limit, mayBringUp s p k = true → (linkOf s p k).step ≠ 4 → n = nextStep s p (linkOf s p k).step →
        limit = (if n ≤ 2 then 500000000 else if n = 3 then 10000000 else 1000000) →
        (∀ a, (linkOf s p k).since = some a → s.time.mono < a ∨ a + limit < s.time.mono →
          ∃ t, exec (.portBringupStep p k .done) s = .next t ∧ linkOf t p k = linkOf s p k) ∧
        (∀ a, (linkOf s p k).since = some a → s.time.mono < a + limit →
          ∃ t, exec (.portBringupStep p k .failed) s = .next t ∧ linkOf t p k = linkOf s p k) ∧
        ((∀ a, (linkOf s p k).since = some a → a ≤ s.time.mono ∧ s.time.mono ≤ a + limit) → n ≠ 4 →
          ∃ t, exec (.portBringupStep p k .done) s = .next t ∧ (linkOf t p k).step = n ∧ (linkOf t p k).since = some s.time.mono ∧
            (portOf t p).state = (if anyUp s p then (portOf s p).state else .training)) ∧
        ((∀ a, (linkOf s p k).since = some a → a + limit ≤ s.time.mono) → n ≠ 4 → ∃ t, exec (.portBringupStep p k .failed) s = .next t ∧
          (linkOf t p k).step = 0 ∧ (linkOf t p k).fails = (linkOf s p k).fails + 1 ∧
          (linkOf t p k).since = some (s.time.mono +
            (if 8 ≤ (linkOf s p k).fails + 1 then 10000000000 else if n ≤ 2 then 1000000000 else 0)) ∧
          ((linkOf s p k).fails ≠ 7 → t.occ = s.occ) ∧
          ((linkOf s p k).fails = 7 → ∃ x, t.occ = s.occ ++ [x] ∧ x.source = sourceId 3 (8 + p) 0x41)) ∧
        ((∀ a, (linkOf s p k).since = some a → a ≤ s.time.mono ∧ s.time.mono ≤ a + limit) → n = 4 → anyUp s p = false →
          ∃ u, exec (.portBringupStep p k .done) s = .next (classify u p) ∧
            linkUp u p k = true ∧ (linkOf u p k).upAt = s.time.mono ∧ (portOf u p).state = .awaiting ∧
            u.out = s.out ++ [.card p k ([0xFE, 0x14, 0x4A, 0xC2, 0xE5, 0x01] ++ ownCard u p) 120]))) ∧
    (∀ cause, linkUp s p k = false → exec (.linkDown p k cause) s = .next s) ∧
    (∀ cause, linkUp s p k = true → exec (.linkDown p k cause) s = .next (dropLink (raiseChip (setPort s p { portOf s p with
      linkDown := satInc (portOf s p).linkDown 1 }) (8 + p) 0x40 (cause + k * 16)) p k)) ∧
    (∀ c u, linkUp s p k = false → exec (.fecLimitWindow p k c u) s = .next s) ∧
    (∀ c u, linkUp s p k = true →
      (regBits s (ptBase p + 0x28) 15 0 = 0 ∨ u ≤ regBits s (ptBase p + 0x28) 15 0 →
        exec (.fecLimitWindow p k c u) s = .next (setPort s p { portOf s p with
          fecCorr := satInc (portOf s p).fecCorr c, fecUncorr := satInc (portOf s p).fecUncorr u })) ∧
      (regBits s (ptBase p + 0x28) 15 0 ≠ 0 → regBits s (ptBase p + 0x28) 15 0 < u →
        exec (.fecLimitWindow p k c u) s = .next (loseLink (setPort s p { portOf s p with
          fecCorr := satInc (portOf s p).fecCorr c, fecUncorr := satInc (portOf s p).fecUncorr u }) p k 2))) ∧
    (∀ l : BitVec 8, (fittedPort s p = false ∨ portFenced s p = true → exec (.serdesFail p l) s = .next s) ∧
      (fittedPort s p = true → portFenced s p = false → exec (.serdesFail p l) s = .next
        (if faultClass s 0x46 = 3 then fencePort (raiseChip s (8 + p) 0x46 l.toNat) p else raiseChip s (8 + p) 0x46 l.toNat)))) ∧
  (∀ (s : State) (p : Fin 8) (k : Fin 4),
    (linkUp s p k = false ∨ cardDue s p k = false → exec (.landingCardSend p k) s = .next s) ∧
    (linkUp s p k = true → cardDue s p k = true → ∃ t, exec (.landingCardSend p k) s = .next t ∧
      t.out = s.out ++ [.card p k ([0xFE, 0x14, 0x4A, 0xC2, 0xE5, 0x01] ++ ownCard s p) 120] ∧ (linkOf t p k).sentAt = some s.time.mono ∧ (linkOf t p k).sent = ownCard s p) ∧
    (∀ company sub info ttl mac, linkUp s p k = false ∨ company ≠ 0x4AC2E5 ∨ sub ≠ 1 ∨ info.length ≠ 16 ∨ leAt info 0 1 ≠ 1 →
      exec (.landingCardReceive p k company sub info ttl mac) s = .next s) ∧
    (∀ info ttl mac, linkUp s p k = true → info.length = 16 → leAt info 0 1 = 1 →
      ∃ u c, exec (.landingCardReceive p k 0x4AC2E5 1 info ttl mac) s = .next (classify u p) ∧ c.mac = mac ∧ (linkOf u p k).card = some c ∧
        c.sys = BitVec.ofNat 8 (leAt info 1 1) ∧ c.device = BitVec.ofNat 14 (leAt info 2 2) ∧ c.port = leAt info 4 1 % 8 ∧
        c.role = BitVec.ofNat 8 (leAt info 5 1) ∧ c.contract = BitVec.ofNat 16 (leAt info 8 2) ∧
        c.fw = BitVec.ofNat 32 (leAt info 12 4) ∧ c.at_ = s.time.mono ∧ c.ttl = ttl) ∧
    (∀ c, (linkOf s p k).card = some c →
      (s.time.mono < c.at_ + c.ttl * 1000000000 → exec (.landingCardTtlExpire p k) s = .next s) ∧
      (c.at_ + c.ttl * 1000000000 ≤ s.time.mono → planKind s p ≠ 1 →
        exec (.landingCardTtlExpire p k) s = .next (classify (setLink s p k { linkOf s p k with card := none }) p))) ∧
    (exec (.cardAwaitTimeout p) s = .next
      (if (portOf s p).state = .awaiting ∧ (linkOf s p 0).upAt + 10000000000 ≤ s.time.mono then classify s p else s)))

/-- A new mode or plan is ignored on a port that is absent, and a mode that changes nothing has no effect; a changed prefix puts every
connection into the error state; a solicitation is answered for the module's own addresses and else dropped, as are IPv4, ARP and other IPv6 frames;
and a transit frame is dropped and counted on a port that is not up, and else joins the frames of the port it leaves on, at once outside scheduled mode,
where it waits while its priority is paused.
Pause frames and connections: XOFF pauses an enabled priority and XON ends it, the watchdog ends a pause that has lasted its time, each letting the
frames go that waited; a priority that ignores pauses takes them again after 100 ms without one. A NAK fails its connection or tries its oldest request
once more, an RNR NAK after its timer, until the tries are used up, as does silence for T; a CNP cuts the rate at most once a period, not below 1/1,024, and a period without a cut
raises it, not above the full rate. -/
def Obligations.PortSettingsTransitAndFlow : Prop :=
  (∀ (s : State) (p : Fin 8),
    (∀ v, fittedPort s p = false → exec (.portModeWrite p v) s = .next s ∧ exec (.portPlanWrite p v) s = .next s) ∧
    (∀ v : Word, fittedPort s p = true → bits v.toNat 30 28 ≤ 2 → bits v.toNat 27 26 ≤ 2 →
      (bits v.toNat 31 31 * 2 ^ 31 + bits v.toNat 30 28 * 2 ^ 28 + bits v.toNat 27 26 * 2 ^ 26 = portMode s p →
        exec (.portModeWrite p v) s = .next s) ∧
      (bits v.toNat 31 31 * 2 ^ 31 + bits v.toNat 30 28 * 2 ^ 28 + bits v.toNat 27 26 * 2 ^ 26 ≠ portMode s p → anyUp s p = false →
        ∃ t, exec (.portModeWrite p v) s = .next t ∧
          portMode t p = bits v.toNat 31 31 * 2 ^ 31 + bits v.toNat 30 28 * 2 ^ 28 + bits v.toNat 27 26 * 2 ^ 26 ∧
          ∀ k, k < 4 → (linkOf t p k).step = 0)) ∧
    (∀ v : Word, fittedPort s p = true → bits v.toNat 31 30 = 2 →
      ∃ u, portPlan u p = bits v.toNat 31 5 * 32 ∧ exec (.portPlanWrite p v) s =
        .next (if anyUp u p then classify u p else if portFenced u p then u else setPortState u p (downState u p) (downCause u p))) ∧
    (∀ h v, exec (.netPrefixWrite h v) s = .next (if regGet s (mgBase + (if h then 0x154 else 0x150)) = v then s else
      (s.conns.map (·.1)).foldl (fun t n => connFail t n 5 true) (regSet s (mgBase + (if h then 0x154 else 0x150)) v))) ∧
    (∀ (k : Fin 4) f, linkUp s p k = false → exec (.neighborSolicitation p k f) s = .next s) ∧
    (∀ (k : Fin 4) f, linkUp s p k = true → f ∈ [NetFrame.ipv4, .arp, .ipv6] →
      exec (.neighborSolicitation p k f) s = .next (countDrop s p)) ∧
    (∀ (k j : Fin 4) (r : Fin 8) (a : BitVec 128), linkUp s p k = true → fittedPort s r = true → j.val < subPorts s r →
      ownAddress s r j = a.toNat → exec (.neighborSolicitation p k (.solicitation a)) s = .next (send s (.advertisement p k a))) ∧
    (∀ (k : Fin 4) (a : BitVec 128), linkUp s p k = true → (∀ r j, r < 8 → j < 4 → ownAddress s r j ≠ a.toNat) →
      exec (.neighborSolicitation p k (.solicitation a)) s = .next (countDrop s p)) ∧
    (∀ f, anyUp s p = false → exec (.transitFrame p f) s = .next s) ∧
    (∀ f, anyUp s p = true → f.sys.toNat ≠ ownSys s ∨ f.device.toNat ≠ ownDevice s →
      ((portOf s p).state ≠ .up → (portOf s p).state ≠ .remapped → exec (.transitFrame p f) s = .next (countDrop s p)) ∧
      ((portOf s p).state = .up ∨ (portOf s p).state = .remapped →
        (transitPort s p f = none → exec (.transitFrame p f) s = .next (countDrop s p)) ∧
        (∀ q, transitPort s p f = some q → scheduled s = true → exec (.transitFrame p f) s = .next (setPort s q { portOf s q with
          transit := (portOf s q).transit ++ [{ frame := f, at_ := s.time.tide }] })) ∧
        (∀ q, transitPort s p f = some q → scheduled s = false → (portOf s q).transit = [] → ∃ t, exec (.transitFrame p f) s = .next t ∧
          (portOf t q).transit = [] ∧
          (paused s q f.pcp = false → t.out = s.out ++ [.transit q { f with hop := f.hop - 1 }]) ∧
          (paused s q f.pcp = true → t.out = s.out ∧
            (portOf t q).held = (portOf s q).held ++ [(f.pcp, .transit q { f with hop := f.hop - 1 })]))))) ∧
  ((∀ (s : State) (p n : Fin 8),
    (∀ x, anyUp s p = true → (portOf s p).state ≠ .quarantined → (portOf s p).state ≠ .awaiting →
      (bit (regGet s (ptBase p + 0x20)).toNat n = false → exec (.pfcFrameReceive p n x) s = .next s) ∧
      (bit (regGet s (ptBase p + 0x20)).toNat n = true →
        exec (.pfcFrameReceive p n false) s = .next (releaseHeld (setPfc s p n { pfcOf s p n with pausedAt := none }) p n) ∧
        ∃ t, exec (.pfcFrameReceive p n true) s = .next t ∧ (pfcOf t p n).lastXoff = s.time.mono ∧
          ((pfcOf s p n).ignoring = true → (pfcOf t p n).pausedAt = none) ∧
          ((pfcOf s p n).ignoring = false → (pfcOf t p n).pausedAt = some ((pfcOf s p n).pausedAt.getD s.time.mono)))) ∧
    (∀ a, (pfcOf s p n).pausedAt = some a → exec (.pfcWatchdogExpire p n) s = .next
      (if regBits s (ptBase p + 0x20) 23 16 ≠ 0 ∧ a + regBits s (ptBase p + 0x20) 23 16 * 1000000 ≤ s.time.mono
       then raiseChip (releaseHeld (setPfc s p n { pfcOf s p n with pausedAt := none, ignoring := true }) p n) (8 + p) 0x44 n else s)) ∧
    (exec (.pfcWatchdogRearm p n) s = .next
      (if (pfcOf s p n).ignoring = true ∧ (pfcOf s p n).lastXoff + 100000000 ≤ s.time.mono
       then setPfc s p n { pfcOf s p n with ignoring := false } else s))) ∧
  (∀ (s : State) (n : Fin 8192),
    (∀ k m w, connUsable s n = false → exec (.nakReceive n k m w) s = .next s ∧ exec (.retransmitTimeout n m) s = .next s) ∧
    (∀ m w, connUsable s n = true → carries s n = true →
      exec (.nakReceive n .remoteAccess m w) s = .next (connFail (ackRequests s n m) n 1 true) ∧
      exec (.nakReceive n .invalidRequest m w) s = .next (connFail (ackRequests s n m) n 2 true)) ∧
    (∀ w, connUsable s n = true → carries s n = true → (connOf s n).reqs ≠ [] →
      ((connOf s n).tries < (connOf s n).retry →
        exec (.nakReceive n .sequence 0 w) s =
          .next (resend (setConn s n { connOf s n with tries := (connOf s n).tries + 1, rnrUntil := none }) n) ∧
        exec (.nakReceive n .rnr 0 w) s =
          .next (setConn s n { connOf s n with tries := (connOf s n).tries + 1, rnrUntil := some (s.time.mono + w) })) ∧
      ((connOf s n).retry ≤ (connOf s n).tries → exec (.nakReceive n .sequence 0 w) s = .next (connTimeLimit s n) ∧
        exec (.nakReceive n .rnr 0 w) s = .next (connTimeLimit s n))) ∧
    (∀ x l, connUsable s n = true → (connOf s n).reqs = x :: l → x.unsent = none → (connOf s n).rnrUntil = none →
      (s.time.mono < x.at_ + 4096 * 2 ^ (connOf s n).tmo → exec (.retransmitTimeout n 0) s = .next s) ∧
      (x.at_ + 4096 * 2 ^ (connOf s n).tmo ≤ s.time.mono →
        ((connOf s n).tries < (connOf s n).retry → exec (.retransmitTimeout n 0) s =
          .next (resend (setConn s n { connOf s n with tries := (connOf s n).tries + 1, rnrUntil := none }) n)) ∧
        ((connOf s n).retry ≤ (connOf s n).tries → exec (.retransmitTimeout n 0) s = .next (connTimeLimit s n)))) ∧
    ((connOf s n).rnrUntil = none → exec (.rnrRetry n) s = .next s) ∧
    (∀ t, (connOf s n).rnrUntil = some t →
      exec (.rnrRetry n) s = .next (if connUsable s n = true ∧ t ≤ s.time.mono then resend s n else s)) ∧
    (∀ x l, connUsable s n = true → carries s n = true → (connOf s n).reqs = x :: l →
      paused s (connPort s n) (kindPcp s n x.kind false) = false → ∃ f, (resend s n).out = s.out ++ [.roce n f .resend]) ∧
    (∃ t, exec (.cnpReceive n false) s = .next t ∧
      (t ≠ s → (connOf t n).rate = max 1024 ((connOf s n).rate * (16 - bits (ccOf s n) 15 12) / 16) ∧
        (connOf t n).cutAt = some s.time.mono) ∧
      (connUsable s n = true → carries s n = true → bit (ccOf s n) 31 = true → (connOf s n).cutAt = none →
        (connOf t n).cutAt = some s.time.mono) ∧
      (∀ a, (connOf s n).cutAt = some a → s.time.mono < a + ccPeriod s n → t = s)) ∧
    (exec (.cnpReceive n true) s = .next s) ∧
    (connUsable s n = true → ∃ t, exec (.ccRateIncrease n) s = .next t ∧
      (bit (ccOf s n) 31 = false → (connOf t n).rate = 1048576) ∧
      (bit (ccOf s n) 31 = true → (connOf s n).riseAt + ccPeriod s n ≤ s.time.mono →
        (connOf t n).rate = min 1048576 ((connOf s n).rate + bits (ccOf s n) 23 16 * 4096) ∧ (connOf t n).riseAt = s.time.mono) ∧
      (bit (ccOf s n) 31 = true → s.time.mono < (connOf s n).riseAt + ccPeriod s n → t = s))))

/-! ### Inbound RDMA and the memory system (R34-R43, R248-R252, R312-R352, R398-R405, R491-R496, R618) -/

/-- A request that is not accepted does nothing but what its dropping does. Accepted under a wrong key it fails its window check. A WRITE or
READ of HBM outside the windows of its connection's berth fails that check at the first address outside; one within them waits in its port while the
chip allotment is full, and else writes or answers with exactly the bytes addressed, unless a block it needs is poisoned. Management space and the
debug view serve connection 0 and the management berth alone. -/
def Obligations.InboundAccessIsChecked : Prop :=
  (∀ (s u : State) (k : Packet) (a : Nat) (d : List Byte) (mem : HbmOutcome), accept s k .data = (u, none) →
    exec (.inboundRdmaWrite k a d mem) s = .next u) ∧
  (∀ (s u : State) (k : Packet) (a len : Nat) (mem : HbmOutcome), accept s k .read = (u, none) →
    exec (.inboundRdmaRead k a len mem) s = .next u) ∧
  (∀ (s u : State) (k : Packet) (n a : Nat) (d : List Byte) (mem : HbmOutcome), accept s k .data = (u, some n) →
    (k.rkey ≠ (connOf u n).lkey → exec (.inboundRdmaWrite k a d mem) s = .next (windowFail u k.port.val n a)) ∧
    (k.rkey = (connOf u n).lkey →
      (a < 2 ^ 38 → (connOf u n).ctrl = false →
        (∀ x, outside u (connOf u n).berth a (max 1 d.length) = some x →
          exec (.inboundRdmaWrite k a d mem) s = .next (windowFail u k.port.val n x)) ∧
        (outside u (connOf u n).berth a (max 1 d.length) = none →
          (stepRoom u [20] = false → exec (.inboundRdmaWrite k a d mem) s = .next u) ∧
          (stepRoom u [20] = true → (∀ e ∈ u.quays, e.2.threads = []) →
            (partPoison u a d.length = none →
              exec (.inboundRdmaWrite k a d {}) s = .next (acknowledge (hbmWrite u a d) n (packetsOf d.length))) ∧
            (∀ x, partPoison u a d.length = some x → exec (.inboundRdmaWrite k a d {}) s = .next (accessFail
              (raiseInbound (hbmWrite u a d) n 3 (8 + k.port) 0x32 (poisonDetail (hbmWrite u a d) x)) n))))) ∧
      (targetAt a = .ctrl → (connOf u n).ctrl = false →
        exec (.inboundRdmaWrite k a d mem) s = .next (windowFail u k.port.val n a)) ∧
      (∀ b off, targetAt a = .debug b off → (connOf u n).ctrl = false →
        exec (.inboundRdmaWrite k a d mem) s = .next (accessFail u n)) ∧
      ((connOf u n).ctrl = true → targetAt a = .ctrl → a % 4 = 0 → d.length % 4 = 0 → staysIn a d.length = true →
        restarts n a d.length = false →
        exec (.inboundRdmaWrite k a d mem) s = .next (acknowledge (ctrlWrite u a d) n (packetsOf d.length))))) ∧
  (∀ (s u : State) (k : Packet) (n a len : Nat) (mem : HbmOutcome), accept s k .read = (u, some n) →
    (k.rkey ≠ (connOf u n).lkey → exec (.inboundRdmaRead k a len mem) s = .next (windowFail u k.port.val n a)) ∧
    (k.rkey = (connOf u n).lkey →
      (a < 2 ^ 38 → (connOf u n).ctrl = false →
        (∀ x, outside u (connOf u n).berth a (max 1 len) = some x →
          exec (.inboundRdmaRead k a len mem) s = .next (windowFail u k.port.val n x)) ∧
        (outside u (connOf u n).berth a (max 1 len) = none →
          (stepRoom u [20] = false → exec (.inboundRdmaRead k a len mem) s = .next u) ∧
          (stepRoom u [20] = true → poisonIn u a len = [] →
            exec (.inboundRdmaRead k a len {}) s = .next (respond u k n (hbmRead u a len))))) ∧
      (targetAt a = .ctrl → (connOf u n).ctrl = false →
        exec (.inboundRdmaRead k a len mem) s = .next (windowFail u k.port.val n a)) ∧
      (∀ b off, targetAt a = .debug b off → (connOf u n).ctrl = false →
        exec (.inboundRdmaRead k a len mem) s = .next (accessFail u n)) ∧
      ((connOf u n).ctrl = true → targetAt a = .ctrl → a % 4 = 0 → len % 4 = 0 → staysIn a len = true →
        exec (.inboundRdmaRead k a len mem) s = .next (respond (ctrlRead (len / 4) a u).1 k n (ctrlRead (len / 4) a u).2))))

/-- Command memory is written and read in whole commands of a connection's own berth, connection 0 and management apart: a write into a
half that may not be written raises HALF_BUSY and is refused; another writes its bytes, and a WRITE WITH IMMEDIATE arms the half under a
new generation; a read answers the bytes. A collective's immediate on a connection of a group reaches its reduction lane. -/
def Obligations.CommandMemoryIsWrittenArmedAndRead : Prop :=
  (∀ (s : State) (k : Packet) (a len : Nat) (d : List Byte), isCmd a = false →
    exec (.cmdMemWrite k a d) s = .next s ∧ exec (.cmdHalfArm k a d) s = .next s ∧ exec (.cmdMemRead k a len) s = .next s) ∧
  (∀ (s u : State) (k : Packet) (a : Nat) (d : List Byte), accept s k .data = (u, none) → isCmd a = true →
    exec (.cmdMemWrite k a d) s = .next u ∧ exec (.cmdHalfArm k a d) s = .next u) ∧
  (∀ (s u : State) (k : Packet) (a len : Nat), accept s k .read = (u, none) → isCmd a = true →
    exec (.cmdMemRead k a len) s = .next u) ∧
  (∀ (s u : State) (k : Packet) (n q off b a : Nat) (d : List Byte) (imm : Word) (mem : HbmOutcome),
    accept s k .data = (u, some n) → k.rkey = (connOf u n).lkey → targetAt a = .cmd q off →
    (accessBerth u q off d.length = none ∨ wholeCommands off d.length = false →
      exec (.cmdMemWrite k a d) s = .next (accessFail u n) ∧ exec (.cmdHalfArm k a d) s = .next (accessFail u n)) ∧
    (accessBerth u q off d.length = some b → wholeCommands off d.length = true → (connOf u n).berth = b ∨ (connOf u n).ctrl = true →
      (halfWritable u q b (off / 0x40000) = false → ∃ x, x < 2 ^ 16 ∧
        exec (.cmdMemWrite k a d) s = .next (accessFail (raiseInbound u n 2 q 0x22 (b + off / 0x40000 * 16 + x * 2 ^ 8)) n)) ∧
      (halfWritable u q b (off / 0x40000) = true →
        exec (.cmdMemWrite k a d) s = .next (acknowledge { u with cmdMem := u.cmdMem.writeBytes (q * 0x80000 + off) d } n (packetsOf d.length)) ∧
        exec (.cmdHalfArm k a d) s = .next (acknowledge (setHalf { u with cmdMem := u.cmdMem.writeBytes (q * 0x80000 + off) d } q b
          (off / 0x40000) { halfOf u q b (off / 0x40000) with armed := true, gen := (halfOf u q b (off / 0x40000)).gen + 1 })
          n (packetsOf d.length)) ∧
        (groupNames u n = false ∨ imm ≠ 0xC0110000 → exec (.inboundWriteImm k a d imm mem) s = exec (.cmdHalfArm k a d) s)))) ∧
  (∀ (s u : State) (k : Packet) (n q off a len : Nat), accept s k .read = (u, some n) → k.rkey = (connOf u n).lkey →
    targetAt a = .cmd q off → staysIn a len = true → wholeCommands off len = true →
    (connOf u n).ctrl = true ∨ accessBerth u q off len = some (connOf u n).berth →
    exec (.cmdMemRead k a len) s = .next (respond u k n (u.cmdMem.readBytes (q * 0x80000 + off) len))) ∧
  (∀ (s u : State) (k : Packet) (n a : Nat) (d : List Byte) (mem : HbmOutcome), accept s k .data = (u, some n) → groupNames u n = true →
    exec (.inboundWriteImm k a d 0xC0110000 mem) s = .next (segmentIn u k n d))

/-- A SEND longer than 256 bytes is an invalid request. A message for a landing that is closed, has no free buffer or more than 32 records
waiting is answered not ready; otherwise it takes a buffer of the landing of its connection, connection 0 and management ones reaching
landing 16, and is acknowledged. -/
def Obligations.InboundSendReachesItsLanding : Prop :=
  ∀ (s u : State) (k : Packet) (n : Nat) (d : List Byte),
    (accept s k .data = (u, none) → exec (.inboundSend k d) s = .next u) ∧
    (accept s k .data = (u, some n) →
      (256 < d.length → exec (.inboundSend k d) s = .next (refuseWith u n .invalidRequest)) ∧
      (∀ l, d.length ≤ 256 → ferryConn u n = false → l = (if n = 0 ∨ (connOf u n).mgmt = true then 16 else (connOf u n).berth) →
        ((landOf u l).closed = true ∨ 64 ≤ (landOf u l).bufs.length ∨ 32 < (landOf u l).waiting.length →
          exec (.inboundSend k d) s = .next (notReady u n)) ∧
        ((landOf u l).closed = false → (landOf u l).bufs.length < 64 → (landOf u l).waiting.length ≤ 32 → d.length < 12 →
          exec (.inboundSend k d) s = .next (nextMsg (acknowledge
            (setLand u l { landOf u l with bufs := (landOf u l).bufs ++ [{ conn := n, data := d }] }) n 1) l)) ∧
        ((landOf u l).closed = false → (landOf u l).bufs.length < 64 → (landOf u l).waiting.length ≤ 32 → 12 ≤ d.length →
          exec (.inboundSend k d) s = .next (nextMsg (applyAck (acknowledge
            (setLand u l { landOf u l with bufs := (landOf u l).bufs ++ [{ conn := n, data := d }] }) n 1) l
            (BitVec.ofNat 32 (leAt d 8 4))) l))))

/-- Transactions: a write whose pieces have entered their bank queues, its bytes with them, gives its entry back; a read whose pieces have been served
delivers its bytes, or fails what it serves where a block is poisoned, and one that has pieces left waits; one that has waited a millisecond is
abandoned with MEM_TMO; a grant that lasted too long is withdrawn with ARB_HOLD and its request waits again. A fill installs its line
unless it is stale, poisoned or there already; the refresh rate follows the temperature, read once a millisecond; a commit of allotments is
whole or refused, and one of ranks takes the six shadows.
The arbiters take, of the waiting pieces whose bank queue has room, the oldest of the lowest rank, and no bank queue comes to hold more than 16
requests. A pseudo-channel whose bus is free serves the head of a bank queue in its direction, and turns when no request of that direction
heads a queue, or after 64 accesses while one of the other direction did. -/
def Obligations.TransactionsAndCommits : Prop :=
  ∀ s : State,
    (∀ e t, trkOf s e = some t →
      (t.req.write = true → pieceOutside (routePieces s) e = true → exec (.hbmWriteEnqueue e) s = .next (routePieces s)) ∧
      (t.req.write = true → pieceOutside (routePieces s) e = false →
        exec (.hbmWriteEnqueue e) s = .next (writeDone (routePieces s) t)) ∧
      (∀ x, t.req.write = true → s.fabric.pieces = [x] → x.trk = e → x.write = true → x.st = .sent → x.spoil = [] → pieceSource x < 6 →
        pieceRank s x ≤ 7 → (∀ y ∈ s.quays, y.2.threads = []) →
        ∃ v, exec (.hbmWriteEnqueue e) s = .next (pumpRun (issueAll v) t.run) ∧ v.trk = s.trk.filter (fun y => y.id != t.id) ∧
          v.hbm = (hbmWrite s x.addr x.data).hbm ∧ v.fabric.pieces = [{ x with st := .queued }]) ∧
      (t.req.write = false → exec (.hbmWriteEnqueue e) s = .next s) ∧
      (∀ errs n, t.req.write = false → readServed s e = false → exec (.hbmReadComplete e errs n) s = .next s) ∧
      (t.req.write = false → t.req.cls ≠ 5 → readServed s e = true → readPoison s e = [] →
        exec (.hbmReadComplete e [] 0) s = .next (pumpRun (issueAll (dropPieces (freeTrk (deliver s t
          ((trkPieces s e).flatMap (fun x => x.data.zipIdx.map (fun v => (x.addr + v.2, v.1))))) t.id) t.id)) t.run)) ∧
      (∀ a l, t.req.write = false → t.req.cls ≠ 5 → readServed s e = true → readPoison s e = a :: l →
        exec (.hbmReadComplete e [] 0) s = .next (pumpRun (issueAll (dropPieces (freeTrk (takePoison s t false a) t.id) t.id)) t.run)) ∧
      (s.time.mono < t.start + 1000000 → exec (.memTmo e) s = .next s) ∧
      (t.start + 1000000 ≤ s.time.mono → exec (.memTmo e) s = .next (abandon s t))) ∧
    (∀ e, (trkPieces s e).find? (grantOver s) = none → exec (.arbHold e) s = .next s) ∧
    (∀ e x, (trkPieces s e).find? (grantOver s) = some x →
      ∃ t, exec (.arbHold e) s = .next t ∧ t.trk = s.trk ∧ { x with st := .waiting } ∈ t.fabric.pieces ∧
        ∃ o ∈ t.occ, o.source = sourceId 2 (locStack x.loc / 4) 0x2B) ∧
    (∀ (q : Fin 4) line f t, (quayOf s q).fills.find? (fun f => f.1 == line) = some f → trkOf s f.2.2 = some t →
      (∀ errs n, readServed s t.id = false → exec (.prefetchFillReturn q line errs n) s = .next s) ∧
      (t.q = q.val → readServed s t.id = true →
        exec (.prefetchFillReturn q line [] 0) s = .next (issueAll (dropPieces (freeTrk (setQuay s q { quayOf s q with
          fills := dropFirst (fun g => g == f) (quayOf s q).fills,
          lines := if f.2.1 = true ∨ readPoison s t.id ≠ [] ∨ f.1 ∈ (quayOf s q).lines then (quayOf s q).lines
            else installLine (quayOf s q).lines f.1 }) t.id) t.id)))) ∧
    (∀ (k : Fin 16) t, exec (.refreshRateCheck k t) s = .next (
      if populated s k = true ∧ (stackOf s k).readAt + 1000000 ≤ s.time.mono then
        setStack s k { stackOf s k with temp := BitVec.ofNat 8 (min t 255), hot := decide (85 ≤ t), readAt := s.time.mono } else s)) ∧
    (trkRefused s = true → exec .mwTrkCommit s = .next { s with trkErr := true }) ∧
    (trkRefused s = false → ∃ u, exec .mwTrkCommit s = .next (issueAll u) ∧ u.trkErr = false ∧
      ∀ n, n < 21 → tget 0 u.trkAlloc n = trkShadow s n) ∧
    (∀ q : Fin 4, ∃ t, exec (.qyArbCommit q) s = .next t ∧ t = { s with arbRank := t.arbRank } ∧
      (∀ n, n < 6 → arbRankOf t q n = regBits s (qyBase q + 0x100 + 4 * n) 2 0) ∧
      ∀ (r : Fin 4) n, r ≠ q → n < 6 → arbRankOf t r n = arbRankOf s r n) ∧
    (∀ x, nextPiece s = some x → ∃ l1 l2, enterable s = l1 ++ x :: l2 ∧ (∀ y ∈ l1, pieceRank s x < pieceRank s y) ∧
      ∀ y ∈ l2, pieceRank s x ≤ pieceRank s y) ∧
    ((∃ x ∈ enterable s, pieceRank s x ≤ 7) → nextPiece s ≠ none) ∧
    ((∀ k, Safety.bankLoad s k ≤ 16) → ∀ k, Safety.bankLoad (routePieces s) k ≤ 16 ∧ Safety.bankLoad (fabricTick s) k ≤ 16) ∧
    (∀ c x, x ∈ (serveChannel s c).fabric.pieces → x ∉ s.fabric.pieces →
      ∃ l1 y l2, s.fabric.pieces = l1 ++ y :: l2 ∧ x = { y with st := .granted s.time.mono } ∧ y.st = .queued ∧ locChannel y.loc = c ∧
        y.write = (tget {} s.fabric.channels c).write ∧ bankServes s y = true ∧ (tget {} s.fabric.channels c).busy ≤ 10 * s.time.mono ∧
        ∀ z ∈ l1, z.st = .queued → locBank z.loc ≠ locBank y.loc) ∧
    (∀ c, bankHeads s c ≠ [] → (tget {} s.fabric.channels c).busy ≤ 10 * s.time.mono →
      (∀ x ∈ bankHeads s c, x.write ≠ (tget {} s.fabric.channels c).write) ∨
        (64 ≤ (tget {} s.fabric.channels c).run ∧ ∃ x ∈ bankHeads s c, x.write ≠ (tget {} s.fabric.channels c).write) →
      serveChannel s c = turnChannel s c)

/-! ### Registers and SMBus (R16-R18, R34-R40, R228, R405, R426, R529, R541, R582, R585, R609-R612) -/

/-- A write outside the registers changes nothing. A fault class moves to the class written, but for a reserved one, a code without a
source, and a class below the default of a source that may only be raised; no other source's class moves. Coordinates are taken once. A
norm accumulator takes the half written. A hold is reset only while its berth is idle. A write over SMBus is the same write, performed
only with the right count and PEC. -/
def Obligations.RegisterWritesFollowTheirFields : Prop :=
  ∀ (s : State) (v : Word),
    (∀ a, a % 4 ≠ 0 ∨ blockAt a = none → exec (.registerWrite a v) s = .next s) ∧
    (∀ n, n < 256 → faultDefault n = none → exec (.registerWrite (fcSevAddr n) v) s = .next s) ∧
    (∀ n d, n < 256 → faultDefault n = some d → ∃ t, exec (.registerWrite (fcSevAddr n) v) s = .next t ∧ t = { s with rw := t.rw } ∧
      faultClass t n = (if 5 < bits v.toNat 2 0 ∨ (faultRaiseOnly n = true ∧ bits v.toNat 2 0 < d) then faultClass s n
        else bits v.toNat 2 0) ∧
      ∀ a, a ≠ fcSevAddr n → tget 0 t.rw a = tget 0 s.rw a) ∧
    (regBits s (mgBase + 0x20) 31 31 = 1 → exec (.mgCoordWrite v) s = .next s) ∧
    (regBits s (mgBase + 0x20) 31 31 = 0 → ∃ t, exec (.mgCoordWrite v) s = .next t ∧ t = { s with rw := t.rw, boot := t.boot } ∧
      regGet t (mgBase + 0x20) = v &&& 0x803FFFFF ∧
      t.boot = { s.boot with phase := if bit v.toNat 31 = true ∧ s.boot.phase = 5 then 6 else s.boot.phase }) ∧
    (exec (.registerWrite (mgBase + 0x20) v) s = exec (.mgCoordWrite v) s) ∧
    (∀ d i, d < 16 → i < 4 → deckFenced s d = false →
      (∃ t, exec (.registerWrite (dkBase d + 0x200 + 8 * i) v) s = .next t ∧ t = { s with decks := t.decks } ∧
        deckOf t d = { deckOf s d with nacc := (deckOf t d).nacc } ∧
        (tget 0 (deckOf t d).nacc i).toNat = (tget 0 (deckOf s d).nacc i).toNat / 2 ^ 32 * 2 ^ 32 + v.toNat) ∧
      (∃ t, exec (.registerWrite (dkBase d + 0x204 + 8 * i) v) s = .next t ∧ t = { s with decks := t.decks } ∧
        deckOf t d = { deckOf s d with nacc := (deckOf t d).nacc } ∧
        (tget 0 (deckOf t d).nacc i).toNat = v.toNat * 2 ^ 32 + (tget 0 (deckOf s d).nacc i).toNat % 2 ^ 32)) ∧
    (∀ b : Fin 16, ((berthOf s b).st ≠ .idle → exec (.holdReset b) s = .next s) ∧
      ((berthOf s b).st = .idle → ∃ t, exec (.holdReset b) s = .next t ∧ t = { s with berths := t.berths } ∧
        (∀ c, c ≠ b.val → berthOf t c = berthOf s c) ∧
        residentFrames (berthOf t b).hold = [] ∧ targetPages (berthOf t b).hold = [] ∧ (berthOf t b).hold.peak = 0)) ∧
    (∀ (i : BitVec 16) n pec, (smbusUp s = false ∨ n ≠ 6 ∨ pec = false → exec (.smbRegWrite i v n pec) s = .next s) ∧
      (smbusUp s = true → indexAddr i.toNat ≠ scBase + 4 →
        exec (.smbRegWrite i v 6 true) s = exec (.registerWrite (indexAddr i.toNat) v) s))

/-- The security unit's sources, codes 0x70 to 0x74, and every source whose default class is LOCK read RAISE_ONLY = 1 (R530), and a write of
a class below their default, over the control window or SMBus, leaves the class unchanged. -/
def Obligations.LockedSourcesAreOnlyRaised : Prop :=
  ∀ (s : State) (n d : Nat) (v : Word), n < 256 → (0x70 ≤ n ∧ n ≤ 0x74) ∨ d = 5 → faultDefault n = some d →
    bit (regValue s (fcSevAddr n)).toNat 7 = true ∧
    (bits v.toNat 2 0 < d → exec (.registerWrite (fcSevAddr n) v) s = .next s ∧
      ∀ k p, exec (.smbRegWrite (BitVec.ofNat 16 (0x4100 + n)) v k p) s = .next s)

/-- A read of a register that a read clears leaves it zero and changes nothing else; of TT_NOW_LO, latches the upper half of tide time; of
any register that is neither, and whose value the spec gives, nothing. Over SMBus a read answers the register at the pointer, which then
advances modulo 2^16. -/
def Obligations.RegisterReadsClearAndLatch : Prop :=
  ∀ s : State,
    (∀ a, a % 4 ≠ 0 ∨ blockAt a = none → regValue s a = 0 ∧ exec (.rcRegisterRead a) s = .next s) ∧
    (exec (.rcRegisterRead (fcBase + 8)) s = .next { s with fc := { s.fc with drop := 0 } }) ∧
    (exec (.rcRegisterRead (pwBase + 0xC)) s = .next { s with pw := { s.pw with evPower := 0, evTherm := 0 } }) ∧
    (exec (.rcRegisterRead (ttBase + 0x14)) s = .next { s with time := { s.time with ppsRejects := 0 } }) ∧
    (∀ p o, p < 8 → fittedPort s p = true → o ∈ [0x40, 0x44, 0x48, 0x4C, 0x50, 0x58] →
      ∃ t, exec (.rcRegisterRead (ptBase p + o)) s = .next t ∧ t = { s with ports := t.ports } ∧ regValue t (ptBase p + o) = 0 ∧
        ∀ r o', r < 8 → o' < 0x10000 → (r, o') ≠ (p, o) → regValue t (ptBase r + o') = regValue s (ptBase r + o')) ∧
    (∀ k o, k < 16 → o ∈ [4, 8, 0xC] →
      ∃ t, exec (.rcRegisterRead (qyBase (k / 4) + 0x200 + 16 * (k % 4) + o)) s = .next t ∧ t = { s with stk := t.stk } ∧
        regValue t (qyBase (k / 4) + 0x200 + 16 * (k % 4) + o) = 0) ∧
    (∀ d, d < 16 → deckFenced s d = false →
      exec (.rcRegisterRead (dkBase d + 0x48)) s = .next (setDeck s d { deckOf s d with skipMiss := 0 }) ∧
      exec (.rcRegisterRead (dkBase d + 0x4C)) s = .next (setDeck s d { deckOf s d with skipDone := 0 })) ∧
    (∀ a, mgBase ≤ a → a < fcBase → exec (.rcRegisterRead a) s = .next s) ∧
    (∃ t, exec .ttNowLoRead s = .next t ∧ t = { s with time := { s.time with latchHi := t.time.latchHi } } ∧
      (regValue t (ttBase + 4)).toNat = s.time.tide / 2 ^ 32 % 2 ^ 32 ∧ (regValue t ttBase).toNat = s.time.tide % 2 ^ 32) ∧
    (∀ (i : BitVec 16) n pec, exec (.smbRegPoint i n pec) s =
      .next (if smbusUp s = true ∧ n = 2 ∧ pec = true then { s with smb := { s.smb with pointer := i } } else s)) ∧
    (smbusUp s = false → exec .smbRegRead s = .next s) ∧
    (smbusUp s = true → ∃ t, exec .smbRegRead s = .next t ∧
      exec (.rcRegisterRead (indexAddr s.smb.pointer.toNat)) s = .next { t with out := s.out, smb := s.smb } ∧
      t.out = s.out ++ [.smbus (regValue s (indexAddr s.smb.pointer.toNat))] ∧
      t.smb.pointer.toNat = (s.smb.pointer.toNat + 1) % 65536)

/-- The management commands. A write of 1 to VALID takes connection 0 afresh from its registers and takes the management ring, a write of
0 stops it, and its outstanding requests fail. A clear removes records of class TASK or below alone. Debug is latched once: the keys are
cleared, M1 is extended and DEBUG_EN raised. Policy and manifest key are closed by LOCK. An alert response is given while ALERT_N is
asserted, and releases it. SMBUS_TMO is raised at most once a second. -/
def Obligations.ManagementCommandsExecute : Prop :=
  ∀ (s : State) (v : Word),
    (∃ t, exec (.mgmtConnRestart v) s = .next t ∧ (connOf t 0).valid = true ∧ (connOf t 0).err = false ∧ (connOf t 0).reqs = [] ∧
      (connOf t 0).ctrl = true ∧ (connOf t 0).lport = bits v.toNat 30 28 ∧ (connOf t 0).sub = bits v.toNat 27 26 ∧
      (connOf t 0).retry = bits v.toNat 21 19 ∧
      (connOf t 0).tmo = (if bits v.toNat 25 22 = 0 then bits (regGet s (mgBase + 0x17C)).toNat 25 22 else bits v.toNat 25 22) ∧
      (connOf t 0).rqpn = (regGet s (mgBase + 0x170)).toNat ∧ (connOf t 0).lkey = regGet s (mgBase + 0x178) ∧
      (connOf t 0).rkey = regGet s (mgBase + 0x194) ∧ t.ringAddr = regPair s (mgBase + 0x188) ∧
      t.ringLog2 = regBits s (mgBase + 0x190) 4 0) ∧
    (∃ t, exec (.mgmtConnStop v) s = .next t ∧ ((connOf s 0).valid = true →
      (connOf t 0).valid = false ∧ (connOf t 0).err = false ∧ (connOf t 0).reqs = [])) ∧
    (∀ n : Fin 8, ∃ t, exec (.fcValidClear n v) s = .next t ∧ t = { s with fc := { s.fc with recs := t.fc.recs } } ∧
      ∀ e, e ∈ t.fc.recs ↔ e ∈ s.fc.recs ∧ ¬ (e.1 / 32 = n.val ∧ bit v.toNat (e.1 % 32) = true ∧ e.2.cls ≤ 2)) ∧
    (∃ t, exec .fcClearAll s = .next t ∧ t = { s with fc := { s.fc with recs := t.fc.recs } } ∧
      ∀ e, e ∈ t.fc.recs ↔ e ∈ s.fc.recs ∧ 2 < e.2.cls) ∧
    (∀ o, s.sec.debug = true → exec (.scDebugReq o) s = .next s) ∧
    (∀ o, s.sec.debug = false → ∃ t, exec (.scDebugReq o) s = .next t ∧ t.sec.debug = true ∧ t.sec.keysCleared = true ∧
      t = { s with sec := t.sec, occ := t.occ, ends := t.ends } ∧ (∀ n, keyWord t n = keyWord s n) ∧
      ∃ x, t.occ = s.occ ++ [x] ∧ x.source = sourceId 3 2 0x74 ∧ x.detail = (if o then 1 else 0)) ∧
    (policyLocked s = true → exec (.scManPolicyLock v) s = .next s) ∧
    (policyLocked s = false → ∃ t, exec (.scManPolicyLock v) s = .next t ∧ t = { s with rw := t.rw, sec := t.sec } ∧
      regGet t (scBase + 8) = v &&& 3 ∧ (bit v.toNat 0 = false → t.sec = s.sec) ∧ policyLocked t = bit v.toNat 0) ∧
    (exec .smbAlertResponse s = .next (if smbusUp s = true ∧ alertN s = true then
      { s with pw := { s.pw with answered := true }, out := s.out ++ [.smbusAddress s.smb.address] } else s)) ∧
    (∀ t, exec .smbAlertResponse s = .next t → smbusUp s = true → alertN t = false) ∧
    (∀ c low, smbusUp s = true → mayReport s 0x88 0 1000000000 = true → ∃ t x, exec (.smbusTmo c low) s = .next t ∧
      t.occ = s.occ ++ [x] ∧ x.source = sourceId 3 3 0x88 ∧ x.detail.toNat = c.toNat + (if low then 256 else 0) ∧
      mayReport t 0x88 0 1000000000 = false) ∧
    (∀ c low, smbusUp s = false ∨ mayReport s 0x88 0 1000000000 = false → exec (.smbusTmo c low) s = .next s)

/-! ### Landings and tasks (R241, R491-R519) -/

/-- The first message of a landing is for the row of its type alone. Out of sequence it has no effect but its REPLY, DUPLICATE or SEQ_GAP,
and leaves H; in sequence H moves to its HSEQ, a QUERY's apart, and a check of R498 that fails answers it. QUERY answers the fields of its
landing, of a berth's, or of every one in order, and with NOREPLY nothing. -/
def Obligations.MessagesAreTakenInOrder : Prop :=
  ∀ (s : State) (l : Fin 17) (cuts : List (Nat × Nat)) (mem : HbmOutcome) (i : Instr) (type : Nat),
    (i, type) ∈ [(Instr.startTask l, 1), (Instr.abort l, 2), (Instr.preempt l cuts, 3), (Instr.resume l mem, 4), (Instr.disableBerth l, 5),
      (Instr.query l, 6)] ∨ (l.val = 16 ∧ (i, type) ∈ [(Instr.loadManifest, 7), (Instr.diagBist, 0x10), (Instr.diagAttest, 0x11),
      (Instr.diagExtend, 0x12), (Instr.diagFwWrite, 0x13), (Instr.diagFwActivate, 0x14), (Instr.diagLog, 0x15)]) →
    ((landOf s l).bufs = [] → exec i s = .next s) ∧
    (∀ m rest, (landOf s l).bufs = m :: rest →
      (leAt m.data 0 1 ≠ type ∨ m.data.length < 32 ∨ (l.val = 16 ∧ s.load.isSome = true) → exec i s = .next s) ∧
      (leAt m.data 0 1 = type → 32 ≤ m.data.length → (l.val = 16 → s.load = none) → rest = [] →
        (∀ st, seqStatus (landOf s l) (headerOf m.data) = some st → (st = 9 ∨ st = 10) ∧
          exec i s = .next (answer (popMsg s l) l (headerOf m.data) st [])) ∧
        (∀ st, seqStatus (landOf s l) (headerOf m.data) = none → earlyStatus (received s l m) l m.data = some st →
          Answers s i l m st ∧ ((landOf (received s l m) l).h = if type = 6 then (landOf s l).h else (headerOf m.data).hseq))) ∧
      (Taken s l type m → type = 6 →
        (bit (headerOf m.data).flags 0 = true → exec i s = .next (received s l m)) ∧
        (bit (headerOf m.data).flags 0 = false →
          (l.val ≠ 16 → exec i s = .next (queryReply l (headerOf m.data) (received s l m) l)) ∧
          (l.val = 16 → bit (headerOf m.data).flags 1 = false →
            exec i s = .next (queryReply l (headerOf m.data) (received s l m) ((headerOf m.data).berth % 16))) ∧
          (l.val = 16 → bit (headerOf m.data).flags 1 = true →
            exec i s = .next (((List.range 16).filter (berthDefined s) ++ [16]).foldl (queryReply l (headerOf m.data)) (received s l m))))))

/-- START_TASK that is taken: BUSY while the berth is not idle, or a deck of it is under test; BAD_CONTEXT where it names no context or one
that cannot start; otherwise the task runs from this tide time, its contexts at their starting slots with counters and comparators cleared,
the others idle, and the flags of the berth zero. Nothing of another berth changes. -/
def Obligations.StartTaskRunsTheNamedContexts : Prop :=
  ∀ (s : State) (l : Fin 17) (m : Msg) (b : Nat), Taken s l 1 m → b = (headerOf m.data).berth % 16 →
    ((berthOf s b).st ≠ .idle ∨ bistHolds s b = true → Answers s (.startTask l) l m 2) ∧
    ((berthOf s b).st = .idle → bistHolds s b = false →
      (startList m.data = [] ∨ (∃ e ∈ startList m.data, ctxStarts s b e.1 e.2 = false) → Answers s (.startTask l) l m 7) ∧
      (startList m.data ≠ [] → (∀ e ∈ startList m.data, ctxStarts s b e.1 e.2 = true) →
        ∃ t, exec (.startTask l) s = .next t ∧ (berthOf t b).st = .running ∧ (berthOf t b).cur = some (headerOf m.data).task ∧
          (berthOf t b).ended = none ∧ (berthOf t b).startTide = s.time.tide ∧ (berthOf t b).fromMgmt = decide (l.val = 16) ∧
          (∀ e ∈ startList m.data, ctxOf t (e.1 / 18) (e.1 % 18) = { ctxOf s (e.1 / 18) (e.1 % 18) with
            mode := .running, stall := .none, pc := e.2, cnt := [], cmp := [], queue := [], held := none, occ := none, timer := {},
            named := true, endDone := false, endSeen := false }) ∧
          (∀ n, n < 72 → (ctxOf s (n / 18) (n % 18)).berth = some b → n ∉ startCtxs m.data →
            (ctxOf t (n / 18) (n % 18)).mode = .idle ∧ (ctxOf t (n / 18) (n % 18)).named = false) ∧
          (∀ n, n < 72 → (ctxOf s (n / 18) (n % 18)).berth ≠ some b → ctxOf t (n / 18) (n % 18) = ctxOf s (n / 18) (n % 18)) ∧
          (∀ k ∈ berthFlags s b, flagVal t k = 0) ∧
          (∀ d, d < 16 → (bit (berthOf t b).taskDecks.toNat d = true ↔ d ∈ berthDecks s b ∧ deckFenced s d = false)) ∧
          (∀ c, c ≠ b → berthOf t c = berthOf s c) ∧ t.hbm = s.hbm ∧ t.decks = s.decks ∧ t.runs = s.runs ∧ SettingsKept s t))

/-- ABORT ends the current task with CAUSE 1 after its REPLY, and the last one too late. PREEMPT of the running task suspends it and owes
its REPLY. RESUME of the suspended task is accepted and its decks are restored, which waits while one is under test or has no tracker entry free.
DISABLE_BERTH stops the berth, with the contexts that its task named, and ends its task with STATUS 2 and CAUSE 3. -/
def Obligations.TaskMessagesEndSuspendAndResume : Prop :=
  ∀ (s : State) (l : Fin 17) (m : Msg) (b : Nat), b = (headerOf m.data).berth % 16 →
    (Taken s l 2 m →
      ((berthOf s b).cur = some (headerOf m.data).task → (berthOf s b).ended = none → ∃ t e, exec (.abort l) s = .next t ∧
        (berthOf t b).ended = some e ∧ e.status = 1 ∧ e.cause = 1 ∧ e.hseq = (headerOf m.data).hseq ∧ e.tide = s.time.tide ∧ Stopped s t b ∧
        (landOf t l).h = (headerOf m.data).hseq ∧ SettingsKept s t ∧ ∀ c, c ≠ b → berthOf t c = berthOf s c) ∧
      ((berthOf s b).cur = some (headerOf m.data).task → (berthOf s b).ended.isSome = true → Answers s (.abort l) l m 0) ∧
      ((berthOf s b).cur ≠ some (headerOf m.data).task → Answers s (.abort l) l m
        (if (berthOf s b).last = some (headerOf m.data).task then 4 else 3))) ∧
    (∀ cuts, Taken s l 3 m →
      ((berthOf s b).cur = some (headerOf m.data).task → (berthOf s b).ended = none → (berthOf s b).st = .running →
        ∃ t, exec (.preempt l cuts) s = .next t ∧ (berthOf t b).st = .suspending ∧ (berthOf t b).cur = (berthOf s b).cur ∧
          (∃ o, (berthOf t b).preemptOwed = some o ∧ o.hseq = (headerOf m.data).hseq ∧ o.landing = l.val) ∧ SettingsKept s t ∧
          (cuts = [] → t = { received s l m with berths := t.berths })) ∧
      ((berthOf s b).cur = some (headerOf m.data).task → (berthOf s b).ended = none → (berthOf s b).st ≠ .running →
        Answers s (.preempt l cuts) l m 6) ∧
      ((berthOf s b).cur = some (headerOf m.data).task → (berthOf s b).ended.isSome = true → Answers s (.preempt l cuts) l m 5) ∧
      ((berthOf s b).cur ≠ some (headerOf m.data).task → Answers s (.preempt l cuts) l m
        (if (berthOf s b).last = some (headerOf m.data).task then 5 else 3))) ∧
    (∀ mem, Taken s l 4 m →
      ((berthOf s b).cur = some (headerOf m.data).task → (berthOf s b).ended = none → (berthOf s b).st = .suspended →
        ∃ u, (berthOf u b).st = .resuming ∧ (berthOf u b).restore = .waiting ∧ u.decks = s.decks ∧ u.hbm = s.hbm ∧
          (berthOf u b).suspFor = (berthOf s b).suspFor + (s.time.mono - (berthOf s b).suspSince) ∧
          exec (.resume l mem) s = .next (if bistHolds s b = false ∧ decksRoom s b = true then restoreTask u b mem else u)) ∧
      (((berthOf s b).cur = some (headerOf m.data).task ∧ ((berthOf s b).ended.isSome = true ∨ (berthOf s b).st ≠ .suspended)) ∨
        ((berthOf s b).cur ≠ some (headerOf m.data).task ∧ (berthOf s b).last = some (headerOf m.data).task) →
        Answers s (.resume l mem) l m 6) ∧
      ((berthOf s b).cur ≠ some (headerOf m.data).task → (berthOf s b).last ≠ some (headerOf m.data).task → Answers s (.resume l mem) l m 3)) ∧
    (Taken s l 5 m → ∃ t, exec (.disableBerth l) s = .next t ∧ (berthOf t b).st = .disabling ∧ (berthOf t b).disableAt = s.time.mono ∧
      (∃ o, (berthOf t b).disableOwed = some o ∧ o.hseq = (headerOf m.data).hseq ∧ o.landing = l.val) ∧
      (∀ n, n < 72 → (ctxOf s (n / 18) (n % 18)).berth = some b → (ctxOf s (n / 18) (n % 18)).named = true →
        (ctxOf t (n / 18) (n % 18)).mode = .idle ∧ (ctxOf t (n / 18) (n % 18)).queue = []) ∧
      (taskLive s b = true → Stopped s t b ∧ ∃ e, (berthOf t b).ended = some e ∧ e.status = 2 ∧ e.cause = 3 ∧ e.hseq = (headerOf m.data).hseq) ∧ SettingsKept s t ∧
      ∀ c, c ≠ b → berthOf t c = berthOf s c)

/-- A DISABLE_BERTH of a berth that is already disabling or disabled receives DISABLED, and one of a halted berth HALTED (R516): the message is
taken, and its REPLY is the only further effect. -/
def Obligations.DisabledBerthRefusesDisable : Prop :=
  ∀ (s : State) (l : Fin 17) (m : Msg) (b : Nat), b = (headerOf m.data).berth % 16 → (landOf s l).bufs = [m] → 32 ≤ m.data.length →
    leAt m.data 0 1 = 5 → (l.val = 16 → s.load = none) → seqStatus (landOf s l) (headerOf m.data) = none → badMessage l m.data = false →
    harbour s = false →
    ((berthOf s b).st = .disabling ∨ (berthOf s b).st = .disabled → Answers s (.disableBerth l) l m 0x0B) ∧
    ((berthOf s b).st = .halted → Answers s (.disableBerth l) l m 0x0C)

/-- A task completes when the home quay has seen END from every context that its START_TASK named; before that the END is only noted.
The first ending event that reaches the home quay ends a live task, and no later one changes that end. Once nothing of the task is in
flight, and the record of what ended it is on its way no longer, its COMPLETION is written and the berth takes the state that the end
asked for. Transactions are abandoned 5 ms after the latch. A record that waits for its ring is written where there is room. -/
def Obligations.TaskEndsOnceAndIsRecorded : Prop :=
  (∀ (s : State) (q : Fin 4) (c : Fin 18) (b : Nat), (ctxOf s q c).berth = some b → taskLive s b = true →
    (ctxOf s q c).endDone = true → (ctxOf s q c).endSeen = false →
    (allEnded (setCtx s q c { ctxOf s q c with endSeen := true }) b = false →
      exec (.endNotifyHome q c) s = .next (setCtx s q c { ctxOf s q c with endSeen := true })) ∧
    (allEnded (setCtx s q c { ctxOf s q c with endSeen := true }) b = true →
      ∃ t e, exec (.endNotifyHome q c) s = .next t ∧ (berthOf t b).ended = some e ∧ e.status = 0 ∧ e.cause = 0 ∧
        e.tide = s.time.tide ∧ t = { s with quays := t.quays, berths := t.berths } ∧
        ∀ d, d ≠ b → berthOf t d = berthOf s d)) ∧
  (∀ (s : State) (b : Fin 16),
    (∀ e, taskLive s b = true → firstEnd (endsFor s b) = some e → ∃ t x, exec (.taskEndLatch b) s = .next t ∧ (berthOf t b).ended = some x ∧
      x.status = e.info.status ∧ x.cause = e.info.cause ∧ x.source = e.info.source ∧ x.tide = s.time.tide ∧
      t.ends = s.ends.filter (fun y => y.berth != b.val) ∧ (e.info.status ≠ 0 → Stopped s t b) ∧ SettingsKept s t ∧ ∀ c, c ≠ b.val → berthOf t c = berthOf s c) ∧
    (taskLive s b = false ∨ firstEnd (endsFor s b) = none →
      exec (.taskEndLatch b) s = .next { s with ends := s.ends.filter (fun y => y.berth != b.val) }) ∧
    ((berthOf s b).ended = none → exec (.taskCompletionRecord b) s = .next s ∧ exec (.transactionAbandon b) s = .next s) ∧
    (∀ e, (berthOf s b).ended = some e →
      ((berthOf s b).st = .disabling ∨ berthBusy s b = true ∨ faultOnWay s b e = true → exec (.taskCompletionRecord b) s = .next s) ∧
      ((berthOf s b).st ≠ .disabling → berthBusy s b = false → faultOnWay s b e = false →
        ∃ t, exec (.taskCompletionRecord b) s = .next t ∧ (berthOf t b).st = (berthOf s b).afterEnd ∧ (berthOf t b).cur = none ∧
          (berthOf t b).last = (berthOf s b).cur ∧ (berthOf t b).lastStatus = e.status ∧ (berthOf t b).lastElapsed = e.elapsed ∧
          (berthOf t b).ended = none ∧ (berthOf t b).freed = [] ∧ (berthOf t b).preemptOwed = none ∧
          ((berthOf s b).freed = [] → (berthOf s b).preemptOwed = none → t = { writeCompletion s b e with berths := t.berths }) ∧ SettingsKept s t ∧ t.hbm = s.hbm ∧
          ∀ c, c ≠ b.val → berthOf t c = berthOf s c) ∧
      (s.time.mono < e.at_ + 5000000 → exec (.transactionAbandon b) s = .next s) ∧
      (e.at_ + 5000000 ≤ s.time.mono → exec (.transactionAbandon b) s = .next (abandonBerth s b))) ∧
    (∀ l : Fin 17, ((landOf s l).waiting = [] ∨ ringRoom s l = false → exec (.ringRecordWrite l) s = .next s) ∧
      (∀ r rest, (landOf s l).waiting = r :: rest → ringRoom s l = true → ∃ t, exec (.ringRecordWrite l) s = .next t ∧
        landOf t l = { landOf s l with waiting := rest, dseq := (landOf s l).dseq + 1, lost := 0 } ∧
        (∀ k, k ≠ l.val → landOf t k = landOf s k) ∧
        (mayAsk (connOf s (ringConn s l)) false = true → (connOf t (ringConn s l)).reqs = (connOf s (ringConn s l)).reqs ++
          [{ kind := .record, packets := 1, at_ := s.time.mono, read := false, unsent := none }]) ∧
        (∀ w, w = Roce.write (ringBase s l + 64 * (((landOf s l).dseq.toNat + 1) % 2 ^ 32 % 2 ^ ringLog s l))
            (recordBytes r (r.hseq.getD (landOf s l).h) ((landOf s l).dseq + 1) (landOf s l).lost) none →
          Leaves s (ringConn s l) .record w → t.out = s.out ++ [leaving s (ringConn s l) .record w]))))

/-- A suspending task is suspended once its engines are done and every used deck is saved: nothing of it runs, its timers stand, and the
PREEMPT that asked for it is answered SUSPENDED. It runs again once its decks have been restored; a restore that had to wait is made first.
A disabled berth, once its transactions are over or 5 ms have passed, has its windows sealed, its connections failed and its hold lost, and the DISABLE_BERTH is answered. -/
def Obligations.SuspensionAndDisablingComplete : Prop :=
  ∀ (s : State) (b : Fin 16) (mem : HbmOutcome),
    (∀ p, (berthOf s b).st ≠ .suspending ∨ taskLive s b = false ∨ enginesDone s b = false ∨ endsFor s b ≠ [] ∨ decksRoom s b = false →
      exec (.suspendComplete b p mem) s = .next s) ∧
    ((berthOf s b).st = .suspending → taskLive s b = true → enginesDone s b = true → endsFor s b = [] → decksRoom s b = true →
      endsFor (savedDecks s b mem.late).1 b = [] →
      ∃ t, exec (.suspendComplete b none mem) s = .next t ∧ (berthOf t b).st = .suspended ∧ (berthOf t b).suspSince = s.time.mono ∧
        (berthOf t b).cur = (berthOf s b).cur ∧ (berthOf t b).preemptOwed = none ∧ (∀ r ∈ t.runs, r.berth ≠ b.val) ∧
        t.hbm = (savedDecks s b mem.late).1.hbm ∧ t.decks = s.decks ∧ SettingsKept s t ∧
        (∀ o, (berthOf s b).preemptOwed = some o → o.landing = 16 → (landOf s 16).waiting = [] → ringRoom s 16 = true →
          (landOf t 16).dseq = (landOf s 16).dseq + 1)) ∧
    (endsFor (savedDecks s b mem.late).1 b ≠ [] → (berthOf s b).st = .suspending → taskLive s b = true → enginesDone s b = true →
      endsFor s b = [] → decksRoom s b = true → exec (.suspendComplete b none mem) s = .next (savedDecks s b mem.late).1) ∧
    (resumeGoes s b = true → (berthOf s b).restore = .done →
      exec (.resumeComplete b mem) s = .next (setBerth s b { berthOf s b with st := .running })) ∧
    (∀ t, resumeGoes s b = true → restoreReady s b = true → t = restoreTask s b mem →
      (resumeGoes t b = true → (berthOf t b).restore = .done →
        exec (.resumeComplete b mem) s = .next (setBerth t b { berthOf t b with st := .running })) ∧
      (resumeGoes t b = false ∨ (berthOf t b).restore ≠ .done → exec (.resumeComplete b mem) s = .next t)) ∧
    (resumeGoes s b = false ∨ ((berthOf s b).restore ≠ .done ∧ restoreReady s b = false) →
      exec (.resumeComplete b mem) s = .next s) ∧
    ((berthOf s b).st ≠ .disabling ∨ (berthBusy s b = true ∧ s.time.mono < (berthOf s b).disableAt + 5000000) →
      exec (.disableComplete b) s = .next s) ∧
    ((berthOf s b).st = .disabling → berthBusy s b = false ∨ (berthOf s b).disableAt + 5000000 ≤ s.time.mono →
      (∀ e, (berthOf s b).ended = some e → faultOnWay s b e = false) →
      ∃ t, exec (.disableComplete b) s = .next t ∧ (berthOf t b).st = .disabled ∧ (berthOf t b).ended = none ∧
        (berthOf t b).disableOwed = none ∧ (berthOf t b).hold.lost.isSome = true ∧
        t.windows = s.windows.map (fun w => if w.2.berth = b.val then (w.1, { w.2 with sealedW := true }) else w) ∧
        (∀ n, n ≠ 0 → (connOf s n).valid = true → (connOf s n).berth = b.val → (connOf t n).err = true) ∧
        ((berthOf s b).ended.isSome = true → (berthOf t b).cur = none ∧ (berthOf t b).last = (berthOf s b).cur))

/-! ### The manifest (R404, R502, R531, R563-R572) -/

/-- LOAD_MANIFEST that is taken closes the berth landings until their buffers are empty. Then it is answered NOT_IDLE while a berth holds
work, LOAD_RESULT 1 before the module is ready and 7 during an in-field test, with the landings open again; otherwise the manifest is read
over the connection that brought the message. What has been read is checked in order, and a failed check raises its record and changes
nothing in force.
A manifest that has passed is applied whole: the connections, windows and gangs are its own, connection 0 stays; every berth that it
defines is idle, or halted by a gang without a shape, and no other is defined; the berth landings start afresh and open; contexts have its
regions with no wait and every half free; classes have their defaults, then its list in order; its digest is kept and M2 extended. -/
def Obligations.ManifestIsCheckedAndAppliedWhole : Prop :=
  (∀ (s : State) (m : Msg),
    (Taken s 16 7 m →
      ((∃ b, b < 16 ∧ (landOf s b).bufs ≠ []) → exec .loadManifest s = .next (closeLandings s true)) ∧
      ((∀ b, b < 16 → (landOf s b).bufs = []) →
        (allIdle s = false → exec .loadManifest s =
          .next (answer (closeLandings (received (closeLandings s true) 16 m) false) 16 (headerOf m.data) 0x0E [])) ∧
        (allIdle s = true → s.boot.ready = false → exec .loadManifest s =
          .next (loadReply (closeLandings (received (closeLandings s true) 16 m) false) (headerOf m.data).hseq 1 0 0 [])) ∧
        (allIdle s = true → s.boot.ready = true → s.diag.busy = true → s.diag.type = 0x10 → exec .loadManifest s =
          .next (loadReply (closeLandings (received (closeLandings s true) 16 m) false) (headerOf m.data).hseq 7 0 0 [])) ∧
        (∀ v b, b < 16 → (landOf (closeLandings v false) b).closed = false) ∧
        (allIdle s = true → s.boot.ready = true → (s.diag.busy = false ∨ s.diag.type ≠ 0x10) →
          ∃ t, exec .loadManifest s = .next t ∧
            t.load = some { conn := m.conn, hseq := (headerOf m.data).hseq, addr := leAt m.data 0x20 8, len := leAt m.data 0x28 4 } ∧
            (∀ b, b < 16 → (landOf t b).closed = true) ∧ (landOf t 16).bufs = [m] ∧ (landOf t 16).h = (headerOf m.data).hseq ∧
            (Leaves s m.conn .manifest (.read (leAt m.data 0x20 8) (leAt m.data 0x28 4)) →
              t.out = s.out ++ [leaving s m.conn .manifest (.read (leAt m.data 0x20 8) (leAt m.data 0x28 4))]) ∧
            (connUsable s m.conn = false → t.out = s.out) ∧
            t = { s with load := t.load, landings := t.landings, conns := t.conns, ports := t.ports, out := t.out }))) ∧
    (∀ (r : Option (List Byte)), s.load = none → exec (.manifestVerifyDone r) s = .next s) ∧
    (∀ (r : Option (List Byte)) (ld : Load) (u : State) (got : Option (List Byte)), s.load = some ld → ld.verified = none →
      got = (if connUsable s ld.conn then r else none) →
      u = setReqs s ld.conn (dropFirst (fun x => x.kind == .manifest) (connOf s ld.conn).reqs) →
      ((verdictOf u ld got).1 = 0 → exec (.manifestVerifyDone r) s = .next { u with load := some { ld with verified := got } }) ∧
      ((verdictOf u ld got).1 ≠ 0 → ∃ t x, exec (.manifestVerifyDone r) s = .next t ∧ t.load = none ∧ t.man = s.man ∧ t.windows = s.windows ∧
        t.sec = s.sec ∧ (brokenGangs s = [] → t = { s with load := none, landings := t.landings, conns := t.conns, ports := t.ports, out := t.out, occ := t.occ, free := t.free }) ∧
         x ∈ t.occ ∧ x.source = (if (verdictOf u ld got).1 = 5 then sourceId 3 2 0x71 else sourceId 3 0 0x5C) ∧
        (∀ b, b < 16 → (landOf t b).closed = false)) ∧
      (got = none → (verdictOf u ld got).1 = 2) ∧
      (∀ d, got = some d → d.length = ld.len → leAt d 8 4 = ld.len →
        (framingBad d ≠ [] → (verdictOf u ld got).1 = 3) ∧
        (framingBad d = [] → digest64 (d.take (trailerAt d)) ≠ manDigest d → (verdictOf u ld got).1 = 4) ∧
        (framingBad d = [] → digest64 (d.take (trailerAt d)) = manDigest d →
          (manSigned d = false → bit (regGet s (scBase + 8)).toNat 1 = true → (verdictOf u ld got).1 = 5) ∧
          (manSigned d = true → ed448Verify (manifestKey s) (manDigest d) (slice d (d.length - 114) 114) = false → (verdictOf u ld got).1 = 5) ∧
          (manSigned d = false → bit (regGet s (scBase + 8)).toNat 1 = false →
            (verdictOf u ld got).1 = if rejected s d = [] then 0 else 6))))) ∧
  (∀ (s : State) (ld : Load),
    (s.load = none → exec .manifestApply s = .next s) ∧
    (s.load = some ld → ld.verified = none → exec .manifestApply s = .next s) ∧
    (∀ d m, s.load = some ld → ld.verified = some d → (landOf s 16).bufs = [m] → ∃ t, exec .manifestApply s = .next t ∧ t.load = none ∧
      t.man = manGlobal d ∧ t.windows = manWindows d ∧ t.gangs = manGangs d ∧ t.halves = [] ∧ t.waits = [] ∧ t.sec.digest = manDigest d ∧
      measOf t 2 = digest64 (measOf s 2 ++ slice (manDigest d) 0 64) ∧ (∀ i, i ≠ 2 → measOf t i = measOf s i) ∧
      (∀ b, b < 16 → landOf t b = {}) ∧ (landOf t 16).bufs = [] ∧
      (∀ b, b < 16 → (recOf d 1 b = none → (berthOf t b).st = .undefined) ∧
        (∀ r, recOf d 1 b = some r → (berthOf t b).cfg = berthCfg d r ∧ ((berthOf t b).st = .idle ∨ (berthOf t b).st = .halted) ∧
          (berthOf t b).cur = none ∧ ((∀ k, deckFenced s k = false) → (∀ e ∈ manGangs d, e.1 < 16) → (berthOf t b).st = .idle) ∧
          (berthOf t b).last = (berthOf s b).last)) ∧
      (∀ q c, q < 4 → c < 18 → ctxOf t q c = { berth := manCtxBerth d q c, start := (manRegion d q c).1, len := (manRegion d q c).2 }) ∧
      (connOf t 0).valid = (connOf s 0).valid ∧ (connOf t 0).rqpn = (connOf s 0).rqpn ∧
      (∀ n c, n ≠ 0 → (manConns d).find? (fun e => e.1 == n) = some (n, c) → connOf t n = { c with riseAt := s.time.mono }) ∧
      (∀ n c, n < 256 → faultDefault n = some c → (∀ e ∈ manSev d, e.1 ≠ n) → faultClass t n = c) ∧
      (∀ l1 n c l2, manSev d = l1 ++ (n, c) :: l2 → (∀ e ∈ l2, e.1 ≠ n) → faultClass t n = c % 8) ∧
      ((∀ k, k < 16 → (deckOf t k).tiles = [] ∧ (deckOf t k).descs = [] ∧ (deckOf t k).zrecs = [] ∧ (deckOf t k).fore1 = false ∧
        (deckOf t k).acc = (deckOf s k).acc))))

/-! ### Faults (R521-R545) -/

/-- A fault is raised with the source id of its level, unit and code and the class in force for its code; where it names a task and its class
is TASK or above, an ending event goes to the home quay. The chip collector takes first an occurrence that no other precedes; folds it
into the record that it repeats, with no other effect; else stores it in the lowest free entry open to its class, in place of the oldest
that it outranks, or drops it, and reacts: nothing below FENCE, a fence of the unit, a halt, or a halt with the keys cleared. -/
def Obligations.FaultsAreRaisedAndCollected : Prop :=
  ∀ s : State,
    (∀ level unit code (b : Option Nat) (task : Option Word) detail t, level < 4 → unit < 64 → code < 256 →
      t = raise s level unit code b task detail →
      ∃ x, t.occ = s.occ ++ [x] ∧ x.source.toNat = level * 16384 + unit * 256 + code ∧
        x.cls = faultClass s code ∧ x.berth = b ∧ x.tide = s.time.tide ∧
        t = { s with occ := t.occ, ends := t.ends } ∧
        ((b = none ∨ task = none ∨ faultClass s code < 2) → t.ends = s.ends) ∧
        (∀ c k, b = some c → task = some k → 2 ≤ faultClass s code → ∃ e, t.ends = s.ends ++ [e] ∧
          e.berth = c ∧ e.task = k ∧ e.info.status = 1 ∧ e.info.cause = 2 ∧ e.info.source = x.source)) ∧
    (∀ l o, firstOcc l = some o → o ∈ l ∧ ∀ x ∈ l, occBefore x o = false) ∧
    (s.occ = [] → exec (.faultCollect none) s = .next s) ∧
    (∀ o u, firstOcc s.occ = some o → u = { s with occ := dropFirst (fun x => x == o) s.occ } →
      (∀ n, foldsInto u o = some n → ∃ t, exec (.faultCollect none) s = .next t ∧ t = { u with fc := { u.fc with recs := t.fc.recs } } ∧
        ∀ k, (tget none (t.fc.recs.map (fun e => (e.1, some e.2.count))) k) =
          (tget none (u.fc.recs.map (fun e => (e.1, some (if e.1 = n then min (e.2.count + 1) 0xFFFF else e.2.count)))) k)) ∧
      (foldsInto u o = none → ∃ v, exec (.faultCollect none) s = .next (react v o) ∧
        (∀ k, thas v.fc.recs k = (thas s.fc.recs k || match entryFor s o.cls with
          | some e => e.1 == k
          | none => false)) ∧
        (match entryFor s o.cls with
          | some (n, repl) => ((tget none (v.fc.recs.map (fun e => (e.1, some e.2.source))) n) = some o.source) ∧
              v.fc.drop = (if repl then satInc s.fc.drop 1 else s.fc.drop) ∧ (repl = true → v.fc.ovf = true)
          | none => v.fc.drop = satInc s.fc.drop 1 ∧ v.fc.ovf = true) ∧
        v.berths = s.berths ∧ v.decks = s.decks ∧ v.sec = s.sec)) ∧
    (∀ o, (o.cls < 3 → react s o = s) ∧ (o.cls = 4 → (react s o).fc.halt = true) ∧
      (o.cls = 5 → (react s o).fc.halt = true ∧ (react s o).sec.keysCleared = true) ∧
      (o.cls = 3 → (o.source.toNat / 16384 = 0 ∨ o.source.toNat / 16384 = 1) →
        deckFenced (react s o) (o.source.toNat / 256 % 64) = true)) ∧
    (∀ cls n repl, entryFor s cls = some (n, repl) → n < 256 → (repl = false → thas s.fc.recs n = false ∧ (cls < 3 → n < 192)) ∧
      (repl = true → ∃ r, (n, r) ∈ s.fc.recs ∧ r.cls < cls ∧ r.cls ≤ 2 ∧ 2 ≤ cls)) ∧
    (∀ f, exec (.faultCollect (some f)) s = exec (.faultCollect none) (detect s f)) ∧
    (∀ d loc, ∃ x, (detect s (.bufUncorr d loc)).occ = s.occ ++ [x] ∧ x.source = sourceId 1 d 0x0E) ∧
    (∀ q slot, ∃ x, (detect s (.cmdmemCorr q slot)).occ = s.occ ++ [x] ∧ x.source = sourceId 2 q 0x24 ∧ x.detail.toNat = slot % 16384) ∧
    (∀ b dir, bridgeFitted s b.val = true → ∃ x, (detect s (.bridgeUncorr b dir)).occ = s.occ ++ [x] ∧ x.source = sourceId 3 (4 + b.val) 0x61) ∧
    (∀ b dir n, bridgeFitted s b.val = false → detect s (.bridgeUncorr b dir) = s ∧ detect s (.bridgeCorr b n) = s) ∧
    (∀ b n, bridgeFitted s b.val = true → mayReport s 0x60 b.val 1000000 = true →
      ∃ x, (detect s (.bridgeCorr b n)).occ = s.occ ++ [x] ∧ x.source = sourceId 3 (4 + b.val) 0x60 ∧
        x.detail.toNat = min 65535 (tget 0 s.fc.replays b.val + n)) ∧
    (∀ (q : Fin 4) line, line ∈ (quayOf s q).lines → line ∉ (quayOf (detect s (.pfsParity q line)) q).lines ∧
      ∃ x, (detect s (.pfsParity q line)).occ = s.occ ++ [x] ∧ x.source = sourceId 2 q 0x2C)

/-! ### Diagnostics (R553, R563, R564, R573-R581) -/

/-- A diagnostic is refused with DRESULT 1 while another is in progress, or with 2 for an address or range that is not allowed. The test of
a deck saves it, and returns it, or fences it with BIST_DECK. ATTEST and LOG write their bytes to the host, and their DIAG_DONE word last;
EXTEND extends its register; FW_WRITE copies to the slot not booted; FW_ACTIVATE selects that slot where its image passes. -/
def Obligations.DiagnosticsExecute : Prop :=
  ∀ (s : State) (m : Msg),
    (s.diag.busy = true → ∀ i type, (i, type) ∈ [(Instr.diagBist, 0x10), (Instr.diagAttest, 0x11), (Instr.diagExtend, 0x12),
        (Instr.diagFwWrite, 0x13), (Instr.diagFwActivate, 0x14), (Instr.diagLog, 0x15)] → Taken s 16 type m →
      exec i s = .next (diagReply (received s 16 m) (headerOf m.data) 1)) ∧
    (s.diag.busy = false → Taken s 16 0x10 m →
      (bistReady s (leAt m.data 0x20 1) = false → exec .diagBist s = .next (diagReply (received s 16 m) (headerOf m.data) 1)) ∧
      (bistReady s (leAt m.data 0x20 1) = true → ∃ t, exec .diagBist s = .next t ∧ t.diag.busy = true ∧ t.diag.type = 0x10 ∧
        t.diag.bistDeck = some (leAt m.data 0x20 1) ∧ t.diag.hseq = (headerOf m.data).hseq ∧ t.decks = s.decks ∧ t.berths = s.berths ∧
        (harbour s = true → t.hbm = s.hbm) ∧
        (∀ a x, harbour s = false → s.man.bistArea = some a → x = deckOf s (leAt m.data 0x20 1) →
          t.hbm = (hbmWrite (hbmWrite (hbmWrite s a (x.buf0.readBytes 0 0x600000)) (a + 0x600000) (x.buf1.readBytes 0 0x600000)) (a + 0xC00000)
            ((List.range 4).flatMap (slotImage x) ++ statePage x [])).hbm))) ∧
    (s.diag.bistDeck = none → ∀ f, exec (.diagBistDone f) s = .next s) ∧
    (∀ d, s.diag.bistDeck = some d →
      (harbour s = false → exec (.diagBistDone none) s =
        .next { s with diag := { s.diag with busy := false, outcome := 0, bistDeck := none } }) ∧
      (∀ f, faultClass s 0x02 = 3 → d < 16 → s.load = none → ∃ t, exec (.diagBistDone (some f)) s = .next t ∧
        deckFenced t d = true ∧ t.diag.busy = false ∧ t.diag.outcome = 1)) ∧
    (s.diag.busy = false → Taken s 16 0x11 m →
      (leAt m.data 0x20 8 % 64 ≠ 0 → exec .diagAttest s = .next (diagReply (received s 16 m) (headerOf m.data) 2)) ∧
      (leAt m.data 0x20 8 % 64 = 0 → ∃ u, exec .diagAttest s = .next (diagReply u (headerOf m.data) 0) ∧ u.diag.busy = true ∧
        u.diag.type = 0x11 ∧ u.diag.len = 760 ∧ u.diag.addr = leAt m.data 0x20 8 ∧
        (∃ sig : List Byte, sig.length = 114 ∧ (s.sec.keysCleared = true → sig = List.replicate 114 0) ∧
          ∀ w, w = Roce.write (leAt m.data 0x20 8) (attestBody s (slice m.data 0x30 32) ++ sig ++ List.replicate 6 0) none →
            Leaves s m.conn .diag w → u.out = s.out ++ [leaving s m.conn .diag w]) ∧
        (attestBody s (slice m.data 0x30 32)).length = 640)) ∧
    (s.diag.busy = false → Taken s 16 0x12 m →
      (leAt m.data 0x20 1 < 4 ∨ 7 < leAt m.data 0x20 1 → exec .diagExtend s = .next (diagReply (received s 16 m) (headerOf m.data) 1)) ∧
      (4 ≤ leAt m.data 0x20 1 → leAt m.data 0x20 1 ≤ 7 → ∃ t, exec .diagExtend s = .next t ∧ t.diag.busy = false ∧ t.diag.outcome = 0 ∧
        measOf t (leAt m.data 0x20 1) = digest64 (measOf s (leAt m.data 0x20 1) ++ slice m.data 0x30 64) ∧
        ∀ i, i ≠ leAt m.data 0x20 1 → measOf t i = measOf s i)) ∧
    (s.diag.busy = false → Taken s 16 0x13 m →
      (leAt m.data 0x20 8 % 64 ≠ 0 ∨ leAt m.data 0x28 4 % 4096 ≠ 0 ∨ leAt m.data 0x2C 4 % 64 ≠ 0 ∨ leAt m.data 0x2C 4 < 64 ∨
        1048576 < leAt m.data 0x2C 4 ∨ 0x1000000 < leAt m.data 0x28 4 + leAt m.data 0x2C 4 →
        exec .diagFwWrite s = .next (diagReply (received s 16 m) (headerOf m.data) 2)) ∧
      (leAt m.data 0x20 8 % 64 = 0 → leAt m.data 0x28 4 % 4096 = 0 → leAt m.data 0x2C 4 % 64 = 0 → 64 ≤ leAt m.data 0x2C 4 →
        leAt m.data 0x2C 4 ≤ 1048576 → leAt m.data 0x28 4 + leAt m.data 0x2C 4 ≤ 0x1000000 →
        ∃ u, exec .diagFwWrite s = .next (diagReply u (headerOf m.data) 0) ∧ u.diag.busy = true ∧ u.diag.off = leAt m.data 0x28 4 ∧
          u.diag.len = leAt m.data 0x2C 4 ∧ u.diag.conn = m.conn ∧
          (Leaves s m.conn .diag (.read (leAt m.data 0x20 8) (leAt m.data 0x2C 4)) →
            u.out = s.out ++ [leaving s m.conn .diag (.read (leAt m.data 0x20 8) (leAt m.data 0x2C 4))]))) ∧
    (s.diag.busy = false → Taken s 16 0x14 m →
      (imagePasses s (!s.boot.slot) = true → ∃ t, exec .diagFwActivate s = .next t ∧ t.diag.busy = false ∧ t.diag.outcome = 0 ∧
        regGet t (scBase + 0xC) = (if s.boot.slot then 0 else 1) ∧
        (if s.boot.slot then t.flash.commit0 else t.flash.commit1) = decide (leAt m.data 0x20 1 = 1)) ∧
      (imagePasses s (!s.boot.slot) = false → ∃ t, exec .diagFwActivate s = .next t ∧ t.diag.outcome = 3 ∧ t.diag.busy = false ∧
        t.flash = s.flash ∧ t.rw = s.rw)) ∧
    (s.diag.busy = false → Taken s 16 0x15 m →
      (leAt m.data 0x20 8 % 64 ≠ 0 → exec .diagLog s = .next (diagReply (received s 16 m) (headerOf m.data) 2)) ∧
      (leAt m.data 0x20 8 % 64 = 0 → ∃ u, exec .diagLog s = .next (diagReply u (headerOf m.data) 0) ∧ u.diag.busy = true ∧
        u.diag.type = 0x15 ∧ u.diag.len = 8256 ∧ (logBytes s).length = 8256 ∧
        (Leaves s m.conn .diag (.write (leAt m.data 0x20 8) (logBytes s) none) →
          u.out = s.out ++ [leaving s m.conn .diag (.write (leAt m.data 0x20 8) (logBytes s) none)]))) ∧
    (∀ f d, s.diag.busy = false ∨ s.diag.type = 0x10 → exec (.diagDone f d) s = .next s) ∧
    (∀ d, s.diag.busy = true → s.diag.type = 0x13 → connUsable s s.diag.conn = true → d.length = s.diag.len →
      ∃ t, exec (.diagDone false d) s = .next t ∧ t.diag.busy = false ∧ t.diag.outcome = 0 ∧
        (if s.boot.slot then t.flash.slot0 else t.flash.slot1) = (slotOf s (!s.boot.slot)).writeBytes s.diag.off d ∧
        (if s.boot.slot then t.flash.slot1 else t.flash.slot0) = slotOf s s.boot.slot) ∧
    (∀ f d w, s.diag.busy = true → s.diag.type ≠ 0x13 → s.diag.type ≠ 0x10 → connUsable s s.diag.conn = true →
      w = Roce.write (s.diag.addr + s.diag.len) (natLe 4 s.diag.hseq.toNat ++ natLe 1 (if f then 2 else 0) ++ natLe 3 0) none →
      ∃ t, exec (.diagDone f d) s = .next t ∧ t.diag.busy = false ∧ t.diag.outcome = (if f then 2 else 0) ∧
        (Leaves s s.diag.conn .diag w → t.out = s.out ++ [leaving s s.diag.conn .diag w])) ∧
    (∀ f d, s.diag.busy = true → s.diag.type ≠ 0x13 → s.diag.type ≠ 0x10 → connUsable s s.diag.conn = false →
      exec (.diagDone f d) s = .next { s with diag := { s.diag with busy := false, outcome := 2, bistDeck := none } })

/-! ### Ferry duties (R460, R473-R485) -/

/-- A ferry message that cannot arrive where it is sent changes nothing. One that can is acknowledged, and acknowledges what it names; it is
acted on where its number is the next of its sender's, discarded where it has been acted on, and draws HELLO where a number is missing.
ARRIVE adds to the sum of its barrier; RELEASE raises REL_FLAG of the berths that wait; HEALTH is kept; SILENT and EVENT join the window
of their subject. -/
def Obligations.FerryMessagesAreActedOnInOrder : Prop :=
  ∀ (s : State) (c : Fin 8192) (msg : List Byte),
    (∀ i type act, (i, type, act) ∈ [(Instr.ferryArrive c msg, 2, actArrive), (Instr.ferryRelease c msg, 3, actRelease),
        (Instr.ferryHealth c msg, 4, actHealth), (Instr.ferrySilent c msg, 5, actSilent (leAt msg 16 8)),
        (Instr.ferryEvent c msg, 6, actEvent), (Instr.ferryTidePlan c msg, 7, actPlan)] →
      (ferryConn s c = false ∨ connUsable s c = false ∨ carries s c = false ∨ msg.length ≠ 64 ∨ leAt msg 0 1 ≠ type → exec i s = .next s) ∧
      (∀ u p sys dev, ferryConn s c = true → connUsable s c = true → carries s c = true → msg.length = 64 → leAt msg 0 1 = type →
        sys = leAt msg 14 1 → dev = leAt msg 12 2 % 2 ^ 14 → u = ferryAcked (acknowledge s c 1) sys dev (leAt msg 8 4) →
        p = peerOf u sys dev →
        (leAt msg 4 4 = p.acted + 1 → exec i s = .next (act (setPeer u { p with acted := leAt msg 4 4 }) sys dev (msg.drop 24))) ∧
        (leAt msg 4 4 ≤ p.acted → exec i s = .next u) ∧
        (p.acted + 1 < leAt msg 4 4 → exec i s = .next (ferryOut u sys dev (ferryBytes u 1 0 p.acted (natLe 1 0))).1) ∧
        (∀ e ∈ p.kept, leAt msg 8 4 < e.1))) ∧
    (ferryConn s c = true → connUsable s c = true → carries s c = true → msg.length = 64 → leAt msg 0 1 = 1 →
      exec (.ferryHello c msg) s = .next (takeHello (acknowledge s c 1) (leAt msg 14 1) (leAt msg 12 2 % 2 ^ 14) (leAt msg 8 4)
        (bit (leAt msg 24 1) 0))) ∧
    (ferryConn s c = false ∨ connUsable s c = false ∨ carries s c = false ∨ msg.length ≠ 64 ∨ leAt msg 0 1 ≠ 1 →
      exec (.ferryHello c msg) s = .next s) ∧
    (∀ sys dev body job n k, job = leAt body 0 2 → n = leAt body 4 4 → k = leAt body 8 4 → ownWorker s sys dev = true →
      (rosterOf s job = none → actArrive s sys dev body = raiseChip s 0 0x5B (job + n * 2 ^ 32)) ∧
      (∀ r, rosterOf s job = some r → (barrierOf s job n false).sum + k < r.1 →
        (barrierOf (actArrive s sys dev body) job n false).sum = (barrierOf s job n false).sum + k ∧
        actArrive s sys dev body = { s with ferry := { s.ferry with barriers := (actArrive s sys dev body).ferry.barriers } }) ∧
      (∀ r, rosterOf s job = some r → (barrierOf s job n false).sum < r.1 → r.1 ≤ (barrierOf s job n false).sum + k → r.1 = r.2 →
        actArrive s sys dev body = groupRelease (setBarrier s (addArrive (barrierOf s job n false) sys dev k)) job n)) ∧
    (∀ b f job n, b < 16 → (berthOf s b).st ≠ .undefined → (berthOf s b).cfg.job = some job → (berthOf s b).bseq.toNat = n →
      (berthOf s b).cfg.relFlag = some f →
      (∀ d, d < 16 → d ≠ b → ¬((berthOf s d).st ≠ .undefined ∧ (berthOf s d).cfg.job = some job ∧ (berthOf s d).bseq.toNat = n)) →
      Unwaited s (.chip ((berthOf s b).cfg.cfBase + f)) → flagVal s (.chip ((berthOf s b).cfg.cfBase + f)) < 65535 →
      flagVal (workerRelease s job n) (.chip ((berthOf s b).cfg.cfBase + f)) = flagVal s (.chip ((berthOf s b).cfg.cfBase + f)) + 1) ∧
    (∀ sys dev body a, ownWorker s sys dev = true → s.man.ferryArea = some a → ∃ u, actHealth s sys dev body =
      hbmWrite u (a + 0x40000000 + 64 * (dev % 256)) (slice body 0 40) ∧ u.hbm = s.hbm ∧ tget 0 u.ferry.heard (dev % 256) = s.time.mono) ∧
    (∀ l now key r n reasons first, winKey l key = key → key.1 < 256 → key.2 < 2 ^ 14 →
      ∃ w, winOf (joinWindow l now key r n reasons first) key = some w ∧
        (winOf l key = none → w.at_ = now ∧ w.reasons = reasons ∧ w.first = first ∧ w.reporters = [(r, n)]) ∧
        (∀ v, winOf l key = some v → w.at_ = v.at_ ∧ w.first = v.first ∧ w.reasons = v.reasons ||| reasons ∧
          (∀ k, k ≠ r → ∀ x, (k, x) ∈ w.reporters ↔ (k, x) ∈ v.reporters)))

/-- BARRIER_ARRIVE takes one from a berth's BAR_FLAG, counts its BSEQ up and sends ARRIVE, or counts it itself. Once a second HEALTH goes to the group
ferrymaster, whose summary clears its misses. A worker unheard for 3 s is reported as silent. A window of 50 ms of tide time closes in one
EVENT, or in one PEER_EVENT record. The miss check counts every worker of another generation. A message takes the next number of its
peer's sequence and is kept; without a connection FERRY_NOCONN is raised. MG_FERRY keeps what R474 allows. -/
def Obligations.FerryDutiesExecute : Prop :=
  ∀ s : State,
    (∀ (b : Fin 16), ((berthOf s b).cfg.barFlag = none → exec (.barrierArrive b) s = .next s) ∧
      (∀ i k u, (berthOf s b).cfg.barFlag = some i → k = FlagKey.chip ((berthOf s b).cfg.cfBase + i) →
        u = setBerth (flagPut s k (flagVal s k - 1)) b { berthOf s b with bseq := (berthOf s b).bseq + 1 } →
        ((berthOf s b).st = .undefined ∨ flagVal s k = 0 → exec (.barrierArrive b) s = .next s) ∧
        ((berthOf s b).st ≠ .undefined → 0 < flagVal s k →
          (selfGroup s = true → exec (.barrierArrive b) s = .next (groupArrive u (ownSys s) (ownDevice s)
            ((berthOf s b).cfg.job.getD 0xFFFF) ((berthOf s b).bseq + 1).toNat 1)) ∧
          (selfGroup s = false → exec (.barrierArrive b) s = .next (ferryTo u (ownSys s) (gfmDevice s) 2
            (arriveBody ((berthOf s b).cfg.job.getD 0xFFFF) ((berthOf s b).bseq + 1).toNat 1)))))) ∧
    (∀ sys dev type body n, sys < 256 → dev < 2 ^ 14 → connTo s sys dev = some n → (peerOf s sys dev).owed = false →
      (∀ w, w = Roce.send (ferryBytes s type ((peerOf s sys dev).mseq + 1) (peerOf s sys dev).acted body) → Leaves s n .ferry w →
        (ferryTo s sys dev type body).out = s.out ++ [leaving s n .ferry w]) ∧
      (peerOf (ferryTo s sys dev type body) sys dev).mseq = (peerOf s sys dev).mseq + 1 ∧
      ((peerOf s sys dev).kept.length < 256 → (peerOf (ferryTo s sys dev type body) sys dev).kept =
        (peerOf s sys dev).kept ++ [((peerOf s sys dev).mseq + 1, natLe 1 type ++ slice body 0 40)])) ∧
    (∀ sys dev type body, connTo s sys dev = none → mayReport s 0x59 (sys * 2 ^ 14 + dev) 1000000000 = true →
      ∃ x, (ferryTo s sys dev type body).occ = s.occ ++ [x] ∧ x.source = sourceId 3 0 0x59) ∧
    (due s s.ferry.healthAt 1000000000 = false → exec .healthSendTick s = .next s) ∧
    (due s s.ferry.healthAt 1000000000 = true → groupFm s = false → exec .healthSendTick s = .next (ferryTo
      { s with ferry := { s.ferry with healthAt := some s.time.mono } } (ownSys s) (gfmDevice s) 4 (healthBody s))) ∧
    (∀ a, due s s.ferry.healthAt 1000000000 = true → groupFm s = true → s.man.ferryArea = some a →
      ∃ t, exec .healthSendTick s = .next t ∧ t.ferry.misses = 0) ∧
    (∀ w : Fin 256, (groupFm s = false ∨ s.time.mono < tget 0 s.ferry.heard w + 3000000000 → exec (.workerSilentTimeout w) s = .next s) ∧
      (groupFm s = true → tget 0 s.ferry.heard w + 3000000000 ≤ s.time.mono → ∃ t, exec (.workerSilentTimeout w) s = .next t ∧
        tget 0 t.ferry.heard w = s.time.mono ∧ t.ferry.groupWins = joinWindow s.ferry.groupWins s.time.tide
          (ownSys s, ownDevice s / 256 * 256 + w) (ownDevice s % 256) 1 0 s.time.tide ∧ t = { s with ferry := t.ferry })) ∧
    (∀ (sys : BitVec 8) (dev : BitVec 14),
      (winOf s.ferry.groupWins (sys.toNat, dev.toNat) = none → exec (.groupWindowClose sys dev) s = .next s) ∧
      (winOf s.ferry.sysWins (sys.toNat, dev.toNat) = none → exec (.systemWindowClose sys dev) s = .next s) ∧
      (∀ w u, winOf s.ferry.groupWins (sys.toNat, dev.toNat) = some w →
        u = { s with ferry := { s.ferry with groupWins := winDrop s.ferry.groupWins (sys.toNat, dev.toNat) } } →
        (s.time.tide < w.at_ + 50000000 → exec (.groupWindowClose sys dev) s = .next s) ∧
        (w.at_ + 50000000 ≤ s.time.tide → winOf u.ferry.groupWins (sys.toNat, dev.toNat) = none ∧
          (systemFm s = true → exec (.groupWindowClose sys dev) s = .next (systemEvent u (ownDevice s / 256) (eventBody w w.reporters.length 1))) ∧
          (systemFm s = false → exec (.groupWindowClose sys dev) s =
            .next (ferryTo u (ownSys s) (sfmDevice s) 6 (eventBody w w.reporters.length 1))))) ∧
      (∀ w u, winOf s.ferry.sysWins (sys.toNat, dev.toNat) = some w →
        u = { s with ferry := { s.ferry with sysWins := winDrop s.ferry.sysWins (sys.toNat, dev.toNat) } } →
        (s.time.tide < w.at_ + 50000000 → exec (.systemWindowClose sys dev) s = .next s) ∧
        (w.at_ + 50000000 ≤ s.time.tide → ∃ r, exec (.systemWindowClose sys dev) s = .next (emit u 16 r) ∧ r.type = 5 ∧ r.berth = 0xFF ∧
          leAt r.body 0 1 = w.sys.toNat ∧ leAt r.body 2 2 = w.device.toNat ∧ leAt r.body 4 1 = w.reasons % 256))) ∧
    (∀ gens, (s.ferry.plan = none → exec (.timetableMissCheck gens) s = .next s) ∧
      (∀ p, s.ferry.plan = some p →
        (s.time.tide < p.1 + s.time.sailing * 10 * s.time.cycleLen → exec (.timetableMissCheck gens) s = .next s) ∧
        (p.1 + s.time.sailing * 10 * s.time.cycleLen ≤ s.time.tide → ∃ t, exec (.timetableMissCheck gens) s = .next t ∧
          t.ferry.plan = none ∧ t.ferry.misses = min 65535 (s.ferry.misses +
            (((workersOf s).filter (fun w => !gens.any (fun g => g.1 == w && g.2 == p.2))).length +
              if s.time.tblGen.toNat = p.2 then 0 else 1))))) ∧
    (∀ v : Word, ∃ t, exec (.mgFerryWrite v) s = .next t ∧ groupFm t = bit v.toNat 31 ∧ systemFm t = bit v.toNat 30 ∧
      gfmDevice t = (if bits v.toNat 27 14 / 256 ≠ ownDevice s / 256 ∨ (bit v.toNat 31 = true ∧ bits v.toNat 27 14 ≠ ownDevice s)
        then gfmDevice s else bits v.toNat 27 14) ∧
      sfmDevice t = (if bit v.toNat 30 = true ∧ bits v.toNat 13 0 ≠ ownDevice s then sfmDevice s else bits v.toNat 13 0) ∧
      ∀ a, a ≠ mgBase + 0x24 → tget 0 t.rw a = tget 0 s.rw a)

/-! ### Power, resets, sensors (R550, R587-R608, R615) -/

/-- RESET_N, PWR_EN and the input. A full reset leaves everything at its reset value but LOCK records, a debug latch, a locked policy and
its key, fuses and SC_BOOT_SEL; a power cycle keeps of these only the fuses and SC_BOOT_SEL. Rails come up within 40.0 to 58.0 V and
below 85 °C. Beyond 60 V, below 36 V and at a failed rail the module shuts down, below 39 V it stops in order; a failed deck rail fences
the deck. -/
def Obligations.ResetsAndSupplyAreSupervised : Prop :=
  ∀ (s : State) (mv : Nat),
    (s.pw.hkOn = false → exec .resetNAssert s = .next s) ∧
    (s.pw.hkOn = true → s.pw.loadsOn = true → ∃ t, exec .resetNAssert s = .next t ∧ ResetLeaves s t false ∧ t.pw.loadsOn = true) ∧
    (s.pw.hkOn = true → s.pw.loadsOn = false → ∃ t u, exec .resetNAssert s = .next t ∧ ResetLeaves s t false ∧ u.fitted = s.fitted ∧
      u.pw.sensors = s.pw.sensors.map (fun e => (e.1, { val := e.2.val })) ∧
      (t.pw.loadsOn = decide (40000 ≤ s.pw.vinMv ∧ s.pw.vinMv ≤ 58000 ∧ coolEnough u = true))) ∧
    (s.pw.hkOn = true ∨ mv < 30000 →
      exec (.pwrEnAssert mv) s = .next { s with pw := { s.pw with pwrEn := true, vinMv := mv } }) ∧
    (s.pw.hkOn = false → 30000 ≤ mv → ∃ t cycle, exec (.pwrEnAssert mv) s = .next t ∧ ResetLeaves s t cycle ∧ t.pw.hkOn = true ∧
      t.pw.loadsOn = decide (40000 ≤ mv ∧ mv ≤ 58000) ∧ t.pw.pg = t.pw.loadsOn ∧ (s.pw.offAt = none → cycle = true) ∧
      (∀ a, s.pw.offAt = some a → a + 100000000 ≤ s.time.mono → cycle = true)) ∧
    (s.pw.hkOn = true → ∀ v, v = none ∨ (∃ n, v = some n ∧ n < 30000) → ∃ t, exec (.pwrEnDeassert v) s = .next t ∧ t.pw.hkOn = false ∧
      t.pw.loadsOn = false ∧ t.pw.pg = false ∧ t.pw.pwrEn = (s.pw.pwrEn && v.isSome) ∧ t.runs = [] ∧ t.berths = [] ∧ t.flash = s.flash) ∧
    (30000 ≤ mv → exec (.pwrEnDeassert (some mv)) s = .next s) ∧
    (∀ u, s.pw.hkOn = true → s.pw.restart = false →
      u = { s.pw with vinMv := mv, fastAt := if s.pw.vinMv < 40000 ∧ 0 < s.pw.qFast then some s.time.mono else s.pw.fastAt } →
      exec (.vinRecovers mv) s = .next { s with pw := u }) ∧
    (s.pw.hkOn = true → s.pw.restart = true → coolEnough s = true → ∃ t, exec (.vinRecovers mv) s = .next t ∧
      t.pw.loadsOn = (s.pw.loadsOn || decide (40000 ≤ mv ∧ mv ≤ 58000)) ∧
      t = { s with pw := t.pw, boot := { s.boot with phaseAt := t.boot.phaseAt } }) ∧
    (s.pw.hkOn = false → s.pw.pwrEn = true → 30000 ≤ mv → ∃ t cycle, exec (.vinRecovers mv) s = .next t ∧ ResetLeaves s t cycle ∧
      t.pw.hkOn = true) ∧
    (s.pw.hkOn = false ∨ mv ≤ 60000 → exec (.vinOv mv) s = .next s) ∧
    (s.pw.hkOn = true → 60000 < mv → ∃ t, exec (.vinOv mv) s = .next t ∧ PowerRaised t 0x80 (mv % 131072) ∧
      (s.pw.loadsOn = true → ShutDown t 1)) ∧
    (s.pw.hkOn = false ∨ 39000 ≤ mv → exec (.vinUv mv) s = .next s) ∧
    (s.pw.hkOn = true → mv < 39000 → ∃ t, exec (.vinUv mv) s = .next t ∧ PowerRaised t 0x81 mv ∧ t.pw.loadsOn = s.pw.loadsOn ∧
      (s.pw.loadsOn = true → s.pw.state = 1 → t.fc.halt = true ∧ t.pw.state = 2 ∧ t.pw.scause = 2)) ∧
    (s.pw.hkOn = false ∨ 36000 ≤ mv → exec (.vinBrownout mv) s = .next s) ∧
    (s.pw.hkOn = true → mv < 36000 → ∃ t, exec (.vinBrownout mv) s = .next t ∧ PowerRaised t 0x81 (mv + 65536) ∧
      (s.pw.loadsOn = true → ShutDown t 2)) ∧
    (∀ (i j : Fin 4) h, (s.pw.hkOn = false ∨ s.pw.loadsOn = false → exec (.railFail i j h) s = .next s) ∧
      (s.pw.hkOn = true → s.pw.loadsOn = true → ∃ t, exec (.railFail i j h) s = .next t ∧
        PowerRaised t 0x86 ((i.val + 1) * 4 + j.val + if h then 256 else 0) ∧ ShutDown t 4)) ∧
    (∀ d r : Fin 16, (s.pw.loadsOn = false ∨ deckFenced s d = true → exec (.deckPwr d r) s = .next s) ∧
      (s.pw.loadsOn = true → deckFenced s d = false → ∃ t x, exec (.deckPwr d r) s = .next t ∧ x ∈ t.occ ∧ x.source = sourceId 1 d 0x0F ∧
        (faultClass s 0x0F = 3 → deckFenced t d = true)))

/-- Once a millisecond throttling steps each level by its rule, and counts an entry of a source. A fast trigger sets 32, which decays by 8 a
millisecond. A reading that is due, in range and in step is taken, the third other one in a row fails its sensor, and two junction readings in a row at or above 110 °C
shut the module down. REFCLK beyond 500 ppm brings every link down. The wear monitors show the fewest days to a threshold. -/
def Obligations.ThrottleSensorsAndWear : Prop :=
  ∀ s : State, s.pw.hkOn = true →
    (∀ w, due s s.pw.tickAt 1000000 = false → exec (.throttleTick w) s = .next s) ∧
    (∀ w, w ≤ 65535 → due s s.pw.tickAt 1000000 = true → ∃ t, exec (.throttleTick w) s = .next t ∧ t.pw.watts.toNat = w ∧ t.pw.qFast = s.pw.qFast ∧
      t.pw.qLim = (if regBits s (pwBase + 4) 15 0 < w then min 56 (s.pw.qLim + 1)
        else if 100 * w < 97 * regBits s (pwBase + 4) 15 0 then s.pw.qLim - 1 else s.pw.qLim) ∧
      (hottest s = none → t.pw.qTh = s.pw.qTh) ∧
      (∀ v, hottest s = some v → t.pw.qTh = if 100 ≤ v then min 56 (s.pw.qTh + 2) else if v ≤ 97 then s.pw.qTh - 1 else s.pw.qTh) ∧
      t.pw.evPower.toNat = (if s.pw.qLim = 0 ∧ 0 < t.pw.qLim then min (s.pw.evPower.toNat + 1) 65535 else s.pw.evPower.toNat) ∧
      t.pw.evTherm.toNat = (if s.pw.qTh = 0 ∧ 0 < t.pw.qTh then min (s.pw.evTherm.toNat + 1) 65535 else s.pw.evTherm.toNat) ∧
      t = { s with pw := t.pw, fc := t.fc, occ := t.occ }) ∧
    (∀ fell mv ca, (fell ≤ 3000 → 40000 ≤ mv → ca ≤ 6500 → exec (.fastThrottleTrigger fell mv ca) s = .next s) ∧
      (3000 < fell ∨ mv < 40000 ∨ 6500 < ca → ∃ t, exec (.fastThrottleTrigger fell mv ca) s = .next t ∧ t.pw.qFast = 32 ∧ t.pw.vinMv = mv ∧
        t.pw.qLim = s.pw.qLim ∧ t.pw.qTh = s.pw.qTh ∧ t = { s with pw := t.pw, fc := t.fc, occ := t.occ })) ∧
    (s.pw.fastHeld = false → 40000 ≤ s.pw.vinMv → due s s.pw.fastAt 1000000 = true →
      exec .fastThrottleDecay s = .next { s with pw := { s.pw with qFast := s.pw.qFast - 8, fastAt := some s.time.mono } }) ∧
    (s.pw.fastHeld = true ∨ s.pw.vinMv < 40000 ∨ due s s.pw.fastAt 1000000 = false → exec .fastThrottleDecay s = .next s) ∧
    (∀ (n : Fin 28) raw, (sensorFitted s n = false ∨ (sensorOf s n).failed = true ∨ due s (sensorOf s n).readAt (sensorPeriod n) = false →
        exec (.sensorReading n raw) s = .next s) ∧
      (sensorFitted s n = true → (sensorOf s n).failed = false → due s (sensorOf s n).readAt (sensorPeriod n) = true → s.pw.restart = false →
        (plausible (sensorOf s n) n raw = true → (n.val < 24 → raw < 110 ∨ (sensorOf s n).hot = 0) → ∃ t, exec (.sensorReading n raw) s = .next t ∧
          (sensorOf t n).val = some raw ∧ (sensorOf t n).bad = 0 ∧ (n.val = 24 → t.pw.vin = BitVec.ofInt 17 raw) ∧
          (n.val = 25 → t.pw.iin = BitVec.ofInt 16 raw) ∧ t = { s with pw := t.pw }) ∧
        (plausible (sensorOf s n) n raw = true → n.val < 24 → 110 ≤ raw → (sensorOf s n).hot = 1 → s.pw.loadsOn = true →
          ∃ t, exec (.sensorReading n raw) s = .next t ∧ ShutDown t 3 ∧
            PowerRaised t 0x84 (raw.toNat % 256 + sensorDie n * 256 + n.val * 65536)) ∧
        (plausible (sensorOf s n) n raw = false → (sensorOf s n).bad < 2 → ∃ t, exec (.sensorReading n raw) s = .next t ∧
          (sensorOf t n).bad = (sensorOf s n).bad + 1 ∧ (sensorOf t n).failed = false ∧ (sensorOf t n).val = (sensorOf s n).val ∧
          t = { s with pw := t.pw }) ∧
        (plausible (sensorOf s n) n raw = false → 2 ≤ (sensorOf s n).bad → ∃ t, exec (.sensorReading n raw) s = .next t ∧
          (sensorOf t n).failed = true ∧ PowerRaised t 0x85 (n.val + unsigned 32 raw * 65536) ∧
          t = { s with pw := t.pw, fc := t.fc, occ := t.occ })))  ∧
    (∀ m ppm, (m = true ∨ 500 < ppm ∨ ppm < -500) → ∃ t x, exec (.refclkFail m ppm) s = .next t ∧ t.pw.clkOk = false ∧ x ∈ t.occ ∧
      x.source = sourceId 3 1 0x55 ∧ (∀ p k, p < 8 → k < 4 → linkUp t p k = false) ∧
      (s.pw.state = 1 → t.pw.state = 2 ∧ t.pw.scause = 5)) ∧
    (∀ ppm : Int, -500 ≤ ppm → ppm ≤ 500 → exec (.refclkFail false ppm) s =
      .next { s with pw := { s.pw with clkOk := true, clkPpm := BitVec.ofInt 16 ppm } }) ∧
    (∀ a b c d h e cap days, due s s.pw.wearAt 3600000000000 = false → exec (.wearCompute a b c d h e cap days) s = .next s) ∧
    (∀ a b c d h e cap days, due s s.pw.wearAt 3600000000000 = true → ∃ t, exec (.wearCompute a b c d h e cap days) s = .next t ∧
      (t.pw.wearEol.toNat % 65536 = 65535 ∨ t.pw.wearEol.toNat % 65536 ∈ days.take 4) ∧
      (∀ x ∈ days.take 4, t.pw.wearEol.toNat % 65536 ≤ x) ∧ (tget 0 t.pw.wearRo 1).toNat = min b 0xFFFFFFFF ∧
      t.pw.wearHbm.toNat = min h 0xFFFFFFFF ∧ t.pw.wearEye.toNat = min e 0xFFFF ∧ t.pw.wearCap.toNat = min cap 0xFFFFFFFF ∧
      t.pw.wearBelow = decide (t.pw.wearEol.toNat % 65536 < regBits s (pwBase + 0x104) 15 0) ∧
      (t.pw.wearBelow = true → s.pw.wearBelow = false → PowerRaised t 0x87 t.pw.wearEol.toNat) ∧
      t = { s with pw := t.pw, occ := t.occ })

/-! ### Start-up and security (R546-R564, R582-R586, R622) -/

/-- Start-up goes from the ROM check by signed boot, key store and power-up BIST to measurement, coordinates and readiness, each in its own
phase alone, and one that takes longer than its limit has failed. The selected slot is booted, or the other where only that passes; a failure
that R559 names ends in harbour state with its cause; a failing deck is fenced. Readiness raises SC_SVN.MIN where the image was activated so. A security violation is raised, and in
start-up ends it. JTAG changes nothing before DEBUG is latched, and then leaves an undefined state that keeps what every reset keeps. -/
def Obligations.StartUpAndSecurityProceed : Prop :=
  ∀ s : State,
    (∀ ok (a : Fin 8), (s.pw.pg = false ∨ s.boot.phase ≠ 0 ∨ s.boot.romDone = true ∨ s.boot.heldReset = true →
        exec (.bootRomCheck ok a) s = .next s) ∧
      (s.pw.pg = true → s.boot.phase = 0 → s.boot.romDone = false → s.boot.heldReset = false →
        exec (.bootRomCheck false a) s = .next { s with boot := { s.boot with heldReset := true } } ∧
        (phaseLate s 5000000 = true → exec (.bootRomCheck true a) s = .next { s with boot := { s.boot with heldReset := true } }) ∧
        (phaseLate s 5000000 = false → ∃ t, exec (.bootRomCheck true a) s = .next t ∧ t = { s with boot := t.boot, smb := t.smb } ∧ t.smb.address = 0x60 + a.val ∧ t.boot.romDone = true ∧ smbusUp t = s.pw.hkOn ∧
          (lockHeld s = false → t.boot.phase = 1) ∧ (lockHeld s = true → t.boot.phase = 8 ∧ (s.boot.hcause = 0 → t.boot.hcause = 5))))) ∧
    (s.boot.phase ≠ 1 → exec .signedBoot s = .next s) ∧
    (∀ b : Bool, s.boot.phase = 1 → regBits s (scBase + 0xC) 0 0 = (if b then 1 else 0) →
      (imagePasses s b = true → phaseLate s 80000000 = false → ∃ t, exec .signedBoot s = .next t ∧ t = { s with boot := t.boot } ∧ t.boot.slot = b ∧ t.boot.fallback = false ∧
        t.boot.phase = 2 ∧ t.boot.fwSvn.toNat = imageSvn s b ∧ t.boot.digest = imageDigest s b) ∧
      (imagePasses s b = false ∨ phaseLate s 80000000 = true → imagePasses s (!b) = true → phaseLate s 160000000 = false → ∃ t, exec .signedBoot s = .next t ∧ t = { s with boot := t.boot } ∧ t.boot.slot = (!b) ∧
        t.boot.fallback = true ∧ t.boot.phase = 2 ∧ t.boot.fwSvn.toNat = imageSvn s (!b)) ∧
      (imagePasses s b = false ∨ phaseLate s 80000000 = true → imagePasses s (!b) = false ∨ phaseLate s 160000000 = true → ∃ t x, exec .signedBoot s = .next t ∧ t.boot.phase = 8 ∧
        (s.boot.hcause = 0 → t.boot.hcause = 1) ∧ t.occ = s.occ ++ [x] ∧ t = { s with boot := t.boot, occ := t.occ } ∧ x.source = sourceId 3 2 0x70)) ∧
    (∀ ok, s.boot.phase ≠ 2 → exec (.keyStoreCheck ok) s = .next s) ∧
    (s.boot.phase = 2 → phaseLate s 2000000 = false → exec (.keyStoreCheck true) s = .next { s with
      boot := { s.boot with phase := 3, phaseAt := s.time.mono }, sec := { s.sec with identity := !s.sec.keysCleared } }) ∧
    (∀ ok, s.boot.phase = 2 → ok = false ∨ phaseLate s 2000000 = true →
      ∃ t x, exec (.keyStoreCheck ok) s = .next t ∧ t.boot.phase = 8 ∧ (s.boot.hcause = 0 → t.boot.hcause = 2) ∧ t.occ = s.occ ++ [x] ∧ t = { s with boot := t.boot, occ := t.occ } ∧
        x.source = sourceId 3 2 0x72) ∧
    (∀ l, s.boot.phase ≠ 3 → exec (.powerUpBist l) s = .next s) ∧
    (s.boot.phase = 3 → exec (.powerUpBist []) s = .next { s with boot := { s.boot with phase := 4, phaseAt := s.time.mono } } ∧
      (∀ d test, ∃ t, exec (.powerUpBist [.deck d test]) s = .next t ∧ deckFenced t d = true ∧ bit t.boot.fenced.toNat d = true ∧
        t.boot.phase = 4) ∧
      (∀ u, ∃ t, exec (.powerUpBist [.chip u]) s = .next t ∧ t.boot.phase = 8 ∧ (s.boot.hcause = 0 → t.boot.hcause = 3)) ∧
      (∀ (k : Fin 16) band, populated s k = true → ∃ t x, exec (.powerUpBist [.stack k band]) s = .next t ∧ t.boot.phase = 8 ∧
        (s.boot.hcause = 0 → t.boot.hcause = 4) ∧ x ∈ t.occ ∧ x.source = sourceId 2 (16 + k.val) 0x3A)) ∧
    (s.boot.phase ≠ 4 → exec .measure s = .next s) ∧
    (s.boot.phase = 4 → ∃ t, exec .measure s = .next t ∧ t = { s with boot := t.boot, sec := t.sec } ∧
      measOf t 0 = digest64 (measOf s 0 ++ slice s.boot.digest 0 64) ∧
      (∀ i, 1 < i → measOf t i = measOf s i) ∧ t.boot.phase = (if regBits s (mgBase + 0x20) 31 31 = 1 then 6 else 5)) ∧
    (¬ (s.boot.phase = 6 ∧ regBits s (mgBase + 0x20) 31 31 = 1 ∧ (s.time.st = .locked ∨ s.time.st = .grandmaster)) →
      exec .moduleReady s = .next s) ∧
    (s.boot.phase = 6 → regBits s (mgBase + 0x20) 31 31 = 1 → s.time.st = .locked ∨ s.time.st = .grandmaster →
      ∃ t, exec .moduleReady s = .next t ∧ t.boot.ready = true ∧ t.boot.phase = 7 ∧
        t.flash.svnMin.toNat = (if s.boot.commitSvn then max s.flash.svnMin.toNat s.boot.fwSvn.toNat else s.flash.svnMin.toNat) ∧
        t = { s with boot := t.boot, pw := t.pw, flash := t.flash }) ∧
    (∀ k : Fin 3, ∃ t x, exec (.secViol k) s = .next t ∧ t.occ = s.occ ++ [x] ∧ t = { s with boot := t.boot, occ := t.occ } ∧ x.source = sourceId 3 2 0x73 ∧ x.detail.toNat = k.val ∧
      (s.boot.phase < 7 → s.boot.heldReset = false → t.boot.phase = 8) ∧
      (7 ≤ s.boot.phase ∨ s.boot.heldReset = true → t.boot = s.boot)) ∧
    (∀ op, s.sec.debug = false ∨ op ∈ [JtagOp.bypass, .samplePreload, .extest, .idcode] → exec (.jtagAccess op) s = .next s) ∧
    (∀ op, s.sec.debug = true → op ∈ [JtagOp.privateInstruction, .internalScan] → ∃ t, exec (.jtagAccess op) s = .next t ∧
      t.pending = s.pending ∧ t.fitted = s.fitted ∧ t.flash = s.flash ∧ t.sec.debug = true ∧ t.fc.recs = s.fc.recs ∧
      regGet t (scBase + 8) = regGet s (scBase + 8) ∧ ∀ n, n < 15 → keyWord t n = keyWord s n)

/-! ### The whole module -/

/-- Right after reset nothing waits and nothing runs, no manifest is in force, every class has its default, tide time is zero and free
running, the memories are canonical, and the registers read the reset values that the spec gives. -/
def Obligations.ResetHoldsTheStatedValues : Prop :=
  State.reset.pending = [] ∧ State.reset.runs = [] ∧ State.reset.waits = [] ∧ State.reset.man.loaded = false ∧ State.reset.boot.phase = 0 ∧
  State.reset.time.tide = 0 ∧ State.reset.time.st = .free ∧ State.reset.pw.state = 1 ∧ MemWf State.reset ∧ NamesFresh State.reset ∧
  (∀ n c, n < 256 → faultDefault n = some c → faultClass State.reset n = c) ∧
  (∀ b, b < 16 → (berthOf State.reset b).st = .undefined) ∧ (∀ n, n < 8192 → (connOf State.reset n).valid = false) ∧
  (∀ p, p < 8 → (portOf State.reset p).state = .down ∧ lportOf State.reset p = p ∧ regValue State.reset (ptBase p) = 0) ∧
  regValue State.reset (fcBase + 4) = 2 ∧ regValue State.reset (mgBase + 0x20) = 0 ∧ regValue State.reset (mgBase + 0x24) = 0 ∧
  regValue State.reset (mgBase + 0x17C) = 0x01380000 ∧ regValue State.reset (mgBase + 0x190) = 4 ∧
  regValue State.reset (ttBase + 0x10) = 0x80808000 ∧ regValue State.reset (ttBase + 0x14) = 0x80000000 ∧
  (∀ q c, q < 4 → c < 18 → regValue State.reset (qyBase q + 0x400 + 0x40 * c + 8) = 0x186A0) ∧
  (∀ d, d < 16 → regValue State.reset (dkBase d + 0x50) = 0x0F000000)

/-- Every command answers a next state, and leaves the queue and what assembly fixes as they were, uses no free value twice, never lowers
SC_SVN.MIN, keeps the memories in canonical form, and names each command that it starts afresh. -/
def Obligations.EveryCommandAnswersAndKeeps : Prop := ∀ (c : Instr) (s : State), ∃ t, exec c s = .next t ∧ Always s t

/-- Every step is safe, and keeps the memories in canonical form and the names of running commands apart. -/
def Obligations.EveryStepKeepsTheInvariant : Prop :=
  ∀ s : State, MemWf s → NamesFresh s → ∃ t, step s = .next t ∧ MemWf t ∧ NamesFresh t ∧ t.pending = s.pending.tail

/-- But for RESET_N, PWR_EN, a returning VIN and JTAG, no command undoes what only a full reset or a power cycle undoes: coordinates,
readiness, harbour state, the halt, the debug latch, cleared keys, a locked policy and its key; and no time passes in it. -/
def Obligations.OnlyResetsUndoTheLatches : Prop :=
  ∀ (c : Instr) (s : State), c ≠ .resetNAssert → (∀ v, c ≠ .pwrEnAssert v) → (∀ v, c ≠ .pwrEnDeassert v) → (∀ v, c ≠ .vinRecovers v) →
    (∀ o, c ≠ .jtagAccess o) → ∃ t, exec c s = .next t ∧ Latched s t

/-- Coordinates (R461): a write that sets VALID takes its other fields from the same write, and once VALID reads 1 every write is ignored,
by whichever way it comes, and no command but those that reset the module changes the register. -/
def Obligations.CoordinatesAreTakenOnce : Prop :=
  ∀ (s : State) (v : Word),
    (regBits s (mgBase + 0x20) 31 31 = 0 → ∃ t, exec (.mgCoordWrite v) s = .next t ∧ regGet t (mgBase + 0x20) = v &&& 0x803FFFFF) ∧
    (regBits s (mgBase + 0x20) 31 31 = 1 → exec (.mgCoordWrite v) s = .next s ∧ exec (.registerWrite (mgBase + 0x20) v) s = .next s ∧
      (∀ n p, exec (.smbRegWrite 8 v n p) s = .next s)) ∧
    (regBits s (mgBase + 0x20) 31 31 = 1 → ∀ c : Instr, c ≠ .resetNAssert → (∀ m, c ≠ .pwrEnAssert m) → (∀ m, c ≠ .pwrEnDeassert m) →
      (∀ m, c ≠ .vinRecovers m) → (∀ o, c ≠ .jtagAccess o) → ∃ t, exec c s = .next t ∧ regGet t (mgBase + 0x20) = regGet s (mgBase + 0x20))

/-- A Fairhel command word is decoded without loss: a word of an implemented opcode whose reserved bits are zero is the encoding of its
fields and operands, every one at every value; a word of another opcode decodes as reserved. -/
def Obligations.FairhelWordsRoundTrip : Prop :=
  ∀ w : BitVec 256,
    (opKnown (opcodeOf w) = true → bits w.toNat 211 208 = 0 → reservedZero w = true → encodeFairhel (headOf w) (opOf w) = w) ∧
    (opKnown (opcodeOf w) = false → opOf w = .reserved (opcodeOf w))
end

