-- ==== Sys2Proof/Laws/State.lean ====
section
/-! SUPPORT. What each replacement of a part of the state leaves alone: one lemma per field, and how a part reads back. -/

namespace Sys2Proof.Laws

open Sys2Proof.Machine

/-! ### Tables -/

/-- A table read where it was written. -/
theorem tget_tput_same {α : Type} (d : α) (t : Tbl α) (k : Nat) (v : α) : tget d (tput t k v) k = v := by
  induction t with
  | nil => simp [tput, tget]
  | cons e r ih =>
    obtain ⟨j, w⟩ := e
    simp only [tput]
    split
    · simp [tget]
    · split
      · simp [tget]
      · rename_i h1 h2
        simp [tget, Ne.symm h2, ih]

/-- A table read elsewhere than it was written. -/
theorem tget_tput_ne {α : Type} (d : α) (t : Tbl α) (k i : Nat) (v : α) (h : k ≠ i) : tget d (tput t k v) i = tget d t i := by
  induction t with
  | nil => simp [tput, tget, h]
  | cons e r ih =>
    obtain ⟨j, w⟩ := e
    simp only [tput]
    split
    · simp [tget, h]
    · split
      · rename_i h1 h2
        subst h2
        simp [tget, h]
      · simp [tget, ih]

/-- A table read after a write. -/
theorem tget_tput {α : Type} (d : α) (t : Tbl α) (k i : Nat) (v : α) :
    tget d (tput t k v) i = if k = i then v else tget d t i := by
  split
  · rename_i h
    subst h
    exact tget_tput_same d t k v
  · rename_i h
    exact tget_tput_ne d t k i v h

/-! ### setDeck -/

@[simp] theorem setDeck_pending (s : State) (d : Nat) (x : Deck) : (setDeck s d x).pending = s.pending := rfl
@[simp] theorem setDeck_fitted (s : State) (d : Nat) (x : Deck) : (setDeck s d x).fitted = s.fitted := rfl
@[simp] theorem setDeck_rw (s : State) (d : Nat) (x : Deck) : (setDeck s d x).rw = s.rw := rfl
@[simp] theorem setDeck_time (s : State) (d : Nat) (x : Deck) : (setDeck s d x).time = s.time := rfl
@[simp] theorem setDeck_ports (s : State) (d : Nat) (x : Deck) : (setDeck s d x).ports = s.ports := rfl
@[simp] theorem setDeck_conns (s : State) (d : Nat) (x : Deck) : (setDeck s d x).conns = s.conns := rfl
@[simp] theorem setDeck_ringAddr (s : State) (d : Nat) (x : Deck) : (setDeck s d x).ringAddr = s.ringAddr := rfl
@[simp] theorem setDeck_ringLog2 (s : State) (d : Nat) (x : Deck) : (setDeck s d x).ringLog2 = s.ringLog2 := rfl
@[simp] theorem setDeck_landings (s : State) (d : Nat) (x : Deck) : (setDeck s d x).landings = s.landings := rfl
@[simp] theorem setDeck_berths (s : State) (d : Nat) (x : Deck) : (setDeck s d x).berths = s.berths := rfl
@[simp] theorem setDeck_windows (s : State) (d : Nat) (x : Deck) : (setDeck s d x).windows = s.windows := rfl
@[simp] theorem setDeck_trkAlloc (s : State) (d : Nat) (x : Deck) : (setDeck s d x).trkAlloc = s.trkAlloc := rfl
@[simp] theorem setDeck_trkErr (s : State) (d : Nat) (x : Deck) : (setDeck s d x).trkErr = s.trkErr := rfl
@[simp] theorem setDeck_trk (s : State) (d : Nat) (x : Deck) : (setDeck s d x).trk = s.trk := rfl
@[simp] theorem setDeck_fabric (s : State) (d : Nat) (x : Deck) : (setDeck s d x).fabric = s.fabric := rfl
@[simp] theorem setDeck_arbRank (s : State) (d : Nat) (x : Deck) : (setDeck s d x).arbRank = s.arbRank := rfl
@[simp] theorem setDeck_stk (s : State) (d : Nat) (x : Deck) : (setDeck s d x).stk = s.stk := rfl
@[simp] theorem setDeck_hbm (s : State) (d : Nat) (x : Deck) : (setDeck s d x).hbm = s.hbm := rfl
@[simp] theorem setDeck_poison (s : State) (d : Nat) (x : Deck) : (setDeck s d x).poison = s.poison := rfl
@[simp] theorem setDeck_quays (s : State) (d : Nat) (x : Deck) : (setDeck s d x).quays = s.quays := rfl
@[simp] theorem setDeck_qflags (s : State) (d : Nat) (x : Deck) : (setDeck s d x).qflags = s.qflags := rfl
@[simp] theorem setDeck_cflags (s : State) (d : Nat) (x : Deck) : (setDeck s d x).cflags = s.cflags := rfl
@[simp] theorem setDeck_waits (s : State) (d : Nat) (x : Deck) : (setDeck s d x).waits = s.waits := rfl
@[simp] theorem setDeck_halves (s : State) (d : Nat) (x : Deck) : (setDeck s d x).halves = s.halves := rfl
@[simp] theorem setDeck_cmdMem (s : State) (d : Nat) (x : Deck) : (setDeck s d x).cmdMem = s.cmdMem := rfl
@[simp] theorem setDeck_gangs (s : State) (d : Nat) (x : Deck) : (setDeck s d x).gangs = s.gangs := rfl
@[simp] theorem setDeck_runs (s : State) (d : Nat) (x : Deck) : (setDeck s d x).runs = s.runs := rfl
@[simp] theorem setDeck_fc (s : State) (d : Nat) (x : Deck) : (setDeck s d x).fc = s.fc := rfl
@[simp] theorem setDeck_occ (s : State) (d : Nat) (x : Deck) : (setDeck s d x).occ = s.occ := rfl
@[simp] theorem setDeck_ends (s : State) (d : Nat) (x : Deck) : (setDeck s d x).ends = s.ends := rfl
@[simp] theorem setDeck_ferry (s : State) (d : Nat) (x : Deck) : (setDeck s d x).ferry = s.ferry := rfl
@[simp] theorem setDeck_boot (s : State) (d : Nat) (x : Deck) : (setDeck s d x).boot = s.boot := rfl
@[simp] theorem setDeck_flash (s : State) (d : Nat) (x : Deck) : (setDeck s d x).flash = s.flash := rfl
@[simp] theorem setDeck_sec (s : State) (d : Nat) (x : Deck) : (setDeck s d x).sec = s.sec := rfl
@[simp] theorem setDeck_man (s : State) (d : Nat) (x : Deck) : (setDeck s d x).man = s.man := rfl
@[simp] theorem setDeck_load (s : State) (d : Nat) (x : Deck) : (setDeck s d x).load = s.load := rfl
@[simp] theorem setDeck_diag (s : State) (d : Nat) (x : Deck) : (setDeck s d x).diag = s.diag := rfl
@[simp] theorem setDeck_pw (s : State) (d : Nat) (x : Deck) : (setDeck s d x).pw = s.pw := rfl
@[simp] theorem setDeck_smb (s : State) (d : Nat) (x : Deck) : (setDeck s d x).smb = s.smb := rfl
@[simp] theorem setDeck_out (s : State) (d : Nat) (x : Deck) : (setDeck s d x).out = s.out := rfl
@[simp] theorem setDeck_free (s : State) (d : Nat) (x : Deck) : (setDeck s d x).free = s.free := rfl
@[simp] theorem setDeck_nextId (s : State) (d : Nat) (x : Deck) : (setDeck s d x).nextId = s.nextId := rfl

/-! ### setQuay -/

@[simp] theorem setQuay_pending (s : State) (q : Nat) (x : Quay) : (setQuay s q x).pending = s.pending := rfl
@[simp] theorem setQuay_fitted (s : State) (q : Nat) (x : Quay) : (setQuay s q x).fitted = s.fitted := rfl
@[simp] theorem setQuay_rw (s : State) (q : Nat) (x : Quay) : (setQuay s q x).rw = s.rw := rfl
@[simp] theorem setQuay_time (s : State) (q : Nat) (x : Quay) : (setQuay s q x).time = s.time := rfl
@[simp] theorem setQuay_ports (s : State) (q : Nat) (x : Quay) : (setQuay s q x).ports = s.ports := rfl
@[simp] theorem setQuay_conns (s : State) (q : Nat) (x : Quay) : (setQuay s q x).conns = s.conns := rfl
@[simp] theorem setQuay_ringAddr (s : State) (q : Nat) (x : Quay) : (setQuay s q x).ringAddr = s.ringAddr := rfl
@[simp] theorem setQuay_ringLog2 (s : State) (q : Nat) (x : Quay) : (setQuay s q x).ringLog2 = s.ringLog2 := rfl
@[simp] theorem setQuay_landings (s : State) (q : Nat) (x : Quay) : (setQuay s q x).landings = s.landings := rfl
@[simp] theorem setQuay_berths (s : State) (q : Nat) (x : Quay) : (setQuay s q x).berths = s.berths := rfl
@[simp] theorem setQuay_windows (s : State) (q : Nat) (x : Quay) : (setQuay s q x).windows = s.windows := rfl
@[simp] theorem setQuay_trkAlloc (s : State) (q : Nat) (x : Quay) : (setQuay s q x).trkAlloc = s.trkAlloc := rfl
@[simp] theorem setQuay_trkErr (s : State) (q : Nat) (x : Quay) : (setQuay s q x).trkErr = s.trkErr := rfl
@[simp] theorem setQuay_trk (s : State) (q : Nat) (x : Quay) : (setQuay s q x).trk = s.trk := rfl
@[simp] theorem setQuay_fabric (s : State) (q : Nat) (x : Quay) : (setQuay s q x).fabric = s.fabric := rfl
@[simp] theorem setQuay_arbRank (s : State) (q : Nat) (x : Quay) : (setQuay s q x).arbRank = s.arbRank := rfl
@[simp] theorem setQuay_stk (s : State) (q : Nat) (x : Quay) : (setQuay s q x).stk = s.stk := rfl
@[simp] theorem setQuay_hbm (s : State) (q : Nat) (x : Quay) : (setQuay s q x).hbm = s.hbm := rfl
@[simp] theorem setQuay_poison (s : State) (q : Nat) (x : Quay) : (setQuay s q x).poison = s.poison := rfl
@[simp] theorem setQuay_qflags (s : State) (q : Nat) (x : Quay) : (setQuay s q x).qflags = s.qflags := rfl
@[simp] theorem setQuay_cflags (s : State) (q : Nat) (x : Quay) : (setQuay s q x).cflags = s.cflags := rfl
@[simp] theorem setQuay_waits (s : State) (q : Nat) (x : Quay) : (setQuay s q x).waits = s.waits := rfl
@[simp] theorem setQuay_halves (s : State) (q : Nat) (x : Quay) : (setQuay s q x).halves = s.halves := rfl
@[simp] theorem setQuay_cmdMem (s : State) (q : Nat) (x : Quay) : (setQuay s q x).cmdMem = s.cmdMem := rfl
@[simp] theorem setQuay_decks (s : State) (q : Nat) (x : Quay) : (setQuay s q x).decks = s.decks := rfl
@[simp] theorem setQuay_gangs (s : State) (q : Nat) (x : Quay) : (setQuay s q x).gangs = s.gangs := rfl
@[simp] theorem setQuay_runs (s : State) (q : Nat) (x : Quay) : (setQuay s q x).runs = s.runs := rfl
@[simp] theorem setQuay_fc (s : State) (q : Nat) (x : Quay) : (setQuay s q x).fc = s.fc := rfl
@[simp] theorem setQuay_occ (s : State) (q : Nat) (x : Quay) : (setQuay s q x).occ = s.occ := rfl
@[simp] theorem setQuay_ends (s : State) (q : Nat) (x : Quay) : (setQuay s q x).ends = s.ends := rfl
@[simp] theorem setQuay_ferry (s : State) (q : Nat) (x : Quay) : (setQuay s q x).ferry = s.ferry := rfl
@[simp] theorem setQuay_boot (s : State) (q : Nat) (x : Quay) : (setQuay s q x).boot = s.boot := rfl
@[simp] theorem setQuay_flash (s : State) (q : Nat) (x : Quay) : (setQuay s q x).flash = s.flash := rfl
@[simp] theorem setQuay_sec (s : State) (q : Nat) (x : Quay) : (setQuay s q x).sec = s.sec := rfl
@[simp] theorem setQuay_man (s : State) (q : Nat) (x : Quay) : (setQuay s q x).man = s.man := rfl
@[simp] theorem setQuay_load (s : State) (q : Nat) (x : Quay) : (setQuay s q x).load = s.load := rfl
@[simp] theorem setQuay_diag (s : State) (q : Nat) (x : Quay) : (setQuay s q x).diag = s.diag := rfl
@[simp] theorem setQuay_pw (s : State) (q : Nat) (x : Quay) : (setQuay s q x).pw = s.pw := rfl
@[simp] theorem setQuay_smb (s : State) (q : Nat) (x : Quay) : (setQuay s q x).smb = s.smb := rfl
@[simp] theorem setQuay_out (s : State) (q : Nat) (x : Quay) : (setQuay s q x).out = s.out := rfl
@[simp] theorem setQuay_free (s : State) (q : Nat) (x : Quay) : (setQuay s q x).free = s.free := rfl
@[simp] theorem setQuay_nextId (s : State) (q : Nat) (x : Quay) : (setQuay s q x).nextId = s.nextId := rfl

/-! ### setCtx -/

@[simp] theorem setCtx_pending (s : State) (q c : Nat) (x : Ctx) : (setCtx s q c x).pending = s.pending := rfl
@[simp] theorem setCtx_fitted (s : State) (q c : Nat) (x : Ctx) : (setCtx s q c x).fitted = s.fitted := rfl
@[simp] theorem setCtx_rw (s : State) (q c : Nat) (x : Ctx) : (setCtx s q c x).rw = s.rw := rfl
@[simp] theorem setCtx_time (s : State) (q c : Nat) (x : Ctx) : (setCtx s q c x).time = s.time := rfl
@[simp] theorem setCtx_ports (s : State) (q c : Nat) (x : Ctx) : (setCtx s q c x).ports = s.ports := rfl
@[simp] theorem setCtx_conns (s : State) (q c : Nat) (x : Ctx) : (setCtx s q c x).conns = s.conns := rfl
@[simp] theorem setCtx_ringAddr (s : State) (q c : Nat) (x : Ctx) : (setCtx s q c x).ringAddr = s.ringAddr := rfl
@[simp] theorem setCtx_ringLog2 (s : State) (q c : Nat) (x : Ctx) : (setCtx s q c x).ringLog2 = s.ringLog2 := rfl
@[simp] theorem setCtx_landings (s : State) (q c : Nat) (x : Ctx) : (setCtx s q c x).landings = s.landings := rfl
@[simp] theorem setCtx_berths (s : State) (q c : Nat) (x : Ctx) : (setCtx s q c x).berths = s.berths := rfl
@[simp] theorem setCtx_windows (s : State) (q c : Nat) (x : Ctx) : (setCtx s q c x).windows = s.windows := rfl
@[simp] theorem setCtx_trkAlloc (s : State) (q c : Nat) (x : Ctx) : (setCtx s q c x).trkAlloc = s.trkAlloc := rfl
@[simp] theorem setCtx_trkErr (s : State) (q c : Nat) (x : Ctx) : (setCtx s q c x).trkErr = s.trkErr := rfl
@[simp] theorem setCtx_trk (s : State) (q c : Nat) (x : Ctx) : (setCtx s q c x).trk = s.trk := rfl
@[simp] theorem setCtx_fabric (s : State) (q c : Nat) (x : Ctx) : (setCtx s q c x).fabric = s.fabric := rfl
@[simp] theorem setCtx_arbRank (s : State) (q c : Nat) (x : Ctx) : (setCtx s q c x).arbRank = s.arbRank := rfl
@[simp] theorem setCtx_stk (s : State) (q c : Nat) (x : Ctx) : (setCtx s q c x).stk = s.stk := rfl
@[simp] theorem setCtx_hbm (s : State) (q c : Nat) (x : Ctx) : (setCtx s q c x).hbm = s.hbm := rfl
@[simp] theorem setCtx_poison (s : State) (q c : Nat) (x : Ctx) : (setCtx s q c x).poison = s.poison := rfl
@[simp] theorem setCtx_qflags (s : State) (q c : Nat) (x : Ctx) : (setCtx s q c x).qflags = s.qflags := rfl
@[simp] theorem setCtx_cflags (s : State) (q c : Nat) (x : Ctx) : (setCtx s q c x).cflags = s.cflags := rfl
@[simp] theorem setCtx_waits (s : State) (q c : Nat) (x : Ctx) : (setCtx s q c x).waits = s.waits := rfl
@[simp] theorem setCtx_halves (s : State) (q c : Nat) (x : Ctx) : (setCtx s q c x).halves = s.halves := rfl
@[simp] theorem setCtx_cmdMem (s : State) (q c : Nat) (x : Ctx) : (setCtx s q c x).cmdMem = s.cmdMem := rfl
@[simp] theorem setCtx_decks (s : State) (q c : Nat) (x : Ctx) : (setCtx s q c x).decks = s.decks := rfl
@[simp] theorem setCtx_gangs (s : State) (q c : Nat) (x : Ctx) : (setCtx s q c x).gangs = s.gangs := rfl
@[simp] theorem setCtx_runs (s : State) (q c : Nat) (x : Ctx) : (setCtx s q c x).runs = s.runs := rfl
@[simp] theorem setCtx_fc (s : State) (q c : Nat) (x : Ctx) : (setCtx s q c x).fc = s.fc := rfl
@[simp] theorem setCtx_occ (s : State) (q c : Nat) (x : Ctx) : (setCtx s q c x).occ = s.occ := rfl
@[simp] theorem setCtx_ends (s : State) (q c : Nat) (x : Ctx) : (setCtx s q c x).ends = s.ends := rfl
@[simp] theorem setCtx_ferry (s : State) (q c : Nat) (x : Ctx) : (setCtx s q c x).ferry = s.ferry := rfl
@[simp] theorem setCtx_boot (s : State) (q c : Nat) (x : Ctx) : (setCtx s q c x).boot = s.boot := rfl
@[simp] theorem setCtx_flash (s : State) (q c : Nat) (x : Ctx) : (setCtx s q c x).flash = s.flash := rfl
@[simp] theorem setCtx_sec (s : State) (q c : Nat) (x : Ctx) : (setCtx s q c x).sec = s.sec := rfl
@[simp] theorem setCtx_man (s : State) (q c : Nat) (x : Ctx) : (setCtx s q c x).man = s.man := rfl
@[simp] theorem setCtx_load (s : State) (q c : Nat) (x : Ctx) : (setCtx s q c x).load = s.load := rfl
@[simp] theorem setCtx_diag (s : State) (q c : Nat) (x : Ctx) : (setCtx s q c x).diag = s.diag := rfl
@[simp] theorem setCtx_pw (s : State) (q c : Nat) (x : Ctx) : (setCtx s q c x).pw = s.pw := rfl
@[simp] theorem setCtx_smb (s : State) (q c : Nat) (x : Ctx) : (setCtx s q c x).smb = s.smb := rfl
@[simp] theorem setCtx_out (s : State) (q c : Nat) (x : Ctx) : (setCtx s q c x).out = s.out := rfl
@[simp] theorem setCtx_free (s : State) (q c : Nat) (x : Ctx) : (setCtx s q c x).free = s.free := rfl
@[simp] theorem setCtx_nextId (s : State) (q c : Nat) (x : Ctx) : (setCtx s q c x).nextId = s.nextId := rfl

/-! ### setPort -/

@[simp] theorem setPort_pending (s : State) (p : Nat) (x : Port) : (setPort s p x).pending = s.pending := rfl
@[simp] theorem setPort_fitted (s : State) (p : Nat) (x : Port) : (setPort s p x).fitted = s.fitted := rfl
@[simp] theorem setPort_rw (s : State) (p : Nat) (x : Port) : (setPort s p x).rw = s.rw := rfl
@[simp] theorem setPort_time (s : State) (p : Nat) (x : Port) : (setPort s p x).time = s.time := rfl
@[simp] theorem setPort_conns (s : State) (p : Nat) (x : Port) : (setPort s p x).conns = s.conns := rfl
@[simp] theorem setPort_ringAddr (s : State) (p : Nat) (x : Port) : (setPort s p x).ringAddr = s.ringAddr := rfl
@[simp] theorem setPort_ringLog2 (s : State) (p : Nat) (x : Port) : (setPort s p x).ringLog2 = s.ringLog2 := rfl
@[simp] theorem setPort_landings (s : State) (p : Nat) (x : Port) : (setPort s p x).landings = s.landings := rfl
@[simp] theorem setPort_berths (s : State) (p : Nat) (x : Port) : (setPort s p x).berths = s.berths := rfl
@[simp] theorem setPort_windows (s : State) (p : Nat) (x : Port) : (setPort s p x).windows = s.windows := rfl
@[simp] theorem setPort_trkAlloc (s : State) (p : Nat) (x : Port) : (setPort s p x).trkAlloc = s.trkAlloc := rfl
@[simp] theorem setPort_trkErr (s : State) (p : Nat) (x : Port) : (setPort s p x).trkErr = s.trkErr := rfl
@[simp] theorem setPort_trk (s : State) (p : Nat) (x : Port) : (setPort s p x).trk = s.trk := rfl
@[simp] theorem setPort_fabric (s : State) (p : Nat) (x : Port) : (setPort s p x).fabric = s.fabric := rfl
@[simp] theorem setPort_arbRank (s : State) (p : Nat) (x : Port) : (setPort s p x).arbRank = s.arbRank := rfl
@[simp] theorem setPort_stk (s : State) (p : Nat) (x : Port) : (setPort s p x).stk = s.stk := rfl
@[simp] theorem setPort_hbm (s : State) (p : Nat) (x : Port) : (setPort s p x).hbm = s.hbm := rfl
@[simp] theorem setPort_poison (s : State) (p : Nat) (x : Port) : (setPort s p x).poison = s.poison := rfl
@[simp] theorem setPort_quays (s : State) (p : Nat) (x : Port) : (setPort s p x).quays = s.quays := rfl
@[simp] theorem setPort_qflags (s : State) (p : Nat) (x : Port) : (setPort s p x).qflags = s.qflags := rfl
@[simp] theorem setPort_cflags (s : State) (p : Nat) (x : Port) : (setPort s p x).cflags = s.cflags := rfl
@[simp] theorem setPort_waits (s : State) (p : Nat) (x : Port) : (setPort s p x).waits = s.waits := rfl
@[simp] theorem setPort_halves (s : State) (p : Nat) (x : Port) : (setPort s p x).halves = s.halves := rfl
@[simp] theorem setPort_cmdMem (s : State) (p : Nat) (x : Port) : (setPort s p x).cmdMem = s.cmdMem := rfl
@[simp] theorem setPort_decks (s : State) (p : Nat) (x : Port) : (setPort s p x).decks = s.decks := rfl
@[simp] theorem setPort_gangs (s : State) (p : Nat) (x : Port) : (setPort s p x).gangs = s.gangs := rfl
@[simp] theorem setPort_runs (s : State) (p : Nat) (x : Port) : (setPort s p x).runs = s.runs := rfl
@[simp] theorem setPort_fc (s : State) (p : Nat) (x : Port) : (setPort s p x).fc = s.fc := rfl
@[simp] theorem setPort_occ (s : State) (p : Nat) (x : Port) : (setPort s p x).occ = s.occ := rfl
@[simp] theorem setPort_ends (s : State) (p : Nat) (x : Port) : (setPort s p x).ends = s.ends := rfl
@[simp] theorem setPort_ferry (s : State) (p : Nat) (x : Port) : (setPort s p x).ferry = s.ferry := rfl
@[simp] theorem setPort_boot (s : State) (p : Nat) (x : Port) : (setPort s p x).boot = s.boot := rfl
@[simp] theorem setPort_flash (s : State) (p : Nat) (x : Port) : (setPort s p x).flash = s.flash := rfl
@[simp] theorem setPort_sec (s : State) (p : Nat) (x : Port) : (setPort s p x).sec = s.sec := rfl
@[simp] theorem setPort_man (s : State) (p : Nat) (x : Port) : (setPort s p x).man = s.man := rfl
@[simp] theorem setPort_load (s : State) (p : Nat) (x : Port) : (setPort s p x).load = s.load := rfl
@[simp] theorem setPort_diag (s : State) (p : Nat) (x : Port) : (setPort s p x).diag = s.diag := rfl
@[simp] theorem setPort_pw (s : State) (p : Nat) (x : Port) : (setPort s p x).pw = s.pw := rfl
@[simp] theorem setPort_smb (s : State) (p : Nat) (x : Port) : (setPort s p x).smb = s.smb := rfl
@[simp] theorem setPort_out (s : State) (p : Nat) (x : Port) : (setPort s p x).out = s.out := rfl
@[simp] theorem setPort_free (s : State) (p : Nat) (x : Port) : (setPort s p x).free = s.free := rfl
@[simp] theorem setPort_nextId (s : State) (p : Nat) (x : Port) : (setPort s p x).nextId = s.nextId := rfl

/-! ### setLink -/

@[simp] theorem setLink_pending (s : State) (p k : Nat) (x : Link) : (setLink s p k x).pending = s.pending := rfl
@[simp] theorem setLink_fitted (s : State) (p k : Nat) (x : Link) : (setLink s p k x).fitted = s.fitted := rfl
@[simp] theorem setLink_rw (s : State) (p k : Nat) (x : Link) : (setLink s p k x).rw = s.rw := rfl
@[simp] theorem setLink_time (s : State) (p k : Nat) (x : Link) : (setLink s p k x).time = s.time := rfl
@[simp] theorem setLink_conns (s : State) (p k : Nat) (x : Link) : (setLink s p k x).conns = s.conns := rfl
@[simp] theorem setLink_ringAddr (s : State) (p k : Nat) (x : Link) : (setLink s p k x).ringAddr = s.ringAddr := rfl
@[simp] theorem setLink_ringLog2 (s : State) (p k : Nat) (x : Link) : (setLink s p k x).ringLog2 = s.ringLog2 := rfl
@[simp] theorem setLink_landings (s : State) (p k : Nat) (x : Link) : (setLink s p k x).landings = s.landings := rfl
@[simp] theorem setLink_berths (s : State) (p k : Nat) (x : Link) : (setLink s p k x).berths = s.berths := rfl
@[simp] theorem setLink_windows (s : State) (p k : Nat) (x : Link) : (setLink s p k x).windows = s.windows := rfl
@[simp] theorem setLink_trkAlloc (s : State) (p k : Nat) (x : Link) : (setLink s p k x).trkAlloc = s.trkAlloc := rfl
@[simp] theorem setLink_trkErr (s : State) (p k : Nat) (x : Link) : (setLink s p k x).trkErr = s.trkErr := rfl
@[simp] theorem setLink_trk (s : State) (p k : Nat) (x : Link) : (setLink s p k x).trk = s.trk := rfl
@[simp] theorem setLink_fabric (s : State) (p k : Nat) (x : Link) : (setLink s p k x).fabric = s.fabric := rfl
@[simp] theorem setLink_arbRank (s : State) (p k : Nat) (x : Link) : (setLink s p k x).arbRank = s.arbRank := rfl
@[simp] theorem setLink_stk (s : State) (p k : Nat) (x : Link) : (setLink s p k x).stk = s.stk := rfl
@[simp] theorem setLink_hbm (s : State) (p k : Nat) (x : Link) : (setLink s p k x).hbm = s.hbm := rfl
@[simp] theorem setLink_poison (s : State) (p k : Nat) (x : Link) : (setLink s p k x).poison = s.poison := rfl
@[simp] theorem setLink_quays (s : State) (p k : Nat) (x : Link) : (setLink s p k x).quays = s.quays := rfl
@[simp] theorem setLink_qflags (s : State) (p k : Nat) (x : Link) : (setLink s p k x).qflags = s.qflags := rfl
@[simp] theorem setLink_cflags (s : State) (p k : Nat) (x : Link) : (setLink s p k x).cflags = s.cflags := rfl
@[simp] theorem setLink_waits (s : State) (p k : Nat) (x : Link) : (setLink s p k x).waits = s.waits := rfl
@[simp] theorem setLink_halves (s : State) (p k : Nat) (x : Link) : (setLink s p k x).halves = s.halves := rfl
@[simp] theorem setLink_cmdMem (s : State) (p k : Nat) (x : Link) : (setLink s p k x).cmdMem = s.cmdMem := rfl
@[simp] theorem setLink_decks (s : State) (p k : Nat) (x : Link) : (setLink s p k x).decks = s.decks := rfl
@[simp] theorem setLink_gangs (s : State) (p k : Nat) (x : Link) : (setLink s p k x).gangs = s.gangs := rfl
@[simp] theorem setLink_runs (s : State) (p k : Nat) (x : Link) : (setLink s p k x).runs = s.runs := rfl
@[simp] theorem setLink_fc (s : State) (p k : Nat) (x : Link) : (setLink s p k x).fc = s.fc := rfl
@[simp] theorem setLink_occ (s : State) (p k : Nat) (x : Link) : (setLink s p k x).occ = s.occ := rfl
@[simp] theorem setLink_ends (s : State) (p k : Nat) (x : Link) : (setLink s p k x).ends = s.ends := rfl
@[simp] theorem setLink_ferry (s : State) (p k : Nat) (x : Link) : (setLink s p k x).ferry = s.ferry := rfl
@[simp] theorem setLink_boot (s : State) (p k : Nat) (x : Link) : (setLink s p k x).boot = s.boot := rfl
@[simp] theorem setLink_flash (s : State) (p k : Nat) (x : Link) : (setLink s p k x).flash = s.flash := rfl
@[simp] theorem setLink_sec (s : State) (p k : Nat) (x : Link) : (setLink s p k x).sec = s.sec := rfl
@[simp] theorem setLink_man (s : State) (p k : Nat) (x : Link) : (setLink s p k x).man = s.man := rfl
@[simp] theorem setLink_load (s : State) (p k : Nat) (x : Link) : (setLink s p k x).load = s.load := rfl
@[simp] theorem setLink_diag (s : State) (p k : Nat) (x : Link) : (setLink s p k x).diag = s.diag := rfl
@[simp] theorem setLink_pw (s : State) (p k : Nat) (x : Link) : (setLink s p k x).pw = s.pw := rfl
@[simp] theorem setLink_smb (s : State) (p k : Nat) (x : Link) : (setLink s p k x).smb = s.smb := rfl
@[simp] theorem setLink_out (s : State) (p k : Nat) (x : Link) : (setLink s p k x).out = s.out := rfl
@[simp] theorem setLink_free (s : State) (p k : Nat) (x : Link) : (setLink s p k x).free = s.free := rfl
@[simp] theorem setLink_nextId (s : State) (p k : Nat) (x : Link) : (setLink s p k x).nextId = s.nextId := rfl

/-! ### setConn -/

@[simp] theorem setConn_pending (s : State) (n : Nat) (x : Conn) : (setConn s n x).pending = s.pending := rfl
@[simp] theorem setConn_fitted (s : State) (n : Nat) (x : Conn) : (setConn s n x).fitted = s.fitted := rfl
@[simp] theorem setConn_rw (s : State) (n : Nat) (x : Conn) : (setConn s n x).rw = s.rw := rfl
@[simp] theorem setConn_time (s : State) (n : Nat) (x : Conn) : (setConn s n x).time = s.time := rfl
@[simp] theorem setConn_ports (s : State) (n : Nat) (x : Conn) : (setConn s n x).ports = s.ports := rfl
@[simp] theorem setConn_ringAddr (s : State) (n : Nat) (x : Conn) : (setConn s n x).ringAddr = s.ringAddr := rfl
@[simp] theorem setConn_ringLog2 (s : State) (n : Nat) (x : Conn) : (setConn s n x).ringLog2 = s.ringLog2 := rfl
@[simp] theorem setConn_landings (s : State) (n : Nat) (x : Conn) : (setConn s n x).landings = s.landings := rfl
@[simp] theorem setConn_berths (s : State) (n : Nat) (x : Conn) : (setConn s n x).berths = s.berths := rfl
@[simp] theorem setConn_windows (s : State) (n : Nat) (x : Conn) : (setConn s n x).windows = s.windows := rfl
@[simp] theorem setConn_trkAlloc (s : State) (n : Nat) (x : Conn) : (setConn s n x).trkAlloc = s.trkAlloc := rfl
@[simp] theorem setConn_trkErr (s : State) (n : Nat) (x : Conn) : (setConn s n x).trkErr = s.trkErr := rfl
@[simp] theorem setConn_trk (s : State) (n : Nat) (x : Conn) : (setConn s n x).trk = s.trk := rfl
@[simp] theorem setConn_fabric (s : State) (n : Nat) (x : Conn) : (setConn s n x).fabric = s.fabric := rfl
@[simp] theorem setConn_arbRank (s : State) (n : Nat) (x : Conn) : (setConn s n x).arbRank = s.arbRank := rfl
@[simp] theorem setConn_stk (s : State) (n : Nat) (x : Conn) : (setConn s n x).stk = s.stk := rfl
@[simp] theorem setConn_hbm (s : State) (n : Nat) (x : Conn) : (setConn s n x).hbm = s.hbm := rfl
@[simp] theorem setConn_poison (s : State) (n : Nat) (x : Conn) : (setConn s n x).poison = s.poison := rfl
@[simp] theorem setConn_quays (s : State) (n : Nat) (x : Conn) : (setConn s n x).quays = s.quays := rfl
@[simp] theorem setConn_qflags (s : State) (n : Nat) (x : Conn) : (setConn s n x).qflags = s.qflags := rfl
@[simp] theorem setConn_cflags (s : State) (n : Nat) (x : Conn) : (setConn s n x).cflags = s.cflags := rfl
@[simp] theorem setConn_waits (s : State) (n : Nat) (x : Conn) : (setConn s n x).waits = s.waits := rfl
@[simp] theorem setConn_halves (s : State) (n : Nat) (x : Conn) : (setConn s n x).halves = s.halves := rfl
@[simp] theorem setConn_cmdMem (s : State) (n : Nat) (x : Conn) : (setConn s n x).cmdMem = s.cmdMem := rfl
@[simp] theorem setConn_decks (s : State) (n : Nat) (x : Conn) : (setConn s n x).decks = s.decks := rfl
@[simp] theorem setConn_gangs (s : State) (n : Nat) (x : Conn) : (setConn s n x).gangs = s.gangs := rfl
@[simp] theorem setConn_runs (s : State) (n : Nat) (x : Conn) : (setConn s n x).runs = s.runs := rfl
@[simp] theorem setConn_fc (s : State) (n : Nat) (x : Conn) : (setConn s n x).fc = s.fc := rfl
@[simp] theorem setConn_occ (s : State) (n : Nat) (x : Conn) : (setConn s n x).occ = s.occ := rfl
@[simp] theorem setConn_ends (s : State) (n : Nat) (x : Conn) : (setConn s n x).ends = s.ends := rfl
@[simp] theorem setConn_ferry (s : State) (n : Nat) (x : Conn) : (setConn s n x).ferry = s.ferry := rfl
@[simp] theorem setConn_boot (s : State) (n : Nat) (x : Conn) : (setConn s n x).boot = s.boot := rfl
@[simp] theorem setConn_flash (s : State) (n : Nat) (x : Conn) : (setConn s n x).flash = s.flash := rfl
@[simp] theorem setConn_sec (s : State) (n : Nat) (x : Conn) : (setConn s n x).sec = s.sec := rfl
@[simp] theorem setConn_man (s : State) (n : Nat) (x : Conn) : (setConn s n x).man = s.man := rfl
@[simp] theorem setConn_load (s : State) (n : Nat) (x : Conn) : (setConn s n x).load = s.load := rfl
@[simp] theorem setConn_diag (s : State) (n : Nat) (x : Conn) : (setConn s n x).diag = s.diag := rfl
@[simp] theorem setConn_pw (s : State) (n : Nat) (x : Conn) : (setConn s n x).pw = s.pw := rfl
@[simp] theorem setConn_smb (s : State) (n : Nat) (x : Conn) : (setConn s n x).smb = s.smb := rfl
@[simp] theorem setConn_out (s : State) (n : Nat) (x : Conn) : (setConn s n x).out = s.out := rfl
@[simp] theorem setConn_free (s : State) (n : Nat) (x : Conn) : (setConn s n x).free = s.free := rfl
@[simp] theorem setConn_nextId (s : State) (n : Nat) (x : Conn) : (setConn s n x).nextId = s.nextId := rfl

/-! ### setLand -/

@[simp] theorem setLand_pending (s : State) (l : Nat) (x : LandingSt) : (setLand s l x).pending = s.pending := rfl
@[simp] theorem setLand_fitted (s : State) (l : Nat) (x : LandingSt) : (setLand s l x).fitted = s.fitted := rfl
@[simp] theorem setLand_rw (s : State) (l : Nat) (x : LandingSt) : (setLand s l x).rw = s.rw := rfl
@[simp] theorem setLand_time (s : State) (l : Nat) (x : LandingSt) : (setLand s l x).time = s.time := rfl
@[simp] theorem setLand_ports (s : State) (l : Nat) (x : LandingSt) : (setLand s l x).ports = s.ports := rfl
@[simp] theorem setLand_conns (s : State) (l : Nat) (x : LandingSt) : (setLand s l x).conns = s.conns := rfl
@[simp] theorem setLand_ringAddr (s : State) (l : Nat) (x : LandingSt) : (setLand s l x).ringAddr = s.ringAddr := rfl
@[simp] theorem setLand_ringLog2 (s : State) (l : Nat) (x : LandingSt) : (setLand s l x).ringLog2 = s.ringLog2 := rfl
@[simp] theorem setLand_berths (s : State) (l : Nat) (x : LandingSt) : (setLand s l x).berths = s.berths := rfl
@[simp] theorem setLand_windows (s : State) (l : Nat) (x : LandingSt) : (setLand s l x).windows = s.windows := rfl
@[simp] theorem setLand_trkAlloc (s : State) (l : Nat) (x : LandingSt) : (setLand s l x).trkAlloc = s.trkAlloc := rfl
@[simp] theorem setLand_trkErr (s : State) (l : Nat) (x : LandingSt) : (setLand s l x).trkErr = s.trkErr := rfl
@[simp] theorem setLand_trk (s : State) (l : Nat) (x : LandingSt) : (setLand s l x).trk = s.trk := rfl
@[simp] theorem setLand_fabric (s : State) (l : Nat) (x : LandingSt) : (setLand s l x).fabric = s.fabric := rfl
@[simp] theorem setLand_arbRank (s : State) (l : Nat) (x : LandingSt) : (setLand s l x).arbRank = s.arbRank := rfl
@[simp] theorem setLand_stk (s : State) (l : Nat) (x : LandingSt) : (setLand s l x).stk = s.stk := rfl
@[simp] theorem setLand_hbm (s : State) (l : Nat) (x : LandingSt) : (setLand s l x).hbm = s.hbm := rfl
@[simp] theorem setLand_poison (s : State) (l : Nat) (x : LandingSt) : (setLand s l x).poison = s.poison := rfl
@[simp] theorem setLand_quays (s : State) (l : Nat) (x : LandingSt) : (setLand s l x).quays = s.quays := rfl
@[simp] theorem setLand_qflags (s : State) (l : Nat) (x : LandingSt) : (setLand s l x).qflags = s.qflags := rfl
@[simp] theorem setLand_cflags (s : State) (l : Nat) (x : LandingSt) : (setLand s l x).cflags = s.cflags := rfl
@[simp] theorem setLand_waits (s : State) (l : Nat) (x : LandingSt) : (setLand s l x).waits = s.waits := rfl
@[simp] theorem setLand_halves (s : State) (l : Nat) (x : LandingSt) : (setLand s l x).halves = s.halves := rfl
@[simp] theorem setLand_cmdMem (s : State) (l : Nat) (x : LandingSt) : (setLand s l x).cmdMem = s.cmdMem := rfl
@[simp] theorem setLand_decks (s : State) (l : Nat) (x : LandingSt) : (setLand s l x).decks = s.decks := rfl
@[simp] theorem setLand_gangs (s : State) (l : Nat) (x : LandingSt) : (setLand s l x).gangs = s.gangs := rfl
@[simp] theorem setLand_runs (s : State) (l : Nat) (x : LandingSt) : (setLand s l x).runs = s.runs := rfl
@[simp] theorem setLand_fc (s : State) (l : Nat) (x : LandingSt) : (setLand s l x).fc = s.fc := rfl
@[simp] theorem setLand_occ (s : State) (l : Nat) (x : LandingSt) : (setLand s l x).occ = s.occ := rfl
@[simp] theorem setLand_ends (s : State) (l : Nat) (x : LandingSt) : (setLand s l x).ends = s.ends := rfl
@[simp] theorem setLand_ferry (s : State) (l : Nat) (x : LandingSt) : (setLand s l x).ferry = s.ferry := rfl
@[simp] theorem setLand_boot (s : State) (l : Nat) (x : LandingSt) : (setLand s l x).boot = s.boot := rfl
@[simp] theorem setLand_flash (s : State) (l : Nat) (x : LandingSt) : (setLand s l x).flash = s.flash := rfl
@[simp] theorem setLand_sec (s : State) (l : Nat) (x : LandingSt) : (setLand s l x).sec = s.sec := rfl
@[simp] theorem setLand_man (s : State) (l : Nat) (x : LandingSt) : (setLand s l x).man = s.man := rfl
@[simp] theorem setLand_load (s : State) (l : Nat) (x : LandingSt) : (setLand s l x).load = s.load := rfl
@[simp] theorem setLand_diag (s : State) (l : Nat) (x : LandingSt) : (setLand s l x).diag = s.diag := rfl
@[simp] theorem setLand_pw (s : State) (l : Nat) (x : LandingSt) : (setLand s l x).pw = s.pw := rfl
@[simp] theorem setLand_smb (s : State) (l : Nat) (x : LandingSt) : (setLand s l x).smb = s.smb := rfl
@[simp] theorem setLand_out (s : State) (l : Nat) (x : LandingSt) : (setLand s l x).out = s.out := rfl
@[simp] theorem setLand_free (s : State) (l : Nat) (x : LandingSt) : (setLand s l x).free = s.free := rfl
@[simp] theorem setLand_nextId (s : State) (l : Nat) (x : LandingSt) : (setLand s l x).nextId = s.nextId := rfl

/-! ### setBerth -/

@[simp] theorem setBerth_pending (s : State) (b : Nat) (x : Berth) : (setBerth s b x).pending = s.pending := rfl
@[simp] theorem setBerth_fitted (s : State) (b : Nat) (x : Berth) : (setBerth s b x).fitted = s.fitted := rfl
@[simp] theorem setBerth_rw (s : State) (b : Nat) (x : Berth) : (setBerth s b x).rw = s.rw := rfl
@[simp] theorem setBerth_time (s : State) (b : Nat) (x : Berth) : (setBerth s b x).time = s.time := rfl
@[simp] theorem setBerth_ports (s : State) (b : Nat) (x : Berth) : (setBerth s b x).ports = s.ports := rfl
@[simp] theorem setBerth_conns (s : State) (b : Nat) (x : Berth) : (setBerth s b x).conns = s.conns := rfl
@[simp] theorem setBerth_ringAddr (s : State) (b : Nat) (x : Berth) : (setBerth s b x).ringAddr = s.ringAddr := rfl
@[simp] theorem setBerth_ringLog2 (s : State) (b : Nat) (x : Berth) : (setBerth s b x).ringLog2 = s.ringLog2 := rfl
@[simp] theorem setBerth_landings (s : State) (b : Nat) (x : Berth) : (setBerth s b x).landings = s.landings := rfl
@[simp] theorem setBerth_windows (s : State) (b : Nat) (x : Berth) : (setBerth s b x).windows = s.windows := rfl
@[simp] theorem setBerth_trkAlloc (s : State) (b : Nat) (x : Berth) : (setBerth s b x).trkAlloc = s.trkAlloc := rfl
@[simp] theorem setBerth_trkErr (s : State) (b : Nat) (x : Berth) : (setBerth s b x).trkErr = s.trkErr := rfl
@[simp] theorem setBerth_trk (s : State) (b : Nat) (x : Berth) : (setBerth s b x).trk = s.trk := rfl
@[simp] theorem setBerth_fabric (s : State) (b : Nat) (x : Berth) : (setBerth s b x).fabric = s.fabric := rfl
@[simp] theorem setBerth_arbRank (s : State) (b : Nat) (x : Berth) : (setBerth s b x).arbRank = s.arbRank := rfl
@[simp] theorem setBerth_stk (s : State) (b : Nat) (x : Berth) : (setBerth s b x).stk = s.stk := rfl
@[simp] theorem setBerth_hbm (s : State) (b : Nat) (x : Berth) : (setBerth s b x).hbm = s.hbm := rfl
@[simp] theorem setBerth_poison (s : State) (b : Nat) (x : Berth) : (setBerth s b x).poison = s.poison := rfl
@[simp] theorem setBerth_quays (s : State) (b : Nat) (x : Berth) : (setBerth s b x).quays = s.quays := rfl
@[simp] theorem setBerth_qflags (s : State) (b : Nat) (x : Berth) : (setBerth s b x).qflags = s.qflags := rfl
@[simp] theorem setBerth_cflags (s : State) (b : Nat) (x : Berth) : (setBerth s b x).cflags = s.cflags := rfl
@[simp] theorem setBerth_waits (s : State) (b : Nat) (x : Berth) : (setBerth s b x).waits = s.waits := rfl
@[simp] theorem setBerth_halves (s : State) (b : Nat) (x : Berth) : (setBerth s b x).halves = s.halves := rfl
@[simp] theorem setBerth_cmdMem (s : State) (b : Nat) (x : Berth) : (setBerth s b x).cmdMem = s.cmdMem := rfl
@[simp] theorem setBerth_decks (s : State) (b : Nat) (x : Berth) : (setBerth s b x).decks = s.decks := rfl
@[simp] theorem setBerth_gangs (s : State) (b : Nat) (x : Berth) : (setBerth s b x).gangs = s.gangs := rfl
@[simp] theorem setBerth_runs (s : State) (b : Nat) (x : Berth) : (setBerth s b x).runs = s.runs := rfl
@[simp] theorem setBerth_fc (s : State) (b : Nat) (x : Berth) : (setBerth s b x).fc = s.fc := rfl
@[simp] theorem setBerth_occ (s : State) (b : Nat) (x : Berth) : (setBerth s b x).occ = s.occ := rfl
@[simp] theorem setBerth_ends (s : State) (b : Nat) (x : Berth) : (setBerth s b x).ends = s.ends := rfl
@[simp] theorem setBerth_ferry (s : State) (b : Nat) (x : Berth) : (setBerth s b x).ferry = s.ferry := rfl
@[simp] theorem setBerth_boot (s : State) (b : Nat) (x : Berth) : (setBerth s b x).boot = s.boot := rfl
@[simp] theorem setBerth_flash (s : State) (b : Nat) (x : Berth) : (setBerth s b x).flash = s.flash := rfl
@[simp] theorem setBerth_sec (s : State) (b : Nat) (x : Berth) : (setBerth s b x).sec = s.sec := rfl
@[simp] theorem setBerth_man (s : State) (b : Nat) (x : Berth) : (setBerth s b x).man = s.man := rfl
@[simp] theorem setBerth_load (s : State) (b : Nat) (x : Berth) : (setBerth s b x).load = s.load := rfl
@[simp] theorem setBerth_diag (s : State) (b : Nat) (x : Berth) : (setBerth s b x).diag = s.diag := rfl
@[simp] theorem setBerth_pw (s : State) (b : Nat) (x : Berth) : (setBerth s b x).pw = s.pw := rfl
@[simp] theorem setBerth_smb (s : State) (b : Nat) (x : Berth) : (setBerth s b x).smb = s.smb := rfl
@[simp] theorem setBerth_out (s : State) (b : Nat) (x : Berth) : (setBerth s b x).out = s.out := rfl
@[simp] theorem setBerth_free (s : State) (b : Nat) (x : Berth) : (setBerth s b x).free = s.free := rfl
@[simp] theorem setBerth_nextId (s : State) (b : Nat) (x : Berth) : (setBerth s b x).nextId = s.nextId := rfl

/-! ### setStack -/

@[simp] theorem setStack_pending (s : State) (k : Nat) (x : Stack) : (setStack s k x).pending = s.pending := rfl
@[simp] theorem setStack_fitted (s : State) (k : Nat) (x : Stack) : (setStack s k x).fitted = s.fitted := rfl
@[simp] theorem setStack_rw (s : State) (k : Nat) (x : Stack) : (setStack s k x).rw = s.rw := rfl
@[simp] theorem setStack_time (s : State) (k : Nat) (x : Stack) : (setStack s k x).time = s.time := rfl
@[simp] theorem setStack_ports (s : State) (k : Nat) (x : Stack) : (setStack s k x).ports = s.ports := rfl
@[simp] theorem setStack_conns (s : State) (k : Nat) (x : Stack) : (setStack s k x).conns = s.conns := rfl
@[simp] theorem setStack_ringAddr (s : State) (k : Nat) (x : Stack) : (setStack s k x).ringAddr = s.ringAddr := rfl
@[simp] theorem setStack_ringLog2 (s : State) (k : Nat) (x : Stack) : (setStack s k x).ringLog2 = s.ringLog2 := rfl
@[simp] theorem setStack_landings (s : State) (k : Nat) (x : Stack) : (setStack s k x).landings = s.landings := rfl
@[simp] theorem setStack_berths (s : State) (k : Nat) (x : Stack) : (setStack s k x).berths = s.berths := rfl
@[simp] theorem setStack_windows (s : State) (k : Nat) (x : Stack) : (setStack s k x).windows = s.windows := rfl
@[simp] theorem setStack_trkAlloc (s : State) (k : Nat) (x : Stack) : (setStack s k x).trkAlloc = s.trkAlloc := rfl
@[simp] theorem setStack_trkErr (s : State) (k : Nat) (x : Stack) : (setStack s k x).trkErr = s.trkErr := rfl
@[simp] theorem setStack_trk (s : State) (k : Nat) (x : Stack) : (setStack s k x).trk = s.trk := rfl
@[simp] theorem setStack_fabric (s : State) (k : Nat) (x : Stack) : (setStack s k x).fabric = s.fabric := rfl
@[simp] theorem setStack_arbRank (s : State) (k : Nat) (x : Stack) : (setStack s k x).arbRank = s.arbRank := rfl
@[simp] theorem setStack_hbm (s : State) (k : Nat) (x : Stack) : (setStack s k x).hbm = s.hbm := rfl
@[simp] theorem setStack_poison (s : State) (k : Nat) (x : Stack) : (setStack s k x).poison = s.poison := rfl
@[simp] theorem setStack_quays (s : State) (k : Nat) (x : Stack) : (setStack s k x).quays = s.quays := rfl
@[simp] theorem setStack_qflags (s : State) (k : Nat) (x : Stack) : (setStack s k x).qflags = s.qflags := rfl
@[simp] theorem setStack_cflags (s : State) (k : Nat) (x : Stack) : (setStack s k x).cflags = s.cflags := rfl
@[simp] theorem setStack_waits (s : State) (k : Nat) (x : Stack) : (setStack s k x).waits = s.waits := rfl
@[simp] theorem setStack_halves (s : State) (k : Nat) (x : Stack) : (setStack s k x).halves = s.halves := rfl
@[simp] theorem setStack_cmdMem (s : State) (k : Nat) (x : Stack) : (setStack s k x).cmdMem = s.cmdMem := rfl
@[simp] theorem setStack_decks (s : State) (k : Nat) (x : Stack) : (setStack s k x).decks = s.decks := rfl
@[simp] theorem setStack_gangs (s : State) (k : Nat) (x : Stack) : (setStack s k x).gangs = s.gangs := rfl
@[simp] theorem setStack_runs (s : State) (k : Nat) (x : Stack) : (setStack s k x).runs = s.runs := rfl
@[simp] theorem setStack_fc (s : State) (k : Nat) (x : Stack) : (setStack s k x).fc = s.fc := rfl
@[simp] theorem setStack_occ (s : State) (k : Nat) (x : Stack) : (setStack s k x).occ = s.occ := rfl
@[simp] theorem setStack_ends (s : State) (k : Nat) (x : Stack) : (setStack s k x).ends = s.ends := rfl
@[simp] theorem setStack_ferry (s : State) (k : Nat) (x : Stack) : (setStack s k x).ferry = s.ferry := rfl
@[simp] theorem setStack_boot (s : State) (k : Nat) (x : Stack) : (setStack s k x).boot = s.boot := rfl
@[simp] theorem setStack_flash (s : State) (k : Nat) (x : Stack) : (setStack s k x).flash = s.flash := rfl
@[simp] theorem setStack_sec (s : State) (k : Nat) (x : Stack) : (setStack s k x).sec = s.sec := rfl
@[simp] theorem setStack_man (s : State) (k : Nat) (x : Stack) : (setStack s k x).man = s.man := rfl
@[simp] theorem setStack_load (s : State) (k : Nat) (x : Stack) : (setStack s k x).load = s.load := rfl
@[simp] theorem setStack_diag (s : State) (k : Nat) (x : Stack) : (setStack s k x).diag = s.diag := rfl
@[simp] theorem setStack_pw (s : State) (k : Nat) (x : Stack) : (setStack s k x).pw = s.pw := rfl
@[simp] theorem setStack_smb (s : State) (k : Nat) (x : Stack) : (setStack s k x).smb = s.smb := rfl
@[simp] theorem setStack_out (s : State) (k : Nat) (x : Stack) : (setStack s k x).out = s.out := rfl
@[simp] theorem setStack_free (s : State) (k : Nat) (x : Stack) : (setStack s k x).free = s.free := rfl
@[simp] theorem setStack_nextId (s : State) (k : Nat) (x : Stack) : (setStack s k x).nextId = s.nextId := rfl

/-! ### setRun -/

@[simp] theorem setRun_pending (s : State) (r : Run) : (setRun s r).pending = s.pending := rfl
@[simp] theorem setRun_fitted (s : State) (r : Run) : (setRun s r).fitted = s.fitted := rfl
@[simp] theorem setRun_rw (s : State) (r : Run) : (setRun s r).rw = s.rw := rfl
@[simp] theorem setRun_time (s : State) (r : Run) : (setRun s r).time = s.time := rfl
@[simp] theorem setRun_ports (s : State) (r : Run) : (setRun s r).ports = s.ports := rfl
@[simp] theorem setRun_conns (s : State) (r : Run) : (setRun s r).conns = s.conns := rfl
@[simp] theorem setRun_ringAddr (s : State) (r : Run) : (setRun s r).ringAddr = s.ringAddr := rfl
@[simp] theorem setRun_ringLog2 (s : State) (r : Run) : (setRun s r).ringLog2 = s.ringLog2 := rfl
@[simp] theorem setRun_landings (s : State) (r : Run) : (setRun s r).landings = s.landings := rfl
@[simp] theorem setRun_berths (s : State) (r : Run) : (setRun s r).berths = s.berths := rfl
@[simp] theorem setRun_windows (s : State) (r : Run) : (setRun s r).windows = s.windows := rfl
@[simp] theorem setRun_trkAlloc (s : State) (r : Run) : (setRun s r).trkAlloc = s.trkAlloc := rfl
@[simp] theorem setRun_trkErr (s : State) (r : Run) : (setRun s r).trkErr = s.trkErr := rfl
@[simp] theorem setRun_trk (s : State) (r : Run) : (setRun s r).trk = s.trk := rfl
@[simp] theorem setRun_fabric (s : State) (r : Run) : (setRun s r).fabric = s.fabric := rfl
@[simp] theorem setRun_arbRank (s : State) (r : Run) : (setRun s r).arbRank = s.arbRank := rfl
@[simp] theorem setRun_stk (s : State) (r : Run) : (setRun s r).stk = s.stk := rfl
@[simp] theorem setRun_hbm (s : State) (r : Run) : (setRun s r).hbm = s.hbm := rfl
@[simp] theorem setRun_poison (s : State) (r : Run) : (setRun s r).poison = s.poison := rfl
@[simp] theorem setRun_quays (s : State) (r : Run) : (setRun s r).quays = s.quays := rfl
@[simp] theorem setRun_qflags (s : State) (r : Run) : (setRun s r).qflags = s.qflags := rfl
@[simp] theorem setRun_cflags (s : State) (r : Run) : (setRun s r).cflags = s.cflags := rfl
@[simp] theorem setRun_waits (s : State) (r : Run) : (setRun s r).waits = s.waits := rfl
@[simp] theorem setRun_halves (s : State) (r : Run) : (setRun s r).halves = s.halves := rfl
@[simp] theorem setRun_cmdMem (s : State) (r : Run) : (setRun s r).cmdMem = s.cmdMem := rfl
@[simp] theorem setRun_decks (s : State) (r : Run) : (setRun s r).decks = s.decks := rfl
@[simp] theorem setRun_gangs (s : State) (r : Run) : (setRun s r).gangs = s.gangs := rfl
@[simp] theorem setRun_fc (s : State) (r : Run) : (setRun s r).fc = s.fc := rfl
@[simp] theorem setRun_occ (s : State) (r : Run) : (setRun s r).occ = s.occ := rfl
@[simp] theorem setRun_ends (s : State) (r : Run) : (setRun s r).ends = s.ends := rfl
@[simp] theorem setRun_ferry (s : State) (r : Run) : (setRun s r).ferry = s.ferry := rfl
@[simp] theorem setRun_boot (s : State) (r : Run) : (setRun s r).boot = s.boot := rfl
@[simp] theorem setRun_flash (s : State) (r : Run) : (setRun s r).flash = s.flash := rfl
@[simp] theorem setRun_sec (s : State) (r : Run) : (setRun s r).sec = s.sec := rfl
@[simp] theorem setRun_man (s : State) (r : Run) : (setRun s r).man = s.man := rfl
@[simp] theorem setRun_load (s : State) (r : Run) : (setRun s r).load = s.load := rfl
@[simp] theorem setRun_diag (s : State) (r : Run) : (setRun s r).diag = s.diag := rfl
@[simp] theorem setRun_pw (s : State) (r : Run) : (setRun s r).pw = s.pw := rfl
@[simp] theorem setRun_smb (s : State) (r : Run) : (setRun s r).smb = s.smb := rfl
@[simp] theorem setRun_out (s : State) (r : Run) : (setRun s r).out = s.out := rfl
@[simp] theorem setRun_free (s : State) (r : Run) : (setRun s r).free = s.free := rfl
@[simp] theorem setRun_nextId (s : State) (r : Run) : (setRun s r).nextId = s.nextId := rfl

/-! ### dropRun -/

@[simp] theorem dropRun_pending (s : State) (id : Nat) : (dropRun s id).pending = s.pending := rfl
@[simp] theorem dropRun_fitted (s : State) (id : Nat) : (dropRun s id).fitted = s.fitted := rfl
@[simp] theorem dropRun_rw (s : State) (id : Nat) : (dropRun s id).rw = s.rw := rfl
@[simp] theorem dropRun_time (s : State) (id : Nat) : (dropRun s id).time = s.time := rfl
@[simp] theorem dropRun_ports (s : State) (id : Nat) : (dropRun s id).ports = s.ports := rfl
@[simp] theorem dropRun_conns (s : State) (id : Nat) : (dropRun s id).conns = s.conns := rfl
@[simp] theorem dropRun_ringAddr (s : State) (id : Nat) : (dropRun s id).ringAddr = s.ringAddr := rfl
@[simp] theorem dropRun_ringLog2 (s : State) (id : Nat) : (dropRun s id).ringLog2 = s.ringLog2 := rfl
@[simp] theorem dropRun_landings (s : State) (id : Nat) : (dropRun s id).landings = s.landings := rfl
@[simp] theorem dropRun_berths (s : State) (id : Nat) : (dropRun s id).berths = s.berths := rfl
@[simp] theorem dropRun_windows (s : State) (id : Nat) : (dropRun s id).windows = s.windows := rfl
@[simp] theorem dropRun_trkAlloc (s : State) (id : Nat) : (dropRun s id).trkAlloc = s.trkAlloc := rfl
@[simp] theorem dropRun_trkErr (s : State) (id : Nat) : (dropRun s id).trkErr = s.trkErr := rfl
@[simp] theorem dropRun_trk (s : State) (id : Nat) : (dropRun s id).trk = s.trk := rfl
@[simp] theorem dropRun_fabric (s : State) (id : Nat) : (dropRun s id).fabric = s.fabric := rfl
@[simp] theorem dropRun_arbRank (s : State) (id : Nat) : (dropRun s id).arbRank = s.arbRank := rfl
@[simp] theorem dropRun_stk (s : State) (id : Nat) : (dropRun s id).stk = s.stk := rfl
@[simp] theorem dropRun_hbm (s : State) (id : Nat) : (dropRun s id).hbm = s.hbm := rfl
@[simp] theorem dropRun_poison (s : State) (id : Nat) : (dropRun s id).poison = s.poison := rfl
@[simp] theorem dropRun_quays (s : State) (id : Nat) : (dropRun s id).quays = s.quays := rfl
@[simp] theorem dropRun_qflags (s : State) (id : Nat) : (dropRun s id).qflags = s.qflags := rfl
@[simp] theorem dropRun_cflags (s : State) (id : Nat) : (dropRun s id).cflags = s.cflags := rfl
@[simp] theorem dropRun_waits (s : State) (id : Nat) : (dropRun s id).waits = s.waits := rfl
@[simp] theorem dropRun_halves (s : State) (id : Nat) : (dropRun s id).halves = s.halves := rfl
@[simp] theorem dropRun_cmdMem (s : State) (id : Nat) : (dropRun s id).cmdMem = s.cmdMem := rfl
@[simp] theorem dropRun_decks (s : State) (id : Nat) : (dropRun s id).decks = s.decks := rfl
@[simp] theorem dropRun_gangs (s : State) (id : Nat) : (dropRun s id).gangs = s.gangs := rfl
@[simp] theorem dropRun_fc (s : State) (id : Nat) : (dropRun s id).fc = s.fc := rfl
@[simp] theorem dropRun_occ (s : State) (id : Nat) : (dropRun s id).occ = s.occ := rfl
@[simp] theorem dropRun_ends (s : State) (id : Nat) : (dropRun s id).ends = s.ends := rfl
@[simp] theorem dropRun_ferry (s : State) (id : Nat) : (dropRun s id).ferry = s.ferry := rfl
@[simp] theorem dropRun_boot (s : State) (id : Nat) : (dropRun s id).boot = s.boot := rfl
@[simp] theorem dropRun_flash (s : State) (id : Nat) : (dropRun s id).flash = s.flash := rfl
@[simp] theorem dropRun_sec (s : State) (id : Nat) : (dropRun s id).sec = s.sec := rfl
@[simp] theorem dropRun_man (s : State) (id : Nat) : (dropRun s id).man = s.man := rfl
@[simp] theorem dropRun_load (s : State) (id : Nat) : (dropRun s id).load = s.load := rfl
@[simp] theorem dropRun_diag (s : State) (id : Nat) : (dropRun s id).diag = s.diag := rfl
@[simp] theorem dropRun_pw (s : State) (id : Nat) : (dropRun s id).pw = s.pw := rfl
@[simp] theorem dropRun_smb (s : State) (id : Nat) : (dropRun s id).smb = s.smb := rfl
@[simp] theorem dropRun_out (s : State) (id : Nat) : (dropRun s id).out = s.out := rfl
@[simp] theorem dropRun_free (s : State) (id : Nat) : (dropRun s id).free = s.free := rfl
@[simp] theorem dropRun_nextId (s : State) (id : Nat) : (dropRun s id).nextId = s.nextId := rfl

/-! ### regSet -/

@[simp] theorem regSet_pending (s : State) (a : Nat) (w : Word) : (regSet s a w).pending = s.pending := rfl
@[simp] theorem regSet_fitted (s : State) (a : Nat) (w : Word) : (regSet s a w).fitted = s.fitted := rfl
@[simp] theorem regSet_time (s : State) (a : Nat) (w : Word) : (regSet s a w).time = s.time := rfl
@[simp] theorem regSet_ports (s : State) (a : Nat) (w : Word) : (regSet s a w).ports = s.ports := rfl
@[simp] theorem regSet_conns (s : State) (a : Nat) (w : Word) : (regSet s a w).conns = s.conns := rfl
@[simp] theorem regSet_ringAddr (s : State) (a : Nat) (w : Word) : (regSet s a w).ringAddr = s.ringAddr := rfl
@[simp] theorem regSet_ringLog2 (s : State) (a : Nat) (w : Word) : (regSet s a w).ringLog2 = s.ringLog2 := rfl
@[simp] theorem regSet_landings (s : State) (a : Nat) (w : Word) : (regSet s a w).landings = s.landings := rfl
@[simp] theorem regSet_berths (s : State) (a : Nat) (w : Word) : (regSet s a w).berths = s.berths := rfl
@[simp] theorem regSet_windows (s : State) (a : Nat) (w : Word) : (regSet s a w).windows = s.windows := rfl
@[simp] theorem regSet_trkAlloc (s : State) (a : Nat) (w : Word) : (regSet s a w).trkAlloc = s.trkAlloc := rfl
@[simp] theorem regSet_trkErr (s : State) (a : Nat) (w : Word) : (regSet s a w).trkErr = s.trkErr := rfl
@[simp] theorem regSet_trk (s : State) (a : Nat) (w : Word) : (regSet s a w).trk = s.trk := rfl
@[simp] theorem regSet_fabric (s : State) (a : Nat) (w : Word) : (regSet s a w).fabric = s.fabric := rfl
@[simp] theorem regSet_arbRank (s : State) (a : Nat) (w : Word) : (regSet s a w).arbRank = s.arbRank := rfl
@[simp] theorem regSet_stk (s : State) (a : Nat) (w : Word) : (regSet s a w).stk = s.stk := rfl
@[simp] theorem regSet_hbm (s : State) (a : Nat) (w : Word) : (regSet s a w).hbm = s.hbm := rfl
@[simp] theorem regSet_poison (s : State) (a : Nat) (w : Word) : (regSet s a w).poison = s.poison := rfl
@[simp] theorem regSet_quays (s : State) (a : Nat) (w : Word) : (regSet s a w).quays = s.quays := rfl
@[simp] theorem regSet_qflags (s : State) (a : Nat) (w : Word) : (regSet s a w).qflags = s.qflags := rfl
@[simp] theorem regSet_cflags (s : State) (a : Nat) (w : Word) : (regSet s a w).cflags = s.cflags := rfl
@[simp] theorem regSet_waits (s : State) (a : Nat) (w : Word) : (regSet s a w).waits = s.waits := rfl
@[simp] theorem regSet_halves (s : State) (a : Nat) (w : Word) : (regSet s a w).halves = s.halves := rfl
@[simp] theorem regSet_cmdMem (s : State) (a : Nat) (w : Word) : (regSet s a w).cmdMem = s.cmdMem := rfl
@[simp] theorem regSet_decks (s : State) (a : Nat) (w : Word) : (regSet s a w).decks = s.decks := rfl
@[simp] theorem regSet_gangs (s : State) (a : Nat) (w : Word) : (regSet s a w).gangs = s.gangs := rfl
@[simp] theorem regSet_runs (s : State) (a : Nat) (w : Word) : (regSet s a w).runs = s.runs := rfl
@[simp] theorem regSet_fc (s : State) (a : Nat) (w : Word) : (regSet s a w).fc = s.fc := rfl
@[simp] theorem regSet_occ (s : State) (a : Nat) (w : Word) : (regSet s a w).occ = s.occ := rfl
@[simp] theorem regSet_ends (s : State) (a : Nat) (w : Word) : (regSet s a w).ends = s.ends := rfl
@[simp] theorem regSet_ferry (s : State) (a : Nat) (w : Word) : (regSet s a w).ferry = s.ferry := rfl
@[simp] theorem regSet_boot (s : State) (a : Nat) (w : Word) : (regSet s a w).boot = s.boot := rfl
@[simp] theorem regSet_flash (s : State) (a : Nat) (w : Word) : (regSet s a w).flash = s.flash := rfl
@[simp] theorem regSet_sec (s : State) (a : Nat) (w : Word) : (regSet s a w).sec = s.sec := rfl
@[simp] theorem regSet_man (s : State) (a : Nat) (w : Word) : (regSet s a w).man = s.man := rfl
@[simp] theorem regSet_load (s : State) (a : Nat) (w : Word) : (regSet s a w).load = s.load := rfl
@[simp] theorem regSet_diag (s : State) (a : Nat) (w : Word) : (regSet s a w).diag = s.diag := rfl
@[simp] theorem regSet_pw (s : State) (a : Nat) (w : Word) : (regSet s a w).pw = s.pw := rfl
@[simp] theorem regSet_smb (s : State) (a : Nat) (w : Word) : (regSet s a w).smb = s.smb := rfl
@[simp] theorem regSet_out (s : State) (a : Nat) (w : Word) : (regSet s a w).out = s.out := rfl
@[simp] theorem regSet_free (s : State) (a : Nat) (w : Word) : (regSet s a w).free = s.free := rfl
@[simp] theorem regSet_nextId (s : State) (a : Nat) (w : Word) : (regSet s a w).nextId = s.nextId := rfl

/-! ### send -/

@[simp] theorem send_pending (s : State) (o : Out) : (send s o).pending = s.pending := rfl
@[simp] theorem send_fitted (s : State) (o : Out) : (send s o).fitted = s.fitted := rfl
@[simp] theorem send_rw (s : State) (o : Out) : (send s o).rw = s.rw := rfl
@[simp] theorem send_time (s : State) (o : Out) : (send s o).time = s.time := rfl
@[simp] theorem send_ports (s : State) (o : Out) : (send s o).ports = s.ports := rfl
@[simp] theorem send_conns (s : State) (o : Out) : (send s o).conns = s.conns := rfl
@[simp] theorem send_ringAddr (s : State) (o : Out) : (send s o).ringAddr = s.ringAddr := rfl
@[simp] theorem send_ringLog2 (s : State) (o : Out) : (send s o).ringLog2 = s.ringLog2 := rfl
@[simp] theorem send_landings (s : State) (o : Out) : (send s o).landings = s.landings := rfl
@[simp] theorem send_berths (s : State) (o : Out) : (send s o).berths = s.berths := rfl
@[simp] theorem send_windows (s : State) (o : Out) : (send s o).windows = s.windows := rfl
@[simp] theorem send_trkAlloc (s : State) (o : Out) : (send s o).trkAlloc = s.trkAlloc := rfl
@[simp] theorem send_trkErr (s : State) (o : Out) : (send s o).trkErr = s.trkErr := rfl
@[simp] theorem send_trk (s : State) (o : Out) : (send s o).trk = s.trk := rfl
@[simp] theorem send_fabric (s : State) (o : Out) : (send s o).fabric = s.fabric := rfl
@[simp] theorem send_arbRank (s : State) (o : Out) : (send s o).arbRank = s.arbRank := rfl
@[simp] theorem send_stk (s : State) (o : Out) : (send s o).stk = s.stk := rfl
@[simp] theorem send_hbm (s : State) (o : Out) : (send s o).hbm = s.hbm := rfl
@[simp] theorem send_poison (s : State) (o : Out) : (send s o).poison = s.poison := rfl
@[simp] theorem send_quays (s : State) (o : Out) : (send s o).quays = s.quays := rfl
@[simp] theorem send_qflags (s : State) (o : Out) : (send s o).qflags = s.qflags := rfl
@[simp] theorem send_cflags (s : State) (o : Out) : (send s o).cflags = s.cflags := rfl
@[simp] theorem send_waits (s : State) (o : Out) : (send s o).waits = s.waits := rfl
@[simp] theorem send_halves (s : State) (o : Out) : (send s o).halves = s.halves := rfl
@[simp] theorem send_cmdMem (s : State) (o : Out) : (send s o).cmdMem = s.cmdMem := rfl
@[simp] theorem send_decks (s : State) (o : Out) : (send s o).decks = s.decks := rfl
@[simp] theorem send_gangs (s : State) (o : Out) : (send s o).gangs = s.gangs := rfl
@[simp] theorem send_runs (s : State) (o : Out) : (send s o).runs = s.runs := rfl
@[simp] theorem send_fc (s : State) (o : Out) : (send s o).fc = s.fc := rfl
@[simp] theorem send_occ (s : State) (o : Out) : (send s o).occ = s.occ := rfl
@[simp] theorem send_ends (s : State) (o : Out) : (send s o).ends = s.ends := rfl
@[simp] theorem send_ferry (s : State) (o : Out) : (send s o).ferry = s.ferry := rfl
@[simp] theorem send_boot (s : State) (o : Out) : (send s o).boot = s.boot := rfl
@[simp] theorem send_flash (s : State) (o : Out) : (send s o).flash = s.flash := rfl
@[simp] theorem send_sec (s : State) (o : Out) : (send s o).sec = s.sec := rfl
@[simp] theorem send_man (s : State) (o : Out) : (send s o).man = s.man := rfl
@[simp] theorem send_load (s : State) (o : Out) : (send s o).load = s.load := rfl
@[simp] theorem send_diag (s : State) (o : Out) : (send s o).diag = s.diag := rfl
@[simp] theorem send_pw (s : State) (o : Out) : (send s o).pw = s.pw := rfl
@[simp] theorem send_smb (s : State) (o : Out) : (send s o).smb = s.smb := rfl
@[simp] theorem send_free (s : State) (o : Out) : (send s o).free = s.free := rfl
@[simp] theorem send_nextId (s : State) (o : Out) : (send s o).nextId = s.nextId := rfl

/-! ### setHalf -/

@[simp] theorem setHalf_pending (s : State) (q b h : Nat) (x : Half) : (setHalf s q b h x).pending = s.pending := rfl
@[simp] theorem setHalf_fitted (s : State) (q b h : Nat) (x : Half) : (setHalf s q b h x).fitted = s.fitted := rfl
@[simp] theorem setHalf_rw (s : State) (q b h : Nat) (x : Half) : (setHalf s q b h x).rw = s.rw := rfl
@[simp] theorem setHalf_time (s : State) (q b h : Nat) (x : Half) : (setHalf s q b h x).time = s.time := rfl
@[simp] theorem setHalf_ports (s : State) (q b h : Nat) (x : Half) : (setHalf s q b h x).ports = s.ports := rfl
@[simp] theorem setHalf_conns (s : State) (q b h : Nat) (x : Half) : (setHalf s q b h x).conns = s.conns := rfl
@[simp] theorem setHalf_ringAddr (s : State) (q b h : Nat) (x : Half) : (setHalf s q b h x).ringAddr = s.ringAddr := rfl
@[simp] theorem setHalf_ringLog2 (s : State) (q b h : Nat) (x : Half) : (setHalf s q b h x).ringLog2 = s.ringLog2 := rfl
@[simp] theorem setHalf_landings (s : State) (q b h : Nat) (x : Half) : (setHalf s q b h x).landings = s.landings := rfl
@[simp] theorem setHalf_berths (s : State) (q b h : Nat) (x : Half) : (setHalf s q b h x).berths = s.berths := rfl
@[simp] theorem setHalf_windows (s : State) (q b h : Nat) (x : Half) : (setHalf s q b h x).windows = s.windows := rfl
@[simp] theorem setHalf_trkAlloc (s : State) (q b h : Nat) (x : Half) : (setHalf s q b h x).trkAlloc = s.trkAlloc := rfl
@[simp] theorem setHalf_trkErr (s : State) (q b h : Nat) (x : Half) : (setHalf s q b h x).trkErr = s.trkErr := rfl
@[simp] theorem setHalf_trk (s : State) (q b h : Nat) (x : Half) : (setHalf s q b h x).trk = s.trk := rfl
@[simp] theorem setHalf_fabric (s : State) (q b h : Nat) (x : Half) : (setHalf s q b h x).fabric = s.fabric := rfl
@[simp] theorem setHalf_arbRank (s : State) (q b h : Nat) (x : Half) : (setHalf s q b h x).arbRank = s.arbRank := rfl
@[simp] theorem setHalf_stk (s : State) (q b h : Nat) (x : Half) : (setHalf s q b h x).stk = s.stk := rfl
@[simp] theorem setHalf_hbm (s : State) (q b h : Nat) (x : Half) : (setHalf s q b h x).hbm = s.hbm := rfl
@[simp] theorem setHalf_poison (s : State) (q b h : Nat) (x : Half) : (setHalf s q b h x).poison = s.poison := rfl
@[simp] theorem setHalf_quays (s : State) (q b h : Nat) (x : Half) : (setHalf s q b h x).quays = s.quays := rfl
@[simp] theorem setHalf_qflags (s : State) (q b h : Nat) (x : Half) : (setHalf s q b h x).qflags = s.qflags := rfl
@[simp] theorem setHalf_cflags (s : State) (q b h : Nat) (x : Half) : (setHalf s q b h x).cflags = s.cflags := rfl
@[simp] theorem setHalf_waits (s : State) (q b h : Nat) (x : Half) : (setHalf s q b h x).waits = s.waits := rfl
@[simp] theorem setHalf_cmdMem (s : State) (q b h : Nat) (x : Half) : (setHalf s q b h x).cmdMem = s.cmdMem := rfl
@[simp] theorem setHalf_decks (s : State) (q b h : Nat) (x : Half) : (setHalf s q b h x).decks = s.decks := rfl
@[simp] theorem setHalf_gangs (s : State) (q b h : Nat) (x : Half) : (setHalf s q b h x).gangs = s.gangs := rfl
@[simp] theorem setHalf_runs (s : State) (q b h : Nat) (x : Half) : (setHalf s q b h x).runs = s.runs := rfl
@[simp] theorem setHalf_fc (s : State) (q b h : Nat) (x : Half) : (setHalf s q b h x).fc = s.fc := rfl
@[simp] theorem setHalf_occ (s : State) (q b h : Nat) (x : Half) : (setHalf s q b h x).occ = s.occ := rfl
@[simp] theorem setHalf_ends (s : State) (q b h : Nat) (x : Half) : (setHalf s q b h x).ends = s.ends := rfl
@[simp] theorem setHalf_ferry (s : State) (q b h : Nat) (x : Half) : (setHalf s q b h x).ferry = s.ferry := rfl
@[simp] theorem setHalf_boot (s : State) (q b h : Nat) (x : Half) : (setHalf s q b h x).boot = s.boot := rfl
@[simp] theorem setHalf_flash (s : State) (q b h : Nat) (x : Half) : (setHalf s q b h x).flash = s.flash := rfl
@[simp] theorem setHalf_sec (s : State) (q b h : Nat) (x : Half) : (setHalf s q b h x).sec = s.sec := rfl
@[simp] theorem setHalf_man (s : State) (q b h : Nat) (x : Half) : (setHalf s q b h x).man = s.man := rfl
@[simp] theorem setHalf_load (s : State) (q b h : Nat) (x : Half) : (setHalf s q b h x).load = s.load := rfl
@[simp] theorem setHalf_diag (s : State) (q b h : Nat) (x : Half) : (setHalf s q b h x).diag = s.diag := rfl
@[simp] theorem setHalf_pw (s : State) (q b h : Nat) (x : Half) : (setHalf s q b h x).pw = s.pw := rfl
@[simp] theorem setHalf_smb (s : State) (q b h : Nat) (x : Half) : (setHalf s q b h x).smb = s.smb := rfl
@[simp] theorem setHalf_out (s : State) (q b h : Nat) (x : Half) : (setHalf s q b h x).out = s.out := rfl
@[simp] theorem setHalf_free (s : State) (q b h : Nat) (x : Half) : (setHalf s q b h x).free = s.free := rfl
@[simp] theorem setHalf_nextId (s : State) (q b h : Nat) (x : Half) : (setHalf s q b h x).nextId = s.nextId := rfl

/-! ### Reading a part back -/

@[simp] theorem deckOf_setDeck (s : State) (i j : Nat) (x : Deck) : deckOf (setDeck s i x) j = if i = j then x else deckOf s j :=
  tget_tput _ _ _ _ _

@[simp] theorem quayOf_setQuay (s : State) (i j : Nat) (x : Quay) : quayOf (setQuay s i x) j = if i = j then x else quayOf s j :=
  tget_tput _ _ _ _ _

@[simp] theorem portOf_setPort (s : State) (i j : Nat) (x : Port) : portOf (setPort s i x) j = if i = j then x else portOf s j :=
  tget_tput _ _ _ _ _

@[simp] theorem connOf_setConn (s : State) (i j : Nat) (x : Conn) : connOf (setConn s i x) j = if i = j then x else connOf s j :=
  tget_tput _ _ _ _ _

@[simp] theorem landOf_setLand (s : State) (i j : Nat) (x : LandingSt) : landOf (setLand s i x) j = if i = j then x else landOf s j :=
  tget_tput _ _ _ _ _

@[simp] theorem berthOf_setBerth (s : State) (i j : Nat) (x : Berth) : berthOf (setBerth s i x) j = if i = j then x else berthOf s j :=
  tget_tput _ _ _ _ _

@[simp] theorem stackOf_setStack (s : State) (i j : Nat) (x : Stack) : stackOf (setStack s i x) j = if i = j then x else stackOf s j :=
  tget_tput _ _ _ _ _

@[simp] theorem regGet_regSet (s : State) (a b : Nat) (w : Word) : regGet (regSet s a w) b = if a = b then w else regGet s b :=
  tget_tput _ _ _ _ _

@[simp] theorem ctxOf_setCtx (s : State) (q c i j : Nat) (x : Ctx) :
    ctxOf (setCtx s q c x) i j = if q = i ∧ c = j then x else ctxOf s i j := by
  unfold ctxOf setCtx
  by_cases h : q = i
  · subst h
    simp only [quayOf_setQuay, if_true, true_and]
    exact tget_tput _ _ _ _ _
  · simp [quayOf_setQuay, h]

@[simp] theorem linkOf_setLink (s : State) (p k i j : Nat) (x : Link) :
    linkOf (setLink s p k x) i j = if p = i ∧ k = j then x else linkOf s i j := by
  unfold linkOf setLink
  by_cases h : p = i
  · subst h
    simp only [portOf_setPort, if_true, true_and]
    exact tget_tput _ _ _ _ _
  · simp [portOf_setPort, h]

@[simp] theorem halfOf_setHalf (s : State) (q b h i : Nat) (x : Half) :
    halfOf (setHalf s q b h x) q b i = if halfKey q b h = halfKey q b i then x else halfOf s q b i :=
  tget_tput _ _ _ _ _

/-! ### Parts that a replacement does not reach -/

@[simp] theorem quayOf_setDeck (s : State) (d : Nat) (x : Deck) (i0 : Nat) : quayOf (setDeck s d x) i0 = quayOf s i0 := rfl
@[simp] theorem ctxOf_setDeck (s : State) (d : Nat) (x : Deck) (i0 i1 : Nat) : ctxOf (setDeck s d x) i0 i1 = ctxOf s i0 i1 := rfl
@[simp] theorem portOf_setDeck (s : State) (d : Nat) (x : Deck) (i0 : Nat) : portOf (setDeck s d x) i0 = portOf s i0 := rfl
@[simp] theorem linkOf_setDeck (s : State) (d : Nat) (x : Deck) (i0 i1 : Nat) : linkOf (setDeck s d x) i0 i1 = linkOf s i0 i1 := rfl
@[simp] theorem connOf_setDeck (s : State) (d : Nat) (x : Deck) (i0 : Nat) : connOf (setDeck s d x) i0 = connOf s i0 := rfl
@[simp] theorem landOf_setDeck (s : State) (d : Nat) (x : Deck) (i0 : Nat) : landOf (setDeck s d x) i0 = landOf s i0 := rfl
@[simp] theorem berthOf_setDeck (s : State) (d : Nat) (x : Deck) (i0 : Nat) : berthOf (setDeck s d x) i0 = berthOf s i0 := rfl
@[simp] theorem stackOf_setDeck (s : State) (d : Nat) (x : Deck) (i0 : Nat) : stackOf (setDeck s d x) i0 = stackOf s i0 := rfl
@[simp] theorem runOf_setDeck (s : State) (d : Nat) (x : Deck) (i0 : Nat) : runOf (setDeck s d x) i0 = runOf s i0 := rfl
@[simp] theorem regGet_setDeck (s : State) (d : Nat) (x : Deck) (a_ : Nat) : regGet (setDeck s d x) a_ = regGet s a_ := rfl

@[simp] theorem deckOf_setQuay (s : State) (q : Nat) (x : Quay) (i0 : Nat) : deckOf (setQuay s q x) i0 = deckOf s i0 := rfl
@[simp] theorem portOf_setQuay (s : State) (q : Nat) (x : Quay) (i0 : Nat) : portOf (setQuay s q x) i0 = portOf s i0 := rfl
@[simp] theorem linkOf_setQuay (s : State) (q : Nat) (x : Quay) (i0 i1 : Nat) : linkOf (setQuay s q x) i0 i1 = linkOf s i0 i1 := rfl
@[simp] theorem connOf_setQuay (s : State) (q : Nat) (x : Quay) (i0 : Nat) : connOf (setQuay s q x) i0 = connOf s i0 := rfl
@[simp] theorem landOf_setQuay (s : State) (q : Nat) (x : Quay) (i0 : Nat) : landOf (setQuay s q x) i0 = landOf s i0 := rfl
@[simp] theorem berthOf_setQuay (s : State) (q : Nat) (x : Quay) (i0 : Nat) : berthOf (setQuay s q x) i0 = berthOf s i0 := rfl
@[simp] theorem stackOf_setQuay (s : State) (q : Nat) (x : Quay) (i0 : Nat) : stackOf (setQuay s q x) i0 = stackOf s i0 := rfl
@[simp] theorem runOf_setQuay (s : State) (q : Nat) (x : Quay) (i0 : Nat) : runOf (setQuay s q x) i0 = runOf s i0 := rfl
@[simp] theorem regGet_setQuay (s : State) (q : Nat) (x : Quay) (a_ : Nat) : regGet (setQuay s q x) a_ = regGet s a_ := rfl

@[simp] theorem deckOf_setCtx (s : State) (q c : Nat) (x : Ctx) (i0 : Nat) : deckOf (setCtx s q c x) i0 = deckOf s i0 := rfl
@[simp] theorem portOf_setCtx (s : State) (q c : Nat) (x : Ctx) (i0 : Nat) : portOf (setCtx s q c x) i0 = portOf s i0 := rfl
@[simp] theorem linkOf_setCtx (s : State) (q c : Nat) (x : Ctx) (i0 i1 : Nat) : linkOf (setCtx s q c x) i0 i1 = linkOf s i0 i1 := rfl
@[simp] theorem connOf_setCtx (s : State) (q c : Nat) (x : Ctx) (i0 : Nat) : connOf (setCtx s q c x) i0 = connOf s i0 := rfl
@[simp] theorem landOf_setCtx (s : State) (q c : Nat) (x : Ctx) (i0 : Nat) : landOf (setCtx s q c x) i0 = landOf s i0 := rfl
@[simp] theorem berthOf_setCtx (s : State) (q c : Nat) (x : Ctx) (i0 : Nat) : berthOf (setCtx s q c x) i0 = berthOf s i0 := rfl
@[simp] theorem stackOf_setCtx (s : State) (q c : Nat) (x : Ctx) (i0 : Nat) : stackOf (setCtx s q c x) i0 = stackOf s i0 := rfl
@[simp] theorem runOf_setCtx (s : State) (q c : Nat) (x : Ctx) (i0 : Nat) : runOf (setCtx s q c x) i0 = runOf s i0 := rfl
@[simp] theorem regGet_setCtx (s : State) (q c : Nat) (x : Ctx) (a_ : Nat) : regGet (setCtx s q c x) a_ = regGet s a_ := rfl

@[simp] theorem deckOf_setPort (s : State) (p : Nat) (x : Port) (i0 : Nat) : deckOf (setPort s p x) i0 = deckOf s i0 := rfl
@[simp] theorem quayOf_setPort (s : State) (p : Nat) (x : Port) (i0 : Nat) : quayOf (setPort s p x) i0 = quayOf s i0 := rfl
@[simp] theorem ctxOf_setPort (s : State) (p : Nat) (x : Port) (i0 i1 : Nat) : ctxOf (setPort s p x) i0 i1 = ctxOf s i0 i1 := rfl
@[simp] theorem connOf_setPort (s : State) (p : Nat) (x : Port) (i0 : Nat) : connOf (setPort s p x) i0 = connOf s i0 := rfl
@[simp] theorem landOf_setPort (s : State) (p : Nat) (x : Port) (i0 : Nat) : landOf (setPort s p x) i0 = landOf s i0 := rfl
@[simp] theorem berthOf_setPort (s : State) (p : Nat) (x : Port) (i0 : Nat) : berthOf (setPort s p x) i0 = berthOf s i0 := rfl
@[simp] theorem stackOf_setPort (s : State) (p : Nat) (x : Port) (i0 : Nat) : stackOf (setPort s p x) i0 = stackOf s i0 := rfl
@[simp] theorem runOf_setPort (s : State) (p : Nat) (x : Port) (i0 : Nat) : runOf (setPort s p x) i0 = runOf s i0 := rfl
@[simp] theorem regGet_setPort (s : State) (p : Nat) (x : Port) (a_ : Nat) : regGet (setPort s p x) a_ = regGet s a_ := rfl

@[simp] theorem deckOf_setLink (s : State) (p k : Nat) (x : Link) (i0 : Nat) : deckOf (setLink s p k x) i0 = deckOf s i0 := rfl
@[simp] theorem quayOf_setLink (s : State) (p k : Nat) (x : Link) (i0 : Nat) : quayOf (setLink s p k x) i0 = quayOf s i0 := rfl
@[simp] theorem ctxOf_setLink (s : State) (p k : Nat) (x : Link) (i0 i1 : Nat) : ctxOf (setLink s p k x) i0 i1 = ctxOf s i0 i1 := rfl
@[simp] theorem connOf_setLink (s : State) (p k : Nat) (x : Link) (i0 : Nat) : connOf (setLink s p k x) i0 = connOf s i0 := rfl
@[simp] theorem landOf_setLink (s : State) (p k : Nat) (x : Link) (i0 : Nat) : landOf (setLink s p k x) i0 = landOf s i0 := rfl
@[simp] theorem berthOf_setLink (s : State) (p k : Nat) (x : Link) (i0 : Nat) : berthOf (setLink s p k x) i0 = berthOf s i0 := rfl
@[simp] theorem stackOf_setLink (s : State) (p k : Nat) (x : Link) (i0 : Nat) : stackOf (setLink s p k x) i0 = stackOf s i0 := rfl
@[simp] theorem runOf_setLink (s : State) (p k : Nat) (x : Link) (i0 : Nat) : runOf (setLink s p k x) i0 = runOf s i0 := rfl
@[simp] theorem regGet_setLink (s : State) (p k : Nat) (x : Link) (a_ : Nat) : regGet (setLink s p k x) a_ = regGet s a_ := rfl

@[simp] theorem deckOf_setConn (s : State) (n : Nat) (x : Conn) (i0 : Nat) : deckOf (setConn s n x) i0 = deckOf s i0 := rfl
@[simp] theorem quayOf_setConn (s : State) (n : Nat) (x : Conn) (i0 : Nat) : quayOf (setConn s n x) i0 = quayOf s i0 := rfl
@[simp] theorem ctxOf_setConn (s : State) (n : Nat) (x : Conn) (i0 i1 : Nat) : ctxOf (setConn s n x) i0 i1 = ctxOf s i0 i1 := rfl
@[simp] theorem portOf_setConn (s : State) (n : Nat) (x : Conn) (i0 : Nat) : portOf (setConn s n x) i0 = portOf s i0 := rfl
@[simp] theorem linkOf_setConn (s : State) (n : Nat) (x : Conn) (i0 i1 : Nat) : linkOf (setConn s n x) i0 i1 = linkOf s i0 i1 := rfl
@[simp] theorem landOf_setConn (s : State) (n : Nat) (x : Conn) (i0 : Nat) : landOf (setConn s n x) i0 = landOf s i0 := rfl
@[simp] theorem berthOf_setConn (s : State) (n : Nat) (x : Conn) (i0 : Nat) : berthOf (setConn s n x) i0 = berthOf s i0 := rfl
@[simp] theorem stackOf_setConn (s : State) (n : Nat) (x : Conn) (i0 : Nat) : stackOf (setConn s n x) i0 = stackOf s i0 := rfl
@[simp] theorem runOf_setConn (s : State) (n : Nat) (x : Conn) (i0 : Nat) : runOf (setConn s n x) i0 = runOf s i0 := rfl
@[simp] theorem regGet_setConn (s : State) (n : Nat) (x : Conn) (a_ : Nat) : regGet (setConn s n x) a_ = regGet s a_ := rfl

@[simp] theorem deckOf_setLand (s : State) (l : Nat) (x : LandingSt) (i0 : Nat) : deckOf (setLand s l x) i0 = deckOf s i0 := rfl
@[simp] theorem quayOf_setLand (s : State) (l : Nat) (x : LandingSt) (i0 : Nat) : quayOf (setLand s l x) i0 = quayOf s i0 := rfl
@[simp] theorem ctxOf_setLand (s : State) (l : Nat) (x : LandingSt) (i0 i1 : Nat) : ctxOf (setLand s l x) i0 i1 = ctxOf s i0 i1 := rfl
@[simp] theorem portOf_setLand (s : State) (l : Nat) (x : LandingSt) (i0 : Nat) : portOf (setLand s l x) i0 = portOf s i0 := rfl
@[simp] theorem linkOf_setLand (s : State) (l : Nat) (x : LandingSt) (i0 i1 : Nat) : linkOf (setLand s l x) i0 i1 = linkOf s i0 i1 := rfl
@[simp] theorem connOf_setLand (s : State) (l : Nat) (x : LandingSt) (i0 : Nat) : connOf (setLand s l x) i0 = connOf s i0 := rfl
@[simp] theorem berthOf_setLand (s : State) (l : Nat) (x : LandingSt) (i0 : Nat) : berthOf (setLand s l x) i0 = berthOf s i0 := rfl
@[simp] theorem stackOf_setLand (s : State) (l : Nat) (x : LandingSt) (i0 : Nat) : stackOf (setLand s l x) i0 = stackOf s i0 := rfl
@[simp] theorem runOf_setLand (s : State) (l : Nat) (x : LandingSt) (i0 : Nat) : runOf (setLand s l x) i0 = runOf s i0 := rfl
@[simp] theorem regGet_setLand (s : State) (l : Nat) (x : LandingSt) (a_ : Nat) : regGet (setLand s l x) a_ = regGet s a_ := rfl

@[simp] theorem deckOf_setBerth (s : State) (b : Nat) (x : Berth) (i0 : Nat) : deckOf (setBerth s b x) i0 = deckOf s i0 := rfl
@[simp] theorem quayOf_setBerth (s : State) (b : Nat) (x : Berth) (i0 : Nat) : quayOf (setBerth s b x) i0 = quayOf s i0 := rfl
@[simp] theorem ctxOf_setBerth (s : State) (b : Nat) (x : Berth) (i0 i1 : Nat) : ctxOf (setBerth s b x) i0 i1 = ctxOf s i0 i1 := rfl
@[simp] theorem portOf_setBerth (s : State) (b : Nat) (x : Berth) (i0 : Nat) : portOf (setBerth s b x) i0 = portOf s i0 := rfl
@[simp] theorem linkOf_setBerth (s : State) (b : Nat) (x : Berth) (i0 i1 : Nat) : linkOf (setBerth s b x) i0 i1 = linkOf s i0 i1 := rfl
@[simp] theorem connOf_setBerth (s : State) (b : Nat) (x : Berth) (i0 : Nat) : connOf (setBerth s b x) i0 = connOf s i0 := rfl
@[simp] theorem landOf_setBerth (s : State) (b : Nat) (x : Berth) (i0 : Nat) : landOf (setBerth s b x) i0 = landOf s i0 := rfl
@[simp] theorem stackOf_setBerth (s : State) (b : Nat) (x : Berth) (i0 : Nat) : stackOf (setBerth s b x) i0 = stackOf s i0 := rfl
@[simp] theorem runOf_setBerth (s : State) (b : Nat) (x : Berth) (i0 : Nat) : runOf (setBerth s b x) i0 = runOf s i0 := rfl
@[simp] theorem regGet_setBerth (s : State) (b : Nat) (x : Berth) (a_ : Nat) : regGet (setBerth s b x) a_ = regGet s a_ := rfl

@[simp] theorem deckOf_setStack (s : State) (k : Nat) (x : Stack) (i0 : Nat) : deckOf (setStack s k x) i0 = deckOf s i0 := rfl
@[simp] theorem quayOf_setStack (s : State) (k : Nat) (x : Stack) (i0 : Nat) : quayOf (setStack s k x) i0 = quayOf s i0 := rfl
@[simp] theorem ctxOf_setStack (s : State) (k : Nat) (x : Stack) (i0 i1 : Nat) : ctxOf (setStack s k x) i0 i1 = ctxOf s i0 i1 := rfl
@[simp] theorem portOf_setStack (s : State) (k : Nat) (x : Stack) (i0 : Nat) : portOf (setStack s k x) i0 = portOf s i0 := rfl
@[simp] theorem linkOf_setStack (s : State) (k : Nat) (x : Stack) (i0 i1 : Nat) : linkOf (setStack s k x) i0 i1 = linkOf s i0 i1 := rfl
@[simp] theorem connOf_setStack (s : State) (k : Nat) (x : Stack) (i0 : Nat) : connOf (setStack s k x) i0 = connOf s i0 := rfl
@[simp] theorem landOf_setStack (s : State) (k : Nat) (x : Stack) (i0 : Nat) : landOf (setStack s k x) i0 = landOf s i0 := rfl
@[simp] theorem berthOf_setStack (s : State) (k : Nat) (x : Stack) (i0 : Nat) : berthOf (setStack s k x) i0 = berthOf s i0 := rfl
@[simp] theorem runOf_setStack (s : State) (k : Nat) (x : Stack) (i0 : Nat) : runOf (setStack s k x) i0 = runOf s i0 := rfl
@[simp] theorem regGet_setStack (s : State) (k : Nat) (x : Stack) (a_ : Nat) : regGet (setStack s k x) a_ = regGet s a_ := rfl

@[simp] theorem deckOf_setRun (s : State) (r : Run) (i0 : Nat) : deckOf (setRun s r) i0 = deckOf s i0 := rfl
@[simp] theorem quayOf_setRun (s : State) (r : Run) (i0 : Nat) : quayOf (setRun s r) i0 = quayOf s i0 := rfl
@[simp] theorem ctxOf_setRun (s : State) (r : Run) (i0 i1 : Nat) : ctxOf (setRun s r) i0 i1 = ctxOf s i0 i1 := rfl
@[simp] theorem portOf_setRun (s : State) (r : Run) (i0 : Nat) : portOf (setRun s r) i0 = portOf s i0 := rfl
@[simp] theorem linkOf_setRun (s : State) (r : Run) (i0 i1 : Nat) : linkOf (setRun s r) i0 i1 = linkOf s i0 i1 := rfl
@[simp] theorem connOf_setRun (s : State) (r : Run) (i0 : Nat) : connOf (setRun s r) i0 = connOf s i0 := rfl
@[simp] theorem landOf_setRun (s : State) (r : Run) (i0 : Nat) : landOf (setRun s r) i0 = landOf s i0 := rfl
@[simp] theorem berthOf_setRun (s : State) (r : Run) (i0 : Nat) : berthOf (setRun s r) i0 = berthOf s i0 := rfl
@[simp] theorem stackOf_setRun (s : State) (r : Run) (i0 : Nat) : stackOf (setRun s r) i0 = stackOf s i0 := rfl
@[simp] theorem regGet_setRun (s : State) (r : Run) (a_ : Nat) : regGet (setRun s r) a_ = regGet s a_ := rfl

@[simp] theorem deckOf_regSet (s : State) (a : Nat) (w : Word) (i0 : Nat) : deckOf (regSet s a w) i0 = deckOf s i0 := rfl
@[simp] theorem quayOf_regSet (s : State) (a : Nat) (w : Word) (i0 : Nat) : quayOf (regSet s a w) i0 = quayOf s i0 := rfl
@[simp] theorem ctxOf_regSet (s : State) (a : Nat) (w : Word) (i0 i1 : Nat) : ctxOf (regSet s a w) i0 i1 = ctxOf s i0 i1 := rfl
@[simp] theorem portOf_regSet (s : State) (a : Nat) (w : Word) (i0 : Nat) : portOf (regSet s a w) i0 = portOf s i0 := rfl
@[simp] theorem linkOf_regSet (s : State) (a : Nat) (w : Word) (i0 i1 : Nat) : linkOf (regSet s a w) i0 i1 = linkOf s i0 i1 := rfl
@[simp] theorem connOf_regSet (s : State) (a : Nat) (w : Word) (i0 : Nat) : connOf (regSet s a w) i0 = connOf s i0 := rfl
@[simp] theorem landOf_regSet (s : State) (a : Nat) (w : Word) (i0 : Nat) : landOf (regSet s a w) i0 = landOf s i0 := rfl
@[simp] theorem berthOf_regSet (s : State) (a : Nat) (w : Word) (i0 : Nat) : berthOf (regSet s a w) i0 = berthOf s i0 := rfl
@[simp] theorem stackOf_regSet (s : State) (a : Nat) (w : Word) (i0 : Nat) : stackOf (regSet s a w) i0 = stackOf s i0 := rfl
@[simp] theorem runOf_regSet (s : State) (a : Nat) (w : Word) (i0 : Nat) : runOf (regSet s a w) i0 = runOf s i0 := rfl

@[simp] theorem deckOf_send (s : State) (o : Out) (i0 : Nat) : deckOf (send s o) i0 = deckOf s i0 := rfl
@[simp] theorem quayOf_send (s : State) (o : Out) (i0 : Nat) : quayOf (send s o) i0 = quayOf s i0 := rfl
@[simp] theorem ctxOf_send (s : State) (o : Out) (i0 i1 : Nat) : ctxOf (send s o) i0 i1 = ctxOf s i0 i1 := rfl
@[simp] theorem portOf_send (s : State) (o : Out) (i0 : Nat) : portOf (send s o) i0 = portOf s i0 := rfl
@[simp] theorem linkOf_send (s : State) (o : Out) (i0 i1 : Nat) : linkOf (send s o) i0 i1 = linkOf s i0 i1 := rfl
@[simp] theorem connOf_send (s : State) (o : Out) (i0 : Nat) : connOf (send s o) i0 = connOf s i0 := rfl
@[simp] theorem landOf_send (s : State) (o : Out) (i0 : Nat) : landOf (send s o) i0 = landOf s i0 := rfl
@[simp] theorem berthOf_send (s : State) (o : Out) (i0 : Nat) : berthOf (send s o) i0 = berthOf s i0 := rfl
@[simp] theorem stackOf_send (s : State) (o : Out) (i0 : Nat) : stackOf (send s o) i0 = stackOf s i0 := rfl
@[simp] theorem runOf_send (s : State) (o : Out) (i0 : Nat) : runOf (send s o) i0 = runOf s i0 := rfl
@[simp] theorem regGet_send (s : State) (o : Out) (a_ : Nat) : regGet (send s o) a_ = regGet s a_ := rfl

/-! ### setPieces -/

@[simp] theorem setPieces_pending (s : State) (l : List Piece) : (setPieces s l).pending = s.pending := rfl
@[simp] theorem setPieces_fitted (s : State) (l : List Piece) : (setPieces s l).fitted = s.fitted := rfl
@[simp] theorem setPieces_rw (s : State) (l : List Piece) : (setPieces s l).rw = s.rw := rfl
@[simp] theorem setPieces_time (s : State) (l : List Piece) : (setPieces s l).time = s.time := rfl
@[simp] theorem setPieces_ports (s : State) (l : List Piece) : (setPieces s l).ports = s.ports := rfl
@[simp] theorem setPieces_conns (s : State) (l : List Piece) : (setPieces s l).conns = s.conns := rfl
@[simp] theorem setPieces_ringAddr (s : State) (l : List Piece) : (setPieces s l).ringAddr = s.ringAddr := rfl
@[simp] theorem setPieces_ringLog2 (s : State) (l : List Piece) : (setPieces s l).ringLog2 = s.ringLog2 := rfl
@[simp] theorem setPieces_landings (s : State) (l : List Piece) : (setPieces s l).landings = s.landings := rfl
@[simp] theorem setPieces_berths (s : State) (l : List Piece) : (setPieces s l).berths = s.berths := rfl
@[simp] theorem setPieces_windows (s : State) (l : List Piece) : (setPieces s l).windows = s.windows := rfl
@[simp] theorem setPieces_trkAlloc (s : State) (l : List Piece) : (setPieces s l).trkAlloc = s.trkAlloc := rfl
@[simp] theorem setPieces_trkErr (s : State) (l : List Piece) : (setPieces s l).trkErr = s.trkErr := rfl
@[simp] theorem setPieces_trk (s : State) (l : List Piece) : (setPieces s l).trk = s.trk := rfl
@[simp] theorem setPieces_arbRank (s : State) (l : List Piece) : (setPieces s l).arbRank = s.arbRank := rfl
@[simp] theorem setPieces_stk (s : State) (l : List Piece) : (setPieces s l).stk = s.stk := rfl
@[simp] theorem setPieces_hbm (s : State) (l : List Piece) : (setPieces s l).hbm = s.hbm := rfl
@[simp] theorem setPieces_poison (s : State) (l : List Piece) : (setPieces s l).poison = s.poison := rfl
@[simp] theorem setPieces_quays (s : State) (l : List Piece) : (setPieces s l).quays = s.quays := rfl
@[simp] theorem setPieces_qflags (s : State) (l : List Piece) : (setPieces s l).qflags = s.qflags := rfl
@[simp] theorem setPieces_cflags (s : State) (l : List Piece) : (setPieces s l).cflags = s.cflags := rfl
@[simp] theorem setPieces_waits (s : State) (l : List Piece) : (setPieces s l).waits = s.waits := rfl
@[simp] theorem setPieces_halves (s : State) (l : List Piece) : (setPieces s l).halves = s.halves := rfl
@[simp] theorem setPieces_cmdMem (s : State) (l : List Piece) : (setPieces s l).cmdMem = s.cmdMem := rfl
@[simp] theorem setPieces_decks (s : State) (l : List Piece) : (setPieces s l).decks = s.decks := rfl
@[simp] theorem setPieces_gangs (s : State) (l : List Piece) : (setPieces s l).gangs = s.gangs := rfl
@[simp] theorem setPieces_runs (s : State) (l : List Piece) : (setPieces s l).runs = s.runs := rfl
@[simp] theorem setPieces_fc (s : State) (l : List Piece) : (setPieces s l).fc = s.fc := rfl
@[simp] theorem setPieces_occ (s : State) (l : List Piece) : (setPieces s l).occ = s.occ := rfl
@[simp] theorem setPieces_ends (s : State) (l : List Piece) : (setPieces s l).ends = s.ends := rfl
@[simp] theorem setPieces_ferry (s : State) (l : List Piece) : (setPieces s l).ferry = s.ferry := rfl
@[simp] theorem setPieces_boot (s : State) (l : List Piece) : (setPieces s l).boot = s.boot := rfl
@[simp] theorem setPieces_flash (s : State) (l : List Piece) : (setPieces s l).flash = s.flash := rfl
@[simp] theorem setPieces_sec (s : State) (l : List Piece) : (setPieces s l).sec = s.sec := rfl
@[simp] theorem setPieces_man (s : State) (l : List Piece) : (setPieces s l).man = s.man := rfl
@[simp] theorem setPieces_load (s : State) (l : List Piece) : (setPieces s l).load = s.load := rfl
@[simp] theorem setPieces_diag (s : State) (l : List Piece) : (setPieces s l).diag = s.diag := rfl
@[simp] theorem setPieces_pw (s : State) (l : List Piece) : (setPieces s l).pw = s.pw := rfl
@[simp] theorem setPieces_smb (s : State) (l : List Piece) : (setPieces s l).smb = s.smb := rfl
@[simp] theorem setPieces_out (s : State) (l : List Piece) : (setPieces s l).out = s.out := rfl
@[simp] theorem setPieces_free (s : State) (l : List Piece) : (setPieces s l).free = s.free := rfl
@[simp] theorem setPieces_nextId (s : State) (l : List Piece) : (setPieces s l).nextId = s.nextId := rfl
@[simp] theorem setPieces_pieces (s : State) (l : List Piece) : (setPieces s l).fabric.pieces = l := rfl
@[simp] theorem setPieces_channels (s : State) (l : List Piece) : (setPieces s l).fabric.channels = s.fabric.channels := rfl
@[simp] theorem setPieces_banks (s : State) (l : List Piece) : (setPieces s l).fabric.banks = s.fabric.banks := rfl

end Sys2Proof.Laws
end

