-- ==== Sys2Proof/Laws/Flags.lean ====
section
/-! SUPPORT. What the operations on flags, waits, contexts and queue heads can do. -/

namespace Sys2Proof.Laws

open Sys2Proof Sys2Proof.Machine Sys2Proof.Safety

/-! ### Tables and the states that differ in little -/

/-- Reading the context just replaced. -/
theorem ctxOf_setCtx_self (s : State) (q c : Nat) (x : Ctx) : ctxOf (setCtx s q c x) q c = x := by
  rw [ctxOf_setCtx, if_pos ⟨rfl, rfl⟩]

/-- Reading another context than the one replaced. -/
theorem ctxOf_setCtx_ne (s : State) (q c : Nat) (x : Ctx) (q' c' : Nat) (h : (q', c') ≠ (q, c)) :
    ctxOf (setCtx s q c x) q' c' = ctxOf s q' c' := by
  rw [ctxOf_setCtx, if_neg]
  rintro ⟨rfl, rfl⟩
  exact h rfl

/-- Nothing has changed. -/
theorem OnlyFlags.refl (s : State) : OnlyFlags s s := rfl

/-- Two changes of that kind are one. -/
theorem OnlyFlags.trans {s t u : State} (h : OnlyFlags s t) (k : OnlyFlags t u) : OnlyFlags s u := by
  unfold OnlyFlags at *
  calc u = _ := k
    _ = _ := by rw [h]

/-- A context is as it was. -/
theorem CtxKept.refl (x : Ctx) : CtxKept x x := ⟨rfl, rfl⟩

/-- Two such changes are one. -/
theorem CtxKept.trans {x y z : Ctx} (h : CtxKept x y) (k : CtxKept y z) : CtxKept x z := by
  refine ⟨?_, k.2.trans h.2⟩
  have h1 := h.1
  calc z = _ := k.1
    _ = _ := by rw [h1]

/-- All contexts are kept in this sense. -/
def CtxsKept (s t : State) : Prop := ∀ q c, CtxKept (ctxOf s q c) (ctxOf t q c)

/-- All contexts are as they were. -/
theorem CtxsKept.refl (s : State) : CtxsKept s s := fun _ _ => CtxKept.refl _

/-- Two such changes are one. -/
theorem CtxsKept.trans {s t u : State} (h : CtxsKept s t) (k : CtxsKept t u) : CtxsKept s u := fun q c => CtxKept.trans (h q c) (k q c)

/-- Contexts are read from the quays alone. -/
theorem CtxsKept.of_quays {s t : State} (h : t.quays = s.quays) : CtxsKept s t := by
  intro q c
  unfold ctxOf quayOf
  rw [h]
  exact CtxKept.refl _

/-- One context is replaced by one that keeps it. -/
theorem CtxsKept.setCtx {s : State} {q c : Nat} {x : Ctx} (h : CtxKept (ctxOf s q c) x) : CtxsKept s (setCtx s q c x) := by
  intro q' c'
  rw [ctxOf_setCtx]
  split
  · rename_i e
    obtain ⟨rfl, rfl⟩ := e
    exact h
  · exact CtxKept.refl _

/-! ### Flags -/

/-- Setting a flag leaves every flag that is another register. -/
theorem flagVal_flagPut_ne (s : State) (k j : FlagKey) (v : Nat) (h : Apart k j) : flagVal (flagPut s k v) j = flagVal s j := by
  cases k <;> cases j <;> simp only [flagPut, flagVal, Apart] at h ⊢
  · rw [tget_tput_ne _ _ _ _ _ h]
  · rw [tget_tput_ne _ _ _ _ _ h]

/-- A flag that was set reads its value in 16 bits. -/
theorem flagVal_flagPut (s : State) (k : FlagKey) (v : Nat) : flagVal (flagPut s k v) k = v % 65536 := by
  cases k <;> simp [flagPut, flagVal, tget_tput_same]

/-- A flag holds 16 bits. -/
theorem flagVal_lt (s : State) (k : FlagKey) : flagVal s k < 65536 := by
  cases k <;> simp only [flagVal] <;> exact BitVec.isLt _

/-- Setting a flag changes nothing else. -/
theorem flagPut_only (s : State) (k : FlagKey) (v : Nat) : OnlyFlags s (flagPut s k v) := by cases k <;> rfl

/-- Setting a flag leaves the contexts. -/
theorem flagPut_quays (s : State) (k : FlagKey) (v : Nat) : (flagPut s k v).quays = s.quays := by cases k <;> rfl

/-- Setting a flag leaves the waits. -/
theorem flagPut_waits (s : State) (k : FlagKey) (v : Nat) : (flagPut s k v).waits = s.waits := by cases k <;> rfl

/-! ### Waits -/

/-- The end of a wait changes contexts alone. -/
theorem waitSucceeds_only (s : State) (q c : Nat) (h : Bool) : OnlyFlags s (waitSucceeds s q c h) := by
  unfold waitSucceeds
  dsimp only
  split <;> split <;> rfl

/-- The end of a wait leaves flags. -/
theorem waitSucceeds_flags (s : State) (q c : Nat) (h : Bool) (k : FlagKey) : flagVal (waitSucceeds s q c h) k = flagVal s k := by
  unfold waitSucceeds
  cases k <;> dsimp only <;> split <;> split <;> rfl

/-- The end of a wait leaves the list of waits. -/
theorem waitSucceeds_waits (s : State) (q c : Nat) (h : Bool) : (waitSucceeds s q c h).waits = s.waits := by
  unfold waitSucceeds
  dsimp only
  split <;> split <;> rfl

/-- A command whose wait has succeeded keeps its words. -/
@[simp] theorem waitedCmd_word (s : State) (q c : Nat) (m : QCmd) : (waitedCmd s q c m).word = m.word := by
  unfold waitedCmd
  dsimp only
  split <;> rfl

/-- The end of a wait keeps contexts. -/
theorem waitSucceeds_ctxs (s : State) (q c : Nat) (h : Bool) : CtxsKept s (waitSucceeds s q c h) := by
  unfold waitSucceeds
  dsimp only
  split
  · split
    · rename_i m r e
      refine CtxsKept.setCtx ⟨rfl, ?_⟩
      simp [e]
    · exact CtxsKept.refl s
  · split
    · exact CtxsKept.setCtx ⟨rfl, rfl⟩
    · exact CtxsKept.refl s

/-- The end of a wait leaves a context that holds nothing holding nothing. -/
theorem waitSucceeds_held (s : State) (q c : Nat) (h : Bool) (q' c' : Nat) (e : (ctxOf s q' c').held = none) :
    (ctxOf (waitSucceeds s q c h) q' c').held = none := by
  unfold waitSucceeds
  dsimp only
  split
  · split
    · rw [ctxOf_setCtx]
      split
      · rename_i e'
        obtain ⟨rfl, rfl⟩ := e'
        exact e
      · exact e
    · exact e
  · split
    · rename_i m e1
      rw [ctxOf_setCtx]
      split
      · rename_i e'
        obtain ⟨rfl, rfl⟩ := e'
        rw [e] at e1
        exact absurd e1 (by simp)
      · exact e
    · exact e

/-- What testing waits can do: it changes contexts, flags and waits alone, keeps contexts, and leaves no command held where none was. -/
structure Tested (s t : State) : Prop where
  only : OnlyFlags s t
  ctxs : CtxsKept s t
  held : ∀ q c, (ctxOf s q c).held = none → (ctxOf t q c).held = none
  occ : t.occ = s.occ
  ends : t.ends = s.ends

/-- Nothing done. -/
theorem Tested.refl (s : State) : Tested s s := ⟨rfl, CtxsKept.refl s, fun _ _ h => h, rfl, rfl⟩

/-- One after the other. -/
theorem Tested.trans {s t u : State} (h : Tested s t) (k : Tested t u) : Tested s u :=
  ⟨OnlyFlags.trans h.only k.only, CtxsKept.trans h.ctxs k.ctxs, fun q c e => k.held q c (h.held q c e), k.occ.trans h.occ, k.ends.trans h.ends⟩

/-- Setting a flag. -/
theorem tested_flagPut (s : State) (k : FlagKey) (v : Nat) : Tested s (flagPut s k v) :=
  ⟨flagPut_only s k v, CtxsKept.of_quays (flagPut_quays s k v), fun q c e => by
    have : ctxOf (flagPut s k v) q c = ctxOf s q c := by unfold ctxOf quayOf; rw [flagPut_quays]
    rw [this]; exact e, by cases k <;> rfl, by cases k <;> rfl⟩

/-- A wait that ends. -/
theorem tested_waitSucceeds (s : State) (q c : Nat) (h : Bool) : Tested s (waitSucceeds s q c h) :=
  ⟨waitSucceeds_only s q c h, waitSucceeds_ctxs s q c h, fun q' c' e => waitSucceeds_held s q c h q' c' e,
    by unfold waitSucceeds; dsimp only; split <;> split <;> rfl, by unfold waitSucceeds; dsimp only; split <;> split <;> rfl⟩

/-- Testing a list of waits. -/
theorem tested_testList (k : FlagKey) (l : List Wait) : ∀ s : State, Tested s (testList s k l).1 := by
  induction l with
  | nil => exact fun s => Tested.refl s
  | cons w l ih =>
    intro s
    simp only [testList]
    split
    · exact ((tested_flagPut s k _).trans (tested_waitSucceeds _ _ _ _)).trans (ih _)
    · exact ih s

/-- Testing the waits on a flag. -/
theorem tested_testWaits (s : State) (k : FlagKey) : Tested s (testWaits s k) := by
  have h := tested_testList k s.waits s
  refine ⟨OnlyFlags.trans h.only rfl, CtxsKept.trans h.ctxs (CtxsKept.of_quays rfl), fun q c e => h.held q c e, h.occ, h.ends⟩

/-- Waits on another flag take nothing from a flag. -/
theorem testList_flag_ne (k j : FlagKey) (hj : Apart k j) (l : List Wait) : ∀ s : State, flagVal (testList s k l).1 j = flagVal s j := by
  induction l with
  | nil => exact fun s => rfl
  | cons w l ih =>
    intro s
    simp only [testList]
    split
    · rw [ih, waitSucceeds_flags, flagVal_flagPut_ne _ _ _ _ hj]
    · exact ih s

/-- Waits on another flag take nothing from a flag. -/
theorem testWaits_flag_ne (s : State) (k j : FlagKey) (h : Apart k j) : flagVal (testWaits s k) j = flagVal s j := by
  have := testList_flag_ne k j h s.waits s
  cases j <;> exact this

/-- Testing waits where nobody waits for the flag leaves every flag, every context and the waits. -/
theorem testList_unwaited (k : FlagKey) (l : List Wait) (h : ∀ w ∈ l, w.flag ≠ k) : ∀ s : State, testList s k l = (s, l) := by
  induction l with
  | nil => exact fun s => rfl
  | cons w l ih =>
    intro s
    simp only [testList]
    rw [if_neg (fun e => h w (List.mem_cons_self ..) e.1), ih (fun v hv => h v (List.mem_cons_of_mem _ hv))]

/-- Testing waits where nobody waits for the flag does nothing. -/
theorem testWaits_unwaited (s : State) (k : FlagKey) (h : Unwaited s k) : testWaits s k = s := by
  unfold testWaits
  rw [testList_unwaited k s.waits h s]

/-- Waits left over are waits that were there, and the flag has not risen. -/
theorem testList_left (k : FlagKey) (l : List Wait) : ∀ s : State,
    (∀ w ∈ (testList s k l).2, w ∈ l) ∧ flagVal (testList s k l).1 k ≤ flagVal s k ∧
    (∀ w ∈ (testList s k l).2, w.flag = k → flagVal (testList s k l).1 k < w.val) := by
  induction l with
  | nil => exact fun s => ⟨fun _ h => h, Nat.le_refl _, fun _ h => absurd h (by simp [testList])⟩
  | cons w l ih =>
    intro s
    simp only [testList]
    split
    · obtain ⟨h1, h2, h3⟩ := ih (waitSucceeds (flagPut s k (flagVal s k - w.val)) w.q w.c w.atHead)
      refine ⟨fun v hv => List.mem_cons_of_mem _ (h1 v hv), Nat.le_trans h2 ?_, h3⟩
      rw [waitSucceeds_flags, flagVal_flagPut]
      exact Nat.le_trans (Nat.mod_le _ _) (Nat.sub_le _ _)
    · rename_i hw
      obtain ⟨h1, h2, h3⟩ := ih s
      refine ⟨?_, h2, ?_⟩
      · intro v hv
        rcases List.mem_cons.mp hv with rfl | hv
        · exact List.mem_cons_self ..
        · exact List.mem_cons_of_mem _ (h1 v hv)
      · intro v hv hk
        rcases List.mem_cons.mp hv with rfl | hv
        · have : ¬ v.val ≤ flagVal s k := fun e => hw ⟨hk, e⟩
          exact Nat.lt_of_le_of_lt h2 (Nat.lt_of_not_le this)
        · exact h3 v hv hk

/-- Raising an occurrence changes no more than the lists of occurrences and of ends. -/
theorem raise_only (s : State) (level unit code : Nat) (berth : Option Nat) (task : Option Word) (detail : Nat) :
    raise s level unit code berth task detail =
      { s with occ := (raise s level unit code berth task detail).occ, ends := (raise s level unit code berth task detail).ends } := by
  unfold raise
  dsimp only
  split
  · split <;> rfl
  · rfl

/-- Raising an occurrence of a berth changes no more than the lists of occurrences and of ends. -/
theorem raiseBerth_only (s : State) (level unit code b detail : Nat) :
    raiseBerth s level unit code b detail =
      { s with occ := (raiseBerth s level unit code b detail).occ, ends := (raiseBerth s level unit code b detail).ends } :=
  raise_only ..

/-- An SFLAG rises, or a flag is added to: contexts, flags and waits alone change, and occurrences may be raised. -/
structure Added (s t : State) : Prop where
  only : OnlyFlags s t
  ctxs : CtxsKept s t
  held : ∀ q c, (ctxOf s q c).held = none → (ctxOf t q c).held = none

/-- The sum before the waits are tested. -/
theorem flagAdd_eq (s : State) (q c b field n : Nat) (k : FlagKey) (hk : flagKey s b q field = some k) :
    ∃ r, OnlyFlags s r ∧ r.quays = s.quays ∧ r.waits = s.waits ∧ (∀ j, flagVal r j = flagVal s j) ∧
      flagAdd s q c b field n = testWaits (flagPut r k (min (flagVal s k + n) 65535)) k := by
  unfold flagAdd
  rw [hk]
  dsimp only
  split
  · have e := raiseBerth_only s 2 q 0x23 b (c + field * 65536)
    refine ⟨raiseBerth s 2 q 0x23 b (c + field * 65536), ?_, ?_, ?_, ?_, rfl⟩
    · rw [e]; rfl
    · rw [e]
    · rw [e]
    · intro j; rw [e]; cases j <;> rfl
  · exact ⟨s, rfl, rfl, rfl, fun _ => rfl, rfl⟩

/-- Adding to a flag. -/
theorem added_flagAdd (s : State) (q c b field n : Nat) : Added s (flagAdd s q c b field n) := by
  cases hk : flagKey s b q field with
  | none =>
    have : flagAdd s q c b field n = s := by unfold flagAdd; rw [hk]
    rw [this]
    exact ⟨rfl, CtxsKept.refl s, fun _ _ h => h⟩
  | some k =>
    obtain ⟨r, h1, h2, h3, h4, h5⟩ := flagAdd_eq s q c b field n k hk
    rw [h5]
    have t := (tested_flagPut r k (min (flagVal s k + n) 65535)).trans (tested_testWaits _ k)
    have e (q c : Nat) : ctxOf r q c = ctxOf s q c := by unfold ctxOf quayOf; rw [h2]
    exact ⟨OnlyFlags.trans h1 t.only, CtxsKept.trans (CtxsKept.of_quays h2) t.ctxs, fun q c h => t.held q c (by rw [e]; exact h)⟩

/-- The value of a flag that was added to and that nobody waits for. -/
theorem flagAdd_val (s : State) (q c b field n : Nat) (k : FlagKey) (hk : flagKey s b q field = some k) (hu : Unwaited s k) :
    flagVal (flagAdd s q c b field n) k = min (flagVal s k + n) 65535 := by
  obtain ⟨r, h1, h2, h3, h4, h5⟩ := flagAdd_eq s q c b field n k hk
  rw [h5, testWaits_unwaited, flagVal_flagPut]
  · omega
  · intro w hw
    rw [flagPut_waits, h3] at hw
    exact hu w hw

/-- Every other flag. -/
theorem flagAdd_ne (s : State) (q c b field n : Nat) (k j : FlagKey) (hk : flagKey s b q field = some k) (hj : Apart k j) :
    flagVal (flagAdd s q c b field n) j = flagVal s j := by
  obtain ⟨r, h1, h2, h3, h4, h5⟩ := flagAdd_eq s q c b field n k hk
  rw [h5, testWaits_flag_ne _ _ _ hj, flagVal_flagPut_ne _ _ _ _ hj, h4]

/-- A field that names no flag adds nothing. -/
theorem flagAdd_none (s : State) (q c b field n : Nat) (hk : flagKey s b q field = none) : flagAdd s q c b field n = s := by
  unfold flagAdd; rw [hk]

/-- The SFLAG of a command rises (R263). -/
theorem sflagDone (s : State) (q c b : Nat) (w : BitVec 256) : SflagDone s (sflagUp s q c b w) b q w := by
  refine ⟨fun k hk hu => flagAdd_val s q c b _ 1 k hk hu, fun j hj => ?_⟩
  cases hk : flagKey s b q (headOf w).sflag with
  | none => unfold sflagUp; rw [flagAdd_none _ _ _ _ _ _ hk]
  | some k => exact flagAdd_ne s q c b _ 1 k j hk (hj k hk).2

/-- What the SFLAG speaks of does not depend on contexts. -/
theorem SflagDone.of_flags {s s' t : State} {b q : Nat} {w : BitVec 256} (h : SflagDone s t b q w)
    (hk : ∀ f, flagKey s' b q f = flagKey s b q f) (hw : s'.waits = s.waits) (hv : ∀ j, flagVal s' j = flagVal s j) :
    SflagDone s' t b q w := by
  refine ⟨fun k e u => ?_, fun j e => ?_⟩
  · rw [hv]; exact h.1 k (by rw [← hk]; exact e) (by unfold Unwaited at *; rw [← hw]; exact u)
  · rw [hv]
    exact h.2 j (fun k e' => by
      have := e k (by rw [hk]; exact e')
      exact ⟨by unfold Unwaited at *; rw [← hw]; exact this.1, this.2⟩)

end Sys2Proof.Laws
end

