-- ==== Sys2Proof/Laws/Memory.lean ====
section
/-! SUPPORT. Memories: what a byte reads as after each operation, and that every operation keeps the canonical form. -/

namespace Sys2Proof.Laws

open Sys2Proof.Machine

/-! ### The order of the listed addresses -/

/-- The listed addresses rise strictly exactly where they are pairwise rising. -/
theorem rising_iff (l : List Nat) : rising l = true ↔ l.Pairwise (· < ·) := by
  induction l with
  | nil => simp [rising]
  | cons a r ih =>
    cases r with
    | nil => simp [rising]
    | cons b r' =>
      simp only [rising, Bool.and_eq_true, decide_eq_true_eq, ih, List.pairwise_cons]
      constructor
      · rintro ⟨hab, hb, hr⟩
        refine ⟨?_, hb, hr⟩
        intro x hx
        rcases List.mem_cons.mp hx with rfl | hx
        · exact hab
        · exact Nat.lt_trans hab (hb x hx)
      · rintro ⟨ha, hb, hr⟩
        exact ⟨ha b (by simp), hb, hr⟩

/-- An element of a written table is the written one or one of the table. -/
theorem mem_tput {α : Type} {t : Tbl α} {k : Nat} {v : α} {e : Nat × α} (h : e ∈ tput t k v) : e = (k, v) ∨ (e ∈ t ∧ e.1 ≠ k) ∨ e ∈ t := by
  induction t with
  | nil => simp [tput] at h; exact .inl h
  | cons f r ih =>
    obtain ⟨j, w⟩ := f
    simp only [tput] at h
    split at h
    · rcases List.mem_cons.mp h with h | h
      · exact .inl h
      · exact .inr (.inr h)
    · split at h
      · rcases List.mem_cons.mp h with h | h
        · exact .inl h
        · exact .inr (.inr (List.mem_cons_of_mem _ h))
      · rcases List.mem_cons.mp h with h | h
        · exact .inr (.inr (by rw [h]; exact List.mem_cons_self ..))
        · rcases ih h with h | h | h
          · exact .inl h
          · exact .inr (.inr (List.mem_cons_of_mem _ h.1))
          · exact .inr (.inr (List.mem_cons_of_mem _ h))

/-- A written table keeps its numbers rising. -/
theorem tput_pairwise {α : Type} (t : Tbl α) (k : Nat) (v : α) (h : (t.map (·.1)).Pairwise (· < ·)) :
    ((tput t k v).map (·.1)).Pairwise (· < ·) := by
  induction t with
  | nil => simp [tput]
  | cons e r ih =>
    obtain ⟨j, w⟩ := e
    simp only [List.map_cons, List.pairwise_cons] at h
    simp only [tput]
    split
    · rename_i hk
      simp only [List.map_cons, List.pairwise_cons]
      refine ⟨?_, h⟩
      intro x hx
      rcases List.mem_cons.mp hx with rfl | hx
      · exact hk
      · exact Nat.lt_trans hk (h.1 x hx)
    · split
      · rename_i h1 h2
        subst h2
        simpa [List.pairwise_cons] using h
      · rename_i h1 h2
        simp only [List.map_cons, List.pairwise_cons]
        refine ⟨?_, ih h.2⟩
        intro x hx
        obtain ⟨e, he, rfl⟩ := List.mem_map.mp hx
        rcases mem_tput he with rfl | he | he
        · show j < k
          omega
        · exact h.1 _ (List.mem_map_of_mem he.1)
        · exact h.1 _ (List.mem_map_of_mem he)

/-- A filtered list of cells keeps its order. -/
theorem filter_pairwise {α : Type} (t : Tbl α) (p : Nat × α → Bool) (h : (t.map (·.1)).Pairwise (· < ·)) :
    ((t.filter p).map (·.1)).Pairwise (· < ·) := by
  rw [List.pairwise_map] at *
  exact h.filter p

/-! ### The canonical form -/

/-- The canonical form, as a statement about the listed cells. -/
theorem wf_iff (m : Mem) :
    m.wf = true ↔ (m.cells.map (·.1)).Pairwise (· < ·) ∧ ∀ c ∈ m.cells, c.2 ≠ m.unlisted c.1 := by
  simp [Mem.wf, rising_iff, List.all_eq_true]

/-- A memory that lists nothing is canonical. -/
theorem wf_empty (marks : List Mark) : Mem.wf { marks := marks, cells := [] } = true := by simp [wf_iff]

/-- Writing a byte keeps the canonical form. -/
theorem wf_write (m : Mem) (a : Nat) (v : Byte) (h : m.wf = true) : (m.write a v).wf = true := by
  rw [wf_iff] at h ⊢
  unfold Mem.write
  split
  · exact ⟨filter_pairwise _ _ h.1, fun c hc => h.2 c ((List.mem_filter.mp hc).1)⟩
  · rename_i hv
    refine ⟨tput_pairwise _ _ _ h.1, ?_⟩
    intro c hc
    rcases mem_tput hc with rfl | hc | hc
    · exact hv
    · exact h.2 c hc.1
    · exact h.2 c hc

/-- Writing bytes keeps the canonical form. -/
theorem wf_writeBytes (m : Mem) (a : Nat) (l : List Byte) (h : m.wf = true) : (m.writeBytes a l).wf = true := by
  induction l generalizing m a with
  | nil => exact h
  | cons b r ih => exact ih _ _ (wf_write _ _ _ h)

/-- Cells outside a range read their default from the marks below one that covers that range alone. -/
theorem wf_cut (m : Mem) (lo hi : Nat) (k : Mark) (hk : k.lo = lo ∧ k.hi = hi) (h : m.wf = true) :
    Mem.wf { marks := k :: m.marks, cells := cellsOutside m.cells lo hi } = true := by
  rw [wf_iff] at h ⊢
  refine ⟨filter_pairwise _ _ h.1, ?_⟩
  intro c hc
  have hm : c ∈ m.cells := (List.mem_filter.mp hc).1
  have ho : c.1 < lo ∨ hi ≤ c.1 := by simpa [cellsOutside] using (List.mem_filter.mp hc).2
  have hn : ¬ (k.lo ≤ c.1 ∧ c.1 < k.hi) := by omega
  have := h.2 c hm
  simpa [Mem.unlisted, markByte, hn] using this

/-- Making bytes undefined keeps the canonical form. -/
theorem wf_undefine (m : Mem) (lo hi gen : Nat) (h : m.wf = true) : (m.undefine lo hi gen).wf = true :=
  wf_cut m lo hi ⟨lo, hi, some gen⟩ ⟨rfl, rfl⟩ h

/-- A mark that does not lie within a range. -/
def markKept (lo hi : Nat) (k : Mark) : Bool := !(decide (lo ≤ k.lo) && decide (k.hi ≤ hi))

/-- Marks that lie within a range do not tell what an address outside it reads as. -/
theorem markByte_filter (l : List Mark) (lo hi a : Nat) (ho : a < lo ∨ hi ≤ a) :
    markByte (l.filter (markKept lo hi)) a = markByte l a := by
  induction l with
  | nil => rfl
  | cons k r ih =>
    by_cases hk : markKept lo hi k = true
    · rw [List.filter_cons_of_pos hk]
      simp only [markByte, ih]
    · rw [List.filter_cons_of_neg hk]
      have hin : lo ≤ k.lo ∧ k.hi ≤ hi := by simpa [markKept] using hk
      have hn : ¬ (k.lo ≤ a ∧ a < k.hi) := by omega
      simp only [markByte, hn, if_false, ih]

/-- Making bytes zero keeps the canonical form. -/
theorem wf_zero (m : Mem) (lo hi : Nat) (h : m.wf = true) : (m.zero lo hi).wf = true := by
  have hw := (wf_iff m).mp h
  have ho (c : Host.Cell) (hc : c ∈ cellsOutside m.cells lo hi) : c ∈ m.cells ∧ (c.1 < lo ∨ hi ≤ c.1) :=
    ⟨(List.mem_filter.mp hc).1, by simpa [cellsOutside] using (List.mem_filter.mp hc).2⟩
  have hp : ((cellsOutside m.cells lo hi).map (·.1)).Pairwise (· < ·) := filter_pairwise _ _ hw.1
  have hd (c : Host.Cell) (hc : c ∈ cellsOutside m.cells lo hi) : c.2 ≠ markByte (m.marks.filter (markKept lo hi)) c.1 := by
    rw [markByte_filter _ _ _ _ (ho c hc).2]
    exact hw.2 c (ho c hc).1
  unfold Mem.zero
  dsimp only
  split
  · exact (wf_iff _).mpr ⟨hp, hd⟩
  · refine (wf_iff _).mpr ⟨hp, fun c hc => ?_⟩
    have hn : ¬ (lo ≤ c.1 ∧ c.1 < hi) := by have := (ho c hc).2; omega
    show c.2 ≠ markByte (⟨lo, hi, none⟩ :: m.marks.filter (markKept lo hi)) c.1
    simp only [markByte, hn, if_false]
    exact hd c hc

/-! ### Reading back -/

/-- A table without an entry reads its default there. -/
theorem tget_tdel_same {α : Type} (d : α) (t : Tbl α) (k : Nat) : tget d (tdel t k) k = d := by
  induction t with
  | nil => rfl
  | cons e r ih =>
    obtain ⟨j, w⟩ := e
    by_cases h : j = k
    · subst h
      have : tdel ((j, w) :: r) j = tdel r j := by simp [tdel]
      rw [this, ih]
    · have : tdel ((j, w) :: r) k = (j, w) :: tdel r k := by simp [tdel, h]
      rw [this]
      simp [tget, h, ih]

/-- A table without an entry reads as before elsewhere. -/
theorem tget_tdel_ne {α : Type} (d : α) (t : Tbl α) (k i : Nat) (h : k ≠ i) : tget d (tdel t k) i = tget d t i := by
  induction t with
  | nil => rfl
  | cons e r ih =>
    obtain ⟨j, w⟩ := e
    by_cases hj : j = k
    · subst hj
      have : tdel ((j, w) :: r) j = tdel r j := by simp [tdel]
      rw [this, ih]
      simp [tget, h]
    · have : tdel ((j, w) :: r) k = (j, w) :: tdel r k := by simp [tdel, hj]
      rw [this]
      simp [tget, ih]

/-- A written byte reads back, and every other byte reads as before. -/
theorem read_write (m : Mem) (a i : Nat) (v : Byte) : (m.write a v).read i = if a = i then v else m.read i := by
  unfold Mem.write
  by_cases h : v = m.unlisted a
  · rw [if_pos h]
    by_cases ha : a = i
    · subst ha
      rw [if_pos rfl]
      show tget (m.unlisted a) (tdel m.cells a) a = v
      rw [tget_tdel_same]
      exact h.symm
    · rw [if_neg ha]
      exact tget_tdel_ne _ _ _ _ ha
  · rw [if_neg h]
    exact tget_tput _ _ _ _ _

/-- Bytes written read back, and every byte outside them reads as before. -/
theorem read_writeBytes (m : Mem) (a i : Nat) (l : List Byte) :
    (m.writeBytes a l).read i = if a ≤ i ∧ i < a + l.length then l.getD (i - a) 0 else m.read i := by
  induction l generalizing m a with
  | nil => simp [Mem.writeBytes, Nat.not_lt.mpr]; try omega
  | cons b r ih =>
    simp only [Mem.writeBytes, ih, read_write, List.length_cons]
    by_cases h1 : a = i
    · subst h1
      have h2 : ¬ (a + 1 ≤ a ∧ a < a + 1 + r.length) := by omega
      have h3 : a ≤ a ∧ a < a + (r.length + 1) := by omega
      rw [if_neg h2, if_pos rfl, if_pos h3]
      simp
    · by_cases h2 : a + 1 ≤ i ∧ i < a + 1 + r.length
      · have h3 : a ≤ i ∧ i < a + (r.length + 1) := by omega
        rw [if_pos h2, if_pos h3]
        have : i - a = (i - (a + 1)) + 1 := by omega
        rw [this, List.getD_cons_succ]
      · have h3 : ¬ (a ≤ i ∧ i < a + (r.length + 1)) := by omega
        rw [if_neg h2, if_neg h3, if_neg h1]

/-- A write of no bytes changes nothing. -/
@[simp] theorem writeBytes_nil (m : Mem) (a : Nat) : m.writeBytes a [] = m := rfl

end Sys2Proof.Laws
end

