-- ==== Sys2Proof/Laws/Kept.lean ====
section
/-! SUPPORT. The relation between a state and what follows it that every operation but resets and JTAG access keeps: what every
command leaves, and the latches. It is a preorder, so that each operation's lemma is a chain of those it calls. -/

namespace Sys2Proof.Laws

set_option linter.all false

open Sys2Proof.Machine Sys2Proof.Safety

/-- Both parts together. -/
structure Kept (s t : State) : Prop where
  always : Always s t
  latched : Latched s t

/-- What every command leaves is transitive. -/
theorem Always.trans {s t u : State} (h : Always s t) (k : Always t u) : Always s u where
  pending := k.pending.trans h.pending
  fitted := k.fitted.trans h.fitted
  free := Nat.le_trans h.free k.free
  svn := Nat.le_trans h.svn k.svn
  mem := fun w => k.mem (h.mem w)
  names := fun w => k.names (h.names w)

/-- The latches are transitive. -/
theorem Latched.trans {s t u : State} (h : Latched s t) (k : Latched t u) : Latched s u where
  coord := fun w => by
    have e := h.coord w
    have : regBits t (mgBase + 0x20) 31 31 = 1 := by unfold regBits at *; rw [e]; exact w
    rw [k.coord this, e]
  ready := fun w => k.ready (h.ready w)
  harbour := fun w => k.harbour (h.harbour w)
  halt := fun w => k.halt (h.halt w)
  debug := fun w => k.debug (h.debug w)
  keys := fun w => k.keys (h.keys w)
  policy := fun w => by
    have e := h.policy w
    have : policyLocked t = true := by unfold policyLocked at *; rw [e.1]; exact w
    have e' := k.policy this
    exact ⟨e'.1.trans e.1, fun n hn => (e'.2 n hn).trans (e.2 n hn)⟩
  mono := k.mono.trans h.mono

/-- The relation is reflexive. -/
theorem Kept.refl (s : State) : Kept s s :=
  ⟨⟨rfl, rfl, Nat.le_refl _, Nat.le_refl _, id, id⟩, ⟨fun _ => rfl, id, id, id, id, id, fun _ => ⟨rfl, fun _ _ => rfl⟩, rfl⟩⟩

/-- The relation is transitive. -/
theorem Kept.trans {s t u : State} (h : Kept s t) (k : Kept t u) : Kept s u :=
  ⟨Always.trans h.always k.always, Latched.trans h.latched k.latched⟩

/-- The registers kept by address and what assembly fixes tell what a register reads as. -/
theorem regGet_same {s t : State} (hw : t.rw = s.rw) (hf : t.fitted = s.fitted) (a : Nat) : regGet t a = regGet s a := by
  unfold regGet rwReset
  rw [hw, hf]

/-- A change of other fields only. -/
theorem Kept.upd {r s t : State} (h : Kept r s) (hp : t.pending = s.pending) (hf : t.fitted = s.fitted) (hw : t.rw = s.rw)
    (hm : t.hbm = s.hbm) (hc : t.cmdMem = s.cmdMem) (hl : t.flash = s.flash) (hs : t.sec = s.sec) (hb : t.boot = s.boot)
    (hh : t.fc.halt = s.fc.halt) (ht : t.time.mono = s.time.mono) (hn : s.free ≤ t.free)
    (hr : t.runs = s.runs := by rfl) (hi : s.nextId ≤ t.nextId := by exact Nat.le_refl _) : Kept r t := by
  refine h.trans ⟨⟨hp, hf, hn, hl ▸ Nat.le_refl _, fun w => ?_, fun w => ?_⟩, ?_⟩
  · exact ⟨by rw [hm]; exact w.hbm, by rw [hc]; exact w.cmdMem, by rw [hl]; exact w.slot0, by rw [hl]; exact w.slot1⟩
  · intro x hx
    rw [hr] at hx
    exact Nat.lt_of_lt_of_le (w x hx) hi
  · refine ⟨fun _ => regGet_same hw hf _, ?_, ?_, ?_, ?_, ?_, fun _ => ⟨regGet_same hw hf _, fun n _ => regGet_same hw hf _⟩, ht⟩
    · rw [hb]; exact id
    · rw [hb]; exact id
    · rw [hh]; exact id
    · rw [hs]; exact id
    · rw [hs]; exact id

/-- A change of other fields only, for a state written out field by field. -/
theorem Kept.mk_ {r s : State}
    (pending_ : List Instr) (fitted_ : Fitted) (rw_ : Tbl Word) (time_ : TimeUnit) (ports_ : Tbl Port) (conns_ : Tbl Conn) (ringAddr_ : Nat) (ringLog2_ : Nat)
    (landings_ : Tbl LandingSt) (berths_ : Tbl Berth) (windows_ : Tbl Window) (trkAlloc_ : Tbl Nat) (trkErr_ : Bool) (trk_ : List Trk) (fabric_ : Fabric) (arbRank_ : Tbl Nat) (stk_ : Tbl Stack) (hbm_ : Mem)
    (poison_ : List Nat) (quays_ : Tbl Quay) (qflags_ : Tbl (BitVec 16)) (cflags_ : Tbl (BitVec 16)) (waits_ : List Wait) (halves_ : Tbl Half) (cmdMem_ : Mem) (decks_ : Tbl Deck) (gangs_ : Tbl Gang) (runs_ : List Run) (fc_ : Collector) (occ_ : List Occ) (ends_ : List EndEvt) (ferry_ : Ferry) (boot_ : Boot) (flash_ : Flash) (sec_ : Sec) (man_ : Manifest) (load_ : Option Load)
    (diag_ : Diag) (pw_ : Power) (smb_ : Smb) (out_ : List Out) (free_ : Nat) (nextId_ : Nat)
    (h : Kept r s) (hp : pending_ = s.pending) (hf : fitted_ = s.fitted) (hw : rw_ = s.rw) (hm : hbm_ = s.hbm)
    (hc : cmdMem_ = s.cmdMem) (hl : flash_ = s.flash) (hs : sec_ = s.sec) (hb : boot_ = s.boot) (hh : fc_.halt = s.fc.halt)
    (ht : time_.mono = s.time.mono) (hn : s.free ≤ free_)
    (hr : runs_ = s.runs) (hi : s.nextId ≤ nextId_) :
    Kept r (State.mk pending_ fitted_ rw_ time_ ports_ conns_ ringAddr_ ringLog2_ landings_ berths_ windows_ trkAlloc_ trkErr_ trk_ fabric_ arbRank_ stk_ hbm_ poison_ quays_ qflags_ cflags_ waits_ halves_ cmdMem_ decks_ gangs_ runs_ fc_ occ_ ends_ ferry_ boot_ flash_ sec_ man_ load_ diag_ pw_ smb_ out_ free_ nextId_) :=
  Kept.upd h hp hf hw hm hc hl hs hb hh ht hn hr hi

/-- Either way of a choice. -/
theorem Kept.ite {c : Prop} [Decidable c] {r s t : State} (hs : Kept r s) (ht : Kept r t) : Kept r (if c then s else t) := by
  split
  · exact hs
  · exact ht

/-- Either way of a choice of a state and something beside it. -/
theorem Kept.ite_fst {c : Prop} [Decidable c] {α : Type} {r : State} {p q : State × α} (hs : Kept r p.1) (ht : Kept r q.1) :
    Kept r (if c then p else q).1 := by
  split
  · exact hs
  · exact ht

/-- Either way of a choice of something and a state. -/
theorem Kept.ite_snd {c : Prop} [Decidable c] {α : Type} {r : State} {p q : α × State} (hs : Kept r p.2) (ht : Kept r q.2) :
    Kept r (if c then p else q).2 := by
  split
  · exact hs
  · exact ht

/-- Either way of a choice, with what was chosen. -/
theorem Kept.dite {c : Prop} [Decidable c] {r s t : State} (hs : c → Kept r s) (ht : ¬ c → Kept r t) :
    Kept r (if c then s else t) := by
  split
  · rename_i h
    exact hs h
  · rename_i h
    exact ht h

/-- A fold of operations that each keep the relation. -/
theorem Kept.foldl {α : Type} {r : State} (f : State → α → State) (hf : ∀ t a, Kept r t → Kept r (f t a)) :
    ∀ (l : List α) (s : State), Kept r s → Kept r (l.foldl f s)
  | [], _, h => h
  | a :: l, s, h => Kept.foldl f hf l (f s a) (hf s a h)

/-- A fold that carries something beside the state. -/
theorem Kept.foldl_fst {α β : Type} {r : State} (f : State × β → α → State × β) (hf : ∀ p a, Kept r p.1 → Kept r (f p a).1) :
    ∀ (l : List α) (p : State × β), Kept r p.1 → Kept r (l.foldl f p).1
  | [], _, h => h
  | a :: l, p, h => Kept.foldl_fst f hf l (f p a) (hf p a h)

/-- A fold that carries something before the state. -/
theorem Kept.foldl_snd {α β : Type} {r : State} (f : β × State → α → β × State) (hf : ∀ p a, Kept r p.2 → Kept r (f p a).2) :
    ∀ (l : List α) (p : β × State), Kept r p.2 → Kept r (l.foldl f p).2
  | [], _, h => h
  | a :: l, p, h => Kept.foldl_snd f hf l (f p a) (hf p a h)

/-- The registers that the latches speak of. -/
def latchReg (a : Nat) : Bool :=
  decide (a = mgBase + 0x20 ∨ a = scBase + 8 ∨ (scBase + 0x40 ≤ a ∧ a < scBase + 0x7C))

/-- A register that no latch speaks of is set. -/
theorem kept_regSet {r s : State} (a : Nat) (w : Word) (ha : latchReg a = false) (h : Kept r s) : Kept r (regSet s a w) := by
  have hne (b : Nat) (hb : latchReg b = true) : regGet (regSet s a w) b = regGet s b := by
    rw [regGet_regSet, if_neg]
    rintro rfl
    rw [ha] at hb
    exact Bool.noConfusion hb
  refine h.trans ⟨⟨rfl, rfl, Nat.le_refl _, Nat.le_refl _, fun w => ⟨w.hbm, w.cmdMem, w.slot0, w.slot1⟩, id⟩,
    ⟨fun _ => hne _ (by simp [latchReg]), id, id, id, id, id, fun _ => ⟨hne _ (by simp [latchReg]), fun n hn => hne _ ?_⟩, rfl⟩⟩
  simp only [latchReg, decide_eq_true_eq]
  omega

/-- HBM is replaced by a memory that is canonical where it was. -/
theorem Kept.hbm {r s t : State} (h : Kept r s) (m : Mem) (p : List Nat) (hm : s.hbm.wf = true → m.wf = true)
    (ht : t = { s with hbm := m, poison := p }) : Kept r t := by
  subst ht
  exact h.trans ⟨⟨rfl, rfl, Nat.le_refl _, Nat.le_refl _, fun w => ⟨hm w.hbm, w.cmdMem, w.slot0, w.slot1⟩, id⟩,
    ⟨fun _ => rfl, id, id, id, id, id, fun _ => ⟨rfl, fun _ _ => rfl⟩, rfl⟩⟩

/-- The security unit changes, keeping its latches. -/
theorem Kept.sec {r s : State} (h : Kept r s) (x : Sec) (hd : s.sec.debug = true → x.debug = true)
    (hk : s.sec.keysCleared = true → x.keysCleared = true) : Kept r { s with sec := x } :=
  h.trans ⟨⟨rfl, rfl, Nat.le_refl _, Nat.le_refl _, fun w => ⟨w.hbm, w.cmdMem, w.slot0, w.slot1⟩, id⟩,
    ⟨fun _ => rfl, id, id, id, hd, hk, fun _ => ⟨rfl, fun _ _ => rfl⟩, rfl⟩⟩

/-- The start-up unit changes, keeping its latches. -/
theorem Kept.boot {r s : State} (h : Kept r s) (x : Boot) (hd : s.boot.ready = true → x.ready = true)
    (hk : s.boot.phase = 8 → x.phase = 8) : Kept r { s with boot := x } :=
  h.trans ⟨⟨rfl, rfl, Nat.le_refl _, Nat.le_refl _, fun w => ⟨w.hbm, w.cmdMem, w.slot0, w.slot1⟩, id⟩,
    ⟨fun _ => rfl, hd, hk, id, id, id, fun _ => ⟨rfl, fun _ _ => rfl⟩, rfl⟩⟩

/-- The fault collector changes, keeping a halt. -/
theorem Kept.fc {r s : State} (h : Kept r s) (x : Collector) (hh : s.fc.halt = true → x.halt = true) : Kept r { s with fc := x } :=
  h.trans ⟨⟨rfl, rfl, Nat.le_refl _, Nat.le_refl _, fun w => ⟨w.hbm, w.cmdMem, w.slot0, w.slot1⟩, id⟩,
    ⟨fun _ => rfl, id, id, hh, id, id, fun _ => ⟨rfl, fun _ _ => rfl⟩, rfl⟩⟩

/-- The flash changes, keeping SC_SVN.MIN and the form of its slots. -/
theorem Kept.flash {r s : State} (h : Kept r s) (x : Flash) (hv : s.flash.svnMin.toNat ≤ x.svnMin.toNat)
    (h0 : s.flash.slot0.wf = true → x.slot0.wf = true) (h1 : s.flash.slot1.wf = true → x.slot1.wf = true) :
    Kept r { s with flash := x } :=
  h.trans ⟨⟨rfl, rfl, Nat.le_refl _, hv, fun w => ⟨w.hbm, w.cmdMem, h0 w.slot0, h1 w.slot1⟩, id⟩,
    ⟨fun _ => rfl, id, id, id, id, id, fun _ => ⟨rfl, fun _ _ => rfl⟩, rfl⟩⟩

/-- The command memories change, in canonical form. -/
theorem Kept.cmdMem {r s : State} (h : Kept r s) (m : Mem) (hm : s.cmdMem.wf = true → m.wf = true) : Kept r { s with cmdMem := m } :=
  h.trans ⟨⟨rfl, rfl, Nat.le_refl _, Nat.le_refl _, fun w => ⟨w.hbm, hm w.cmdMem, w.slot0, w.slot1⟩, id⟩,
    ⟨fun _ => rfl, id, id, id, id, id, fun _ => ⟨rfl, fun _ _ => rfl⟩, rfl⟩⟩

/-- The running commands change, their names staying fresh. -/
theorem Kept.runs {r s : State} (h : Kept r s) (l : List Run) (n : Nat)
    (hl : (∀ x ∈ s.runs, x.id < s.nextId) → ∀ x ∈ l, x.id < n) : Kept r { s with runs := l, nextId := n } :=
  h.trans ⟨⟨rfl, rfl, Nat.le_refl _, Nat.le_refl _, fun w => ⟨w.hbm, w.cmdMem, w.slot0, w.slot1⟩, hl⟩,
    ⟨fun _ => rfl, id, id, id, id, id, fun _ => ⟨rfl, fun _ _ => rfl⟩, rfl⟩⟩

end Sys2Proof.Laws
end

