-- ==== Sys2Proof/Laws/KeptOps.lean ====
section
/-! SUPPORT. What each operation of Machine/Ops.lean keeps. -/

namespace Sys2Proof.Laws

set_option linter.all false

open Sys2Proof.Machine Sys2Proof.Safety

theorem kept_setDeck {r₀ : State} (s : State) (d : Nat) (x : Deck) (h₀ : Kept r₀ s) : Kept r₀ (setDeck s d x) := by
  unfold setDeck
  try dsimp only
  repeat' first
    | with_reducible assumption
    | with_reducible apply Kept.ite
    | (first | intro _ _ _ _ _ _ _ | intro _ _ _ _ _ _ | intro _ _ _ _ _ | intro _ _ _ _ | intro _ _ _)
    | ((with_reducible refine Kept.mk_ _ _ _ _ _ _ _ _ _ _ _ _ _ _ _ _ _ _ _ _ _ _ _ _ _ _ _ _ _ _ _ _ _ _ _ _ _ _ _ _ _ _ _ ?_ rfl rfl rfl rfl rfl rfl rfl rfl rfl rfl (by first | exact Nat.le_refl _ | exact Nat.le_succ _ | exact Nat.le_add_right _ _ | omega) rfl (by first | exact Nat.le_refl _ | exact Nat.le_succ _ | omega)); (first | with_reducible assumption | with_reducible apply Kept.ite))

theorem kept_setQuay {r₀ : State} (s : State) (q : Nat) (x : Quay) (h₀ : Kept r₀ s) : Kept r₀ (setQuay s q x) := by
  unfold setQuay
  try dsimp only
  repeat' first
    | with_reducible assumption
    | with_reducible apply Kept.ite
    | (first | intro _ _ _ _ _ _ _ | intro _ _ _ _ _ _ | intro _ _ _ _ _ | intro _ _ _ _ | intro _ _ _)
    | ((with_reducible refine Kept.mk_ _ _ _ _ _ _ _ _ _ _ _ _ _ _ _ _ _ _ _ _ _ _ _ _ _ _ _ _ _ _ _ _ _ _ _ _ _ _ _ _ _ _ _ ?_ rfl rfl rfl rfl rfl rfl rfl rfl rfl rfl (by first | exact Nat.le_refl _ | exact Nat.le_succ _ | exact Nat.le_add_right _ _ | omega) rfl (by first | exact Nat.le_refl _ | exact Nat.le_succ _ | omega)); (first | with_reducible assumption | with_reducible apply Kept.ite))

theorem kept_setCtx {r₀ : State} (s : State) (q : Nat) (c : Nat) (x : Ctx) (h₀ : Kept r₀ s) : Kept r₀ (setCtx s q c x) := by
  unfold setCtx
  try dsimp only
  repeat' first
    | with_reducible assumption
    | with_reducible apply kept_setQuay
    | with_reducible apply Kept.ite
    | (first | intro _ _ _ _ _ _ _ | intro _ _ _ _ _ _ | intro _ _ _ _ _ | intro _ _ _ _ | intro _ _ _)
    | ((with_reducible refine Kept.mk_ _ _ _ _ _ _ _ _ _ _ _ _ _ _ _ _ _ _ _ _ _ _ _ _ _ _ _ _ _ _ _ _ _ _ _ _ _ _ _ _ _ _ _ ?_ rfl rfl rfl rfl rfl rfl rfl rfl rfl rfl (by first | exact Nat.le_refl _ | exact Nat.le_succ _ | exact Nat.le_add_right _ _ | omega) rfl (by first | exact Nat.le_refl _ | exact Nat.le_succ _ | omega)); (first | with_reducible assumption | with_reducible apply kept_setQuay | with_reducible apply Kept.ite))

theorem kept_setPort {r₀ : State} (s : State) (p : Nat) (x : Port) (h₀ : Kept r₀ s) : Kept r₀ (setPort s p x) := by
  unfold setPort
  try dsimp only
  repeat' first
    | with_reducible assumption
    | with_reducible apply Kept.ite
    | (first | intro _ _ _ _ _ _ _ | intro _ _ _ _ _ _ | intro _ _ _ _ _ | intro _ _ _ _ | intro _ _ _)
    | ((with_reducible refine Kept.mk_ _ _ _ _ _ _ _ _ _ _ _ _ _ _ _ _ _ _ _ _ _ _ _ _ _ _ _ _ _ _ _ _ _ _ _ _ _ _ _ _ _ _ _ ?_ rfl rfl rfl rfl rfl rfl rfl rfl rfl rfl (by first | exact Nat.le_refl _ | exact Nat.le_succ _ | exact Nat.le_add_right _ _ | omega) rfl (by first | exact Nat.le_refl _ | exact Nat.le_succ _ | omega)); (first | with_reducible assumption | with_reducible apply Kept.ite))

theorem kept_setLink {r₀ : State} (s : State) (p : Nat) (k : Nat) (x : Link) (h₀ : Kept r₀ s) : Kept r₀ (setLink s p k x) := by
  unfold setLink
  try dsimp only
  repeat' first
    | with_reducible assumption
    | with_reducible apply kept_setPort
    | with_reducible apply Kept.ite
    | (first | intro _ _ _ _ _ _ _ | intro _ _ _ _ _ _ | intro _ _ _ _ _ | intro _ _ _ _ | intro _ _ _)
    | ((with_reducible refine Kept.mk_ _ _ _ _ _ _ _ _ _ _ _ _ _ _ _ _ _ _ _ _ _ _ _ _ _ _ _ _ _ _ _ _ _ _ _ _ _ _ _ _ _ _ _ ?_ rfl rfl rfl rfl rfl rfl rfl rfl rfl rfl (by first | exact Nat.le_refl _ | exact Nat.le_succ _ | exact Nat.le_add_right _ _ | omega) rfl (by first | exact Nat.le_refl _ | exact Nat.le_succ _ | omega)); (first | with_reducible assumption | with_reducible apply kept_setPort | with_reducible apply Kept.ite))

theorem kept_setConn {r₀ : State} (s : State) (n : Nat) (x : Conn) (h₀ : Kept r₀ s) : Kept r₀ (setConn s n x) := by
  unfold setConn
  try dsimp only
  repeat' first
    | with_reducible assumption
    | with_reducible apply Kept.ite
    | (first | intro _ _ _ _ _ _ _ | intro _ _ _ _ _ _ | intro _ _ _ _ _ | intro _ _ _ _ | intro _ _ _)
    | ((with_reducible refine Kept.mk_ _ _ _ _ _ _ _ _ _ _ _ _ _ _ _ _ _ _ _ _ _ _ _ _ _ _ _ _ _ _ _ _ _ _ _ _ _ _ _ _ _ _ _ ?_ rfl rfl rfl rfl rfl rfl rfl rfl rfl rfl (by first | exact Nat.le_refl _ | exact Nat.le_succ _ | exact Nat.le_add_right _ _ | omega) rfl (by first | exact Nat.le_refl _ | exact Nat.le_succ _ | omega)); (first | with_reducible assumption | with_reducible apply Kept.ite))

theorem kept_setLand {r₀ : State} (s : State) (l : Nat) (x : LandingSt) (h₀ : Kept r₀ s) : Kept r₀ (setLand s l x) := by
  unfold setLand
  try dsimp only
  repeat' first
    | with_reducible assumption
    | with_reducible apply Kept.ite
    | (first | intro _ _ _ _ _ _ _ | intro _ _ _ _ _ _ | intro _ _ _ _ _ | intro _ _ _ _ | intro _ _ _)
    | ((with_reducible refine Kept.mk_ _ _ _ _ _ _ _ _ _ _ _ _ _ _ _ _ _ _ _ _ _ _ _ _ _ _ _ _ _ _ _ _ _ _ _ _ _ _ _ _ _ _ _ ?_ rfl rfl rfl rfl rfl rfl rfl rfl rfl rfl (by first | exact Nat.le_refl _ | exact Nat.le_succ _ | exact Nat.le_add_right _ _ | omega) rfl (by first | exact Nat.le_refl _ | exact Nat.le_succ _ | omega)); (first | with_reducible assumption | with_reducible apply Kept.ite))

theorem kept_setBerth {r₀ : State} (s : State) (b : Nat) (x : Berth) (h₀ : Kept r₀ s) : Kept r₀ (setBerth s b x) := by
  unfold setBerth
  try dsimp only
  repeat' first
    | with_reducible assumption
    | with_reducible apply Kept.ite
    | (first | intro _ _ _ _ _ _ _ | intro _ _ _ _ _ _ | intro _ _ _ _ _ | intro _ _ _ _ | intro _ _ _)
    | ((with_reducible refine Kept.mk_ _ _ _ _ _ _ _ _ _ _ _ _ _ _ _ _ _ _ _ _ _ _ _ _ _ _ _ _ _ _ _ _ _ _ _ _ _ _ _ _ _ _ _ ?_ rfl rfl rfl rfl rfl rfl rfl rfl rfl rfl (by first | exact Nat.le_refl _ | exact Nat.le_succ _ | exact Nat.le_add_right _ _ | omega) rfl (by first | exact Nat.le_refl _ | exact Nat.le_succ _ | omega)); (first | with_reducible assumption | with_reducible apply Kept.ite))

theorem kept_setStack {r₀ : State} (s : State) (k : Nat) (x : Stack) (h₀ : Kept r₀ s) : Kept r₀ (setStack s k x) := by
  unfold setStack
  try dsimp only
  repeat' first
    | with_reducible assumption
    | with_reducible apply Kept.ite
    | (first | intro _ _ _ _ _ _ _ | intro _ _ _ _ _ _ | intro _ _ _ _ _ | intro _ _ _ _ | intro _ _ _)
    | ((with_reducible refine Kept.mk_ _ _ _ _ _ _ _ _ _ _ _ _ _ _ _ _ _ _ _ _ _ _ _ _ _ _ _ _ _ _ _ _ _ _ _ _ _ _ _ _ _ _ _ ?_ rfl rfl rfl rfl rfl rfl rfl rfl rfl rfl (by first | exact Nat.le_refl _ | exact Nat.le_succ _ | exact Nat.le_add_right _ _ | omega) rfl (by first | exact Nat.le_refl _ | exact Nat.le_succ _ | omega)); (first | with_reducible assumption | with_reducible apply Kept.ite))

theorem kept_setRun {r₀ : State} (s : State) (r : Run) (h₀ : Kept r₀ s) : Kept r₀ (setRun s r) := by
  refine Kept.runs h₀ _ s.nextId (fun w x hx => ?_)
  unfold mapWhere at hx
  obtain ⟨y, hy, rfl⟩ := List.mem_map.mp hx
  have := w y hy
  split
  · rename_i e
    rw [beq_iff_eq] at e
    rw [← e]
    exact this
  · exact this

theorem kept_dropRun {r₀ : State} (s : State) (id : Nat) (h₀ : Kept r₀ s) : Kept r₀ (dropRun s id) :=
  Kept.runs h₀ _ s.nextId (fun w x hx => w x (List.mem_filter.mp hx).1)

theorem kept_freshId {r₀ : State} (s : State) (h₀ : Kept r₀ s) : Kept r₀ (freshId s).2 := by
  unfold freshId
  try dsimp only
  repeat' first
    | with_reducible assumption
    | with_reducible apply Kept.ite
    | with_reducible apply Kept.ite_snd
    | (first | intro _ _ _ _ _ _ _ | intro _ _ _ _ _ _ | intro _ _ _ _ _ | intro _ _ _ _ | intro _ _ _)
    | ((with_reducible refine Kept.mk_ _ _ _ _ _ _ _ _ _ _ _ _ _ _ _ _ _ _ _ _ _ _ _ _ _ _ _ _ _ _ _ _ _ _ _ _ _ _ _ _ _ _ _ ?_ rfl rfl rfl rfl rfl rfl rfl rfl rfl rfl (by first | exact Nat.le_refl _ | exact Nat.le_succ _ | exact Nat.le_add_right _ _ | omega) rfl (by first | exact Nat.le_refl _ | exact Nat.le_succ _ | omega)); (first | with_reducible assumption | with_reducible apply Kept.ite | with_reducible apply Kept.ite_snd))

theorem kept_freshWord {r₀ : State} (s : State) (h₀ : Kept r₀ s) : Kept r₀ (freshWord s).2 := by
  unfold freshWord
  try dsimp only
  repeat' first
    | with_reducible assumption
    | with_reducible apply Kept.ite
    | with_reducible apply Kept.ite_snd
    | (first | intro _ _ _ _ _ _ _ | intro _ _ _ _ _ _ | intro _ _ _ _ _ | intro _ _ _ _ | intro _ _ _)
    | ((with_reducible refine Kept.mk_ _ _ _ _ _ _ _ _ _ _ _ _ _ _ _ _ _ _ _ _ _ _ _ _ _ _ _ _ _ _ _ _ _ _ _ _ _ _ _ _ _ _ _ ?_ rfl rfl rfl rfl rfl rfl rfl rfl rfl rfl (by first | exact Nat.le_refl _ | exact Nat.le_succ _ | exact Nat.le_add_right _ _ | omega) rfl (by first | exact Nat.le_refl _ | exact Nat.le_succ _ | omega)); (first | with_reducible assumption | with_reducible apply Kept.ite | with_reducible apply Kept.ite_snd))

theorem kept_freshGen {r₀ : State} (s : State) (h₀ : Kept r₀ s) : Kept r₀ (freshGen s).2 := by
  unfold freshGen
  try dsimp only
  repeat' first
    | with_reducible assumption
    | with_reducible apply Kept.ite
    | with_reducible apply Kept.ite_snd
    | (first | intro _ _ _ _ _ _ _ | intro _ _ _ _ _ _ | intro _ _ _ _ _ | intro _ _ _ _ | intro _ _ _)
    | ((with_reducible refine Kept.mk_ _ _ _ _ _ _ _ _ _ _ _ _ _ _ _ _ _ _ _ _ _ _ _ _ _ _ _ _ _ _ _ _ _ _ _ _ _ _ _ _ _ _ _ ?_ rfl rfl rfl rfl rfl rfl rfl rfl rfl rfl (by first | exact Nat.le_refl _ | exact Nat.le_succ _ | exact Nat.le_add_right _ _ | omega) rfl (by first | exact Nat.le_refl _ | exact Nat.le_succ _ | omega)); (first | with_reducible assumption | with_reducible apply Kept.ite | with_reducible apply Kept.ite_snd))

theorem kept_raise {r₀ : State} (s : State) (level : Nat) (unit : Nat) (code : Nat) (berth : Option Nat) (task : Option Word) (detail : Nat) (h₀ : Kept r₀ s) : Kept r₀ (raise s level unit code berth task detail) := by
  unfold raise
  try dsimp only
  repeat' first
    | with_reducible assumption
    | with_reducible apply Kept.ite
    | (first | intro _ _ _ _ _ _ _ | intro _ _ _ _ _ _ | intro _ _ _ _ _ | intro _ _ _ _ | intro _ _ _)
    | split
    | ((with_reducible refine Kept.mk_ _ _ _ _ _ _ _ _ _ _ _ _ _ _ _ _ _ _ _ _ _ _ _ _ _ _ _ _ _ _ _ _ _ _ _ _ _ _ _ _ _ _ _ ?_ rfl rfl rfl rfl rfl rfl rfl rfl rfl rfl (by first | exact Nat.le_refl _ | exact Nat.le_succ _ | exact Nat.le_add_right _ _ | omega) rfl (by first | exact Nat.le_refl _ | exact Nat.le_succ _ | omega)); (first | with_reducible assumption | with_reducible apply Kept.ite | split))

theorem kept_raiseChip {r₀ : State} (s : State) (unit : Nat) (code : Nat) (detail : Nat) (h₀ : Kept r₀ s) : Kept r₀ (raiseChip s unit code detail) := by
  unfold raiseChip
  try dsimp only
  repeat' first
    | with_reducible assumption
    | with_reducible apply kept_raise
    | with_reducible apply Kept.ite
    | (first | intro _ _ _ _ _ _ _ | intro _ _ _ _ _ _ | intro _ _ _ _ _ | intro _ _ _ _ | intro _ _ _)
    | ((with_reducible refine Kept.mk_ _ _ _ _ _ _ _ _ _ _ _ _ _ _ _ _ _ _ _ _ _ _ _ _ _ _ _ _ _ _ _ _ _ _ _ _ _ _ _ _ _ _ _ ?_ rfl rfl rfl rfl rfl rfl rfl rfl rfl rfl (by first | exact Nat.le_refl _ | exact Nat.le_succ _ | exact Nat.le_add_right _ _ | omega) rfl (by first | exact Nat.le_refl _ | exact Nat.le_succ _ | omega)); (first | with_reducible assumption | with_reducible apply kept_raise | with_reducible apply Kept.ite))

theorem kept_raiseBerth {r₀ : State} (s : State) (level : Nat) (unit : Nat) (code : Nat) (b : Nat) (detail : Nat) (h₀ : Kept r₀ s) : Kept r₀ (raiseBerth s level unit code b detail) := by
  unfold raiseBerth
  try dsimp only
  repeat' first
    | with_reducible assumption
    | with_reducible apply kept_raise
    | with_reducible apply Kept.ite
    | (first | intro _ _ _ _ _ _ _ | intro _ _ _ _ _ _ | intro _ _ _ _ _ | intro _ _ _ _ | intro _ _ _)
    | ((with_reducible refine Kept.mk_ _ _ _ _ _ _ _ _ _ _ _ _ _ _ _ _ _ _ _ _ _ _ _ _ _ _ _ _ _ _ _ _ _ _ _ _ _ _ _ _ _ _ _ ?_ rfl rfl rfl rfl rfl rfl rfl rfl rfl rfl (by first | exact Nat.le_refl _ | exact Nat.le_succ _ | exact Nat.le_add_right _ _ | omega) rfl (by first | exact Nat.le_refl _ | exact Nat.le_succ _ | omega)); (first | with_reducible assumption | with_reducible apply kept_raise | with_reducible apply Kept.ite))

theorem kept_raiseDeck {r₀ : State} (s : State) (level : Nat) (d : Nat) (code : Nat) (detail : Nat) (h₀ : Kept r₀ s) : Kept r₀ (raiseDeck s level d code detail) := by
  unfold raiseDeck
  try dsimp only
  repeat' first
    | with_reducible assumption
    | with_reducible apply kept_raise
    | with_reducible apply kept_raiseBerth
    | with_reducible apply Kept.ite
    | (first | intro _ _ _ _ _ _ _ | intro _ _ _ _ _ _ | intro _ _ _ _ _ | intro _ _ _ _ | intro _ _ _)
    | split
    | ((with_reducible refine Kept.mk_ _ _ _ _ _ _ _ _ _ _ _ _ _ _ _ _ _ _ _ _ _ _ _ _ _ _ _ _ _ _ _ _ _ _ _ _ _ _ _ _ _ _ _ ?_ rfl rfl rfl rfl rfl rfl rfl rfl rfl rfl (by first | exact Nat.le_refl _ | exact Nat.le_succ _ | exact Nat.le_add_right _ _ | omega) rfl (by first | exact Nat.le_refl _ | exact Nat.le_succ _ | omega)); (first | with_reducible assumption | with_reducible apply kept_raise | with_reducible apply kept_raiseBerth | with_reducible apply Kept.ite | split))

theorem kept_raiseCtx {r₀ : State} (s : State) (q : Nat) (c : Nat) (code : Nat) (b : Nat) (detail : Nat) (h₀ : Kept r₀ s) : Kept r₀ (raiseCtx s q c code b detail) := by
  unfold raiseCtx
  try dsimp only
  repeat' first
    | with_reducible assumption
    | with_reducible apply kept_raiseBerth
    | with_reducible apply Kept.ite
    | (first | intro _ _ _ _ _ _ _ | intro _ _ _ _ _ _ | intro _ _ _ _ _ | intro _ _ _ _ | intro _ _ _)
    | ((with_reducible refine Kept.mk_ _ _ _ _ _ _ _ _ _ _ _ _ _ _ _ _ _ _ _ _ _ _ _ _ _ _ _ _ _ _ _ _ _ _ _ _ _ _ _ _ _ _ _ ?_ rfl rfl rfl rfl rfl rfl rfl rfl rfl rfl (by first | exact Nat.le_refl _ | exact Nat.le_succ _ | exact Nat.le_add_right _ _ | omega) rfl (by first | exact Nat.le_refl _ | exact Nat.le_succ _ | omega)); (first | with_reducible assumption | with_reducible apply kept_raiseBerth | with_reducible apply Kept.ite))

theorem kept_raiseConn {r₀ : State} (s : State) (p : Nat) (code : Nat) (n : Nat) (detail : Nat) (h₀ : Kept r₀ s) : Kept r₀ (raiseConn s p code n detail) := by
  unfold raiseConn
  try dsimp only
  repeat' first
    | with_reducible assumption
    | with_reducible apply kept_raise
    | with_reducible apply kept_raiseBerth
    | with_reducible apply Kept.ite
    | (first | intro _ _ _ _ _ _ _ | intro _ _ _ _ _ _ | intro _ _ _ _ _ | intro _ _ _ _ | intro _ _ _)
    | ((with_reducible refine Kept.mk_ _ _ _ _ _ _ _ _ _ _ _ _ _ _ _ _ _ _ _ _ _ _ _ _ _ _ _ _ _ _ _ _ _ _ _ _ _ _ _ _ _ _ _ ?_ rfl rfl rfl rfl rfl rfl rfl rfl rfl rfl (by first | exact Nat.le_refl _ | exact Nat.le_succ _ | exact Nat.le_add_right _ _ | omega) rfl (by first | exact Nat.le_refl _ | exact Nat.le_succ _ | omega)); (first | with_reducible assumption | with_reducible apply kept_raise | with_reducible apply kept_raiseBerth | with_reducible apply Kept.ite))

theorem kept_noteReport {r₀ : State} (s : State) (code : Nat) (key : Nat) (h₀ : Kept r₀ s) : Kept r₀ (noteReport s code key) := by
  unfold noteReport
  try dsimp only
  repeat' first
    | with_reducible assumption
    | with_reducible apply Kept.ite
    | (first | intro _ _ _ _ _ _ _ | intro _ _ _ _ _ _ | intro _ _ _ _ _ | intro _ _ _ _ | intro _ _ _)
    | ((with_reducible refine Kept.mk_ _ _ _ _ _ _ _ _ _ _ _ _ _ _ _ _ _ _ _ _ _ _ _ _ _ _ _ _ _ _ _ _ _ _ _ _ _ _ _ _ _ _ _ ?_ rfl rfl rfl rfl rfl rfl rfl rfl rfl rfl (by first | exact Nat.le_refl _ | exact Nat.le_succ _ | exact Nat.le_add_right _ _ | omega) rfl (by first | exact Nat.le_refl _ | exact Nat.le_succ _ | omega)); (first | with_reducible assumption | with_reducible apply Kept.ite))

theorem kept_send {r₀ : State} (s : State) (o : Out) (h₀ : Kept r₀ s) : Kept r₀ (send s o) := by
  unfold send
  try dsimp only
  repeat' first
    | with_reducible assumption
    | with_reducible apply Kept.ite
    | (first | intro _ _ _ _ _ _ _ | intro _ _ _ _ _ _ | intro _ _ _ _ _ | intro _ _ _ _ | intro _ _ _)
    | ((with_reducible refine Kept.mk_ _ _ _ _ _ _ _ _ _ _ _ _ _ _ _ _ _ _ _ _ _ _ _ _ _ _ _ _ _ _ _ _ _ _ _ _ _ _ _ _ _ _ _ ?_ rfl rfl rfl rfl rfl rfl rfl rfl rfl rfl (by first | exact Nat.le_refl _ | exact Nat.le_succ _ | exact Nat.le_add_right _ _ | omega) rfl (by first | exact Nat.le_refl _ | exact Nat.le_succ _ | omega)); (first | with_reducible assumption | with_reducible apply Kept.ite))

theorem kept_sendFrame {r₀ : State} (s : State) (p : Nat) (pcp : Nat) (o : Out) (h₀ : Kept r₀ s) : Kept r₀ (sendFrame s p pcp o) := by
  unfold sendFrame
  try dsimp only
  repeat' first
    | with_reducible assumption
    | with_reducible apply kept_setPort
    | with_reducible apply kept_send
    | with_reducible apply Kept.ite
    | (first | intro _ _ _ _ _ _ _ | intro _ _ _ _ _ _ | intro _ _ _ _ _ | intro _ _ _ _ | intro _ _ _)
    | ((with_reducible refine Kept.mk_ _ _ _ _ _ _ _ _ _ _ _ _ _ _ _ _ _ _ _ _ _ _ _ _ _ _ _ _ _ _ _ _ _ _ _ _ _ _ _ _ _ _ _ ?_ rfl rfl rfl rfl rfl rfl rfl rfl rfl rfl (by first | exact Nat.le_refl _ | exact Nat.le_succ _ | exact Nat.le_add_right _ _ | omega) rfl (by first | exact Nat.le_refl _ | exact Nat.le_succ _ | omega)); (first | with_reducible assumption | with_reducible apply kept_setPort | with_reducible apply kept_send | with_reducible apply Kept.ite))

theorem kept_releaseHeld {r₀ : State} (s : State) (p : Nat) (n : Nat) (h₀ : Kept r₀ s) : Kept r₀ (releaseHeld s p n) := by
  unfold releaseHeld
  try dsimp only
  repeat' first
    | with_reducible assumption
    | with_reducible apply kept_setPort
    | with_reducible apply kept_send
    | with_reducible apply Kept.ite
    | with_reducible apply Kept.foldl
    | with_reducible apply Kept.foldl_fst
    | with_reducible apply Kept.foldl_snd
    | (first | intro _ _ _ _ _ _ _ | intro _ _ _ _ _ _ | intro _ _ _ _ _ | intro _ _ _ _ | intro _ _ _)
    | ((with_reducible refine Kept.mk_ _ _ _ _ _ _ _ _ _ _ _ _ _ _ _ _ _ _ _ _ _ _ _ _ _ _ _ _ _ _ _ _ _ _ _ _ _ _ _ _ _ _ _ ?_ rfl rfl rfl rfl rfl rfl rfl rfl rfl rfl (by first | exact Nat.le_refl _ | exact Nat.le_succ _ | exact Nat.le_add_right _ _ | omega) rfl (by first | exact Nat.le_refl _ | exact Nat.le_succ _ | omega)); (first | with_reducible assumption | with_reducible apply kept_setPort | with_reducible apply kept_send | with_reducible apply Kept.ite | with_reducible apply Kept.foldl | with_reducible apply Kept.foldl_fst | with_reducible apply Kept.foldl_snd))

theorem kept_dropHeld {r₀ : State} (s : State) (n : Nat) (h₀ : Kept r₀ s) : Kept r₀ (dropHeld s n) := by
  unfold dropHeld
  try dsimp only
  repeat' first
    | with_reducible assumption
    | with_reducible apply kept_setPort
    | with_reducible apply Kept.ite
    | (first | intro _ _ _ _ _ _ _ | intro _ _ _ _ _ _ | intro _ _ _ _ _ | intro _ _ _ _ | intro _ _ _)
    | split
    | ((with_reducible refine Kept.mk_ _ _ _ _ _ _ _ _ _ _ _ _ _ _ _ _ _ _ _ _ _ _ _ _ _ _ _ _ _ _ _ _ _ _ _ _ _ _ _ _ _ _ _ ?_ rfl rfl rfl rfl rfl rfl rfl rfl rfl rfl (by first | exact Nat.le_refl _ | exact Nat.le_succ _ | exact Nat.le_add_right _ _ | omega) rfl (by first | exact Nat.le_refl _ | exact Nat.le_succ _ | omega)); (first | with_reducible assumption | with_reducible apply kept_setPort | with_reducible apply Kept.ite | split))

theorem kept_sendOn {r₀ : State} (s : State) (n : Nat) (pcp : Nat) (m : Roce) (sailing : Bool) (h₀ : Kept r₀ s) : Kept r₀ (sendOn s n pcp m sailing) := by
  unfold sendOn
  try dsimp only
  repeat' first
    | with_reducible assumption
    | with_reducible apply kept_sendFrame
    | with_reducible apply Kept.ite
    | (first | intro _ _ _ _ _ _ _ | intro _ _ _ _ _ _ | intro _ _ _ _ _ | intro _ _ _ _ | intro _ _ _)
    | ((with_reducible refine Kept.mk_ _ _ _ _ _ _ _ _ _ _ _ _ _ _ _ _ _ _ _ _ _ _ _ _ _ _ _ _ _ _ _ _ _ _ _ _ _ _ _ _ _ _ _ ?_ rfl rfl rfl rfl rfl rfl rfl rfl rfl rfl (by first | exact Nat.le_refl _ | exact Nat.le_succ _ | exact Nat.le_add_right _ _ | omega) rfl (by first | exact Nat.le_refl _ | exact Nat.le_succ _ | omega)); (first | with_reducible assumption | with_reducible apply kept_sendFrame | with_reducible apply Kept.ite))

theorem kept_answerOn {r₀ : State} (s : State) (n : Nat) (m : Roce) (h₀ : Kept r₀ s) : Kept r₀ (answerOn s n m) := by
  unfold answerOn
  try dsimp only
  repeat' first
    | with_reducible assumption
    | with_reducible apply kept_sendOn
    | with_reducible apply Kept.ite
    | (first | intro _ _ _ _ _ _ _ | intro _ _ _ _ _ _ | intro _ _ _ _ _ | intro _ _ _ _ | intro _ _ _)
    | ((with_reducible refine Kept.mk_ _ _ _ _ _ _ _ _ _ _ _ _ _ _ _ _ _ _ _ _ _ _ _ _ _ _ _ _ _ _ _ _ _ _ _ _ _ _ _ _ _ _ _ ?_ rfl rfl rfl rfl rfl rfl rfl rfl rfl rfl (by first | exact Nat.le_refl _ | exact Nat.le_succ _ | exact Nat.le_add_right _ _ | omega) rfl (by first | exact Nat.le_refl _ | exact Nat.le_succ _ | omega)); (first | with_reducible assumption | with_reducible apply kept_sendOn | with_reducible apply Kept.ite))

theorem kept_request {r₀ : State} (s : State) (n : Nat) (kind : ReqKind) (packets : Nat) (m : Roce) (sailing : Bool := false) (h₀ : Kept r₀ s) : Kept r₀ (request s n kind packets m sailing) := by
  unfold request
  try dsimp only
  repeat' first
    | with_reducible assumption
    | with_reducible apply kept_setConn
    | with_reducible apply kept_sendOn
    | with_reducible apply Kept.ite
    | (first | intro _ _ _ _ _ _ _ | intro _ _ _ _ _ _ | intro _ _ _ _ _ | intro _ _ _ _ | intro _ _ _)
    | ((with_reducible refine Kept.mk_ _ _ _ _ _ _ _ _ _ _ _ _ _ _ _ _ _ _ _ _ _ _ _ _ _ _ _ _ _ _ _ _ _ _ _ _ _ _ _ _ _ _ _ ?_ rfl rfl rfl rfl rfl rfl rfl rfl rfl rfl (by first | exact Nat.le_refl _ | exact Nat.le_succ _ | exact Nat.le_add_right _ _ | omega) rfl (by first | exact Nat.le_refl _ | exact Nat.le_succ _ | omega)); (first | with_reducible assumption | with_reducible apply kept_setConn | with_reducible apply kept_sendOn | with_reducible apply Kept.ite))

theorem kept_sendWaiting {r₀ : State} (n : Nat) : ∀ (fuel : Nat) (s : State), Kept r₀ s → Kept r₀ (sendWaiting n fuel s)
  | 0, _, h => h
  | fuel + 1, s, h => by
    unfold sendWaiting
    dsimp only
    split
    · split
      · split
        · exact kept_sendWaiting n fuel _ (kept_sendOn _ _ _ _ _ (kept_setConn _ _ _ h))
        · exact h
      · exact h
    · exact h

theorem kept_setReqs {r₀ : State} (s : State) (n : Nat) (l : List OutReq) (h₀ : Kept r₀ s) : Kept r₀ (setReqs s n l) := by
  unfold setReqs
  try dsimp only
  repeat' first
    | with_reducible assumption
    | with_reducible apply kept_setConn
    | with_reducible apply kept_sendWaiting
    | with_reducible apply Kept.ite
    | (first | intro _ _ _ _ _ _ _ | intro _ _ _ _ _ _ | intro _ _ _ _ _ | intro _ _ _ _ | intro _ _ _)
    | ((with_reducible refine Kept.mk_ _ _ _ _ _ _ _ _ _ _ _ _ _ _ _ _ _ _ _ _ _ _ _ _ _ _ _ _ _ _ _ _ _ _ _ _ _ _ _ _ _ _ _ ?_ rfl rfl rfl rfl rfl rfl rfl rfl rfl rfl (by first | exact Nat.le_refl _ | exact Nat.le_succ _ | exact Nat.le_add_right _ _ | omega) rfl (by first | exact Nat.le_refl _ | exact Nat.le_succ _ | omega)); (first | with_reducible assumption | with_reducible apply kept_setConn | with_reducible apply kept_sendWaiting | with_reducible apply Kept.ite))

theorem kept_writeRecord {r₀ : State} (s : State) (l : Nat) (r : Rec) (h₀ : Kept r₀ s) : Kept r₀ (writeRecord s l r) := by
  unfold writeRecord
  try dsimp only
  repeat' first
    | with_reducible assumption
    | with_reducible apply kept_setLand
    | with_reducible apply kept_request
    | with_reducible apply Kept.ite
    | with_reducible apply Kept.ite_fst
    | (first | intro _ _ _ _ _ _ _ | intro _ _ _ _ _ _ | intro _ _ _ _ _ | intro _ _ _ _ | intro _ _ _)
    | split
    | ((with_reducible refine Kept.mk_ _ _ _ _ _ _ _ _ _ _ _ _ _ _ _ _ _ _ _ _ _ _ _ _ _ _ _ _ _ _ _ _ _ _ _ _ _ _ _ _ _ _ _ ?_ rfl rfl rfl rfl rfl rfl rfl rfl rfl rfl (by first | exact Nat.le_refl _ | exact Nat.le_succ _ | exact Nat.le_add_right _ _ | omega) rfl (by first | exact Nat.le_refl _ | exact Nat.le_succ _ | omega)); (first | with_reducible assumption | with_reducible apply kept_setLand | with_reducible apply kept_request | with_reducible apply Kept.ite | with_reducible apply Kept.ite_fst | split))

theorem kept_emit {r₀ : State} (s : State) (l : Nat) (r : Rec) (h₀ : Kept r₀ s) : Kept r₀ (emit s l r) := by
  unfold emit
  try dsimp only
  repeat' first
    | with_reducible assumption
    | with_reducible apply kept_setLand
    | with_reducible apply kept_writeRecord
    | with_reducible apply Kept.ite
    | (first | intro _ _ _ _ _ _ _ | intro _ _ _ _ _ _ | intro _ _ _ _ _ | intro _ _ _ _ | intro _ _ _)
    | ((with_reducible refine Kept.mk_ _ _ _ _ _ _ _ _ _ _ _ _ _ _ _ _ _ _ _ _ _ _ _ _ _ _ _ _ _ _ _ _ _ _ _ _ _ _ _ _ _ _ _ ?_ rfl rfl rfl rfl rfl rfl rfl rfl rfl rfl (by first | exact Nat.le_refl _ | exact Nat.le_succ _ | exact Nat.le_add_right _ _ | omega) rfl (by first | exact Nat.le_refl _ | exact Nat.le_succ _ | omega)); (first | with_reducible assumption | with_reducible apply kept_setLand | with_reducible apply kept_writeRecord | with_reducible apply Kept.ite))

theorem kept_reply {r₀ : State} (s : State) (l : Nat) (berth : Nat) (hseq : Word) (task : Word) (type : Nat) (status : Nat) (query : List Byte) (h₀ : Kept r₀ s) : Kept r₀ (reply s l berth hseq task type status query) := by
  unfold reply
  try dsimp only
  repeat' first
    | with_reducible assumption
    | with_reducible apply kept_emit
    | with_reducible apply Kept.ite
    | (first | intro _ _ _ _ _ _ _ | intro _ _ _ _ _ _ | intro _ _ _ _ _ | intro _ _ _ _ | intro _ _ _)
    | ((with_reducible refine Kept.mk_ _ _ _ _ _ _ _ _ _ _ _ _ _ _ _ _ _ _ _ _ _ _ _ _ _ _ _ _ _ _ _ _ _ _ _ _ _ _ _ _ _ _ _ ?_ rfl rfl rfl rfl rfl rfl rfl rfl rfl rfl (by first | exact Nat.le_refl _ | exact Nat.le_succ _ | exact Nat.le_add_right _ _ | omega) rfl (by first | exact Nat.le_refl _ | exact Nat.le_succ _ | omega)); (first | with_reducible assumption | with_reducible apply kept_emit | with_reducible apply Kept.ite))

theorem kept_writeBlock {r₀ : State} (s : State) (lo : Nat) (data : List Byte) (b : Nat) (h : Kept r₀ s) :
    Kept r₀ (writeBlock s lo data b) := by
  unfold writeBlock
  dsimp only
  apply Kept.ite h
  exact Kept.hbm h _ _ (fun w => wf_writeBytes _ _ _ w) rfl

theorem kept_invalidate {r₀ : State} (s : State) (a : Nat) (len : Nat) (h₀ : Kept r₀ s) : Kept r₀ (invalidate s a len) := by
  unfold invalidate
  try dsimp only
  repeat' first
    | with_reducible assumption
    | with_reducible apply Kept.ite
    | with_reducible apply Kept.ite_fst
    | (first | intro _ _ _ _ _ _ _ | intro _ _ _ _ _ _ | intro _ _ _ _ _ | intro _ _ _ _ | intro _ _ _)
    | ((with_reducible refine Kept.mk_ _ _ _ _ _ _ _ _ _ _ _ _ _ _ _ _ _ _ _ _ _ _ _ _ _ _ _ _ _ _ _ _ _ _ _ _ _ _ _ _ _ _ _ ?_ rfl rfl rfl rfl rfl rfl rfl rfl rfl rfl (by first | exact Nat.le_refl _ | exact Nat.le_succ _ | exact Nat.le_add_right _ _ | omega) rfl (by first | exact Nat.le_refl _ | exact Nat.le_succ _ | omega)); (first | with_reducible assumption | with_reducible apply Kept.ite | with_reducible apply Kept.ite_fst))

theorem kept_hbmWrite {r₀ : State} (s : State) (a : Nat) (data : List Byte) (h₀ : Kept r₀ s) : Kept r₀ (hbmWrite s a data) := by
  unfold hbmWrite
  try dsimp only
  repeat' first
    | with_reducible assumption
    | with_reducible apply kept_writeBlock
    | with_reducible apply kept_invalidate
    | with_reducible apply Kept.ite
    | with_reducible apply Kept.foldl
    | with_reducible apply Kept.foldl_fst
    | with_reducible apply Kept.foldl_snd
    | (first | intro _ _ _ _ _ _ _ | intro _ _ _ _ _ _ | intro _ _ _ _ _ | intro _ _ _ _ | intro _ _ _)
    | ((with_reducible refine Kept.mk_ _ _ _ _ _ _ _ _ _ _ _ _ _ _ _ _ _ _ _ _ _ _ _ _ _ _ _ _ _ _ _ _ _ _ _ _ _ _ _ _ _ _ _ ?_ rfl rfl rfl rfl rfl rfl rfl rfl rfl rfl (by first | exact Nat.le_refl _ | exact Nat.le_succ _ | exact Nat.le_add_right _ _ | omega) rfl (by first | exact Nat.le_refl _ | exact Nat.le_succ _ | omega)); (first | with_reducible assumption | with_reducible apply kept_writeBlock | with_reducible apply kept_invalidate | with_reducible apply Kept.ite | with_reducible apply Kept.foldl | with_reducible apply Kept.foldl_fst | with_reducible apply Kept.foldl_snd))

theorem kept_hbmUndefine {r₀ : State} (s : State) (a len : Nat) (h : Kept r₀ s) : Kept r₀ (hbmUndefine s a len) := by
  unfold hbmUndefine
  dsimp only
  apply Kept.foldl
  · intro t e k
    exact Kept.hbm k _ t.poison (fun w => wf_undefine _ _ _ _ w) rfl
  · exact kept_freshGen s h

theorem kept_hbmZero {r₀ : State} (s : State) (a len : Nat) (h : Kept r₀ s) : Kept r₀ (hbmZero s a len) := by
  unfold hbmZero
  apply Kept.foldl
  · intro t e k
    exact Kept.hbm k _ _ (fun w => wf_zero _ _ _ w) rfl
  · exact h

end Sys2Proof.Laws
end

