-- ==== Sys2Proof/Laws/KeptFabric.lean ====
section
/-! SUPPORT. What each operation of Machine/Fabric.lean keeps. -/

namespace Sys2Proof.Laws

set_option linter.all false

open Sys2Proof.Machine Sys2Proof.Safety

theorem kept_takeEntry {r₀ : State} (s : State) (t : Trk) (h₀ : Kept r₀ s) : Kept r₀ (takeEntry s t) := by
  unfold takeEntry
  try dsimp only
  repeat' first
    | with_reducible assumption
    | with_reducible apply Kept.ite
    | (first | intro _ _ _ _ _ _ _ | intro _ _ _ _ _ _ | intro _ _ _ _ _ | intro _ _ _ _ | intro _ _ _)
    | ((with_reducible refine Kept.mk_ _ _ _ _ _ _ _ _ _ _ _ _ _ _ _ _ _ _ _ _ _ _ _ _ _ _ _ _ _ _ _ _ _ _ _ _ _ _ _ _ _ _ _ ?_ rfl rfl rfl rfl rfl rfl rfl rfl rfl rfl (by first | exact Nat.le_refl _ | exact Nat.le_succ _ | exact Nat.le_add_right _ _ | omega) rfl (by first | exact Nat.le_refl _ | exact Nat.le_succ _ | omega)); (first | with_reducible assumption | with_reducible apply Kept.ite))

/-- Issuing keeps what it must; names stay fresh, since each entry takes the next. -/
theorem kept_issueFrom {r₀ : State} (run q : Nat) (u : BitVec 16) (b : Option Nat) (task : Nat) :
    ∀ (l : List Req) (s : State), Kept r₀ s → Kept r₀ (issueFrom s run q u b task l).1
  | [], _, h => h
  | x :: l, s, h => by
    unfold issueFrom
    split
    · exact kept_issueFrom run q u b task l _ (kept_takeEntry _ _ h)
    · exact h

theorem kept_issueRun {r₀ : State} (s : State) (id : Nat) (h₀ : Kept r₀ s) : Kept r₀ (issueRun s id) := by
  unfold issueRun
  try dsimp only
  repeat' first
    | with_reducible assumption
    | with_reducible apply kept_setRun
    | with_reducible apply kept_issueFrom
    | with_reducible apply Kept.ite
    | (first | intro _ _ _ _ _ _ _ | intro _ _ _ _ _ _ | intro _ _ _ _ _ | intro _ _ _ _ | intro _ _ _)
    | split
    | ((with_reducible refine Kept.mk_ _ _ _ _ _ _ _ _ _ _ _ _ _ _ _ _ _ _ _ _ _ _ _ _ _ _ _ _ _ _ _ _ _ _ _ _ _ _ _ _ _ _ _ ?_ rfl rfl rfl rfl rfl rfl rfl rfl rfl rfl (by first | exact Nat.le_refl _ | exact Nat.le_succ _ | exact Nat.le_add_right _ _ | omega) rfl (by first | exact Nat.le_refl _ | exact Nat.le_succ _ | omega)); (first | with_reducible assumption | with_reducible apply kept_setRun | with_reducible apply kept_issueFrom | with_reducible apply Kept.ite | split))

theorem kept_issueAll {r₀ : State} (s : State) (h₀ : Kept r₀ s) : Kept r₀ (issueAll s) := by
  unfold issueAll
  try dsimp only
  repeat' first
    | with_reducible assumption
    | with_reducible apply kept_issueRun
    | with_reducible apply Kept.ite
    | with_reducible apply Kept.foldl
    | with_reducible apply Kept.foldl_fst
    | with_reducible apply Kept.foldl_snd
    | (first | intro _ _ _ _ _ _ _ | intro _ _ _ _ _ _ | intro _ _ _ _ _ | intro _ _ _ _ | intro _ _ _)
    | ((with_reducible refine Kept.mk_ _ _ _ _ _ _ _ _ _ _ _ _ _ _ _ _ _ _ _ _ _ _ _ _ _ _ _ _ _ _ _ _ _ _ _ _ _ _ _ _ _ _ _ ?_ rfl rfl rfl rfl rfl rfl rfl rfl rfl rfl (by first | exact Nat.le_refl _ | exact Nat.le_succ _ | exact Nat.le_add_right _ _ | omega) rfl (by first | exact Nat.le_refl _ | exact Nat.le_succ _ | omega)); (first | with_reducible assumption | with_reducible apply kept_issueRun | with_reducible apply Kept.ite | with_reducible apply Kept.foldl | with_reducible apply Kept.foldl_fst | with_reducible apply Kept.foldl_snd))

theorem kept_setPieces {r₀ : State} (s : State) (l : List Piece) (h₀ : Kept r₀ s) : Kept r₀ (setPieces s l) := by
  unfold setPieces
  try dsimp only
  repeat' first
    | with_reducible assumption
    | with_reducible apply Kept.ite
    | (first | intro _ _ _ _ _ _ _ | intro _ _ _ _ _ _ | intro _ _ _ _ _ | intro _ _ _ _ | intro _ _ _)
    | ((with_reducible refine Kept.mk_ _ _ _ _ _ _ _ _ _ _ _ _ _ _ _ _ _ _ _ _ _ _ _ _ _ _ _ _ _ _ _ _ _ _ _ _ _ _ _ _ _ _ _ ?_ rfl rfl rfl rfl rfl rfl rfl rfl rfl rfl (by first | exact Nat.le_refl _ | exact Nat.le_succ _ | exact Nat.le_add_right _ _ | omega) rfl (by first | exact Nat.le_refl _ | exact Nat.le_succ _ | omega)); (first | with_reducible assumption | with_reducible apply Kept.ite))

theorem kept_movePiece {r₀ : State} (s : State) (x : Piece) (h₀ : Kept r₀ s) : Kept r₀ (movePiece s x) := by
  unfold movePiece
  try dsimp only
  repeat' first
    | with_reducible assumption
    | with_reducible apply kept_setPieces
    | with_reducible apply Kept.ite
    | (first | intro _ _ _ _ _ _ _ | intro _ _ _ _ _ _ | intro _ _ _ _ _ | intro _ _ _ _ | intro _ _ _)
    | ((with_reducible refine Kept.mk_ _ _ _ _ _ _ _ _ _ _ _ _ _ _ _ _ _ _ _ _ _ _ _ _ _ _ _ _ _ _ _ _ _ _ _ _ _ _ _ _ _ _ _ ?_ rfl rfl rfl rfl rfl rfl rfl rfl rfl rfl (by first | exact Nat.le_refl _ | exact Nat.le_succ _ | exact Nat.le_add_right _ _ | omega) rfl (by first | exact Nat.le_refl _ | exact Nat.le_succ _ | omega)); (first | with_reducible assumption | with_reducible apply kept_setPieces | with_reducible apply Kept.ite))

theorem kept_crossbar {r₀ : State} : ∀ (fuel : Nat) (s : State), Kept r₀ s → Kept r₀ (crossbar fuel s)
  | 0, _, h => h
  | fuel + 1, s, h => by
    unfold crossbar
    split
    · exact h
    · rename_i x _
      have k := kept_movePiece s { x with st := .waiting } h
      exact kept_crossbar fuel _ (Kept.upd k rfl rfl rfl rfl rfl rfl rfl rfl rfl rfl (Nat.le_refl _))

theorem kept_undefineAll {r₀ : State} (s : State) (es : List (Nat × Nat)) (h₀ : Kept r₀ s) : Kept r₀ (undefineAll s es) := by
  unfold undefineAll
  try dsimp only
  repeat' first
    | with_reducible assumption
    | with_reducible apply kept_hbmUndefine
    | with_reducible apply Kept.ite
    | with_reducible apply Kept.foldl
    | with_reducible apply Kept.foldl_fst
    | with_reducible apply Kept.foldl_snd
    | (first | intro _ _ _ _ _ _ _ | intro _ _ _ _ _ _ | intro _ _ _ _ _ | intro _ _ _ _ | intro _ _ _)
    | ((with_reducible refine Kept.mk_ _ _ _ _ _ _ _ _ _ _ _ _ _ _ _ _ _ _ _ _ _ _ _ _ _ _ _ _ _ _ _ _ _ _ _ _ _ _ _ _ _ _ _ ?_ rfl rfl rfl rfl rfl rfl rfl rfl rfl rfl (by first | exact Nat.le_refl _ | exact Nat.le_succ _ | exact Nat.le_add_right _ _ | omega) rfl (by first | exact Nat.le_refl _ | exact Nat.le_succ _ | omega)); (first | with_reducible assumption | with_reducible apply kept_hbmUndefine | with_reducible apply Kept.ite | with_reducible apply Kept.foldl | with_reducible apply Kept.foldl_fst | with_reducible apply Kept.foldl_snd))

theorem kept_meetWrites {r₀ : State} (s : State) (unit16 : BitVec 16) (row : Option (Nat × Nat)) (a : Nat) (len : Nat) (h₀ : Kept r₀ s) : Kept r₀ (meetWrites s unit16 row a len).1 := by
  unfold meetWrites
  try dsimp only
  repeat' first
    | with_reducible assumption
    | with_reducible apply kept_setPieces
    | with_reducible apply Kept.ite
    | with_reducible apply Kept.ite_fst
    | (first | intro _ _ _ _ _ _ _ | intro _ _ _ _ _ _ | intro _ _ _ _ _ | intro _ _ _ _ | intro _ _ _)
    | split
    | ((with_reducible refine Kept.mk_ _ _ _ _ _ _ _ _ _ _ _ _ _ _ _ _ _ _ _ _ _ _ _ _ _ _ _ _ _ _ _ _ _ _ _ _ _ _ _ _ _ _ _ ?_ rfl rfl rfl rfl rfl rfl rfl rfl rfl rfl (by first | exact Nat.le_refl _ | exact Nat.le_succ _ | exact Nat.le_add_right _ _ | omega) rfl (by first | exact Nat.le_refl _ | exact Nat.le_succ _ | omega)); (first | with_reducible assumption | with_reducible apply kept_setPieces | with_reducible apply Kept.ite | with_reducible apply Kept.ite_fst | split))

theorem kept_enterWrite {r₀ : State} (s : State) (x : Piece) (h₀ : Kept r₀ s) : Kept r₀ (enterWrite s x) := by
  unfold enterWrite
  try dsimp only
  repeat' first
    | with_reducible assumption
    | with_reducible apply kept_hbmWrite
    | with_reducible apply kept_undefineAll
    | with_reducible apply kept_meetWrites
    | with_reducible apply Kept.ite
    | (first | intro _ _ _ _ _ _ _ | intro _ _ _ _ _ _ | intro _ _ _ _ _ | intro _ _ _ _ | intro _ _ _)
    | ((with_reducible refine Kept.mk_ _ _ _ _ _ _ _ _ _ _ _ _ _ _ _ _ _ _ _ _ _ _ _ _ _ _ _ _ _ _ _ _ _ _ _ _ _ _ _ _ _ _ _ ?_ rfl rfl rfl rfl rfl rfl rfl rfl rfl rfl (by first | exact Nat.le_refl _ | exact Nat.le_succ _ | exact Nat.le_add_right _ _ | omega) rfl (by first | exact Nat.le_refl _ | exact Nat.le_succ _ | omega)); (first | with_reducible assumption | with_reducible apply kept_hbmWrite | with_reducible apply kept_undefineAll | with_reducible apply kept_meetWrites | with_reducible apply Kept.ite))

theorem kept_enterBank {r₀ : State} (s : State) (x : Piece) (h₀ : Kept r₀ s) : Kept r₀ (enterBank s x) := by
  unfold enterBank
  try dsimp only
  repeat' first
    | with_reducible assumption
    | with_reducible apply kept_movePiece
    | with_reducible apply kept_enterWrite
    | with_reducible apply Kept.ite
    | (first | intro _ _ _ _ _ _ _ | intro _ _ _ _ _ _ | intro _ _ _ _ _ | intro _ _ _ _ | intro _ _ _)
    | ((with_reducible refine Kept.mk_ _ _ _ _ _ _ _ _ _ _ _ _ _ _ _ _ _ _ _ _ _ _ _ _ _ _ _ _ _ _ _ _ _ _ _ _ _ _ _ _ _ _ _ ?_ rfl rfl rfl rfl rfl rfl rfl rfl rfl rfl (by first | exact Nat.le_refl _ | exact Nat.le_succ _ | exact Nat.le_add_right _ _ | omega) rfl (by first | exact Nat.le_refl _ | exact Nat.le_succ _ | omega)); (first | with_reducible assumption | with_reducible apply kept_movePiece | with_reducible apply kept_enterWrite | with_reducible apply Kept.ite))

theorem kept_arbitrate {r₀ : State} : ∀ (fuel : Nat) (s : State), Kept r₀ s → Kept r₀ (arbitrate fuel s)
  | 0, _, h => h
  | fuel + 1, s, h => by
    unfold arbitrate
    split
    · exact kept_arbitrate fuel _ (kept_enterBank _ _ h)
    · exact h

theorem kept_routePieces {r₀ : State} (s : State) (h₀ : Kept r₀ s) : Kept r₀ (routePieces s) := by
  unfold routePieces
  try dsimp only
  repeat' first
    | with_reducible assumption
    | with_reducible apply kept_crossbar
    | with_reducible apply kept_arbitrate
    | with_reducible apply Kept.ite
    | (first | intro _ _ _ _ _ _ _ | intro _ _ _ _ _ _ | intro _ _ _ _ _ | intro _ _ _ _ | intro _ _ _)
    | ((with_reducible refine Kept.mk_ _ _ _ _ _ _ _ _ _ _ _ _ _ _ _ _ _ _ _ _ _ _ _ _ _ _ _ _ _ _ _ _ _ _ _ _ _ _ _ _ _ _ _ ?_ rfl rfl rfl rfl rfl rfl rfl rfl rfl rfl (by first | exact Nat.le_refl _ | exact Nat.le_succ _ | exact Nat.le_add_right _ _ | omega) rfl (by first | exact Nat.le_refl _ | exact Nat.le_succ _ | omega)); (first | with_reducible assumption | with_reducible apply kept_crossbar | with_reducible apply kept_arbitrate | with_reducible apply Kept.ite))

theorem kept_grantPiece {r₀ : State} (s : State) (c : Nat) (x : Piece) (other : Bool) (h₀ : Kept r₀ s) : Kept r₀ (grantPiece s c x other) := by
  unfold grantPiece
  try dsimp only
  repeat' first
    | with_reducible assumption
    | with_reducible apply kept_movePiece
    | with_reducible apply Kept.ite
    | (first | intro _ _ _ _ _ _ _ | intro _ _ _ _ _ _ | intro _ _ _ _ _ | intro _ _ _ _ | intro _ _ _)
    | ((with_reducible refine Kept.mk_ _ _ _ _ _ _ _ _ _ _ _ _ _ _ _ _ _ _ _ _ _ _ _ _ _ _ _ _ _ _ _ _ _ _ _ _ _ _ _ _ _ _ _ ?_ rfl rfl rfl rfl rfl rfl rfl rfl rfl rfl (by first | exact Nat.le_refl _ | exact Nat.le_succ _ | exact Nat.le_add_right _ _ | omega) rfl (by first | exact Nat.le_refl _ | exact Nat.le_succ _ | omega)); (first | with_reducible assumption | with_reducible apply kept_movePiece | with_reducible apply Kept.ite))

theorem kept_turnChannel {r₀ : State} (s : State) (c : Nat) (h₀ : Kept r₀ s) : Kept r₀ (turnChannel s c) := by
  unfold turnChannel
  try dsimp only
  repeat' first
    | with_reducible assumption
    | with_reducible apply Kept.ite
    | (first | intro _ _ _ _ _ _ _ | intro _ _ _ _ _ _ | intro _ _ _ _ _ | intro _ _ _ _ | intro _ _ _)
    | ((with_reducible refine Kept.mk_ _ _ _ _ _ _ _ _ _ _ _ _ _ _ _ _ _ _ _ _ _ _ _ _ _ _ _ _ _ _ _ _ _ _ _ _ _ _ _ _ _ _ _ ?_ rfl rfl rfl rfl rfl rfl rfl rfl rfl rfl (by first | exact Nat.le_refl _ | exact Nat.le_succ _ | exact Nat.le_add_right _ _ | omega) rfl (by first | exact Nat.le_refl _ | exact Nat.le_succ _ | omega)); (first | with_reducible assumption | with_reducible apply Kept.ite))

theorem kept_serveChannel {r₀ : State} (s : State) (c : Nat) (h₀ : Kept r₀ s) : Kept r₀ (serveChannel s c) := by
  unfold serveChannel
  try dsimp only
  repeat' first
    | with_reducible assumption
    | with_reducible apply kept_grantPiece
    | with_reducible apply kept_turnChannel
    | with_reducible apply Kept.ite
    | (first | intro _ _ _ _ _ _ _ | intro _ _ _ _ _ _ | intro _ _ _ _ _ | intro _ _ _ _ | intro _ _ _)
    | split
    | ((with_reducible refine Kept.mk_ _ _ _ _ _ _ _ _ _ _ _ _ _ _ _ _ _ _ _ _ _ _ _ _ _ _ _ _ _ _ _ _ _ _ _ _ _ _ _ _ _ _ _ ?_ rfl rfl rfl rfl rfl rfl rfl rfl rfl rfl (by first | exact Nat.le_refl _ | exact Nat.le_succ _ | exact Nat.le_add_right _ _ | omega) rfl (by first | exact Nat.le_refl _ | exact Nat.le_succ _ | omega)); (first | with_reducible assumption | with_reducible apply kept_grantPiece | with_reducible apply kept_turnChannel | with_reducible apply Kept.ite | split))

theorem kept_fabricTick {r₀ : State} (s : State) (h₀ : Kept r₀ s) : Kept r₀ (fabricTick s) := by
  unfold fabricTick
  try dsimp only
  repeat' first
    | with_reducible assumption
    | with_reducible apply kept_setPieces
    | with_reducible apply kept_routePieces
    | with_reducible apply kept_serveChannel
    | with_reducible apply Kept.ite
    | with_reducible apply Kept.foldl
    | with_reducible apply Kept.foldl_fst
    | with_reducible apply Kept.foldl_snd
    | (first | intro _ _ _ _ _ _ _ | intro _ _ _ _ _ _ | intro _ _ _ _ _ | intro _ _ _ _ | intro _ _ _)
    | ((with_reducible refine Kept.mk_ _ _ _ _ _ _ _ _ _ _ _ _ _ _ _ _ _ _ _ _ _ _ _ _ _ _ _ _ _ _ _ _ _ _ _ _ _ _ _ _ _ _ _ ?_ rfl rfl rfl rfl rfl rfl rfl rfl rfl rfl (by first | exact Nat.le_refl _ | exact Nat.le_succ _ | exact Nat.le_add_right _ _ | omega) rfl (by first | exact Nat.le_refl _ | exact Nat.le_succ _ | omega)); (first | with_reducible assumption | with_reducible apply kept_setPieces | with_reducible apply kept_routePieces | with_reducible apply kept_serveChannel | with_reducible apply Kept.ite | with_reducible apply Kept.foldl | with_reducible apply Kept.foldl_fst | with_reducible apply Kept.foldl_snd))

theorem kept_maskTrk {r₀ : State} (s : State) (p : Trk → Bool) (h₀ : Kept r₀ s) : Kept r₀ (maskTrk s p) := by
  unfold maskTrk
  try dsimp only
  repeat' first
    | with_reducible assumption
    | with_reducible apply kept_setPieces
    | with_reducible apply Kept.ite
    | (first | intro _ _ _ _ _ _ _ | intro _ _ _ _ _ _ | intro _ _ _ _ _ | intro _ _ _ _ | intro _ _ _)
    | ((with_reducible refine Kept.mk_ _ _ _ _ _ _ _ _ _ _ _ _ _ _ _ _ _ _ _ _ _ _ _ _ _ _ _ _ _ _ _ _ _ _ _ _ _ _ _ _ _ _ _ ?_ rfl rfl rfl rfl rfl rfl rfl rfl rfl rfl (by first | exact Nat.le_refl _ | exact Nat.le_succ _ | exact Nat.le_add_right _ _ | omega) rfl (by first | exact Nat.le_refl _ | exact Nat.le_succ _ | omega)); (first | with_reducible assumption | with_reducible apply kept_setPieces | with_reducible apply Kept.ite))

theorem kept_raiseReq {r₀ : State} (s : State) (w : Requester) (level : Nat) (unit : Nat) (code : Nat) (detail : Nat) (h₀ : Kept r₀ s) : Kept r₀ (raiseReq s w level unit code detail) := by
  unfold raiseReq
  try dsimp only
  repeat' first
    | with_reducible assumption
    | with_reducible apply kept_raise
    | with_reducible apply Kept.ite
    | (first | intro _ _ _ _ _ _ _ | intro _ _ _ _ _ _ | intro _ _ _ _ _ | intro _ _ _ _ | intro _ _ _)
    | ((with_reducible refine Kept.mk_ _ _ _ _ _ _ _ _ _ _ _ _ _ _ _ _ _ _ _ _ _ _ _ _ _ _ _ _ _ _ _ _ _ _ _ _ _ _ _ _ _ _ _ ?_ rfl rfl rfl rfl rfl rfl rfl rfl rfl rfl (by first | exact Nat.le_refl _ | exact Nat.le_succ _ | exact Nat.le_add_right _ _ | omega) rfl (by first | exact Nat.le_refl _ | exact Nat.le_succ _ | omega)); (first | with_reducible assumption | with_reducible apply kept_raise | with_reducible apply Kept.ite))

theorem kept_corrBlock {r₀ : State} (w : Requester) (s : State) (a : Nat) (h₀ : Kept r₀ s) : Kept r₀ (corrBlock w s a) := by
  unfold corrBlock
  try dsimp only
  repeat' first
    | with_reducible assumption
    | with_reducible apply kept_setStack
    | with_reducible apply kept_raiseReq
    | with_reducible apply Kept.ite
    | (first | intro _ _ _ _ _ _ _ | intro _ _ _ _ _ _ | intro _ _ _ _ _ | intro _ _ _ _ | intro _ _ _)
    | split
    | ((with_reducible refine Kept.mk_ _ _ _ _ _ _ _ _ _ _ _ _ _ _ _ _ _ _ _ _ _ _ _ _ _ _ _ _ _ _ _ _ _ _ _ _ _ _ _ _ _ _ _ ?_ rfl rfl rfl rfl rfl rfl rfl rfl rfl rfl (by first | exact Nat.le_refl _ | exact Nat.le_succ _ | exact Nat.le_add_right _ _ | omega) rfl (by first | exact Nat.le_refl _ | exact Nat.le_succ _ | omega)); (first | with_reducible assumption | with_reducible apply kept_setStack | with_reducible apply kept_raiseReq | with_reducible apply Kept.ite | split))

theorem kept_uncorrBlock {r₀ : State} (w : Requester) (s : State) (a : Nat) (h₀ : Kept r₀ s) : Kept r₀ (uncorrBlock w s a) := by
  unfold uncorrBlock
  try dsimp only
  repeat' first
    | with_reducible assumption
    | with_reducible apply kept_setStack
    | with_reducible apply kept_raiseReq
    | with_reducible apply Kept.ite
    | (first | intro _ _ _ _ _ _ _ | intro _ _ _ _ _ _ | intro _ _ _ _ _ | intro _ _ _ _ | intro _ _ _)
    | ((with_reducible refine Kept.mk_ _ _ _ _ _ _ _ _ _ _ _ _ _ _ _ _ _ _ _ _ _ _ _ _ _ _ _ _ _ _ _ _ _ _ _ _ _ _ _ _ _ _ _ ?_ rfl rfl rfl rfl rfl rfl rfl rfl rfl rfl (by first | exact Nat.le_refl _ | exact Nat.le_succ _ | exact Nat.le_add_right _ _ | omega) rfl (by first | exact Nat.le_refl _ | exact Nat.le_succ _ | omega)); (first | with_reducible assumption | with_reducible apply kept_setStack | with_reducible apply kept_raiseReq | with_reducible apply Kept.ite))

theorem kept_odeccAdd {r₀ : State} (s : State) (a : Nat) (n : Nat) (h₀ : Kept r₀ s) : Kept r₀ (odeccAdd s a n) := by
  unfold odeccAdd
  try dsimp only
  repeat' first
    | with_reducible assumption
    | with_reducible apply kept_setStack
    | with_reducible apply Kept.ite
    | (first | intro _ _ _ _ _ _ _ | intro _ _ _ _ _ _ | intro _ _ _ _ _ | intro _ _ _ _ | intro _ _ _)
    | ((with_reducible refine Kept.mk_ _ _ _ _ _ _ _ _ _ _ _ _ _ _ _ _ _ _ _ _ _ _ _ _ _ _ _ _ _ _ _ _ _ _ _ _ _ _ _ _ _ _ _ ?_ rfl rfl rfl rfl rfl rfl rfl rfl rfl rfl (by first | exact Nat.le_refl _ | exact Nat.le_succ _ | exact Nat.le_add_right _ _ | omega) rfl (by first | exact Nat.le_refl _ | exact Nat.le_succ _ | omega)); (first | with_reducible assumption | with_reducible apply kept_setStack | with_reducible apply Kept.ite))

theorem kept_writeBack {r₀ : State} (s : State) (b : Nat) (data : List Byte) (h₀ : Kept r₀ s) : Kept r₀ (writeBack s b data) := by
  unfold writeBack
  apply Kept.ite h₀
  exact Kept.hbm h₀ _ _ (fun w => wf_writeBytes _ _ _ w) rfl

theorem kept_blockRead {r₀ : State} (w : Requester) (s : State) (e : BlockErr) (h₀ : Kept r₀ s) : Kept r₀ (blockRead w s e).1 := by
  unfold blockRead
  try dsimp only
  repeat' first
    | with_reducible assumption
    | with_reducible apply kept_corrBlock
    | with_reducible apply kept_uncorrBlock
    | with_reducible apply kept_writeBack
    | with_reducible apply Kept.ite
    | with_reducible apply Kept.ite_fst
    | (first | intro _ _ _ _ _ _ _ | intro _ _ _ _ _ _ | intro _ _ _ _ _ | intro _ _ _ _ | intro _ _ _)
    | split
    | ((with_reducible refine Kept.mk_ _ _ _ _ _ _ _ _ _ _ _ _ _ _ _ _ _ _ _ _ _ _ _ _ _ _ _ _ _ _ _ _ _ _ _ _ _ _ _ _ _ _ _ ?_ rfl rfl rfl rfl rfl rfl rfl rfl rfl rfl (by first | exact Nat.le_refl _ | exact Nat.le_succ _ | exact Nat.le_add_right _ _ | omega) rfl (by first | exact Nat.le_refl _ | exact Nat.le_succ _ | omega)); (first | with_reducible assumption | with_reducible apply kept_corrBlock | with_reducible apply kept_uncorrBlock | with_reducible apply kept_writeBack | with_reducible apply Kept.ite | with_reducible apply Kept.ite_fst | split))

theorem kept_readErrors {r₀ : State} (w : Requester) (errs : List BlockErr) (a : Nat) (len : Nat) (s : State) (h₀ : Kept r₀ s) : Kept r₀ (readErrors w errs a len s).1 := by
  unfold readErrors
  try dsimp only
  repeat' first
    | with_reducible assumption
    | with_reducible apply kept_blockRead
    | with_reducible apply Kept.ite
    | with_reducible apply Kept.foldl
    | with_reducible apply Kept.foldl_fst
    | with_reducible apply Kept.foldl_snd
    | (first | intro _ _ _ _ _ _ _ | intro _ _ _ _ _ _ | intro _ _ _ _ _ | intro _ _ _ _ | intro _ _ _)
    | ((with_reducible refine Kept.mk_ _ _ _ _ _ _ _ _ _ _ _ _ _ _ _ _ _ _ _ _ _ _ _ _ _ _ _ _ _ _ _ _ _ _ _ _ _ _ _ _ _ _ _ ?_ rfl rfl rfl rfl rfl rfl rfl rfl rfl rfl (by first | exact Nat.le_refl _ | exact Nat.le_succ _ | exact Nat.le_add_right _ _ | omega) rfl (by first | exact Nat.le_refl _ | exact Nat.le_succ _ | omega)); (first | with_reducible assumption | with_reducible apply kept_blockRead | with_reducible apply Kept.ite | with_reducible apply Kept.foldl | with_reducible apply Kept.foldl_fst | with_reducible apply Kept.foldl_snd))

theorem kept_readFound {r₀ : State} (s : State) (w : Requester) (a : Nat) (len : Nat) (mem : HbmOutcome) (h₀ : Kept r₀ s) : Kept r₀ (readFound s w a len mem).1 := by
  unfold readFound
  try dsimp only
  repeat' first
    | with_reducible assumption
    | with_reducible apply kept_raiseReq
    | with_reducible apply kept_odeccAdd
    | with_reducible apply kept_readErrors
    | with_reducible apply Kept.ite
    | with_reducible apply Kept.ite_fst
    | (first | intro _ _ _ _ _ _ _ | intro _ _ _ _ _ _ | intro _ _ _ _ _ | intro _ _ _ _ | intro _ _ _)
    | split
    | ((with_reducible refine Kept.mk_ _ _ _ _ _ _ _ _ _ _ _ _ _ _ _ _ _ _ _ _ _ _ _ _ _ _ _ _ _ _ _ _ _ _ _ _ _ _ _ _ _ _ _ ?_ rfl rfl rfl rfl rfl rfl rfl rfl rfl rfl (by first | exact Nat.le_refl _ | exact Nat.le_succ _ | exact Nat.le_add_right _ _ | omega) rfl (by first | exact Nat.le_refl _ | exact Nat.le_succ _ | omega)); (first | with_reducible assumption | with_reducible apply kept_raiseReq | with_reducible apply kept_odeccAdd | with_reducible apply kept_readErrors | with_reducible apply Kept.ite | with_reducible apply Kept.ite_fst | split))

theorem kept_readAllowed {r₀ : State} (s : State) (w : Requester) (a : Nat) (len : Nat) (mem : HbmOutcome) (h₀ : Kept r₀ s) : Kept r₀ (readAllowed s w a len mem).1 := by
  unfold readAllowed
  try dsimp only
  repeat' first
    | with_reducible assumption
    | with_reducible apply kept_raiseReq
    | with_reducible apply kept_readFound
    | with_reducible apply Kept.ite
    | with_reducible apply Kept.ite_fst
    | (first | intro _ _ _ _ _ _ _ | intro _ _ _ _ _ _ | intro _ _ _ _ _ | intro _ _ _ _ | intro _ _ _)
    | split
    | ((with_reducible refine Kept.mk_ _ _ _ _ _ _ _ _ _ _ _ _ _ _ _ _ _ _ _ _ _ _ _ _ _ _ _ _ _ _ _ _ _ _ _ _ _ _ _ _ _ _ _ ?_ rfl rfl rfl rfl rfl rfl rfl rfl rfl rfl (by first | exact Nat.le_refl _ | exact Nat.le_succ _ | exact Nat.le_add_right _ _ | omega) rfl (by first | exact Nat.le_refl _ | exact Nat.le_succ _ | omega)); (first | with_reducible assumption | with_reducible apply kept_raiseReq | with_reducible apply kept_readFound | with_reducible apply Kept.ite | with_reducible apply Kept.ite_fst | split))

theorem kept_stepRead {r₀ : State} (s : State) (w : Requester) (b : Nat) (a : Nat) (len : Nat) (mem : HbmOutcome) (h₀ : Kept r₀ s) : Kept r₀ (stepRead s w b a len mem).1 := by
  unfold stepRead
  try dsimp only
  repeat' first
    | with_reducible assumption
    | with_reducible apply kept_raiseReq
    | with_reducible apply kept_readAllowed
    | with_reducible apply Kept.ite
    | (first | intro _ _ _ _ _ _ _ | intro _ _ _ _ _ _ | intro _ _ _ _ _ | intro _ _ _ _ | intro _ _ _)
    | split
    | ((with_reducible refine Kept.mk_ _ _ _ _ _ _ _ _ _ _ _ _ _ _ _ _ _ _ _ _ _ _ _ _ _ _ _ _ _ _ _ _ _ _ _ _ _ _ _ _ _ _ _ ?_ rfl rfl rfl rfl rfl rfl rfl rfl rfl rfl (by first | exact Nat.le_refl _ | exact Nat.le_succ _ | exact Nat.le_add_right _ _ | omega) rfl (by first | exact Nat.le_refl _ | exact Nat.le_succ _ | omega)); (first | with_reducible assumption | with_reducible apply kept_raiseReq | with_reducible apply kept_readAllowed | with_reducible apply Kept.ite | split))

theorem kept_stepWrite {r₀ : State} (s : State) (w : Requester) (a : Nat) (data : List Byte) (late : Option Nat) (h₀ : Kept r₀ s) : Kept r₀ (stepWrite s w a data late).1 := by
  unfold stepWrite
  try dsimp only
  repeat' first
    | with_reducible assumption
    | with_reducible apply kept_hbmWrite
    | with_reducible apply kept_hbmUndefine
    | with_reducible apply kept_undefineAll
    | with_reducible apply kept_meetWrites
    | with_reducible apply kept_raiseReq
    | with_reducible apply Kept.ite
    | (first | intro _ _ _ _ _ _ _ | intro _ _ _ _ _ _ | intro _ _ _ _ _ | intro _ _ _ _ | intro _ _ _)
    | split
    | ((with_reducible refine Kept.mk_ _ _ _ _ _ _ _ _ _ _ _ _ _ _ _ _ _ _ _ _ _ _ _ _ _ _ _ _ _ _ _ _ _ _ _ _ _ _ _ _ _ _ _ ?_ rfl rfl rfl rfl rfl rfl rfl rfl rfl rfl (by first | exact Nat.le_refl _ | exact Nat.le_succ _ | exact Nat.le_add_right _ _ | omega) rfl (by first | exact Nat.le_refl _ | exact Nat.le_succ _ | omega)); (first | with_reducible assumption | with_reducible apply kept_hbmWrite | with_reducible apply kept_hbmUndefine | with_reducible apply kept_undefineAll | with_reducible apply kept_meetWrites | with_reducible apply kept_raiseReq | with_reducible apply Kept.ite | split))

end Sys2Proof.Laws
end

