-- ==== Sys2Proof/Laws/KeptOperands.lean ====
section
/-! SUPPORT. What each operation of Machine/Operands.lean keeps. -/

namespace Sys2Proof.Laws

set_option linter.all false

open Sys2Proof.Machine Sys2Proof.Safety

theorem kept_putBuf {r₀ : State} (s : State) (d : Nat) (h : Bool) (lo : Nat) (hi : Nat) (m : Mem) (h₀ : Kept r₀ s) : Kept r₀ (putBuf s d h lo hi m) := by
  unfold putBuf
  try dsimp only
  repeat' first
    | with_reducible assumption
    | with_reducible apply kept_setDeck
    | with_reducible apply Kept.ite
    | (first | intro _ _ _ _ _ _ _ | intro _ _ _ _ _ _ | intro _ _ _ _ _ | intro _ _ _ _ | intro _ _ _)
    | ((with_reducible refine Kept.mk_ _ _ _ _ _ _ _ _ _ _ _ _ _ _ _ _ _ _ _ _ _ _ _ _ _ _ _ _ _ _ _ _ _ _ _ _ _ _ _ _ _ _ _ ?_ rfl rfl rfl rfl rfl rfl rfl rfl rfl rfl (by first | exact Nat.le_refl _ | exact Nat.le_succ _ | exact Nat.le_add_right _ _ | omega) rfl (by first | exact Nat.le_refl _ | exact Nat.le_succ _ | omega)); (first | with_reducible assumption | with_reducible apply kept_setDeck | with_reducible apply Kept.ite))

theorem kept_takeCursors {r₀ : State} (s : State) (d : Nat) (n : Nat) (t : TileReg) (e : Extent) (zmap : Bool) (h₀ : Kept r₀ s) : Kept r₀ (takeCursors s d n t e zmap).1 := by
  unfold takeCursors
  try dsimp only
  repeat' first
    | with_reducible assumption
    | with_reducible apply kept_setDeck
    | with_reducible apply Kept.ite
    | with_reducible apply Kept.ite_fst
    | (first | intro _ _ _ _ _ _ _ | intro _ _ _ _ _ _ | intro _ _ _ _ _ | intro _ _ _ _ | intro _ _ _)
    | split
    | ((with_reducible refine Kept.mk_ _ _ _ _ _ _ _ _ _ _ _ _ _ _ _ _ _ _ _ _ _ _ _ _ _ _ _ _ _ _ _ _ _ _ _ _ _ _ _ _ _ _ _ ?_ rfl rfl rfl rfl rfl rfl rfl rfl rfl rfl (by first | exact Nat.le_refl _ | exact Nat.le_succ _ | exact Nat.le_add_right _ _ | omega) rfl (by first | exact Nat.le_refl _ | exact Nat.le_succ _ | omega)); (first | with_reducible assumption | with_reducible apply kept_setDeck | with_reducible apply Kept.ite | with_reducible apply Kept.ite_fst | split))

theorem kept_raiseShape {r₀ : State} (s : State) (code : Nat) (q : Nat) (c : Nat) (b : Nat) (m : QCmd) (deck : Option Nat) (h₀ : Kept r₀ s) : Kept r₀ (raiseShape s code q c b m deck) := by
  unfold raiseShape
  try dsimp only
  repeat' first
    | with_reducible assumption
    | with_reducible apply kept_raiseBerth
    | with_reducible apply Kept.ite
    | (first | intro _ _ _ _ _ _ _ | intro _ _ _ _ _ _ | intro _ _ _ _ _ | intro _ _ _ _ | intro _ _ _)
    | split
    | ((with_reducible refine Kept.mk_ _ _ _ _ _ _ _ _ _ _ _ _ _ _ _ _ _ _ _ _ _ _ _ _ _ _ _ _ _ _ _ _ _ _ _ _ _ _ _ _ _ _ _ ?_ rfl rfl rfl rfl rfl rfl rfl rfl rfl rfl (by first | exact Nat.le_refl _ | exact Nat.le_succ _ | exact Nat.le_add_right _ _ | omega) rfl (by first | exact Nat.le_refl _ | exact Nat.le_succ _ | omega)); (first | with_reducible assumption | with_reducible apply kept_raiseBerth | with_reducible apply Kept.ite | split))

end Sys2Proof.Laws
end

