-- ==== Sys2Proof/Laws/KeptFlags.lean ====
section
/-! SUPPORT. What each operation of Machine/Flags.lean keeps. -/

namespace Sys2Proof.Laws

set_option linter.all false

open Sys2Proof.Machine Sys2Proof.Safety

theorem kept_flagPut {r₀ : State} (s : State) (k : FlagKey) (v : Nat) (h₀ : Kept r₀ s) : Kept r₀ (flagPut s k v) := by
  unfold flagPut
  try dsimp only
  repeat' first
    | with_reducible assumption
    | with_reducible apply Kept.ite
    | (first | intro _ _ _ _ _ _ _ | intro _ _ _ _ _ _ | intro _ _ _ _ _ | intro _ _ _ _ | intro _ _ _)
    | split
    | ((with_reducible refine Kept.mk_ _ _ _ _ _ _ _ _ _ _ _ _ _ _ _ _ _ _ _ _ _ _ _ _ _ _ _ _ _ _ _ _ _ _ _ _ _ _ _ _ _ _ _ ?_ rfl rfl rfl rfl rfl rfl rfl rfl rfl rfl (by first | exact Nat.le_refl _ | exact Nat.le_succ _ | exact Nat.le_add_right _ _ | omega) rfl (by first | exact Nat.le_refl _ | exact Nat.le_succ _ | omega)); (first | with_reducible assumption | with_reducible apply Kept.ite | split))

theorem kept_waitSucceeds {r₀ : State} (s : State) (q : Nat) (c : Nat) (atHead : Bool) (h₀ : Kept r₀ s) : Kept r₀ (waitSucceeds s q c atHead) := by
  unfold waitSucceeds
  try dsimp only
  repeat' first
    | with_reducible assumption
    | with_reducible apply kept_setCtx
    | with_reducible apply Kept.ite
    | (first | intro _ _ _ _ _ _ _ | intro _ _ _ _ _ _ | intro _ _ _ _ _ | intro _ _ _ _ | intro _ _ _)
    | split
    | ((with_reducible refine Kept.mk_ _ _ _ _ _ _ _ _ _ _ _ _ _ _ _ _ _ _ _ _ _ _ _ _ _ _ _ _ _ _ _ _ _ _ _ _ _ _ _ _ _ _ _ ?_ rfl rfl rfl rfl rfl rfl rfl rfl rfl rfl (by first | exact Nat.le_refl _ | exact Nat.le_succ _ | exact Nat.le_add_right _ _ | omega) rfl (by first | exact Nat.le_refl _ | exact Nat.le_succ _ | omega)); (first | with_reducible assumption | with_reducible apply kept_setCtx | with_reducible apply Kept.ite | split))

theorem kept_testList {r₀ : State} (k : FlagKey) (l : List Wait) : ∀ (s : State), Kept r₀ s → Kept r₀ (testList s k l).1 := by
  induction l with
  | nil => exact fun s h => h
  | cons w l ih =>
    intro s h
    simp only [testList]
    split
    · exact ih _ (kept_waitSucceeds _ _ _ _ (kept_flagPut _ _ _ h))
    · exact ih _ h

theorem kept_testWaits {r₀ : State} (s : State) (k : FlagKey) (h : Kept r₀ s) : Kept r₀ (testWaits s k) :=
  Kept.upd (kept_testList k s.waits s h) rfl rfl rfl rfl rfl rfl rfl rfl rfl rfl (Nat.le_refl _)

theorem kept_flagAdd {r₀ : State} (s : State) (q : Nat) (c : Nat) (b : Nat) (field : Nat) (n : Nat) (h₀ : Kept r₀ s) : Kept r₀ (flagAdd s q c b field n) := by
  unfold flagAdd
  try dsimp only
  repeat' first
    | with_reducible assumption
    | with_reducible apply kept_raiseBerth
    | with_reducible apply kept_flagPut
    | with_reducible apply kept_testWaits
    | with_reducible apply Kept.ite
    | (first | intro _ _ _ _ _ _ _ | intro _ _ _ _ _ _ | intro _ _ _ _ _ | intro _ _ _ _ | intro _ _ _)
    | split
    | ((with_reducible refine Kept.mk_ _ _ _ _ _ _ _ _ _ _ _ _ _ _ _ _ _ _ _ _ _ _ _ _ _ _ _ _ _ _ _ _ _ _ _ _ _ _ _ _ _ _ _ ?_ rfl rfl rfl rfl rfl rfl rfl rfl rfl rfl (by first | exact Nat.le_refl _ | exact Nat.le_succ _ | exact Nat.le_add_right _ _ | omega) rfl (by first | exact Nat.le_refl _ | exact Nat.le_succ _ | omega)); (first | with_reducible assumption | with_reducible apply kept_raiseBerth | with_reducible apply kept_flagPut | with_reducible apply kept_testWaits | with_reducible apply Kept.ite | split))

theorem kept_flagSet {r₀ : State} (s : State) (q : Nat) (b : Nat) (field : Nat) (n : Nat) (h₀ : Kept r₀ s) : Kept r₀ (flagSet s q b field n) := by
  unfold flagSet
  try dsimp only
  repeat' first
    | with_reducible assumption
    | with_reducible apply kept_flagPut
    | with_reducible apply kept_testWaits
    | with_reducible apply Kept.ite
    | (first | intro _ _ _ _ _ _ _ | intro _ _ _ _ _ _ | intro _ _ _ _ _ | intro _ _ _ _ | intro _ _ _)
    | split
    | ((with_reducible refine Kept.mk_ _ _ _ _ _ _ _ _ _ _ _ _ _ _ _ _ _ _ _ _ _ _ _ _ _ _ _ _ _ _ _ _ _ _ _ _ _ _ _ _ _ _ _ ?_ rfl rfl rfl rfl rfl rfl rfl rfl rfl rfl (by first | exact Nat.le_refl _ | exact Nat.le_succ _ | exact Nat.le_add_right _ _ | omega) rfl (by first | exact Nat.le_refl _ | exact Nat.le_succ _ | omega)); (first | with_reducible assumption | with_reducible apply kept_flagPut | with_reducible apply kept_testWaits | with_reducible apply Kept.ite | split))

theorem kept_sflagUp {r₀ : State} (s : State) (q : Nat) (c : Nat) (b : Nat) (w : BitVec 256) (h₀ : Kept r₀ s) : Kept r₀ (sflagUp s q c b w) := by
  unfold sflagUp
  try dsimp only
  repeat' first
    | with_reducible assumption
    | with_reducible apply kept_flagAdd
    | with_reducible apply Kept.ite
    | (first | intro _ _ _ _ _ _ _ | intro _ _ _ _ _ _ | intro _ _ _ _ _ | intro _ _ _ _ | intro _ _ _)
    | ((with_reducible refine Kept.mk_ _ _ _ _ _ _ _ _ _ _ _ _ _ _ _ _ _ _ _ _ _ _ _ _ _ _ _ _ _ _ _ _ _ _ _ _ _ _ _ _ _ _ _ ?_ rfl rfl rfl rfl rfl rfl rfl rfl rfl rfl (by first | exact Nat.le_refl _ | exact Nat.le_succ _ | exact Nat.le_add_right _ _ | omega) rfl (by first | exact Nat.le_refl _ | exact Nat.le_succ _ | omega)); (first | with_reducible assumption | with_reducible apply kept_flagAdd | with_reducible apply Kept.ite))

theorem kept_waitBegin {r₀ : State} (s : State) (q : Nat) (c : Nat) (b : Nat) (atHead : Bool) (w : BitVec 256) (h₀ : Kept r₀ s) : Kept r₀ (waitBegin s q c b atHead w) := by
  unfold waitBegin
  try dsimp only
  repeat' first
    | with_reducible assumption
    | with_reducible apply kept_flagPut
    | with_reducible apply kept_waitSucceeds
    | with_reducible apply kept_testWaits
    | with_reducible apply Kept.ite
    | (first | intro _ _ _ _ _ _ _ | intro _ _ _ _ _ _ | intro _ _ _ _ _ | intro _ _ _ _ | intro _ _ _)
    | split
    | ((with_reducible refine Kept.mk_ _ _ _ _ _ _ _ _ _ _ _ _ _ _ _ _ _ _ _ _ _ _ _ _ _ _ _ _ _ _ _ _ _ _ _ _ _ _ _ _ _ _ _ ?_ rfl rfl rfl rfl rfl rfl rfl rfl rfl rfl (by first | exact Nat.le_refl _ | exact Nat.le_succ _ | exact Nat.le_add_right _ _ | omega) rfl (by first | exact Nat.le_refl _ | exact Nat.le_succ _ | omega)); (first | with_reducible assumption | with_reducible apply kept_flagPut | with_reducible apply kept_waitSucceeds | with_reducible apply kept_testWaits | with_reducible apply Kept.ite | split))

theorem kept_headBegin {r₀ : State} (s : State) (q : Nat) (c : Nat) (h₀ : Kept r₀ s) : Kept r₀ (headBegin s q c) := by
  unfold headBegin
  try dsimp only
  repeat' first
    | with_reducible assumption
    | with_reducible apply kept_setCtx
    | with_reducible apply kept_waitBegin
    | with_reducible apply Kept.ite
    | (first | intro _ _ _ _ _ _ _ | intro _ _ _ _ _ _ | intro _ _ _ _ _ | intro _ _ _ _ | intro _ _ _)
    | split
    | ((with_reducible refine Kept.mk_ _ _ _ _ _ _ _ _ _ _ _ _ _ _ _ _ _ _ _ _ _ _ _ _ _ _ _ _ _ _ _ _ _ _ _ _ _ _ _ _ _ _ _ ?_ rfl rfl rfl rfl rfl rfl rfl rfl rfl rfl (by first | exact Nat.le_refl _ | exact Nat.le_succ _ | exact Nat.le_add_right _ _ | omega) rfl (by first | exact Nat.le_refl _ | exact Nat.le_succ _ | omega)); (first | with_reducible assumption | with_reducible apply kept_setCtx | with_reducible apply kept_waitBegin | with_reducible apply Kept.ite | split))

theorem kept_popHead {r₀ : State} (s : State) (q : Nat) (c : Nat) (h₀ : Kept r₀ s) : Kept r₀ (popHead s q c) := by
  unfold popHead
  try dsimp only
  repeat' first
    | with_reducible assumption
    | with_reducible apply kept_setCtx
    | with_reducible apply kept_headBegin
    | with_reducible apply Kept.ite
    | (first | intro _ _ _ _ _ _ _ | intro _ _ _ _ _ _ | intro _ _ _ _ _ | intro _ _ _ _ | intro _ _ _)
    | ((with_reducible refine Kept.mk_ _ _ _ _ _ _ _ _ _ _ _ _ _ _ _ _ _ _ _ _ _ _ _ _ _ _ _ _ _ _ _ _ _ _ _ _ _ _ _ _ _ _ _ ?_ rfl rfl rfl rfl rfl rfl rfl rfl rfl rfl (by first | exact Nat.le_refl _ | exact Nat.le_succ _ | exact Nat.le_add_right _ _ | omega) rfl (by first | exact Nat.le_refl _ | exact Nat.le_succ _ | omega)); (first | with_reducible assumption | with_reducible apply kept_setCtx | with_reducible apply kept_headBegin | with_reducible apply Kept.ite))

theorem kept_inuseStep {r₀ : State} (up : Bool) (s : State) (u : Nat × Nat) (h₀ : Kept r₀ s) : Kept r₀ (inuseStep up s u) := by
  unfold inuseStep
  try dsimp only
  repeat' first
    | with_reducible assumption
    | with_reducible apply kept_setDeck
    | with_reducible apply Kept.ite
    | with_reducible apply Kept.ite_fst
    | (first | intro _ _ _ _ _ _ _ | intro _ _ _ _ _ _ | intro _ _ _ _ _ | intro _ _ _ _ | intro _ _ _)
    | ((with_reducible refine Kept.mk_ _ _ _ _ _ _ _ _ _ _ _ _ _ _ _ _ _ _ _ _ _ _ _ _ _ _ _ _ _ _ _ _ _ _ _ _ _ _ _ _ _ _ _ ?_ rfl rfl rfl rfl rfl rfl rfl rfl rfl rfl (by first | exact Nat.le_refl _ | exact Nat.le_succ _ | exact Nat.le_add_right _ _ | omega) rfl (by first | exact Nat.le_refl _ | exact Nat.le_succ _ | omega)); (first | with_reducible assumption | with_reducible apply kept_setDeck | with_reducible apply Kept.ite | with_reducible apply Kept.ite_fst))

theorem kept_inuseUp {r₀ : State} (s : State) (uses : List (Nat × Nat)) (h₀ : Kept r₀ s) : Kept r₀ (inuseUp s uses) := by
  unfold inuseUp
  try dsimp only
  repeat' first
    | with_reducible assumption
    | with_reducible apply kept_inuseStep
    | with_reducible apply Kept.ite
    | with_reducible apply Kept.foldl
    | with_reducible apply Kept.foldl_fst
    | with_reducible apply Kept.foldl_snd
    | (first | intro _ _ _ _ _ _ _ | intro _ _ _ _ _ _ | intro _ _ _ _ _ | intro _ _ _ _ | intro _ _ _)
    | ((with_reducible refine Kept.mk_ _ _ _ _ _ _ _ _ _ _ _ _ _ _ _ _ _ _ _ _ _ _ _ _ _ _ _ _ _ _ _ _ _ _ _ _ _ _ _ _ _ _ _ ?_ rfl rfl rfl rfl rfl rfl rfl rfl rfl rfl (by first | exact Nat.le_refl _ | exact Nat.le_succ _ | exact Nat.le_add_right _ _ | omega) rfl (by first | exact Nat.le_refl _ | exact Nat.le_succ _ | omega)); (first | with_reducible assumption | with_reducible apply kept_inuseStep | with_reducible apply Kept.ite | with_reducible apply Kept.foldl | with_reducible apply Kept.foldl_fst | with_reducible apply Kept.foldl_snd))

theorem kept_inuseDown {r₀ : State} (s : State) (uses : List (Nat × Nat)) (h₀ : Kept r₀ s) : Kept r₀ (inuseDown s uses) := by
  unfold inuseDown
  try dsimp only
  repeat' first
    | with_reducible assumption
    | with_reducible apply kept_inuseStep
    | with_reducible apply Kept.ite
    | with_reducible apply Kept.foldl
    | with_reducible apply Kept.foldl_fst
    | with_reducible apply Kept.foldl_snd
    | (first | intro _ _ _ _ _ _ _ | intro _ _ _ _ _ _ | intro _ _ _ _ _ | intro _ _ _ _ | intro _ _ _)
    | ((with_reducible refine Kept.mk_ _ _ _ _ _ _ _ _ _ _ _ _ _ _ _ _ _ _ _ _ _ _ _ _ _ _ _ _ _ _ _ _ _ _ _ _ _ _ _ _ _ _ _ ?_ rfl rfl rfl rfl rfl rfl rfl rfl rfl rfl (by first | exact Nat.le_refl _ | exact Nat.le_succ _ | exact Nat.le_add_right _ _ | omega) rfl (by first | exact Nat.le_refl _ | exact Nat.le_succ _ | omega)); (first | with_reducible assumption | with_reducible apply kept_inuseStep | with_reducible apply Kept.ite | with_reducible apply Kept.foldl | with_reducible apply Kept.foldl_fst | with_reducible apply Kept.foldl_snd))

theorem kept_setHalf {r₀ : State} (s : State) (q : Nat) (b : Nat) (h : Nat) (x : Half) (h₀ : Kept r₀ s) : Kept r₀ (setHalf s q b h x) := by
  unfold setHalf
  try dsimp only
  repeat' first
    | with_reducible assumption
    | with_reducible apply Kept.ite
    | (first | intro _ _ _ _ _ _ _ | intro _ _ _ _ _ _ | intro _ _ _ _ _ | intro _ _ _ _ | intro _ _ _)
    | ((with_reducible refine Kept.mk_ _ _ _ _ _ _ _ _ _ _ _ _ _ _ _ _ _ _ _ _ _ _ _ _ _ _ _ _ _ _ _ _ _ _ _ _ _ _ _ _ _ _ _ ?_ rfl rfl rfl rfl rfl rfl rfl rfl rfl rfl (by first | exact Nat.le_refl _ | exact Nat.le_succ _ | exact Nat.le_add_right _ _ | omega) rfl (by first | exact Nat.le_refl _ | exact Nat.le_succ _ | omega)); (first | with_reducible assumption | with_reducible apply Kept.ite))

theorem kept_halfRecord {r₀ : State} (s : State) (q : Nat) (b : Nat) (h : Nat) (h₀ : Kept r₀ s) : Kept r₀ (halfRecord s q b h) := by
  unfold halfRecord
  try dsimp only
  repeat' first
    | with_reducible assumption
    | with_reducible apply kept_emit
    | with_reducible apply Kept.ite
    | (first | intro _ _ _ _ _ _ _ | intro _ _ _ _ _ _ | intro _ _ _ _ _ | intro _ _ _ _ | intro _ _ _)
    | ((with_reducible refine Kept.mk_ _ _ _ _ _ _ _ _ _ _ _ _ _ _ _ _ _ _ _ _ _ _ _ _ _ _ _ _ _ _ _ _ _ _ _ _ _ _ _ _ _ _ _ ?_ rfl rfl rfl rfl rfl rfl rfl rfl rfl rfl (by first | exact Nat.le_refl _ | exact Nat.le_succ _ | exact Nat.le_add_right _ _ | omega) rfl (by first | exact Nat.le_refl _ | exact Nat.le_succ _ | omega)); (first | with_reducible assumption | with_reducible apply kept_emit | with_reducible apply Kept.ite))

theorem kept_occupy {r₀ : State} (s : State) (q : Nat) (c : Nat) (b : Nat) (occ : Option Nat) (h₀ : Kept r₀ s) : Kept r₀ (occupy s q c b occ) := by
  unfold occupy
  try dsimp only
  repeat' first
    | with_reducible assumption
    | with_reducible apply kept_setCtx
    | with_reducible apply kept_setHalf
    | with_reducible apply kept_halfRecord
    | with_reducible apply Kept.ite
    | (first | intro _ _ _ _ _ _ _ | intro _ _ _ _ _ _ | intro _ _ _ _ _ | intro _ _ _ _ | intro _ _ _)
    | split
    | ((with_reducible refine Kept.mk_ _ _ _ _ _ _ _ _ _ _ _ _ _ _ _ _ _ _ _ _ _ _ _ _ _ _ _ _ _ _ _ _ _ _ _ _ _ _ _ _ _ _ _ ?_ rfl rfl rfl rfl rfl rfl rfl rfl rfl rfl (by first | exact Nat.le_refl _ | exact Nat.le_succ _ | exact Nat.le_add_right _ _ | omega) rfl (by first | exact Nat.le_refl _ | exact Nat.le_succ _ | omega)); (first | with_reducible assumption | with_reducible apply kept_setCtx | with_reducible apply kept_setHalf | with_reducible apply kept_halfRecord | with_reducible apply Kept.ite | split))

theorem kept_mapTimers {r₀ : State} (s : State) (b : Nat) (f : Timer → Timer) (h₀ : Kept r₀ s) : Kept r₀ (mapTimers s b f) := by
  unfold mapTimers
  dsimp only
  generalize s.quays.map _ = qs
  refine Kept.runs (Kept.upd (t := { s with quays := qs, waits := _ }) h₀ rfl rfl rfl rfl rfl rfl rfl rfl rfl rfl (Nat.le_refl _))
    _ s.nextId (fun w x hx => ?_)
  obtain ⟨y, hy, rfl⟩ := List.mem_map.mp hx
  have := w y hy
  split <;> exact this

end Sys2Proof.Laws
end

