-- ==== Sys2Proof/Laws/KeptTaskOps.lean ====
section
/-! SUPPORT. What each operation of Machine/TaskOps.lean keeps. -/

namespace Sys2Proof.Laws

set_option linter.all false

open Sys2Proof.Machine Sys2Proof.Safety

theorem kept_undefineFlags {r₀ : State} (keys : List FlagKey) (s : State) (h₀ : Kept r₀ s) : Kept r₀ (undefineFlags keys s) := by
  unfold undefineFlags
  try dsimp only
  repeat' first
    | with_reducible assumption
    | with_reducible apply kept_freshWord
    | with_reducible apply kept_flagPut
    | with_reducible apply Kept.ite
    | with_reducible apply Kept.foldl
    | with_reducible apply Kept.foldl_fst
    | with_reducible apply Kept.foldl_snd
    | (first | intro _ _ _ _ _ _ _ | intro _ _ _ _ _ _ | intro _ _ _ _ _ | intro _ _ _ _ | intro _ _ _)
    | ((with_reducible refine Kept.mk_ _ _ _ _ _ _ _ _ _ _ _ _ _ _ _ _ _ _ _ _ _ _ _ _ _ _ _ _ _ _ _ _ _ _ _ _ _ _ _ _ _ _ _ ?_ rfl rfl rfl rfl rfl rfl rfl rfl rfl rfl (by first | exact Nat.le_refl _ | exact Nat.le_succ _ | exact Nat.le_add_right _ _ | omega) rfl (by first | exact Nat.le_refl _ | exact Nat.le_succ _ | omega)); (first | with_reducible assumption | with_reducible apply kept_freshWord | with_reducible apply kept_flagPut | with_reducible apply Kept.ite | with_reducible apply Kept.foldl | with_reducible apply Kept.foldl_fst | with_reducible apply Kept.foldl_snd))

theorem kept_stopCtx {r₀ : State} (s : State) (q : Nat) (c : Nat) (h₀ : Kept r₀ s) : Kept r₀ (stopCtx s q c) := by
  unfold stopCtx
  try dsimp only
  repeat' first
    | with_reducible assumption
    | with_reducible apply kept_setCtx
    | with_reducible apply kept_freshWord
    | with_reducible apply kept_inuseDown
    | with_reducible apply Kept.ite
    | with_reducible apply Kept.ite_fst
    | (first | intro _ _ _ _ _ _ _ | intro _ _ _ _ _ _ | intro _ _ _ _ _ | intro _ _ _ _ | intro _ _ _)
    | ((with_reducible refine Kept.mk_ _ _ _ _ _ _ _ _ _ _ _ _ _ _ _ _ _ _ _ _ _ _ _ _ _ _ _ _ _ _ _ _ _ _ _ _ _ _ _ _ _ _ _ ?_ rfl rfl rfl rfl rfl rfl rfl rfl rfl rfl (by first | exact Nat.le_refl _ | exact Nat.le_succ _ | exact Nat.le_add_right _ _ | omega) rfl (by first | exact Nat.le_refl _ | exact Nat.le_succ _ | omega)); (first | with_reducible assumption | with_reducible apply kept_setCtx | with_reducible apply kept_freshWord | with_reducible apply kept_inuseDown | with_reducible apply Kept.ite | with_reducible apply Kept.ite_fst))

theorem kept_freeHalves {r₀ : State} (s : State) (b : Nat) (h₀ : Kept r₀ s) : Kept r₀ (freeHalves s b) := by
  unfold freeHalves
  try dsimp only
  repeat' first
    | with_reducible assumption
    | with_reducible apply kept_setBerth
    | with_reducible apply kept_setHalf
    | with_reducible apply Kept.ite
    | with_reducible apply Kept.ite_fst
    | with_reducible apply Kept.foldl
    | with_reducible apply Kept.foldl_fst
    | with_reducible apply Kept.foldl_snd
    | (first | intro _ _ _ _ _ _ _ | intro _ _ _ _ _ _ | intro _ _ _ _ _ | intro _ _ _ _ | intro _ _ _)
    | ((with_reducible refine Kept.mk_ _ _ _ _ _ _ _ _ _ _ _ _ _ _ _ _ _ _ _ _ _ _ _ _ _ _ _ _ _ _ _ _ _ _ _ _ _ _ _ _ _ _ _ ?_ rfl rfl rfl rfl rfl rfl rfl rfl rfl rfl (by first | exact Nat.le_refl _ | exact Nat.le_succ _ | exact Nat.le_add_right _ _ | omega) rfl (by first | exact Nat.le_refl _ | exact Nat.le_succ _ | omega)); (first | with_reducible assumption | with_reducible apply kept_setBerth | with_reducible apply kept_setHalf | with_reducible apply Kept.ite | with_reducible apply Kept.ite_fst | with_reducible apply Kept.foldl | with_reducible apply Kept.foldl_fst | with_reducible apply Kept.foldl_snd))

theorem kept_undefineBuf {r₀ : State} (s : State) (x : BufDest) (h₀ : Kept r₀ s) : Kept r₀ (undefineBuf s x) := by
  unfold undefineBuf
  try dsimp only
  repeat' first
    | with_reducible assumption
    | with_reducible apply kept_freshGen
    | with_reducible apply kept_putBuf
    | with_reducible apply Kept.ite
    | with_reducible apply Kept.foldl
    | with_reducible apply Kept.foldl_fst
    | with_reducible apply Kept.foldl_snd
    | (first | intro _ _ _ _ _ _ _ | intro _ _ _ _ _ _ | intro _ _ _ _ _ | intro _ _ _ _ | intro _ _ _)
    | ((with_reducible refine Kept.mk_ _ _ _ _ _ _ _ _ _ _ _ _ _ _ _ _ _ _ _ _ _ _ _ _ _ _ _ _ _ _ _ _ _ _ _ _ _ _ _ _ _ _ _ ?_ rfl rfl rfl rfl rfl rfl rfl rfl rfl rfl (by first | exact Nat.le_refl _ | exact Nat.le_succ _ | exact Nat.le_add_right _ _ | omega) rfl (by first | exact Nat.le_refl _ | exact Nat.le_succ _ | omega)); (first | with_reducible assumption | with_reducible apply kept_freshGen | with_reducible apply kept_putBuf | with_reducible apply Kept.ite | with_reducible apply Kept.foldl | with_reducible apply Kept.foldl_fst | with_reducible apply Kept.foldl_snd))

theorem kept_spoilFlight {r₀ : State} (s : State) (r : Run) (h₀ : Kept r₀ s) : Kept r₀ (spoilFlight s r) := by
  unfold spoilFlight
  try dsimp only
  repeat' first
    | with_reducible assumption
    | with_reducible apply kept_setPieces
    | with_reducible apply Kept.ite
    | (first | intro _ _ _ _ _ _ _ | intro _ _ _ _ _ _ | intro _ _ _ _ _ | intro _ _ _ _ | intro _ _ _)
    | ((with_reducible refine Kept.mk_ _ _ _ _ _ _ _ _ _ _ _ _ _ _ _ _ _ _ _ _ _ _ _ _ _ _ _ _ _ _ _ _ _ _ _ _ _ _ _ _ _ _ _ ?_ rfl rfl rfl rfl rfl rfl rfl rfl rfl rfl (by first | exact Nat.le_refl _ | exact Nat.le_succ _ | exact Nat.le_add_right _ _ | omega) rfl (by first | exact Nat.le_refl _ | exact Nat.le_succ _ | omega)); (first | with_reducible assumption | with_reducible apply kept_setPieces | with_reducible apply Kept.ite))

theorem kept_flushRun {r₀ : State} (s : State) (r : Run) (h₀ : Kept r₀ s) : Kept r₀ (flushRun s r) := by
  unfold flushRun
  try dsimp only
  repeat' first
    | with_reducible assumption
    | with_reducible apply kept_dropRun
    | with_reducible apply kept_hbmUndefine
    | with_reducible apply kept_inuseDown
    | with_reducible apply kept_undefineBuf
    | with_reducible apply kept_spoilFlight
    | with_reducible apply Kept.ite
    | with_reducible apply Kept.foldl
    | with_reducible apply Kept.foldl_fst
    | with_reducible apply Kept.foldl_snd
    | (first | intro _ _ _ _ _ _ _ | intro _ _ _ _ _ _ | intro _ _ _ _ _ | intro _ _ _ _ | intro _ _ _)
    | ((with_reducible refine Kept.mk_ _ _ _ _ _ _ _ _ _ _ _ _ _ _ _ _ _ _ _ _ _ _ _ _ _ _ _ _ _ _ _ _ _ _ _ _ _ _ _ _ _ _ _ ?_ rfl rfl rfl rfl rfl rfl rfl rfl rfl rfl (by first | exact Nat.le_refl _ | exact Nat.le_succ _ | exact Nat.le_add_right _ _ | omega) rfl (by first | exact Nat.le_refl _ | exact Nat.le_succ _ | omega)); (first | with_reducible assumption | with_reducible apply kept_dropRun | with_reducible apply kept_hbmUndefine | with_reducible apply kept_inuseDown | with_reducible apply kept_undefineBuf | with_reducible apply kept_spoilFlight | with_reducible apply Kept.ite | with_reducible apply Kept.foldl | with_reducible apply Kept.foldl_fst | with_reducible apply Kept.foldl_snd))

theorem kept_ruinDeck {r₀ : State} (s : State) (d : Nat) (h₀ : Kept r₀ s) : Kept r₀ (ruinDeck s d) := by
  unfold ruinDeck
  try dsimp only
  repeat' first
    | with_reducible assumption
    | with_reducible apply kept_setDeck
    | with_reducible apply kept_freshWord
    | with_reducible apply kept_freshGen
    | with_reducible apply Kept.ite
    | with_reducible apply Kept.foldl
    | with_reducible apply Kept.foldl_fst
    | with_reducible apply Kept.foldl_snd
    | (first | intro _ _ _ _ _ _ _ | intro _ _ _ _ _ _ | intro _ _ _ _ _ | intro _ _ _ _ | intro _ _ _)
    | ((with_reducible refine Kept.mk_ _ _ _ _ _ _ _ _ _ _ _ _ _ _ _ _ _ _ _ _ _ _ _ _ _ _ _ _ _ _ _ _ _ _ _ _ _ _ _ _ _ _ _ ?_ rfl rfl rfl rfl rfl rfl rfl rfl rfl rfl (by first | exact Nat.le_refl _ | exact Nat.le_succ _ | exact Nat.le_add_right _ _ | omega) rfl (by first | exact Nat.le_refl _ | exact Nat.le_succ _ | omega)); (first | with_reducible assumption | with_reducible apply kept_setDeck | with_reducible apply kept_freshWord | with_reducible apply kept_freshGen | with_reducible apply Kept.ite | with_reducible apply Kept.foldl | with_reducible apply Kept.foldl_fst | with_reducible apply Kept.foldl_snd))

theorem kept_ruinSave {r₀ : State} (s : State) (d : Nat) (h₀ : Kept r₀ s) : Kept r₀ (ruinSave s d) := by
  unfold ruinSave
  try dsimp only
  repeat' first
    | with_reducible assumption
    | with_reducible apply kept_hbmUndefine
    | with_reducible apply Kept.ite
    | (first | intro _ _ _ _ _ _ _ | intro _ _ _ _ _ _ | intro _ _ _ _ _ | intro _ _ _ _ | intro _ _ _)
    | split
    | ((with_reducible refine Kept.mk_ _ _ _ _ _ _ _ _ _ _ _ _ _ _ _ _ _ _ _ _ _ _ _ _ _ _ _ _ _ _ _ _ _ _ _ _ _ _ _ _ _ _ _ ?_ rfl rfl rfl rfl rfl rfl rfl rfl rfl rfl (by first | exact Nat.le_refl _ | exact Nat.le_succ _ | exact Nat.le_add_right _ _ | omega) rfl (by first | exact Nat.le_refl _ | exact Nat.le_succ _ | omega)); (first | with_reducible assumption | with_reducible apply kept_hbmUndefine | with_reducible apply Kept.ite | split))

theorem kept_stopTask {r₀ : State} (s : State) (b : Nat) (h₀ : Kept r₀ s) : Kept r₀ (stopTask s b) := by
  unfold stopTask
  try dsimp only
  repeat' first
    | with_reducible assumption
    | with_reducible apply kept_setBerth
    | with_reducible apply kept_inuseDown
    | with_reducible apply kept_undefineFlags
    | with_reducible apply kept_stopCtx
    | with_reducible apply kept_freeHalves
    | with_reducible apply kept_flushRun
    | with_reducible apply kept_ruinDeck
    | with_reducible apply kept_ruinSave
    | with_reducible apply Kept.ite
    | with_reducible apply Kept.ite_fst
    | with_reducible apply Kept.foldl
    | with_reducible apply Kept.foldl_fst
    | with_reducible apply Kept.foldl_snd
    | (first | intro _ _ _ _ _ _ _ | intro _ _ _ _ _ _ | intro _ _ _ _ _ | intro _ _ _ _ | intro _ _ _)
    | ((with_reducible refine Kept.mk_ _ _ _ _ _ _ _ _ _ _ _ _ _ _ _ _ _ _ _ _ _ _ _ _ _ _ _ _ _ _ _ _ _ _ _ _ _ _ _ _ _ _ _ ?_ rfl rfl rfl rfl rfl rfl rfl rfl rfl rfl (by first | exact Nat.le_refl _ | exact Nat.le_succ _ | exact Nat.le_add_right _ _ | omega) rfl (by first | exact Nat.le_refl _ | exact Nat.le_succ _ | omega)); (first | with_reducible assumption | with_reducible apply kept_setBerth | with_reducible apply kept_inuseDown | with_reducible apply kept_undefineFlags | with_reducible apply kept_stopCtx | with_reducible apply kept_freeHalves | with_reducible apply kept_flushRun | with_reducible apply kept_ruinDeck | with_reducible apply kept_ruinSave | with_reducible apply Kept.ite | with_reducible apply Kept.ite_fst | with_reducible apply Kept.foldl | with_reducible apply Kept.foldl_fst | with_reducible apply Kept.foldl_snd))

theorem kept_latchEnd {r₀ : State} (s : State) (b : Nat) (info : EndInfo) (after : BerthState) (h₀ : Kept r₀ s) : Kept r₀ (latchEnd s b info after) := by
  unfold latchEnd
  try dsimp only
  repeat' first
    | with_reducible assumption
    | with_reducible apply kept_setBerth
    | with_reducible apply kept_stopTask
    | with_reducible apply Kept.ite
    | (first | intro _ _ _ _ _ _ _ | intro _ _ _ _ _ _ | intro _ _ _ _ _ | intro _ _ _ _ | intro _ _ _)
    | ((with_reducible refine Kept.mk_ _ _ _ _ _ _ _ _ _ _ _ _ _ _ _ _ _ _ _ _ _ _ _ _ _ _ _ _ _ _ _ _ _ _ _ _ _ _ _ _ _ _ _ ?_ rfl rfl rfl rfl rfl rfl rfl rfl rfl rfl (by first | exact Nat.le_refl _ | exact Nat.le_succ _ | exact Nat.le_add_right _ _ | omega) rfl (by first | exact Nat.le_refl _ | exact Nat.le_succ _ | omega)); (first | with_reducible assumption | with_reducible apply kept_setBerth | with_reducible apply kept_stopTask | with_reducible apply Kept.ite))

theorem kept_haltBerth {r₀ : State} (s : State) (b : Nat) (h₀ : Kept r₀ s) : Kept r₀ (haltBerth s b) := by
  unfold haltBerth
  try dsimp only
  repeat' first
    | with_reducible assumption
    | with_reducible apply kept_setBerth
    | with_reducible apply kept_latchEnd
    | with_reducible apply Kept.ite
    | (first | intro _ _ _ _ _ _ _ | intro _ _ _ _ _ _ | intro _ _ _ _ _ | intro _ _ _ _ | intro _ _ _)
    | ((with_reducible refine Kept.mk_ _ _ _ _ _ _ _ _ _ _ _ _ _ _ _ _ _ _ _ _ _ _ _ _ _ _ _ _ _ _ _ _ _ _ _ _ _ _ _ _ _ _ _ ?_ rfl rfl rfl rfl rfl rfl rfl rfl rfl rfl (by first | exact Nat.le_refl _ | exact Nat.le_succ _ | exact Nat.le_add_right _ _ | omega) rfl (by first | exact Nat.le_refl _ | exact Nat.le_succ _ | omega)); (first | with_reducible assumption | with_reducible apply kept_setBerth | with_reducible apply kept_latchEnd | with_reducible apply Kept.ite))

end Sys2Proof.Laws
end

