-- ==== Sys2Proof/Laws/KeptHoldOps.lean ====
section
/-! SUPPORT. What each operation of Machine/HoldOps.lean keeps. -/

namespace Sys2Proof.Laws

set_option linter.all false

open Sys2Proof.Machine Sys2Proof.Safety

theorem kept_setHold {r₀ : State} (s : State) (b : Nat) (h : Hold) (h₀ : Kept r₀ s) : Kept r₀ (setHold s b h) := by
  unfold setHold
  try dsimp only
  repeat' first
    | with_reducible assumption
    | with_reducible apply kept_setBerth
    | with_reducible apply Kept.ite
    | (first | intro _ _ _ _ _ _ _ | intro _ _ _ _ _ _ | intro _ _ _ _ _ | intro _ _ _ _ | intro _ _ _)
    | ((with_reducible refine Kept.mk_ _ _ _ _ _ _ _ _ _ _ _ _ _ _ _ _ _ _ _ _ _ _ _ _ _ _ _ _ _ _ _ _ _ _ _ _ _ _ _ _ _ _ _ ?_ rfl rfl rfl rfl rfl rfl rfl rfl rfl rfl (by first | exact Nat.le_refl _ | exact Nat.le_succ _ | exact Nat.le_add_right _ _ | omega) rfl (by first | exact Nat.le_refl _ | exact Nat.le_succ _ | omega)); (first | with_reducible assumption | with_reducible apply kept_setBerth | with_reducible apply Kept.ite))

theorem kept_makeResident {r₀ : State} (s : State) (b : Nat) (p : Nat) (f : Nat) (h₀ : Kept r₀ s) : Kept r₀ (makeResident s b p f) := by
  unfold makeResident
  try dsimp only
  repeat' first
    | with_reducible assumption
    | with_reducible apply kept_setHold
    | with_reducible apply Kept.ite
    | (first | intro _ _ _ _ _ _ _ | intro _ _ _ _ _ _ | intro _ _ _ _ _ | intro _ _ _ _ | intro _ _ _)
    | ((with_reducible refine Kept.mk_ _ _ _ _ _ _ _ _ _ _ _ _ _ _ _ _ _ _ _ _ _ _ _ _ _ _ _ _ _ _ _ _ _ _ _ _ _ _ _ _ _ _ _ ?_ rfl rfl rfl rfl rfl rfl rfl rfl rfl rfl (by first | exact Nat.le_refl _ | exact Nat.le_succ _ | exact Nat.le_add_right _ _ | omega) rfl (by first | exact Nat.le_refl _ | exact Nat.le_succ _ | omega)); (first | with_reducible assumption | with_reducible apply kept_setHold | with_reducible apply Kept.ite))

theorem kept_spillPage {r₀ : State} (s : State) (level : Nat) (unit : Nat) (b : Nat) (p : Nat) (h₀ : Kept r₀ s) : Kept r₀ (spillPage s level unit b p).1 := by
  unfold spillPage
  try dsimp only
  repeat' first
    | with_reducible assumption
    | with_reducible apply kept_raiseBerth
    | with_reducible apply kept_setHold
    | with_reducible apply Kept.ite
    | with_reducible apply Kept.ite_fst
    | (first | intro _ _ _ _ _ _ _ | intro _ _ _ _ _ _ | intro _ _ _ _ _ | intro _ _ _ _ | intro _ _ _)
    | split
    | ((with_reducible refine Kept.mk_ _ _ _ _ _ _ _ _ _ _ _ _ _ _ _ _ _ _ _ _ _ _ _ _ _ _ _ _ _ _ _ _ _ _ _ _ _ _ _ _ _ _ _ ?_ rfl rfl rfl rfl rfl rfl rfl rfl rfl rfl (by first | exact Nat.le_refl _ | exact Nat.le_succ _ | exact Nat.le_add_right _ _ | omega) rfl (by first | exact Nat.le_refl _ | exact Nat.le_succ _ | omega)); (first | with_reducible assumption | with_reducible apply kept_raiseBerth | with_reducible apply kept_setHold | with_reducible apply Kept.ite | with_reducible apply Kept.ite_fst | split))

theorem kept_admitPage {r₀ : State} (s : State) (level : Nat) (unit : Nat) (b : Nat) (p : Nat) (spillNow : Bool) (h₀ : Kept r₀ s) : Kept r₀ (admitPage s level unit b p spillNow).1 := by
  unfold admitPage
  try dsimp only
  repeat' first
    | with_reducible assumption
    | with_reducible apply kept_hbmUndefine
    | with_reducible apply kept_setHold
    | with_reducible apply kept_makeResident
    | with_reducible apply kept_spillPage
    | with_reducible apply Kept.ite
    | with_reducible apply Kept.ite_fst
    | (first | intro _ _ _ _ _ _ _ | intro _ _ _ _ _ _ | intro _ _ _ _ _ | intro _ _ _ _ | intro _ _ _)
    | split
    | ((with_reducible refine Kept.mk_ _ _ _ _ _ _ _ _ _ _ _ _ _ _ _ _ _ _ _ _ _ _ _ _ _ _ _ _ _ _ _ _ _ _ _ _ _ _ _ _ _ _ _ ?_ rfl rfl rfl rfl rfl rfl rfl rfl rfl rfl (by first | exact Nat.le_refl _ | exact Nat.le_succ _ | exact Nat.le_add_right _ _ | omega) rfl (by first | exact Nat.le_refl _ | exact Nat.le_succ _ | omega)); (first | with_reducible assumption | with_reducible apply kept_hbmUndefine | with_reducible apply kept_setHold | with_reducible apply kept_makeResident | with_reducible apply kept_spillPage | with_reducible apply Kept.ite | with_reducible apply Kept.ite_fst | split))

theorem kept_raiseHoldRange {r₀ : State} (s : State) (q : Nat) (c : Nat) (b : Nat) (h₀ : Kept r₀ s) : Kept r₀ (raiseHoldRange s q c b) := by
  unfold raiseHoldRange
  try dsimp only
  repeat' first
    | with_reducible assumption
    | with_reducible apply kept_freshWord
    | with_reducible apply kept_raiseCtx
    | with_reducible apply Kept.ite
    | (first | intro _ _ _ _ _ _ _ | intro _ _ _ _ _ _ | intro _ _ _ _ _ | intro _ _ _ _ | intro _ _ _)
    | ((with_reducible refine Kept.mk_ _ _ _ _ _ _ _ _ _ _ _ _ _ _ _ _ _ _ _ _ _ _ _ _ _ _ _ _ _ _ _ _ _ _ _ _ _ _ _ _ _ _ _ ?_ rfl rfl rfl rfl rfl rfl rfl rfl rfl rfl (by first | exact Nat.le_refl _ | exact Nat.le_succ _ | exact Nat.le_add_right _ _ | omega) rfl (by first | exact Nat.le_refl _ | exact Nat.le_succ _ | omega)); (first | with_reducible assumption | with_reducible apply kept_freshWord | with_reducible apply kept_raiseCtx | with_reducible apply Kept.ite))

theorem kept_failRemote {r₀ : State} (s : State) (id : Nat) (page : Nat) (h₀ : Kept r₀ s) : Kept r₀ (failRemote s id page) := by
  unfold failRemote
  try dsimp only
  repeat' first
    | with_reducible assumption
    | with_reducible apply kept_setRun
    | with_reducible apply kept_raiseCtx
    | with_reducible apply Kept.ite
    | (first | intro _ _ _ _ _ _ _ | intro _ _ _ _ _ _ | intro _ _ _ _ _ | intro _ _ _ _ | intro _ _ _)
    | split
    | ((with_reducible refine Kept.mk_ _ _ _ _ _ _ _ _ _ _ _ _ _ _ _ _ _ _ _ _ _ _ _ _ _ _ _ _ _ _ _ _ _ _ _ _ _ _ _ _ _ _ _ ?_ rfl rfl rfl rfl rfl rfl rfl rfl rfl rfl (by first | exact Nat.le_refl _ | exact Nat.le_succ _ | exact Nat.le_add_right _ _ | omega) rfl (by first | exact Nat.le_refl _ | exact Nat.le_succ _ | omega)); (first | with_reducible assumption | with_reducible apply kept_setRun | with_reducible apply kept_raiseCtx | with_reducible apply Kept.ite | split))

theorem kept_holdRequest {r₀ : State} (s : State) (id : Nat) (b : Nat) (page : Nat) (packets : Nat) (m : Roce) (h₀ : Kept r₀ s) : Kept r₀ (holdRequest s id b page packets m) := by
  unfold holdRequest
  try dsimp only
  repeat' first
    | with_reducible assumption
    | with_reducible apply kept_request
    | with_reducible apply kept_failRemote
    | with_reducible apply Kept.ite
    | (first | intro _ _ _ _ _ _ _ | intro _ _ _ _ _ _ | intro _ _ _ _ _ | intro _ _ _ _ | intro _ _ _)
    | split
    | ((with_reducible refine Kept.mk_ _ _ _ _ _ _ _ _ _ _ _ _ _ _ _ _ _ _ _ _ _ _ _ _ _ _ _ _ _ _ _ _ _ _ _ _ _ _ _ _ _ _ _ ?_ rfl rfl rfl rfl rfl rfl rfl rfl rfl rfl (by first | exact Nat.le_refl _ | exact Nat.le_succ _ | exact Nat.le_add_right _ _ | omega) rfl (by first | exact Nat.le_refl _ | exact Nat.le_succ _ | omega)); (first | with_reducible assumption | with_reducible apply kept_request | with_reducible apply kept_failRemote | with_reducible apply Kept.ite | split))

theorem kept_placePiece {r₀ : State} (s : State) (id : Nat) (b : Nat) (pool : List Nat) (w : Nat × List Byte) (h₀ : Kept r₀ s) : Kept r₀ (placePiece s id b pool w) := by
  unfold placePiece
  try dsimp only
  repeat' first
    | with_reducible assumption
    | with_reducible apply kept_setRun
    | with_reducible apply kept_holdRequest
    | with_reducible apply Kept.ite
    | with_reducible apply Kept.ite_fst
    | (first | intro _ _ _ _ _ _ _ | intro _ _ _ _ _ _ | intro _ _ _ _ _ | intro _ _ _ _ | intro _ _ _)
    | split
    | ((with_reducible refine Kept.mk_ _ _ _ _ _ _ _ _ _ _ _ _ _ _ _ _ _ _ _ _ _ _ _ _ _ _ _ _ _ _ _ _ _ _ _ _ _ _ _ _ _ _ _ ?_ rfl rfl rfl rfl rfl rfl rfl rfl rfl rfl (by first | exact Nat.le_refl _ | exact Nat.le_succ _ | exact Nat.le_add_right _ _ | omega) rfl (by first | exact Nat.le_refl _ | exact Nat.le_succ _ | omega)); (first | with_reducible assumption | with_reducible apply kept_setRun | with_reducible apply kept_holdRequest | with_reducible apply Kept.ite | with_reducible apply Kept.ite_fst | split))

theorem kept_failRun {r₀ : State} (s : State) (id : Nat) (h₀ : Kept r₀ s) : Kept r₀ (failRun s id) := by
  unfold failRun
  try dsimp only
  repeat' first
    | with_reducible assumption
    | with_reducible apply kept_dropRun
    | with_reducible apply kept_inuseDown
    | with_reducible apply Kept.ite
    | (first | intro _ _ _ _ _ _ _ | intro _ _ _ _ _ _ | intro _ _ _ _ _ | intro _ _ _ _ | intro _ _ _)
    | split
    | ((with_reducible refine Kept.mk_ _ _ _ _ _ _ _ _ _ _ _ _ _ _ _ _ _ _ _ _ _ _ _ _ _ _ _ _ _ _ _ _ _ _ _ _ _ _ _ _ _ _ _ ?_ rfl rfl rfl rfl rfl rfl rfl rfl rfl rfl (by first | exact Nat.le_refl _ | exact Nat.le_succ _ | exact Nat.le_add_right _ _ | omega) rfl (by first | exact Nat.le_refl _ | exact Nat.le_succ _ | omega)); (first | with_reducible assumption | with_reducible apply kept_dropRun | with_reducible apply kept_inuseDown | with_reducible apply Kept.ite | split))

theorem kept_holdWait {r₀ : State} (s : State) (id : Nat) (p : Nat) (ws : List (Nat × List Byte)) (h₀ : Kept r₀ s) : Kept r₀ (holdWait s id p ws) := by
  unfold holdWait
  try dsimp only
  repeat' first
    | with_reducible assumption
    | with_reducible apply kept_setRun
    | with_reducible apply Kept.ite
    | with_reducible apply Kept.ite_fst
    | (first | intro _ _ _ _ _ _ _ | intro _ _ _ _ _ _ | intro _ _ _ _ _ | intro _ _ _ _ | intro _ _ _)
    | split
    | ((with_reducible refine Kept.mk_ _ _ _ _ _ _ _ _ _ _ _ _ _ _ _ _ _ _ _ _ _ _ _ _ _ _ _ _ _ _ _ _ _ _ _ _ _ _ _ _ _ _ _ ?_ rfl rfl rfl rfl rfl rfl rfl rfl rfl rfl (by first | exact Nat.le_refl _ | exact Nat.le_succ _ | exact Nat.le_add_right _ _ | omega) rfl (by first | exact Nat.le_refl _ | exact Nat.le_succ _ | omega)); (first | with_reducible assumption | with_reducible apply kept_setRun | with_reducible apply Kept.ite | with_reducible apply Kept.ite_fst | split))

theorem kept_placeAll {r₀ : State} (id : Nat) (q : Nat) (c : Nat) (b : Nat) (pool : List Nat) (spillNow : Bool) (a_ : List (Nat × List Byte)) : ∀ (s : State), Kept r₀ s → Kept r₀ ((placeAll id q c b pool spillNow a_ s)) := by
  induction a_ with
  | nil =>
    intro s h₀
    simp only [placeAll]
    repeat' first
      | with_reducible assumption
      | with_reducible apply ih
      | with_reducible apply kept_holdWait
      | with_reducible apply kept_setRun
      | with_reducible apply kept_raiseCtx
      | with_reducible apply kept_setHold
      | with_reducible apply kept_admitPage
      | with_reducible apply kept_placePiece
      | with_reducible apply kept_failRun
      | with_reducible apply Kept.ite
      | (first | intro _ _ _ _ _ _ _ | intro _ _ _ _ _ _ | intro _ _ _ _ _ | intro _ _ _ _ | intro _ _ _)
      | split
      | ((with_reducible refine Kept.mk_ _ _ _ _ _ _ _ _ _ _ _ _ _ _ _ _ _ _ _ _ _ _ _ _ _ _ _ _ _ _ _ _ _ _ _ _ _ _ _ _ _ _ _ ?_ rfl rfl rfl rfl rfl rfl rfl rfl rfl rfl (by first | exact Nat.le_refl _ | exact Nat.le_succ _ | exact Nat.le_add_right _ _ | omega) rfl (by first | exact Nat.le_refl _ | exact Nat.le_succ _ | omega)); (first | with_reducible assumption | with_reducible apply ih | with_reducible apply kept_holdWait | with_reducible apply kept_setRun | with_reducible apply kept_raiseCtx | with_reducible apply kept_setHold | with_reducible apply kept_admitPage | with_reducible apply kept_placePiece | with_reducible apply kept_failRun | with_reducible apply Kept.ite | split))
  | cons w_ l_ ih =>
    intro s h₀
    simp only [placeAll]
    repeat' first
      | with_reducible assumption
      | with_reducible apply ih
      | with_reducible apply kept_holdWait
      | with_reducible apply kept_setRun
      | with_reducible apply kept_raiseCtx
      | with_reducible apply kept_setHold
      | with_reducible apply kept_admitPage
      | with_reducible apply kept_placePiece
      | with_reducible apply kept_failRun
      | with_reducible apply Kept.ite
      | (first | intro _ _ _ _ _ _ _ | intro _ _ _ _ _ _ | intro _ _ _ _ _ | intro _ _ _ _ | intro _ _ _)
      | split
      | ((with_reducible refine Kept.mk_ _ _ _ _ _ _ _ _ _ _ _ _ _ _ _ _ _ _ _ _ _ _ _ _ _ _ _ _ _ _ _ _ _ _ _ _ _ _ _ _ _ _ _ ?_ rfl rfl rfl rfl rfl rfl rfl rfl rfl rfl (by first | exact Nat.le_refl _ | exact Nat.le_succ _ | exact Nat.le_add_right _ _ | omega) rfl (by first | exact Nat.le_refl _ | exact Nat.le_succ _ | omega)); (first | with_reducible assumption | with_reducible apply ih | with_reducible apply kept_holdWait | with_reducible apply kept_setRun | with_reducible apply kept_raiseCtx | with_reducible apply kept_setHold | with_reducible apply kept_admitPage | with_reducible apply kept_placePiece | with_reducible apply kept_failRun | with_reducible apply Kept.ite | split))

theorem kept_giveUpPage {r₀ : State} (p : Nat) (s : State) (r : Run) (h₀ : Kept r₀ s) : Kept r₀ (giveUpPage p s r) := by
  unfold giveUpPage
  try dsimp only
  repeat' first
    | with_reducible assumption
    | with_reducible apply kept_setQuay
    | with_reducible apply kept_setRun
    | with_reducible apply kept_maskTrk
    | with_reducible apply Kept.ite
    | with_reducible apply Kept.ite_fst
    | (first | intro _ _ _ _ _ _ _ | intro _ _ _ _ _ _ | intro _ _ _ _ _ | intro _ _ _ _ | intro _ _ _)
    | split
    | ((with_reducible refine Kept.mk_ _ _ _ _ _ _ _ _ _ _ _ _ _ _ _ _ _ _ _ _ _ _ _ _ _ _ _ _ _ _ _ _ _ _ _ _ _ _ _ _ _ _ _ ?_ rfl rfl rfl rfl rfl rfl rfl rfl rfl rfl (by first | exact Nat.le_refl _ | exact Nat.le_succ _ | exact Nat.le_add_right _ _ | omega) rfl (by first | exact Nat.le_refl _ | exact Nat.le_succ _ | omega)); (first | with_reducible assumption | with_reducible apply kept_setQuay | with_reducible apply kept_setRun | with_reducible apply kept_maskTrk | with_reducible apply Kept.ite | with_reducible apply Kept.ite_fst | split))

theorem kept_freePage {r₀ : State} (b : Nat) (s : State) (p : Nat) (h₀ : Kept r₀ s) : Kept r₀ (freePage b s p) := by
  unfold freePage
  try dsimp only
  repeat' first
    | with_reducible assumption
    | with_reducible apply kept_setHold
    | with_reducible apply kept_giveUpPage
    | with_reducible apply Kept.ite
    | with_reducible apply Kept.foldl
    | with_reducible apply Kept.foldl_fst
    | with_reducible apply Kept.foldl_snd
    | (first | intro _ _ _ _ _ _ _ | intro _ _ _ _ _ _ | intro _ _ _ _ _ | intro _ _ _ _ | intro _ _ _)
    | ((with_reducible refine Kept.mk_ _ _ _ _ _ _ _ _ _ _ _ _ _ _ _ _ _ _ _ _ _ _ _ _ _ _ _ _ _ _ _ _ _ _ _ _ _ _ _ _ _ _ _ ?_ rfl rfl rfl rfl rfl rfl rfl rfl rfl rfl (by first | exact Nat.le_refl _ | exact Nat.le_succ _ | exact Nat.le_add_right _ _ | omega) rfl (by first | exact Nat.le_refl _ | exact Nat.le_succ _ | omega)); (first | with_reducible assumption | with_reducible apply kept_setHold | with_reducible apply kept_giveUpPage | with_reducible apply Kept.ite | with_reducible apply Kept.foldl | with_reducible apply Kept.foldl_fst | with_reducible apply Kept.foldl_snd))

theorem kept_stopRecall {r₀ : State} (s : State) (id : Nat) (h₀ : Kept r₀ s) : Kept r₀ (stopRecall s id) := by
  unfold stopRecall
  try dsimp only
  repeat' first
    | with_reducible assumption
    | with_reducible apply kept_setQuay
    | with_reducible apply kept_setRun
    | with_reducible apply kept_maskTrk
    | with_reducible apply kept_setHold
    | with_reducible apply Kept.ite
    | (first | intro _ _ _ _ _ _ _ | intro _ _ _ _ _ _ | intro _ _ _ _ _ | intro _ _ _ _ | intro _ _ _)
    | split
    | ((with_reducible refine Kept.mk_ _ _ _ _ _ _ _ _ _ _ _ _ _ _ _ _ _ _ _ _ _ _ _ _ _ _ _ _ _ _ _ _ _ _ _ _ _ _ _ _ _ _ _ ?_ rfl rfl rfl rfl rfl rfl rfl rfl rfl rfl (by first | exact Nat.le_refl _ | exact Nat.le_succ _ | exact Nat.le_add_right _ _ | omega) rfl (by first | exact Nat.le_refl _ | exact Nat.le_succ _ | omega)); (first | with_reducible assumption | with_reducible apply kept_setQuay | with_reducible apply kept_setRun | with_reducible apply kept_maskTrk | with_reducible apply kept_setHold | with_reducible apply Kept.ite | split))

theorem kept_failRecall {r₀ : State} (s : State) (id : Nat) (page : Nat) (h₀ : Kept r₀ s) : Kept r₀ (failRecall s id page) := by
  unfold failRecall
  try dsimp only
  repeat' first
    | with_reducible assumption
    | with_reducible apply kept_failRemote
    | with_reducible apply kept_stopRecall
    | with_reducible apply Kept.ite
    | (first | intro _ _ _ _ _ _ _ | intro _ _ _ _ _ _ | intro _ _ _ _ _ | intro _ _ _ _ | intro _ _ _)
    | ((with_reducible refine Kept.mk_ _ _ _ _ _ _ _ _ _ _ _ _ _ _ _ _ _ _ _ _ _ _ _ _ _ _ _ _ _ _ _ _ _ _ _ _ _ _ _ _ _ _ _ ?_ rfl rfl rfl rfl rfl rfl rfl rfl rfl rfl (by first | exact Nat.le_refl _ | exact Nat.le_succ _ | exact Nat.le_add_right _ _ | omega) rfl (by first | exact Nat.le_refl _ | exact Nat.le_succ _ | omega)); (first | with_reducible assumption | with_reducible apply kept_failRemote | with_reducible apply kept_stopRecall | with_reducible apply Kept.ite))

theorem kept_resetHold {r₀ : State} (s : State) (b : Nat) (h₀ : Kept r₀ s) : Kept r₀ (resetHold s b) := by
  unfold resetHold
  try dsimp only
  repeat' first
    | with_reducible assumption
    | with_reducible apply kept_setHold
    | with_reducible apply Kept.ite
    | (first | intro _ _ _ _ _ _ _ | intro _ _ _ _ _ _ | intro _ _ _ _ _ | intro _ _ _ _ | intro _ _ _)
    | ((with_reducible refine Kept.mk_ _ _ _ _ _ _ _ _ _ _ _ _ _ _ _ _ _ _ _ _ _ _ _ _ _ _ _ _ _ _ _ _ _ _ _ _ _ _ _ _ _ _ _ ?_ rfl rfl rfl rfl rfl rfl rfl rfl rfl rfl (by first | exact Nat.le_refl _ | exact Nat.le_succ _ | exact Nat.le_add_right _ _ | omega) rfl (by first | exact Nat.le_refl _ | exact Nat.le_succ _ | omega)); (first | with_reducible assumption | with_reducible apply kept_setHold | with_reducible apply Kept.ite))

theorem kept_wakeStash {r₀ : State} (s : State) (b : Nat) (h₀ : Kept r₀ s) : Kept r₀ (wakeStash s b) := by
  unfold wakeStash
  try dsimp only
  repeat' first
    | with_reducible assumption
    | with_reducible apply kept_issueRun
    | with_reducible apply kept_placeAll
    | with_reducible apply Kept.ite
    | with_reducible apply Kept.ite_fst
    | (first | intro _ _ _ _ _ _ _ | intro _ _ _ _ _ _ | intro _ _ _ _ _ | intro _ _ _ _ | intro _ _ _)
    | split
    | ((with_reducible refine Kept.mk_ _ _ _ _ _ _ _ _ _ _ _ _ _ _ _ _ _ _ _ _ _ _ _ _ _ _ _ _ _ _ _ _ _ _ _ _ _ _ _ _ _ _ _ ?_ rfl rfl rfl rfl rfl rfl rfl rfl rfl rfl (by first | exact Nat.le_refl _ | exact Nat.le_succ _ | exact Nat.le_add_right _ _ | omega) rfl (by first | exact Nat.le_refl _ | exact Nat.le_succ _ | omega)); (first | with_reducible assumption | with_reducible apply kept_issueRun | with_reducible apply kept_placeAll | with_reducible apply Kept.ite | with_reducible apply Kept.ite_fst | split))

theorem kept_wakeAll {r₀ : State} (b : Nat) : ∀ (fuel : Nat) (s : State), Kept r₀ s → Kept r₀ (wakeAll b fuel s)
  | 0, _, h => h
  | fuel + 1, s, h => by
    unfold wakeAll
    split
    · split
      · exact kept_wakeAll b fuel _ (kept_wakeStash _ _ h)
      · exact h
    · exact h

end Sys2Proof.Laws
end

