-- ==== Sys2Proof/Laws/KeptCollOps.lean ====
section
/-! SUPPORT. What each operation of Machine/CollOps.lean keeps. -/

namespace Sys2Proof.Laws

set_option linter.all false

open Sys2Proof.Machine Sys2Proof.Safety

theorem kept_bindSailings {r₀ : State} (s : State) (n : Nat) (m : Nat) (h₀ : Kept r₀ s) : Kept r₀ (bindSailings s n m).1 := by
  unfold bindSailings
  try dsimp only
  repeat' first
    | with_reducible assumption
    | with_reducible apply kept_setConn
    | with_reducible apply Kept.ite
    | with_reducible apply Kept.ite_fst
    | (first | intro _ _ _ _ _ _ _ | intro _ _ _ _ _ _ | intro _ _ _ _ _ | intro _ _ _ _ | intro _ _ _)
    | split
    | ((with_reducible refine Kept.mk_ _ _ _ _ _ _ _ _ _ _ _ _ _ _ _ _ _ _ _ _ _ _ _ _ _ _ _ _ _ _ _ _ _ _ _ _ _ _ _ _ _ _ _ ?_ rfl rfl rfl rfl rfl rfl rfl rfl rfl rfl (by first | exact Nat.le_refl _ | exact Nat.le_succ _ | exact Nat.le_add_right _ _ | omega) rfl (by first | exact Nat.le_refl _ | exact Nat.le_succ _ | omega)); (first | with_reducible assumption | with_reducible apply kept_setConn | with_reducible apply Kept.ite | with_reducible apply Kept.ite_fst | split))

theorem kept_askError {r₀ : State} (s : State) (id : Nat) (h₀ : Kept r₀ s) : Kept r₀ (askError s id) := by
  unfold askError
  try dsimp only
  repeat' first
    | with_reducible assumption
    | with_reducible apply kept_setRun
    | with_reducible apply kept_issueRun
    | with_reducible apply Kept.ite
    | with_reducible apply Kept.ite_fst
    | (first | intro _ _ _ _ _ _ _ | intro _ _ _ _ _ _ | intro _ _ _ _ _ | intro _ _ _ _ | intro _ _ _)
    | split
    | ((with_reducible refine Kept.mk_ _ _ _ _ _ _ _ _ _ _ _ _ _ _ _ _ _ _ _ _ _ _ _ _ _ _ _ _ _ _ _ _ _ _ _ _ _ _ _ _ _ _ _ ?_ rfl rfl rfl rfl rfl rfl rfl rfl rfl rfl (by first | exact Nat.le_refl _ | exact Nat.le_succ _ | exact Nat.le_add_right _ _ | omega) rfl (by first | exact Nat.le_refl _ | exact Nat.le_succ _ | omega)); (first | with_reducible assumption | with_reducible apply kept_setRun | with_reducible apply kept_issueRun | with_reducible apply Kept.ite | with_reducible apply Kept.ite_fst | split))

theorem kept_thinPiece {r₀ : State} (s : State) (r : Run) (g : CollSeg) (p : CollPiece) (h₀ : Kept r₀ s) : Kept r₀ (thinPiece s r g p).1 := by
  unfold thinPiece
  try dsimp only
  repeat' first
    | with_reducible assumption
    | with_reducible apply kept_setRun
    | with_reducible apply kept_issueRun
    | with_reducible apply Kept.ite
    | (first | intro _ _ _ _ _ _ _ | intro _ _ _ _ _ _ | intro _ _ _ _ _ | intro _ _ _ _ | intro _ _ _)
    | ((with_reducible refine Kept.mk_ _ _ _ _ _ _ _ _ _ _ _ _ _ _ _ _ _ _ _ _ _ _ _ _ _ _ _ _ _ _ _ _ _ _ _ _ _ _ _ _ _ _ _ ?_ rfl rfl rfl rfl rfl rfl rfl rfl rfl rfl (by first | exact Nat.le_refl _ | exact Nat.le_succ _ | exact Nat.le_add_right _ _ | omega) rfl (by first | exact Nat.le_refl _ | exact Nat.le_succ _ | omega)); (first | with_reducible assumption | with_reducible apply kept_setRun | with_reducible apply kept_issueRun | with_reducible apply Kept.ite))

theorem kept_loseRun {r₀ : State} (s : State) (id : Nat) (h₀ : Kept r₀ s) : Kept r₀ (loseRun s id) := by
  unfold loseRun
  try dsimp only
  repeat' first
    | with_reducible assumption
    | with_reducible apply kept_setRun
    | with_reducible apply kept_failRun
    | with_reducible apply Kept.ite
    | (first | intro _ _ _ _ _ _ _ | intro _ _ _ _ _ _ | intro _ _ _ _ _ | intro _ _ _ _ | intro _ _ _)
    | split
    | ((with_reducible refine Kept.mk_ _ _ _ _ _ _ _ _ _ _ _ _ _ _ _ _ _ _ _ _ _ _ _ _ _ _ _ _ _ _ _ _ _ _ _ _ _ _ _ _ _ _ _ ?_ rfl rfl rfl rfl rfl rfl rfl rfl rfl rfl (by first | exact Nat.le_refl _ | exact Nat.le_succ _ | exact Nat.le_add_right _ _ | omega) rfl (by first | exact Nat.le_refl _ | exact Nat.le_succ _ | omega)); (first | with_reducible assumption | with_reducible apply kept_setRun | with_reducible apply kept_failRun | with_reducible apply Kept.ite | split))

theorem kept_sendPiece {r₀ : State} (s : State) (id : Nat) (g : CollSeg) (late : Bool) (sched : Bool) (p : CollPiece) (h₀ : Kept r₀ s) : Kept r₀ (sendPiece s id g late sched p) := by
  unfold sendPiece
  try dsimp only
  repeat' first
    | with_reducible assumption
    | with_reducible apply kept_freshWord
    | with_reducible apply kept_request
    | with_reducible apply kept_thinPiece
    | with_reducible apply kept_loseRun
    | with_reducible apply Kept.ite
    | with_reducible apply Kept.ite_fst
    | (first | intro _ _ _ _ _ _ _ | intro _ _ _ _ _ _ | intro _ _ _ _ _ | intro _ _ _ _ | intro _ _ _)
    | split
    | ((with_reducible refine Kept.mk_ _ _ _ _ _ _ _ _ _ _ _ _ _ _ _ _ _ _ _ _ _ _ _ _ _ _ _ _ _ _ _ _ _ _ _ _ _ _ _ _ _ _ _ ?_ rfl rfl rfl rfl rfl rfl rfl rfl rfl rfl (by first | exact Nat.le_refl _ | exact Nat.le_succ _ | exact Nat.le_add_right _ _ | omega) rfl (by first | exact Nat.le_refl _ | exact Nat.le_succ _ | omega)); (first | with_reducible assumption | with_reducible apply kept_freshWord | with_reducible apply kept_request | with_reducible apply kept_thinPiece | with_reducible apply kept_loseRun | with_reducible apply Kept.ite | with_reducible apply Kept.ite_fst | split))

theorem kept_sendSeg {r₀ : State} (s : State) (id : Nat) (g : CollSeg) (ps : List CollPiece) (late : Bool) (sched : Bool) (h₀ : Kept r₀ s) : Kept r₀ (sendSeg s id g ps late sched) := by
  unfold sendSeg
  try dsimp only
  repeat' first
    | with_reducible assumption
    | with_reducible apply kept_setRun
    | with_reducible apply kept_sendPiece
    | with_reducible apply Kept.ite
    | with_reducible apply Kept.foldl
    | with_reducible apply Kept.foldl_fst
    | with_reducible apply Kept.foldl_snd
    | (first | intro _ _ _ _ _ _ _ | intro _ _ _ _ _ _ | intro _ _ _ _ _ | intro _ _ _ _ | intro _ _ _)
    | split
    | ((with_reducible refine Kept.mk_ _ _ _ _ _ _ _ _ _ _ _ _ _ _ _ _ _ _ _ _ _ _ _ _ _ _ _ _ _ _ _ _ _ _ _ _ _ _ _ _ _ _ _ ?_ rfl rfl rfl rfl rfl rfl rfl rfl rfl rfl (by first | exact Nat.le_refl _ | exact Nat.le_succ _ | exact Nat.le_add_right _ _ | omega) rfl (by first | exact Nat.le_refl _ | exact Nat.le_succ _ | omega)); (first | with_reducible assumption | with_reducible apply kept_setRun | with_reducible apply kept_sendPiece | with_reducible apply Kept.ite | with_reducible apply Kept.foldl | with_reducible apply Kept.foldl_fst | with_reducible apply Kept.foldl_snd | split))

theorem kept_writeVector {r₀ : State} (s : State) (id : Nat) (i : Nat) (data : List Byte) (h₀ : Kept r₀ s) : Kept r₀ (writeVector s id i data) := by
  unfold writeVector
  try dsimp only
  repeat' first
    | with_reducible assumption
    | with_reducible apply kept_setRun
    | with_reducible apply kept_issueRun
    | with_reducible apply Kept.ite
    | (first | intro _ _ _ _ _ _ _ | intro _ _ _ _ _ _ | intro _ _ _ _ _ | intro _ _ _ _ | intro _ _ _)
    | split
    | ((with_reducible refine Kept.mk_ _ _ _ _ _ _ _ _ _ _ _ _ _ _ _ _ _ _ _ _ _ _ _ _ _ _ _ _ _ _ _ _ _ _ _ _ _ _ _ _ _ _ _ ?_ rfl rfl rfl rfl rfl rfl rfl rfl rfl rfl (by first | exact Nat.le_refl _ | exact Nat.le_succ _ | exact Nat.le_add_right _ _ | omega) rfl (by first | exact Nat.le_refl _ | exact Nat.le_succ _ | omega)); (first | with_reducible assumption | with_reducible apply kept_setRun | with_reducible apply kept_issueRun | with_reducible apply Kept.ite | split))

theorem kept_writeOwn {r₀ : State} (s : State) (id : Nat) (h₀ : Kept r₀ s) : Kept r₀ (writeOwn s id) := by
  unfold writeOwn
  try dsimp only
  repeat' first
    | with_reducible assumption
    | with_reducible apply kept_setRun
    | with_reducible apply kept_writeVector
    | with_reducible apply Kept.ite
    | (first | intro _ _ _ _ _ _ _ | intro _ _ _ _ _ _ | intro _ _ _ _ _ | intro _ _ _ _ | intro _ _ _)
    | split
    | ((with_reducible refine Kept.mk_ _ _ _ _ _ _ _ _ _ _ _ _ _ _ _ _ _ _ _ _ _ _ _ _ _ _ _ _ _ _ _ _ _ _ _ _ _ _ _ _ _ _ _ ?_ rfl rfl rfl rfl rfl rfl rfl rfl rfl rfl (by first | exact Nat.le_refl _ | exact Nat.le_succ _ | exact Nat.le_add_right _ _ | omega) rfl (by first | exact Nat.le_refl _ | exact Nat.le_succ _ | omega)); (first | with_reducible assumption | with_reducible apply kept_setRun | with_reducible apply kept_writeVector | with_reducible apply Kept.ite | split))

theorem kept_takeSegment {r₀ : State} (s : State) (p : Nat) (r : Run) (x : Segment) (h₀ : Kept r₀ s) : Kept r₀ (takeSegment s p r x) := by
  unfold takeSegment
  try dsimp only
  repeat' first
    | with_reducible assumption
    | with_reducible apply kept_setPort
    | with_reducible apply kept_raiseConn
    | with_reducible apply Kept.ite
    | (first | intro _ _ _ _ _ _ _ | intro _ _ _ _ _ _ | intro _ _ _ _ _ | intro _ _ _ _ | intro _ _ _)
    | ((with_reducible refine Kept.mk_ _ _ _ _ _ _ _ _ _ _ _ _ _ _ _ _ _ _ _ _ _ _ _ _ _ _ _ _ _ _ _ _ _ _ _ _ _ _ _ _ _ _ _ ?_ rfl rfl rfl rfl rfl rfl rfl rfl rfl rfl (by first | exact Nat.le_refl _ | exact Nat.le_succ _ | exact Nat.le_add_right _ _ | omega) rfl (by first | exact Nat.le_refl _ | exact Nat.le_succ _ | omega)); (first | with_reducible assumption | with_reducible apply kept_setPort | with_reducible apply kept_raiseConn | with_reducible apply Kept.ite))

theorem kept_feedHeld {r₀ : State} (s : State) (id : Nat) (h₀ : Kept r₀ s) : Kept r₀ (feedHeld s id) := by
  unfold feedHeld
  try dsimp only
  repeat' first
    | with_reducible assumption
    | with_reducible apply kept_setPort
    | with_reducible apply kept_takeSegment
    | with_reducible apply Kept.ite
    | with_reducible apply Kept.foldl
    | with_reducible apply Kept.foldl_fst
    | with_reducible apply Kept.foldl_snd
    | (first | intro _ _ _ _ _ _ _ | intro _ _ _ _ _ _ | intro _ _ _ _ _ | intro _ _ _ _ | intro _ _ _)
    | split
    | ((with_reducible refine Kept.mk_ _ _ _ _ _ _ _ _ _ _ _ _ _ _ _ _ _ _ _ _ _ _ _ _ _ _ _ _ _ _ _ _ _ _ _ _ _ _ _ _ _ _ _ ?_ rfl rfl rfl rfl rfl rfl rfl rfl rfl rfl (by first | exact Nat.le_refl _ | exact Nat.le_succ _ | exact Nat.le_add_right _ _ | omega) rfl (by first | exact Nat.le_refl _ | exact Nat.le_succ _ | omega)); (first | with_reducible assumption | with_reducible apply kept_setPort | with_reducible apply kept_takeSegment | with_reducible apply Kept.ite | with_reducible apply Kept.foldl | with_reducible apply Kept.foldl_fst | with_reducible apply Kept.foldl_snd | split))

theorem kept_beginGroup {r₀ : State} (s : State) (id : Nat) (h₀ : Kept r₀ s) : Kept r₀ (beginGroup s id) := by
  unfold beginGroup
  try dsimp only
  repeat' first
    | with_reducible assumption
    | with_reducible apply kept_setRun
    | with_reducible apply kept_bindSailings
    | with_reducible apply kept_feedHeld
    | with_reducible apply Kept.ite
    | with_reducible apply Kept.ite_fst
    | (first | intro _ _ _ _ _ _ _ | intro _ _ _ _ _ _ | intro _ _ _ _ _ | intro _ _ _ _ | intro _ _ _)
    | split
    | ((with_reducible refine Kept.mk_ _ _ _ _ _ _ _ _ _ _ _ _ _ _ _ _ _ _ _ _ _ _ _ _ _ _ _ _ _ _ _ _ _ _ _ _ _ _ _ _ _ _ _ ?_ rfl rfl rfl rfl rfl rfl rfl rfl rfl rfl (by first | exact Nat.le_refl _ | exact Nat.le_succ _ | exact Nat.le_add_right _ _ | omega) rfl (by first | exact Nat.le_refl _ | exact Nat.le_succ _ | omega)); (first | with_reducible assumption | with_reducible apply kept_setRun | with_reducible apply kept_bindSailings | with_reducible apply kept_feedHeld | with_reducible apply Kept.ite | with_reducible apply Kept.ite_fst | split))

theorem kept_finishNorm {r₀ : State} (s : State) (r : Run) (h₀ : Kept r₀ s) : Kept r₀ (finishNorm s r) := by
  unfold finishNorm
  try dsimp only
  repeat' first
    | with_reducible assumption
    | with_reducible apply kept_setRun
    | with_reducible apply kept_dropRun
    | with_reducible apply kept_issueRun
    | with_reducible apply kept_flagAdd
    | with_reducible apply Kept.ite
    | (first | intro _ _ _ _ _ _ _ | intro _ _ _ _ _ _ | intro _ _ _ _ _ | intro _ _ _ _ | intro _ _ _)
    | split
    | ((with_reducible refine Kept.mk_ _ _ _ _ _ _ _ _ _ _ _ _ _ _ _ _ _ _ _ _ _ _ _ _ _ _ _ _ _ _ _ _ _ _ _ _ _ _ _ _ _ _ _ ?_ rfl rfl rfl rfl rfl rfl rfl rfl rfl rfl (by first | exact Nat.le_refl _ | exact Nat.le_succ _ | exact Nat.le_add_right _ _ | omega) rfl (by first | exact Nat.le_refl _ | exact Nat.le_succ _ | omega)); (first | with_reducible assumption | with_reducible apply kept_setRun | with_reducible apply kept_dropRun | with_reducible apply kept_issueRun | with_reducible apply kept_flagAdd | with_reducible apply Kept.ite | split))

theorem kept_sendReady {r₀ : State} (id : Nat) (a_ : Nat) : ∀ (s : State), Kept r₀ s → Kept r₀ ((sendReady id a_ s)) := by
  induction a_ with
  | zero =>
    intro s h₀
    simp only [sendReady]
    repeat' first
      | with_reducible assumption
      | with_reducible apply ih
      | with_reducible apply kept_askError
      | with_reducible apply kept_sendSeg
      | with_reducible apply Kept.ite
      | (first | intro _ _ _ _ _ _ _ | intro _ _ _ _ _ _ | intro _ _ _ _ _ | intro _ _ _ _ | intro _ _ _)
      | split
      | ((with_reducible refine Kept.mk_ _ _ _ _ _ _ _ _ _ _ _ _ _ _ _ _ _ _ _ _ _ _ _ _ _ _ _ _ _ _ _ _ _ _ _ _ _ _ _ _ _ _ _ ?_ rfl rfl rfl rfl rfl rfl rfl rfl rfl rfl (by first | exact Nat.le_refl _ | exact Nat.le_succ _ | exact Nat.le_add_right _ _ | omega) rfl (by first | exact Nat.le_refl _ | exact Nat.le_succ _ | omega)); (first | with_reducible assumption | with_reducible apply ih | with_reducible apply kept_askError | with_reducible apply kept_sendSeg | with_reducible apply Kept.ite | split))
  | succ k ih =>
    intro s h₀
    simp only [sendReady]
    repeat' first
      | with_reducible assumption
      | with_reducible apply ih
      | with_reducible apply kept_askError
      | with_reducible apply kept_sendSeg
      | with_reducible apply Kept.ite
      | (first | intro _ _ _ _ _ _ _ | intro _ _ _ _ _ _ | intro _ _ _ _ _ | intro _ _ _ _ | intro _ _ _)
      | split
      | ((with_reducible refine Kept.mk_ _ _ _ _ _ _ _ _ _ _ _ _ _ _ _ _ _ _ _ _ _ _ _ _ _ _ _ _ _ _ _ _ _ _ _ _ _ _ _ _ _ _ _ ?_ rfl rfl rfl rfl rfl rfl rfl rfl rfl rfl (by first | exact Nat.le_refl _ | exact Nat.le_succ _ | exact Nat.le_add_right _ _ | omega) rfl (by first | exact Nat.le_refl _ | exact Nat.le_succ _ | omega)); (first | with_reducible assumption | with_reducible apply ih | with_reducible apply kept_askError | with_reducible apply kept_sendSeg | with_reducible apply Kept.ite | split))

theorem kept_pump {r₀ : State} (id : Nat) (a_ : Nat) : ∀ (s : State), Kept r₀ s → Kept r₀ ((pump id a_ s)) := by
  induction a_ with
  | zero =>
    intro s h₀
    simp only [pump]
    repeat' first
      | with_reducible assumption
      | with_reducible apply ih
      | with_reducible apply kept_failRun
      | with_reducible apply kept_setRun
      | with_reducible apply kept_writeOwn
      | with_reducible apply kept_beginGroup
      | with_reducible apply kept_finishNorm
      | with_reducible apply kept_sendReady
      | with_reducible apply Kept.ite
      | (first | intro _ _ _ _ _ _ _ | intro _ _ _ _ _ _ | intro _ _ _ _ _ | intro _ _ _ _ | intro _ _ _)
      | split
      | ((with_reducible refine Kept.mk_ _ _ _ _ _ _ _ _ _ _ _ _ _ _ _ _ _ _ _ _ _ _ _ _ _ _ _ _ _ _ _ _ _ _ _ _ _ _ _ _ _ _ _ ?_ rfl rfl rfl rfl rfl rfl rfl rfl rfl rfl (by first | exact Nat.le_refl _ | exact Nat.le_succ _ | exact Nat.le_add_right _ _ | omega) rfl (by first | exact Nat.le_refl _ | exact Nat.le_succ _ | omega)); (first | with_reducible assumption | with_reducible apply ih | with_reducible apply kept_failRun | with_reducible apply kept_setRun | with_reducible apply kept_writeOwn | with_reducible apply kept_beginGroup | with_reducible apply kept_finishNorm | with_reducible apply kept_sendReady | with_reducible apply Kept.ite | split))
  | succ k ih =>
    intro s h₀
    simp only [pump]
    repeat' first
      | with_reducible assumption
      | with_reducible apply ih
      | with_reducible apply kept_failRun
      | with_reducible apply kept_setRun
      | with_reducible apply kept_writeOwn
      | with_reducible apply kept_beginGroup
      | with_reducible apply kept_finishNorm
      | with_reducible apply kept_sendReady
      | with_reducible apply Kept.ite
      | (first | intro _ _ _ _ _ _ _ | intro _ _ _ _ _ _ | intro _ _ _ _ _ | intro _ _ _ _ | intro _ _ _)
      | split
      | ((with_reducible refine Kept.mk_ _ _ _ _ _ _ _ _ _ _ _ _ _ _ _ _ _ _ _ _ _ _ _ _ _ _ _ _ _ _ _ _ _ _ _ _ _ _ _ _ _ _ _ ?_ rfl rfl rfl rfl rfl rfl rfl rfl rfl rfl (by first | exact Nat.le_refl _ | exact Nat.le_succ _ | exact Nat.le_add_right _ _ | omega) rfl (by first | exact Nat.le_refl _ | exact Nat.le_succ _ | omega)); (first | with_reducible assumption | with_reducible apply ih | with_reducible apply kept_failRun | with_reducible apply kept_setRun | with_reducible apply kept_writeOwn | with_reducible apply kept_beginGroup | with_reducible apply kept_finishNorm | with_reducible apply kept_sendReady | with_reducible apply Kept.ite | split))

theorem kept_sendXfer {r₀ : State} (s : State) (r : Run) (sched : Bool) (h₀ : Kept r₀ s) : Kept r₀ (sendXfer s r sched) := by
  unfold sendXfer
  try dsimp only
  repeat' first
    | with_reducible assumption
    | with_reducible apply kept_setRun
    | with_reducible apply kept_request
    | with_reducible apply Kept.ite
    | with_reducible apply Kept.ite_fst
    | (first | intro _ _ _ _ _ _ _ | intro _ _ _ _ _ _ | intro _ _ _ _ _ | intro _ _ _ _ | intro _ _ _)
    | ((with_reducible refine Kept.mk_ _ _ _ _ _ _ _ _ _ _ _ _ _ _ _ _ _ _ _ _ _ _ _ _ _ _ _ _ _ _ _ _ _ _ _ _ _ _ _ _ _ _ _ ?_ rfl rfl rfl rfl rfl rfl rfl rfl rfl rfl (by first | exact Nat.le_refl _ | exact Nat.le_succ _ | exact Nat.le_add_right _ _ | omega) rfl (by first | exact Nat.le_refl _ | exact Nat.le_succ _ | omega)); (first | with_reducible assumption | with_reducible apply kept_setRun | with_reducible apply kept_request | with_reducible apply Kept.ite | with_reducible apply Kept.ite_fst))

theorem kept_pumpXfer {r₀ : State} (id : Nat) (a_ : Nat) : ∀ (s : State), Kept r₀ s → Kept r₀ ((pumpXfer id a_ s)) := by
  induction a_ with
  | zero =>
    intro s h₀
    simp only [pumpXfer]
    repeat' first
      | with_reducible assumption
      | with_reducible apply ih
      | with_reducible apply kept_sendXfer
      | with_reducible apply Kept.ite
      | (first | intro _ _ _ _ _ _ _ | intro _ _ _ _ _ _ | intro _ _ _ _ _ | intro _ _ _ _ | intro _ _ _)
      | split
      | ((with_reducible refine Kept.mk_ _ _ _ _ _ _ _ _ _ _ _ _ _ _ _ _ _ _ _ _ _ _ _ _ _ _ _ _ _ _ _ _ _ _ _ _ _ _ _ _ _ _ _ ?_ rfl rfl rfl rfl rfl rfl rfl rfl rfl rfl (by first | exact Nat.le_refl _ | exact Nat.le_succ _ | exact Nat.le_add_right _ _ | omega) rfl (by first | exact Nat.le_refl _ | exact Nat.le_succ _ | omega)); (first | with_reducible assumption | with_reducible apply ih | with_reducible apply kept_sendXfer | with_reducible apply Kept.ite | split))
  | succ k ih =>
    intro s h₀
    simp only [pumpXfer]
    repeat' first
      | with_reducible assumption
      | with_reducible apply ih
      | with_reducible apply kept_sendXfer
      | with_reducible apply Kept.ite
      | (first | intro _ _ _ _ _ _ _ | intro _ _ _ _ _ _ | intro _ _ _ _ _ | intro _ _ _ _ | intro _ _ _)
      | split
      | ((with_reducible refine Kept.mk_ _ _ _ _ _ _ _ _ _ _ _ _ _ _ _ _ _ _ _ _ _ _ _ _ _ _ _ _ _ _ _ _ _ _ _ _ _ _ _ _ _ _ _ ?_ rfl rfl rfl rfl rfl rfl rfl rfl rfl rfl (by first | exact Nat.le_refl _ | exact Nat.le_succ _ | exact Nat.le_add_right _ _ | omega) rfl (by first | exact Nat.le_refl _ | exact Nat.le_succ _ | omega)); (first | with_reducible assumption | with_reducible apply ih | with_reducible apply kept_sendXfer | with_reducible apply Kept.ite | split))

theorem kept_pumpRun {r₀ : State} (s : State) (id : Nat) (h₀ : Kept r₀ s) : Kept r₀ (pumpRun s id) := by
  unfold pumpRun
  try dsimp only
  repeat' first
    | with_reducible assumption
    | with_reducible apply kept_pump
    | with_reducible apply kept_pumpXfer
    | with_reducible apply Kept.ite
    | (first | intro _ _ _ _ _ _ _ | intro _ _ _ _ _ _ | intro _ _ _ _ _ | intro _ _ _ _ | intro _ _ _)
    | split
    | ((with_reducible refine Kept.mk_ _ _ _ _ _ _ _ _ _ _ _ _ _ _ _ _ _ _ _ _ _ _ _ _ _ _ _ _ _ _ _ _ _ _ _ _ _ _ _ _ _ _ _ ?_ rfl rfl rfl rfl rfl rfl rfl rfl rfl rfl (by first | exact Nat.le_refl _ | exact Nat.le_succ _ | exact Nat.le_add_right _ _ | omega) rfl (by first | exact Nat.le_refl _ | exact Nat.le_succ _ | omega)); (first | with_reducible assumption | with_reducible apply kept_pump | with_reducible apply kept_pumpXfer | with_reducible apply Kept.ite | split))

theorem kept_holdRows {r₀ : State} (s : State) (b : Nat) (stream : Nat) (h₀ : Kept r₀ s) : Kept r₀ (holdRows s b stream) := by
  unfold holdRows
  try dsimp only
  repeat' first
    | with_reducible assumption
    | with_reducible apply kept_setRun
    | with_reducible apply Kept.ite
    | with_reducible apply Kept.foldl
    | with_reducible apply Kept.foldl_fst
    | with_reducible apply Kept.foldl_snd
    | (first | intro _ _ _ _ _ _ _ | intro _ _ _ _ _ _ | intro _ _ _ _ _ | intro _ _ _ _ | intro _ _ _)
    | ((with_reducible refine Kept.mk_ _ _ _ _ _ _ _ _ _ _ _ _ _ _ _ _ _ _ _ _ _ _ _ _ _ _ _ _ _ _ _ _ _ _ _ _ _ _ _ _ _ _ _ ?_ rfl rfl rfl rfl rfl rfl rfl rfl rfl rfl (by first | exact Nat.le_refl _ | exact Nat.le_succ _ | exact Nat.le_add_right _ _ | omega) rfl (by first | exact Nat.le_refl _ | exact Nat.le_succ _ | omega)); (first | with_reducible assumption | with_reducible apply kept_setRun | with_reducible apply Kept.ite | with_reducible apply Kept.foldl | with_reducible apply Kept.foldl_fst | with_reducible apply Kept.foldl_snd))

theorem kept_endHolds {r₀ : State} (s : State) (b : Nat) (stream : Nat) (h₀ : Kept r₀ s) : Kept r₀ (endHolds s b stream) := by
  unfold endHolds
  try dsimp only
  repeat' first
    | with_reducible assumption
    | with_reducible apply kept_setRun
    | with_reducible apply Kept.ite
    | with_reducible apply Kept.foldl
    | with_reducible apply Kept.foldl_fst
    | with_reducible apply Kept.foldl_snd
    | (first | intro _ _ _ _ _ _ _ | intro _ _ _ _ _ _ | intro _ _ _ _ _ | intro _ _ _ _ | intro _ _ _)
    | ((with_reducible refine Kept.mk_ _ _ _ _ _ _ _ _ _ _ _ _ _ _ _ _ _ _ _ _ _ _ _ _ _ _ _ _ _ _ _ _ _ _ _ _ _ _ _ _ _ _ _ ?_ rfl rfl rfl rfl rfl rfl rfl rfl rfl rfl (by first | exact Nat.le_refl _ | exact Nat.le_succ _ | exact Nat.le_add_right _ _ | omega) rfl (by first | exact Nat.le_refl _ | exact Nat.le_succ _ | omega)); (first | with_reducible assumption | with_reducible apply kept_setRun | with_reducible apply Kept.ite | with_reducible apply Kept.foldl | with_reducible apply Kept.foldl_fst | with_reducible apply Kept.foldl_snd))

theorem kept_stageElems {r₀ : State} (s : State) (id : Nat) (data : List Byte) (h₀ : Kept r₀ s) : Kept r₀ (stageElems s id data) := by
  unfold stageElems
  try dsimp only
  repeat' first
    | with_reducible assumption
    | with_reducible apply kept_setRun
    | with_reducible apply kept_writeVector
    | with_reducible apply kept_pumpRun
    | with_reducible apply Kept.ite
    | with_reducible apply Kept.foldl
    | with_reducible apply Kept.foldl_fst
    | with_reducible apply Kept.foldl_snd
    | (first | intro _ _ _ _ _ _ _ | intro _ _ _ _ _ _ | intro _ _ _ _ _ | intro _ _ _ _ | intro _ _ _)
    | split
    | ((with_reducible refine Kept.mk_ _ _ _ _ _ _ _ _ _ _ _ _ _ _ _ _ _ _ _ _ _ _ _ _ _ _ _ _ _ _ _ _ _ _ _ _ _ _ _ _ _ _ _ ?_ rfl rfl rfl rfl rfl rfl rfl rfl rfl rfl (by first | exact Nat.le_refl _ | exact Nat.le_succ _ | exact Nat.le_add_right _ _ | omega) rfl (by first | exact Nat.le_refl _ | exact Nat.le_succ _ | omega)); (first | with_reducible assumption | with_reducible apply kept_setRun | with_reducible apply kept_writeVector | with_reducible apply kept_pumpRun | with_reducible apply Kept.ite | with_reducible apply Kept.foldl | with_reducible apply Kept.foldl_fst | with_reducible apply Kept.foldl_snd | split))

theorem kept_deliverRows {r₀ : State} (b : Nat) (stream : Nat) (a_ : Nat) : ∀ (s : State), Kept r₀ s → Kept r₀ ((deliverRows b stream a_ s)) := by
  induction a_ with
  | zero =>
    intro s h₀
    simp only [deliverRows]
    repeat' first
      | with_reducible assumption
      | with_reducible apply ih
      | with_reducible apply kept_endHolds
      | with_reducible apply kept_holdRows
      | with_reducible apply kept_setRun
      | with_reducible apply kept_raiseShape
      | with_reducible apply kept_failRun
      | with_reducible apply kept_stageElems
      | with_reducible apply Kept.ite
      | (first | intro _ _ _ _ _ _ _ | intro _ _ _ _ _ _ | intro _ _ _ _ _ | intro _ _ _ _ | intro _ _ _)
      | split
      | ((with_reducible refine Kept.mk_ _ _ _ _ _ _ _ _ _ _ _ _ _ _ _ _ _ _ _ _ _ _ _ _ _ _ _ _ _ _ _ _ _ _ _ _ _ _ _ _ _ _ _ ?_ rfl rfl rfl rfl rfl rfl rfl rfl rfl rfl (by first | exact Nat.le_refl _ | exact Nat.le_succ _ | exact Nat.le_add_right _ _ | omega) rfl (by first | exact Nat.le_refl _ | exact Nat.le_succ _ | omega)); (first | with_reducible assumption | with_reducible apply ih | with_reducible apply kept_endHolds | with_reducible apply kept_holdRows | with_reducible apply kept_setRun | with_reducible apply kept_raiseShape | with_reducible apply kept_failRun | with_reducible apply kept_stageElems | with_reducible apply Kept.ite | split))
  | succ k ih =>
    intro s h₀
    simp only [deliverRows]
    repeat' first
      | with_reducible assumption
      | with_reducible apply ih
      | with_reducible apply kept_endHolds
      | with_reducible apply kept_holdRows
      | with_reducible apply kept_setRun
      | with_reducible apply kept_raiseShape
      | with_reducible apply kept_failRun
      | with_reducible apply kept_stageElems
      | with_reducible apply Kept.ite
      | (first | intro _ _ _ _ _ _ _ | intro _ _ _ _ _ _ | intro _ _ _ _ _ | intro _ _ _ _ | intro _ _ _)
      | split
      | ((with_reducible refine Kept.mk_ _ _ _ _ _ _ _ _ _ _ _ _ _ _ _ _ _ _ _ _ _ _ _ _ _ _ _ _ _ _ _ _ _ _ _ _ _ _ _ _ _ _ _ ?_ rfl rfl rfl rfl rfl rfl rfl rfl rfl rfl (by first | exact Nat.le_refl _ | exact Nat.le_succ _ | exact Nat.le_add_right _ _ | omega) rfl (by first | exact Nat.le_refl _ | exact Nat.le_succ _ | omega)); (first | with_reducible assumption | with_reducible apply ih | with_reducible apply kept_endHolds | with_reducible apply kept_holdRows | with_reducible apply kept_setRun | with_reducible apply kept_raiseShape | with_reducible apply kept_failRun | with_reducible apply kept_stageElems | with_reducible apply Kept.ite | split))

end Sys2Proof.Laws
end

