-- ==== Sys2Proof/Laws/KeptCommand.lean ====
section
/-! SUPPORT. What each operation of Machine/Command.lean keeps. -/

namespace Sys2Proof.Laws

set_option linter.all false

open Sys2Proof.Machine Sys2Proof.Safety

theorem kept_runInCtx {r₀ : State} (s : State) (q : Nat) (c : Nat) (b : Nat) (w : BitVec 256) (h₀ : Kept r₀ s) : Kept r₀ (runInCtx s q c b w) := by
  unfold runInCtx
  try dsimp only
  repeat' first
    | with_reducible assumption
    | with_reducible apply kept_setCtx
    | with_reducible apply kept_sflagUp
    | with_reducible apply Kept.ite
    | (first | intro _ _ _ _ _ _ _ | intro _ _ _ _ _ _ | intro _ _ _ _ _ | intro _ _ _ _ | intro _ _ _)
    | ((with_reducible refine Kept.mk_ _ _ _ _ _ _ _ _ _ _ _ _ _ _ _ _ _ _ _ _ _ _ _ _ _ _ _ _ _ _ _ _ _ _ _ _ _ _ _ _ _ _ _ ?_ rfl rfl rfl rfl rfl rfl rfl rfl rfl rfl (by first | exact Nat.le_refl _ | exact Nat.le_succ _ | exact Nat.le_add_right _ _ | omega) rfl (by first | exact Nat.le_refl _ | exact Nat.le_succ _ | omega)); (first | with_reducible assumption | with_reducible apply kept_setCtx | with_reducible apply kept_sflagUp | with_reducible apply Kept.ite))

theorem kept_runReady {r₀ : State} (s : State) (q : Nat) (c : Nat) (b : Nat) (h₀ : Kept r₀ s) : Kept r₀ (runReady s q c b) := by
  unfold runReady
  try dsimp only
  repeat' first
    | with_reducible assumption
    | with_reducible apply kept_runInCtx
    | with_reducible apply Kept.ite
    | (first | intro _ _ _ _ _ _ _ | intro _ _ _ _ _ _ | intro _ _ _ _ _ | intro _ _ _ _ | intro _ _ _)
    | split
    | ((with_reducible refine Kept.mk_ _ _ _ _ _ _ _ _ _ _ _ _ _ _ _ _ _ _ _ _ _ _ _ _ _ _ _ _ _ _ _ _ _ _ _ _ _ _ _ _ _ _ _ ?_ rfl rfl rfl rfl rfl rfl rfl rfl rfl rfl (by first | exact Nat.le_refl _ | exact Nat.le_succ _ | exact Nat.le_add_right _ _ | omega) rfl (by first | exact Nat.le_refl _ | exact Nat.le_succ _ | omega)); (first | with_reducible assumption | with_reducible apply kept_runInCtx | with_reducible apply Kept.ite | split))

theorem kept_takeElement {r₀ : State} (s : State) (d : Nat) (n : Nat) (h₀ : Kept r₀ s) : Kept r₀ (takeElement s d n).1 := by
  unfold takeElement
  try dsimp only
  repeat' first
    | with_reducible assumption
    | with_reducible apply kept_setDeck
    | with_reducible apply Kept.ite
    | (first | intro _ _ _ _ _ _ _ | intro _ _ _ _ _ _ | intro _ _ _ _ _ | intro _ _ _ _ | intro _ _ _)
    | split
    | ((with_reducible refine Kept.mk_ _ _ _ _ _ _ _ _ _ _ _ _ _ _ _ _ _ _ _ _ _ _ _ _ _ _ _ _ _ _ _ _ _ _ _ _ _ _ _ _ _ _ _ ?_ rfl rfl rfl rfl rfl rfl rfl rfl rfl rfl (by first | exact Nat.le_refl _ | exact Nat.le_succ _ | exact Nat.le_add_right _ _ | omega) rfl (by first | exact Nat.le_refl _ | exact Nat.le_succ _ | omega)); (first | with_reducible assumption | with_reducible apply kept_setDeck | with_reducible apply Kept.ite | split))

theorem kept_takeAtIssue {r₀ : State} (s : State) (q : Nat) (c : Nat) (b : Nat) (w : BitVec 256) (h₀ : Kept r₀ s) : Kept r₀ (takeAtIssue s q c b w).1 := by
  unfold takeAtIssue
  try dsimp only
  repeat' first
    | with_reducible assumption
    | with_reducible apply kept_takeCursors
    | with_reducible apply kept_takeElement
    | with_reducible apply Kept.ite
    | with_reducible apply Kept.ite_fst
    | (first | intro _ _ _ _ _ _ _ | intro _ _ _ _ _ _ | intro _ _ _ _ _ | intro _ _ _ _ | intro _ _ _)
    | split
    | ((with_reducible refine Kept.mk_ _ _ _ _ _ _ _ _ _ _ _ _ _ _ _ _ _ _ _ _ _ _ _ _ _ _ _ _ _ _ _ _ _ _ _ _ _ _ _ _ _ _ _ ?_ rfl rfl rfl rfl rfl rfl rfl rfl rfl rfl (by first | exact Nat.le_refl _ | exact Nat.le_succ _ | exact Nat.le_add_right _ _ | omega) rfl (by first | exact Nat.le_refl _ | exact Nat.le_succ _ | omega)); (first | with_reducible assumption | with_reducible apply kept_takeCursors | with_reducible apply kept_takeElement | with_reducible apply Kept.ite | with_reducible apply Kept.ite_fst | split))

theorem kept_pushCmd {r₀ : State} (s : State) (q : Nat) (c : Nat) (b : Nat) (w : BitVec 256) (slot : Nat) (h₀ : Kept r₀ s) : Kept r₀ (pushCmd s q c b w slot) := by
  unfold pushCmd
  try dsimp only
  repeat' first
    | with_reducible assumption
    | with_reducible apply kept_setCtx
    | with_reducible apply kept_freshId
    | with_reducible apply kept_headBegin
    | with_reducible apply kept_inuseUp
    | with_reducible apply kept_takeAtIssue
    | with_reducible apply Kept.ite
    | with_reducible apply Kept.ite_fst
    | (first | intro _ _ _ _ _ _ _ | intro _ _ _ _ _ _ | intro _ _ _ _ _ | intro _ _ _ _ | intro _ _ _)
    | ((with_reducible refine Kept.mk_ _ _ _ _ _ _ _ _ _ _ _ _ _ _ _ _ _ _ _ _ _ _ _ _ _ _ _ _ _ _ _ _ _ _ _ _ _ _ _ _ _ _ _ ?_ rfl rfl rfl rfl rfl rfl rfl rfl rfl rfl (by first | exact Nat.le_refl _ | exact Nat.le_succ _ | exact Nat.le_add_right _ _ | omega) rfl (by first | exact Nat.le_refl _ | exact Nat.le_succ _ | omega)); (first | with_reducible assumption | with_reducible apply kept_setCtx | with_reducible apply kept_freshId | with_reducible apply kept_headBegin | with_reducible apply kept_inuseUp | with_reducible apply kept_takeAtIssue | with_reducible apply Kept.ite | with_reducible apply Kept.ite_fst))

theorem kept_issueCmd {r₀ : State} (s : State) (q : Nat) (c : Nat) (b : Nat) (m : QCmd) (h₀ : Kept r₀ s) : Kept r₀ (issueCmd s q c b m) := by
  unfold issueCmd
  try dsimp only
  repeat' first
    | with_reducible assumption
    | with_reducible apply kept_setCtx
    | with_reducible apply kept_pushCmd
    | with_reducible apply Kept.ite
    | (first | intro _ _ _ _ _ _ _ | intro _ _ _ _ _ _ | intro _ _ _ _ _ | intro _ _ _ _ | intro _ _ _)
    | split
    | ((with_reducible refine Kept.mk_ _ _ _ _ _ _ _ _ _ _ _ _ _ _ _ _ _ _ _ _ _ _ _ _ _ _ _ _ _ _ _ _ _ _ _ _ _ _ _ _ _ _ _ ?_ rfl rfl rfl rfl rfl rfl rfl rfl rfl rfl (by first | exact Nat.le_refl _ | exact Nat.le_succ _ | exact Nat.le_add_right _ _ | omega) rfl (by first | exact Nat.le_refl _ | exact Nat.le_succ _ | omega)); (first | with_reducible assumption | with_reducible apply kept_setCtx | with_reducible apply kept_pushCmd | with_reducible apply Kept.ite | split))

theorem kept_dispatchCmd {r₀ : State} (s : State) (q : Nat) (c : Nat) (b : Nat) (w : BitVec 256) (slot : Nat) (h₀ : Kept r₀ s) : Kept r₀ (dispatchCmd s q c b w slot) := by
  unfold dispatchCmd
  try dsimp only
  repeat' first
    | with_reducible assumption
    | with_reducible apply kept_setCtx
    | with_reducible apply kept_raiseBerth
    | with_reducible apply kept_waitBegin
    | with_reducible apply kept_runReady
    | with_reducible apply kept_issueCmd
    | with_reducible apply Kept.ite
    | (first | intro _ _ _ _ _ _ _ | intro _ _ _ _ _ _ | intro _ _ _ _ _ | intro _ _ _ _ | intro _ _ _)
    | split
    | ((with_reducible refine Kept.mk_ _ _ _ _ _ _ _ _ _ _ _ _ _ _ _ _ _ _ _ _ _ _ _ _ _ _ _ _ _ _ _ _ _ _ _ _ _ _ _ _ _ _ _ ?_ rfl rfl rfl rfl rfl rfl rfl rfl rfl rfl (by first | exact Nat.le_refl _ | exact Nat.le_succ _ | exact Nat.le_add_right _ _ | omega) rfl (by first | exact Nat.le_refl _ | exact Nat.le_succ _ | omega)); (first | with_reducible assumption | with_reducible apply kept_setCtx | with_reducible apply kept_raiseBerth | with_reducible apply kept_waitBegin | with_reducible apply kept_runReady | with_reducible apply kept_issueCmd | with_reducible apply Kept.ite | split))

theorem kept_fetchCmd {r₀ : State} (s : State) (q : Nat) (c : Nat) (b : Nat) (ecc : Ecc) (h₀ : Kept r₀ s) : Kept r₀ (fetchCmd s q c b ecc) := by
  unfold fetchCmd
  try dsimp only
  repeat' first
    | with_reducible assumption
    | with_reducible apply kept_setCtx
    | with_reducible apply kept_raiseBerth
    | with_reducible apply kept_occupy
    | with_reducible apply kept_dispatchCmd
    | with_reducible apply Kept.ite
    | (first | intro _ _ _ _ _ _ _ | intro _ _ _ _ _ _ | intro _ _ _ _ _ | intro _ _ _ _ | intro _ _ _)
    | split
    | ((with_reducible refine Kept.mk_ _ _ _ _ _ _ _ _ _ _ _ _ _ _ _ _ _ _ _ _ _ _ _ _ _ _ _ _ _ _ _ _ _ _ _ _ _ _ _ _ _ _ _ ?_ rfl rfl rfl rfl rfl rfl rfl rfl rfl rfl (by first | exact Nat.le_refl _ | exact Nat.le_succ _ | exact Nat.le_add_right _ _ | omega) rfl (by first | exact Nat.le_refl _ | exact Nat.le_succ _ | omega)); (first | with_reducible assumption | with_reducible apply kept_setCtx | with_reducible apply kept_raiseBerth | with_reducible apply kept_occupy | with_reducible apply kept_dispatchCmd | with_reducible apply Kept.ite | split))

theorem kept_passTurn {r₀ : State} (s : State) (q : Nat) (c : Nat) (h₀ : Kept r₀ s) : Kept r₀ (passTurn s q c) := by
  unfold passTurn
  try dsimp only
  repeat' first
    | with_reducible assumption
    | with_reducible apply kept_setQuay
    | with_reducible apply Kept.ite
    | (first | intro _ _ _ _ _ _ _ | intro _ _ _ _ _ _ | intro _ _ _ _ _ | intro _ _ _ _ | intro _ _ _)
    | ((with_reducible refine Kept.mk_ _ _ _ _ _ _ _ _ _ _ _ _ _ _ _ _ _ _ _ _ _ _ _ _ _ _ _ _ _ _ _ _ _ _ _ _ _ _ _ _ _ _ _ ?_ rfl rfl rfl rfl rfl rfl rfl rfl rfl rfl (by first | exact Nat.le_refl _ | exact Nat.le_succ _ | exact Nat.le_add_right _ _ | omega) rfl (by first | exact Nat.le_refl _ | exact Nat.le_succ _ | omega)); (first | with_reducible assumption | with_reducible apply kept_setQuay | with_reducible apply Kept.ite))

theorem kept_issueNext {r₀ : State} (s : State) (q : Nat) (c : Nat) (b : Nat) (ecc : Ecc) (h₀ : Kept r₀ s) : Kept r₀ (issueNext s q c b ecc) := by
  unfold issueNext
  try dsimp only
  repeat' first
    | with_reducible assumption
    | with_reducible apply kept_runInCtx
    | with_reducible apply kept_issueCmd
    | with_reducible apply kept_fetchCmd
    | with_reducible apply Kept.ite
    | (first | intro _ _ _ _ _ _ _ | intro _ _ _ _ _ _ | intro _ _ _ _ _ | intro _ _ _ _ | intro _ _ _)
    | split
    | ((with_reducible refine Kept.mk_ _ _ _ _ _ _ _ _ _ _ _ _ _ _ _ _ _ _ _ _ _ _ _ _ _ _ _ _ _ _ _ _ _ _ _ _ _ _ _ _ _ _ _ ?_ rfl rfl rfl rfl rfl rfl rfl rfl rfl rfl (by first | exact Nat.le_refl _ | exact Nat.le_succ _ | exact Nat.le_add_right _ _ | omega) rfl (by first | exact Nat.le_refl _ | exact Nat.le_succ _ | omega)); (first | with_reducible assumption | with_reducible apply kept_runInCtx | with_reducible apply kept_issueCmd | with_reducible apply kept_fetchCmd | with_reducible apply Kept.ite | split))

theorem kept_cmdFetchIssue {r₀ : State} (s : State) (q : Nat) (c : Nat) (ecc : Ecc) (h₀ : Kept r₀ s) : Kept r₀ (cmdFetchIssue s q c ecc) := by
  unfold cmdFetchIssue
  try dsimp only
  repeat' first
    | with_reducible assumption
    | with_reducible apply kept_setCtx
    | with_reducible apply kept_issueCmd
    | with_reducible apply kept_passTurn
    | with_reducible apply kept_issueNext
    | with_reducible apply Kept.ite
    | (first | intro _ _ _ _ _ _ _ | intro _ _ _ _ _ _ | intro _ _ _ _ _ | intro _ _ _ _ | intro _ _ _)
    | split
    | ((with_reducible refine Kept.mk_ _ _ _ _ _ _ _ _ _ _ _ _ _ _ _ _ _ _ _ _ _ _ _ _ _ _ _ _ _ _ _ _ _ _ _ _ _ _ _ _ _ _ _ ?_ rfl rfl rfl rfl rfl rfl rfl rfl rfl rfl (by first | exact Nat.le_refl _ | exact Nat.le_succ _ | exact Nat.le_add_right _ _ | omega) rfl (by first | exact Nat.le_refl _ | exact Nat.le_succ _ | omega)); (first | with_reducible assumption | with_reducible apply kept_setCtx | with_reducible apply kept_issueCmd | with_reducible apply kept_passTurn | with_reducible apply kept_issueNext | with_reducible apply Kept.ite | split))

theorem kept_fetchWaitEnter {r₀ : State} (s : State) (q : Nat) (c : Nat) (h₀ : Kept r₀ s) : Kept r₀ (fetchWaitEnter s q c) := by
  unfold fetchWaitEnter
  try dsimp only
  repeat' first
    | with_reducible assumption
    | with_reducible apply kept_setCtx
    | with_reducible apply Kept.ite
    | (first | intro _ _ _ _ _ _ _ | intro _ _ _ _ _ _ | intro _ _ _ _ _ | intro _ _ _ _ | intro _ _ _)
    | split
    | ((with_reducible refine Kept.mk_ _ _ _ _ _ _ _ _ _ _ _ _ _ _ _ _ _ _ _ _ _ _ _ _ _ _ _ _ _ _ _ _ _ _ _ _ _ _ _ _ _ _ _ ?_ rfl rfl rfl rfl rfl rfl rfl rfl rfl rfl (by first | exact Nat.le_refl _ | exact Nat.le_succ _ | exact Nat.le_add_right _ _ | omega) rfl (by first | exact Nat.le_refl _ | exact Nat.le_succ _ | omega)); (first | with_reducible assumption | with_reducible apply kept_setCtx | with_reducible apply Kept.ite | split))

theorem kept_runHeld {r₀ : State} (s : State) (q : Nat) (c : Nat) (op : Nat) (h₀ : Kept r₀ s) : Kept r₀ (runHeld s q c op) := by
  unfold runHeld
  try dsimp only
  repeat' first
    | with_reducible assumption
    | with_reducible apply kept_runInCtx
    | with_reducible apply kept_passTurn
    | with_reducible apply Kept.ite
    | (first | intro _ _ _ _ _ _ _ | intro _ _ _ _ _ _ | intro _ _ _ _ _ | intro _ _ _ _ | intro _ _ _)
    | split
    | ((with_reducible refine Kept.mk_ _ _ _ _ _ _ _ _ _ _ _ _ _ _ _ _ _ _ _ _ _ _ _ _ _ _ _ _ _ _ _ _ _ _ _ _ _ _ _ _ _ _ _ ?_ rfl rfl rfl rfl rfl rfl rfl rfl rfl rfl (by first | exact Nat.le_refl _ | exact Nat.le_succ _ | exact Nat.le_add_right _ _ | omega) rfl (by first | exact Nat.le_refl _ | exact Nat.le_succ _ | omega)); (first | with_reducible assumption | with_reducible apply kept_runInCtx | with_reducible apply kept_passTurn | with_reducible apply Kept.ite | split))

theorem kept_flagsetAt {r₀ : State} (s : State) (q : Nat) (c : Nat) (b : Nat) (m : QCmd) (h₀ : Kept r₀ s) : Kept r₀ (flagsetAt s q c b m) := by
  unfold flagsetAt
  try dsimp only
  repeat' first
    | with_reducible assumption
    | with_reducible apply kept_flagAdd
    | with_reducible apply kept_flagSet
    | with_reducible apply kept_sflagUp
    | with_reducible apply kept_popHead
    | with_reducible apply Kept.ite
    | (first | intro _ _ _ _ _ _ _ | intro _ _ _ _ _ _ | intro _ _ _ _ _ | intro _ _ _ _ | intro _ _ _)
    | split
    | ((with_reducible refine Kept.mk_ _ _ _ _ _ _ _ _ _ _ _ _ _ _ _ _ _ _ _ _ _ _ _ _ _ _ _ _ _ _ _ _ _ _ _ _ _ _ _ _ _ _ _ ?_ rfl rfl rfl rfl rfl rfl rfl rfl rfl rfl (by first | exact Nat.le_refl _ | exact Nat.le_succ _ | exact Nat.le_add_right _ _ | omega) rfl (by first | exact Nat.le_refl _ | exact Nat.le_succ _ | omega)); (first | with_reducible assumption | with_reducible apply kept_flagAdd | with_reducible apply kept_flagSet | with_reducible apply kept_sflagUp | with_reducible apply kept_popHead | with_reducible apply Kept.ite | split))

theorem kept_endAt {r₀ : State} (s : State) (q : Nat) (c : Nat) (b : Nat) (m : QCmd) (h₀ : Kept r₀ s) : Kept r₀ (endAt s q c b m) := by
  unfold endAt
  try dsimp only
  repeat' first
    | with_reducible assumption
    | with_reducible apply kept_setCtx
    | with_reducible apply kept_sflagUp
    | with_reducible apply kept_popHead
    | with_reducible apply kept_occupy
    | with_reducible apply Kept.ite
    | (first | intro _ _ _ _ _ _ _ | intro _ _ _ _ _ _ | intro _ _ _ _ _ | intro _ _ _ _ | intro _ _ _)
    | ((with_reducible refine Kept.mk_ _ _ _ _ _ _ _ _ _ _ _ _ _ _ _ _ _ _ _ _ _ _ _ _ _ _ _ _ _ _ _ _ _ _ _ _ _ _ _ _ _ _ _ ?_ rfl rfl rfl rfl rfl rfl rfl rfl rfl rfl (by first | exact Nat.le_refl _ | exact Nat.le_succ _ | exact Nat.le_add_right _ _ | omega) rfl (by first | exact Nat.le_refl _ | exact Nat.le_succ _ | omega)); (first | with_reducible assumption | with_reducible apply kept_setCtx | with_reducible apply kept_sflagUp | with_reducible apply kept_popHead | with_reducible apply kept_occupy | with_reducible apply Kept.ite))

theorem kept_endNotify {r₀ : State} (s : State) (q : Nat) (c : Nat) (h₀ : Kept r₀ s) : Kept r₀ (endNotify s q c) := by
  unfold endNotify
  try dsimp only
  repeat' first
    | with_reducible assumption
    | with_reducible apply kept_setCtx
    | with_reducible apply kept_latchEnd
    | with_reducible apply Kept.ite
    | (first | intro _ _ _ _ _ _ _ | intro _ _ _ _ _ _ | intro _ _ _ _ _ | intro _ _ _ _ | intro _ _ _)
    | split
    | ((with_reducible refine Kept.mk_ _ _ _ _ _ _ _ _ _ _ _ _ _ _ _ _ _ _ _ _ _ _ _ _ _ _ _ _ _ _ _ _ _ _ _ _ _ _ _ _ _ _ _ ?_ rfl rfl rfl rfl rfl rfl rfl rfl rfl rfl (by first | exact Nat.le_refl _ | exact Nat.le_succ _ | exact Nat.le_add_right _ _ | omega) rfl (by first | exact Nat.le_refl _ | exact Nat.le_succ _ | omega)); (first | with_reducible assumption | with_reducible apply kept_setCtx | with_reducible apply kept_latchEnd | with_reducible apply Kept.ite | split))

theorem kept_raiseWaitTmo {r₀ : State} (s : State) (q : Nat) (c : Nat) (b : Nat) (kind : Nat) (field : Nat) (value : Nat) (h₀ : Kept r₀ s) : Kept r₀ (raiseWaitTmo s q c b kind field value) := by
  unfold raiseWaitTmo
  try dsimp only
  repeat' first
    | with_reducible assumption
    | with_reducible apply kept_raiseBerth
    | with_reducible apply Kept.ite
    | (first | intro _ _ _ _ _ _ _ | intro _ _ _ _ _ _ | intro _ _ _ _ _ | intro _ _ _ _ | intro _ _ _)
    | ((with_reducible refine Kept.mk_ _ _ _ _ _ _ _ _ _ _ _ _ _ _ _ _ _ _ _ _ _ _ _ _ _ _ _ _ _ _ _ _ _ _ _ _ _ _ _ _ _ _ _ ?_ rfl rfl rfl rfl rfl rfl rfl rfl rfl rfl (by first | exact Nat.le_refl _ | exact Nat.le_succ _ | exact Nat.le_add_right _ _ | omega) rfl (by first | exact Nat.le_refl _ | exact Nat.le_succ _ | omega)); (first | with_reducible assumption | with_reducible apply kept_raiseBerth | with_reducible apply Kept.ite))

theorem kept_tmoFlag {r₀ : State} (s : State) (q : Nat) (c : Nat) (b : Nat) (h₀ : Kept r₀ s) : Kept r₀ (tmoFlag s q c b) := by
  unfold tmoFlag
  try dsimp only
  repeat' first
    | with_reducible assumption
    | with_reducible apply kept_raiseWaitTmo
    | with_reducible apply Kept.ite
    | (first | intro _ _ _ _ _ _ _ | intro _ _ _ _ _ _ | intro _ _ _ _ _ | intro _ _ _ _ | intro _ _ _)
    | split
    | ((with_reducible refine Kept.mk_ _ _ _ _ _ _ _ _ _ _ _ _ _ _ _ _ _ _ _ _ _ _ _ _ _ _ _ _ _ _ _ _ _ _ _ _ _ _ _ _ _ _ _ ?_ rfl rfl rfl rfl rfl rfl rfl rfl rfl rfl (by first | exact Nat.le_refl _ | exact Nat.le_succ _ | exact Nat.le_add_right _ _ | omega) rfl (by first | exact Nat.le_refl _ | exact Nat.le_succ _ | omega)); (first | with_reducible assumption | with_reducible apply kept_raiseWaitTmo | with_reducible apply Kept.ite | split))

theorem kept_restartHead {r₀ : State} (s : State) (q : Nat) (c : Nat) (h₀ : Kept r₀ s) : Kept r₀ (restartHead s q c) := by
  unfold restartHead
  try dsimp only
  repeat' first
    | with_reducible assumption
    | with_reducible apply kept_setCtx
    | with_reducible apply Kept.ite
    | (first | intro _ _ _ _ _ _ _ | intro _ _ _ _ _ _ | intro _ _ _ _ _ | intro _ _ _ _ | intro _ _ _)
    | split
    | ((with_reducible refine Kept.mk_ _ _ _ _ _ _ _ _ _ _ _ _ _ _ _ _ _ _ _ _ _ _ _ _ _ _ _ _ _ _ _ _ _ _ _ _ _ _ _ _ _ _ _ ?_ rfl rfl rfl rfl rfl rfl rfl rfl rfl rfl (by first | exact Nat.le_refl _ | exact Nat.le_succ _ | exact Nat.le_add_right _ _ | omega) rfl (by first | exact Nat.le_refl _ | exact Nat.le_succ _ | omega)); (first | with_reducible assumption | with_reducible apply kept_setCtx | with_reducible apply Kept.ite | split))

theorem kept_tmoHead {r₀ : State} (s : State) (q : Nat) (c : Nat) (b : Nat) (kind : Nat) (h₀ : Kept r₀ s) : Kept r₀ (tmoHead s q c b kind) := by
  unfold tmoHead
  try dsimp only
  repeat' first
    | with_reducible assumption
    | with_reducible apply kept_raiseWaitTmo
    | with_reducible apply kept_restartHead
    | with_reducible apply Kept.ite
    | (first | intro _ _ _ _ _ _ _ | intro _ _ _ _ _ _ | intro _ _ _ _ _ | intro _ _ _ _ | intro _ _ _)
    | split
    | ((with_reducible refine Kept.mk_ _ _ _ _ _ _ _ _ _ _ _ _ _ _ _ _ _ _ _ _ _ _ _ _ _ _ _ _ _ _ _ _ _ _ _ _ _ _ _ _ _ _ _ ?_ rfl rfl rfl rfl rfl rfl rfl rfl rfl rfl (by first | exact Nat.le_refl _ | exact Nat.le_succ _ | exact Nat.le_add_right _ _ | omega) rfl (by first | exact Nat.le_refl _ | exact Nat.le_succ _ | omega)); (first | with_reducible assumption | with_reducible apply kept_raiseWaitTmo | with_reducible apply kept_restartHead | with_reducible apply Kept.ite | split))

theorem kept_tmoCtx {r₀ : State} (s : State) (q : Nat) (c : Nat) (b : Nat) (kind : Nat) (h₀ : Kept r₀ s) : Kept r₀ (tmoCtx s q c b kind) := by
  unfold tmoCtx
  try dsimp only
  repeat' first
    | with_reducible assumption
    | with_reducible apply kept_setCtx
    | with_reducible apply kept_raiseWaitTmo
    | with_reducible apply Kept.ite
    | (first | intro _ _ _ _ _ _ _ | intro _ _ _ _ _ _ | intro _ _ _ _ _ | intro _ _ _ _ | intro _ _ _)
    | split
    | ((with_reducible refine Kept.mk_ _ _ _ _ _ _ _ _ _ _ _ _ _ _ _ _ _ _ _ _ _ _ _ _ _ _ _ _ _ _ _ _ _ _ _ _ _ _ _ _ _ _ _ ?_ rfl rfl rfl rfl rfl rfl rfl rfl rfl rfl (by first | exact Nat.le_refl _ | exact Nat.le_succ _ | exact Nat.le_add_right _ _ | omega) rfl (by first | exact Nat.le_refl _ | exact Nat.le_succ _ | omega)); (first | with_reducible assumption | with_reducible apply kept_setCtx | with_reducible apply kept_raiseWaitTmo | with_reducible apply Kept.ite | split))

theorem kept_tmoDrain {r₀ : State} (s : State) (q : Nat) (c : Nat) (b : Nat) (h₀ : Kept r₀ s) : Kept r₀ (tmoDrain s q c b) := by
  unfold tmoDrain
  try dsimp only
  repeat' first
    | with_reducible assumption
    | with_reducible apply kept_setRun
    | with_reducible apply kept_raiseWaitTmo
    | with_reducible apply Kept.ite
    | (first | intro _ _ _ _ _ _ _ | intro _ _ _ _ _ _ | intro _ _ _ _ _ | intro _ _ _ _ | intro _ _ _)
    | split
    | ((with_reducible refine Kept.mk_ _ _ _ _ _ _ _ _ _ _ _ _ _ _ _ _ _ _ _ _ _ _ _ _ _ _ _ _ _ _ _ _ _ _ _ _ _ _ _ _ _ _ _ ?_ rfl rfl rfl rfl rfl rfl rfl rfl rfl rfl (by first | exact Nat.le_refl _ | exact Nat.le_succ _ | exact Nat.le_add_right _ _ | omega) rfl (by first | exact Nat.le_refl _ | exact Nat.le_succ _ | omega)); (first | with_reducible assumption | with_reducible apply kept_setRun | with_reducible apply kept_raiseWaitTmo | with_reducible apply Kept.ite | split))

theorem kept_waitTmo {r₀ : State} (s : State) (q : Nat) (c : Nat) (kind : Nat) (h₀ : Kept r₀ s) : Kept r₀ (waitTmo s q c kind) := by
  unfold waitTmo
  try dsimp only
  repeat' first
    | with_reducible assumption
    | with_reducible apply kept_tmoFlag
    | with_reducible apply kept_tmoHead
    | with_reducible apply kept_tmoCtx
    | with_reducible apply kept_tmoDrain
    | with_reducible apply Kept.ite
    | (first | intro _ _ _ _ _ _ _ | intro _ _ _ _ _ _ | intro _ _ _ _ _ | intro _ _ _ _ | intro _ _ _)
    | split
    | ((with_reducible refine Kept.mk_ _ _ _ _ _ _ _ _ _ _ _ _ _ _ _ _ _ _ _ _ _ _ _ _ _ _ _ _ _ _ _ _ _ _ _ _ _ _ _ _ _ _ _ ?_ rfl rfl rfl rfl rfl rfl rfl rfl rfl rfl (by first | exact Nat.le_refl _ | exact Nat.le_succ _ | exact Nat.le_add_right _ _ | omega) rfl (by first | exact Nat.le_refl _ | exact Nat.le_succ _ | omega)); (first | with_reducible assumption | with_reducible apply kept_tmoFlag | with_reducible apply kept_tmoHead | with_reducible apply kept_tmoCtx | with_reducible apply kept_tmoDrain | with_reducible apply Kept.ite | split))

end Sys2Proof.Laws
end

