-- ==== Sys2Proof/Laws/KeptStaging.lean ====
section
/-! SUPPORT. What each operation of Machine/Staging.lean keeps. -/

namespace Sys2Proof.Laws

set_option linter.all false

open Sys2Proof.Machine Sys2Proof.Safety

theorem kept_refuseHead {r₀ : State} (s : State) (q : Nat) (c : Nat) (m : QCmd) (h₀ : Kept r₀ s) : Kept r₀ (refuseHead s q c m) := by
  unfold refuseHead
  try dsimp only
  repeat' first
    | with_reducible assumption
    | with_reducible apply kept_popHead
    | with_reducible apply kept_inuseDown
    | with_reducible apply Kept.ite
    | (first | intro _ _ _ _ _ _ _ | intro _ _ _ _ _ _ | intro _ _ _ _ _ | intro _ _ _ _ | intro _ _ _)
    | ((with_reducible refine Kept.mk_ _ _ _ _ _ _ _ _ _ _ _ _ _ _ _ _ _ _ _ _ _ _ _ _ _ _ _ _ _ _ _ _ _ _ _ _ _ _ _ _ _ _ _ ?_ rfl rfl rfl rfl rfl rfl rfl rfl rfl rfl (by first | exact Nat.le_refl _ | exact Nat.le_succ _ | exact Nat.le_add_right _ _ | omega) rfl (by first | exact Nat.le_refl _ | exact Nat.le_succ _ | omega)); (first | with_reducible assumption | with_reducible apply kept_popHead | with_reducible apply kept_inuseDown | with_reducible apply Kept.ite))

theorem kept_shapeFail {r₀ : State} (s : State) (code : Nat) (q : Nat) (c : Nat) (b : Nat) (m : QCmd) (deck : Option Nat) (h₀ : Kept r₀ s) : Kept r₀ (shapeFail s code q c b m deck) := by
  unfold shapeFail
  try dsimp only
  repeat' first
    | with_reducible assumption
    | with_reducible apply kept_raiseShape
    | with_reducible apply kept_refuseHead
    | with_reducible apply Kept.ite
    | (first | intro _ _ _ _ _ _ _ | intro _ _ _ _ _ _ | intro _ _ _ _ _ | intro _ _ _ _ | intro _ _ _)
    | ((with_reducible refine Kept.mk_ _ _ _ _ _ _ _ _ _ _ _ _ _ _ _ _ _ _ _ _ _ _ _ _ _ _ _ _ _ _ _ _ _ _ _ _ _ _ _ _ _ _ _ ?_ rfl rfl rfl rfl rfl rfl rfl rfl rfl rfl (by first | exact Nat.le_refl _ | exact Nat.le_succ _ | exact Nat.le_add_right _ _ | omega) rfl (by first | exact Nat.le_refl _ | exact Nat.le_succ _ | omega)); (first | with_reducible assumption | with_reducible apply kept_raiseShape | with_reducible apply kept_refuseHead | with_reducible apply Kept.ite))

theorem kept_headDone {r₀ : State} (s : State) (q : Nat) (c : Nat) (b : Nat) (m : QCmd) (h₀ : Kept r₀ s) : Kept r₀ (headDone s q c b m) := by
  unfold headDone
  try dsimp only
  repeat' first
    | with_reducible assumption
    | with_reducible apply kept_sflagUp
    | with_reducible apply kept_popHead
    | with_reducible apply kept_inuseDown
    | with_reducible apply Kept.ite
    | (first | intro _ _ _ _ _ _ _ | intro _ _ _ _ _ _ | intro _ _ _ _ _ | intro _ _ _ _ | intro _ _ _)
    | ((with_reducible refine Kept.mk_ _ _ _ _ _ _ _ _ _ _ _ _ _ _ _ _ _ _ _ _ _ _ _ _ _ _ _ _ _ _ _ _ _ _ _ _ _ _ _ _ _ _ _ ?_ rfl rfl rfl rfl rfl rfl rfl rfl rfl rfl (by first | exact Nat.le_refl _ | exact Nat.le_succ _ | exact Nat.le_add_right _ _ | omega) rfl (by first | exact Nat.le_refl _ | exact Nat.le_succ _ | omega)); (first | with_reducible assumption | with_reducible apply kept_sflagUp | with_reducible apply kept_popHead | with_reducible apply kept_inuseDown | with_reducible apply Kept.ite))

theorem kept_runDone {r₀ : State} (s : State) (r : Run) (h₀ : Kept r₀ s) : Kept r₀ (runDone s r) := by
  unfold runDone
  try dsimp only
  repeat' first
    | with_reducible assumption
    | with_reducible apply kept_dropRun
    | with_reducible apply kept_sflagUp
    | with_reducible apply kept_inuseDown
    | with_reducible apply Kept.ite
    | (first | intro _ _ _ _ _ _ _ | intro _ _ _ _ _ _ | intro _ _ _ _ _ | intro _ _ _ _ | intro _ _ _)
    | ((with_reducible refine Kept.mk_ _ _ _ _ _ _ _ _ _ _ _ _ _ _ _ _ _ _ _ _ _ _ _ _ _ _ _ _ _ _ _ _ _ _ _ _ _ _ _ _ _ _ _ ?_ rfl rfl rfl rfl rfl rfl rfl rfl rfl rfl (by first | exact Nat.le_refl _ | exact Nat.le_succ _ | exact Nat.le_add_right _ _ | omega) rfl (by first | exact Nat.le_refl _ | exact Nat.le_succ _ | omega)); (first | with_reducible assumption | with_reducible apply kept_dropRun | with_reducible apply kept_sflagUp | with_reducible apply kept_inuseDown | with_reducible apply Kept.ite))

theorem kept_startRun {r₀ : State} (s : State) (q c b : Nat) (m : QCmd) (decks : List Nat) (h₀ : Kept r₀ s) :
    Kept r₀ (startRun s q c b m decks).1 := by
  have k := kept_freshId _ (kept_popHead s q c h₀)
  have hn : (freshId (popHead s q c)).2.nextId = (freshId (popHead s q c)).1 + 1 := rfl
  have hr : (freshId (popHead s q c)).2.runs = (popHead s q c).runs := rfl
  unfold startRun
  generalize freshId (popHead s q c) = p at k hn hr ⊢
  refine Kept.runs k _ p.2.nextId (fun w x hx => ?_)
  rcases List.mem_append.mp hx with hx | hx
  · exact w x hx
  · rw [List.mem_singleton.mp hx, hn]
    exact Nat.lt_succ_self _

theorem kept_bufEcc {r₀ : State} (s : State) (d : Nat) (e : Ecc) (h₀ : Kept r₀ s) : Kept r₀ (bufEcc s d e).1 := by
  unfold bufEcc
  split
  · exact h₀
  · split
    · exact kept_noteReport _ _ _ (kept_raiseDeck _ _ _ _ _ h₀)
    · exact h₀
  · exact kept_raiseDeck _ _ _ _ _ h₀

theorem kept_putTile {r₀ : State} (t : TileReg) (r : Nat) (s : State) (d : Nat) (h₀ : Kept r₀ s) : Kept r₀ (putTile t r s d) := by
  unfold putTile
  try dsimp only
  repeat' first
    | with_reducible assumption
    | with_reducible apply kept_setDeck
    | with_reducible apply Kept.ite
    | (first | intro _ _ _ _ _ _ _ | intro _ _ _ _ _ _ | intro _ _ _ _ _ | intro _ _ _ _ | intro _ _ _)
    | ((with_reducible refine Kept.mk_ _ _ _ _ _ _ _ _ _ _ _ _ _ _ _ _ _ _ _ _ _ _ _ _ _ _ _ _ _ _ _ _ _ _ _ _ _ _ _ _ _ _ _ ?_ rfl rfl rfl rfl rfl rfl rfl rfl rfl rfl (by first | exact Nat.le_refl _ | exact Nat.le_succ _ | exact Nat.le_add_right _ _ | omega) rfl (by first | exact Nat.le_refl _ | exact Nat.le_succ _ | omega)); (first | with_reducible assumption | with_reducible apply kept_setDeck | with_reducible apply Kept.ite))

theorem kept_tilecfgAt {r₀ : State} (s : State) (q : Nat) (c : Nat) (b : Nat) (m : QCmd) (h₀ : Kept r₀ s) : Kept r₀ (tilecfgAt s q c b m) := by
  unfold tilecfgAt
  try dsimp only
  repeat' first
    | with_reducible assumption
    | with_reducible apply kept_shapeFail
    | with_reducible apply kept_headDone
    | with_reducible apply kept_putTile
    | with_reducible apply Kept.ite
    | with_reducible apply Kept.foldl
    | with_reducible apply Kept.foldl_fst
    | with_reducible apply Kept.foldl_snd
    | (first | intro _ _ _ _ _ _ _ | intro _ _ _ _ _ _ | intro _ _ _ _ _ | intro _ _ _ _ | intro _ _ _)
    | split
    | ((with_reducible refine Kept.mk_ _ _ _ _ _ _ _ _ _ _ _ _ _ _ _ _ _ _ _ _ _ _ _ _ _ _ _ _ _ _ _ _ _ _ _ _ _ _ _ _ _ _ _ ?_ rfl rfl rfl rfl rfl rfl rfl rfl rfl rfl (by first | exact Nat.le_refl _ | exact Nat.le_succ _ | exact Nat.le_add_right _ _ | omega) rfl (by first | exact Nat.le_refl _ | exact Nat.le_succ _ | omega)); (first | with_reducible assumption | with_reducible apply kept_shapeFail | with_reducible apply kept_headDone | with_reducible apply kept_putTile | with_reducible apply Kept.ite | with_reducible apply Kept.foldl | with_reducible apply Kept.foldl_fst | with_reducible apply Kept.foldl_snd | split))

theorem kept_streamAt {r₀ : State} (s : State) (q : Nat) (c : Nat) (b : Nat) (m : QCmd) (h₀ : Kept r₀ s) : Kept r₀ (streamAt s q c b m) := by
  unfold streamAt
  try dsimp only
  repeat' first
    | with_reducible assumption
    | with_reducible apply kept_setDeck
    | with_reducible apply kept_shapeFail
    | with_reducible apply kept_headDone
    | with_reducible apply Kept.ite
    | (first | intro _ _ _ _ _ _ _ | intro _ _ _ _ _ _ | intro _ _ _ _ _ | intro _ _ _ _ | intro _ _ _)
    | split
    | ((with_reducible refine Kept.mk_ _ _ _ _ _ _ _ _ _ _ _ _ _ _ _ _ _ _ _ _ _ _ _ _ _ _ _ _ _ _ _ _ _ _ _ _ _ _ _ _ _ _ _ ?_ rfl rfl rfl rfl rfl rfl rfl rfl rfl rfl (by first | exact Nat.le_refl _ | exact Nat.le_succ _ | exact Nat.le_add_right _ _ | omega) rfl (by first | exact Nat.le_refl _ | exact Nat.le_succ _ | omega)); (first | with_reducible assumption | with_reducible apply kept_setDeck | with_reducible apply kept_shapeFail | with_reducible apply kept_headDone | with_reducible apply Kept.ite | split))

theorem kept_startZrec {r₀ : State} (t : TileReg) (blocks : Nat) (dataCls : Bool) (s : State) (u : Nat × Bool) (h₀ : Kept r₀ s) : Kept r₀ (startZrec t blocks dataCls s u) := by
  unfold startZrec
  try dsimp only
  repeat' first
    | with_reducible assumption
    | with_reducible apply kept_setDeck
    | with_reducible apply kept_freshId
    | with_reducible apply Kept.ite
    | with_reducible apply Kept.ite_fst
    | (first | intro _ _ _ _ _ _ _ | intro _ _ _ _ _ _ | intro _ _ _ _ _ | intro _ _ _ _ | intro _ _ _)
    | ((with_reducible refine Kept.mk_ _ _ _ _ _ _ _ _ _ _ _ _ _ _ _ _ _ _ _ _ _ _ _ _ _ _ _ _ _ _ _ _ _ _ _ _ _ _ _ _ _ _ _ ?_ rfl rfl rfl rfl rfl rfl rfl rfl rfl rfl (by first | exact Nat.le_refl _ | exact Nat.le_succ _ | exact Nat.le_add_right _ _ | omega) rfl (by first | exact Nat.le_refl _ | exact Nat.le_succ _ | omega)); (first | with_reducible assumption | with_reducible apply kept_setDeck | with_reducible apply kept_freshId | with_reducible apply Kept.ite | with_reducible apply Kept.ite_fst))

theorem kept_loadHbm {r₀ : State} (s : State) (id : Nat) (q : Nat) (pool : List Nat) (cls : Nat) (es : List (Nat × Nat)) (h₀ : Kept r₀ s) : Kept r₀ (loadHbm s id q pool cls es) := by
  unfold loadHbm
  try dsimp only
  repeat' first
    | with_reducible assumption
    | with_reducible apply kept_setQuay
    | with_reducible apply kept_setRun
    | with_reducible apply Kept.ite
    | with_reducible apply Kept.ite_fst
    | with_reducible apply Kept.foldl
    | with_reducible apply Kept.foldl_fst
    | with_reducible apply Kept.foldl_snd
    | (first | intro _ _ _ _ _ _ _ | intro _ _ _ _ _ _ | intro _ _ _ _ _ | intro _ _ _ _ | intro _ _ _)
    | split
    | ((with_reducible refine Kept.mk_ _ _ _ _ _ _ _ _ _ _ _ _ _ _ _ _ _ _ _ _ _ _ _ _ _ _ _ _ _ _ _ _ _ _ _ _ _ _ _ _ _ _ _ ?_ rfl rfl rfl rfl rfl rfl rfl rfl rfl rfl (by first | exact Nat.le_refl _ | exact Nat.le_succ _ | exact Nat.le_add_right _ _ | omega) rfl (by first | exact Nat.le_refl _ | exact Nat.le_succ _ | omega)); (first | with_reducible assumption | with_reducible apply kept_setQuay | with_reducible apply kept_setRun | with_reducible apply Kept.ite | with_reducible apply Kept.ite_fst | with_reducible apply Kept.foldl | with_reducible apply Kept.foldl_fst | with_reducible apply Kept.foldl_snd | split))

theorem kept_loadHold {r₀ : State} (s : State) (id : Nat) (q : Nat) (b : Nat) (pool : List Nat) (cls : Nat) (es : List (Nat × Nat)) (h₀ : Kept r₀ s) : Kept r₀ (loadHold s id q b pool cls es) := by
  unfold loadHold
  try dsimp only
  repeat' first
    | with_reducible assumption
    | with_reducible apply kept_setRun
    | with_reducible apply kept_holdRequest
    | with_reducible apply kept_loadHbm
    | with_reducible apply Kept.ite
    | with_reducible apply Kept.foldl
    | with_reducible apply Kept.foldl_fst
    | with_reducible apply Kept.foldl_snd
    | (first | intro _ _ _ _ _ _ _ | intro _ _ _ _ _ _ | intro _ _ _ _ _ | intro _ _ _ _ | intro _ _ _)
    | split
    | ((with_reducible refine Kept.mk_ _ _ _ _ _ _ _ _ _ _ _ _ _ _ _ _ _ _ _ _ _ _ _ _ _ _ _ _ _ _ _ _ _ _ _ _ _ _ _ _ _ _ _ ?_ rfl rfl rfl rfl rfl rfl rfl rfl rfl rfl (by first | exact Nat.le_refl _ | exact Nat.le_succ _ | exact Nat.le_add_right _ _ | omega) rfl (by first | exact Nat.le_refl _ | exact Nat.le_succ _ | omega)); (first | with_reducible assumption | with_reducible apply kept_setRun | with_reducible apply kept_holdRequest | with_reducible apply kept_loadHbm | with_reducible apply Kept.ite | with_reducible apply Kept.foldl | with_reducible apply Kept.foldl_fst | with_reducible apply Kept.foldl_snd | split))

theorem kept_loadAt {r₀ : State} (s : State) (q : Nat) (c : Nat) (b : Nat) (m : QCmd) (h₀ : Kept r₀ s) : Kept r₀ (loadAt s q c b m) := by
  unfold loadAt
  try dsimp only
  repeat' first
    | with_reducible assumption
    | with_reducible apply kept_setRun
    | with_reducible apply kept_raiseCtx
    | with_reducible apply kept_issueRun
    | with_reducible apply kept_raiseHoldRange
    | with_reducible apply kept_refuseHead
    | with_reducible apply kept_shapeFail
    | with_reducible apply kept_startRun
    | with_reducible apply kept_startZrec
    | with_reducible apply kept_loadHbm
    | with_reducible apply kept_loadHold
    | with_reducible apply Kept.ite
    | with_reducible apply Kept.ite_fst
    | with_reducible apply Kept.foldl
    | with_reducible apply Kept.foldl_fst
    | with_reducible apply Kept.foldl_snd
    | (first | intro _ _ _ _ _ _ _ | intro _ _ _ _ _ _ | intro _ _ _ _ _ | intro _ _ _ _ | intro _ _ _)
    | split
    | ((with_reducible refine Kept.mk_ _ _ _ _ _ _ _ _ _ _ _ _ _ _ _ _ _ _ _ _ _ _ _ _ _ _ _ _ _ _ _ _ _ _ _ _ _ _ _ _ _ _ _ ?_ rfl rfl rfl rfl rfl rfl rfl rfl rfl rfl (by first | exact Nat.le_refl _ | exact Nat.le_succ _ | exact Nat.le_add_right _ _ | omega) rfl (by first | exact Nat.le_refl _ | exact Nat.le_succ _ | omega)); (first | with_reducible assumption | with_reducible apply kept_setRun | with_reducible apply kept_raiseCtx | with_reducible apply kept_issueRun | with_reducible apply kept_raiseHoldRange | with_reducible apply kept_refuseHead | with_reducible apply kept_shapeFail | with_reducible apply kept_startRun | with_reducible apply kept_startZrec | with_reducible apply kept_loadHbm | with_reducible apply kept_loadHold | with_reducible apply Kept.ite | with_reducible apply Kept.ite_fst | with_reducible apply Kept.foldl | with_reducible apply Kept.foldl_fst | with_reducible apply Kept.foldl_snd | split))

theorem kept_loadMember {r₀ : State} (m : Mem) (e : Extent) (ds : Desc) (r : Run) (reg : Nat) (s : State) (k : Nat) (h₀ : Kept r₀ s) : Kept r₀ (loadMember m e ds r reg s k) := by
  unfold loadMember
  try dsimp only
  repeat' first
    | with_reducible assumption
    | with_reducible apply kept_setDeck
    | with_reducible apply kept_putBuf
    | with_reducible apply Kept.ite
    | with_reducible apply Kept.ite_fst
    | with_reducible apply Kept.foldl
    | with_reducible apply Kept.foldl_fst
    | with_reducible apply Kept.foldl_snd
    | (first | intro _ _ _ _ _ _ _ | intro _ _ _ _ _ _ | intro _ _ _ _ _ | intro _ _ _ _ | intro _ _ _)
    | ((with_reducible refine Kept.mk_ _ _ _ _ _ _ _ _ _ _ _ _ _ _ _ _ _ _ _ _ _ _ _ _ _ _ _ _ _ _ _ _ _ _ _ _ _ _ _ _ _ _ _ ?_ rfl rfl rfl rfl rfl rfl rfl rfl rfl rfl (by first | exact Nat.le_refl _ | exact Nat.le_succ _ | exact Nat.le_add_right _ _ | omega) rfl (by first | exact Nat.le_refl _ | exact Nat.le_succ _ | omega)); (first | with_reducible assumption | with_reducible apply kept_setDeck | with_reducible apply kept_putBuf | with_reducible apply Kept.ite | with_reducible apply Kept.ite_fst | with_reducible apply Kept.foldl | with_reducible apply Kept.foldl_fst | with_reducible apply Kept.foldl_snd))

theorem kept_setZrec {r₀ : State} (r : Run) (reg : Nat) (nz : List Bool) (s : State) (k : Nat) (h₀ : Kept r₀ s) : Kept r₀ (setZrec r reg nz s k) := by
  unfold setZrec
  try dsimp only
  repeat' first
    | with_reducible assumption
    | with_reducible apply kept_setDeck
    | with_reducible apply Kept.ite
    | (first | intro _ _ _ _ _ _ _ | intro _ _ _ _ _ _ | intro _ _ _ _ _ | intro _ _ _ _ | intro _ _ _)
    | ((with_reducible refine Kept.mk_ _ _ _ _ _ _ _ _ _ _ _ _ _ _ _ _ _ _ _ _ _ _ _ _ _ _ _ _ _ _ _ _ _ _ _ _ _ _ _ _ _ _ _ ?_ rfl rfl rfl rfl rfl rfl rfl rfl rfl rfl (by first | exact Nat.le_refl _ | exact Nat.le_succ _ | exact Nat.le_add_right _ _ | omega) rfl (by first | exact Nat.le_refl _ | exact Nat.le_succ _ | omega)); (first | with_reducible assumption | with_reducible apply kept_setDeck | with_reducible apply Kept.ite))

theorem kept_loadEnd {r₀ : State} (s : State) (r : Run) (pages : List Nat) (ok : Bool) (h₀ : Kept r₀ s) : Kept r₀ (loadEnd s r pages ok) := by
  unfold loadEnd
  try dsimp only
  repeat' first
    | with_reducible assumption
    | with_reducible apply kept_failRun
    | with_reducible apply kept_freePage
    | with_reducible apply kept_runDone
    | with_reducible apply Kept.ite
    | with_reducible apply Kept.foldl
    | with_reducible apply Kept.foldl_fst
    | with_reducible apply Kept.foldl_snd
    | (first | intro _ _ _ _ _ _ _ | intro _ _ _ _ _ _ | intro _ _ _ _ _ | intro _ _ _ _ | intro _ _ _)
    | ((with_reducible refine Kept.mk_ _ _ _ _ _ _ _ _ _ _ _ _ _ _ _ _ _ _ _ _ _ _ _ _ _ _ _ _ _ _ _ _ _ _ _ _ _ _ _ _ _ _ _ ?_ rfl rfl rfl rfl rfl rfl rfl rfl rfl rfl (by first | exact Nat.le_refl _ | exact Nat.le_succ _ | exact Nat.le_add_right _ _ | omega) rfl (by first | exact Nat.le_refl _ | exact Nat.le_succ _ | omega)); (first | with_reducible assumption | with_reducible apply kept_failRun | with_reducible apply kept_freePage | with_reducible apply kept_runDone | with_reducible apply Kept.ite | with_reducible apply Kept.foldl | with_reducible apply Kept.foldl_fst | with_reducible apply Kept.foldl_snd))

theorem kept_loadFinish {r₀ : State} (s : State) (r : Run) (remote : List Byte) (mem : HbmOutcome) (h₀ : Kept r₀ s) : Kept r₀ (loadFinish s r remote mem) := by
  unfold loadFinish
  try dsimp only
  repeat' first
    | with_reducible assumption
    | with_reducible apply kept_stepWrite
    | with_reducible apply kept_loadMember
    | with_reducible apply kept_setZrec
    | with_reducible apply kept_loadEnd
    | with_reducible apply Kept.ite
    | with_reducible apply Kept.ite_fst
    | with_reducible apply Kept.foldl
    | with_reducible apply Kept.foldl_fst
    | with_reducible apply Kept.foldl_snd
    | (first | intro _ _ _ _ _ _ _ | intro _ _ _ _ _ _ | intro _ _ _ _ _ | intro _ _ _ _ | intro _ _ _)
    | split
    | ((with_reducible refine Kept.mk_ _ _ _ _ _ _ _ _ _ _ _ _ _ _ _ _ _ _ _ _ _ _ _ _ _ _ _ _ _ _ _ _ _ _ _ _ _ _ _ _ _ _ _ ?_ rfl rfl rfl rfl rfl rfl rfl rfl rfl rfl (by first | exact Nat.le_refl _ | exact Nat.le_succ _ | exact Nat.le_add_right _ _ | omega) rfl (by first | exact Nat.le_refl _ | exact Nat.le_succ _ | omega)); (first | with_reducible assumption | with_reducible apply kept_stepWrite | with_reducible apply kept_loadMember | with_reducible apply kept_setZrec | with_reducible apply kept_loadEnd | with_reducible apply Kept.ite | with_reducible apply Kept.ite_fst | with_reducible apply Kept.foldl | with_reducible apply Kept.foldl_fst | with_reducible apply Kept.foldl_snd | split))

theorem kept_ackHold {r₀ : State} (s : State) (b : Nat) (id : Nat) (h₀ : Kept r₀ s) : Kept r₀ (ackHold s b id) := by
  unfold ackHold
  try dsimp only
  repeat' first
    | with_reducible assumption
    | with_reducible apply kept_setReqs
    | with_reducible apply Kept.ite
    | (first | intro _ _ _ _ _ _ _ | intro _ _ _ _ _ _ | intro _ _ _ _ _ | intro _ _ _ _ | intro _ _ _)
    | split
    | ((with_reducible refine Kept.mk_ _ _ _ _ _ _ _ _ _ _ _ _ _ _ _ _ _ _ _ _ _ _ _ _ _ _ _ _ _ _ _ _ _ _ _ _ _ _ _ _ _ _ _ ?_ rfl rfl rfl rfl rfl rfl rfl rfl rfl rfl (by first | exact Nat.le_refl _ | exact Nat.le_succ _ | exact Nat.le_add_right _ _ | omega) rfl (by first | exact Nat.le_refl _ | exact Nat.le_succ _ | omega)); (first | with_reducible assumption | with_reducible apply kept_setReqs | with_reducible apply Kept.ite | split))

theorem kept_sendWrites {r₀ : State} (s : State) (id : Nat) (q : Nat) (c : Nat) (b : Nat) (pool : List Nat) (hold : Bool) (spillNow : Bool) (ws : List (Nat × List Byte)) (h₀ : Kept r₀ s) : Kept r₀ (sendWrites s id q c b pool hold spillNow ws) := by
  unfold sendWrites
  try dsimp only
  repeat' first
    | with_reducible assumption
    | with_reducible apply kept_setRun
    | with_reducible apply kept_issueRun
    | with_reducible apply kept_placeAll
    | with_reducible apply kept_wakeAll
    | with_reducible apply Kept.ite
    | with_reducible apply Kept.ite_fst
    | (first | intro _ _ _ _ _ _ _ | intro _ _ _ _ _ _ | intro _ _ _ _ _ | intro _ _ _ _ | intro _ _ _)
    | split
    | ((with_reducible refine Kept.mk_ _ _ _ _ _ _ _ _ _ _ _ _ _ _ _ _ _ _ _ _ _ _ _ _ _ _ _ _ _ _ _ _ _ _ _ _ _ _ _ _ _ _ _ ?_ rfl rfl rfl rfl rfl rfl rfl rfl rfl rfl (by first | exact Nat.le_refl _ | exact Nat.le_succ _ | exact Nat.le_add_right _ _ | omega) rfl (by first | exact Nat.le_refl _ | exact Nat.le_succ _ | omega)); (first | with_reducible assumption | with_reducible apply kept_setRun | with_reducible apply kept_issueRun | with_reducible apply kept_placeAll | with_reducible apply kept_wakeAll | with_reducible apply Kept.ite | with_reducible apply Kept.ite_fst | split))

theorem kept_storeAt {r₀ : State} (s : State) (q : Nat) (c : Nat) (b : Nat) (m : QCmd) (ecc : Ecc) (h₀ : Kept r₀ s) : Kept r₀ (storeAt s q c b m ecc) := by
  unfold storeAt
  try dsimp only
  repeat' first
    | with_reducible assumption
    | with_reducible apply kept_raiseCtx
    | with_reducible apply kept_raiseHoldRange
    | with_reducible apply kept_refuseHead
    | with_reducible apply kept_shapeFail
    | with_reducible apply kept_startRun
    | with_reducible apply kept_bufEcc
    | with_reducible apply kept_sendWrites
    | with_reducible apply Kept.ite
    | with_reducible apply Kept.ite_fst
    | (first | intro _ _ _ _ _ _ _ | intro _ _ _ _ _ _ | intro _ _ _ _ _ | intro _ _ _ _ | intro _ _ _)
    | split
    | ((with_reducible refine Kept.mk_ _ _ _ _ _ _ _ _ _ _ _ _ _ _ _ _ _ _ _ _ _ _ _ _ _ _ _ _ _ _ _ _ _ _ _ _ _ _ _ _ _ _ _ ?_ rfl rfl rfl rfl rfl rfl rfl rfl rfl rfl (by first | exact Nat.le_refl _ | exact Nat.le_succ _ | exact Nat.le_add_right _ _ | omega) rfl (by first | exact Nat.le_refl _ | exact Nat.le_succ _ | omega)); (first | with_reducible assumption | with_reducible apply kept_raiseCtx | with_reducible apply kept_raiseHoldRange | with_reducible apply kept_refuseHead | with_reducible apply kept_shapeFail | with_reducible apply kept_startRun | with_reducible apply kept_bufEcc | with_reducible apply kept_sendWrites | with_reducible apply Kept.ite | with_reducible apply Kept.ite_fst | split))

theorem kept_completeWrites {r₀ : State} (s : State) (q : Nat) (c : Nat) (op : Nat) (h₀ : Kept r₀ s) : Kept r₀ (completeWrites s q c op) := by
  unfold completeWrites
  try dsimp only
  repeat' first
    | with_reducible assumption
    | with_reducible apply kept_failRun
    | with_reducible apply kept_runDone
    | with_reducible apply kept_ackHold
    | with_reducible apply Kept.ite
    | (first | intro _ _ _ _ _ _ _ | intro _ _ _ _ _ _ | intro _ _ _ _ _ | intro _ _ _ _ | intro _ _ _)
    | split
    | ((with_reducible refine Kept.mk_ _ _ _ _ _ _ _ _ _ _ _ _ _ _ _ _ _ _ _ _ _ _ _ _ _ _ _ _ _ _ _ _ _ _ _ _ _ _ _ _ _ _ _ ?_ rfl rfl rfl rfl rfl rfl rfl rfl rfl rfl (by first | exact Nat.le_refl _ | exact Nat.le_succ _ | exact Nat.le_add_right _ _ | omega) rfl (by first | exact Nat.le_refl _ | exact Nat.le_succ _ | omega)); (first | with_reducible assumption | with_reducible apply kept_failRun | with_reducible apply kept_runDone | with_reducible apply kept_ackHold | with_reducible apply Kept.ite | split))

theorem kept_setSat {r₀ : State} (slot : Nat) (s : State) (u : Nat × Nat) (h₀ : Kept r₀ s) : Kept r₀ (setSat slot s u) := by
  unfold setSat
  try dsimp only
  repeat' first
    | with_reducible assumption
    | with_reducible apply kept_setDeck
    | with_reducible apply kept_raiseDeck
    | with_reducible apply Kept.ite
    | with_reducible apply Kept.ite_fst
    | (first | intro _ _ _ _ _ _ _ | intro _ _ _ _ _ _ | intro _ _ _ _ _ | intro _ _ _ _ | intro _ _ _)
    | ((with_reducible refine Kept.mk_ _ _ _ _ _ _ _ _ _ _ _ _ _ _ _ _ _ _ _ _ _ _ _ _ _ _ _ _ _ _ _ _ _ _ _ _ _ _ _ _ _ _ _ ?_ rfl rfl rfl rfl rfl rfl rfl rfl rfl rfl (by first | exact Nat.le_refl _ | exact Nat.le_succ _ | exact Nat.le_add_right _ _ | omega) rfl (by first | exact Nat.le_refl _ | exact Nat.le_succ _ | omega)); (first | with_reducible assumption | with_reducible apply kept_setDeck | with_reducible apply kept_raiseDeck | with_reducible apply Kept.ite | with_reducible apply Kept.ite_fst))

theorem kept_showClamps {r₀ : State} (s : State) (r : Run) (slot : Nat) (h₀ : Kept r₀ s) : Kept r₀ (showClamps s r slot) := by
  unfold showClamps
  try dsimp only
  repeat' first
    | with_reducible assumption
    | with_reducible apply kept_setRun
    | with_reducible apply kept_setSat
    | with_reducible apply Kept.ite
    | with_reducible apply Kept.foldl
    | with_reducible apply Kept.foldl_fst
    | with_reducible apply Kept.foldl_snd
    | (first | intro _ _ _ _ _ _ _ | intro _ _ _ _ _ _ | intro _ _ _ _ _ | intro _ _ _ _ | intro _ _ _)
    | ((with_reducible refine Kept.mk_ _ _ _ _ _ _ _ _ _ _ _ _ _ _ _ _ _ _ _ _ _ _ _ _ _ _ _ _ _ _ _ _ _ _ _ _ _ _ _ _ _ _ _ ?_ rfl rfl rfl rfl rfl rfl rfl rfl rfl rfl (by first | exact Nat.le_refl _ | exact Nat.le_succ _ | exact Nat.le_add_right _ _ | omega) rfl (by first | exact Nat.le_refl _ | exact Nat.le_succ _ | omega)); (first | with_reducible assumption | with_reducible apply kept_setRun | with_reducible apply kept_setSat | with_reducible apply Kept.ite | with_reducible apply Kept.foldl | with_reducible apply Kept.foldl_fst | with_reducible apply Kept.foldl_snd))

theorem kept_settlePass {r₀ : State} (s : State) (r : Run) (h₀ : Kept r₀ s) : Kept r₀ (settlePass s r) := by
  unfold settlePass
  try dsimp only
  repeat' first
    | with_reducible assumption
    | with_reducible apply kept_inuseDown
    | with_reducible apply kept_showClamps
    | with_reducible apply Kept.ite
    | (first | intro _ _ _ _ _ _ _ | intro _ _ _ _ _ _ | intro _ _ _ _ _ | intro _ _ _ _ | intro _ _ _)
    | split
    | ((with_reducible refine Kept.mk_ _ _ _ _ _ _ _ _ _ _ _ _ _ _ _ _ _ _ _ _ _ _ _ _ _ _ _ _ _ _ _ _ _ _ _ _ _ _ _ _ _ _ _ ?_ rfl rfl rfl rfl rfl rfl rfl rfl rfl rfl (by first | exact Nat.le_refl _ | exact Nat.le_succ _ | exact Nat.le_add_right _ _ | omega) rfl (by first | exact Nat.le_refl _ | exact Nat.le_succ _ | omega)); (first | with_reducible assumption | with_reducible apply kept_inuseDown | with_reducible apply kept_showClamps | with_reducible apply Kept.ite | split))

theorem kept_settleQueue {r₀ : State} (s : State) (q : Nat) (c : Nat) (h₀ : Kept r₀ s) : Kept r₀ (settleQueue s q c) := by
  unfold settleQueue
  try dsimp only
  repeat' first
    | with_reducible assumption
    | with_reducible apply kept_settlePass
    | with_reducible apply Kept.ite
    | with_reducible apply Kept.foldl
    | with_reducible apply Kept.foldl_fst
    | with_reducible apply Kept.foldl_snd
    | (first | intro _ _ _ _ _ _ _ | intro _ _ _ _ _ _ | intro _ _ _ _ _ | intro _ _ _ _ | intro _ _ _)
    | ((with_reducible refine Kept.mk_ _ _ _ _ _ _ _ _ _ _ _ _ _ _ _ _ _ _ _ _ _ _ _ _ _ _ _ _ _ _ _ _ _ _ _ _ _ _ _ _ _ _ _ ?_ rfl rfl rfl rfl rfl rfl rfl rfl rfl rfl (by first | exact Nat.le_refl _ | exact Nat.le_succ _ | exact Nat.le_add_right _ _ | omega) rfl (by first | exact Nat.le_refl _ | exact Nat.le_succ _ | omega)); (first | with_reducible assumption | with_reducible apply kept_settlePass | with_reducible apply Kept.ite | with_reducible apply Kept.foldl | with_reducible apply Kept.foldl_fst | with_reducible apply Kept.foldl_snd))

theorem kept_swapDeck {r₀ : State} (s : State) (d : Nat) (h₀ : Kept r₀ s) : Kept r₀ (swapDeck s d) := by
  unfold swapDeck
  try dsimp only
  repeat' first
    | with_reducible assumption
    | with_reducible apply kept_setDeck
    | with_reducible apply Kept.ite
    | (first | intro _ _ _ _ _ _ _ | intro _ _ _ _ _ _ | intro _ _ _ _ _ | intro _ _ _ _ | intro _ _ _)
    | ((with_reducible refine Kept.mk_ _ _ _ _ _ _ _ _ _ _ _ _ _ _ _ _ _ _ _ _ _ _ _ _ _ _ _ _ _ _ _ _ _ _ _ _ _ _ _ _ _ _ _ ?_ rfl rfl rfl rfl rfl rfl rfl rfl rfl rfl (by first | exact Nat.le_refl _ | exact Nat.le_succ _ | exact Nat.le_add_right _ _ | omega) rfl (by first | exact Nat.le_refl _ | exact Nat.le_succ _ | omega)); (first | with_reducible assumption | with_reducible apply kept_setDeck | with_reducible apply Kept.ite))

theorem kept_swapAt {r₀ : State} (s : State) (q : Nat) (c : Nat) (b : Nat) (m : QCmd) (h₀ : Kept r₀ s) : Kept r₀ (swapAt s q c b m) := by
  unfold swapAt
  try dsimp only
  repeat' first
    | with_reducible assumption
    | with_reducible apply kept_shapeFail
    | with_reducible apply kept_headDone
    | with_reducible apply kept_swapDeck
    | with_reducible apply Kept.ite
    | with_reducible apply Kept.foldl
    | with_reducible apply Kept.foldl_fst
    | with_reducible apply Kept.foldl_snd
    | (first | intro _ _ _ _ _ _ _ | intro _ _ _ _ _ _ | intro _ _ _ _ _ | intro _ _ _ _ | intro _ _ _)
    | split
    | ((with_reducible refine Kept.mk_ _ _ _ _ _ _ _ _ _ _ _ _ _ _ _ _ _ _ _ _ _ _ _ _ _ _ _ _ _ _ _ _ _ _ _ _ _ _ _ _ _ _ _ ?_ rfl rfl rfl rfl rfl rfl rfl rfl rfl rfl (by first | exact Nat.le_refl _ | exact Nat.le_succ _ | exact Nat.le_add_right _ _ | omega) rfl (by first | exact Nat.le_refl _ | exact Nat.le_succ _ | omega)); (first | with_reducible assumption | with_reducible apply kept_shapeFail | with_reducible apply kept_headDone | with_reducible apply kept_swapDeck | with_reducible apply Kept.ite | with_reducible apply Kept.foldl | with_reducible apply Kept.foldl_fst | with_reducible apply Kept.foldl_snd | split))

theorem kept_putMask {r₀ : State} (r : Nat) (on : Nat → Bool) (s : State) (k : Nat) (h₀ : Kept r₀ s) : Kept r₀ (putMask r on s k) := by
  unfold putMask
  try dsimp only
  repeat' first
    | with_reducible assumption
    | with_reducible apply kept_putBuf
    | with_reducible apply Kept.ite
    | (first | intro _ _ _ _ _ _ _ | intro _ _ _ _ _ _ | intro _ _ _ _ _ | intro _ _ _ _ | intro _ _ _)
    | ((with_reducible refine Kept.mk_ _ _ _ _ _ _ _ _ _ _ _ _ _ _ _ _ _ _ _ _ _ _ _ _ _ _ _ _ _ _ _ _ _ _ _ _ _ _ _ _ _ _ _ ?_ rfl rfl rfl rfl rfl rfl rfl rfl rfl rfl (by first | exact Nat.le_refl _ | exact Nat.le_succ _ | exact Nat.le_add_right _ _ | omega) rfl (by first | exact Nat.le_refl _ | exact Nat.le_succ _ | omega)); (first | with_reducible assumption | with_reducible apply kept_putBuf | with_reducible apply Kept.ite))

theorem kept_masksetAt {r₀ : State} (s : State) (q : Nat) (c : Nat) (b : Nat) (m : QCmd) (h₀ : Kept r₀ s) : Kept r₀ (masksetAt s q c b m) := by
  unfold masksetAt
  try dsimp only
  repeat' first
    | with_reducible assumption
    | with_reducible apply kept_shapeFail
    | with_reducible apply kept_headDone
    | with_reducible apply kept_putMask
    | with_reducible apply Kept.ite
    | with_reducible apply Kept.ite_fst
    | with_reducible apply Kept.foldl
    | with_reducible apply Kept.foldl_fst
    | with_reducible apply Kept.foldl_snd
    | (first | intro _ _ _ _ _ _ _ | intro _ _ _ _ _ _ | intro _ _ _ _ _ | intro _ _ _ _ | intro _ _ _)
    | split
    | ((with_reducible refine Kept.mk_ _ _ _ _ _ _ _ _ _ _ _ _ _ _ _ _ _ _ _ _ _ _ _ _ _ _ _ _ _ _ _ _ _ _ _ _ _ _ _ _ _ _ _ ?_ rfl rfl rfl rfl rfl rfl rfl rfl rfl rfl (by first | exact Nat.le_refl _ | exact Nat.le_succ _ | exact Nat.le_add_right _ _ | omega) rfl (by first | exact Nat.le_refl _ | exact Nat.le_succ _ | omega)); (first | with_reducible assumption | with_reducible apply kept_shapeFail | with_reducible apply kept_headDone | with_reducible apply kept_putMask | with_reducible apply Kept.ite | with_reducible apply Kept.ite_fst | with_reducible apply Kept.foldl | with_reducible apply Kept.foldl_fst | with_reducible apply Kept.foldl_snd | split))

end Sys2Proof.Laws
end

