-- ==== Sys2Proof/Laws/KeptPass.lean ====
section
/-! SUPPORT. What each operation of Machine/Pass.lean keeps. -/

namespace Sys2Proof.Laws

set_option linter.all false

open Sys2Proof.Machine Sys2Proof.Safety

theorem kept_streamInto {r₀ : State} (r : Run) (o : PassOps) (groups : List (Nat × Nat)) (a : State × List (Nat × Nat)) (p : OperandPair) (h₀ : Kept r₀ a.1) : Kept r₀ (streamInto r o groups a p).1 := by
  unfold streamInto
  try dsimp only
  repeat' first
    | with_reducible assumption
    | with_reducible apply kept_setDeck
    | with_reducible apply Kept.ite
    | (first | intro _ _ _ _ _ _ _ | intro _ _ _ _ _ _ | intro _ _ _ _ _ | intro _ _ _ _ | intro _ _ _)
    | ((with_reducible refine Kept.mk_ _ _ _ _ _ _ _ _ _ _ _ _ _ _ _ _ _ _ _ _ _ _ _ _ _ _ _ _ _ _ _ _ _ _ _ _ _ _ _ _ _ _ _ ?_ rfl rfl rfl rfl rfl rfl rfl rfl rfl rfl (by first | exact Nat.le_refl _ | exact Nat.le_succ _ | exact Nat.le_add_right _ _ | omega) rfl (by first | exact Nat.le_refl _ | exact Nat.le_succ _ | omega)); (first | with_reducible assumption | with_reducible apply kept_setDeck | with_reducible apply Kept.ite))

theorem kept_streamPart {r₀ : State} (s : State) (r : Run) (o : PassOps) (x : StreamPart) (h₀ : Kept r₀ s) : Kept r₀ (streamPart s r o x) := by
  unfold streamPart
  try dsimp only
  repeat' first
    | with_reducible assumption
    | with_reducible apply kept_setRun
    | with_reducible apply kept_streamInto
    | with_reducible apply Kept.ite
    | with_reducible apply Kept.ite_fst
    | with_reducible apply Kept.foldl
    | with_reducible apply Kept.foldl_fst
    | with_reducible apply Kept.foldl_snd
    | (first | intro _ _ _ _ _ _ _ | intro _ _ _ _ _ _ | intro _ _ _ _ _ | intro _ _ _ _ | intro _ _ _)
    | ((with_reducible refine Kept.mk_ _ _ _ _ _ _ _ _ _ _ _ _ _ _ _ _ _ _ _ _ _ _ _ _ _ _ _ _ _ _ _ _ _ _ _ _ _ _ _ _ _ _ _ ?_ rfl rfl rfl rfl rfl rfl rfl rfl rfl rfl (by first | exact Nat.le_refl _ | exact Nat.le_succ _ | exact Nat.le_add_right _ _ | omega) rfl (by first | exact Nat.le_refl _ | exact Nat.le_succ _ | omega)); (first | with_reducible assumption | with_reducible apply kept_setRun | with_reducible apply kept_streamInto | with_reducible apply Kept.ite | with_reducible apply Kept.ite_fst | with_reducible apply Kept.foldl | with_reducible apply Kept.foldl_fst | with_reducible apply Kept.foldl_snd))

theorem kept_enterPass {r₀ : State} (s : State) (r : Run) (o : PassOps) (from_ : Nat) (clear : Bool) (pre : List (Nat × Mem)) (h₀ : Kept r₀ s) : Kept r₀ (enterPass s r o from_ clear pre) := by
  unfold enterPass
  try dsimp only
  repeat' first
    | with_reducible assumption
    | with_reducible apply kept_streamPart
    | with_reducible apply Kept.ite
    | with_reducible apply Kept.ite_fst
    | (first | intro _ _ _ _ _ _ _ | intro _ _ _ _ _ _ | intro _ _ _ _ _ | intro _ _ _ _ | intro _ _ _)
    | ((with_reducible refine Kept.mk_ _ _ _ _ _ _ _ _ _ _ _ _ _ _ _ _ _ _ _ _ _ _ _ _ _ _ _ _ _ _ _ _ _ _ _ _ _ _ _ _ _ _ _ ?_ rfl rfl rfl rfl rfl rfl rfl rfl rfl rfl (by first | exact Nat.le_refl _ | exact Nat.le_succ _ | exact Nat.le_add_right _ _ | omega) rfl (by first | exact Nat.le_refl _ | exact Nat.le_succ _ | omega)); (first | with_reducible assumption | with_reducible apply kept_streamPart | with_reducible apply Kept.ite | with_reducible apply Kept.ite_fst))

theorem kept_overwriteSlots {r₀ : State} (o : PassOps) (quads : List Nat) (s : State) (k : Nat) (h₀ : Kept r₀ s) : Kept r₀ (overwriteSlots o quads s k) := by
  unfold overwriteSlots
  try dsimp only
  repeat' first
    | with_reducible assumption
    | with_reducible apply kept_setDeck
    | with_reducible apply Kept.ite
    | with_reducible apply Kept.foldl
    | with_reducible apply Kept.foldl_fst
    | with_reducible apply Kept.foldl_snd
    | (first | intro _ _ _ _ _ _ _ | intro _ _ _ _ _ _ | intro _ _ _ _ _ | intro _ _ _ _ | intro _ _ _)
    | ((with_reducible refine Kept.mk_ _ _ _ _ _ _ _ _ _ _ _ _ _ _ _ _ _ _ _ _ _ _ _ _ _ _ _ _ _ _ _ _ _ _ _ _ _ _ _ _ _ _ _ ?_ rfl rfl rfl rfl rfl rfl rfl rfl rfl rfl (by first | exact Nat.le_refl _ | exact Nat.le_succ _ | exact Nat.le_add_right _ _ | omega) rfl (by first | exact Nat.le_refl _ | exact Nat.le_succ _ | omega)); (first | with_reducible assumption | with_reducible apply kept_setDeck | with_reducible apply Kept.ite | with_reducible apply Kept.foldl | with_reducible apply Kept.foldl_fst | with_reducible apply Kept.foldl_snd))

theorem kept_settleArray {r₀ : State} (s : State) (q : Nat) (c : Nat) (quad : Nat) (h₀ : Kept r₀ s) : Kept r₀ (settleArray s q c quad) := by
  unfold settleArray
  try dsimp only
  repeat' first
    | with_reducible assumption
    | with_reducible apply kept_settlePass
    | with_reducible apply Kept.ite
    | with_reducible apply Kept.foldl
    | with_reducible apply Kept.foldl_fst
    | with_reducible apply Kept.foldl_snd
    | (first | intro _ _ _ _ _ _ _ | intro _ _ _ _ _ _ | intro _ _ _ _ _ | intro _ _ _ _ | intro _ _ _)
    | ((with_reducible refine Kept.mk_ _ _ _ _ _ _ _ _ _ _ _ _ _ _ _ _ _ _ _ _ _ _ _ _ _ _ _ _ _ _ _ _ _ _ _ _ _ _ _ _ _ _ _ ?_ rfl rfl rfl rfl rfl rfl rfl rfl rfl rfl (by first | exact Nat.le_refl _ | exact Nat.le_succ _ | exact Nat.le_add_right _ _ | omega) rfl (by first | exact Nat.le_refl _ | exact Nat.le_succ _ | omega)); (first | with_reducible assumption | with_reducible apply kept_settlePass | with_reducible apply Kept.ite | with_reducible apply Kept.foldl | with_reducible apply Kept.foldl_fst | with_reducible apply Kept.foldl_snd))

theorem kept_passAt {r₀ : State} (s : State) (q : Nat) (c : Nat) (b : Nat) (m : QCmd) (ecc : Ecc) (h₀ : Kept r₀ s) : Kept r₀ (passAt s q c b m ecc) := by
  unfold passAt
  try dsimp only
  repeat' first
    | with_reducible assumption
    | with_reducible apply kept_refuseHead
    | with_reducible apply kept_shapeFail
    | with_reducible apply kept_startRun
    | with_reducible apply kept_bufEcc
    | with_reducible apply kept_enterPass
    | with_reducible apply kept_overwriteSlots
    | with_reducible apply kept_settleArray
    | with_reducible apply Kept.ite
    | with_reducible apply Kept.ite_fst
    | with_reducible apply Kept.foldl
    | with_reducible apply Kept.foldl_fst
    | with_reducible apply Kept.foldl_snd
    | (first | intro _ _ _ _ _ _ _ | intro _ _ _ _ _ _ | intro _ _ _ _ _ | intro _ _ _ _ | intro _ _ _)
    | split
    | ((with_reducible refine Kept.mk_ _ _ _ _ _ _ _ _ _ _ _ _ _ _ _ _ _ _ _ _ _ _ _ _ _ _ _ _ _ _ _ _ _ _ _ _ _ _ _ _ _ _ _ ?_ rfl rfl rfl rfl rfl rfl rfl rfl rfl rfl (by first | exact Nat.le_refl _ | exact Nat.le_succ _ | exact Nat.le_add_right _ _ | omega) rfl (by first | exact Nat.le_refl _ | exact Nat.le_succ _ | omega)); (first | with_reducible assumption | with_reducible apply kept_refuseHead | with_reducible apply kept_shapeFail | with_reducible apply kept_startRun | with_reducible apply kept_bufEcc | with_reducible apply kept_enterPass | with_reducible apply kept_overwriteSlots | with_reducible apply kept_settleArray | with_reducible apply Kept.ite | with_reducible apply Kept.ite_fst | with_reducible apply Kept.foldl | with_reducible apply Kept.foldl_fst | with_reducible apply Kept.foldl_snd | split))

theorem kept_replayRun {r₀ : State} (s : State) (r : Run) (o : PassOps) (h₀ : Kept r₀ s) : Kept r₀ (replayRun s r o) := by
  unfold replayRun
  try dsimp only
  repeat' first
    | with_reducible assumption
    | with_reducible apply kept_showClamps
    | with_reducible apply kept_settlePass
    | with_reducible apply kept_streamPart
    | with_reducible apply Kept.ite
    | (first | intro _ _ _ _ _ _ _ | intro _ _ _ _ _ _ | intro _ _ _ _ _ | intro _ _ _ _ | intro _ _ _)
    | split
    | ((with_reducible refine Kept.mk_ _ _ _ _ _ _ _ _ _ _ _ _ _ _ _ _ _ _ _ _ _ _ _ _ _ _ _ _ _ _ _ _ _ _ _ _ _ _ _ _ _ _ _ ?_ rfl rfl rfl rfl rfl rfl rfl rfl rfl rfl (by first | exact Nat.le_refl _ | exact Nat.le_succ _ | exact Nat.le_add_right _ _ | omega) rfl (by first | exact Nat.le_refl _ | exact Nat.le_succ _ | omega)); (first | with_reducible assumption | with_reducible apply kept_showClamps | with_reducible apply kept_settlePass | with_reducible apply kept_streamPart | with_reducible apply Kept.ite | split))

theorem kept_countSkips {r₀ : State} (s : State) (r : Run) (h₀ : Kept r₀ s) : Kept r₀ (countSkips s r) := by
  unfold countSkips
  try dsimp only
  repeat' first
    | with_reducible assumption
    | with_reducible apply kept_setDeck
    | with_reducible apply kept_raiseBerth
    | with_reducible apply Kept.ite
    | (first | intro _ _ _ _ _ _ _ | intro _ _ _ _ _ _ | intro _ _ _ _ _ | intro _ _ _ _ | intro _ _ _)
    | ((with_reducible refine Kept.mk_ _ _ _ _ _ _ _ _ _ _ _ _ _ _ _ _ _ _ _ _ _ _ _ _ _ _ _ _ _ _ _ _ _ _ _ _ _ _ _ _ _ _ _ ?_ rfl rfl rfl rfl rfl rfl rfl rfl rfl rfl (by first | exact Nat.le_refl _ | exact Nat.le_succ _ | exact Nat.le_add_right _ _ | omega) rfl (by first | exact Nat.le_refl _ | exact Nat.le_succ _ | omega)); (first | with_reducible assumption | with_reducible apply kept_setDeck | with_reducible apply kept_raiseBerth | with_reducible apply Kept.ite))

theorem kept_passDone {r₀ : State} (s : State) (r : Run) (h₀ : Kept r₀ s) : Kept r₀ (passDone s r) := by
  unfold passDone
  try dsimp only
  repeat' first
    | with_reducible assumption
    | with_reducible apply kept_runDone
    | with_reducible apply kept_settlePass
    | with_reducible apply kept_countSkips
    | with_reducible apply Kept.ite
    | (first | intro _ _ _ _ _ _ _ | intro _ _ _ _ _ _ | intro _ _ _ _ _ | intro _ _ _ _ | intro _ _ _)
    | split
    | ((with_reducible refine Kept.mk_ _ _ _ _ _ _ _ _ _ _ _ _ _ _ _ _ _ _ _ _ _ _ _ _ _ _ _ _ _ _ _ _ _ _ _ _ _ _ _ _ _ _ _ ?_ rfl rfl rfl rfl rfl rfl rfl rfl rfl rfl (by first | exact Nat.le_refl _ | exact Nat.le_succ _ | exact Nat.le_add_right _ _ | omega) rfl (by first | exact Nat.le_refl _ | exact Nat.le_succ _ | omega)); (first | with_reducible assumption | with_reducible apply kept_runDone | with_reducible apply kept_settlePass | with_reducible apply kept_countSkips | with_reducible apply Kept.ite | split))

theorem kept_readAs {α : Type} {r₀ : State} (p : State × Option (List Byte)) (f : List Byte → α) (h₀ : Kept r₀ p.1) :
    Kept r₀ (readAs p f).1 := h₀

theorem kept_parityHit {r₀ : State} (s : State) (d : Nat) (loc : Nat) (h₀ : Kept r₀ s) : Kept r₀ (parityHit s d loc) := by
  unfold parityHit
  try dsimp only
  repeat' first
    | with_reducible assumption
    | with_reducible apply kept_setDeck
    | with_reducible apply kept_freshWord
    | with_reducible apply kept_raiseDeck
    | with_reducible apply Kept.ite
    | (first | intro _ _ _ _ _ _ _ | intro _ _ _ _ _ _ | intro _ _ _ _ _ | intro _ _ _ _ | intro _ _ _)
    | ((with_reducible refine Kept.mk_ _ _ _ _ _ _ _ _ _ _ _ _ _ _ _ _ _ _ _ _ _ _ _ _ _ _ _ _ _ _ _ _ _ _ _ _ _ _ _ _ _ _ _ ?_ rfl rfl rfl rfl rfl rfl rfl rfl rfl rfl (by first | exact Nat.le_refl _ | exact Nat.le_succ _ | exact Nat.le_add_right _ _ | omega) rfl (by first | exact Nat.le_refl _ | exact Nat.le_succ _ | omega)); (first | with_reducible assumption | with_reducible apply kept_setDeck | with_reducible apply kept_freshWord | with_reducible apply kept_raiseDeck | with_reducible apply Kept.ite))

theorem kept_accEcc {r₀ : State} (s : State) (d : Nat) (e : Ecc) (h₀ : Kept r₀ s) : Kept r₀ (accEcc s d e) := by
  unfold accEcc
  split
  · exact kept_parityHit _ _ _ h₀
  · exact h₀

theorem kept_readPort {r₀ : State} (sel : List (Nat × Nat)) (s : State) (k : Nat) (h₀ : Kept r₀ s) : Kept r₀ (readPort sel s k) := by
  unfold readPort
  try dsimp only
  repeat' first
    | with_reducible assumption
    | with_reducible apply kept_setDeck
    | with_reducible apply Kept.ite
    | with_reducible apply Kept.ite_fst
    | with_reducible apply Kept.foldl
    | with_reducible apply Kept.foldl_fst
    | with_reducible apply Kept.foldl_snd
    | (first | intro _ _ _ _ _ _ _ | intro _ _ _ _ _ _ | intro _ _ _ _ _ | intro _ _ _ _ | intro _ _ _)
    | ((with_reducible refine Kept.mk_ _ _ _ _ _ _ _ _ _ _ _ _ _ _ _ _ _ _ _ _ _ _ _ _ _ _ _ _ _ _ _ _ _ _ _ _ _ _ _ _ _ _ _ ?_ rfl rfl rfl rfl rfl rfl rfl rfl rfl rfl (by first | exact Nat.le_refl _ | exact Nat.le_succ _ | exact Nat.le_add_right _ _ | omega) rfl (by first | exact Nat.le_refl _ | exact Nat.le_succ _ | omega)); (first | with_reducible assumption | with_reducible apply kept_setDeck | with_reducible apply Kept.ite | with_reducible apply Kept.ite_fst | with_reducible apply Kept.foldl | with_reducible apply Kept.foldl_fst | with_reducible apply Kept.foldl_snd))

theorem kept_savePort {r₀ : State} (sel : List Nat) (s : State) (k : Nat) (h₀ : Kept r₀ s) : Kept r₀ (savePort sel s k) := by
  unfold savePort
  try dsimp only
  repeat' first
    | with_reducible assumption
    | with_reducible apply kept_readPort
    | with_reducible apply Kept.ite
    | (first | intro _ _ _ _ _ _ _ | intro _ _ _ _ _ _ | intro _ _ _ _ _ | intro _ _ _ _ | intro _ _ _)
    | ((with_reducible refine Kept.mk_ _ _ _ _ _ _ _ _ _ _ _ _ _ _ _ _ _ _ _ _ _ _ _ _ _ _ _ _ _ _ _ _ _ _ _ _ _ _ _ _ _ _ _ ?_ rfl rfl rfl rfl rfl rfl rfl rfl rfl rfl (by first | exact Nat.le_refl _ | exact Nat.le_succ _ | exact Nat.le_add_right _ _ | omega) rfl (by first | exact Nat.le_refl _ | exact Nat.le_succ _ | omega)); (first | with_reducible assumption | with_reducible apply kept_readPort | with_reducible apply Kept.ite))

theorem kept_saveaccAt {r₀ : State} (s : State) (q c b : Nat) (m : QCmd) (parity : Ecc) (h₀ : Kept r₀ s) :
    Kept r₀ (saveaccAt s q c b m parity) := by
  unfold saveaccAt
  dsimp only
  split
  · apply Kept.ite (kept_shapeFail _ _ _ _ _ _ _ h₀)
    split
    · exact kept_shapeFail _ _ _ _ _ _ _ h₀
    · split
      · exact kept_refuseHead _ _ _ _ (kept_raiseCtx _ _ _ _ _ _ h₀)
      · have k := kept_accEcc s (ctxDeck q c) parity h₀
        rename_i sl g a _ _ _ _ _
        have j := Kept.foldl (savePort (slotSet sl)) (fun t a h => kept_savePort _ _ _ h) (addressed s (ctxDeck q c) g) _
          (Kept.refl (accEcc s (ctxDeck q c) parity))
        exact kept_sendWrites _ _ _ _ _ _ _ _ _ (kept_startRun _ _ _ _ _ _
          (Kept.upd k rfl rfl rfl rfl rfl rfl rfl rfl rfl rfl j.always.free))
  · exact h₀

theorem kept_readPage {r₀ : State} (w : Nat → Nat → Requester) (b : Nat) (mem : HbmOutcome) (a : State × Option (List (Nat × Nat × List Byte))) (e : Nat × Nat) (h₀ : Kept r₀ a.1) : Kept r₀ (readPage w b mem a e).1 := by
  unfold readPage
  try dsimp only
  repeat' first
    | with_reducible assumption
    | with_reducible apply kept_stepRead
    | with_reducible apply kept_readAs
    | with_reducible apply Kept.ite
    | (first | intro _ _ _ _ _ _ _ | intro _ _ _ _ _ _ | intro _ _ _ _ _ | intro _ _ _ _ | intro _ _ _)
    | split
    | ((with_reducible refine Kept.mk_ _ _ _ _ _ _ _ _ _ _ _ _ _ _ _ _ _ _ _ _ _ _ _ _ _ _ _ _ _ _ _ _ _ _ _ _ _ _ _ _ _ _ _ ?_ rfl rfl rfl rfl rfl rfl rfl rfl rfl rfl (by first | exact Nat.le_refl _ | exact Nat.le_succ _ | exact Nat.le_add_right _ _ | omega) rfl (by first | exact Nat.le_refl _ | exact Nat.le_succ _ | omega)); (first | with_reducible assumption | with_reducible apply kept_stepRead | with_reducible apply kept_readAs | with_reducible apply Kept.ite | split))

theorem kept_readPages {r₀ : State} (w : Nat → Nat → Requester) (b : Nat) (mem : HbmOutcome) (l : List (Nat × Nat)) (s : State)
    (h₀ : Kept r₀ s) : Kept r₀ (readPages w b mem l s).1 :=
  Kept.foldl_fst _ (fun _ _ h => kept_readPage _ _ _ _ _ h) _ _ h₀

theorem kept_restoreShape {r₀ : State} (s : State) (b : Nat) (e : Nat × Nat × List Byte) (h₀ : Kept r₀ s) : Kept r₀ (restoreShape s b e) := by
  unfold restoreShape
  try dsimp only
  repeat' first
    | with_reducible assumption
    | with_reducible apply kept_raiseBerth
    | with_reducible apply Kept.ite
    | (first | intro _ _ _ _ _ _ _ | intro _ _ _ _ _ _ | intro _ _ _ _ _ | intro _ _ _ _ | intro _ _ _)
    | ((with_reducible refine Kept.mk_ _ _ _ _ _ _ _ _ _ _ _ _ _ _ _ _ _ _ _ _ _ _ _ _ _ _ _ _ _ _ _ _ _ _ _ _ _ _ _ _ _ _ _ ?_ rfl rfl rfl rfl rfl rfl rfl rfl rfl rfl (by first | exact Nat.le_refl _ | exact Nat.le_succ _ | exact Nat.le_add_right _ _ | omega) rfl (by first | exact Nat.le_refl _ | exact Nat.le_succ _ | omega)); (first | with_reducible assumption | with_reducible apply kept_raiseBerth | with_reducible apply Kept.ite))

theorem kept_restoreFrom {r₀ : State} (e : Nat × Nat × List Byte) (i : Nat) (ok : Bool) (p : State × Option (List Byte))
    (h₀ : Kept r₀ p.1) : Kept r₀ (restoreFrom e i ok p).1 := by
  unfold restoreFrom
  split
  · exact kept_setDeck _ _ _ h₀
  · exact h₀

theorem kept_restoreImage {r₀ : State} (w : Nat → Nat → Requester) (b : Nat) (mem : HbmOutcome) (e : Nat × Nat × List Byte) (z : State × Bool) (i : Nat) (h₀ : Kept r₀ z.1) : Kept r₀ (restoreImage w b mem e z i).1 := by
  unfold restoreImage
  try dsimp only
  repeat' first
    | with_reducible assumption
    | with_reducible apply kept_stepRead
    | with_reducible apply kept_restoreFrom
    | with_reducible apply Kept.ite
    | (first | intro _ _ _ _ _ _ _ | intro _ _ _ _ _ _ | intro _ _ _ _ _ | intro _ _ _ _ | intro _ _ _)
    | ((with_reducible refine Kept.mk_ _ _ _ _ _ _ _ _ _ _ _ _ _ _ _ _ _ _ _ _ _ _ _ _ _ _ _ _ _ _ _ _ _ _ _ _ _ _ _ _ _ _ _ ?_ rfl rfl rfl rfl rfl rfl rfl rfl rfl rfl (by first | exact Nat.le_refl _ | exact Nat.le_succ _ | exact Nat.le_add_right _ _ | omega) rfl (by first | exact Nat.le_refl _ | exact Nat.le_succ _ | omega)); (first | with_reducible assumption | with_reducible apply kept_stepRead | with_reducible apply kept_restoreFrom | with_reducible apply Kept.ite))

theorem kept_restoreAll {r₀ : State} (w : Nat → Nat → Requester) (b : Nat) (mem : HbmOutcome) (sel : List Nat)
    (l : List (Nat × Nat × List Byte)) (s : State) (h₀ : Kept r₀ s) : Kept r₀ (restoreAll w b mem sel l s).1 := by
  unfold restoreAll
  refine Kept.foldl_fst _ ?_ _ _ h₀
  intro p e h
  refine Kept.foldl_fst _ ?_ _ _ h
  intro p i h
  exact kept_restoreImage _ _ _ _ _ _ h

theorem kept_restaccAt {r₀ : State} (s : State) (q : Nat) (c : Nat) (b : Nat) (m : QCmd) (mem : HbmOutcome) (h₀ : Kept r₀ s) : Kept r₀ (restaccAt s q c b m mem) := by
  unfold restaccAt
  try dsimp only
  repeat' first
    | with_reducible assumption
    | with_reducible apply kept_raiseCtx
    | with_reducible apply kept_refuseHead
    | with_reducible apply kept_shapeFail
    | with_reducible apply kept_headDone
    | with_reducible apply kept_readPages
    | with_reducible apply kept_restoreShape
    | with_reducible apply kept_restoreAll
    | with_reducible apply Kept.ite
    | with_reducible apply Kept.ite_fst
    | (first | intro _ _ _ _ _ _ _ | intro _ _ _ _ _ _ | intro _ _ _ _ _ | intro _ _ _ _ | intro _ _ _)
    | split
    | ((with_reducible refine Kept.mk_ _ _ _ _ _ _ _ _ _ _ _ _ _ _ _ _ _ _ _ _ _ _ _ _ _ _ _ _ _ _ _ _ _ _ _ _ _ _ _ _ _ _ _ ?_ rfl rfl rfl rfl rfl rfl rfl rfl rfl rfl (by first | exact Nat.le_refl _ | exact Nat.le_succ _ | exact Nat.le_add_right _ _ | omega) rfl (by first | exact Nat.le_refl _ | exact Nat.le_succ _ | omega)); (first | with_reducible assumption | with_reducible apply kept_raiseCtx | with_reducible apply kept_refuseHead | with_reducible apply kept_shapeFail | with_reducible apply kept_headDone | with_reducible apply kept_readPages | with_reducible apply kept_restoreShape | with_reducible apply kept_restoreAll | with_reducible apply Kept.ite | with_reducible apply Kept.ite_fst | split))

theorem kept_undoPass {r₀ : State} (o : PassOps) (r : Run) (s : State) (k : Nat) (h₀ : Kept r₀ s) : Kept r₀ (undoPass o r s k) := by
  unfold undoPass
  try dsimp only
  repeat' first
    | with_reducible assumption
    | with_reducible apply kept_setDeck
    | with_reducible apply Kept.ite
    | with_reducible apply Kept.ite_fst
    | with_reducible apply Kept.foldl
    | with_reducible apply Kept.foldl_fst
    | with_reducible apply Kept.foldl_snd
    | (first | intro _ _ _ _ _ _ _ | intro _ _ _ _ _ _ | intro _ _ _ _ _ | intro _ _ _ _ | intro _ _ _)
    | split
    | ((with_reducible refine Kept.mk_ _ _ _ _ _ _ _ _ _ _ _ _ _ _ _ _ _ _ _ _ _ _ _ _ _ _ _ _ _ _ _ _ _ _ _ _ _ _ _ _ _ _ _ ?_ rfl rfl rfl rfl rfl rfl rfl rfl rfl rfl (by first | exact Nat.le_refl _ | exact Nat.le_succ _ | exact Nat.le_add_right _ _ | omega) rfl (by first | exact Nat.le_refl _ | exact Nat.le_succ _ | omega)); (first | with_reducible assumption | with_reducible apply kept_setDeck | with_reducible apply Kept.ite | with_reducible apply Kept.ite_fst | with_reducible apply Kept.foldl | with_reducible apply Kept.foldl_fst | with_reducible apply Kept.foldl_snd | split))

theorem kept_cutPass {r₀ : State} (s : State) (r : Run) (o : PassOps) (step : Nat) (h₀ : Kept r₀ s) : Kept r₀ (cutPass s r o step) := by
  unfold cutPass
  try dsimp only
  repeat' first
    | with_reducible assumption
    | with_reducible apply kept_setBerth
    | with_reducible apply kept_showClamps
    | with_reducible apply kept_streamPart
    | with_reducible apply kept_undoPass
    | with_reducible apply Kept.ite
    | with_reducible apply Kept.foldl
    | with_reducible apply Kept.foldl_fst
    | with_reducible apply Kept.foldl_snd
    | (first | intro _ _ _ _ _ _ _ | intro _ _ _ _ _ _ | intro _ _ _ _ _ | intro _ _ _ _ | intro _ _ _)
    | split
    | ((with_reducible refine Kept.mk_ _ _ _ _ _ _ _ _ _ _ _ _ _ _ _ _ _ _ _ _ _ _ _ _ _ _ _ _ _ _ _ _ _ _ _ _ _ _ _ _ _ _ _ ?_ rfl rfl rfl rfl rfl rfl rfl rfl rfl rfl (by first | exact Nat.le_refl _ | exact Nat.le_succ _ | exact Nat.le_add_right _ _ | omega) rfl (by first | exact Nat.le_refl _ | exact Nat.le_succ _ | omega)); (first | with_reducible assumption | with_reducible apply kept_setBerth | with_reducible apply kept_showClamps | with_reducible apply kept_streamPart | with_reducible apply kept_undoPass | with_reducible apply Kept.ite | with_reducible apply Kept.foldl | with_reducible apply Kept.foldl_fst | with_reducible apply Kept.foldl_snd | split))

theorem kept_cutAll {r₀ : State} (b : Nat) (cuts : List (Nat × Nat)) (s : State) (h₀ : Kept r₀ s) : Kept r₀ (cutAll b cuts s) := by
  unfold cutAll
  try dsimp only
  repeat' first
    | with_reducible assumption
    | with_reducible apply kept_cutPass
    | with_reducible apply Kept.ite
    | with_reducible apply Kept.ite_fst
    | with_reducible apply Kept.foldl
    | with_reducible apply Kept.foldl_fst
    | with_reducible apply Kept.foldl_snd
    | (first | intro _ _ _ _ _ _ _ | intro _ _ _ _ _ _ | intro _ _ _ _ _ | intro _ _ _ _ | intro _ _ _)
    | split
    | ((with_reducible refine Kept.mk_ _ _ _ _ _ _ _ _ _ _ _ _ _ _ _ _ _ _ _ _ _ _ _ _ _ _ _ _ _ _ _ _ _ _ _ _ _ _ _ _ _ _ _ ?_ rfl rfl rfl rfl rfl rfl rfl rfl rfl rfl (by first | exact Nat.le_refl _ | exact Nat.le_succ _ | exact Nat.le_add_right _ _ | omega) rfl (by first | exact Nat.le_refl _ | exact Nat.le_succ _ | omega)); (first | with_reducible assumption | with_reducible apply kept_cutPass | with_reducible apply Kept.ite | with_reducible apply Kept.ite_fst | with_reducible apply Kept.foldl | with_reducible apply Kept.foldl_fst | with_reducible apply Kept.foldl_snd | split))

theorem kept_saveInto {r₀ : State} (b : Nat) (late : Option Nat) (a : State × Bool) (d base n : Nat) (h₀ : Kept r₀ a.1) :
    Kept r₀ (saveInto b late a d base n).1 := by
  unfold saveInto
  split
  · exact kept_raiseBerth _ _ _ _ _ _ h₀
  · exact kept_stepWrite _ _ _ _ _ h₀

theorem kept_saveDeck {r₀ : State} (b : Nat) (late : Option Nat) (a : State × Bool) (d : Nat) (h₀ : Kept r₀ a.1) :
    Kept r₀ (saveDeck b late a d).1 := by
  unfold saveDeck
  split
  · exact kept_raiseBerth _ _ _ _ _ _ h₀
  · exact kept_saveInto _ _ _ _ _ _ h₀

theorem kept_reenterPass {r₀ : State} (b : Nat) (s : State) (x : SuspendedPass) (h₀ : Kept r₀ s) : Kept r₀ (reenterPass b s x) := by
  have k := kept_freshId s h₀
  have hn : (freshId s).2.nextId = (freshId s).1 + 1 := rfl
  unfold reenterPass
  split
  · generalize freshId s = p at k hn ⊢
    dsimp only
    apply kept_enterPass
    refine Kept.runs k _ p.2.nextId (fun w y hy => ?_)
    rcases List.mem_append.mp hy with hy | hy
    · exact w y hy
    · rw [List.mem_singleton.mp hy, hn]
      exact Nat.lt_succ_self _
  · exact h₀

end Sys2Proof.Laws
end

