-- ==== Sys2Proof/Laws/KeptDrain.lean ====
section
/-! SUPPORT. What each operation of Machine/Drain.lean keeps. -/

namespace Sys2Proof.Laws

set_option linter.all false

open Sys2Proof.Machine Sys2Proof.Safety

theorem kept_statPart {r₀ : State} (r : Run) (o : DrainOps) (f : FnEntry) (d : Nat) (k : Nat) (rows : List (List Word)) (masked : List (Nat × Nat)) (s : State) (part : Nat) (h₀ : Kept r₀ s) : Kept r₀ (statPart r o f d k rows masked s part) := by
  unfold statPart
  try dsimp only
  repeat' first
    | with_reducible assumption
    | with_reducible apply kept_putBuf
    | with_reducible apply Kept.ite
    | with_reducible apply Kept.ite_fst
    | with_reducible apply Kept.foldl
    | with_reducible apply Kept.foldl_fst
    | with_reducible apply Kept.foldl_snd
    | (first | intro _ _ _ _ _ _ _ | intro _ _ _ _ _ _ | intro _ _ _ _ _ | intro _ _ _ _ | intro _ _ _)
    | ((with_reducible refine Kept.mk_ _ _ _ _ _ _ _ _ _ _ _ _ _ _ _ _ _ _ _ _ _ _ _ _ _ _ _ _ _ _ _ _ _ _ _ _ _ _ _ _ _ _ _ ?_ rfl rfl rfl rfl rfl rfl rfl rfl rfl rfl (by first | exact Nat.le_refl _ | exact Nat.le_succ _ | exact Nat.le_add_right _ _ | omega) rfl (by first | exact Nat.le_refl _ | exact Nat.le_succ _ | omega)); (first | with_reducible assumption | with_reducible apply kept_putBuf | with_reducible apply Kept.ite | with_reducible apply Kept.ite_fst | with_reducible apply Kept.foldl | with_reducible apply Kept.foldl_fst | with_reducible apply Kept.foldl_snd))

theorem kept_addNorm {r₀ : State} (acc : Nat) (vals : List Word) (s : State) (k : Nat) (h₀ : Kept r₀ s) : Kept r₀ (addNorm acc vals s k) := by
  unfold addNorm
  try dsimp only
  repeat' first
    | with_reducible assumption
    | with_reducible apply kept_setDeck
    | with_reducible apply Kept.ite
    | (first | intro _ _ _ _ _ _ _ | intro _ _ _ _ _ _ | intro _ _ _ _ _ | intro _ _ _ _ | intro _ _ _)
    | ((with_reducible refine Kept.mk_ _ _ _ _ _ _ _ _ _ _ _ _ _ _ _ _ _ _ _ _ _ _ _ _ _ _ _ _ _ _ _ _ _ _ _ _ _ _ _ _ _ _ _ ?_ rfl rfl rfl rfl rfl rfl rfl rfl rfl rfl (by first | exact Nat.le_refl _ | exact Nat.le_succ _ | exact Nat.le_add_right _ _ | omega) rfl (by first | exact Nat.le_refl _ | exact Nat.le_succ _ | omega)); (first | with_reducible assumption | with_reducible apply kept_setDeck | with_reducible apply Kept.ite))

theorem kept_drainBuf {r₀ : State} (r : Run) (o : DrainOps) (f : FnEntry) (d : Nat) (k : Nat) (base : Nat) (rows : List (List Word)) (masked : List (Nat × Nat)) (s : State) (h₀ : Kept r₀ s) : Kept r₀ (drainBuf r o f d k base rows masked s) := by
  unfold drainBuf
  try dsimp only
  repeat' first
    | with_reducible assumption
    | with_reducible apply kept_putBuf
    | with_reducible apply Kept.ite
    | (first | intro _ _ _ _ _ _ _ | intro _ _ _ _ _ _ | intro _ _ _ _ _ | intro _ _ _ _ | intro _ _ _)
    | ((with_reducible refine Kept.mk_ _ _ _ _ _ _ _ _ _ _ _ _ _ _ _ _ _ _ _ _ _ _ _ _ _ _ _ _ _ _ _ _ _ _ _ _ _ _ _ _ _ _ _ ?_ rfl rfl rfl rfl rfl rfl rfl rfl rfl rfl (by first | exact Nat.le_refl _ | exact Nat.le_succ _ | exact Nat.le_add_right _ _ | omega) rfl (by first | exact Nat.le_refl _ | exact Nat.le_succ _ | omega)); (first | with_reducible assumption | with_reducible apply kept_putBuf | with_reducible apply Kept.ite))

theorem kept_drainStats {r₀ : State} (r : Run) (o : DrainOps) (f : FnEntry) (d : Nat) (fm : Nat × Bool) (draw : Nat → Nat → Nat → Nat) (masked : List (Nat × Nat)) (s : State) (e : (Nat × List (List Word)) × Nat) (h₀ : Kept r₀ s) : Kept r₀ (drainStats r o f d fm draw masked s e) := by
  unfold drainStats
  try dsimp only
  repeat' first
    | with_reducible assumption
    | with_reducible apply kept_setDeck
    | with_reducible apply kept_statPart
    | with_reducible apply kept_addNorm
    | with_reducible apply Kept.ite
    | with_reducible apply Kept.ite_fst
    | with_reducible apply Kept.foldl
    | with_reducible apply Kept.foldl_fst
    | with_reducible apply Kept.foldl_snd
    | (first | intro _ _ _ _ _ _ _ | intro _ _ _ _ _ _ | intro _ _ _ _ _ | intro _ _ _ _ | intro _ _ _)
    | ((with_reducible refine Kept.mk_ _ _ _ _ _ _ _ _ _ _ _ _ _ _ _ _ _ _ _ _ _ _ _ _ _ _ _ _ _ _ _ _ _ _ _ _ _ _ _ _ _ _ _ ?_ rfl rfl rfl rfl rfl rfl rfl rfl rfl rfl (by first | exact Nat.le_refl _ | exact Nat.le_succ _ | exact Nat.le_add_right _ _ | omega) rfl (by first | exact Nat.le_refl _ | exact Nat.le_succ _ | omega)); (first | with_reducible assumption | with_reducible apply kept_setDeck | with_reducible apply kept_statPart | with_reducible apply kept_addNorm | with_reducible apply Kept.ite | with_reducible apply Kept.ite_fst | with_reducible apply Kept.foldl | with_reducible apply Kept.foldl_fst | with_reducible apply Kept.foldl_snd))

theorem kept_drainCursors {r₀ : State} (s : State) (d : Nat) (o : DrainOps) (f : FnEntry) (fm : Nat × Bool) (m : QCmd) (h₀ : Kept r₀ s) : Kept r₀ (drainCursors s d o f fm m).1 := by
  unfold drainCursors
  try dsimp only
  repeat' first
    | with_reducible assumption
    | with_reducible apply kept_setDeck
    | with_reducible apply Kept.ite
    | with_reducible apply Kept.ite_fst
    | (first | intro _ _ _ _ _ _ _ | intro _ _ _ _ _ _ | intro _ _ _ _ _ | intro _ _ _ _ | intro _ _ _)
    | ((with_reducible refine Kept.mk_ _ _ _ _ _ _ _ _ _ _ _ _ _ _ _ _ _ _ _ _ _ _ _ _ _ _ _ _ _ _ _ _ _ _ _ _ _ _ _ _ _ _ _ ?_ rfl rfl rfl rfl rfl rfl rfl rfl rfl rfl (by first | exact Nat.le_refl _ | exact Nat.le_succ _ | exact Nat.le_add_right _ _ | omega) rfl (by first | exact Nat.le_refl _ | exact Nat.le_succ _ | omega)); (first | with_reducible assumption | with_reducible apply kept_setDeck | with_reducible apply Kept.ite | with_reducible apply Kept.ite_fst))

theorem kept_drainPort {r₀ : State} (o : DrainOps) (quads : List Nat) (s : State) (k : Nat) (h₀ : Kept r₀ s) : Kept r₀ (drainPort o quads s k) := by
  unfold drainPort
  try dsimp only
  repeat' first
    | with_reducible assumption
    | with_reducible apply kept_readPort
    | with_reducible apply Kept.ite
    | (first | intro _ _ _ _ _ _ _ | intro _ _ _ _ _ _ | intro _ _ _ _ _ | intro _ _ _ _ | intro _ _ _)
    | ((with_reducible refine Kept.mk_ _ _ _ _ _ _ _ _ _ _ _ _ _ _ _ _ _ _ _ _ _ _ _ _ _ _ _ _ _ _ _ _ _ _ _ _ _ _ _ _ _ _ _ ?_ rfl rfl rfl rfl rfl rfl rfl rfl rfl rfl (by first | exact Nat.le_refl _ | exact Nat.le_succ _ | exact Nat.le_add_right _ _ | omega) rfl (by first | exact Nat.le_refl _ | exact Nat.le_succ _ | omega)); (first | with_reducible assumption | with_reducible apply kept_readPort | with_reducible apply Kept.ite))

theorem kept_keepSlots {r₀ : State} (old : State) (decks : List Nat) (s : State) (h₀ : Kept r₀ s) : Kept r₀ (keepSlots old decks s) := by
  unfold keepSlots
  try dsimp only
  repeat' first
    | with_reducible assumption
    | with_reducible apply kept_setDeck
    | with_reducible apply Kept.ite
    | with_reducible apply Kept.foldl
    | with_reducible apply Kept.foldl_fst
    | with_reducible apply Kept.foldl_snd
    | (first | intro _ _ _ _ _ _ _ | intro _ _ _ _ _ _ | intro _ _ _ _ _ | intro _ _ _ _ | intro _ _ _)
    | ((with_reducible refine Kept.mk_ _ _ _ _ _ _ _ _ _ _ _ _ _ _ _ _ _ _ _ _ _ _ _ _ _ _ _ _ _ _ _ _ _ _ _ _ _ _ _ _ _ _ _ ?_ rfl rfl rfl rfl rfl rfl rfl rfl rfl rfl (by first | exact Nat.le_refl _ | exact Nat.le_succ _ | exact Nat.le_add_right _ _ | omega) rfl (by first | exact Nat.le_refl _ | exact Nat.le_succ _ | omega)); (first | with_reducible assumption | with_reducible apply kept_setDeck | with_reducible apply Kept.ite | with_reducible apply Kept.foldl | with_reducible apply Kept.foldl_fst | with_reducible apply Kept.foldl_snd))

theorem kept_readLayer {r₀ : State} (s : State) (w : Requester) (b : Nat) (o : DrainOps) (f : FnEntry) (mem : HbmOutcome) (h₀ : Kept r₀ s) : Kept r₀ (readLayer s w b o f mem).1 := by
  unfold readLayer
  try dsimp only
  repeat' first
    | with_reducible assumption
    | with_reducible apply kept_stepRead
    | with_reducible apply kept_readAs
    | with_reducible apply Kept.ite
    | with_reducible apply Kept.ite_fst
    | (first | intro _ _ _ _ _ _ _ | intro _ _ _ _ _ _ | intro _ _ _ _ _ | intro _ _ _ _ | intro _ _ _)
    | ((with_reducible refine Kept.mk_ _ _ _ _ _ _ _ _ _ _ _ _ _ _ _ _ _ _ _ _ _ _ _ _ _ _ _ _ _ _ _ _ _ _ _ _ _ _ _ _ _ _ _ ?_ rfl rfl rfl rfl rfl rfl rfl rfl rfl rfl (by first | exact Nat.le_refl _ | exact Nat.le_succ _ | exact Nat.le_add_right _ _ | omega) rfl (by first | exact Nat.le_refl _ | exact Nat.le_succ _ | omega)); (first | with_reducible assumption | with_reducible apply kept_stepRead | with_reducible apply kept_readAs | with_reducible apply Kept.ite | with_reducible apply Kept.ite_fst))

theorem kept_readScalar {r₀ : State} (s : State) (w : Requester) (b : Nat) (f : FnEntry) (mem : HbmOutcome) (h₀ : Kept r₀ s) : Kept r₀ (readScalar s w b f mem).1 := by
  unfold readScalar
  try dsimp only
  repeat' first
    | with_reducible assumption
    | with_reducible apply kept_stepRead
    | with_reducible apply kept_readAs
    | with_reducible apply Kept.ite
    | with_reducible apply Kept.ite_fst
    | (first | intro _ _ _ _ _ _ _ | intro _ _ _ _ _ _ | intro _ _ _ _ _ | intro _ _ _ _ | intro _ _ _)
    | ((with_reducible refine Kept.mk_ _ _ _ _ _ _ _ _ _ _ _ _ _ _ _ _ _ _ _ _ _ _ _ _ _ _ _ _ _ _ _ _ _ _ _ _ _ _ _ _ _ _ _ ?_ rfl rfl rfl rfl rfl rfl rfl rfl rfl rfl (by first | exact Nat.le_refl _ | exact Nat.le_succ _ | exact Nat.le_add_right _ _ | omega) rfl (by first | exact Nat.le_refl _ | exact Nat.le_succ _ | omega)); (first | with_reducible assumption | with_reducible apply kept_stepRead | with_reducible apply kept_readAs | with_reducible apply Kept.ite | with_reducible apply Kept.ite_fst))

theorem kept_drainRun {r₀ : State} (s0 : State) (q : Nat) (c : Nat) (b : Nat) (m : QCmd) (o : DrainOps) (f : FnEntry) (ds : Desc) (cv : Nat × Nat × Nat) (w : Word) (h₀ : Kept r₀ s0) : Kept r₀ (drainRun s0 q c b m o f ds cv w) := by
  unfold drainRun
  try dsimp only
  repeat' first
    | with_reducible assumption
    | with_reducible apply kept_setRun
    | with_reducible apply kept_inuseDown
    | with_reducible apply kept_deliverRows
    | with_reducible apply kept_startRun
    | with_reducible apply kept_sendWrites
    | with_reducible apply kept_drainBuf
    | with_reducible apply kept_drainStats
    | with_reducible apply kept_drainPort
    | with_reducible apply kept_keepSlots
    | with_reducible apply Kept.ite
    | with_reducible apply Kept.ite_fst
    | with_reducible apply Kept.foldl
    | with_reducible apply Kept.foldl_fst
    | with_reducible apply Kept.foldl_snd
    | (first | intro _ _ _ _ _ _ _ | intro _ _ _ _ _ _ | intro _ _ _ _ _ | intro _ _ _ _ | intro _ _ _)
    | split
    | ((with_reducible refine Kept.mk_ _ _ _ _ _ _ _ _ _ _ _ _ _ _ _ _ _ _ _ _ _ _ _ _ _ _ _ _ _ _ _ _ _ _ _ _ _ _ _ _ _ _ _ ?_ rfl rfl rfl rfl rfl rfl rfl rfl rfl rfl (by first | exact Nat.le_refl _ | exact Nat.le_succ _ | exact Nat.le_add_right _ _ | omega) rfl (by first | exact Nat.le_refl _ | exact Nat.le_succ _ | omega)); (first | with_reducible assumption | with_reducible apply kept_setRun | with_reducible apply kept_inuseDown | with_reducible apply kept_deliverRows | with_reducible apply kept_startRun | with_reducible apply kept_sendWrites | with_reducible apply kept_drainBuf | with_reducible apply kept_drainStats | with_reducible apply kept_drainPort | with_reducible apply kept_keepSlots | with_reducible apply Kept.ite | with_reducible apply Kept.ite_fst | with_reducible apply Kept.foldl | with_reducible apply Kept.foldl_fst | with_reducible apply Kept.foldl_snd | split))

theorem kept_drainGo {r₀ : State} (s : State) (q : Nat) (c : Nat) (b : Nat) (m : QCmd) (o : DrainOps) (f : FnEntry) (e : Nat) (w : Word) (buffer : Ecc) (parity : Ecc) (h₀ : Kept r₀ s) : Kept r₀ (drainGo s q c b m o f e w buffer parity) := by
  unfold drainGo
  try dsimp only
  repeat' first
    | with_reducible assumption
    | with_reducible apply kept_raiseCtx
    | with_reducible apply kept_raiseHoldRange
    | with_reducible apply kept_refuseHead
    | with_reducible apply kept_shapeFail
    | with_reducible apply kept_bufEcc
    | with_reducible apply kept_accEcc
    | with_reducible apply kept_drainCursors
    | with_reducible apply kept_drainRun
    | with_reducible apply Kept.ite
    | with_reducible apply Kept.ite_fst
    | (first | intro _ _ _ _ _ _ _ | intro _ _ _ _ _ _ | intro _ _ _ _ _ | intro _ _ _ _ | intro _ _ _)
    | split
    | ((with_reducible refine Kept.mk_ _ _ _ _ _ _ _ _ _ _ _ _ _ _ _ _ _ _ _ _ _ _ _ _ _ _ _ _ _ _ _ _ _ _ _ _ _ _ _ _ _ _ _ ?_ rfl rfl rfl rfl rfl rfl rfl rfl rfl rfl (by first | exact Nat.le_refl _ | exact Nat.le_succ _ | exact Nat.le_add_right _ _ | omega) rfl (by first | exact Nat.le_refl _ | exact Nat.le_succ _ | omega)); (first | with_reducible assumption | with_reducible apply kept_raiseCtx | with_reducible apply kept_raiseHoldRange | with_reducible apply kept_refuseHead | with_reducible apply kept_shapeFail | with_reducible apply kept_bufEcc | with_reducible apply kept_accEcc | with_reducible apply kept_drainCursors | with_reducible apply kept_drainRun | with_reducible apply Kept.ite | with_reducible apply Kept.ite_fst | split))

theorem kept_drainAt {r₀ : State} (s : State) (q : Nat) (c : Nat) (b : Nat) (m : QCmd) (buffer : Ecc) (parity : Ecc) (mem : HbmOutcome) (h₀ : Kept r₀ s) : Kept r₀ (drainAt s q c b m buffer parity mem) := by
  unfold drainAt
  try dsimp only
  repeat' first
    | with_reducible assumption
    | with_reducible apply kept_refuseHead
    | with_reducible apply kept_shapeFail
    | with_reducible apply kept_readLayer
    | with_reducible apply kept_readScalar
    | with_reducible apply kept_drainGo
    | with_reducible apply Kept.ite
    | with_reducible apply Kept.ite_fst
    | (first | intro _ _ _ _ _ _ _ | intro _ _ _ _ _ _ | intro _ _ _ _ _ | intro _ _ _ _ | intro _ _ _)
    | split
    | ((with_reducible refine Kept.mk_ _ _ _ _ _ _ _ _ _ _ _ _ _ _ _ _ _ _ _ _ _ _ _ _ _ _ _ _ _ _ _ _ _ _ _ _ _ _ _ _ _ _ _ ?_ rfl rfl rfl rfl rfl rfl rfl rfl rfl rfl (by first | exact Nat.le_refl _ | exact Nat.le_succ _ | exact Nat.le_add_right _ _ | omega) rfl (by first | exact Nat.le_refl _ | exact Nat.le_succ _ | omega)); (first | with_reducible assumption | with_reducible apply kept_refuseHead | with_reducible apply kept_shapeFail | with_reducible apply kept_readLayer | with_reducible apply kept_readScalar | with_reducible apply kept_drainGo | with_reducible apply Kept.ite | with_reducible apply Kept.ite_fst | split))

theorem kept_flushSound {r₀ : State} (r : Run) (l : Nat) (step : Nat) (late : Option Nat) (a : State × Bool) (k : Nat) (h₀ : Kept r₀ a.1) : Kept r₀ (flushSound r l step late a k).1 := by
  unfold flushSound
  try dsimp only
  repeat' first
    | with_reducible assumption
    | with_reducible apply kept_setDeck
    | with_reducible apply kept_stepWrite
    | with_reducible apply Kept.ite
    | (first | intro _ _ _ _ _ _ _ | intro _ _ _ _ _ _ | intro _ _ _ _ _ | intro _ _ _ _ | intro _ _ _)
    | ((with_reducible refine Kept.mk_ _ _ _ _ _ _ _ _ _ _ _ _ _ _ _ _ _ _ _ _ _ _ _ _ _ _ _ _ _ _ _ _ _ _ _ _ _ _ _ _ _ _ _ ?_ rfl rfl rfl rfl rfl rfl rfl rfl rfl rfl (by first | exact Nat.le_refl _ | exact Nat.le_succ _ | exact Nat.le_add_right _ _ | omega) rfl (by first | exact Nat.le_refl _ | exact Nat.le_succ _ | omega)); (first | with_reducible assumption | with_reducible apply kept_setDeck | with_reducible apply kept_stepWrite | with_reducible apply Kept.ite))

theorem kept_drainEnd {r₀ : State} (s : State) (r : Run) (o : DrainOps) (late : Option Nat) (h₀ : Kept r₀ s) : Kept r₀ (drainEnd s r o late) := by
  unfold drainEnd
  try dsimp only
  repeat' first
    | with_reducible assumption
    | with_reducible apply kept_failRun
    | with_reducible apply kept_runDone
    | with_reducible apply kept_ackHold
    | with_reducible apply kept_flushSound
    | with_reducible apply Kept.ite
    | with_reducible apply Kept.ite_fst
    | with_reducible apply Kept.foldl
    | with_reducible apply Kept.foldl_fst
    | with_reducible apply Kept.foldl_snd
    | (first | intro _ _ _ _ _ _ _ | intro _ _ _ _ _ _ | intro _ _ _ _ _ | intro _ _ _ _ | intro _ _ _)
    | ((with_reducible refine Kept.mk_ _ _ _ _ _ _ _ _ _ _ _ _ _ _ _ _ _ _ _ _ _ _ _ _ _ _ _ _ _ _ _ _ _ _ _ _ _ _ _ _ _ _ _ ?_ rfl rfl rfl rfl rfl rfl rfl rfl rfl rfl (by first | exact Nat.le_refl _ | exact Nat.le_succ _ | exact Nat.le_add_right _ _ | omega) rfl (by first | exact Nat.le_refl _ | exact Nat.le_succ _ | omega)); (first | with_reducible assumption | with_reducible apply kept_failRun | with_reducible apply kept_runDone | with_reducible apply kept_ackHold | with_reducible apply kept_flushSound | with_reducible apply Kept.ite | with_reducible apply Kept.ite_fst | with_reducible apply Kept.foldl | with_reducible apply Kept.foldl_fst | with_reducible apply Kept.foldl_snd))

theorem kept_readRecord {r₀ : State} (w : Requester) (b : Nat) (mem : HbmOutcome) (x : State × Option (List (List Byte))) (a : Nat) (h₀ : Kept r₀ x.1) : Kept r₀ (readRecord w b mem x a).1 := by
  unfold readRecord
  try dsimp only
  repeat' first
    | with_reducible assumption
    | with_reducible apply kept_stepRead
    | with_reducible apply kept_readAs
    | with_reducible apply Kept.ite
    | (first | intro _ _ _ _ _ _ _ | intro _ _ _ _ _ _ | intro _ _ _ _ _ | intro _ _ _ _ | intro _ _ _)
    | split
    | ((with_reducible refine Kept.mk_ _ _ _ _ _ _ _ _ _ _ _ _ _ _ _ _ _ _ _ _ _ _ _ _ _ _ _ _ _ _ _ _ _ _ _ _ _ _ _ _ _ _ _ ?_ rfl rfl rfl rfl rfl rfl rfl rfl rfl rfl (by first | exact Nat.le_refl _ | exact Nat.le_succ _ | exact Nat.le_add_right _ _ | omega) rfl (by first | exact Nat.le_refl _ | exact Nat.le_succ _ | omega)); (first | with_reducible assumption | with_reducible apply kept_stepRead | with_reducible apply kept_readAs | with_reducible apply Kept.ite | split))

theorem kept_readRecords {r₀ : State} (w : Requester) (b : Nat) (mem : HbmOutcome) (l : List Nat) (s : State)
    (h₀ : Kept r₀ s) : Kept r₀ (readRecords w b mem l s).1 :=
  Kept.foldl_fst _ (fun _ _ h => kept_readRecord _ _ _ _ _ h) _ _ h₀

theorem kept_fmtselEnd {r₀ : State} (s : State) (q : Nat) (c : Nat) (b : Nat) (m : QCmd) (l : Nat) (late : Option Nat) (v : Option Nat) (h₀ : Kept r₀ s) : Kept r₀ (fmtselEnd s q c b m l late v) := by
  unfold fmtselEnd
  try dsimp only
  repeat' first
    | with_reducible assumption
    | with_reducible apply kept_stepWrite
    | with_reducible apply kept_refuseHead
    | with_reducible apply kept_headDone
    | with_reducible apply Kept.ite
    | with_reducible apply Kept.ite_fst
    | (first | intro _ _ _ _ _ _ _ | intro _ _ _ _ _ _ | intro _ _ _ _ _ | intro _ _ _ _ | intro _ _ _)
    | split
    | ((with_reducible refine Kept.mk_ _ _ _ _ _ _ _ _ _ _ _ _ _ _ _ _ _ _ _ _ _ _ _ _ _ _ _ _ _ _ _ _ _ _ _ _ _ _ _ _ _ _ _ ?_ rfl rfl rfl rfl rfl rfl rfl rfl rfl rfl (by first | exact Nat.le_refl _ | exact Nat.le_succ _ | exact Nat.le_add_right _ _ | omega) rfl (by first | exact Nat.le_refl _ | exact Nat.le_succ _ | omega)); (first | with_reducible assumption | with_reducible apply kept_stepWrite | with_reducible apply kept_refuseHead | with_reducible apply kept_headDone | with_reducible apply Kept.ite | with_reducible apply Kept.ite_fst | split))

theorem kept_fmtselAt {r₀ : State} (s : State) (q : Nat) (c : Nat) (b : Nat) (m : QCmd) (mem : HbmOutcome) (h₀ : Kept r₀ s) : Kept r₀ (fmtselAt s q c b m mem) := by
  unfold fmtselAt
  try dsimp only
  repeat' first
    | with_reducible assumption
    | with_reducible apply kept_refuseHead
    | with_reducible apply kept_shapeFail
    | with_reducible apply kept_readRecords
    | with_reducible apply kept_fmtselEnd
    | with_reducible apply Kept.ite
    | with_reducible apply Kept.ite_fst
    | (first | intro _ _ _ _ _ _ _ | intro _ _ _ _ _ _ | intro _ _ _ _ _ | intro _ _ _ _ | intro _ _ _)
    | split
    | ((with_reducible refine Kept.mk_ _ _ _ _ _ _ _ _ _ _ _ _ _ _ _ _ _ _ _ _ _ _ _ _ _ _ _ _ _ _ _ _ _ _ _ _ _ _ _ _ _ _ _ ?_ rfl rfl rfl rfl rfl rfl rfl rfl rfl rfl (by first | exact Nat.le_refl _ | exact Nat.le_succ _ | exact Nat.le_add_right _ _ | omega) rfl (by first | exact Nat.le_refl _ | exact Nat.le_succ _ | omega)); (first | with_reducible assumption | with_reducible apply kept_refuseHead | with_reducible apply kept_shapeFail | with_reducible apply kept_readRecords | with_reducible apply kept_fmtselEnd | with_reducible apply Kept.ite | with_reducible apply Kept.ite_fst | split))

end Sys2Proof.Laws
end

