-- ==== Sys2Proof/Laws/KeptMemory.lean ====
section
/-! SUPPORT. What each operation of Machine/Memory.lean keeps. -/

namespace Sys2Proof.Laws

set_option linter.all false

open Sys2Proof.Machine Sys2Proof.Safety

theorem kept_freeTrk {r₀ : State} (s : State) (id : Nat) (h₀ : Kept r₀ s) : Kept r₀ (freeTrk s id) := by
  unfold freeTrk
  try dsimp only
  repeat' first
    | with_reducible assumption
    | with_reducible apply Kept.ite
    | (first | intro _ _ _ _ _ _ _ | intro _ _ _ _ _ _ | intro _ _ _ _ _ | intro _ _ _ _ | intro _ _ _)
    | ((with_reducible refine Kept.mk_ _ _ _ _ _ _ _ _ _ _ _ _ _ _ _ _ _ _ _ _ _ _ _ _ _ _ _ _ _ _ _ _ _ _ _ _ _ _ _ _ _ _ _ ?_ rfl rfl rfl rfl rfl rfl rfl rfl rfl rfl (by first | exact Nat.le_refl _ | exact Nat.le_succ _ | exact Nat.le_add_right _ _ | omega) rfl (by first | exact Nat.le_refl _ | exact Nat.le_succ _ | omega)); (first | with_reducible assumption | with_reducible apply Kept.ite))

theorem kept_dropPieces {r₀ : State} (s : State) (id : Nat) (h₀ : Kept r₀ s) : Kept r₀ (dropPieces s id) := by
  unfold dropPieces
  try dsimp only
  repeat' first
    | with_reducible assumption
    | with_reducible apply kept_setPieces
    | with_reducible apply Kept.ite
    | (first | intro _ _ _ _ _ _ _ | intro _ _ _ _ _ _ | intro _ _ _ _ _ | intro _ _ _ _ | intro _ _ _)
    | ((with_reducible refine Kept.mk_ _ _ _ _ _ _ _ _ _ _ _ _ _ _ _ _ _ _ _ _ _ _ _ _ _ _ _ _ _ _ _ _ _ _ _ _ _ _ _ _ _ _ _ ?_ rfl rfl rfl rfl rfl rfl rfl rfl rfl rfl (by first | exact Nat.le_refl _ | exact Nat.le_succ _ | exact Nat.le_add_right _ _ | omega) rfl (by first | exact Nat.le_refl _ | exact Nat.le_succ _ | omega)); (first | with_reducible assumption | with_reducible apply kept_setPieces | with_reducible apply Kept.ite))

theorem kept_failReads {r₀ : State} (s : State) (id : Nat) (h₀ : Kept r₀ s) : Kept r₀ (failReads s id) := by
  unfold failReads
  try dsimp only
  repeat' first
    | with_reducible assumption
    | with_reducible apply kept_loseRun
    | with_reducible apply Kept.ite
    | (first | intro _ _ _ _ _ _ _ | intro _ _ _ _ _ _ | intro _ _ _ _ _ | intro _ _ _ _ | intro _ _ _)
    | ((with_reducible refine Kept.mk_ _ _ _ _ _ _ _ _ _ _ _ _ _ _ _ _ _ _ _ _ _ _ _ _ _ _ _ _ _ _ _ _ _ _ _ _ _ _ _ _ _ _ _ ?_ rfl rfl rfl rfl rfl rfl rfl rfl rfl rfl (by first | exact Nat.le_refl _ | exact Nat.le_succ _ | exact Nat.le_add_right _ _ | omega) rfl (by first | exact Nat.le_refl _ | exact Nat.le_succ _ | omega)); (first | with_reducible assumption | with_reducible apply kept_loseRun | with_reducible apply Kept.ite))

theorem kept_deliver {r₀ : State} (s : State) (t : Trk) (cells : List Host.Cell) (h₀ : Kept r₀ s) : Kept r₀ (deliver s t cells) := by
  unfold deliver
  try dsimp only
  repeat' first
    | with_reducible assumption
    | with_reducible apply kept_setQuay
    | with_reducible apply kept_setRun
    | with_reducible apply Kept.ite
    | with_reducible apply Kept.ite_fst
    | with_reducible apply Kept.foldl
    | with_reducible apply Kept.foldl_fst
    | with_reducible apply Kept.foldl_snd
    | (first | intro _ _ _ _ _ _ _ | intro _ _ _ _ _ _ | intro _ _ _ _ _ | intro _ _ _ _ | intro _ _ _)
    | split
    | ((with_reducible refine Kept.mk_ _ _ _ _ _ _ _ _ _ _ _ _ _ _ _ _ _ _ _ _ _ _ _ _ _ _ _ _ _ _ _ _ _ _ _ _ _ _ _ _ _ _ _ ?_ rfl rfl rfl rfl rfl rfl rfl rfl rfl rfl (by first | exact Nat.le_refl _ | exact Nat.le_succ _ | exact Nat.le_add_right _ _ | omega) rfl (by first | exact Nat.le_refl _ | exact Nat.le_succ _ | omega)); (first | with_reducible assumption | with_reducible apply kept_setQuay | with_reducible apply kept_setRun | with_reducible apply Kept.ite | with_reducible apply Kept.ite_fst | with_reducible apply Kept.foldl | with_reducible apply Kept.foldl_fst | with_reducible apply Kept.foldl_snd | split))

theorem kept_dropThread {r₀ : State} (s : State) (t : Trk) (h₀ : Kept r₀ s) : Kept r₀ (dropThread s t) := by
  unfold dropThread
  try dsimp only
  repeat' first
    | with_reducible assumption
    | with_reducible apply kept_setQuay
    | with_reducible apply Kept.ite
    | (first | intro _ _ _ _ _ _ _ | intro _ _ _ _ _ _ | intro _ _ _ _ _ | intro _ _ _ _ | intro _ _ _)
    | ((with_reducible refine Kept.mk_ _ _ _ _ _ _ _ _ _ _ _ _ _ _ _ _ _ _ _ _ _ _ _ _ _ _ _ _ _ _ _ _ _ _ _ _ _ _ _ _ _ _ _ ?_ rfl rfl rfl rfl rfl rfl rfl rfl rfl rfl (by first | exact Nat.le_refl _ | exact Nat.le_succ _ | exact Nat.le_add_right _ _ | omega) rfl (by first | exact Nat.le_refl _ | exact Nat.le_succ _ | omega)); (first | with_reducible assumption | with_reducible apply kept_setQuay | with_reducible apply Kept.ite))

theorem kept_takePoison {r₀ : State} (s : State) (t : Trk) (standIn : Bool) (a : Nat) (h₀ : Kept r₀ s) : Kept r₀ (takePoison s t standIn a) := by
  unfold takePoison
  try dsimp only
  repeat' first
    | with_reducible assumption
    | with_reducible apply kept_raiseReq
    | with_reducible apply kept_failReads
    | with_reducible apply kept_dropThread
    | with_reducible apply Kept.ite
    | (first | intro _ _ _ _ _ _ _ | intro _ _ _ _ _ _ | intro _ _ _ _ _ | intro _ _ _ _ | intro _ _ _)
    | ((with_reducible refine Kept.mk_ _ _ _ _ _ _ _ _ _ _ _ _ _ _ _ _ _ _ _ _ _ _ _ _ _ _ _ _ _ _ _ _ _ _ _ _ _ _ _ _ _ _ _ ?_ rfl rfl rfl rfl rfl rfl rfl rfl rfl rfl (by first | exact Nat.le_refl _ | exact Nat.le_succ _ | exact Nat.le_add_right _ _ | omega) rfl (by first | exact Nat.le_refl _ | exact Nat.le_succ _ | omega)); (first | with_reducible assumption | with_reducible apply kept_raiseReq | with_reducible apply kept_failReads | with_reducible apply kept_dropThread | with_reducible apply Kept.ite))

theorem kept_readFinds {r₀ : State} (s : State) (t : Trk) (errs : List BlockErr) (onDie : Nat) (h₀ : Kept r₀ s) : Kept r₀ (readFinds s t errs onDie).1 := by
  unfold readFinds
  try dsimp only
  repeat' first
    | with_reducible assumption
    | with_reducible apply kept_odeccAdd
    | with_reducible apply kept_readErrors
    | with_reducible apply Kept.ite
    | with_reducible apply Kept.ite_fst
    | (first | intro _ _ _ _ _ _ _ | intro _ _ _ _ _ _ | intro _ _ _ _ _ | intro _ _ _ _ | intro _ _ _)
    | ((with_reducible refine Kept.mk_ _ _ _ _ _ _ _ _ _ _ _ _ _ _ _ _ _ _ _ _ _ _ _ _ _ _ _ _ _ _ _ _ _ _ _ _ _ _ _ _ _ _ _ ?_ rfl rfl rfl rfl rfl rfl rfl rfl rfl rfl (by first | exact Nat.le_refl _ | exact Nat.le_succ _ | exact Nat.le_add_right _ _ | omega) rfl (by first | exact Nat.le_refl _ | exact Nat.le_succ _ | omega)); (first | with_reducible assumption | with_reducible apply kept_odeccAdd | with_reducible apply kept_readErrors | with_reducible apply Kept.ite | with_reducible apply Kept.ite_fst))

theorem kept_readComplete {r₀ : State} (s : State) (t : Trk) (errs : List BlockErr) (onDie : Nat) (h₀ : Kept r₀ s) : Kept r₀ (readComplete s t errs onDie) := by
  unfold readComplete
  try dsimp only
  repeat' first
    | with_reducible assumption
    | with_reducible apply kept_issueAll
    | with_reducible apply kept_pumpRun
    | with_reducible apply kept_freeTrk
    | with_reducible apply kept_dropPieces
    | with_reducible apply kept_deliver
    | with_reducible apply kept_takePoison
    | with_reducible apply kept_readFinds
    | with_reducible apply Kept.ite
    | (first | intro _ _ _ _ _ _ _ | intro _ _ _ _ _ _ | intro _ _ _ _ _ | intro _ _ _ _ | intro _ _ _)
    | split
    | ((with_reducible refine Kept.mk_ _ _ _ _ _ _ _ _ _ _ _ _ _ _ _ _ _ _ _ _ _ _ _ _ _ _ _ _ _ _ _ _ _ _ _ _ _ _ _ _ _ _ _ ?_ rfl rfl rfl rfl rfl rfl rfl rfl rfl rfl (by first | exact Nat.le_refl _ | exact Nat.le_succ _ | exact Nat.le_add_right _ _ | omega) rfl (by first | exact Nat.le_refl _ | exact Nat.le_succ _ | omega)); (first | with_reducible assumption | with_reducible apply kept_issueAll | with_reducible apply kept_pumpRun | with_reducible apply kept_freeTrk | with_reducible apply kept_dropPieces | with_reducible apply kept_deliver | with_reducible apply kept_takePoison | with_reducible apply kept_readFinds | with_reducible apply Kept.ite | split))

theorem kept_writeDone {r₀ : State} (s : State) (t : Trk) (h₀ : Kept r₀ s) : Kept r₀ (writeDone s t) := by
  unfold writeDone
  try dsimp only
  repeat' first
    | with_reducible assumption
    | with_reducible apply kept_setQuay
    | with_reducible apply kept_issueAll
    | with_reducible apply kept_pumpRun
    | with_reducible apply kept_freeTrk
    | with_reducible apply Kept.ite
    | (first | intro _ _ _ _ _ _ _ | intro _ _ _ _ _ _ | intro _ _ _ _ _ | intro _ _ _ _ | intro _ _ _)
    | ((with_reducible refine Kept.mk_ _ _ _ _ _ _ _ _ _ _ _ _ _ _ _ _ _ _ _ _ _ _ _ _ _ _ _ _ _ _ _ _ _ _ _ _ _ _ _ _ _ _ _ ?_ rfl rfl rfl rfl rfl rfl rfl rfl rfl rfl (by first | exact Nat.le_refl _ | exact Nat.le_succ _ | exact Nat.le_add_right _ _ | omega) rfl (by first | exact Nat.le_refl _ | exact Nat.le_succ _ | omega)); (first | with_reducible assumption | with_reducible apply kept_setQuay | with_reducible apply kept_issueAll | with_reducible apply kept_pumpRun | with_reducible apply kept_freeTrk | with_reducible apply Kept.ite))

theorem kept_abandon {r₀ : State} (s : State) (t : Trk) (h₀ : Kept r₀ s) : Kept r₀ (abandon s t) := by
  unfold abandon
  try dsimp only
  repeat' first
    | with_reducible assumption
    | with_reducible apply kept_setQuay
    | with_reducible apply kept_hbmUndefine
    | with_reducible apply kept_issueAll
    | with_reducible apply kept_setPieces
    | with_reducible apply kept_raiseReq
    | with_reducible apply kept_pumpRun
    | with_reducible apply kept_freeTrk
    | with_reducible apply kept_failReads
    | with_reducible apply kept_dropThread
    | with_reducible apply Kept.ite
    | (first | intro _ _ _ _ _ _ _ | intro _ _ _ _ _ _ | intro _ _ _ _ _ | intro _ _ _ _ | intro _ _ _)
    | ((with_reducible refine Kept.mk_ _ _ _ _ _ _ _ _ _ _ _ _ _ _ _ _ _ _ _ _ _ _ _ _ _ _ _ _ _ _ _ _ _ _ _ _ _ _ _ _ _ _ _ ?_ rfl rfl rfl rfl rfl rfl rfl rfl rfl rfl (by first | exact Nat.le_refl _ | exact Nat.le_succ _ | exact Nat.le_add_right _ _ | omega) rfl (by first | exact Nat.le_refl _ | exact Nat.le_succ _ | omega)); (first | with_reducible assumption | with_reducible apply kept_setQuay | with_reducible apply kept_hbmUndefine | with_reducible apply kept_issueAll | with_reducible apply kept_setPieces | with_reducible apply kept_raiseReq | with_reducible apply kept_pumpRun | with_reducible apply kept_freeTrk | with_reducible apply kept_failReads | with_reducible apply kept_dropThread | with_reducible apply Kept.ite))

theorem kept_withdraw {r₀ : State} (s : State) (x : Piece) (h₀ : Kept r₀ s) : Kept r₀ (withdraw s x) := by
  unfold withdraw
  try dsimp only
  repeat' first
    | with_reducible assumption
    | with_reducible apply kept_raise
    | with_reducible apply kept_movePiece
    | with_reducible apply Kept.ite
    | (first | intro _ _ _ _ _ _ _ | intro _ _ _ _ _ _ | intro _ _ _ _ _ | intro _ _ _ _ | intro _ _ _)
    | split
    | ((with_reducible refine Kept.mk_ _ _ _ _ _ _ _ _ _ _ _ _ _ _ _ _ _ _ _ _ _ _ _ _ _ _ _ _ _ _ _ _ _ _ _ _ _ _ _ _ _ _ _ ?_ rfl rfl rfl rfl rfl rfl rfl rfl rfl rfl (by first | exact Nat.le_refl _ | exact Nat.le_succ _ | exact Nat.le_add_right _ _ | omega) rfl (by first | exact Nat.le_refl _ | exact Nat.le_succ _ | omega)); (first | with_reducible assumption | with_reducible apply kept_raise | with_reducible apply kept_movePiece | with_reducible apply Kept.ite | split))

theorem kept_fillReturn {r₀ : State} (s : State) (t : Trk) (f : Nat × Bool × Nat) (errs : List BlockErr) (onDie : Nat) (h₀ : Kept r₀ s) : Kept r₀ (fillReturn s t f errs onDie) := by
  unfold fillReturn
  try dsimp only
  repeat' first
    | with_reducible assumption
    | with_reducible apply kept_setQuay
    | with_reducible apply kept_issueAll
    | with_reducible apply kept_freeTrk
    | with_reducible apply kept_dropPieces
    | with_reducible apply kept_readFinds
    | with_reducible apply Kept.ite
    | with_reducible apply Kept.ite_fst
    | (first | intro _ _ _ _ _ _ _ | intro _ _ _ _ _ _ | intro _ _ _ _ _ | intro _ _ _ _ | intro _ _ _)
    | ((with_reducible refine Kept.mk_ _ _ _ _ _ _ _ _ _ _ _ _ _ _ _ _ _ _ _ _ _ _ _ _ _ _ _ _ _ _ _ _ _ _ _ _ _ _ _ _ _ _ _ ?_ rfl rfl rfl rfl rfl rfl rfl rfl rfl rfl (by first | exact Nat.le_refl _ | exact Nat.le_succ _ | exact Nat.le_add_right _ _ | omega) rfl (by first | exact Nat.le_refl _ | exact Nat.le_succ _ | omega)); (first | with_reducible assumption | with_reducible apply kept_setQuay | with_reducible apply kept_issueAll | with_reducible apply kept_freeTrk | with_reducible apply kept_dropPieces | with_reducible apply kept_readFinds | with_reducible apply Kept.ite | with_reducible apply Kept.ite_fst))

theorem kept_commitTrk {r₀ : State} (s : State) (h₀ : Kept r₀ s) : Kept r₀ (commitTrk s) := by
  unfold commitTrk
  try dsimp only
  repeat' first
    | with_reducible assumption
    | with_reducible apply kept_issueAll
    | with_reducible apply Kept.ite
    | (first | intro _ _ _ _ _ _ _ | intro _ _ _ _ _ _ | intro _ _ _ _ _ | intro _ _ _ _ | intro _ _ _)
    | ((with_reducible refine Kept.mk_ _ _ _ _ _ _ _ _ _ _ _ _ _ _ _ _ _ _ _ _ _ _ _ _ _ _ _ _ _ _ _ _ _ _ _ _ _ _ _ _ _ _ _ ?_ rfl rfl rfl rfl rfl rfl rfl rfl rfl rfl (by first | exact Nat.le_refl _ | exact Nat.le_succ _ | exact Nat.le_add_right _ _ | omega) rfl (by first | exact Nat.le_refl _ | exact Nat.le_succ _ | omega)); (first | with_reducible assumption | with_reducible apply kept_issueAll | with_reducible apply Kept.ite))

theorem kept_commitArb {r₀ : State} (s : State) (q : Nat) (h₀ : Kept r₀ s) : Kept r₀ (commitArb s q) := by
  unfold commitArb
  try dsimp only
  repeat' first
    | with_reducible assumption
    | with_reducible apply Kept.ite
    | with_reducible apply Kept.foldl
    | with_reducible apply Kept.foldl_fst
    | with_reducible apply Kept.foldl_snd
    | (first | intro _ _ _ _ _ _ _ | intro _ _ _ _ _ _ | intro _ _ _ _ _ | intro _ _ _ _ | intro _ _ _)
    | ((with_reducible refine Kept.mk_ _ _ _ _ _ _ _ _ _ _ _ _ _ _ _ _ _ _ _ _ _ _ _ _ _ _ _ _ _ _ _ _ _ _ _ _ _ _ _ _ _ _ _ ?_ rfl rfl rfl rfl rfl rfl rfl rfl rfl rfl (by first | exact Nat.le_refl _ | exact Nat.le_succ _ | exact Nat.le_add_right _ _ | omega) rfl (by first | exact Nat.le_refl _ | exact Nat.le_succ _ | omega)); (first | with_reducible assumption | with_reducible apply Kept.ite | with_reducible apply Kept.foldl | with_reducible apply Kept.foldl_fst | with_reducible apply Kept.foldl_snd))

end Sys2Proof.Laws
end

