-- ==== Sys2Proof/Laws/KeptGather.lean ====
section
/-! SUPPORT. What each operation of Machine/Gather.lean keeps. -/

namespace Sys2Proof.Laws

set_option linter.all false

open Sys2Proof.Machine Sys2Proof.Safety

theorem kept_gatherAt {r₀ : State} (s : State) (q : Nat) (b : Nat) (m : QCmd) (mem : HbmOutcome) (h₀ : Kept r₀ s) : Kept r₀ (gatherAt s q b m mem) := by
  unfold gatherAt
  try dsimp only
  repeat' first
    | with_reducible assumption
    | with_reducible apply kept_setRun
    | with_reducible apply kept_raiseBerth
    | with_reducible apply kept_stepRead
    | with_reducible apply kept_refuseHead
    | with_reducible apply kept_shapeFail
    | with_reducible apply kept_headDone
    | with_reducible apply kept_startRun
    | with_reducible apply Kept.ite
    | with_reducible apply Kept.ite_fst
    | (first | intro _ _ _ _ _ _ _ | intro _ _ _ _ _ _ | intro _ _ _ _ _ | intro _ _ _ _ | intro _ _ _)
    | split
    | ((with_reducible refine Kept.mk_ _ _ _ _ _ _ _ _ _ _ _ _ _ _ _ _ _ _ _ _ _ _ _ _ _ _ _ _ _ _ _ _ _ _ _ _ _ _ _ _ _ _ _ ?_ rfl rfl rfl rfl rfl rfl rfl rfl rfl rfl (by first | exact Nat.le_refl _ | exact Nat.le_succ _ | exact Nat.le_add_right _ _ | omega) rfl (by first | exact Nat.le_refl _ | exact Nat.le_succ _ | omega)); (first | with_reducible assumption | with_reducible apply kept_setRun | with_reducible apply kept_raiseBerth | with_reducible apply kept_stepRead | with_reducible apply kept_refuseHead | with_reducible apply kept_shapeFail | with_reducible apply kept_headDone | with_reducible apply kept_startRun | with_reducible apply Kept.ite | with_reducible apply Kept.ite_fst | split))

theorem kept_gatherStart {r₀ : State} (s : State) (q : Nat) (op : Nat) (mem : HbmOutcome) (h₀ : Kept r₀ s) : Kept r₀ (gatherStart s q op mem) := by
  unfold gatherStart
  try dsimp only
  repeat' first
    | with_reducible assumption
    | with_reducible apply kept_gatherAt
    | with_reducible apply Kept.ite
    | with_reducible apply Kept.ite_fst
    | (first | intro _ _ _ _ _ _ _ | intro _ _ _ _ _ _ | intro _ _ _ _ _ | intro _ _ _ _ | intro _ _ _)
    | split
    | ((with_reducible refine Kept.mk_ _ _ _ _ _ _ _ _ _ _ _ _ _ _ _ _ _ _ _ _ _ _ _ _ _ _ _ _ _ _ _ _ _ _ _ _ _ _ _ _ _ _ _ ?_ rfl rfl rfl rfl rfl rfl rfl rfl rfl rfl (by first | exact Nat.le_refl _ | exact Nat.le_succ _ | exact Nat.le_add_right _ _ | omega) rfl (by first | exact Nat.le_refl _ | exact Nat.le_succ _ | omega)); (first | with_reducible assumption | with_reducible apply kept_gatherAt | with_reducible apply Kept.ite | with_reducible apply Kept.ite_fst | split))

theorem kept_recallAt {r₀ : State} (s : State) (q : Nat) (b : Nat) (m : QCmd) (h₀ : Kept r₀ s) : Kept r₀ (recallAt s q b m) := by
  unfold recallAt
  try dsimp only
  repeat' first
    | with_reducible assumption
    | with_reducible apply kept_setRun
    | with_reducible apply kept_raiseHoldRange
    | with_reducible apply kept_refuseHead
    | with_reducible apply kept_startRun
    | with_reducible apply Kept.ite
    | with_reducible apply Kept.ite_fst
    | (first | intro _ _ _ _ _ _ _ | intro _ _ _ _ _ _ | intro _ _ _ _ _ | intro _ _ _ _ | intro _ _ _)
    | split
    | ((with_reducible refine Kept.mk_ _ _ _ _ _ _ _ _ _ _ _ _ _ _ _ _ _ _ _ _ _ _ _ _ _ _ _ _ _ _ _ _ _ _ _ _ _ _ _ _ _ _ _ ?_ rfl rfl rfl rfl rfl rfl rfl rfl rfl rfl (by first | exact Nat.le_refl _ | exact Nat.le_succ _ | exact Nat.le_add_right _ _ | omega) rfl (by first | exact Nat.le_refl _ | exact Nat.le_succ _ | omega)); (first | with_reducible assumption | with_reducible apply kept_setRun | with_reducible apply kept_raiseHoldRange | with_reducible apply kept_refuseHead | with_reducible apply kept_startRun | with_reducible apply Kept.ite | with_reducible apply Kept.ite_fst | split))

theorem kept_stopGather {r₀ : State} (s : State) (id : Nat) (h₀ : Kept r₀ s) : Kept r₀ (stopGather s id) := by
  unfold stopGather
  try dsimp only
  repeat' first
    | with_reducible assumption
    | with_reducible apply kept_setRun
    | with_reducible apply Kept.ite
    | (first | intro _ _ _ _ _ _ _ | intro _ _ _ _ _ _ | intro _ _ _ _ _ | intro _ _ _ _ | intro _ _ _)
    | split
    | ((with_reducible refine Kept.mk_ _ _ _ _ _ _ _ _ _ _ _ _ _ _ _ _ _ _ _ _ _ _ _ _ _ _ _ _ _ _ _ _ _ _ _ _ _ _ _ _ _ _ _ ?_ rfl rfl rfl rfl rfl rfl rfl rfl rfl rfl (by first | exact Nat.le_refl _ | exact Nat.le_succ _ | exact Nat.le_add_right _ _ | omega) rfl (by first | exact Nat.le_refl _ | exact Nat.le_succ _ | omega)); (first | with_reducible assumption | with_reducible apply kept_setRun | with_reducible apply Kept.ite | split))

theorem kept_listRead {r₀ : State} (r : Run) (mem : HbmOutcome) (p : State × Option (List Host.Cell)) (e : Nat × Nat) (h₀ : Kept r₀ p.1) : Kept r₀ (listRead r mem p e).1 := by
  unfold listRead
  try dsimp only
  repeat' first
    | with_reducible assumption
    | with_reducible apply kept_stepRead
    | with_reducible apply Kept.ite
    | (first | intro _ _ _ _ _ _ _ | intro _ _ _ _ _ _ | intro _ _ _ _ _ | intro _ _ _ _ | intro _ _ _)
    | split
    | ((with_reducible refine Kept.mk_ _ _ _ _ _ _ _ _ _ _ _ _ _ _ _ _ _ _ _ _ _ _ _ _ _ _ _ _ _ _ _ _ _ _ _ _ _ _ _ _ _ _ _ ?_ rfl rfl rfl rfl rfl rfl rfl rfl rfl rfl (by first | exact Nat.le_refl _ | exact Nat.le_succ _ | exact Nat.le_add_right _ _ | omega) rfl (by first | exact Nat.le_refl _ | exact Nat.le_succ _ | omega)); (first | with_reducible assumption | with_reducible apply kept_stepRead | with_reducible apply Kept.ite | split))

theorem kept_listBytes {r₀ : State} (s : State) (r : Run) (a : Nat) (n : Nat) (mem : HbmOutcome) (h₀ : Kept r₀ s) : Kept r₀ (listBytes s r a n mem).1 := by
  unfold listBytes
  try dsimp only
  repeat' first
    | with_reducible assumption
    | with_reducible apply kept_setQuay
    | with_reducible apply kept_raiseBerth
    | with_reducible apply kept_listRead
    | with_reducible apply Kept.ite
    | with_reducible apply Kept.foldl
    | with_reducible apply Kept.foldl_fst
    | with_reducible apply Kept.foldl_snd
    | (first | intro _ _ _ _ _ _ _ | intro _ _ _ _ _ _ | intro _ _ _ _ _ | intro _ _ _ _ | intro _ _ _)
    | split
    | ((with_reducible refine Kept.mk_ _ _ _ _ _ _ _ _ _ _ _ _ _ _ _ _ _ _ _ _ _ _ _ _ _ _ _ _ _ _ _ _ _ _ _ _ _ _ _ _ _ _ _ ?_ rfl rfl rfl rfl rfl rfl rfl rfl rfl rfl (by first | exact Nat.le_refl _ | exact Nat.le_succ _ | exact Nat.le_add_right _ _ | omega) rfl (by first | exact Nat.le_refl _ | exact Nat.le_succ _ | omega)); (first | with_reducible assumption | with_reducible apply kept_setQuay | with_reducible apply kept_raiseBerth | with_reducible apply kept_listRead | with_reducible apply Kept.ite | with_reducible apply Kept.foldl | with_reducible apply Kept.foldl_fst | with_reducible apply Kept.foldl_snd | split))

theorem kept_listWords {r₀ : State} (s : State) (r : Run) (g : GDesc) (e : Nat) (n : Nat) (ecc : Ecc) (mem : HbmOutcome) (h₀ : Kept r₀ s) : Kept r₀ (listWords s r g e n ecc mem).1 := by
  unfold listWords
  try dsimp only
  repeat' first
    | with_reducible assumption
    | with_reducible apply kept_bufEcc
    | with_reducible apply kept_listBytes
    | with_reducible apply Kept.ite
    | with_reducible apply Kept.ite_fst
    | (first | intro _ _ _ _ _ _ _ | intro _ _ _ _ _ _ | intro _ _ _ _ _ | intro _ _ _ _ | intro _ _ _)
    | split
    | ((with_reducible refine Kept.mk_ _ _ _ _ _ _ _ _ _ _ _ _ _ _ _ _ _ _ _ _ _ _ _ _ _ _ _ _ _ _ _ _ _ _ _ _ _ _ _ _ _ _ _ ?_ rfl rfl rfl rfl rfl rfl rfl rfl rfl rfl (by first | exact Nat.le_refl _ | exact Nat.le_succ _ | exact Nat.le_add_right _ _ | omega) rfl (by first | exact Nat.le_refl _ | exact Nat.le_succ _ | omega)); (first | with_reducible assumption | with_reducible apply kept_bufEcc | with_reducible apply kept_listBytes | with_reducible apply Kept.ite | with_reducible apply Kept.ite_fst | split))

theorem kept_setThread {r₀ : State} (s : State) (q : Nat) (n : Nat) (t : Thread) (h₀ : Kept r₀ s) : Kept r₀ (setThread s q n t) := by
  unfold setThread
  try dsimp only
  repeat' first
    | with_reducible assumption
    | with_reducible apply kept_setQuay
    | with_reducible apply Kept.ite
    | (first | intro _ _ _ _ _ _ _ | intro _ _ _ _ _ _ | intro _ _ _ _ _ | intro _ _ _ _ | intro _ _ _)
    | ((with_reducible refine Kept.mk_ _ _ _ _ _ _ _ _ _ _ _ _ _ _ _ _ _ _ _ _ _ _ _ _ _ _ _ _ _ _ _ _ _ _ _ _ _ _ _ _ _ _ _ ?_ rfl rfl rfl rfl rfl rfl rfl rfl rfl rfl (by first | exact Nat.le_refl _ | exact Nat.le_succ _ | exact Nat.le_add_right _ _ | omega) rfl (by first | exact Nat.le_refl _ | exact Nat.le_succ _ | omega)); (first | with_reducible assumption | with_reducible apply kept_setQuay | with_reducible apply Kept.ite))

theorem kept_freeThread {r₀ : State} (s : State) (q : Nat) (n : Nat) (h₀ : Kept r₀ s) : Kept r₀ (freeThread s q n) := by
  unfold freeThread
  try dsimp only
  repeat' first
    | with_reducible assumption
    | with_reducible apply kept_setQuay
    | with_reducible apply Kept.ite
    | (first | intro _ _ _ _ _ _ _ | intro _ _ _ _ _ _ | intro _ _ _ _ _ | intro _ _ _ _ | intro _ _ _)
    | ((with_reducible refine Kept.mk_ _ _ _ _ _ _ _ _ _ _ _ _ _ _ _ _ _ _ _ _ _ _ _ _ _ _ _ _ _ _ _ _ _ _ _ _ _ _ _ _ _ _ _ ?_ rfl rfl rfl rfl rfl rfl rfl rfl rfl rfl (by first | exact Nat.le_refl _ | exact Nat.le_succ _ | exact Nat.le_add_right _ _ | omega) rfl (by first | exact Nat.le_refl _ | exact Nat.le_succ _ | omega)); (first | with_reducible assumption | with_reducible apply kept_setQuay | with_reducible apply Kept.ite))

theorem kept_threadIssue {r₀ : State} (s : State) (q : Nat) (n : Nat) (r : Run) (t : Thread) (h₀ : Kept r₀ s) : Kept r₀ (threadIssue s q n r t) := by
  unfold threadIssue
  try dsimp only
  repeat' first
    | with_reducible assumption
    | with_reducible apply kept_setQuay
    | with_reducible apply kept_issueFrom
    | with_reducible apply kept_setThread
    | with_reducible apply kept_freeThread
    | with_reducible apply Kept.ite
    | with_reducible apply Kept.ite_fst
    | (first | intro _ _ _ _ _ _ _ | intro _ _ _ _ _ _ | intro _ _ _ _ _ | intro _ _ _ _ | intro _ _ _)
    | ((with_reducible refine Kept.mk_ _ _ _ _ _ _ _ _ _ _ _ _ _ _ _ _ _ _ _ _ _ _ _ _ _ _ _ _ _ _ _ _ _ _ _ _ _ _ _ _ _ _ _ ?_ rfl rfl rfl rfl rfl rfl rfl rfl rfl rfl (by first | exact Nat.le_refl _ | exact Nat.le_succ _ | exact Nat.le_add_right _ _ | omega) rfl (by first | exact Nat.le_refl _ | exact Nat.le_succ _ | omega)); (first | with_reducible assumption | with_reducible apply kept_setQuay | with_reducible apply kept_issueFrom | with_reducible apply kept_setThread | with_reducible apply kept_freeThread | with_reducible apply Kept.ite | with_reducible apply Kept.ite_fst))

theorem kept_threadBegin {r₀ : State} (s : State) (q : Nat) (n : Nat) (r : Run) (t : Thread) (h₀ : Kept r₀ s) : Kept r₀ (threadBegin s q n r t) := by
  unfold threadBegin
  try dsimp only
  repeat' first
    | with_reducible assumption
    | with_reducible apply kept_setQuay
    | with_reducible apply kept_threadIssue
    | with_reducible apply Kept.ite
    | with_reducible apply Kept.ite_fst
    | with_reducible apply Kept.foldl
    | with_reducible apply Kept.foldl_fst
    | with_reducible apply Kept.foldl_snd
    | (first | intro _ _ _ _ _ _ _ | intro _ _ _ _ _ _ | intro _ _ _ _ _ | intro _ _ _ _ | intro _ _ _)
    | ((with_reducible refine Kept.mk_ _ _ _ _ _ _ _ _ _ _ _ _ _ _ _ _ _ _ _ _ _ _ _ _ _ _ _ _ _ _ _ _ _ _ _ _ _ _ _ _ _ _ _ ?_ rfl rfl rfl rfl rfl rfl rfl rfl rfl rfl (by first | exact Nat.le_refl _ | exact Nat.le_succ _ | exact Nat.le_add_right _ _ | omega) rfl (by first | exact Nat.le_refl _ | exact Nat.le_succ _ | omega)); (first | with_reducible assumption | with_reducible apply kept_setQuay | with_reducible apply kept_threadIssue | with_reducible apply Kept.ite | with_reducible apply Kept.ite_fst | with_reducible apply Kept.foldl | with_reducible apply Kept.foldl_fst | with_reducible apply Kept.foldl_snd))

theorem kept_threadWrite {r₀ : State} (s : State) (q : Nat) (n : Nat) (r : Run) (t : Thread) (h₀ : Kept r₀ s) : Kept r₀ (threadWrite s q n r t) := by
  unfold threadWrite
  try dsimp only
  repeat' first
    | with_reducible assumption
    | with_reducible apply kept_threadIssue
    | with_reducible apply Kept.ite
    | (first | intro _ _ _ _ _ _ _ | intro _ _ _ _ _ _ | intro _ _ _ _ _ | intro _ _ _ _ | intro _ _ _)
    | ((with_reducible refine Kept.mk_ _ _ _ _ _ _ _ _ _ _ _ _ _ _ _ _ _ _ _ _ _ _ _ _ _ _ _ _ _ _ _ _ _ _ _ _ _ _ _ _ _ _ _ ?_ rfl rfl rfl rfl rfl rfl rfl rfl rfl rfl (by first | exact Nat.le_refl _ | exact Nat.le_succ _ | exact Nat.le_add_right _ _ | omega) rfl (by first | exact Nat.le_refl _ | exact Nat.le_succ _ | omega)); (first | with_reducible assumption | with_reducible apply kept_threadIssue | with_reducible apply Kept.ite))

theorem kept_takePosition {r₀ : State} (s : State) (q : Nat) (n : Nat) (r : Run) (ecc : Ecc) (mem : HbmOutcome) (h₀ : Kept r₀ s) : Kept r₀ (takePosition s q n r ecc mem) := by
  unfold takePosition
  try dsimp only
  repeat' first
    | with_reducible assumption
    | with_reducible apply kept_setRun
    | with_reducible apply kept_raiseBerth
    | with_reducible apply kept_stopGather
    | with_reducible apply kept_listWords
    | with_reducible apply kept_setThread
    | with_reducible apply Kept.ite
    | with_reducible apply Kept.ite_fst
    | (first | intro _ _ _ _ _ _ _ | intro _ _ _ _ _ _ | intro _ _ _ _ _ | intro _ _ _ _ | intro _ _ _)
    | split
    | ((with_reducible refine Kept.mk_ _ _ _ _ _ _ _ _ _ _ _ _ _ _ _ _ _ _ _ _ _ _ _ _ _ _ _ _ _ _ _ _ _ _ _ _ _ _ _ _ _ _ _ ?_ rfl rfl rfl rfl rfl rfl rfl rfl rfl rfl (by first | exact Nat.le_refl _ | exact Nat.le_succ _ | exact Nat.le_add_right _ _ | omega) rfl (by first | exact Nat.le_refl _ | exact Nat.le_succ _ | omega)); (first | with_reducible assumption | with_reducible apply kept_setRun | with_reducible apply kept_raiseBerth | with_reducible apply kept_stopGather | with_reducible apply kept_listWords | with_reducible apply kept_setThread | with_reducible apply Kept.ite | with_reducible apply Kept.ite_fst | split))

theorem kept_takePage {r₀ : State} (s : State) (r : Run) (p : Nat) (h₀ : Kept r₀ s) : Kept r₀ (takePage s r p).1 := by
  unfold takePage
  try dsimp only
  repeat' first
    | with_reducible assumption
    | with_reducible apply kept_setRun
    | with_reducible apply kept_setHold
    | with_reducible apply Kept.ite
    | with_reducible apply Kept.ite_fst
    | (first | intro _ _ _ _ _ _ _ | intro _ _ _ _ _ _ | intro _ _ _ _ _ | intro _ _ _ _ | intro _ _ _)
    | split
    | ((with_reducible refine Kept.mk_ _ _ _ _ _ _ _ _ _ _ _ _ _ _ _ _ _ _ _ _ _ _ _ _ _ _ _ _ _ _ _ _ _ _ _ _ _ _ _ _ _ _ _ ?_ rfl rfl rfl rfl rfl rfl rfl rfl rfl rfl (by first | exact Nat.le_refl _ | exact Nat.le_succ _ | exact Nat.le_add_right _ _ | omega) rfl (by first | exact Nat.le_refl _ | exact Nat.le_succ _ | omega)); (first | with_reducible assumption | with_reducible apply kept_setRun | with_reducible apply kept_setHold | with_reducible apply Kept.ite | with_reducible apply Kept.ite_fst | split))

theorem kept_askPiece {r₀ : State} (s : State) (q : Nat) (n : Nat) (id : Nat) (p : Nat) (h₀ : Kept r₀ s) : Kept r₀ (askPiece s q n id p) := by
  unfold askPiece
  try dsimp only
  repeat' first
    | with_reducible assumption
    | with_reducible apply kept_setRun
    | with_reducible apply kept_request
    | with_reducible apply kept_failRecall
    | with_reducible apply kept_setThread
    | with_reducible apply Kept.ite
    | (first | intro _ _ _ _ _ _ _ | intro _ _ _ _ _ _ | intro _ _ _ _ _ | intro _ _ _ _ | intro _ _ _)
    | split
    | ((with_reducible refine Kept.mk_ _ _ _ _ _ _ _ _ _ _ _ _ _ _ _ _ _ _ _ _ _ _ _ _ _ _ _ _ _ _ _ _ _ _ _ _ _ _ _ _ _ _ _ ?_ rfl rfl rfl rfl rfl rfl rfl rfl rfl rfl (by first | exact Nat.le_refl _ | exact Nat.le_succ _ | exact Nat.le_add_right _ _ | omega) rfl (by first | exact Nat.le_refl _ | exact Nat.le_succ _ | omega)); (first | with_reducible assumption | with_reducible apply kept_setRun | with_reducible apply kept_request | with_reducible apply kept_failRecall | with_reducible apply kept_setThread | with_reducible apply Kept.ite | split))

theorem kept_takePiece {r₀ : State} (s : State) (q : Nat) (n : Nat) (r : Run) (h₀ : Kept r₀ s) : Kept r₀ (takePiece s q n r) := by
  unfold takePiece
  try dsimp only
  repeat' first
    | with_reducible assumption
    | with_reducible apply kept_setRun
    | with_reducible apply kept_takePage
    | with_reducible apply kept_askPiece
    | with_reducible apply Kept.ite
    | with_reducible apply Kept.ite_fst
    | (first | intro _ _ _ _ _ _ _ | intro _ _ _ _ _ _ | intro _ _ _ _ _ | intro _ _ _ _ | intro _ _ _)
    | ((with_reducible refine Kept.mk_ _ _ _ _ _ _ _ _ _ _ _ _ _ _ _ _ _ _ _ _ _ _ _ _ _ _ _ _ _ _ _ _ _ _ _ _ _ _ _ _ _ _ _ ?_ rfl rfl rfl rfl rfl rfl rfl rfl rfl rfl (by first | exact Nat.le_refl _ | exact Nat.le_succ _ | exact Nat.le_add_right _ _ | omega) rfl (by first | exact Nat.le_refl _ | exact Nat.le_succ _ | omega)); (first | with_reducible assumption | with_reducible apply kept_setRun | with_reducible apply kept_takePage | with_reducible apply kept_askPiece | with_reducible apply Kept.ite | with_reducible apply Kept.ite_fst))

theorem kept_pageDone {r₀ : State} (s : State) (r : Run) (p : Nat) (f : Nat) (h₀ : Kept r₀ s) : Kept r₀ (pageDone s r p f) := by
  unfold pageDone
  try dsimp only
  repeat' first
    | with_reducible assumption
    | with_reducible apply kept_setRun
    | with_reducible apply kept_setHold
    | with_reducible apply kept_makeResident
    | with_reducible apply Kept.ite
    | (first | intro _ _ _ _ _ _ _ | intro _ _ _ _ _ _ | intro _ _ _ _ _ | intro _ _ _ _ | intro _ _ _)
    | ((with_reducible refine Kept.mk_ _ _ _ _ _ _ _ _ _ _ _ _ _ _ _ _ _ _ _ _ _ _ _ _ _ _ _ _ _ _ _ _ _ _ _ _ _ _ _ _ _ _ _ ?_ rfl rfl rfl rfl rfl rfl rfl rfl rfl rfl (by first | exact Nat.le_refl _ | exact Nat.le_succ _ | exact Nat.le_add_right _ _ | omega) rfl (by first | exact Nat.le_refl _ | exact Nat.le_succ _ | omega)); (first | with_reducible assumption | with_reducible apply kept_setRun | with_reducible apply kept_setHold | with_reducible apply kept_makeResident | with_reducible apply Kept.ite))

theorem kept_pieceWritten {r₀ : State} (s : State) (r : Run) (p : Nat) (k : Nat) (h₀ : Kept r₀ s) : Kept r₀ (pieceWritten s r p k) := by
  unfold pieceWritten
  try dsimp only
  repeat' first
    | with_reducible assumption
    | with_reducible apply kept_setRun
    | with_reducible apply kept_pageDone
    | with_reducible apply Kept.ite
    | with_reducible apply Kept.ite_fst
    | (first | intro _ _ _ _ _ _ _ | intro _ _ _ _ _ _ | intro _ _ _ _ _ | intro _ _ _ _ | intro _ _ _)
    | ((with_reducible refine Kept.mk_ _ _ _ _ _ _ _ _ _ _ _ _ _ _ _ _ _ _ _ _ _ _ _ _ _ _ _ _ _ _ _ _ _ _ _ _ _ _ _ _ _ _ _ ?_ rfl rfl rfl rfl rfl rfl rfl rfl rfl rfl (by first | exact Nat.le_refl _ | exact Nat.le_succ _ | exact Nat.le_add_right _ _ | omega) rfl (by first | exact Nat.le_refl _ | exact Nat.le_succ _ | omega)); (first | with_reducible assumption | with_reducible apply kept_setRun | with_reducible apply kept_pageDone | with_reducible apply Kept.ite | with_reducible apply Kept.ite_fst))

theorem kept_threadAct {r₀ : State} (s : State) (q : Nat) (n : Nat) (t : Thread) (h₀ : Kept r₀ s) : Kept r₀ (threadAct s q n t) := by
  unfold threadAct
  try dsimp only
  repeat' first
    | with_reducible assumption
    | with_reducible apply kept_freeThread
    | with_reducible apply kept_threadIssue
    | with_reducible apply kept_threadBegin
    | with_reducible apply kept_threadWrite
    | with_reducible apply kept_pieceWritten
    | with_reducible apply Kept.ite
    | with_reducible apply Kept.ite_fst
    | (first | intro _ _ _ _ _ _ _ | intro _ _ _ _ _ _ | intro _ _ _ _ _ | intro _ _ _ _ | intro _ _ _)
    | split
    | ((with_reducible refine Kept.mk_ _ _ _ _ _ _ _ _ _ _ _ _ _ _ _ _ _ _ _ _ _ _ _ _ _ _ _ _ _ _ _ _ _ _ _ _ _ _ _ _ _ _ _ ?_ rfl rfl rfl rfl rfl rfl rfl rfl rfl rfl (by first | exact Nat.le_refl _ | exact Nat.le_succ _ | exact Nat.le_add_right _ _ | omega) rfl (by first | exact Nat.le_refl _ | exact Nat.le_succ _ | omega)); (first | with_reducible assumption | with_reducible apply kept_freeThread | with_reducible apply kept_threadIssue | with_reducible apply kept_threadBegin | with_reducible apply kept_threadWrite | with_reducible apply kept_pieceWritten | with_reducible apply Kept.ite | with_reducible apply Kept.ite_fst | split))

theorem kept_threadAction {r₀ : State} (s : State) (q : Nat) (ecc : Ecc) (mem : HbmOutcome) (h₀ : Kept r₀ s) : Kept r₀ (threadAction s q ecc mem) := by
  unfold threadAction
  try dsimp only
  repeat' first
    | with_reducible assumption
    | with_reducible apply kept_setQuay
    | with_reducible apply kept_takePosition
    | with_reducible apply kept_takePiece
    | with_reducible apply kept_threadAct
    | with_reducible apply Kept.ite
    | (first | intro _ _ _ _ _ _ _ | intro _ _ _ _ _ _ | intro _ _ _ _ _ | intro _ _ _ _ | intro _ _ _)
    | split
    | ((with_reducible refine Kept.mk_ _ _ _ _ _ _ _ _ _ _ _ _ _ _ _ _ _ _ _ _ _ _ _ _ _ _ _ _ _ _ _ _ _ _ _ _ _ _ _ _ _ _ _ ?_ rfl rfl rfl rfl rfl rfl rfl rfl rfl rfl (by first | exact Nat.le_refl _ | exact Nat.le_succ _ | exact Nat.le_add_right _ _ | omega) rfl (by first | exact Nat.le_refl _ | exact Nat.le_succ _ | omega)); (first | with_reducible assumption | with_reducible apply kept_setQuay | with_reducible apply kept_takePosition | with_reducible apply kept_takePiece | with_reducible apply kept_threadAct | with_reducible apply Kept.ite | split))

theorem kept_gatherComplete {r₀ : State} (s : State) (q : Nat) (run : Nat) (h₀ : Kept r₀ s) : Kept r₀ (gatherComplete s q run) := by
  unfold gatherComplete
  try dsimp only
  repeat' first
    | with_reducible assumption
    | with_reducible apply kept_failRun
    | with_reducible apply kept_stopRecall
    | with_reducible apply kept_runDone
    | with_reducible apply Kept.ite
    | (first | intro _ _ _ _ _ _ _ | intro _ _ _ _ _ _ | intro _ _ _ _ _ | intro _ _ _ _ | intro _ _ _)
    | split
    | ((with_reducible refine Kept.mk_ _ _ _ _ _ _ _ _ _ _ _ _ _ _ _ _ _ _ _ _ _ _ _ _ _ _ _ _ _ _ _ _ _ _ _ _ _ _ _ _ _ _ _ ?_ rfl rfl rfl rfl rfl rfl rfl rfl rfl rfl (by first | exact Nat.le_refl _ | exact Nat.le_succ _ | exact Nat.le_add_right _ _ | omega) rfl (by first | exact Nat.le_refl _ | exact Nat.le_succ _ | omega)); (first | with_reducible assumption | with_reducible apply kept_failRun | with_reducible apply kept_stopRecall | with_reducible apply kept_runDone | with_reducible apply Kept.ite | split))

theorem kept_ackRecall {r₀ : State} (s : State) (b : Nat) (run : Nat) (p : Nat) (h₀ : Kept r₀ s) : Kept r₀ (ackRecall s b run p) := by
  unfold ackRecall
  try dsimp only
  repeat' first
    | with_reducible assumption
    | with_reducible apply kept_setReqs
    | with_reducible apply Kept.ite
    | (first | intro _ _ _ _ _ _ _ | intro _ _ _ _ _ _ | intro _ _ _ _ _ | intro _ _ _ _ | intro _ _ _)
    | split
    | ((with_reducible refine Kept.mk_ _ _ _ _ _ _ _ _ _ _ _ _ _ _ _ _ _ _ _ _ _ _ _ _ _ _ _ _ _ _ _ _ _ _ _ _ _ _ _ _ _ _ _ ?_ rfl rfl rfl rfl rfl rfl rfl rfl rfl rfl (by first | exact Nat.le_refl _ | exact Nat.le_succ _ | exact Nat.le_add_right _ _ | omega) rfl (by first | exact Nat.le_refl _ | exact Nat.le_succ _ | omega)); (first | with_reducible assumption | with_reducible apply kept_setReqs | with_reducible apply Kept.ite | split))

theorem kept_pieceDone {r₀ : State} (s : State) (q : Nat) (n : Nat) (r : Run) (t : Thread) (p : Nat) (k : Nat) (data : List Byte) (h₀ : Kept r₀ s) : Kept r₀ (pieceDone s q n r t p k data) := by
  unfold pieceDone
  try dsimp only
  repeat' first
    | with_reducible assumption
    | with_reducible apply kept_setThread
    | with_reducible apply kept_freeThread
    | with_reducible apply kept_ackRecall
    | with_reducible apply Kept.ite
    | (first | intro _ _ _ _ _ _ _ | intro _ _ _ _ _ _ | intro _ _ _ _ _ | intro _ _ _ _ | intro _ _ _)
    | ((with_reducible refine Kept.mk_ _ _ _ _ _ _ _ _ _ _ _ _ _ _ _ _ _ _ _ _ _ _ _ _ _ _ _ _ _ _ _ _ _ _ _ _ _ _ _ _ _ _ _ ?_ rfl rfl rfl rfl rfl rfl rfl rfl rfl rfl (by first | exact Nat.le_refl _ | exact Nat.le_succ _ | exact Nat.le_add_right _ _ | omega) rfl (by first | exact Nat.le_refl _ | exact Nat.le_succ _ | omega)); (first | with_reducible assumption | with_reducible apply kept_setThread | with_reducible apply kept_freeThread | with_reducible apply kept_ackRecall | with_reducible apply Kept.ite))

theorem kept_recallPiece {r₀ : State} (s : State) (q : Nat) (run : Nat) (p : Nat) (k : Nat) (data : List Byte) (h₀ : Kept r₀ s) : Kept r₀ (recallPiece s q run p k data) := by
  unfold recallPiece
  try dsimp only
  repeat' first
    | with_reducible assumption
    | with_reducible apply kept_pieceDone
    | with_reducible apply Kept.ite
    | with_reducible apply Kept.ite_fst
    | (first | intro _ _ _ _ _ _ _ | intro _ _ _ _ _ _ | intro _ _ _ _ _ | intro _ _ _ _ | intro _ _ _)
    | split
    | ((with_reducible refine Kept.mk_ _ _ _ _ _ _ _ _ _ _ _ _ _ _ _ _ _ _ _ _ _ _ _ _ _ _ _ _ _ _ _ _ _ _ _ _ _ _ _ _ _ _ _ ?_ rfl rfl rfl rfl rfl rfl rfl rfl rfl rfl (by first | exact Nat.le_refl _ | exact Nat.le_succ _ | exact Nat.le_add_right _ _ | omega) rfl (by first | exact Nat.le_refl _ | exact Nat.le_succ _ | omega)); (first | with_reducible assumption | with_reducible apply kept_pieceDone | with_reducible apply Kept.ite | with_reducible apply Kept.ite_fst | split))

end Sys2Proof.Laws
end

