-- ==== Sys2Proof/Laws/KeptNet.lean ====
section
/-! SUPPORT. What each operation of Machine/Net.lean keeps. -/

namespace Sys2Proof.Laws

set_option linter.all false

open Sys2Proof.Machine Sys2Proof.Safety

theorem kept_failReq {r₀ : State} (s : State) (x : OutReq) (h₀ : Kept r₀ s) : Kept r₀ (failReq s x) := by
  unfold failReq
  try dsimp only
  repeat' first
    | with_reducible assumption
    | with_reducible apply kept_setRun
    | with_reducible apply kept_failRemote
    | with_reducible apply kept_failRecall
    | with_reducible apply kept_failReads
    | with_reducible apply Kept.ite
    | (first | intro _ _ _ _ _ _ _ | intro _ _ _ _ _ _ | intro _ _ _ _ _ | intro _ _ _ _ | intro _ _ _)
    | split
    | ((with_reducible refine Kept.mk_ _ _ _ _ _ _ _ _ _ _ _ _ _ _ _ _ _ _ _ _ _ _ _ _ _ _ _ _ _ _ _ _ _ _ _ _ _ _ _ _ _ _ _ ?_ rfl rfl rfl rfl rfl rfl rfl rfl rfl rfl (by first | exact Nat.le_refl _ | exact Nat.le_succ _ | exact Nat.le_add_right _ _ | omega) rfl (by first | exact Nat.le_refl _ | exact Nat.le_succ _ | omega)); (first | with_reducible assumption | with_reducible apply kept_setRun | with_reducible apply kept_failRemote | with_reducible apply kept_failRecall | with_reducible apply kept_failReads | with_reducible apply Kept.ite | split))

theorem kept_moveWaiting {r₀ : State} (s : State) (b : Nat) (h₀ : Kept r₀ s) : Kept r₀ (moveWaiting s b) := by
  unfold moveWaiting
  try dsimp only
  repeat' first
    | with_reducible assumption
    | with_reducible apply kept_setLand
    | with_reducible apply kept_emit
    | with_reducible apply Kept.ite
    | with_reducible apply Kept.foldl
    | with_reducible apply Kept.foldl_fst
    | with_reducible apply Kept.foldl_snd
    | (first | intro _ _ _ _ _ _ _ | intro _ _ _ _ _ _ | intro _ _ _ _ _ | intro _ _ _ _ | intro _ _ _)
    | ((with_reducible refine Kept.mk_ _ _ _ _ _ _ _ _ _ _ _ _ _ _ _ _ _ _ _ _ _ _ _ _ _ _ _ _ _ _ _ _ _ _ _ _ _ _ _ _ _ _ _ ?_ rfl rfl rfl rfl rfl rfl rfl rfl rfl rfl (by first | exact Nat.le_refl _ | exact Nat.le_succ _ | exact Nat.le_add_right _ _ | omega) rfl (by first | exact Nat.le_refl _ | exact Nat.le_succ _ | omega)); (first | with_reducible assumption | with_reducible apply kept_setLand | with_reducible apply kept_emit | with_reducible apply Kept.ite | with_reducible apply Kept.foldl | with_reducible apply Kept.foldl_fst | with_reducible apply Kept.foldl_snd))

theorem kept_connFail {r₀ : State} (s : State) (n : Nat) (reason : Nat) (record : Bool) (h₀ : Kept r₀ s) : Kept r₀ (connFail s n reason record) := by
  unfold connFail
  try dsimp only
  repeat' first
    | with_reducible assumption
    | with_reducible apply kept_setConn
    | with_reducible apply kept_raiseConn
    | with_reducible apply kept_dropHeld
    | with_reducible apply kept_failReq
    | with_reducible apply kept_moveWaiting
    | with_reducible apply Kept.ite
    | with_reducible apply Kept.foldl
    | with_reducible apply Kept.foldl_fst
    | with_reducible apply Kept.foldl_snd
    | (first | intro _ _ _ _ _ _ _ | intro _ _ _ _ _ _ | intro _ _ _ _ _ | intro _ _ _ _ | intro _ _ _)
    | ((with_reducible refine Kept.mk_ _ _ _ _ _ _ _ _ _ _ _ _ _ _ _ _ _ _ _ _ _ _ _ _ _ _ _ _ _ _ _ _ _ _ _ _ _ _ _ _ _ _ _ ?_ rfl rfl rfl rfl rfl rfl rfl rfl rfl rfl (by first | exact Nat.le_refl _ | exact Nat.le_succ _ | exact Nat.le_add_right _ _ | omega) rfl (by first | exact Nat.le_refl _ | exact Nat.le_succ _ | omega)); (first | with_reducible assumption | with_reducible apply kept_setConn | with_reducible apply kept_raiseConn | with_reducible apply kept_dropHeld | with_reducible apply kept_failReq | with_reducible apply kept_moveWaiting | with_reducible apply Kept.ite | with_reducible apply Kept.foldl | with_reducible apply Kept.foldl_fst | with_reducible apply Kept.foldl_snd))

theorem kept_refuseWith {r₀ : State} (s : State) (n : Nat) (k : NakKind) (h₀ : Kept r₀ s) : Kept r₀ (refuseWith s n k) := by
  unfold refuseWith
  try dsimp only
  repeat' first
    | with_reducible assumption
    | with_reducible apply kept_answerOn
    | with_reducible apply kept_connFail
    | with_reducible apply Kept.ite
    | (first | intro _ _ _ _ _ _ _ | intro _ _ _ _ _ _ | intro _ _ _ _ _ | intro _ _ _ _ | intro _ _ _)
    | ((with_reducible refine Kept.mk_ _ _ _ _ _ _ _ _ _ _ _ _ _ _ _ _ _ _ _ _ _ _ _ _ _ _ _ _ _ _ _ _ _ _ _ _ _ _ _ _ _ _ _ ?_ rfl rfl rfl rfl rfl rfl rfl rfl rfl rfl (by first | exact Nat.le_refl _ | exact Nat.le_succ _ | exact Nat.le_add_right _ _ | omega) rfl (by first | exact Nat.le_refl _ | exact Nat.le_succ _ | omega)); (first | with_reducible assumption | with_reducible apply kept_answerOn | with_reducible apply kept_connFail | with_reducible apply Kept.ite))

theorem kept_raiseInbound {r₀ : State} (s : State) (n : Nat) (level : Nat) (unit : Nat) (code : Nat) (detail : Nat) (h₀ : Kept r₀ s) : Kept r₀ (raiseInbound s n level unit code detail) := by
  unfold raiseInbound
  try dsimp only
  repeat' first
    | with_reducible assumption
    | with_reducible apply kept_raise
    | with_reducible apply Kept.ite
    | (first | intro _ _ _ _ _ _ _ | intro _ _ _ _ _ _ | intro _ _ _ _ _ | intro _ _ _ _ | intro _ _ _)
    | ((with_reducible refine Kept.mk_ _ _ _ _ _ _ _ _ _ _ _ _ _ _ _ _ _ _ _ _ _ _ _ _ _ _ _ _ _ _ _ _ _ _ _ _ _ _ _ _ _ _ _ ?_ rfl rfl rfl rfl rfl rfl rfl rfl rfl rfl (by first | exact Nat.le_refl _ | exact Nat.le_succ _ | exact Nat.le_add_right _ _ | omega) rfl (by first | exact Nat.le_refl _ | exact Nat.le_succ _ | omega)); (first | with_reducible assumption | with_reducible apply kept_raise | with_reducible apply Kept.ite))

theorem kept_windowFail {r₀ : State} (s : State) (p : Nat) (n : Nat) (a : Nat) (h₀ : Kept r₀ s) : Kept r₀ (windowFail s p n a) := by
  unfold windowFail
  try dsimp only
  repeat' first
    | with_reducible assumption
    | with_reducible apply kept_refuseWith
    | with_reducible apply kept_raiseInbound
    | with_reducible apply Kept.ite
    | (first | intro _ _ _ _ _ _ _ | intro _ _ _ _ _ _ | intro _ _ _ _ _ | intro _ _ _ _ | intro _ _ _)
    | ((with_reducible refine Kept.mk_ _ _ _ _ _ _ _ _ _ _ _ _ _ _ _ _ _ _ _ _ _ _ _ _ _ _ _ _ _ _ _ _ _ _ _ _ _ _ _ _ _ _ _ ?_ rfl rfl rfl rfl rfl rfl rfl rfl rfl rfl (by first | exact Nat.le_refl _ | exact Nat.le_succ _ | exact Nat.le_add_right _ _ | omega) rfl (by first | exact Nat.le_refl _ | exact Nat.le_succ _ | omega)); (first | with_reducible assumption | with_reducible apply kept_refuseWith | with_reducible apply kept_raiseInbound | with_reducible apply Kept.ite))

theorem kept_accessFail {r₀ : State} (s : State) (n : Nat) (h₀ : Kept r₀ s) : Kept r₀ (accessFail s n) := by
  unfold accessFail
  try dsimp only
  repeat' first
    | with_reducible assumption
    | with_reducible apply kept_refuseWith
    | with_reducible apply Kept.ite
    | (first | intro _ _ _ _ _ _ _ | intro _ _ _ _ _ _ | intro _ _ _ _ _ | intro _ _ _ _ | intro _ _ _)
    | ((with_reducible refine Kept.mk_ _ _ _ _ _ _ _ _ _ _ _ _ _ _ _ _ _ _ _ _ _ _ _ _ _ _ _ _ _ _ _ _ _ _ _ _ _ _ _ _ _ _ _ ?_ rfl rfl rfl rfl rfl rfl rfl rfl rfl rfl (by first | exact Nat.le_refl _ | exact Nat.le_succ _ | exact Nat.le_add_right _ _ | omega) rfl (by first | exact Nat.le_refl _ | exact Nat.le_succ _ | omega)); (first | with_reducible assumption | with_reducible apply kept_refuseWith | with_reducible apply Kept.ite))

theorem kept_countDrop {r₀ : State} (s : State) (p : Nat) (h₀ : Kept r₀ s) : Kept r₀ (countDrop s p) := by
  unfold countDrop
  try dsimp only
  repeat' first
    | with_reducible assumption
    | with_reducible apply kept_setPort
    | with_reducible apply Kept.ite
    | (first | intro _ _ _ _ _ _ _ | intro _ _ _ _ _ _ | intro _ _ _ _ _ | intro _ _ _ _ | intro _ _ _)
    | ((with_reducible refine Kept.mk_ _ _ _ _ _ _ _ _ _ _ _ _ _ _ _ _ _ _ _ _ _ _ _ _ _ _ _ _ _ _ _ _ _ _ _ _ _ _ _ _ _ _ _ ?_ rfl rfl rfl rfl rfl rfl rfl rfl rfl rfl (by first | exact Nat.le_refl _ | exact Nat.le_succ _ | exact Nat.le_add_right _ _ | omega) rfl (by first | exact Nat.le_refl _ | exact Nat.le_succ _ | omega)); (first | with_reducible assumption | with_reducible apply kept_setPort | with_reducible apply Kept.ite))

theorem kept_drawCnp {r₀ : State} (s : State) (k : Packet) (n : Nat) (h₀ : Kept r₀ s) : Kept r₀ (drawCnp s k n) := by
  unfold drawCnp
  try dsimp only
  repeat' first
    | with_reducible assumption
    | with_reducible apply kept_setConn
    | with_reducible apply kept_answerOn
    | with_reducible apply Kept.ite
    | (first | intro _ _ _ _ _ _ _ | intro _ _ _ _ _ _ | intro _ _ _ _ _ | intro _ _ _ _ | intro _ _ _)
    | split
    | ((with_reducible refine Kept.mk_ _ _ _ _ _ _ _ _ _ _ _ _ _ _ _ _ _ _ _ _ _ _ _ _ _ _ _ _ _ _ _ _ _ _ _ _ _ _ _ _ _ _ _ ?_ rfl rfl rfl rfl rfl rfl rfl rfl rfl rfl (by first | exact Nat.le_refl _ | exact Nat.le_succ _ | exact Nat.le_add_right _ _ | omega) rfl (by first | exact Nat.le_refl _ | exact Nat.le_succ _ | omega)); (first | with_reducible assumption | with_reducible apply kept_setConn | with_reducible apply kept_answerOn | with_reducible apply Kept.ite | split))

theorem kept_accept {r₀ : State} (s : State) (k : Packet) (what : Carried) (h₀ : Kept r₀ s) : Kept r₀ (accept s k what).1 := by
  unfold accept
  try dsimp only
  repeat' first
    | with_reducible assumption
    | with_reducible apply kept_setConn
    | with_reducible apply kept_answerOn
    | with_reducible apply kept_refuseWith
    | with_reducible apply kept_countDrop
    | with_reducible apply kept_drawCnp
    | with_reducible apply Kept.ite
    | with_reducible apply Kept.ite_fst
    | (first | intro _ _ _ _ _ _ _ | intro _ _ _ _ _ _ | intro _ _ _ _ _ | intro _ _ _ _ | intro _ _ _)
    | split
    | ((with_reducible refine Kept.mk_ _ _ _ _ _ _ _ _ _ _ _ _ _ _ _ _ _ _ _ _ _ _ _ _ _ _ _ _ _ _ _ _ _ _ _ _ _ _ _ _ _ _ _ ?_ rfl rfl rfl rfl rfl rfl rfl rfl rfl rfl (by first | exact Nat.le_refl _ | exact Nat.le_succ _ | exact Nat.le_add_right _ _ | omega) rfl (by first | exact Nat.le_refl _ | exact Nat.le_succ _ | omega)); (first | with_reducible assumption | with_reducible apply kept_setConn | with_reducible apply kept_answerOn | with_reducible apply kept_refuseWith | with_reducible apply kept_countDrop | with_reducible apply kept_drawCnp | with_reducible apply Kept.ite | with_reducible apply Kept.ite_fst | split))

theorem kept_nextPsn {r₀ : State} (s : State) (n : Nat) (k : Packet) (packets : Nat) (h₀ : Kept r₀ s) : Kept r₀ (nextPsn s n k packets) := by
  unfold nextPsn
  try dsimp only
  repeat' first
    | with_reducible assumption
    | with_reducible apply kept_setConn
    | with_reducible apply Kept.ite
    | (first | intro _ _ _ _ _ _ _ | intro _ _ _ _ _ _ | intro _ _ _ _ _ | intro _ _ _ _ | intro _ _ _)
    | ((with_reducible refine Kept.mk_ _ _ _ _ _ _ _ _ _ _ _ _ _ _ _ _ _ _ _ _ _ _ _ _ _ _ _ _ _ _ _ _ _ _ _ _ _ _ _ _ _ _ _ ?_ rfl rfl rfl rfl rfl rfl rfl rfl rfl rfl (by first | exact Nat.le_refl _ | exact Nat.le_succ _ | exact Nat.le_add_right _ _ | omega) rfl (by first | exact Nat.le_refl _ | exact Nat.le_succ _ | omega)); (first | with_reducible assumption | with_reducible apply kept_setConn | with_reducible apply Kept.ite))

theorem kept_acknowledge {r₀ : State} (s : State) (n : Nat) (packets : Nat) (h₀ : Kept r₀ s) : Kept r₀ (acknowledge s n packets) := by
  unfold acknowledge
  try dsimp only
  repeat' first
    | with_reducible assumption
    | with_reducible apply kept_setConn
    | with_reducible apply kept_answerOn
    | with_reducible apply Kept.ite
    | (first | intro _ _ _ _ _ _ _ | intro _ _ _ _ _ _ | intro _ _ _ _ _ | intro _ _ _ _ | intro _ _ _)
    | ((with_reducible refine Kept.mk_ _ _ _ _ _ _ _ _ _ _ _ _ _ _ _ _ _ _ _ _ _ _ _ _ _ _ _ _ _ _ _ _ _ _ _ _ _ _ _ _ _ _ _ ?_ rfl rfl rfl rfl rfl rfl rfl rfl rfl rfl (by first | exact Nat.le_refl _ | exact Nat.le_succ _ | exact Nat.le_add_right _ _ | omega) rfl (by first | exact Nat.le_refl _ | exact Nat.le_succ _ | omega)); (first | with_reducible assumption | with_reducible apply kept_setConn | with_reducible apply kept_answerOn | with_reducible apply Kept.ite))

theorem kept_notReady {r₀ : State} (s : State) (n : Nat) (h₀ : Kept r₀ s) : Kept r₀ (notReady s n) := by
  unfold notReady
  try dsimp only
  repeat' first
    | with_reducible assumption
    | with_reducible apply kept_answerOn
    | with_reducible apply Kept.ite
    | (first | intro _ _ _ _ _ _ _ | intro _ _ _ _ _ _ | intro _ _ _ _ _ | intro _ _ _ _ | intro _ _ _)
    | ((with_reducible refine Kept.mk_ _ _ _ _ _ _ _ _ _ _ _ _ _ _ _ _ _ _ _ _ _ _ _ _ _ _ _ _ _ _ _ _ _ _ _ _ _ _ _ _ _ _ _ ?_ rfl rfl rfl rfl rfl rfl rfl rfl rfl rfl (by first | exact Nat.le_refl _ | exact Nat.le_succ _ | exact Nat.le_add_right _ _ | omega) rfl (by first | exact Nat.le_refl _ | exact Nat.le_succ _ | omega)); (first | with_reducible assumption | with_reducible apply kept_answerOn | with_reducible apply Kept.ite))

end Sys2Proof.Laws
end

