-- ==== Sys2Proof/Laws/KeptCollective.lean ====
section
/-! SUPPORT. What each operation of Machine/Collective.lean keeps. -/

namespace Sys2Proof.Laws

set_option linter.all false

open Sys2Proof.Machine Sys2Proof.Safety

theorem kept_takeSeq {r₀ : State} (s : State) (b : Nat) (stream : Nat) (h₀ : Kept r₀ s) : Kept r₀ (takeSeq s b stream).1 := by
  unfold takeSeq
  try dsimp only
  repeat' first
    | with_reducible assumption
    | with_reducible apply kept_setBerth
    | with_reducible apply Kept.ite
    | (first | intro _ _ _ _ _ _ _ | intro _ _ _ _ _ _ | intro _ _ _ _ _ | intro _ _ _ _ | intro _ _ _)
    | ((with_reducible refine Kept.mk_ _ _ _ _ _ _ _ _ _ _ _ _ _ _ _ _ _ _ _ _ _ _ _ _ _ _ _ _ _ _ _ _ _ _ _ _ _ _ _ _ _ _ _ ?_ rfl rfl rfl rfl rfl rfl rfl rfl rfl rfl (by first | exact Nat.le_refl _ | exact Nat.le_succ _ | exact Nat.le_add_right _ _ | omega) rfl (by first | exact Nat.le_refl _ | exact Nat.le_succ _ | omega)); (first | with_reducible assumption | with_reducible apply kept_setBerth | with_reducible apply Kept.ite))

theorem kept_setColl {r₀ : State} (s : State) (id : Nat) (f : CollRun → CollRun) (h₀ : Kept r₀ s) : Kept r₀ (setColl s id f) := by
  unfold setColl
  try dsimp only
  repeat' first
    | with_reducible assumption
    | with_reducible apply kept_setRun
    | with_reducible apply Kept.ite
    | (first | intro _ _ _ _ _ _ _ | intro _ _ _ _ _ _ | intro _ _ _ _ _ | intro _ _ _ _ | intro _ _ _)
    | split
    | ((with_reducible refine Kept.mk_ _ _ _ _ _ _ _ _ _ _ _ _ _ _ _ _ _ _ _ _ _ _ _ _ _ _ _ _ _ _ _ _ _ _ _ _ _ _ _ _ _ _ _ ?_ rfl rfl rfl rfl rfl rfl rfl rfl rfl rfl (by first | exact Nat.le_refl _ | exact Nat.le_succ _ | exact Nat.le_add_right _ _ | omega) rfl (by first | exact Nat.le_refl _ | exact Nat.le_succ _ | omega)); (first | with_reducible assumption | with_reducible apply kept_setRun | with_reducible apply Kept.ite | split))

theorem kept_reduceNoGroup {r₀ : State} (s : State) (q : Nat) (b : Nat) (m : QCmd) (o : ReduceOps) (h₀ : Kept r₀ s) : Kept r₀ (reduceNoGroup s q b m o) := by
  unfold reduceNoGroup
  try dsimp only
  repeat' first
    | with_reducible assumption
    | with_reducible apply kept_raiseCtx
    | with_reducible apply kept_hbmUndefine
    | with_reducible apply kept_refuseHead
    | with_reducible apply kept_headDone
    | with_reducible apply Kept.ite
    | (first | intro _ _ _ _ _ _ _ | intro _ _ _ _ _ _ | intro _ _ _ _ _ | intro _ _ _ _ | intro _ _ _)
    | split
    | ((with_reducible refine Kept.mk_ _ _ _ _ _ _ _ _ _ _ _ _ _ _ _ _ _ _ _ _ _ _ _ _ _ _ _ _ _ _ _ _ _ _ _ _ _ _ _ _ _ _ _ ?_ rfl rfl rfl rfl rfl rfl rfl rfl rfl rfl (by first | exact Nat.le_refl _ | exact Nat.le_succ _ | exact Nat.le_add_right _ _ | omega) rfl (by first | exact Nat.le_refl _ | exact Nat.le_succ _ | omega)); (first | with_reducible assumption | with_reducible apply kept_raiseCtx | with_reducible apply kept_hbmUndefine | with_reducible apply kept_refuseHead | with_reducible apply kept_headDone | with_reducible apply Kept.ite | split))

theorem kept_reduceAt {r₀ : State} (s : State) (q : Nat) (b : Nat) (m : QCmd) (o : ReduceOps) (h₀ : Kept r₀ s) : Kept r₀ (reduceAt s q b m o) := by
  unfold reduceAt
  try dsimp only
  repeat' first
    | with_reducible assumption
    | with_reducible apply kept_setRun
    | with_reducible apply kept_raiseBerth
    | with_reducible apply kept_raiseCtx
    | with_reducible apply kept_issueRun
    | with_reducible apply kept_beginGroup
    | with_reducible apply kept_pumpRun
    | with_reducible apply kept_deliverRows
    | with_reducible apply kept_refuseHead
    | with_reducible apply kept_headDone
    | with_reducible apply kept_startRun
    | with_reducible apply kept_takeSeq
    | with_reducible apply kept_reduceNoGroup
    | with_reducible apply Kept.ite
    | with_reducible apply Kept.ite_fst
    | (first | intro _ _ _ _ _ _ _ | intro _ _ _ _ _ _ | intro _ _ _ _ _ | intro _ _ _ _ | intro _ _ _)
    | split
    | ((with_reducible refine Kept.mk_ _ _ _ _ _ _ _ _ _ _ _ _ _ _ _ _ _ _ _ _ _ _ _ _ _ _ _ _ _ _ _ _ _ _ _ _ _ _ _ _ _ _ _ ?_ rfl rfl rfl rfl rfl rfl rfl rfl rfl rfl (by first | exact Nat.le_refl _ | exact Nat.le_succ _ | exact Nat.le_add_right _ _ | omega) rfl (by first | exact Nat.le_refl _ | exact Nat.le_succ _ | omega)); (first | with_reducible assumption | with_reducible apply kept_setRun | with_reducible apply kept_raiseBerth | with_reducible apply kept_raiseCtx | with_reducible apply kept_issueRun | with_reducible apply kept_beginGroup | with_reducible apply kept_pumpRun | with_reducible apply kept_deliverRows | with_reducible apply kept_refuseHead | with_reducible apply kept_headDone | with_reducible apply kept_startRun | with_reducible apply kept_takeSeq | with_reducible apply kept_reduceNoGroup | with_reducible apply Kept.ite | with_reducible apply Kept.ite_fst | split))

theorem kept_reduceStart {r₀ : State} (s : State) (q : Nat) (h₀ : Kept r₀ s) : Kept r₀ (reduceStart s q) := by
  unfold reduceStart
  try dsimp only
  repeat' first
    | with_reducible assumption
    | with_reducible apply kept_reduceAt
    | with_reducible apply Kept.ite
    | with_reducible apply Kept.ite_fst
    | (first | intro _ _ _ _ _ _ _ | intro _ _ _ _ _ _ | intro _ _ _ _ _ | intro _ _ _ _ | intro _ _ _)
    | split
    | ((with_reducible refine Kept.mk_ _ _ _ _ _ _ _ _ _ _ _ _ _ _ _ _ _ _ _ _ _ _ _ _ _ _ _ _ _ _ _ _ _ _ _ _ _ _ _ _ _ _ _ ?_ rfl rfl rfl rfl rfl rfl rfl rfl rfl rfl (by first | exact Nat.le_refl _ | exact Nat.le_succ _ | exact Nat.le_add_right _ _ | omega) rfl (by first | exact Nat.le_refl _ | exact Nat.le_succ _ | omega)); (first | with_reducible assumption | with_reducible apply kept_reduceAt | with_reducible apply Kept.ite | with_reducible apply Kept.ite_fst | split))

theorem kept_reduceComplete {r₀ : State} (s : State) (q : Nat) (run : Nat) (h₀ : Kept r₀ s) : Kept r₀ (reduceComplete s q run) := by
  unfold reduceComplete
  try dsimp only
  repeat' first
    | with_reducible assumption
    | with_reducible apply kept_failRun
    | with_reducible apply kept_runDone
    | with_reducible apply Kept.ite
    | (first | intro _ _ _ _ _ _ _ | intro _ _ _ _ _ _ | intro _ _ _ _ _ | intro _ _ _ _ | intro _ _ _)
    | split
    | ((with_reducible refine Kept.mk_ _ _ _ _ _ _ _ _ _ _ _ _ _ _ _ _ _ _ _ _ _ _ _ _ _ _ _ _ _ _ _ _ _ _ _ _ _ _ _ _ _ _ _ ?_ rfl rfl rfl rfl rfl rfl rfl rfl rfl rfl (by first | exact Nat.le_refl _ | exact Nat.le_succ _ | exact Nat.le_add_right _ _ | omega) rfl (by first | exact Nat.le_refl _ | exact Nat.le_succ _ | omega)); (first | with_reducible assumption | with_reducible apply kept_failRun | with_reducible apply kept_runDone | with_reducible apply Kept.ite | split))

theorem kept_clearNorm {r₀ : State} (acc : Nat) (s : State) (d : Nat) (h₀ : Kept r₀ s) : Kept r₀ (clearNorm acc s d) := by
  unfold clearNorm
  try dsimp only
  repeat' first
    | with_reducible assumption
    | with_reducible apply kept_setDeck
    | with_reducible apply Kept.ite
    | (first | intro _ _ _ _ _ _ _ | intro _ _ _ _ _ _ | intro _ _ _ _ _ | intro _ _ _ _ | intro _ _ _)
    | ((with_reducible refine Kept.mk_ _ _ _ _ _ _ _ _ _ _ _ _ _ _ _ _ _ _ _ _ _ _ _ _ _ _ _ _ _ _ _ _ _ _ _ _ _ _ _ _ _ _ _ ?_ rfl rfl rfl rfl rfl rfl rfl rfl rfl rfl (by first | exact Nat.le_refl _ | exact Nat.le_succ _ | exact Nat.le_add_right _ _ | omega) rfl (by first | exact Nat.le_refl _ | exact Nat.le_succ _ | omega)); (first | with_reducible assumption | with_reducible apply kept_setDeck | with_reducible apply Kept.ite))

theorem kept_normAt {r₀ : State} (s : State) (q : Nat) (b : Nat) (m : QCmd) (acc : Nat) (grp : Nat) (nidx : Nat) (fidx : Nat) (h₀ : Kept r₀ s) : Kept r₀ (normAt s q b m acc grp nidx fidx) := by
  unfold normAt
  try dsimp only
  repeat' first
    | with_reducible assumption
    | with_reducible apply kept_raiseCtx
    | with_reducible apply kept_undefineAll
    | with_reducible apply kept_beginGroup
    | with_reducible apply kept_pumpRun
    | with_reducible apply kept_refuseHead
    | with_reducible apply kept_headDone
    | with_reducible apply kept_startRun
    | with_reducible apply kept_takeSeq
    | with_reducible apply kept_setColl
    | with_reducible apply kept_clearNorm
    | with_reducible apply Kept.ite
    | with_reducible apply Kept.foldl
    | with_reducible apply Kept.foldl_fst
    | with_reducible apply Kept.foldl_snd
    | (first | intro _ _ _ _ _ _ _ | intro _ _ _ _ _ _ | intro _ _ _ _ _ | intro _ _ _ _ | intro _ _ _)
    | split
    | ((with_reducible refine Kept.mk_ _ _ _ _ _ _ _ _ _ _ _ _ _ _ _ _ _ _ _ _ _ _ _ _ _ _ _ _ _ _ _ _ _ _ _ _ _ _ _ _ _ _ _ ?_ rfl rfl rfl rfl rfl rfl rfl rfl rfl rfl (by first | exact Nat.le_refl _ | exact Nat.le_succ _ | exact Nat.le_add_right _ _ | omega) rfl (by first | exact Nat.le_refl _ | exact Nat.le_succ _ | omega)); (first | with_reducible assumption | with_reducible apply kept_raiseCtx | with_reducible apply kept_undefineAll | with_reducible apply kept_beginGroup | with_reducible apply kept_pumpRun | with_reducible apply kept_refuseHead | with_reducible apply kept_headDone | with_reducible apply kept_startRun | with_reducible apply kept_takeSeq | with_reducible apply kept_setColl | with_reducible apply kept_clearNorm | with_reducible apply Kept.ite | with_reducible apply Kept.foldl | with_reducible apply Kept.foldl_fst | with_reducible apply Kept.foldl_snd | split))

theorem kept_normStart {r₀ : State} (s : State) (q : Nat) (h₀ : Kept r₀ s) : Kept r₀ (normStart s q) := by
  unfold normStart
  try dsimp only
  repeat' first
    | with_reducible assumption
    | with_reducible apply kept_normAt
    | with_reducible apply Kept.ite
    | with_reducible apply Kept.ite_fst
    | (first | intro _ _ _ _ _ _ _ | intro _ _ _ _ _ _ | intro _ _ _ _ _ | intro _ _ _ _ | intro _ _ _)
    | split
    | ((with_reducible refine Kept.mk_ _ _ _ _ _ _ _ _ _ _ _ _ _ _ _ _ _ _ _ _ _ _ _ _ _ _ _ _ _ _ _ _ _ _ _ _ _ _ _ _ _ _ _ ?_ rfl rfl rfl rfl rfl rfl rfl rfl rfl rfl (by first | exact Nat.le_refl _ | exact Nat.le_succ _ | exact Nat.le_add_right _ _ | omega) rfl (by first | exact Nat.le_refl _ | exact Nat.le_succ _ | omega)); (first | with_reducible assumption | with_reducible apply kept_normAt | with_reducible apply Kept.ite | with_reducible apply Kept.ite_fst | split))

theorem kept_connRefused {r₀ : State} (s : State) (n : Nat) (h₀ : Kept r₀ s) : Kept r₀ (connRefused s n) := by
  unfold connRefused
  try dsimp only
  repeat' first
    | with_reducible assumption
    | with_reducible apply kept_raiseConn
    | with_reducible apply Kept.ite
    | (first | intro _ _ _ _ _ _ _ | intro _ _ _ _ _ _ | intro _ _ _ _ _ | intro _ _ _ _ | intro _ _ _)
    | ((with_reducible refine Kept.mk_ _ _ _ _ _ _ _ _ _ _ _ _ _ _ _ _ _ _ _ _ _ _ _ _ _ _ _ _ _ _ _ _ _ _ _ _ _ _ _ _ _ _ _ ?_ rfl rfl rfl rfl rfl rfl rfl rfl rfl rfl (by first | exact Nat.le_refl _ | exact Nat.le_succ _ | exact Nat.le_add_right _ _ | omega) rfl (by first | exact Nat.le_refl _ | exact Nat.le_succ _ | omega)); (first | with_reducible assumption | with_reducible apply kept_raiseConn | with_reducible apply Kept.ite))

theorem kept_xferSails {r₀ : State} (s : State) (o : XferOps) (h₀ : Kept r₀ s) : Kept r₀ (xferSails s o).1 := by
  unfold xferSails
  try dsimp only
  repeat' first
    | with_reducible assumption
    | with_reducible apply kept_bindSailings
    | with_reducible apply Kept.ite
    | with_reducible apply Kept.ite_fst
    | (first | intro _ _ _ _ _ _ _ | intro _ _ _ _ _ _ | intro _ _ _ _ _ | intro _ _ _ _ | intro _ _ _)
    | ((with_reducible refine Kept.mk_ _ _ _ _ _ _ _ _ _ _ _ _ _ _ _ _ _ _ _ _ _ _ _ _ _ _ _ _ _ _ _ _ _ _ _ _ _ _ _ _ _ _ _ ?_ rfl rfl rfl rfl rfl rfl rfl rfl rfl rfl (by first | exact Nat.le_refl _ | exact Nat.le_succ _ | exact Nat.le_add_right _ _ | omega) rfl (by first | exact Nat.le_refl _ | exact Nat.le_succ _ | omega)); (first | with_reducible assumption | with_reducible apply kept_bindSailings | with_reducible apply Kept.ite | with_reducible apply Kept.ite_fst))

theorem kept_xferAt {r₀ : State} (s : State) (q : Nat) (b : Nat) (m : QCmd) (o : XferOps) (h₀ : Kept r₀ s) : Kept r₀ (xferAt s q b m o) := by
  unfold xferAt
  try dsimp only
  repeat' first
    | with_reducible assumption
    | with_reducible apply kept_setRun
    | with_reducible apply kept_raiseCtx
    | with_reducible apply kept_issueRun
    | with_reducible apply kept_pumpRun
    | with_reducible apply kept_refuseHead
    | with_reducible apply kept_headDone
    | with_reducible apply kept_startRun
    | with_reducible apply kept_connRefused
    | with_reducible apply kept_xferSails
    | with_reducible apply Kept.ite
    | with_reducible apply Kept.ite_fst
    | (first | intro _ _ _ _ _ _ _ | intro _ _ _ _ _ _ | intro _ _ _ _ _ | intro _ _ _ _ | intro _ _ _)
    | split
    | ((with_reducible refine Kept.mk_ _ _ _ _ _ _ _ _ _ _ _ _ _ _ _ _ _ _ _ _ _ _ _ _ _ _ _ _ _ _ _ _ _ _ _ _ _ _ _ _ _ _ _ ?_ rfl rfl rfl rfl rfl rfl rfl rfl rfl rfl (by first | exact Nat.le_refl _ | exact Nat.le_succ _ | exact Nat.le_add_right _ _ | omega) rfl (by first | exact Nat.le_refl _ | exact Nat.le_succ _ | omega)); (first | with_reducible assumption | with_reducible apply kept_setRun | with_reducible apply kept_raiseCtx | with_reducible apply kept_issueRun | with_reducible apply kept_pumpRun | with_reducible apply kept_refuseHead | with_reducible apply kept_headDone | with_reducible apply kept_startRun | with_reducible apply kept_connRefused | with_reducible apply kept_xferSails | with_reducible apply Kept.ite | with_reducible apply Kept.ite_fst | split))

theorem kept_xferStart {r₀ : State} (s : State) (q : Nat) (h₀ : Kept r₀ s) : Kept r₀ (xferStart s q) := by
  unfold xferStart
  try dsimp only
  repeat' first
    | with_reducible assumption
    | with_reducible apply kept_xferAt
    | with_reducible apply Kept.ite
    | with_reducible apply Kept.ite_fst
    | (first | intro _ _ _ _ _ _ _ | intro _ _ _ _ _ _ | intro _ _ _ _ _ | intro _ _ _ _ | intro _ _ _)
    | split
    | ((with_reducible refine Kept.mk_ _ _ _ _ _ _ _ _ _ _ _ _ _ _ _ _ _ _ _ _ _ _ _ _ _ _ _ _ _ _ _ _ _ _ _ _ _ _ _ _ _ _ _ ?_ rfl rfl rfl rfl rfl rfl rfl rfl rfl rfl (by first | exact Nat.le_refl _ | exact Nat.le_succ _ | exact Nat.le_add_right _ _ | omega) rfl (by first | exact Nat.le_refl _ | exact Nat.le_succ _ | omega)); (first | with_reducible assumption | with_reducible apply kept_xferAt | with_reducible apply Kept.ite | with_reducible apply Kept.ite_fst | split))

theorem kept_ackXfer {r₀ : State} (s : State) (n : Nat) (run : Nat) (h₀ : Kept r₀ s) : Kept r₀ (ackXfer s n run) := by
  unfold ackXfer
  try dsimp only
  repeat' first
    | with_reducible assumption
    | with_reducible apply kept_setConn
    | with_reducible apply kept_setReqs
    | with_reducible apply Kept.ite
    | (first | intro _ _ _ _ _ _ _ | intro _ _ _ _ _ _ | intro _ _ _ _ _ | intro _ _ _ _ | intro _ _ _)
    | ((with_reducible refine Kept.mk_ _ _ _ _ _ _ _ _ _ _ _ _ _ _ _ _ _ _ _ _ _ _ _ _ _ _ _ _ _ _ _ _ _ _ _ _ _ _ _ _ _ _ _ ?_ rfl rfl rfl rfl rfl rfl rfl rfl rfl rfl (by first | exact Nat.le_refl _ | exact Nat.le_succ _ | exact Nat.le_add_right _ _ | omega) rfl (by first | exact Nat.le_refl _ | exact Nat.le_succ _ | omega)); (first | with_reducible assumption | with_reducible apply kept_setConn | with_reducible apply kept_setReqs | with_reducible apply Kept.ite))

theorem kept_xferComplete {r₀ : State} (s : State) (q : Nat) (run : Nat) (h₀ : Kept r₀ s) : Kept r₀ (xferComplete s q run) := by
  unfold xferComplete
  try dsimp only
  repeat' first
    | with_reducible assumption
    | with_reducible apply kept_failRun
    | with_reducible apply kept_runDone
    | with_reducible apply kept_ackXfer
    | with_reducible apply Kept.ite
    | (first | intro _ _ _ _ _ _ _ | intro _ _ _ _ _ _ | intro _ _ _ _ _ | intro _ _ _ _ | intro _ _ _)
    | split
    | ((with_reducible refine Kept.mk_ _ _ _ _ _ _ _ _ _ _ _ _ _ _ _ _ _ _ _ _ _ _ _ _ _ _ _ _ _ _ _ _ _ _ _ _ _ _ _ _ _ _ _ ?_ rfl rfl rfl rfl rfl rfl rfl rfl rfl rfl (by first | exact Nat.le_refl _ | exact Nat.le_succ _ | exact Nat.le_add_right _ _ | omega) rfl (by first | exact Nat.le_refl _ | exact Nat.le_succ _ | omega)); (first | with_reducible assumption | with_reducible apply kept_failRun | with_reducible apply kept_runDone | with_reducible apply kept_ackXfer | with_reducible apply Kept.ite | split))

theorem kept_noteSeg {r₀ : State} (s : State) (id : Nat) (h₀ : Kept r₀ s) : Kept r₀ (noteSeg s id) := by
  unfold noteSeg
  try dsimp only
  repeat' first
    | with_reducible assumption
    | with_reducible apply kept_setColl
    | with_reducible apply Kept.ite
    | (first | intro _ _ _ _ _ _ _ | intro _ _ _ _ _ _ | intro _ _ _ _ _ | intro _ _ _ _ | intro _ _ _)
    | ((with_reducible refine Kept.mk_ _ _ _ _ _ _ _ _ _ _ _ _ _ _ _ _ _ _ _ _ _ _ _ _ _ _ _ _ _ _ _ _ _ _ _ _ _ _ _ _ _ _ _ ?_ rfl rfl rfl rfl rfl rfl rfl rfl rfl rfl (by first | exact Nat.le_refl _ | exact Nat.le_succ _ | exact Nat.le_add_right _ _ | omega) rfl (by first | exact Nat.le_refl _ | exact Nat.le_succ _ | omega)); (first | with_reducible assumption | with_reducible apply kept_setColl | with_reducible apply Kept.ite))

theorem kept_segmentAt {r₀ : State} (s : State) (p : Nat) (n : Nat) (payload : List Byte) (h₀ : Kept r₀ s) : Kept r₀ (segmentAt s p n payload) := by
  unfold segmentAt
  try dsimp only
  repeat' first
    | with_reducible assumption
    | with_reducible apply kept_setPort
    | with_reducible apply kept_takeSegment
    | with_reducible apply kept_acknowledge
    | with_reducible apply kept_notReady
    | with_reducible apply kept_noteSeg
    | with_reducible apply Kept.ite
    | (first | intro _ _ _ _ _ _ _ | intro _ _ _ _ _ _ | intro _ _ _ _ _ | intro _ _ _ _ | intro _ _ _)
    | split
    | ((with_reducible refine Kept.mk_ _ _ _ _ _ _ _ _ _ _ _ _ _ _ _ _ _ _ _ _ _ _ _ _ _ _ _ _ _ _ _ _ _ _ _ _ _ _ _ _ _ _ _ ?_ rfl rfl rfl rfl rfl rfl rfl rfl rfl rfl (by first | exact Nat.le_refl _ | exact Nat.le_succ _ | exact Nat.le_add_right _ _ | omega) rfl (by first | exact Nat.le_refl _ | exact Nat.le_succ _ | omega)); (first | with_reducible assumption | with_reducible apply kept_setPort | with_reducible apply kept_takeSegment | with_reducible apply kept_acknowledge | with_reducible apply kept_notReady | with_reducible apply kept_noteSeg | with_reducible apply Kept.ite | split))

theorem kept_segmentIn {r₀ : State} (s : State) (k : Packet) (n : Nat) (payload : List Byte) (h₀ : Kept r₀ s) : Kept r₀ (segmentIn s k n payload) := by
  unfold segmentIn
  try dsimp only
  repeat' first
    | with_reducible assumption
    | with_reducible apply kept_freshWord
    | with_reducible apply kept_windowFail
    | with_reducible apply kept_segmentAt
    | with_reducible apply Kept.ite
    | with_reducible apply Kept.ite_fst
    | (first | intro _ _ _ _ _ _ _ | intro _ _ _ _ _ _ | intro _ _ _ _ _ | intro _ _ _ _ | intro _ _ _)
    | ((with_reducible refine Kept.mk_ _ _ _ _ _ _ _ _ _ _ _ _ _ _ _ _ _ _ _ _ _ _ _ _ _ _ _ _ _ _ _ _ _ _ _ _ _ _ _ _ _ _ _ ?_ rfl rfl rfl rfl rfl rfl rfl rfl rfl rfl (by first | exact Nat.le_refl _ | exact Nat.le_succ _ | exact Nat.le_add_right _ _ | omega) rfl (by first | exact Nat.le_refl _ | exact Nat.le_succ _ | omega)); (first | with_reducible assumption | with_reducible apply kept_freshWord | with_reducible apply kept_windowFail | with_reducible apply kept_segmentAt | with_reducible apply Kept.ite | with_reducible apply Kept.ite_fst))

theorem kept_residue {r₀ : State} (s : State) (p : Nat) (n : Nat) (chunk : Nat) (errors : Nat) (h₀ : Kept r₀ s) : Kept r₀ (residue s p n chunk errors) := by
  unfold residue
  try dsimp only
  repeat' first
    | with_reducible assumption
    | with_reducible apply kept_setPort
    | with_reducible apply kept_raiseConn
    | with_reducible apply Kept.ite
    | (first | intro _ _ _ _ _ _ _ | intro _ _ _ _ _ _ | intro _ _ _ _ _ | intro _ _ _ _ | intro _ _ _)
    | ((with_reducible refine Kept.mk_ _ _ _ _ _ _ _ _ _ _ _ _ _ _ _ _ _ _ _ _ _ _ _ _ _ _ _ _ _ _ _ _ _ _ _ _ _ _ _ _ _ _ _ ?_ rfl rfl rfl rfl rfl rfl rfl rfl rfl rfl (by first | exact Nat.le_refl _ | exact Nat.le_succ _ | exact Nat.le_add_right _ _ | omega) rfl (by first | exact Nat.le_refl _ | exact Nat.le_succ _ | omega)); (first | with_reducible assumption | with_reducible apply kept_setPort | with_reducible apply kept_raiseConn | with_reducible apply Kept.ite))

theorem kept_noteSat {r₀ : State} (s : State) (p : Nat) (r : Run) (sat : Bool) (h₀ : Kept r₀ s) : Kept r₀ (noteSat s p r sat) := by
  unfold noteSat
  try dsimp only
  repeat' first
    | with_reducible assumption
    | with_reducible apply kept_raiseBerth
    | with_reducible apply kept_setColl
    | with_reducible apply Kept.ite
    | (first | intro _ _ _ _ _ _ _ | intro _ _ _ _ _ _ | intro _ _ _ _ _ | intro _ _ _ _ | intro _ _ _)
    | ((with_reducible refine Kept.mk_ _ _ _ _ _ _ _ _ _ _ _ _ _ _ _ _ _ _ _ _ _ _ _ _ _ _ _ _ _ _ _ _ _ _ _ _ _ _ _ _ _ _ _ ?_ rfl rfl rfl rfl rfl rfl rfl rfl rfl rfl (by first | exact Nat.le_refl _ | exact Nat.le_succ _ | exact Nat.le_add_right _ _ | omega) rfl (by first | exact Nat.le_refl _ | exact Nat.le_succ _ | omega)); (first | with_reducible assumption | with_reducible apply kept_raiseBerth | with_reducible apply kept_setColl | with_reducible apply Kept.ite))

theorem kept_storePart {r₀ : State} (s : State) (id : Nat) (v : CollPart) (h₀ : Kept r₀ s) : Kept r₀ (storePart s id v) := by
  unfold storePart
  try dsimp only
  repeat' first
    | with_reducible assumption
    | with_reducible apply kept_setRun
    | with_reducible apply Kept.ite
    | (first | intro _ _ _ _ _ _ _ | intro _ _ _ _ _ _ | intro _ _ _ _ _ | intro _ _ _ _ | intro _ _ _)
    | split
    | ((with_reducible refine Kept.mk_ _ _ _ _ _ _ _ _ _ _ _ _ _ _ _ _ _ _ _ _ _ _ _ _ _ _ _ _ _ _ _ _ _ _ _ _ _ _ _ _ _ _ _ ?_ rfl rfl rfl rfl rfl rfl rfl rfl rfl rfl (by first | exact Nat.le_refl _ | exact Nat.le_succ _ | exact Nat.le_add_right _ _ | omega) rfl (by first | exact Nat.le_refl _ | exact Nat.le_succ _ | omega)); (first | with_reducible assumption | with_reducible apply kept_setRun | with_reducible apply Kept.ite | split))

theorem kept_finishPart {r₀ : State} (s : State) (r : Run) (g : CollSeg) (v : CollPart) (h₀ : Kept r₀ s) : Kept r₀ (finishPart s r g v) := by
  unfold finishPart
  try dsimp only
  repeat' first
    | with_reducible assumption
    | with_reducible apply kept_writeVector
    | with_reducible apply Kept.ite
    | (first | intro _ _ _ _ _ _ _ | intro _ _ _ _ _ _ | intro _ _ _ _ _ | intro _ _ _ _ | intro _ _ _)
    | ((with_reducible refine Kept.mk_ _ _ _ _ _ _ _ _ _ _ _ _ _ _ _ _ _ _ _ _ _ _ _ _ _ _ _ _ _ _ _ _ _ _ _ _ _ _ _ _ _ _ _ ?_ rfl rfl rfl rfl rfl rfl rfl rfl rfl rfl (by first | exact Nat.le_refl _ | exact Nat.le_succ _ | exact Nat.le_add_right _ _ | omega) rfl (by first | exact Nat.le_refl _ | exact Nat.le_succ _ | omega)); (first | with_reducible assumption | with_reducible apply kept_writeVector | with_reducible apply Kept.ite))

theorem kept_laneWork {r₀ : State} (s : State) (p : Nat) (r : Run) (x : Segment) (errors : Nat) (h₀ : Kept r₀ s) : Kept r₀ (laneWork s p r x errors) := by
  unfold laneWork
  try dsimp only
  repeat' first
    | with_reducible assumption
    | with_reducible apply kept_raiseBerth
    | with_reducible apply kept_failReads
    | with_reducible apply kept_residue
    | with_reducible apply kept_noteSat
    | with_reducible apply kept_storePart
    | with_reducible apply kept_finishPart
    | with_reducible apply Kept.ite
    | with_reducible apply Kept.ite_fst
    | (first | intro _ _ _ _ _ _ _ | intro _ _ _ _ _ _ | intro _ _ _ _ _ | intro _ _ _ _ | intro _ _ _)
    | ((with_reducible refine Kept.mk_ _ _ _ _ _ _ _ _ _ _ _ _ _ _ _ _ _ _ _ _ _ _ _ _ _ _ _ _ _ _ _ _ _ _ _ _ _ _ _ _ _ _ _ ?_ rfl rfl rfl rfl rfl rfl rfl rfl rfl rfl (by first | exact Nat.le_refl _ | exact Nat.le_succ _ | exact Nat.le_add_right _ _ | omega) rfl (by first | exact Nat.le_refl _ | exact Nat.le_succ _ | omega)); (first | with_reducible assumption | with_reducible apply kept_raiseBerth | with_reducible apply kept_failReads | with_reducible apply kept_residue | with_reducible apply kept_noteSat | with_reducible apply kept_storePart | with_reducible apply kept_finishPart | with_reducible apply Kept.ite | with_reducible apply Kept.ite_fst))

theorem kept_popAdding {r₀ : State} (s : State) (p : Nat) (h₀ : Kept r₀ s) : Kept r₀ (popAdding s p) := by
  unfold popAdding
  try dsimp only
  repeat' first
    | with_reducible assumption
    | with_reducible apply kept_setPort
    | with_reducible apply Kept.ite
    | (first | intro _ _ _ _ _ _ _ | intro _ _ _ _ _ _ | intro _ _ _ _ _ | intro _ _ _ _ | intro _ _ _)
    | ((with_reducible refine Kept.mk_ _ _ _ _ _ _ _ _ _ _ _ _ _ _ _ _ _ _ _ _ _ _ _ _ _ _ _ _ _ _ _ _ _ _ _ _ _ _ _ _ _ _ _ ?_ rfl rfl rfl rfl rfl rfl rfl rfl rfl rfl (by first | exact Nat.le_refl _ | exact Nat.le_succ _ | exact Nat.le_add_right _ _ | omega) rfl (by first | exact Nat.le_refl _ | exact Nat.le_succ _ | omega)); (first | with_reducible assumption | with_reducible apply kept_setPort | with_reducible apply Kept.ite))

theorem kept_segmentAddDone {r₀ : State} (s : State) (p : Nat) (errors : Nat) (h₀ : Kept r₀ s) : Kept r₀ (segmentAddDone s p errors) := by
  unfold segmentAddDone
  try dsimp only
  repeat' first
    | with_reducible assumption
    | with_reducible apply kept_pumpRun
    | with_reducible apply kept_laneWork
    | with_reducible apply kept_popAdding
    | with_reducible apply Kept.ite
    | (first | intro _ _ _ _ _ _ _ | intro _ _ _ _ _ _ | intro _ _ _ _ _ | intro _ _ _ _ | intro _ _ _)
    | split
    | ((with_reducible refine Kept.mk_ _ _ _ _ _ _ _ _ _ _ _ _ _ _ _ _ _ _ _ _ _ _ _ _ _ _ _ _ _ _ _ _ _ _ _ _ _ _ _ _ _ _ _ ?_ rfl rfl rfl rfl rfl rfl rfl rfl rfl rfl (by first | exact Nat.le_refl _ | exact Nat.le_succ _ | exact Nat.le_add_right _ _ | omega) rfl (by first | exact Nat.le_refl _ | exact Nat.le_succ _ | omega)); (first | with_reducible assumption | with_reducible apply kept_pumpRun | with_reducible apply kept_laneWork | with_reducible apply kept_popAdding | with_reducible apply Kept.ite | split))

theorem kept_collTmo {r₀ : State} (s : State) (q : Nat) (run : Nat) (h₀ : Kept r₀ s) : Kept r₀ (collTmo s q run) := by
  unfold collTmo
  try dsimp only
  repeat' first
    | with_reducible assumption
    | with_reducible apply kept_raiseBerth
    | with_reducible apply kept_noteSeg
    | with_reducible apply Kept.ite
    | (first | intro _ _ _ _ _ _ _ | intro _ _ _ _ _ _ | intro _ _ _ _ _ | intro _ _ _ _ | intro _ _ _)
    | split
    | ((with_reducible refine Kept.mk_ _ _ _ _ _ _ _ _ _ _ _ _ _ _ _ _ _ _ _ _ _ _ _ _ _ _ _ _ _ _ _ _ _ _ _ _ _ _ _ _ _ _ _ ?_ rfl rfl rfl rfl rfl rfl rfl rfl rfl rfl (by first | exact Nat.le_refl _ | exact Nat.le_succ _ | exact Nat.le_add_right _ _ | omega) rfl (by first | exact Nat.le_refl _ | exact Nat.le_succ _ | omega)); (first | with_reducible assumption | with_reducible apply kept_raiseBerth | with_reducible apply kept_noteSeg | with_reducible apply Kept.ite | split))

end Sys2Proof.Laws
end

