-- ==== Sys2Proof/Laws/KeptSensors.lean ====
section
/-! SUPPORT. What each operation of Machine/Sensors.lean keeps. -/

namespace Sys2Proof.Laws

set_option linter.all false

open Sys2Proof.Machine Sys2Proof.Safety

theorem kept_alertSet {r₀ : State} (s : State) (i : Nat) (h₀ : Kept r₀ s) : Kept r₀ (alertSet s i) := by
  unfold alertSet
  try dsimp only
  repeat' first
    | with_reducible assumption
    | with_reducible apply Kept.ite
    | (first | intro _ _ _ _ _ _ _ | intro _ _ _ _ _ _ | intro _ _ _ _ _ | intro _ _ _ _ | intro _ _ _)
    | ((with_reducible refine Kept.mk_ _ _ _ _ _ _ _ _ _ _ _ _ _ _ _ _ _ _ _ _ _ _ _ _ _ _ _ _ _ _ _ _ _ _ _ _ _ _ _ _ _ _ _ ?_ rfl rfl rfl rfl rfl rfl rfl rfl rfl rfl (by first | exact Nat.le_refl _ | exact Nat.le_succ _ | exact Nat.le_add_right _ _ | omega) rfl (by first | exact Nat.le_refl _ | exact Nat.le_succ _ | omega)); (first | with_reducible assumption | with_reducible apply Kept.ite))

end Sys2Proof.Laws
end

