-- ==== Sys2Proof/Laws/KeptFerry.lean ====
section
/-! SUPPORT. What each operation of Machine/Ferry.lean keeps. -/

namespace Sys2Proof.Laws

set_option linter.all false

open Sys2Proof.Machine Sys2Proof.Safety

theorem kept_setPeer {r₀ : State} (s : State) (p : Peer) (h₀ : Kept r₀ s) : Kept r₀ (setPeer s p) := by
  unfold setPeer
  try dsimp only
  repeat' first
    | with_reducible assumption
    | with_reducible apply Kept.ite
    | (first | intro _ _ _ _ _ _ _ | intro _ _ _ _ _ _ | intro _ _ _ _ _ | intro _ _ _ _ | intro _ _ _)
    | ((with_reducible refine Kept.mk_ _ _ _ _ _ _ _ _ _ _ _ _ _ _ _ _ _ _ _ _ _ _ _ _ _ _ _ _ _ _ _ _ _ _ _ _ _ _ _ _ _ _ _ ?_ rfl rfl rfl rfl rfl rfl rfl rfl rfl rfl (by first | exact Nat.le_refl _ | exact Nat.le_succ _ | exact Nat.le_add_right _ _ | omega) rfl (by first | exact Nat.le_refl _ | exact Nat.le_succ _ | omega)); (first | with_reducible assumption | with_reducible apply Kept.ite))

theorem kept_noConn {r₀ : State} (s : State) (sys : Nat) (dev : Nat) (h₀ : Kept r₀ s) : Kept r₀ (noConn s sys dev) := by
  unfold noConn
  try dsimp only
  repeat' first
    | with_reducible assumption
    | with_reducible apply kept_raiseChip
    | with_reducible apply kept_noteReport
    | with_reducible apply Kept.ite
    | (first | intro _ _ _ _ _ _ _ | intro _ _ _ _ _ _ | intro _ _ _ _ _ | intro _ _ _ _ | intro _ _ _)
    | ((with_reducible refine Kept.mk_ _ _ _ _ _ _ _ _ _ _ _ _ _ _ _ _ _ _ _ _ _ _ _ _ _ _ _ _ _ _ _ _ _ _ _ _ _ _ _ _ _ _ _ ?_ rfl rfl rfl rfl rfl rfl rfl rfl rfl rfl (by first | exact Nat.le_refl _ | exact Nat.le_succ _ | exact Nat.le_add_right _ _ | omega) rfl (by first | exact Nat.le_refl _ | exact Nat.le_succ _ | omega)); (first | with_reducible assumption | with_reducible apply kept_raiseChip | with_reducible apply kept_noteReport | with_reducible apply Kept.ite))

theorem kept_ferryOut {r₀ : State} (s : State) (sys : Nat) (dev : Nat) (msg : List Byte) (h₀ : Kept r₀ s) : Kept r₀ (ferryOut s sys dev msg).1 := by
  unfold ferryOut
  try dsimp only
  repeat' first
    | with_reducible assumption
    | with_reducible apply kept_send
    | with_reducible apply kept_request
    | with_reducible apply kept_noConn
    | with_reducible apply Kept.ite
    | (first | intro _ _ _ _ _ _ _ | intro _ _ _ _ _ _ | intro _ _ _ _ _ | intro _ _ _ _ | intro _ _ _)
    | split
    | ((with_reducible refine Kept.mk_ _ _ _ _ _ _ _ _ _ _ _ _ _ _ _ _ _ _ _ _ _ _ _ _ _ _ _ _ _ _ _ _ _ _ _ _ _ _ _ _ _ _ _ ?_ rfl rfl rfl rfl rfl rfl rfl rfl rfl rfl (by first | exact Nat.le_refl _ | exact Nat.le_succ _ | exact Nat.le_add_right _ _ | omega) rfl (by first | exact Nat.le_refl _ | exact Nat.le_succ _ | omega)); (first | with_reducible assumption | with_reducible apply kept_send | with_reducible apply kept_request | with_reducible apply kept_noConn | with_reducible apply Kept.ite | split))

theorem kept_sendHello {r₀ : State} (s : State) (sys : Nat) (dev : Nat) (new : Bool) (h₀ : Kept r₀ s) : Kept r₀ (sendHello s sys dev new) := by
  unfold sendHello
  try dsimp only
  repeat' first
    | with_reducible assumption
    | with_reducible apply kept_setPeer
    | with_reducible apply kept_ferryOut
    | with_reducible apply Kept.ite
    | with_reducible apply Kept.ite_fst
    | (first | intro _ _ _ _ _ _ _ | intro _ _ _ _ _ _ | intro _ _ _ _ _ | intro _ _ _ _ | intro _ _ _)
    | ((with_reducible refine Kept.mk_ _ _ _ _ _ _ _ _ _ _ _ _ _ _ _ _ _ _ _ _ _ _ _ _ _ _ _ _ _ _ _ _ _ _ _ _ _ _ _ _ _ _ _ ?_ rfl rfl rfl rfl rfl rfl rfl rfl rfl rfl (by first | exact Nat.le_refl _ | exact Nat.le_succ _ | exact Nat.le_add_right _ _ | omega) rfl (by first | exact Nat.le_refl _ | exact Nat.le_succ _ | omega)); (first | with_reducible assumption | with_reducible apply kept_setPeer | with_reducible apply kept_ferryOut | with_reducible apply Kept.ite | with_reducible apply Kept.ite_fst))

theorem kept_ferryTo {r₀ : State} (s0 : State) (sys : Nat) (dev : Nat) (type : Nat) (body : List Byte) (h₀ : Kept r₀ s0) : Kept r₀ (ferryTo s0 sys dev type body) := by
  unfold ferryTo
  try dsimp only
  repeat' first
    | with_reducible assumption
    | with_reducible apply kept_setPeer
    | with_reducible apply kept_ferryOut
    | with_reducible apply kept_sendHello
    | with_reducible apply Kept.ite
    | with_reducible apply Kept.ite_fst
    | (first | intro _ _ _ _ _ _ _ | intro _ _ _ _ _ _ | intro _ _ _ _ _ | intro _ _ _ _ | intro _ _ _)
    | ((with_reducible refine Kept.mk_ _ _ _ _ _ _ _ _ _ _ _ _ _ _ _ _ _ _ _ _ _ _ _ _ _ _ _ _ _ _ _ _ _ _ _ _ _ _ _ _ _ _ _ ?_ rfl rfl rfl rfl rfl rfl rfl rfl rfl rfl (by first | exact Nat.le_refl _ | exact Nat.le_succ _ | exact Nat.le_add_right _ _ | omega) rfl (by first | exact Nat.le_refl _ | exact Nat.le_succ _ | omega)); (first | with_reducible assumption | with_reducible apply kept_setPeer | with_reducible apply kept_ferryOut | with_reducible apply kept_sendHello | with_reducible apply Kept.ite | with_reducible apply Kept.ite_fst))

theorem kept_ferryRestart {r₀ : State} (s : State) (sys : Nat) (dev : Nat) (old : List (List Byte)) (h₀ : Kept r₀ s) : Kept r₀ (ferryRestart s sys dev old) := by
  unfold ferryRestart
  try dsimp only
  repeat' first
    | with_reducible assumption
    | with_reducible apply kept_setPeer
    | with_reducible apply kept_ferryTo
    | with_reducible apply Kept.ite
    | with_reducible apply Kept.foldl
    | with_reducible apply Kept.foldl_fst
    | with_reducible apply Kept.foldl_snd
    | (first | intro _ _ _ _ _ _ _ | intro _ _ _ _ _ _ | intro _ _ _ _ _ | intro _ _ _ _ | intro _ _ _)
    | ((with_reducible refine Kept.mk_ _ _ _ _ _ _ _ _ _ _ _ _ _ _ _ _ _ _ _ _ _ _ _ _ _ _ _ _ _ _ _ _ _ _ _ _ _ _ _ _ _ _ _ ?_ rfl rfl rfl rfl rfl rfl rfl rfl rfl rfl (by first | exact Nat.le_refl _ | exact Nat.le_succ _ | exact Nat.le_add_right _ _ | omega) rfl (by first | exact Nat.le_refl _ | exact Nat.le_succ _ | omega)); (first | with_reducible assumption | with_reducible apply kept_setPeer | with_reducible apply kept_ferryTo | with_reducible apply Kept.ite | with_reducible apply Kept.foldl | with_reducible apply Kept.foldl_fst | with_reducible apply Kept.foldl_snd))

theorem kept_ferryResend {r₀ : State} (s : State) (sys : Nat) (dev : Nat) (a : Nat) (h₀ : Kept r₀ s) : Kept r₀ (ferryResend s sys dev a) := by
  unfold ferryResend
  try dsimp only
  repeat' first
    | with_reducible assumption
    | with_reducible apply kept_ferryOut
    | with_reducible apply Kept.ite
    | with_reducible apply Kept.ite_fst
    | with_reducible apply Kept.foldl
    | with_reducible apply Kept.foldl_fst
    | with_reducible apply Kept.foldl_snd
    | (first | intro _ _ _ _ _ _ _ | intro _ _ _ _ _ _ | intro _ _ _ _ _ | intro _ _ _ _ | intro _ _ _)
    | ((with_reducible refine Kept.mk_ _ _ _ _ _ _ _ _ _ _ _ _ _ _ _ _ _ _ _ _ _ _ _ _ _ _ _ _ _ _ _ _ _ _ _ _ _ _ _ _ _ _ _ ?_ rfl rfl rfl rfl rfl rfl rfl rfl rfl rfl (by first | exact Nat.le_refl _ | exact Nat.le_succ _ | exact Nat.le_add_right _ _ | omega) rfl (by first | exact Nat.le_refl _ | exact Nat.le_succ _ | omega)); (first | with_reducible assumption | with_reducible apply kept_ferryOut | with_reducible apply Kept.ite | with_reducible apply Kept.ite_fst | with_reducible apply Kept.foldl | with_reducible apply Kept.foldl_fst | with_reducible apply Kept.foldl_snd))

theorem kept_ferryAcked {r₀ : State} (s : State) (sys : Nat) (dev : Nat) (a : Nat) (h₀ : Kept r₀ s) : Kept r₀ (ferryAcked s sys dev a) := by
  unfold ferryAcked
  try dsimp only
  repeat' first
    | with_reducible assumption
    | with_reducible apply kept_setPeer
    | with_reducible apply Kept.ite
    | (first | intro _ _ _ _ _ _ _ | intro _ _ _ _ _ _ | intro _ _ _ _ _ | intro _ _ _ _ | intro _ _ _)
    | ((with_reducible refine Kept.mk_ _ _ _ _ _ _ _ _ _ _ _ _ _ _ _ _ _ _ _ _ _ _ _ _ _ _ _ _ _ _ _ _ _ _ _ _ _ _ _ _ _ _ _ ?_ rfl rfl rfl rfl rfl rfl rfl rfl rfl rfl (by first | exact Nat.le_refl _ | exact Nat.le_succ _ | exact Nat.le_add_right _ _ | omega) rfl (by first | exact Nat.le_refl _ | exact Nat.le_succ _ | omega)); (first | with_reducible assumption | with_reducible apply kept_setPeer | with_reducible apply Kept.ite))

theorem kept_ferryAfresh {r₀ : State} (s : State) (sys : Nat) (dev : Nat) (h₀ : Kept r₀ s) : Kept r₀ (ferryAfresh s sys dev) := by
  unfold ferryAfresh
  try dsimp only
  repeat' first
    | with_reducible assumption
    | with_reducible apply kept_setPeer
    | with_reducible apply kept_sendHello
    | with_reducible apply kept_ferryRestart
    | with_reducible apply Kept.ite
    | (first | intro _ _ _ _ _ _ _ | intro _ _ _ _ _ _ | intro _ _ _ _ _ | intro _ _ _ _ | intro _ _ _)
    | ((with_reducible refine Kept.mk_ _ _ _ _ _ _ _ _ _ _ _ _ _ _ _ _ _ _ _ _ _ _ _ _ _ _ _ _ _ _ _ _ _ _ _ _ _ _ _ _ _ _ _ ?_ rfl rfl rfl rfl rfl rfl rfl rfl rfl rfl (by first | exact Nat.le_refl _ | exact Nat.le_succ _ | exact Nat.le_add_right _ _ | omega) rfl (by first | exact Nat.le_refl _ | exact Nat.le_succ _ | omega)); (first | with_reducible assumption | with_reducible apply kept_setPeer | with_reducible apply kept_sendHello | with_reducible apply kept_ferryRestart | with_reducible apply Kept.ite))

theorem kept_takeHello {r₀ : State} (s : State) (sys : Nat) (dev : Nat) (a : Nat) (new : Bool) (h₀ : Kept r₀ s) : Kept r₀ (takeHello s sys dev a new) := by
  unfold takeHello
  try dsimp only
  repeat' first
    | with_reducible assumption
    | with_reducible apply kept_raiseChip
    | with_reducible apply kept_setPeer
    | with_reducible apply kept_ferryRestart
    | with_reducible apply kept_ferryResend
    | with_reducible apply kept_ferryAcked
    | with_reducible apply kept_ferryAfresh
    | with_reducible apply Kept.ite
    | (first | intro _ _ _ _ _ _ _ | intro _ _ _ _ _ _ | intro _ _ _ _ _ | intro _ _ _ _ | intro _ _ _)
    | ((with_reducible refine Kept.mk_ _ _ _ _ _ _ _ _ _ _ _ _ _ _ _ _ _ _ _ _ _ _ _ _ _ _ _ _ _ _ _ _ _ _ _ _ _ _ _ _ _ _ _ ?_ rfl rfl rfl rfl rfl rfl rfl rfl rfl rfl (by first | exact Nat.le_refl _ | exact Nat.le_succ _ | exact Nat.le_add_right _ _ | omega) rfl (by first | exact Nat.le_refl _ | exact Nat.le_succ _ | omega)); (first | with_reducible assumption | with_reducible apply kept_raiseChip | with_reducible apply kept_setPeer | with_reducible apply kept_ferryRestart | with_reducible apply kept_ferryResend | with_reducible apply kept_ferryAcked | with_reducible apply kept_ferryAfresh | with_reducible apply Kept.ite))

theorem kept_coreFlagUp {r₀ : State} (s : State) (b : Nat) (i : Nat) (h₀ : Kept r₀ s) : Kept r₀ (coreFlagUp s b i) := by
  unfold coreFlagUp
  try dsimp only
  repeat' first
    | with_reducible assumption
    | with_reducible apply kept_freshWord
    | with_reducible apply kept_raiseBerth
    | with_reducible apply kept_flagPut
    | with_reducible apply kept_testWaits
    | with_reducible apply Kept.ite
    | with_reducible apply Kept.ite_fst
    | (first | intro _ _ _ _ _ _ _ | intro _ _ _ _ _ _ | intro _ _ _ _ _ | intro _ _ _ _ | intro _ _ _)
    | ((with_reducible refine Kept.mk_ _ _ _ _ _ _ _ _ _ _ _ _ _ _ _ _ _ _ _ _ _ _ _ _ _ _ _ _ _ _ _ _ _ _ _ _ _ _ _ _ _ _ _ ?_ rfl rfl rfl rfl rfl rfl rfl rfl rfl rfl (by first | exact Nat.le_refl _ | exact Nat.le_succ _ | exact Nat.le_add_right _ _ | omega) rfl (by first | exact Nat.le_refl _ | exact Nat.le_succ _ | omega)); (first | with_reducible assumption | with_reducible apply kept_freshWord | with_reducible apply kept_raiseBerth | with_reducible apply kept_flagPut | with_reducible apply kept_testWaits | with_reducible apply Kept.ite | with_reducible apply Kept.ite_fst))

theorem kept_workerRelease {r₀ : State} (s : State) (job : Nat) (bseq : Nat) (h₀ : Kept r₀ s) : Kept r₀ (workerRelease s job bseq) := by
  unfold workerRelease
  try dsimp only
  repeat' first
    | with_reducible assumption
    | with_reducible apply kept_coreFlagUp
    | with_reducible apply Kept.ite
    | with_reducible apply Kept.foldl
    | with_reducible apply Kept.foldl_fst
    | with_reducible apply Kept.foldl_snd
    | (first | intro _ _ _ _ _ _ _ | intro _ _ _ _ _ _ | intro _ _ _ _ _ | intro _ _ _ _ | intro _ _ _)
    | split
    | ((with_reducible refine Kept.mk_ _ _ _ _ _ _ _ _ _ _ _ _ _ _ _ _ _ _ _ _ _ _ _ _ _ _ _ _ _ _ _ _ _ _ _ _ _ _ _ _ _ _ _ ?_ rfl rfl rfl rfl rfl rfl rfl rfl rfl rfl (by first | exact Nat.le_refl _ | exact Nat.le_succ _ | exact Nat.le_add_right _ _ | omega) rfl (by first | exact Nat.le_refl _ | exact Nat.le_succ _ | omega)); (first | with_reducible assumption | with_reducible apply kept_coreFlagUp | with_reducible apply Kept.ite | with_reducible apply Kept.foldl | with_reducible apply Kept.foldl_fst | with_reducible apply Kept.foldl_snd | split))

theorem kept_dropBarrier {r₀ : State} (s : State) (job : Nat) (bseq : Nat) (atSystem : Bool) (h₀ : Kept r₀ s) : Kept r₀ (dropBarrier s job bseq atSystem) := by
  unfold dropBarrier
  try dsimp only
  repeat' first
    | with_reducible assumption
    | with_reducible apply Kept.ite
    | (first | intro _ _ _ _ _ _ _ | intro _ _ _ _ _ _ | intro _ _ _ _ _ | intro _ _ _ _ | intro _ _ _)
    | ((with_reducible refine Kept.mk_ _ _ _ _ _ _ _ _ _ _ _ _ _ _ _ _ _ _ _ _ _ _ _ _ _ _ _ _ _ _ _ _ _ _ _ _ _ _ _ _ _ _ _ ?_ rfl rfl rfl rfl rfl rfl rfl rfl rfl rfl (by first | exact Nat.le_refl _ | exact Nat.le_succ _ | exact Nat.le_add_right _ _ | omega) rfl (by first | exact Nat.le_refl _ | exact Nat.le_succ _ | omega)); (first | with_reducible assumption | with_reducible apply Kept.ite))

theorem kept_setBarrier {r₀ : State} (s : State) (x : Barrier) (h₀ : Kept r₀ s) : Kept r₀ (setBarrier s x) := by
  unfold setBarrier
  try dsimp only
  repeat' first
    | with_reducible assumption
    | with_reducible apply kept_dropBarrier
    | with_reducible apply Kept.ite
    | (first | intro _ _ _ _ _ _ _ | intro _ _ _ _ _ _ | intro _ _ _ _ _ | intro _ _ _ _ | intro _ _ _)
    | ((with_reducible refine Kept.mk_ _ _ _ _ _ _ _ _ _ _ _ _ _ _ _ _ _ _ _ _ _ _ _ _ _ _ _ _ _ _ _ _ _ _ _ _ _ _ _ _ _ _ _ ?_ rfl rfl rfl rfl rfl rfl rfl rfl rfl rfl (by first | exact Nat.le_refl _ | exact Nat.le_succ _ | exact Nat.le_add_right _ _ | omega) rfl (by first | exact Nat.le_refl _ | exact Nat.le_succ _ | omega)); (first | with_reducible assumption | with_reducible apply kept_dropBarrier | with_reducible apply Kept.ite))

theorem kept_groupRelease {r₀ : State} (s : State) (job : Nat) (bseq : Nat) (h₀ : Kept r₀ s) : Kept r₀ (groupRelease s job bseq) := by
  unfold groupRelease
  try dsimp only
  repeat' first
    | with_reducible assumption
    | with_reducible apply kept_ferryTo
    | with_reducible apply kept_workerRelease
    | with_reducible apply kept_dropBarrier
    | with_reducible apply Kept.ite
    | with_reducible apply Kept.ite_fst
    | with_reducible apply Kept.foldl
    | with_reducible apply Kept.foldl_fst
    | with_reducible apply Kept.foldl_snd
    | (first | intro _ _ _ _ _ _ _ | intro _ _ _ _ _ _ | intro _ _ _ _ _ | intro _ _ _ _ | intro _ _ _)
    | ((with_reducible refine Kept.mk_ _ _ _ _ _ _ _ _ _ _ _ _ _ _ _ _ _ _ _ _ _ _ _ _ _ _ _ _ _ _ _ _ _ _ _ _ _ _ _ _ _ _ _ ?_ rfl rfl rfl rfl rfl rfl rfl rfl rfl rfl (by first | exact Nat.le_refl _ | exact Nat.le_succ _ | exact Nat.le_add_right _ _ | omega) rfl (by first | exact Nat.le_refl _ | exact Nat.le_succ _ | omega)); (first | with_reducible assumption | with_reducible apply kept_ferryTo | with_reducible apply kept_workerRelease | with_reducible apply kept_dropBarrier | with_reducible apply Kept.ite | with_reducible apply Kept.ite_fst | with_reducible apply Kept.foldl | with_reducible apply Kept.foldl_fst | with_reducible apply Kept.foldl_snd))

theorem kept_noRoster {r₀ : State} (s : State) (job : Nat) (bseq : Nat) (h₀ : Kept r₀ s) : Kept r₀ (noRoster s job bseq) := by
  unfold noRoster
  try dsimp only
  repeat' first
    | with_reducible assumption
    | with_reducible apply kept_raiseChip
    | with_reducible apply Kept.ite
    | (first | intro _ _ _ _ _ _ _ | intro _ _ _ _ _ _ | intro _ _ _ _ _ | intro _ _ _ _ | intro _ _ _)
    | ((with_reducible refine Kept.mk_ _ _ _ _ _ _ _ _ _ _ _ _ _ _ _ _ _ _ _ _ _ _ _ _ _ _ _ _ _ _ _ _ _ _ _ _ _ _ _ _ _ _ _ ?_ rfl rfl rfl rfl rfl rfl rfl rfl rfl rfl (by first | exact Nat.le_refl _ | exact Nat.le_succ _ | exact Nat.le_add_right _ _ | omega) rfl (by first | exact Nat.le_refl _ | exact Nat.le_succ _ | omega)); (first | with_reducible assumption | with_reducible apply kept_raiseChip | with_reducible apply Kept.ite))

theorem kept_systemArrive {r₀ : State} (s : State) (sys : Nat) (dev : Nat) (job : Nat) (bseq : Nat) (count : Nat) (h₀ : Kept r₀ s) : Kept r₀ (systemArrive s sys dev job bseq count) := by
  unfold systemArrive
  try dsimp only
  repeat' first
    | with_reducible assumption
    | with_reducible apply kept_ferryTo
    | with_reducible apply kept_dropBarrier
    | with_reducible apply kept_setBarrier
    | with_reducible apply kept_groupRelease
    | with_reducible apply kept_noRoster
    | with_reducible apply Kept.ite
    | with_reducible apply Kept.ite_fst
    | with_reducible apply Kept.foldl
    | with_reducible apply Kept.foldl_fst
    | with_reducible apply Kept.foldl_snd
    | (first | intro _ _ _ _ _ _ _ | intro _ _ _ _ _ _ | intro _ _ _ _ _ | intro _ _ _ _ | intro _ _ _)
    | split
    | ((with_reducible refine Kept.mk_ _ _ _ _ _ _ _ _ _ _ _ _ _ _ _ _ _ _ _ _ _ _ _ _ _ _ _ _ _ _ _ _ _ _ _ _ _ _ _ _ _ _ _ ?_ rfl rfl rfl rfl rfl rfl rfl rfl rfl rfl (by first | exact Nat.le_refl _ | exact Nat.le_succ _ | exact Nat.le_add_right _ _ | omega) rfl (by first | exact Nat.le_refl _ | exact Nat.le_succ _ | omega)); (first | with_reducible assumption | with_reducible apply kept_ferryTo | with_reducible apply kept_dropBarrier | with_reducible apply kept_setBarrier | with_reducible apply kept_groupRelease | with_reducible apply kept_noRoster | with_reducible apply Kept.ite | with_reducible apply Kept.ite_fst | with_reducible apply Kept.foldl | with_reducible apply Kept.foldl_fst | with_reducible apply Kept.foldl_snd | split))

theorem kept_groupArrive {r₀ : State} (s : State) (sys : Nat) (dev : Nat) (job : Nat) (bseq : Nat) (count : Nat) (h₀ : Kept r₀ s) : Kept r₀ (groupArrive s sys dev job bseq count) := by
  unfold groupArrive
  try dsimp only
  repeat' first
    | with_reducible assumption
    | with_reducible apply kept_ferryTo
    | with_reducible apply kept_setBarrier
    | with_reducible apply kept_groupRelease
    | with_reducible apply kept_noRoster
    | with_reducible apply kept_systemArrive
    | with_reducible apply Kept.ite
    | with_reducible apply Kept.ite_fst
    | (first | intro _ _ _ _ _ _ _ | intro _ _ _ _ _ _ | intro _ _ _ _ _ | intro _ _ _ _ | intro _ _ _)
    | split
    | ((with_reducible refine Kept.mk_ _ _ _ _ _ _ _ _ _ _ _ _ _ _ _ _ _ _ _ _ _ _ _ _ _ _ _ _ _ _ _ _ _ _ _ _ _ _ _ _ _ _ _ ?_ rfl rfl rfl rfl rfl rfl rfl rfl rfl rfl (by first | exact Nat.le_refl _ | exact Nat.le_succ _ | exact Nat.le_add_right _ _ | omega) rfl (by first | exact Nat.le_refl _ | exact Nat.le_succ _ | omega)); (first | with_reducible assumption | with_reducible apply kept_ferryTo | with_reducible apply kept_setBarrier | with_reducible apply kept_groupRelease | with_reducible apply kept_noRoster | with_reducible apply kept_systemArrive | with_reducible apply Kept.ite | with_reducible apply Kept.ite_fst | split))

theorem kept_barrierArrive {r₀ : State} (s : State) (b : Nat) (h₀ : Kept r₀ s) : Kept r₀ (barrierArrive s b) := by
  unfold barrierArrive
  try dsimp only
  repeat' first
    | with_reducible assumption
    | with_reducible apply kept_setBerth
    | with_reducible apply kept_flagPut
    | with_reducible apply kept_ferryTo
    | with_reducible apply kept_groupArrive
    | with_reducible apply Kept.ite
    | (first | intro _ _ _ _ _ _ _ | intro _ _ _ _ _ _ | intro _ _ _ _ _ | intro _ _ _ _ | intro _ _ _)
    | split
    | ((with_reducible refine Kept.mk_ _ _ _ _ _ _ _ _ _ _ _ _ _ _ _ _ _ _ _ _ _ _ _ _ _ _ _ _ _ _ _ _ _ _ _ _ _ _ _ _ _ _ _ ?_ rfl rfl rfl rfl rfl rfl rfl rfl rfl rfl (by first | exact Nat.le_refl _ | exact Nat.le_succ _ | exact Nat.le_add_right _ _ | omega) rfl (by first | exact Nat.le_refl _ | exact Nat.le_succ _ | omega)); (first | with_reducible assumption | with_reducible apply kept_setBerth | with_reducible apply kept_flagPut | with_reducible apply kept_ferryTo | with_reducible apply kept_groupArrive | with_reducible apply Kept.ite | split))

theorem kept_groupHealth {r₀ : State} (s : State) (dev : Nat) (body : List Byte) (h₀ : Kept r₀ s) : Kept r₀ (groupHealth s dev body) := by
  unfold groupHealth
  try dsimp only
  repeat' first
    | with_reducible assumption
    | with_reducible apply kept_hbmWrite
    | with_reducible apply Kept.ite
    | (first | intro _ _ _ _ _ _ _ | intro _ _ _ _ _ _ | intro _ _ _ _ _ | intro _ _ _ _ | intro _ _ _)
    | split
    | ((with_reducible refine Kept.mk_ _ _ _ _ _ _ _ _ _ _ _ _ _ _ _ _ _ _ _ _ _ _ _ _ _ _ _ _ _ _ _ _ _ _ _ _ _ _ _ _ _ _ _ ?_ rfl rfl rfl rfl rfl rfl rfl rfl rfl rfl (by first | exact Nat.le_refl _ | exact Nat.le_succ _ | exact Nat.le_add_right _ _ | omega) rfl (by first | exact Nat.le_refl _ | exact Nat.le_succ _ | omega)); (first | with_reducible assumption | with_reducible apply kept_hbmWrite | with_reducible apply Kept.ite | split))

theorem kept_systemHealth {r₀ : State} (s : State) (dev : Nat) (body : List Byte) (h₀ : Kept r₀ s) : Kept r₀ (systemHealth s dev body) := by
  unfold systemHealth
  try dsimp only
  repeat' first
    | with_reducible assumption
    | with_reducible apply kept_hbmWrite
    | with_reducible apply Kept.ite
    | (first | intro _ _ _ _ _ _ _ | intro _ _ _ _ _ _ | intro _ _ _ _ _ | intro _ _ _ _ | intro _ _ _)
    | split
    | ((with_reducible refine Kept.mk_ _ _ _ _ _ _ _ _ _ _ _ _ _ _ _ _ _ _ _ _ _ _ _ _ _ _ _ _ _ _ _ _ _ _ _ _ _ _ _ _ _ _ _ ?_ rfl rfl rfl rfl rfl rfl rfl rfl rfl rfl (by first | exact Nat.le_refl _ | exact Nat.le_succ _ | exact Nat.le_add_right _ _ | omega) rfl (by first | exact Nat.le_refl _ | exact Nat.le_succ _ | omega)); (first | with_reducible assumption | with_reducible apply kept_hbmWrite | with_reducible apply Kept.ite | split))

theorem kept_healthTick {r₀ : State} (s : State) (h₀ : Kept r₀ s) : Kept r₀ (healthTick s) := by
  unfold healthTick
  try dsimp only
  repeat' first
    | with_reducible assumption
    | with_reducible apply kept_ferryTo
    | with_reducible apply kept_groupHealth
    | with_reducible apply kept_systemHealth
    | with_reducible apply Kept.ite
    | (first | intro _ _ _ _ _ _ _ | intro _ _ _ _ _ _ | intro _ _ _ _ _ | intro _ _ _ _ | intro _ _ _)
    | split
    | ((with_reducible refine Kept.mk_ _ _ _ _ _ _ _ _ _ _ _ _ _ _ _ _ _ _ _ _ _ _ _ _ _ _ _ _ _ _ _ _ _ _ _ _ _ _ _ _ _ _ _ ?_ rfl rfl rfl rfl rfl rfl rfl rfl rfl rfl (by first | exact Nat.le_refl _ | exact Nat.le_succ _ | exact Nat.le_add_right _ _ | omega) rfl (by first | exact Nat.le_refl _ | exact Nat.le_succ _ | omega)); (first | with_reducible assumption | with_reducible apply kept_ferryTo | with_reducible apply kept_groupHealth | with_reducible apply kept_systemHealth | with_reducible apply Kept.ite | split))

theorem kept_groupSilent {r₀ : State} (s : State) (w : Nat) (sys : Nat) (dev : Nat) (reasons : Nat) (first : Nat) (h₀ : Kept r₀ s) : Kept r₀ (groupSilent s w sys dev reasons first) := by
  unfold groupSilent
  try dsimp only
  repeat' first
    | with_reducible assumption
    | with_reducible apply Kept.ite
    | (first | intro _ _ _ _ _ _ _ | intro _ _ _ _ _ _ | intro _ _ _ _ _ | intro _ _ _ _ | intro _ _ _)
    | ((with_reducible refine Kept.mk_ _ _ _ _ _ _ _ _ _ _ _ _ _ _ _ _ _ _ _ _ _ _ _ _ _ _ _ _ _ _ _ _ _ _ _ _ _ _ _ _ _ _ _ ?_ rfl rfl rfl rfl rfl rfl rfl rfl rfl rfl (by first | exact Nat.le_refl _ | exact Nat.le_succ _ | exact Nat.le_add_right _ _ | omega) rfl (by first | exact Nat.le_refl _ | exact Nat.le_succ _ | omega)); (first | with_reducible assumption | with_reducible apply Kept.ite))

theorem kept_systemEvent {r₀ : State} (s : State) (g : Nat) (body : List Byte) (h₀ : Kept r₀ s) : Kept r₀ (systemEvent s g body) := by
  unfold systemEvent
  try dsimp only
  repeat' first
    | with_reducible assumption
    | with_reducible apply Kept.ite
    | (first | intro _ _ _ _ _ _ _ | intro _ _ _ _ _ _ | intro _ _ _ _ _ | intro _ _ _ _ | intro _ _ _)
    | ((with_reducible refine Kept.mk_ _ _ _ _ _ _ _ _ _ _ _ _ _ _ _ _ _ _ _ _ _ _ _ _ _ _ _ _ _ _ _ _ _ _ _ _ _ _ _ _ _ _ _ ?_ rfl rfl rfl rfl rfl rfl rfl rfl rfl rfl (by first | exact Nat.le_refl _ | exact Nat.le_succ _ | exact Nat.le_add_right _ _ | omega) rfl (by first | exact Nat.le_refl _ | exact Nat.le_succ _ | omega)); (first | with_reducible assumption | with_reducible apply Kept.ite))

theorem kept_setSilence {r₀ : State} (s : State) (x : Silence) (h₀ : Kept r₀ s) : Kept r₀ (setSilence s x) := by
  unfold setSilence
  try dsimp only
  repeat' first
    | with_reducible assumption
    | with_reducible apply Kept.ite
    | (first | intro _ _ _ _ _ _ _ | intro _ _ _ _ _ _ | intro _ _ _ _ _ | intro _ _ _ _ | intro _ _ _)
    | ((with_reducible refine Kept.mk_ _ _ _ _ _ _ _ _ _ _ _ _ _ _ _ _ _ _ _ _ _ _ _ _ _ _ _ _ _ _ _ _ _ _ _ _ _ _ _ _ _ _ _ ?_ rfl rfl rfl rfl rfl rfl rfl rfl rfl rfl (by first | exact Nat.le_refl _ | exact Nat.le_succ _ | exact Nat.le_add_right _ _ | omega) rfl (by first | exact Nat.le_refl _ | exact Nat.le_succ _ | omega)); (first | with_reducible assumption | with_reducible apply Kept.ite))

theorem kept_sendSilent {r₀ : State} (s : State) (sys : Nat) (dev : Nat) (reasons : Nat) (first : Nat) (folded : Nat) (h₀ : Kept r₀ s) : Kept r₀ (sendSilent s sys dev reasons first folded) := by
  unfold sendSilent
  try dsimp only
  repeat' first
    | with_reducible assumption
    | with_reducible apply kept_raiseChip
    | with_reducible apply kept_ferryTo
    | with_reducible apply kept_groupSilent
    | with_reducible apply kept_setSilence
    | with_reducible apply Kept.ite
    | (first | intro _ _ _ _ _ _ _ | intro _ _ _ _ _ _ | intro _ _ _ _ _ | intro _ _ _ _ | intro _ _ _)
    | ((with_reducible refine Kept.mk_ _ _ _ _ _ _ _ _ _ _ _ _ _ _ _ _ _ _ _ _ _ _ _ _ _ _ _ _ _ _ _ _ _ _ _ _ _ _ _ _ _ _ _ ?_ rfl rfl rfl rfl rfl rfl rfl rfl rfl rfl (by first | exact Nat.le_refl _ | exact Nat.le_succ _ | exact Nat.le_add_right _ _ | omega) rfl (by first | exact Nat.le_refl _ | exact Nat.le_succ _ | omega)); (first | with_reducible assumption | with_reducible apply kept_raiseChip | with_reducible apply kept_ferryTo | with_reducible apply kept_groupSilent | with_reducible apply kept_setSilence | with_reducible apply Kept.ite))

theorem kept_silentTrigger {r₀ : State} (s : State) (sys : Nat) (dev : Nat) (reason : Nat) (h₀ : Kept r₀ s) : Kept r₀ (silentTrigger s sys dev reason) := by
  unfold silentTrigger
  try dsimp only
  repeat' first
    | with_reducible assumption
    | with_reducible apply kept_setSilence
    | with_reducible apply kept_sendSilent
    | with_reducible apply Kept.ite
    | (first | intro _ _ _ _ _ _ _ | intro _ _ _ _ _ _ | intro _ _ _ _ _ | intro _ _ _ _ | intro _ _ _)
    | split
    | ((with_reducible refine Kept.mk_ _ _ _ _ _ _ _ _ _ _ _ _ _ _ _ _ _ _ _ _ _ _ _ _ _ _ _ _ _ _ _ _ _ _ _ _ _ _ _ _ _ _ _ ?_ rfl rfl rfl rfl rfl rfl rfl rfl rfl rfl (by first | exact Nat.le_refl _ | exact Nat.le_succ _ | exact Nat.le_add_right _ _ | omega) rfl (by first | exact Nat.le_refl _ | exact Nat.le_succ _ | omega)); (first | with_reducible assumption | with_reducible apply kept_setSilence | with_reducible apply kept_sendSilent | with_reducible apply Kept.ite | split))

theorem kept_connTimeLimit {r₀ : State} (s : State) (n : Nat) (h₀ : Kept r₀ s) : Kept r₀ (connTimeLimit s n) := by
  unfold connTimeLimit
  try dsimp only
  repeat' first
    | with_reducible assumption
    | with_reducible apply kept_connFail
    | with_reducible apply kept_silentTrigger
    | with_reducible apply Kept.ite
    | with_reducible apply Kept.ite_fst
    | (first | intro _ _ _ _ _ _ _ | intro _ _ _ _ _ _ | intro _ _ _ _ _ | intro _ _ _ _ | intro _ _ _)
    | split
    | ((with_reducible refine Kept.mk_ _ _ _ _ _ _ _ _ _ _ _ _ _ _ _ _ _ _ _ _ _ _ _ _ _ _ _ _ _ _ _ _ _ _ _ _ _ _ _ _ _ _ _ ?_ rfl rfl rfl rfl rfl rfl rfl rfl rfl rfl (by first | exact Nat.le_refl _ | exact Nat.le_succ _ | exact Nat.le_add_right _ _ | omega) rfl (by first | exact Nat.le_refl _ | exact Nat.le_succ _ | omega)); (first | with_reducible assumption | with_reducible apply kept_connFail | with_reducible apply kept_silentTrigger | with_reducible apply Kept.ite | with_reducible apply Kept.ite_fst | split))

theorem kept_groupClose {r₀ : State} (s : State) (k : Nat × Nat) (h₀ : Kept r₀ s) : Kept r₀ (groupClose s k) := by
  unfold groupClose
  try dsimp only
  repeat' first
    | with_reducible assumption
    | with_reducible apply kept_ferryTo
    | with_reducible apply kept_systemEvent
    | with_reducible apply Kept.ite
    | (first | intro _ _ _ _ _ _ _ | intro _ _ _ _ _ _ | intro _ _ _ _ _ | intro _ _ _ _ | intro _ _ _)
    | split
    | ((with_reducible refine Kept.mk_ _ _ _ _ _ _ _ _ _ _ _ _ _ _ _ _ _ _ _ _ _ _ _ _ _ _ _ _ _ _ _ _ _ _ _ _ _ _ _ _ _ _ _ ?_ rfl rfl rfl rfl rfl rfl rfl rfl rfl rfl (by first | exact Nat.le_refl _ | exact Nat.le_succ _ | exact Nat.le_add_right _ _ | omega) rfl (by first | exact Nat.le_refl _ | exact Nat.le_succ _ | omega)); (first | with_reducible assumption | with_reducible apply kept_ferryTo | with_reducible apply kept_systemEvent | with_reducible apply Kept.ite | split))

theorem kept_systemClose {r₀ : State} (s : State) (k : Nat × Nat) (h₀ : Kept r₀ s) : Kept r₀ (systemClose s k) := by
  unfold systemClose
  try dsimp only
  repeat' first
    | with_reducible assumption
    | with_reducible apply kept_emit
    | with_reducible apply Kept.ite
    | with_reducible apply Kept.foldl
    | with_reducible apply Kept.foldl_fst
    | with_reducible apply Kept.foldl_snd
    | (first | intro _ _ _ _ _ _ _ | intro _ _ _ _ _ _ | intro _ _ _ _ _ | intro _ _ _ _ | intro _ _ _)
    | split
    | ((with_reducible refine Kept.mk_ _ _ _ _ _ _ _ _ _ _ _ _ _ _ _ _ _ _ _ _ _ _ _ _ _ _ _ _ _ _ _ _ _ _ _ _ _ _ _ _ _ _ _ ?_ rfl rfl rfl rfl rfl rfl rfl rfl rfl rfl (by first | exact Nat.le_refl _ | exact Nat.le_succ _ | exact Nat.le_add_right _ _ | omega) rfl (by first | exact Nat.le_refl _ | exact Nat.le_succ _ | omega)); (first | with_reducible assumption | with_reducible apply kept_emit | with_reducible apply Kept.ite | with_reducible apply Kept.foldl | with_reducible apply Kept.foldl_fst | with_reducible apply Kept.foldl_snd | split))

theorem kept_workerSilent {r₀ : State} (s : State) (w : Nat) (h₀ : Kept r₀ s) : Kept r₀ (workerSilent s w) := by
  unfold workerSilent
  try dsimp only
  repeat' first
    | with_reducible assumption
    | with_reducible apply kept_groupSilent
    | with_reducible apply Kept.ite
    | (first | intro _ _ _ _ _ _ _ | intro _ _ _ _ _ _ | intro _ _ _ _ _ | intro _ _ _ _ | intro _ _ _)
    | ((with_reducible refine Kept.mk_ _ _ _ _ _ _ _ _ _ _ _ _ _ _ _ _ _ _ _ _ _ _ _ _ _ _ _ _ _ _ _ _ _ _ _ _ _ _ _ _ _ _ _ ?_ rfl rfl rfl rfl rfl rfl rfl rfl rfl rfl (by first | exact Nat.le_refl _ | exact Nat.le_succ _ | exact Nat.le_add_right _ _ | omega) rfl (by first | exact Nat.le_refl _ | exact Nat.le_succ _ | omega)); (first | with_reducible assumption | with_reducible apply kept_groupSilent | with_reducible apply Kept.ite))

theorem kept_planWorker {r₀ : State} (s : State) (area : Nat) (epoch : Nat) (w : Nat) (h₀ : Kept r₀ s) : Kept r₀ (planWorker s area epoch w) := by
  unfold planWorker
  try dsimp only
  repeat' first
    | with_reducible assumption
    | with_reducible apply kept_freshWord
    | with_reducible apply kept_request
    | with_reducible apply kept_noConn
    | with_reducible apply Kept.ite
    | (first | intro _ _ _ _ _ _ _ | intro _ _ _ _ _ _ | intro _ _ _ _ _ | intro _ _ _ _ | intro _ _ _)
    | split
    | ((with_reducible refine Kept.mk_ _ _ _ _ _ _ _ _ _ _ _ _ _ _ _ _ _ _ _ _ _ _ _ _ _ _ _ _ _ _ _ _ _ _ _ _ _ _ _ _ _ _ _ ?_ rfl rfl rfl rfl rfl rfl rfl rfl rfl rfl (by first | exact Nat.le_refl _ | exact Nat.le_succ _ | exact Nat.le_add_right _ _ | omega) rfl (by first | exact Nat.le_refl _ | exact Nat.le_succ _ | omega)); (first | with_reducible assumption | with_reducible apply kept_freshWord | with_reducible apply kept_request | with_reducible apply kept_noConn | with_reducible apply Kept.ite | split))

theorem kept_planSelf {r₀ : State} (s : State) (area : Nat) (epoch : Nat) (h₀ : Kept r₀ s) : Kept r₀ (planSelf s area epoch) := by
  unfold planSelf
  try dsimp only
  repeat' first
    | with_reducible assumption
    | with_reducible apply kept_regSet
    | with_reducible apply Kept.ite
    | (first | intro _ _ _ _ _ _ _ | intro _ _ _ _ _ _ | intro _ _ _ _ _ | intro _ _ _ _ | intro _ _ _)
    | ((with_reducible refine Kept.mk_ _ _ _ _ _ _ _ _ _ _ _ _ _ _ _ _ _ _ _ _ _ _ _ _ _ _ _ _ _ _ _ _ _ _ _ _ _ _ _ _ _ _ _ ?_ rfl rfl rfl rfl rfl rfl rfl rfl rfl rfl (by first | exact Nat.le_refl _ | exact Nat.le_succ _ | exact Nat.le_add_right _ _ | omega) rfl (by first | exact Nat.le_refl _ | exact Nat.le_succ _ | omega)); (first | with_reducible assumption | with_reducible apply kept_regSet | with_reducible apply Kept.ite))
    | split
    | exact rfl
    | (unfold latchReg; apply decide_eq_false; simp only [mgBase, fcBase, ttBase, scBase, pwBase, mwBase, qyBase, ptBase, fcSevAddr]; omega)

theorem kept_groupPlan {r₀ : State} (s : State) (epoch : Nat) (gen : Nat) (h₀ : Kept r₀ s) : Kept r₀ (groupPlan s epoch gen) := by
  unfold groupPlan
  try dsimp only
  repeat' first
    | with_reducible assumption
    | with_reducible apply kept_planWorker
    | with_reducible apply kept_planSelf
    | with_reducible apply Kept.ite
    | with_reducible apply Kept.foldl
    | with_reducible apply Kept.foldl_fst
    | with_reducible apply Kept.foldl_snd
    | (first | intro _ _ _ _ _ _ _ | intro _ _ _ _ _ _ | intro _ _ _ _ _ | intro _ _ _ _ | intro _ _ _)
    | split
    | ((with_reducible refine Kept.mk_ _ _ _ _ _ _ _ _ _ _ _ _ _ _ _ _ _ _ _ _ _ _ _ _ _ _ _ _ _ _ _ _ _ _ _ _ _ _ _ _ _ _ _ ?_ rfl rfl rfl rfl rfl rfl rfl rfl rfl rfl (by first | exact Nat.le_refl _ | exact Nat.le_succ _ | exact Nat.le_add_right _ _ | omega) rfl (by first | exact Nat.le_refl _ | exact Nat.le_succ _ | omega)); (first | with_reducible assumption | with_reducible apply kept_planWorker | with_reducible apply kept_planSelf | with_reducible apply Kept.ite | with_reducible apply Kept.foldl | with_reducible apply Kept.foldl_fst | with_reducible apply Kept.foldl_snd | split))

theorem kept_missCheck {r₀ : State} (s : State) (gens : List (Nat × Nat)) (h₀ : Kept r₀ s) : Kept r₀ (missCheck s gens) := by
  unfold missCheck
  try dsimp only
  repeat' first
    | with_reducible assumption
    | with_reducible apply kept_request
    | with_reducible apply kept_noConn
    | with_reducible apply Kept.ite
    | with_reducible apply Kept.ite_fst
    | with_reducible apply Kept.foldl
    | with_reducible apply Kept.foldl_fst
    | with_reducible apply Kept.foldl_snd
    | (first | intro _ _ _ _ _ _ _ | intro _ _ _ _ _ _ | intro _ _ _ _ _ | intro _ _ _ _ | intro _ _ _)
    | split
    | ((with_reducible refine Kept.mk_ _ _ _ _ _ _ _ _ _ _ _ _ _ _ _ _ _ _ _ _ _ _ _ _ _ _ _ _ _ _ _ _ _ _ _ _ _ _ _ _ _ _ _ ?_ rfl rfl rfl rfl rfl rfl rfl rfl rfl rfl (by first | exact Nat.le_refl _ | exact Nat.le_succ _ | exact Nat.le_add_right _ _ | omega) rfl (by first | exact Nat.le_refl _ | exact Nat.le_succ _ | omega)); (first | with_reducible assumption | with_reducible apply kept_request | with_reducible apply kept_noConn | with_reducible apply Kept.ite | with_reducible apply Kept.ite_fst | with_reducible apply Kept.foldl | with_reducible apply Kept.foldl_fst | with_reducible apply Kept.foldl_snd | split))

theorem kept_ferryTake {r₀ : State} (s : State) (n : Nat) (type : Nat) (msg : List Byte) (act : State → Nat → Nat → List Byte → State) (hact_ : ∀ (t : State) x0 x1 x2, Kept r₀ t → Kept r₀ (act t x0 x1 x2)) (h₀ : Kept r₀ s) : Kept r₀ (ferryTake s n type msg act) := by
  unfold ferryTake
  try dsimp only
  repeat' first
    | with_reducible assumption
    | with_reducible apply hact_
    | with_reducible apply kept_acknowledge
    | with_reducible apply kept_setPeer
    | with_reducible apply kept_sendHello
    | with_reducible apply kept_ferryAcked
    | with_reducible apply Kept.ite
    | (first | intro _ _ _ _ _ _ _ | intro _ _ _ _ _ _ | intro _ _ _ _ _ | intro _ _ _ _ | intro _ _ _)
    | ((with_reducible refine Kept.mk_ _ _ _ _ _ _ _ _ _ _ _ _ _ _ _ _ _ _ _ _ _ _ _ _ _ _ _ _ _ _ _ _ _ _ _ _ _ _ _ _ _ _ _ ?_ rfl rfl rfl rfl rfl rfl rfl rfl rfl rfl (by first | exact Nat.le_refl _ | exact Nat.le_succ _ | exact Nat.le_add_right _ _ | omega) rfl (by first | exact Nat.le_refl _ | exact Nat.le_succ _ | omega)); (first | with_reducible assumption | with_reducible apply hact_ | with_reducible apply kept_acknowledge | with_reducible apply kept_setPeer | with_reducible apply kept_sendHello | with_reducible apply kept_ferryAcked | with_reducible apply Kept.ite))

theorem kept_ferryHello {r₀ : State} (s : State) (n : Nat) (msg : List Byte) (h₀ : Kept r₀ s) : Kept r₀ (ferryHello s n msg) := by
  unfold ferryHello
  try dsimp only
  repeat' first
    | with_reducible assumption
    | with_reducible apply kept_acknowledge
    | with_reducible apply kept_takeHello
    | with_reducible apply Kept.ite
    | (first | intro _ _ _ _ _ _ _ | intro _ _ _ _ _ _ | intro _ _ _ _ _ | intro _ _ _ _ | intro _ _ _)
    | ((with_reducible refine Kept.mk_ _ _ _ _ _ _ _ _ _ _ _ _ _ _ _ _ _ _ _ _ _ _ _ _ _ _ _ _ _ _ _ _ _ _ _ _ _ _ _ _ _ _ _ ?_ rfl rfl rfl rfl rfl rfl rfl rfl rfl rfl (by first | exact Nat.le_refl _ | exact Nat.le_succ _ | exact Nat.le_add_right _ _ | omega) rfl (by first | exact Nat.le_refl _ | exact Nat.le_succ _ | omega)); (first | with_reducible assumption | with_reducible apply kept_acknowledge | with_reducible apply kept_takeHello | with_reducible apply Kept.ite))

theorem kept_actArrive {r₀ : State} (s : State) (sys : Nat) (dev : Nat) (body : List Byte) (h₀ : Kept r₀ s) : Kept r₀ (actArrive s sys dev body) := by
  unfold actArrive
  try dsimp only
  repeat' first
    | with_reducible assumption
    | with_reducible apply kept_systemArrive
    | with_reducible apply kept_groupArrive
    | with_reducible apply Kept.ite
    | (first | intro _ _ _ _ _ _ _ | intro _ _ _ _ _ _ | intro _ _ _ _ _ | intro _ _ _ _ | intro _ _ _)
    | ((with_reducible refine Kept.mk_ _ _ _ _ _ _ _ _ _ _ _ _ _ _ _ _ _ _ _ _ _ _ _ _ _ _ _ _ _ _ _ _ _ _ _ _ _ _ _ _ _ _ _ ?_ rfl rfl rfl rfl rfl rfl rfl rfl rfl rfl (by first | exact Nat.le_refl _ | exact Nat.le_succ _ | exact Nat.le_add_right _ _ | omega) rfl (by first | exact Nat.le_refl _ | exact Nat.le_succ _ | omega)); (first | with_reducible assumption | with_reducible apply kept_systemArrive | with_reducible apply kept_groupArrive | with_reducible apply Kept.ite))

theorem kept_actRelease {r₀ : State} (s : State) (_sys : Nat) (_dev : Nat) (body : List Byte) (h₀ : Kept r₀ s) : Kept r₀ (actRelease s _sys _dev body) := by
  unfold actRelease
  try dsimp only
  repeat' first
    | with_reducible assumption
    | with_reducible apply kept_workerRelease
    | with_reducible apply kept_groupRelease
    | with_reducible apply Kept.ite
    | (first | intro _ _ _ _ _ _ _ | intro _ _ _ _ _ _ | intro _ _ _ _ _ | intro _ _ _ _ | intro _ _ _)
    | ((with_reducible refine Kept.mk_ _ _ _ _ _ _ _ _ _ _ _ _ _ _ _ _ _ _ _ _ _ _ _ _ _ _ _ _ _ _ _ _ _ _ _ _ _ _ _ _ _ _ _ ?_ rfl rfl rfl rfl rfl rfl rfl rfl rfl rfl (by first | exact Nat.le_refl _ | exact Nat.le_succ _ | exact Nat.le_add_right _ _ | omega) rfl (by first | exact Nat.le_refl _ | exact Nat.le_succ _ | omega)); (first | with_reducible assumption | with_reducible apply kept_workerRelease | with_reducible apply kept_groupRelease | with_reducible apply Kept.ite))

theorem kept_actHealth {r₀ : State} (s : State) (sys : Nat) (dev : Nat) (body : List Byte) (h₀ : Kept r₀ s) : Kept r₀ (actHealth s sys dev body) := by
  unfold actHealth
  try dsimp only
  repeat' first
    | with_reducible assumption
    | with_reducible apply kept_groupHealth
    | with_reducible apply kept_systemHealth
    | with_reducible apply Kept.ite
    | (first | intro _ _ _ _ _ _ _ | intro _ _ _ _ _ _ | intro _ _ _ _ _ | intro _ _ _ _ | intro _ _ _)
    | ((with_reducible refine Kept.mk_ _ _ _ _ _ _ _ _ _ _ _ _ _ _ _ _ _ _ _ _ _ _ _ _ _ _ _ _ _ _ _ _ _ _ _ _ _ _ _ _ _ _ _ ?_ rfl rfl rfl rfl rfl rfl rfl rfl rfl rfl (by first | exact Nat.le_refl _ | exact Nat.le_succ _ | exact Nat.le_add_right _ _ | omega) rfl (by first | exact Nat.le_refl _ | exact Nat.le_succ _ | omega)); (first | with_reducible assumption | with_reducible apply kept_groupHealth | with_reducible apply kept_systemHealth | with_reducible apply Kept.ite))

theorem kept_actSilent {r₀ : State} (at_ : Nat) (s : State) (sys : Nat) (dev : Nat) (body : List Byte) (h₀ : Kept r₀ s) : Kept r₀ (actSilent at_ s sys dev body) := by
  unfold actSilent
  try dsimp only
  repeat' first
    | with_reducible assumption
    | with_reducible apply kept_groupSilent
    | with_reducible apply Kept.ite
    | (first | intro _ _ _ _ _ _ _ | intro _ _ _ _ _ _ | intro _ _ _ _ _ | intro _ _ _ _ | intro _ _ _)
    | ((with_reducible refine Kept.mk_ _ _ _ _ _ _ _ _ _ _ _ _ _ _ _ _ _ _ _ _ _ _ _ _ _ _ _ _ _ _ _ _ _ _ _ _ _ _ _ _ _ _ _ ?_ rfl rfl rfl rfl rfl rfl rfl rfl rfl rfl (by first | exact Nat.le_refl _ | exact Nat.le_succ _ | exact Nat.le_add_right _ _ | omega) rfl (by first | exact Nat.le_refl _ | exact Nat.le_succ _ | omega)); (first | with_reducible assumption | with_reducible apply kept_groupSilent | with_reducible apply Kept.ite))

theorem kept_actEvent {r₀ : State} (s : State) (_sys : Nat) (dev : Nat) (body : List Byte) (h₀ : Kept r₀ s) : Kept r₀ (actEvent s _sys dev body) := by
  unfold actEvent
  try dsimp only
  repeat' first
    | with_reducible assumption
    | with_reducible apply kept_systemEvent
    | with_reducible apply Kept.ite
    | (first | intro _ _ _ _ _ _ _ | intro _ _ _ _ _ _ | intro _ _ _ _ _ | intro _ _ _ _ | intro _ _ _)
    | ((with_reducible refine Kept.mk_ _ _ _ _ _ _ _ _ _ _ _ _ _ _ _ _ _ _ _ _ _ _ _ _ _ _ _ _ _ _ _ _ _ _ _ _ _ _ _ _ _ _ _ ?_ rfl rfl rfl rfl rfl rfl rfl rfl rfl rfl (by first | exact Nat.le_refl _ | exact Nat.le_succ _ | exact Nat.le_add_right _ _ | omega) rfl (by first | exact Nat.le_refl _ | exact Nat.le_succ _ | omega)); (first | with_reducible assumption | with_reducible apply kept_systemEvent | with_reducible apply Kept.ite))

theorem kept_actPlan {r₀ : State} (s : State) (_sys : Nat) (_dev : Nat) (body : List Byte) (h₀ : Kept r₀ s) : Kept r₀ (actPlan s _sys _dev body) := by
  unfold actPlan
  try dsimp only
  repeat' first
    | with_reducible assumption
    | with_reducible apply kept_groupPlan
    | with_reducible apply Kept.ite
    | (first | intro _ _ _ _ _ _ _ | intro _ _ _ _ _ _ | intro _ _ _ _ _ | intro _ _ _ _ | intro _ _ _)
    | ((with_reducible refine Kept.mk_ _ _ _ _ _ _ _ _ _ _ _ _ _ _ _ _ _ _ _ _ _ _ _ _ _ _ _ _ _ _ _ _ _ _ _ _ _ _ _ _ _ _ _ ?_ rfl rfl rfl rfl rfl rfl rfl rfl rfl rfl (by first | exact Nat.le_refl _ | exact Nat.le_succ _ | exact Nat.le_add_right _ _ | omega) rfl (by first | exact Nat.le_refl _ | exact Nat.le_succ _ | omega)); (first | with_reducible assumption | with_reducible apply kept_groupPlan | with_reducible apply Kept.ite))

theorem kept_ferryMsg {r₀ : State} (s : State) (n : Nat) (msg : List Byte) (h₀ : Kept r₀ s) : Kept r₀ (ferryMsg s n msg) := by
  unfold ferryMsg
  try dsimp only
  repeat' first
    | with_reducible assumption
    | with_reducible apply kept_acknowledge
    | with_reducible apply kept_ferryTake
    | with_reducible apply kept_ferryHello
    | with_reducible apply kept_actArrive
    | with_reducible apply kept_actRelease
    | with_reducible apply kept_actHealth
    | with_reducible apply kept_actSilent
    | with_reducible apply kept_actEvent
    | with_reducible apply kept_actPlan
    | with_reducible apply Kept.ite
    | (first | intro _ _ _ _ _ _ _ | intro _ _ _ _ _ _ | intro _ _ _ _ _ | intro _ _ _ _ | intro _ _ _)
    | ((with_reducible refine Kept.mk_ _ _ _ _ _ _ _ _ _ _ _ _ _ _ _ _ _ _ _ _ _ _ _ _ _ _ _ _ _ _ _ _ _ _ _ _ _ _ _ _ _ _ _ ?_ rfl rfl rfl rfl rfl rfl rfl rfl rfl rfl (by first | exact Nat.le_refl _ | exact Nat.le_succ _ | exact Nat.le_add_right _ _ | omega) rfl (by first | exact Nat.le_refl _ | exact Nat.le_succ _ | omega)); (first | with_reducible assumption | with_reducible apply kept_acknowledge | with_reducible apply kept_ferryTake | with_reducible apply kept_ferryHello | with_reducible apply kept_actArrive | with_reducible apply kept_actRelease | with_reducible apply kept_actHealth | with_reducible apply kept_actSilent | with_reducible apply kept_actEvent | with_reducible apply kept_actPlan | with_reducible apply Kept.ite))

theorem kept_newMaster {r₀ : State} (s : State) (old : Nat) (dev : Nat) (h₀ : Kept r₀ s) : Kept r₀ (newMaster s old dev) := by
  unfold newMaster
  try dsimp only
  repeat' first
    | with_reducible assumption
    | with_reducible apply kept_setPeer
    | with_reducible apply kept_sendHello
    | with_reducible apply kept_ferryRestart
    | with_reducible apply Kept.ite
    | (first | intro _ _ _ _ _ _ _ | intro _ _ _ _ _ _ | intro _ _ _ _ _ | intro _ _ _ _ | intro _ _ _)
    | ((with_reducible refine Kept.mk_ _ _ _ _ _ _ _ _ _ _ _ _ _ _ _ _ _ _ _ _ _ _ _ _ _ _ _ _ _ _ _ _ _ _ _ _ _ _ _ _ _ _ _ ?_ rfl rfl rfl rfl rfl rfl rfl rfl rfl rfl (by first | exact Nat.le_refl _ | exact Nat.le_succ _ | exact Nat.le_add_right _ _ | omega) rfl (by first | exact Nat.le_refl _ | exact Nat.le_succ _ | omega)); (first | with_reducible assumption | with_reducible apply kept_setPeer | with_reducible apply kept_sendHello | with_reducible apply kept_ferryRestart | with_reducible apply Kept.ite))

theorem kept_ferryWrite {r₀ : State} (s : State) (v : Word) (h₀ : Kept r₀ s) : Kept r₀ (ferryWrite s v) := by
  unfold ferryWrite
  try dsimp only
  repeat' first
    | with_reducible assumption
    | with_reducible apply kept_regSet
    | with_reducible apply kept_newMaster
    | with_reducible apply Kept.ite
    | (first | intro _ _ _ _ _ _ _ | intro _ _ _ _ _ _ | intro _ _ _ _ _ | intro _ _ _ _ | intro _ _ _)
    | ((with_reducible refine Kept.mk_ _ _ _ _ _ _ _ _ _ _ _ _ _ _ _ _ _ _ _ _ _ _ _ _ _ _ _ _ _ _ _ _ _ _ _ _ _ _ _ _ _ _ _ ?_ rfl rfl rfl rfl rfl rfl rfl rfl rfl rfl (by first | exact Nat.le_refl _ | exact Nat.le_succ _ | exact Nat.le_add_right _ _ | omega) rfl (by first | exact Nat.le_refl _ | exact Nat.le_succ _ | omega)); (first | with_reducible assumption | with_reducible apply kept_regSet | with_reducible apply kept_newMaster | with_reducible apply Kept.ite))
    | split
    | exact rfl
    | (unfold latchReg; apply decide_eq_false; simp only [mgBase, fcBase, ttBase, scBase, pwBase, mwBase, qyBase, ptBase, fcSevAddr]; omega)

end Sys2Proof.Laws
end

