-- ==== Sys2Proof/Laws/KeptTimetable.lean ====
section
/-! SUPPORT. What each operation of Machine/Timetable.lean keeps. -/

namespace Sys2Proof.Laws

set_option linter.all false

open Sys2Proof.Machine Sys2Proof.Safety

theorem kept_setTime {r₀ : State} (s : State) (f : TimeUnit → TimeUnit) (hf : (f s.time).mono = s.time.mono) (h₀ : Kept r₀ s) :
    Kept r₀ (setTime s f) :=
  Kept.upd h₀ rfl rfl rfl rfl rfl rfl rfl rfl rfl hf (Nat.le_refl _)

theorem kept_becomeMaster {r₀ : State} (s : State) (h₀ : Kept r₀ s) : Kept r₀ (becomeMaster s) := by
  unfold becomeMaster
  try dsimp only
  repeat' first
    | with_reducible assumption
    | with_reducible apply kept_setTime
    | with_reducible apply Kept.ite
    | (first | intro _ _ _ _ _ _ _ | intro _ _ _ _ _ _ | intro _ _ _ _ _ | intro _ _ _ _ | intro _ _ _)
    | ((with_reducible refine Kept.mk_ _ _ _ _ _ _ _ _ _ _ _ _ _ _ _ _ _ _ _ _ _ _ _ _ _ _ _ _ _ _ _ _ _ _ _ _ _ _ _ _ _ _ _ ?_ rfl rfl rfl rfl rfl rfl rfl rfl rfl rfl (by first | exact Nat.le_refl _ | exact Nat.le_succ _ | exact Nat.le_add_right _ _ | omega) rfl (by first | exact Nat.le_refl _ | exact Nat.le_succ _ | omega)); (first | with_reducible assumption | with_reducible apply kept_setTime | with_reducible apply Kept.ite))
    | with_reducible exact rfl
    | exact rfl

theorem kept_decideMaster {r₀ : State} (s : State) (h₀ : Kept r₀ s) : Kept r₀ (decideMaster s) := by
  unfold decideMaster
  try dsimp only
  repeat' first
    | with_reducible assumption
    | with_reducible apply kept_setTime
    | with_reducible apply kept_becomeMaster
    | with_reducible apply Kept.ite
    | with_reducible apply Kept.ite_fst
    | (first | intro _ _ _ _ _ _ _ | intro _ _ _ _ _ _ | intro _ _ _ _ _ | intro _ _ _ _ | intro _ _ _)
    | split
    | ((with_reducible refine Kept.mk_ _ _ _ _ _ _ _ _ _ _ _ _ _ _ _ _ _ _ _ _ _ _ _ _ _ _ _ _ _ _ _ _ _ _ _ _ _ _ _ _ _ _ _ ?_ rfl rfl rfl rfl rfl rfl rfl rfl rfl rfl (by first | exact Nat.le_refl _ | exact Nat.le_succ _ | exact Nat.le_add_right _ _ | omega) rfl (by first | exact Nat.le_refl _ | exact Nat.le_succ _ | omega)); (first | with_reducible assumption | with_reducible apply kept_setTime | with_reducible apply kept_becomeMaster | with_reducible apply Kept.ite | with_reducible apply Kept.ite_fst | split))
    | with_reducible exact rfl
    | exact rfl

theorem kept_gmChanged {r₀ : State} (s : State) (h₀ : Kept r₀ s) : Kept r₀ (gmChanged s) := by
  unfold gmChanged
  try dsimp only
  repeat' first
    | with_reducible assumption
    | with_reducible apply kept_setTime
    | with_reducible apply kept_decideMaster
    | with_reducible apply Kept.ite
    | (first | intro _ _ _ _ _ _ _ | intro _ _ _ _ _ _ | intro _ _ _ _ _ | intro _ _ _ _ | intro _ _ _)
    | ((with_reducible refine Kept.mk_ _ _ _ _ _ _ _ _ _ _ _ _ _ _ _ _ _ _ _ _ _ _ _ _ _ _ _ _ _ _ _ _ _ _ _ _ _ _ _ _ _ _ _ ?_ rfl rfl rfl rfl rfl rfl rfl rfl rfl rfl (by first | exact Nat.le_refl _ | exact Nat.le_succ _ | exact Nat.le_add_right _ _ | omega) rfl (by first | exact Nat.le_refl _ | exact Nat.le_succ _ | omega)); (first | with_reducible assumption | with_reducible apply kept_setTime | with_reducible apply kept_decideMaster | with_reducible apply Kept.ite))
    | with_reducible exact rfl
    | exact rfl

theorem kept_loseMaster {r₀ : State} (s : State) (h₀ : Kept r₀ s) : Kept r₀ (loseMaster s) := by
  unfold loseMaster
  try dsimp only
  repeat' first
    | with_reducible assumption
    | with_reducible apply kept_setTime
    | with_reducible apply kept_decideMaster
    | with_reducible apply Kept.ite
    | with_reducible apply Kept.ite_fst
    | (first | intro _ _ _ _ _ _ _ | intro _ _ _ _ _ _ | intro _ _ _ _ _ | intro _ _ _ _ | intro _ _ _)
    | split
    | ((with_reducible refine Kept.mk_ _ _ _ _ _ _ _ _ _ _ _ _ _ _ _ _ _ _ _ _ _ _ _ _ _ _ _ _ _ _ _ _ _ _ _ _ _ _ _ _ _ _ _ ?_ rfl rfl rfl rfl rfl rfl rfl rfl rfl rfl (by first | exact Nat.le_refl _ | exact Nat.le_succ _ | exact Nat.le_add_right _ _ | omega) rfl (by first | exact Nat.le_refl _ | exact Nat.le_succ _ | omega)); (first | with_reducible assumption | with_reducible apply kept_setTime | with_reducible apply kept_decideMaster | with_reducible apply Kept.ite | with_reducible apply Kept.ite_fst | split))
    | with_reducible exact rfl
    | exact rfl

theorem kept_stepTime {r₀ : State} (s : State) (by_ : Int) (h₀ : Kept r₀ s) : Kept r₀ (stepTime s by_) := by
  unfold stepTime
  try dsimp only
  repeat' first
    | with_reducible assumption
    | with_reducible apply kept_raiseChip
    | with_reducible apply kept_setTime
    | with_reducible apply Kept.ite
    | (first | intro _ _ _ _ _ _ _ | intro _ _ _ _ _ _ | intro _ _ _ _ _ | intro _ _ _ _ | intro _ _ _)
    | ((with_reducible refine Kept.mk_ _ _ _ _ _ _ _ _ _ _ _ _ _ _ _ _ _ _ _ _ _ _ _ _ _ _ _ _ _ _ _ _ _ _ _ _ _ _ _ _ _ _ _ ?_ rfl rfl rfl rfl rfl rfl rfl rfl rfl rfl (by first | exact Nat.le_refl _ | exact Nat.le_succ _ | exact Nat.le_add_right _ _ | omega) rfl (by first | exact Nat.le_refl _ | exact Nat.le_succ _ | omega)); (first | with_reducible assumption | with_reducible apply kept_raiseChip | with_reducible apply kept_setTime | with_reducible apply Kept.ite))
    | with_reducible exact rfl
    | exact rfl

theorem kept_loseSync {r₀ : State} (s : State) (detail : Nat) (h₀ : Kept r₀ s) : Kept r₀ (loseSync s detail) := by
  unfold loseSync
  try dsimp only
  repeat' first
    | with_reducible assumption
    | with_reducible apply kept_raiseChip
    | with_reducible apply kept_setTime
    | with_reducible apply Kept.ite
    | (first | intro _ _ _ _ _ _ _ | intro _ _ _ _ _ _ | intro _ _ _ _ _ | intro _ _ _ _ | intro _ _ _)
    | ((with_reducible refine Kept.mk_ _ _ _ _ _ _ _ _ _ _ _ _ _ _ _ _ _ _ _ _ _ _ _ _ _ _ _ _ _ _ _ _ _ _ _ _ _ _ _ _ _ _ _ ?_ rfl rfl rfl rfl rfl rfl rfl rfl rfl rfl (by first | exact Nat.le_refl _ | exact Nat.le_succ _ | exact Nat.le_add_right _ _ | omega) rfl (by first | exact Nat.le_refl _ | exact Nat.le_succ _ | omega)); (first | with_reducible assumption | with_reducible apply kept_raiseChip | with_reducible apply kept_setTime | with_reducible apply Kept.ite))
    | with_reducible exact rfl
    | exact rfl

theorem kept_measureOffset {r₀ : State} (s : State) (offset : Int) (h₀ : Kept r₀ s) : Kept r₀ (measureOffset s offset) := by
  unfold measureOffset
  try dsimp only
  repeat' first
    | with_reducible assumption
    | with_reducible apply kept_setTime
    | with_reducible apply kept_stepTime
    | with_reducible apply kept_loseSync
    | with_reducible apply Kept.ite
    | (first | intro _ _ _ _ _ _ _ | intro _ _ _ _ _ _ | intro _ _ _ _ _ | intro _ _ _ _ | intro _ _ _)
    | split
    | ((with_reducible refine Kept.mk_ _ _ _ _ _ _ _ _ _ _ _ _ _ _ _ _ _ _ _ _ _ _ _ _ _ _ _ _ _ _ _ _ _ _ _ _ _ _ _ _ _ _ _ ?_ rfl rfl rfl rfl rfl rfl rfl rfl rfl rfl (by first | exact Nat.le_refl _ | exact Nat.le_succ _ | exact Nat.le_add_right _ _ | omega) rfl (by first | exact Nat.le_refl _ | exact Nat.le_succ _ | omega)); (first | with_reducible assumption | with_reducible apply kept_setTime | with_reducible apply kept_stepTime | with_reducible apply kept_loseSync | with_reducible apply Kept.ite | split))
    | with_reducible exact rfl
    | exact rfl

theorem kept_ptpReceive {r₀ : State} (s : State) (p : Nat) (k : Nat) (m : PtpMessage) (h₀ : Kept r₀ s) : Kept r₀ (ptpReceive s p k m) := by
  unfold ptpReceive
  try dsimp only
  repeat' first
    | with_reducible assumption
    | with_reducible apply kept_send
    | with_reducible apply kept_setTime
    | with_reducible apply kept_decideMaster
    | with_reducible apply kept_measureOffset
    | with_reducible apply Kept.ite
    | (first | intro _ _ _ _ _ _ _ | intro _ _ _ _ _ _ | intro _ _ _ _ _ | intro _ _ _ _ | intro _ _ _)
    | split
    | ((with_reducible refine Kept.mk_ _ _ _ _ _ _ _ _ _ _ _ _ _ _ _ _ _ _ _ _ _ _ _ _ _ _ _ _ _ _ _ _ _ _ _ _ _ _ _ _ _ _ _ ?_ rfl rfl rfl rfl rfl rfl rfl rfl rfl rfl (by first | exact Nat.le_refl _ | exact Nat.le_succ _ | exact Nat.le_add_right _ _ | omega) rfl (by first | exact Nat.le_refl _ | exact Nat.le_succ _ | omega)); (first | with_reducible assumption | with_reducible apply kept_send | with_reducible apply kept_setTime | with_reducible apply kept_decideMaster | with_reducible apply kept_measureOffset | with_reducible apply Kept.ite | split))
    | with_reducible exact rfl
    | exact rfl

theorem kept_ptpSend {r₀ : State} (s : State) (p : Nat) (k : Nat) (kind : PtpKind) (h₀ : Kept r₀ s) : Kept r₀ (ptpSend s p k kind) := by
  unfold ptpSend
  try dsimp only
  repeat' first
    | with_reducible assumption
    | with_reducible apply kept_setLink
    | with_reducible apply kept_send
    | with_reducible apply Kept.ite
    | (first | intro _ _ _ _ _ _ _ | intro _ _ _ _ _ _ | intro _ _ _ _ _ | intro _ _ _ _ | intro _ _ _)
    | ((with_reducible refine Kept.mk_ _ _ _ _ _ _ _ _ _ _ _ _ _ _ _ _ _ _ _ _ _ _ _ _ _ _ _ _ _ _ _ _ _ _ _ _ _ _ _ _ _ _ _ ?_ rfl rfl rfl rfl rfl rfl rfl rfl rfl rfl (by first | exact Nat.le_refl _ | exact Nat.le_succ _ | exact Nat.le_add_right _ _ | omega) rfl (by first | exact Nat.le_refl _ | exact Nat.le_succ _ | omega)); (first | with_reducible assumption | with_reducible apply kept_setLink | with_reducible apply kept_send | with_reducible apply Kept.ite))

theorem kept_announceTimeout {r₀ : State} (s : State) (h₀ : Kept r₀ s) : Kept r₀ (announceTimeout s) := by
  unfold announceTimeout
  try dsimp only
  repeat' first
    | with_reducible assumption
    | with_reducible apply kept_becomeMaster
    | with_reducible apply kept_loseMaster
    | with_reducible apply Kept.ite
    | with_reducible apply Kept.ite_fst
    | (first | intro _ _ _ _ _ _ _ | intro _ _ _ _ _ _ | intro _ _ _ _ _ | intro _ _ _ _ | intro _ _ _)
    | split
    | ((with_reducible refine Kept.mk_ _ _ _ _ _ _ _ _ _ _ _ _ _ _ _ _ _ _ _ _ _ _ _ _ _ _ _ _ _ _ _ _ _ _ _ _ _ _ _ _ _ _ _ ?_ rfl rfl rfl rfl rfl rfl rfl rfl rfl rfl (by first | exact Nat.le_refl _ | exact Nat.le_succ _ | exact Nat.le_add_right _ _ | omega) rfl (by first | exact Nat.le_refl _ | exact Nat.le_succ _ | omega)); (first | with_reducible assumption | with_reducible apply kept_becomeMaster | with_reducible apply kept_loseMaster | with_reducible apply Kept.ite | with_reducible apply Kept.ite_fst | split))

theorem kept_lockQualify {r₀ : State} (s : State) (h₀ : Kept r₀ s) : Kept r₀ (lockQualify s) := by
  unfold lockQualify
  try dsimp only
  repeat' first
    | with_reducible assumption
    | with_reducible apply kept_setTime
    | with_reducible apply Kept.ite
    | (first | intro _ _ _ _ _ _ _ | intro _ _ _ _ _ _ | intro _ _ _ _ _ | intro _ _ _ _ | intro _ _ _)
    | split
    | ((with_reducible refine Kept.mk_ _ _ _ _ _ _ _ _ _ _ _ _ _ _ _ _ _ _ _ _ _ _ _ _ _ _ _ _ _ _ _ _ _ _ _ _ _ _ _ _ _ _ _ ?_ rfl rfl rfl rfl rfl rfl rfl rfl rfl rfl (by first | exact Nat.le_refl _ | exact Nat.le_succ _ | exact Nat.le_add_right _ _ | omega) rfl (by first | exact Nat.le_refl _ | exact Nat.le_succ _ | omega)); (first | with_reducible assumption | with_reducible apply kept_setTime | with_reducible apply Kept.ite | split))
    | with_reducible exact rfl
    | exact rfl

theorem kept_holdoverTimeout {r₀ : State} (s : State) (h₀ : Kept r₀ s) : Kept r₀ (holdoverTimeout s) := by
  unfold holdoverTimeout
  try dsimp only
  repeat' first
    | with_reducible assumption
    | with_reducible apply kept_loseSync
    | with_reducible apply Kept.ite
    | (first | intro _ _ _ _ _ _ _ | intro _ _ _ _ _ _ | intro _ _ _ _ _ | intro _ _ _ _ | intro _ _ _)
    | split
    | ((with_reducible refine Kept.mk_ _ _ _ _ _ _ _ _ _ _ _ _ _ _ _ _ _ _ _ _ _ _ _ _ _ _ _ _ _ _ _ _ _ _ _ _ _ _ _ _ _ _ _ ?_ rfl rfl rfl rfl rfl rfl rfl rfl rfl rfl (by first | exact Nat.le_refl _ | exact Nat.le_succ _ | exact Nat.le_add_right _ _ | omega) rfl (by first | exact Nat.le_refl _ | exact Nat.le_succ _ | omega)); (first | with_reducible assumption | with_reducible apply kept_loseSync | with_reducible apply Kept.ite | split))

theorem kept_rejectPps {r₀ : State} (s : State) (h₀ : Kept r₀ s) : Kept r₀ (rejectPps s) := by
  unfold rejectPps
  try dsimp only
  repeat' first
    | with_reducible assumption
    | with_reducible apply kept_raiseChip
    | with_reducible apply kept_noteReport
    | with_reducible apply kept_setTime
    | with_reducible apply Kept.ite
    | (first | intro _ _ _ _ _ _ _ | intro _ _ _ _ _ _ | intro _ _ _ _ _ | intro _ _ _ _ | intro _ _ _)
    | ((with_reducible refine Kept.mk_ _ _ _ _ _ _ _ _ _ _ _ _ _ _ _ _ _ _ _ _ _ _ _ _ _ _ _ _ _ _ _ _ _ _ _ _ _ _ _ _ _ _ _ ?_ rfl rfl rfl rfl rfl rfl rfl rfl rfl rfl (by first | exact Nat.le_refl _ | exact Nat.le_succ _ | exact Nat.le_add_right _ _ | omega) rfl (by first | exact Nat.le_refl _ | exact Nat.le_succ _ | omega)); (first | with_reducible assumption | with_reducible apply kept_raiseChip | with_reducible apply kept_noteReport | with_reducible apply kept_setTime | with_reducible apply Kept.ite))
    | with_reducible exact rfl
    | exact rfl

theorem kept_acceptPps {r₀ : State} (s : State) (discipline : Bool) (h₀ : Kept r₀ s) : Kept r₀ (acceptPps s discipline) := by
  unfold acceptPps
  try dsimp only
  repeat' first
    | with_reducible assumption
    | with_reducible apply kept_setTime
    | with_reducible apply kept_stepTime
    | with_reducible apply Kept.ite
    | (first | intro _ _ _ _ _ _ _ | intro _ _ _ _ _ _ | intro _ _ _ _ _ | intro _ _ _ _ | intro _ _ _)
    | split
    | ((with_reducible refine Kept.mk_ _ _ _ _ _ _ _ _ _ _ _ _ _ _ _ _ _ _ _ _ _ _ _ _ _ _ _ _ _ _ _ _ _ _ _ _ _ _ _ _ _ _ _ ?_ rfl rfl rfl rfl rfl rfl rfl rfl rfl rfl (by first | exact Nat.le_refl _ | exact Nat.le_succ _ | exact Nat.le_add_right _ _ | omega) rfl (by first | exact Nat.le_refl _ | exact Nat.le_succ _ | omega)); (first | with_reducible assumption | with_reducible apply kept_setTime | with_reducible apply kept_stepTime | with_reducible apply Kept.ite | split))
    | with_reducible exact rfl
    | exact rfl

theorem kept_ppsIn {r₀ : State} (s : State) (high : Nat) (h₀ : Kept r₀ s) : Kept r₀ (ppsIn s high) := by
  unfold ppsIn
  try dsimp only
  repeat' first
    | with_reducible assumption
    | with_reducible apply kept_rejectPps
    | with_reducible apply kept_acceptPps
    | with_reducible apply Kept.ite
    | (first | intro _ _ _ _ _ _ _ | intro _ _ _ _ _ _ | intro _ _ _ _ _ | intro _ _ _ _ | intro _ _ _)
    | ((with_reducible refine Kept.mk_ _ _ _ _ _ _ _ _ _ _ _ _ _ _ _ _ _ _ _ _ _ _ _ _ _ _ _ _ _ _ _ _ _ _ _ _ _ _ _ _ _ _ _ ?_ rfl rfl rfl rfl rfl rfl rfl rfl rfl rfl (by first | exact Nat.le_refl _ | exact Nat.le_succ _ | exact Nat.le_add_right _ _ | omega) rfl (by first | exact Nat.le_refl _ | exact Nat.le_succ _ | omega)); (first | with_reducible assumption | with_reducible apply kept_rejectPps | with_reducible apply kept_acceptPps | with_reducible apply Kept.ite))

theorem kept_tblGo {r₀ : State} (s : State) (h₀ : Kept r₀ s) : Kept r₀ (tblGo s) := by
  unfold tblGo
  try dsimp only
  repeat' first
    | with_reducible assumption
    | with_reducible apply kept_setTime
    | with_reducible apply Kept.ite
    | (first | intro _ _ _ _ _ _ _ | intro _ _ _ _ _ _ | intro _ _ _ _ _ | intro _ _ _ _ | intro _ _ _)
    | ((with_reducible refine Kept.mk_ _ _ _ _ _ _ _ _ _ _ _ _ _ _ _ _ _ _ _ _ _ _ _ _ _ _ _ _ _ _ _ _ _ _ _ _ _ _ _ _ _ _ _ ?_ rfl rfl rfl rfl rfl rfl rfl rfl rfl rfl (by first | exact Nat.le_refl _ | exact Nat.le_succ _ | exact Nat.le_add_right _ _ | omega) rfl (by first | exact Nat.le_refl _ | exact Nat.le_succ _ | omega)); (first | with_reducible assumption | with_reducible apply kept_setTime | with_reducible apply Kept.ite))
    | with_reducible exact rfl
    | exact rfl

theorem kept_tblMissed {r₀ : State} (s : State) (h₀ : Kept r₀ s) : Kept r₀ (tblMissed s) := by
  unfold tblMissed
  try dsimp only
  repeat' first
    | with_reducible assumption
    | with_reducible apply kept_raiseChip
    | with_reducible apply kept_setTime
    | with_reducible apply Kept.ite
    | (first | intro _ _ _ _ _ _ _ | intro _ _ _ _ _ _ | intro _ _ _ _ _ | intro _ _ _ _ | intro _ _ _)
    | ((with_reducible refine Kept.mk_ _ _ _ _ _ _ _ _ _ _ _ _ _ _ _ _ _ _ _ _ _ _ _ _ _ _ _ _ _ _ _ _ _ _ _ _ _ _ _ _ _ _ _ ?_ rfl rfl rfl rfl rfl rfl rfl rfl rfl rfl (by first | exact Nat.le_refl _ | exact Nat.le_succ _ | exact Nat.le_add_right _ _ | omega) rfl (by first | exact Nat.le_refl _ | exact Nat.le_succ _ | omega)); (first | with_reducible assumption | with_reducible apply kept_raiseChip | with_reducible apply kept_setTime | with_reducible apply Kept.ite))
    | with_reducible exact rfl
    | exact rfl

theorem kept_tblReadAt {r₀ : State} (s : State) (b a n : Nat) (mem : HbmOutcome) (h₀ : Kept r₀ s) :
    Kept r₀ (tblReadAt s b a n mem).1 := by
  unfold tblReadAt
  exact Kept.ite_fst h₀ (kept_stepRead _ _ _ _ _ _ h₀)

theorem kept_tblRead {r₀ : State} (s : State) (mem : HbmOutcome) (h₀ : Kept r₀ s) : Kept r₀ (tblRead s mem).1 := by
  unfold tblRead
  split
  · exact h₀
  · exact kept_tblReadAt _ _ _ _ _ h₀

theorem kept_tblDiscard {r₀ : State} (s : State) (h₀ : Kept r₀ s) : Kept r₀ (tblDiscard s) := by
  unfold tblDiscard
  try dsimp only
  repeat' first
    | with_reducible assumption
    | with_reducible apply kept_setTime
    | with_reducible apply Kept.ite
    | (first | intro _ _ _ _ _ _ _ | intro _ _ _ _ _ _ | intro _ _ _ _ _ | intro _ _ _ _ | intro _ _ _)
    | ((with_reducible refine Kept.mk_ _ _ _ _ _ _ _ _ _ _ _ _ _ _ _ _ _ _ _ _ _ _ _ _ _ _ _ _ _ _ _ _ _ _ _ _ _ _ _ _ _ _ _ ?_ rfl rfl rfl rfl rfl rfl rfl rfl rfl rfl (by first | exact Nat.le_refl _ | exact Nat.le_succ _ | exact Nat.le_add_right _ _ | omega) rfl (by first | exact Nat.le_refl _ | exact Nat.le_succ _ | omega)); (first | with_reducible assumption | with_reducible apply kept_setTime | with_reducible apply Kept.ite))
    | with_reducible exact rfl
    | exact rfl

theorem kept_tblDone {r₀ : State} (s : State) (mem : HbmOutcome) (h₀ : Kept r₀ s) : Kept r₀ (tblDone s mem) := by
  unfold tblDone
  try dsimp only
  repeat' first
    | with_reducible assumption
    | with_reducible apply kept_raiseChip
    | with_reducible apply kept_setTime
    | with_reducible apply kept_tblMissed
    | with_reducible apply kept_tblRead
    | with_reducible apply kept_tblDiscard
    | with_reducible apply Kept.ite
    | with_reducible apply Kept.ite_fst
    | (first | intro _ _ _ _ _ _ _ | intro _ _ _ _ _ _ | intro _ _ _ _ _ | intro _ _ _ _ | intro _ _ _)
    | split
    | ((with_reducible refine Kept.mk_ _ _ _ _ _ _ _ _ _ _ _ _ _ _ _ _ _ _ _ _ _ _ _ _ _ _ _ _ _ _ _ _ _ _ _ _ _ _ _ _ _ _ _ ?_ rfl rfl rfl rfl rfl rfl rfl rfl rfl rfl (by first | exact Nat.le_refl _ | exact Nat.le_succ _ | exact Nat.le_add_right _ _ | omega) rfl (by first | exact Nat.le_refl _ | exact Nat.le_succ _ | omega)); (first | with_reducible assumption | with_reducible apply kept_raiseChip | with_reducible apply kept_setTime | with_reducible apply kept_tblMissed | with_reducible apply kept_tblRead | with_reducible apply kept_tblDiscard | with_reducible apply Kept.ite | with_reducible apply Kept.ite_fst | split))
    | with_reducible exact rfl
    | exact rfl

theorem kept_tblActivate {r₀ : State} (s : State) (h₀ : Kept r₀ s) : Kept r₀ (tblActivate s) := by
  unfold tblActivate
  try dsimp only
  repeat' first
    | with_reducible assumption
    | with_reducible apply kept_setTime
    | with_reducible apply kept_tblMissed
    | with_reducible apply Kept.ite
    | (first | intro _ _ _ _ _ _ _ | intro _ _ _ _ _ _ | intro _ _ _ _ _ | intro _ _ _ _ | intro _ _ _)
    | split
    | ((with_reducible refine Kept.mk_ _ _ _ _ _ _ _ _ _ _ _ _ _ _ _ _ _ _ _ _ _ _ _ _ _ _ _ _ _ _ _ _ _ _ _ _ _ _ _ _ _ _ _ ?_ rfl rfl rfl rfl rfl rfl rfl rfl rfl rfl (by first | exact Nat.le_refl _ | exact Nat.le_succ _ | exact Nat.le_add_right _ _ | omega) rfl (by first | exact Nat.le_refl _ | exact Nat.le_succ _ | omega)); (first | with_reducible assumption | with_reducible apply kept_setTime | with_reducible apply kept_tblMissed | with_reducible apply Kept.ite | split))
    | with_reducible exact rfl
    | exact rfl

end Sys2Proof.Laws
end

