-- ==== Sys2Proof/Laws/KeptPorts.lean ====
section
/-! SUPPORT. What each operation of Machine/Ports.lean keeps. -/

namespace Sys2Proof.Laws

set_option linter.all false

open Sys2Proof.Machine Sys2Proof.Safety

theorem kept_setPortState {r₀ : State} (s : State) (p : Nat) (st : PortState) (cause : Nat) (h₀ : Kept r₀ s) : Kept r₀ (setPortState s p st cause) := by
  unfold setPortState
  try dsimp only
  repeat' first
    | with_reducible assumption
    | with_reducible apply kept_setPort
    | with_reducible apply kept_alertSet
    | with_reducible apply Kept.ite
    | (first | intro _ _ _ _ _ _ _ | intro _ _ _ _ _ _ | intro _ _ _ _ _ | intro _ _ _ _ | intro _ _ _)
    | ((with_reducible refine Kept.mk_ _ _ _ _ _ _ _ _ _ _ _ _ _ _ _ _ _ _ _ _ _ _ _ _ _ _ _ _ _ _ _ _ _ _ _ _ _ _ _ _ _ _ _ ?_ rfl rfl rfl rfl rfl rfl rfl rfl rfl rfl (by first | exact Nat.le_refl _ | exact Nat.le_succ _ | exact Nat.le_add_right _ _ | omega) rfl (by first | exact Nat.le_refl _ | exact Nat.le_succ _ | omega)); (first | with_reducible assumption | with_reducible apply kept_setPort | with_reducible apply kept_alertSet | with_reducible apply Kept.ite))

theorem kept_sendCard {r₀ : State} (s : State) (p : Nat) (k : Nat) (h₀ : Kept r₀ s) : Kept r₀ (sendCard s p k) := by
  unfold sendCard
  try dsimp only
  repeat' first
    | with_reducible assumption
    | with_reducible apply kept_setLink
    | with_reducible apply kept_send
    | with_reducible apply Kept.ite
    | (first | intro _ _ _ _ _ _ _ | intro _ _ _ _ _ _ | intro _ _ _ _ _ | intro _ _ _ _ | intro _ _ _)
    | ((with_reducible refine Kept.mk_ _ _ _ _ _ _ _ _ _ _ _ _ _ _ _ _ _ _ _ _ _ _ _ _ _ _ _ _ _ _ _ _ _ _ _ _ _ _ _ _ _ _ _ ?_ rfl rfl rfl rfl rfl rfl rfl rfl rfl rfl (by first | exact Nat.le_refl _ | exact Nat.le_succ _ | exact Nat.le_add_right _ _ | omega) rfl (by first | exact Nat.le_refl _ | exact Nat.le_succ _ | omega)); (first | with_reducible assumption | with_reducible apply kept_setLink | with_reducible apply kept_send | with_reducible apply Kept.ite))

theorem kept_setLport {r₀ : State} (s : State) (p : Nat) (l : Nat) (h₀ : Kept r₀ s) : Kept r₀ (setLport s p l) := by
  unfold setLport
  try dsimp only
  repeat' first
    | with_reducible assumption
    | with_reducible apply kept_setPort
    | with_reducible apply Kept.ite
    | (first | intro _ _ _ _ _ _ _ | intro _ _ _ _ _ _ | intro _ _ _ _ _ | intro _ _ _ _ | intro _ _ _)
    | ((with_reducible refine Kept.mk_ _ _ _ _ _ _ _ _ _ _ _ _ _ _ _ _ _ _ _ _ _ _ _ _ _ _ _ _ _ _ _ _ _ _ _ _ _ _ _ _ _ _ _ ?_ rfl rfl rfl rfl rfl rfl rfl rfl rfl rfl (by first | exact Nat.le_refl _ | exact Nat.le_succ _ | exact Nat.le_add_right _ _ | omega) rfl (by first | exact Nat.le_refl _ | exact Nat.le_succ _ | omega)); (first | with_reducible assumption | with_reducible apply kept_setPort | with_reducible apply Kept.ite))

theorem kept_quarantine {r₀ : State} (s : State) (p : Nat) (cause : Nat) (h₀ : Kept r₀ s) : Kept r₀ (quarantine s p cause) := by
  unfold quarantine
  try dsimp only
  repeat' first
    | with_reducible assumption
    | with_reducible apply kept_raiseChip
    | with_reducible apply kept_setPortState
    | with_reducible apply kept_setLport
    | with_reducible apply Kept.ite
    | (first | intro _ _ _ _ _ _ _ | intro _ _ _ _ _ _ | intro _ _ _ _ _ | intro _ _ _ _ | intro _ _ _)
    | ((with_reducible refine Kept.mk_ _ _ _ _ _ _ _ _ _ _ _ _ _ _ _ _ _ _ _ _ _ _ _ _ _ _ _ _ _ _ _ _ _ _ _ _ _ _ _ _ _ _ _ ?_ rfl rfl rfl rfl rfl rfl rfl rfl rfl rfl (by first | exact Nat.le_refl _ | exact Nat.le_succ _ | exact Nat.le_add_right _ _ | omega) rfl (by first | exact Nat.le_refl _ | exact Nat.le_succ _ | omega)); (first | with_reducible assumption | with_reducible apply kept_raiseChip | with_reducible apply kept_setPortState | with_reducible apply kept_setLport | with_reducible apply Kept.ite))

theorem kept_applyVerdict {r₀ : State} (s : State) (p : Nat) (v : Verdict) (h₀ : Kept r₀ s) : Kept r₀ (applyVerdict s p v) := by
  unfold applyVerdict
  try dsimp only
  repeat' first
    | with_reducible assumption
    | with_reducible apply kept_raiseChip
    | with_reducible apply kept_setPortState
    | with_reducible apply kept_setLport
    | with_reducible apply kept_quarantine
    | with_reducible apply Kept.ite
    | (first | intro _ _ _ _ _ _ _ | intro _ _ _ _ _ _ | intro _ _ _ _ _ | intro _ _ _ _ | intro _ _ _)
    | split
    | ((with_reducible refine Kept.mk_ _ _ _ _ _ _ _ _ _ _ _ _ _ _ _ _ _ _ _ _ _ _ _ _ _ _ _ _ _ _ _ _ _ _ _ _ _ _ _ _ _ _ _ ?_ rfl rfl rfl rfl rfl rfl rfl rfl rfl rfl (by first | exact Nat.le_refl _ | exact Nat.le_succ _ | exact Nat.le_add_right _ _ | omega) rfl (by first | exact Nat.le_refl _ | exact Nat.le_succ _ | omega)); (first | with_reducible assumption | with_reducible apply kept_raiseChip | with_reducible apply kept_setPortState | with_reducible apply kept_setLport | with_reducible apply kept_quarantine | with_reducible apply Kept.ite | split))

theorem kept_classifyOne {r₀ : State} (s : State) (p : Nat) (h₀ : Kept r₀ s) : Kept r₀ (classifyOne s p) := by
  unfold classifyOne
  try dsimp only
  repeat' first
    | with_reducible assumption
    | with_reducible apply kept_applyVerdict
    | with_reducible apply Kept.ite
    | (first | intro _ _ _ _ _ _ _ | intro _ _ _ _ _ _ | intro _ _ _ _ _ | intro _ _ _ _ | intro _ _ _)
    | ((with_reducible refine Kept.mk_ _ _ _ _ _ _ _ _ _ _ _ _ _ _ _ _ _ _ _ _ _ _ _ _ _ _ _ _ _ _ _ _ _ _ _ _ _ _ _ _ _ _ _ ?_ rfl rfl rfl rfl rfl rfl rfl rfl rfl rfl (by first | exact Nat.le_refl _ | exact Nat.le_succ _ | exact Nat.le_add_right _ _ | omega) rfl (by first | exact Nat.le_refl _ | exact Nat.le_succ _ | omega)); (first | with_reducible assumption | with_reducible apply kept_applyVerdict | with_reducible apply Kept.ite))

theorem kept_classify {r₀ : State} (s : State) (p : Nat) (h₀ : Kept r₀ s) : Kept r₀ (classify s p) := by
  unfold classify
  try dsimp only
  repeat' first
    | with_reducible assumption
    | with_reducible apply kept_setLport
    | with_reducible apply kept_classifyOne
    | with_reducible apply Kept.ite
    | with_reducible apply Kept.foldl
    | with_reducible apply Kept.foldl_fst
    | with_reducible apply Kept.foldl_snd
    | (first | intro _ _ _ _ _ _ _ | intro _ _ _ _ _ _ | intro _ _ _ _ _ | intro _ _ _ _ | intro _ _ _)
    | split
    | ((with_reducible refine Kept.mk_ _ _ _ _ _ _ _ _ _ _ _ _ _ _ _ _ _ _ _ _ _ _ _ _ _ _ _ _ _ _ _ _ _ _ _ _ _ _ _ _ _ _ _ ?_ rfl rfl rfl rfl rfl rfl rfl rfl rfl rfl (by first | exact Nat.le_refl _ | exact Nat.le_succ _ | exact Nat.le_add_right _ _ | omega) rfl (by first | exact Nat.le_refl _ | exact Nat.le_succ _ | omega)); (first | with_reducible assumption | with_reducible apply kept_setLport | with_reducible apply kept_classifyOne | with_reducible apply Kept.ite | with_reducible apply Kept.foldl | with_reducible apply Kept.foldl_fst | with_reducible apply Kept.foldl_snd | split))

theorem kept_classifyAll {r₀ : State} (s : State) (h₀ : Kept r₀ s) : Kept r₀ (classifyAll s) := by
  unfold classifyAll
  try dsimp only
  repeat' first
    | with_reducible assumption
    | with_reducible apply kept_classifyOne
    | with_reducible apply Kept.ite
    | with_reducible apply Kept.foldl
    | with_reducible apply Kept.foldl_fst
    | with_reducible apply Kept.foldl_snd
    | (first | intro _ _ _ _ _ _ _ | intro _ _ _ _ _ _ | intro _ _ _ _ _ | intro _ _ _ _ | intro _ _ _)
    | ((with_reducible refine Kept.mk_ _ _ _ _ _ _ _ _ _ _ _ _ _ _ _ _ _ _ _ _ _ _ _ _ _ _ _ _ _ _ _ _ _ _ _ _ _ _ _ _ _ _ _ ?_ rfl rfl rfl rfl rfl rfl rfl rfl rfl rfl (by first | exact Nat.le_refl _ | exact Nat.le_succ _ | exact Nat.le_add_right _ _ | omega) rfl (by first | exact Nat.le_refl _ | exact Nat.le_succ _ | omega)); (first | with_reducible assumption | with_reducible apply kept_classifyOne | with_reducible apply Kept.ite | with_reducible apply Kept.foldl | with_reducible apply Kept.foldl_fst | with_reducible apply Kept.foldl_snd))

theorem kept_cardReceive {r₀ : State} (s : State) (p : Nat) (k : Nat) (company : Nat) (subtype : Nat) (info : List Byte) (ttl : Nat) (mac : BitVec 48) (h₀ : Kept r₀ s) : Kept r₀ (cardReceive s p k company subtype info ttl mac) := by
  unfold cardReceive
  try dsimp only
  repeat' first
    | with_reducible assumption
    | with_reducible apply kept_setLink
    | with_reducible apply kept_classify
    | with_reducible apply Kept.ite
    | (first | intro _ _ _ _ _ _ _ | intro _ _ _ _ _ _ | intro _ _ _ _ _ | intro _ _ _ _ | intro _ _ _)
    | ((with_reducible refine Kept.mk_ _ _ _ _ _ _ _ _ _ _ _ _ _ _ _ _ _ _ _ _ _ _ _ _ _ _ _ _ _ _ _ _ _ _ _ _ _ _ _ _ _ _ _ ?_ rfl rfl rfl rfl rfl rfl rfl rfl rfl rfl (by first | exact Nat.le_refl _ | exact Nat.le_succ _ | exact Nat.le_add_right _ _ | omega) rfl (by first | exact Nat.le_refl _ | exact Nat.le_succ _ | omega)); (first | with_reducible assumption | with_reducible apply kept_setLink | with_reducible apply kept_classify | with_reducible apply Kept.ite))

theorem kept_loseCard {r₀ : State} (s : State) (p : Nat) (k : Nat) (h₀ : Kept r₀ s) : Kept r₀ (loseCard s p k) := by
  unfold loseCard
  try dsimp only
  repeat' first
    | with_reducible assumption
    | with_reducible apply kept_setLink
    | with_reducible apply kept_silentTrigger
    | with_reducible apply Kept.ite
    | (first | intro _ _ _ _ _ _ _ | intro _ _ _ _ _ _ | intro _ _ _ _ _ | intro _ _ _ _ | intro _ _ _)
    | split
    | ((with_reducible refine Kept.mk_ _ _ _ _ _ _ _ _ _ _ _ _ _ _ _ _ _ _ _ _ _ _ _ _ _ _ _ _ _ _ _ _ _ _ _ _ _ _ _ _ _ _ _ ?_ rfl rfl rfl rfl rfl rfl rfl rfl rfl rfl (by first | exact Nat.le_refl _ | exact Nat.le_succ _ | exact Nat.le_add_right _ _ | omega) rfl (by first | exact Nat.le_refl _ | exact Nat.le_succ _ | omega)); (first | with_reducible assumption | with_reducible apply kept_setLink | with_reducible apply kept_silentTrigger | with_reducible apply Kept.ite | split))

theorem kept_loseHeld {r₀ : State} (s : State) (p : Nat) (h₀ : Kept r₀ s) : Kept r₀ (loseHeld s p) := by
  unfold loseHeld
  try dsimp only
  repeat' first
    | with_reducible assumption
    | with_reducible apply kept_setPort
    | with_reducible apply Kept.ite
    | (first | intro _ _ _ _ _ _ _ | intro _ _ _ _ _ _ | intro _ _ _ _ _ | intro _ _ _ _ | intro _ _ _)
    | ((with_reducible refine Kept.mk_ _ _ _ _ _ _ _ _ _ _ _ _ _ _ _ _ _ _ _ _ _ _ _ _ _ _ _ _ _ _ _ _ _ _ _ _ _ _ _ _ _ _ _ ?_ rfl rfl rfl rfl rfl rfl rfl rfl rfl rfl (by first | exact Nat.le_refl _ | exact Nat.le_succ _ | exact Nat.le_add_right _ _ | omega) rfl (by first | exact Nat.le_refl _ | exact Nat.le_succ _ | omega)); (first | with_reducible assumption | with_reducible apply kept_setPort | with_reducible apply Kept.ite))

theorem kept_dropLink {r₀ : State} (s : State) (p : Nat) (k : Nat) (h₀ : Kept r₀ s) : Kept r₀ (dropLink s p k) := by
  unfold dropLink
  try dsimp only
  repeat' first
    | with_reducible assumption
    | with_reducible apply kept_setLink
    | with_reducible apply kept_setTime
    | with_reducible apply kept_loseMaster
    | with_reducible apply kept_setPortState
    | with_reducible apply kept_classify
    | with_reducible apply kept_loseCard
    | with_reducible apply kept_loseHeld
    | with_reducible apply Kept.ite
    | (first | intro _ _ _ _ _ _ _ | intro _ _ _ _ _ _ | intro _ _ _ _ _ | intro _ _ _ _ | intro _ _ _)
    | ((with_reducible refine Kept.mk_ _ _ _ _ _ _ _ _ _ _ _ _ _ _ _ _ _ _ _ _ _ _ _ _ _ _ _ _ _ _ _ _ _ _ _ _ _ _ _ _ _ _ _ ?_ rfl rfl rfl rfl rfl rfl rfl rfl rfl rfl (by first | exact Nat.le_refl _ | exact Nat.le_succ _ | exact Nat.le_add_right _ _ | omega) rfl (by first | exact Nat.le_refl _ | exact Nat.le_succ _ | omega)); (first | with_reducible assumption | with_reducible apply kept_setLink | with_reducible apply kept_setTime | with_reducible apply kept_loseMaster | with_reducible apply kept_setPortState | with_reducible apply kept_classify | with_reducible apply kept_loseCard | with_reducible apply kept_loseHeld | with_reducible apply Kept.ite))
    | with_reducible exact rfl
    | exact rfl

theorem kept_loseLink {r₀ : State} (s : State) (p : Nat) (k : Nat) (cause : Nat) (h₀ : Kept r₀ s) : Kept r₀ (loseLink s p k cause) := by
  unfold loseLink
  try dsimp only
  repeat' first
    | with_reducible assumption
    | with_reducible apply kept_setPort
    | with_reducible apply kept_raiseChip
    | with_reducible apply kept_dropLink
    | with_reducible apply Kept.ite
    | (first | intro _ _ _ _ _ _ _ | intro _ _ _ _ _ _ | intro _ _ _ _ _ | intro _ _ _ _ | intro _ _ _)
    | ((with_reducible refine Kept.mk_ _ _ _ _ _ _ _ _ _ _ _ _ _ _ _ _ _ _ _ _ _ _ _ _ _ _ _ _ _ _ _ _ _ _ _ _ _ _ _ _ _ _ _ ?_ rfl rfl rfl rfl rfl rfl rfl rfl rfl rfl (by first | exact Nat.le_refl _ | exact Nat.le_succ _ | exact Nat.le_add_right _ _ | omega) rfl (by first | exact Nat.le_refl _ | exact Nat.le_succ _ | omega)); (first | with_reducible assumption | with_reducible apply kept_setPort | with_reducible apply kept_raiseChip | with_reducible apply kept_dropLink | with_reducible apply Kept.ite))

theorem kept_bringup {r₀ : State} (s : State) (p : Nat) (k : Nat) (outcome : StepOutcome) (h₀ : Kept r₀ s) : Kept r₀ (bringup s p k outcome) := by
  unfold bringup
  try dsimp only
  repeat' first
    | with_reducible assumption
    | with_reducible apply kept_setLink
    | with_reducible apply kept_raiseChip
    | with_reducible apply kept_setPortState
    | with_reducible apply kept_sendCard
    | with_reducible apply kept_classify
    | with_reducible apply Kept.ite
    | (first | intro _ _ _ _ _ _ _ | intro _ _ _ _ _ _ | intro _ _ _ _ _ | intro _ _ _ _ | intro _ _ _)
    | split
    | ((with_reducible refine Kept.mk_ _ _ _ _ _ _ _ _ _ _ _ _ _ _ _ _ _ _ _ _ _ _ _ _ _ _ _ _ _ _ _ _ _ _ _ _ _ _ _ _ _ _ _ ?_ rfl rfl rfl rfl rfl rfl rfl rfl rfl rfl (by first | exact Nat.le_refl _ | exact Nat.le_succ _ | exact Nat.le_add_right _ _ | omega) rfl (by first | exact Nat.le_refl _ | exact Nat.le_succ _ | omega)); (first | with_reducible assumption | with_reducible apply kept_setLink | with_reducible apply kept_raiseChip | with_reducible apply kept_setPortState | with_reducible apply kept_sendCard | with_reducible apply kept_classify | with_reducible apply Kept.ite | split))

theorem kept_fecWindow {r₀ : State} (s : State) (p : Nat) (k : Nat) (corr : Nat) (uncorr : Nat) (h₀ : Kept r₀ s) : Kept r₀ (fecWindow s p k corr uncorr) := by
  unfold fecWindow
  try dsimp only
  repeat' first
    | with_reducible assumption
    | with_reducible apply kept_setPort
    | with_reducible apply kept_loseLink
    | with_reducible apply Kept.ite
    | (first | intro _ _ _ _ _ _ _ | intro _ _ _ _ _ _ | intro _ _ _ _ _ | intro _ _ _ _ | intro _ _ _)
    | ((with_reducible refine Kept.mk_ _ _ _ _ _ _ _ _ _ _ _ _ _ _ _ _ _ _ _ _ _ _ _ _ _ _ _ _ _ _ _ _ _ _ _ _ _ _ _ _ _ _ _ ?_ rfl rfl rfl rfl rfl rfl rfl rfl rfl rfl (by first | exact Nat.le_refl _ | exact Nat.le_succ _ | exact Nat.le_add_right _ _ | omega) rfl (by first | exact Nat.le_refl _ | exact Nat.le_succ _ | omega)); (first | with_reducible assumption | with_reducible apply kept_setPort | with_reducible apply kept_loseLink | with_reducible apply Kept.ite))

theorem kept_fencePort {r₀ : State} (s : State) (p : Nat) (h₀ : Kept r₀ s) : Kept r₀ (fencePort s p) := by
  unfold fencePort
  try dsimp only
  repeat' first
    | with_reducible assumption
    | with_reducible apply kept_setPort
    | with_reducible apply kept_connFail
    | with_reducible apply kept_setPortState
    | with_reducible apply kept_dropLink
    | with_reducible apply Kept.ite
    | with_reducible apply Kept.ite_fst
    | with_reducible apply Kept.foldl
    | with_reducible apply Kept.foldl_fst
    | with_reducible apply Kept.foldl_snd
    | (first | intro _ _ _ _ _ _ _ | intro _ _ _ _ _ _ | intro _ _ _ _ _ | intro _ _ _ _ | intro _ _ _)
    | ((with_reducible refine Kept.mk_ _ _ _ _ _ _ _ _ _ _ _ _ _ _ _ _ _ _ _ _ _ _ _ _ _ _ _ _ _ _ _ _ _ _ _ _ _ _ _ _ _ _ _ ?_ rfl rfl rfl rfl rfl rfl rfl rfl rfl rfl (by first | exact Nat.le_refl _ | exact Nat.le_succ _ | exact Nat.le_add_right _ _ | omega) rfl (by first | exact Nat.le_refl _ | exact Nat.le_succ _ | omega)); (first | with_reducible assumption | with_reducible apply kept_setPort | with_reducible apply kept_connFail | with_reducible apply kept_setPortState | with_reducible apply kept_dropLink | with_reducible apply Kept.ite | with_reducible apply Kept.ite_fst | with_reducible apply Kept.foldl | with_reducible apply Kept.foldl_fst | with_reducible apply Kept.foldl_snd))

theorem kept_serdesFails {r₀ : State} (s : State) (p : Nat) (lanes : Nat) (h₀ : Kept r₀ s) : Kept r₀ (serdesFails s p lanes) := by
  unfold serdesFails
  try dsimp only
  repeat' first
    | with_reducible assumption
    | with_reducible apply kept_raiseChip
    | with_reducible apply kept_fencePort
    | with_reducible apply Kept.ite
    | (first | intro _ _ _ _ _ _ _ | intro _ _ _ _ _ _ | intro _ _ _ _ _ | intro _ _ _ _ | intro _ _ _)
    | ((with_reducible refine Kept.mk_ _ _ _ _ _ _ _ _ _ _ _ _ _ _ _ _ _ _ _ _ _ _ _ _ _ _ _ _ _ _ _ _ _ _ _ _ _ _ _ _ _ _ _ ?_ rfl rfl rfl rfl rfl rfl rfl rfl rfl rfl (by first | exact Nat.le_refl _ | exact Nat.le_succ _ | exact Nat.le_add_right _ _ | omega) rfl (by first | exact Nat.le_refl _ | exact Nat.le_succ _ | omega)); (first | with_reducible assumption | with_reducible apply kept_raiseChip | with_reducible apply kept_fencePort | with_reducible apply Kept.ite))

/-- A fitted port has a number below 8. -/
theorem fitted_lt {s : State} {p : Nat} (h : ¬ (!fittedPort s p) = true) : p < 8 := by
  have h1 : s.fitted.portSet.toNat.testBit p = true := by simpa [fittedPort, bit] using h
  rcases Nat.lt_or_ge p 8 with hp | hp
  · exact hp
  · have h2 : s.fitted.portSet.toNat < 2 ^ p := Nat.lt_of_lt_of_le s.fitted.portSet.isLt (Nat.pow_le_pow_right (by omega) hp)
    rw [Nat.testBit_lt_two_pow h2] at h1
    exact Bool.noConfusion h1

/-- The registers of a port's mode and plan are none that a latch speaks of. -/
theorem latch_port {p : Nat} (hp : p < 8) (o : Nat) (ho : o = 0x100 ∨ o = 0x104) : latchReg (mgBase + o + 8 * p) = false := by
  unfold latchReg
  apply decide_eq_false
  simp only [mgBase, scBase]
  omega

theorem kept_modeWrite {r₀ : State} (s : State) (p : Nat) (v : Word) (h₀ : Kept r₀ s) : Kept r₀ (modeWrite s p v) := by
  unfold modeWrite
  split
  · exact h₀
  · rename_i hp
    have hl := latch_port (fitted_lt hp) 0x100 (.inl rfl)
    dsimp only
    apply Kept.ite h₀
    have k1 : ∀ t, Kept r₀ t → Kept r₀ ((List.range 4).foldl (fun t k => loseLink t p k 4) t) :=
      fun t h => Kept.foldl _ (fun t k h => kept_loseLink _ _ _ _ h) _ _ h
    have k3 : ∀ t, Kept r₀ t → Kept r₀ ((List.range 4).foldl (fun t k => setLink t p k { linkOf t p k with step := 0, fails := 0, since := none }) t) :=
      fun t h => Kept.foldl _ (fun t k h => kept_setLink _ _ _ _ h) _ _ h
    have k (w : Word) := k3 _ (kept_regSet _ w hl (k1 _ h₀))
    exact Kept.ite (k _) (kept_setPortState _ _ _ _ (k _))

theorem kept_planWrite {r₀ : State} (s : State) (p : Nat) (v : Word) (h₀ : Kept r₀ s) : Kept r₀ (planWrite s p v) := by
  unfold planWrite
  split
  · exact h₀
  · rename_i hp
    have hl := latch_port (fitted_lt hp) 0x104 (.inr rfl)
    dsimp only
    have k2 : ∀ c [Decidable c] t, Kept r₀ t → Kept r₀ (if c then (List.range 4).foldl (fun t k => dropLink t p k) t else t) :=
      fun c _ t h => Kept.ite (Kept.foldl _ (fun t k h => kept_dropLink _ _ _ h) _ _ h) h

    apply Kept.ite
    · exact kept_classify _ _ (k2 _ _ (kept_regSet _ _ hl h₀))
    · apply Kept.ite
      · exact k2 _ _ (kept_regSet _ _ hl h₀)
      · exact kept_setPortState _ _ _ _ (k2 _ _ (kept_regSet _ _ hl h₀))

theorem kept_neighbor {r₀ : State} (s : State) (p : Nat) (k : Nat) (f : NetFrame) (h₀ : Kept r₀ s) : Kept r₀ (neighbor s p k f) := by
  unfold neighbor
  try dsimp only
  repeat' first
    | with_reducible assumption
    | with_reducible apply kept_send
    | with_reducible apply kept_countDrop
    | with_reducible apply Kept.ite
    | (first | intro _ _ _ _ _ _ _ | intro _ _ _ _ _ _ | intro _ _ _ _ _ | intro _ _ _ _ | intro _ _ _)
    | split
    | ((with_reducible refine Kept.mk_ _ _ _ _ _ _ _ _ _ _ _ _ _ _ _ _ _ _ _ _ _ _ _ _ _ _ _ _ _ _ _ _ _ _ _ _ _ _ _ _ _ _ _ ?_ rfl rfl rfl rfl rfl rfl rfl rfl rfl rfl (by first | exact Nat.le_refl _ | exact Nat.le_succ _ | exact Nat.le_add_right _ _ | omega) rfl (by first | exact Nat.le_refl _ | exact Nat.le_succ _ | omega)); (first | with_reducible assumption | with_reducible apply kept_send | with_reducible apply kept_countDrop | with_reducible apply Kept.ite | split))

theorem kept_prefixWrite {r₀ : State} (s : State) (high : Bool) (v : Word) (h₀ : Kept r₀ s) : Kept r₀ (prefixWrite s high v) := by
  unfold prefixWrite
  try dsimp only
  repeat' first
    | with_reducible assumption
    | with_reducible apply kept_regSet
    | with_reducible apply kept_connFail
    | with_reducible apply Kept.ite
    | with_reducible apply Kept.ite_fst
    | with_reducible apply Kept.foldl
    | with_reducible apply Kept.foldl_fst
    | with_reducible apply Kept.foldl_snd
    | (first | intro _ _ _ _ _ _ _ | intro _ _ _ _ _ _ | intro _ _ _ _ _ | intro _ _ _ _ | intro _ _ _)
    | ((with_reducible refine Kept.mk_ _ _ _ _ _ _ _ _ _ _ _ _ _ _ _ _ _ _ _ _ _ _ _ _ _ _ _ _ _ _ _ _ _ _ _ _ _ _ _ _ _ _ _ ?_ rfl rfl rfl rfl rfl rfl rfl rfl rfl rfl (by first | exact Nat.le_refl _ | exact Nat.le_succ _ | exact Nat.le_add_right _ _ | omega) rfl (by first | exact Nat.le_refl _ | exact Nat.le_succ _ | omega)); (first | with_reducible assumption | with_reducible apply kept_regSet | with_reducible apply kept_connFail | with_reducible apply Kept.ite | with_reducible apply Kept.ite_fst | with_reducible apply Kept.foldl | with_reducible apply Kept.foldl_fst | with_reducible apply Kept.foldl_snd))
    | split
    | exact rfl
    | (unfold latchReg; apply decide_eq_false; simp only [mgBase, fcBase, ttBase, scBase, pwBase, mwBase, qyBase, ptBase, fcSevAddr]; omega)

theorem kept_setPfc {r₀ : State} (s : State) (p : Nat) (n : Nat) (x : Pfc) (h₀ : Kept r₀ s) : Kept r₀ (setPfc s p n x) := by
  unfold setPfc
  try dsimp only
  repeat' first
    | with_reducible assumption
    | with_reducible apply kept_setPort
    | with_reducible apply Kept.ite
    | (first | intro _ _ _ _ _ _ _ | intro _ _ _ _ _ _ | intro _ _ _ _ _ | intro _ _ _ _ | intro _ _ _)
    | ((with_reducible refine Kept.mk_ _ _ _ _ _ _ _ _ _ _ _ _ _ _ _ _ _ _ _ _ _ _ _ _ _ _ _ _ _ _ _ _ _ _ _ _ _ _ _ _ _ _ _ ?_ rfl rfl rfl rfl rfl rfl rfl rfl rfl rfl (by first | exact Nat.le_refl _ | exact Nat.le_succ _ | exact Nat.le_add_right _ _ | omega) rfl (by first | exact Nat.le_refl _ | exact Nat.le_succ _ | omega)); (first | with_reducible assumption | with_reducible apply kept_setPort | with_reducible apply Kept.ite))

theorem kept_pfcFrame {r₀ : State} (s : State) (p : Nat) (n : Nat) (xoff : Bool) (h₀ : Kept r₀ s) : Kept r₀ (pfcFrame s p n xoff) := by
  unfold pfcFrame
  try dsimp only
  repeat' first
    | with_reducible assumption
    | with_reducible apply kept_releaseHeld
    | with_reducible apply kept_countDrop
    | with_reducible apply kept_setPfc
    | with_reducible apply Kept.ite
    | (first | intro _ _ _ _ _ _ _ | intro _ _ _ _ _ _ | intro _ _ _ _ _ | intro _ _ _ _ | intro _ _ _)
    | split
    | ((with_reducible refine Kept.mk_ _ _ _ _ _ _ _ _ _ _ _ _ _ _ _ _ _ _ _ _ _ _ _ _ _ _ _ _ _ _ _ _ _ _ _ _ _ _ _ _ _ _ _ ?_ rfl rfl rfl rfl rfl rfl rfl rfl rfl rfl (by first | exact Nat.le_refl _ | exact Nat.le_succ _ | exact Nat.le_add_right _ _ | omega) rfl (by first | exact Nat.le_refl _ | exact Nat.le_succ _ | omega)); (first | with_reducible assumption | with_reducible apply kept_releaseHeld | with_reducible apply kept_countDrop | with_reducible apply kept_setPfc | with_reducible apply Kept.ite | split))

theorem kept_pfcWatchdog {r₀ : State} (s : State) (p : Nat) (n : Nat) (h₀ : Kept r₀ s) : Kept r₀ (pfcWatchdog s p n) := by
  unfold pfcWatchdog
  try dsimp only
  repeat' first
    | with_reducible assumption
    | with_reducible apply kept_raiseChip
    | with_reducible apply kept_releaseHeld
    | with_reducible apply kept_setPfc
    | with_reducible apply Kept.ite
    | (first | intro _ _ _ _ _ _ _ | intro _ _ _ _ _ _ | intro _ _ _ _ _ | intro _ _ _ _ | intro _ _ _)
    | split
    | ((with_reducible refine Kept.mk_ _ _ _ _ _ _ _ _ _ _ _ _ _ _ _ _ _ _ _ _ _ _ _ _ _ _ _ _ _ _ _ _ _ _ _ _ _ _ _ _ _ _ _ ?_ rfl rfl rfl rfl rfl rfl rfl rfl rfl rfl (by first | exact Nat.le_refl _ | exact Nat.le_succ _ | exact Nat.le_add_right _ _ | omega) rfl (by first | exact Nat.le_refl _ | exact Nat.le_succ _ | omega)); (first | with_reducible assumption | with_reducible apply kept_raiseChip | with_reducible apply kept_releaseHeld | with_reducible apply kept_setPfc | with_reducible apply Kept.ite | split))

theorem kept_pfcRearm {r₀ : State} (s : State) (p : Nat) (n : Nat) (h₀ : Kept r₀ s) : Kept r₀ (pfcRearm s p n) := by
  unfold pfcRearm
  try dsimp only
  repeat' first
    | with_reducible assumption
    | with_reducible apply kept_setPfc
    | with_reducible apply Kept.ite
    | (first | intro _ _ _ _ _ _ _ | intro _ _ _ _ _ _ | intro _ _ _ _ _ | intro _ _ _ _ | intro _ _ _)
    | ((with_reducible refine Kept.mk_ _ _ _ _ _ _ _ _ _ _ _ _ _ _ _ _ _ _ _ _ _ _ _ _ _ _ _ _ _ _ _ _ _ _ _ _ _ _ _ _ _ _ _ ?_ rfl rfl rfl rfl rfl rfl rfl rfl rfl rfl (by first | exact Nat.le_refl _ | exact Nat.le_succ _ | exact Nat.le_add_right _ _ | omega) rfl (by first | exact Nat.le_refl _ | exact Nat.le_succ _ | omega)); (first | with_reducible assumption | with_reducible apply kept_setPfc | with_reducible apply Kept.ite))

theorem kept_ackRequests {r₀ : State} (s : State) (n : Nat) (k : Nat) (h₀ : Kept r₀ s) : Kept r₀ (ackRequests s n k) := by
  unfold ackRequests
  try dsimp only
  repeat' first
    | with_reducible assumption
    | with_reducible apply kept_setConn
    | with_reducible apply kept_setReqs
    | with_reducible apply Kept.ite
    | (first | intro _ _ _ _ _ _ _ | intro _ _ _ _ _ _ | intro _ _ _ _ _ | intro _ _ _ _ | intro _ _ _)
    | ((with_reducible refine Kept.mk_ _ _ _ _ _ _ _ _ _ _ _ _ _ _ _ _ _ _ _ _ _ _ _ _ _ _ _ _ _ _ _ _ _ _ _ _ _ _ _ _ _ _ _ ?_ rfl rfl rfl rfl rfl rfl rfl rfl rfl rfl (by first | exact Nat.le_refl _ | exact Nat.le_succ _ | exact Nat.le_add_right _ _ | omega) rfl (by first | exact Nat.le_refl _ | exact Nat.le_succ _ | omega)); (first | with_reducible assumption | with_reducible apply kept_setConn | with_reducible apply kept_setReqs | with_reducible apply Kept.ite))

theorem kept_resend {r₀ : State} (s : State) (n : Nat) (h₀ : Kept r₀ s) : Kept r₀ (resend s n) := by
  unfold resend
  try dsimp only
  repeat' first
    | with_reducible assumption
    | with_reducible apply kept_setConn
    | with_reducible apply kept_sendOn
    | with_reducible apply Kept.ite
    | (first | intro _ _ _ _ _ _ _ | intro _ _ _ _ _ _ | intro _ _ _ _ _ | intro _ _ _ _ | intro _ _ _)
    | split
    | ((with_reducible refine Kept.mk_ _ _ _ _ _ _ _ _ _ _ _ _ _ _ _ _ _ _ _ _ _ _ _ _ _ _ _ _ _ _ _ _ _ _ _ _ _ _ _ _ _ _ _ ?_ rfl rfl rfl rfl rfl rfl rfl rfl rfl rfl (by first | exact Nat.le_refl _ | exact Nat.le_succ _ | exact Nat.le_add_right _ _ | omega) rfl (by first | exact Nat.le_refl _ | exact Nat.le_succ _ | omega)); (first | with_reducible assumption | with_reducible apply kept_setConn | with_reducible apply kept_sendOn | with_reducible apply Kept.ite | split))

theorem kept_retry {r₀ : State} (s : State) (n : Nat) (wait : Option Nat) (h₀ : Kept r₀ s) : Kept r₀ (retry s n wait) := by
  unfold retry
  try dsimp only
  repeat' first
    | with_reducible assumption
    | with_reducible apply kept_setConn
    | with_reducible apply kept_connTimeLimit
    | with_reducible apply kept_resend
    | with_reducible apply Kept.ite
    | (first | intro _ _ _ _ _ _ _ | intro _ _ _ _ _ _ | intro _ _ _ _ _ | intro _ _ _ _ | intro _ _ _)
    | ((with_reducible refine Kept.mk_ _ _ _ _ _ _ _ _ _ _ _ _ _ _ _ _ _ _ _ _ _ _ _ _ _ _ _ _ _ _ _ _ _ _ _ _ _ _ _ _ _ _ _ ?_ rfl rfl rfl rfl rfl rfl rfl rfl rfl rfl (by first | exact Nat.le_refl _ | exact Nat.le_succ _ | exact Nat.le_add_right _ _ | omega) rfl (by first | exact Nat.le_refl _ | exact Nat.le_succ _ | omega)); (first | with_reducible assumption | with_reducible apply kept_setConn | with_reducible apply kept_connTimeLimit | with_reducible apply kept_resend | with_reducible apply Kept.ite))

theorem kept_nakReceive {r₀ : State} (s : State) (n : Nat) (kind : NakKind) (acked : Nat) (rnrNs : Nat) (h₀ : Kept r₀ s) : Kept r₀ (nakReceive s n kind acked rnrNs) := by
  unfold nakReceive
  try dsimp only
  repeat' first
    | with_reducible assumption
    | with_reducible apply kept_connFail
    | with_reducible apply kept_ackRequests
    | with_reducible apply kept_retry
    | with_reducible apply Kept.ite
    | (first | intro _ _ _ _ _ _ _ | intro _ _ _ _ _ _ | intro _ _ _ _ _ | intro _ _ _ _ | intro _ _ _)
    | split
    | ((with_reducible refine Kept.mk_ _ _ _ _ _ _ _ _ _ _ _ _ _ _ _ _ _ _ _ _ _ _ _ _ _ _ _ _ _ _ _ _ _ _ _ _ _ _ _ _ _ _ _ ?_ rfl rfl rfl rfl rfl rfl rfl rfl rfl rfl (by first | exact Nat.le_refl _ | exact Nat.le_succ _ | exact Nat.le_add_right _ _ | omega) rfl (by first | exact Nat.le_refl _ | exact Nat.le_succ _ | omega)); (first | with_reducible assumption | with_reducible apply kept_connFail | with_reducible apply kept_ackRequests | with_reducible apply kept_retry | with_reducible apply Kept.ite | split))

theorem kept_retransmit {r₀ : State} (s : State) (n : Nat) (acked : Nat) (h₀ : Kept r₀ s) : Kept r₀ (retransmit s n acked) := by
  unfold retransmit
  try dsimp only
  repeat' first
    | with_reducible assumption
    | with_reducible apply kept_ackRequests
    | with_reducible apply kept_retry
    | with_reducible apply Kept.ite
    | (first | intro _ _ _ _ _ _ _ | intro _ _ _ _ _ _ | intro _ _ _ _ _ | intro _ _ _ _ | intro _ _ _)
    | ((with_reducible refine Kept.mk_ _ _ _ _ _ _ _ _ _ _ _ _ _ _ _ _ _ _ _ _ _ _ _ _ _ _ _ _ _ _ _ _ _ _ _ _ _ _ _ _ _ _ _ ?_ rfl rfl rfl rfl rfl rfl rfl rfl rfl rfl (by first | exact Nat.le_refl _ | exact Nat.le_succ _ | exact Nat.le_add_right _ _ | omega) rfl (by first | exact Nat.le_refl _ | exact Nat.le_succ _ | omega)); (first | with_reducible assumption | with_reducible apply kept_ackRequests | with_reducible apply kept_retry | with_reducible apply Kept.ite))

theorem kept_rnrRetry {r₀ : State} (s : State) (n : Nat) (h₀ : Kept r₀ s) : Kept r₀ (rnrRetry s n) := by
  unfold rnrRetry
  try dsimp only
  repeat' first
    | with_reducible assumption
    | with_reducible apply kept_resend
    | with_reducible apply Kept.ite
    | (first | intro _ _ _ _ _ _ _ | intro _ _ _ _ _ _ | intro _ _ _ _ _ | intro _ _ _ _ | intro _ _ _)
    | split
    | ((with_reducible refine Kept.mk_ _ _ _ _ _ _ _ _ _ _ _ _ _ _ _ _ _ _ _ _ _ _ _ _ _ _ _ _ _ _ _ _ _ _ _ _ _ _ _ _ _ _ _ ?_ rfl rfl rfl rfl rfl rfl rfl rfl rfl rfl (by first | exact Nat.le_refl _ | exact Nat.le_succ _ | exact Nat.le_add_right _ _ | omega) rfl (by first | exact Nat.le_refl _ | exact Nat.le_succ _ | omega)); (first | with_reducible assumption | with_reducible apply kept_resend | with_reducible apply Kept.ite | split))

theorem kept_cnpReceive {r₀ : State} (s : State) (n : Nat) (sched : Bool) (h₀ : Kept r₀ s) : Kept r₀ (cnpReceive s n sched) := by
  unfold cnpReceive
  try dsimp only
  repeat' first
    | with_reducible assumption
    | with_reducible apply kept_setConn
    | with_reducible apply Kept.ite
    | (first | intro _ _ _ _ _ _ _ | intro _ _ _ _ _ _ | intro _ _ _ _ _ | intro _ _ _ _ | intro _ _ _)
    | split
    | ((with_reducible refine Kept.mk_ _ _ _ _ _ _ _ _ _ _ _ _ _ _ _ _ _ _ _ _ _ _ _ _ _ _ _ _ _ _ _ _ _ _ _ _ _ _ _ _ _ _ _ ?_ rfl rfl rfl rfl rfl rfl rfl rfl rfl rfl (by first | exact Nat.le_refl _ | exact Nat.le_succ _ | exact Nat.le_add_right _ _ | omega) rfl (by first | exact Nat.le_refl _ | exact Nat.le_succ _ | omega)); (first | with_reducible assumption | with_reducible apply kept_setConn | with_reducible apply Kept.ite | split))

theorem kept_rateIncrease {r₀ : State} (s : State) (n : Nat) (h₀ : Kept r₀ s) : Kept r₀ (rateIncrease s n) := by
  unfold rateIncrease
  try dsimp only
  repeat' first
    | with_reducible assumption
    | with_reducible apply kept_setConn
    | with_reducible apply Kept.ite
    | (first | intro _ _ _ _ _ _ _ | intro _ _ _ _ _ _ | intro _ _ _ _ _ | intro _ _ _ _ | intro _ _ _)
    | ((with_reducible refine Kept.mk_ _ _ _ _ _ _ _ _ _ _ _ _ _ _ _ _ _ _ _ _ _ _ _ _ _ _ _ _ _ _ _ _ _ _ _ _ _ _ _ _ _ _ _ ?_ rfl rfl rfl rfl rfl rfl rfl rfl rfl rfl (by first | exact Nat.le_refl _ | exact Nat.le_succ _ | exact Nat.le_add_right _ _ | omega) rfl (by first | exact Nat.le_refl _ | exact Nat.le_succ _ | omega)); (first | with_reducible assumption | with_reducible apply kept_setConn | with_reducible apply Kept.ite))

theorem kept_sendTransit {r₀ : State} (s : State) (p : Nat) (t : Transit) (h₀ : Kept r₀ s) : Kept r₀ (sendTransit s p t) := by
  unfold sendTransit
  try dsimp only
  repeat' first
    | with_reducible assumption
    | with_reducible apply kept_sendFrame
    | with_reducible apply Kept.ite
    | (first | intro _ _ _ _ _ _ _ | intro _ _ _ _ _ _ | intro _ _ _ _ _ | intro _ _ _ _ | intro _ _ _)
    | ((with_reducible refine Kept.mk_ _ _ _ _ _ _ _ _ _ _ _ _ _ _ _ _ _ _ _ _ _ _ _ _ _ _ _ _ _ _ _ _ _ _ _ _ _ _ _ _ _ _ _ ?_ rfl rfl rfl rfl rfl rfl rfl rfl rfl rfl (by first | exact Nat.le_refl _ | exact Nat.le_succ _ | exact Nat.le_add_right _ _ | omega) rfl (by first | exact Nat.le_refl _ | exact Nat.le_succ _ | omega)); (first | with_reducible assumption | with_reducible apply kept_sendFrame | with_reducible apply Kept.ite))

theorem kept_flushTransit {r₀ : State} (s : State) (p : Nat) (h₀ : Kept r₀ s) : Kept r₀ (flushTransit s p) := by
  unfold flushTransit
  try dsimp only
  repeat' first
    | with_reducible assumption
    | with_reducible apply kept_setPort
    | with_reducible apply kept_sendTransit
    | with_reducible apply Kept.ite
    | with_reducible apply Kept.foldl
    | with_reducible apply Kept.foldl_fst
    | with_reducible apply Kept.foldl_snd
    | (first | intro _ _ _ _ _ _ _ | intro _ _ _ _ _ _ | intro _ _ _ _ _ | intro _ _ _ _ | intro _ _ _)
    | ((with_reducible refine Kept.mk_ _ _ _ _ _ _ _ _ _ _ _ _ _ _ _ _ _ _ _ _ _ _ _ _ _ _ _ _ _ _ _ _ _ _ _ _ _ _ _ _ _ _ _ ?_ rfl rfl rfl rfl rfl rfl rfl rfl rfl rfl (by first | exact Nat.le_refl _ | exact Nat.le_succ _ | exact Nat.le_add_right _ _ | omega) rfl (by first | exact Nat.le_refl _ | exact Nat.le_succ _ | omega)); (first | with_reducible assumption | with_reducible apply kept_setPort | with_reducible apply kept_sendTransit | with_reducible apply Kept.ite | with_reducible apply Kept.foldl | with_reducible apply Kept.foldl_fst | with_reducible apply Kept.foldl_snd))

theorem kept_transitFrame {r₀ : State} (s : State) (p : Nat) (f : TransitFrame) (h₀ : Kept r₀ s) : Kept r₀ (transitFrame s p f) := by
  unfold transitFrame
  try dsimp only
  repeat' first
    | with_reducible assumption
    | with_reducible apply kept_setPort
    | with_reducible apply kept_countDrop
    | with_reducible apply kept_flushTransit
    | with_reducible apply Kept.ite
    | (first | intro _ _ _ _ _ _ _ | intro _ _ _ _ _ _ | intro _ _ _ _ _ | intro _ _ _ _ | intro _ _ _)
    | split
    | ((with_reducible refine Kept.mk_ _ _ _ _ _ _ _ _ _ _ _ _ _ _ _ _ _ _ _ _ _ _ _ _ _ _ _ _ _ _ _ _ _ _ _ _ _ _ _ _ _ _ _ ?_ rfl rfl rfl rfl rfl rfl rfl rfl rfl rfl (by first | exact Nat.le_refl _ | exact Nat.le_succ _ | exact Nat.le_add_right _ _ | omega) rfl (by first | exact Nat.le_refl _ | exact Nat.le_succ _ | omega)); (first | with_reducible assumption | with_reducible apply kept_setPort | with_reducible apply kept_countDrop | with_reducible apply kept_flushTransit | with_reducible apply Kept.ite | split))

end Sys2Proof.Laws
end

