-- ==== Sys2Proof/Laws/KeptFaults.lean ====
section
/-! SUPPORT. What each operation of Machine/Faults.lean keeps. -/

namespace Sys2Proof.Laws

set_option linter.all false

open Sys2Proof.Machine Sys2Proof.Safety

theorem kept_latchPending {r₀ : State} (s : State) (b : Nat) (h₀ : Kept r₀ s) : Kept r₀ (latchPending s b) := by
  unfold latchPending
  try dsimp only
  repeat' first
    | with_reducible assumption
    | with_reducible apply kept_latchEnd
    | with_reducible apply Kept.ite
    | (first | intro _ _ _ _ _ _ _ | intro _ _ _ _ _ _ | intro _ _ _ _ _ | intro _ _ _ _ | intro _ _ _)
    | split
    | ((with_reducible refine Kept.mk_ _ _ _ _ _ _ _ _ _ _ _ _ _ _ _ _ _ _ _ _ _ _ _ _ _ _ _ _ _ _ _ _ _ _ _ _ _ _ _ _ _ _ _ ?_ rfl rfl rfl rfl rfl rfl rfl rfl rfl rfl (by first | exact Nat.le_refl _ | exact Nat.le_succ _ | exact Nat.le_add_right _ _ | omega) rfl (by first | exact Nat.le_refl _ | exact Nat.le_succ _ | omega)); (first | with_reducible assumption | with_reducible apply kept_latchEnd | with_reducible apply Kept.ite | split))

theorem kept_setGang {r₀ : State} (s : State) (d : Nat) (w : Word) (h₀ : Kept r₀ s) : Kept r₀ (setGang s d w) := by
  unfold setGang
  try dsimp only
  repeat' first
    | with_reducible assumption
    | with_reducible apply kept_setDeck
    | with_reducible apply Kept.ite
    | (first | intro _ _ _ _ _ _ _ | intro _ _ _ _ _ _ | intro _ _ _ _ _ | intro _ _ _ _ | intro _ _ _)
    | ((with_reducible refine Kept.mk_ _ _ _ _ _ _ _ _ _ _ _ _ _ _ _ _ _ _ _ _ _ _ _ _ _ _ _ _ _ _ _ _ _ _ _ _ _ _ _ _ _ _ _ ?_ rfl rfl rfl rfl rfl rfl rfl rfl rfl rfl (by first | exact Nat.le_refl _ | exact Nat.le_succ _ | exact Nat.le_add_right _ _ | omega) rfl (by first | exact Nat.le_refl _ | exact Nat.le_succ _ | omega)); (first | with_reducible assumption | with_reducible apply kept_setDeck | with_reducible apply Kept.ite))

theorem kept_refitGang {r₀ : State} (s : State) (g : Nat) (h₀ : Kept r₀ s) : Kept r₀ (refitGang s g) := by
  unfold refitGang
  try dsimp only
  repeat' first
    | with_reducible assumption
    | with_reducible apply kept_haltBerth
    | with_reducible apply kept_setGang
    | with_reducible apply Kept.ite
    | with_reducible apply Kept.foldl
    | with_reducible apply Kept.foldl_fst
    | with_reducible apply Kept.foldl_snd
    | (first | intro _ _ _ _ _ _ _ | intro _ _ _ _ _ _ | intro _ _ _ _ _ | intro _ _ _ _ | intro _ _ _)
    | split
    | ((with_reducible refine Kept.mk_ _ _ _ _ _ _ _ _ _ _ _ _ _ _ _ _ _ _ _ _ _ _ _ _ _ _ _ _ _ _ _ _ _ _ _ _ _ _ _ _ _ _ _ ?_ rfl rfl rfl rfl rfl rfl rfl rfl rfl rfl (by first | exact Nat.le_refl _ | exact Nat.le_succ _ | exact Nat.le_add_right _ _ | omega) rfl (by first | exact Nat.le_refl _ | exact Nat.le_succ _ | omega)); (first | with_reducible assumption | with_reducible apply kept_haltBerth | with_reducible apply kept_setGang | with_reducible apply Kept.ite | with_reducible apply Kept.foldl | with_reducible apply Kept.foldl_fst | with_reducible apply Kept.foldl_snd | split))

theorem kept_refitGangs {r₀ : State} (s : State) (h₀ : Kept r₀ s) : Kept r₀ (refitGangs s) := by
  unfold refitGangs
  try dsimp only
  repeat' first
    | with_reducible assumption
    | with_reducible apply kept_refitGang
    | with_reducible apply Kept.ite
    | with_reducible apply Kept.foldl
    | with_reducible apply Kept.foldl_fst
    | with_reducible apply Kept.foldl_snd
    | (first | intro _ _ _ _ _ _ _ | intro _ _ _ _ _ _ | intro _ _ _ _ _ | intro _ _ _ _ | intro _ _ _)
    | ((with_reducible refine Kept.mk_ _ _ _ _ _ _ _ _ _ _ _ _ _ _ _ _ _ _ _ _ _ _ _ _ _ _ _ _ _ _ _ _ _ _ _ _ _ _ _ _ _ _ _ ?_ rfl rfl rfl rfl rfl rfl rfl rfl rfl rfl (by first | exact Nat.le_refl _ | exact Nat.le_succ _ | exact Nat.le_add_right _ _ | omega) rfl (by first | exact Nat.le_refl _ | exact Nat.le_succ _ | omega)); (first | with_reducible assumption | with_reducible apply kept_refitGang | with_reducible apply Kept.ite | with_reducible apply Kept.foldl | with_reducible apply Kept.foldl_fst | with_reducible apply Kept.foldl_snd))

theorem kept_maskDeck {r₀ : State} (s : State) (d : Nat) (h₀ : Kept r₀ s) : Kept r₀ (maskDeck s d) := by
  unfold maskDeck
  try dsimp only
  repeat' first
    | with_reducible assumption
    | with_reducible apply kept_setDeck
    | with_reducible apply kept_issueAll
    | with_reducible apply kept_maskTrk
    | with_reducible apply kept_setGang
    | with_reducible apply Kept.ite
    | (first | intro _ _ _ _ _ _ _ | intro _ _ _ _ _ _ | intro _ _ _ _ _ | intro _ _ _ _ | intro _ _ _)
    | ((with_reducible refine Kept.mk_ _ _ _ _ _ _ _ _ _ _ _ _ _ _ _ _ _ _ _ _ _ _ _ _ _ _ _ _ _ _ _ _ _ _ _ _ _ _ _ _ _ _ _ ?_ rfl rfl rfl rfl rfl rfl rfl rfl rfl rfl (by first | exact Nat.le_refl _ | exact Nat.le_succ _ | exact Nat.le_add_right _ _ | omega) rfl (by first | exact Nat.le_refl _ | exact Nat.le_succ _ | omega)); (first | with_reducible assumption | with_reducible apply kept_setDeck | with_reducible apply kept_issueAll | with_reducible apply kept_maskTrk | with_reducible apply kept_setGang | with_reducible apply Kept.ite))

theorem kept_fenceDeck {r₀ : State} (s : State) (d : Nat) (source : BitVec 16) (h₀ : Kept r₀ s) : Kept r₀ (fenceDeck s d source) := by
  unfold fenceDeck
  try dsimp only
  repeat' first
    | with_reducible assumption
    | with_reducible apply kept_latchEnd
    | with_reducible apply kept_latchPending
    | with_reducible apply kept_refitGangs
    | with_reducible apply kept_maskDeck
    | with_reducible apply Kept.ite
    | (first | intro _ _ _ _ _ _ _ | intro _ _ _ _ _ _ | intro _ _ _ _ _ | intro _ _ _ _ | intro _ _ _)
    | split
    | ((with_reducible refine Kept.mk_ _ _ _ _ _ _ _ _ _ _ _ _ _ _ _ _ _ _ _ _ _ _ _ _ _ _ _ _ _ _ _ _ _ _ _ _ _ _ _ _ _ _ _ ?_ rfl rfl rfl rfl rfl rfl rfl rfl rfl rfl (by first | exact Nat.le_refl _ | exact Nat.le_succ _ | exact Nat.le_add_right _ _ | omega) rfl (by first | exact Nat.le_refl _ | exact Nat.le_succ _ | omega)); (first | with_reducible assumption | with_reducible apply kept_latchEnd | with_reducible apply kept_latchPending | with_reducible apply kept_refitGangs | with_reducible apply kept_maskDeck | with_reducible apply Kept.ite | split))

theorem kept_endLoad {r₀ : State} (s : State) (h₀ : Kept r₀ s) : Kept r₀ (endLoad s) := by
  unfold endLoad
  try dsimp only
  repeat' first
    | with_reducible assumption
    | with_reducible apply kept_setLand
    | with_reducible apply kept_reply
    | with_reducible apply kept_refitGangs
    | with_reducible apply Kept.ite
    | with_reducible apply Kept.foldl
    | with_reducible apply Kept.foldl_fst
    | with_reducible apply Kept.foldl_snd
    | (first | intro _ _ _ _ _ _ _ | intro _ _ _ _ _ _ | intro _ _ _ _ _ | intro _ _ _ _ | intro _ _ _)
    | split
    | ((with_reducible refine Kept.mk_ _ _ _ _ _ _ _ _ _ _ _ _ _ _ _ _ _ _ _ _ _ _ _ _ _ _ _ _ _ _ _ _ _ _ _ _ _ _ _ _ _ _ _ ?_ rfl rfl rfl rfl rfl rfl rfl rfl rfl rfl (by first | exact Nat.le_refl _ | exact Nat.le_succ _ | exact Nat.le_add_right _ _ | omega) rfl (by first | exact Nat.le_refl _ | exact Nat.le_succ _ | omega)); (first | with_reducible assumption | with_reducible apply kept_setLand | with_reducible apply kept_reply | with_reducible apply kept_refitGangs | with_reducible apply Kept.ite | with_reducible apply Kept.foldl | with_reducible apply Kept.foldl_fst | with_reducible apply Kept.foldl_snd | split))

theorem kept_haltModule {r₀ : State} (s : State) (h₀ : Kept r₀ s) : Kept r₀ (haltModule s) := by
  unfold haltModule
  apply kept_endLoad
  exact Kept.foldl _ (fun _ _ h => kept_haltBerth _ _ (kept_latchPending _ _ h)) _ _ (Kept.fc h₀ _ (fun _ => rfl))

theorem kept_lockModule {r₀ : State} (s : State) (h₀ : Kept r₀ s) : Kept r₀ (lockModule s) := by
  have k := kept_haltModule s h₀
  unfold lockModule
  generalize haltModule s = t at k ⊢
  exact Kept.sec k _ id (fun _ => rfl)

theorem kept_fenceUnit {r₀ : State} (s : State) (source : BitVec 16) (h₀ : Kept r₀ s) : Kept r₀ (fenceUnit s source) := by
  unfold fenceUnit
  generalize source.toNat = n
  exact Kept.ite (kept_fenceDeck _ _ _ h₀) (Kept.ite (Kept.ite (kept_setPort _ _ _ h₀) (kept_fencePort _ _ h₀)) (kept_haltModule _ h₀))

theorem kept_fenceNow {r₀ : State} (s : State) (source : BitVec 16) (h₀ : Kept r₀ s) : Kept r₀ (fenceNow s source) := by
  unfold fenceNow
  try dsimp only
  repeat' first
    | with_reducible assumption
    | with_reducible apply kept_fenceUnit
    | with_reducible apply Kept.ite
    | (first | intro _ _ _ _ _ _ _ | intro _ _ _ _ _ _ | intro _ _ _ _ _ | intro _ _ _ _ | intro _ _ _)
    | ((with_reducible refine Kept.mk_ _ _ _ _ _ _ _ _ _ _ _ _ _ _ _ _ _ _ _ _ _ _ _ _ _ _ _ _ _ _ _ _ _ _ _ _ _ _ _ _ _ _ _ ?_ rfl rfl rfl rfl rfl rfl rfl rfl rfl rfl (by first | exact Nat.le_refl _ | exact Nat.le_succ _ | exact Nat.le_add_right _ _ | omega) rfl (by first | exact Nat.le_refl _ | exact Nat.le_succ _ | omega)); (first | with_reducible assumption | with_reducible apply kept_fenceUnit | with_reducible apply Kept.ite))

theorem kept_react {r₀ : State} (s : State) (o : Occ) (h₀ : Kept r₀ s) : Kept r₀ (react s o) := by
  unfold react
  try dsimp only
  repeat' first
    | with_reducible assumption
    | with_reducible apply kept_haltModule
    | with_reducible apply kept_lockModule
    | with_reducible apply kept_fenceUnit
    | with_reducible apply Kept.ite
    | (first | intro _ _ _ _ _ _ _ | intro _ _ _ _ _ _ | intro _ _ _ _ _ | intro _ _ _ _ | intro _ _ _)
    | ((with_reducible refine Kept.mk_ _ _ _ _ _ _ _ _ _ _ _ _ _ _ _ _ _ _ _ _ _ _ _ _ _ _ _ _ _ _ _ _ _ _ _ _ _ _ _ _ _ _ _ ?_ rfl rfl rfl rfl rfl rfl rfl rfl rfl rfl (by first | exact Nat.le_refl _ | exact Nat.le_succ _ | exact Nat.le_add_right _ _ | omega) rfl (by first | exact Nat.le_refl _ | exact Nat.le_succ _ | omega)); (first | with_reducible assumption | with_reducible apply kept_haltModule | with_reducible apply kept_lockModule | with_reducible apply kept_fenceUnit | with_reducible apply Kept.ite))

theorem kept_storeRec {r₀ : State} (s : State) (r : FaultRec) (h₀ : Kept r₀ s) : Kept r₀ (storeRec s r) := by
  unfold storeRec
  try dsimp only
  repeat' first
    | with_reducible assumption
    | with_reducible apply Kept.ite
    | (first | intro _ _ _ _ _ _ _ | intro _ _ _ _ _ _ | intro _ _ _ _ _ | intro _ _ _ _ | intro _ _ _)
    | split
    | ((with_reducible refine Kept.mk_ _ _ _ _ _ _ _ _ _ _ _ _ _ _ _ _ _ _ _ _ _ _ _ _ _ _ _ _ _ _ _ _ _ _ _ _ _ _ _ _ _ _ _ ?_ rfl rfl rfl rfl rfl rfl rfl rfl rfl rfl (by first | exact Nat.le_refl _ | exact Nat.le_succ _ | exact Nat.le_add_right _ _ | omega) rfl (by first | exact Nat.le_refl _ | exact Nat.le_succ _ | omega)); (first | with_reducible assumption | with_reducible apply Kept.ite | split))

theorem kept_collect {r₀ : State} (s : State) (o : Occ) (h₀ : Kept r₀ s) : Kept r₀ (collect s o) := by
  unfold collect
  try dsimp only
  repeat' first
    | with_reducible assumption
    | with_reducible apply kept_emit
    | with_reducible apply kept_alertSet
    | with_reducible apply kept_react
    | with_reducible apply kept_storeRec
    | with_reducible apply Kept.ite
    | with_reducible apply Kept.ite_fst
    | (first | intro _ _ _ _ _ _ _ | intro _ _ _ _ _ _ | intro _ _ _ _ _ | intro _ _ _ _ | intro _ _ _)
    | split
    | ((with_reducible refine Kept.mk_ _ _ _ _ _ _ _ _ _ _ _ _ _ _ _ _ _ _ _ _ _ _ _ _ _ _ _ _ _ _ _ _ _ _ _ _ _ _ _ _ _ _ _ ?_ rfl rfl rfl rfl rfl rfl rfl rfl rfl rfl (by first | exact Nat.le_refl _ | exact Nat.le_succ _ | exact Nat.le_add_right _ _ | omega) rfl (by first | exact Nat.le_refl _ | exact Nat.le_succ _ | omega)); (first | with_reducible assumption | with_reducible apply kept_emit | with_reducible apply kept_alertSet | with_reducible apply kept_react | with_reducible apply kept_storeRec | with_reducible apply Kept.ite | with_reducible apply Kept.ite_fst | split))

theorem kept_bridgeReplayed {r₀ : State} (s : State) (b : Nat) (n : Nat) (h₀ : Kept r₀ s) : Kept r₀ (bridgeReplayed s b n) := by
  unfold bridgeReplayed
  try dsimp only
  repeat' first
    | with_reducible assumption
    | with_reducible apply kept_raiseChip
    | with_reducible apply kept_noteReport
    | with_reducible apply Kept.ite
    | (first | intro _ _ _ _ _ _ _ | intro _ _ _ _ _ _ | intro _ _ _ _ _ | intro _ _ _ _ | intro _ _ _)
    | ((with_reducible refine Kept.mk_ _ _ _ _ _ _ _ _ _ _ _ _ _ _ _ _ _ _ _ _ _ _ _ _ _ _ _ _ _ _ _ _ _ _ _ _ _ _ _ _ _ _ _ ?_ rfl rfl rfl rfl rfl rfl rfl rfl rfl rfl (by first | exact Nat.le_refl _ | exact Nat.le_succ _ | exact Nat.le_add_right _ _ | omega) rfl (by first | exact Nat.le_refl _ | exact Nat.le_succ _ | omega)); (first | with_reducible assumption | with_reducible apply kept_raiseChip | with_reducible apply kept_noteReport | with_reducible apply Kept.ite))

theorem kept_detect {r₀ : State} (s : State) (f : HwFault) (h₀ : Kept r₀ s) : Kept r₀ (detect s f) := by
  unfold detect
  try dsimp only
  repeat' first
    | with_reducible assumption
    | with_reducible apply kept_setQuay
    | with_reducible apply kept_raise
    | with_reducible apply kept_raiseChip
    | with_reducible apply kept_raiseDeck
    | with_reducible apply kept_noteReport
    | with_reducible apply kept_bridgeReplayed
    | with_reducible apply Kept.ite
    | (first | intro _ _ _ _ _ _ _ | intro _ _ _ _ _ _ | intro _ _ _ _ _ | intro _ _ _ _ | intro _ _ _)
    | split
    | ((with_reducible refine Kept.mk_ _ _ _ _ _ _ _ _ _ _ _ _ _ _ _ _ _ _ _ _ _ _ _ _ _ _ _ _ _ _ _ _ _ _ _ _ _ _ _ _ _ _ _ ?_ rfl rfl rfl rfl rfl rfl rfl rfl rfl rfl (by first | exact Nat.le_refl _ | exact Nat.le_succ _ | exact Nat.le_add_right _ _ | omega) rfl (by first | exact Nat.le_refl _ | exact Nat.le_succ _ | omega)); (first | with_reducible assumption | with_reducible apply kept_setQuay | with_reducible apply kept_raise | with_reducible apply kept_raiseChip | with_reducible apply kept_raiseDeck | with_reducible apply kept_noteReport | with_reducible apply kept_bridgeReplayed | with_reducible apply Kept.ite | split))

theorem kept_faultCollect {r₀ : State} (s : State) (detected : Option HwFault) (h₀ : Kept r₀ s) : Kept r₀ (faultCollect s detected) := by
  unfold faultCollect
  try dsimp only
  repeat' first
    | with_reducible assumption
    | with_reducible apply kept_collect
    | with_reducible apply kept_detect
    | with_reducible apply Kept.ite
    | (first | intro _ _ _ _ _ _ _ | intro _ _ _ _ _ _ | intro _ _ _ _ _ | intro _ _ _ _ | intro _ _ _)
    | split
    | ((with_reducible refine Kept.mk_ _ _ _ _ _ _ _ _ _ _ _ _ _ _ _ _ _ _ _ _ _ _ _ _ _ _ _ _ _ _ _ _ _ _ _ _ _ _ _ _ _ _ _ ?_ rfl rfl rfl rfl rfl rfl rfl rfl rfl rfl (by first | exact Nat.le_refl _ | exact Nat.le_succ _ | exact Nat.le_add_right _ _ | omega) rfl (by first | exact Nat.le_refl _ | exact Nat.le_succ _ | omega)); (first | with_reducible assumption | with_reducible apply kept_collect | with_reducible apply kept_detect | with_reducible apply Kept.ite | split))

theorem kept_clearRecs {r₀ : State} (s : State) (on : Nat → Bool) (h₀ : Kept r₀ s) : Kept r₀ (clearRecs s on) := by
  unfold clearRecs
  try dsimp only
  repeat' first
    | with_reducible assumption
    | with_reducible apply Kept.ite
    | (first | intro _ _ _ _ _ _ _ | intro _ _ _ _ _ _ | intro _ _ _ _ _ | intro _ _ _ _ | intro _ _ _)
    | ((with_reducible refine Kept.mk_ _ _ _ _ _ _ _ _ _ _ _ _ _ _ _ _ _ _ _ _ _ _ _ _ _ _ _ _ _ _ _ _ _ _ _ _ _ _ _ _ _ _ _ ?_ rfl rfl rfl rfl rfl rfl rfl rfl rfl rfl (by first | exact Nat.le_refl _ | exact Nat.le_succ _ | exact Nat.le_add_right _ _ | omega) rfl (by first | exact Nat.le_refl _ | exact Nat.le_succ _ | omega)); (first | with_reducible assumption | with_reducible apply Kept.ite))

end Sys2Proof.Laws
end

