-- ==== Sys2Proof/Laws/KeptLanding.lean ====
section
/-! SUPPORT. What each operation of Machine/Landing.lean keeps. -/

namespace Sys2Proof.Laws

set_option linter.all false

open Sys2Proof.Machine Sys2Proof.Safety

theorem kept_applyAck {r₀ : State} (s : State) (l : Nat) (ack : Word) (h₀ : Kept r₀ s) : Kept r₀ (applyAck s l ack) := by
  unfold applyAck
  try dsimp only
  repeat' first
    | with_reducible assumption
    | with_reducible apply kept_setLand
    | with_reducible apply Kept.ite
    | (first | intro _ _ _ _ _ _ _ | intro _ _ _ _ _ _ | intro _ _ _ _ _ | intro _ _ _ _ | intro _ _ _)
    | ((with_reducible refine Kept.mk_ _ _ _ _ _ _ _ _ _ _ _ _ _ _ _ _ _ _ _ _ _ _ _ _ _ _ _ _ _ _ _ _ _ _ _ _ _ _ _ _ _ _ _ ?_ rfl rfl rfl rfl rfl rfl rfl rfl rfl rfl (by first | exact Nat.le_refl _ | exact Nat.le_succ _ | exact Nat.le_add_right _ _ | omega) rfl (by first | exact Nat.le_refl _ | exact Nat.le_succ _ | omega)); (first | with_reducible assumption | with_reducible apply kept_setLand | with_reducible apply Kept.ite))

theorem kept_popMsg {r₀ : State} (s : State) (l : Nat) (h₀ : Kept r₀ s) : Kept r₀ (popMsg s l) := by
  unfold popMsg
  try dsimp only
  repeat' first
    | with_reducible assumption
    | with_reducible apply kept_setLand
    | with_reducible apply Kept.ite
    | (first | intro _ _ _ _ _ _ _ | intro _ _ _ _ _ _ | intro _ _ _ _ _ | intro _ _ _ _ | intro _ _ _)
    | ((with_reducible refine Kept.mk_ _ _ _ _ _ _ _ _ _ _ _ _ _ _ _ _ _ _ _ _ _ _ _ _ _ _ _ _ _ _ _ _ _ _ _ _ _ _ _ _ _ _ _ ?_ rfl rfl rfl rfl rfl rfl rfl rfl rfl rfl (by first | exact Nat.le_refl _ | exact Nat.le_succ _ | exact Nat.le_add_right _ _ | omega) rfl (by first | exact Nat.le_refl _ | exact Nat.le_succ _ | omega)); (first | with_reducible assumption | with_reducible apply kept_setLand | with_reducible apply Kept.ite))

theorem kept_answer {r₀ : State} (s : State) (l : Nat) (h : Header) (status : Nat) (rest : List Byte) (h₀ : Kept r₀ s) : Kept r₀ (answer s l h status rest) := by
  unfold answer
  try dsimp only
  repeat' first
    | with_reducible assumption
    | with_reducible apply kept_reply
    | with_reducible apply Kept.ite
    | (first | intro _ _ _ _ _ _ _ | intro _ _ _ _ _ _ | intro _ _ _ _ _ | intro _ _ _ _ | intro _ _ _)
    | ((with_reducible refine Kept.mk_ _ _ _ _ _ _ _ _ _ _ _ _ _ _ _ _ _ _ _ _ _ _ _ _ _ _ _ _ _ _ _ _ _ _ _ _ _ _ _ _ _ _ _ ?_ rfl rfl rfl rfl rfl rfl rfl rfl rfl rfl (by first | exact Nat.le_refl _ | exact Nat.le_succ _ | exact Nat.le_add_right _ _ | omega) rfl (by first | exact Nat.le_refl _ | exact Nat.le_succ _ | omega)); (first | with_reducible assumption | with_reducible apply kept_reply | with_reducible apply Kept.ite))

theorem kept_handle {r₀ : State} (s : State) (l : Nat) (d : List Byte) (act : State → Header → State) (hact_ : ∀ (t : State) x0, Kept r₀ t → Kept r₀ (act t x0)) (h₀ : Kept r₀ s) : Kept r₀ (handle s l d act) := by
  unfold handle
  try dsimp only
  repeat' first
    | with_reducible assumption
    | with_reducible apply hact_
    | with_reducible apply kept_setLand
    | with_reducible apply kept_popMsg
    | with_reducible apply kept_answer
    | with_reducible apply Kept.ite
    | (first | intro _ _ _ _ _ _ _ | intro _ _ _ _ _ _ | intro _ _ _ _ _ | intro _ _ _ _ | intro _ _ _)
    | split
    | ((with_reducible refine Kept.mk_ _ _ _ _ _ _ _ _ _ _ _ _ _ _ _ _ _ _ _ _ _ _ _ _ _ _ _ _ _ _ _ _ _ _ _ _ _ _ _ _ _ _ _ ?_ rfl rfl rfl rfl rfl rfl rfl rfl rfl rfl (by first | exact Nat.le_refl _ | exact Nat.le_succ _ | exact Nat.le_add_right _ _ | omega) rfl (by first | exact Nat.le_refl _ | exact Nat.le_succ _ | omega)); (first | with_reducible assumption | with_reducible apply hact_ | with_reducible apply kept_setLand | with_reducible apply kept_popMsg | with_reducible apply kept_answer | with_reducible apply Kept.ite | split))

theorem kept_clearFront {r₀ : State} (l : Nat) (a_ : Nat) : ∀ (s : State), Kept r₀ s → Kept r₀ ((clearFront l a_ s)) := by
  induction a_ with
  | zero =>
    intro s h₀
    simp only [clearFront]
    repeat' first
      | with_reducible assumption
      | with_reducible apply ih
      | with_reducible apply kept_handle
      | with_reducible apply Kept.ite
      | (first | intro _ _ _ _ _ _ _ | intro _ _ _ _ _ _ | intro _ _ _ _ _ | intro _ _ _ _ | intro _ _ _)
      | split
      | ((with_reducible refine Kept.mk_ _ _ _ _ _ _ _ _ _ _ _ _ _ _ _ _ _ _ _ _ _ _ _ _ _ _ _ _ _ _ _ _ _ _ _ _ _ _ _ _ _ _ _ ?_ rfl rfl rfl rfl rfl rfl rfl rfl rfl rfl (by first | exact Nat.le_refl _ | exact Nat.le_succ _ | exact Nat.le_add_right _ _ | omega) rfl (by first | exact Nat.le_refl _ | exact Nat.le_succ _ | omega)); (first | with_reducible assumption | with_reducible apply ih | with_reducible apply kept_handle | with_reducible apply Kept.ite | split))
  | succ k ih =>
    intro s h₀
    simp only [clearFront]
    repeat' first
      | with_reducible assumption
      | with_reducible apply ih
      | with_reducible apply kept_handle
      | with_reducible apply Kept.ite
      | (first | intro _ _ _ _ _ _ _ | intro _ _ _ _ _ _ | intro _ _ _ _ _ | intro _ _ _ _ | intro _ _ _)
      | split
      | ((with_reducible refine Kept.mk_ _ _ _ _ _ _ _ _ _ _ _ _ _ _ _ _ _ _ _ _ _ _ _ _ _ _ _ _ _ _ _ _ _ _ _ _ _ _ _ _ _ _ _ ?_ rfl rfl rfl rfl rfl rfl rfl rfl rfl rfl (by first | exact Nat.le_refl _ | exact Nat.le_succ _ | exact Nat.le_add_right _ _ | omega) rfl (by first | exact Nat.le_refl _ | exact Nat.le_succ _ | omega)); (first | with_reducible assumption | with_reducible apply ih | with_reducible apply kept_handle | with_reducible apply Kept.ite | split))

theorem kept_nextMsg {r₀ : State} (s : State) (l : Nat) (h₀ : Kept r₀ s) : Kept r₀ (nextMsg s l) := by
  unfold nextMsg
  try dsimp only
  repeat' first
    | with_reducible assumption
    | with_reducible apply kept_clearFront
    | with_reducible apply Kept.ite
    | (first | intro _ _ _ _ _ _ _ | intro _ _ _ _ _ _ | intro _ _ _ _ _ | intro _ _ _ _ | intro _ _ _)
    | ((with_reducible refine Kept.mk_ _ _ _ _ _ _ _ _ _ _ _ _ _ _ _ _ _ _ _ _ _ _ _ _ _ _ _ _ _ _ _ _ _ _ _ _ _ _ _ _ _ _ _ ?_ rfl rfl rfl rfl rfl rfl rfl rfl rfl rfl (by first | exact Nat.le_refl _ | exact Nat.le_succ _ | exact Nat.le_add_right _ _ | omega) rfl (by first | exact Nat.le_refl _ | exact Nat.le_succ _ | omega)); (first | with_reducible assumption | with_reducible apply kept_clearFront | with_reducible apply Kept.ite))

theorem kept_onMsg {r₀ : State} (s : State) (l : Nat) (type : Nat) (act : State → Msg → Header → State) (hact_ : ∀ (t : State) x0 x1, Kept r₀ t → Kept r₀ (act t x0 x1)) (h₀ : Kept r₀ s) : Kept r₀ (onMsg s l type act) := by
  unfold onMsg
  try dsimp only
  repeat' first
    | with_reducible assumption
    | with_reducible apply hact_
    | with_reducible apply kept_handle
    | with_reducible apply kept_nextMsg
    | with_reducible apply Kept.ite
    | (first | intro _ _ _ _ _ _ _ | intro _ _ _ _ _ _ | intro _ _ _ _ _ | intro _ _ _ _ | intro _ _ _)
    | split
    | ((with_reducible refine Kept.mk_ _ _ _ _ _ _ _ _ _ _ _ _ _ _ _ _ _ _ _ _ _ _ _ _ _ _ _ _ _ _ _ _ _ _ _ _ _ _ _ _ _ _ _ ?_ rfl rfl rfl rfl rfl rfl rfl rfl rfl rfl (by first | exact Nat.le_refl _ | exact Nat.le_succ _ | exact Nat.le_add_right _ _ | omega) rfl (by first | exact Nat.le_refl _ | exact Nat.le_succ _ | omega)); (first | with_reducible assumption | with_reducible apply hact_ | with_reducible apply kept_handle | with_reducible apply kept_nextMsg | with_reducible apply Kept.ite | split))

theorem kept_queryReply {r₀ : State} (l : Nat) (h : Header) (s : State) (t : Nat) (h₀ : Kept r₀ s) : Kept r₀ (queryReply l h s t) := by
  unfold queryReply
  try dsimp only
  repeat' first
    | with_reducible assumption
    | with_reducible apply kept_reply
    | with_reducible apply Kept.ite
    | (first | intro _ _ _ _ _ _ _ | intro _ _ _ _ _ _ | intro _ _ _ _ _ | intro _ _ _ _ | intro _ _ _)
    | ((with_reducible refine Kept.mk_ _ _ _ _ _ _ _ _ _ _ _ _ _ _ _ _ _ _ _ _ _ _ _ _ _ _ _ _ _ _ _ _ _ _ _ _ _ _ _ _ _ _ _ ?_ rfl rfl rfl rfl rfl rfl rfl rfl rfl rfl (by first | exact Nat.le_refl _ | exact Nat.le_succ _ | exact Nat.le_add_right _ _ | omega) rfl (by first | exact Nat.le_refl _ | exact Nat.le_succ _ | omega)); (first | with_reducible assumption | with_reducible apply kept_reply | with_reducible apply Kept.ite))

theorem kept_doQuery {r₀ : State} (l : Nat) (s : State) (x2 : Msg) (h : Header) (h₀ : Kept r₀ s) : Kept r₀ (doQuery l s x2 h) := by
  unfold doQuery
  try dsimp only
  repeat' first
    | with_reducible assumption
    | with_reducible apply kept_queryReply
    | with_reducible apply Kept.ite
    | with_reducible apply Kept.foldl
    | with_reducible apply Kept.foldl_fst
    | with_reducible apply Kept.foldl_snd
    | (first | intro _ _ _ _ _ _ _ | intro _ _ _ _ _ _ | intro _ _ _ _ _ | intro _ _ _ _ | intro _ _ _)
    | ((with_reducible refine Kept.mk_ _ _ _ _ _ _ _ _ _ _ _ _ _ _ _ _ _ _ _ _ _ _ _ _ _ _ _ _ _ _ _ _ _ _ _ _ _ _ _ _ _ _ _ ?_ rfl rfl rfl rfl rfl rfl rfl rfl rfl rfl (by first | exact Nat.le_refl _ | exact Nat.le_succ _ | exact Nat.le_add_right _ _ | omega) rfl (by first | exact Nat.le_refl _ | exact Nat.le_succ _ | omega)); (first | with_reducible assumption | with_reducible apply kept_queryReply | with_reducible apply Kept.ite | with_reducible apply Kept.foldl | with_reducible apply Kept.foldl_fst | with_reducible apply Kept.foldl_snd))

theorem kept_ringWrite {r₀ : State} (s : State) (l : Nat) (h₀ : Kept r₀ s) : Kept r₀ (ringWrite s l) := by
  unfold ringWrite
  try dsimp only
  repeat' first
    | with_reducible assumption
    | with_reducible apply kept_setLand
    | with_reducible apply kept_writeRecord
    | with_reducible apply Kept.ite
    | (first | intro _ _ _ _ _ _ _ | intro _ _ _ _ _ _ | intro _ _ _ _ _ | intro _ _ _ _ | intro _ _ _)
    | split
    | ((with_reducible refine Kept.mk_ _ _ _ _ _ _ _ _ _ _ _ _ _ _ _ _ _ _ _ _ _ _ _ _ _ _ _ _ _ _ _ _ _ _ _ _ _ _ _ _ _ _ _ ?_ rfl rfl rfl rfl rfl rfl rfl rfl rfl rfl (by first | exact Nat.le_refl _ | exact Nat.le_succ _ | exact Nat.le_add_right _ _ | omega) rfl (by first | exact Nat.le_refl _ | exact Nat.le_succ _ | omega)); (first | with_reducible assumption | with_reducible apply kept_setLand | with_reducible apply kept_writeRecord | with_reducible apply Kept.ite | split))

end Sys2Proof.Laws
end

