-- ==== Sys2Proof/Laws/KeptTasks.lean ====
section
/-! SUPPORT. What each operation of Machine/Tasks.lean keeps. -/

namespace Sys2Proof.Laws

set_option linter.all false

open Sys2Proof.Machine Sys2Proof.Safety

theorem kept_startCtx {r₀ : State} (s : State) (e : Nat × Nat) (h₀ : Kept r₀ s) : Kept r₀ (startCtx s e) := by
  unfold startCtx
  try dsimp only
  repeat' first
    | with_reducible assumption
    | with_reducible apply kept_setCtx
    | with_reducible apply Kept.ite
    | (first | intro _ _ _ _ _ _ _ | intro _ _ _ _ _ _ | intro _ _ _ _ _ | intro _ _ _ _ | intro _ _ _)
    | ((with_reducible refine Kept.mk_ _ _ _ _ _ _ _ _ _ _ _ _ _ _ _ _ _ _ _ _ _ _ _ _ _ _ _ _ _ _ _ _ _ _ _ _ _ _ _ _ _ _ _ ?_ rfl rfl rfl rfl rfl rfl rfl rfl rfl rfl (by first | exact Nat.le_refl _ | exact Nat.le_succ _ | exact Nat.le_add_right _ _ | omega) rfl (by first | exact Nat.le_refl _ | exact Nat.le_succ _ | omega)); (first | with_reducible assumption | with_reducible apply kept_setCtx | with_reducible apply Kept.ite))

theorem kept_idleCtx {r₀ : State} (s : State) (n : Nat) (h₀ : Kept r₀ s) : Kept r₀ (idleCtx s n) := by
  unfold idleCtx
  try dsimp only
  repeat' first
    | with_reducible assumption
    | with_reducible apply kept_setCtx
    | with_reducible apply Kept.ite
    | (first | intro _ _ _ _ _ _ _ | intro _ _ _ _ _ _ | intro _ _ _ _ _ | intro _ _ _ _ | intro _ _ _)
    | ((with_reducible refine Kept.mk_ _ _ _ _ _ _ _ _ _ _ _ _ _ _ _ _ _ _ _ _ _ _ _ _ _ _ _ _ _ _ _ _ _ _ _ _ _ _ _ _ _ _ _ ?_ rfl rfl rfl rfl rfl rfl rfl rfl rfl rfl (by first | exact Nat.le_refl _ | exact Nat.le_succ _ | exact Nat.le_add_right _ _ | omega) rfl (by first | exact Nat.le_refl _ | exact Nat.le_succ _ | omega)); (first | with_reducible assumption | with_reducible apply kept_setCtx | with_reducible apply Kept.ite))

theorem kept_dropOldSegs {r₀ : State} (s : State) (b : Nat) (epoch : Nat) (h₀ : Kept r₀ s) : Kept r₀ (dropOldSegs s b epoch) := by
  unfold dropOldSegs
  try dsimp only
  repeat' first
    | with_reducible assumption
    | with_reducible apply Kept.ite
    | (first | intro _ _ _ _ _ _ _ | intro _ _ _ _ _ _ | intro _ _ _ _ _ | intro _ _ _ _ | intro _ _ _)
    | ((with_reducible refine Kept.mk_ _ _ _ _ _ _ _ _ _ _ _ _ _ _ _ _ _ _ _ _ _ _ _ _ _ _ _ _ _ _ _ _ _ _ _ _ _ _ _ _ _ _ _ ?_ rfl rfl rfl rfl rfl rfl rfl rfl rfl rfl (by first | exact Nat.le_refl _ | exact Nat.le_succ _ | exact Nat.le_add_right _ _ | omega) rfl (by first | exact Nat.le_refl _ | exact Nat.le_succ _ | omega)); (first | with_reducible assumption | with_reducible apply Kept.ite))

theorem kept_startTask {r₀ : State} (s : State) (l : Nat) (b : Nat) (task : Word) (d : List Byte) (h₀ : Kept r₀ s) : Kept r₀ (startTask s l b task d) := by
  unfold startTask
  try dsimp only
  repeat' first
    | with_reducible assumption
    | with_reducible apply kept_setBerth
    | with_reducible apply kept_flagPut
    | with_reducible apply kept_startCtx
    | with_reducible apply kept_idleCtx
    | with_reducible apply kept_dropOldSegs
    | with_reducible apply Kept.ite
    | with_reducible apply Kept.foldl
    | with_reducible apply Kept.foldl_fst
    | with_reducible apply Kept.foldl_snd
    | (first | intro _ _ _ _ _ _ _ | intro _ _ _ _ _ _ | intro _ _ _ _ _ | intro _ _ _ _ | intro _ _ _)
    | ((with_reducible refine Kept.mk_ _ _ _ _ _ _ _ _ _ _ _ _ _ _ _ _ _ _ _ _ _ _ _ _ _ _ _ _ _ _ _ _ _ _ _ _ _ _ _ _ _ _ _ ?_ rfl rfl rfl rfl rfl rfl rfl rfl rfl rfl (by first | exact Nat.le_refl _ | exact Nat.le_succ _ | exact Nat.le_add_right _ _ | omega) rfl (by first | exact Nat.le_refl _ | exact Nat.le_succ _ | omega)); (first | with_reducible assumption | with_reducible apply kept_setBerth | with_reducible apply kept_flagPut | with_reducible apply kept_startCtx | with_reducible apply kept_idleCtx | with_reducible apply kept_dropOldSegs | with_reducible apply Kept.ite | with_reducible apply Kept.foldl | with_reducible apply Kept.foldl_fst | with_reducible apply Kept.foldl_snd))

theorem kept_doStart {r₀ : State} (l : Nat) (s : State) (m : Msg) (h : Header) (h₀ : Kept r₀ s) : Kept r₀ (doStart l s m h) := by
  unfold doStart
  try dsimp only
  repeat' first
    | with_reducible assumption
    | with_reducible apply kept_answer
    | with_reducible apply kept_startTask
    | with_reducible apply Kept.ite
    | with_reducible apply Kept.ite_fst
    | (first | intro _ _ _ _ _ _ _ | intro _ _ _ _ _ _ | intro _ _ _ _ _ | intro _ _ _ _ | intro _ _ _)
    | ((with_reducible refine Kept.mk_ _ _ _ _ _ _ _ _ _ _ _ _ _ _ _ _ _ _ _ _ _ _ _ _ _ _ _ _ _ _ _ _ _ _ _ _ _ _ _ _ _ _ _ ?_ rfl rfl rfl rfl rfl rfl rfl rfl rfl rfl (by first | exact Nat.le_refl _ | exact Nat.le_succ _ | exact Nat.le_add_right _ _ | omega) rfl (by first | exact Nat.le_refl _ | exact Nat.le_succ _ | omega)); (first | with_reducible assumption | with_reducible apply kept_answer | with_reducible apply kept_startTask | with_reducible apply Kept.ite | with_reducible apply Kept.ite_fst))

theorem kept_doAbort {r₀ : State} (l : Nat) (s : State) (x2 : Msg) (h : Header) (h₀ : Kept r₀ s) : Kept r₀ (doAbort l s x2 h) := by
  unfold doAbort
  try dsimp only
  repeat' first
    | with_reducible assumption
    | with_reducible apply kept_latchEnd
    | with_reducible apply kept_answer
    | with_reducible apply Kept.ite
    | (first | intro _ _ _ _ _ _ _ | intro _ _ _ _ _ _ | intro _ _ _ _ _ | intro _ _ _ _ | intro _ _ _)
    | ((with_reducible refine Kept.mk_ _ _ _ _ _ _ _ _ _ _ _ _ _ _ _ _ _ _ _ _ _ _ _ _ _ _ _ _ _ _ _ _ _ _ _ _ _ _ _ _ _ _ _ ?_ rfl rfl rfl rfl rfl rfl rfl rfl rfl rfl (by first | exact Nat.le_refl _ | exact Nat.le_succ _ | exact Nat.le_add_right _ _ | omega) rfl (by first | exact Nat.le_refl _ | exact Nat.le_succ _ | omega)); (first | with_reducible assumption | with_reducible apply kept_latchEnd | with_reducible apply kept_answer | with_reducible apply Kept.ite))

theorem kept_doPreempt {r₀ : State} (l : Nat) (cuts : List (Nat × Nat)) (s : State) (x3 : Msg) (h : Header) (h₀ : Kept r₀ s) : Kept r₀ (doPreempt l cuts s x3 h) := by
  unfold doPreempt
  try dsimp only
  repeat' first
    | with_reducible assumption
    | with_reducible apply kept_setBerth
    | with_reducible apply kept_cutAll
    | with_reducible apply kept_answer
    | with_reducible apply Kept.ite
    | (first | intro _ _ _ _ _ _ _ | intro _ _ _ _ _ _ | intro _ _ _ _ _ | intro _ _ _ _ | intro _ _ _)
    | ((with_reducible refine Kept.mk_ _ _ _ _ _ _ _ _ _ _ _ _ _ _ _ _ _ _ _ _ _ _ _ _ _ _ _ _ _ _ _ _ _ _ _ _ _ _ _ _ _ _ _ ?_ rfl rfl rfl rfl rfl rfl rfl rfl rfl rfl (by first | exact Nat.le_refl _ | exact Nat.le_succ _ | exact Nat.le_add_right _ _ | omega) rfl (by first | exact Nat.le_refl _ | exact Nat.le_succ _ | omega)); (first | with_reducible assumption | with_reducible apply kept_setBerth | with_reducible apply kept_cutAll | with_reducible apply kept_answer | with_reducible apply Kept.ite))

theorem kept_payOwed {r₀ : State} (s : State) (o : Owed) (status : Nat) (h₀ : Kept r₀ s) : Kept r₀ (payOwed s o status) := by
  unfold payOwed
  try dsimp only
  repeat' first
    | with_reducible assumption
    | with_reducible apply kept_reply
    | with_reducible apply Kept.ite
    | (first | intro _ _ _ _ _ _ _ | intro _ _ _ _ _ _ | intro _ _ _ _ _ | intro _ _ _ _ | intro _ _ _)
    | ((with_reducible refine Kept.mk_ _ _ _ _ _ _ _ _ _ _ _ _ _ _ _ _ _ _ _ _ _ _ _ _ _ _ _ _ _ _ _ _ _ _ _ _ _ _ _ _ _ _ _ ?_ rfl rfl rfl rfl rfl rfl rfl rfl rfl rfl (by first | exact Nat.le_refl _ | exact Nat.le_succ _ | exact Nat.le_add_right _ _ | omega) rfl (by first | exact Nat.le_refl _ | exact Nat.le_succ _ | omega)); (first | with_reducible assumption | with_reducible apply kept_reply | with_reducible apply Kept.ite))

theorem kept_saveTask {r₀ : State} (s : State) (b : Nat) (x : Berth) (late : Option Nat) (h₀ : Kept r₀ s) : Kept r₀ (saveTask s b x late) := by
  unfold saveTask
  have kt (y : Berth) : Kept r₀ ((usedDecks (setBerth s b y) b).foldl (saveDeck b late) (setBerth s b y, true)).1 :=
    Kept.foldl_fst _ (fun _ _ h => kept_saveDeck _ _ _ _ h) _ _ (kept_setBerth _ _ _ h₀)
  have kf (t : State × Bool) (k : Kept r₀ t.1) : Kept r₀ { t.1 with runs := t.1.runs.filter (fun r => r.berth != b) } :=
    Kept.runs k _ t.1.nextId (fun w x hx => w x (List.mem_filter.mp hx).1)
  refine Kept.ite (kt _) ?_
  dsimp only
  split
  · exact kept_payOwed _ _ _ (kept_mapTimers _ _ _ (kept_setBerth _ _ _ (kf _ (kt _))))
  · exact kept_mapTimers _ _ _ (kept_setBerth _ _ _ (kf _ (kt _)))

theorem kept_suspendDone {r₀ : State} (s : State) (b : Nat) (parity : Option (Nat × Nat)) (late : Option Nat) (h₀ : Kept r₀ s) : Kept r₀ (suspendDone s b parity late) := by
  unfold suspendDone
  try dsimp only
  repeat' first
    | with_reducible assumption
    | with_reducible apply kept_parityHit
    | with_reducible apply kept_saveTask
    | with_reducible apply Kept.ite
    | with_reducible apply Kept.ite_fst
    | (first | intro _ _ _ _ _ _ _ | intro _ _ _ _ _ _ | intro _ _ _ _ _ | intro _ _ _ _ | intro _ _ _)
    | split
    | ((with_reducible refine Kept.mk_ _ _ _ _ _ _ _ _ _ _ _ _ _ _ _ _ _ _ _ _ _ _ _ _ _ _ _ _ _ _ _ _ _ _ _ _ _ _ _ _ _ _ _ ?_ rfl rfl rfl rfl rfl rfl rfl rfl rfl rfl (by first | exact Nat.le_refl _ | exact Nat.le_succ _ | exact Nat.le_add_right _ _ | omega) rfl (by first | exact Nat.le_refl _ | exact Nat.le_succ _ | omega)); (first | with_reducible assumption | with_reducible apply kept_parityHit | with_reducible apply kept_saveTask | with_reducible apply Kept.ite | with_reducible apply Kept.ite_fst | split))

theorem kept_setRestore {r₀ : State} (s : State) (b : Nat) (r : Restore) (h₀ : Kept r₀ s) : Kept r₀ (setRestore s b r) := by
  unfold setRestore
  try dsimp only
  repeat' first
    | with_reducible assumption
    | with_reducible apply kept_setBerth
    | with_reducible apply Kept.ite
    | (first | intro _ _ _ _ _ _ _ | intro _ _ _ _ _ _ | intro _ _ _ _ _ | intro _ _ _ _ | intro _ _ _)
    | ((with_reducible refine Kept.mk_ _ _ _ _ _ _ _ _ _ _ _ _ _ _ _ _ _ _ _ _ _ _ _ _ _ _ _ _ _ _ _ _ _ _ _ _ _ _ _ _ _ _ _ ?_ rfl rfl rfl rfl rfl rfl rfl rfl rfl rfl (by first | exact Nat.le_refl _ | exact Nat.le_succ _ | exact Nat.le_add_right _ _ | omega) rfl (by first | exact Nat.le_refl _ | exact Nat.le_succ _ | omega)); (first | with_reducible assumption | with_reducible apply kept_setBerth | with_reducible apply Kept.ite))

theorem kept_reenterAll {r₀ : State} (s : State) (b : Nat) (l : List (Nat × Nat × List Byte)) (h₀ : Kept r₀ s) : Kept r₀ (reenterAll s b l) := by
  unfold reenterAll
  try dsimp only
  repeat' first
    | with_reducible assumption
    | with_reducible apply kept_setBerth
    | with_reducible apply kept_inuseDown
    | with_reducible apply kept_reenterPass
    | with_reducible apply Kept.ite
    | with_reducible apply Kept.foldl
    | with_reducible apply Kept.foldl_fst
    | with_reducible apply Kept.foldl_snd
    | (first | intro _ _ _ _ _ _ _ | intro _ _ _ _ _ _ | intro _ _ _ _ _ | intro _ _ _ _ | intro _ _ _)
    | ((with_reducible refine Kept.mk_ _ _ _ _ _ _ _ _ _ _ _ _ _ _ _ _ _ _ _ _ _ _ _ _ _ _ _ _ _ _ _ _ _ _ _ _ _ _ _ _ _ _ _ ?_ rfl rfl rfl rfl rfl rfl rfl rfl rfl rfl (by first | exact Nat.le_refl _ | exact Nat.le_succ _ | exact Nat.le_add_right _ _ | omega) rfl (by first | exact Nat.le_refl _ | exact Nat.le_succ _ | omega)); (first | with_reducible assumption | with_reducible apply kept_setBerth | with_reducible apply kept_inuseDown | with_reducible apply kept_reenterPass | with_reducible apply Kept.ite | with_reducible apply Kept.foldl | with_reducible apply Kept.foldl_fst | with_reducible apply Kept.foldl_snd))

theorem kept_restorePages {r₀ : State} (s : State) (b : Nat) (mem : HbmOutcome) (l : List (Nat × Nat × List Byte)) (h₀ : Kept r₀ s) : Kept r₀ (restorePages s b mem l) := by
  unfold restorePages
  try dsimp only
  repeat' first
    | with_reducible assumption
    | with_reducible apply kept_restoreShape
    | with_reducible apply kept_restoreAll
    | with_reducible apply kept_setRestore
    | with_reducible apply kept_reenterAll
    | with_reducible apply Kept.ite
    | with_reducible apply Kept.ite_fst
    | (first | intro _ _ _ _ _ _ _ | intro _ _ _ _ _ _ | intro _ _ _ _ _ | intro _ _ _ _ | intro _ _ _)
    | split
    | ((with_reducible refine Kept.mk_ _ _ _ _ _ _ _ _ _ _ _ _ _ _ _ _ _ _ _ _ _ _ _ _ _ _ _ _ _ _ _ _ _ _ _ _ _ _ _ _ _ _ _ ?_ rfl rfl rfl rfl rfl rfl rfl rfl rfl rfl (by first | exact Nat.le_refl _ | exact Nat.le_succ _ | exact Nat.le_add_right _ _ | omega) rfl (by first | exact Nat.le_refl _ | exact Nat.le_succ _ | omega)); (first | with_reducible assumption | with_reducible apply kept_restoreShape | with_reducible apply kept_restoreAll | with_reducible apply kept_setRestore | with_reducible apply kept_reenterAll | with_reducible apply Kept.ite | with_reducible apply Kept.ite_fst | split))

theorem kept_restoreTask {r₀ : State} (s : State) (b : Nat) (mem : HbmOutcome) (h₀ : Kept r₀ s) : Kept r₀ (restoreTask s b mem) := by
  unfold restoreTask
  try dsimp only
  repeat' first
    | with_reducible assumption
    | with_reducible apply kept_raiseBerth
    | with_reducible apply kept_readPages
    | with_reducible apply kept_setRestore
    | with_reducible apply kept_restorePages
    | with_reducible apply Kept.ite
    | (first | intro _ _ _ _ _ _ _ | intro _ _ _ _ _ _ | intro _ _ _ _ _ | intro _ _ _ _ | intro _ _ _)
    | split
    | ((with_reducible refine Kept.mk_ _ _ _ _ _ _ _ _ _ _ _ _ _ _ _ _ _ _ _ _ _ _ _ _ _ _ _ _ _ _ _ _ _ _ _ _ _ _ _ _ _ _ _ ?_ rfl rfl rfl rfl rfl rfl rfl rfl rfl rfl (by first | exact Nat.le_refl _ | exact Nat.le_succ _ | exact Nat.le_add_right _ _ | omega) rfl (by first | exact Nat.le_refl _ | exact Nat.le_succ _ | omega)); (first | with_reducible assumption | with_reducible apply kept_raiseBerth | with_reducible apply kept_readPages | with_reducible apply kept_setRestore | with_reducible apply kept_restorePages | with_reducible apply Kept.ite | split))

theorem kept_tryRestore {r₀ : State} (s : State) (b : Nat) (mem : HbmOutcome) (h₀ : Kept r₀ s) : Kept r₀ (tryRestore s b mem) := by
  unfold tryRestore
  try dsimp only
  repeat' first
    | with_reducible assumption
    | with_reducible apply kept_restoreTask
    | with_reducible apply Kept.ite
    | (first | intro _ _ _ _ _ _ _ | intro _ _ _ _ _ _ | intro _ _ _ _ _ | intro _ _ _ _ | intro _ _ _)
    | ((with_reducible refine Kept.mk_ _ _ _ _ _ _ _ _ _ _ _ _ _ _ _ _ _ _ _ _ _ _ _ _ _ _ _ _ _ _ _ _ _ _ _ _ _ _ _ _ _ _ _ ?_ rfl rfl rfl rfl rfl rfl rfl rfl rfl rfl (by first | exact Nat.le_refl _ | exact Nat.le_succ _ | exact Nat.le_add_right _ _ | omega) rfl (by first | exact Nat.le_refl _ | exact Nat.le_succ _ | omega)); (first | with_reducible assumption | with_reducible apply kept_restoreTask | with_reducible apply Kept.ite))

theorem kept_doResume {r₀ : State} (l : Nat) (mem : HbmOutcome) (s : State) (x3 : Msg) (h : Header) (h₀ : Kept r₀ s) : Kept r₀ (doResume l mem s x3 h) := by
  unfold doResume
  try dsimp only
  repeat' first
    | with_reducible assumption
    | with_reducible apply kept_setBerth
    | with_reducible apply kept_mapTimers
    | with_reducible apply kept_answer
    | with_reducible apply kept_tryRestore
    | with_reducible apply Kept.ite
    | (first | intro _ _ _ _ _ _ _ | intro _ _ _ _ _ _ | intro _ _ _ _ _ | intro _ _ _ _ | intro _ _ _)
    | ((with_reducible refine Kept.mk_ _ _ _ _ _ _ _ _ _ _ _ _ _ _ _ _ _ _ _ _ _ _ _ _ _ _ _ _ _ _ _ _ _ _ _ _ _ _ _ _ _ _ _ ?_ rfl rfl rfl rfl rfl rfl rfl rfl rfl rfl (by first | exact Nat.le_refl _ | exact Nat.le_succ _ | exact Nat.le_add_right _ _ | omega) rfl (by first | exact Nat.le_refl _ | exact Nat.le_succ _ | omega)); (first | with_reducible assumption | with_reducible apply kept_setBerth | with_reducible apply kept_mapTimers | with_reducible apply kept_answer | with_reducible apply kept_tryRestore | with_reducible apply Kept.ite))

theorem kept_resumeDone {r₀ : State} (s : State) (b : Nat) (mem : HbmOutcome) (h₀ : Kept r₀ s) : Kept r₀ (resumeDone s b mem) := by
  unfold resumeDone
  try dsimp only
  repeat' first
    | with_reducible assumption
    | with_reducible apply kept_setBerth
    | with_reducible apply kept_tryRestore
    | with_reducible apply Kept.ite
    | (first | intro _ _ _ _ _ _ _ | intro _ _ _ _ _ _ | intro _ _ _ _ _ | intro _ _ _ _ | intro _ _ _)
    | ((with_reducible refine Kept.mk_ _ _ _ _ _ _ _ _ _ _ _ _ _ _ _ _ _ _ _ _ _ _ _ _ _ _ _ _ _ _ _ _ _ _ _ _ _ _ _ _ _ _ _ ?_ rfl rfl rfl rfl rfl rfl rfl rfl rfl rfl (by first | exact Nat.le_refl _ | exact Nat.le_succ _ | exact Nat.le_add_right _ _ | omega) rfl (by first | exact Nat.le_refl _ | exact Nat.le_succ _ | omega)); (first | with_reducible assumption | with_reducible apply kept_setBerth | with_reducible apply kept_tryRestore | with_reducible apply Kept.ite))

theorem kept_writeCompletion {r₀ : State} (s : State) (b : Nat) (e : EndInfo) (h₀ : Kept r₀ s) : Kept r₀ (writeCompletion s b e) := by
  unfold writeCompletion
  try dsimp only
  repeat' first
    | with_reducible assumption
    | with_reducible apply kept_emit
    | with_reducible apply Kept.ite
    | (first | intro _ _ _ _ _ _ _ | intro _ _ _ _ _ _ | intro _ _ _ _ _ | intro _ _ _ _ | intro _ _ _)
    | ((with_reducible refine Kept.mk_ _ _ _ _ _ _ _ _ _ _ _ _ _ _ _ _ _ _ _ _ _ _ _ _ _ _ _ _ _ _ _ _ _ _ _ _ _ _ _ _ _ _ _ ?_ rfl rfl rfl rfl rfl rfl rfl rfl rfl rfl (by first | exact Nat.le_refl _ | exact Nat.le_succ _ | exact Nat.le_add_right _ _ | omega) rfl (by first | exact Nat.le_refl _ | exact Nat.le_succ _ | omega)); (first | with_reducible assumption | with_reducible apply kept_emit | with_reducible apply Kept.ite))

theorem kept_finishTask {r₀ : State} (s : State) (b : Nat) (e : EndInfo) (st : BerthState) (h₀ : Kept r₀ s) : Kept r₀ (finishTask s b e st) := by
  unfold finishTask
  try dsimp only
  repeat' first
    | with_reducible assumption
    | with_reducible apply kept_setBerth
    | with_reducible apply kept_halfRecord
    | with_reducible apply kept_payOwed
    | with_reducible apply kept_writeCompletion
    | with_reducible apply Kept.ite
    | with_reducible apply Kept.foldl
    | with_reducible apply Kept.foldl_fst
    | with_reducible apply Kept.foldl_snd
    | (first | intro _ _ _ _ _ _ _ | intro _ _ _ _ _ _ | intro _ _ _ _ _ | intro _ _ _ _ | intro _ _ _)
    | split
    | ((with_reducible refine Kept.mk_ _ _ _ _ _ _ _ _ _ _ _ _ _ _ _ _ _ _ _ _ _ _ _ _ _ _ _ _ _ _ _ _ _ _ _ _ _ _ _ _ _ _ _ ?_ rfl rfl rfl rfl rfl rfl rfl rfl rfl rfl (by first | exact Nat.le_refl _ | exact Nat.le_succ _ | exact Nat.le_add_right _ _ | omega) rfl (by first | exact Nat.le_refl _ | exact Nat.le_succ _ | omega)); (first | with_reducible assumption | with_reducible apply kept_setBerth | with_reducible apply kept_halfRecord | with_reducible apply kept_payOwed | with_reducible apply kept_writeCompletion | with_reducible apply Kept.ite | with_reducible apply Kept.foldl | with_reducible apply Kept.foldl_fst | with_reducible apply Kept.foldl_snd | split))

theorem kept_completeTask {r₀ : State} (s : State) (b : Nat) (h₀ : Kept r₀ s) : Kept r₀ (completeTask s b) := by
  unfold completeTask
  try dsimp only
  repeat' first
    | with_reducible assumption
    | with_reducible apply kept_finishTask
    | with_reducible apply Kept.ite
    | (first | intro _ _ _ _ _ _ _ | intro _ _ _ _ _ _ | intro _ _ _ _ _ | intro _ _ _ _ | intro _ _ _)
    | split
    | ((with_reducible refine Kept.mk_ _ _ _ _ _ _ _ _ _ _ _ _ _ _ _ _ _ _ _ _ _ _ _ _ _ _ _ _ _ _ _ _ _ _ _ _ _ _ _ _ _ _ _ ?_ rfl rfl rfl rfl rfl rfl rfl rfl rfl rfl (by first | exact Nat.le_refl _ | exact Nat.le_succ _ | exact Nat.le_add_right _ _ | omega) rfl (by first | exact Nat.le_refl _ | exact Nat.le_succ _ | omega)); (first | with_reducible assumption | with_reducible apply kept_finishTask | with_reducible apply Kept.ite | split))

theorem kept_abandonBerth {r₀ : State} (s : State) (b : Nat) (h₀ : Kept r₀ s) : Kept r₀ (abandonBerth s b) := by
  unfold abandonBerth
  try dsimp only
  repeat' first
    | with_reducible assumption
    | with_reducible apply kept_hbmUndefine
    | with_reducible apply kept_issueAll
    | with_reducible apply kept_setPieces
    | with_reducible apply Kept.ite
    | with_reducible apply Kept.foldl
    | with_reducible apply Kept.foldl_fst
    | with_reducible apply Kept.foldl_snd
    | (first | intro _ _ _ _ _ _ _ | intro _ _ _ _ _ _ | intro _ _ _ _ _ | intro _ _ _ _ | intro _ _ _)
    | ((with_reducible refine Kept.mk_ _ _ _ _ _ _ _ _ _ _ _ _ _ _ _ _ _ _ _ _ _ _ _ _ _ _ _ _ _ _ _ _ _ _ _ _ _ _ _ _ _ _ _ ?_ rfl rfl rfl rfl rfl rfl rfl rfl rfl rfl (by first | exact Nat.le_refl _ | exact Nat.le_succ _ | exact Nat.le_add_right _ _ | omega) rfl (by first | exact Nat.le_refl _ | exact Nat.le_succ _ | omega)); (first | with_reducible assumption | with_reducible apply kept_hbmUndefine | with_reducible apply kept_issueAll | with_reducible apply kept_setPieces | with_reducible apply Kept.ite | with_reducible apply Kept.foldl | with_reducible apply Kept.foldl_fst | with_reducible apply Kept.foldl_snd))

theorem kept_stopIdle {r₀ : State} (s : State) (b : Nat) (h₀ : Kept r₀ s) : Kept r₀ (stopIdle s b) := by
  unfold stopIdle
  try dsimp only
  repeat' first
    | with_reducible assumption
    | with_reducible apply kept_undefineFlags
    | with_reducible apply kept_stopCtx
    | with_reducible apply kept_freeHalves
    | with_reducible apply Kept.ite
    | with_reducible apply Kept.foldl
    | with_reducible apply Kept.foldl_fst
    | with_reducible apply Kept.foldl_snd
    | (first | intro _ _ _ _ _ _ _ | intro _ _ _ _ _ _ | intro _ _ _ _ _ | intro _ _ _ _ | intro _ _ _)
    | ((with_reducible refine Kept.mk_ _ _ _ _ _ _ _ _ _ _ _ _ _ _ _ _ _ _ _ _ _ _ _ _ _ _ _ _ _ _ _ _ _ _ _ _ _ _ _ _ _ _ _ ?_ rfl rfl rfl rfl rfl rfl rfl rfl rfl rfl (by first | exact Nat.le_refl _ | exact Nat.le_succ _ | exact Nat.le_add_right _ _ | omega) rfl (by first | exact Nat.le_refl _ | exact Nat.le_succ _ | omega)); (first | with_reducible assumption | with_reducible apply kept_undefineFlags | with_reducible apply kept_stopCtx | with_reducible apply kept_freeHalves | with_reducible apply Kept.ite | with_reducible apply Kept.foldl | with_reducible apply Kept.foldl_fst | with_reducible apply Kept.foldl_snd))

theorem kept_doDisable {r₀ : State} (l : Nat) (s : State) (x2 : Msg) (h : Header) (h₀ : Kept r₀ s) : Kept r₀ (doDisable l s x2 h) := by
  unfold doDisable
  try dsimp only
  repeat' first
    | with_reducible assumption
    | with_reducible apply kept_setBerth
    | with_reducible apply kept_latchEnd
    | with_reducible apply kept_stopIdle
    | with_reducible apply Kept.ite
    | (first | intro _ _ _ _ _ _ _ | intro _ _ _ _ _ _ | intro _ _ _ _ _ | intro _ _ _ _ | intro _ _ _)
    | ((with_reducible refine Kept.mk_ _ _ _ _ _ _ _ _ _ _ _ _ _ _ _ _ _ _ _ _ _ _ _ _ _ _ _ _ _ _ _ _ _ _ _ _ _ _ _ _ _ _ _ ?_ rfl rfl rfl rfl rfl rfl rfl rfl rfl rfl (by first | exact Nat.le_refl _ | exact Nat.le_succ _ | exact Nat.le_add_right _ _ | omega) rfl (by first | exact Nat.le_refl _ | exact Nat.le_succ _ | omega)); (first | with_reducible assumption | with_reducible apply kept_setBerth | with_reducible apply kept_latchEnd | with_reducible apply kept_stopIdle | with_reducible apply Kept.ite))

theorem kept_failConns {r₀ : State} (s : State) (b : Nat) (h₀ : Kept r₀ s) : Kept r₀ (failConns s b) := by
  unfold failConns
  try dsimp only
  repeat' first
    | with_reducible assumption
    | with_reducible apply kept_connFail
    | with_reducible apply Kept.ite
    | with_reducible apply Kept.foldl
    | with_reducible apply Kept.foldl_fst
    | with_reducible apply Kept.foldl_snd
    | (first | intro _ _ _ _ _ _ _ | intro _ _ _ _ _ _ | intro _ _ _ _ _ | intro _ _ _ _ | intro _ _ _)
    | ((with_reducible refine Kept.mk_ _ _ _ _ _ _ _ _ _ _ _ _ _ _ _ _ _ _ _ _ _ _ _ _ _ _ _ _ _ _ _ _ _ _ _ _ _ _ _ _ _ _ _ ?_ rfl rfl rfl rfl rfl rfl rfl rfl rfl rfl (by first | exact Nat.le_refl _ | exact Nat.le_succ _ | exact Nat.le_add_right _ _ | omega) rfl (by first | exact Nat.le_refl _ | exact Nat.le_succ _ | omega)); (first | with_reducible assumption | with_reducible apply kept_connFail | with_reducible apply Kept.ite | with_reducible apply Kept.foldl | with_reducible apply Kept.foldl_fst | with_reducible apply Kept.foldl_snd))

theorem kept_sealWindows {r₀ : State} (s : State) (b : Nat) (h₀ : Kept r₀ s) : Kept r₀ (sealWindows s b) := by
  unfold sealWindows
  try dsimp only
  repeat' first
    | with_reducible assumption
    | with_reducible apply Kept.ite
    | with_reducible apply Kept.ite_fst
    | (first | intro _ _ _ _ _ _ _ | intro _ _ _ _ _ _ | intro _ _ _ _ _ | intro _ _ _ _ | intro _ _ _)
    | ((with_reducible refine Kept.mk_ _ _ _ _ _ _ _ _ _ _ _ _ _ _ _ _ _ _ _ _ _ _ _ _ _ _ _ _ _ _ _ _ _ _ _ _ _ _ _ _ _ _ _ ?_ rfl rfl rfl rfl rfl rfl rfl rfl rfl rfl (by first | exact Nat.le_refl _ | exact Nat.le_succ _ | exact Nat.le_add_right _ _ | omega) rfl (by first | exact Nat.le_refl _ | exact Nat.le_succ _ | omega)); (first | with_reducible assumption | with_reducible apply Kept.ite | with_reducible apply Kept.ite_fst))

theorem kept_loseHold {r₀ : State} (s : State) (b : Nat) (h₀ : Kept r₀ s) : Kept r₀ (loseHold s b) := by
  unfold loseHold
  try dsimp only
  repeat' first
    | with_reducible assumption
    | with_reducible apply kept_freshGen
    | with_reducible apply kept_setHold
    | with_reducible apply Kept.ite
    | (first | intro _ _ _ _ _ _ _ | intro _ _ _ _ _ _ | intro _ _ _ _ _ | intro _ _ _ _ | intro _ _ _)
    | ((with_reducible refine Kept.mk_ _ _ _ _ _ _ _ _ _ _ _ _ _ _ _ _ _ _ _ _ _ _ _ _ _ _ _ _ _ _ _ _ _ _ _ _ _ _ _ _ _ _ _ ?_ rfl rfl rfl rfl rfl rfl rfl rfl rfl rfl (by first | exact Nat.le_refl _ | exact Nat.le_succ _ | exact Nat.le_add_right _ _ | omega) rfl (by first | exact Nat.le_refl _ | exact Nat.le_succ _ | omega)); (first | with_reducible assumption | with_reducible apply kept_freshGen | with_reducible apply kept_setHold | with_reducible apply Kept.ite))

theorem kept_disableDone {r₀ : State} (s : State) (b : Nat) (h₀ : Kept r₀ s) : Kept r₀ (disableDone s b) := by
  unfold disableDone
  try dsimp only
  repeat' first
    | with_reducible assumption
    | with_reducible apply kept_setBerth
    | with_reducible apply kept_halfRecord
    | with_reducible apply kept_payOwed
    | with_reducible apply kept_finishTask
    | with_reducible apply kept_abandonBerth
    | with_reducible apply kept_failConns
    | with_reducible apply kept_sealWindows
    | with_reducible apply kept_loseHold
    | with_reducible apply Kept.ite
    | with_reducible apply Kept.ite_fst
    | with_reducible apply Kept.foldl
    | with_reducible apply Kept.foldl_fst
    | with_reducible apply Kept.foldl_snd
    | (first | intro _ _ _ _ _ _ _ | intro _ _ _ _ _ _ | intro _ _ _ _ _ | intro _ _ _ _ | intro _ _ _)
    | split
    | ((with_reducible refine Kept.mk_ _ _ _ _ _ _ _ _ _ _ _ _ _ _ _ _ _ _ _ _ _ _ _ _ _ _ _ _ _ _ _ _ _ _ _ _ _ _ _ _ _ _ _ ?_ rfl rfl rfl rfl rfl rfl rfl rfl rfl rfl (by first | exact Nat.le_refl _ | exact Nat.le_succ _ | exact Nat.le_add_right _ _ | omega) rfl (by first | exact Nat.le_refl _ | exact Nat.le_succ _ | omega)); (first | with_reducible assumption | with_reducible apply kept_setBerth | with_reducible apply kept_halfRecord | with_reducible apply kept_payOwed | with_reducible apply kept_finishTask | with_reducible apply kept_abandonBerth | with_reducible apply kept_failConns | with_reducible apply kept_sealWindows | with_reducible apply kept_loseHold | with_reducible apply Kept.ite | with_reducible apply Kept.ite_fst | with_reducible apply Kept.foldl | with_reducible apply Kept.foldl_fst | with_reducible apply Kept.foldl_snd | split))

end Sys2Proof.Laws
end

