-- ==== Sys2Proof/Laws/KeptSecure.lean ====
section
/-! SUPPORT. What each operation of Machine/Secure.lean keeps. -/

namespace Sys2Proof.Laws

set_option linter.all false

open Sys2Proof.Machine Sys2Proof.Safety

theorem kept_extendM {r₀ : State} (s : State) (i : Nat) (d : List Byte) (h₀ : Kept r₀ s) : Kept r₀ (extendM s i d) :=
  Kept.sec h₀ _ id id

theorem kept_extendStat {r₀ : State} (s : State) (h₀ : Kept r₀ s) : Kept r₀ (extendStat s) := by
  unfold extendStat
  try dsimp only
  repeat' first
    | with_reducible assumption
    | with_reducible apply kept_extendM
    | with_reducible apply Kept.ite
    | (first | intro _ _ _ _ _ _ _ | intro _ _ _ _ _ _ | intro _ _ _ _ _ | intro _ _ _ _ | intro _ _ _)
    | ((with_reducible refine Kept.mk_ _ _ _ _ _ _ _ _ _ _ _ _ _ _ _ _ _ _ _ _ _ _ _ _ _ _ _ _ _ _ _ _ _ _ _ _ _ _ _ _ _ _ _ ?_ rfl rfl rfl rfl rfl rfl rfl rfl rfl rfl (by first | exact Nat.le_refl _ | exact Nat.le_succ _ | exact Nat.le_add_right _ _ | omega) rfl (by first | exact Nat.le_refl _ | exact Nat.le_succ _ | omega)); (first | with_reducible assumption | with_reducible apply kept_extendM | with_reducible apply Kept.ite))

theorem kept_debugRequest {r₀ : State} (s : State) (smbus : Bool) (h₀ : Kept r₀ s) : Kept r₀ (debugRequest s smbus) := by
  unfold debugRequest
  apply Kept.ite h₀
  exact kept_raiseChip _ _ _ _ (kept_extendStat _ (Kept.sec h₀ _ (fun _ => rfl) (fun _ => rfl)))

/-- The policy of an unlocked module is set. -/
theorem Kept.policy {r₀ s : State} (h₀ : Kept r₀ s) (hu : policyLocked s = false) (a : Nat) (w : Word)
    (ha : a ≠ mgBase + 0x20) : Kept r₀ (regSet s a w) := by
  refine h₀.trans ⟨⟨rfl, rfl, Nat.le_refl _, Nat.le_refl _, fun w => ⟨w.hbm, w.cmdMem, w.slot0, w.slot1⟩, id⟩,
    ⟨fun _ => ?_, id, id, id, id, id, fun hl => ?_, rfl⟩⟩
  · rw [regGet_regSet, if_neg ha]
  · rw [hu] at hl
    exact Bool.noConfusion hl

theorem kept_policyWrite {r₀ : State} (s : State) (v : Word) (h₀ : Kept r₀ s) : Kept r₀ (policyWrite s v) := by
  unfold policyWrite
  split
  · exact h₀
  · rename_i hl
    have hu : policyLocked s = false := by simpa using hl
    have k := Kept.policy h₀ hu (scBase + 8) (v &&& 3) (by decide)
    exact Kept.ite (kept_extendStat _ k) k

theorem kept_keyWrite {r₀ : State} (s : State) (n : Nat) (v : Word) (h₀ : Kept r₀ s) : Kept r₀ (keyWrite s n v) := by
  unfold keyWrite
  split
  · exact h₀
  · rename_i hl
    refine Kept.policy h₀ (by simpa using hl) _ _ ?_
    simp only [mgBase, scBase]
    omega

theorem kept_enterHarbour {r₀ : State} (s : State) (cause : Nat) (h₀ : Kept r₀ s) : Kept r₀ (enterHarbour s cause) :=
  Kept.boot h₀ _ id (fun _ => rfl)

end Sys2Proof.Laws
end

