-- ==== Sys2Proof/Laws/KeptRegs.lean ====
section
/-! SUPPORT. What each operation of Machine/Regs.lean keeps. -/

namespace Sys2Proof.Laws

set_option linter.all false

open Sys2Proof.Machine Sys2Proof.Safety

theorem kept_ptClear {r₀ : State} (s : State) (p : Nat) (o : Nat) (h₀ : Kept r₀ s) : Kept r₀ (ptClear s p o) := by
  unfold ptClear
  try dsimp only
  repeat' first
    | with_reducible assumption
    | with_reducible apply kept_setPort
    | with_reducible apply Kept.ite
    | (first | intro _ _ _ _ _ _ _ | intro _ _ _ _ _ _ | intro _ _ _ _ _ | intro _ _ _ _ | intro _ _ _)
    | ((with_reducible refine Kept.mk_ _ _ _ _ _ _ _ _ _ _ _ _ _ _ _ _ _ _ _ _ _ _ _ _ _ _ _ _ _ _ _ _ _ _ _ _ _ _ _ _ _ _ _ ?_ rfl rfl rfl rfl rfl rfl rfl rfl rfl rfl (by first | exact Nat.le_refl _ | exact Nat.le_succ _ | exact Nat.le_add_right _ _ | omega) rfl (by first | exact Nat.le_refl _ | exact Nat.le_succ _ | omega)); (first | with_reducible assumption | with_reducible apply kept_setPort | with_reducible apply Kept.ite))

theorem kept_stackClear {r₀ : State} (s : State) (k : Nat) (o : Nat) (h₀ : Kept r₀ s) : Kept r₀ (stackClear s k o) := by
  unfold stackClear
  try dsimp only
  repeat' first
    | with_reducible assumption
    | with_reducible apply kept_setStack
    | with_reducible apply Kept.ite
    | (first | intro _ _ _ _ _ _ _ | intro _ _ _ _ _ _ | intro _ _ _ _ _ | intro _ _ _ _ | intro _ _ _)
    | ((with_reducible refine Kept.mk_ _ _ _ _ _ _ _ _ _ _ _ _ _ _ _ _ _ _ _ _ _ _ _ _ _ _ _ _ _ _ _ _ _ _ _ _ _ _ _ _ _ _ _ ?_ rfl rfl rfl rfl rfl rfl rfl rfl rfl rfl (by first | exact Nat.le_refl _ | exact Nat.le_succ _ | exact Nat.le_add_right _ _ | omega) rfl (by first | exact Nat.le_refl _ | exact Nat.le_succ _ | omega)); (first | with_reducible assumption | with_reducible apply kept_setStack | with_reducible apply Kept.ite))

theorem kept_readEffect {r₀ : State} (s : State) (a : Nat) (h₀ : Kept r₀ s) : Kept r₀ (readEffect s a) := by
  unfold readEffect
  try dsimp only
  repeat' first
    | with_reducible assumption
    | with_reducible apply kept_setDeck
    | with_reducible apply kept_setHold
    | with_reducible apply kept_setTime
    | with_reducible apply kept_ptClear
    | with_reducible apply kept_stackClear
    | with_reducible apply Kept.ite
    | (first | intro _ _ _ _ _ _ _ | intro _ _ _ _ _ _ | intro _ _ _ _ _ | intro _ _ _ _ | intro _ _ _)
    | split
    | ((with_reducible refine Kept.mk_ _ _ _ _ _ _ _ _ _ _ _ _ _ _ _ _ _ _ _ _ _ _ _ _ _ _ _ _ _ _ _ _ _ _ _ _ _ _ _ _ _ _ _ ?_ rfl rfl rfl rfl rfl rfl rfl rfl rfl rfl (by first | exact Nat.le_refl _ | exact Nat.le_succ _ | exact Nat.le_add_right _ _ | omega) rfl (by first | exact Nat.le_refl _ | exact Nat.le_succ _ | omega)); (first | with_reducible assumption | with_reducible apply kept_setDeck | with_reducible apply kept_setHold | with_reducible apply kept_setTime | with_reducible apply kept_ptClear | with_reducible apply kept_stackClear | with_reducible apply Kept.ite | split))
    | with_reducible exact rfl
    | exact rfl

theorem kept_regRead {r₀ : State} (s : State) (a : Nat) (h₀ : Kept r₀ s) : Kept r₀ (regRead s a).1 := by
  unfold regRead
  try dsimp only
  repeat' first
    | with_reducible assumption
    | with_reducible apply kept_readEffect
    | with_reducible apply Kept.ite
    | with_reducible apply Kept.ite_fst
    | (first | intro _ _ _ _ _ _ _ | intro _ _ _ _ _ _ | intro _ _ _ _ _ | intro _ _ _ _ | intro _ _ _)
    | ((with_reducible refine Kept.mk_ _ _ _ _ _ _ _ _ _ _ _ _ _ _ _ _ _ _ _ _ _ _ _ _ _ _ _ _ _ _ _ _ _ _ _ _ _ _ _ _ _ _ _ ?_ rfl rfl rfl rfl rfl rfl rfl rfl rfl rfl (by first | exact Nat.le_refl _ | exact Nat.le_succ _ | exact Nat.le_add_right _ _ | omega) rfl (by first | exact Nat.le_refl _ | exact Nat.le_succ _ | omega)); (first | with_reducible assumption | with_reducible apply kept_readEffect | with_reducible apply Kept.ite | with_reducible apply Kept.ite_fst))

theorem kept_coordWrite {r₀ : State} (s : State) (v : Word) (h₀ : Kept r₀ s) : Kept r₀ (coordWrite s v) := by
  unfold coordWrite
  split
  · exact h₀
  · rename_i hv
    have k : Kept r₀ (regSet s (mgBase + 0x20) (v &&& 0x803FFFFF)) := by
      refine h₀.trans ⟨⟨rfl, rfl, Nat.le_refl _, Nat.le_refl _, fun w => ⟨w.hbm, w.cmdMem, w.slot0, w.slot1⟩, id⟩,
        ⟨fun h => absurd h hv, id, id, id, id, id, fun _ => ⟨?_, fun n hn => ?_⟩, rfl⟩⟩
      · rw [regGet_regSet, if_neg (by decide)]
      · unfold keyWord
        rw [regGet_regSet, if_neg]
        simp only [mgBase, scBase]
        omega
    generalize regSet s (mgBase + 0x20) (v &&& 0x803FFFFF) = t at k ⊢
    dsimp only
    split
    · rename_i hp
      have hp : t.boot.phase = 5 := by
        have := (Bool.and_eq_true _ _ ▸ hp).2
        simpa using this
      exact Kept.boot k _ id (fun h => by rw [hp] at h; omega)
    · exact k

theorem kept_ctlFields {r₀ : State} (s : State) (v : Word) (h₀ : Kept r₀ s) : Kept r₀ (ctlFields s v) := by
  unfold ctlFields
  try dsimp only
  repeat' first
    | with_reducible assumption
    | with_reducible apply kept_regSet
    | with_reducible apply Kept.ite
    | (first | intro _ _ _ _ _ _ _ | intro _ _ _ _ _ _ | intro _ _ _ _ _ | intro _ _ _ _ | intro _ _ _)
    | ((with_reducible refine Kept.mk_ _ _ _ _ _ _ _ _ _ _ _ _ _ _ _ _ _ _ _ _ _ _ _ _ _ _ _ _ _ _ _ _ _ _ _ _ _ _ _ _ _ _ _ ?_ rfl rfl rfl rfl rfl rfl rfl rfl rfl rfl (by first | exact Nat.le_refl _ | exact Nat.le_succ _ | exact Nat.le_add_right _ _ | omega) rfl (by first | exact Nat.le_refl _ | exact Nat.le_succ _ | omega)); (first | with_reducible assumption | with_reducible apply kept_regSet | with_reducible apply Kept.ite))
    | split
    | exact rfl
    | (unfold latchReg; apply decide_eq_false; simp only [mgBase, fcBase, ttBase, scBase, pwBase, mwBase, qyBase, ptBase, fcSevAddr]; omega)

theorem kept_failMgmt {r₀ : State} (s : State) (h₀ : Kept r₀ s) : Kept r₀ (failMgmt s) := by
  unfold failMgmt
  try dsimp only
  repeat' first
    | with_reducible assumption
    | with_reducible apply kept_setConn
    | with_reducible apply kept_failReq
    | with_reducible apply Kept.ite
    | with_reducible apply Kept.foldl
    | with_reducible apply Kept.foldl_fst
    | with_reducible apply Kept.foldl_snd
    | (first | intro _ _ _ _ _ _ _ | intro _ _ _ _ _ _ | intro _ _ _ _ _ | intro _ _ _ _ | intro _ _ _)
    | ((with_reducible refine Kept.mk_ _ _ _ _ _ _ _ _ _ _ _ _ _ _ _ _ _ _ _ _ _ _ _ _ _ _ _ _ _ _ _ _ _ _ _ _ _ _ _ _ _ _ _ ?_ rfl rfl rfl rfl rfl rfl rfl rfl rfl rfl (by first | exact Nat.le_refl _ | exact Nat.le_succ _ | exact Nat.le_add_right _ _ | omega) rfl (by first | exact Nat.le_refl _ | exact Nat.le_succ _ | omega)); (first | with_reducible assumption | with_reducible apply kept_setConn | with_reducible apply kept_failReq | with_reducible apply Kept.ite | with_reducible apply Kept.foldl | with_reducible apply Kept.foldl_fst | with_reducible apply Kept.foldl_snd))

theorem kept_mgmtRestart {r₀ : State} (s : State) (v : Word) (h₀ : Kept r₀ s) : Kept r₀ (mgmtRestart s v) := by
  unfold mgmtRestart
  try dsimp only
  repeat' first
    | with_reducible assumption
    | with_reducible apply kept_setConn
    | with_reducible apply kept_dropHeld
    | with_reducible apply kept_ctlFields
    | with_reducible apply kept_failMgmt
    | with_reducible apply Kept.ite
    | (first | intro _ _ _ _ _ _ _ | intro _ _ _ _ _ _ | intro _ _ _ _ _ | intro _ _ _ _ | intro _ _ _)
    | ((with_reducible refine Kept.mk_ _ _ _ _ _ _ _ _ _ _ _ _ _ _ _ _ _ _ _ _ _ _ _ _ _ _ _ _ _ _ _ _ _ _ _ _ _ _ _ _ _ _ _ ?_ rfl rfl rfl rfl rfl rfl rfl rfl rfl rfl (by first | exact Nat.le_refl _ | exact Nat.le_succ _ | exact Nat.le_add_right _ _ | omega) rfl (by first | exact Nat.le_refl _ | exact Nat.le_succ _ | omega)); (first | with_reducible assumption | with_reducible apply kept_setConn | with_reducible apply kept_dropHeld | with_reducible apply kept_ctlFields | with_reducible apply kept_failMgmt | with_reducible apply Kept.ite))

theorem kept_mgmtStop {r₀ : State} (s : State) (v : Word) (h₀ : Kept r₀ s) : Kept r₀ (mgmtStop s v) := by
  unfold mgmtStop
  try dsimp only
  repeat' first
    | with_reducible assumption
    | with_reducible apply kept_setConn
    | with_reducible apply kept_dropHeld
    | with_reducible apply kept_ctlFields
    | with_reducible apply kept_failMgmt
    | with_reducible apply Kept.ite
    | (first | intro _ _ _ _ _ _ _ | intro _ _ _ _ _ _ | intro _ _ _ _ _ | intro _ _ _ _ | intro _ _ _)
    | ((with_reducible refine Kept.mk_ _ _ _ _ _ _ _ _ _ _ _ _ _ _ _ _ _ _ _ _ _ _ _ _ _ _ _ _ _ _ _ _ _ _ _ _ _ _ _ _ _ _ _ ?_ rfl rfl rfl rfl rfl rfl rfl rfl rfl rfl (by first | exact Nat.le_refl _ | exact Nat.le_succ _ | exact Nat.le_add_right _ _ | omega) rfl (by first | exact Nat.le_refl _ | exact Nat.le_succ _ | omega)); (first | with_reducible assumption | with_reducible apply kept_setConn | with_reducible apply kept_dropHeld | with_reducible apply kept_ctlFields | with_reducible apply kept_failMgmt | with_reducible apply Kept.ite))

theorem kept_ctlWrite {r₀ : State} (s : State) (v : Word) (h₀ : Kept r₀ s) : Kept r₀ (ctlWrite s v) := by
  unfold ctlWrite
  try dsimp only
  repeat' first
    | with_reducible assumption
    | with_reducible apply kept_mgmtRestart
    | with_reducible apply kept_mgmtStop
    | with_reducible apply Kept.ite
    | (first | intro _ _ _ _ _ _ _ | intro _ _ _ _ _ _ | intro _ _ _ _ _ | intro _ _ _ _ | intro _ _ _)
    | ((with_reducible refine Kept.mk_ _ _ _ _ _ _ _ _ _ _ _ _ _ _ _ _ _ _ _ _ _ _ _ _ _ _ _ _ _ _ _ _ _ _ _ _ _ _ _ _ _ _ _ ?_ rfl rfl rfl rfl rfl rfl rfl rfl rfl rfl (by first | exact Nat.le_refl _ | exact Nat.le_succ _ | exact Nat.le_add_right _ _ | omega) rfl (by first | exact Nat.le_refl _ | exact Nat.le_succ _ | omega)); (first | with_reducible assumption | with_reducible apply kept_mgmtRestart | with_reducible apply kept_mgmtStop | with_reducible apply Kept.ite))

theorem kept_holdReset {r₀ : State} (s : State) (b : Nat) (h₀ : Kept r₀ s) : Kept r₀ (holdReset s b) := by
  unfold holdReset
  try dsimp only
  repeat' first
    | with_reducible assumption
    | with_reducible apply kept_resetHold
    | with_reducible apply Kept.ite
    | (first | intro _ _ _ _ _ _ _ | intro _ _ _ _ _ _ | intro _ _ _ _ _ | intro _ _ _ _ | intro _ _ _)
    | ((with_reducible refine Kept.mk_ _ _ _ _ _ _ _ _ _ _ _ _ _ _ _ _ _ _ _ _ _ _ _ _ _ _ _ _ _ _ _ _ _ _ _ _ _ _ _ _ _ _ _ ?_ rfl rfl rfl rfl rfl rfl rfl rfl rfl rfl (by first | exact Nat.le_refl _ | exact Nat.le_succ _ | exact Nat.le_add_right _ _ | omega) rfl (by first | exact Nat.le_refl _ | exact Nat.le_succ _ | omega)); (first | with_reducible assumption | with_reducible apply kept_resetHold | with_reducible apply Kept.ite))

theorem kept_holdStatWrite {r₀ : State} (s : State) (b : Nat) (v : Word) (h₀ : Kept r₀ s) : Kept r₀ (holdStatWrite s b v) := by
  unfold holdStatWrite
  try dsimp only
  repeat' first
    | with_reducible assumption
    | with_reducible apply kept_setHold
    | with_reducible apply kept_holdReset
    | with_reducible apply Kept.ite
    | (first | intro _ _ _ _ _ _ _ | intro _ _ _ _ _ _ | intro _ _ _ _ _ | intro _ _ _ _ | intro _ _ _)
    | ((with_reducible refine Kept.mk_ _ _ _ _ _ _ _ _ _ _ _ _ _ _ _ _ _ _ _ _ _ _ _ _ _ _ _ _ _ _ _ _ _ _ _ _ _ _ _ _ _ _ _ ?_ rfl rfl rfl rfl rfl rfl rfl rfl rfl rfl (by first | exact Nat.le_refl _ | exact Nat.le_succ _ | exact Nat.le_add_right _ _ | omega) rfl (by first | exact Nat.le_refl _ | exact Nat.le_succ _ | omega)); (first | with_reducible assumption | with_reducible apply kept_setHold | with_reducible apply kept_holdReset | with_reducible apply Kept.ite))

/-- A code that names a source is below 256. -/
theorem faultDefault_lt {n d : Nat} (h : faultDefault n = some d) : n < 256 := by
  rcases Nat.lt_or_ge n 256 with hn | hn
  · exact hn
  · have hl : ∀ l : List Nat, l.all (fun x => decide (x < 256)) = true → l.contains n = false := by
      intro l hl
      rw [List.contains_eq_any_beq, List.any_eq_false]
      intro x hx
      have := List.all_eq_true.mp hl x hx
      simp only [decide_eq_true_eq] at this
      simp only [beq_iff_eq]
      omega
    have hf : ∀ l : List Nat, l.all (fun x => decide (x < 256)) = true → l.contains n = true → False := by
      intro l h1 h2
      rw [hl l h1] at h2
      exact Bool.noConfusion h2
    unfold faultDefault at h
    repeat' split at h
    all_goals first
      | exact (hf _ rfl (by assumption)).elim
      | exact absurd h (by simp)

/-- FC_SEV_n is none of the registers that a latch speaks of. -/
theorem latch_sev {n : Nat} (h : n < 256) : latchReg (fcSevAddr n) = false := by
  unfold latchReg
  apply decide_eq_false
  simp only [fcSevAddr, mgBase, fcBase, scBase]
  omega

theorem kept_sevWrite {r₀ : State} (s : State) (n : Nat) (v : Word) (h₀ : Kept r₀ s) : Kept r₀ (sevWrite s n v) := by
  unfold sevWrite
  dsimp only
  split
  · rename_i hd
    exact Kept.ite h₀ (kept_regSet _ _ (latch_sev (faultDefault_lt hd)) h₀)
  · exact h₀

theorem kept_alertEnWrite {r₀ : State} (s : State) (v : Word) (h₀ : Kept r₀ s) : Kept r₀ (alertEnWrite s v) := by
  unfold alertEnWrite
  try dsimp only
  repeat' first
    | with_reducible assumption
    | with_reducible apply kept_regSet
    | with_reducible apply Kept.ite
    | (first | intro _ _ _ _ _ _ _ | intro _ _ _ _ _ _ | intro _ _ _ _ _ | intro _ _ _ _ | intro _ _ _)
    | ((with_reducible refine Kept.mk_ _ _ _ _ _ _ _ _ _ _ _ _ _ _ _ _ _ _ _ _ _ _ _ _ _ _ _ _ _ _ _ _ _ _ _ _ _ _ _ _ _ _ _ ?_ rfl rfl rfl rfl rfl rfl rfl rfl rfl rfl (by first | exact Nat.le_refl _ | exact Nat.le_succ _ | exact Nat.le_add_right _ _ | omega) rfl (by first | exact Nat.le_refl _ | exact Nat.le_succ _ | omega)); (first | with_reducible assumption | with_reducible apply kept_regSet | with_reducible apply Kept.ite))
    | split
    | exact rfl
    | (unfold latchReg; apply decide_eq_false; simp only [mgBase, fcBase, ttBase, scBase, pwBase, mwBase, qyBase, ptBase, fcSevAddr]; omega)

theorem kept_pfcWrite {r₀ : State} (s : State) (p : Nat) (v : Word) (h₀ : Kept r₀ s) : Kept r₀ (pfcWrite s p v) := by
  unfold pfcWrite
  try dsimp only
  repeat' first
    | with_reducible assumption
    | with_reducible apply kept_regSet
    | with_reducible apply kept_releaseHeld
    | with_reducible apply kept_setPfc
    | with_reducible apply Kept.ite
    | with_reducible apply Kept.foldl
    | with_reducible apply Kept.foldl_fst
    | with_reducible apply Kept.foldl_snd
    | (first | intro _ _ _ _ _ _ _ | intro _ _ _ _ _ _ | intro _ _ _ _ _ | intro _ _ _ _ | intro _ _ _)
    | ((with_reducible refine Kept.mk_ _ _ _ _ _ _ _ _ _ _ _ _ _ _ _ _ _ _ _ _ _ _ _ _ _ _ _ _ _ _ _ _ _ _ _ _ _ _ _ _ _ _ _ ?_ rfl rfl rfl rfl rfl rfl rfl rfl rfl rfl (by first | exact Nat.le_refl _ | exact Nat.le_succ _ | exact Nat.le_add_right _ _ | omega) rfl (by first | exact Nat.le_refl _ | exact Nat.le_succ _ | omega)); (first | with_reducible assumption | with_reducible apply kept_regSet | with_reducible apply kept_releaseHeld | with_reducible apply kept_setPfc | with_reducible apply Kept.ite | with_reducible apply Kept.foldl | with_reducible apply Kept.foldl_fst | with_reducible apply Kept.foldl_snd))
    | split
    | exact rfl
    | (unfold latchReg; apply decide_eq_false; simp only [mgBase, fcBase, ttBase, scBase, pwBase, mwBase, qyBase, ptBase, fcSevAddr]; omega)

theorem kept_ccWrite {r₀ : State} (s : State) (p : Nat) (v : Word) (h₀ : Kept r₀ s) : Kept r₀ (ccWrite s p v) := by
  unfold ccWrite
  try dsimp only
  repeat' first
    | with_reducible assumption
    | with_reducible apply kept_regSet
    | with_reducible apply Kept.ite
    | with_reducible apply Kept.ite_fst
    | (first | intro _ _ _ _ _ _ _ | intro _ _ _ _ _ _ | intro _ _ _ _ _ | intro _ _ _ _ | intro _ _ _)
    | ((with_reducible refine Kept.mk_ _ _ _ _ _ _ _ _ _ _ _ _ _ _ _ _ _ _ _ _ _ _ _ _ _ _ _ _ _ _ _ _ _ _ _ _ _ _ _ _ _ _ _ ?_ rfl rfl rfl rfl rfl rfl rfl rfl rfl rfl (by first | exact Nat.le_refl _ | exact Nat.le_succ _ | exact Nat.le_add_right _ _ | omega) rfl (by first | exact Nat.le_refl _ | exact Nat.le_succ _ | omega)); (first | with_reducible assumption | with_reducible apply kept_regSet | with_reducible apply Kept.ite | with_reducible apply Kept.ite_fst))
    | split
    | exact rfl
    | (unfold latchReg; apply decide_eq_false; simp only [mgBase, fcBase, ttBase, scBase, pwBase, mwBase, qyBase, ptBase, fcSevAddr]; omega)

theorem kept_putIf {r₀ : State} (s : State) (a : Nat) (ok : Bool) (v : Nat) (ha : latchReg a = false) (h₀ : Kept r₀ s) :
    Kept r₀ (putIf s a ok v) := by
  unfold putIf
  exact Kept.ite (kept_regSet _ _ ha h₀) h₀

theorem kept_mgWrite {r₀ : State} (s : State) (o : Nat) (v : Word) (h₀ : Kept r₀ s) : Kept r₀ (mgWrite s o v) := by
  unfold mgWrite
  try dsimp only
  repeat' first
    | with_reducible assumption
    | with_reducible apply kept_regSet
    | with_reducible apply kept_ferryWrite
    | with_reducible apply kept_modeWrite
    | with_reducible apply kept_planWrite
    | with_reducible apply kept_prefixWrite
    | with_reducible apply kept_coordWrite
    | with_reducible apply kept_ctlWrite
    | with_reducible apply Kept.dite
    | intro _
    | (first | intro _ _ _ _ _ _ _ | intro _ _ _ _ _ _ | intro _ _ _ _ _ | intro _ _ _ _ | intro _ _ _)
    | split
    | split
    | exact rfl
    | (unfold latchReg; apply decide_eq_false; simp only [mgBase, fcBase, ttBase, scBase, pwBase, mwBase, qyBase, ptBase, fcSevAddr]; omega)

theorem kept_fcWrite {r₀ : State} (s : State) (o : Nat) (v : Word) (h₀ : Kept r₀ s) : Kept r₀ (fcWrite s o v) := by
  unfold fcWrite
  try dsimp only
  repeat' first
    | with_reducible assumption
    | with_reducible apply kept_clearRecs
    | with_reducible apply kept_sevWrite
    | with_reducible apply kept_putIf
    | with_reducible apply Kept.dite
    | intro _
    | (first | intro _ _ _ _ _ _ _ | intro _ _ _ _ _ _ | intro _ _ _ _ _ | intro _ _ _ _ | intro _ _ _)
    | split
    | ((with_reducible refine Kept.mk_ _ _ _ _ _ _ _ _ _ _ _ _ _ _ _ _ _ _ _ _ _ _ _ _ _ _ _ _ _ _ _ _ _ _ _ _ _ _ _ _ _ _ _ ?_ rfl rfl rfl rfl rfl rfl rfl rfl rfl rfl (by first | exact Nat.le_refl _ | exact Nat.le_succ _ | exact Nat.le_add_right _ _ | omega) rfl (by first | exact Nat.le_refl _ | exact Nat.le_succ _ | omega)); (first | with_reducible assumption | with_reducible apply kept_clearRecs | with_reducible apply kept_sevWrite | with_reducible apply kept_putIf | with_reducible apply Kept.dite))
    | split
    | exact rfl
    | (unfold latchReg; apply decide_eq_false; simp only [mgBase, fcBase, ttBase, scBase, pwBase, mwBase, qyBase, ptBase, fcSevAddr]; omega)

theorem kept_scWrite {r₀ : State} (s : State) (smbus : Bool) (o : Nat) (v : Word) (h₀ : Kept r₀ s) : Kept r₀ (scWrite s smbus o v) := by
  unfold scWrite
  try dsimp only
  repeat' first
    | with_reducible assumption
    | with_reducible apply kept_regSet
    | with_reducible apply kept_debugRequest
    | with_reducible apply kept_policyWrite
    | with_reducible apply kept_keyWrite
    | with_reducible apply Kept.ite
    | (first | intro _ _ _ _ _ _ _ | intro _ _ _ _ _ _ | intro _ _ _ _ _ | intro _ _ _ _ | intro _ _ _)
    | ((with_reducible refine Kept.mk_ _ _ _ _ _ _ _ _ _ _ _ _ _ _ _ _ _ _ _ _ _ _ _ _ _ _ _ _ _ _ _ _ _ _ _ _ _ _ _ _ _ _ _ ?_ rfl rfl rfl rfl rfl rfl rfl rfl rfl rfl (by first | exact Nat.le_refl _ | exact Nat.le_succ _ | exact Nat.le_add_right _ _ | omega) rfl (by first | exact Nat.le_refl _ | exact Nat.le_succ _ | omega)); (first | with_reducible assumption | with_reducible apply kept_regSet | with_reducible apply kept_debugRequest | with_reducible apply kept_policyWrite | with_reducible apply kept_keyWrite | with_reducible apply Kept.ite))
    | split
    | exact rfl
    | (unfold latchReg; apply decide_eq_false; simp only [mgBase, fcBase, ttBase, scBase, pwBase, mwBase, qyBase, ptBase, fcSevAddr]; omega)

theorem kept_pwWrite {r₀ : State} (s : State) (o : Nat) (v : Word) (h₀ : Kept r₀ s) : Kept r₀ (pwWrite s o v) := by
  unfold pwWrite
  try dsimp only
  repeat' first
    | with_reducible assumption
    | with_reducible apply kept_regSet
    | with_reducible apply kept_alertEnWrite
    | with_reducible apply kept_putIf
    | with_reducible apply Kept.dite
    | intro _
    | (first | intro _ _ _ _ _ _ _ | intro _ _ _ _ _ _ | intro _ _ _ _ _ | intro _ _ _ _ | intro _ _ _)
    | split
    | ((with_reducible refine Kept.mk_ _ _ _ _ _ _ _ _ _ _ _ _ _ _ _ _ _ _ _ _ _ _ _ _ _ _ _ _ _ _ _ _ _ _ _ _ _ _ _ _ _ _ _ ?_ rfl rfl rfl rfl rfl rfl rfl rfl rfl rfl (by first | exact Nat.le_refl _ | exact Nat.le_succ _ | exact Nat.le_add_right _ _ | omega) rfl (by first | exact Nat.le_refl _ | exact Nat.le_succ _ | omega)); (first | with_reducible assumption | with_reducible apply kept_regSet | with_reducible apply kept_alertEnWrite | with_reducible apply kept_putIf | with_reducible apply Kept.dite))
    | split
    | exact rfl
    | (unfold latchReg; apply decide_eq_false; simp only [mgBase, fcBase, ttBase, scBase, pwBase, mwBase, qyBase, ptBase, fcSevAddr]; omega)

theorem kept_ttWrite {r₀ : State} (s : State) (o : Nat) (v : Word) (h₀ : Kept r₀ s) : Kept r₀ (ttWrite s o v) := by
  unfold ttWrite
  try dsimp only
  repeat' first
    | with_reducible assumption
    | with_reducible apply kept_regSet
    | with_reducible apply kept_gmChanged
    | with_reducible apply kept_tblGo
    | with_reducible apply Kept.dite
    | intro _
    | (first | intro _ _ _ _ _ _ _ | intro _ _ _ _ _ _ | intro _ _ _ _ _ | intro _ _ _ _ | intro _ _ _)
    | split
    | split
    | exact rfl
    | (unfold latchReg; apply decide_eq_false; simp only [mgBase, fcBase, ttBase, scBase, pwBase, mwBase, qyBase, ptBase, fcSevAddr]; omega)

theorem kept_holdWrite {r₀ : State} (s : State) (b : Nat) (o : Nat) (v : Word) (h₀ : Kept r₀ s) : Kept r₀ (holdWrite s b o v) := by
  unfold holdWrite
  try dsimp only
  repeat' first
    | with_reducible assumption
    | with_reducible apply kept_regSet
    | with_reducible apply kept_holdStatWrite
    | with_reducible apply kept_putIf
    | with_reducible apply Kept.dite
    | intro _
    | (first | intro _ _ _ _ _ _ _ | intro _ _ _ _ _ _ | intro _ _ _ _ _ | intro _ _ _ _ | intro _ _ _)
    | split
    | split
    | exact rfl
    | (unfold latchReg; apply decide_eq_false; simp only [mgBase, fcBase, ttBase, scBase, pwBase, mwBase, qyBase, ptBase, fcSevAddr]; omega)

theorem kept_mwWrite {r₀ : State} (s : State) (o : Nat) (v : Word) (h₀ : Kept r₀ s) : Kept r₀ (mwWrite s o v) := by
  unfold mwWrite
  try dsimp only
  repeat' first
    | with_reducible assumption
    | with_reducible apply kept_regSet
    | with_reducible apply kept_commitTrk
    | with_reducible apply kept_holdWrite
    | with_reducible apply Kept.dite
    | intro _
    | (first | intro _ _ _ _ _ _ _ | intro _ _ _ _ _ _ | intro _ _ _ _ _ | intro _ _ _ _ | intro _ _ _)
    | split
    | split
    | exact rfl
    | (unfold latchReg; apply decide_eq_false; simp only [mgBase, fcBase, ttBase, scBase, pwBase, mwBase, qyBase, ptBase, fcSevAddr]; omega)

theorem kept_qyWrite {r₀ : State} (s : State) (q : Nat) (o : Nat) (v : Word) (h₀ : Kept r₀ s) : Kept r₀ (qyWrite s q o v) := by
  unfold qyWrite
  try dsimp only
  repeat' first
    | with_reducible assumption
    | with_reducible apply kept_regSet
    | with_reducible apply kept_commitArb
    | with_reducible apply kept_putIf
    | with_reducible apply Kept.dite
    | intro _
    | (first | intro _ _ _ _ _ _ _ | intro _ _ _ _ _ _ | intro _ _ _ _ _ | intro _ _ _ _ | intro _ _ _)
    | split
    | split
    | exact rfl
    | (unfold latchReg; apply decide_eq_false; simp only [mgBase, fcBase, ttBase, scBase, pwBase, mwBase, qyBase, ptBase, fcSevAddr]; omega)

theorem kept_dkWrite {r₀ : State} (s : State) (d : Nat) (o : Nat) (v : Word) (h₀ : Kept r₀ s) : Kept r₀ (dkWrite s d o v) := by
  unfold dkWrite
  try dsimp only
  repeat' first
    | with_reducible assumption
    | with_reducible apply kept_setDeck
    | with_reducible apply Kept.ite
    | (first | intro _ _ _ _ _ _ _ | intro _ _ _ _ _ _ | intro _ _ _ _ _ | intro _ _ _ _ | intro _ _ _)
    | ((with_reducible refine Kept.mk_ _ _ _ _ _ _ _ _ _ _ _ _ _ _ _ _ _ _ _ _ _ _ _ _ _ _ _ _ _ _ _ _ _ _ _ _ _ _ _ _ _ _ _ ?_ rfl rfl rfl rfl rfl rfl rfl rfl rfl rfl (by first | exact Nat.le_refl _ | exact Nat.le_succ _ | exact Nat.le_add_right _ _ | omega) rfl (by first | exact Nat.le_refl _ | exact Nat.le_succ _ | omega)); (first | with_reducible assumption | with_reducible apply kept_setDeck | with_reducible apply Kept.ite))

theorem kept_ptWrite {r₀ : State} (s : State) (p : Nat) (o : Nat) (v : Word) (h₀ : Kept r₀ s) : Kept r₀ (ptWrite s p o v) := by
  unfold ptWrite
  try dsimp only
  repeat' first
    | with_reducible assumption
    | with_reducible apply kept_regSet
    | with_reducible apply kept_pfcWrite
    | with_reducible apply kept_ccWrite
    | with_reducible apply Kept.ite
    | (first | intro _ _ _ _ _ _ _ | intro _ _ _ _ _ _ | intro _ _ _ _ _ | intro _ _ _ _ | intro _ _ _)
    | ((with_reducible refine Kept.mk_ _ _ _ _ _ _ _ _ _ _ _ _ _ _ _ _ _ _ _ _ _ _ _ _ _ _ _ _ _ _ _ _ _ _ _ _ _ _ _ _ _ _ _ ?_ rfl rfl rfl rfl rfl rfl rfl rfl rfl rfl (by first | exact Nat.le_refl _ | exact Nat.le_succ _ | exact Nat.le_add_right _ _ | omega) rfl (by first | exact Nat.le_refl _ | exact Nat.le_succ _ | omega)); (first | with_reducible assumption | with_reducible apply kept_regSet | with_reducible apply kept_pfcWrite | with_reducible apply kept_ccWrite | with_reducible apply Kept.ite))
    | split
    | exact rfl
    | (unfold latchReg; apply decide_eq_false; simp only [mgBase, fcBase, ttBase, scBase, pwBase, mwBase, qyBase, ptBase, fcSevAddr]; omega)

theorem kept_regWrite {r₀ : State} (s : State) (smbus : Bool) (a : Nat) (v : Word) (h₀ : Kept r₀ s) : Kept r₀ (regWrite s smbus a v) := by
  unfold regWrite
  try dsimp only
  repeat' first
    | with_reducible assumption
    | with_reducible apply kept_mgWrite
    | with_reducible apply kept_fcWrite
    | with_reducible apply kept_scWrite
    | with_reducible apply kept_pwWrite
    | with_reducible apply kept_ttWrite
    | with_reducible apply kept_mwWrite
    | with_reducible apply kept_qyWrite
    | with_reducible apply kept_dkWrite
    | with_reducible apply kept_ptWrite
    | with_reducible apply Kept.ite
    | (first | intro _ _ _ _ _ _ _ | intro _ _ _ _ _ _ | intro _ _ _ _ _ | intro _ _ _ _ | intro _ _ _)
    | split
    | ((with_reducible refine Kept.mk_ _ _ _ _ _ _ _ _ _ _ _ _ _ _ _ _ _ _ _ _ _ _ _ _ _ _ _ _ _ _ _ _ _ _ _ _ _ _ _ _ _ _ _ ?_ rfl rfl rfl rfl rfl rfl rfl rfl rfl rfl (by first | exact Nat.le_refl _ | exact Nat.le_succ _ | exact Nat.le_add_right _ _ | omega) rfl (by first | exact Nat.le_refl _ | exact Nat.le_succ _ | omega)); (first | with_reducible assumption | with_reducible apply kept_mgWrite | with_reducible apply kept_fcWrite | with_reducible apply kept_scWrite | with_reducible apply kept_pwWrite | with_reducible apply kept_ttWrite | with_reducible apply kept_mwWrite | with_reducible apply kept_qyWrite | with_reducible apply kept_dkWrite | with_reducible apply kept_ptWrite | with_reducible apply Kept.ite | split))

theorem kept_smbRead {r₀ : State} (s : State) (h₀ : Kept r₀ s) : Kept r₀ (smbRead s) := by
  unfold smbRead
  try dsimp only
  repeat' first
    | with_reducible assumption
    | with_reducible apply kept_send
    | with_reducible apply kept_regRead
    | with_reducible apply Kept.ite
    | (first | intro _ _ _ _ _ _ _ | intro _ _ _ _ _ _ | intro _ _ _ _ _ | intro _ _ _ _ | intro _ _ _)
    | ((with_reducible refine Kept.mk_ _ _ _ _ _ _ _ _ _ _ _ _ _ _ _ _ _ _ _ _ _ _ _ _ _ _ _ _ _ _ _ _ _ _ _ _ _ _ _ _ _ _ _ ?_ rfl rfl rfl rfl rfl rfl rfl rfl rfl rfl (by first | exact Nat.le_refl _ | exact Nat.le_succ _ | exact Nat.le_add_right _ _ | omega) rfl (by first | exact Nat.le_refl _ | exact Nat.le_succ _ | omega)); (first | with_reducible assumption | with_reducible apply kept_send | with_reducible apply kept_regRead | with_reducible apply Kept.ite))

end Sys2Proof.Laws
end

