-- ==== Sys2Proof/Laws/KeptRdma.lean ====
section
/-! SUPPORT. What each operation of Machine/Rdma.lean keeps. -/

namespace Sys2Proof.Laws

set_option linter.all false

open Sys2Proof.Machine Sys2Proof.Safety

theorem kept_cmdWrite {r₀ : State} (s : State) (n : Nat) (q : Nat) (off : Nat) (data : List Byte) (arm : Bool) (h₀ : Kept r₀ s) : Kept r₀ (cmdWrite s n q off data arm) := by
  unfold cmdWrite
  generalize q * 0x80000 + off = a
  generalize off / 0x40000 = h
  generalize off % 0x40000 / 32 = g
  split
  · apply Kept.ite
    · exact kept_accessFail _ _ h₀
    · apply Kept.ite
      · exact kept_accessFail _ _ (kept_raiseInbound _ _ _ _ _ _ h₀)
      · have k : Kept r₀ { s with cmdMem := s.cmdMem.writeBytes a data } := Kept.cmdMem h₀ _ (wf_writeBytes _ _ _)
        exact kept_acknowledge _ _ _ (Kept.ite (kept_setHalf _ _ _ _ _ k) k)
  · exact kept_accessFail _ _ h₀

theorem kept_respond {r₀ : State} (s : State) (k : Packet) (n : Nat) (data : List Byte) (h₀ : Kept r₀ s) : Kept r₀ (respond s k n data) := by
  unfold respond
  try dsimp only
  repeat' first
    | with_reducible assumption
    | with_reducible apply kept_answerOn
    | with_reducible apply kept_nextPsn
    | with_reducible apply Kept.ite
    | (first | intro _ _ _ _ _ _ _ | intro _ _ _ _ _ _ | intro _ _ _ _ _ | intro _ _ _ _ | intro _ _ _)
    | ((with_reducible refine Kept.mk_ _ _ _ _ _ _ _ _ _ _ _ _ _ _ _ _ _ _ _ _ _ _ _ _ _ _ _ _ _ _ _ _ _ _ _ _ _ _ _ _ _ _ _ ?_ rfl rfl rfl rfl rfl rfl rfl rfl rfl rfl (by first | exact Nat.le_refl _ | exact Nat.le_succ _ | exact Nat.le_add_right _ _ | omega) rfl (by first | exact Nat.le_refl _ | exact Nat.le_succ _ | omega)); (first | with_reducible assumption | with_reducible apply kept_answerOn | with_reducible apply kept_nextPsn | with_reducible apply Kept.ite))

theorem kept_cmdRead {r₀ : State} (s : State) (k : Packet) (n : Nat) (q : Nat) (off : Nat) (len : Nat) (h₀ : Kept r₀ s) : Kept r₀ (cmdRead s k n q off len) := by
  unfold cmdRead
  try dsimp only
  repeat' first
    | with_reducible assumption
    | with_reducible apply kept_accessFail
    | with_reducible apply kept_respond
    | with_reducible apply Kept.ite
    | (first | intro _ _ _ _ _ _ _ | intro _ _ _ _ _ _ | intro _ _ _ _ _ | intro _ _ _ _ | intro _ _ _)
    | ((with_reducible refine Kept.mk_ _ _ _ _ _ _ _ _ _ _ _ _ _ _ _ _ _ _ _ _ _ _ _ _ _ _ _ _ _ _ _ _ _ _ _ _ _ _ _ _ _ _ _ ?_ rfl rfl rfl rfl rfl rfl rfl rfl rfl rfl (by first | exact Nat.le_refl _ | exact Nat.le_succ _ | exact Nat.le_add_right _ _ | omega) rfl (by first | exact Nat.le_refl _ | exact Nat.le_succ _ | omega)); (first | with_reducible assumption | with_reducible apply kept_accessFail | with_reducible apply kept_respond | with_reducible apply Kept.ite))

theorem kept_dbgPut {r₀ : State} (s : State) (d : Nat) (off : Nat) (data : List Byte) (h : Bool) (h₀ : Kept r₀ s) : Kept r₀ (dbgPut s d off data h) := by
  unfold dbgPut
  try dsimp only
  repeat' first
    | with_reducible assumption
    | with_reducible apply kept_putBuf
    | with_reducible apply Kept.ite
    | with_reducible apply Kept.foldl
    | with_reducible apply Kept.foldl_fst
    | with_reducible apply Kept.foldl_snd
    | (first | intro _ _ _ _ _ _ _ | intro _ _ _ _ _ _ | intro _ _ _ _ _ | intro _ _ _ _ | intro _ _ _)
    | ((with_reducible refine Kept.mk_ _ _ _ _ _ _ _ _ _ _ _ _ _ _ _ _ _ _ _ _ _ _ _ _ _ _ _ _ _ _ _ _ _ _ _ _ _ _ _ _ _ _ _ ?_ rfl rfl rfl rfl rfl rfl rfl rfl rfl rfl (by first | exact Nat.le_refl _ | exact Nat.le_succ _ | exact Nat.le_add_right _ _ | omega) rfl (by first | exact Nat.le_refl _ | exact Nat.le_succ _ | omega)); (first | with_reducible assumption | with_reducible apply kept_putBuf | with_reducible apply Kept.ite | with_reducible apply Kept.foldl | with_reducible apply Kept.foldl_fst | with_reducible apply Kept.foldl_snd))

theorem kept_dbgWrite {r₀ : State} (s : State) (n : Nat) (d : Nat) (off : Nat) (data : List Byte) (h₀ : Kept r₀ s) : Kept r₀ (dbgWrite s n d off data) := by
  unfold dbgWrite
  try dsimp only
  repeat' first
    | with_reducible assumption
    | with_reducible apply kept_accessFail
    | with_reducible apply kept_acknowledge
    | with_reducible apply kept_dbgPut
    | with_reducible apply Kept.ite
    | (first | intro _ _ _ _ _ _ _ | intro _ _ _ _ _ _ | intro _ _ _ _ _ | intro _ _ _ _ | intro _ _ _)
    | split
    | ((with_reducible refine Kept.mk_ _ _ _ _ _ _ _ _ _ _ _ _ _ _ _ _ _ _ _ _ _ _ _ _ _ _ _ _ _ _ _ _ _ _ _ _ _ _ _ _ _ _ _ ?_ rfl rfl rfl rfl rfl rfl rfl rfl rfl rfl (by first | exact Nat.le_refl _ | exact Nat.le_succ _ | exact Nat.le_add_right _ _ | omega) rfl (by first | exact Nat.le_refl _ | exact Nat.le_succ _ | omega)); (first | with_reducible assumption | with_reducible apply kept_accessFail | with_reducible apply kept_acknowledge | with_reducible apply kept_dbgPut | with_reducible apply Kept.ite | split))

theorem kept_hbmRefuse {r₀ : State} (s : State) (p : Nat) (n : Nat) (why : Option Nat) (h₀ : Kept r₀ s) : Kept r₀ (hbmRefuse s p n why) := by
  unfold hbmRefuse
  try dsimp only
  repeat' first
    | with_reducible assumption
    | with_reducible apply kept_windowFail
    | with_reducible apply kept_accessFail
    | with_reducible apply Kept.ite
    | (first | intro _ _ _ _ _ _ _ | intro _ _ _ _ _ _ | intro _ _ _ _ _ | intro _ _ _ _ | intro _ _ _)
    | split
    | ((with_reducible refine Kept.mk_ _ _ _ _ _ _ _ _ _ _ _ _ _ _ _ _ _ _ _ _ _ _ _ _ _ _ _ _ _ _ _ _ _ _ _ _ _ _ _ _ _ _ _ ?_ rfl rfl rfl rfl rfl rfl rfl rfl rfl rfl (by first | exact Nat.le_refl _ | exact Nat.le_succ _ | exact Nat.le_add_right _ _ | omega) rfl (by first | exact Nat.le_refl _ | exact Nat.le_succ _ | omega)); (first | with_reducible assumption | with_reducible apply kept_windowFail | with_reducible apply kept_accessFail | with_reducible apply Kept.ite | split))

theorem kept_hbmInEnd {r₀ : State} (s : State) (p : Nat) (n : Nat) (len : Nat) (bad : Option Nat) (done : Bool) (h₀ : Kept r₀ s) : Kept r₀ (hbmInEnd s p n len bad done) := by
  unfold hbmInEnd
  try dsimp only
  repeat' first
    | with_reducible assumption
    | with_reducible apply kept_raiseInbound
    | with_reducible apply kept_accessFail
    | with_reducible apply kept_acknowledge
    | with_reducible apply Kept.ite
    | (first | intro _ _ _ _ _ _ _ | intro _ _ _ _ _ _ | intro _ _ _ _ _ | intro _ _ _ _ | intro _ _ _)
    | split
    | ((with_reducible refine Kept.mk_ _ _ _ _ _ _ _ _ _ _ _ _ _ _ _ _ _ _ _ _ _ _ _ _ _ _ _ _ _ _ _ _ _ _ _ _ _ _ _ _ _ _ _ ?_ rfl rfl rfl rfl rfl rfl rfl rfl rfl rfl (by first | exact Nat.le_refl _ | exact Nat.le_succ _ | exact Nat.le_add_right _ _ | omega) rfl (by first | exact Nat.le_refl _ | exact Nat.le_succ _ | omega)); (first | with_reducible assumption | with_reducible apply kept_raiseInbound | with_reducible apply kept_accessFail | with_reducible apply kept_acknowledge | with_reducible apply Kept.ite | split))

theorem kept_hbmIn {r₀ : State} (s : State) (p : Nat) (n : Nat) (a : Nat) (data : List Byte) (mem : HbmOutcome) (h₀ : Kept r₀ s) : Kept r₀ (hbmIn s p n a data mem) := by
  unfold hbmIn
  try dsimp only
  repeat' first
    | with_reducible assumption
    | with_reducible apply kept_stepWrite
    | with_reducible apply kept_hbmRefuse
    | with_reducible apply kept_hbmInEnd
    | with_reducible apply Kept.ite
    | with_reducible apply Kept.ite_fst
    | (first | intro _ _ _ _ _ _ _ | intro _ _ _ _ _ _ | intro _ _ _ _ _ | intro _ _ _ _ | intro _ _ _)
    | split
    | ((with_reducible refine Kept.mk_ _ _ _ _ _ _ _ _ _ _ _ _ _ _ _ _ _ _ _ _ _ _ _ _ _ _ _ _ _ _ _ _ _ _ _ _ _ _ _ _ _ _ _ ?_ rfl rfl rfl rfl rfl rfl rfl rfl rfl rfl (by first | exact Nat.le_refl _ | exact Nat.le_succ _ | exact Nat.le_add_right _ _ | omega) rfl (by first | exact Nat.le_refl _ | exact Nat.le_succ _ | omega)); (first | with_reducible assumption | with_reducible apply kept_stepWrite | with_reducible apply kept_hbmRefuse | with_reducible apply kept_hbmInEnd | with_reducible apply Kept.ite | with_reducible apply Kept.ite_fst | split))

theorem kept_hbmOut {r₀ : State} (s : State) (k : Packet) (n : Nat) (a : Nat) (len : Nat) (mem : HbmOutcome) (h₀ : Kept r₀ s) : Kept r₀ (hbmOut s k n a len mem) := by
  unfold hbmOut
  try dsimp only
  repeat' first
    | with_reducible assumption
    | with_reducible apply kept_readAllowed
    | with_reducible apply kept_accessFail
    | with_reducible apply kept_respond
    | with_reducible apply kept_hbmRefuse
    | with_reducible apply Kept.ite
    | with_reducible apply Kept.ite_fst
    | (first | intro _ _ _ _ _ _ _ | intro _ _ _ _ _ _ | intro _ _ _ _ _ | intro _ _ _ _ | intro _ _ _)
    | split
    | ((with_reducible refine Kept.mk_ _ _ _ _ _ _ _ _ _ _ _ _ _ _ _ _ _ _ _ _ _ _ _ _ _ _ _ _ _ _ _ _ _ _ _ _ _ _ _ _ _ _ _ ?_ rfl rfl rfl rfl rfl rfl rfl rfl rfl rfl (by first | exact Nat.le_refl _ | exact Nat.le_succ _ | exact Nat.le_add_right _ _ | omega) rfl (by first | exact Nat.le_refl _ | exact Nat.le_succ _ | omega)); (first | with_reducible assumption | with_reducible apply kept_readAllowed | with_reducible apply kept_accessFail | with_reducible apply kept_respond | with_reducible apply kept_hbmRefuse | with_reducible apply Kept.ite | with_reducible apply Kept.ite_fst | split))

theorem kept_ctrlRead {r₀ : State} (k : Nat) : ∀ (a : Nat) (s : State), Kept r₀ s → Kept r₀ (ctrlRead k a s).1 := by
  induction k with
  | zero => exact fun _ s h => h
  | succ k ih =>
    intro a s h
    exact ih _ _ (kept_regRead _ _ h)

theorem kept_ctrlWrite {r₀ : State} (s : State) (a : Nat) (data : List Byte) (h₀ : Kept r₀ s) : Kept r₀ (ctrlWrite s a data) := by
  unfold ctrlWrite
  try dsimp only
  repeat' first
    | with_reducible assumption
    | with_reducible apply kept_regWrite
    | with_reducible apply Kept.ite
    | with_reducible apply Kept.foldl
    | with_reducible apply Kept.foldl_fst
    | with_reducible apply Kept.foldl_snd
    | (first | intro _ _ _ _ _ _ _ | intro _ _ _ _ _ _ | intro _ _ _ _ _ | intro _ _ _ _ | intro _ _ _)
    | ((with_reducible refine Kept.mk_ _ _ _ _ _ _ _ _ _ _ _ _ _ _ _ _ _ _ _ _ _ _ _ _ _ _ _ _ _ _ _ _ _ _ _ _ _ _ _ _ _ _ _ ?_ rfl rfl rfl rfl rfl rfl rfl rfl rfl rfl (by first | exact Nat.le_refl _ | exact Nat.le_succ _ | exact Nat.le_add_right _ _ | omega) rfl (by first | exact Nat.le_refl _ | exact Nat.le_succ _ | omega)); (first | with_reducible assumption | with_reducible apply kept_regWrite | with_reducible apply Kept.ite | with_reducible apply Kept.foldl | with_reducible apply Kept.foldl_fst | with_reducible apply Kept.foldl_snd))

theorem kept_writeIn {r₀ : State} (s : State) (k : Packet) (n : Nat) (a : Nat) (data : List Byte) (arm : Bool) (mem : HbmOutcome) (h₀ : Kept r₀ s) : Kept r₀ (writeIn s k n a data arm mem) := by
  unfold writeIn
  try dsimp only
  repeat' first
    | with_reducible assumption
    | with_reducible apply kept_windowFail
    | with_reducible apply kept_accessFail
    | with_reducible apply kept_acknowledge
    | with_reducible apply kept_cmdWrite
    | with_reducible apply kept_dbgWrite
    | with_reducible apply kept_hbmIn
    | with_reducible apply kept_ctrlWrite
    | with_reducible apply Kept.ite
    | (first | intro _ _ _ _ _ _ _ | intro _ _ _ _ _ _ | intro _ _ _ _ _ | intro _ _ _ _ | intro _ _ _)
    | split
    | ((with_reducible refine Kept.mk_ _ _ _ _ _ _ _ _ _ _ _ _ _ _ _ _ _ _ _ _ _ _ _ _ _ _ _ _ _ _ _ _ _ _ _ _ _ _ _ _ _ _ _ ?_ rfl rfl rfl rfl rfl rfl rfl rfl rfl rfl (by first | exact Nat.le_refl _ | exact Nat.le_succ _ | exact Nat.le_add_right _ _ | omega) rfl (by first | exact Nat.le_refl _ | exact Nat.le_succ _ | omega)); (first | with_reducible assumption | with_reducible apply kept_windowFail | with_reducible apply kept_accessFail | with_reducible apply kept_acknowledge | with_reducible apply kept_cmdWrite | with_reducible apply kept_dbgWrite | with_reducible apply kept_hbmIn | with_reducible apply kept_ctrlWrite | with_reducible apply Kept.ite | split))

theorem kept_readIn {r₀ : State} (s : State) (k : Packet) (n : Nat) (a : Nat) (len : Nat) (mem : HbmOutcome) (h₀ : Kept r₀ s) : Kept r₀ (readIn s k n a len mem) := by
  unfold readIn
  try dsimp only
  repeat' first
    | with_reducible assumption
    | with_reducible apply kept_windowFail
    | with_reducible apply kept_accessFail
    | with_reducible apply kept_respond
    | with_reducible apply kept_cmdRead
    | with_reducible apply kept_hbmOut
    | with_reducible apply kept_ctrlRead
    | with_reducible apply Kept.ite
    | with_reducible apply Kept.ite_fst
    | (first | intro _ _ _ _ _ _ _ | intro _ _ _ _ _ _ | intro _ _ _ _ _ | intro _ _ _ _ | intro _ _ _)
    | split
    | ((with_reducible refine Kept.mk_ _ _ _ _ _ _ _ _ _ _ _ _ _ _ _ _ _ _ _ _ _ _ _ _ _ _ _ _ _ _ _ _ _ _ _ _ _ _ _ _ _ _ _ ?_ rfl rfl rfl rfl rfl rfl rfl rfl rfl rfl (by first | exact Nat.le_refl _ | exact Nat.le_succ _ | exact Nat.le_add_right _ _ | omega) rfl (by first | exact Nat.le_refl _ | exact Nat.le_succ _ | omega)); (first | with_reducible assumption | with_reducible apply kept_windowFail | with_reducible apply kept_accessFail | with_reducible apply kept_respond | with_reducible apply kept_cmdRead | with_reducible apply kept_hbmOut | with_reducible apply kept_ctrlRead | with_reducible apply Kept.ite | with_reducible apply Kept.ite_fst | split))

theorem kept_inbound {r₀ : State} (s : State) (k : Packet) (what : Carried) (act : State → Nat → State) (hact_ : ∀ (t : State) x0, Kept r₀ t → Kept r₀ (act t x0)) (h₀ : Kept r₀ s) : Kept r₀ (inbound s k what act) := by
  unfold inbound
  try dsimp only
  repeat' first
    | with_reducible assumption
    | with_reducible apply hact_
    | with_reducible apply kept_accept
    | with_reducible apply Kept.ite
    | (first | intro _ _ _ _ _ _ _ | intro _ _ _ _ _ _ | intro _ _ _ _ _ | intro _ _ _ _ | intro _ _ _)
    | split
    | ((with_reducible refine Kept.mk_ _ _ _ _ _ _ _ _ _ _ _ _ _ _ _ _ _ _ _ _ _ _ _ _ _ _ _ _ _ _ _ _ _ _ _ _ _ _ _ _ _ _ _ ?_ rfl rfl rfl rfl rfl rfl rfl rfl rfl rfl (by first | exact Nat.le_refl _ | exact Nat.le_succ _ | exact Nat.le_add_right _ _ | omega) rfl (by first | exact Nat.le_refl _ | exact Nat.le_succ _ | omega)); (first | with_reducible assumption | with_reducible apply hact_ | with_reducible apply kept_accept | with_reducible apply Kept.ite | split))

theorem kept_writeImm {r₀ : State} (s : State) (k : Packet) (n : Nat) (a : Nat) (data : List Byte) (imm : Word) (mem : HbmOutcome) (h₀ : Kept r₀ s) : Kept r₀ (writeImm s k n a data imm mem) := by
  unfold writeImm
  try dsimp only
  repeat' first
    | with_reducible assumption
    | with_reducible apply kept_segmentIn
    | with_reducible apply kept_writeIn
    | with_reducible apply Kept.ite
    | (first | intro _ _ _ _ _ _ _ | intro _ _ _ _ _ _ | intro _ _ _ _ _ | intro _ _ _ _ | intro _ _ _)
    | ((with_reducible refine Kept.mk_ _ _ _ _ _ _ _ _ _ _ _ _ _ _ _ _ _ _ _ _ _ _ _ _ _ _ _ _ _ _ _ _ _ _ _ _ _ _ _ _ _ _ _ ?_ rfl rfl rfl rfl rfl rfl rfl rfl rfl rfl (by first | exact Nat.le_refl _ | exact Nat.le_succ _ | exact Nat.le_add_right _ _ | omega) rfl (by first | exact Nat.le_refl _ | exact Nat.le_succ _ | omega)); (first | with_reducible assumption | with_reducible apply kept_segmentIn | with_reducible apply kept_writeIn | with_reducible apply Kept.ite))

theorem kept_landMsg {r₀ : State} (s : State) (n : Nat) (l : Nat) (data : List Byte) (h₀ : Kept r₀ s) : Kept r₀ (landMsg s n l data) := by
  unfold landMsg
  try dsimp only
  repeat' first
    | with_reducible assumption
    | with_reducible apply kept_setLand
    | with_reducible apply kept_acknowledge
    | with_reducible apply kept_notReady
    | with_reducible apply kept_applyAck
    | with_reducible apply kept_nextMsg
    | with_reducible apply Kept.ite
    | (first | intro _ _ _ _ _ _ _ | intro _ _ _ _ _ _ | intro _ _ _ _ _ | intro _ _ _ _ | intro _ _ _)
    | ((with_reducible refine Kept.mk_ _ _ _ _ _ _ _ _ _ _ _ _ _ _ _ _ _ _ _ _ _ _ _ _ _ _ _ _ _ _ _ _ _ _ _ _ _ _ _ _ _ _ _ ?_ rfl rfl rfl rfl rfl rfl rfl rfl rfl rfl (by first | exact Nat.le_refl _ | exact Nat.le_succ _ | exact Nat.le_add_right _ _ | omega) rfl (by first | exact Nat.le_refl _ | exact Nat.le_succ _ | omega)); (first | with_reducible assumption | with_reducible apply kept_setLand | with_reducible apply kept_acknowledge | with_reducible apply kept_notReady | with_reducible apply kept_applyAck | with_reducible apply kept_nextMsg | with_reducible apply Kept.ite))

theorem kept_sendIn {r₀ : State} (s : State) (n : Nat) (data : List Byte) (h₀ : Kept r₀ s) : Kept r₀ (sendIn s n data) := by
  unfold sendIn
  try dsimp only
  repeat' first
    | with_reducible assumption
    | with_reducible apply kept_refuseWith
    | with_reducible apply kept_ferryMsg
    | with_reducible apply kept_landMsg
    | with_reducible apply Kept.ite
    | (first | intro _ _ _ _ _ _ _ | intro _ _ _ _ _ _ | intro _ _ _ _ _ | intro _ _ _ _ | intro _ _ _)
    | ((with_reducible refine Kept.mk_ _ _ _ _ _ _ _ _ _ _ _ _ _ _ _ _ _ _ _ _ _ _ _ _ _ _ _ _ _ _ _ _ _ _ _ _ _ _ _ _ _ _ _ ?_ rfl rfl rfl rfl rfl rfl rfl rfl rfl rfl (by first | exact Nat.le_refl _ | exact Nat.le_succ _ | exact Nat.le_add_right _ _ | omega) rfl (by first | exact Nat.le_refl _ | exact Nat.le_succ _ | omega)); (first | with_reducible assumption | with_reducible apply kept_refuseWith | with_reducible apply kept_ferryMsg | with_reducible apply kept_landMsg | with_reducible apply Kept.ite))

end Sys2Proof.Laws
end

