-- ==== Sys2Proof/Laws/KeptManifest.lean ====
section
/-! SUPPORT. What each operation of Machine/Manifest.lean keeps. -/

namespace Sys2Proof.Laws

set_option linter.all false

open Sys2Proof.Machine Sys2Proof.Safety

theorem kept_closeLandings {r₀ : State} (s : State) (on : Bool) (h₀ : Kept r₀ s) : Kept r₀ (closeLandings s on) := by
  unfold closeLandings
  try dsimp only
  repeat' first
    | with_reducible assumption
    | with_reducible apply kept_setLand
    | with_reducible apply Kept.ite
    | with_reducible apply Kept.foldl
    | with_reducible apply Kept.foldl_fst
    | with_reducible apply Kept.foldl_snd
    | (first | intro _ _ _ _ _ _ _ | intro _ _ _ _ _ _ | intro _ _ _ _ _ | intro _ _ _ _ | intro _ _ _)
    | ((with_reducible refine Kept.mk_ _ _ _ _ _ _ _ _ _ _ _ _ _ _ _ _ _ _ _ _ _ _ _ _ _ _ _ _ _ _ _ _ _ _ _ _ _ _ _ _ _ _ _ ?_ rfl rfl rfl rfl rfl rfl rfl rfl rfl rfl (by first | exact Nat.le_refl _ | exact Nat.le_succ _ | exact Nat.le_add_right _ _ | omega) rfl (by first | exact Nat.le_refl _ | exact Nat.le_succ _ | omega)); (first | with_reducible assumption | with_reducible apply kept_setLand | with_reducible apply Kept.ite | with_reducible apply Kept.foldl | with_reducible apply Kept.foldl_fst | with_reducible apply Kept.foldl_snd))

theorem kept_loadReply {r₀ : State} (s : State) (hseq : Word) (result : Nat) (type : Nat) (off : Nat) (digest : List Byte) (h₀ : Kept r₀ s) : Kept r₀ (loadReply s hseq result type off digest) := by
  unfold loadReply
  try dsimp only
  repeat' first
    | with_reducible assumption
    | with_reducible apply kept_reply
    | with_reducible apply Kept.ite
    | (first | intro _ _ _ _ _ _ _ | intro _ _ _ _ _ _ | intro _ _ _ _ _ | intro _ _ _ _ | intro _ _ _)
    | ((with_reducible refine Kept.mk_ _ _ _ _ _ _ _ _ _ _ _ _ _ _ _ _ _ _ _ _ _ _ _ _ _ _ _ _ _ _ _ _ _ _ _ _ _ _ _ _ _ _ _ ?_ rfl rfl rfl rfl rfl rfl rfl rfl rfl rfl (by first | exact Nat.le_refl _ | exact Nat.le_succ _ | exact Nat.le_add_right _ _ | omega) rfl (by first | exact Nat.le_refl _ | exact Nat.le_succ _ | omega)); (first | with_reducible assumption | with_reducible apply kept_reply | with_reducible apply Kept.ite))

theorem kept_doLoad {r₀ : State} (s : State) (m : Msg) (h : Header) (h₀ : Kept r₀ s) : Kept r₀ (doLoad s m h) := by
  unfold doLoad
  try dsimp only
  repeat' first
    | with_reducible assumption
    | with_reducible apply kept_setLand
    | with_reducible apply kept_request
    | with_reducible apply kept_answer
    | with_reducible apply kept_closeLandings
    | with_reducible apply kept_loadReply
    | with_reducible apply Kept.ite
    | (first | intro _ _ _ _ _ _ _ | intro _ _ _ _ _ _ | intro _ _ _ _ _ | intro _ _ _ _ | intro _ _ _)
    | ((with_reducible refine Kept.mk_ _ _ _ _ _ _ _ _ _ _ _ _ _ _ _ _ _ _ _ _ _ _ _ _ _ _ _ _ _ _ _ _ _ _ _ _ _ _ _ _ _ _ _ ?_ rfl rfl rfl rfl rfl rfl rfl rfl rfl rfl (by first | exact Nat.le_refl _ | exact Nat.le_succ _ | exact Nat.le_add_right _ _ | omega) rfl (by first | exact Nat.le_refl _ | exact Nat.le_succ _ | omega)); (first | with_reducible assumption | with_reducible apply kept_setLand | with_reducible apply kept_request | with_reducible apply kept_answer | with_reducible apply kept_closeLandings | with_reducible apply kept_loadReply | with_reducible apply Kept.ite))

theorem kept_loadManifest {r₀ : State} (s : State) (h₀ : Kept r₀ s) : Kept r₀ (loadManifest s) := by
  unfold loadManifest
  try dsimp only
  repeat' first
    | with_reducible assumption
    | with_reducible apply kept_onMsg
    | with_reducible apply kept_closeLandings
    | with_reducible apply kept_doLoad
    | with_reducible apply Kept.ite
    | (first | intro _ _ _ _ _ _ _ | intro _ _ _ _ _ _ | intro _ _ _ _ _ | intro _ _ _ _ | intro _ _ _)
    | ((with_reducible refine Kept.mk_ _ _ _ _ _ _ _ _ _ _ _ _ _ _ _ _ _ _ _ _ _ _ _ _ _ _ _ _ _ _ _ _ _ _ _ _ _ _ _ _ _ _ _ ?_ rfl rfl rfl rfl rfl rfl rfl rfl rfl rfl (by first | exact Nat.le_refl _ | exact Nat.le_succ _ | exact Nat.le_add_right _ _ | omega) rfl (by first | exact Nat.le_refl _ | exact Nat.le_succ _ | omega)); (first | with_reducible assumption | with_reducible apply kept_onMsg | with_reducible apply kept_closeLandings | with_reducible apply kept_doLoad | with_reducible apply Kept.ite))

theorem kept_rejectLoad {r₀ : State} (s : State) (l : Load) (result : Nat) (type : Nat) (off : Nat) (digest : List Byte) (h₀ : Kept r₀ s) : Kept r₀ (rejectLoad s l result type off digest) := by
  unfold rejectLoad
  try dsimp only
  repeat' first
    | with_reducible assumption
    | with_reducible apply kept_refitGangs
    | with_reducible apply kept_popMsg
    | with_reducible apply kept_nextMsg
    | with_reducible apply kept_closeLandings
    | with_reducible apply kept_loadReply
    | with_reducible apply Kept.ite
    | (first | intro _ _ _ _ _ _ _ | intro _ _ _ _ _ _ | intro _ _ _ _ _ | intro _ _ _ _ | intro _ _ _)
    | ((with_reducible refine Kept.mk_ _ _ _ _ _ _ _ _ _ _ _ _ _ _ _ _ _ _ _ _ _ _ _ _ _ _ _ _ _ _ _ _ _ _ _ _ _ _ _ _ _ _ _ ?_ rfl rfl rfl rfl rfl rfl rfl rfl rfl rfl (by first | exact Nat.le_refl _ | exact Nat.le_succ _ | exact Nat.le_add_right _ _ | omega) rfl (by first | exact Nat.le_refl _ | exact Nat.le_succ _ | omega)); (first | with_reducible assumption | with_reducible apply kept_refitGangs | with_reducible apply kept_popMsg | with_reducible apply kept_nextMsg | with_reducible apply kept_closeLandings | with_reducible apply kept_loadReply | with_reducible apply Kept.ite))

theorem kept_failLoad {r₀ : State} (s : State) (l : Load) (d : List Byte) (result : Nat) (types : List Nat) (h₀ : Kept r₀ s) : Kept r₀ (failLoad s l d result types) := by
  unfold failLoad
  try dsimp only
  repeat' first
    | with_reducible assumption
    | with_reducible apply kept_freshWord
    | with_reducible apply kept_raiseChip
    | with_reducible apply kept_rejectLoad
    | with_reducible apply Kept.ite
    | with_reducible apply Kept.ite_fst
    | (first | intro _ _ _ _ _ _ _ | intro _ _ _ _ _ _ | intro _ _ _ _ _ | intro _ _ _ _ | intro _ _ _)
    | ((with_reducible refine Kept.mk_ _ _ _ _ _ _ _ _ _ _ _ _ _ _ _ _ _ _ _ _ _ _ _ _ _ _ _ _ _ _ _ _ _ _ _ _ _ _ _ _ _ _ _ ?_ rfl rfl rfl rfl rfl rfl rfl rfl rfl rfl (by first | exact Nat.le_refl _ | exact Nat.le_succ _ | exact Nat.le_add_right _ _ | omega) rfl (by first | exact Nat.le_refl _ | exact Nat.le_succ _ | omega)); (first | with_reducible assumption | with_reducible apply kept_freshWord | with_reducible apply kept_raiseChip | with_reducible apply kept_rejectLoad | with_reducible apply Kept.ite | with_reducible apply Kept.ite_fst))

theorem kept_verifyDone {r₀ : State} (s : State) (read : Option (List Byte)) (h₀ : Kept r₀ s) : Kept r₀ (verifyDone s read) := by
  unfold verifyDone
  try dsimp only
  repeat' first
    | with_reducible assumption
    | with_reducible apply kept_setReqs
    | with_reducible apply kept_failLoad
    | with_reducible apply Kept.ite
    | with_reducible apply Kept.ite_fst
    | (first | intro _ _ _ _ _ _ _ | intro _ _ _ _ _ _ | intro _ _ _ _ _ | intro _ _ _ _ | intro _ _ _)
    | split
    | ((with_reducible refine Kept.mk_ _ _ _ _ _ _ _ _ _ _ _ _ _ _ _ _ _ _ _ _ _ _ _ _ _ _ _ _ _ _ _ _ _ _ _ _ _ _ _ _ _ _ _ ?_ rfl rfl rfl rfl rfl rfl rfl rfl rfl rfl (by first | exact Nat.le_refl _ | exact Nat.le_succ _ | exact Nat.le_add_right _ _ | omega) rfl (by first | exact Nat.le_refl _ | exact Nat.le_succ _ | omega)); (first | with_reducible assumption | with_reducible apply kept_setReqs | with_reducible apply kept_failLoad | with_reducible apply Kept.ite | with_reducible apply Kept.ite_fst | split))

theorem kept_zeroKeys {r₀ : State} (s : State) (lo hi : Nat) (h₀ : Kept r₀ s) : Kept r₀ (zeroKeys s lo hi) :=
  Kept.hbm h₀ _ _ (fun w => wf_zero _ _ _ w) rfl

theorem kept_zeroWindow {r₀ : State} (old : State) (s : State) (e : Nat × Window) (h₀ : Kept r₀ s) : Kept r₀ (zeroWindow old s e) := by
  unfold zeroWindow
  try dsimp only
  repeat' first
    | with_reducible assumption
    | with_reducible apply kept_zeroKeys
    | with_reducible apply Kept.ite
    | with_reducible apply Kept.ite_fst
    | with_reducible apply Kept.foldl
    | with_reducible apply Kept.foldl_fst
    | with_reducible apply Kept.foldl_snd
    | (first | intro _ _ _ _ _ _ _ | intro _ _ _ _ _ _ | intro _ _ _ _ _ | intro _ _ _ _ | intro _ _ _)
    | ((with_reducible refine Kept.mk_ _ _ _ _ _ _ _ _ _ _ _ _ _ _ _ _ _ _ _ _ _ _ _ _ _ _ _ _ _ _ _ _ _ _ _ _ _ _ _ _ _ _ _ ?_ rfl rfl rfl rfl rfl rfl rfl rfl rfl rfl (by first | exact Nat.le_refl _ | exact Nat.le_succ _ | exact Nat.le_add_right _ _ | omega) rfl (by first | exact Nat.le_refl _ | exact Nat.le_succ _ | omega)); (first | with_reducible assumption | with_reducible apply kept_zeroKeys | with_reducible apply Kept.ite | with_reducible apply Kept.ite_fst | with_reducible apply Kept.foldl | with_reducible apply Kept.foldl_fst | with_reducible apply Kept.foldl_snd))

theorem kept_applyBerth {r₀ : State} (d : List Byte) (s : State) (b : Nat) (h₀ : Kept r₀ s) : Kept r₀ (applyBerth d s b) := by
  unfold applyBerth
  try dsimp only
  repeat' first
    | with_reducible assumption
    | with_reducible apply kept_regSet
    | with_reducible apply kept_setBerth
    | with_reducible apply Kept.ite
    | (first | intro _ _ _ _ _ _ _ | intro _ _ _ _ _ _ | intro _ _ _ _ _ | intro _ _ _ _ | intro _ _ _)
    | split
    | ((with_reducible refine Kept.mk_ _ _ _ _ _ _ _ _ _ _ _ _ _ _ _ _ _ _ _ _ _ _ _ _ _ _ _ _ _ _ _ _ _ _ _ _ _ _ _ _ _ _ _ ?_ rfl rfl rfl rfl rfl rfl rfl rfl rfl rfl (by first | exact Nat.le_refl _ | exact Nat.le_succ _ | exact Nat.le_add_right _ _ | omega) rfl (by first | exact Nat.le_refl _ | exact Nat.le_succ _ | omega)); (first | with_reducible assumption | with_reducible apply kept_regSet | with_reducible apply kept_setBerth | with_reducible apply Kept.ite | split))
    | split
    | exact rfl
    | (unfold latchReg; apply decide_eq_false; simp only [mgBase, fcBase, ttBase, scBase, pwBase, mwBase, qyBase, ptBase, fcSevAddr]; omega)

theorem kept_applyDeck {r₀ : State} (old : State) (d : List Byte) (s : State) (k : Nat) (h₀ : Kept r₀ s) : Kept r₀ (applyDeck old d s k) := by
  unfold applyDeck
  try dsimp only
  repeat' first
    | with_reducible assumption
    | with_reducible apply kept_setDeck
    | with_reducible apply Kept.ite
    | (first | intro _ _ _ _ _ _ _ | intro _ _ _ _ _ _ | intro _ _ _ _ _ | intro _ _ _ _ | intro _ _ _)
    | split
    | ((with_reducible refine Kept.mk_ _ _ _ _ _ _ _ _ _ _ _ _ _ _ _ _ _ _ _ _ _ _ _ _ _ _ _ _ _ _ _ _ _ _ _ _ _ _ _ _ _ _ _ ?_ rfl rfl rfl rfl rfl rfl rfl rfl rfl rfl (by first | exact Nat.le_refl _ | exact Nat.le_succ _ | exact Nat.le_add_right _ _ | omega) rfl (by first | exact Nat.le_refl _ | exact Nat.le_succ _ | omega)); (first | with_reducible assumption | with_reducible apply kept_setDeck | with_reducible apply Kept.ite | split))

theorem kept_applyGang {r₀ : State} (s : State) (g : Nat) (h₀ : Kept r₀ s) : Kept r₀ (applyGang s g) := by
  unfold applyGang
  try dsimp only
  repeat' first
    | with_reducible assumption
    | with_reducible apply kept_setGang
    | with_reducible apply kept_refitGang
    | with_reducible apply Kept.ite
    | with_reducible apply Kept.foldl
    | with_reducible apply Kept.foldl_fst
    | with_reducible apply Kept.foldl_snd
    | (first | intro _ _ _ _ _ _ _ | intro _ _ _ _ _ _ | intro _ _ _ _ _ | intro _ _ _ _ | intro _ _ _)
    | ((with_reducible refine Kept.mk_ _ _ _ _ _ _ _ _ _ _ _ _ _ _ _ _ _ _ _ _ _ _ _ _ _ _ _ _ _ _ _ _ _ _ _ _ _ _ _ _ _ _ _ ?_ rfl rfl rfl rfl rfl rfl rfl rfl rfl rfl (by first | exact Nat.le_refl _ | exact Nat.le_succ _ | exact Nat.le_add_right _ _ | omega) rfl (by first | exact Nat.le_refl _ | exact Nat.le_succ _ | omega)); (first | with_reducible assumption | with_reducible apply kept_setGang | with_reducible apply kept_refitGang | with_reducible apply Kept.ite | with_reducible apply Kept.foldl | with_reducible apply Kept.foldl_fst | with_reducible apply Kept.foldl_snd))

theorem kept_applyQuay {r₀ : State} (d : List Byte) (s : State) (q : Nat) (h₀ : Kept r₀ s) : Kept r₀ (applyQuay d s q) := by
  unfold applyQuay
  try dsimp only
  repeat' first
    | with_reducible assumption
    | with_reducible apply kept_setQuay
    | with_reducible apply Kept.ite
    | (first | intro _ _ _ _ _ _ _ | intro _ _ _ _ _ _ | intro _ _ _ _ _ | intro _ _ _ _ | intro _ _ _)
    | ((with_reducible refine Kept.mk_ _ _ _ _ _ _ _ _ _ _ _ _ _ _ _ _ _ _ _ _ _ _ _ _ _ _ _ _ _ _ _ _ _ _ _ _ _ _ _ _ _ _ _ ?_ rfl rfl rfl rfl rfl rfl rfl rfl rfl rfl (by first | exact Nat.le_refl _ | exact Nat.le_succ _ | exact Nat.le_add_right _ _ | omega) rfl (by first | exact Nat.le_refl _ | exact Nat.le_succ _ | omega)); (first | with_reducible assumption | with_reducible apply kept_setQuay | with_reducible apply Kept.ite))

/-- Every severity of a manifest names a source of 8 bits. -/
theorem manSev_lt (d : List Byte) : ∀ e ∈ manSev d, e.1 < 256 := by
  intro e he
  unfold manSev at he
  split at he
  · obtain ⟨n, -, rfl⟩ := List.mem_map.mp he
    exact Nat.mod_lt _ (by decide)
  · simp at he

/-- A fold whose operation keeps the relation for the members of the list. -/
theorem Kept.foldl_mem {α : Type} {r : State} (f : State → α → State) :
    ∀ (l : List α) (_ : ∀ t, ∀ a ∈ l, Kept r t → Kept r (f t a)) (s : State), Kept r s → Kept r (l.foldl f s)
  | [], _, _, h => h
  | a :: l, hf, s, h =>
    Kept.foldl_mem f l (fun t b hb => hf t b (List.mem_cons_of_mem _ hb)) (f s a) (hf s a (List.mem_cons_self ..) h)

theorem kept_applySev {r₀ : State} (d : List Byte) (s : State) (h₀ : Kept r₀ s) : Kept r₀ (applySev d s) := by
  unfold applySev
  refine Kept.foldl_mem _ _ (fun t e he h => kept_regSet _ _ (latch_sev (manSev_lt d e he)) h) _ ?_
  refine Kept.foldl _ ?_ _ _ h₀
  intro t n h
  cases hd : faultDefault n with
  | some c => exact kept_regSet _ _ (latch_sev (faultDefault_lt hd)) h
  | none => exact h

theorem kept_applyConns {r₀ : State} (d : List Byte) (s : State) (h₀ : Kept r₀ s) : Kept r₀ (applyConns d s) := by
  unfold applyConns
  try dsimp only
  repeat' first
    | with_reducible assumption
    | with_reducible apply Kept.ite
    | (first | intro _ _ _ _ _ _ _ | intro _ _ _ _ _ _ | intro _ _ _ _ _ | intro _ _ _ _ | intro _ _ _)
    | ((with_reducible refine Kept.mk_ _ _ _ _ _ _ _ _ _ _ _ _ _ _ _ _ _ _ _ _ _ _ _ _ _ _ _ _ _ _ _ _ _ _ _ _ _ _ _ _ _ _ _ ?_ rfl rfl rfl rfl rfl rfl rfl rfl rfl rfl (by first | exact Nat.le_refl _ | exact Nat.le_succ _ | exact Nat.le_add_right _ _ | omega) rfl (by first | exact Nat.le_refl _ | exact Nat.le_succ _ | omega)); (first | with_reducible assumption | with_reducible apply Kept.ite))

theorem kept_applyTrk {r₀ : State} (s : State) (h₀ : Kept r₀ s) : Kept r₀ (applyTrk s) := by
  unfold applyTrk
  try dsimp only
  repeat' first
    | with_reducible assumption
    | with_reducible apply kept_regSet
    | with_reducible apply Kept.ite
    | with_reducible apply Kept.foldl
    | with_reducible apply Kept.foldl_fst
    | with_reducible apply Kept.foldl_snd
    | (first | intro _ _ _ _ _ _ _ | intro _ _ _ _ _ _ | intro _ _ _ _ _ | intro _ _ _ _ | intro _ _ _)
    | ((with_reducible refine Kept.mk_ _ _ _ _ _ _ _ _ _ _ _ _ _ _ _ _ _ _ _ _ _ _ _ _ _ _ _ _ _ _ _ _ _ _ _ _ _ _ _ _ _ _ _ ?_ rfl rfl rfl rfl rfl rfl rfl rfl rfl rfl (by first | exact Nat.le_refl _ | exact Nat.le_succ _ | exact Nat.le_add_right _ _ | omega) rfl (by first | exact Nat.le_refl _ | exact Nat.le_succ _ | omega)); (first | with_reducible assumption | with_reducible apply kept_regSet | with_reducible apply Kept.ite | with_reducible apply Kept.foldl | with_reducible apply Kept.foldl_fst | with_reducible apply Kept.foldl_snd))
    | split
    | exact rfl
    | (unfold latchReg; apply decide_eq_false; simp only [mgBase, fcBase, ttBase, scBase, pwBase, mwBase, qyBase, ptBase, fcSevAddr]; omega)

theorem kept_applyPfc {r₀ : State} (d : List Byte) (s : State) (h₀ : Kept r₀ s) : Kept r₀ (applyPfc d s) := by
  unfold applyPfc
  try dsimp only
  repeat' first
    | with_reducible assumption
    | with_reducible apply kept_pfcWrite
    | with_reducible apply Kept.ite
    | with_reducible apply Kept.foldl
    | with_reducible apply Kept.foldl_fst
    | with_reducible apply Kept.foldl_snd
    | (first | intro _ _ _ _ _ _ _ | intro _ _ _ _ _ _ | intro _ _ _ _ _ | intro _ _ _ _ | intro _ _ _)
    | ((with_reducible refine Kept.mk_ _ _ _ _ _ _ _ _ _ _ _ _ _ _ _ _ _ _ _ _ _ _ _ _ _ _ _ _ _ _ _ _ _ _ _ _ _ _ _ _ _ _ _ ?_ rfl rfl rfl rfl rfl rfl rfl rfl rfl rfl (by first | exact Nat.le_refl _ | exact Nat.le_succ _ | exact Nat.le_add_right _ _ | omega) rfl (by first | exact Nat.le_refl _ | exact Nat.le_succ _ | omega)); (first | with_reducible assumption | with_reducible apply kept_pfcWrite | with_reducible apply Kept.ite | with_reducible apply Kept.foldl | with_reducible apply Kept.foldl_fst | with_reducible apply Kept.foldl_snd))

theorem kept_applySched {r₀ : State} (d : List Byte) (s : State) (h₀ : Kept r₀ s) : Kept r₀ (applySched d s) := by
  unfold applySched
  try dsimp only
  repeat' first
    | with_reducible assumption
    | with_reducible apply kept_setTime
    | with_reducible apply Kept.ite
    | (first | intro _ _ _ _ _ _ _ | intro _ _ _ _ _ _ | intro _ _ _ _ _ | intro _ _ _ _ | intro _ _ _)
    | ((with_reducible refine Kept.mk_ _ _ _ _ _ _ _ _ _ _ _ _ _ _ _ _ _ _ _ _ _ _ _ _ _ _ _ _ _ _ _ _ _ _ _ _ _ _ _ _ _ _ _ ?_ rfl rfl rfl rfl rfl rfl rfl rfl rfl rfl (by first | exact Nat.le_refl _ | exact Nat.le_succ _ | exact Nat.le_add_right _ _ | omega) rfl (by first | exact Nat.le_refl _ | exact Nat.le_succ _ | omega)); (first | with_reducible assumption | with_reducible apply kept_setTime | with_reducible apply Kept.ite))
    | with_reducible exact rfl
    | exact rfl

theorem kept_applyLandings {r₀ : State} (s : State) (h₀ : Kept r₀ s) : Kept r₀ (applyLandings s) := by
  unfold applyLandings
  try dsimp only
  repeat' first
    | with_reducible assumption
    | with_reducible apply kept_setLand
    | with_reducible apply kept_moveWaiting
    | with_reducible apply Kept.ite
    | with_reducible apply Kept.foldl
    | with_reducible apply Kept.foldl_fst
    | with_reducible apply Kept.foldl_snd
    | (first | intro _ _ _ _ _ _ _ | intro _ _ _ _ _ _ | intro _ _ _ _ _ | intro _ _ _ _ | intro _ _ _)
    | ((with_reducible refine Kept.mk_ _ _ _ _ _ _ _ _ _ _ _ _ _ _ _ _ _ _ _ _ _ _ _ _ _ _ _ _ _ _ _ _ _ _ _ _ _ _ _ _ _ _ _ ?_ rfl rfl rfl rfl rfl rfl rfl rfl rfl rfl (by first | exact Nat.le_refl _ | exact Nat.le_succ _ | exact Nat.le_add_right _ _ | omega) rfl (by first | exact Nat.le_refl _ | exact Nat.le_succ _ | omega)); (first | with_reducible assumption | with_reducible apply kept_setLand | with_reducible apply kept_moveWaiting | with_reducible apply Kept.ite | with_reducible apply Kept.foldl | with_reducible apply Kept.foldl_fst | with_reducible apply Kept.foldl_snd))

theorem kept_applyTables {r₀ : State} (d : List Byte) (s : State) (h₀ : Kept r₀ s) : Kept r₀ (applyTables d s) := by
  unfold applyTables
  try dsimp only
  repeat' first
    | with_reducible assumption
    | with_reducible apply kept_zeroWindow
    | with_reducible apply kept_applyConns
    | with_reducible apply kept_applyLandings
    | with_reducible apply Kept.ite
    | with_reducible apply Kept.foldl
    | with_reducible apply Kept.foldl_fst
    | with_reducible apply Kept.foldl_snd
    | (first | intro _ _ _ _ _ _ _ | intro _ _ _ _ _ _ | intro _ _ _ _ _ | intro _ _ _ _ | intro _ _ _)
    | ((with_reducible refine Kept.mk_ _ _ _ _ _ _ _ _ _ _ _ _ _ _ _ _ _ _ _ _ _ _ _ _ _ _ _ _ _ _ _ _ _ _ _ _ _ _ _ _ _ _ _ ?_ rfl rfl rfl rfl rfl rfl rfl rfl rfl rfl (by first | exact Nat.le_refl _ | exact Nat.le_succ _ | exact Nat.le_add_right _ _ | omega) rfl (by first | exact Nat.le_refl _ | exact Nat.le_succ _ | omega)); (first | with_reducible assumption | with_reducible apply kept_zeroWindow | with_reducible apply kept_applyConns | with_reducible apply kept_applyLandings | with_reducible apply Kept.ite | with_reducible apply Kept.foldl | with_reducible apply Kept.foldl_fst | with_reducible apply Kept.foldl_snd))

theorem kept_applyUnits {r₀ : State} (old : State) (d : List Byte) (s : State) (h₀ : Kept r₀ s) : Kept r₀ (applyUnits old d s) := by
  unfold applyUnits
  try dsimp only
  repeat' first
    | with_reducible assumption
    | with_reducible apply kept_applyBerth
    | with_reducible apply kept_applyDeck
    | with_reducible apply kept_applyGang
    | with_reducible apply kept_applyQuay
    | with_reducible apply Kept.ite
    | with_reducible apply Kept.foldl
    | with_reducible apply Kept.foldl_fst
    | with_reducible apply Kept.foldl_snd
    | (first | intro _ _ _ _ _ _ _ | intro _ _ _ _ _ _ | intro _ _ _ _ _ | intro _ _ _ _ | intro _ _ _)
    | ((with_reducible refine Kept.mk_ _ _ _ _ _ _ _ _ _ _ _ _ _ _ _ _ _ _ _ _ _ _ _ _ _ _ _ _ _ _ _ _ _ _ _ _ _ _ _ _ _ _ _ ?_ rfl rfl rfl rfl rfl rfl rfl rfl rfl rfl (by first | exact Nat.le_refl _ | exact Nat.le_succ _ | exact Nat.le_add_right _ _ | omega) rfl (by first | exact Nat.le_refl _ | exact Nat.le_succ _ | omega)); (first | with_reducible assumption | with_reducible apply kept_applyBerth | with_reducible apply kept_applyDeck | with_reducible apply kept_applyGang | with_reducible apply kept_applyQuay | with_reducible apply Kept.ite | with_reducible apply Kept.foldl | with_reducible apply Kept.foldl_fst | with_reducible apply Kept.foldl_snd))

theorem kept_applyGlobal {r₀ : State} (d : List Byte) (s : State) (h₀ : Kept r₀ s) : Kept r₀ (applyGlobal d s) := by
  have k1 : Kept r₀ { s with man := manGlobal d, sec := { s.sec with digest := manDigest d } } :=
    Kept.upd (Kept.sec h₀ { s.sec with digest := manDigest d } id id) rfl rfl rfl rfl rfl rfl rfl rfl rfl rfl (Nat.le_refl _)
  unfold applyGlobal
  exact kept_applySev _ _ (kept_applySched _ _ (kept_applyPfc _ _ (kept_applyTrk _ (kept_extendM _ _ _ k1))))

theorem kept_applyPorts {r₀ : State} (s : State) (h₀ : Kept r₀ s) : Kept r₀ (applyPorts s) := by
  unfold applyPorts
  try dsimp only
  repeat' first
    | with_reducible assumption
    | with_reducible apply kept_classifyAll
    | with_reducible apply Kept.ite
    | (first | intro _ _ _ _ _ _ _ | intro _ _ _ _ _ _ | intro _ _ _ _ _ | intro _ _ _ _ | intro _ _ _)
    | ((with_reducible refine Kept.mk_ _ _ _ _ _ _ _ _ _ _ _ _ _ _ _ _ _ _ _ _ _ _ _ _ _ _ _ _ _ _ _ _ _ _ _ _ _ _ _ _ _ _ _ ?_ rfl rfl rfl rfl rfl rfl rfl rfl rfl rfl (by first | exact Nat.le_refl _ | exact Nat.le_succ _ | exact Nat.le_add_right _ _ | omega) rfl (by first | exact Nat.le_refl _ | exact Nat.le_succ _ | omega)); (first | with_reducible assumption | with_reducible apply kept_classifyAll | with_reducible apply Kept.ite))

theorem kept_applyManifest {r₀ : State} (s : State) (l : Load) (d : List Byte) (h₀ : Kept r₀ s) : Kept r₀ (applyManifest s l d) := by
  unfold applyManifest
  try dsimp only
  repeat' first
    | with_reducible assumption
    | with_reducible apply kept_popMsg
    | with_reducible apply kept_nextMsg
    | with_reducible apply kept_loadReply
    | with_reducible apply kept_applyTables
    | with_reducible apply kept_applyUnits
    | with_reducible apply kept_applyGlobal
    | with_reducible apply kept_applyPorts
    | with_reducible apply Kept.ite
    | (first | intro _ _ _ _ _ _ _ | intro _ _ _ _ _ _ | intro _ _ _ _ _ | intro _ _ _ _ | intro _ _ _)
    | ((with_reducible refine Kept.mk_ _ _ _ _ _ _ _ _ _ _ _ _ _ _ _ _ _ _ _ _ _ _ _ _ _ _ _ _ _ _ _ _ _ _ _ _ _ _ _ _ _ _ _ ?_ rfl rfl rfl rfl rfl rfl rfl rfl rfl rfl (by first | exact Nat.le_refl _ | exact Nat.le_succ _ | exact Nat.le_add_right _ _ | omega) rfl (by first | exact Nat.le_refl _ | exact Nat.le_succ _ | omega)); (first | with_reducible assumption | with_reducible apply kept_popMsg | with_reducible apply kept_nextMsg | with_reducible apply kept_loadReply | with_reducible apply kept_applyTables | with_reducible apply kept_applyUnits | with_reducible apply kept_applyGlobal | with_reducible apply kept_applyPorts | with_reducible apply Kept.ite))

end Sys2Proof.Laws
end

