-- ==== Sys2Proof/Laws/KeptDiag.lean ====
section
/-! SUPPORT. What each operation of Machine/Diag.lean keeps. -/

namespace Sys2Proof.Laws

set_option linter.all false

open Sys2Proof.Machine Sys2Proof.Safety

theorem kept_diagStart {r₀ : State} (s : State) (m : Msg) (h : Header) (off : Nat) (len : Nat) (h₀ : Kept r₀ s) : Kept r₀ (diagStart s m h off len) := by
  unfold diagStart
  try dsimp only
  repeat' first
    | with_reducible assumption
    | with_reducible apply Kept.ite
    | (first | intro _ _ _ _ _ _ _ | intro _ _ _ _ _ _ | intro _ _ _ _ _ | intro _ _ _ _ | intro _ _ _)
    | ((with_reducible refine Kept.mk_ _ _ _ _ _ _ _ _ _ _ _ _ _ _ _ _ _ _ _ _ _ _ _ _ _ _ _ _ _ _ _ _ _ _ _ _ _ _ _ _ _ _ _ ?_ rfl rfl rfl rfl rfl rfl rfl rfl rfl rfl (by first | exact Nat.le_refl _ | exact Nat.le_succ _ | exact Nat.le_add_right _ _ | omega) rfl (by first | exact Nat.le_refl _ | exact Nat.le_succ _ | omega)); (first | with_reducible assumption | with_reducible apply Kept.ite))

theorem kept_diagEnd {r₀ : State} (s : State) (outcome : Nat) (h₀ : Kept r₀ s) : Kept r₀ (diagEnd s outcome) := by
  unfold diagEnd
  try dsimp only
  repeat' first
    | with_reducible assumption
    | with_reducible apply Kept.ite
    | (first | intro _ _ _ _ _ _ _ | intro _ _ _ _ _ _ | intro _ _ _ _ _ | intro _ _ _ _ | intro _ _ _)
    | ((with_reducible refine Kept.mk_ _ _ _ _ _ _ _ _ _ _ _ _ _ _ _ _ _ _ _ _ _ _ _ _ _ _ _ _ _ _ _ _ _ _ _ _ _ _ _ _ _ _ _ ?_ rfl rfl rfl rfl rfl rfl rfl rfl rfl rfl (by first | exact Nat.le_refl _ | exact Nat.le_succ _ | exact Nat.le_add_right _ _ | omega) rfl (by first | exact Nat.le_refl _ | exact Nat.le_succ _ | omega)); (first | with_reducible assumption | with_reducible apply Kept.ite))

theorem kept_diagReply {r₀ : State} (s : State) (h : Header) (dresult : Nat) (h₀ : Kept r₀ s) : Kept r₀ (diagReply s h dresult) := by
  unfold diagReply
  try dsimp only
  repeat' first
    | with_reducible assumption
    | with_reducible apply kept_answer
    | with_reducible apply Kept.ite
    | (first | intro _ _ _ _ _ _ _ | intro _ _ _ _ _ _ | intro _ _ _ _ _ | intro _ _ _ _ | intro _ _ _)
    | ((with_reducible refine Kept.mk_ _ _ _ _ _ _ _ _ _ _ _ _ _ _ _ _ _ _ _ _ _ _ _ _ _ _ _ _ _ _ _ _ _ _ _ _ _ _ _ _ _ _ _ ?_ rfl rfl rfl rfl rfl rfl rfl rfl rfl rfl (by first | exact Nat.le_refl _ | exact Nat.le_succ _ | exact Nat.le_add_right _ _ | omega) rfl (by first | exact Nat.le_refl _ | exact Nat.le_succ _ | omega)); (first | with_reducible assumption | with_reducible apply kept_answer | with_reducible apply Kept.ite))

theorem kept_diagOutput {r₀ : State} (s : State) (addr : Nat) (data : List Byte) (h₀ : Kept r₀ s) : Kept r₀ (diagOutput s addr data) := by
  unfold diagOutput
  try dsimp only
  repeat' first
    | with_reducible assumption
    | with_reducible apply kept_request
    | with_reducible apply Kept.ite
    | (first | intro _ _ _ _ _ _ _ | intro _ _ _ _ _ _ | intro _ _ _ _ _ | intro _ _ _ _ | intro _ _ _)
    | ((with_reducible refine Kept.mk_ _ _ _ _ _ _ _ _ _ _ _ _ _ _ _ _ _ _ _ _ _ _ _ _ _ _ _ _ _ _ _ _ _ _ _ _ _ _ _ _ _ _ _ ?_ rfl rfl rfl rfl rfl rfl rfl rfl rfl rfl (by first | exact Nat.le_refl _ | exact Nat.le_succ _ | exact Nat.le_add_right _ _ | omega) rfl (by first | exact Nat.le_refl _ | exact Nat.le_succ _ | omega)); (first | with_reducible assumption | with_reducible apply kept_request | with_reducible apply Kept.ite))

theorem kept_bistSave {r₀ : State} (s : State) (d : Nat) (h₀ : Kept r₀ s) : Kept r₀ (bistSave s d) := by
  unfold bistSave
  try dsimp only
  repeat' first
    | with_reducible assumption
    | with_reducible apply kept_hbmWrite
    | with_reducible apply Kept.ite
    | (first | intro _ _ _ _ _ _ _ | intro _ _ _ _ _ _ | intro _ _ _ _ _ | intro _ _ _ _ | intro _ _ _)
    | split
    | ((with_reducible refine Kept.mk_ _ _ _ _ _ _ _ _ _ _ _ _ _ _ _ _ _ _ _ _ _ _ _ _ _ _ _ _ _ _ _ _ _ _ _ _ _ _ _ _ _ _ _ ?_ rfl rfl rfl rfl rfl rfl rfl rfl rfl rfl (by first | exact Nat.le_refl _ | exact Nat.le_succ _ | exact Nat.le_add_right _ _ | omega) rfl (by first | exact Nat.le_refl _ | exact Nat.le_succ _ | omega)); (first | with_reducible assumption | with_reducible apply kept_hbmWrite | with_reducible apply Kept.ite | split))

theorem kept_doBist {r₀ : State} (s : State) (m : Msg) (h : Header) (h₀ : Kept r₀ s) : Kept r₀ (doBist s m h) := by
  unfold doBist
  try dsimp only
  repeat' first
    | with_reducible assumption
    | with_reducible apply kept_diagStart
    | with_reducible apply kept_diagReply
    | with_reducible apply kept_bistSave
    | with_reducible apply Kept.ite
    | (first | intro _ _ _ _ _ _ _ | intro _ _ _ _ _ _ | intro _ _ _ _ _ | intro _ _ _ _ | intro _ _ _)
    | ((with_reducible refine Kept.mk_ _ _ _ _ _ _ _ _ _ _ _ _ _ _ _ _ _ _ _ _ _ _ _ _ _ _ _ _ _ _ _ _ _ _ _ _ _ _ _ _ _ _ _ ?_ rfl rfl rfl rfl rfl rfl rfl rfl rfl rfl (by first | exact Nat.le_refl _ | exact Nat.le_succ _ | exact Nat.le_add_right _ _ | omega) rfl (by first | exact Nat.le_refl _ | exact Nat.le_succ _ | omega)); (first | with_reducible assumption | with_reducible apply kept_diagStart | with_reducible apply kept_diagReply | with_reducible apply kept_bistSave | with_reducible apply Kept.ite))

theorem kept_bistRuin {r₀ : State} (s : State) (d : Nat) (h₀ : Kept r₀ s) : Kept r₀ (bistRuin s d) := by
  unfold bistRuin
  try dsimp only
  repeat' first
    | with_reducible assumption
    | with_reducible apply kept_setDeck
    | with_reducible apply kept_freshGen
    | with_reducible apply kept_ruinDeck
    | with_reducible apply Kept.ite
    | (first | intro _ _ _ _ _ _ _ | intro _ _ _ _ _ _ | intro _ _ _ _ _ | intro _ _ _ _ | intro _ _ _)
    | ((with_reducible refine Kept.mk_ _ _ _ _ _ _ _ _ _ _ _ _ _ _ _ _ _ _ _ _ _ _ _ _ _ _ _ _ _ _ _ _ _ _ _ _ _ _ _ _ _ _ _ ?_ rfl rfl rfl rfl rfl rfl rfl rfl rfl rfl (by first | exact Nat.le_refl _ | exact Nat.le_succ _ | exact Nat.le_add_right _ _ | omega) rfl (by first | exact Nat.le_refl _ | exact Nat.le_succ _ | omega)); (first | with_reducible assumption | with_reducible apply kept_setDeck | with_reducible apply kept_freshGen | with_reducible apply kept_ruinDeck | with_reducible apply Kept.ite))

theorem kept_bistPass {r₀ : State} (s : State) (d : Nat) (h₀ : Kept r₀ s) : Kept r₀ (bistPass s d) := by
  unfold bistPass
  try dsimp only
  repeat' first
    | with_reducible assumption
    | with_reducible apply kept_diagEnd
    | with_reducible apply kept_bistRuin
    | with_reducible apply Kept.ite
    | (first | intro _ _ _ _ _ _ _ | intro _ _ _ _ _ _ | intro _ _ _ _ _ | intro _ _ _ _ | intro _ _ _)
    | ((with_reducible refine Kept.mk_ _ _ _ _ _ _ _ _ _ _ _ _ _ _ _ _ _ _ _ _ _ _ _ _ _ _ _ _ _ _ _ _ _ _ _ _ _ _ _ _ _ _ _ ?_ rfl rfl rfl rfl rfl rfl rfl rfl rfl rfl (by first | exact Nat.le_refl _ | exact Nat.le_succ _ | exact Nat.le_add_right _ _ | omega) rfl (by first | exact Nat.le_refl _ | exact Nat.le_succ _ | omega)); (first | with_reducible assumption | with_reducible apply kept_diagEnd | with_reducible apply kept_bistRuin | with_reducible apply Kept.ite))

theorem kept_bistFail {r₀ : State} (s : State) (d : Nat) (test : Nat) (h₀ : Kept r₀ s) : Kept r₀ (bistFail s d test) := by
  unfold bistFail
  try dsimp only
  repeat' first
    | with_reducible assumption
    | with_reducible apply kept_raiseDeck
    | with_reducible apply kept_fenceNow
    | with_reducible apply kept_diagEnd
    | with_reducible apply kept_bistRuin
    | with_reducible apply Kept.ite
    | (first | intro _ _ _ _ _ _ _ | intro _ _ _ _ _ _ | intro _ _ _ _ _ | intro _ _ _ _ | intro _ _ _)
    | ((with_reducible refine Kept.mk_ _ _ _ _ _ _ _ _ _ _ _ _ _ _ _ _ _ _ _ _ _ _ _ _ _ _ _ _ _ _ _ _ _ _ _ _ _ _ _ _ _ _ _ ?_ rfl rfl rfl rfl rfl rfl rfl rfl rfl rfl (by first | exact Nat.le_refl _ | exact Nat.le_succ _ | exact Nat.le_add_right _ _ | omega) rfl (by first | exact Nat.le_refl _ | exact Nat.le_succ _ | omega)); (first | with_reducible assumption | with_reducible apply kept_raiseDeck | with_reducible apply kept_fenceNow | with_reducible apply kept_diagEnd | with_reducible apply kept_bistRuin | with_reducible apply Kept.ite))

theorem kept_doAttest {r₀ : State} (s : State) (m : Msg) (h : Header) (h₀ : Kept r₀ s) : Kept r₀ (doAttest s m h) := by
  unfold doAttest
  try dsimp only
  repeat' first
    | with_reducible assumption
    | with_reducible apply kept_diagStart
    | with_reducible apply kept_diagReply
    | with_reducible apply kept_diagOutput
    | with_reducible apply Kept.ite
    | (first | intro _ _ _ _ _ _ _ | intro _ _ _ _ _ _ | intro _ _ _ _ _ | intro _ _ _ _ | intro _ _ _)
    | ((with_reducible refine Kept.mk_ _ _ _ _ _ _ _ _ _ _ _ _ _ _ _ _ _ _ _ _ _ _ _ _ _ _ _ _ _ _ _ _ _ _ _ _ _ _ _ _ _ _ _ ?_ rfl rfl rfl rfl rfl rfl rfl rfl rfl rfl (by first | exact Nat.le_refl _ | exact Nat.le_succ _ | exact Nat.le_add_right _ _ | omega) rfl (by first | exact Nat.le_refl _ | exact Nat.le_succ _ | omega)); (first | with_reducible assumption | with_reducible apply kept_diagStart | with_reducible apply kept_diagReply | with_reducible apply kept_diagOutput | with_reducible apply Kept.ite))

theorem kept_doExtend {r₀ : State} (s : State) (m : Msg) (h : Header) (h₀ : Kept r₀ s) : Kept r₀ (doExtend s m h) := by
  unfold doExtend
  try dsimp only
  repeat' first
    | with_reducible assumption
    | with_reducible apply kept_extendM
    | with_reducible apply kept_diagStart
    | with_reducible apply kept_diagEnd
    | with_reducible apply kept_diagReply
    | with_reducible apply Kept.ite
    | (first | intro _ _ _ _ _ _ _ | intro _ _ _ _ _ _ | intro _ _ _ _ _ | intro _ _ _ _ | intro _ _ _)
    | ((with_reducible refine Kept.mk_ _ _ _ _ _ _ _ _ _ _ _ _ _ _ _ _ _ _ _ _ _ _ _ _ _ _ _ _ _ _ _ _ _ _ _ _ _ _ _ _ _ _ _ ?_ rfl rfl rfl rfl rfl rfl rfl rfl rfl rfl (by first | exact Nat.le_refl _ | exact Nat.le_succ _ | exact Nat.le_add_right _ _ | omega) rfl (by first | exact Nat.le_refl _ | exact Nat.le_succ _ | omega)); (first | with_reducible assumption | with_reducible apply kept_extendM | with_reducible apply kept_diagStart | with_reducible apply kept_diagEnd | with_reducible apply kept_diagReply | with_reducible apply Kept.ite))

theorem kept_doFwWrite {r₀ : State} (s : State) (m : Msg) (h : Header) (h₀ : Kept r₀ s) : Kept r₀ (doFwWrite s m h) := by
  unfold doFwWrite
  try dsimp only
  repeat' first
    | with_reducible assumption
    | with_reducible apply kept_request
    | with_reducible apply kept_diagStart
    | with_reducible apply kept_diagReply
    | with_reducible apply Kept.ite
    | (first | intro _ _ _ _ _ _ _ | intro _ _ _ _ _ _ | intro _ _ _ _ _ | intro _ _ _ _ | intro _ _ _)
    | ((with_reducible refine Kept.mk_ _ _ _ _ _ _ _ _ _ _ _ _ _ _ _ _ _ _ _ _ _ _ _ _ _ _ _ _ _ _ _ _ _ _ _ _ _ _ _ _ _ _ _ ?_ rfl rfl rfl rfl rfl rfl rfl rfl rfl rfl (by first | exact Nat.le_refl _ | exact Nat.le_succ _ | exact Nat.le_add_right _ _ | omega) rfl (by first | exact Nat.le_refl _ | exact Nat.le_succ _ | omega)); (first | with_reducible assumption | with_reducible apply kept_request | with_reducible apply kept_diagStart | with_reducible apply kept_diagReply | with_reducible apply Kept.ite))

theorem kept_setCommit {r₀ : State} (s : State) (slot on : Bool) (h₀ : Kept r₀ s) : Kept r₀ (setCommit s slot on) := by
  cases slot
  · exact Kept.flash h₀ { s.flash with commit0 := on } (Nat.le_refl _) id id
  · exact Kept.flash h₀ { s.flash with commit1 := on } (Nat.le_refl _) id id

theorem kept_doFwActivate {r₀ : State} (s : State) (m : Msg) (h : Header) (h₀ : Kept r₀ s) : Kept r₀ (doFwActivate s m h) := by
  unfold doFwActivate
  try dsimp only
  repeat' first
    | with_reducible assumption
    | with_reducible apply kept_regSet
    | with_reducible apply kept_diagStart
    | with_reducible apply kept_diagEnd
    | with_reducible apply kept_diagReply
    | with_reducible apply kept_setCommit
    | with_reducible apply Kept.ite
    | (first | intro _ _ _ _ _ _ _ | intro _ _ _ _ _ _ | intro _ _ _ _ _ | intro _ _ _ _ | intro _ _ _)
    | ((with_reducible refine Kept.mk_ _ _ _ _ _ _ _ _ _ _ _ _ _ _ _ _ _ _ _ _ _ _ _ _ _ _ _ _ _ _ _ _ _ _ _ _ _ _ _ _ _ _ _ ?_ rfl rfl rfl rfl rfl rfl rfl rfl rfl rfl (by first | exact Nat.le_refl _ | exact Nat.le_succ _ | exact Nat.le_add_right _ _ | omega) rfl (by first | exact Nat.le_refl _ | exact Nat.le_succ _ | omega)); (first | with_reducible assumption | with_reducible apply kept_regSet | with_reducible apply kept_diagStart | with_reducible apply kept_diagEnd | with_reducible apply kept_diagReply | with_reducible apply kept_setCommit | with_reducible apply Kept.ite))
    | split
    | exact rfl
    | (unfold latchReg; apply decide_eq_false; simp only [mgBase, fcBase, ttBase, scBase, pwBase, mwBase, qyBase, ptBase, fcSevAddr]; omega)

theorem kept_doLog {r₀ : State} (s : State) (m : Msg) (h : Header) (h₀ : Kept r₀ s) : Kept r₀ (doLog s m h) := by
  unfold doLog
  try dsimp only
  repeat' first
    | with_reducible assumption
    | with_reducible apply kept_diagStart
    | with_reducible apply kept_diagReply
    | with_reducible apply kept_diagOutput
    | with_reducible apply Kept.ite
    | (first | intro _ _ _ _ _ _ _ | intro _ _ _ _ _ _ | intro _ _ _ _ _ | intro _ _ _ _ | intro _ _ _)
    | ((with_reducible refine Kept.mk_ _ _ _ _ _ _ _ _ _ _ _ _ _ _ _ _ _ _ _ _ _ _ _ _ _ _ _ _ _ _ _ _ _ _ _ _ _ _ _ _ _ _ _ ?_ rfl rfl rfl rfl rfl rfl rfl rfl rfl rfl (by first | exact Nat.le_refl _ | exact Nat.le_succ _ | exact Nat.le_add_right _ _ | omega) rfl (by first | exact Nat.le_refl _ | exact Nat.le_succ _ | omega)); (first | with_reducible assumption | with_reducible apply kept_diagStart | with_reducible apply kept_diagReply | with_reducible apply kept_diagOutput | with_reducible apply Kept.ite))

theorem kept_flashWrite {r₀ : State} (s : State) (off : Nat) (data : List Byte) (h₀ : Kept r₀ s) : Kept r₀ (flashWrite s off data) := by
  unfold flashWrite slotOf
  apply kept_setCommit
  cases s.boot.slot
  · exact Kept.flash h₀ { s.flash with slot1 := s.flash.slot1.writeBytes off data } (Nat.le_refl _) id (wf_writeBytes _ _ _)
  · exact Kept.flash h₀ { s.flash with slot0 := s.flash.slot0.writeBytes off data } (Nat.le_refl _) (wf_writeBytes _ _ _) id

theorem kept_flashRuin {r₀ : State} (s : State) (off len : Nat) (h₀ : Kept r₀ s) : Kept r₀ (flashRuin s off len) := by
  have k : Kept r₀ (freshGen s).2 := kept_freshGen s h₀
  unfold flashRuin slotOf
  apply kept_setCommit
  cases s.boot.slot
  · exact Kept.flash k { s.flash with slot1 := s.flash.slot1.undefine off (off + len) (freshGen s).1 } (Nat.le_refl _) id
      (wf_undefine _ _ _ _)
  · exact Kept.flash k { s.flash with slot0 := s.flash.slot0.undefine off (off + len) (freshGen s).1 } (Nat.le_refl _)
      (wf_undefine _ _ _ _) id

theorem kept_fwDone {r₀ : State} (s : State) (hostFailed : Bool) (read : List Byte) (h₀ : Kept r₀ s) : Kept r₀ (fwDone s hostFailed read) := by
  unfold fwDone
  try dsimp only
  repeat' first
    | with_reducible assumption
    | with_reducible apply kept_setReqs
    | with_reducible apply kept_diagEnd
    | with_reducible apply kept_flashWrite
    | with_reducible apply kept_flashRuin
    | with_reducible apply Kept.ite
    | (first | intro _ _ _ _ _ _ _ | intro _ _ _ _ _ _ | intro _ _ _ _ _ | intro _ _ _ _ | intro _ _ _)
    | ((with_reducible refine Kept.mk_ _ _ _ _ _ _ _ _ _ _ _ _ _ _ _ _ _ _ _ _ _ _ _ _ _ _ _ _ _ _ _ _ _ _ _ _ _ _ _ _ _ _ _ ?_ rfl rfl rfl rfl rfl rfl rfl rfl rfl rfl (by first | exact Nat.le_refl _ | exact Nat.le_succ _ | exact Nat.le_add_right _ _ | omega) rfl (by first | exact Nat.le_refl _ | exact Nat.le_succ _ | omega)); (first | with_reducible assumption | with_reducible apply kept_setReqs | with_reducible apply kept_diagEnd | with_reducible apply kept_flashWrite | with_reducible apply kept_flashRuin | with_reducible apply Kept.ite))

theorem kept_outputDone {r₀ : State} (s : State) (hostFailed : Bool) (h₀ : Kept r₀ s) : Kept r₀ (outputDone s hostFailed) := by
  unfold outputDone
  try dsimp only
  repeat' first
    | with_reducible assumption
    | with_reducible apply kept_diagEnd
    | with_reducible apply kept_diagOutput
    | with_reducible apply Kept.ite
    | (first | intro _ _ _ _ _ _ _ | intro _ _ _ _ _ _ | intro _ _ _ _ _ | intro _ _ _ _ | intro _ _ _)
    | ((with_reducible refine Kept.mk_ _ _ _ _ _ _ _ _ _ _ _ _ _ _ _ _ _ _ _ _ _ _ _ _ _ _ _ _ _ _ _ _ _ _ _ _ _ _ _ _ _ _ _ ?_ rfl rfl rfl rfl rfl rfl rfl rfl rfl rfl (by first | exact Nat.le_refl _ | exact Nat.le_succ _ | exact Nat.le_add_right _ _ | omega) rfl (by first | exact Nat.le_refl _ | exact Nat.le_succ _ | omega)); (first | with_reducible assumption | with_reducible apply kept_diagEnd | with_reducible apply kept_diagOutput | with_reducible apply Kept.ite))

end Sys2Proof.Laws
end

