-- ==== Sys2Proof/Laws/KeptPower.lean ====
section
/-! SUPPORT. What each operation of Machine/Power.lean keeps. -/

namespace Sys2Proof.Laws

set_option linter.all false

open Sys2Proof.Machine Sys2Proof.Safety

theorem kept_tryRestart {r₀ : State} (s : State) (h₀ : Kept r₀ s) : Kept r₀ (tryRestart s) := by
  unfold tryRestart
  apply Kept.ite
  · exact Kept.upd (Kept.boot h₀ { s.boot with phaseAt := s.time.mono } id id) rfl rfl rfl rfl rfl rfl rfl rfl rfl rfl (Nat.le_refl _)
  · exact h₀

theorem kept_fastUntil {r₀ : State} (s : State) (h₀ : Kept r₀ s) : Kept r₀ (fastUntil s) := by
  unfold fastUntil
  try dsimp only
  repeat' first
    | with_reducible assumption
    | with_reducible apply Kept.ite
    | (first | intro _ _ _ _ _ _ _ | intro _ _ _ _ _ _ | intro _ _ _ _ _ | intro _ _ _ _ | intro _ _ _)
    | ((with_reducible refine Kept.mk_ _ _ _ _ _ _ _ _ _ _ _ _ _ _ _ _ _ _ _ _ _ _ _ _ _ _ _ _ _ _ _ _ _ _ _ _ _ _ _ _ _ _ _ ?_ rfl rfl rfl rfl rfl rfl rfl rfl rfl rfl (by first | exact Nat.le_refl _ | exact Nat.le_succ _ | exact Nat.le_add_right _ _ | omega) rfl (by first | exact Nat.le_refl _ | exact Nat.le_succ _ | omega)); (first | with_reducible assumption | with_reducible apply Kept.ite))

/-- The two addressed memories and the numbering of free values change. -/
theorem Kept.loads {r s : State} (h : Kept r s) (m c : Mem) (n : Nat) (hm : s.hbm.wf = true → m.wf = true)
    (hc : s.cmdMem.wf = true → c.wf = true) (hn : s.free ≤ n) : Kept r { s with free := n, hbm := m, cmdMem := c } :=
  h.trans ⟨⟨rfl, rfl, hn, Nat.le_refl _, fun w => ⟨hm w.hbm, hc w.cmdMem, w.slot0, w.slot1⟩, id⟩,
    ⟨fun _ => rfl, id, id, id, id, id, fun _ => ⟨rfl, fun _ _ => rfl⟩, rfl⟩⟩

theorem kept_loseLoads {r₀ : State} (s : State) (h₀ : Kept r₀ s) : Kept r₀ (loseLoads s) := by
  have k : Kept r₀ (freshGen s).2 := kept_freshGen s h₀
  have hn : (freshGen s).2.free ≤ (freshGen s).1 + 49 := by
    have e : (freshGen s).2.free = (freshGen s).1 + 1 := rfl
    rw [e]
    omega
  unfold loseLoads
  generalize freshGen s = g at k hn ⊢
  dsimp only
  refine Kept.foldl _ (fun _ _ h => kept_setDeck _ _ _ h) _ _ ?_
  exact Kept.loads k _ _ _ (wf_undefine _ _ _ _) (wf_undefine _ _ _ _) hn

theorem kept_portsOff {r₀ : State} (s : State) (h₀ : Kept r₀ s) : Kept r₀ (portsOff s) := by
  unfold portsOff
  try dsimp only
  repeat' first
    | with_reducible assumption
    | with_reducible apply kept_dropLink
    | with_reducible apply Kept.ite
    | with_reducible apply Kept.foldl
    | with_reducible apply Kept.foldl_fst
    | with_reducible apply Kept.foldl_snd
    | (first | intro _ _ _ _ _ _ _ | intro _ _ _ _ _ _ | intro _ _ _ _ _ | intro _ _ _ _ | intro _ _ _)
    | ((with_reducible refine Kept.mk_ _ _ _ _ _ _ _ _ _ _ _ _ _ _ _ _ _ _ _ _ _ _ _ _ _ _ _ _ _ _ _ _ _ _ _ _ _ _ _ _ _ _ _ ?_ rfl rfl rfl rfl rfl rfl rfl rfl rfl rfl (by first | exact Nat.le_refl _ | exact Nat.le_succ _ | exact Nat.le_add_right _ _ | omega) rfl (by first | exact Nat.le_refl _ | exact Nat.le_succ _ | omega)); (first | with_reducible assumption | with_reducible apply kept_dropLink | with_reducible apply Kept.ite | with_reducible apply Kept.foldl | with_reducible apply Kept.foldl_fst | with_reducible apply Kept.foldl_snd))

theorem kept_shutdown {r₀ : State} (s : State) (cause : Nat) (h₀ : Kept r₀ s) : Kept r₀ (shutdown s cause) := by
  unfold shutdown
  try dsimp only
  repeat' first
    | with_reducible assumption
    | with_reducible apply kept_alertSet
    | with_reducible apply kept_haltModule
    | with_reducible apply kept_loseLoads
    | with_reducible apply kept_portsOff
    | with_reducible apply Kept.ite
    | (first | intro _ _ _ _ _ _ _ | intro _ _ _ _ _ _ | intro _ _ _ _ _ | intro _ _ _ _ | intro _ _ _)
    | ((with_reducible refine Kept.mk_ _ _ _ _ _ _ _ _ _ _ _ _ _ _ _ _ _ _ _ _ _ _ _ _ _ _ _ _ _ _ _ _ _ _ _ _ _ _ _ _ _ _ _ ?_ rfl rfl rfl rfl rfl rfl rfl rfl rfl rfl (by first | exact Nat.le_refl _ | exact Nat.le_succ _ | exact Nat.le_add_right _ _ | omega) rfl (by first | exact Nat.le_refl _ | exact Nat.le_succ _ | omega)); (first | with_reducible assumption | with_reducible apply kept_alertSet | with_reducible apply kept_haltModule | with_reducible apply kept_loseLoads | with_reducible apply kept_portsOff | with_reducible apply Kept.ite))

theorem kept_orderlyStop {r₀ : State} (s : State) (cause : Nat) (h₀ : Kept r₀ s) : Kept r₀ (orderlyStop s cause) := by
  unfold orderlyStop
  try dsimp only
  repeat' first
    | with_reducible assumption
    | with_reducible apply kept_alertSet
    | with_reducible apply kept_haltModule
    | with_reducible apply Kept.ite
    | (first | intro _ _ _ _ _ _ _ | intro _ _ _ _ _ _ | intro _ _ _ _ _ | intro _ _ _ _ | intro _ _ _)
    | ((with_reducible refine Kept.mk_ _ _ _ _ _ _ _ _ _ _ _ _ _ _ _ _ _ _ _ _ _ _ _ _ _ _ _ _ _ _ _ _ _ _ _ _ _ _ _ _ _ _ _ ?_ rfl rfl rfl rfl rfl rfl rfl rfl rfl rfl (by first | exact Nat.le_refl _ | exact Nat.le_succ _ | exact Nat.le_add_right _ _ | omega) rfl (by first | exact Nat.le_refl _ | exact Nat.le_succ _ | omega)); (first | with_reducible assumption | with_reducible apply kept_alertSet | with_reducible apply kept_haltModule | with_reducible apply Kept.ite))

theorem kept_powerEntry {r₀ : State} (s : State) (fast : Bool) (overcurrent : Bool) (h₀ : Kept r₀ s) : Kept r₀ (powerEntry s fast overcurrent) := by
  unfold powerEntry
  try dsimp only
  repeat' first
    | with_reducible assumption
    | with_reducible apply kept_raiseChip
    | with_reducible apply kept_noteReport
    | with_reducible apply kept_alertSet
    | with_reducible apply Kept.ite
    | (first | intro _ _ _ _ _ _ _ | intro _ _ _ _ _ _ | intro _ _ _ _ _ | intro _ _ _ _ | intro _ _ _)
    | ((with_reducible refine Kept.mk_ _ _ _ _ _ _ _ _ _ _ _ _ _ _ _ _ _ _ _ _ _ _ _ _ _ _ _ _ _ _ _ _ _ _ _ _ _ _ _ _ _ _ _ ?_ rfl rfl rfl rfl rfl rfl rfl rfl rfl rfl (by first | exact Nat.le_refl _ | exact Nat.le_succ _ | exact Nat.le_add_right _ _ | omega) rfl (by first | exact Nat.le_refl _ | exact Nat.le_succ _ | omega)); (first | with_reducible assumption | with_reducible apply kept_raiseChip | with_reducible apply kept_noteReport | with_reducible apply kept_alertSet | with_reducible apply Kept.ite))

theorem kept_thermEntry {r₀ : State} (s : State) (h₀ : Kept r₀ s) : Kept r₀ (thermEntry s) := by
  unfold thermEntry
  try dsimp only
  repeat' first
    | with_reducible assumption
    | with_reducible apply kept_raiseChip
    | with_reducible apply kept_noteReport
    | with_reducible apply kept_alertSet
    | with_reducible apply Kept.ite
    | (first | intro _ _ _ _ _ _ _ | intro _ _ _ _ _ _ | intro _ _ _ _ _ | intro _ _ _ _ | intro _ _ _)
    | ((with_reducible refine Kept.mk_ _ _ _ _ _ _ _ _ _ _ _ _ _ _ _ _ _ _ _ _ _ _ _ _ _ _ _ _ _ _ _ _ _ _ _ _ _ _ _ _ _ _ _ ?_ rfl rfl rfl rfl rfl rfl rfl rfl rfl rfl (by first | exact Nat.le_refl _ | exact Nat.le_succ _ | exact Nat.le_add_right _ _ | omega) rfl (by first | exact Nat.le_refl _ | exact Nat.le_succ _ | omega)); (first | with_reducible assumption | with_reducible apply kept_raiseChip | with_reducible apply kept_noteReport | with_reducible apply kept_alertSet | with_reducible apply Kept.ite))

theorem kept_throttleTick {r₀ : State} (s : State) (watts : Nat) (h₀ : Kept r₀ s) : Kept r₀ (throttleTick s watts) := by
  unfold throttleTick
  try dsimp only
  repeat' first
    | with_reducible assumption
    | with_reducible apply kept_powerEntry
    | with_reducible apply kept_thermEntry
    | with_reducible apply Kept.ite
    | (first | intro _ _ _ _ _ _ _ | intro _ _ _ _ _ _ | intro _ _ _ _ _ | intro _ _ _ _ | intro _ _ _)
    | ((with_reducible refine Kept.mk_ _ _ _ _ _ _ _ _ _ _ _ _ _ _ _ _ _ _ _ _ _ _ _ _ _ _ _ _ _ _ _ _ _ _ _ _ _ _ _ _ _ _ _ ?_ rfl rfl rfl rfl rfl rfl rfl rfl rfl rfl (by first | exact Nat.le_refl _ | exact Nat.le_succ _ | exact Nat.le_add_right _ _ | omega) rfl (by first | exact Nat.le_refl _ | exact Nat.le_succ _ | omega)); (first | with_reducible assumption | with_reducible apply kept_powerEntry | with_reducible apply kept_thermEntry | with_reducible apply Kept.ite))

theorem kept_fastThrottle {r₀ : State} (s : State) (overcurrent : Bool) (h₀ : Kept r₀ s) : Kept r₀ (fastThrottle s overcurrent) := by
  unfold fastThrottle
  try dsimp only
  repeat' first
    | with_reducible assumption
    | with_reducible apply kept_powerEntry
    | with_reducible apply Kept.ite
    | (first | intro _ _ _ _ _ _ _ | intro _ _ _ _ _ _ | intro _ _ _ _ _ | intro _ _ _ _ | intro _ _ _)
    | ((with_reducible refine Kept.mk_ _ _ _ _ _ _ _ _ _ _ _ _ _ _ _ _ _ _ _ _ _ _ _ _ _ _ _ _ _ _ _ _ _ _ _ _ _ _ _ _ _ _ _ ?_ rfl rfl rfl rfl rfl rfl rfl rfl rfl rfl (by first | exact Nat.le_refl _ | exact Nat.le_succ _ | exact Nat.le_add_right _ _ | omega) rfl (by first | exact Nat.le_refl _ | exact Nat.le_succ _ | omega)); (first | with_reducible assumption | with_reducible apply kept_powerEntry | with_reducible apply Kept.ite))

theorem kept_setSensor {r₀ : State} (s : State) (n : Nat) (x : Sensor) (h₀ : Kept r₀ s) : Kept r₀ (setSensor s n x) := by
  unfold setSensor
  try dsimp only
  repeat' first
    | with_reducible assumption
    | with_reducible apply Kept.ite
    | (first | intro _ _ _ _ _ _ _ | intro _ _ _ _ _ _ | intro _ _ _ _ _ | intro _ _ _ _ | intro _ _ _)
    | ((with_reducible refine Kept.mk_ _ _ _ _ _ _ _ _ _ _ _ _ _ _ _ _ _ _ _ _ _ _ _ _ _ _ _ _ _ _ _ _ _ _ _ _ _ _ _ _ _ _ _ ?_ rfl rfl rfl rfl rfl rfl rfl rfl rfl rfl (by first | exact Nat.le_refl _ | exact Nat.le_succ _ | exact Nat.le_add_right _ _ | omega) rfl (by first | exact Nat.le_refl _ | exact Nat.le_succ _ | omega)); (first | with_reducible assumption | with_reducible apply Kept.ite))

theorem kept_inletRead {r₀ : State} (s : State) (v : Int) (h₀ : Kept r₀ s) : Kept r₀ (inletRead s v) := by
  unfold inletRead
  try dsimp only
  repeat' first
    | with_reducible assumption
    | with_reducible apply kept_alertSet
    | with_reducible apply Kept.ite
    | (first | intro _ _ _ _ _ _ _ | intro _ _ _ _ _ _ | intro _ _ _ _ _ | intro _ _ _ _ | intro _ _ _)
    | ((with_reducible refine Kept.mk_ _ _ _ _ _ _ _ _ _ _ _ _ _ _ _ _ _ _ _ _ _ _ _ _ _ _ _ _ _ _ _ _ _ _ _ _ _ _ _ _ _ _ _ ?_ rfl rfl rfl rfl rfl rfl rfl rfl rfl rfl (by first | exact Nat.le_refl _ | exact Nat.le_succ _ | exact Nat.le_add_right _ _ | omega) rfl (by first | exact Nat.le_refl _ | exact Nat.le_succ _ | omega)); (first | with_reducible assumption | with_reducible apply kept_alertSet | with_reducible apply Kept.ite))

theorem kept_junctionRead {r₀ : State} (s : State) (n : Nat) (v : Int) (h₀ : Kept r₀ s) : Kept r₀ (junctionRead s n v) := by
  unfold junctionRead
  try dsimp only
  repeat' first
    | with_reducible assumption
    | with_reducible apply kept_raiseChip
    | with_reducible apply kept_shutdown
    | with_reducible apply kept_setSensor
    | with_reducible apply Kept.ite
    | (first | intro _ _ _ _ _ _ _ | intro _ _ _ _ _ _ | intro _ _ _ _ _ | intro _ _ _ _ | intro _ _ _)
    | ((with_reducible refine Kept.mk_ _ _ _ _ _ _ _ _ _ _ _ _ _ _ _ _ _ _ _ _ _ _ _ _ _ _ _ _ _ _ _ _ _ _ _ _ _ _ _ _ _ _ _ ?_ rfl rfl rfl rfl rfl rfl rfl rfl rfl rfl (by first | exact Nat.le_refl _ | exact Nat.le_succ _ | exact Nat.le_add_right _ _ | omega) rfl (by first | exact Nat.le_refl _ | exact Nat.le_succ _ | omega)); (first | with_reducible assumption | with_reducible apply kept_raiseChip | with_reducible apply kept_shutdown | with_reducible apply kept_setSensor | with_reducible apply Kept.ite))

theorem kept_acceptReading {r₀ : State} (s : State) (n : Nat) (raw : Int) (h₀ : Kept r₀ s) : Kept r₀ (acceptReading s n raw) := by
  unfold acceptReading
  try dsimp only
  repeat' first
    | with_reducible assumption
    | with_reducible apply kept_setSensor
    | with_reducible apply kept_inletRead
    | with_reducible apply kept_junctionRead
    | with_reducible apply Kept.ite
    | (first | intro _ _ _ _ _ _ _ | intro _ _ _ _ _ _ | intro _ _ _ _ _ | intro _ _ _ _ | intro _ _ _)
    | ((with_reducible refine Kept.mk_ _ _ _ _ _ _ _ _ _ _ _ _ _ _ _ _ _ _ _ _ _ _ _ _ _ _ _ _ _ _ _ _ _ _ _ _ _ _ _ _ _ _ _ ?_ rfl rfl rfl rfl rfl rfl rfl rfl rfl rfl (by first | exact Nat.le_refl _ | exact Nat.le_succ _ | exact Nat.le_add_right _ _ | omega) rfl (by first | exact Nat.le_refl _ | exact Nat.le_succ _ | omega)); (first | with_reducible assumption | with_reducible apply kept_setSensor | with_reducible apply kept_inletRead | with_reducible apply kept_junctionRead | with_reducible apply Kept.ite))

theorem kept_discardReading {r₀ : State} (s : State) (n : Nat) (raw : Int) (h₀ : Kept r₀ s) : Kept r₀ (discardReading s n raw) := by
  unfold discardReading
  try dsimp only
  repeat' first
    | with_reducible assumption
    | with_reducible apply kept_raiseChip
    | with_reducible apply kept_fastThrottle
    | with_reducible apply kept_setSensor
    | with_reducible apply Kept.ite
    | (first | intro _ _ _ _ _ _ _ | intro _ _ _ _ _ _ | intro _ _ _ _ _ | intro _ _ _ _ | intro _ _ _)
    | ((with_reducible refine Kept.mk_ _ _ _ _ _ _ _ _ _ _ _ _ _ _ _ _ _ _ _ _ _ _ _ _ _ _ _ _ _ _ _ _ _ _ _ _ _ _ _ _ _ _ _ ?_ rfl rfl rfl rfl rfl rfl rfl rfl rfl rfl (by first | exact Nat.le_refl _ | exact Nat.le_succ _ | exact Nat.le_add_right _ _ | omega) rfl (by first | exact Nat.le_refl _ | exact Nat.le_succ _ | omega)); (first | with_reducible assumption | with_reducible apply kept_raiseChip | with_reducible apply kept_fastThrottle | with_reducible apply kept_setSensor | with_reducible apply Kept.ite))

theorem kept_sensorReading {r₀ : State} (s : State) (n : Nat) (raw : Int) (h₀ : Kept r₀ s) : Kept r₀ (sensorReading s n raw) := by
  unfold sensorReading
  try dsimp only
  repeat' first
    | with_reducible assumption
    | with_reducible apply kept_tryRestart
    | with_reducible apply kept_setSensor
    | with_reducible apply kept_acceptReading
    | with_reducible apply kept_discardReading
    | with_reducible apply Kept.ite
    | (first | intro _ _ _ _ _ _ _ | intro _ _ _ _ _ _ | intro _ _ _ _ _ | intro _ _ _ _ | intro _ _ _)
    | ((with_reducible refine Kept.mk_ _ _ _ _ _ _ _ _ _ _ _ _ _ _ _ _ _ _ _ _ _ _ _ _ _ _ _ _ _ _ _ _ _ _ _ _ _ _ _ _ _ _ _ ?_ rfl rfl rfl rfl rfl rfl rfl rfl rfl rfl (by first | exact Nat.le_refl _ | exact Nat.le_succ _ | exact Nat.le_add_right _ _ | omega) rfl (by first | exact Nat.le_refl _ | exact Nat.le_succ _ | omega)); (first | with_reducible assumption | with_reducible apply kept_tryRestart | with_reducible apply kept_setSensor | with_reducible apply kept_acceptReading | with_reducible apply kept_discardReading | with_reducible apply Kept.ite))

/-- The power unit changes. -/
theorem Kept.pw {r s : State} (h : Kept r s) (x : Power) : Kept r { s with pw := x } :=
  Kept.upd h rfl rfl rfl rfl rfl rfl rfl rfl rfl rfl (Nat.le_refl _)

theorem kept_refclk {r₀ : State} (s : State) (missing : Bool) (ppm : Int) (h₀ : Kept r₀ s) : Kept r₀ (refclk s missing ppm) := by
  have k1 : Kept r₀ (if missing then s else { s with pw := { s.pw with clkPpm := ppmField ppm } }) := Kept.ite h₀ (Kept.pw h₀ _)
  unfold refclk
  generalize (if missing then s else { s with pw := { s.pw with clkPpm := ppmField ppm } }) = s1 at k1 ⊢
  dsimp only
  apply Kept.ite _ (Kept.pw k1 _)
  have k3 := kept_raiseChip _ 1 0x55 (flagAt (!missing) 0 + s1.pw.clkPpm.toNat * 2 ^ 16) (Kept.pw k1 { s1.pw with clkOk := false })
  generalize raiseChip _ 1 0x55 _ = s3 at k3 ⊢
  exact kept_portsOff _ (Kept.ite (kept_alertSet _ _ (Kept.pw k3 _)) k3)

theorem kept_wearCompute {r₀ : State} (s : State) (ro : List Nat) (hbm : Nat) (eye : Nat) (cap : Nat) (days : List Nat) (h₀ : Kept r₀ s) : Kept r₀ (wearCompute s ro hbm eye cap days) := by
  unfold wearCompute
  try dsimp only
  repeat' first
    | with_reducible assumption
    | with_reducible apply kept_raiseChip
    | with_reducible apply kept_alertSet
    | with_reducible apply Kept.ite
    | with_reducible apply Kept.ite_fst
    | (first | intro _ _ _ _ _ _ _ | intro _ _ _ _ _ _ | intro _ _ _ _ _ | intro _ _ _ _ | intro _ _ _)
    | ((with_reducible refine Kept.mk_ _ _ _ _ _ _ _ _ _ _ _ _ _ _ _ _ _ _ _ _ _ _ _ _ _ _ _ _ _ _ _ _ _ _ _ _ _ _ _ _ _ _ _ ?_ rfl rfl rfl rfl rfl rfl rfl rfl rfl rfl (by first | exact Nat.le_refl _ | exact Nat.le_succ _ | exact Nat.le_add_right _ _ | omega) rfl (by first | exact Nat.le_refl _ | exact Nat.le_succ _ | omega)); (first | with_reducible assumption | with_reducible apply kept_raiseChip | with_reducible apply kept_alertSet | with_reducible apply Kept.ite | with_reducible apply Kept.ite_fst))

end Sys2Proof.Laws
end

