-- ==== Sys2Proof/Laws/KeptBoot.lean ====
section
/-! SUPPORT. What each operation of Machine/Boot.lean keeps. -/

namespace Sys2Proof.Laws

set_option linter.all false

open Sys2Proof.Machine Sys2Proof.Safety

theorem kept_setPhase {r₀ : State} (s : State) (n : Nat) (hp : s.boot.phase = 8 → n = 8) (h₀ : Kept r₀ s) : Kept r₀ (setPhase s n) :=
  Kept.boot h₀ { s.boot with phase := n, phaseAt := s.time.mono } id hp

theorem kept_bootSlot {r₀ : State} (s : State) (slot fallback : Bool) (hp : s.boot.phase ≠ 8) (h₀ : Kept r₀ s) :
    Kept r₀ (bootSlot s slot fallback) := by
  unfold bootSlot
  exact kept_setPhase _ _ (fun h => absurd h hp) (Kept.boot h₀ _ id id)

theorem kept_signedBoot {r₀ : State} (s : State) (h₀ : Kept r₀ s) : Kept r₀ (signedBoot s) := by
  unfold signedBoot
  dsimp only
  apply Kept.dite (fun _ => h₀)
  intro hp
  have hp : s.boot.phase ≠ 8 := by omega
  exact Kept.ite (kept_bootSlot _ _ _ hp h₀) (Kept.ite (kept_bootSlot _ _ _ hp h₀) (kept_enterHarbour _ _ (kept_raiseChip _ _ _ _ h₀)))

theorem kept_bistUnit {r₀ : State} (s : State) (f : BistFailure) (h₀ : Kept r₀ s) : Kept r₀ (bistUnit s f) := by
  cases f with
  | deck d test =>
    have k : Kept r₀ (fenceDeck (raiseDeck s 0 d.val 0x02 test.val) d.val (sourceId 0 d.val 0x02)) :=
      kept_fenceDeck _ _ _ (kept_raiseDeck _ _ _ _ _ h₀)
    exact Kept.boot k { (fenceDeck (raiseDeck s 0 d.val 0x02 test.val) d.val (sourceId 0 d.val 0x02)).boot with fenced := _ } id id
  | lane p => exact Kept.ite (kept_raiseChip _ _ _ _ (kept_setPort _ _ _ (kept_freshWord _ h₀))) h₀
  | serdes p lanes => exact kept_serdesFails _ _ _ h₀
  | stack k band => exact Kept.ite (kept_raise _ _ _ _ _ _ _ h₀) h₀
  | chip u => exact kept_raiseChip _ _ _ _ h₀

theorem kept_powerUpBist {r₀ : State} (s : State) (failures : List BistFailure) (h₀ : Kept r₀ s) :
    Kept r₀ (powerUpBist s failures) := by
  have k : Kept r₀ (failures.foldl bistUnit s) := Kept.foldl _ (fun _ _ h => kept_bistUnit _ _ h) _ _ h₀
  unfold powerUpBist
  generalize failures.foldl bistUnit s = s1 at k ⊢
  generalize failures.filterMap (bistCause s) = causes
  apply Kept.ite h₀
  dsimp only
  refine Kept.dite (fun h => ?_) (fun _ => Kept.foldl _ (fun _ _ h => kept_enterHarbour _ _ h) _ _ k)
  have h := (Bool.and_eq_true _ _ ▸ h).2
  simp only [beq_iff_eq] at h
  exact kept_setPhase _ _ (fun e => by omega) k

theorem kept_commitSvn {r₀ : State} (s : State) (h₀ : Kept r₀ s) : Kept r₀ (commitSvn s) := by
  unfold commitSvn
  apply Kept.dite _ (fun _ => h₀)
  intro h
  have h := (Bool.and_eq_true _ _ ▸ h).2
  simp only [decide_eq_true_eq] at h
  exact Kept.flash h₀ { s.flash with svnMin := s.boot.fwSvn } (Nat.le_of_lt h) id id

theorem kept_moduleReady {r₀ : State} (s : State) (h₀ : Kept r₀ s) : Kept r₀ (moduleReady s) := by
  unfold moduleReady
  apply Kept.dite _ (fun _ => h₀)
  intro h
  refine kept_commitSvn _ (kept_alertSet _ _ (Kept.boot h₀ _ (fun _ => rfl) (fun hp => ?_)))
  omega

end Sys2Proof.Laws
end

