-- ==== Sys2Proof/Laws/KeptResets.lean ====
section
/-! SUPPORT. What every command leaves holds of the resets, of power-up and of JTAG access too, which undo latches. -/

namespace Sys2Proof.Laws

set_option linter.all false

open Sys2Proof Sys2Proof.Machine Sys2Proof.Safety

/-- Nothing changed. -/
theorem Always.refl (s : State) : Always s s := (Kept.refl s).always

/-- A change of the power unit alone. -/
theorem Always.pw {s t : State} (h : Always s t) (x : Power) : Always s { t with pw := x } :=
  ⟨h.pending, h.fitted, h.free, h.svn, fun w => ⟨(h.mem w).hbm, (h.mem w).cmdMem, (h.mem w).slot0, (h.mem w).slot1⟩, h.names⟩

/-- A change of the start-up unit alone. -/
theorem Always.boot {s t : State} (h : Always s t) (x : Boot) : Always s { t with boot := x } :=
  ⟨h.pending, h.fitted, h.free, h.svn, fun w => ⟨(h.mem w).hbm, (h.mem w).cmdMem, (h.mem w).slot0, (h.mem w).slot1⟩, h.names⟩

/-- A memory whose contents are undefined is canonical. -/
theorem wf_open (size gen : Nat) : (Mem.open_ size gen).wf = true := wf_empty _

/-- A loss of the volatile state. -/
theorem always_volatile (s : State) (cycle : Bool) : Always s (volatile s cycle) :=
  ⟨rfl, rfl, Nat.le_add_right _ _, Nat.le_refl _, fun w => ⟨wf_open _ _, wf_open _ _, w.slot0, w.slot1⟩, fun _ x hx => absurd hx (List.not_mem_nil)⟩

/-- A full reset. -/
theorem always_fullReset (s : State) (cycle : Bool) : Always s (fullReset s cycle) := Always.boot (always_volatile s cycle) _

/-- A restart that was due. -/
theorem always_tryRestart {s t : State} (h : Always s t) : Always s (tryRestart t) := by
  unfold tryRestart
  split
  · have k := Always.boot h { t.boot with phaseAt := t.time.mono }
    exact Always.pw k _
  · exact h

/-- Power-up. -/
theorem always_powerUp {s t : State} (h : Always s t) : Always s (powerUp t) := by
  have k : Always s (freshWord t).2 := Always.trans h (kept_freshWord t (Kept.refl t)).always
  unfold powerUp
  generalize freshWord t = w at k ⊢
  split
  · exact always_tryRestart (Always.pw (Always.trans k (always_fullReset _ _)) _)
  · exact h

/-- Power off. -/
theorem always_powerOff {s t : State} (h : Always s t) : Always s (powerOff t) := by
  unfold powerOff
  split
  · exact Always.pw (Always.trans h (always_volatile _ _)) _
  · exact h

/-- What JTAG access leaves. -/
theorem always_scanState (s : State) : Always s (scanState s) := by
  unfold scanState
  generalize Config.scannedState s.free = f
  dsimp only
  have hl : ∀ x ∈ f.runs.zipIdx.map (fun e => { e.1 with id := s.nextId + e.2 }), x.id < s.nextId + f.runs.length := by
    intro x hx
    obtain ⟨e, he, rfl⟩ := List.mem_map.mp hx
    have := List.snd_lt_of_mem_zipIdx he
    exact Nat.add_lt_add_left (by simpa using this) _
  generalize f.runs.zipIdx.map (fun e => { e.1 with id := s.nextId + e.2 }) = runs at hl ⊢
  generalize List.map _ _ = decks
  generalize List.foldl _ _ _ = rw
  exact ⟨rfl, rfl, Nat.le_add_right _ _, Nat.le_refl _, fun w => ⟨wf_open _ _, wf_open _ _, w.slot0, w.slot1⟩, fun _ => hl⟩

/-- PWR_EN_ASSERT. -/
theorem always_execPwrEnAssert (millivolts : Nat) (s : State) : ∃ t, execPwrEnAssert millivolts s = .next t ∧ Always s t :=
  ⟨_, rfl, always_powerUp (Always.pw (Always.refl s) _)⟩

/-- PWR_EN_DEASSERT. -/
theorem always_execPwrEnDeassert (millivolts : Option Nat) (s : State) :
    ∃ t, execPwrEnDeassert millivolts s = .next t ∧ Always s t := by
  refine ⟨_, rfl, ?_⟩
  cases millivolts with
  | none => exact always_powerOff (Always.pw (Always.refl s) _)
  | some v =>
    dsimp only
    split
    · exact always_powerOff (Always.pw (Always.refl s) _)
    · exact Always.refl s

/-- VIN_RECOVERS. -/
theorem always_execVinRecovers (millivolts : Nat) (s : State) : ∃ t, execVinRecovers millivolts s = .next t ∧ Always s t :=
  ⟨_, rfl, always_tryRestart (always_powerUp (Always.pw (kept_fastUntil s (Kept.refl s)).always _))⟩

/-- RESET_N_ASSERT. -/
theorem always_execResetNAssert (s : State) : ∃ t, execResetNAssert s = .next t ∧ Always s t := by
  refine ⟨_, rfl, ?_⟩
  split
  · exact Always.refl s
  · split
    · exact always_fullReset _ _
    · exact always_tryRestart (Always.pw (always_fullReset _ _) _)

/-- JTAG_ACCESS. -/
theorem always_execJtagAccess (op : JtagOp) (s : State) : ∃ t, execJtagAccess op s = .next t ∧ Always s t := by
  refine ⟨_, rfl, ?_⟩
  cases op
  case privateInstruction | internalScan =>
    dsimp only
    split
    · exact always_scanState s
    · exact Always.refl s
  all_goals exact Always.refl s

end Sys2Proof.Laws
end

