-- ==== Sys2Proof/Laws/Records.lean ====
section
/-! SUPPORT. What sending, writing records, moving heads of queues and leaving halves can do. -/

namespace Sys2Proof.Laws

open Sys2Proof Sys2Proof.Machine Sys2Proof.Safety

/-- A state in which only records and what carries them have changed. -/
def OnlyRecords (s t : State) : Prop :=
  t = { s with landings := t.landings, conns := t.conns, ports := t.ports, out := t.out, fc := t.fc }

/-- Nothing has changed. -/
theorem OnlyRecords.refl (s : State) : OnlyRecords s s := rfl

/-- Two changes of that kind are one. -/
theorem OnlyRecords.trans {s t u : State} (h : OnlyRecords s t) (k : OnlyRecords t u) : OnlyRecords s u := by
  unfold OnlyRecords at *
  calc u = _ := k
    _ = _ := by rw [h]

/-- A frame that leaves or waits at its port. -/
theorem sendFrame_only (s : State) (p n : Nat) (o : Out) : OnlyRecords s (sendFrame s p n o) := by
  unfold sendFrame
  split <;> rfl

/-- Sending over a connection. -/
theorem sendOn_only (s : State) (n pcp : Nat) (m : Roce) (g : Bool) : OnlyRecords s (sendOn s n pcp m g) := by
  unfold sendOn
  split
  · exact sendFrame_only _ _ _ _
  · rfl

/-- Sending a request. -/
theorem request_only (s : State) (n : Nat) (kind : ReqKind) (packets : Nat) (m : Roce) (g : Bool) :
    OnlyRecords s (request s n kind packets m g) := by
  unfold request
  dsimp only
  split
  · refine OnlyRecords.trans ?_ (sendOn_only _ _ _ _ _)
    rfl
  · rfl

/-- Writing a record. -/
theorem writeRecord_only (s : State) (l : Nat) (r : Rec) : OnlyRecords s (writeRecord s l r) := by
  unfold writeRecord
  dsimp only
  have k (t : State) (n : Nat) (m : Roce) : OnlyRecords s t → OnlyRecords s (request t n .record 1 m) :=
    fun h => OnlyRecords.trans h (request_only _ _ _ _ _ _)
  have k1 := k (setLand s l { landOf s l with dseq := (landOf s l).dseq + 1, lost := 0 })
  split
  · exact OnlyRecords.trans (k1 _ _ rfl) rfl
  · exact k1 _ _ rfl

/-- A record joins a ring. -/
theorem emit_only (s : State) (l : Nat) (r : Rec) : OnlyRecords s (emit s l r) := by
  unfold emit
  dsimp only
  split
  · exact writeRecord_only s l r
  · split <;> rfl

/-- What changes records alone leaves contexts. -/
theorem OnlyRecords.ctx {s t : State} (h : OnlyRecords s t) (q c : Nat) : ctxOf t q c = ctxOf s q c := by
  unfold OnlyRecords at h
  unfold ctxOf quayOf
  rw [h]

/-- What changes records alone leaves flags. -/
theorem OnlyRecords.flag {s t : State} (h : OnlyRecords s t) (k : FlagKey) : flagVal t k = flagVal s k := by
  unfold OnlyRecords at h
  rw [h]
  cases k <;> rfl

/-- A wait that begins changes contexts, flags and waits alone, and keeps contexts. -/
theorem waitBegin_only (s : State) (q c b : Nat) (h : Bool) (w : BitVec 256) :
    OnlyFlags s (waitBegin s q c b h w) ∧ CtxsKept s (waitBegin s q c b h w) := by
  unfold waitBegin
  dsimp only
  split
  · exact ⟨waitSucceeds_only _ _ _ _, waitSucceeds_ctxs _ _ _ _⟩
  · split
    · exact ⟨waitSucceeds_only _ _ _ _, waitSucceeds_ctxs _ _ _ _⟩
    · split
      · rename_i f _ _ _
        have k := ((tested_flagPut s f (flagVal s f - (headOf w).wval)).trans (tested_waitSucceeds _ q c h)).trans (tested_testWaits _ f)
        exact ⟨k.only, k.ctxs⟩
      · exact ⟨rfl, CtxsKept.of_quays rfl⟩

/-- The head of a queue that begins its wait: contexts, flags and waits alone change, and contexts are kept. -/
theorem headBegin_only (s : State) (q c : Nat) : OnlyFlags s (headBegin s q c) ∧ CtxsKept s (headBegin s q c) := by
  unfold headBegin
  dsimp only
  split
  · rename_i m r b e1 e2
    split
    · exact ⟨rfl, CtxsKept.refl s⟩
    · have k := waitBegin_only (setCtx s q c { ctxOf s q c with queue := { m with begun := true } :: r }) q c b true m.word
      exact ⟨OnlyFlags.trans (t := setCtx s q c { ctxOf s q c with queue := { m with begun := true } :: r }) rfl k.1,
        CtxsKept.trans (CtxsKept.setCtx ⟨rfl, by simp [e1]⟩) k.2⟩
  · exact ⟨rfl, CtxsKept.refl s⟩

/-- The head of a queue leaves it: contexts, flags and waits alone change. -/
theorem popHead_only (s : State) (q c : Nat) : OnlyFlags s (popHead s q c) :=
  OnlyFlags.trans (t := setCtx s q c { ctxOf s q c with queue := (ctxOf s q c).queue.drop 1 }) rfl (headBegin_only _ q c).1

/-- The head of a queue leaves it; the context keeps the rest, and every other context is kept. -/
theorem popHead_ctx (s : State) (q c q' c' : Nat) :
    CtxKept (if q = q' ∧ c = c' then { ctxOf s q c with queue := (ctxOf s q c).queue.drop 1 } else ctxOf s q' c')
      (ctxOf (popHead s q c) q' c') := by
  have k := (headBegin_only (setCtx s q c { ctxOf s q c with queue := (ctxOf s q c).queue.drop 1 }) q c).2 q' c'
  rw [ctxOf_setCtx] at k
  exact k

/-- The berths' fields tell which flag a field names. -/
theorem flagKey_congr {s t : State} (h : t.berths = s.berths) (b q f : Nat) : flagKey t b q f = flagKey s b q f := by
  unfold flagKey berthOf
  rw [h]

/-- What changes contexts and flags alone leaves the flags that fields name. -/
theorem OnlyFlags.key {s t : State} (h : OnlyFlags s t) (b q f : Nat) : flagKey t b q f = flagKey s b q f :=
  flagKey_congr (by unfold OnlyFlags at h; rw [h]) b q f

/-- A context leaves its half: it occupies what it now occupies, keeps the rest of what it is, and flags stay. -/
theorem occupy_ctx (s : State) (q c b : Nat) (occ : Option Nat) :
    (ctxOf (occupy s q c b occ) q c).occ = occ ∧ (ctxOf (occupy s q c b occ) q c).mode = (ctxOf s q c).mode ∧
    (ctxOf (occupy s q c b occ) q c).queue = (ctxOf s q c).queue ∧ (ctxOf (occupy s q c b occ) q c).endDone = (ctxOf s q c).endDone ∧
    ∀ k, flagVal (occupy s q c b occ) k = flagVal s k := by
  unfold occupy
  dsimp only
  split
  · rename_i h
    exact ⟨h, rfl, rfl, rfl, fun _ => rfl⟩
  · have h (x : Ctx) (h1 : x.occ = occ) (h2 : x.mode = (ctxOf s q c).mode) (h3 : x.queue = (ctxOf s q c).queue)
        (h4 : x.endDone = (ctxOf s q c).endDone) (t : State) (ht : ctxOf t q c = x) (hf : ∀ k, flagVal t k = flagVal s k) :
        (ctxOf t q c).occ = occ ∧ (ctxOf t q c).mode = (ctxOf s q c).mode ∧ (ctxOf t q c).queue = (ctxOf s q c).queue ∧
        (ctxOf t q c).endDone = (ctxOf s q c).endDone ∧ ∀ k, flagVal t k = flagVal s k := by
      rw [ht]
      exact ⟨h1, h2, h3, h4, hf⟩
    split
    · exact h { ctxOf s q c with occ := occ } rfl rfl rfl rfl _ (ctxOf_setCtx_self _ _ _ _) (fun k => by cases k <;> rfl)
    · rename_i g _
      have hx : ∃ x : Ctx, { ctxOf s q c with
          occ := occ, left0 := if g = 0 then (halfOf s q b g).gen else (ctxOf s q c).left0,
          left1 := if g = 1 then (halfOf s q b g).gen else (ctxOf s q c).left1 } = x ∧ x.occ = occ ∧ x.mode = (ctxOf s q c).mode ∧
          x.queue = (ctxOf s q c).queue ∧ x.endDone = (ctxOf s q c).endDone := ⟨_, rfl, rfl, rfl, rfl, rfl⟩
      obtain ⟨x, e, h1, h2, h3, h4⟩ := hx
      rw [e]
      split
      · exact h x h1 h2 h3 h4 _ (ctxOf_setCtx_self _ _ _ _) (fun k => by cases k <;> rfl)
      · refine h x h1 h2 h3 h4 _ (((emit_only _ _ _).ctx q c).trans (ctxOf_setCtx_self _ _ _ _)) (fun k => ?_)
        exact ((emit_only _ _ _).flag k).trans (by cases k <;> rfl)

end Sys2Proof.Laws
end

