-- ==== Sys2Proof/Tests/Slice0.lean ====
section
/-! SUPPORT. Tests: an ill-formed term for every check of WellFormed.lean, single steps with the results that the rules of the spec give,
and states that meet the hypotheses of the statements. -/

namespace Sys2Proof.Tests

open Sys2Proof Sys2Proof.Machine Sys2Proof.Safety

set_option maxRecDepth 100000

/-! ### Ill-formed commands -/

/-- A packet with a QPN of 25 bits. -/
def badPkt : Packet := { port := 0, sub := 0, pcp := 0, psn := 0, dqpn := 2 ^ 24, sip := 0, sqpn := 0, icrcOk := true, ce := false, inSailing := false, unsupported := false, rkey := 0 }

/-- A packet with a good QPN. -/
def okPkt : Packet := { badPkt with dqpn := 17 }

theorem test_wf_packet : badPkt.wf = false ∧ okPkt.wf = true ∧ { okPkt with sqpn := 2 ^ 24 }.wf = false ∧
    { okPkt with psn := 2 ^ 24 }.wf = false ∧ { okPkt with pcp := 8 }.wf = false := by decide

/-- Two symbols of one block's errors with the same number, and an HBM outcome for each check. -/
def badErr : BlockErr := { addr := 0, symbols := [(3, 1), (3, 2)] }

theorem test_wf_blockErr : badErr.wf = false ∧ (BlockErr.mk (2 ^ 48) []).wf = false ∧ (BlockErr.mk 0 [(36, 1)]).wf = false ∧
    (BlockErr.mk 0 [(3, 1), (35, 2)]).wf = true := by decide
theorem test_wf_hbmOutcome : ({ errs := [badErr] } : HbmOutcome).wf = false ∧ ({ onDie := 2 ^ 32 } : HbmOutcome).wf = false ∧
    ({ late := some (2 ^ 48) } : HbmOutcome).wf = false ∧ ({} : HbmOutcome).wf = true := by decide

/-- An ill-formed outcome. -/
def badMem : HbmOutcome := { onDie := 2 ^ 32 }
theorem test_wf_ecc : (Ecc.corrected (2 ^ 64)).wf = false ∧ (Ecc.uncorrectable (2 ^ 64)).wf = false ∧ (Ecc.corrected (2 ^ 64 - 1)).wf = true := by decide
theorem test_wf_cmdFetchIssue : (Instr.cmdFetchIssue 0 0 (.corrected (2 ^ 64))).wf = false := by decide
theorem test_wf_loadComplete : (Instr.loadComplete 0 0 (List.replicate (2 ^ 32) 0) {}).wf = false := by
  unfold Instr.wf; dsimp only; unfold fits; rw [List.length_replicate]; decide
/-- Every command that takes an HBM outcome refuses an ill-formed one. -/
theorem test_wf_mem : (∀ i ∈ [Instr.loadComplete 0 0 [] badMem, .restacc 0 0 badMem, .drain 0 0 .ok .ok badMem, .drainComplete 0 0 badMem, .fmtsel 0 0 badMem,
    .gather 0 badMem, .scatter 0 badMem, .prefetch 0 badMem, .gatherThreadAction 0 .ok badMem, .ttTblLoadDone badMem, .inboundRdmaWrite okPkt 0 [] badMem,
    .inboundRdmaRead okPkt 0 0 badMem, .inboundWriteImm okPkt 0 [] 0 badMem, .suspendComplete 0 none badMem, .resume 0 badMem, .resumeComplete 0 badMem],
    i.wf = false) := by decide
theorem test_wf_store : (Instr.store 0 0 (.corrected (2 ^ 64))).wf = false := by decide
theorem test_wf_pass : (Instr.pass 0 0 (.uncorrectable (2 ^ 64))).wf = false := by decide
theorem test_wf_saveacc : (Instr.saveacc 0 0 (.uncorrectable (2 ^ 64))).wf = false := by decide
theorem test_wf_drain : (Instr.drain 0 0 .ok (.uncorrectable (2 ^ 64)) {}).wf = false ∧ (Instr.drain 0 0 (.corrected (2 ^ 64)) .ok {}).wf = false := by decide
theorem test_wf_gatherThreadAction : (Instr.gatherThreadAction 0 (.corrected (2 ^ 64)) {}).wf = false := by decide
theorem test_wf_recallPieceDone : (Instr.recallPieceDone 0 0 0 0 (List.replicate (2 ^ 32) 0)).wf = false := by
  unfold Instr.wf; dsimp only; unfold fits; rw [List.length_replicate]; decide
theorem test_wf_segmentReceive : (Instr.segmentReceive badPkt []).wf = false := by decide
theorem test_wf_segmentAddDone : (Instr.segmentAddDone 0 (2 ^ 32)).wf = false := by decide
theorem test_wf_ptp_announce : (Instr.ptpMessageReceive 0 0 (.announce 256 0 0 0 0 0 0 0)).wf = false ∧
    (Instr.ptpMessageReceive 0 0 (.announce 0 256 0 0 0 0 0 0)).wf = false ∧ (Instr.ptpMessageReceive 0 0 (.announce 0 0 256 0 0 0 0 0)).wf = false ∧
    (Instr.ptpMessageReceive 0 0 (.announce 0 0 0 256 0 0 0 0)).wf = false ∧ (Instr.ptpMessageReceive 0 0 (.announce 0 0 0 0 65536 0 0 0)).wf = false ∧
    (Instr.ptpMessageReceive 0 0 (.announce 0 0 0 0 0 256 0 0)).wf = false ∧ (Instr.ptpMessageReceive 0 0 (.announce 0 0 0 0 0 0 0 65536)).wf = false := by decide
theorem test_wf_ptp_others : (Instr.ptpMessageReceive 0 0 (.sync 256 0)).wf = false ∧ (Instr.ptpMessageReceive 0 0 (.delayReq 256)).wf = false := by decide
theorem test_wf_ppsInEdge : (Instr.ppsInEdge (2 ^ 32)).wf = false := by decide
theorem test_wf_fecLimitWindow : (Instr.fecLimitWindow 0 0 (2 ^ 32) 0).wf = false ∧ (Instr.fecLimitWindow 0 0 0 (2 ^ 32)).wf = false := by decide
theorem test_wf_landingCardReceive : (Instr.landingCardReceive 0 0 0 256 [] 0 0).wf = false ∧ (Instr.landingCardReceive 0 0 0 0 [] 65536 0).wf = false ∧
    (Instr.landingCardReceive 0 0 (2 ^ 24) 0 [] 0 0).wf = false := by decide
theorem test_wf_landingCardReceive_len : (Instr.landingCardReceive 0 0 0 0 (List.replicate 512 0) 0 0).wf = false := by
  unfold Instr.wf; dsimp only; unfold fits; rw [List.length_replicate]; decide
theorem test_wf_inboundRdmaWrite : (Instr.inboundRdmaWrite badPkt 0 [] {}).wf = false ∧ (Instr.inboundRdmaWrite okPkt (2 ^ 48) [] {}).wf = false := by decide
theorem test_wf_inboundRdmaWrite_len : (Instr.inboundRdmaWrite okPkt 0 (List.replicate (2 ^ 32) 0) {}).wf = false := by
  unfold Instr.wf; dsimp only; unfold accessWf fits; rw [List.length_replicate]; decide
theorem test_wf_inboundRdmaRead : (Instr.inboundRdmaRead badPkt 0 0 {}).wf = false ∧ (Instr.inboundRdmaRead okPkt (2 ^ 48) 0 {}).wf = false ∧
    (Instr.inboundRdmaRead okPkt 0 (2 ^ 32) {}).wf = false := by decide
theorem test_wf_inboundWriteImm : (Instr.inboundWriteImm badPkt 0 [] 0 {}).wf = false ∧ (Instr.inboundWriteImm okPkt (2 ^ 48) [] 0 {}).wf = false := by decide
theorem test_wf_inboundSend : (Instr.inboundSend badPkt []).wf = false := by decide
theorem test_wf_cmdMem : (Instr.cmdMemWrite badPkt 0 []).wf = false ∧ (Instr.cmdMemWrite okPkt (2 ^ 48) []).wf = false ∧
    (Instr.cmdHalfArm badPkt 0 []).wf = false ∧ (Instr.cmdHalfArm okPkt (2 ^ 48) []).wf = false ∧
    (Instr.cmdMemRead badPkt 0 0).wf = false ∧ (Instr.cmdMemRead okPkt (2 ^ 48) 0).wf = false := by decide
theorem test_wf_retransmission : (Instr.nakReceive 0 .rnr (2 ^ 24) 0).wf = false ∧ (Instr.nakReceive 0 .rnr 0 (2 ^ 30)).wf = false ∧ (Instr.retransmitTimeout 0 (2 ^ 24)).wf = false := by decide
theorem test_wf_transitFrame : (Instr.transitFrame 0 ⟨0, 0, 256, 0, []⟩).wf = false ∧ (Instr.transitFrame 0 ⟨0, 0, 0, 8, []⟩).wf = false := by decide
theorem test_wf_hbmReadComplete : (Instr.hbmReadComplete 0 [badErr] 0).wf = false ∧ (Instr.hbmReadComplete 0 [] (2 ^ 32)).wf = false := by decide
theorem test_wf_prefetchFillReturn : (Instr.prefetchFillReturn 0 (2 ^ 38) [] 0).wf = false ∧ (Instr.prefetchFillReturn 0 0 [badErr] 0).wf = false ∧
    (Instr.prefetchFillReturn 0 0 [] (2 ^ 32)).wf = false := by decide
theorem test_wf_refreshRateCheck : (Instr.refreshRateCheck 0 256).wf = false := by decide
theorem test_wf_registers : (Instr.rcRegisterRead (2 ^ 48)).wf = false ∧ (Instr.registerWrite (2 ^ 48) 0).wf = false := by decide
theorem test_wf_smbus : (Instr.smbRegWrite 0 0 256 true).wf = false ∧ (Instr.smbRegPoint 0 256 true).wf = false := by decide
theorem test_wf_preempt : (Instr.preempt 0 [(1, 0), (1, 8)]).wf = false := by decide
theorem test_wf_suspendComplete : (Instr.suspendComplete 0 (some (0, 2 ^ 64)) {}).wf = false := by decide
theorem test_wf_manifestVerifyDone : (Instr.manifestVerifyDone (some (List.replicate (2 ^ 32) 0))).wf = false := by
  unfold Instr.wf; dsimp only; unfold fits; rw [List.length_replicate]; decide
theorem test_wf_diagDone : (Instr.diagDone false (List.replicate (2 ^ 32) 0)).wf = false := by
  unfold Instr.wf; dsimp only; unfold fits; rw [List.length_replicate]; decide
theorem test_wf_faultCollect : (Instr.faultCollect (some (.bufCorr 0 (2 ^ 64)))).wf = false ∧ (Instr.faultCollect (some (.bufUncorr 0 (2 ^ 64)))).wf = false ∧
    (Instr.faultCollect (some (.cmdmemCorr 0 (2 ^ 14)))).wf = false ∧ (Instr.faultCollect (some (.pfsParity 0 (2 ^ 38)))).wf = false ∧
    (Instr.faultCollect (some (.bridgeCorr 0 (2 ^ 16)))).wf = false := by decide
theorem test_wf_ferry : (Instr.ferryHello 0 []).wf = false ∧ (Instr.ferryArrive 0 []).wf = false ∧ (Instr.ferryRelease 0 []).wf = false ∧
    (Instr.ferryHealth 0 []).wf = false ∧ (Instr.ferrySilent 0 []).wf = false ∧ (Instr.ferryEvent 0 []).wf = false ∧
    (Instr.ferryTidePlan 0 (List.replicate 65 0)).wf = false := by decide
theorem test_wf_timetableMissCheck : (Instr.timetableMissCheck [(1, 0), (1, 1)]).wf = false := by decide
theorem test_wf_power : (Instr.pwrEnAssert (2 ^ 17)).wf = false ∧ (Instr.pwrEnDeassert (some (2 ^ 17))).wf = false ∧ (Instr.vinOv (2 ^ 17)).wf = false ∧
    (Instr.vinUv (2 ^ 16)).wf = false ∧ (Instr.vinBrownout (2 ^ 16)).wf = false ∧ (Instr.throttleTick (2 ^ 16)).wf = false ∧
    (Instr.vinRecovers (2 ^ 17)).wf = false := by decide
theorem test_wf_fastThrottleTrigger : (Instr.fastThrottleTrigger (2 ^ 17) 0 0).wf = false ∧ (Instr.fastThrottleTrigger 0 (2 ^ 17) 0).wf = false ∧
    (Instr.fastThrottleTrigger 0 0 (2 ^ 16)).wf = false := by decide
theorem test_wf_sensorReading : (Instr.sensorReading 0 2147483648).wf = false ∧ (Instr.sensorReading 0 (-2147483649)).wf = false := by decide
theorem test_wf_refclkFail : (Instr.refclkFail false 1000001).wf = false := by decide
theorem test_wf_wearCompute : (Instr.wearCompute (2 ^ 32) 0 0 0 0 0 0 []).wf = false ∧ (Instr.wearCompute 0 0 0 0 0 (2 ^ 16) 0 []).wf = false ∧
    (Instr.wearCompute 0 0 0 0 0 0 0 [1, 2, 3]).wf = false ∧ (Instr.wearCompute 0 0 0 0 0 0 0 [1, 2, 3, 4]).wf = true := by decide
theorem test_wf_powerUpBist : (Instr.powerUpBist [.lane 0, .lane 0]).wf = false := by decide

/-! ### Small states

Berth 0 holds decks 0-3 and 64 flags of quay 0, and runs task 7; window 0 gives it the first 4 GiB. -/

/-- A command without predicate and wait that raises flag 0. -/
def word (o : FOp) : BitVec 256 := encodeFairhel ⟨0, 0xFFF, 0, 0⟩ o

/-- The copy of a command whose wait has succeeded. -/
def copy (o : FOp) : QCmd := { word := word o, slot := 0, begun := true, waitDone := true, curs := some (0x1000, 0x2000, 0x3000) }

/-- A context of berth 0 that runs, in half 0, with a region of 16 slots. -/
def runCtx : Ctx := { mode := .running, named := true, berth := some 0, start := 0, len := 16, occ := some 0 }

/-- The module with context `c` of quay 0 as given. -/
def withCtx (c : Nat) (x : Ctx) : State :=
  { State.reset with
    berths := [(0, { cfg := { decks := 0x000F, qf := [(0, 64)], cfCount := 4, sndLog := 0x8000, nl := 4 }, st := .running, cur := some 7 })],
    windows := [(0, { en := true, base := 0, limit := 0xFFFF })],
    quays := [(0, { ctxs := [(c, x)] })] }

/-- A command held by context 0. -/
def held (o : FOp) : State := withCtx 0 { runCtx with held := some (copy o) }

/-- A command at the head of the queue of context `c`. -/
def atHead (c : Nat) (o : FOp) : State := withCtx c { runCtx with queue := [copy o] }

/-- What an answer leaves. -/
def after (a : Host.Outcome State Fault Refusal) : State :=
  match a with
  | .next t => t
  | _ => State.reset

/-! ### Control core -/

theorem test_step_front : step { State.reset with pending := [.fcClearAll, .mwTrkCommit] } = exec .fcClearAll { State.reset with pending := [.mwTrkCommit] } := rfl
theorem test_idle_ns : (after (step State.reset)).time.tide = 1 ∧ (after (step State.reset)).time.mono = 1 := by decide
theorem test_idle_slew : (idle { State.reset with time := { phase := 1999, slew := 5 } }).time.tide = 2 ∧
    (idle { State.reset with time := { phase := 1999, slew := -5 } }).time.tide = 0 := by decide
theorem test_reset_queue_empty : State.reset.pending = [] := rfl

theorem test_held_nop : HeldReady (held .nop) 0 0 0 (copy .nop) ∧ opOf (copy .nop).word = .nop := by unfold HeldReady; decide
theorem test_held_cinit : HeldReady (held (.cinit 3 9)) 0 0 0 (copy (.cinit 3 9)) ∧ opOf (copy (.cinit 3 9)).word = .cinit 3 9 := by unfold HeldReady; decide
theorem test_held_cadd : HeldReady (held (.cadd 3 9)) 0 0 0 (copy (.cadd 3 9)) ∧ opOf (copy (.cadd 3 9)).word = .cadd 3 9 := by unfold HeldReady; decide
theorem test_held_ccmp : HeldReady (held (.ccmp 0 1 2 0 0 0 5)) 0 0 0 (copy (.ccmp 0 1 2 0 0 0 5)) ∧
    opOf (copy (.ccmp 0 1 2 0 0 0 5)).word = .ccmp 0 1 2 0 0 0 5 := by unfold HeldReady; decide

/-- R259: CADD adds modulo 2^32, and R263: the SFLAG of a command executed in the context rises when it executes. -/
theorem test_cadd_wraps :
    let s := withCtx 0 { runCtx with held := some (copy (.cadd 0 2)), cnt := [(0, 0xFFFFFFFF)] }
    tget 0 (ctxOf (after (exec (.cadd 0 0) s)) 0 0).cnt 0 = 1 ∧ flagVal (after (exec (.cadd 0 0) s)) (.quay 0 0) = 1 := by decide

/-- Command memory of quay 0 with one command at a slot. -/
def slotAt (n : Nat) (w : BitVec 256) : Mem := ({} : Mem).writeBytes (32 * n) (natLe 32 w.toNat)

/-- Context 1 about to fetch the command at slot 15, the last of its region in half 0. -/
def fetching (o : FOp) : State := { withCtx 1 { runCtx with pc := 15 } with cmdMem := slotAt 15 (word o) }

theorem test_fetch_legal : let s := fetching (.swap false)
    CanFetch s 0 1 0 ∧ (ctxOf s 0 1).occ = some ((ctxOf s 0 1).pc / 8192) ∧ illegal s 0 1 0 (slotWord s 0 (ctxOf s 0 1).pc) = none ∧
    predTrue (ctxOf s 0 1) (headOf (slotWord s 0 (ctxOf s 0 1).pc)).pred = true ∧ inContext (opcodeOf (slotWord s 0 (ctxOf s 0 1).pc)) = false ∧
    pushStall (fetched s 0 1) 0 1 0 (slotWord s 0 (ctxOf s 0 1).pc) = none ∧ ctxTurn s 0 1 = true := by unfold CanFetch; decide
/-- R242: with two contexts ready, the turn is that of the first from where the control core has come to. -/
theorem test_fetch_turn : let s := fetching .nop
    let t (n : Nat) := setQuay s 0 { quayOf s 0 with ctxs := [(1, { runCtx with pc := 15 }), (2, runCtx)], nextCtx := n }
    ctxTurn (t 1) 0 1 = true ∧ ctxTurn (t 2) 0 1 = false ∧ CanFetch (t 2) 0 1 0 ∧ (ctxOf (t 2) 0 1).occ = some ((ctxOf (t 2) 0 1).pc / 8192) := by unfold CanFetch; decide
theorem test_fetch_illegal : let s := fetching (.load 0 0 false false false)
    CanFetch s 0 1 0 ∧ illegal s 0 1 0 (slotWord s 0 (ctxOf s 0 1).pc) = some 2 ∧ ctxTurn s 0 1 = true := by unfold CanFetch; decide
theorem test_fetch_skips : let s := { fetching .nop with cmdMem := slotAt 15 (encodeFairhel ⟨1, 0xFFF, 0, 0⟩ .nop) }
    CanFetch s 0 1 0 ∧ illegal s 0 1 0 (slotWord s 0 15) = none ∧ predTrue (ctxOf s 0 1) (headOf (slotWord s 0 15)).pred = false ∧ ctxTurn s 0 1 = true := by unfold CanFetch; decide
/-- R248: the slot after the last one of the region is the first one of the other half. -/
theorem test_fetch_pc : (ctxOf (after (exec (.cmdFetchIssue 0 1 .ok) (fetching (.swap false)))) 0 1).pc = 8192 := by decide
theorem test_fetch_wait : let s := withCtx 1 { runCtx with pc := 8192 }
    CanFetch s 0 1 0 ∧ (ctxOf s 0 1).occ ≠ some ((ctxOf s 0 1).pc / 8192) ∧ mayEnter s 0 1 0 ((ctxOf s 0 1).pc / 8192) = false := by unfold CanFetch; decide
theorem test_fetch_enter : let s := { withCtx 1 { runCtx with pc := 8192, stall := .fetchWait } with halves := [(1, { armed := true, gen := 1 })] }
    (ctxOf s 0 1).berth = some 0 ∧ taskRuns s 0 = true ∧ (ctxOf s 0 1).stall = .fetchWait ∧ mayEnter s 0 1 0 ((ctxOf s 0 1).pc / 8192) = true := by decide

theorem test_head_flagset : let m := { copy (.flagset 5 false 9) with word := encodeFairhel ⟨0, 0xFFF, 0, 0xFFF⟩ (.flagset 5 false 9) }
    let s := withCtx 0 { runCtx with queue := [m] }
    headOp s 0 0 0x08 = some (0, m) ∧ opOf m.word = .flagset 5 false 9 ∧ (headOf m.word).sflag = 0xFFF ∧ flagKey s 0 0 5 = some (.quay 0 5) ∧
    Unwaited s (.quay 0 5) := by unfold Unwaited; decide
/-- R263, R284: an addition beyond 65,535 leaves 65,535. -/
theorem test_flagset_saturates : let s := { atHead 0 (.flagset 5 false 9) with qflags := [(5, 0xFFFE)] }
    flagVal (after (exec (.flagset 0 0) s)) (.quay 0 5) = 65535 ∧ (after (exec (.flagset 0 0) s)).occ.length = 1 := by decide
theorem test_head_settle : headOp (atHead 0 .settle) 0 0 0x06 = some (0, copy .settle) ∧ queueBusy (atHead 0 .settle) 0 0 = false := by decide
theorem test_head_waitt : headOp (atHead 0 (.waitt 0)) 0 0 0x2B = some (0, copy (.waitt 0)) ∧ opOf (copy (.waitt 0)).word = .waitt 0 := by decide
theorem test_head_end : headOp (withCtx 0 { runCtx with mode := .endQueued, queue := [copy .endc] }) 0 0 0x3F = some (0, copy .endc) := by decide
/-- R286: at TIDE itself WAITT executes, a nanosecond before it does not. -/
theorem test_waitt_bound : (ctxOf (after (exec (.waitt 0 0) (atHead 0 (.waitt 1)))) 0 0).queue.length = 1 ∧
    (ctxOf (after (exec (.waitt 0 0) { atHead 0 (.waitt 1) with time := { tide := 1 } })) 0 0).queue = [] := by decide

/-- The module after the wait timeout of R270 has passed. -/
def late (s : State) : State := { s with time := { s.time with mono := 100000000 } }

theorem test_tmo_flag : let w : Wait := { q := 0, c := 0, atHead := true, flag := .quay 0 5, val := 1, wflag := 5, timer := { since := some 0 } }
    let s := late { atHead 0 .settle with waits := [w] }
    (ctxOf s 0 0).berth = some 0 ∧ taskMoves s 0 = true ∧ s.waits.find? (waitExpired s 0 0) = some w := by decide
theorem test_tmo_tile : let o := FOp.tilecfg 2 false 0 8 128 0x080000
    let m := { copy o with stall := some { since := some 0 } }
    let s := late { withCtx 0 { runCtx with queue := [m] } with decks := [(0, { tiles := [(2, { inuse := 1 })] })] }
    opOf m.word = o ∧ tmoHit s 0 0 { since := some 0 } = true ∧ cfgWaits s 0 0 m.word = true := by decide
theorem test_tmo_stream : let o : StreamOps := { desc := 1, store := false, cls := 0, mfmt := 0, mmx := false, morient := false, rnd := 0, ovf := false, base := 0, stride := 0, advance := 0, scaleOff := 0, zmap := 0 }
    let m := { copy (.stream o) with stall := some { since := some 0 }, seq := 1 }
    let s := late { withCtx 0 { runCtx with queue := [m] } with runs := [{ id := 0, q := 0, c := 0, berth := 0, task := 7, cmd := copy (.load 1 0 false false false) }] }
    opOf m.word = .stream o ∧ tmoHit s 0 0 { since := some 0 } = true ∧ descBusy s (ctxDeck 0 0) 1 m.seq = true ∧
    descBusy s (ctxDeck 0 0) 1 0 = false := by decide
theorem test_tmo_stalls : let s := late (withCtx 0 { runCtx with stall := .inuse 3, timer := { since := some 0 } })
    (ctxOf s 0 0).stall = .inuse 3 ∧ tmoHit s 0 0 (ctxOf s 0 0).timer = true := by decide

/-- A DRAIN whose rows have been held for the whole timeout, and a fetch wait of that length. -/
theorem test_tmo_others : let o : DrainOps := { slot := 0, quads := 0, fn := 0, dest := 2, hold := false, spillNow := false, oreg := 5, desc := 1, breg := 0, rreg := 0, zreg := 0, sreg := 0, mreg := 0, maskEn := false, flush := false, nacc := 0, l := 0, step := 0, rstream := 1 }
    let r : Run := { id := 5, q := 0, c := 2, berth := 0, task := 7, cmd := copy (.drain o), drainHeld := some { since := some 0 } }
    let s := late { withCtx 2 { runCtx with stall := .fetchWait, timer := { since := some 0 } } with runs := [r] }
    s.runs.find? (drainExpired s 0 2) = some r ∧ opOf r.cmd.word = .drain o ∧ (ctxOf s 0 2).stall = .fetchWait ∧ tmoHit s 0 2 (ctxOf s 0 2).timer = true := by decide
/-- Of the tracker's entries an allotment of none leaves none free (R337). -/
theorem test_no_room : stepRoom { State.reset with trkAlloc := [(0, 0)] } [0] = false ∧ stepRoom State.reset [0] = true ∧
    stepRoom { State.reset with trkAlloc := [(0, 0)] } [0, 1] = true := by decide

/-! ### Operand staging -/

/-- A stash tile of 128 rows and 128 FP32 columns at the start of the buffer. -/
def tile0 : TileReg := { role := .stash, fmt := 0, rows16 := 8, cols := 128 }

theorem test_tilecfg_applies : let o := FOp.tilecfg 2 false 0 8 128 0x200000
    headOp (atHead 0 o) 0 0 0x01 = some (0, copy o) ∧ opOf (copy o).word = o ∧ cfgWaits (atHead 0 o) 0 0 (word o) = false ∧
    gangScopeBad (atHead 0 o) 0 false = false ∧ cfgTile 0x200000 8 128 = some tile0 ∧
    (addressed (atHead 0 o) 0 false).find? (fun k => cfgFails (atHead 0 o) k 2 tile0) = none := by decide
theorem test_tilecfg_refused : cfgTile 0x300000 8 128 = none ∧ (cfgTile 0x214000 8 128).isSome ∧
    (∀ t ∈ cfgTile 0x214000 8 128, (addressed (atHead 0 .nop) 0 false).find? (fun k => cfgFails (atHead 0 .nop) k 2 t) = some 0) := by decide
/-- R139: the configured register reads back. -/
theorem test_tilecfg_reads : tileOf (after (exec (.tilecfg 0 0) (atHead 0 (.tilecfg 2 false 0 8 128 0x200000)))) 0 2 = tile0 := by decide

/-- A STREAM of 64 columns of FP32. -/
def streamOp : StreamOps := { desc := 1, store := false, cls := 0, mfmt := 0, mmx := false, morient := false, rnd := 0, ovf := false, base := 0x1000, stride := 256, advance := 512, scaleOff := 0, zmap := 0 }

theorem test_stream_head : headOp (atHead 0 (.stream streamOp)) 0 0 0x04 = some (0, copy (.stream streamOp)) ∧ opOf (copy (.stream streamOp)).word = .stream streamOp ∧
    descBusy (atHead 0 (.stream streamOp)) (ctxDeck 0 0) 1 (copy (.stream streamOp)).seq = false := by decide
theorem test_swap_head : headOp (atHead 1 (.swap false)) 0 1 0x05 = some (0, copy (.swap false)) ∧ bufferClear (atHead 1 (.swap false)) 0 1 = true ∧
    gangScopeBad (settleQueue (atHead 1 (.swap false)) 0 1) (ctxDeck 0 1) false = false := by decide
theorem test_swap_counts : (deckOf (after (exec (.swap 0 1) (atHead 1 (.swap false)))) 0).swapCnt = 1 ∧
    (deckOf (after (exec (.swap 0 1) (atHead 1 (.swap false)))) 0).fore1 = true := by decide
theorem test_maskset_head : let s := { atHead 1 (.maskset 4 false false 5) with decks := [(0, { tiles := [(4, { role := .mask, fmt := 8, rows16 := 1, cols := 4 })] })] }
    headOp s 0 1 0x16 = some (0, copy (.maskset 4 false false 5)) ∧ bufferClear s 0 1 = true ∧
    (addressed (settleQueue s 0 1) (ctxDeck 0 1) false).find? (fun k => maskBad (settleQueue s 0 1) 4 k) = none ∧
    (addressed (atHead 1 .nop) (ctxDeck 0 1) false).find? (fun k => maskBad (atHead 1 .nop) 4 k) = some 0 := by decide

/-- Deck 0 with a tile and an armed descriptor, a LOAD or STORE of it at the head. -/
def transfer (c : Nat) (o : FOp) (store : Bool) : State :=
  { atHead c o with decks := [(0, { tiles := [(2, tile0)], descs := [(1, { store := store, cur := 0x1000, stride := 512 })] })] }

theorem test_load_starts : let o := FOp.load 1 2 false false false
    let s := transfer 0 o false
    headOp s 0 0 0x02 = some (0, copy o) ∧ opOf (copy o).word = o ∧ transferRoom s 0 0 = true ∧ transferBad s (ctxDeck 0 0) 1 2 false false = none ∧
    firstOutside s 0 (loadRows s (ctxDeck 0 0) 1 2 false (0x1000, 0x2000, 0x3000) ++ loadZmap s (ctxDeck 0 0) 1 2 false (0x1000, 0x2000, 0x3000)) = none := by decide
theorem test_load_fresh : NamesFresh (transfer 0 (.load 1 2 false false false) false) := by unfold NamesFresh; decide
theorem test_load_outside : let s := { transfer 0 (.load 1 2 false false false) false with windows := [] }
    firstOutside s 0 (loadRows s (ctxDeck 0 0) 1 2 false (0x1000, 0x2000, 0x3000)) = some 0x1000 := by decide
theorem test_load_hold : holdBeyond (transfer 0 .nop false) 0 (loadRows (transfer 0 .nop false) 0 1 2 false (0x1000, 0, 0)) = true := by decide
theorem test_load_bad : transferBad (atHead 0 .nop) 0 1 2 false false = some 0 := by decide
theorem test_store_starts : let o := FOp.store 1 2 false false false
    let s := transfer 3 o true
    headOp s 0 3 0x03 = some (0, copy o) ∧ opOf (copy o).word = o ∧ transferRoom s 0 3 = true ∧ transferBad s (ctxDeck 0 3) 1 2 false true = none ∧
    firstOutside s 0 (storeRows s (ctxDeck 0 3) 1 2 false (0x1000, 0x2000, 0x3000)) = none := by decide

/-- A started command of berth 0 in context `c` of quay 0. -/
def running (c : Nat) (o : FOp) : Run := { id := 5, q := 0, c := c, berth := 0, task := 7, cmd := copy o, decks := [0] }

/-- The module with it. -/
def withRun (r : Run) : State := { withCtx r.c runCtx with runs := [r], nextId := 6 }

theorem test_load_completes : let r := running 0 (.load 1 2 false false false)
    oldestRun (withRun r) 0 0 = some r ∧ taskMoves (withRun r) r.berth = true ∧ runBusy (withRun r) r.id = false ∧ remoteLen r = 0 ∧ holdLinkOk (withRun r) r = true := by decide
theorem test_store_completes : let r := running 3 (.store 1 2 false false false)
    oldestRun (withRun r) 0 3 = some r ∧ writesDone (withRun r) r = true := by decide
theorem test_stash_wakes : let r := { running 3 (.store 1 2 false true false) with waitHold := some (4, 0), stash := [(0, [1])] }
    let s := { withRun r with berths := [(0, { cfg := { decks := 0xF, holdPages := 8, holdFrames := 2, stall := true }, st := .running, cur := some 7 })], rw := [(mwBase + 0x1008, 2)] }
    oldestStalled s 0 = some r ∧ taskMoves s 0 = true ∧ lowestFree (berthOf s 0).cfg.holdFrames (framesTaken (berthOf s 0).hold) = some 0 ∧
    (residentFrames (berthOf s 0).hold).length < holdHwm s 0 ∧ 0 ∉ framesTaken (berthOf s 0).hold ∧ pageState s 0 4 = .free ∧ stalledLong s 0 = none ∧
    stalledLong { s with time := { mono := holdTmoNs s 0 + 1 } } 0 = some r ∧ (∀ x ∈ s.runs, x.waitHold = some (4, 0)) ∧ s.time.mono ≤ 0 + holdTmoNs s 0 := by decide
/-- R370: while a recall brings the page back the write waits, and is not timed. -/
theorem test_stash_recalled : let r := { running 3 (.store 1 2 false true false) with waitHold := some (4, 0), stash := [(0, [1])] }
    let s := { withRun r with time := { mono := 2 ^ 40 }, berths := [(0, { cfg := { decks := 0xF, holdPages := 8, holdFrames := 2, stall := true }, st := .running, cur := some 7, hold := { recalling := [(4, 0)] } })] }
    oldestStalled s 0 = some r ∧ thas (berthOf s 0).hold.recalling 4 = true ∧ stalledLong s 0 = none ∧ taskMoves s 0 = true := by decide
/-- R49, R15: a 4-bit element keeps its neighbour; R77: 1.0 in bfloat16 converts back to its code. -/
theorem test_packed : readPacked (writePacked {} 64 9 3 7) 64 9 3 = 7 ∧ readPacked (writePacked {} 64 9 3 7) 64 9 2 = 0 ∧
    toElem 1 .rne false 0 (elemVal 1 false 0x3F80) = 0x3F80 := by decide

/-! ### The array and the drain units -/

/-- Deck 0 as a gang of its own, with an A tile of K = 32 and a B tile of as many: bfloat16. -/
def gangDeck : Deck :=
  { gang := 0, tiles := [(0, { role := .a, fmt := 1, rows16 := 8, cols := 32 }), (1, { role := .b, orient := true, fmt := 1, rows16 := 2, cols := 512 }),
      (2, tile0), (5, { role := .output, fmt := 0, rows16 := 8, cols := 512 })],
    descs := [(1, { store := true, cur := 0x1000, stride := 2048 })],
    tags := [(0, .fp32), (4, .fp32), (8, .fp32), (12, .fp32)] }

/-- The module with deck 0 in a gang of its own. -/
def withGang (s : State) : State := { s with decks := [(0, gangDeck)], gangs := [(0, { shapes := [⟨0, 0, [0]⟩] })] }

/-- A PASS of those tiles into slot 0. -/
def passOp : PassOps := { areg := 0, breg := 1, slot := 0, acc := 0, add := false, quad := 0, maskEn := false, mreg := 0, skipEn := false, chkB := false, sreg := 0, k := 32 }

theorem test_pass_passes : let s := withGang (atHead 1 (.pass passOp))
    headOp s 0 1 0x10 = some (0, copy (.pass passOp)) ∧ opOf (copy (.pass passOp)).word = .pass passOp ∧ arrayFree s 0 1 0 = true ∧
    passBad s (ctxDeck 0 1) passOp = none ∧ passBad s (ctxDeck 0 1) { passOp with acc := 1 } = some 0 := by decide
theorem test_pass_fresh : NamesFresh (withGang (atHead 1 (.pass passOp))) := by unfold NamesFresh; decide
/-- R295: without a gang a PASS fails. -/
theorem test_pass_no_gang : passBad (atHead 1 (.pass passOp)) 0 passOp = some 0 := by decide
theorem test_integer_range : ∀ j ∈ List.range 3,
    clamp32 (i32 5 + productSum (fun i => i) (fun _ => 3) (List.take j [(0, 2), (2, 2)])) =
      i32 5 + productSum (fun i => i) (fun _ => 3) (List.take j [(0, 2), (2, 2)]) := by decide
theorem test_integer_pass : groupStep 1 [(FV.ofInt 2, FV.ofInt 3), (FV.ofInt 3, FV.ofInt 3)] (groupStep 1 [(FV.ofInt 0, FV.ofInt 3), (FV.ofInt 1, FV.ofInt 3)] (5, 0, false)) =
    (23, 0, false) := by decide
/-- R62: beyond the range the sum clamps and says so. -/
theorem test_integer_clamps : groupStep 1 [(FV.ofInt 3, FV.ofInt 1)] (0x7FFFFFFE, 0, false) = (0x7FFFFFFF, 0, true) := by decide

/-- A PASS in progress with two skipped blocks that are not yet judged. -/
def passing : Run := { running 1 (.pass { passOp with skipEn := true, chkB := false, k := 64 }) with pass := { k := 64, pend := [0, 1] } }

theorem test_replay : let r := passing
    replayable (withRun r) 0 1 0 = some r ∧ taskMoves (withRun r) r.berth = true ∧
    opOf r.cmd.word = .pass { passOp with skipEn := true, chkB := false, k := 64 } ∧
    r.pass.pend.all (checkDone (withRun r) r) = true := by decide
/-- R114: without a record of the skip map in its members both blocks are misses. -/
theorem test_replay_misses : passing.pass.pend.filter (checkMiss (withRun passing) passing) = [0, 1] := by decide
theorem test_pass_completes : let r := { running 1 (.pass passOp) with pass := { k := 32, misses := 1 } }
    oldestPass (withRun r) 0 1 0 = some r ∧ runOf (withRun r) r.id = some r ∧ taskMoves (withRun r) r.berth = true ∧ r.pass.pend.isEmpty = true ∧
    r.pass.cut = false ∧ exec (.passComplete 0 1 0) (withRun { r with pass := { r.pass with cut := true } }) = .next (withRun { r with pass := { r.pass with cut := true } }) :=
  ⟨by decide, by decide, by decide, by decide, by decide, rfl⟩
/-- R119, R120: misses raise SKIP_MISS once, and the PASS leaves. -/
theorem test_skip_miss : let r := { running 1 (.pass passOp) with pass := { k := 32, misses := 1 } }
    let t := after (exec (.passComplete 0 1 0) (withRun r))
    t.occ.map (·.detail) = [1] ∧ t.runs = [] := by decide

theorem test_saveacc : let o := FOp.saveacc 1 false 0x10
    let s := withGang (atHead 1 o)
    headOp s 0 1 0x11 = some (0, copy o) ∧ opOf (copy o).word = o ∧ queueBusy s 0 1 = false ∧
    (gangScopeBad s (ctxDeck 0 1) false || deckFb s (ctxDeck 0 1) == 15) = false ∧
    (addressed s (ctxDeck 0 1) false).find? (fun k => splitsPair (slotSet 1) (tagOf (deckOf s k))) = none ∧
    firstOutside s 0 (saveRows s (ctxDeck 0 1) false 0x10 (slotSet 1)) = none := by decide
theorem test_saveacc_fresh : NamesFresh (withGang (atHead 1 (.saveacc 1 false 0x10))) := by unfold NamesFresh; decide
theorem test_saveacc_done : let r := running 1 (.saveacc 1 false 0x10)
    oldestRun (withRun r) 0 1 = some r ∧ opcodeOf r.cmd.word = 0x11 ∧ writesDone (withRun r) r = true := by decide
theorem test_saveacc_splits : splitsPair (slotSet 1) (fun _ l => if l = 0 then .comp else .none) = true := by decide

/-- RESTACC of no slot from a state page whose saved DK_GANG is this deck's. -/
def restoring : State := { withGang (atHead 1 (.restacc 0 false 0x10)) with hbm := {} }

theorem test_restacc : let o := FOp.restacc 0 false 0x10
    headOp restoring 0 1 0x12 = some (0, copy o) ∧ opOf (copy o).word = o ∧ queueBusy restoring 0 1 = false ∧
    (gangScopeBad restoring (ctxDeck 0 1) false || deckFb restoring (ctxDeck 0 1) == 15) = false ∧
    firstOutside restoring 0 (saveRows restoring (ctxDeck 0 1) false 0x10 (slotSet 0)) = none := by decide
theorem test_restacc_reads : (∀ e ∈ saveRows restoring (ctxDeck 0 1) false 0x10 (slotSet 0), Readable restoring 0 e.1 e.2) ∧
    arrayBusy restoring (ctxDeck 0 1) = false ∧ stepRoom restoring (addressed restoring (ctxDeck 0 1) false) = true ∧
    leAt (hbmRead restoring 0x110000 4096) 0x9C 4 = (deckOf restoring 0).gang.toNat ∧ splitsPair (slotSet 0) (pageTag (hbmRead restoring 0x110000 4096)) = false ∧
    arrayBusy { restoring with runs := [{ id := 5, q := 0, c := 1, berth := 0, task := 7, cmd := copy (.pass passOp), decks := [0] }] } (ctxDeck 0 1) = true := by
  unfold Readable; decide
/-- R125, R302: a page saved under another DK_GANG raises RESTORE_SHAPE and restores nothing. -/
theorem test_restore_shape : let s := { restoring with decks := [(0, { gangDeck with gang := 0x00100000 })], gangs := [(1, { shapes := [⟨0, 0, [0]⟩] })] }
    ((after (exec (.restacc 0 1 {}) s)).occ.map (fun e => e.source.toNat % 256)) = [0x0C] ∧
    (deckOf (after (exec (.restacc 0 1 {}) s)) 0).tags = gangDeck.tags := by decide
theorem test_restore_slot : (3 : Nat) < 4 ∧ tagOf gangDeck 0 0 = .fp32 ∧
    tagOf (restoreSlot (statePage gangDeck []) [] {} 0) 3 0 = .fp32 ∧ tagOf (restoreSlot (statePage gangDeck []) [] gangDeck 1) 0 1 = .none := by decide

/-- A DRAIN of slot 0 to tile register 5. -/
def drainOp : DrainOps := { slot := 0, quads := 0, fn := 0, dest := 0, hold := false, spillNow := false, oreg := 5, desc := 1, breg := 0, rreg := 0, zreg := 0, sreg := 0, mreg := 0, maskEn := false, flush := false, nacc := 0, l := 0, step := 0, rstream := 0 }

/-- The module with such a DRAIN at the head; berth 0 has one function entry. -/
def draining (o : DrainOps) : State :=
  let s := withGang (atHead 2 (.drain o))
  { s with berths := [(0, { cfg := { decks := 0x000F, qf := [(0, 64)], sndLog := 0x8000, nl := 4, fns := [0], holdPages := 1 }, st := .running, cur := some 7 })] }

theorem test_drain_tile : let s := draining drainOp
    headOp s 0 2 0x14 = some (0, copy (.drain drainOp)) ∧ opOf (copy (.drain drainOp)).word = .drain drainOp ∧ drainFree s (ctxDeck 0 2) = true ∧
    drainBad s 0 (ctxDeck 0 2) drainOp = none ∧ fnOf s 0 0 = some (fnEntry 0) := by decide
theorem test_drain_reads : DrainReads (draining drainOp) 0 0 drainOp (fnEntry 0) := by unfold DrainReads Readable; decide
/-- A DRAIN that takes its format and its scale factor from HBM, and what it reads there. -/
theorem test_drain_reads_hbm : let f := { fnEntry 0 with fmtSrc := true, scaleSrc := 2 }
    drainReads f = true ∧ DrainReads { draining drainOp with hbm := {} } 0 0 { drainOp with dest := 1 } f ∧ layerBad 0x18 = true := by
  unfold DrainReads Readable; decide
theorem test_drain_fresh : NamesFresh (draining drainOp) := by unfold NamesFresh; decide
theorem test_drain_empty : drainBad (draining { drainOp with slot := 1 }) 0 0 { drainOp with slot := 1 } = some 0 := by decide
theorem test_drain_memory : let o := { drainOp with dest := 1 }
    let s := draining o
    drainBad s 0 (ctxDeck 0 2) o = none ∧ (copy (.drain o)).curs = some (0x1000, 0x2000, 0x3000) ∧
    firstOutside s 0 (drainRowsAt s 0 (ctxDeck 0 2) o (fnEntry 0) (0x1000, 0x2000, 0x3000)) = none ∧
    firstOutside { s with windows := [] } 0 (drainRowsAt s 0 (ctxDeck 0 2) o (fnEntry 0) (0x1000, 0x2000, 0x3000)) = some 0x1000 := by decide
theorem test_drain_hold : let o := { drainOp with dest := 1, hold := true }
    let s := draining o
    holdBeyond s 0 (drainRowsAt s 0 (ctxDeck 0 2) o (fnEntry 0) (0x1000, 0, 0)) = false ∧
    holdBeyond s 0 (drainRowsAt s 0 (ctxDeck 0 2) o (fnEntry 0) (0x1FF000, 0, 0))= true := by decide
theorem test_tile_write : tile0.mx = false ∧ fmtOk tile0.fmt = true ∧ footHi tile0 ≤ 393216 ∧ 127 < tileRows tile0 ∧ 127 < tile0.cols := by decide
theorem test_drain_done : let o := { drainOp with flush := true, step := 3 }
    let r := running 2 (.drain o)
    oldestRun (withRun r) 0 2 = some r ∧ stepRoom (withRun r) r.decks = true ∧ taskMoves (withRun r) r.berth = true ∧ opOf r.cmd.word = .drain o ∧ (writesDone (withRun r) r && r.rows.isEmpty) = true := by decide

theorem test_fmtsel_refused : let o := FOp.fmtsel 4 0 0 1 0xFF false 0 0
    headOp (atHead 1 o) 0 1 0x15 = some (0, copy o) ∧ opOf (copy o).word = o ∧ queueBusy (atHead 1 o) 0 1 = false ∧ (berthOf (atHead 1 o) 0).cfg.nl ≤ 4 := by decide

/-- FMTSEL over one record that an operand sounding wrote: HBM has the log at 0x8000. -/
def choosing : State := { atHead 1 (.fmtsel 0 0 0 1 0xFF false 0 0) with hbm := {} }

theorem test_fmtsel : let o := FOp.fmtsel 0 0 0 1 0xFF false 0 0
    headOp choosing 0 1 0x15 = some (0, copy o) ∧ opOf (copy o).word = o ∧
    (∀ k ∈ List.range 16, bit 1 k = true → bit (berthOf choosing 0).cfg.decks.toNat k = true) ∧
    stepRoom choosing (ctxPool 0 1) = true ∧ Readable choosing 0 0x8000 128 ∧ queueBusy choosing 0 1 = false ∧ 0 < (berthOf choosing 0).cfg.nl ∧
    ctxPool 0 1 = [0] ∧ ctxPool 0 16 = [16] ∧ ctxPool 0 17 = [20] := by unfold Readable; decide

/-- The sounding record of the spec's worked example for FMTSEL. -/
def record : List Byte :=
  natLe 4 0x40400000 ++ natLe 4 64000 ++ natLe 4 64000 ++ List.replicate 12 0 ++ natLe 4 0x8000000C ++ natLe 4 0 ++
    [1000, 9000, 30000, 20000, 1500, 1000, 1500, 0, 0, 0, 0, 0, 0, 0, 0, 0].flatMap (natLe 4) ++ List.replicate 32 0

/-- The worked example of R205-R208: the entry becomes 0x113. -/
theorem test_fmt_choice : fmtChoose [record] 0xE8 2 3277 false = some 0x113 ∧ fmtChoose [] 0xE8 2 3277 false = none := by decide
/-- The worked example of R71: 1.3 in E2M1 under stochastic rounding is 1.5 from the draw 26,215 on, and 1.0 below it. -/
theorem test_stochastic : toElem 7 .sr false 26215 (f32 0x3FA66666) = 3 ∧ toElem 7 .sr false 26214 (f32 0x3FA66666) = 2 := by decide
/-- The worked example of R77: a block of amax 1,000 has scale byte 128; 1,000 saturates to 448 and 3.3 becomes 1.625. -/
theorem test_mx : mxScale 3 [f32 0x447A0000, f32 0x40533333] = 128 ∧ mxElem 3 .rne 0 128 (f32 0x447A0000) = 0x7E ∧
    mxElem 3 .rne 0 128 (f32 0x40533333) = 0x3D := by decide
/-- The worked example of R84: summed in order the four values give 0. -/
theorem test_add_order : add32 (add32 (add32 0x3F800000 0x33800000) 0x33800000) 0xBF800000 = 0 ∧
    add32 (add32 0x3F800000 0x33800000) (add32 0x33800000 0xBF800000) = 0x33800000 := by decide

/-! ### The gather engine -/

/-- A descriptor with the table at 0x10000, rows of 32 bytes, and the list in the stash tile or in HBM at 0x20000. -/
def gbytes (ctl : Nat) : List Byte :=
  natLe 8 0x10000 ++ natLe 8 0x18000 ++ natLe 8 0x20000 ++ natLe 4 32 ++ natLe 4 32 ++ natLe 4 100 ++ natLe 4 0 ++ natLe 4 ctl ++ List.replicate 20 0

/-- A GATHER, SCATTER or PREFETCH at the head, its descriptor at 0x1000 in an HBM of zeros, with the list in HBM. -/
def gathering (kind count : Nat) : State :=
  hbmWrite { atHead 16 (.gatherIndex kind 0 0 2 count 0x40) with hbm := {}, decks := [(0, { tiles := [(2, tile0)] })] } 0x1000 (gbytes 0x200001)

theorem test_gather_head : headOp (gathering 0 3) 0 16 0x20 = some (0, copy (.gatherIndex 0 0 0 2 3 0x40)) ∧
    headOp (gathering 1 3) 0 16 0x21 = some (0, copy (.gatherIndex 1 0 0 2 3 0x40)) ∧
    headOp (gathering 2 3) 0 16 0x22 = some (0, copy (.gatherIndex 2 0 0 2 3 0x40)) ∧
    opOf (copy (.gatherIndex 1 0 0 2 3 0x40)).word = .gatherIndex 1 0 0 2 3 0x40 ∧ (gatherRoom (gathering 0 3) 0 && stepRoom (gathering 0 3) [16]) = true ∧
    (tileOf (gathering 0 3) 0 2).role = .stash := by decide
theorem test_gather_fresh : NamesFresh (gathering 0 3) := by unfold NamesFresh; decide
theorem test_gather_desc : Readable (gathering 0 3) 0 (0x40 * 64) 64 ∧ hbmRead (gathering 0 3) (0x40 * 64) 64 = gbytes 0x200001 ∧ gdescBad (gbytes 0x200001) 0 3 16384 = false ∧
    gdescBad (gbytes 0x200001) 2 3 16384 = true ∧ gdescBad (gbytes 1) 2 3 16384 = false ∧ (gdesc (gbytes 0x200001)).inHbm = true := by unfold Readable; decide

/-- Two positions in progress. -/
def positions (ctl : Nat) : Run := { running 16 (.gatherIndex 0 0 0 2 2 0x40) with gather := { desc := gbytes ctl, count := 2 } }

/-- The module with them; their list in HBM reads `x` first. -/
def dispatch (x ctl : Nat) : State := hbmWrite { withRun (positions ctl) with hbm := {} } 0x20000 (natLe 4 x)

theorem test_dispatch : let s := dispatch 5 0x200001
    gatherMoves s 0 = true ∧ nextReady s 0 = some 0 ∧ thas (quayOf s 0).threads 0 = false ∧ dispatching s 0 = some (positions 0x200001) := by decide
theorem test_dispatch_words : let s := dispatch 5 0x200001
    let p := listWords (setQuay s 0 { quayOf s 0 with nextThread := 1 }) (positions 0x200001) (gdesc (gbytes 0x200001)) 0 1 .ok {}
    p.2 = some [5] ∧ (positionRows (gdesc (gbytes 0x200001)) 0 5 0).filterMap (fun e => rowFails p.1 0 e.1 e.2) = [] := by decide
/-- R358, R359: an index beyond the table and a null index. -/
theorem test_dispatch_beyond : let s := dispatch 100 0x200001
    (listWords (setQuay s 0 { quayOf s 0 with nextThread := 1 }) (positions 0x200001) (gdesc (gbytes 0x200001)) 0 1 .ok {}).2 = some [100] ∧
    (gdesc (gbytes 0x200001)).nrows ≤ 100 ∧ (after (exec (.gatherThreadAction 0 .ok {}) s)).occ.length = 1 := by decide
theorem test_dispatch_null : let s := dispatch 0xFFFFFFFF 0x200001
    (after (exec (.gatherThreadAction 0 .ok {}) s)).runs.map (·.gather.next) = [1] ∧ (after (exec (.gatherThreadAction 0 .ok {}) s)).occ = [] := by decide
theorem test_dispatch_zero : (gdesc (gbytes 0x300001)).nullz = true ∧
    (quayOf (after (exec (.gatherThreadAction 0 .ok {}) (dispatch 0xFFFFFFFF 0x300001))) 0).threads.length = 1 := by decide
theorem test_dispatch_outside : let s := dispatch 5 0x200001
    (positionRows (gdesc (gbytes 0x200001)) 0 5 0).filterMap (fun e => rowFails { s with windows := [] } 0 e.1 e.2) = [0x100A0, 0x18000] := by decide

/-- A thread that carries a position whose accesses have all come. -/
def carrying : State :=
  let s := withRun { positions 0x200001 with gather := { desc := gbytes 0x200001, count := 2, next := 2 } }
  setQuay s 0 { quayOf s 0 with threads := [(3, { run := 5, pos := 1, index := 5, weight := 0, phase := 2, row := 0x100A0, cont := 0x18000 })] }

theorem test_thread_ready : gatherMoves carrying 0 = true ∧ nextReady carrying 0 = some 3 ∧ thas (quayOf carrying 0).threads 3 = true := by decide
theorem test_gather_done : let r := { positions 0x200001 with gather := { desc := gbytes 0x200001, count := 2, next := 2 } }
    runOf (withRun r) 5 = some r ∧ gatherMoves (withRun r) 0 = true ∧ gatherDone (withRun r) r = true ∧ gatherDone carrying r = false := by decide

theorem test_recall : let o := FOp.gatherRecall 0 1 2
    headOp (atHead 16 o) 0 16 0x20 = some (0, copy o) ∧ opOf (copy o).word = o ∧ gatherRoom (atHead 16 o) 0 = true ∧
    (berthOf (atHead 16 o) 0).cfg.holdPages < 1 + 2 ∧ 1 + 2 ≤ (berthOf { atHead 16 o with berths := [(0, { cfg := { holdPages := 3 } })] } 0).cfg.holdPages := by decide

/-- A recall of page 1 into frame 0 with piece 31 on its way over connection 3; 31 pieces are in the frame. -/
def recalled : Run := { running 16 (.gatherRecall 0 1 1) with gather := { count := 32, next := 32, pages := [1], pieces := (List.range 31).map (fun i => (1, i)) } }

/-- The module with it, its thread as given. -/
def recalling (x : Thread) : State :=
  let s := withRun recalled
  { setQuay s 0 { quayOf s 0 with threads := [(9, x)] } with
    berths := [(0, { cfg := { decks := 0xF, holdPages := 3, holdFrames := 1, tgtConn := some 3, tgtPages := 3 }, st := .running, cur := some 7, hold := { pages := [(1, .spilled 1)], recalling := [(1, 0)] } })],
    conns := [(3, { valid := true })] }

/-- The thread of piece 31 in a phase. -/
def pieceIn (phase : Nat) : Thread := { run := 5, pos := 31, index := 0, weight := 0, phase := phase, page := some (1, 31) }

theorem test_recall_piece : let s := recalling (pieceIn 1)
    runOf s 5 = some recalled ∧ gatherMoves s 0 = true ∧ (pieceIn 1).spoiled = false ∧
    (quayOf s 0).threads.find? (fun e => e.2.run == 5 && e.2.page == some (1, 31)) = some (9, pieceIn 1) ∧
    (berthOf s recalled.berth).cfg.tgtConn = some 3 ∧ connUsable s 3 = true ∧ thas (berthOf s recalled.berth).hold.recalling 1 = true := by decide
theorem test_recall_written : let s := recalling (pieceIn 2)
    nextReady s 0 = some 9 ∧ thas (quayOf s 0).threads 9 = true ∧ (pieceIn 2).todo = [] ∧ (recalled.gather.pieces.filter (fun e => e.1 == 1)).length = 31 := by decide
/-- R369: the page that has its last piece is resident in its frame. -/
theorem test_recall_resident : let t := after (exec (.gatherThreadAction 0 .ok {}) (recalling (pieceIn 2)))
    pageState t 0 1 = .resident 0 ∧ (berthOf t 0).hold.recalling = [] := by decide
theorem test_recall_data : (List.replicate 65536 (0 : Byte)).length = 65536 := List.length_replicate

/-! ### The collective engine -/

/-- A group of three modules, this one of rank 1, on connections 4 and 5, and one of this module alone. -/
def groups : List Group := [⟨3, 1, 4, 5, false, false, 0xFF⟩, ⟨1, 0, 4, 5, false, false, 0xFF⟩]

/-- Berth 0 with these groups. -/
def grouped (s : State) : State :=
  { s with berths := [(0, { cfg := { decks := 0xF, qf := [(0, 64)], scalar := 0x8000, groups := groups }, st := .running, cur := some 7 })],
           conns := [(4, { valid := true }), (5, { valid := true })] }

/-- A REDUCE of six FP32 elements. -/
def reduceOp : ReduceOps := { rstream := 1, kind := 1, int32 := false, thin := false, fromHbm := true, group := 0, addr := 0x1000, saddr := 0x2000, eaddr := 0, len := 6 }

theorem test_reduce : let s := grouped (atHead 17 (.reduce reduceOp))
    headOp s 0 17 0x28 = some (0, copy (.reduce reduceOp)) ∧ opOf (copy (.reduce reduceOp)).word = .reduce reduceOp ∧
    (berthOf s 0).cfg.groups[reduceOp.group]? = some ⟨3, 1, 4, 5, false, false, 0xFF⟩ ∧ (collRoom s 0 && !streamBusy s 0 1) = true ∧
    reduceOp.len % 3 = 0 ∧ firstOutside s 0 (reduceExtents reduceOp 3) = none ∧ (firstOutside { s with windows := [] } 0 (reduceExtents reduceOp 3)).isSome := by decide
theorem test_reduce_fresh : NamesFresh (grouped (atHead 17 (.reduce reduceOp))) := by unfold NamesFresh; decide

/-- A REDUCE in progress over group `g`. -/
def reducing (g : Nat) : Run := { running 17 (.reduce { reduceOp with kind := 0, group := g }) with coll := { group := g, len := 6, src := 1, seg := 6, ownDone := true, own := [] } }

theorem test_reduce_runs : runOf (grouped (withRun (reducing 0))) 5 = some (reducing 0) ∧ groupComplete (grouped (withRun (reducing 0))) (reducing 0) = false ∧
    groupComplete (grouped (withRun (reducing 1))) (reducing 1) = true ∧ (runGroup (grouped (withRun (reducing 1))) (reducing 1)).chain = 0xFF ∧
    taskMoves (grouped (withRun (reducing 0))) (reducing 0).berth = true ∧ isColl (reducing 0) = true ∧
    (runRecvs (grouped (withRun (reducing 0))) (reducing 0)).all (segComplete (grouped (withRun (reducing 0))) (reducing 0)) = false := by decide
/-- R454: at the timeout itself COLL_TMO is raised, a nanosecond before it is not. -/
theorem test_coll_tmo : let s := grouped (withRun (reducing 0))
    (after (exec (.collTmo 0 5) { s with time := { mono := waitTmoNs s 0 17 } })).occ.length = 1 ∧
    (after (exec (.collTmo 0 5) { s with time := { mono := waitTmoNs s 0 17 - 1 } })).occ = [] := by decide

theorem test_norm : let o := FOp.norm 0 1 2 3 0x3F800000
    let s := grouped (atHead 17 o)
    headOp s 0 17 0x29 = some (0, copy o) ∧ opOf (copy o).word = o ∧ collRoom s 0 = true ∧
    (berthOf s 0).cfg.groups[1]? = some ⟨1, 0, 4, 5, false, false, 0xFF⟩ ∧
    firstOutside s 0 [((berthOf s 0).cfg.scalar + 4 * 2, 4), ((berthOf s 0).cfg.scalar + 4 * 3, 4)] = none := by decide

/-- An XFER of 8 bytes over connection 4. -/
def xferOp : XferOps := { conn := 4, imm := false, sched := false, laddr := 0x1000, raddr := 0x2000, len := 8, immval := 0 }

theorem test_xfer : let s := grouped (atHead 17 (.xfer xferOp))
    headOp s 0 17 0x2A = some (0, copy (.xfer xferOp)) ∧ opOf (copy (.xfer xferOp)).word = .xfer xferOp ∧ collRoom s 0 = true ∧
    firstOutside s 0 [(xferOp.laddr, xferOp.len)] = none ∧ connUsable s xferOp.conn = true ∧ connUsable s 6 = false := by decide
theorem test_xfer_done : let r := { running 17 (.xfer xferOp) with coll := { next := 1 } }
    runOf (grouped (withRun r)) 5 = some r ∧ opcodeOf r.cmd.word = 0x2A ∧ xferPieces r ≤ r.coll.next ∧
    connUsable (grouped (withRun r)) (runXfer r).conn = true ∧ (running 17 (.xfer xferOp)).coll.next < xferPieces (running 17 (.xfer xferOp)) := by decide
theorem test_plan : (2 : Nat) ≤ 3 ∧ 2 < 3 ∧ sendPlan 3 2 0 6 2 = recvPlan 3 0 0 6 2 ∧ sendPlan 3 2 0 6 2 ≠ [] := by decide

/-! ### Segments, time and the timetable -/

/-- Port 0 up with its link, and connection 5 bound to it. -/
def linked (s : State) : State :=
  { s with ports := [(0, { state := .up, links := [(0, { step := 4 })] })], conns := [(4, { valid := true }), (5, { valid := true, rqpn := 9, rkey := 3, lkey := 3 })] }

/-- A packet of connection 5. -/
def packet : Packet := { port := 0, sub := 0, dqpn := 0x105, sip := 0, sqpn := 9, icrcOk := true, ce := false, inSailing := false, unsupported := false, rkey := 3, pcp := 0, psn := 0 }

/-- The connection and message of what left the module. -/
def roceOf : Out → Option (Nat × Roce)
  | .roce n _ m => some (n, m)
  | _ => none

/-- The segment of a reduce phase, step 0, chunk `c`, of two FP32 elements, operation `seq` on stream 1. -/
def segment (c seq : Nat) : List Byte :=
  [1, 0, 0, 0, 1, 0, 0, 0] ++ natLe 4 seq ++ natLe 2 0 ++ natLe 2 1 ++ natLe 2 c ++ natLe 2 0 ++ natLe 4 0 ++ List.replicate 8 0 ++ natLe 4 0x3F800000 ++ natLe 4 0x40000000

theorem test_segment_held : let s := linked (grouped State.reset)
    let u := (accept (linked (grouped (withRun (reducing 0)))) packet .data).1
    (accept (linked (grouped (withRun (reducing 0)))) packet .data).2 = some 5 ∧ (accept { s with conns := [] } packet .data).2 = none ∧
    groupNames u 5 = true ∧ packet.rkey = (connOf u 5).lkey ∧ 32 ≤ (segment 0 0).length ∧ leAt ((segment 0 0).take 32) 0 1 = 1 ∧
    leAt ((segment 0 0).take 32) 6 2 = (berthOf u (connOf u 5).berth).epoch.toNat ∧
    streamRun u 0 1 (leAt ((segment 0 7).take 32) 8 4) = none ∧ laneStore (portOf u 0) + (segment 0 0).length ≤ 4194304 := by decide
theorem test_segment_matches : let u := linked (grouped (withRun (reducing 0)))
    streamRun u 0 1 (leAt ((segment 0 0).take 32) 8 4) = some (reducing 0) ∧
    segMatches u (reducing 0) { conn := 5, header := (segment 0 0).take 32, data := (segment 0 0).drop 32 } = true := by decide
/-- R445: a segment of a past operation is acknowledged and dropped. -/
theorem test_segment_past : let s := linked (grouped State.reset)
    let u := { s with berths := [(0, { berthOf s 0 with seqs := [(1, 8)] })] }
    leAt ((segment 0 7).take 32) 8 4 < (tget (0 : Word) (berthOf u 0).seqs 1).toNat ∧
    (after (exec (.segmentReceive packet (segment 0 7)) u)).out.map roceOf = [some (5, .ack)] ∧
    (portOf (after (exec (.segmentReceive packet (segment 0 7)) u)) 0).segs = [] := by decide

/-- A lane of port 0 at work on a segment of the running REDUCE. -/
def laneAt : State :=
  let s := linked (grouped (withRun { reducing 0 with coll := { group := 0, len := 6, src := 2, seg := 6, own := List.replicate 24 0 } }))
  { s with ports := [(0, { state := .up, adding := [{ conn := 5, header := (segment 0 0).take 32, data := (segment 0 0).drop 32 }] })] }

theorem test_lane_ready : (portOf laneAt 0).adding.length = 1 ∧ (portOf (linked State.reset) 0).adding = [] ∧
    (match streamRun laneAt 0 1 0, (portOf laneAt 0).adding with
     | some r, x :: _ => addReady laneAt r x
     | _, _ => false) = true := by decide
theorem test_part_bounds : ({ phase := 0, chunk := 0, off := 0, elems := 2, total := 0, own := false, pieces := [] } : CollPart).pieces = [] ∧ 1 < ({ phase := 0, chunk := 0, off := 0, step := 0, elems := 2 } : CollSeg).elems := by decide

/-- The module with a slave port, locking. -/
def slaved (st : TtState) : State := { linked State.reset with time := { st := st, stepped := true, slave := some (0, 0), tide := 200000, bases := [(0, ⟨1, 1, 1, 1, 1, 1, 0, 0⟩)] } }

theorem test_ptp_runs : ptpRuns (slaved .locking) 0 0 = true ∧ ptpRuns (slaved .locking) 1 0 = false ∧ ptpDomain (slaved .locking) = 0 ∧
    (slaved .locking).time.slave = some (0, 0) ∧ (linked State.reset).time.slave = none ∧ ptpRuns (linked State.reset) 0 0 = true := by decide
/-- R421: an offset of 100 us is slewed, one nanosecond more steps tide time. -/
theorem test_ptp_step : (after (exec (.ptpMessageReceive 0 0 (.sync 0 100000)) (slaved .locked))).time.tide = 200000 ∧
    (after (exec (.ptpMessageReceive 0 0 (.sync 0 100001)) (slaved .locked))).time.tide = 99999 := by decide
theorem test_ptp_send : (after (exec (.ptpMessageSend 0 0 .delayReq) (slaved .locked))).out = [.ptp 0 0 .delayReq [0]] ∧
    (after (exec (.ptpMessageSend 0 0 .sync) (slaved .locked))).out = [] := by decide
/-- R421: the first lock after a reset is made by a step, whatever the offset. -/
theorem test_ptp_first : let t := after (exec (.ptpMessageReceive 0 0 (.sync 0 1)) { slaved .locking with time := { (slaved .locking).time with stepped := false } })
    t.time.tide = 199999 ∧ t.occ.map (·.source) = [sourceId 3 1 0x50] := by decide
/-- R418: a second Announce leaves no sooner than a second after the first. -/
theorem test_ptp_interval : let s (t : Nat) := { slaved .locked with ports := [(1, { state := .up, links := [(0, { step := 4, ptpAt := [(0, 5)] })] })], time := { (slaved .locked).time with mono := t } }
    ptpRuns (s 0) 1 0 = true ∧ ptpDue (s 1000000004) 1 0 .announce = false ∧ ptpDue (s 1000000005) 1 0 .announce = true ∧ ptpDue (s 0) 1 0 .sync = true ∧
    ((s 0).time.slave = some (0, 0)) := by decide
theorem test_ptp_delayReq : (after (exec (.ptpMessageReceive 1 0 (.delayReq 0)) { slaved .locked with ports := [(1, { state := .up, links := [(0, { step := 4 })] })] })).out = [.delayResp 1 0 [0, 200000]] := by decide

theorem test_announce_lost : let s := { slaved .locked with time := { (slaved .locked).time with mono := 3000000000 } }
    s.time.bases.find? (fun e => e.1 == 4 * 0 + 0) = some (0, ⟨1, 1, 1, 1, 1, 1, 0, 0⟩) ∧
    bestMaster { s with time := { s.time with bases := tdel s.time.bases 0 } } = none ∧
    (after (exec .announceReceiptTimeout s)).time.st = .holdover := by decide
theorem test_lock_qualify : let s := { State.reset with time := { st := .locking, okSince := some 0, mono := 1000000000 } }
    (after (exec .lockQualify s)).time.st = .locked ∧ (after (exec .lockQualify { s with time := { s.time with mono := 999999999 } })).time.st = .locking := by decide
theorem test_holdover : let s := { State.reset with time := { st := .holdover, holdSince := some 0, mono := 2000000000 } }
    s.time.slave = none ∧ (after (exec .holdoverTimeout s)).time.syncLost = true ∧
    (after (exec .holdoverTimeout { s with time := { s.time with mono := 1999999999 } })).time.syncLost = false := by decide
theorem test_grandmaster : let s := { State.reset with rw := [(ttBase + 0x10, 0x80000000)], boot := { phase := 6 }, time := { mono := 3000000000 } }
    bestMaster s = none ∧ gmEn s = true ∧ 6 ≤ s.boot.phase ∧ s.time.st ≠ .grandmaster := by decide
theorem test_pps : let s (m : Word) := { State.reset with rw := [(ttBase + 0x14, m)], time := { tide := 1001000001, ppsMono := some 5 } }
    regBits (s 0x20000000) (ttBase + 0x14) 30 29 = 1 ∧ regBits (s 0x40000000) (ttBase + 0x14) 30 29 = 2 ∧
    (after (exec (.ppsInEdge 100) (s 0x20000000))).time.ppsLast = 1001000001 ∧ (after (exec (.ppsInEdge 99) (s 0x20000000))).time.ppsRejects = 1 ∧
    (after (exec (.ppsInEdge 100) (s 0x40000000))).time.ppsRejects = 1 := by decide

/-- A timetable load in progress or waiting, with a cycle of one sailing, an epoch of 5000 and a management berth. -/
def loading (st : TblState) (tide : Nat) : State :=
  let s := withCtx 0 {}
  { s with hbm := {}, man := { mgmtBerth := some 0 }, rw := [(ttBase + 0x38, 5000)], time := { tblState := st, tide := tide, cycleLen := 1 } }

theorem test_tt_load : tblEpoch (loading .loading 0) = 5000 ∧ ttRefused (loading .loading 0) = none ∧
    ttRefused { loading .loading 0 with man := {} } = some (0, 0) ∧ tblEpoch (loading .loading 5000) ≤ (loading .loading 5000).time.tide ∧
    (loading .idle 0).time.tblState ≠ .loading := by decide
/-- A byte of the image that is poisoned. -/
theorem test_tt_poisoned : let s := { loading .loading 0 with poison := [blockOf (hbmKey (loading .loading 0) (tblBase (loading .loading 0) + 64))] }
    s.man.mgmtBerth = some 0 ∧ outside s 0 (tblBase s) 0x400000 = none ∧ s.time.tide < tblEpoch s ∧ poisonIn s (tblBase s) 0x400000 ≠ [] ∧
    (loading .loading 0).poison = [] := by
  refine ⟨by decide, by decide, by decide, ?_, rfl⟩
  have m : tblBase (loading .loading 0) + 64 ∈ poisonIn { loading .loading 0 with poison := [blockOf (hbmKey (loading .loading 0) (tblBase (loading .loading 0) + 64))] }
      (tblBase (loading .loading 0)) 0x400000 := by
    unfold poisonIn blockAddrs
    exact List.mem_filter.mpr ⟨List.mem_map.mpr ⟨2, List.mem_range.mpr (by decide), by decide⟩, by decide⟩
  exact List.ne_nil_of_mem m
/-- R434: a loaded timetable becomes active at its cycle start, and not a nanosecond before. -/
theorem test_tt_activate : cycleStart (loading .waiting 0) = 5000 ∧ (after (exec .ttTblActivate (loading .waiting 5000))).time.tblOn = true ∧
    (after (exec .ttTblActivate (loading .waiting 4999))).time.tblOn = false := by decide

/-- Port 0 in scheduled mode, the first sailing of its cycle of two local to connection 4 or, with `e`, whatever that entry says. -/
def sailing (e : DWord) (t : State) : State :=
  { linked t with time := { st := .locked, tblOn := true, cycleLen := 2, active := [(0, e)] } }

/-- An XFER whose piece goes in sailing `k`. -/
def ferrying (k : Nat) : Run := { running 17 (.xfer { xferOp with sched := true }) with got := (List.range 8).map (fun i => (0x1000 + i, 0)), coll := { sails := [k] } }

theorem test_sailing : let s := sailing 0x4000000020000000 (grouped (withRun (ferrying (2 ^ 65))))
    scheduled s = true ∧ (portOf s 0).state = .up ∧ splitOf s 0 = 0 ∧ sailAt s s.time.tide = 2 ^ 65 ∧
    sailEntry s (lportOf s 0) (2 ^ 65) = 0x4000000020000000 ∧ bits 0x4000000020000000 63 62 = 1 ∧ bits 0x4000000020000000 39 27 = 4 ∧
    boundRun s 4 = some (ferrying (2 ^ 65)) ∧ runSailing (ferrying (2 ^ 65)) = some (2 ^ 65) ∧
    inTime s (2 ^ 65) (itemPackets s (ferrying (2 ^ 65))) = true ∧ inTime { s with time := { s.time with tide := 900 } } (2 ^ 65) 1 = false := by decide
theorem test_sailing_ready : let s := sailing 0x4000000020000000 (grouped (withRun (ferrying (2 ^ 65))))
    itemReady s (ferrying (2 ^ 65)) = true ∧ itemReady s { ferrying (2 ^ 65) with todo := readReqs 3 [20] 0x1000 8 } = false := by decide
theorem test_sailing_gap : scheduled (linked State.reset) = false ∧ boundRun (sailing 0x4000000020000000 State.reset) 4 = none ∧
    bits 0x8800000000000000 63 62 = 2 ∧ (portOf (sailing 0x8800000000000000 State.reset) 0).sailed ≠ some (2 ^ 65) := by decide
theorem test_sailing_late : let s (t : Nat) := { State.reset with ports := [(0, { lateSince := 3, lateAt := some 0 })], time := { mono := t } }
    (after (exec (.sailingLate 0) (s 1000000))).occ.map (·.detail) = [3] ∧ (after (exec (.sailingLate 0) (s 999999))).occ = [] := by decide

/-! ### Ports, inbound accesses, transactions and registers -/

/-- A module that may bring port 0 up: coordinates valid, port 0 enabled in the plan of a peer of the mesh. -/
def opened : State :=
  { State.reset with boot := { phase := 6, romDone := true }, rw := [(mgBase + 0x20, 0x80000000), (mgBase + 0x100, 0x80000000), (mgBase + 0x104, 0x80000000)] }

/-- It with the link of port 0 at a step after so many failures. -/
def linkAt (step fails : Nat) : State := { opened with ports := [(0, { links := [(0, { step := step, fails := fails })] })] }

theorem test_bringup : mayBringUp (linkAt 3 0) 0 0 = true ∧ subPorts (linkAt 3 0) 0 = 1 ∧ nextStep (linkAt 3 0) 0 3 = 4 ∧ nextStep (linkAt 1 0) 0 1 ≠ 4 ∧
    anyUp (linkAt 3 0) 0 = false ∧ mayBringUp State.reset 0 0 = false ∧ linkUp (linkAt 4 0) 0 0 = true := by decide
/-- R386: the eighth failure in a row raises LINK_TRAIN_FAIL, the seventh does not. -/
theorem test_bringup_fails : (after (exec (.portBringupStep 0 0 .failed) (linkAt 2 7))).occ.length = 1 ∧
    (after (exec (.portBringupStep 0 0 .failed) (linkAt 2 6))).occ = [] := by decide
/-- R385: a step that takes the limit of 500 ms is done at it and fails after it; after a failure of it a second passes first. -/
theorem test_bringup_time : let s (t : Nat) := { opened with ports := [(0, { links := [(0, { step := 1, since := some 0 })] })], time := { mono := t } }
    (linkOf (after (exec (.portBringupStep 0 0 .done) (s 500000000))) 0 0).step = 2 ∧ (linkOf (after (exec (.portBringupStep 0 0 .done) (s 500000001))) 0 0).step = 1 ∧
    (linkOf (after (exec (.portBringupStep 0 0 .failed) (s 499999999))) 0 0).fails = 0 ∧ (linkOf (after (exec (.portBringupStep 0 0 .failed) (s 500000000))) 0 0).since = some 1500000000 := by decide
theorem test_fec_limit : let s := { linkAt 4 0 with rw := [(ptBase 0 + 0x28, 5)] }
    regBits s (ptBase 0 + 0x28) 15 0 = 5 ∧ (after (exec (.fecLimitWindow 0 0 1 5) s)).occ = [] ∧
    (after (exec (.fecLimitWindow 0 0 1 6) s)).occ.map (·.detail) = [2] := by decide
theorem test_serdes : fittedPort State.reset 0 = true ∧ portFenced State.reset 0 = false ∧ fittedPort { State.reset with fitted := { part := .m16e1 } } 4 = false ∧ fittedPort { State.reset with fitted := { part := .m16e1 } } 3 = true ∧
    (portOf (after (exec (.serdesFail 0 0x0F) State.reset)) 0).state = .fenced := by decide

/-- A card of version 1 from device 5. -/
def card : List Byte := [1, 2, 5, 0, 3, 4, 0, 1, 0, 1, 0, 0, 7, 0, 0, 0]

theorem test_card : cardDue (linkAt 4 0) 0 0 = true ∧ linkUp (linkAt 0 0) 0 0 = false ∧ card.length = 16 ∧ leAt card 0 1 = 1 ∧
    ((linkOf (after (exec (.landingCardReceive 0 0 0x4AC2E5 1 card 120 7) (linkAt 4 0))) 0 0).card.map (fun c => (c.port, c.mac))) = some (3, 7) ∧
    (linkOf (after (exec (.landingCardReceive 0 0 0x4AC2E4 1 card 120 7) (linkAt 4 0))) 0 0).card = none := by decide
theorem test_card_ttl : let s (t : Nat) := { linkAt 4 0 with ports := [(0, { links := [(0, { step := 4, card := some {} })] })], time := { mono := t } }
    planKind (s 0) 0 ≠ 1 ∧ (linkOf (after (exec (.landingCardTtlExpire 0 0) (s 120000000000))) 0 0).card = none ∧
    (linkOf (after (exec (.landingCardTtlExpire 0 0) (s 119999999999))) 0 0).card = some {} := by decide

theorem test_port_mode : bits (0x90000000 : Word).toNat 30 28 ≤ 2 ∧ bits (0x90000000 : Word).toNat 27 26 ≤ 2 ∧ portMode opened 0 = 0x80000000 ∧
    anyUp opened 0 = false ∧ bits (0x80000000 : Word).toNat 31 30 = 2 := by decide

/-- A transit frame of this module's system for another device. -/
def frame : TransitFrame := { sys := 0, device := 1, hop := 9, pcp := 0, bytes := [1, 2, 3] }

/-- Ports 0 and 1 up, roles +x and -x. -/
def passage : State :=
  { opened with man := { loaded := true, roles := [1, 2, 0, 0, 0, 0, 0, 0] },
                ports := [(0, { state := .up, links := [(0, { step := 4 })] }), (1, { state := .up, links := [(0, { step := 4 })] })] }

theorem test_transit : anyUp passage 0 = true ∧ frame.device.toNat ≠ ownDevice passage ∧ (portOf passage 0).state = .up ∧
    transitPort passage 0 frame = some 1 ∧ scheduled passage = false ∧ (portOf passage 1).transit = [] ∧
    transitPort passage 0 { frame with hop := 1 } = none ∧ paused passage 1 0 = false := by decide
/-- R394: a frame of a paused priority waits in its port, and leaves at XON. -/
theorem test_transit_paused : let s := { passage with rw := (ptBase 1 + 0x20, 1) :: passage.rw, ports := [(0, { state := .up, links := [(0, { step := 4 })] }), (1, { state := .up, links := [(0, { step := 4 })], pfc := [(0, { pausedAt := some 0 })] })] }
    let t := after (exec (.transitFrame 0 frame) s)
    paused s 1 0 = true ∧ transitPort s 0 frame = some 1 ∧ t.out = [] ∧ (after (exec (.pfcFrameReceive 1 0 false) t)).out = [.transit 1 { frame with hop := 8 }] := by decide
theorem test_neighbor : linkUp passage 0 0 = true ∧ (0 : Nat) < subPorts passage 1 ∧ ownAddress passage 1 0 = 0x02000000000000000000000000000010 - 0x02000000000000000000000000000000 + 0x0200000000000000 := by decide
/-- R378: an IPv4 frame is dropped and counted. -/
theorem test_netframes : (portOf (after (exec (.neighborSolicitation 0 0 .ipv4) passage)) 0).rxDrop = 1 ∧ (after (exec (.neighborSolicitation 0 0 .ipv4) passage)).out = [] := by decide
theorem test_pause : let s := { passage with rw := [(ptBase 0 + 0x20, 0x00010008)] }
    bit (regGet s (ptBase 0 + 0x20)).toNat 3 = true ∧ bit (regGet s (ptBase 0 + 0x20)).toNat 2 = false ∧
    (pfcOf (after (exec (.pfcFrameReceive 0 3 true) s)) 0 3).pausedAt = some 0 ∧ (pfcOf (after (exec (.pfcFrameReceive 0 3 true) s)) 0 2).pausedAt = none := by decide
theorem test_watchdog : let s (t : Nat) := { passage with rw := [(ptBase 0 + 0x20, 0x00010008)], ports := [(0, { pfc := [(3, { pausedAt := some 0 })] })], time := { mono := t } }
    (after (exec (.pfcWatchdogExpire 0 3) (s 1000000))).occ.map (·.detail) = [3] ∧ (after (exec (.pfcWatchdogExpire 0 3) (s 999999))).occ = [] := by decide

/-- Connection 5, of the management function, with an outstanding request sent at the start. -/
def waiting (tries : Nat) : State := { linked State.reset with conns := [(5, { valid := true, mgmt := true, retry := 7, tries := tries, reqs := [{ kind := .diag, packets := 1 }] })] }

theorem test_nak : connUsable (waiting 6) 5 = true ∧ carries (waiting 6) 5 = true ∧ (connOf (waiting 6) 5).reqs ≠ [] ∧ (connOf (waiting 6) 5).tries < (connOf (waiting 6) 5).retry ∧
    (connOf (waiting 7) 5).retry ≤ (connOf (waiting 7) 5).tries ∧ connUsable State.reset 5 = false := by decide
/-- R403: T is 4.096 us times 2^TMO, 65,536 ns for TMO 4. -/
theorem test_retransmit : let s (t : Nat) := { waiting 6 with time := { mono := t } }
    (connOf (after (exec (.retransmitTimeout 5 0) (s 65535))) 5).tries = 6 ∧ (connOf (after (exec (.retransmitTimeout 5 0) (s 65536))) 5).tries = 7 ∧
    (after (exec (.retransmitTimeout 5 0) (s 65536))).out.map roceOf = [some (5, .resend)] ∧
    paused (waiting 6) (connPort (waiting 6) 5) (kindPcp (waiting 6) 5 .diag false) = false := by decide
/-- R402, R403: an RNR NAK holds the requests back for the time that it carries. -/
theorem test_rnr : let s := after (exec (.nakReceive 5 .rnr 0 655360) (waiting 6))
    (connOf s 5).rnrUntil = some 655360 ∧ (after (exec (.rnrRetry 5) { s with time := { mono := 655359 } })).out = [] ∧
    (after (exec (.rnrRetry 5) { s with time := { mono := 655360 } })).out.map roceOf = [some (5, .resend)] := by decide
theorem test_cnp : let s := { waiting 0 with rw := [(ptBase 0 + 0x24, 0x80108000)] }
    bit (ccOf s 5) 31 = true ∧ (connOf s 5).cutAt = none ∧ (connOf (after (exec (.cnpReceive 5 false) s)) 5).rate = 524288 ∧
    (connOf s 5).riseAt + ccPeriod s 5 ≤ s.time.mono ∧ bit (ccOf { s with rw := [(ptBase 0 + 0x24, 0)] } 5) 31 = false := by decide

/-- Berth 0 with connection 5, and a management connection 4. -/
def serving : State :=
  let s := withCtx 1 { runCtx with mode := .idle, named := false, occ := none }
  { linked s with conns := [(4, { valid := true, mgmt := true, ctrl := true, rqpn := 8, lkey := 2 }), (5, { valid := true, rqpn := 9, lkey := 3 })] }

/-- A packet of connection 4. -/
def ctrlPacket : Packet := { packet with dqpn := 0x104, sqpn := 8, rkey := 2 }

theorem test_inbound : let u := (accept serving packet .data).1
    (accept serving packet .data).2 = some 5 ∧ (accept serving { packet with icrcOk := false } .data).2 = none ∧ (accept serving packet .read).2 = some 5 ∧
    (accept serving { packet with icrcOk := false } .read).2 = none ∧ stepRoom u [20] = true ∧ u.quays.all (fun e => e.2.threads.isEmpty) = true ∧ outside u 0 0x1000 1 = none ∧
    stepRoom { u with trkAlloc := [(20, 0)] } [20] = false ∧ packet.rkey = (connOf u 5).lkey ∧
    (0x1000 : Nat) + 2 ≤ capacity u ∧ (connOf u 5).ctrl = false ∧ outside u 0 0x1000 2 = none ∧ outside u 0 0x100000000 2 = some 0x100000000 ∧
    u.trk = [] ∧ partPoison u 0x1000 2 = none ∧ poisonIn u 0x1000 2 = [] ∧ targetAt mgBase = .ctrl ∧ targetAt (dbgBase 2 + 4) = .debug 2 4 := by decide
theorem test_inbound_ctrl : let u := (accept serving ctrlPacket .data).1
    (accept serving ctrlPacket .data).2 = some 4 ∧ (connOf u 4).ctrl = true ∧ staysIn (mgBase + 0x20) 8 = true ∧ restarts 4 (mgBase + 0x20) 8 = false ∧
    restarts 0 (mgBase + 0x178) 8 = true := by decide
theorem test_cmd_mem : let u := (accept serving packet .data).1
    targetAt (cmBase 0 + 0x20) = .cmd 0 0x20 ∧ isCmd (cmBase 0 + 0x20) = true ∧ isCmd 0 = false ∧ accessBerth u 0 0x20 32 = some 0 ∧
    accessBerth u 0 0x200 32 = none ∧ wholeCommands 0x20 32 = true ∧ wholeCommands 0x20 31 = false ∧ (connOf u 5).berth = 0 ∧ halfWritable u 0 0 0 = true ∧
    halfWritable { u with halves := [(0, { armed := true })] } 0 0 0 = false ∧ groupNames u 5 = false := by decide
theorem test_cmd_read : (accept serving ctrlPacket .read).2 = some 4 ∧ staysIn (cmBase 0 + 0x20) 32 = true ∧ wholeCommands 0x20 32 = true := by decide
/-- R251: an immediate arms the half that was written. -/
theorem test_cmd_arm : halfOf (after (exec (.cmdHalfArm packet (cmBase 0 + 0x20) (List.replicate 32 1)) serving)) 0 0 0 = { armed := true, gen := 1 } := by decide
theorem test_send : let u := (accept serving packet .data).1
    ferryConn u 5 = false ∧ (landOf u 0).closed = false ∧ (landOf u 0).bufs.length < 64 ∧ (landOf u 0).waiting.length ≤ 32 ∧
    (landOf (after (exec (.inboundSend packet (6 :: List.replicate 31 0)) serving)) 0).bufs.length = 1 ∧
    (after (exec (.inboundSend packet [9, 9]) { serving with landings := [(0, { closed := true })] })).out.map roceOf = [some (5, .nak .rnr (some 655360))] := by decide
/-- R401: a request that follows a lost one is refused by its PSN and has no effect; one that comes again is acknowledged only. -/
theorem test_psn : (accept serving { packet with psn := 1 } .data).2 = none ∧ (accept serving { packet with psn := 2 ^ 24 - 1 } .data).2 = none ∧
    (accept serving { packet with psn := 2 ^ 24 - 1 } .data).1.out.map roceOf = [some (5, .ack)] := by decide

/-- A transaction of REDUCE's class for the run of name 5. -/
def trk (write : Bool) : Trk := { id := 8, req := { addr := 0x1000, len := 4, write := write, data := if write then [1, 2, 3, 4] else [], cls := 3, pool := [20] }, allot := 20, run := 5, q := 0, unit16 := 0, berth := some 0, task := 7, start := 0 }

theorem test_transaction : let s (w : Bool) := { withRun (reducing 0) with trk := [trk w] }
    trkOf (s true) 8 = some (trk true) ∧ trkOf (s false) 8 = some (trk false) := by decide

/-- The piece of that transaction, where it stands. -/
def piece (write : Bool) (st : PieceSt) : Piece :=
  { trk := 8, addr := 0x1000, len := 4, loc := 0x1000, write := write, cls := 3, unit16 := 0, berth := some 0, task := 7, allot := 20,
    data := if write then [1, 2, 3, 4] else [], st := st }

/-- The transaction with its piece in the fabric. -/
def inFabric (write : Bool) (x : Piece) : State := { withRun (reducing 0) with hbm := {}, trk := [trk write], fabric := { pieces := [x] } }

/-- R334: the write is visible, and its entry free, once its piece has entered the queue of its bank. -/
theorem test_write_enters : let s := inFabric true (piece true .sent)
    pieceSource (piece true .sent) < 6 ∧ pieceRank s (piece true .sent) ≤ 7 ∧ pieceOutside (routePieces s) 8 = false ∧ pieceOutside s 8 = true ∧
    s.quays.all (fun e => e.2.threads.isEmpty) = true ∧ hbmRead (after (exec (.hbmWriteEnqueue 8) s)) 0x1000 4 = [1, 2, 3, 4] ∧ (after (exec (.hbmWriteEnqueue 8) s)).trk = [] := by decide
/-- R315: a bank queue of 16 requests takes no other. -/
theorem test_bank_full : let s := { withRun (reducing 0) with trk := [trk true], fabric := { pieces := List.replicate 16 { piece false .queued with trk := 9 } ++ [piece true .sent] } }
    pieceOutside (routePieces s) 8 = true ∧ Safety.bankLoad s (locBank 0x1000) = 16 ∧ Safety.bankLoad (routePieces s) (locBank 0x1000) = 16 := by decide
theorem test_read_served : let s := inFabric false { piece false (.granted 0) with data := [5, 6, 7, 8] }
    let p := inFabric false { piece false (.granted 0) with bad := [0x1000] }
    readServed s 8 = true ∧ readPoison s 8 = [] ∧ readServed p 8 = true ∧ readPoison p 8 = [0x1000] ∧ readServed (inFabric false (piece false .queued)) 8 = false := by decide
/-- R341, R342: rank goes before age, age decides among equals. -/
theorem test_arbiter : let x := { piece true .waiting with cls := 4 }
    let y := { piece true .waiting with trk := 9, cls := 1 }
    let s := { withRun (reducing 0) with arbRank := [(4, 3), (1, 2)], fabric := { pieces := [x, y] } }
    nextPiece s = some y ∧ nextPiece { s with arbRank := [(4, 2), (1, 2)] } = some x ∧ enterable s = [x, y] ∧ pieceRank s y ≤ 7 := by decide
/-- R314, R316: a pseudo-channel serves the head in its direction; with none in it it turns, and after 64 accesses while another waits too. -/
theorem test_channel : let r := piece false .queued
    let w := { piece true .queued with trk := 9 }
    let s (l : List Piece) (n : Nat) := { withRun (reducing 0) with fabric := { pieces := l, channels := [(16, { run := n })] } }
    locChannel 0x1000 = 16 ∧ (serveChannel (s [r] 0) 16).fabric.pieces = [{ r with st := .granted 0 }] ∧
    (tget {} (serveChannel (s [w] 0) 16).fabric.channels 16).write = true ∧ bankHeads (s [r, w] 64) 16 = [r] ∧ bankServes (s [r] 0) r = true ∧
    bankHeads (s [r, { w with loc := 0x9000 }] 64) 16 = [r, { w with loc := 0x9000 }] ∧ (tget {} (serveChannel (s [r, { w with loc := 0x9000 }] 64) 16).fabric.channels 16).write = true := by decide
/-- R345: a grant that has lasted longer than QY_ARB_HOLD_MAX is withdrawn, and its request waits again. -/
theorem test_arb_hold : let x := piece false (.granted 0)
    let s (t : Nat) := { inFabric false x with rw := [(qyBase 0 + 0x124, 10)], time := { mono := t } }
    (trkPieces (s 9) 8).find? (grantOver (s 9)) = some x ∧ (trkPieces (s 8) 8).find? (grantOver (s 8)) = none ∧
    (after (exec (.arbHold 8) (s 9))).fabric.pieces = [{ x with st := .waiting }] ∧ (after (exec (.arbHold 8) (s 9))).occ.map (·.source) = [sourceId 2 0 0x2B] := by decide
theorem test_mem_tmo : let s (t : Nat) := { withRun (reducing 0) with trk := [trk false], time := { mono := t } }
    (after (exec (.memTmo 8) (s 1000000))).trk = [] ∧ (after (exec (.memTmo 8) (s 999999))).trk.length = 1 := by decide
theorem test_fill : let s (x : Piece) := { inFabric false x with trk := [{ trk false with req := { (trk false).req with cls := 5 } }], quays := [(0, { fills := [(0x800, false, 8)] })] }
    let x := { piece false (.granted 0) with cls := 5, data := [0, 0, 0, 0] }
    (quayOf (s x) 0).fills.find? (fun f => f.1 == 0x800) = some (0x800, false, 8) ∧ (trk false).q = 0 ∧ readServed (s x) 8 = true ∧
    (quayOf (after (exec (.prefetchFillReturn 0 0x800 [] 0) (s x))) 0).lines = [0x800] ∧
    (quayOf (after (exec (.prefetchFillReturn 0 0x800 [] 0) (s { x with bad := [0x1000] }))) 0).lines = [] ∧
    (quayOf (after (exec (.prefetchFillReturn 0 0x800 [] 0) (s { x with st := .queued }))) 0).fills.length = 1 := by decide
theorem test_commit : trkRefused State.reset = false ∧ trkRefused { State.reset with rw := [(mwBase + 0x200, 3)] } = true ∧
    (let s (t : Nat) := { State.reset with time := { mono := t } }
     (stackOf (after (exec (.refreshRateCheck 0 85) (s 1000000))) 0).hot = true ∧ (stackOf (after (exec (.refreshRateCheck 0 84) (s 1000000))) 0).hot = false ∧
     (stackOf (after (exec (.refreshRateCheck 0 85) (s 999999))) 0).hot = false) := by decide

theorem test_sev : faultDefault 0x70 = some 4 ∧ faultRaiseOnly 0x70 = true ∧ faultDefault 0 = none ∧
    faultClass (after (exec (.registerWrite (fcSevAddr 0x70) 3) State.reset)) 0x70 = 4 ∧
    faultClass (after (exec (.registerWrite (fcSevAddr 0x70) 5) State.reset)) 0x70 = 5 ∧
    faultClass (after (exec (.registerWrite (fcSevAddr 0x0A) 6) State.reset)) 0x0A = 0 := by decide
theorem test_coord : regBits State.reset (mgBase + 0x20) 31 31 = 0 ∧ regBits opened (mgBase + 0x20) 31 31 = 1 ∧ blockAt 0 = none ∧
    deckFenced State.reset 0 = false ∧ (berthOf State.reset 0).st ≠ .idle ∧ (berthOf { State.reset with berths := [(0, { st := .idle })] } 0).st = .idle := by decide
theorem test_smbus : smbusUp opened = true ∧ smbusUp State.reset = false ∧ indexAddr 0x4100 = fcSevAddr 0 ∧
    (after (exec (.smbRegPoint 0xFFFF 2 true) opened)).smb.pointer = 0xFFFF ∧
    (after (exec .smbRegRead { opened with smb := { pointer := 0xFFFF } })).smb.pointer = 0 := by decide
theorem test_raise_only : faultDefault 0x74 = some 0 ∧ faultDefault 0x73 = some 5 ∧ bits (4 : Word).toNat 2 0 < 5 := by decide
theorem test_reads_clear : fittedPort State.reset 7 = true ∧ regValue { State.reset with fc := { drop := 9 } } (fcBase + 8) = 9 ∧
    (after (exec (.rcRegisterRead (fcBase + 8)) { State.reset with fc := { drop := 9 } })).fc.drop = 0 ∧ mgBase ≤ mgBase + 0x20 ∧ mgBase + 0x20 < fcBase := by decide
theorem test_management : policyLocked State.reset = false ∧ policyLocked { State.reset with rw := [(scBase + 8, 1)] } = true ∧ State.reset.sec.debug = false ∧
    alertN { opened with pw := { alert := 1 }, rw := [(pwBase + 0x84, 1)] } = true ∧ mayReport opened 0x88 0 1000000000 = true ∧
    mayReport { opened with fc := { reported := [((0x88, 0), 5)] } } 0x88 0 1000000000 = false ∧ (connOf serving 4).valid = true := by decide
/-- R541: a clear removes records of class TASK, and keeps those of class FENCE. -/
theorem test_clear : let r (c : Nat) : FaultRec := { source := 0, cls := c, berth := none, seq := 0, task := 0, count := 1, tide := 0, detail := 0, age := 0 }
    ((after (exec .fcClearAll { State.reset with fc := { recs := [(3, r 2), (4, r 3)] } })).fc.recs.map (·.1)) = [4] ∧
    ((after (exec (.fcValidClear 0 0x18) { State.reset with fc := { recs := [(3, r 2), (4, r 3)] } })).fc.recs.map (·.1)) = [4] := by decide

/-! ### Tasks, the manifest, faults and diagnostics -/

/-- A message: type, berth, flags, HSEQ 1, TASK_ID, and what follows the header of 32 bytes. -/
def message (type berth flags task : Nat) (rest : List Byte) : List Byte :=
  natLe 1 type ++ natLe 1 berth ++ natLe 2 flags ++ natLe 4 1 ++ natLe 4 0 ++ natLe 4 task ++ List.replicate 16 0 ++ rest

/-- START_TASK of task 8 that names context 1 of quay 0, which starts at slot `n`. -/
def startMsg (n : Nat) : List Byte := message 1 0 0 8 (natLe 2 3 ++ natLe 9 2 ++ natLe 5 0 ++ natLe 2 n)

/-- The module with a message in a landing; contexts 1 and 2 of quay 0 are berth 0's. -/
def posted (l : Nat) (d : List Byte) (b : Berth) : State :=
  { State.reset with landings := [(l, { bufs := [{ conn := 5, data := d }] })], berths := [(0, b)],
                     quays := [(0, { ctxs := [(1, { berth := some 0, len := 16 }), (2, { berth := some 0, len := 16 })] })] }

/-- An idle berth. -/
def idleBerth : Berth := { cfg := { decks := 0xF, qf := [(0, 64)] }, st := .idle }

/-- A berth that runs task 7. -/
def busy : Berth := { idleBerth with st := .running, cur := some 7, last := some 6 }

theorem test_start : let s := posted 0 (startMsg 5) idleBerth
    Taken s 0 1 { conn := 5, data := startMsg 5 } ∧ (headerOf (startMsg 5)).berth % 16 = 0 ∧ bistHolds s 0 = false ∧
    startList (startMsg 5) = [(1, 5)] ∧ (∀ e ∈ startList (startMsg 5), ctxStarts s 0 e.1 e.2 = true) ∧
    (∃ e ∈ startList (startMsg 16), ctxStarts s 0 e.1 e.2 = false) := by unfold Taken; decide
/-- R506: only the named context runs, and the berth knows its task. -/
theorem test_start_runs : let t := after (exec (.startTask 0) (posted 0 (startMsg 5) idleBerth))
    (ctxOf t 0 1).mode = .running ∧ (ctxOf t 0 1).pc = 5 ∧ (ctxOf t 0 2).mode = .idle ∧ (berthOf t 0).cur = some 8 ∧ (berthOf t 0).epoch = 3 := by decide
theorem test_start_busy : Taken (posted 0 (startMsg 5) busy) 0 1 { conn := 5, data := startMsg 5 } ∧ (berthOf (posted 0 (startMsg 5) busy) 0).st ≠ .idle := by
  unfold Taken; decide

theorem test_messages : let m (t k : Nat) : Msg := { conn := 5, data := message t 0 0 k [] }
    Taken (posted 0 (message 2 0 0 7 []) busy) 0 2 (m 2 7) ∧ Taken (posted 0 (message 2 0 0 6 []) busy) 0 2 (m 2 6) ∧
    Taken (posted 0 (message 3 0 0 7 []) busy) 0 3 (m 3 7) ∧ Taken (posted 0 (message 4 0 0 7 []) { busy with st := .suspended }) 0 4 (m 4 7) ∧
    Taken (posted 0 (message 5 0 0 0 []) busy) 0 5 (m 5 0) ∧ taskLive (posted 0 [] busy) 0 = true := by unfold Taken; decide
theorem test_query : Taken (posted 16 (message 6 0 2 0 []) busy) 16 6 { conn := 5, data := message 6 0 2 0 [] } ∧
    Taken (posted 0 (message 6 0 1 0 []) busy) 0 6 { conn := 5, data := message 6 0 1 0 [] } ∧ bit (headerOf (message 6 0 1 0 [])).flags 0 = true ∧
    bit (headerOf (message 6 0 2 0 [])).flags 1 = true := by unfold Taken; decide
/-- R495: a message out of its turn leaves H. -/
theorem test_sequence : let s := { posted 0 (message 2 0 0 7 []) busy with landings := [(0, { h := 5, bufs := [{ conn := 5, data := message 2 0 0 7 [] }] })] }
    seqStatus (landOf s 0) (headerOf (message 2 0 0 7 [])) = some 9 ∧ (landOf (after (exec (.abort 0) s)) 0).h = 5 ∧
    earlyStatus s 0 (message 9 0 0 0 []) = some 8 := by decide
theorem test_abort : (berthOf (after (exec (.abort 0) (posted 0 (message 2 0 0 7 []) busy))) 0).ended.map (·.cause) = some 1 := by decide
theorem test_preempt : (berthOf (after (exec (.preempt 0 []) (posted 0 (message 3 0 0 7 []) busy))) 0).st = .suspending := by decide
theorem test_disabled : let s := posted 0 (message 5 0 0 0 []) { idleBerth with st := .disabled }
    (landOf s 0).bufs = [{ conn := 5, data := message 5 0 0 0 [] }] ∧ 32 ≤ (message 5 0 0 0 []).length ∧ leAt (message 5 0 0 0 []) 0 1 = 5 ∧
    seqStatus (landOf s 0) (headerOf (message 5 0 0 0 [])) = none ∧ badMessage 0 (message 5 0 0 0 []) = false ∧ harbour s = false := by decide

/-- The berth whose task has ended by a record of cause 2. -/
def ended : Berth := { busy with ended := some { status := 1, cause := 2, source := 0x8733, at_ := 0 } }

theorem test_end_notify : let s := withCtx 1 { runCtx with endDone := true }
    (ctxOf s 0 1).berth = some 0 ∧ taskLive s 0 = true ∧ allEnded (setCtx s 0 1 { ctxOf s 0 1 with endSeen := true }) 0 = true ∧
    allEnded (setCtx (setCtx s 0 2 runCtx) 0 1 { ctxOf s 0 1 with endSeen := true }) 0 = false := by decide
theorem test_end_latch : let e : EndEvt := { berth := 0, task := 7, info := { status := 1, cause := 2 }, sev := 2 }
    firstEnd (endsFor { posted 0 [] busy with ends := [e] } 0) = some e ∧ (berthOf (posted 0 [] ended) 0).ended.isSome = true := by decide
/-- R509: the COMPLETION waits for the record of the fault that ended the task. -/
theorem test_completion : let s := posted 0 [] ended
    let o : Occ := { source := 0x8733, cls := 2, berth := some 0, task := 7, tide := 0, at_ := 0, detail := 0 }
    berthBusy s 0 = false ∧ faultOnWay s 0 { status := 1, cause := 2, source := 0x8733, at_ := 0 } = false ∧
    (berthOf (after (exec (.taskCompletionRecord 0) { s with occ := [o] })) 0).cur = some 7 ∧ (berthOf (after (exec (.taskCompletionRecord 0) s)) 0).cur = none ∧
    (berthOf (after (exec (.taskCompletionRecord 0) s)) 0).last = some 7 := by decide
theorem test_abandon : let s (t : Nat) := { posted 0 [] ended with trk := [trk false], time := { mono := t } }
    (after (exec (.transactionAbandon 0) (s 5000000))).trk = [] ∧ (after (exec (.transactionAbandon 0) (s 4999999))).trk.length = 1 := by decide

/-- Landing 0 with a record that waits, its ring over connection 5. -/
def recording (ack : Word) : State :=
  { linked State.reset with
    berths := [(0, { idleBerth with cfg := { ringConn := 5, ringAddr := 0x1000 } })],
    landings := [(0, { dseq := 16, ack := ack, waiting := [{ type := 5, berth := 0, hseq := none, task := 7, tide := 3, body := [] }] })] }

theorem test_ring : ringRoom (recording 16) 0 = true ∧ ringRoom (recording 0) 0 = false ∧ carries (recording 16) (ringConn (recording 16) 0) = true ∧
    (landOf (recording 16) 0).waiting.length = 1 ∧
    mayAsk (connOf (recording 16) 5) false = true := by decide

/-- The management landing with a record that waits, its ring over connection 0. -/
def mgmtRecording : State :=
  { recording 16 with conns := [(0, { valid := true })], rw := [(mgBase + 0x190, 0x80000004)], landings := [(16, { waiting := [{ type := 5, berth := 0, hseq := none, task := 7, tide := 3, body := [] }] })] }

/-- R501: a record that leaves takes the next DSEQ. -/
theorem test_ring_leaves : ringConn mgmtRecording 16 = 0 ∧ ringRoom mgmtRecording 16 = true ∧ Leaves mgmtRecording 0 .record (.write 0 [] none) ∧
    (landOf (after (exec (.ringRecordWrite 16) mgmtRecording)) 16).dseq = 1 ∧ ((after (exec (.ringRecordWrite 16) mgmtRecording)).out.length = 1) := by unfold Leaves; decide

theorem test_suspend : let s := posted 0 [] { busy with st := .suspending, preemptOwed := some { landing := 16, berth := 0, hseq := 1, task := 7, type := 3 } }
    taskLive s 0 = true ∧ enginesDone s 0 = true ∧ endsFor s 0 = [] ∧ decksRoom s 0 = true ∧ endsFor (savedDecks s 0 none).1 0 = [] ∧ (landOf s 16).waiting = [] ∧
    ringRoom { s with rw := [(mgBase + 0x190, 0x80000004)], conns := [(0, { valid := true })] } 16 = true ∧
    (berthOf (after (exec (.suspendComplete 0 none {}) s)) 0).st = .suspended := by decide
theorem test_suspend_fails : let s := { posted 0 [] { busy with st := .suspending, taskDecks := 1, cfg := { decks := 0xF } } with decks := [(0, { gangDeck with saveBase := none })] }
    enginesDone s 0 = true ∧ endsFor s 0 = [] ∧ taskLive s 0 = true ∧ decksRoom s 0 = true ∧ endsFor (savedDecks s 0 none).1 0 ≠ [] := by decide
theorem test_resume : let s := posted 0 [] { busy with st := .resuming, restore := .done }
    resumeGoes s 0 = true ∧ (berthOf (after (exec (.resumeComplete 0 {}) s)) 0).st = .running := by decide
/-- R514, R576: a restore that had to wait for a test of its deck is made first. -/
theorem test_resume_waits : let s := posted 0 [] { busy with st := .resuming, restore := .waiting }
    let u := { s with diag := { busy := true, type := 0x10, bistDeck := some 0 } }
    restoreReady s 0 = true ∧ resumeGoes s 0 = true ∧ resumeGoes (restoreTask s 0 {}) 0 = true ∧ (berthOf (restoreTask s 0 {}) 0).restore = .done ∧
    (berthOf (after (exec (.resumeComplete 0 {}) s)) 0).st = .running ∧ bistHolds u 0 = true ∧ restoreReady u 0 = false ∧
    (berthOf (after (exec (.resumeComplete 0 {}) u)) 0).st = .resuming := by decide
/-- RESUME of a suspended task whose decks can be restored at once. -/
theorem test_resume_taken : let s := posted 0 (message 4 0 0 7 []) { busy with st := .suspended }
    bistHolds s 0 = false ∧ decksRoom s 0 = true ∧ (berthOf (after (exec (.resume 0 {}) s)) 0).restore = .done := by decide
theorem test_disable : let s := { posted 0 [] { busy with st := .disabling } with conns := [(5, { valid := true })], windows := [(3, { en := true }), (4, { en := true, berth := 1 })] }
    let t := after (exec (.disableComplete 0) { s with berths := [(0, { idleBerth with st := .disabling })] })
    (berthOf t 0).st = .disabled ∧ (connOf t 5).err = true ∧ t.windows.map (fun w => w.2.sealedW) = [true, false] ∧ berthBusy s 0 = false := by decide

/-- A manifest of no section, with the SHAKE256 digest of its first 192 bytes. -/
def manifest : List Byte := natLe 4 0x464D4258 ++ natLe 2 1 ++ natLe 2 0 ++ natLe 4 256 ++ List.replicate 180 0 ++ natLe 64 0x1db1414f5e59e14f5f2878da7e52cf0210a6e765fa477887696c125ccb5b75fdeb4656fd497d67797d32b4ad1fd0308abc0aad79ffc9fc7a156111d2703805ea

theorem test_load : let d := message 7 0 0 0 (natLe 8 0x1000 ++ natLe 4 256 ++ natLe 4 0)
    let s := { posted 16 d idleBerth with boot := { phase := 6, ready := true } }
    Taken s 16 7 { conn := 5, data := d } ∧ (∀ b ∈ List.range 16, (landOf s b).bufs = []) ∧ allIdle s = true ∧ s.boot.ready = true ∧ s.diag.busy = false ∧
    allIdle (posted 16 d busy) = false := by unfold Taken; decide
/-- The READ of a manifest leaves over connection 4, of the management function, at once. -/
theorem test_load_leaves : let s := { linked State.reset with conns := [(4, { valid := true, mgmt := true })] }
    Leaves s 4 .manifest (.read 0x1000 256) ∧ Leaves s 4 .diag (.write 0x40 [1] none) ∧ Leaves s 4 .ferry (.send [1]) ∧
    (frameOf s 4 (kindPcp s 4 .manifest false) (.read 0x1000 256) false).port = 0 ∧ connUsable State.reset 4 = false := by unfold Leaves; decide

/-- The load of it in progress. -/
def loadOf (v : Option (List Byte)) : State :=
  { linked State.reset with
    load := some { conn := 5, hseq := 1, addr := 0x1000, len := 256, verified := v }, landings := [(16, { bufs := [{ conn := 5, data := [] }] })] }

theorem test_framing : manifest.length = 256 ∧ leAt manifest 8 4 = 256 ∧ framingBad manifest = [] ∧ framingBad (1 :: manifest.drop 1) = [0] ∧
    manSigned manifest = false ∧ rejected (loadOf none) manifest = [] ∧ brokenGangs (loadOf none) = [] := by decide
/-- R565: the digest is SHAKE256 of all before it; the value was computed outside the model. -/
theorem test_digest : digest64 (manifest.take 192) = manDigest manifest := by decide +kernel
theorem test_apply : (loadOf (some manifest)).load.map (·.verified) = some (some manifest) ∧ (landOf (loadOf (some manifest)) 16).bufs.length = 1 := by decide

/-- An occurrence of class `c` from deck 3 at the nanosecond `t`. -/
def occurrence (c t : Nat) : Occ := { source := sourceId 1 3 0x0F, cls := c, berth := none, task := 0, tide := t, at_ := t, detail := 9 }

theorem test_collect : let s := { State.reset with occ := [occurrence 2 9, occurrence 3 5] }
    firstOcc s.occ = some (occurrence 3 5) ∧ foldsInto { s with occ := [occurrence 2 9] } (occurrence 3 5) = none ∧ entryFor s 3 = some (0, false) ∧
    (after (exec (.faultCollect none) s)).occ = [occurrence 2 9] := by decide
/-- R538: class FENCE fences the deck that raised it, class HALT halts the module. -/
theorem test_react : deckFenced (after (exec (.faultCollect none) { State.reset with occ := [occurrence 3 5] })) 3 = true ∧
    (after (exec (.faultCollect none) { State.reset with occ := [occurrence 4 5] })).fc.halt = true := by decide
theorem test_fold : let s := after (exec (.faultCollect none) { State.reset with occ := [occurrence 2 5] })
    foldsInto { s with occ := [] } (occurrence 2 9) = some 0 ∧
    ((after (exec (.faultCollect none) { s with occ := [occurrence 2 9] })).fc.recs.map (fun e => e.2.count)) = [2] := by decide
/-- R6, R23: the bridges of E1 exist only where E1 is fitted. -/
theorem test_bridges : bridgeFitted State.reset 2 = true ∧ bridgeFitted { State.reset with fitted := { part := .m16e1 } } 2 = false ∧
    bridgeFitted { State.reset with fitted := { part := .m16e1 } } 1 = true ∧ mayReport State.reset 0x60 2 1000000 = true ∧
    (after (exec (.faultCollect (some (.bridgeUncorr 2 0))) { State.reset with fitted := { part := .m16e1 } })).fc.recs = [] := by decide
theorem test_parity : 0x40 ∈ (quayOf { State.reset with quays := [(1, { lines := [0x40] })] } 1).lines := by decide

/-- A diagnostic message: 16 bytes of operands that begin as given, and `n` bytes of zeros. -/
def diagMsg (type : Nat) (rest : List Byte) (n : Nat) : List Byte := message type 0 0 0 (rest ++ List.replicate (16 - rest.length + n) 0)

theorem test_diag : let ok (t : Nat) (d : List Byte) := Taken (posted 16 d idleBerth) 16 t { conn := 5, data := d }
    ok 0x10 (diagMsg 0x10 [2] 0) ∧ ok 0x11 (diagMsg 0x11 [] 32) ∧ ok 0x12 (diagMsg 0x12 [4] 64) ∧ ok 0x13 (diagMsg 0x13 [] 0) ∧
    ok 0x14 (diagMsg 0x14 [1] 0) ∧ ok 0x15 (diagMsg 0x15 [64] 0) := by unfold Taken; decide
theorem test_bist : let s := { posted 16 [] idleBerth with man := { bistArea := some 0x10000 } }
    bistReady s 2 = true ∧ bistReady (posted 16 [] idleBerth) 2 = false ∧ faultClass s 2 = 3 ∧
    deckFenced (after (exec (.diagBistDone (some 0)) { s with diag := { busy := true, type := 0x10, bistDeck := some 2 } })) 2 = true := by decide
theorem test_diag_done : let s := { linked State.reset with flash := {}, diag := { busy := true, type := 0x13, conn := 5, off := 4096, len := 64 } }
    connUsable s s.diag.conn = true ∧ carries s s.diag.conn = true ∧ (List.replicate 64 (7 : Byte)).length = s.diag.len ∧
    (slotOf (after (exec (.diagDone false (List.replicate 64 7)) s)) true).readBytes 4159 1 = [7] ∧ (after (exec (.diagDone false (List.replicate 64 7)) s)).diag.busy = false := by decide
theorem test_image : imagePasses { State.reset with flash := {} } true = false := by decide

/-! ### Ferry duties -/

/-- Group ferrymaster 0 of its own group, with connection 4 of the management berth to device 5 of its group. -/
def ferryHub : State :=
  { linked State.reset with
    rw := [(mgBase + 0x20, 0x80000000), (mgBase + 0x24, 0x80000000)], man := { mgmtBerth := some 0, ferryArea := some 0, roster := [(3, 2, 2)] },
    conns := [(4, { valid := true, mgmt := true, ctrl := true, rip := 0x0200000500000000 })], hbm := {} }

/-- A ferry message of device 5: type, MSEQ, and its body. -/
def ferryText (type mseq : Nat) (body : List Byte) : List Byte :=
  natLe 1 type ++ natLe 3 0 ++ natLe 4 mseq ++ natLe 4 0 ++ natLe 2 5 ++ natLe 2 0 ++ natLe 8 9 ++ body ++ List.replicate (40 - body.length) 0

theorem test_ferry_taken : let m := ferryText 2 1 (natLe 2 3)
    ferryConn ferryHub 4 = true ∧ connUsable ferryHub 4 = true ∧ carries ferryHub 4 = true ∧ m.length = 64 ∧ leAt m 0 1 = 2 ∧
    leAt m 4 4 = (peerOf (ferryAcked (acknowledge ferryHub 4 1) 0 5 0) 0 5).acted + 1 ∧ ferryConn State.reset 4 = false := by decide
/-- R476: the number after the next one draws HELLO and is not acted on. -/
theorem test_ferry_gap : let t := after (exec (.ferryArrive 4 (ferryText 2 2 (natLe 2 3))) ferryHub)
    t.out.length = 2 ∧ (peerOf t 0 5).acted = 0 ∧ t.ferry.barriers = [] := by decide
theorem test_arrive : ownWorker ferryHub 0 5 = true ∧ rosterOf ferryHub 3 = some (2, 2) ∧ rosterOf ferryHub 4 = none ∧
    (barrierOf ferryHub 3 1 false).sum + 1 < 2 ∧
    (after (exec (.ferryArrive 4 (ferryText 2 1 (natLe 2 3 ++ natLe 2 0 ++ natLe 4 1 ++ natLe 4 1))) ferryHub)).ferry.barriers.map (·.sum) = [1] := by decide
theorem test_release : let s := { State.reset with berths := [(0, { cfg := { job := some 3, relFlag := some 2, cfCount := 4 }, st := .idle, bseq := 1 })] }
    Unwaited s (.chip 2) ∧ flagVal s (.chip 2) < 65535 ∧ flagVal (workerRelease s 3 1) (.chip 2) = 1 ∧ flagVal (workerRelease s 3 2) (.chip 2) = 0 := by unfold Unwaited; decide
theorem test_window : winKey [] (0, 5) = (0, 5) ∧ (joinWindow [] 9 (0, 5) 1 0 2 9).map (·.at_) = [9] ∧
    (joinWindow (joinWindow [] 9 (0, 5) 1 0 2 9) 11 (0, 5) 3 0 4 11).map (fun w => (w.at_, w.reasons, w.reporters.length)) = [(9, 6, 2)] := by decide
theorem test_barrier : let s := { ferryHub with berths := [(0, { cfg := { barFlag := some 1, job := some 3 }, st := .idle })], cflags := [(1, 1)] }
    (berthOf s 0).cfg.barFlag = some 1 ∧ 0 < flagVal s (.chip 1) ∧ selfGroup s = true ∧ flagVal (after (exec (.barrierArrive 0) s)) (.chip 1) = 0 ∧
    (berthOf (after (exec (.barrierArrive 0) s)) 0).bseq = 1 := by decide
theorem test_ferry_send : connTo ferryHub 0 5 = some 4 ∧ (peerOf ferryHub 0 5).owed = false ∧ connTo ferryHub 0 6 = none ∧ groupFm ferryHub = true ∧
    mayReport ferryHub 0x59 6 1000000000 = true := by decide
/-- R481: HEALTH goes out once a second. -/
theorem test_health : let s (t : Nat) := { ferryHub with ferry := { misses := 5, healthAt := some 0 }, time := { mono := t } }
    due (s 999999999) (some 0) 1000000000 = false ∧ due (s 1000000000) (some 0) 1000000000 = true ∧ groupFm (s 0) = true ∧
    (after (exec .healthSendTick (s 1000000000))).ferry.misses = 0 ∧ (after (exec .healthSendTick (s 999999999))).ferry.misses = 5 ∧
    groupFm { s 0 with rw := [] } = false := by decide
theorem test_silent_worker : let s (t : Nat) := { ferryHub with time := { mono := t } }
    (after (exec (.workerSilentTimeout 7) (s 3000000000))).ferry.groupWins.length = 1 ∧ (after (exec (.workerSilentTimeout 7) (s 2999999999))).ferry.groupWins = [] := by decide
theorem test_window_close : let s (t : Nat) := { ferryHub with ferry := { groupWins := joinWindow [] 9 (0, 7) 1 0 2 9, sysWins := joinWindow [] 9 (0, 7) 1 1 2 9 }, time := { tide := t } }
    (after (exec (.groupWindowClose 0 7) (s 50000009))).ferry.groupWins = [] ∧ (after (exec (.groupWindowClose 0 7) (s 50000008))).ferry.groupWins.length = 1 ∧
    (after (exec (.systemWindowClose 0 7) (s 50000009))).ferry.sysWins = [] ∧ systemFm ferryHub = false := by decide
theorem test_misses : let s := { ferryHub with ferry := { plan := some (5, 1) }, time := { tide := 65536005, sailing := 100, cycleLen := 65536 } }
    s.ferry.plan = some (5, 1) ∧ 5 + s.time.sailing * 10 * s.time.cycleLen ≤ s.time.tide ∧ (after (exec (.timetableMissCheck []) s)).ferry.plan = none := by decide
/-- R474: GFM_DEVICE keeps its value where the written one is of another group. -/
theorem test_mg_ferry : gfmDevice (after (exec (.mgFerryWrite 0x00404000) ferryHub)) = 0 ∧ gfmDevice (after (exec (.mgFerryWrite 0x0000C000) ferryHub)) = 3 := by decide

/-! ### Power, start-up and the whole module -/

theorem test_supply : State.reset.pw.hkOn = true ∧ State.reset.pw.loadsOn = true ∧ coolEnough State.reset = true ∧ State.reset.pw.restart = false := by decide
theorem test_vin_bounds : (after (exec (.vinOv 60000) State.reset)).occ = [] ∧ (after (exec (.vinOv 60001) State.reset)).pw.scause = 1 ∧
    (after (exec (.vinUv 38999) State.reset)).pw.state = 2 ∧ (after (exec (.vinUv 39000) State.reset)).pw.state = 1 ∧
    (after (exec (.vinBrownout 35999) State.reset)).pw.loadsOn = false := by decide
theorem test_power_cycle : let s := { State.reset with pw := { hkOn := false, loadsOn := false, offAt := some 0, pwrEn := true }, time := { mono := 100000000 } }
    (after (exec (.pwrEnAssert 40000) s)).pw.loadsOn = true ∧ (after (exec (.pwrEnAssert 39999) s)).pw.loadsOn = false ∧
    (after (exec (.vinRecovers 30000) s)).pw.hkOn = true := by decide
theorem test_deck_pwr : faultClass State.reset 0x0F = 3 ∧ deckFenced State.reset 9 = false ∧ deckFenced (after (exec (.deckPwr 9 1) State.reset)) 9 = true := by decide
/-- R599: one watt above the limit raises the level, and below 97 percent of it lowers it. -/
theorem test_throttle : let s := { State.reset with pw := { qLim := 5 } }
    regBits s (pwBase + 4) 15 0 = 2600 ∧ (after (exec (.throttleTick 2601) s)).pw.qLim = 6 ∧ (after (exec (.throttleTick 2522) s)).pw.qLim = 5 ∧
    (after (exec (.throttleTick 2521) s)).pw.qLim = 4 ∧ hottest s = none := by decide
theorem test_fast : (after (exec (.fastThrottleTrigger 3001 44000 0) State.reset)).pw.qFast = 32 ∧ (after (exec (.fastThrottleTrigger 3000 40000 6500) State.reset)).pw.qFast = 0 ∧
    State.reset.pw.fastHeld = false ∧ 40000 ≤ State.reset.pw.vinMv := by decide
/-- R599: the fast throttle decays by 8 once a millisecond. -/
theorem test_fast_decay : let s (t : Nat) := { State.reset with pw := { qFast := 32, fastAt := some 0 }, time := { mono := t } }
    due (s 1000000) (some 0) 1000000 = true ∧ (after (exec .fastThrottleDecay (s 1000000))).pw.qFast = 24 ∧ (after (exec .fastThrottleDecay (s 999999))).pw.qFast = 32 := by decide
/-- R599: a second step of the throttle takes place a millisecond after the first. -/
theorem test_throttle_period : let s (t : Nat) := { State.reset with pw := { qLim := 5, tickAt := some 0 }, time := { mono := t } }
    (after (exec (.throttleTick 2601) (s 999999))).pw.qLim = 5 ∧ (after (exec (.throttleTick 2601) (s 1000000))).pw.qLim = 6 ∧ due State.reset none 1000000 = true := by decide
theorem test_sensor : sensorFitted State.reset 3 = true ∧ (sensorOf State.reset 3).failed = false ∧ due State.reset (sensorOf State.reset 3).readAt (sensorPeriod 3) = true ∧ State.reset.pw.restart = false ∧ plausible {} 3 60 = true ∧ plausible { val := some 60 } 3 81 = false ∧
    plausible { val := some 109, hot := 1 } 3 110 = true := by decide
theorem test_overtemperature : let s (h : Nat) := { State.reset with pw := { sensors := [(3, { val := some 109, hot := h })] } }
    (after (exec (.sensorReading 3 110) (s 1))).pw.scause = 3 ∧ (after (exec (.sensorReading 3 110) (s 0))).pw.scause = 0 := by decide
/-- The wear monitors are computed once an hour. -/
theorem test_wear_period : let s (t : Nat) := { State.reset with pw := { wearAt := some 0 }, time := { mono := t } }
    due (s 3599999999999) (some 0) 3600000000000 = false ∧ due (s 3600000000000) (some 0) 3600000000000 = true := by decide
theorem test_wear : (after (exec (.wearCompute 1 2 3 4 5 6 7 [9, 8, 400, 500]) State.reset)).pw.wearEol.toNat % 65536 = 8 := by decide

theorem test_rom : State.reset.pw.pg = true ∧ State.reset.boot.phase = 0 ∧ State.reset.boot.romDone = false ∧ State.reset.boot.heldReset = false ∧ lockHeld State.reset = false ∧
    (after (exec (.bootRomCheck true 3) State.reset)).smb.address = 0x63 := by decide
/-- R547: a phase that takes longer than its limit has failed. -/
theorem test_boot_late : let s (t : Nat) := { State.reset with boot := { phase := 2, phaseAt := 0 }, time := { mono := t } }
    phaseLate (s 2000000) 2000000 = false ∧ phaseLate (s 2000001) 2000000 = true ∧ (after (exec (.keyStoreCheck true) (s 2000000))).boot.phase = 3 ∧
    (after (exec (.keyStoreCheck true) (s 2000001))).boot.hcause = 2 := by decide
theorem test_boot_fails : let s := { State.reset with boot := { phase := 1 }, flash := {} }
    imagePasses s false = false ∧ imagePasses s true = false ∧ regBits s (scBase + 0xC) 0 0 = 0 ∧ (after (exec .signedBoot s)).boot.hcause = 1 := by decide
/-- Only the signature of an image rests on the firmware key that the spec leaves open: a well-formed image that verifies under it passes. -/
theorem test_image_passes (s : State) (b : Bool) (h : imageHeadOk s b = true) (v : s.flash.svnMin.toNat ≤ imageSvn s b)
    (k : ed448Verify Config.firmwareKey (imageDigest s b) ((slotOf s b).readBytes (imageLen s b) 114) = true) : imagePasses s b = true := by
  simp [imagePasses, h, v, k]
theorem test_bist_units : populated State.reset 5 = true ∧ (after (exec (.powerUpBist [.stack 5 true]) { State.reset with boot := { phase := 3 } })).boot.hcause = 4 ∧
    (after (exec (.powerUpBist [.deck 5 1]) { State.reset with boot := { phase := 3 } })).boot.fenced = 0x20 := by decide
theorem test_ready : let s := { State.reset with boot := { phase := 6, commitSvn := true, fwSvn := 4 }, rw := [(mgBase + 0x20, 0x80000000)], time := { st := .locked } }
    regBits s (mgBase + 0x20) 31 31 = 1 ∧ (after (exec .moduleReady s)).flash.svnMin = 4 ∧ (after (exec .moduleReady s)).boot.phase = 7 := by decide
theorem test_viol : (after (exec (.secViol 1) State.reset)).boot.phase = 8 ∧ (after (exec (.secViol 1) { State.reset with boot := { phase := 7 } })).boot.phase = 7 := by decide
theorem test_jtag : State.reset.sec.debug = false ∧ ({ State.reset with sec := { debug := true } } : State).sec.debug = true ∧ JtagOp.internalScan ∈ [JtagOp.privateInstruction, .internalScan] := by decide

theorem test_reset_wf : MemWf State.reset := ⟨by decide, by decide, by decide, by decide⟩
theorem test_reset_fresh : NamesFresh State.reset := by unfold NamesFresh; decide
theorem test_latch : Instr.nop 0 0 ≠ .resetNAssert ∧ (after (exec (.registerWrite (mgBase + 0x20) 5) opened)).rw = opened.rw := by decide
theorem test_fairhel : let w := word (.load 1 2 true false true)
    opKnown (opcodeOf w) = true ∧ bits w.toNat 211 208 = 0 ∧ reservedZero w = true ∧ opKnown 0x3E = false := by decide
/-- R267, R283: a LOAD of descriptor 1 and register 2 with GANG, written out field by field. -/
theorem test_fairhel_load : word (.load 1 2 true false false) = 0x020FFF0000001280000000000000000000000000000000000000000000000000 := by decide
/-- The spec's worked example of a PASS: wait on quay flag 5 with WVAL 1, SFLAG quay flag 7, A in T0, B in T1, slot 2, add mode, K = 4,096. -/
theorem test_fairhel_pass : encodeFairhel ⟨0, 5, 1, 7⟩ (.pass { passOp with slot := 2, add := true, k := 4096 }) =
    0x1000050100700188000000000000000000000000000000000000000000001000 := by decide
/-- R311: an XFER of 8 bytes over connection 5 with immediate 1, by the operand table. -/
theorem test_fairhel_xfer : opOf (BitVec.ofNat 256 (0x2A * 2 ^ 248 + 5 * 2 ^ 195 + 1 * 2 ^ 194 + 0x1000 * 2 ^ 145 + 0x2000 * 2 ^ 81 + 8 * 2 ^ 49 + 1 * 2 ^ 17)) =
    .xfer { conn := 5, imm := true, sched := false, laddr := 0x1000, raddr := 0x2000, len := 8, immval := 1 } := by decide

end Sys2Proof.Tests
end

section
/-! Every command but the resets, power-up and JTAG access keeps the latches; the coordinates among them (R461). -/

namespace Sys2Proof.Proofs

open Sys2Proof Sys2Proof.Machine Sys2Proof.Safety Sys2Proof.Laws

/-! ### Every command but the resets and JTAG access -/

/-- The preservation lemma of each command, gathered along the arms of `exec`. -/
theorem exec_kept (c : Instr) (s : State) (hReset : c ≠ .resetNAssert) (hOn : ∀ m, c ≠ .pwrEnAssert m)
    (hOff : ∀ m, c ≠ .pwrEnDeassert m) (hVin : ∀ m, c ≠ .vinRecovers m) (hJtag : ∀ o, c ≠ .jtagAccess o) :
    ∃ t, exec c s = .next t ∧ Kept s t := by
  cases c with
  | cmdFetchIssue q c ecc => exact kept_execCmdFetchIssue q c ecc s
  | fetchWaitEnter q c => exact kept_execFetchWaitEnter q c s
  | nop q c => exact kept_execNop q c s
  | cinit q c => exact kept_execCinit q c s
  | cadd q c => exact kept_execCadd q c s
  | ccmp q c => exact kept_execCcmp q c s
  | flagset q c => exact kept_execFlagset q c s
  | settle q c => exact kept_execSettle q c s
  | waitt q c => exact kept_execWaitt q c s
  | endCmd q c => exact kept_execEndCmd q c s
  | endNotifyHome q c => exact kept_execEndNotifyHome q c s
  | tilecfg q c => exact kept_execTilecfg q c s
  | stream q c => exact kept_execStream q c s
  | load q c => exact kept_execLoad q c s
  | loadComplete q c remote mem => exact kept_execLoadComplete q c remote mem s
  | store q c ecc => exact kept_execStore q c ecc s
  | storeComplete q c => exact kept_execStoreComplete q c s
  | holdStallWake b => exact kept_execHoldStallWake b s
  | holdStallTimeout b => exact kept_execHoldStallTimeout b s
  | swap q c => exact kept_execSwap q c s
  | maskset q c => exact kept_execMaskset q c s
  | pass q c ecc => exact kept_execPass q c ecc s
  | skipReplay q c quad => exact kept_execSkipReplay q c quad s
  | passComplete q c quad => exact kept_execPassComplete q c quad s
  | saveacc q c parity => exact kept_execSaveacc q c parity s
  | saveaccComplete q c => exact kept_execSaveaccComplete q c s
  | restacc q c mem => exact kept_execRestacc q c mem s
  | drain q c buffer parity mem => exact kept_execDrain q c buffer parity mem s
  | drainComplete q c mem => exact kept_execDrainComplete q c mem s
  | fmtsel q c mem => exact kept_execFmtsel q c mem s
  | gather q mem => exact kept_execGather q mem s
  | scatter q mem => exact kept_execScatter q mem s
  | prefetch q mem => exact kept_execPrefetch q mem s
  | gatherRecall q => exact kept_execGatherRecall q s
  | gatherThreadAction q ecc mem => exact kept_execGatherThreadAction q ecc mem s
  | gatherComplete q run => exact kept_execGatherComplete q run s
  | recallPieceDone q run page piece data => exact kept_execRecallPieceDone q run page piece data s
  | reduce q => exact kept_execReduce q s
  | reduceComplete q run => exact kept_execReduceComplete q run s
  | norm q => exact kept_execNorm q s
  | xfer q => exact kept_execXfer q s
  | xferComplete q run => exact kept_execXferComplete q run s
  | waitTmo q c kind => exact kept_execWaitTmo q c kind s
  | segmentReceive pkt payload => exact kept_execSegmentReceive pkt payload s
  | segmentAddDone p residueErrors => exact kept_execSegmentAddDone p residueErrors s
  | collTmo q run => exact kept_execCollTmo q run s
  | sailingBoundary p => exact kept_execSailingBoundary p s
  | sailingLate p => exact kept_execSailingLate p s
  | ptpMessageSend p sub kind => exact kept_execPtpMessageSend p sub kind s
  | ptpMessageReceive p sub msg => exact kept_execPtpMessageReceive p sub msg s
  | announceReceiptTimeout => exact kept_execAnnounceReceiptTimeout s
  | lockQualify => exact kept_execLockQualify s
  | holdoverTimeout => exact kept_execHoldoverTimeout s
  | ppsOutPulse => exact kept_execPpsOutPulse s
  | ppsInEdge highNs => exact kept_execPpsInEdge highNs s
  | ttTblLoadGo => exact kept_execTtTblLoadGo s
  | ttTblLoadDone mem => exact kept_execTtTblLoadDone mem s
  | ttTblActivate => exact kept_execTtTblActivate s
  | portBringupStep p sub outcome => exact kept_execPortBringupStep p sub outcome s
  | linkDown p sub cause => exact kept_execLinkDown p sub cause s
  | fecLimitWindow p sub corrected uncorrectable => exact kept_execFecLimitWindow p sub corrected uncorrectable s
  | landingCardSend p sub => exact kept_execLandingCardSend p sub s
  | landingCardReceive p sub company subtype info ttlSeconds mac => exact kept_execLandingCardReceive p sub company subtype info ttlSeconds mac s
  | landingCardTtlExpire p sub => exact kept_execLandingCardTtlExpire p sub s
  | cardAwaitTimeout p => exact kept_execCardAwaitTimeout p s
  | neighborSolicitation p sub frame => exact kept_execNeighborSolicitation p sub frame s
  | pfcFrameReceive p priority xoff => exact kept_execPfcFrameReceive p priority xoff s
  | pfcWatchdogExpire p priority => exact kept_execPfcWatchdogExpire p priority s
  | pfcWatchdogRearm p priority => exact kept_execPfcWatchdogRearm p priority s
  | inboundRdmaWrite pkt addr data mem => exact kept_execInboundRdmaWrite pkt addr data mem s
  | inboundRdmaRead pkt addr len mem => exact kept_execInboundRdmaRead pkt addr len mem s
  | inboundWriteImm pkt addr data imm mem => exact kept_execInboundWriteImm pkt addr data imm mem s
  | inboundSend pkt data => exact kept_execInboundSend pkt data s
  | cmdMemWrite pkt addr data => exact kept_execCmdMemWrite pkt addr data s
  | cmdHalfArm pkt addr data => exact kept_execCmdHalfArm pkt addr data s
  | cmdMemRead pkt addr len => exact kept_execCmdMemRead pkt addr len s
  | nakReceive conn kind acked rnrNs => exact kept_execNakReceive conn kind acked rnrNs s
  | retransmitTimeout conn acked => exact kept_execRetransmitTimeout conn acked s
  | rnrRetry conn => exact kept_execRnrRetry conn s
  | cnpReceive conn scheduled => exact kept_execCnpReceive conn scheduled s
  | ccRateIncrease conn => exact kept_execCcRateIncrease conn s
  | transitFrame p frame => exact kept_execTransitFrame p frame s
  | hbmReadComplete entry errs onDie => exact kept_execHbmReadComplete entry errs onDie s
  | hbmWriteEnqueue entry => exact kept_execHbmWriteEnqueue entry s
  | memTmo entry => exact kept_execMemTmo entry s
  | arbHold entry => exact kept_execArbHold entry s
  | prefetchFillReturn q line errs onDie => exact kept_execPrefetchFillReturn q line errs onDie s
  | refreshRateCheck stack temperature => exact kept_execRefreshRateCheck stack temperature s
  | mwTrkCommit => exact kept_execMwTrkCommit s
  | qyArbCommit q => exact kept_execQyArbCommit q s
  | holdReset b => exact kept_execHoldReset b s
  | fcValidClear n value => exact kept_execFcValidClear n value s
  | fcClearAll => exact kept_execFcClearAll s
  | scDebugReq overSmbus => exact kept_execScDebugReq overSmbus s
  | scManPolicyLock value => exact kept_execScManPolicyLock value s
  | mgmtConnRestart value => exact kept_execMgmtConnRestart value s
  | mgmtConnStop value => exact kept_execMgmtConnStop value s
  | mgCoordWrite value => exact kept_execMgCoordWrite value s
  | portModeWrite p value => exact kept_execPortModeWrite p value s
  | portPlanWrite p value => exact kept_execPortPlanWrite p value s
  | netPrefixWrite high value => exact kept_execNetPrefixWrite high value s
  | mgFerryWrite value => exact kept_execMgFerryWrite value s
  | ttNowLoRead => exact kept_execTtNowLoRead s
  | rcRegisterRead addr => exact kept_execRcRegisterRead addr s
  | registerWrite addr value => exact kept_execRegisterWrite addr value s
  | smbRegWrite index value count pecOk => exact kept_execSmbRegWrite index value count pecOk s
  | smbRegPoint index count pecOk => exact kept_execSmbRegPoint index count pecOk s
  | smbRegRead => exact kept_execSmbRegRead s
  | smbAlertResponse => exact kept_execSmbAlertResponse s
  | smbusTmo command sclHeldLow => exact kept_execSmbusTmo command sclHeldLow s
  | startTask l => exact kept_execStartTask l s
  | abort l => exact kept_execAbort l s
  | preempt l cuts => exact kept_execPreempt l cuts s
  | suspendComplete b parity mem => exact kept_execSuspendComplete b parity mem s
  | resume l mem => exact kept_execResume l mem s
  | resumeComplete b mem => exact kept_execResumeComplete b mem s
  | disableBerth l => exact kept_execDisableBerth l s
  | disableComplete b => exact kept_execDisableComplete b s
  | query l => exact kept_execQuery l s
  | loadManifest => exact kept_execLoadManifest s
  | manifestVerifyDone read => exact kept_execManifestVerifyDone read s
  | manifestApply => exact kept_execManifestApply s
  | taskEndLatch b => exact kept_execTaskEndLatch b s
  | taskCompletionRecord b => exact kept_execTaskCompletionRecord b s
  | transactionAbandon b => exact kept_execTransactionAbandon b s
  | ringRecordWrite l => exact kept_execRingRecordWrite l s
  | diagBist => exact kept_execDiagBist s
  | diagBistDone failed => exact kept_execDiagBistDone failed s
  | diagAttest => exact kept_execDiagAttest s
  | diagExtend => exact kept_execDiagExtend s
  | diagFwWrite => exact kept_execDiagFwWrite s
  | diagFwActivate => exact kept_execDiagFwActivate s
  | diagLog => exact kept_execDiagLog s
  | diagDone hostFailed read => exact kept_execDiagDone hostFailed read s
  | faultCollect detected => exact kept_execFaultCollect detected s
  | barrierArrive b => exact kept_execBarrierArrive b s
  | ferryHello conn msg => exact kept_execFerryHello conn msg s
  | ferryArrive conn msg => exact kept_execFerryArrive conn msg s
  | ferryRelease conn msg => exact kept_execFerryRelease conn msg s
  | ferryHealth conn msg => exact kept_execFerryHealth conn msg s
  | ferrySilent conn msg => exact kept_execFerrySilent conn msg s
  | ferryEvent conn msg => exact kept_execFerryEvent conn msg s
  | ferryTidePlan conn msg => exact kept_execFerryTidePlan conn msg s
  | healthSendTick => exact kept_execHealthSendTick s
  | workerSilentTimeout worker => exact kept_execWorkerSilentTimeout worker s
  | groupWindowClose sys device => exact kept_execGroupWindowClose sys device s
  | systemWindowClose sys device => exact kept_execSystemWindowClose sys device s
  | timetableMissCheck gens => exact kept_execTimetableMissCheck gens s
  | pwrEnAssert _ => exact absurd rfl (hOn _)
  | pwrEnDeassert _ => exact absurd rfl (hOff _)
  | resetNAssert => exact absurd rfl hReset
  | vinOv millivolts => exact kept_execVinOv millivolts s
  | vinUv millivolts => exact kept_execVinUv millivolts s
  | vinBrownout millivolts => exact kept_execVinBrownout millivolts s
  | railFail step rail high => exact kept_execRailFail step rail high s
  | deckPwr d rail => exact kept_execDeckPwr d rail s
  | throttleTick watts => exact kept_execThrottleTick watts s
  | fastThrottleTrigger fellByMillivolts millivolts centiamps => exact kept_execFastThrottleTrigger fellByMillivolts millivolts centiamps s
  | fastThrottleDecay => exact kept_execFastThrottleDecay s
  | sensorReading sensor raw => exact kept_execSensorReading sensor raw s
  | refclkFail missing ppm => exact kept_execRefclkFail missing ppm s
  | wearCompute ro0 ro1 ro2 ro3 hbmPerDay eyeMui capEvents days => exact kept_execWearCompute ro0 ro1 ro2 ro3 hbmPerDay eyeMui capEvents days s
  | bootRomCheck ok addressPins => exact kept_execBootRomCheck ok addressPins s
  | signedBoot => exact kept_execSignedBoot s
  | keyStoreCheck ok => exact kept_execKeyStoreCheck ok s
  | powerUpBist failures => exact kept_execPowerUpBist failures s
  | measure => exact kept_execMeasure s
  | moduleReady => exact kept_execModuleReady s
  | secViol kind => exact kept_execSecViol kind s
  | serdesFail p lanes => exact kept_execSerdesFail p lanes s
  | vinRecovers _ => exact absurd rfl (hVin _)
  | ppsInTimeout => exact kept_execPpsInTimeout s
  | jtagAccess _ => exact absurd rfl (hJtag _)

/-! ### The register of the coordinates -/

/-- Before VALID is set, a write is taken whole: no field keeps an old value. -/
theorem regGet_coordWrite_of_not_valid {s : State} (h : regBits s (mgBase + 0x20) 31 31 ≠ 1) (v : Word) :
    regGet (coordWrite s v) (mgBase + 0x20) = v &&& 0x803FFFFF := by
  have hset : regGet (regSet s (mgBase + 0x20) (v &&& 0x803FFFFF)) (mgBase + 0x20) = v &&& 0x803FFFFF := by simp
  unfold coordWrite
  rw [if_neg h]
  dsimp only
  split
  · exact (regGet_same rfl rfl _).trans hset
  · exact hset

/-- Once VALID reads 1, a write is ignored. -/
theorem coordWrite_of_valid {s : State} (h : regBits s (mgBase + 0x20) 31 31 = 1) (v : Word) : coordWrite s v = s :=
  if_pos h

/-- The address of MG_COORD lies in the MG_ block. -/
theorem blockAt_coord : blockAt (mgBase + 0x20) = some (.mg, 0x20) := by decide

/-- A write at the offset of MG_COORD in the MG_ block is a write of the coordinates. -/
theorem mgWrite_coord (s : State) (v : Word) : mgWrite s 0x20 v = coordWrite s v := by
  unfold mgWrite
  exact if_pos rfl

/-- A register write at the address of MG_COORD is a write of the coordinates, whether it comes over the control window or SMBus. -/
theorem regWrite_coord (s : State) (smbus : Bool) (v : Word) : regWrite s smbus (mgBase + 0x20) v = coordWrite s v := by
  have aligned : ¬ (mgBase + 0x20) % 4 ≠ 0 := by decide
  unfold regWrite
  rw [if_neg aligned, blockAt_coord]
  exact mgWrite_coord s v

/-- SMBus index 8 names MG_COORD (R39). -/
theorem indexAddr_coord : indexAddr (8 : BitVec 16).toNat = mgBase + 0x20 := by decide

/-- With VALID = 1, a write of MG_COORD over SMBus leaves the state as it is, whatever its count and PEC. -/
theorem execSmbRegWrite_coord_of_valid {s : State} (h : regBits s (mgBase + 0x20) 31 31 = 1) (v : Word) (n : Nat) (p : Bool) :
    execSmbRegWrite 8 v n p s = .next s := by
  unfold execSmbRegWrite
  rw [indexAddr_coord, regWrite_coord, coordWrite_of_valid h, ite_self]

/-- Settles O59: every way of writing the register comes to `coordWrite`, which takes a write whole before VALID and ignores it after;
no other command touches the latched coordinates, by `exec_kept`. -/
theorem coordinatesAreTakenOnce : Obligations.CoordinatesAreTakenOnce := by
  unfold Obligations.CoordinatesAreTakenOnce
  intro s v
  refine ⟨fun h => ?_, fun h => ⟨?_, ?_, ?_⟩, fun h c hReset hOn hOff hVin hJtag => ?_⟩
  · exact ⟨coordWrite s v, rfl, regGet_coordWrite_of_not_valid (by omega) v⟩
  · exact congrArg _ (coordWrite_of_valid h v)
  · exact congrArg _ ((regWrite_coord s false v).trans (coordWrite_of_valid h v))
  · exact execSmbRegWrite_coord_of_valid h v
  · obtain ⟨t, ht, kept⟩ := exec_kept c s hReset hOn hOff hVin hJtag
    exact ⟨t, ht, kept.latched.coord h⟩

end Sys2Proof.Proofs
end

section
/-! A message that a check of R498 ends early: its REPLY is its only effect, and the landing that it leaves empty stays so (R495, R497, R498). -/

namespace Sys2Proof.Proofs

open Sys2Proof Sys2Proof.Machine Sys2Proof.Safety Sys2Proof.Laws

/-! ### What writing a record leaves of the landings -/

@[simp] theorem landOf_sendFrame (s : State) (p pcp : Nat) (o : Out) (j : Nat) : landOf (sendFrame s p pcp o) j = landOf s j := by
  unfold sendFrame
  split
  · exact landOf_setPort ..
  · exact landOf_send ..

@[simp] theorem landOf_sendOn (s : State) (n pcp : Nat) (m : Roce) (sailing : Bool) (j : Nat) :
    landOf (sendOn s n pcp m sailing) j = landOf s j := by
  unfold sendOn
  split
  · exact landOf_sendFrame ..
  · rfl

@[simp] theorem landOf_request (s : State) (n : Nat) (kind : ReqKind) (packets : Nat) (m : Roce) (sailing : Bool) (j : Nat) :
    landOf (request s n kind packets m sailing) j = landOf s j := by
  unfold request
  dsimp only
  split
  · exact (landOf_sendOn ..).trans (landOf_setConn ..)
  · exact landOf_setConn ..

/-- Replacing a landing by one with the same buffers leaves the buffers of every landing. -/
theorem bufs_setLand {s : State} {l : Nat} {x : LandingSt} (h : x.bufs = (landOf s l).bufs) (j : Nat) :
    (landOf (setLand s l x) j).bufs = (landOf s j).bufs := by
  rw [landOf_setLand]
  split
  case isTrue same => rw [h, same]
  case isFalse => rfl

@[simp] theorem bufs_writeRecord (s : State) (l : Nat) (r : Rec) (j : Nat) : (landOf (writeRecord s l r) j).bufs = (landOf s j).bufs := by
  have numbered (c : Nat) (k : ReqKind) (p : Nat) (w : Roce) :
      (landOf (request (setLand s l { landOf s l with dseq := (landOf s l).dseq + 1, lost := 0 }) c k p w) j).bufs = (landOf s j).bufs := by
    rw [landOf_request]
    exact bufs_setLand (by rfl) j
  unfold writeRecord
  dsimp only
  split
  · exact numbered ..
  · exact numbered ..

@[simp] theorem bufs_emit (s : State) (l : Nat) (r : Rec) (j : Nat) : (landOf (emit s l r) j).bufs = (landOf s j).bufs := by
  unfold emit
  dsimp only
  split
  · exact bufs_writeRecord ..
  · split
    · exact bufs_setLand (by rfl) j
    · exact bufs_setLand (by rfl) j

@[simp] theorem bufs_answer (s : State) (l : Nat) (h : Header) (status : Nat) (rest : List Byte) (j : Nat) :
    (landOf (answer s l h status rest) j).bufs = (landOf s j).bufs := bufs_emit ..

/-! ### A message taken from its landing -/

theorem landOf_popMsg_same (s : State) (l : Nat) : landOf (popMsg s l) l = { landOf s l with bufs := (landOf s l).bufs.drop 1 } := by
  simp [popMsg]

@[simp] theorem bufs_received (s : State) (l : Nat) (m : Msg) : (landOf (received s l m) l).bufs = (landOf s l).bufs.drop 1 := by
  unfold received
  split
  · rw [landOf_popMsg_same]
  · rw [landOf_setLand, if_pos rfl, landOf_popMsg_same]

@[simp] theorem berthOf_received (s : State) (l : Nat) (m : Msg) (b : Nat) : berthOf (received s l m) b = berthOf s b := by
  unfold received
  split <;> rfl

@[simp] theorem harbour_received (s : State) (l : Nat) (m : Msg) : harbour (received s l m) = harbour s := by
  unfold received
  split <;> rfl

/-! ### The handling of the one message of a landing -/

/-- A landing without messages has nothing to go on to. -/
theorem nextMsg_of_bufs_nil {s : State} {l : Nat} (h : (landOf s l).bufs = []) : nextMsg s l = s := by
  simp [nextMsg, clearFront, h]

/-- A message in sequence that a check of R498 ends is answered with its status, and `act` does not run. -/
theorem handle_of_earlyStatus {s : State} {l st : Nat} {m : Msg} (act : State → Header → State)
    (hSeq : seqStatus (landOf s l) (headerOf m.data) = none) (hEarly : earlyStatus (received s l m) l m.data = some st) :
    handle s l m.data act = answer (received s l m) l (headerOf m.data) st [] := by
  have popped : seqStatus (landOf (popMsg s l) l) (headerOf m.data) = none := by rwa [landOf_popMsg_same]
  rw [received] at hEarly ⊢
  simp [handle, popped, hEarly]

/-- The row of a message's type handles it where it is whole and at the front, and no LOAD_MANIFEST holds its landing. -/
theorem onMsg_of_front {s : State} {l type : Nat} {m : Msg} {rest : List Msg} (act : State → Msg → Header → State)
    (hBufs : (landOf s l).bufs = m :: rest) (hType : leAt m.data 0 1 = type) (hLen : 32 ≤ m.data.length) (hLoad : l = 16 → s.load = none) :
    onMsg s l type act = nextMsg (handle s l m.data (fun t h => act t m h)) l := by
  have free : (l == 16 && s.load.isSome) = false := by
    by_cases hl : l = 16
    · simp [hLoad hl]
    · simp [hl]
  simp [onMsg, hBufs, hType, hLen, free]

/-- The one message of a landing, in sequence, that a check of R498 ends: it is taken, and answered. -/
theorem onMsg_of_earlyStatus {s : State} {l type st : Nat} {m : Msg} (act : State → Msg → Header → State) (hBufs : (landOf s l).bufs = [m])
    (hType : leAt m.data 0 1 = type) (hLen : 32 ≤ m.data.length) (hLoad : l = 16 → s.load = none)
    (hSeq : seqStatus (landOf s l) (headerOf m.data) = none) (hEarly : earlyStatus (received s l m) l m.data = some st) :
    onMsg s l type act = answer (received s l m) l (headerOf m.data) st [] := by
  rw [onMsg_of_front act hBufs hType hLen hLoad, handle_of_earlyStatus _ hSeq hEarly]
  exact nextMsg_of_bufs_nil (by simp [hBufs])

/-! ### The state of the berth in the order of R498 -/

/-- What comes before the berth's state in R498 passes a message of types 1 to 5 that is well-formed and comes outside harbour state. -/
theorem earlyStatus_of_task_type {s : State} {l : Nat} {d : List Byte} (hBad : badMessage l d = false) (hHarbour : harbour s = false)
    (hType : 1 ≤ (headerOf d).type ∧ (headerOf d).type ≤ 5) :
    earlyStatus s l d =
      if (berthOf s ((headerOf d).berth % 16)).st = .undefined ∨ (berthOf s ((headerOf d).berth % 16)).st = .disabling ∨
        (berthOf s ((headerOf d).berth % 16)).st = .disabled then some 0x0B
      else if (berthOf s ((headerOf d).berth % 16)).st = .halted ∨ halted s then some 0x0C
      else none := by
  have served : ¬ (l ≠ 16 ∧ 7 ≤ (headerOf d).type) := by omega
  simp only [earlyStatus, hBad, hHarbour, if_neg served, if_pos hType, Bool.false_and, Bool.false_eq_true, if_false]

/-- A message of types 1 to 5 for a disabling or disabled berth is answered DISABLED. -/
theorem earlyStatus_of_disabled {s : State} {l : Nat} {d : List Byte} (hBad : badMessage l d = false) (hHarbour : harbour s = false)
    (hType : 1 ≤ (headerOf d).type ∧ (headerOf d).type ≤ 5)
    (hSt : (berthOf s ((headerOf d).berth % 16)).st = .disabling ∨ (berthOf s ((headerOf d).berth % 16)).st = .disabled) :
    earlyStatus s l d = some 0x0B := by
  rw [earlyStatus_of_task_type hBad hHarbour hType, if_pos (.inr hSt)]

/-- A message of types 1 to 5 for a halted berth is answered HALTED. -/
theorem earlyStatus_of_halted {s : State} {l : Nat} {d : List Byte} (hBad : badMessage l d = false) (hHarbour : harbour s = false)
    (hType : 1 ≤ (headerOf d).type ∧ (headerOf d).type ≤ 5) (hSt : (berthOf s ((headerOf d).berth % 16)).st = .halted) :
    earlyStatus s l d = some 0x0C := by
  rw [earlyStatus_of_task_type hBad hHarbour hType, if_neg (by simp [hSt]), if_pos (.inl hSt)]

/-! ### DISABLE_BERTH of a berth that is disabled or halted -/

/-- Settles O44: taking the message leaves the berth's state as it was, so R498 ends it with the status of that state. -/
theorem disabledBerthRefusesDisable : Obligations.DisabledBerthRefusesDisable := by
  unfold Obligations.DisabledBerthRefusesDisable
  intro s l m b hb hBufs hLen hType hLoad hSeq hBad hHarbour
  subst hb
  have answered {st : Nat} (hEarly : earlyStatus (received s l m) l m.data = some st) : Answers s (.disableBerth l) l m st :=
    congrArg _ (onMsg_of_earlyStatus (doDisable l.val) hBufs hType hLen hLoad hSeq hEarly)
  have outside : harbour (received s l m) = false := (harbour_received s l m).trans hHarbour
  have taskType : 1 ≤ (headerOf m.data).type ∧ (headerOf m.data).type ≤ 5 := by
    have type5 : (headerOf m.data).type = 5 := hType
    omega
  refine ⟨fun hSt => answered ?_, fun hSt => answered ?_⟩
  · exact earlyStatus_of_disabled hBad outside taskType (by rwa [berthOf_received])
  · exact earlyStatus_of_halted hBad outside taskType (by rwa [berthOf_received])

end Sys2Proof.Proofs
end

section
/-! The class of a fault source: what FC_SEV_n reads, and the sources whose class may only be raised (R529, R530). -/

namespace Sys2Proof.Proofs

open Sys2Proof Sys2Proof.Machine Sys2Proof.Safety Sys2Proof.Laws

/-! ### The table of sources (R544) -/

/-- No default class is above LOCK. -/
theorem faultDefault_le_lock {n d : Nat} (h : faultDefault n = some d) : d ≤ 5 := by
  unfold faultDefault at h
  repeat' split at h
  all_goals cases h
  all_goals decide

/-- The sources whose default class is LOCK. -/
theorem mem_of_faultDefault_lock {n : Nat} (h : faultDefault n = some 5) : n ∈ [0x72, 0x73, 0x80] := by
  unfold faultDefault at h
  repeat' split at h
  all_goals cases h
  next lock => exact List.contains_iff_mem.mp lock

/-- The security unit's sources may only be raised. -/
theorem faultRaiseOnly_of_security {n : Nat} (h : 0x70 ≤ n ∧ n ≤ 0x74) : faultRaiseOnly n = true := by
  obtain ⟨low, high⟩ := h
  apply List.contains_iff_mem.mpr
  simp only [List.mem_cons, List.not_mem_nil, or_false]
  omega

/-- The sources of class LOCK may only be raised. -/
theorem faultRaiseOnly_of_lock {n : Nat} (h : faultDefault n = some 5) : faultRaiseOnly n = true := by
  have lock := mem_of_faultDefault_lock h
  apply List.contains_iff_mem.mpr
  simp only [List.mem_cons, List.not_mem_nil, or_false] at lock ⊢
  omega

/-! ### Where FC_SEV_n is reached -/

/-- FC_SEV_n is a register of four bytes. -/
theorem fcSevAddr_mod_four (n : Nat) : fcSevAddr n % 4 = 0 := by
  simp only [fcSevAddr, fcBase]
  omega

/-- FC_SEV_n lies in the FC_ block. -/
theorem blockAt_fcSevAddr {n : Nat} (h : n < 256) : blockAt (fcSevAddr n) = some (.fc, 0x400 + 4 * n) := by
  have notMg : ¬ (mgBase ≤ fcSevAddr n ∧ fcSevAddr n < fcBase) := by
    simp only [fcSevAddr, fcBase]
    omega
  have inFc : fcBase ≤ fcSevAddr n ∧ fcSevAddr n < ttBase := by
    simp only [fcSevAddr, fcBase, ttBase]
    omega
  have offset : fcSevAddr n - fcBase = 0x400 + 4 * n := by
    simp only [fcSevAddr]
    omega
  rw [blockAt, if_neg notMg, if_pos inFc, offset]

/-- The SMBus index of FC_SEV_n (R39). -/
theorem indexAddr_sev {n : Nat} (h : n < 256) : indexAddr (BitVec.ofNat 16 (0x4100 + n)).toNat = fcSevAddr n := by
  have index : (BitVec.ofNat 16 (0x4100 + n)).toNat = 0x4100 + n := by
    rw [BitVec.toNat_ofNat]
    omega
  have block : bits (0x4100 + n) 15 14 = 1 := by
    simp only [bits, Nat.shiftRight_eq_div_pow]
    omega
  have word : bits (0x4100 + n) 13 0 = 0x100 + n := by
    simp only [bits, Nat.shiftRight_eq_div_pow]
    omega
  rw [indexAddr, index, block, word]
  simp only [nth, fcSevAddr, List.getD_cons_succ, List.getD_cons_zero]
  omega

/-! ### Reading and writing FC_SEV_n -/

/-- A read at the address of FC_SEV_n reads the source's severity register. -/
theorem regValue_sev (s : State) {n : Nat} (h : n < 256) : regValue s (fcSevAddr n) = BitVec.ofNat 32 (fcSev s n) := by
  have offset : fcValue s (0x400 + 4 * n) = fcSev s n := by
    have source : (0x400 + 4 * n - 0x400) / 4 = n := by omega
    unfold fcValue
    rw [if_neg (by omega), if_neg (by omega), if_neg (by omega), if_neg (by omega), if_pos (by omega), source]
  unfold regValue
  rw [if_neg (not_not_intro (fcSevAddr_mod_four n)), blockAt_fcSevAddr h]
  exact congrArg _ offset

/-- A write at the address of FC_SEV_n is a write of the source's class, whether it comes over the control window or SMBus. -/
theorem regWrite_sev (s : State) (smbus : Bool) {n : Nat} (v : Word) (h : n < 256) :
    regWrite s smbus (fcSevAddr n) v = sevWrite s n v := by
  have offset : fcWrite s (0x400 + 4 * n) v = sevWrite s n v := by
    have source : (0x400 + 4 * n - 0x400) / 4 = n := by omega
    unfold fcWrite
    rw [if_neg (by omega), if_neg (by omega), if_neg (by omega), if_neg (by omega), if_pos (by omega), source]
  unfold regWrite
  rw [if_neg (not_not_intro (fcSevAddr_mod_four n)), blockAt_fcSevAddr h]
  exact offset

/-- Bit 7 of FC_SEV_n is RAISE_ONLY: the class and the default below it do not reach that bit. -/
theorem bit_seven_fcSev (s : State) {n d : Nat} (hDefault : faultDefault n = some d) (hRaise : faultRaiseOnly n = true) :
    bit (fcSev s n) 7 = true := by
  have classBelow : faultClass s n < 8 := Nat.mod_lt _ (by decide)
  have defaultBelow : d ≤ 5 := faultDefault_le_lock hDefault
  have fields : fcSev s n = 2 ^ 7 + (faultClass s n + d * 16) := by
    simp only [fcSev, hDefault, hRaise, flagAt, if_true]
    omega
  have clear : (faultClass s n + d * 16).testBit 7 = false := Nat.testBit_lt_two_pow (by omega)
  rw [bit, fields, Nat.testBit_two_pow_add_eq, clear, Bool.not_false]

/-- A class below the default is not taken by a source that may only be raised. -/
theorem sevWrite_of_lowered (s : State) {n d : Nat} {v : Word} (hDefault : faultDefault n = some d) (hRaise : faultRaiseOnly n = true)
    (hLow : bits v.toNat 2 0 < d) : sevWrite s n v = s := by
  simp only [sevWrite, hDefault]
  exact if_pos (.inr ⟨hRaise, hLow⟩)

/-- Settles O38: the sources named are raise-only by the table, bit 7 of FC_SEV_n shows it, and a write that lowers such a source by
either way comes to `sevWrite`, which ignores it. -/
theorem lockedSourcesAreOnlyRaised : Obligations.LockedSourcesAreOnlyRaised := by
  unfold Obligations.LockedSourcesAreOnlyRaised
  intro s n d v hn hSource hDefault
  have raiseOnly : faultRaiseOnly n = true := by
    rcases hSource with security | rfl
    · exact faultRaiseOnly_of_security security
    · exact faultRaiseOnly_of_lock hDefault
  refine ⟨?_, fun hLow => ?_⟩
  · have below : 7 < 32 := by decide
    rw [regValue_sev s hn, bit, BitVec.toNat_ofNat, Nat.testBit_mod_two_pow, decide_eq_true below, Bool.true_and]
    exact bit_seven_fcSev s hDefault raiseOnly
  · have ignored (smbus : Bool) : regWrite s smbus (fcSevAddr n) v = s :=
      (regWrite_sev s smbus v hn).trans (sevWrite_of_lowered s hDefault raiseOnly hLow)
    refine ⟨congrArg _ (ignored false), fun k p => ?_⟩
    change execSmbRegWrite _ v k p s = .next s
    rw [execSmbRegWrite, indexAddr_sev hn, ignored, ite_self]

end Sys2Proof.Proofs
end

section
/-! What every command and every step keeps, gathered over the commands; the round trip of a Fairhel command word (R267-R311). -/

namespace Sys2Proof.Proofs

open Sys2Proof Sys2Proof.Machine Sys2Proof.Safety Sys2Proof.Laws

/-! ### Every command and every step -/

/-- What a command other than the resets leaves is part of what it keeps. -/
theorem always_of_kept {c : Instr} {s : State} (h : ∃ t, exec c s = .next t ∧ Kept s t) : ∃ t, exec c s = .next t ∧ Always s t :=
  h.imp fun _ k => ⟨k.1, k.2.always⟩

/-- Settles O56: the five commands that undo latches have lemmas of their own, every other command is covered by `exec_kept`. -/
theorem everyCommandAnswersAndKeeps : Obligations.EveryCommandAnswersAndKeeps := by
  unfold Obligations.EveryCommandAnswersAndKeeps
  intro c s
  cases c
  case resetNAssert => exact always_execResetNAssert s
  case pwrEnAssert v => exact always_execPwrEnAssert v s
  case pwrEnDeassert v => exact always_execPwrEnDeassert v s
  case vinRecovers v => exact always_execVinRecovers v s
  case jtagAccess o => exact always_execJtagAccess o s
  all_goals exact always_of_kept (exec_kept _ s (by simp) (by simp) (by simp) (by simp) (by simp))

/-- A nanosecond of idling keeps the memories in canonical form and the names fresh. -/
theorem idle_kept_invariant {s : State} (hMem : MemWf s) (hNames : NamesFresh s) :
    MemWf (idle s) ∧ NamesFresh (idle s) ∧ (idle s).pending = s.pending := by
  have always := (kept_fabricTick { s with time := timeTick s.time } (Kept.refl _)).always
  exact ⟨always.mem ⟨hMem.hbm, hMem.cmdMem, hMem.slot0, hMem.slot1⟩, always.names hNames, always.pending⟩

/-- Settles O57: a step is its front command on the rest of the queue, for which O56 speaks, or a nanosecond of idling. -/
theorem everyStepKeepsTheInvariant : Obligations.EveryStepKeepsTheInvariant := by
  unfold Obligations.EveryStepKeepsTheInvariant
  intro s hMem hNames
  cases hPending : s.pending with
  | nil =>
    obtain ⟨mem, names, pending⟩ := idle_kept_invariant hMem hNames
    exact ⟨idle s, by simp [step, hPending], mem, names, pending.trans hPending⟩
  | cons c rest =>
    obtain ⟨t, ht, always⟩ := everyCommandAnswersAndKeeps c { s with pending := rest }
    have mem : MemWf { s with pending := rest } := ⟨hMem.hbm, hMem.cmdMem, hMem.slot0, hMem.slot1⟩
    exact ⟨t, by simp [step, hPending, ht], always.mem mem, always.names hNames, always.pending⟩

/-- Settles O58: the latches are part of what `exec_kept` says of every command but the five named. -/
theorem onlyResetsUndoTheLatches : Obligations.OnlyResetsUndoTheLatches := by
  unfold Obligations.OnlyResetsUndoTheLatches
  intro c s hReset hOn hOff hVin hJtag
  obtain ⟨t, ht, kept⟩ := exec_kept c s hReset hOn hOff hVin hJtag
  exact ⟨t, ht, kept.latched⟩

/-! ### The fields of a command word -/

/-- A field and what lies below it. -/
theorem mod_eq_place_bits_add (n : Nat) {hi lo : Nat} (h : lo ≤ hi) :
    n % 2 ^ (hi + 1) = place (bits n hi lo) hi lo + n % 2 ^ lo := by
  have split : 2 ^ (hi + 1) = 2 ^ lo * 2 ^ (hi + 1 - lo) := by
    rw [← Nat.pow_add, Nat.add_sub_cancel' (by omega)]
  rw [place, bits, Nat.shiftRight_eq_div_pow, Nat.mod_mod, split, Nat.mod_mul, Nat.add_comm, Nat.mul_comm]

/-- A flag is a field of one bit. -/
theorem flagAt_bit (n k : Nat) : flagAt (bit n k) k = place (bits n k k) k k := by
  have one : k + 1 - k = 1 := by omega
  rw [flagAt, bit, place, bits, one, Nat.shiftRight_eq_div_pow, Nat.testBit_eq_decide_div_mod_eq]
  rcases Nat.mod_two_eq_zero_or_one (n / 2 ^ k) with h | h <;> simp [h]

/-- Two's complement of a signed 32-bit field is the field. -/
theorem unsigned_signed (v : Nat) : unsigned 32 (signed 32 v) = v % 2 ^ 32 := by
  unfold unsigned signed
  split <;> omega

/-- Whether ranges, highest first, cover the bits below `top` without gap or overlap. -/
def tiles : Nat → List (Nat × Nat) → Bool
  | top, [] => top == 0
  | top, (hi, lo) :: rest => hi + 1 == top && decide (lo ≤ hi) && tiles lo rest

/-- The bits of `n` in some ranges, each at its place. -/
def fieldSum (n : Nat) : List (Nat × Nat) → Nat
  | [] => 0
  | (hi, lo) :: rest => place (bits n hi lo) hi lo + fieldSum n rest

/-- Ranges that cover the bits below `top` hold all of them. -/
theorem mod_eq_fieldSum (n : Nat) : ∀ (l : List (Nat × Nat)) {top : Nat}, tiles top l = true → n % 2 ^ top = fieldSum n l
  | [], top, h => by
    have : top = 0 := by simpa [tiles] using h
    simp [this, fieldSum, Nat.mod_one]
  | (hi, lo) :: rest, top, h => by
    simp only [tiles, Bool.and_eq_true, beq_iff_eq, decide_eq_true_eq] at h
    obtain ⟨⟨rfl, le⟩, below⟩ := h
    rw [mod_eq_place_bits_add n le, mod_eq_fieldSum n rest below, fieldSum]

/-- The operands and reserved ranges of an opcode, highest first (R282-R311). -/
def operandLayout (op form : Nat) : List (Nat × Nat) :=
  match op with
  | 0x01 => [(207, 204), (203, 203), (202, 202), (201, 200), (199, 64), (63, 52), (51, 32), (31, 24), (23, 0)]
  | 0x02 | 0x03 => [(207, 204), (203, 200), (199, 199), (198, 198), (197, 197), (196, 0)]
  | 0x04 => [(207, 204), (203, 203), (202, 201), (200, 197), (196, 196), (195, 195), (194, 193), (192, 192), (191, 144),
      (143, 112), (111, 80), (79, 48), (47, 6), (5, 0)]
  | 0x05 => [(207, 207), (206, 0)]
  | 0x08 => [(207, 196), (195, 195), (194, 192), (191, 176), (175, 0)]
  | 0x09 | 0x0A => [(207, 206), (205, 32), (31, 0)]
  | 0x0B => [(207, 206), (205, 203), (202, 200), (199, 198), (197, 196), (195, 184), (183, 32), (31, 0)]
  | 0x10 => [(207, 204), (203, 200), (199, 198), (197, 196), (195, 195), (194, 193), (192, 192), (191, 188), (187, 187),
      (186, 186), (185, 182), (181, 32), (31, 0)]
  | 0x11 | 0x12 => [(207, 204), (203, 203), (202, 192), (191, 156), (155, 0)]
  | 0x14 => [(207, 206), (205, 202), (201, 196), (195, 194), (193, 193), (192, 192), (191, 188), (187, 184), (183, 180),
      (179, 176), (175, 172), (171, 168), (167, 164), (163, 163), (162, 162), (161, 160), (159, 148), (147, 144), (143, 140), (139, 0)]
  | 0x15 => [(207, 196), (195, 192), (191, 188), (187, 172), (171, 164), (163, 163), (162, 159), (158, 143), (142, 0)]
  | 0x16 => [(207, 204), (203, 203), (202, 202), (201, 64), (63, 0)]
  | 0x20 => if form = 1 then [(207, 206), (205, 200), (199, 182), (181, 163), (162, 0)]
    else [(207, 206), (205, 204), (203, 200), (199, 180), (179, 138), (137, 0)]
  | 0x21 | 0x22 => [(207, 206), (205, 204), (203, 200), (199, 180), (179, 138), (137, 0)]
  | 0x28 => [(207, 204), (203, 201), (200, 200), (199, 199), (198, 198), (197, 190), (189, 142), (141, 94), (93, 52), (51, 20), (19, 0)]
  | 0x29 => [(207, 206), (205, 198), (197, 190), (189, 182), (181, 32), (31, 0)]
  | 0x2A => [(207, 195), (194, 194), (193, 193), (192, 145), (144, 81), (80, 49), (48, 17), (16, 0)]
  | 0x2B => [(207, 64), (63, 0)]
  | _ => [(207, 0)]

/-- The layout of every opcode covers the operand bits. -/
theorem tiles_operandLayout (op form : Nat) : tiles 208 (operandLayout op form) = true := by
  unfold operandLayout
  split
  case h_16 => split <;> decide
  all_goals decide

/-- The opcodes that are implemented; the first is the one whose layout depends on its FORM. -/
theorem opKnown_cases {op : Nat} (h : opKnown op = true) :
    op = 0x20 ∨ op = 0x00 ∨ op = 0x01 ∨ op = 0x02 ∨ op = 0x03 ∨ op = 0x04 ∨ op = 0x05 ∨ op = 0x06 ∨ op = 0x08 ∨ op = 0x09 ∨ op = 0x0A ∨ op = 0x0B ∨
    op = 0x10 ∨ op = 0x11 ∨ op = 0x12 ∨ op = 0x14 ∨ op = 0x15 ∨ op = 0x16 ∨ op = 0x21 ∨ op = 0x22 ∨ op = 0x28 ∨ op = 0x29 ∨
    op = 0x2A ∨ op = 0x2B ∨ op = 0x3F := by
  simp only [opKnown, List.contains_eq_mem, List.mem_cons, List.not_mem_nil, or_false, decide_eq_true_eq] at h
  by_cases swap : op = 0x20
  · exact .inl swap
  · simp only [swap, false_or] at h ⊢
    exact h

/-- The operands of a word of an implemented opcode whose reserved bits are zero carry all its operand bits, and its opcode. -/
theorem operandBits_opOf {w : BitVec 256} (hKnown : opKnown (opcodeOf w) = true) (hZero : reservedZero w = true) :
    opcodeFor (opOf w) = opcodeOf w ∧
    operandBits (opOf w) = fieldSum w.toNat (operandLayout (opcodeOf w) (bits w.toNat 207 206)) := by
  rcases opKnown_cases hKnown with h | h | h | h | h | h | h | h | h | h | h | h | h | h | h | h | h | h | h | h | h | h | h | h | h
  case inl =>
    by_cases form : bits w.toNat 207 206 = 1
    all_goals
      simp only [reservedZero, h, form, reservedRanges, if_true, if_false, List.all_cons, List.all_nil, Bool.and_true, Bool.and_eq_true, beq_iff_eq] at hZero
      rw [opcodeOf] at h
      simp [opOf, opcodeOf, h, form, opcodeFor, operandBits, operandLayout, fieldSum, hZero, place, Nat.add_assoc]
  all_goals
    simp only [reservedZero, h, reservedRanges, List.all_cons, List.all_nil, Bool.and_true, Bool.and_eq_true, beq_iff_eq] at hZero
    rw [opcodeOf] at h
    simp [opOf, opcodeOf, h, opcodeFor, operandBits, operandLayout, fieldSum, hZero, flagAt_bit, unsigned_signed, place, Nat.add_assoc]

/-- A word is the encoding of what it decodes to: its fields, its reserved bits being zero, hold all its 256 bits. -/
theorem encodeFairhel_headOf_opOf {w : BitVec 256} (hKnown : opKnown (opcodeOf w) = true) (hGap : bits w.toNat 211 208 = 0)
    (hZero : reservedZero w = true) : encodeFairhel (headOf w) (opOf w) = w := by
  obtain ⟨opcode, operands⟩ := operandBits_opOf hKnown hZero
  rw [← mod_eq_fieldSum _ _ (tiles_operandLayout _ _)] at operands
  have whole : w.toNat = w.toNat % 2 ^ 256 := (Nat.mod_eq_of_lt w.isLt).symm
  have gap : place (bits w.toNat 211 208) 211 208 = 0 := by simp [hGap, place]
  apply BitVec.eq_of_toNat_eq
  rw [encodeFairhel, BitVec.toNat_ofNat, opcode, operands, opcodeOf, headOf]
  have sum := calc w.toNat
      _ = w.toNat % 2 ^ 256 := whole
      _ = _ := mod_eq_place_bits_add w.toNat (hi := 255) (lo := 248) (by decide)
  have pred := mod_eq_place_bits_add w.toNat (hi := 247) (lo := 244) (by decide)
  have wflag := mod_eq_place_bits_add w.toNat (hi := 243) (lo := 232) (by decide)
  have wval := mod_eq_place_bits_add w.toNat (hi := 231) (lo := 224) (by decide)
  have sflag := mod_eq_place_bits_add w.toNat (hi := 223) (lo := 212) (by decide)
  have reserved := mod_eq_place_bits_add w.toNat (hi := 211) (lo := 208) (by decide)
  rw [pred, wflag, wval, sflag, reserved, gap, Nat.zero_add] at sum
  simp only [Nat.add_assoc] at sum ⊢
  rw [← sum, Nat.mod_eq_of_lt w.isLt]

/-- Settles O60: the layouts of the opcodes cover every operand bit; an opcode without a layout decodes as reserved. -/
theorem fairhelWordsRoundTrip : Obligations.FairhelWordsRoundTrip := by
  unfold Obligations.FairhelWordsRoundTrip
  refine fun w => ⟨encodeFairhel_headOf_opOf, fun hUnknown => ?_⟩
  have unknown : ∀ op, opKnown op = true → bits w.toNat 255 248 ≠ op := by
    rintro op known rfl
    rw [opcodeOf, known] at hUnknown
    exact Bool.noConfusion hUnknown
  unfold opOf
  dsimp only
  split
  case h_26 => rfl
  all_goals
    rename_i op
    exact absurd op (unknown _ (by decide))

end Sys2Proof.Proofs
end

section
/-! The control core: commands in their context, fetching, queue control, and how heads leave their queues (R238-R286). -/

namespace Sys2Proof.Proofs

open Sys2Proof Sys2Proof.Machine Sys2Proof.Safety Sys2Proof.Laws

/-! ### A step -/

/-- Settles O1, by the definition of `step` on a queue that is not empty. -/
theorem stepRunsFrontCommand : Obligations.StepRunsFrontCommand := by
  unfold Obligations.StepRunsFrontCommand
  intro c rest s
  rfl

/-! ### The control core's turn -/

@[simp] theorem ctxOf_passTurn (s : State) (q c i j : Nat) : ctxOf (passTurn s q c) i j = ctxOf s i j := by
  unfold passTurn ctxOf
  rw [quayOf_setQuay]
  split
  case isTrue same => rw [← same]
  case isFalse => rfl

/-- The first of `n` numbers in some order that passes a test. -/
theorem find?_map_range_eq_some {α : Type} {p : α → Bool} {f : Nat → α} {n : Nat} {a : α} :
    ((List.range n).map f).find? p = some a ↔ ∃ i, i < n ∧ f i = a ∧ p a = true ∧ ∀ j, j < i → p (f j) = false := by
  rw [List.find?_map, Option.map_eq_some_iff]
  constructor
  · rintro ⟨i, found, rfl⟩
    obtain ⟨passes, member, first⟩ := List.find?_range_eq_some.mp found
    exact ⟨i, List.mem_range.mp member, rfl, passes, fun j hj => by simpa using first j hj⟩
  · rintro ⟨i, below, rfl, passes, first⟩
    exact ⟨i, List.find?_range_eq_some.mpr ⟨passes, List.mem_range.mpr below, fun j hj => by simp [first j hj]⟩, rfl⟩

/-- The turn is that of the first ready context in round-robin order (R242). -/
theorem ctxTurn_iff (s : State) (q c : Nat) :
    ctxTurn s q c = true ↔ ctxReady s q c = true ∧ ∃ i, i < 18 ∧ ((quayOf s q).nextCtx + i) % 18 = c ∧
      ∀ j, j < i → ctxReady s q (((quayOf s q).nextCtx + j) % 18) = false := by
  rw [ctxTurn, beq_iff_eq, find?_map_range_eq_some]
  constructor
  · rintro ⟨i, below, at_, ready, first⟩
    exact ⟨ready, i, below, at_, first⟩
  · rintro ⟨ready, i, below, at_, first⟩
    exact ⟨i, below, at_, ready, first⟩

/-! ### Commands that execute in their context (R259, R282, R283) -/

/-- The opcode of a command word is that of its operands. -/
theorem opcodeFor_opOf (w : BitVec 256) : opcodeFor (opOf w) = opcodeOf w := by
  unfold opOf opcodeOf
  dsimp only
  split
  case h_18 h =>
    rw [h]
    split <;> rfl
  case h_26 => rfl
  all_goals
    rename_i h
    rw [h]
    rfl

/-- A command executed in its context changes the context as `ctxEffect` says, and its SFLAG rises. -/
theorem ranInContext_runInCtx (s : State) (q c b : Nat) (w : BitVec 256) :
    RanInContext s (runInCtx (passTurn s q c) q c b w) q c b w (ctxEffect s q b (ctxOf s q c) (opOf w)) := by
  have same : ctxEffect (passTurn s q c) q b (ctxOf s q c) (opOf w) = ctxEffect s q b (ctxOf s q c) (opOf w) := rfl
  unfold runInCtx
  dsimp only
  rw [ctxOf_passTurn, same]
  generalize hy : ({ ctxEffect s q b (ctxOf s q c) (opOf w) with held := none, stall := .none } : Ctx) = y
  have added : Added _ (sflagUp (setCtx (passTurn s q c) q c y) q c b w) := added_flagAdd ..
  have here : ctxOf (setCtx (passTurn s q c) q c y) q c = y := ctxOf_setCtx_self ..
  refine ⟨OnlyFlags.trans (t := setCtx (passTurn s q c) q c y) rfl added.only,
    SflagDone.of_flags (sflagDone _ q c b w) (fun _ => rfl) rfl (fun j => by cases j <;> rfl), ?_, ?_, ?_⟩
  · have kept := added.ctxs q c
    rw [here] at kept
    subst hy
    exact kept
  · exact added.held q c (by rw [here, ← hy])
  · intro q' c' other
    have := added.ctxs q' c'
    rwa [ctxOf_setCtx_ne _ _ _ _ _ _ other, ctxOf_passTurn] at this

/-- A held command whose wait has succeeded executes in its turn. -/
theorem runHeld_of_ready {s : State} {q c b op : Nat} {m : QCmd} (h : HeldReady s q c b m) (hOp : opcodeOf m.word = op)
    (hIn : inContext op = true) : runHeld s q c op = runInCtx (passTurn s q c) q c b m.word := by
  obtain ⟨berth, held, -, -, -, turn⟩ := h
  simp [runHeld, berth, held, hOp, hIn, turn]

/-- Settles O3: each of the four is `runInCtx` with its own effect on the context. -/
theorem contextCommandsExecute : Obligations.ContextCommandsExecute := by
  unfold Obligations.ContextCommandsExecute
  intro s q c b m ready
  have runs (o : FOp) (hOp : opOf m.word = o) (hIn : inContext (opcodeFor o) = true) :
      RanInContext s (runHeld s q c (opcodeFor o)) q c b m.word (ctxEffect s q b (ctxOf s q c) o) := by
    rw [runHeld_of_ready ready (by rw [← hOp, opcodeFor_opOf]) hIn, ← hOp]
    exact ranInContext_runInCtx s q c b m.word
  exact ⟨fun h => ⟨_, rfl, runs _ h rfl⟩, fun i v h => ⟨_, rfl, runs _ h rfl⟩, fun i v h => ⟨_, rfl, runs _ h rfl⟩,
    fun i n cond src j f v h => ⟨_, rfl, runs _ h rfl⟩⟩

/-! ### What leaves quays alone -/

/-- In-use counts stand in the decks alone. -/
theorem inuseStep_only (up : Bool) (s : State) (u : Nat × Nat) : inuseStep up s u = { s with decks := (inuseStep up s u).decks } := rfl

theorem inuse_only (up : Bool) (uses : List (Nat × Nat)) (s : State) :
    uses.foldl (inuseStep up) s = { s with decks := (uses.foldl (inuseStep up) s).decks } := by
  induction uses generalizing s with
  | nil => rfl
  | cons u r ih => exact (ih (inuseStep up s u)).trans (by rw [List.foldl_cons, inuseStep_only])

theorem inuseUp_only (s : State) (uses : List (Nat × Nat)) : inuseUp s uses = { s with decks := (inuseUp s uses).decks } :=
  inuse_only true uses s

theorem inuseDown_only (s : State) (uses : List (Nat × Nat)) : inuseDown s uses = { s with decks := (inuseDown s uses).decks } :=
  inuse_only false uses s

@[simp] theorem ctxOf_inuseDown (s : State) (uses : List (Nat × Nat)) (q c : Nat) : ctxOf (inuseDown s uses) q c = ctxOf s q c := by
  rw [inuseDown_only]
  rfl

theorem takeCursors_only (s : State) (d n : Nat) (t : TileReg) (e : Extent) (z : Bool) :
    (takeCursors s d n t e z).1 = { s with decks := (takeCursors s d n t e z).1.decks } := by
  unfold takeCursors
  split <;> rfl

theorem takeElement_only (s : State) (d n : Nat) : (takeElement s d n).1 = { s with decks := (takeElement s d n).1.decks } := by
  unfold takeElement
  split <;> rfl

/-- The cursors that a command takes at its issue stand in its deck. -/
theorem takeAtIssue_only (s : State) (q c b : Nat) (w : BitVec 256) :
    (takeAtIssue s q c b w).1 = { s with decks := (takeAtIssue s q c b w).1.decks } := by
  unfold takeAtIssue
  dsimp only
  split
  · exact takeCursors_only ..
  · exact takeCursors_only ..
  · split
    · split
      · rfl
      · split
        · exact takeElement_only ..
        · exact takeCursors_only ..
    · rfl
  · rfl

/-! ### The round-robin pointer of a quay -/

/-- Only the turn of a context moves the pointer: replacing a context leaves it. -/
@[simp] theorem nextCtx_setCtx (s : State) (q c : Nat) (x : Ctx) (i : Nat) :
    (quayOf (setCtx s q c x) i).nextCtx = (quayOf s i).nextCtx := by
  unfold setCtx
  dsimp only
  rw [quayOf_setQuay]
  split
  case isTrue same => rw [← same]
  case isFalse => rfl

theorem nextCtx_flagPut (s : State) (k : FlagKey) (v i : Nat) : (quayOf (flagPut s k v) i).nextCtx = (quayOf s i).nextCtx := by
  unfold quayOf
  rw [flagPut_quays]

theorem nextCtx_waitSucceeds (s : State) (q c : Nat) (h : Bool) (i : Nat) :
    (quayOf (waitSucceeds s q c h) i).nextCtx = (quayOf s i).nextCtx := by
  unfold waitSucceeds
  dsimp only
  split <;> split
  · exact nextCtx_setCtx ..
  · rfl
  · exact nextCtx_setCtx ..
  · rfl

theorem nextCtx_testList (k : FlagKey) (l : List Wait) (i : Nat) : ∀ s : State,
    (quayOf (testList s k l).1 i).nextCtx = (quayOf s i).nextCtx := by
  induction l with
  | nil => exact fun _ => rfl
  | cons w r ih =>
    intro s
    unfold testList
    split
    · rw [ih, nextCtx_waitSucceeds, nextCtx_flagPut]
    · exact ih s

theorem nextCtx_waitBegin (s : State) (q c b : Nat) (h : Bool) (w : BitVec 256) (i : Nat) :
    (quayOf (waitBegin s q c b h w) i).nextCtx = (quayOf s i).nextCtx := by
  unfold waitBegin
  dsimp only
  split
  · exact nextCtx_waitSucceeds ..
  · split
    · exact nextCtx_waitSucceeds ..
    · split
      · exact (nextCtx_testList ..).trans ((nextCtx_waitSucceeds ..).trans (nextCtx_flagPut ..))
      · rfl

theorem nextCtx_headBegin (s : State) (q c i : Nat) : (quayOf (headBegin s q c) i).nextCtx = (quayOf s i).nextCtx := by
  unfold headBegin
  dsimp only
  split
  · split
    · rfl
    · rw [nextCtx_waitBegin, nextCtx_setCtx]
  · rfl

/-! ### Pushing a command (R243-R245) -/

/-- A command that is pushed joins the queue of its context, which keeps its program counter; END closes the context. -/
theorem pushCmd_ctx (s : State) (q c b : Nat) (w : BitVec 256) (slot : Nat) :
    (ctxOf (pushCmd s q c b w slot) q c).pc = (ctxOf s q c).pc ∧
    (ctxOf (pushCmd s q c b w slot) q c).queue.map (·.word) = (ctxOf s q c).queue.map (·.word) ++ [w] ∧
    (ctxOf (pushCmd s q c b w slot) q c).mode = (if opcodeOf w = 0x3F then .endQueued else (ctxOf s q c).mode) ∧
    (quayOf (pushCmd s q c b w slot) q).nextCtx = (quayOf s q).nextCtx := by
  unfold pushCmd
  dsimp only
  generalize hp : takeAtIssue (inuseUp (freshId s).2 (namedRegs s q c b w)) q c b w = p
  have quays : p.1.quays = s.quays := by rw [← hp, takeAtIssue_only, inuseUp_only]; rfl
  have ctx : ctxOf p.1 q c = ctxOf s q c := by unfold ctxOf quayOf; rw [quays]
  have pointer : (quayOf p.1 q).nextCtx = (quayOf s q).nextCtx := by unfold quayOf; rw [quays]
  rw [ctx]
  generalize hx : ({ ctxOf s q c with
    queue := (ctxOf s q c).queue ++ [{ word := w, slot := slot, uses := namedRegs s q c b w, curs := p.2, seq := (freshId s).1 }], held := none, stall := .none,
    timer := {}, mode := if opcodeOf w = 0x3F then .endQueued else (ctxOf s q c).mode } : Ctx) = x
  obtain ⟨same, words⟩ := (headBegin_only (setCtx p.1 q c x) q c).2 q c
  rw [ctxOf_setCtx_self] at same words
  refine ⟨by rw [same, ← hx], by rw [words, ← hx]; simp, by rw [same, ← hx], ?_⟩
  rw [nextCtx_headBegin, nextCtx_setCtx, pointer]

/-! ### Fetching (R242, R248, R253-R258) -/

section Fetch
variable {s : State} {q c b : Nat} (can : CanFetch s q c b)
include can

/-- A context that can fetch is ready where it occupies the half of its next slot or may enter it. -/
theorem ctxReady_of_canFetch : ctxReady s q c =
    ((ctxOf s q c).occ == some ((ctxOf s q c).pc / 8192) || mayEnter s q c b ((ctxOf s q c).pc / 8192)) := by
  obtain ⟨berth, runs, mode, named, held, applied, stall⟩ := can
  simp [ctxReady, berth, runs, mode, named, held, applied, stall]

/-- In its turn a context fetches. -/
theorem cmdFetchIssue_of_turn (turn : ctxTurn s q c = true) (ecc : Ecc) :
    cmdFetchIssue s q c ecc = fetchCmd (passTurn s q c) q c b ecc := by
  obtain ⟨berth, runs, mode, named, held, applied, stall⟩ := can
  simp [cmdFetchIssue, berth, runs, mode, named, turn, issueNext, held]

/-- A ready context whose turn it is not fetches nothing. -/
theorem cmdFetchIssue_of_not_turn (ready : ctxReady s q c = true) (turn : ctxTurn s q c = false) (ecc : Ecc) :
    cmdFetchIssue s q c ecc = s := by
  obtain ⟨berth, runs, mode, named, held, applied, stall⟩ := can
  simp [cmdFetchIssue, berth, runs, mode, named, turn, held, ready]

/-- A context that may not enter the half that it has come to begins its fetch wait. -/
theorem cmdFetchIssue_of_not_ready (ready : ctxReady s q c = false) (ecc : Ecc) :
    cmdFetchIssue s q c ecc = setCtx s q c { ctxOf s q c with stall := .fetchWait, timer := timerStart s } := by
  have turn : ctxTurn s q c = false := by
    rw [Bool.eq_false_iff, ne_eq, ctxTurn_iff, ready]
    simp
  obtain ⟨berth, runs, mode, named, held, applied, stall⟩ := can
  simp [cmdFetchIssue, berth, runs, mode, named, turn, held, ready, applied, stall]

end Fetch

/-- A fetch within the half that the context occupies, up to the slot's error code and the checks. -/
theorem fetchCmd_within {s : State} {q c : Nat} (b : Nat) (within : (ctxOf s q c).occ = some ((ctxOf s q c).pc / 8192)) :
    (∀ l, fetchCmd (passTurn s q c) q c b (.uncorrectable l) = raiseBerth (fetched s q c) 2 q 0x25 b (ctxOf s q c).pc) ∧
    fetchCmd (passTurn s q c) q c b .ok = dispatchCmd (fetched s q c) q c b (slotWord s q (ctxOf s q c).pc) (ctxOf s q c).pc := by
  have stays : occupy (passTurn s q c) q c b (some ((ctxOf s q c).pc / 8192)) = passTurn s q c := by simp [occupy, within]
  unfold fetchCmd
  simp only [ctxOf_passTurn, stays]
  exact ⟨fun _ => rfl, rfl⟩

theorem ctxOf_fetched (s : State) (q c : Nat) :
    ctxOf (fetched s q c) q c = { ctxOf s q c with pc := nextSlot (ctxOf s q c), stall := .none, timer := {} } := ctxOf_setCtx_self ..

theorem nextCtx_fetched (s : State) (q c : Nat) : (quayOf (fetched s q c) q).nextCtx = (c + 1) % 18 := by
  simp [fetched, passTurn]

/-- A legal command whose predicate is true, that is not executed in the context and that nothing stalls, joins its queue. -/
theorem dispatchCmd_of_pushed {s : State} {q c b slot : Nat} {w : BitVec 256} (hLegal : illegal s q c b w = none)
    (hPred : predTrue (ctxOf s q c) (headOf w).pred = true) (hOp : inContext (opcodeOf w) = false) (hStall : pushStall s q c b w = none) :
    dispatchCmd s q c b w slot = pushCmd s q c b w slot := by
  simp [dispatchCmd, hLegal, hPred, hOp, issueCmd, hStall]

/-- Settles O4: in its turn a context that can fetch comes to `dispatchCmd` in the state `fetched`; one that may not enter begins to wait. -/
theorem fetchChecksSkipsQueuesAndWaits : Obligations.FetchChecksSkipsQueuesAndWaits := by
  unfold Obligations.FetchChecksSkipsQueuesAndWaits
  refine ⟨fun s q c b can within => ?_, fun s q c b can within turn => ?_, fun s q c b => ⟨fun ecc can beyond closed => ?_, ?_⟩⟩
  · have ready : ctxReady s q c = true := by simp [ctxReady_of_canFetch can, within]
    refine ⟨?_, fun ecc turn => congrArg _ (cmdFetchIssue_of_not_turn can ready turn ecc)⟩
    rw [ctxTurn_iff]
    exact and_iff_right ready
  · obtain ⟨bad, ok⟩ := fetchCmd_within b within
    have legal (w : BitVec 256) : illegal (fetched s q c) q c b w = illegal s q c b w := rfl
    have predicate (p : Nat) : predTrue (ctxOf (fetched s q c) q c) p = predTrue (ctxOf s q c) p := by rw [ctxOf_fetched]; rfl
    have fetches : exec (.cmdFetchIssue q c .ok) s =
        .next (dispatchCmd (fetched s q c) q c b (slotWord s q (ctxOf s q c).pc) (ctxOf s q c).pc) :=
      congrArg _ ((cmdFetchIssue_of_turn can turn .ok).trans ok)
    refine ⟨fun l => congrArg _ ((cmdFetchIssue_of_turn can turn _).trans (bad l)), fun n hn => ?_, fun hn hp => ?_, fun hn hp hc hs => ?_⟩
    · rw [fetches, dispatchCmd, legal, hn]
    · rw [fetches, dispatchCmd, legal, hn]
      simp [predicate, hp]
    · rw [fetches, dispatchCmd_of_pushed ((legal _).trans hn) ((predicate _).trans hp) hc hs]
      obtain ⟨pc, words, mode, pointer⟩ := pushCmd_ctx (fetched s q c) q c b (slotWord s q (ctxOf s q c).pc) (ctxOf s q c).pc
      rw [ctxOf_fetched] at pc words mode
      have running : (ctxOf s q c).mode = .running := by obtain ⟨-, -, mode, -⟩ := can; exact mode
      exact ⟨_, rfl, pc, pointer.trans (nextCtx_fetched s q c), words, mode.trans (by rw [← running])⟩
  · have blocked : ctxReady s q c = false := by simp [ctxReady_of_canFetch can, beyond, closed]
    exact congrArg _ (cmdFetchIssue_of_not_ready can blocked ecc)
  · intro berth runs stall enter
    have enters : fetchWaitEnter s q c = setCtx s q c { ctxOf s q c with stall := .none, timer := {} } := by
      simp [fetchWaitEnter, berth, runs, stall, enter]
    exact congrArg _ enters

/-! ### Heads of queues (R243-R245, R263, R284-R286) -/

/-- The words of a queue whose head leaves it. -/
theorem words_popHead (s : State) (q c : Nat) :
    (ctxOf (popHead s q c) q c).queue.map (·.word) = (ctxOf s q c).queue.tail.map (·.word) := by
  obtain ⟨-, words⟩ := popHead_ctx s q c q c
  rw [words]
  simp

/-- An SFLAG that rises leaves the words of queues. -/
theorem words_sflagUp (s : State) (q c b : Nat) (w : BitVec 256) (i j : Nat) :
    (ctxOf (sflagUp s q c b w) i j).queue.map (·.word) = (ctxOf s i j).queue.map (·.word) :=
  ((added_flagAdd ..).ctxs i j).2

/-- The words of a queue whose head is refused. -/
theorem words_refuseHead (s : State) (q c : Nat) (m : QCmd) :
    (ctxOf (refuseHead s q c m) q c).queue.map (·.word) = (ctxOf s q c).queue.tail.map (·.word) := by
  rw [refuseHead, words_popHead, ctxOf_inuseDown]

/-- The words of a queue whose head is done. -/
theorem words_headDone (s : State) (q c b : Nat) (m : QCmd) :
    (ctxOf (headDone s q c b m) q c).queue.map (·.word) = (ctxOf s q c).queue.tail.map (·.word) := by
  rw [headDone, words_sflagUp, words_popHead, ctxOf_inuseDown]

/-- Settles O7: both ways out are `popHead` on the state with the registers released; `headDone` adds the SFLAG. -/
theorem headLeavesWithOrWithoutSflag : Obligations.HeadLeavesWithOrWithoutSflag := by
  unfold Obligations.HeadLeavesWithOrWithoutSflag
  intro s q c b m
  exact ⟨sflagDone .., (added_flagAdd ..).only, words_headDone .., popHead_only .., words_refuseHead ..⟩

/-- A flag that nobody waits for is set, and nothing else changes. -/
theorem flagSet_of_unwaited {s : State} {q b tf : Nat} {k : FlagKey} (v : Nat) (hKey : flagKey s b q tf = some k)
    (hFree : Unwaited s k) : flagSet s q b tf v = flagPut s k (v % 65536) := by
  rw [flagSet, hKey]
  exact testWaits_unwaited _ _ (by rwa [Unwaited, flagPut_waits])

/-- What FLAGSET does to a flag that nobody waits for (R284). -/
theorem flagset_of_unwaited {s : State} {q c b tf : Nat} {k : FlagKey} (set : Bool) (v : Nat) (hKey : flagKey s b q tf = some k)
    (hFree : Unwaited s k) : ∃ t, (if set then flagSet s q b tf v else flagAdd s q c b tf v) = t ∧ OnlyFlags s t ∧ t.quays = s.quays ∧
      flagVal t k = (if set then v % 65536 else min (flagVal s k + v) 65535) ∧ ∀ j, Apart k j → flagVal t j = flagVal s j := by
  cases set with
  | true =>
    refine ⟨_, rfl, ?_⟩
    simp only [if_true]
    rw [flagSet_of_unwaited v hKey hFree]
    exact ⟨flagPut_only .., flagPut_quays .., by rw [flagVal_flagPut, Nat.mod_mod], fun j apart => flagVal_flagPut_ne _ _ _ _ apart⟩
  | false =>
    obtain ⟨r, only, quays, waits, -, sum⟩ := flagAdd_eq s q c b tf v k hKey
    have free : Unwaited (flagPut r k (min (flagVal s k + v) 65535)) k := by rwa [Unwaited, flagPut_waits, waits]
    refine ⟨_, rfl, (added_flagAdd ..).only, ?_, flagAdd_val _ _ _ _ _ _ _ hKey hFree, fun j apart => flagAdd_ne _ _ _ _ _ _ _ _ hKey apart⟩
    change (flagAdd s q c b tf v).quays = s.quays
    rw [sum, testWaits_unwaited _ _ free, flagPut_quays, quays]

/-- The head of a queue leaves it and its SFLAG rises. -/
theorem popHead_sflagUp (s : State) (q c b : Nat) (w : BitVec 256) : OnlyFlags (popHead s q c) (sflagUp (popHead s q c) q c b w) ∧
    SflagDone (popHead s q c) (sflagUp (popHead s q c) q c b w) b q w ∧
    ∀ q' c', CtxKept (ctxOf (popHead s q c) q' c') (ctxOf (sflagUp (popHead s q c) q c b w) q' c') :=
  have added := added_flagAdd (popHead s q c) q c b (headOf w).sflag 1
  ⟨added.only, sflagDone .., added.ctxs⟩

/-- What END leaves (R245): its context idle, occupying no half, and its SFLAG risen. -/
theorem endAt_leaves (s : State) (q c b : Nat) (m : QCmd) :
    (ctxOf (endAt s q c b m) q c).mode = .idle ∧ (ctxOf (endAt s q c b m) q c).endDone = true ∧ (ctxOf (endAt s q c b m) q c).occ = none ∧
    SflagDone (popHead s q c) (endAt s q c b m) b q m.word ∧
    (ctxOf (endAt s q c b m) q c).queue.map (·.word) = (ctxOf s q c).queue.tail.map (·.word) := by
  unfold endAt
  dsimp only
  generalize hx : ({ ctxOf (popHead s q c) q c with mode := .idle, endDone := true } : Ctx) = x
  generalize hu : setCtx (popHead s q c) q c x = u
  have here : ctxOf u q c = x := by rw [← hu, ctxOf_setCtx_self]
  obtain ⟨same, words⟩ := (added_flagAdd u q c b (headOf m.word).sflag 1).ctxs q c
  change ctxOf (sflagUp u q c b m.word) q c = _ at same
  change (ctxOf (sflagUp u q c b m.word) q c).queue.map _ = _ at words
  obtain ⟨occ, mode, queue, endDone, flags⟩ := occupy_ctx (sflagUp u q c b m.word) q c b none
  have done : SflagDone (popHead s q c) (sflagUp u q c b m.word) b q m.word := by
    subst hu
    exact SflagDone.of_flags (sflagDone _ q c b m.word) (fun _ => rfl) rfl (fun j => by cases j <;> rfl)
  refine ⟨?_, ?_, occ, ⟨fun k hk free => (flags k).trans (done.1 k hk free), fun j apart => (flags j).trans (done.2 j apart)⟩, ?_⟩
  · rw [mode, same, here, ← hx]
  · rw [endDone, same, here, ← hx]
  · rw [queue, words, here, ← hx, ← words_popHead]

/-- Settles O5: each command by its guard, then by what leaving the queue, raising SFLAG and leaving a half can do. -/
theorem queueControlExecutes : Obligations.QueueControlExecutes := by
  unfold Obligations.QueueControlExecutes
  intro s q c b m
  refine ⟨fun head tf set v k hOp noSflag hKey hFree => ?_, fun head => ⟨fun busy => ?_, fun free => ?_⟩,
    fun head tide hOp => ⟨fun early => ?_, fun due => ?_⟩, fun head => ⟨fun busy => ?_, fun free => ?_⟩⟩
  · obtain ⟨t, ht, only, quays, val, others⟩ := flagset_of_unwaited (c := c.val) set v hKey hFree
    refine ⟨t, ?_, only, quays, val, others⟩
    have silent (u : State) : sflagUp u q c b m.word = u := flagAdd_none _ _ _ _ _ _ (by simp [noSflag, flagKey])
    change Host.Outcome.next _ = _
    simp only [head, flagsetAt, hOp, ht, silent]
  · simp [exec, execSettle, head, busy]
  · exact ⟨_, by simp only [exec, execSettle, head, free]; rfl, popHead_sflagUp ..⟩
  · simp [exec, execWaitt, head, hOp, Nat.not_le.mpr early]
  · exact ⟨_, by simp only [exec, execWaitt, head, hOp, if_pos due], popHead_sflagUp ..⟩
  · simp [exec, execEndCmd, head, busy]
  · exact ⟨_, by simp only [exec, execEndCmd, head, free]; rfl, endAt_leaves ..⟩

/-! ### Waits that time out (R265, R266) -/

@[simp] theorem waits_raiseWaitTmo (s : State) (q c b kind field value : Nat) : (raiseWaitTmo s q c b kind field value).waits = s.waits := by
  rw [raiseWaitTmo, raiseBerth_only]

@[simp] theorem ctxOf_raiseWaitTmo (s : State) (q c b kind field value i j : Nat) :
    ctxOf (raiseWaitTmo s q c b kind field value) i j = ctxOf s i j := by
  rw [raiseWaitTmo, raiseBerth_only]
  rfl

@[simp] theorem timerStart_raiseWaitTmo (s : State) (q c b kind field value : Nat) :
    timerStart (raiseWaitTmo s q c b kind field value) = timerStart s := by
  rw [raiseWaitTmo, raiseBerth_only]
  rfl

/-- The detail of a wait that has no flag. -/
theorem raiseWaitTmo_zero (s : State) (q c b kind field : Nat) :
    raiseWaitTmo s q c b kind field 0 = raiseBerth s 2 q 0x20 b (c + kind * 2 ^ 8 + field * 2 ^ 16) := by
  rw [raiseWaitTmo, Nat.zero_mul, Nat.add_zero]

/-- WAIT_TMO of a context whose task moves comes to the wait of its kind. -/
theorem waitTmo_of_moves {s : State} {q c b : Nat} (berth : (ctxOf s q c).berth = some b) (moves : taskMoves s b = true) :
    waitTmo s q c 0 = tmoFlag s q c b ∧ waitTmo s q c 1 = tmoHead s q c b 1 ∧ waitTmo s q c 2 = tmoHead s q c b 2 ∧
    waitTmo s q c 3 = tmoCtx s q c b 3 ∧ waitTmo s q c 4 = tmoCtx s q c b 4 ∧ waitTmo s q c 5 = tmoDrain s q c b := by
  simp only [waitTmo, berth, moves, Bool.not_true, Bool.false_eq_true, if_false, and_self]

theorem exec_waitTmo_of_moves {s : State} {q : Fin 4} {c : Fin 18} {b : Nat} (berth : (ctxOf s q c).berth = some b) (moves : taskMoves s b = true) :
    exec (.waitTmo q c 0) s = .next (tmoFlag s q c b) ∧ exec (.waitTmo q c 1) s = .next (tmoHead s q c b 1) ∧
    exec (.waitTmo q c 2) s = .next (tmoHead s q c b 2) ∧ exec (.waitTmo q c 3) s = .next (tmoCtx s q c b 3) ∧
    exec (.waitTmo q c 4) s = .next (tmoCtx s q c b 4) ∧ exec (.waitTmo q c 5) s = .next (tmoDrain s q c b) := by
  obtain ⟨flag, head, pass, fetch, held, drain⟩ := waitTmo_of_moves berth moves
  exact ⟨congrArg Host.Outcome.next flag, congrArg Host.Outcome.next head, congrArg Host.Outcome.next pass,
    congrArg Host.Outcome.next fetch, congrArg Host.Outcome.next held, congrArg Host.Outcome.next drain⟩

/-- Settles O6: each kind of wait raises WAIT_TMO and restarts its own timer; the waits that `testList` leaves exceed the flag's value. -/
theorem waitsEndWhenSatisfiedAndTimeOut : Obligations.WaitsEndWhenSatisfiedAndTimeOut := by
  unfold Obligations.WaitsEndWhenSatisfiedAndTimeOut
  refine ⟨fun s q c b berth moves => ?_, fun s k => ?_⟩
  · obtain ⟨flag, head, pass, fetch, held, drain⟩ := exec_waitTmo_of_moves berth moves
    refine ⟨fun w found => ?_, fun m r tm reg g l r16 co cfg queue stall hOp hit waits => ?_, fun m r tm o queue stall hOp hit waits => ?_,
      fun stall hit => ?_, fun reg stall hit => ?_, fun r o found hOp => ?_⟩
    · rw [flag]
      have detail : raiseWaitTmo s q c b 0 w.wflag (flagVal s w.flag) =
          raiseBerth s 2 q 0x20 b (c + w.wflag * 2 ^ 16 + flagVal s w.flag * 2 ^ 32) := by simp [raiseWaitTmo]
      simp only [tmoFlag, found]
      exact ⟨_, rfl, congrArg (List.map _) (waits_raiseWaitTmo ..), by rw [← detail]⟩
    · rw [head, ← raiseWaitTmo_zero]
      simp [tmoHead, queue, stall, hOp, hit, waits, restartHead]
    · rw [pass, ← raiseWaitTmo_zero]
      simp [tmoHead, queue, stall, hOp, hit, waits, restartHead]
    · rw [fetch, ← raiseWaitTmo_zero]
      simp [tmoCtx, stall, hit]
    · rw [held, ← raiseWaitTmo_zero]
      simp [tmoCtx, stall, hit]
    · rw [drain, ← raiseWaitTmo_zero]
      simp [tmoDrain, found, hOp]
  · obtain ⟨members, never, left⟩ := testList_left k s.waits s
    exact ⟨left, never, members⟩

end Sys2Proof.Proofs
end

section
/-! Operand staging: TILECFG, STREAM, SWAP and MASKSET (R143-R155, R203, R204, R287-R294). -/

namespace Sys2Proof.Proofs

open Sys2Proof Sys2Proof.Machine Sys2Proof.Safety Sys2Proof.Laws

/-! ### What a head that is done leaves of the decks -/

theorem decks_of_onlyFlags {s t : State} (h : OnlyFlags s t) : t.decks = s.decks := by
  rw [OnlyFlags] at h
  rw [h]

/-- The state in which the head has left and its SFLAG has risen, but for the registers that it releases. -/
theorem headDone_only (s : State) (q c b : Nat) (m : QCmd) : OnlyFlags (inuseDown s m.uses) (headDone s q c b m) :=
  OnlyFlags.trans (popHead_only ..) (added_flagAdd ..).only

/-- A state in which decks alone have changed. -/
def OnlyDecks (s t : State) : Prop := t = { s with decks := t.decks }

theorem OnlyDecks.trans {s t u : State} (h : OnlyDecks s t) (k : OnlyDecks t u) : OnlyDecks s u := by
  rw [OnlyDecks] at *
  calc u = _ := k
    _ = _ := by rw [h]

/-- A fold of operations that change decks alone. -/
theorem OnlyDecks.foldl {α : Type} {f : State → α → State} (hf : ∀ s a, OnlyDecks s (f s a)) (l : List α) :
    ∀ s, OnlyDecks s (l.foldl f s) := by
  induction l with
  | nil => exact fun _ => rfl
  | cons a l ih => exact fun s => (hf s a).trans (ih (f s a))

/-- A state in which decks, flags, waits and contexts alone have changed, and occurrences may have been raised. -/
def OnlyDecksAndFlags (s t : State) : Prop :=
  t = { s with decks := t.decks, quays := t.quays, qflags := t.qflags, cflags := t.cflags, waits := t.waits, occ := t.occ, ends := t.ends }

theorem OnlyDecks.thenFlags {s t u : State} (h : OnlyDecks s t) (k : OnlyFlags t u) : OnlyDecksAndFlags s u := by
  rw [OnlyDecks] at h
  calc u = _ := k
    _ = _ := by rw [decks_of_onlyFlags k, h]

@[simp] theorem deckOf_headDone (s : State) (q c b : Nat) (m : QCmd) (k : Nat) :
    deckOf (headDone s q c b m) k = deckOf (inuseDown s m.uses) k := by
  unfold deckOf
  rw [decks_of_onlyFlags (headDone_only s q c b m)]

/-! ### Tile registers, their in-use counts left out -/

/-- A tile register without its in-use count. -/
def uncounted (t : TileReg) : TileReg := { t with inuse := 0 }

/-- A change of an in-use count leaves the rest of every register, and the rest of every deck. -/
theorem uncounted_inuseStep (up : Bool) (s : State) (u : Nat × Nat) (k i : Nat) :
    uncounted (tileOf (inuseStep up s u) k i) = uncounted (tileOf s k i) ∧
    deckOf (inuseStep up s u) k = { deckOf s k with tiles := (deckOf (inuseStep up s u) k).tiles } := by
  unfold inuseStep tileOf
  dsimp only
  rw [deckOf_setDeck]
  split
  case isTrue same =>
    subst same
    refine ⟨?_, rfl⟩
    rw [tget_tput]
    split
    case isTrue here => rw [← here]; rfl
    case isFalse => rfl
  case isFalse => exact ⟨rfl, rfl⟩

theorem uncounted_inuse (up : Bool) (uses : List (Nat × Nat)) (k i : Nat) : ∀ s : State,
    uncounted (tileOf (uses.foldl (inuseStep up) s) k i) = uncounted (tileOf s k i) ∧
    deckOf (uses.foldl (inuseStep up) s) k = { deckOf s k with tiles := (deckOf (uses.foldl (inuseStep up) s) k).tiles } := by
  induction uses with
  | nil => exact fun s => ⟨rfl, rfl⟩
  | cons u r ih =>
    intro s
    obtain ⟨tile, deck⟩ := uncounted_inuseStep up s u k i
    obtain ⟨tiles, decks⟩ := ih (inuseStep up s u)
    refine ⟨tiles.trans tile, ?_⟩
    rw [List.foldl_cons, decks, deck]

/-! ### TILECFG (R143, R144, R287) -/

theorem deckOf_putTile (t : TileReg) (r : Nat) (s : State) (d k : Nat) : deckOf (putTile t r s d) k =
    if d = k then { deckOf s d with tiles := tput (deckOf s d).tiles r { t with inuse := (tget {} (deckOf s d).tiles r).inuse } } else deckOf s k := by
  unfold putTile
  rw [deckOf_setDeck]

/-- A register set in one deck. -/
theorem tileOf_putTile (t : TileReg) (r : Nat) (s : State) (d k i : Nat) :
    uncounted (tileOf (putTile t r s d) k i) = (if d = k ∧ r = i then uncounted t else uncounted (tileOf s k i)) ∧
    deckOf (putTile t r s d) k = { deckOf s k with tiles := (deckOf (putTile t r s d) k).tiles } := by
  unfold tileOf
  rw [deckOf_putTile]
  by_cases hd : d = k
  · subst hd
    refine ⟨?_, by rw [if_pos rfl]⟩
    simp only [if_true, true_and, tget_tput]
    split <;> rfl
  · simp [hd]

/-- A register set in every deck of a list. -/
theorem tileOf_putTiles (t : TileReg) (r k i : Nat) (l : List Nat) : ∀ s : State,
    uncounted (tileOf (l.foldl (putTile t r) s) k i) = (if k ∈ l ∧ r = i then uncounted t else uncounted (tileOf s k i)) ∧
    deckOf (l.foldl (putTile t r) s) k = { deckOf s k with tiles := (deckOf (l.foldl (putTile t r) s) k).tiles } := by
  induction l with
  | nil => exact fun s => ⟨by simp, rfl⟩
  | cons d l ih =>
    intro s
    obtain ⟨tile, deck⟩ := tileOf_putTile t r s d k i
    obtain ⟨tiles, decks⟩ := ih (putTile t r s d)
    refine ⟨?_, by rw [List.foldl_cons, decks, deck]⟩
    rw [List.foldl_cons, tiles, tile]
    by_cases hl : k ∈ l ∧ r = i
    · simp [hl]
    · by_cases hd : d = k ∧ r = i
      · simp [hd]
      · rw [if_neg hl, if_neg hd, if_neg]
        rintro ⟨member, same⟩
        rcases List.mem_cons.mp member with rfl | member
        · exact hd ⟨rfl, same⟩
        · exact hl ⟨member, same⟩

/-- TILECFG that has passed its checks sets its register in every addressed deck, and nothing else in any deck. -/
theorem tilecfg_applies (s : State) (q c b r : Nat) (m : QCmd) (t : TileReg) (l : List Nat) :
    let u := headDone (l.foldl (putTile t r) s) q c b m
    (∀ k ∈ l, uncounted (tileOf u k r) = uncounted t) ∧ (∀ k i, k ∉ l ∨ i ≠ r → uncounted (tileOf u k i) = uncounted (tileOf s k i)) ∧
    (∀ k, deckOf u k = { deckOf s k with tiles := (deckOf u k).tiles }) ∧
    u = { s with decks := u.decks, quays := u.quays, qflags := u.qflags, cflags := u.cflags, waits := u.waits, occ := u.occ, ends := u.ends } := by
  intro u
  have deck (k : Nat) : deckOf u k = deckOf (inuseDown (l.foldl (putTile t r) s) m.uses) k := deckOf_headDone ..
  have tile (k i : Nat) : uncounted (tileOf u k i) = if k ∈ l ∧ r = i then uncounted t else uncounted (tileOf s k i) := by
    rw [tileOf, deck]
    exact (uncounted_inuse false m.uses k i _).1.trans (tileOf_putTiles t r k i l s).1
  refine ⟨fun k hk => by rw [tile, if_pos ⟨hk, rfl⟩], fun k i other => ?_, fun k => ?_, ?_⟩
  · rw [tile, if_neg]
    rintro ⟨member, rfl⟩
    exact other.elim (· member) (· rfl)
  · rw [deck]
    exact (uncounted_inuse false m.uses k r _).2.trans (by rw [(tileOf_putTiles t r k r l s).2]; rfl)
  · have tiles : OnlyDecks s (l.foldl (putTile t r) s) := OnlyDecks.foldl (f := putTile t r) (fun _ _ => rfl) l s
    exact (tiles.trans (inuseDown_only _ m.uses)).thenFlags (headDone_only _ q c b m)

/-- Settles O8: the guards of `tilecfgAt` one by one; what it sets is `tilecfg_applies`. -/
theorem tilecfgAppliesToAllDecksOrNone : Obligations.TilecfgAppliesToAllDecksOrNone := by
  unfold Obligations.TilecfgAppliesToAllDecksOrNone
  intro s q c b m r g ld rows cols cfg d head hOp hd
  have runs : exec (.tilecfg q c) s = .next (if cfgWaits s q c m.word then s else tilecfgAt s q c b m) := by
    simp [exec, execTilecfg, head]
  refine ⟨fun waits => by rw [runs, if_pos waits], fun ready scope => ?_⟩
  rw [runs, ready]
  simp only [Bool.false_eq_true, if_false, tilecfgAt, hOp, ← hd, scope]
  refine ⟨fun reserved => by rw [reserved]; rfl, fun t k valid fails => by rw [valid]; simp only [fails]; rfl, fun t valid passes => ?_⟩
  rw [valid]
  simp only [passes]
  exact ⟨_, rfl, tilecfg_applies s q c b r m t (addressed s d g)⟩

/-! ### STREAM, SWAP and MASKSET (R149-R155, R203, R204) -/

/-- The checks of R154. -/
theorem streamBad_iff (o : StreamOps) :
    streamBad o = true ↔ o.cls = 3 ∨ fmtOk o.mfmt = false ∨ o.rnd = 3 ∨ (o.mmx = true ∧ fmtMxOk o.mfmt = false) := by
  simp [streamBad, or_assoc]

/-- Settles O9: each command is its guard and then its definition on the settled state. -/
theorem streamSwapMasksetExecute : Obligations.StreamSwapMasksetExecute := by
  unfold Obligations.StreamSwapMasksetExecute
  intro s q c b m
  refine ⟨fun o head hOp => ⟨fun busy => ?_, fun free => ?_⟩, fun g u head hOp hu => ?_, fun r g row bs u head hOp hu => ?_⟩
  · simp [exec, execStream, head, hOp, busy]
  · simp only [exec, execStream, head, hOp, free, streamAt, streamBad_iff]
    rfl
  · have runs : exec (.swap q c) s = .next (if bufferClear s q c then swapAt u q c b m else s) := by
      simp [exec, execSwap, head, hu]
    refine ⟨fun busy => by simp [runs, busy], fun clear scope => ?_, fun clear scope => ?_⟩
    · simp only [runs, clear, if_true, swapAt, hOp, scope]
      rfl
    · simp only [runs, clear, if_true, swapAt, hOp, scope]
      rfl
  · have runs : exec (.maskset q c) s = .next (if bufferClear s q c then masksetAt u q c b m else s) := by
      simp [exec, execMaskset, head, hu]
    refine ⟨fun busy => by simp [runs, busy], fun clear scope => ?_⟩
    simp only [runs, clear, if_true, masksetAt, hOp, scope]
    refine ⟨fun k bad => ?_, fun good => ?_⟩
    · change (addressed u (ctxDeck q c) g).find? (maskBad u r) = _ at bad
      simp only [bad]
      rfl
    · change (addressed u (ctxDeck q c) g).find? (maskBad u r) = _ at good
      simp only [good]
      rfl

end Sys2Proof.Proofs
end

section
/-! The memory fabric: what routing and serving pieces can change, the arbiters, the bank queues and transactions (R314-R346). -/

namespace Sys2Proof.Proofs

open Sys2Proof Sys2Proof.Machine Sys2Proof.Safety Sys2Proof.Laws

/-! ### What the fabric changes -/

/-- A fold of operations that each keep a part of the state keeps it. -/
theorem foldl_keeps {σ α β : Type} (part : σ → β) {f : σ → α → σ} (hf : ∀ s a, part (f s a) = part s) (l : List α) :
    ∀ s, part (l.foldl f s) = part s := by
  induction l with
  | nil => exact fun _ => rfl
  | cons a l ih => exact fun s => (ih (f s a)).trans (hf s a)

/-- The state without what the memory fabric changes: its pieces, HBM, its poison, what SCATTERs meet on, and the free values. -/
def withoutMemory (s : State) : State := { s with fabric := {}, hbm := {}, poison := [], quays := [], free := 0 }

/-- States that agree but for what the memory fabric changes. -/
theorem onlyMemory_of {s t : State} (h : withoutMemory t = withoutMemory s) :
    t = { s with fabric := t.fabric, hbm := t.hbm, poison := t.poison, quays := t.quays, free := t.free } := by
  have h' : ({ withoutMemory t with fabric := t.fabric, hbm := t.hbm, poison := t.poison, quays := t.quays, free := t.free } : State) =
      { withoutMemory s with fabric := t.fabric, hbm := t.hbm, poison := t.poison, quays := t.quays, free := t.free } := by rw [h]
  exact h'

theorem withoutMemory_movePiece (s : State) (x : Piece) : withoutMemory (movePiece s x) = withoutMemory s := rfl

theorem withoutMemory_crossbar (n : Nat) : ∀ s : State, withoutMemory (crossbar n s) = withoutMemory s := by
  induction n with
  | zero => exact fun _ => rfl
  | succ n ih =>
    intro s
    unfold crossbar
    split
    · rfl
    · exact (ih _).trans rfl

theorem withoutMemory_meetWrites (s : State) (u : BitVec 16) (row : Option (Nat × Nat)) (a len : Nat) :
    withoutMemory (meetWrites s u row a len).1 = withoutMemory s := by
  unfold meetWrites
  dsimp only
  split
  · split <;> rfl
  · split <;> split <;> rfl

theorem withoutMemory_writeBlock (s : State) (lo : Nat) (data : List Byte) (b : Nat) :
    withoutMemory (writeBlock s lo data b) = withoutMemory s := by
  unfold writeBlock
  dsimp only
  split <;> rfl

theorem withoutMemory_hbmWrite (s : State) (a : Nat) (data : List Byte) : withoutMemory (hbmWrite s a data) = withoutMemory s := by
  unfold hbmWrite
  split
  · rfl
  · exact foldl_keeps withoutMemory (fun t b => withoutMemory_writeBlock t a data b) _ s

theorem withoutMemory_hbmUndefine (s : State) (a len : Nat) : withoutMemory (hbmUndefine s a len) = withoutMemory s := by
  unfold hbmUndefine
  refine (foldl_keeps withoutMemory (fun _ _ => ?_) _ _).trans ?_ <;> rfl

theorem withoutMemory_undefineAll (s : State) (es : List (Nat × Nat)) : withoutMemory (undefineAll s es) = withoutMemory s := by
  unfold undefineAll
  exact foldl_keeps withoutMemory (fun t e => withoutMemory_hbmUndefine t e.1 e.2) es s

theorem withoutMemory_enterBank (s : State) (x : Piece) : withoutMemory (enterBank s x) = withoutMemory s := by
  unfold enterBank enterWrite
  dsimp only
  split
  · rw [withoutMemory_undefineAll, withoutMemory_hbmWrite, withoutMemory_meetWrites, withoutMemory_movePiece]
  · rfl

theorem withoutMemory_arbitrate (n : Nat) : ∀ s : State, withoutMemory (arbitrate n s) = withoutMemory s := by
  induction n with
  | zero => exact fun _ => rfl
  | succ n ih =>
    intro s
    unfold arbitrate
    split
    · exact (ih _).trans (withoutMemory_enterBank ..)
    · rfl

theorem withoutMemory_routePieces (s : State) : withoutMemory (routePieces s) = withoutMemory s :=
  (withoutMemory_arbitrate ..).trans (withoutMemory_crossbar ..)

theorem withoutMemory_serveChannel (s : State) (c : Nat) : withoutMemory (serveChannel s c) = withoutMemory s := by
  unfold serveChannel
  dsimp only
  split
  · rfl
  · split
    · rfl
    · split <;> rfl

theorem withoutMemory_fabricTick (s : State) : withoutMemory (fabricTick s) = withoutMemory s :=
  (foldl_keeps withoutMemory withoutMemory_serveChannel _ _).trans ((withoutMemory_routePieces _).trans rfl)

theorem withoutMemory_stepWrite (s : State) (w : Requester) (a : Nat) (data : List Byte) :
    withoutMemory (stepWrite s w a data none).1 = withoutMemory s ∧ (stepWrite s w a data none).2 = true := by
  refine ⟨?_, rfl⟩
  change withoutMemory (undefineAll _ _) = _
  rw [withoutMemory_undefineAll, withoutMemory_hbmWrite, withoutMemory_meetWrites]

/-! ### An empty fabric -/

/-- With no request in the fabric nothing moves. -/
theorem fabricTick_of_empty {s : State} (h : s.fabric.pieces = []) : fabricTick s = s := by
  have kept : setPieces s (s.fabric.pieces.filter (fun x => !pieceOver s x)) = s := by rw [setPieces, h, List.filter_nil, ← h]
  have routed : routePieces s = s := by simp [routePieces, h, crossbar, arbitrate]
  unfold fabricTick
  rw [kept, routed]
  simp [h]

/-- Settles O2: the fabric leaves time, and time passes as `timeTick` says, which the servo's nanosecond decides. -/
theorem emptyQueueLetsTimePass : Obligations.EmptyQueueLetsTimePass := by
  unfold Obligations.EmptyQueueLetsTimePass
  intro s hPending
  have only := onlyMemory_of (withoutMemory_fabricTick { s with time := timeTick s.time })
  refine ⟨idle s, timeTick s.time, by simp [step, hPending], only, fun h => fabricTick_of_empty h, rfl, rfl, fun usual => ?_,
    fun due ahead => ?_, fun due behind => ?_⟩
  · have slew : slewNow s.time = false := by
      rw [slewNow, decide_eq_false_iff_not, Classical.not_and_iff_not_or_not, Classical.not_not]
      exact usual
    simp [timeTick, tideStep, slewLeft, slew]
  · have slew : slewNow s.time = true := by
      rw [slewNow, decide_eq_true_eq]
      omega
    simp [timeTick, tideStep, slewLeft, slew, ahead]
  · have slew : slewNow s.time = true := by
      rw [slewNow, decide_eq_true_eq]
      omega
    simp [timeTick, tideStep, slewLeft, slew, Int.not_lt.mpr (Int.le_of_lt behind)]

/-! ### The arbiters (R341, R342) -/

theorem foldl_min_le (l : List Nat) : ∀ a, l.foldl min a ≤ a ∧ ∀ x ∈ l, l.foldl min a ≤ x := by
  induction l with
  | nil => simp
  | cons b l ih =>
    intro a
    obtain ⟨least, all⟩ := ih (min a b)
    refine ⟨Nat.le_trans least (Nat.min_le_left ..), fun x hx => ?_⟩
    rcases List.mem_cons.mp hx with rfl | hx
    · exact Nat.le_trans least (Nat.min_le_right ..)
    · exact all x hx

theorem foldl_min_mem (l : List Nat) : ∀ a, l.foldl min a = a ∨ l.foldl min a ∈ l := by
  induction l with
  | nil => simp
  | cons b l ih =>
    intro a
    rw [List.foldl_cons]
    rcases ih (min a b) with h | h
    · rw [h]
      rcases Nat.le_total a b with le | le
      · exact .inl (Nat.min_eq_left le)
      · exact .inr (by simp [Nat.min_eq_right le])
    · exact .inr (List.mem_cons_of_mem _ h)

/-- The piece taken next is the first of the lowest rank. -/
theorem nextPiece_spec {s : State} {x : Piece} (h : nextPiece s = some x) : ∃ l1 l2, enterable s = l1 ++ x :: l2 ∧
    (∀ y ∈ l1, pieceRank s x < pieceRank s y) ∧ ∀ y ∈ l2, pieceRank s x ≤ pieceRank s y := by
  obtain ⟨rank, l1, l2, cut, before⟩ := List.find?_eq_some_iff_append.mp h
  obtain ⟨-, least⟩ := foldl_min_le ((enterable s).map (pieceRank s)) 7
  rw [beq_iff_eq] at rank
  have le (y : Piece) (hy : y ∈ enterable s) : pieceRank s x ≤ pieceRank s y := rank ▸ least _ (List.mem_map_of_mem hy)
  refine ⟨l1, l2, cut, fun y hy => ?_, fun y hy => le y (by simp [cut, hy])⟩
  have other : pieceRank s y ≠ pieceRank s x := by
    rw [rank]
    simpa using before y hy
  exact Nat.lt_of_le_of_ne (le y (by simp [cut, hy])) other.symm

/-- A piece that can enter and has a rank that the registers can hold keeps the arbiters busy. -/
theorem nextPiece_ne_none {s : State} (h : ∃ x ∈ enterable s, pieceRank s x ≤ 7) : nextPiece s ≠ none := by
  obtain ⟨x, hx, rank⟩ := h
  intro none
  have missed := List.find?_eq_none.mp none
  obtain ⟨-, least⟩ := foldl_min_le ((enterable s).map (pieceRank s)) 7
  rcases foldl_min_mem ((enterable s).map (pieceRank s)) 7 with seven | attained
  · have := least _ (List.mem_map_of_mem hx)
    refine missed x hx (beq_iff_eq.mpr ?_)
    omega
  · obtain ⟨y, hy, found⟩ := List.mem_map.mp attained
    exact missed y hy (beq_iff_eq.mpr found)

theorem mem_enterable {s : State} {x : Piece} (h : nextPiece s = some x) : x ∈ enterable s := List.mem_of_find?_eq_some h

/-! ### The load of a bank (R315) -/

theorem bankRoom_iff (s : State) (k : Nat) : bankRoom s k = true ↔ bankLoad s k < 16 := by simp [bankRoom, bankLoad]

theorem bankLoad_congr {s t : State} (h : t.fabric.pieces = s.fabric.pieces) (k : Nat) : bankLoad t k = bankLoad s k := by
  rw [bankLoad, bankLoad, h]

/-- A piece that moves adds itself to its bank's queue alone, and where it is queued. -/
theorem bankLoad_movePiece_le (s : State) (x : Piece) (k : Nat) :
    bankLoad (movePiece s x) k ≤ bankLoad s k + if x.st = .queued ∧ locBank x.loc = k then 1 else 0 := by
  have others := ((List.filter_sublist (p := fun y => !samePiece y x) (l := s.fabric.pieces)).filter
    (fun y => y.st == .queued && locBank y.loc == k)).length_le
  simp only [bankLoad, movePiece, setPieces, List.filter_append, List.length_append]
  by_cases h : x.st = .queued ∧ locBank x.loc = k
  · simpa [h] using others
  · have alone : [x].filter (fun y => y.st == .queued && locBank y.loc == k) = [] := by simpa using h
    simpa [alone, h] using others

/-- A piece that moves anywhere but into a bank queue adds to no load. -/
theorem bankLoad_movePiece_of_not_queued {s : State} {x : Piece} (h : x.st ≠ .queued) (k : Nat) :
    bankLoad (movePiece s x) k ≤ bankLoad s k := by
  simpa [h] using bankLoad_movePiece_le s x k

theorem bankLoad_crossbar_le (n k : Nat) : ∀ s : State, bankLoad (crossbar n s) k ≤ bankLoad s k := by
  induction n with
  | zero => exact fun _ => Nat.le_refl _
  | succ n ih =>
    intro s
    unfold crossbar
    split
    · exact Nat.le_refl _
    · exact Nat.le_trans (ih _) (bankLoad_movePiece_of_not_queued (by simp) k)

/-- A write that meets others marks pieces as spoiled, and leaves where they are. -/
theorem pieces_meetWrites (s : State) (u : BitVec 16) (row : Option (Nat × Nat)) (a len : Nat) :
    ∃ f : Piece → Piece, (∀ x, (f x).st = x.st ∧ (f x).loc = x.loc) ∧
      (meetWrites s u row a len).1.fabric.pieces = s.fabric.pieces.map f := by
  unfold meetWrites
  dsimp only
  generalize hs : (if (rowsMet s u row a len).isEmpty then s else _) = s1
  obtain ⟨f, hf, pieces⟩ : ∃ f : Piece → Piece, (∀ x, (f x).st = x.st ∧ (f x).loc = x.loc) ∧ s1.fabric.pieces = s.fabric.pieces.map f := by
    rw [← hs]
    split
    · exact ⟨id, fun _ => ⟨rfl, rfl⟩, (List.map_id _).symm⟩
    · refine ⟨_, fun x => ?_, rfl⟩
      split <;> exact ⟨rfl, rfl⟩
  split
  · exact ⟨f, hf, pieces⟩
  · split
    · refine ⟨fun x => _, fun x => ?_, (congrArg (List.map _) pieces).trans (List.map_map ..)⟩
      dsimp only [Function.comp]
      split <;> exact hf x
    · exact ⟨f, hf, pieces⟩

theorem bankLoad_meetWrites (s : State) (u : BitVec 16) (row : Option (Nat × Nat)) (a len k : Nat) :
    bankLoad (meetWrites s u row a len).1 k = bankLoad s k := by
  obtain ⟨f, hf, pieces⟩ := pieces_meetWrites s u row a len
  rw [bankLoad, bankLoad, pieces, List.filter_map, List.length_map]
  congr 1
  exact List.filter_congr fun x _ => by simp [hf x]

@[simp] theorem fabric_writeBlock (s : State) (lo : Nat) (data : List Byte) (b : Nat) : (writeBlock s lo data b).fabric = s.fabric := by
  unfold writeBlock
  dsimp only
  split <;> rfl

@[simp] theorem fabric_hbmWrite (s : State) (a : Nat) (data : List Byte) : (hbmWrite s a data).fabric = s.fabric := by
  unfold hbmWrite
  split
  · rfl
  · exact foldl_keeps State.fabric (fun t b => fabric_writeBlock t a data b) _ s

@[simp] theorem fabric_hbmUndefine (s : State) (a len : Nat) : (hbmUndefine s a len).fabric = s.fabric := by
  unfold hbmUndefine
  refine (foldl_keeps State.fabric (fun _ _ => ?_) _ _).trans ?_ <;> rfl

@[simp] theorem fabric_undefineAll (s : State) (es : List (Nat × Nat)) : (undefineAll s es).fabric = s.fabric := by
  unfold undefineAll
  exact foldl_keeps State.fabric (fun t e => fabric_hbmUndefine t e.1 e.2) es s

/-- What a piece that enters its bank queue adds to the load of a bank. -/
theorem bankLoad_enterBank_le (s : State) (x : Piece) (k : Nat) :
    bankLoad (enterBank s x) k ≤ bankLoad s k + if locBank x.loc = k then 1 else 0 := by
  unfold enterBank
  split
  · have same : bankLoad (enterWrite (movePiece s { x with st := .queued }) x) k = bankLoad (movePiece s { x with st := .queued }) k := by
      unfold enterWrite
      dsimp only
      rw [bankLoad_congr (s := (meetWrites (movePiece s { x with st := .queued }) x.unit16 x.row x.addr x.len).1) (by simp), bankLoad_meetWrites]
    rw [same]
    simpa using bankLoad_movePiece_le s { x with st := .queued } k
  · simpa using bankLoad_movePiece_le s { x with st := .queued, data := hbmRead s x.addr x.len, bad := poisonIn s x.addr x.len } k

/-- The arbiters fill no bank queue beyond 16. -/
theorem bankLoad_arbitrate_le (n : Nat) : ∀ s : State, (∀ k, bankLoad s k ≤ 16) → ∀ k, bankLoad (arbitrate n s) k ≤ 16 := by
  induction n with
  | zero => exact fun _ h => h
  | succ n ih =>
    intro s h
    unfold arbitrate
    split
    case h_1 x next =>
      refine ih _ fun k => Nat.le_trans (bankLoad_enterBank_le s x k) ?_
      have room : bankLoad s (locBank x.loc) < 16 := by
        have := (List.mem_filter.mp (mem_enterable next)).2
        rw [Bool.and_eq_true] at this
        exact (bankRoom_iff ..).mp this.2
      split
      case isTrue same => rw [← same]; omega
      case isFalse => exact h k
    case h_2 => exact h

theorem bankLoad_routePieces_le {s : State} (h : ∀ k, bankLoad s k ≤ 16) : ∀ k, bankLoad (routePieces s) k ≤ 16 :=
  bankLoad_arbitrate_le _ _ fun k => Nat.le_trans (bankLoad_crossbar_le _ k s) (h k)

theorem bankLoad_serveChannel_le (s : State) (c k : Nat) : bankLoad (serveChannel s c) k ≤ bankLoad s k := by
  unfold serveChannel
  dsimp only
  split
  · exact Nat.le_refl _
  · split
    · exact Nat.le_refl _
    · split
      · exact bankLoad_movePiece_of_not_queued (by simp) k
      · exact Nat.le_refl _

theorem bankLoad_serveChannels_le (l : List Nat) (k : Nat) : ∀ s : State, bankLoad (l.foldl serveChannel s) k ≤ bankLoad s k := by
  induction l with
  | nil => exact fun _ => Nat.le_refl _
  | cons c l ih => exact fun s => Nat.le_trans (ih _) (bankLoad_serveChannel_le s c k)

theorem bankLoad_fabricTick_le {s : State} (h : ∀ k, bankLoad s k ≤ 16) (k : Nat) : bankLoad (fabricTick s) k ≤ 16 := by
  refine Nat.le_trans (bankLoad_serveChannels_le _ k _) (bankLoad_routePieces_le (fun j => Nat.le_trans ?_ (h j)) k)
  exact (List.filter_sublist.filter _).length_le

/-! ### Pseudo-channels (R314-R316) -/

/-- A piece whose bank has a head already is no head. -/
theorem not_mem_heads {l acc : List Piece} {x : Piece} (hHead : ∃ y ∈ acc, locBank y.loc = locBank x.loc) (hAcc : x ∉ acc) :
    x ∉ l.foldl (fun l x => if l.any (fun y => locBank y.loc == locBank x.loc) then l else l ++ [x]) acc := by
  induction l generalizing acc with
  | nil => exact hAcc
  | cons a l ih =>
    obtain ⟨y, hy, bank⟩ := hHead
    rw [List.foldl_cons]
    split
    case isTrue => exact ih ⟨y, hy, bank⟩ hAcc
    case isFalse fresh =>
      refine ih ⟨y, by simp [hy], bank⟩ ?_
      rw [List.mem_append, List.mem_singleton]
      rintro (old | rfl)
      · exact hAcc old
      · exact fresh (List.any_eq_true.mpr ⟨y, hy, beq_iff_eq.mpr bank⟩)

/-- The head of a bank's queue is the first of the list that lies in its bank. -/
theorem mem_heads {l acc : List Piece} {x : Piece}
    (h : x ∈ l.foldl (fun l x => if l.any (fun y => locBank y.loc == locBank x.loc) then l else l ++ [x]) acc) (hAcc : x ∉ acc) :
    ∃ l1 l2, l = l1 ++ x :: l2 ∧ ∀ z ∈ l1, locBank z.loc ≠ locBank x.loc := by
  induction l generalizing acc with
  | nil => exact absurd h hAcc
  | cons a l ih =>
    by_cases same : a = x
    · exact ⟨[], l, by rw [same]; rfl, by simp⟩
    · rw [List.foldl_cons] at h
      generalize hNext : (if acc.any (fun y => locBank y.loc == locBank a.loc) then acc else acc ++ [a]) = next at h
      have mem : x ∉ next := by
        rw [← hNext]
        split <;> simp [hAcc, Ne.symm same]
      have bank : locBank a.loc ≠ locBank x.loc := by
        intro bank
        refine not_mem_heads ?_ mem h
        rw [← hNext]
        split
        case isTrue has =>
          obtain ⟨y, hy, head⟩ := List.any_eq_true.mp has
          exact ⟨y, hy, (beq_iff_eq.mp head).trans bank⟩
        case isFalse => exact ⟨a, by simp, bank⟩
      obtain ⟨l1, l2, cut, first⟩ := ih h mem
      exact ⟨a :: l1, l2, by rw [cut]; rfl, by simpa [bank] using first⟩

/-- The bank tells the pseudo-channel. -/
theorem locChannel_of_locBank {a b : Nat} (h : locBank a = locBank b) : locChannel a = locChannel b := by
  have below (n : Nat) : bits n 19 15 ^^^ bits n 24 20 < 2 ^ 5 :=
    Nat.xor_lt_two_pow (Nat.mod_lt _ (by decide)) (Nat.mod_lt _ (by decide))
  have ha := below a
  have hb := below b
  unfold locBank at h
  omega

/-- A filtered list cut at an element comes from a cut of the list. -/
theorem exists_cut_of_filter {α : Type} {p : α → Bool} {x : α} : ∀ {l l1 l2 : List α}, l.filter p = l1 ++ x :: l2 →
    ∃ k1 k2, l = k1 ++ x :: k2 ∧ k1.filter p = l1
  | [], l1, l2, h => by simp at h
  | a :: l, l1, l2, h => by
    by_cases ha : p a = true
    · rw [List.filter_cons_of_pos ha] at h
      cases l1 with
      | nil =>
        obtain ⟨rfl, -⟩ := List.cons.inj h
        exact ⟨[], l, rfl, rfl⟩
      | cons b l1 =>
        obtain ⟨rfl, rest⟩ := List.cons.inj h
        obtain ⟨k1, k2, cut, kept⟩ := exists_cut_of_filter rest
        exact ⟨a :: k1, k2, by rw [cut]; rfl, by rw [List.filter_cons_of_pos ha, kept]⟩
    · rw [List.filter_cons_of_neg ha] at h
      obtain ⟨k1, k2, cut, kept⟩ := exists_cut_of_filter h
      exact ⟨a :: k1, k2, by rw [cut]; rfl, by rw [List.filter_cons_of_neg ha, kept]⟩

/-- A head of a bank queue: queued, of the pseudo-channel, and no piece of its bank queued before it. -/
theorem mem_bankHeads {s : State} {c : Nat} {x : Piece} (h : x ∈ bankHeads s c) : x.st = .queued ∧ locChannel x.loc = c ∧
    ∃ l1 l2, s.fabric.pieces = l1 ++ x :: l2 ∧ ∀ z ∈ l1, z.st = .queued → locBank z.loc ≠ locBank x.loc := by
  obtain ⟨l1, l2, cut, first⟩ := mem_heads h (List.not_mem_nil)
  have mem : x ∈ s.fabric.pieces.filter (fun x => x.st == .queued && locChannel x.loc == c) := by simp [cut]
  obtain ⟨-, both⟩ := List.mem_filter.mp mem
  rw [Bool.and_eq_true, beq_iff_eq, beq_iff_eq] at both
  obtain ⟨queued, channel⟩ := both
  obtain ⟨k1, k2, whole, kept⟩ := exists_cut_of_filter cut
  refine ⟨queued, channel, k1, k2, whole, fun z hz hq bank => first z ?_ bank⟩
  rw [← kept]
  exact List.mem_filter.mpr ⟨hz, by simp [hq, locChannel_of_locBank bank, channel]⟩

/-- What a pseudo-channel that serves adds to the pieces: a head of its direction, granted now. -/
theorem serveChannel_grants {s : State} {c : Nat} {x : Piece} (h : x ∈ (serveChannel s c).fabric.pieces) (new : x ∉ s.fabric.pieces) :
    ∃ y ∈ bankHeads s c, x = { y with st := .granted s.time.mono } ∧ y.write = (tget {} s.fabric.channels c).write ∧
      bankServes s y = true ∧ (tget {} s.fabric.channels c).busy ≤ 10 * s.time.mono := by
  unfold serveChannel at h
  dsimp only at h
  split at h
  case isTrue => exact absurd h new
  case isFalse free =>
    split at h
    · exact absurd h new
    · split at h
      case h_1 y found =>
        obtain ⟨head, direction⟩ := List.mem_filter.mp (List.mem_of_find?_eq_some found)
        refine ⟨y, head, ?_, beq_iff_eq.mp direction, List.find?_some found, ?_⟩
        · rcases List.mem_append.mp h with old | granted
          · exact absurd (List.mem_filter.mp old).1 new
          · exact List.mem_singleton.mp granted
        · simp only [Bool.or_eq_true, decide_eq_true_eq, not_or, Nat.not_lt] at free
          exact free.2
      case h_2 => exact absurd h new

/-- A pseudo-channel turns where its direction has no head, or has had its 64 accesses. -/
theorem serveChannel_turns {s : State} {c : Nat} (heads : bankHeads s c ≠ []) (free : (tget {} s.fabric.channels c).busy ≤ 10 * s.time.mono)
    (turn : (∀ x ∈ bankHeads s c, x.write ≠ (tget {} s.fabric.channels c).write) ∨
      (64 ≤ (tget {} s.fabric.channels c).run ∧ ∃ x ∈ bankHeads s c, x.write ≠ (tget {} s.fabric.channels c).write)) :
    serveChannel s c = turnChannel s c := by
  have serves : ((bankHeads s c).isEmpty || decide (10 * s.time.mono < (tget {} s.fabric.channels c).busy)) = false := by
    simp [heads, free]
  unfold serveChannel
  dsimp only
  rw [serves, if_neg (by simp), if_pos]
  rcases turn with none | ⟨long, x, hx, other⟩
  · have same : (bankHeads s c).filter (fun x => x.write == (tget {} s.fabric.channels c).write) = [] := by simpa using none
    simp [same]
  · have : (bankHeads s c).any (fun x => x.write != (tget {} s.fabric.channels c).write) = true :=
      List.any_eq_true.mpr ⟨x, hx, by simp [other]⟩
    simp [this, long]

/-! ### Transactions (R318-R322, R333-R339, R345) -/

theorem trkOf_id {s : State} {e : Nat} {t : Trk} (h : trkOf s e = some t) : t.id = e := beq_iff_eq.mp (List.find?_some (p := fun t : Trk => t.id == e) h)

theorem withoutMemory_trk {s t : State} (h : withoutMemory t = withoutMemory s) : t.trk = s.trk := by
  change (withoutMemory t).trk = (withoutMemory s).trk
  rw [h]

/-- A write to HBM does not look at the fabric. -/
theorem hbmKey_congr {s t : State} (hw : t.windows = s.windows) (hf : t.fitted = s.fitted) (a : Nat) : hbmKey t a = hbmKey s a := by
  unfold hbmKey windowAt windowMap windowStacks stacksIn populated windowOf
  rw [hw, hf]

/-- What a block's write leaves of HBM and its poison depends on HBM, its poison and the windows alone. -/
theorem writeBlock_congr {s t : State} (hw : t.windows = s.windows) (hf : t.fitted = s.fitted) (hm : t.hbm = s.hbm) (hp : t.poison = s.poison)
    (lo : Nat) (data : List Byte) (b : Nat) : (writeBlock t lo data b).hbm = (writeBlock s lo data b).hbm ∧
      (writeBlock t lo data b).poison = (writeBlock s lo data b).poison ∧ (writeBlock t lo data b).windows = (writeBlock s lo data b).windows ∧
      (writeBlock t lo data b).fitted = (writeBlock s lo data b).fitted := by
  unfold writeBlock poisoned
  dsimp only
  rw [hbmKey_congr hw hf, hp]
  split
  · exact ⟨hm, hp, hw, hf⟩
  · exact ⟨by rw [hm], rfl, hw, hf⟩

theorem hbm_hbmWrite_congr {s t : State} (hw : t.windows = s.windows) (hf : t.fitted = s.fitted) (hm : t.hbm = s.hbm) (hp : t.poison = s.poison)
    (a : Nat) (data : List Byte) : (hbmWrite t a data).hbm = (hbmWrite s a data).hbm := by
  have blocks (l : List Nat) : ∀ s t : State, t.windows = s.windows → t.fitted = s.fitted → t.hbm = s.hbm → t.poison = s.poison →
      (l.foldl (fun t b => writeBlock t a data b) t).hbm = (l.foldl (fun t b => writeBlock t a data b) s).hbm := by
    induction l with
    | nil => exact fun _ _ _ _ hm _ => hm
    | cons b l ih =>
      intro s t hw hf hm hp
      obtain ⟨hm', hp', hw', hf'⟩ := writeBlock_congr hw hf hm hp a data b
      exact ih _ _ hw' hf' hm' hp'
  unfold hbmWrite
  split
  · exact hm
  · exact blocks _ s t hw hf hm hp

/-- The crossbar passes the one piece on its way. -/
theorem crossbar_of_one {s : State} {x : Piece} (only : s.fabric.pieces = [x]) (sent : x.st = .sent) (source : pieceSource x < 6) :
    crossbar 1 s = { movePiece s { x with st := .waiting } with
      fabric := { (movePiece s { x with st := .waiting }).fabric with source := (pieceSource x + 1) % 6 } } := by
  have first (k : Nat) : firstSent s k = if pieceSource x = k then some x else none := by
    simp [firstSent, only, sent, List.find?_cons]
    split <;> simp_all
  have found : ((List.range 6).map (fun i => (s.fabric.source + i) % 6)).findSome? (firstSent s) = some x := by
    have turn : ∃ k ∈ (List.range 6).map (fun i => (s.fabric.source + i) % 6), (firstSent s k).isSome = true := by
      refine ⟨pieceSource x, List.mem_map.mpr ⟨(pieceSource x + 6 - s.fabric.source % 6) % 6, List.mem_range.mpr (Nat.mod_lt _ (by decide)), ?_⟩, ?_⟩
      · omega
      · simp [first]
    obtain ⟨y, hy⟩ := Option.isSome_iff_exists.mp (List.findSome?_isSome_iff.mpr turn)
    obtain ⟨k, -, hk⟩ := List.exists_of_findSome?_eq_some hy
    rw [first] at hk
    split at hk
    · rw [hy, hk]
    · exact absurd hk (by simp)
  unfold crossbar
  rw [found]
  rfl

/-- The one piece that waits enters its bank queue. -/
theorem arbitrate_of_one {s : State} {x : Piece} (only : s.fabric.pieces = [x]) (waiting : x.st = .waiting) (rank : pieceRank s x ≤ 7) :
    arbitrate 1 s = enterBank s x := by
  have room : bankRoom s (locBank x.loc) = true := by simp [bankRoom, only, waiting]
  have can : enterable s = [x] := by simp [enterable, only, waiting, room]
  have next : nextPiece s = some x := by simp [nextPiece, can, Nat.min_eq_right rank]
  unfold arbitrate
  rw [next]
  rfl

/-- A write that is alone in the fabric meets no other. -/
theorem meetWrites_of_alone {s : State} {x : Piece} (u : BitVec 16) (row : Option (Nat × Nat)) (a len : Nat) (only : s.fabric.pieces = [x])
    (queued : x.st = .queued) (alone : ∀ y ∈ s.quays, y.2.threads = []) : meetWrites s u row a len = (s, []) := by
  have none : rowsMet s u row a len = [] := by
    rw [rowsMet, List.flatMap_eq_nil_iff]
    intro y hy
    rw [alone y hy]
    rfl
  cases row <;> simp [meetWrites, none, only, pieceMet, queued]

/-- The one piece in the fabric, a write on its way, enters its bank queue with its bytes. -/
theorem routePieces_of_one_write {s : State} {x : Piece} (only : s.fabric.pieces = [x]) (write : x.write = true) (sent : x.st = .sent)
    (clean : x.spoil = []) (source : pieceSource x < 6) (rank : pieceRank s x ≤ 7) (alone : ∀ y ∈ s.quays, y.2.threads = []) :
    (routePieces s).fabric.pieces = [{ x with st := .queued }] ∧ (routePieces s).hbm = (hbmWrite s x.addr x.data).hbm := by
  generalize hu : crossbar 1 s = u
  rw [crossbar_of_one only sent source] at hu
  have uPieces : u.fabric.pieces = [{ x with st := .waiting }] := by simp [← hu, movePiece, setPieces, only, samePiece]
  have uRank : pieceRank u { x with st := .waiting } ≤ 7 := by rw [← hu]; exact rank
  have routed : routePieces s = enterBank u { x with st := .waiting } := by
    rw [routePieces, only]
    change arbitrate 1 (crossbar 1 s) = _
    rw [crossbar_of_one only sent source, hu]
    exact arbitrate_of_one uPieces rfl uRank
  generalize hv : movePiece u { x with st := .queued } = v
  have vPieces : v.fabric.pieces = [{ x with st := .queued }] := by simp [← hv, movePiece, setPieces, uPieces, samePiece]
  have enters : enterBank u { x with st := .waiting } = hbmWrite v x.addr x.data := by
    have met := meetWrites_of_alone x.unit16 x.row x.addr x.len vPieces rfl (by rw [← hv, ← hu]; exact alone)
    have entered : enterBank u { x with st := .waiting } = enterWrite v { x with st := .waiting } := (if_pos write).trans (by rw [← hv])
    rw [entered]
    simp [enterWrite, met, clean, undefineAll]
  rw [routed, enters, fabric_hbmWrite]
  refine ⟨vPieces, hbm_hbmWrite_congr ?_ ?_ ?_ ?_ ..⟩ <;> rw [← hv, ← hu] <;> rfl

/-- A write transaction whose pieces are all in their bank queues: what `writeDone` makes of it. -/
theorem writeDone_eq (s : State) (t : Trk) : ∃ v, writeDone s t = pumpRun (issueAll v) t.run ∧ v.trk = s.trk.filter (fun y => y.id != t.id) ∧
    v.hbm = s.hbm ∧ v.fabric = s.fabric := ⟨_, rfl, rfl, rfl, rfl⟩

/-- A read that meets no error finds what its pieces took, and the poison that they met. -/
theorem readFinds_of_clean (s : State) (t : Trk) : readFinds s t [] 0 = (s, [], false, readPoison s t.id) := by
  simp [readFinds, readErrors, odeccAdd]

section Entry
variable {s : State} {e : Nat} {t : Trk} (entry : trkOf s e = some t)
include entry

theorem exec_hbmWriteEnqueue : exec (.hbmWriteEnqueue e) s =
    .next (if t.req.write then (if pieceOutside (routePieces s) e then routePieces s else writeDone (routePieces s) t) else s) := by
  simp only [exec, execHbmWriteEnqueue, entry]

theorem exec_hbmReadComplete (errs : List BlockErr) (n : Nat) : exec (.hbmReadComplete e errs n) s =
    .next (if t.req.write || t.req.cls == 5 || !readServed s e then s else readComplete s t errs n) := by
  simp only [exec, execHbmReadComplete, entry]

/-- A read that has been served and meets no error completes. -/
theorem exec_hbmReadComplete_of_served (read : t.req.write = false) (cls : t.req.cls ≠ 5) (served : readServed s e = true) :
    exec (.hbmReadComplete e [] 0) s = .next (readComplete s t [] 0) := by
  rw [exec_hbmReadComplete entry]
  simp [read, cls, served]

end Entry

/-- What is raised joins the occurrences with its source id. -/
theorem raise_occ (s : State) (level unit code : Nat) (berth : Option Nat) (task : Option Word) (detail : Nat) :
    ∃ o, (raise s level unit code berth task detail).occ = s.occ ++ [o] ∧ o.source = sourceId level unit code := by
  unfold raise
  dsimp only
  split
  · split <;> exact ⟨_, rfl, rfl⟩
  · exact ⟨_, rfl, rfl⟩

/-- A grant that is withdrawn: the piece waits again, the entry is kept, and ARB_HOLD is raised. -/
theorem withdraw_spec (s : State) (x : Piece) : (withdraw s x).trk = s.trk ∧ { x with st := .waiting } ∈ (withdraw s x).fabric.pieces ∧
    ∃ o ∈ (withdraw s x).occ, o.source = sourceId 2 (locStack x.loc / 4) 0x2B := by
  obtain ⟨task, detail, withdrawn⟩ : ∃ task detail, withdraw s x =
      movePiece (raise s 2 (locStack x.loc / 4) 0x2B x.berth task detail) { x with st := .waiting } := ⟨_, _, rfl⟩
  obtain ⟨o, occ, source⟩ := raise_occ s 2 (locStack x.loc / 4) 0x2B x.berth task detail
  rw [withdrawn]
  refine ⟨?_, List.mem_append_right _ (List.mem_singleton_self _), o, ?_, source⟩
  · change (raise s 2 (locStack x.loc / 4) 0x2B x.berth task detail).trk = s.trk
    rw [raise_only]
  · change o ∈ (raise s 2 (locStack x.loc / 4) 0x2B x.berth task detail).occ
    simp [occ]

/-! ### Commits (R337, R341) -/

/-- A table made of a list of numbers. -/
theorem tget_map_self {α : Type} (d : α) (f : Nat → α) {l : List Nat} {n : Nat} (h : n ∈ l) : tget d (l.map (fun n => (n, f n))) n = f n := by
  induction l with
  | nil => exact absurd h (List.not_mem_nil)
  | cons a l ih =>
    by_cases same : a = n
    · simp [tget, same]
    · simpa [tget, same] using ih ((List.mem_cons.mp h).resolve_left (Ne.symm same))

/-- Entries written at numbers other than `i` leave it. -/
theorem tget_foldl_tput_ne {α : Type} (d : α) (g : Nat → Nat) (f : Nat → α) {l : List Nat} {i : Nat} (h : ∀ n ∈ l, g n ≠ i) :
    ∀ t : Tbl α, tget d (l.foldl (fun t n => tput t (g n) (f n)) t) i = tget d t i := by
  induction l with
  | nil => exact fun _ => rfl
  | cons a l ih =>
    intro t
    rw [List.foldl_cons, ih (fun n hn => h n (List.mem_cons_of_mem _ hn)), tget_tput_ne _ _ _ _ _ (h a (List.mem_cons_self ..))]

/-- Entries written at different numbers read back. -/
theorem tget_foldl_tput {α : Type} (d : α) (g : Nat → Nat) (f : Nat → α) (hg : ∀ m n, g m = g n → m = n) {l : List Nat} {n : Nat} (h : n ∈ l) :
    ∀ t : Tbl α, tget d (l.foldl (fun t n => tput t (g n) (f n)) t) (g n) = f n := by
  induction l with
  | nil => exact absurd h (List.not_mem_nil)
  | cons a l ih =>
    intro t
    rw [List.foldl_cons]
    by_cases later : n ∈ l
    · exact ih later _
    · obtain rfl := (List.mem_cons.mp h).resolve_right later
      rw [tget_foldl_tput_ne d g f (fun m hm same => later (by rwa [← hg _ _ same])), tget_tput_same]

/-- The ranks that a commit puts in force: those of its own quay (R341). -/
theorem arbRankOf_commitArb (s : State) (q r n : Nat) (hn : n < 6) :
    arbRankOf (commitArb s q) r n = if r = q then regBits s (qyBase q + 0x100 + 4 * n) 2 0 else arbRankOf s r n := by
  unfold arbRankOf commitArb
  split
  case isTrue same =>
    subst same
    exact tget_foldl_tput n (8 * r + ·) (fun n => regBits s (qyBase r + 0x100 + 4 * n) 2 0) (fun _ _ h => by omega) (List.mem_range.mpr hn) _
  case isFalse other =>
    refine tget_foldl_tput_ne n (8 * q + ·) (fun n => regBits s (qyBase q + 0x100 + 4 * n) 2 0) (fun m hm => ?_) _
    have := List.mem_range.mp hm
    omega

/-- Settles O36: transactions by the guards of their commands, arbiters and pseudo-channels by the lemmas above. -/
theorem transactionsAndCommits : Obligations.TransactionsAndCommits := by
  unfold Obligations.TransactionsAndCommits
  intro s
  refine ⟨fun e t entry => ⟨fun write outside => ?_, fun write inside => ?_, fun x write only mine isWrite sent clean source rank alone => ?_,
      fun read => ?_, fun errs n read waits => ?_, fun read cls served clean => ?_, fun a l read cls served poison => ?_, fun early => ?_, fun late => ?_⟩,
    fun e short => ?_, fun e x long => ?_, fun q line f t fill entry => ⟨fun errs n waits => ?_, fun mine served => ?_⟩, fun k t => ?_,
    fun refused => ?_, fun taken => ?_, fun q => ?_, fun x => nextPiece_spec, nextPiece_ne_none,
    fun h k => ⟨bankLoad_routePieces_le h k, bankLoad_fabricTick_le h k⟩, fun c x granted new => ?_, fun c => serveChannel_turns⟩
  · simp [exec_hbmWriteEnqueue entry, write, outside]
  · simp [exec_hbmWriteEnqueue entry, write, inside]
  · obtain ⟨pieces, hbm⟩ := routePieces_of_one_write only isWrite sent clean source rank alone
    have inside : pieceOutside (routePieces s) e = false := by simp [pieceOutside, trkPieces, pieces]
    obtain ⟨v, done, trk, hbm', fabric⟩ := writeDone_eq (routePieces s) t
    refine ⟨v, by simp [exec_hbmWriteEnqueue entry, write, inside, done], ?_, hbm'.trans hbm, by rw [fabric, pieces]⟩
    rw [trk, withoutMemory_trk (withoutMemory_routePieces s)]
  · simp [exec_hbmWriteEnqueue entry, read]
  · simp [exec_hbmReadComplete entry, waits]
  · rw [exec_hbmReadComplete_of_served entry read cls served, readComplete, readFinds_of_clean, trkOf_id entry, clean]
    rfl
  · rw [exec_hbmReadComplete_of_served entry read cls served, readComplete, readFinds_of_clean, trkOf_id entry, poison]
  · simp [exec, execMemTmo, entry, Nat.not_le.mpr early]
  · simp [exec, execMemTmo, entry, late]
  · simp [exec, execArbHold, short]
  · exact ⟨withdraw s x, by simp [exec, execArbHold, long], withdraw_spec s x⟩
  · simp [exec, execPrefetchFillReturn, fill, entry, waits]
  · have runs : exec (.prefetchFillReturn q line [] 0) s = .next (fillReturn s t f [] 0) := by
      simp [exec, execPrefetchFillReturn, fill, entry, served]
    rw [runs, fillReturn, readFinds_of_clean, mine]
    simp [or_assoc]
  · simp [exec, execRefreshRateCheck]
  · simp [exec, execMwTrkCommit, commitTrk, refused]
  · refine ⟨{ s with trkErr := false, trkAlloc := (List.range 21).map (fun n => (n, trkShadow s n)) },
      by simp [exec, execMwTrkCommit, commitTrk, taken], rfl, fun n hn => ?_⟩
    exact tget_map_self 0 (trkShadow s) (List.mem_range.mpr hn)
  · refine ⟨commitArb s q, rfl, rfl, fun n hn => ?_, fun r n other hn => ?_⟩
    · rw [arbRankOf_commitArb _ _ _ _ hn, if_pos rfl]
    · rw [arbRankOf_commitArb _ _ _ _ hn, if_neg (fun same => other (Fin.ext same))]
  · obtain ⟨y, head, eq, direction, serves, free⟩ := serveChannel_grants granted new
    obtain ⟨queued, channel, l1, l2, cut, first⟩ := mem_bankHeads head
    exact ⟨l1, y, l2, cut, eq, queued, channel, direction, serves, free, first⟩

end Sys2Proof.Proofs
end

section
/-! Transfers that complete, and stash writes that wait for a page (R160-R168, R219-R228, R290, R291). -/

namespace Sys2Proof.Proofs

open Sys2Proof Sys2Proof.Machine Sys2Proof.Safety Sys2Proof.Laws

/-! ### Acknowledging a run's requests -/

theorem sendWaiting_only (n k : Nat) : ∀ s : State, OnlyRecords s (sendWaiting n k s) := by
  induction k with
  | zero => exact OnlyRecords.refl
  | succ k ih =>
    intro s
    unfold sendWaiting
    dsimp only
    split
    · split
      · split
        · refine OnlyRecords.trans (OnlyRecords.trans ?_ (sendOn_only ..)) (ih _)
          rfl
        · rfl
      · rfl
    · rfl

theorem setReqs_only (s : State) (n : Nat) (l : List OutReq) : OnlyRecords s (setReqs s n l) := by
  refine OnlyRecords.trans ?_ (sendWaiting_only n l.length _)
  rfl

/-- Acknowledging a run's requests leaves all but connections and what they send. -/
theorem ackHold_only (s : State) (b id : Nat) : OnlyRecords s (ackHold s b id) := by
  unfold ackHold
  split
  · exact setReqs_only ..
  · rfl

/-! ### What leaves the buffers alone -/

theorem bufOf_congr {s t : State} (h : t.decks = s.decks) (k : Nat) (half : Bool) : bufOf t k half = bufOf s k half := by
  unfold bufOf deckOf
  rw [h]

/-- Zero records stand beside the buffers. -/
theorem bufOf_setZrec (r : Run) (reg : Nat) (nz : List Bool) (s : State) (d k : Nat) (half : Bool) :
    bufOf (setZrec r reg nz s d) k half = bufOf s k half := by
  unfold bufOf setZrec
  dsimp only
  rw [deckOf_setDeck]
  by_cases same : d = k
  · rw [if_pos same, ← same]
  · rw [if_neg same]

/-- Freeing pages leaves the decks and HBM. -/
theorem freePage_keeps (b : Nat) (s : State) (p : Nat) : (freePage b s p).decks = s.decks ∧ (freePage b s p).hbm = s.hbm := by
  unfold freePage
  exact ⟨foldl_keeps State.decks (by intros; rfl) _ s, foldl_keeps State.hbm (by intros; rfl) _ s⟩

theorem freePages_keep (b : Nat) (l : List Nat) (s : State) :
    (l.foldl (freePage b) s).decks = s.decks ∧ (l.foldl (freePage b) s).hbm = s.hbm :=
  ⟨foldl_keeps State.decks (fun t p => (freePage_keeps b t p).1) l s, foldl_keeps State.hbm (fun t p => (freePage_keeps b t p).2) l s⟩

/-! ### Runs that leave -/

/-- A run that is done leaves. -/
theorem runs_runDone (s : State) (r : Run) : (runDone s r).runs = s.runs.filter (fun x => x.id != r.id) := by
  have only : OnlyFlags (dropRun (inuseDown s r.cmd.uses) r.id) (runDone s r) := (added_flagAdd ..).only
  rw [OnlyFlags] at only
  rw [only, inuseDown_only]
  rfl

theorem not_mem_runDone (s : State) (r : Run) : ∀ x ∈ (runDone s r).runs, x.id ≠ r.id := by
  intro x hx
  rw [runs_runDone] at hx
  simpa using (List.mem_filter.mp hx).2

/-! ### LOAD_COMPLETE -/

/-- The zero map of a run is told by the decks. -/
theorem loadZmap_congr {s t : State} (h : t.decks = s.decks) (r : Run) : Machine.loadZmap t r = Machine.loadZmap s r := by
  unfold Machine.loadZmap extentOf gangM gangN deckQuad tileOf deckOf
  rw [h]

/-- What a LOAD leaves where it completes: its fragments in its members, and HBM as it was unless it writes a zero map. -/
theorem loadFinish_spec {s : State} {r : Run} {remote : List Byte} {mem : HbmOutcome} {n reg : Nat} {g h rel : Bool}
    (hOp : opOf r.cmd.word = .load n reg g h rel) (hMap : Machine.loadZmap s r = 0 ∨ mem.late = none) :
    ∃ u, loadFinish s r remote mem = runDone u r ∧
      (∀ k half, bufOf u k half = bufOf (r.decks.foldl (loadMember (loadBytes r remote)
        (extentOf s (ctxDeck r.q r.c) (tileOf s (ctxDeck r.q r.c) reg) g false) r.desc r reg) s) k half) ∧
      (Machine.loadZmap s r = 0 → u.hbm = s.hbm) := by
  unfold Machine.loadZmap at hMap ⊢
  unfold loadFinish
  rw [hOp] at hMap ⊢
  dsimp only at hMap ⊢
  generalize hs1 : r.decks.foldl _ s = s1
  have hbm1 : s1.hbm = s.hbm := by
    rw [← hs1]
    exact foldl_keeps State.hbm (by intros; rfl) _ s
  generalize hs2 : (if r.desc.cls = 0 && isOperand (tileOf s (ctxDeck r.q r.c) reg).role then _ else s1) = s2
  have bufs2 (k : Nat) (half : Bool) : bufOf s2 k half = bufOf s1 k half := by
    rw [← hs2]
    split
    · exact foldl_keeps (bufOf · k half) (fun t d => bufOf_setZrec r reg _ t d k half) _ s1
    · rfl
  have hbm2 : s2.hbm = s1.hbm := by
    rw [← hs2]
    split
    · exact foldl_keeps State.hbm (by intros; rfl) _ s1
    · rfl
  generalize hz : zmapBytes _ _ r.desc r.zcur = z at hMap ⊢
  generalize (if h && rel then _ else []) = pages
  generalize hp : (if z = 0 then (s2, true) else _) = p
  have wrote : p.2 = true ∧ p.1.decks = s2.decks ∧ (z = 0 → p.1.hbm = s2.hbm) := by
    rw [← hp]
    split
    case isTrue => exact ⟨rfl, rfl, fun _ => rfl⟩
    case isFalse some =>
      rw [hMap.resolve_left some]
      obtain ⟨same, whole⟩ := withoutMemory_stepWrite s2 (ctxRequester s2 r.q r.c r.berth 4) r.zcur (zmapData z
        ((List.range (kBlocks (tileOf s (ctxDeck r.q r.c) reg) (extentOf s (ctxDeck r.q r.c) (tileOf s (ctxDeck r.q r.c) reg) g false))).map (fun j =>
          r.decks.any (fun k => blockNonzero s1 (boundHalf s1 r k reg) reg j k))))
      exact ⟨whole, by rw [onlyMemory_of same], fun none => absurd none some⟩
  obtain ⟨whole, decks, hbm⟩ := wrote
  obtain ⟨pageDecks, pageHbm⟩ := freePages_keep r.berth pages p.1
  refine ⟨pages.foldl (freePage r.berth) p.1, by rw [loadEnd, whole, if_pos rfl], fun k half => ?_, fun none => ?_⟩
  · rw [bufOf_congr (pageDecks.trans decks), bufs2]
  · rw [pageHbm, hbm none, hbm2, hbm1]

/-! ### Stash writes that wait -/

/-- The lowest free number, if any number below the bound is free. -/
theorem lowestFree_isSome {n : Nat} {l : List Nat} : (lowestFree n l).isSome = true ↔ ∃ f, f < n ∧ f ∉ l := by
  simp [lowestFree, List.find?_isSome]

/-- Whether a page of a stash write can be met (R219, R221, R370). -/
theorem pageOpen_iff (s : State) (b p : Nat) : pageOpen s b p = true ↔ thas (berthOf s b).hold.recalling p = false ∧
    (pageState s b p ≠ .free ∨ ((residentFrames (berthOf s b).hold).length < holdHwm s b ∧
      ∃ f, f < (berthOf s b).cfg.holdFrames ∧ f ∉ framesTaken (berthOf s b).hold)) := by
  have frame : (frameFor s b).isSome = true ↔ (residentFrames (berthOf s b).hold).length < holdHwm s b ∧
      ∃ f, f < (berthOf s b).cfg.holdFrames ∧ f ∉ framesTaken (berthOf s b).hold := by
    unfold frameFor
    dsimp only
    split
    case isTrue low => rw [lowestFree_isSome]; exact (and_iff_right low).symm
    case isFalse high => simp [high]
  simp [pageOpen, frame]

/-- The stash write that has waited longest goes on where its page can be met. -/
theorem wakeStash_eq {s : State} {b : Nat} {r : Run} {w : Nat × Nat} (oldest : oldestStalled s b = some r) (waits : r.waitHold = some w)
    (moves : taskMoves s b = true) :
    wakeStash s b = if pageOpen s b w.1 then issueRun (placeAll r.id r.q r.c b r.decks false r.stash s) r.id else s := by
  simp [wakeStash, oldest, waits, moves]

/-- Settles O11: completions by their guards and `loadFinish_spec`; a stash write goes on exactly where `pageOpen` holds. -/
theorem transferCompletesAndStashWakes : Obligations.TransferCompletesAndStashWakes := by
  unfold Obligations.TransferCompletesAndStashWakes
  refine ⟨fun s q c r oldest moves => ⟨fun n reg g h rel remote mem hOp idle => ?_, fun n reg g h sn hOp done => ?_⟩,
    fun s b r w moves => ⟨fun oldest waits => ⟨fun free open_ => ?_, fun shut => ?_⟩, fun long waits => ?_, fun none => ?_⟩⟩
  · have opcode : opcodeOf r.cmd.word = 0x02 := by rw [← opcodeFor_opOf, hOp]; rfl
    have runs : exec (.loadComplete q c remote mem) s = .next (if r.failed then failRun (ackHold s r.berth r.id) r.id
        else if remote.length = remoteLen r && holdLinkOk s r && (Machine.loadZmap s r == 0 || stepRoom s r.decks)
          then loadFinish (ackHold s r.berth r.id) r remote mem else s) := by
      simp [exec, execLoadComplete, oldest, opcode, moves, idle]
    refine ⟨fun failed => by simp [runs, failed], fun whole len link => ⟨fun map full => by simp [runs, whole, map, full], fun room => ?_⟩⟩
    have only := ackHold_only s r.berth r.id
    generalize ackHold s r.berth r.id = a at only runs
    have decks : a.decks = s.decks := by rw [OnlyRecords] at only; rw [only]
    have hbm : a.hbm = s.hbm := by rw [OnlyRecords] at only; rw [only]
    rw [← loadZmap_congr decks] at room runs ⊢
    obtain ⟨u, finish, bufs, keeps⟩ := loadFinish_spec (remote := remote) hOp (room.imp_right (·.2))
    refine ⟨runDone u r, u, ?_, rfl, not_mem_runDone u r, bufs, fun none => (keeps none).trans hbm⟩
    rw [runs, ← finish]
    have ready : (Machine.loadZmap a r == 0 || stepRoom s r.decks) = true := by
      rcases room with none | ⟨free, -⟩
      · simp [none]
      · simp [free]
    simp [whole, len, link, ready]
  · have opcode : opcodeOf r.cmd.word = 0x03 := by rw [← opcodeFor_opOf, hOp]; rfl
    have runs : exec (.storeComplete q c) s =
        .next (if r.failed then failRun (ackHold s r.berth r.id) r.id else runDone (ackHold s r.berth r.id) r) := by
      simp [exec, execStoreComplete, completeWrites, oldest, opcode, moves, done]
    exact ⟨fun failed => by simp [runs, failed], fun whole => by simp [runs, whole]⟩
  · have met : pageOpen s b w.1 = true := (pageOpen_iff ..).mpr ⟨free, open_⟩
    exact congrArg _ ((wakeStash_eq oldest waits moves).trans (if_pos met))
  · have unmet : ¬ pageOpen s b w.1 = true := by
      rw [pageOpen_iff]
      rintro ⟨free, open_⟩
      rcases shut with recalled | ⟨nowhere, full⟩
      · rw [free] at recalled
        exact Bool.noConfusion recalled
      · rcases open_ with somewhere | ⟨low, f, below, fresh⟩
        · exact somewhere nowhere
        · exact full.elim (fun high => absurd low (Nat.not_lt.mpr high)) (fun taken => fresh (taken f below))
    exact congrArg _ ((wakeStash_eq oldest waits moves).trans (if_neg unmet))
  · simp [exec, execHoldStallTimeout, long, waits, moves]
  · have quiet : stalledLong s b = .none := by
      rw [stalledLong, List.find?_eq_none]
      intro x hx
      rcases hWait : x.waitHold with _ | v
      · simp
      · intro long
        simp only [Bool.and_eq_true, beq_iff_eq, Bool.not_eq_true', decide_eq_true_eq] at long
        obtain ⟨berth, free, late⟩ := long
        rcases none x hx v berth hWait with recalled | early
        · rw [free] at recalled
          exact Bool.noConfusion recalled
        · omega
    simp [exec, execHoldStallTimeout, quiet]

end Sys2Proof.Proofs
end

section
/-! Packed elements bit by bit (R49): what a packed element reads, what writing one leaves, and with them the tile that a unit writes
(O12, O19). Codes and values of the element formats (R44-R48, R70-R76): a code's value converts back to it. -/

namespace Sys2Proof.Proofs
open Sys2Proof Sys2Proof.Machine Sys2Proof.Safety Sys2Proof.Laws

/-! ### Bytes and bits -/

theorem testBit_leNat (l : List Byte) (i : Nat) : (leNat l).testBit i = (l.getD (i / 8) 0).getLsbD (i % 8) := by
  induction l generalizing i with
  | nil => simp [leNat]
  | cons b r ih =>
    have split : leNat (b :: r) = 2 ^ 8 * leNat r + b.toNat := by simp [leNat]; omega
    rw [split, Nat.testBit_two_pow_mul_add _ b.isLt]
    by_cases h : i < 8
    · rw [if_pos h, Nat.div_eq_of_lt h, Nat.mod_eq_of_lt h]; rfl
    · have hi : i / 8 = (i - 8) / 8 + 1 := by omega
      have hm : (i - 8) % 8 = i % 8 := by omega
      rw [if_neg h, ih, hi, List.getD_cons_succ, hm]

@[simp] theorem length_natLe (len n : Nat) : (natLe len n).length = len := by
  induction len generalizing n with
  | zero => rfl
  | succ k ih => simp [natLe, ih]

theorem leNat_natLe (len n : Nat) : leNat (natLe len n) = n % 256 ^ len := by
  induction len generalizing n with
  | zero => simp [natLe, leNat, Nat.mod_one]
  | succ k ih =>
    simp only [natLe, leNat, ih, BitVec.toNat_ofNat]
    have h : 256 ^ (k + 1) = 256 * 256 ^ k := Nat.pow_succ'
    rw [h, Nat.mod_mul]

@[simp] theorem length_readBytes (m : Mem) (a n : Nat) : (m.readBytes a n).length = n := by
  induction n generalizing a with
  | zero => rfl
  | succ k ih => simp [Mem.readBytes, ih]

theorem getD_readBytes (m : Mem) (a n i : Nat) (h : i < n) : (m.readBytes a n).getD i 0 = m.read (a + i) := by
  induction n generalizing a i with
  | zero => omega
  | succ k ih =>
    cases i with
    | zero => rfl
    | succ j =>
      have : a + (j + 1) = a + 1 + j := by omega
      rw [this]
      exact ih _ _ (by omega)

/-- Bit `i` of a memory, its bytes laid end to end. -/
def bitAt (m : Mem) (i : Nat) : Bool := (m.read (i / 8)).getLsbD (i % 8)

/-- The number of whole bytes holds the memory's bits. -/
theorem testBit_bytes (m : Mem) (a n i : Nat) (h : i < 8 * n) : (leNat (m.readBytes a n)).testBit i = bitAt m (8 * a + i) := by
  have hd : (8 * a + i) / 8 = a + i / 8 := by omega
  have hm : (8 * a + i) % 8 = i % 8 := by omega
  rw [testBit_leNat, getD_readBytes _ _ _ _ (by omega), bitAt, hd, hm]

/-- Writing a number's bytes writes its bits, and leaves every other bit. -/
theorem bitAt_writeBytes (m : Mem) (a n v i : Nat) :
    bitAt (m.writeBytes a (natLe n v)) i = if 8 * a ≤ i ∧ i < 8 * (a + n) then v.testBit (i - 8 * a) else bitAt m i := by
  unfold bitAt
  rw [read_writeBytes, length_natLe]
  by_cases h : 8 * a ≤ i ∧ i < 8 * (a + n)
  · have hb : a ≤ i / 8 ∧ i / 8 < a + n := by omega
    have hd : (i - 8 * a) / 8 = i / 8 - a := by omega
    have hm : (i - 8 * a) % 8 = i % 8 := by omega
    have key := testBit_leNat (natLe n v) (i - 8 * a)
    have h256 : (256 : Nat) ^ n = 2 ^ (8 * n) := by rw [Nat.pow_mul]
    rw [leNat_natLe, h256, Nat.testBit_mod_two_pow, hd, hm] at key
    rw [if_pos h, if_pos hb, ← key]
    simp only [Bool.and_eq_right_iff_imp, decide_eq_true_eq]
    omega
  · have hb : ¬ (a ≤ i / 8 ∧ i / 8 < a + n) := by omega
    rw [if_neg h, if_neg hb]

/-- A field of a number replaced, bit by bit. -/
theorem testBit_fieldPut (n v w sh i : Nat) :
    (n - n / 2 ^ sh % 2 ^ w * 2 ^ sh + v % 2 ^ w * 2 ^ sh).testBit i =
      if sh ≤ i ∧ i < sh + w then v.testBit (i - sh) else n.testBit i := by
  have hlow : n % 2 ^ sh < 2 ^ sh := Nat.mod_lt _ (Nat.two_pow_pos _)
  have hv : v % 2 ^ w < 2 ^ w := Nat.mod_lt _ (Nat.two_pow_pos _)
  have hn : n = 2 ^ sh * (2 ^ w * (n / 2 ^ sh / 2 ^ w) + n / 2 ^ sh % 2 ^ w) + n % 2 ^ sh := by
    rw [Nat.div_add_mod, Nat.div_add_mod]
  have hput : n - n / 2 ^ sh % 2 ^ w * 2 ^ sh + v % 2 ^ w * 2 ^ sh =
      2 ^ sh * (2 ^ w * (n / 2 ^ sh / 2 ^ w) + v % 2 ^ w) + n % 2 ^ sh := by
    generalize n / 2 ^ sh / 2 ^ w = hi at hn ⊢
    generalize n / 2 ^ sh % 2 ^ w = mid at hn ⊢
    generalize n % 2 ^ sh = low at hn ⊢
    generalize v % 2 ^ w = x at *
    rw [Nat.mul_add] at hn ⊢
    rw [Nat.mul_comm mid, Nat.mul_comm x]
    omega
  rw [hput, Nat.testBit_two_pow_mul_add _ hlow, Nat.testBit_two_pow_mul_add _ hv]
  by_cases h1 : i < sh
  · rw [if_pos h1, if_neg (by omega), Nat.testBit_mod_two_pow]; simp [h1]
  · rw [if_neg h1]
    by_cases h2 : i - sh < w
    · rw [if_pos h2, if_pos (by omega), Nat.testBit_mod_two_pow]; simp [h2]
    · rw [if_neg h2, if_neg (by omega), Nat.testBit_div_two_pow, Nat.testBit_div_two_pow]
      congr 1; omega

theorem bits_eq_div_mod (n w sh : Nat) (h : 1 ≤ w) : bits n (sh + w - 1) sh = n / 2 ^ sh % 2 ^ w := by
  have : sh + w - 1 + 1 - sh = w := by omega
  rw [bits, this, Nat.shiftRight_eq_div_pow]

/-! ### Packed elements (R49) -/

/-- The first bit of element `j` of a packed row that starts at `a`. -/
def packedBit (a fmt j : Nat) : Nat := 8 * a + j * fmtWidth fmt

theorem packedBit_eq (a fmt j : Nat) : packedBit a fmt j = 8 * (a + j * fmtWidth fmt / 8) + j * fmtWidth fmt % 8 := by
  unfold packedBit; omega

/-- The bytes of a packed element hold its last bit. -/
theorem lt_packedBytes (j w : Nat) : j % 8 + w ≤ 8 * cdiv (j % 8 + w) 8 := by unfold cdiv; omega

/-- A packed element is its bits of the memory. -/
theorem testBit_readPacked (m : Mem) (a fmt j i : Nat) (hw : 1 ≤ fmtWidth fmt) :
    (readPacked m a fmt j).testBit i = (decide (i < fmtWidth fmt) && bitAt m (packedBit a fmt j + i)) := by
  have room := lt_packedBytes (j * fmtWidth fmt) (fmtWidth fmt)
  simp only [readPacked]
  rw [bits_eq_div_mod _ _ _ hw, Nat.testBit_mod_two_pow, Nat.testBit_div_two_pow]
  by_cases hi : i < fmtWidth fmt
  · rw [testBit_bytes _ _ _ _ (by omega), packedBit_eq, decide_eq_true hi, Nat.add_assoc, Nat.add_comm i]
  · simp [hi]

/-- Writing a packed element writes its bits and leaves every other bit of the memory. -/
theorem bitAt_writePacked (m : Mem) (a fmt j v i : Nat) (hw : 1 ≤ fmtWidth fmt) :
    bitAt (writePacked m a fmt j v) i =
      if packedBit a fmt j ≤ i ∧ i < packedBit a fmt j + fmtWidth fmt then v.testBit (i - packedBit a fmt j) else bitAt m i := by
  have room := lt_packedBytes (j * fmtWidth fmt) (fmtWidth fmt)
  simp only [writePacked]
  rw [bits_eq_div_mod _ _ _ hw, bitAt_writeBytes, testBit_fieldPut, packedBit_eq]
  generalize a + j * fmtWidth fmt / 8 = base at *
  generalize cdiv (j * fmtWidth fmt % 8 + fmtWidth fmt) 8 = n at *
  generalize j * fmtWidth fmt % 8 = sh at *
  by_cases hin : 8 * base + sh ≤ i ∧ i < 8 * base + sh + fmtWidth fmt
  · have hbytes : 8 * base ≤ i ∧ i < 8 * (base + n) := by omega
    have hfield : sh ≤ i - 8 * base ∧ i - 8 * base < sh + fmtWidth fmt := by omega
    rw [if_pos hin, if_pos hbytes, if_pos hfield, Nat.sub_sub]
  · rw [if_neg hin]
    by_cases hbytes : 8 * base ≤ i ∧ i < 8 * (base + n)
    · have hfield : ¬ (sh ≤ i - 8 * base ∧ i - 8 * base < sh + fmtWidth fmt) := by omega
      have hpos : 8 * base + (i - 8 * base) = i := by omega
      rw [if_pos hbytes, if_neg hfield, testBit_bytes _ _ _ _ (by omega), hpos]
    · rw [if_neg hbytes]

/-- A packed element reads as its bits do. -/
theorem readPacked_congr {m m' : Mem} {a fmt j : Nat} (hw : 1 ≤ fmtWidth fmt)
    (h : ∀ i < fmtWidth fmt, bitAt m (packedBit a fmt j + i) = bitAt m' (packedBit a fmt j + i)) :
    readPacked m a fmt j = readPacked m' a fmt j := by
  refine Nat.eq_of_testBit_eq fun i => ?_
  rw [testBit_readPacked _ _ _ _ _ hw, testBit_readPacked _ _ _ _ _ hw]
  by_cases hi : i < fmtWidth fmt
  · rw [h i hi]
  · simp [hi]

theorem readPacked_writePacked_same (m : Mem) (a fmt j v : Nat) (hw : 1 ≤ fmtWidth fmt) :
    readPacked (writePacked m a fmt j v) a fmt j = v % 2 ^ fmtWidth fmt := by
  refine Nat.eq_of_testBit_eq fun i => ?_
  rw [testBit_readPacked _ _ _ _ _ hw, bitAt_writePacked _ _ _ _ _ _ hw, Nat.testBit_mod_two_pow]
  by_cases hi : i < fmtWidth fmt
  · simp [hi]
  · simp [hi]

/-- An element that shares no bit with the one written reads as before. -/
theorem readPacked_writePacked_apart {m : Mem} {a fmt j a' j' v : Nat} (hw : 1 ≤ fmtWidth fmt)
    (h : packedBit a fmt j + fmtWidth fmt ≤ packedBit a' fmt j' ∨ packedBit a' fmt j' + fmtWidth fmt ≤ packedBit a fmt j) :
    readPacked (writePacked m a' fmt j' v) a fmt j = readPacked m a fmt j :=
  readPacked_congr hw fun i hi => by rw [bitAt_writePacked _ _ _ _ _ _ hw, if_neg (by omega)]

/-- Different elements of a packed row share no bit. -/
theorem packedBit_apart (a fmt : Nat) {i j : Nat} (h : i < j) : packedBit a fmt i + fmtWidth fmt ≤ packedBit a fmt j := by
  have : (i + 1) * fmtWidth fmt ≤ j * fmtWidth fmt := Nat.mul_le_mul_right _ h
  unfold packedBit
  rw [Nat.add_mul] at this
  omega

/-! ### Values of codes (R44-R48) and their conversion (R70-R76) -/

/-- What the parameters of a float format satisfy: the largest finite value is the last code but for the infinities and the NaNs. -/
structure FmtFits (f : FloatFmt) : Prop where
  mant : 1 ≤ f.mbits
  expn : 2 ≤ f.ebits
  nans : f.hasInf = true → f.hasNan = true
  maxM : f.maxM = 2 ^ (f.mbits + 1) - 1 - (if !f.hasInf && f.hasNan then 1 else 0)
  maxE : f.maxE + f.bias + f.mbits + 1 + (if f.hasInf then 1 else 0) = (2 ^ f.ebits : Nat)

theorem fmtFits_of_floatFmt {fmt : Nat} {f : FloatFmt} (h : floatFmt fmt = some f) : FmtFits f := by
  unfold floatFmt at h
  split at h <;> cases h
  all_goals (constructor <;> decide)

/-- The fields of a code: its sign, its exponent and its fraction. -/
theorem code_eq_fields (f : FloatFmt) (n : Nat) (he : 2 ≤ f.ebits) (hn : n < 2 ^ (f.ebits + f.mbits + 1)) :
    n = bits n (f.ebits + f.mbits - 1) f.mbits * 2 ^ f.mbits + n % 2 ^ f.mbits + flagAt (bit n (f.ebits + f.mbits)) (f.ebits + f.mbits) := by
  have hex : bits n (f.ebits + f.mbits - 1) f.mbits = n / 2 ^ f.mbits % 2 ^ f.ebits := by
    rw [Nat.add_comm f.ebits, bits_eq_div_mod _ _ _ (by omega)]
  have hlow : n % 2 ^ (f.ebits + f.mbits) = n / 2 ^ f.mbits % 2 ^ f.ebits * 2 ^ f.mbits + n % 2 ^ f.mbits := by
    rw [Nat.add_comm f.ebits, Nat.pow_add, Nat.mod_mul, Nat.mul_comm, Nat.add_comm]
  have htop : flagAt (bit n (f.ebits + f.mbits)) (f.ebits + f.mbits) = n / 2 ^ (f.ebits + f.mbits) * 2 ^ (f.ebits + f.mbits) := by
    have hq : n / 2 ^ (f.ebits + f.mbits) < 2 := Nat.div_lt_of_lt_mul (by rw [← Nat.pow_succ]; exact hn)
    unfold flagAt bit
    rw [Nat.testBit_eq_decide_div_mod_eq, Nat.mod_eq_of_lt hq]
    generalize n / 2 ^ (f.ebits + f.mbits) = q at *
    match q, hq with
    | 0, _ => simp
    | 1, _ => simp
  rw [hex, htop, ← hlow, Nat.mod_add_div']

/-- A magnitude that the format's exponent holds is not above its largest finite value. -/
theorem lt_max_false {f : FloatFmt} (hf : FmtFits f) {k : Nat} {q : Int} (hk : k < 2 ^ (f.mbits + 1)) (hq : q ≤ f.maxE)
    (htop : q = f.maxE → k ≤ f.maxM) : FV.lt (.fin false f.maxM f.maxE) (.fin false k q) = false := by
  have hlow : min f.maxE q = q := Int.min_eq_right hq
  have h2 : 2 ^ (f.mbits + 1) = 2 * 2 ^ f.mbits := Nat.pow_succ'
  have hone : 2 ≤ 2 ^ f.mbits := Nat.pow_le_pow_right (n := 2) (by omega) hf.mant
  have hM : 2 ^ f.mbits ≤ f.maxM := by rw [hf.maxM]; split <;> omega
  have hge : k ≤ f.maxM * 2 ^ (f.maxE - q).toNat := by
    by_cases hEq : q = f.maxE
    · simpa [hEq] using htop hEq
    · have hs : 2 ^ 1 ≤ 2 ^ (f.maxE - q).toNat := Nat.pow_le_pow_right (by omega) (by omega)
      have := Nat.mul_le_mul hM hs
      omega
  simp only [FV.lt, FV.expo, hlow, FV.scaled, Int.sub_self, Bool.false_eq_true, if_false, decide_eq_false_iff_not, Int.not_lt,
    Int.toNat_zero, Nat.shiftLeft_eq, Nat.pow_zero, Nat.mul_one]
  exact Int.ofNat_le.mpr hge

@[simp] theorem roundShift_zero (rnd : Rnd) (d m : Nat) : roundShift rnd d m 0 = m := by simp [roundShift]

/-- The value that a magnitude `m` of exponent `e` already in the format's range converts to. -/
theorem toFloat_fin {f : FloatFmt} (hf : FmtFits f) (rnd : Rnd) (ovf : Bool) (d : Nat) (neg : Bool) {m : Nat} {e : Int} (hm : m ≠ 0)
    (hexp : max ((Nat.log2 m : Int) + e) (1 - f.bias) - f.mbits = e) (hk : m < 2 ^ (f.mbits + 1)) (he : e ≤ f.maxE)
    (htop : e = f.maxE → m ≤ f.maxM) :
    toFloat f rnd ovf d (.fin neg m e) = encodeMag f m e + flagAt neg (f.ebits + f.mbits) := by
  simp only [toFloat, if_neg hm, hexp, Int.sub_self, roundShift_zero, lt_max_false hf hk he htop, Bool.false_eq_true, if_false]

/-- The value of a float code's fields. -/
def fieldsVal (f : FloatFmt) (neg : Bool) (ex fr : Nat) : FV :=
  if f.hasInf && ex == 2 ^ f.ebits - 1 then (if fr = 0 then .inf neg else .nan)
  else if !f.hasInf && f.hasNan && ex == 2 ^ f.ebits - 1 && fr == 2 ^ f.mbits - 1 then .nan
  else if ex = 0 then .fin neg fr (1 - f.bias - f.mbits)
  else .fin neg (fr + 2 ^ f.mbits) (ex - f.bias - f.mbits)

theorem floatVal_eq_fieldsVal (f : FloatFmt) (n : Nat) :
    floatVal f n = fieldsVal f (bit n (f.ebits + f.mbits)) (bits n (f.ebits + f.mbits - 1) f.mbits) (n % 2 ^ f.mbits) := rfl

/-- A finite value of the format has an exponent up to the largest, and with that one no more than the largest magnitude. -/
theorem exponent_le_max {f : FloatFmt} (hf : FmtFits f) {ex fr : Nat} (hex : ex < 2 ^ f.ebits) (hfr : fr < 2 ^ f.mbits)
    (hInf : ¬ (f.hasInf && ex == 2 ^ f.ebits - 1) = true)
    (hNan : ¬ (!f.hasInf && f.hasNan && ex == 2 ^ f.ebits - 1 && fr == 2 ^ f.mbits - 1) = true) :
    (ex : Int) - f.bias - f.mbits ≤ f.maxE ∧ ((ex : Int) - f.bias - f.mbits = f.maxE → fr + 2 ^ f.mbits ≤ f.maxM) := by
  have hpow : 2 ^ (f.mbits + 1) = 2 * 2 ^ f.mbits := Nat.pow_succ'
  have hE := hf.maxE
  have hM := hf.maxM
  cases hi : f.hasInf with
  | true =>
    simp only [hi, Bool.true_and, beq_iff_eq, Bool.not_true, Bool.false_and, Bool.false_eq_true, if_true, if_false] at hInf hE hM
    omega
  | false =>
    cases hn : f.hasNan with
    | true =>
      simp only [hi, hn, Bool.not_false, Bool.true_and, Bool.and_eq_true, beq_iff_eq, if_true, Bool.false_eq_true, if_false]
        at hNan hE hM
      omega
    | false =>
      simp only [hi, hn, Bool.not_false, Bool.true_and, Bool.false_eq_true, if_false] at hE hM
      omega

/-- The value of a code's fields converts back to the code of the fields, a NaN to the canonical one. -/
theorem toFloat_fieldsVal {f : FloatFmt} (hf : FmtFits f) (rnd : Rnd) (ovf : Bool) (d : Nat) (neg : Bool) {ex fr : Nat}
    (hex : ex < 2 ^ f.ebits) (hfr : fr < 2 ^ f.mbits) :
    toFloat f rnd ovf d (fieldsVal f neg ex fr) =
      if (fieldsVal f neg ex fr).isNan then canonNan f else ex * 2 ^ f.mbits + fr + flagAt neg (f.ebits + f.mbits) := by
  have hpow : 2 ^ (f.mbits + 1) = 2 * 2 ^ f.mbits := Nat.pow_succ'
  have hpe : 2 ^ 2 ≤ 2 ^ f.ebits := Nat.pow_le_pow_right (n := 2) (by omega) hf.expn
  unfold fieldsVal
  by_cases hInf : (f.hasInf && ex == 2 ^ f.ebits - 1) = true
  · obtain ⟨hi, hx⟩ : f.hasInf = true ∧ ex = 2 ^ f.ebits - 1 := by simpa using hInf
    rw [if_pos hInf]
    by_cases hz : fr = 0
    · rw [if_pos hz]
      simp only [toFloat, hi, if_true, FV.isNan, Bool.false_eq_true, if_false, infCode, Nat.shiftLeft_eq, ← hx, hz, Nat.add_zero]
    · simp [if_neg hz, toFloat, FV.isNan, hf.nans hi]
  rw [if_neg hInf]
  by_cases hNan : (!f.hasInf && f.hasNan && ex == 2 ^ f.ebits - 1 && fr == 2 ^ f.mbits - 1) = true
  · have hh : f.hasNan = true := by simp only [Bool.and_eq_true] at hNan; exact hNan.1.1.2
    rw [if_pos hNan]
    simp only [toFloat, FV.isNan, hh, if_true]
  rw [if_neg hNan]
  obtain ⟨hle, htop⟩ := exponent_le_max hf hex hfr hInf hNan
  by_cases hz : ex = 0
  · rw [if_pos hz]
    subst hz
    by_cases hf0 : fr = 0
    · subst hf0
      simp [toFloat, FV.isNan]
    · have hlog : fr.log2 < f.mbits := (Nat.log2_lt hf0).2 hfr
      have hE := hf.maxE
      have hM := hf.maxM
      have hm : 2 ^ 1 ≤ 2 ^ f.mbits := Nat.pow_le_pow_right (n := 2) (by omega) hf.mant
      rw [toFloat_fin hf rnd ovf d neg hf0 (by omega) (by omega) (by split at hE <;> omega) (fun _ => by split at hM <;> omega)]
      simp only [FV.isNan, Bool.false_eq_true, if_false, encodeMag, if_pos hfr]
      omega
  · rw [if_neg hz]
    have hlog : (fr + 2 ^ f.mbits).log2 = f.mbits := by
      rw [Nat.log2_eq_iff (by omega)]; omega
    have hne : fr + 2 ^ f.mbits ≠ 0 := by omega
    rw [toFloat_fin hf rnd ovf d neg hne (by omega) (by omega) hle htop]
    have hsmall : ¬ (fr + 2 ^ f.mbits < 2 ^ f.mbits) := by omega
    have hbig : ¬ (fr + 2 ^ f.mbits = 2 ^ (f.mbits + 1)) := by omega
    have hexp : ((ex : Int) - f.bias - f.mbits + f.mbits + f.bias).toNat = ex := by omega
    simp only [FV.isNan, Bool.false_eq_true, if_false, encodeMag, if_neg hsmall, if_neg hbig, hexp, Nat.shiftLeft_eq,
      Nat.add_sub_cancel]

/-- The value of a float code converts back to the code, a NaN to the canonical one. -/
theorem toFloat_floatVal {f : FloatFmt} (hf : FmtFits f) (rnd : Rnd) (ovf : Bool) (d n : Nat) (hn : n < 2 ^ (f.ebits + f.mbits + 1)) :
    toFloat f rnd ovf d (floatVal f n) = if (floatVal f n).isNan then canonNan f else n := by
  have hex : bits n (f.ebits + f.mbits - 1) f.mbits < 2 ^ f.ebits := by
    rw [Nat.add_comm f.ebits, bits_eq_div_mod _ _ _ (by have := hf.expn; omega)]
    exact Nat.mod_lt _ (Nat.two_pow_pos _)
  rw [floatVal_eq_fieldsVal, toFloat_fieldsVal hf rnd ovf d _ hex (Nat.mod_lt _ (Nat.two_pow_pos _)), ← code_eq_fields f n hf.expn hn]

/-- The value of an integer within the range converts back to it. -/
theorem toInt_ofInt (rnd : Rnd) (d : Nat) {lo hi i : Int} (hlo : lo ≤ i) (hhi : i ≤ hi) : toInt rnd d lo hi (FV.ofInt i) = i := by
  simp only [FV.ofInt, toInt, Int.neg_zero, roundShift_zero, clampInt]
  by_cases h : i < 0
  · simp only [h, decide_true, if_true]; omega
  · simp only [h, decide_false, Bool.false_eq_true, if_false]; omega

theorem fmtWidth_of_floatFmt {fmt : Nat} {f : FloatFmt} (h : floatFmt fmt = some f) : fmtWidth fmt = f.ebits + f.mbits + 1 := by
  unfold floatFmt at h
  split at h <;> cases h
  all_goals rfl

/-- The value of an integer code converts back to the code. -/
theorem toElem_elemVal_int {fmt n : Nat} (rnd : Rnd) (ovf : Bool) (d : Nat) (h : fmt = 8 ∨ fmt = 9) (hn : n < 2 ^ fmtWidth fmt) :
    toElem fmt rnd ovf d (elemVal fmt false n) = n := by
  obtain rfl | rfl := h
  · have hn' : n < 256 := hn
    have hr : (-128 : Int) ≤ signed 8 n ∧ signed 8 n ≤ 127 := by unfold signed; split <;> omega
    show unsigned 8 (toInt rnd d (-128) 127 (FV.ofInt (signed 8 n))) = n
    rw [toInt_ofInt rnd d hr.1 hr.2]
    unfold unsigned signed; split <;> omega
  · have hn' : n < 16 := hn
    have hr : (-8 : Int) ≤ signed 4 n ∧ signed 4 n ≤ 7 := by unfold signed; split <;> omega
    show unsigned 4 (toInt rnd d (-8) 7 (FV.ofInt (signed 4 n))) = n
    rw [toInt_ofInt rnd d hr.1 hr.2]
    unfold unsigned signed; split <;> omega

/-- The value of a code of any format converts back to the code, a NaN to its format's canonical one. -/
theorem toElem_elemVal (fmt n : Nat) (rnd : Rnd) (ovf : Bool) (d : Nat) (hok : fmtOk fmt = true) (hn : n < 2 ^ fmtWidth fmt) :
    toElem fmt rnd ovf d (elemVal fmt false n) =
      (if (elemVal fmt false n).isNan then (match floatFmt fmt with
        | some f => canonNan f
        | none => 0)
       else n) := by
  cases hf : floatFmt fmt with
  | some f =>
    rw [fmtWidth_of_floatFmt hf] at hn
    simp only [toElem, elemVal, hf]
    exact toFloat_floatVal (fmtFits_of_floatFmt hf) rnd ovf d n hn
  | none =>
    have hint : fmt = 8 ∨ fmt = 9 := by
      have hlt : fmt < 10 := by simpa [fmtOk] using hok
      have float : ∀ f < 8, floatFmt f ≠ none := by decide
      rcases Nat.lt_or_ge fmt 8 with below | above
      · exact absurd hf (float fmt below)
      · omega
    have hnan : (elemVal fmt false n).isNan = false := by simp [elemVal, hf, FV.ofInt, FV.isNan]
    simpa only [hnan, Bool.false_eq_true, if_false] using toElem_elemVal_int rnd ovf d hint hn

/-- Settles O12: packed elements bit by bit, and the fields of a float code rebuilt from its value. -/
theorem storedElementsReadBack : Obligations.StoredElementsReadBack := by
  refine ⟨fun m a fmt i j v hw => ⟨readPacked_writePacked_same m a fmt j v hw, fun hij => ?_⟩,
    fun fmt n rnd ovf d hok hn => toElem_elemVal fmt n rnd ovf d hok hn⟩
  obtain h | h := Nat.lt_or_gt_of_ne hij
  · exact readPacked_writePacked_apart hw (.inl (packedBit_apart a fmt h))
  · exact readPacked_writePacked_apart hw (.inr (packedBit_apart a fmt h))

/-! ### Cells of a tile (R140, R142) -/

/-- Folding steps none of which touches what `read` reads. -/
theorem read_foldl_untouched {α β γ : Type} (f : β → α → β) (read : β → γ) (l : List α)
    (h : ∀ b, ∀ x ∈ l, read (f b x) = read b) (b : β) : read (l.foldl f b) = read b := by
  induction l generalizing b with
  | nil => rfl
  | cons x r ih => rw [List.foldl_cons, ih fun b y hy => h b y (by simp [hy]), h b x (by simp)]

/-- Folding steps of which one alone, met once, touches what `read` reads. -/
theorem read_foldl_once {α β γ : Type} (f : β → α → β) (read : β → γ) (h : γ → γ) {k : α} {l : List α} (hk : k ∈ l) (hl : l.Nodup)
    (hit : ∀ b, read (f b k) = h (read b)) (miss : ∀ b, ∀ x ∈ l, x ≠ k → read (f b x) = read b) (b : β) :
    read (l.foldl f b) = h (read b) := by
  induction l generalizing b with
  | nil => simp at hk
  | cons x r ih =>
    obtain ⟨hx, hr⟩ := List.nodup_cons.1 hl
    rw [List.foldl_cons]
    by_cases hxk : x = k
    · subst hxk
      rw [read_foldl_untouched f read r (fun b y hy => miss b y (by simp [hy]) fun e => hx (e ▸ hy)), hit]
    · rw [ih ((List.mem_cons.1 hk).resolve_left (Ne.symm hxk)) hr (fun b y hy => miss b y (by simp [hy])),
        miss b x (by simp) hxk]

/-- The elements of a stored row lie within its pitch. -/
theorem rowBits_le_pitch (t : TileReg) {j : Nat} (hj : j < t.cols) :
    j * fmtWidth t.fmt + fmtWidth t.fmt ≤ 8 * tilePitch t := by
  have : (j + 1) * fmtWidth t.fmt ≤ t.cols * fmtWidth t.fmt := Nat.mul_le_mul_right _ hj
  rw [Nat.add_mul, Nat.one_mul] at this
  unfold tilePitch roundUp packedBytes cdiv
  omega

/-- Two cells of a tile that fits its lane groups share no bit. -/
theorem cells_apart {t : TileReg} (fits : footHi t ≤ 393216) {i j i' j' : Nat} (hi : i < tileRows t) (hj : j < t.cols)
    (hi' : i' < tileRows t) (hj' : j' < t.cols) (h : i ≠ i' ∨ j ≠ j') :
    packedBit (rowAddr t i) t.fmt j + fmtWidth t.fmt ≤ packedBit (rowAddr t i') t.fmt j' ∨
      packedBit (rowAddr t i') t.fmt j' + fmtWidth t.fmt ≤ packedBit (rowAddr t i) t.fmt j := by
  by_cases hii : i = i'
  · subst hii
    obtain h | h := Nat.lt_or_gt_of_ne (h.resolve_left (by simp))
    · exact .inl (packedBit_apart _ _ h)
    · exact .inr (packedBit_apart _ _ h)
  · have hrow := rowBits_le_pitch t hj
    have hrow' := rowBits_le_pitch t hj'
    have within : ∀ k, k < tileRows t → (k / 16 + 1) * tilePitch t ≤ t.rows16 * tilePitch t := fun k hk =>
      Nat.mul_le_mul_right _ (by unfold tileRows at hk; omega)
    have hk := within i hi
    have hk' := within i' hi'
    have hfit : 64 * t.base + t.rows16 * tilePitch t ≤ 393216 := by unfold footHi elemArea at fits; omega
    by_cases hlane : i % 16 = i' % 16
    · have rise : ∀ a b, a < b → (a + 1) * tilePitch t ≤ b * tilePitch t := fun a b hab => Nat.mul_le_mul_right _ hab
      have hup := rise (i / 16) (i' / 16)
      have hdown := rise (i' / 16) (i / 16)
      unfold packedBit rowAddr laneAddr
      simp only [Nat.add_mul, Nat.one_mul] at *
      generalize tilePitch t = p at *
      generalize j * fmtWidth t.fmt = x at *
      generalize j' * fmtWidth t.fmt = y at *
      rw [hlane]
      obtain hlt | hlt : i / 16 < i' / 16 ∨ i' / 16 < i / 16 := by omega
      · have := hup hlt; omega
      · have := hdown hlt; omega
    · unfold packedBit rowAddr laneAddr
      simp only [Nat.add_mul, Nat.one_mul] at *
      generalize tilePitch t = p at *
      generalize j * fmtWidth t.fmt = x at *
      generalize j' * fmtWidth t.fmt = y at *
      generalize i / 16 * p = u at *
      generalize i' / 16 * p = v at *
      omega

/-- A cell written without MX holds its converted value, and leaves every other cell of its tile. -/
theorem tileCode_writeCell {t : TileReg} (hmx : t.mx = false) (hok : fmtOk t.fmt = true) (fits : footHi t ≤ 393216) {i j i' j' : Nat}
    (hi : i < tileRows t) (hj : j < t.cols) (hi' : i' < tileRows t) (hj' : j' < t.cols)
    (rnd : Rnd) (ovf : Bool) (draw : Nat) (val : Nat → Nat → FV) (m : Mem) :
    tileCode (writeCell t rnd ovf draw val m i' j') t i j =
      if i' = i ∧ j' = j then toElem t.fmt rnd ovf draw (val i' j') % 2 ^ fmtWidth t.fmt else tileCode m t i j := by
  have hw : 1 ≤ fmtWidth t.fmt := by
    have hlt : t.fmt < 10 := by simpa [fmtOk] using hok
    have width : ∀ f < 10, 1 ≤ fmtWidth f := by decide
    exact width _ hlt
  simp only [writeCell, hmx, Bool.false_eq_true, if_false, tileCode]
  by_cases h : i' = i ∧ j' = j
  · obtain ⟨rfl, rfl⟩ := h
    rw [if_pos ⟨rfl, rfl⟩, readPacked_writePacked_same _ _ _ _ _ hw]
  · rw [if_neg h]
    have apart := cells_apart fits hi hj hi' hj' (by omega)
    refine readPacked_congr hw fun k hk => ?_
    rw [bitAt_writePacked _ _ _ _ _ _ hw, if_neg (by omega)]

/-- Settles O19: the cells of a tile share no bit, and each is written once. -/
theorem tileHoldsConvertedValues : Obligations.TileHoldsConvertedValues := by
  intro m t rnd ovf base on val i j hmx hok fits hi hj
  unfold writeTile
  have cell : ∀ (b : Mem) (i' j' : Nat), i' < tileRows t → j' < t.cols →
      tileCode (if on i' j' then writeCell t rnd ovf (Config.random16 (base + i' * t.cols + j')).toNat val b i' j' else b) t i j =
        if i' = i ∧ j' = j then
          (if on i j then toElem t.fmt rnd ovf (Config.random16 (base + i * t.cols + j)).toNat (val i j) % 2 ^ fmtWidth t.fmt
          else tileCode b t i j)
        else tileCode b t i j := by
    intro b i' j' hi' hj'
    by_cases hon : on i' j' = true
    · rw [if_pos hon, tileCode_writeCell hmx hok fits hi hj hi' hj']
      by_cases h : i' = i ∧ j' = j
      · obtain ⟨rfl, rfl⟩ := h
        simp [hon]
      · rw [if_neg h, if_neg h]
    · rw [if_neg hon]
      by_cases h : i' = i ∧ j' = j
      · obtain ⟨rfl, rfl⟩ := h
        simp [hon]
      · rw [if_neg h]
  refine read_foldl_once _ (fun b => tileCode b t i j) (fun x => if on i j then _ else x) (List.mem_range.2 hi) List.nodup_range
    (fun b => ?_) (fun b i' hi' hne => ?_) m
  · refine read_foldl_once _ (fun b => tileCode b t i j) (fun x => if on i j then _ else x) (List.mem_range.2 hj) List.nodup_range
      (fun b => ?_) (fun b j' hj' hne => ?_) b
    · exact (cell b i j hi hj).trans (if_pos ⟨rfl, rfl⟩)
    · exact (cell b i j' hi (List.mem_range.1 hj')).trans (if_neg fun h => hne h.2)
  · refine read_foldl_untouched _ (fun b => tileCode b t i j) _ (fun b j' hj' => ?_) b
    exact (cell b i' j' (List.mem_range.1 hi') (List.mem_range.1 hj')).trans (if_neg fun h => hne h.1)

end Sys2Proof.Proofs
end

section
/-! The accumulators: the integer accumulation of a PASS (R57, R63) (O14), and the image and the state page of a slot (R123, R302)
(O17). -/

namespace Sys2Proof.Proofs
open Sys2Proof Sys2Proof.Machine Sys2Proof.Safety Sys2Proof.Laws

/-! ### Integer accumulation (R57, R63) -/

/-- The product of integers, as an integer again. -/
theorem scaled_mul_ofInt (a b : Int) : FV.scaled 0 (FV.mul (FV.ofInt a) (FV.ofInt b)) = a * b := by
  have magnitude (x : Int) : (x.natAbs : Int) = if x < 0 then -x else x := by split <;> omega
  simp only [FV.ofInt, FV.mul, FV.scaled, Int.add_zero, Int.sub_self, Int.toNat_zero, Nat.shiftLeft_zero, Int.natCast_mul, magnitude]
  by_cases ha : a < 0
  · by_cases hb : b < 0
    · simp [ha, hb, Int.neg_mul, Int.mul_neg]
    · simp [ha, hb, Int.neg_mul]
  · by_cases hb : b < 0
    · simp [ha, hb, Int.mul_neg]
    · simp [ha, hb]

/-- A step group adds its sum of products, and clamps the entry. -/
theorem groupStep_int (l : List (Int × Int)) (v e : Word) (f : Bool) :
    groupStep 1 (l.map (fun p => (FV.ofInt p.1, FV.ofInt p.2))) (v, e, f) =
      ((accInt v (l.map (fun p => p.1 * p.2)).sum).1, e, f || (accInt v (l.map (fun p => p.1 * p.2)).sum).2) := by
  have fold : ∀ (l : List (Int × Int)) (x : Int),
      ((l.map (fun p => (FV.ofInt p.1, FV.ofInt p.2))).map (fun p => FV.mul p.1 p.2)).foldl (fun a x => a + FV.scaled 0 x) x =
        x + (l.map (fun p => p.1 * p.2)).sum := by
    intro l
    induction l with
    | nil => simp
    | cons p r ih =>
      intro x
      simp only [List.map_cons, List.foldl_cons, List.sum_cons, scaled_mul_ofInt]
      rw [← Int.add_assoc]
      exact ih _
  have h0 := fold l 0
  rw [Int.zero_add] at h0
  show ((accInt v _).1, e, f || (accInt v _).2) = _
  rw [h0]

/-- An entry within the range of the clamp holds its integer. -/
theorem i32_ofInt {t : Int} (h : clamp32 t = t) : i32 (BitVec.ofInt 32 t) = t := by
  unfold clamp32 clampInt at h
  simp only [i32, signed, BitVec.toNat_ofInt]
  split <;> omega

theorem ofInt_i32 (v : Word) : BitVec.ofInt 32 (i32 v) = v := by
  have hv := v.isLt
  apply BitVec.eq_of_toNat_eq
  simp only [BitVec.toNat_ofInt, i32, signed]
  split <;> omega

theorem productSum_cons (a b : Nat → Int) (g : Nat × Nat) (r : List (Nat × Nat)) :
    productSum a b (g :: r) = ((List.range g.2).map (fun i => a (g.1 + i) * b (g.1 + i))).sum + productSum a b r := by
  simp [productSum]

/-- Settles O14, by induction on the step groups: an update in range adds its sum of products. -/
theorem integerPassIsExactInRange : Obligations.IntegerPassIsExactInRange := by
  intro groups a b v e f
  induction groups generalizing v with
  | nil => intro _; simp [productSum, ofInt_i32]
  | cons g r ih =>
    intro hrange
    have hfirst := hrange 1 (by omega) (by simp)
    simp only [List.take_succ_cons, List.take_zero, productSum_cons] at hfirst
    rw [show productSum a b [] = 0 from rfl, Int.add_zero] at hfirst
    have hstep := groupStep_int ((List.range g.2).map (fun i => (a (g.1 + i), b (g.1 + i)))) v e f
    simp only [List.map_map, Function.comp_def] at hstep
    rw [List.foldl_cons, hstep]
    simp only [accInt, hfirst, bne_self_eq_false, Bool.or_false]
    rw [ih _ fun j hj hlen => ?_, i32_ofInt hfirst, productSum_cons, Int.add_assoc]
    have hnext := hrange (j + 1) (by omega) (by simpa using hlen)
    rw [List.take_succ_cons, productSum_cons, ← Int.add_assoc] at hnext
    rw [i32_ofInt hfirst]
    exact hnext

/-! ### The image of a slot and the state page (R123, R302) -/

theorem tget_filter {α : Type} (d : α) (p : Nat → Bool) (t : Tbl α) {i : Nat} (h : p i = true) :
    tget d (t.filter (fun c => p c.1)) i = tget d t i := by
  induction t with
  | nil => rfl
  | cons c r ih =>
    obtain ⟨j, v⟩ := c
    by_cases hj : j = i
    · subst hj; simp [tget, h]
    · by_cases hp : p j = true
      · simp [hp, tget, hj, ih]
      · simp [hp, tget, hj, ih]

/-- Marks that do not cover a byte do not decide what it reads as. -/
theorem markByte_filter (p : Mark → Bool) (l : List Mark) {i : Nat} (h : ∀ m ∈ l, p m = false → ¬ (m.lo ≤ i ∧ i < m.hi)) :
    markByte (l.filter p) i = markByte l i := by
  induction l with
  | nil => rfl
  | cons m r ih =>
    have hr := ih fun x hx => h x (by simp [hx])
    by_cases hp : p m = true
    · simp [hp, markByte, hr]
    · simp [hp, markByte, hr, h m (by simp) (by simpa using hp)]

/-- Zeroing a range leaves every byte outside it. -/
theorem read_zero_outside (m : Mem) (lo hi : Nat) {i : Nat} (h : i < lo ∨ hi ≤ i) : (m.zero lo hi).read i = m.read i := by
  have cells : ∀ d, tget d (cellsOutside m.cells lo hi) i = tget d m.cells i := fun d =>
    tget_filter d (fun c => decide (c < lo ∨ hi ≤ c)) m.cells (by simpa using h)
  have marks := markByte_filter (fun k => !(decide (lo ≤ k.lo) && decide (k.hi ≤ hi))) m.marks (i := i)
    (fun x _ hx => by simp at hx; omega)
  unfold Mem.zero Mem.read Mem.unlisted
  simp only
  split
  · simp only [cells, marks]
  · have : ¬ (lo ≤ i ∧ i < hi) := by omega
    simp only [cells, markByte, if_neg this, marks]

theorem readBytes_congr {m m' : Mem} {a n : Nat} (h : ∀ i, a ≤ i → i < a + n → m.read i = m'.read i) :
    m.readBytes a n = m'.readBytes a n := by
  induction n generalizing a with
  | zero => rfl
  | succ k ih =>
    simp only [Mem.readBytes]
    rw [h a (by omega) (by omega), ih fun i h1 h2 => h i (by omega) (by omega)]

/-- Bytes written read back. -/
theorem readBytes_writeBytes (m : Mem) (a : Nat) (l : List Byte) : (m.writeBytes a l).readBytes a l.length = l := by
  apply List.ext_getElem
  · simp
  · intro i h1 h2
    have hg := getD_readBytes (m.writeBytes a l) a l.length i h2
    rw [read_writeBytes, if_pos (by omega), Nat.add_sub_cancel_left, List.getD_eq_getElem?_getD,
      List.getElem?_eq_getElem h1, Option.getD_some, List.getD_eq_getElem?_getD, List.getElem?_eq_getElem h2, Option.getD_some] at hg
    exact hg

/-- Bytes written leave the ranges that they do not meet. -/
theorem readBytes_writeBytes_apart (m : Mem) {a n b : Nat} {l : List Byte} (h : a + n ≤ b ∨ b + l.length ≤ a) :
    (m.writeBytes b l).readBytes a n = m.readBytes a n :=
  readBytes_congr fun i h1 h2 => by rw [read_writeBytes, if_neg (by omega)]

/-- The little-endian field that stands between two parts of a list of bytes. -/
theorem leAt_append (pre post : List Byte) (len n : Nat) : leAt (pre ++ (natLe len n ++ post)) pre.length len = n % 256 ^ len := by
  have hs : slice (pre ++ (natLe len n ++ post)) pre.length len = natLe len n := by
    unfold slice
    simp
  rw [leAt, hs, leNat_natLe]

theorem length_flatMap_range (n len : Nat) (f : Nat → List Byte) (h : ∀ k, (f k).length = len) :
    ((List.range n).flatMap f).length = n * len := by
  simp [List.length_flatMap, h, List.map_const', List.sum_replicate_nat]

/-- The copies of commands, the step indices and the marks at the head of a state page. -/
def pageHead (cmds : List (Nat × BitVec 256 × Nat)) : List Byte :=
  (List.range 4).flatMap (fun k => match cmds.find? (fun e => e.1 == k) with
    | some e => natLe 32 e.2.1.toNat
    | none => natLe 32 0) ++
  (List.range 4).flatMap (fun k => match cmds.find? (fun e => e.1 == k) with
    | some e => natLe 4 e.2.2
    | none => natLe 4 0) ++
  natLe 4 ((List.range 4).foldl (fun a k => a + flagAt (cmds.find? (fun e => e.1 == k)).isSome k) 0)

theorem length_pageHead (cmds : List (Nat × BitVec 256 × Nat)) : (pageHead cmds).length = 0x94 := by
  unfold pageHead
  simp only [List.length_append, length_natLe]
  rw [length_flatMap_range 4 32 _ (fun k => by split <;> simp), length_flatMap_range 4 4 _ (fun k => by split <;> simp)]

theorem statePage_eq (x : Deck) (cmds : List (Nat × BitVec 256 × Nat)) :
    statePage x cmds = pageHead cmds ++
      (natLe 4 (tagWord x) ++ (natLe 4 x.sat.toNat ++ (natLe 4 x.gang.toNat ++ List.replicate 3936 0))) := by
  unfold statePage pageHead
  simp only [List.append_assoc] <;> rfl

theorem leAt_statePage_tags (x : Deck) (cmds : List (Nat × BitVec 256 × Nat)) :
    leAt (statePage x cmds) 0x94 4 = tagWord x % 2 ^ 32 := by
  rw [statePage_eq, ← length_pageHead cmds, leAt_append, show (256 : Nat) ^ 4 = 2 ^ 32 from rfl]

theorem leAt_statePage_sat (x : Deck) (cmds : List (Nat × BitVec 256 × Nat)) : leAt (statePage x cmds) 0x98 4 = x.sat.toNat := by
  have hlen : (pageHead cmds ++ natLe 4 (tagWord x)).length = 0x98 := by rw [List.length_append, length_pageHead, length_natLe]
  have hsat := x.sat.isLt
  rw [statePage_eq, ← List.append_assoc, ← hlen, leAt_append]
  exact Nat.mod_eq_of_lt (by omega)

theorem tagCode_lt (t : Tag) : tagCode t < 4 := by cases t <;> decide

theorem tagFrom_tagCode (t : Tag) : tagFrom (tagCode t) = t := by cases t <;> rfl

/-- A number written in base `b`, its digits given from the lowest. -/
def digitSum (b n : Nat) (f : Nat → Nat) : Nat := ((List.range n).map (fun k => f k * b ^ k)).sum

theorem digitSum_succ (b n : Nat) (f : Nat → Nat) : digitSum b (n + 1) f = digitSum b n f + f n * b ^ n := by
  simp [digitSum, List.range_succ]

theorem digitSum_lt {b : Nat} (n : Nat) {f : Nat → Nat} (h : ∀ k, f k < b) : digitSum b n f < b ^ n := by
  induction n with
  | zero => simp [digitSum]
  | succ n ih =>
    have : (f n + 1) * b ^ n ≤ b * b ^ n := Nat.mul_le_mul_right _ (h n)
    rw [digitSum_succ, Nat.pow_succ']
    rw [Nat.add_mul, Nat.one_mul] at this
    omega

theorem digit_digitSum {b n k : Nat} {f : Nat → Nat} (h : ∀ k, f k < b) (hk : k < n) : digitSum b n f / b ^ k % b = f k := by
  induction n with
  | zero => omega
  | succ n ih =>
    have hb : 0 < b := Nat.lt_of_le_of_lt (Nat.zero_le _) (h 0)
    rw [digitSum_succ]
    obtain rfl | hlt := Nat.eq_or_lt_of_le (Nat.le_of_lt_succ hk)
    · rw [Nat.add_mul_div_right _ _ (Nat.pow_pos hb), Nat.div_eq_of_lt (digitSum_lt k h), Nat.zero_add, Nat.mod_eq_of_lt (h k)]
    · have hsplit : f n * b ^ n = b ^ k * (b * (f n * b ^ (n - k - 1))) := by
        have : b ^ n = b ^ k * (b * b ^ (n - k - 1)) := by rw [← Nat.pow_succ', ← Nat.pow_add]; congr 1; omega
        rw [this]
        ac_rfl
      rw [hsplit, Nat.add_mul_div_left _ _ (Nat.pow_pos hb), Nat.add_mul_mod_self_left, ih hlt]

theorem foldl_add_eq_sum (g : Nat → Nat) (l : List Nat) (a : Nat) : l.foldl (fun b s => b + g s) a = a + (l.map g).sum := by
  induction l generalizing a with
  | nil => simp
  | cons x r ih => rw [List.foldl_cons, ih, List.map_cons, List.sum_cons, Nat.add_assoc]

theorem sum_map_mul_right {α : Type} (l : List α) (f : α → Nat) (r : Nat) : (l.map (fun x => f x * r)).sum = (l.map f).sum * r := by
  induction l with
  | nil => simp
  | cons x l ih => rw [List.map_cons, List.sum_cons, ih, List.map_cons, List.sum_cons, Nat.add_mul]

/-- The tags of a quad as a byte. -/
def quadTags (x : Deck) (k : Nat) : Nat := digitSum 4 4 (fun s => tagCode (tagOf x k s))

theorem quadTags_lt (x : Deck) (k : Nat) : quadTags x k < 256 := digitSum_lt 4 fun _ => tagCode_lt _

theorem tagWord_eq (x : Deck) : tagWord x = digitSum 256 4 (quadTags x) := by
  have place : ∀ k s, 2 ^ (8 * k + 2 * s) = 4 ^ s * 256 ^ k := fun k s => by
    rw [Nat.pow_add, Nat.pow_mul, Nat.pow_mul, Nat.mul_comm]
  simp only [tagWord, foldl_add_eq_sum, place, Nat.zero_add, digitSum, quadTags, ← Nat.mul_assoc, sum_map_mul_right]

/-- The tags read back from the state page. -/
theorem pageTag_statePage (x : Deck) (cmds : List (Nat × BitVec 256 × Nat)) {k s : Nat} (hk : k < 4) (hs : s < 4) :
    pageTag (statePage x cmds) k s = tagOf x k s := by
  have hword : tagWord x < 2 ^ 32 := by
    rw [tagWord_eq]
    exact digitSum_lt 4 (quadTags_lt x)
  have hquad : tagWord x / 256 ^ k % 256 = quadTags x k := by rw [tagWord_eq, digit_digitSum (quadTags_lt x) hk]
  have htag : quadTags x k / 4 ^ s % 4 = tagCode (tagOf x k s) := digit_digitSum (fun j => tagCode_lt (tagOf x k j)) hs
  have hpow : 2 ^ (8 * k + 2 * s) = 256 ^ k * 4 ^ s := by rw [Nat.pow_add, Nat.pow_mul, Nat.pow_mul]
  have hcut : tagWord x / 2 ^ (8 * k + 2 * s) % 4 = quadTags x k / 4 ^ s % 4 := by
    rw [hpow, ← Nat.div_div_eq_div_mul, ← hquad]
    have slot : s = 0 ∨ s = 1 ∨ s = 2 ∨ s = 3 := by omega
    rcases slot with rfl | rfl | rfl | rfl <;> omega
  have hb := bits_eq_div_mod (tagWord x) 2 (8 * k + 2 * s) (by omega)
  rw [show (2 : Nat) ^ 2 = 4 from rfl, hcut, htag] at hb
  rw [pageTag, leAt_statePage_tags, Nat.mod_eq_of_lt hword, show 8 * k + 2 * s + 1 = 8 * k + 2 * s + 2 - 1 by omega, hb, tagFrom_tagCode]

/-! ### Restoring a slot (R302) -/

/-- One quad of a slot restored from the state page: its tag and its SAT flag. -/
def restoreQuad (page : List Byte) (slot : Nat) (y : Deck) (k : Nat) : Deck :=
  let y2 := clearSat (putTags y [k] [slot] (pageTag page k slot)) [k] [slot]
  if bit (leAt page 0x98 4) (slotKey k slot) then { y2 with sat := y2.sat ||| BitVec.ofNat 16 (2 ^ slotKey k slot) } else y2

theorem restoreSlot_eq (page image : List Byte) (x : Deck) (slot : Nat) :
    restoreSlot page image x slot = (List.range 4).foldl (restoreQuad page slot)
      { x with acc := (x.acc.zero (slot * 0x40000) ((slot + 1) * 0x40000)).writeBytes (slot * 0x40000) image } := rfl

theorem acc_restoreQuad (page : List Byte) (slot : Nat) (y : Deck) (k : Nat) : (restoreQuad page slot y k).acc = y.acc := by
  unfold restoreQuad
  simp only
  split <;> rfl

theorem tagOf_restoreQuad (page : List Byte) {slot l : Nat} (hs : slot < 4) (hl : l < 4) (y : Deck) (e k : Nat) :
    tagOf (restoreQuad page slot y k) e l = if k = e ∧ slot = l then pageTag page k slot else tagOf y e l := by
  have htags : (restoreQuad page slot y k).tags = tput y.tags (slotKey k slot) (pageTag page k slot) := by
    unfold restoreQuad
    simp only
    split <;> rfl
  have hkey : slotKey k slot = slotKey e l ↔ k = e ∧ slot = l := by unfold slotKey; omega
  rw [tagOf, htags, tget_tput]
  simp only [hkey]
  rfl

theorem bit_sat_restoreQuad (page : List Byte) {slot : Nat} (hs : slot < 4) (y : Deck) {e k : Nat} (he : e < 4) :
    bit (restoreQuad page slot y k).sat.toNat (slotKey e slot) =
      if k = e then bit (leAt page 0x98 4) (slotKey k slot) else bit y.sat.toNat (slotKey e slot) := by
  have key_lt : ∀ j, j < 4 → slotKey j slot < 16 := fun j hj => by unfold slotKey; omega
  have key_eq : slotKey k slot = slotKey e slot ↔ k = e := by unfold slotKey; omega
  have one : ∀ i, (BitVec.ofNat 16 (2 ^ slotKey k slot)).getLsbD i = (decide (i < 16) && decide (slotKey k slot = i)) := fun i => by
    rw [BitVec.getLsbD_ofNat, Nat.testBit_two_pow]
  show (restoreQuad page slot y k).sat.getLsbD (slotKey e slot) = _
  have hbit : y.sat.getLsbD (slotKey e slot) = bit y.sat.toNat (slotKey e slot) := rfl
  unfold restoreQuad
  simp only
  by_cases hf : bit (leAt page 0x98 4) (slotKey k slot) = true
  · rw [if_pos hf]
    simp only [clearSat, putTags, List.foldl_cons, List.foldl_nil, BitVec.getLsbD_or, BitVec.getLsbD_and, BitVec.getLsbD_not, one,
      decide_eq_true (key_lt e he), Bool.true_and, key_eq, hbit, hf]
    by_cases h : k = e <;> simp [h]
  · rw [if_neg hf]
    simp only [clearSat, putTags, List.foldl_cons, List.foldl_nil, BitVec.getLsbD_and, BitVec.getLsbD_not, one,
      decide_eq_true (key_lt e he), Bool.true_and, key_eq, hbit, hf]
    by_cases h : k = e <;> simp [h]

theorem acc_restoreSlot (page image : List Byte) (x : Deck) (slot : Nat) :
    (restoreSlot page image x slot).acc = (x.acc.zero (slot * 0x40000) ((slot + 1) * 0x40000)).writeBytes (slot * 0x40000) image := by
  rw [restoreSlot_eq, read_foldl_untouched _ Deck.acc _ fun b k _ => acc_restoreQuad page slot b k]

/-- A restored slot takes its tags from the page; the other slots keep theirs. -/
theorem tagOf_restoreSlot (page image : List Byte) (x : Deck) {slot e l : Nat} (hs : slot < 4) (he : e < 4) (hl : l < 4) :
    tagOf (restoreSlot page image x slot) e l = if slot = l then pageTag page e slot else tagOf x e l := by
  rw [restoreSlot_eq]
  by_cases h : slot = l
  · rw [if_pos h]
    exact read_foldl_once _ (fun b => tagOf b e l) (fun _ => pageTag page e slot) (List.mem_range.2 he) List.nodup_range
      (fun b => by rw [tagOf_restoreQuad page hs hl, if_pos ⟨rfl, h⟩])
      (fun b k _ hk => by rw [tagOf_restoreQuad page hs hl, if_neg fun c => hk c.1]) _
  · rw [if_neg h]
    exact read_foldl_untouched _ (fun b => tagOf b e l) _
      (fun b k _ => by rw [tagOf_restoreQuad page hs hl, if_neg fun c => h c.2]) _

/-- A restored slot takes its SAT flags from the page. -/
theorem bit_sat_restoreSlot (page image : List Byte) (x : Deck) {slot e : Nat} (hs : slot < 4) (he : e < 4) :
    bit (restoreSlot page image x slot).sat.toNat (slotKey e slot) = bit (leAt page 0x98 4) (slotKey e slot) := by
  rw [restoreSlot_eq]
  exact read_foldl_once _ (fun b : Deck => bit b.sat.toNat (slotKey e slot)) (fun _ => bit (leAt page 0x98 4) (slotKey e slot))
    (List.mem_range.2 he) List.nodup_range (fun b => by rw [bit_sat_restoreQuad page hs b he, if_pos rfl])
    (fun b k _ hk => by rw [bit_sat_restoreQuad page hs b he, if_neg hk]) _

/-- Settles O17: the image and the state page hold what restoring a slot reads. -/
theorem saveRestoreRoundTrip : Obligations.SaveRestoreRoundTrip := by
  intro x y cmds slot hs
  have hlen : (slotImage x slot).length = 0x40000 := length_readBytes _ _ _
  refine ⟨?_, fun e he => ⟨?_, ?_⟩, fun l hl hne => ⟨?_, fun e he => ?_⟩⟩
  · rw [slotImage, acc_restoreSlot]
    conv => lhs; rw [← hlen]
    exact readBytes_writeBytes _ _ _
  · rw [tagOf_restoreSlot _ _ _ hs he hs, if_pos rfl, pageTag_statePage x cmds he hs]
  · rw [bit_sat_restoreSlot _ _ _ hs he, leAt_statePage_sat]
  · rw [slotImage, acc_restoreSlot, readBytes_writeBytes_apart _ (by rw [hlen]; omega)]
    exact readBytes_congr fun i h1 h2 => read_zero_outside _ _ _ (by omega)
  · rw [tagOf_restoreSlot _ _ _ hs he hl, if_neg (Ne.symm hne)]

end Sys2Proof.Proofs
end

section
/-! PASS: what a pass that enters, settles, replays and completes changes (R85-R120, R145) (O13, O15). -/

namespace Sys2Proof.Proofs
open Sys2Proof Sys2Proof.Machine Sys2Proof.Safety Sys2Proof.Laws

/-! ### Running commands by name -/

theorem mem_mapWhere {α : Type} (p : α → Bool) (f : α → α) {l : List α} {x : α} (hx : x ∈ l) (hp : p x = true) : f x ∈ mapWhere p f l :=
  List.mem_map.2 ⟨x, hx, by rw [if_pos hp]⟩

/-- A running command replaced is found under its name. -/
theorem runOf_setRun_same {s : State} {r x : Run} (hx : x ∈ s.runs) (hid : x.id = r.id) : runOf (setRun s r) r.id = some r := by
  unfold runOf setRun mapWhere
  rw [List.find?_map]
  have hit : ((fun a : Run => a.id == r.id) ∘ fun a => if (a.id == r.id) = true then r else a) = fun a => a.id == r.id := by
    funext a
    by_cases h : (a.id == r.id) = true
    · rw [Function.comp_apply, if_pos h, h, beq_self_eq_true]
    · rw [Function.comp_apply, if_neg h]
  rw [hit]
  obtain ⟨y, hy⟩ := Option.isSome_iff_exists.1
    (List.find?_isSome (p := fun a : Run => a.id == r.id) |>.2 ⟨x, hx, beq_iff_eq.2 hid⟩)
  have := List.find?_some hy
  rw [hy, Option.map_some, if_pos this]

/-- A running command replaced keeps the names of the running commands. -/
theorem ids_setRun (s : State) (r : Run) : (setRun s r).runs.map (·.id) = s.runs.map (·.id) := by
  unfold setRun mapWhere
  rw [List.map_map]
  refine List.map_congr_left fun a _ => ?_
  rw [Function.comp_apply]
  split
  case isTrue h => exact (beq_iff_eq.1 h).symm
  case isFalse => rfl

theorem mem_of_runOf {s : State} {i : Nat} {r : Run} (h : runOf s i = some r) : r ∈ s.runs ∧ r.id = i :=
  ⟨List.mem_of_find?_eq_some h, by simpa using List.find?_some h⟩

/-! ### What the array changes of a state -/

/-- The state without what the array changes: decks, running commands, and the occurrences raised. -/
def withoutArray (s : State) : State := { s with decks := [], runs := [], occ := [], ends := [] }

/-- The state without the occurrences raised. -/
def withoutRaised (s : State) : State := { s with occ := [], ends := [] }

theorem withoutRaised_raise (s : State) (level unit code : Nat) (berth : Option Nat) (task : Option Word) (detail : Nat) :
    withoutRaised (raise s level unit code berth task detail) = withoutRaised s := by
  rw [raise_only]; rfl

theorem withoutRaised_raiseBerth (s : State) (level unit code b detail : Nat) :
    withoutRaised (raiseBerth s level unit code b detail) = withoutRaised s := withoutRaised_raise ..

theorem withoutRaised_raiseDeck (s : State) (level d code detail : Nat) : withoutRaised (raiseDeck s level d code detail) = withoutRaised s := by
  unfold raiseDeck
  split
  · exact withoutRaised_raiseBerth ..
  · exact withoutRaised_raise ..

theorem withoutArray_of_raised {s t : State} (h : withoutRaised t = withoutRaised s) : withoutArray t = withoutArray s :=
  congrArg (fun u : State => { u with decks := [], runs := [] }) h

theorem decks_of_raised {s t : State} (h : withoutRaised t = withoutRaised s) : t.decks = s.decks :=
  show (withoutRaised t).decks = (withoutRaised s).decks from congrArg State.decks h

theorem runs_of_raised {s t : State} (h : withoutRaised t = withoutRaised s) : t.runs = s.runs :=
  show (withoutRaised t).runs = (withoutRaised s).runs from congrArg State.runs h

theorem deckOf_of_decks {s t : State} (h : t.decks = s.decks) (k : Nat) : deckOf t k = deckOf s k := by unfold deckOf; rw [h]

/-- What the array leaves of a deck: all but its accumulators, their tags and SAT flags, and the in-use counts of its registers. -/
structure ArrayKeeps (x y : Deck) : Prop where
  rest : y = { x with acc := y.acc, tags := y.tags, sat := y.sat, tiles := y.tiles }
  tile : ∀ i, uncounted (tget {} y.tiles i) = uncounted (tget {} x.tiles i)

theorem ArrayKeeps.refl (x : Deck) : ArrayKeeps x x := ⟨rfl, fun _ => rfl⟩

theorem ArrayKeeps.trans {x y z : Deck} (h : ArrayKeeps x y) (k : ArrayKeeps y z) : ArrayKeeps x z := by
  refine ⟨?_, fun i => (k.tile i).trans (h.tile i)⟩
  calc z = _ := k.rest
    _ = _ := by rw [h.rest]

/-- What settling a pass leaves of a deck: its accumulators and tags too. -/
structure SettleKeeps (x y : Deck) : Prop extends ArrayKeeps x y where
  acc : y.acc = x.acc
  tags : y.tags = x.tags
  skips : y.skipDone = x.skipDone ∧ y.skipMiss = x.skipMiss

theorem SettleKeeps.refl (x : Deck) : SettleKeeps x x := ⟨.refl x, rfl, rfl, rfl, rfl⟩

theorem SettleKeeps.trans {x y z : Deck} (h : SettleKeeps x y) (k : SettleKeeps y z) : SettleKeeps x z :=
  ⟨h.toArrayKeeps.trans k.toArrayKeeps, k.acc.trans h.acc, k.tags.trans h.tags, k.skips.1.trans h.skips.1, k.skips.2.trans h.skips.2⟩

/-! ### A pass that has entered whole settles (R65, R145) -/

theorem setSat_keeps (slot : Nat) (s : State) (u : Nat × Nat) :
    withoutArray (setSat slot s u) = withoutArray s ∧ (setSat slot s u).runs = s.runs ∧
      ∀ k, SettleKeeps (deckOf s k) (deckOf (setSat slot s u) k) := by
  unfold setSat
  dsimp only
  split
  · exact ⟨rfl, rfl, fun k => .refl _⟩
  · have raised := withoutRaised_raiseDeck (setDeck s u.1 { deckOf s u.1 with
      sat := (deckOf s u.1).sat ||| BitVec.ofNat 16 (2 ^ (4 * u.2 + slot)) }) 1 u.1 0x0A (slot + u.2 * 4)
    refine ⟨(withoutArray_of_raised raised).trans rfl, (runs_of_raised raised).trans rfl, fun k => ?_⟩
    rw [deckOf_of_decks (decks_of_raised raised), deckOf_setDeck]
    split
    case isTrue same => subst same; exact ⟨⟨rfl, fun _ => rfl⟩, rfl, rfl, rfl, rfl⟩
    case isFalse => exact .refl _

theorem setSats_keep (slot : Nat) (l : List (Nat × Nat)) (s : State) :
    withoutArray (l.foldl (setSat slot) s) = withoutArray s ∧ (l.foldl (setSat slot) s).runs = s.runs ∧
      ∀ k, SettleKeeps (deckOf s k) (deckOf (l.foldl (setSat slot) s) k) := by
  induction l generalizing s with
  | nil => exact ⟨rfl, rfl, fun _ => .refl _⟩
  | cons u r ih =>
    obtain ⟨h1, h2, h3⟩ := setSat_keeps slot s u
    obtain ⟨k1, k2, k3⟩ := ih (setSat slot s u)
    exact ⟨k1.trans h1, k2.trans h2, fun k => (h3 k).trans (k3 k)⟩

theorem inuseDown_keeps (s : State) (uses : List (Nat × Nat)) :
    withoutArray (inuseDown s uses) = withoutArray s ∧ (inuseDown s uses).runs = s.runs ∧
      ∀ k, SettleKeeps (deckOf s k) (deckOf (inuseDown s uses) k) := by
  have only := inuseDown_only s uses
  refine ⟨by rw [only]; rfl, by rw [only], fun k => ?_⟩
  have tiles := fun i => (uncounted_inuse false uses k i s).1
  have rest := (uncounted_inuse false uses k 0 s).2
  change deckOf (inuseDown s uses) k = { deckOf s k with tiles := (deckOf (inuseDown s uses) k).tiles } at rest
  exact ⟨⟨by rw [rest], tiles⟩, by rw [rest], by rw [rest], by rw [rest], by rw [rest]⟩

/-- The run of a pass that has settled: its registers are released, and its clamps have shown. -/
def settledRun (r : Run) : Run :=
  { r with cmd := { r.cmd with uses := [] }, pass := { r.pass with entered := true, sats := [] } }

/-- A pass settles or stays as it is. -/
theorem settlePass_cases (s : State) (r : Run) : settlePass s r = s ∨
    ∃ slot, settlePass s r = r.pass.sats.foldl (setSat slot) (setRun (inuseDown s r.cmd.uses) (settledRun r)) := by
  unfold settlePass
  split
  · split
    · exact .inr ⟨_, rfl⟩
    · exact .inl rfl
  · exact .inl rfl

theorem settlePass_keeps (s : State) (r : Run) : withoutArray (settlePass s r) = withoutArray s ∧
    (settlePass s r).runs.map (·.id) = s.runs.map (·.id) ∧ ∀ k, SettleKeeps (deckOf s k) (deckOf (settlePass s r) k) := by
  obtain h | ⟨slot, h⟩ := settlePass_cases s r
  · rw [h]; exact ⟨rfl, rfl, fun _ => .refl _⟩
  · obtain ⟨h1, h2, h3⟩ := inuseDown_keeps s r.cmd.uses
    obtain ⟨k1, k2, k3⟩ := setSats_keep slot r.pass.sats (setRun (inuseDown s r.cmd.uses) (settledRun r))
    rw [h]
    refine ⟨k1.trans h1, ?_, fun k => (h3 k).trans (k3 k)⟩
    rw [k2, ids_setRun, h2]

/-- What settling a pass leaves under its name. -/
theorem runOf_settlePass {s : State} {r : Run} (h : runOf s r.id = some r) :
    runOf (settlePass s r) r.id = some r ∨ runOf (settlePass s r) r.id = some (settledRun r) := by
  obtain e | ⟨slot, e⟩ := settlePass_cases s r
  · rw [e]; exact .inl h
  · refine .inr ?_
    have runs := (setSats_keep slot r.pass.sats (setRun (inuseDown s r.cmd.uses) (settledRun r))).2.1
    have found : runOf (setRun (inuseDown s r.cmd.uses) (settledRun r)) r.id = some (settledRun r) :=
      runOf_setRun_same (r := settledRun r) (x := r) (by rw [(inuseDown_keeps s r.cmd.uses).2.1]; exact (mem_of_runOf h).1) rfl
    rw [e]
    unfold runOf at found ⊢
    rw [runs, found]

theorem settleArray_keeps (s : State) (q c e : Nat) : withoutArray (settleArray s q c e) = withoutArray s ∧
    (settleArray s q c e).runs.map (·.id) = s.runs.map (·.id) ∧ ∀ k, SettleKeeps (deckOf s k) (deckOf (settleArray s q c e) k) := by
  unfold settleArray
  generalize s.runs.filter (passOn q c e) = l
  induction l generalizing s with
  | nil => exact ⟨rfl, rfl, fun _ => .refl _⟩
  | cons r l ih =>
    obtain ⟨h1, h2, h3⟩ := settlePass_keeps s r
    obtain ⟨k1, k2, k3⟩ := ih (settlePass s r)
    exact ⟨k1.trans h1, k2.trans h2, fun k => (h3 k).trans (k3 k)⟩

/-! ### A part of the stream enters (R101) -/

theorem streamInto_keeps (r : Run) (o : PassOps) (groups : List (Nat × Nat)) (a : State × List (Nat × Nat)) (p : OperandPair) :
    withoutArray (streamInto r o groups a p).1 = withoutArray a.1 ∧ (streamInto r o groups a p).1.runs = a.1.runs ∧
      ∀ k, deckOf (streamInto r o groups a p).1 k = { deckOf a.1 k with acc := (deckOf (streamInto r o groups a p).1 k).acc } ∧
        (k ≠ p.deck → deckOf (streamInto r o groups a p).1 k = deckOf a.1 k) := by
  refine ⟨rfl, rfl, fun k => ?_⟩
  unfold streamInto
  dsimp only
  rw [deckOf_setDeck]
  split
  case isTrue same => subst same; exact ⟨rfl, fun h => absurd rfl h⟩
  case isFalse => exact ⟨rfl, fun _ => rfl⟩

theorem streamIntos_keep (r : Run) (o : PassOps) (groups : List (Nat × Nat)) (ops : List OperandPair) (a : State × List (Nat × Nat)) :
    withoutArray (ops.foldl (streamInto r o groups) a).1 = withoutArray a.1 ∧ (ops.foldl (streamInto r o groups) a).1.runs = a.1.runs ∧
      ∀ k, deckOf (ops.foldl (streamInto r o groups) a).1 k =
          { deckOf a.1 k with acc := (deckOf (ops.foldl (streamInto r o groups) a).1 k).acc } ∧
        ((∀ p ∈ ops, k ≠ p.deck) → deckOf (ops.foldl (streamInto r o groups) a).1 k = deckOf a.1 k) := by
  induction ops generalizing a with
  | nil => exact ⟨rfl, rfl, fun _ => ⟨rfl, fun _ => rfl⟩⟩
  | cons p l ih =>
    obtain ⟨h1, h2, h3⟩ := streamInto_keeps r o groups a p
    obtain ⟨k1, k2, k3⟩ := ih (streamInto r o groups a p)
    refine ⟨k1.trans h1, k2.trans h2, fun k => ⟨?_, fun far => ?_⟩⟩
    · calc deckOf (l.foldl (streamInto r o groups) (streamInto r o groups a p)).1 k = _ := (k3 k).1
        _ = _ := by rw [(h3 k).1]; rfl
    · exact ((k3 k).2 fun p hp => far p (by simp [hp])).trans ((h3 k).2 (far p (by simp)))

/-- A run with its stream and its clamps as given. -/
def streamedRun (r : Run) (streams : List StreamPart) (sats : List (Nat × Nat)) : Run :=
  { r with pass := { r.pass with streams := streams, sats := sats } }

/-- A part of the stream changes the accumulators of the decks whose operands it reads, and its run. -/
theorem streamPart_keeps (s : State) (r : Run) (o : PassOps) (x : StreamPart) :
    withoutArray (streamPart s r o x) = withoutArray s ∧
      (∃ streams sats, (streamPart s r o x).runs = (setRun s (streamedRun r streams sats)).runs) ∧
      ∀ k, deckOf (streamPart s r o x) k = { deckOf s k with acc := (deckOf (streamPart s r o x) k).acc } ∧
        ((∀ p ∈ x.ops, k ≠ p.deck) → deckOf (streamPart s r o x) k = deckOf s k) := by
  unfold streamPart
  dsimp only
  by_cases h : x.groups.isEmpty = true
  · rw [if_pos h]
    exact ⟨rfl, ⟨_, _, rfl⟩, fun k => ⟨rfl, fun _ => rfl⟩⟩
  · rw [if_neg h]
    obtain ⟨k1, k2, k3⟩ := streamIntos_keep r o x.groups x.ops (s, [])
    refine ⟨k1, ⟨r.pass.streams ++ [x], r.pass.sats ++ (x.ops.foldl (streamInto r o x.groups) (s, [])).2, ?_⟩, k3⟩
    exact congrArg (mapWhere (fun a => a.id == r.id) _) k2

/-- The run of a part of the stream is found with it, all else but its stream and its clamps as it was. -/
theorem runOf_streamPart {s : State} {r x : Run} (hx : x ∈ s.runs) (hid : x.id = r.id) (o : PassOps) (p : StreamPart) :
    ∃ streams sats, runOf (streamPart s r o p) r.id = some (streamedRun r streams sats) := by
  obtain ⟨-, ⟨streams, sats, runs⟩, -⟩ := streamPart_keeps s r o p
  have found := runOf_setRun_same (r := streamedRun r streams sats) hx hid
  refine ⟨streams, sats, ?_⟩
  unfold runOf at found ⊢
  rw [runs]
  exact found

/-! ### Overwrite mode (R62, R64, R87) -/

/-- Folding steps that establish a property, one of them, and keep it, all of them. -/
theorem foldl_reaches {α β : Type} (f : β → α → β) (P : β → Prop) {x : α} {l : List α} (hx : x ∈ l) (hit : ∀ b, P (f b x))
    (keep : ∀ b y, P b → P (f b y)) (b : β) : P (l.foldl f b) := by
  induction l generalizing b with
  | nil => simp at hx
  | cons y r ih =>
    rw [List.foldl_cons]
    obtain rfl | h := List.mem_cons.1 hx
    · exact List.foldlRecOn (motive := P) r f (hit b) fun b h y _ => keep b y h
    · exact ih h _

/-- Tags of quads set are the tag given. -/
theorem tagOf_putTags (x : Deck) {quads slots : List Nat} (t : Tag) {e l : Nat} (he : e ∈ quads) (hl : l ∈ slots) :
    tagOf (putTags x quads slots t) e l = t := by
  have one : ∀ (b : Tbl Tag) (k : Nat), tget .none b (slotKey e l) = t → tget .none (tput b k t) (slotKey e l) = t := fun b k h => by
    rw [tget_tput]
    split
    · rfl
    · exact h
  have slotsKeep : ∀ (k : Nat) (b : Tbl Tag), tget .none b (slotKey e l) = t →
      tget .none (slots.foldl (fun b s => tput b (slotKey k s) t) b) (slotKey e l) = t := fun k b h =>
    List.foldlRecOn (motive := fun b => tget .none b (slotKey e l) = t) slots _ h fun b h s _ => one b _ h
  refine foldl_reaches _ (fun b => tget Tag.none b (slotKey e l) = t) he (fun b => ?_) (fun b k h => slotsKeep k b h) x.tags
  exact foldl_reaches _ (fun b => tget Tag.none b (slotKey e l) = t) hl (fun b => by rw [tget_tput, if_pos rfl]) (fun b s h => one b _ h) b

theorem overwriteSlots_keeps (o : PassOps) (quads : List Nat) (s : State) (d : Nat) :
    withoutArray (overwriteSlots o quads s d) = withoutArray s ∧ (overwriteSlots o quads s d).runs = s.runs ∧
      ∀ k, ArrayKeeps (deckOf s k) (deckOf (overwriteSlots o quads s d) k) ∧
        (k ≠ d → deckOf (overwriteSlots o quads s d) k = deckOf s k) := by
  refine ⟨rfl, rfl, fun k => ?_⟩
  unfold overwriteSlots
  dsimp only
  rw [deckOf_setDeck]
  split
  case isTrue same => subst same; exact ⟨⟨rfl, fun _ => rfl⟩, fun h => absurd rfl h⟩
  case isFalse => exact ⟨.refl _, fun _ => rfl⟩

/-- The slots of a deck in overwrite mode take the tag of the accumulation. -/
theorem tagOf_overwriteSlots (o : PassOps) (quads : List Nat) (s : State) (d : Nat) {e l : Nat} (he : e ∈ quads) (hl : l ∈ passSlots o) :
    tagOf (deckOf (overwriteSlots o quads s d) d) e l = accTag o.acc := by
  unfold overwriteSlots
  dsimp only
  rw [deckOf_setDeck, if_pos rfl]
  exact tagOf_putTags _ _ he hl

theorem overwriteAll_keeps (o : PassOps) (quads l : List Nat) (s : State) :
    withoutArray (l.foldl (overwriteSlots o quads) s) = withoutArray s ∧ (l.foldl (overwriteSlots o quads) s).runs = s.runs ∧
      ∀ k, ArrayKeeps (deckOf s k) (deckOf (l.foldl (overwriteSlots o quads) s) k) ∧
        (k ∉ l → deckOf (l.foldl (overwriteSlots o quads) s) k = deckOf s k) := by
  induction l generalizing s with
  | nil => exact ⟨rfl, rfl, fun _ => ⟨.refl _, fun _ => rfl⟩⟩
  | cons d l ih =>
    obtain ⟨h1, h2, h3⟩ := overwriteSlots_keeps o quads s d
    obtain ⟨k1, k2, k3⟩ := ih (overwriteSlots o quads s d)
    refine ⟨k1.trans h1, k2.trans h2, fun k => ⟨(h3 k).1.trans (k3 k).1, fun far => ?_⟩⟩
    exact ((k3 k).2 fun h => far (by simp [h])).trans ((h3 k).2 fun h => far (by simp [h]))

theorem tagOf_overwriteAll (o : PassOps) (quads : List Nat) {l : List Nat} (s : State) {k e sl : Nat} (hk : k ∈ l) (he : e ∈ quads)
    (hsl : sl ∈ passSlots o) : tagOf (deckOf (l.foldl (overwriteSlots o quads) s) k) e sl = accTag o.acc := by
  refine foldl_reaches _ (fun u => tagOf (deckOf u k) e sl = accTag o.acc) hk (fun u => tagOf_overwriteSlots o quads u k he hsl)
    (fun u d h => ?_) s
  by_cases hd : k = d
  · subst hd; exact tagOf_overwriteSlots o quads u k he hsl
  · rw [((overwriteSlots_keeps o quads u d).2.2 k).2 hd]; exact h

/-! ### PASS at the head of its queue (R105, R295-R299) -/

/-- The names of running commands lie below the next name. -/
theorem fresh_iff (s : State) : NamesFresh s ↔ ∀ i ∈ s.runs.map (·.id), i < s.nextId := by
  simp [NamesFresh]

/-- The run of a command that starts. -/
def startedRun (s : State) (q c b : Nat) (m : QCmd) (decks : List Nat) : Run :=
  { id := (popHead s q c).nextId, q := q, c := c, berth := b, task := ((berthOf s b).cur.getD 0).toNat, cmd := m, decks := decks,
    bind := m.uses.map (fun u => (u.1, u.2, physHalf s u.1 (tileOf s u.1 u.2))) }

theorem startRun_eq (s : State) (q c b : Nat) (m : QCmd) (decks : List Nat) : startRun s q c b m decks =
    ({ popHead s q c with nextId := (popHead s q c).nextId + 1, runs := (popHead s q c).runs ++ [startedRun s q c b m decks] },
      (popHead s q c).nextId) := rfl

theorem nextId_popHead (s : State) (q c : Nat) : (popHead s q c).nextId = s.nextId := by
  have only := popHead_only s q c
  rw [OnlyFlags] at only
  rw [only]

theorem runs_popHead (s : State) (q c : Nat) : (popHead s q c).runs = s.runs := by
  have only := popHead_only s q c
  rw [OnlyFlags] at only
  rw [only]

/-- A command that starts is found under its new name. -/
theorem runOf_startRun {s : State} (h : NamesFresh s) (q c b : Nat) (m : QCmd) (decks : List Nat) :
    runOf (startRun s q c b m decks).1 (startRun s q c b m decks).2 = some (startedRun s q c b m decks) := by
  rw [startRun_eq]
  unfold runOf
  rw [List.find?_append, List.find?_eq_none.2, Option.none_or]
  · rw [List.find?_cons_of_pos]
    exact beq_self_eq_true _
  · intro x hx
    rw [runs_popHead] at hx
    have := h x hx
    rw [nextId_popHead]
    simp only [beq_iff_eq]
    omega

/-- A command that starts changes its queue, flags and waits, and the running commands. -/
theorem startRun_keeps (s : State) (q c b : Nat) (m : QCmd) (decks : List Nat) :
    (startRun s q c b m decks).1.hbm = s.hbm ∧ (startRun s q c b m decks).1.decks = s.decks ∧
      (ctxOf (startRun s q c b m decks).1 q c).queue.map (·.word) = (ctxOf s q c).queue.tail.map (·.word) := by
  have only := popHead_only s q c
  rw [OnlyFlags] at only
  refine ⟨?_, ?_, words_popHead s q c⟩
  · show (popHead s q c).hbm = _
    rw [only]
  · show (popHead s q c).decks = _
    rw [only]

/-- A run with the halves that its registers are bound to, and its pass, as given. -/
def boundRun (r : Run) (bind : List (Nat × Nat × Bool)) (p : PassRun) : Run := { r with bind := bind, pass := p }

/-- A pass enters by a part of its stream. -/
theorem enterPass_eq (s : State) (r : Run) (o : PassOps) (from_ : Nat) (clear : Bool) (pre : List (Nat × Mem)) :
    ∃ bind p groups, enterPass s r o from_ clear pre = streamPart s (boundRun r bind p) o (streamOf s (boundRun r bind p) o groups) :=
  ⟨_, _, _, rfl⟩

/-- A pass enters with its run under its name, all but its pass and the halves of its registers as started. -/
theorem enterPass_keeps {s : State} {r x : Run} (hx : x ∈ s.runs) (hid : x.id = r.id) (o : PassOps) (from_ : Nat) (clear : Bool)
    (pre : List (Nat × Mem)) :
    withoutArray (enterPass s r o from_ clear pre) = withoutArray s ∧
      (∃ bind p, runOf (enterPass s r o from_ clear pre) r.id = some (boundRun r bind p)) ∧
      ∀ k, deckOf (enterPass s r o from_ clear pre) k = { deckOf s k with acc := (deckOf (enterPass s r o from_ clear pre) k).acc } ∧
        (k ∉ r.decks → deckOf (enterPass s r o from_ clear pre) k = deckOf s k) := by
  obtain ⟨bind, p, groups, e⟩ := enterPass_eq s r o from_ clear pre
  rw [e]
  obtain ⟨kept, -, decks⟩ := streamPart_keeps s (boundRun r bind p) o (streamOf s (boundRun r bind p) o groups)
  refine ⟨kept, ?_, fun k => ⟨(decks k).1, fun far => (decks k).2 fun p hp => ?_⟩⟩
  · obtain ⟨streams, sats, found⟩ := runOf_streamPart (r := boundRun r bind p) hx hid o (streamOf s (boundRun r bind p) o groups)
    exact ⟨bind, _, found⟩
  · obtain ⟨d, hd, rfl⟩ := List.mem_map.1 hp
    exact fun h => far (h ▸ hd)

/-- The state in which a pass has started: the passes before it settled, its run added, and its slots emptied in overwrite mode. -/
def passStarted (s : State) (q c b : Nat) (m : QCmd) (o : PassOps) : State :=
  let d := ctxDeck q c
  let p := (startRun (settleArray s q c (if deckQuad s d then o.quad else 0)) q c b m (arrayDecks s d)).1
  if o.add then p else (arrayDecks s d).foldl (overwriteSlots o (passQuads s d o)) p

theorem passStarted_keeps (s : State) (q c b : Nat) (m : QCmd) (o : PassOps) :
    let u := settleArray s q c (if deckQuad s (ctxDeck q c) then o.quad else 0)
    let p := (startRun u q c b m (arrayDecks s (ctxDeck q c))).1
    withoutArray (passStarted s q c b m o) = withoutArray p ∧ (passStarted s q c b m o).runs = p.runs ∧
      (∀ k, ArrayKeeps (deckOf u k) (deckOf (passStarted s q c b m o) k) ∧
        (k ∉ arrayDecks s (ctxDeck q c) → deckOf (passStarted s q c b m o) k = deckOf u k)) ∧
      (o.add = true → ∀ k, deckOf (passStarted s q c b m o) k = deckOf u k) ∧
      (o.add = false → ∀ k ∈ arrayDecks s (ctxDeck q c), ∀ e ∈ passQuads s (ctxDeck q c) o, ∀ l ∈ passSlots o,
        tagOf (deckOf (passStarted s q c b m o) k) e l = accTag o.acc) := by
  intro u p
  have decks : ∀ k, deckOf p k = deckOf u k := deckOf_of_decks (startRun_keeps u q c b m _).2.1
  unfold passStarted
  dsimp only
  cases hadd : o.add with
  | true =>
    rw [if_pos rfl]
    refine ⟨rfl, rfl, fun k => ⟨?_, fun _ => decks k⟩, fun _ => decks, fun h => absurd h (by simp)⟩
    rw [show deckOf _ k = _ from decks k]
    exact .refl _
  | false =>
    rw [if_neg (by simp)]
    obtain ⟨h1, h2, h3⟩ := overwriteAll_keeps o (passQuads s (ctxDeck q c) o) (arrayDecks s (ctxDeck q c)) p
    refine ⟨h1, h2, fun k => ?_, fun h => absurd h (by simp), fun _ k hk e he l hl => tagOf_overwriteAll o _ _ hk he hl⟩
    rw [← decks k]
    exact h3 k

/-- A pass that passes its checks starts and enters. -/
theorem exec_pass {s : State} {q : Fin 4} {c : Fin 18} {b : Nat} {m : QCmd} {o : PassOps} (head : headOp s q c 0x10 = some (b, m))
    (op : opOf m.word = .pass o) (free : arrayFree s q c (if deckQuad s (ctxDeck q c) then o.quad else 0) = true) (ecc : Ecc) :
    exec (.pass q c ecc) s = .next (passAt s q c b m ecc) := by
  show execPass q c ecc s = _
  simp only [execPass, head, op, free, if_true]

/-- What PASS leaves once its checks have passed. -/
theorem passAt_enters {s : State} {q c b : Nat} {m : QCmd} {o : PassOps} (fresh : NamesFresh s) (op : opOf m.word = .pass o)
    (good : passBad s (ctxDeck q c) o = none) :
    ∃ r pre, r.id = s.nextId ∧ r.q = q ∧ r.c = c ∧ r.berth = b ∧ r.cmd = m ∧ r.decks = arrayDecks s (ctxDeck q c) ∧
      r ∈ (passStarted s q c b m o).runs ∧ passAt s q c b m .ok = enterPass (passStarted s q c b m o) r o 0 (!o.add) pre := by
  have eq : passAt s q c b m .ok =
      let u := settleArray s q c (if deckQuad s (ctxDeck q c) then o.quad else 0)
      (match runOf (passStarted s q c b m o) (startRun u q c b m (arrayDecks s (ctxDeck q c))).2 with
      | some r => enterPass (passStarted s q c b m o) r o 0 (!o.add)
          ((arrayDecks s (ctxDeck q c)).map (fun k => (k, (deckOf u k).acc)))
      | none => passStarted s q c b m o) := by
    simp only [passAt, op, good, bufEcc, Bool.not_true, Bool.false_eq_true, if_false] <;> rfl
  obtain ⟨-, runs, -⟩ := passStarted_keeps s q c b m o
  obtain ⟨kept, ids, -⟩ := settleArray_keeps s q c (if deckQuad s (ctxDeck q c) then o.quad else 0)
  dsimp only at eq runs
  generalize settleArray s q c (if deckQuad s (ctxDeck q c) then o.quad else 0) = u at *
  have next : u.nextId = s.nextId := show (withoutArray u).nextId = (withoutArray s).nextId from congrArg State.nextId kept
  have fresh' : NamesFresh u := by rw [fresh_iff, ids, next, ← fresh_iff]; exact fresh
  have found := runOf_startRun fresh' q c b m (arrayDecks s (ctxDeck q c))
  have found' : runOf (passStarted s q c b m o) (startRun u q c b m (arrayDecks s (ctxDeck q c))).2 =
      some (startedRun u q c b m (arrayDecks s (ctxDeck q c))) := by
    unfold runOf at found ⊢
    rw [runs]; exact found
  rw [found'] at eq
  exact ⟨_, _, (nextId_popHead u q c).trans next, rfl, rfl, rfl, rfl, rfl, (mem_of_runOf found').1, eq⟩

/-- Settles O13: the passes before it settle, then its run starts, and its stream goes into the slots of its members. -/
theorem passRunsInItsMembers : Obligations.PassRunsInItsMembers := by
  intro s q c b m o e fresh head op he
  subst he
  refine ⟨fun ecc busy => ?_, fun ecc k free bad => ?_, fun l free good => ?_, fun free good => ?_⟩
  · show execPass q c ecc s = _
    simp only [execPass, head, op, busy, Bool.false_eq_true, if_false]
  · rw [exec_pass head op free]
    simp only [passAt, op, bad, shapeFail]
  · rw [exec_pass head op free]
    simp only [passAt, op, good, bufEcc, Bool.not_false, if_true]
  · obtain ⟨r, pre, id, hq, hc, hb, hcmd, hdecks, mem, eq⟩ := passAt_enters (q := q) (c := c) (b := b) fresh op good
    obtain ⟨keptE, ⟨bind, p, found⟩, decksE⟩ := enterPass_keeps mem rfl o 0 (!o.add) pre
    obtain ⟨keptP, -, decksP, addP, tagsP⟩ := passStarted_keeps s q c b m o
    obtain ⟨keptS, -, decksS⟩ := settleArray_keeps s q c (if deckQuad s (ctxDeck q c) then o.quad else 0)
    obtain ⟨hbm, -, words⟩ := startRun_keeps (settleArray s q c (if deckQuad s (ctxDeck q c) then o.quad else 0)) q c b m
      (arrayDecks s (ctxDeck q c))
    have kept := keptE.trans keptP
    have quaysS : ctxOf (settleArray s q c (if deckQuad s (ctxDeck q c) then o.quad else 0)) q c = ctxOf s q c :=
      show ctxOf (withoutArray _) q c = ctxOf (withoutArray s) q c from congrArg (fun t => ctxOf t q c) keptS
    have tags : ∀ k, (deckOf (enterPass (passStarted s q c b m o) r o 0 (!o.add) pre) k).tags = (deckOf (passStarted s q c b m o) k).tags :=
      fun k => by rw [(decksE k).1]
    have whole : ∀ k, ArrayKeeps (deckOf s k) (deckOf (enterPass (passStarted s q c b m o) r o 0 (!o.add) pre) k) := fun k =>
      ((decksS k).toArrayKeeps.trans (decksP k).1).trans ⟨by rw [(decksE k).1], fun i => by rw [(decksE k).1]⟩
    refine ⟨_, (exec_pass head op free .ok).trans (by rw [eq]), ⟨boundRun r bind p, (mem_of_runOf found).1,
      ⟨id, hq, hc, hb, hcmd, ?_⟩, hdecks⟩, ?_, fun k => (whole k).rest, fun k i => (whole k).tile i, fun k far => ?_, fun k => ?_,
      fun hadd k => ?_, fun hadd k hk e he l hl => ?_⟩
    · rw [← quaysS, ← words]
      exact congrArg (fun t => (ctxOf t q c).queue.map (·.word)) kept
    · calc _ = _ := show (withoutArray _).hbm = (withoutArray _).hbm from congrArg State.hbm kept
        _ = _ := hbm
        _ = _ := show (withoutArray _).hbm = (withoutArray s).hbm from congrArg State.hbm keptS
    · exact ((decksE k).2 (hdecks ▸ far)).trans ((decksP k).2 far)
    · exact ⟨(decksS k).acc, (decksS k).tags⟩
    · rw [tags, addP hadd k, (decksS k).tags]
    · rw [tagOf, tags]
      exact tagsP hadd k hk e he l hl

/-! ### Replays and completion (R105, R114-R120) -/

/-- The skipped blocks of a pass have left: the misses among them are streamed and counted. -/
def replayedRun (s : State) (r : Run) (o : PassOps) : Run :=
  let miss := r.pass.pend.filter (checkMiss s r)
  { r with pass := { r.pass with pend := [], misses := r.pass.misses + miss.length,
                                 skipped := r.pass.skipped + (r.pass.pend.length - miss.length),
                                 stream := r.pass.stream +
                                   streamCycles (passG s (ctxDeck r.q r.c) o)
                                     (miss.flatMap (blockGroups (passG s (ctxDeck r.q r.c) o) r.pass.from_ o.k)) } }

theorem mem_runs_showClamps {s : State} {r : Run} (h : r ∈ s.runs) (slot : Nat) :
    { r with pass := { r.pass with sats := [] } } ∈ (showClamps s r slot).runs := by
  unfold showClamps
  rw [(setSats_keep slot r.pass.sats _).2.1]
  exact mem_mapWhere (fun x => x.id == r.id) _ h (beq_self_eq_true _)

theorem withoutArray_showClamps (s : State) (r : Run) (slot : Nat) : withoutArray (showClamps s r slot) = withoutArray s :=
  (setSats_keep slot r.pass.sats _).1

theorem hbm_of_withoutArray {s t : State} (h : withoutArray t = withoutArray s) : t.hbm = s.hbm :=
  show (withoutArray t).hbm = (withoutArray s).hbm from congrArg State.hbm h

/-- The part of the stream that a replay enters. -/
def replayPart (s : State) (r : Run) (o : PassOps) : State :=
  streamPart s (replayedRun s r o) o (streamOf s (replayedRun s r o) o
    ((r.pass.pend.filter (checkMiss s r)).flatMap (blockGroups (passG s (ctxDeck r.q r.c) o) r.pass.from_ o.k)))

theorem replayRun_of_found {s : State} {r x : Run} {o : PassOps} (h : runOf (replayPart s r o) r.id = some x) :
    replayRun s r o = if x.pass.cut then showClamps (replayPart s r o) x o.slot else settlePass (replayPart s r o) x := by
  have eq : replayRun s r o = (match runOf (replayPart s r o) r.id with
    | some x => if x.pass.cut then showClamps (replayPart s r o) x o.slot else settlePass (replayPart s r o) x
    | none => replayPart s r o) := rfl
  rw [eq, h]

/-- A replay streams the misses: the run is left without skipped blocks, its misses and skips counted. -/
theorem replayRun_keeps {s : State} {r : Run} (h : r ∈ s.runs) (o : PassOps) :
    (replayRun s r o).hbm = s.hbm ∧ ∃ y ∈ (replayRun s r o).runs, y.id = r.id ∧ y.pass.pend = [] ∧
      y.pass.misses = r.pass.misses + (r.pass.pend.filter (checkMiss s r)).length ∧
      y.pass.skipped = r.pass.skipped + (r.pass.pend.length - (r.pass.pend.filter (checkMiss s r)).length) := by
  obtain ⟨streams, sats, found⟩ : ∃ streams sats, runOf (replayPart s r o) r.id = some (streamedRun (replayedRun s r o) streams sats) :=
    runOf_streamPart (r := replayedRun s r o) h rfl o _
  have kept : withoutArray (replayPart s r o) = withoutArray s := (streamPart_keeps s _ o _).1
  rw [replayRun_of_found found]
  split
  · have shown := withoutArray_showClamps (replayPart s r o) (streamedRun (replayedRun s r o) streams sats) o.slot
    exact ⟨(hbm_of_withoutArray shown).trans (hbm_of_withoutArray kept), _, mem_runs_showClamps (mem_of_runOf found).1 o.slot,
      rfl, rfl, rfl, rfl⟩
  · have settled := (settlePass_keeps (replayPart s r o) (streamedRun (replayedRun s r o) streams sats)).1
    refine ⟨(hbm_of_withoutArray settled).trans (hbm_of_withoutArray kept), ?_⟩
    obtain same | same := runOf_settlePass (r := streamedRun (replayedRun s r o) streams sats) found
    · exact ⟨_, (mem_of_runOf same).1, rfl, rfl, rfl, rfl⟩
    · exact ⟨_, (mem_of_runOf same).1, rfl, rfl, rfl, rfl⟩

/-- The skip outcomes counted in the lead deck of a run, and SKIP_MISS where there is a miss. -/
theorem countSkips_spec (s : State) (r : Run) :
    let n := r.pass.misses + r.pass.inPlace.length
    let d := ctxDeck r.q r.c
    (n = 0 → countSkips s r = { s with decks := (countSkips s r).decks }) ∧
    (n ≠ 0 → countSkips s r = raiseBerth { s with decks := (countSkips s r).decks } 1 d 0x0B r.berth n) ∧
    ∀ k, deckOf (countSkips s r) k =
      if d = k then { deckOf s d with skipMiss := satInc (deckOf s d).skipMiss n, skipDone := satInc (deckOf s d).skipDone r.pass.skipped }
      else deckOf s k := by
  intro n d
  unfold countSkips
  dsimp only
  by_cases h : n = 0
  · rw [if_pos h]
    exact ⟨fun _ => rfl, fun hn => absurd h hn, fun k => deckOf_setDeck ..⟩
  · rw [if_neg h]
    have raised := withoutRaised_raiseBerth (setDeck s d { deckOf s d with
      skipMiss := satInc (deckOf s d).skipMiss n, skipDone := satInc (deckOf s d).skipDone r.pass.skipped }) 1 d 0x0B r.berth n
    refine ⟨fun hn => absurd hn h, fun _ => ?_, fun k => ?_⟩
    · rw [decks_of_raised raised]; rfl
    · rw [deckOf_of_decks (decks_of_raised raised), deckOf_setDeck]

/-- Settles O15: a replay goes by the part of the stream it enters, and completion by the run that settling leaves. -/
theorem passCompletesAfterItsReplays : Obligations.PassCompletesAfterItsReplays := by
  refine ⟨fun s q c e r o found moves op => ⟨fun wait => ?_, fun done => ?_⟩, fun s q c e r oldest named moves => ⟨fun wait => ?_, fun done uncut => ?_⟩⟩
  · show execSkipReplay q c e s = _
    simp only [execSkipReplay, found, op, moves, wait, Bool.and_false, Bool.false_eq_true, if_false]
  · have runs : exec (.skipReplay q c e) s = .next (replayRun s r o) := by
      show execSkipReplay q c e s = _
      simp only [execSkipReplay, found, op, moves, done, Bool.and_self, if_true]
    have mem : r ∈ s.runs := List.mem_of_find?_eq_some (p := fun r => passOn q c e r && !r.pass.pend.isEmpty) found
    obtain ⟨hbm, left⟩ := replayRun_keeps mem o
    exact ⟨_, runs, hbm, left⟩
  · have stays : (taskMoves s r.berth && r.pass.pend.isEmpty && !r.pass.cut) = false := by
      rcases wait with h | h <;> simp [h]
    show execPassComplete q c e s = _
    simp only [execPassComplete, oldest, stays, Bool.false_eq_true, if_false]
  · have runs : exec (.passComplete q c e) s = .next (passDone s r) := by
      show execPassComplete q c e s = _
      simp only [execPassComplete, oldest, moves, done, uncut, Bool.not_false, Bool.and_self, if_true]
    obtain ⟨y, left, like⟩ : ∃ y, runOf (settlePass s r) r.id = some y ∧ (y = r ∨ y = settledRun r) := by
      obtain h | h := runOf_settlePass named
      · exact ⟨r, h, .inl rfl⟩
      · exact ⟨_, h, .inr rfl⟩
    have fields : y.id = r.id ∧ y.q = r.q ∧ y.c = r.c ∧ y.berth = r.berth ∧ y.pass.misses = r.pass.misses ∧
        y.pass.inPlace = r.pass.inPlace ∧ y.pass.skipped = r.pass.skipped := by
      obtain rfl | rfl := like <;> exact ⟨rfl, rfl, rfl, rfl, rfl, rfl, rfl⟩
    obtain ⟨id, hq, hc, hb, misses, inPlace, skipped⟩ := fields
    obtain ⟨quiet, missed, decks⟩ := countSkips_spec (settlePass s r) y
    rw [hq, hc, hb, misses, inPlace, skipped] at *
    obtain ⟨-, -, settled⟩ := settlePass_keeps s r
    refine ⟨countSkips (settlePass s r) y, y, ?_, left, ?_, quiet, missed, ?_, ?_, fun k hk => ?_⟩
    · rw [runs, passDone, left]
    · exact fun x hx => id ▸ not_mem_runDone _ y x hx
    · rw [decks, if_pos rfl, (settled _).skips.1]
    · rw [decks, if_pos rfl, (settled _).skips.2]
    · rw [decks, if_neg (Ne.symm hk)]

end Sys2Proof.Proofs
end

section
/-! Transfers of running commands: what issuing them leaves, reads within a step that meet no error, and with them SAVEACC and RESTACC
(R300-R303, R333-R338) (O16). -/

namespace Sys2Proof.Proofs
open Sys2Proof Sys2Proof.Machine Sys2Proof.Safety Sys2Proof.Laws

/-! ### Issuing transfers (R333-R338) -/

/-- The state without what issuing transfers changes: tracker entries, the names given, the fabric and the running commands. -/
def withoutIssue (s : State) : State := { s with trk := [], nextId := 0, fabric := {}, runs := [] }

/-- A run with the transfers still to issue as given. -/
def todoRun (r : Run) (todo : List Req) : Run := { r with todo := todo }

theorem issueFrom_keeps (run q : Nat) (u : BitVec 16) (b : Option Nat) (task : Nat) (l : List Req) :
    ∀ s, withoutIssue (issueFrom s run q u b task l).1 = withoutIssue s ∧ (issueFrom s run q u b task l).1.runs = s.runs := by
  induction l with
  | nil => exact fun s => ⟨rfl, rfl⟩
  | cons r rest ih =>
    intro s
    unfold issueFrom
    split
    · exact ih (takeEntry s _)
    · exact ⟨rfl, rfl⟩

theorem withoutIssue_setRun (s : State) (r : Run) : withoutIssue (setRun s r) = withoutIssue s := rfl

theorem withoutIssue_issueRun (s : State) (id : Nat) : withoutIssue (issueRun s id) = withoutIssue s := by
  unfold issueRun
  split
  · exact (withoutIssue_setRun _ _).trans (issueFrom_keeps ..).1
  · rfl

/-- A run that issues is left under its name, but for the transfers still to issue. -/
theorem runOf_issueRun {s : State} {id : Nat} {r : Run} (h : runOf s id = some r) :
    ∃ todo, runOf (issueRun s id) id = some (todoRun r todo) := by
  obtain ⟨mem, hid⟩ := mem_of_runOf h
  subst hid
  unfold issueRun
  rw [h]
  dsimp only
  have runs := (issueFrom_keeps r.id r.q (sourceId (ctxUnit r.q r.c).1 (ctxUnit r.q r.c).2 0) (some r.berth) r.task r.todo s).2
  exact ⟨_, runOf_setRun_same (r := todoRun r _) (x := r) (by rw [runs]; exact mem) rfl⟩

/-- What does not depend on what issuing changes is as it was. -/
theorem of_withoutIssue {α : Type} (part : State → α) (h : ∀ s, part (withoutIssue s) = part s) {s t : State}
    (k : withoutIssue t = withoutIssue s) : part t = part s := by
  rw [← h t, k, h s]

/-- The writes of a running command to HBM join those that it still has to issue. -/
theorem sendWrites_keeps {s : State} {id : Nat} {r : Run} (found : runOf s id = some r) (q c b : Nat) (pool : List Nat) (spill : Bool)
    (ws : List (Nat × List Byte)) :
    withoutIssue (sendWrites s id q c b pool false spill ws) = withoutIssue s ∧
      ∃ todo outs, runOf (sendWrites s id q c b pool false spill ws) id = some (todoRun { r with outs := outs } todo) := by
  obtain ⟨mem, hid⟩ := mem_of_runOf found
  subst hid
  unfold sendWrites
  dsimp only
  rw [if_neg (by simp), found]
  dsimp only
  refine ⟨(withoutIssue_issueRun _ _).trans rfl, ?_⟩
  obtain ⟨todo, h⟩ := runOf_issueRun (id := r.id) (runOf_setRun_same (r := { r with
    todo := r.todo ++ ws.flatMap (fun w => writeReqs 4 pool w.1 w.2), outs := r.outs ++ ws.map (fun w => (w.1, w.2.length)) }) mem rfl)
  exact ⟨todo, _, h⟩

/-! ### Reads within a step that meet no error (R329, R330) -/

theorem map_zipIdx_fst {α : Type} (l : List α) : l.zipIdx.map (fun v => v.1) = l := by
  simp

/-- A read within a step of bytes that may be read gives the bytes. -/
theorem stepRead_of_readable {s : State} {b a len : Nat} (w : Requester) (h : Readable s b a len) :
    stepRead s w b a len {} = (s, some (hbmRead s a len)) := by
  obtain ⟨inside, clean⟩ := h
  simp only [stepRead, inside, readAllowed, readFound, readErrors, odeccAdd, List.filter_nil, List.foldl_nil, if_true, clean, tget,
    map_zipIdx_fst]

/-- The memory of a state as commands access it: the windows, the bytes and the poisoned blocks. -/
structure SameMemory (s t : State) : Prop where
  window : ∀ a, windowAt t a = windowAt s a
  byte : ∀ a, hbmByte t a = hbmByte s a
  poison : ∀ a, poisoned t a = poisoned s a

theorem SameMemory.trans {s t u : State} (h : SameMemory s t) (k : SameMemory t u) : SameMemory s u :=
  ⟨fun a => (k.window a).trans (h.window a), fun a => (k.byte a).trans (h.byte a), fun a => (k.poison a).trans (h.poison a)⟩

theorem SameMemory.read {s t : State} (h : SameMemory s t) (a len : Nat) : hbmRead t a len = hbmRead s a len := by
  induction len generalizing a with
  | zero => rfl
  | succ n ih => simp only [hbmRead, h.byte, ih]

theorem SameMemory.outsideFrom {s t : State} (h : SameMemory s t) (ok : Window → Bool) (n a hi : Nat) :
    outsideFrom t ok n a hi = outsideFrom s ok n a hi := by
  induction n generalizing a with
  | zero => rfl
  | succ n ih => simp only [Machine.outsideFrom, h.window, ih]

theorem SameMemory.readable {s t : State} (h : SameMemory s t) {b a len : Nat} (k : Readable s b a len) : Readable t b a len := by
  obtain ⟨inside, clean⟩ := k
  refine ⟨(h.outsideFrom _ _ _ _).trans inside, ?_⟩
  rw [← clean, poisonIn, poisonIn, funext h.poison]

theorem sameMemory_setDeck (s : State) (d : Nat) (x : Deck) : SameMemory s (setDeck s d x) := ⟨fun _ => rfl, fun _ => rfl, fun _ => rfl⟩

/-! ### SAVEACC (R300, R301) -/

/-- The pages and images that a SAVEACC writes, with the slots as its read port finds them. -/
def saveWrites (s : State) (d : Nat) (g : Bool) (a : Nat) (sel : List Nat) : List (Nat × List Byte) :=
  (addressed s d g).zipIdx.flatMap (fun k =>
    sel.map (fun i => (a * 4096 + k.2 * 0x101000 + i * 0x40000, slotImage (deckOf ((addressed s d g).foldl (savePort sel) s) k.1) i)) ++
    [(a * 4096 + k.2 * 0x101000 + 0x100000, statePage (deckOf s k.1) [])])

section Saveacc
variable {s : State} {q c b sl a : Nat} {g : Bool} {m : QCmd} (op : opOf m.word = .saveacc sl g a)
include op

theorem saveaccAt_of_scope (h : (gangScopeBad s (ctxDeck q c) g || deckFb s (ctxDeck q c) == 15) = true) (par : Ecc) :
    saveaccAt s q c b m par = refuseHead (raiseShape s 0x09 q c b m (some (ctxDeck q c))) q c m := by
  simp only [saveaccAt, op, h, if_true, shapeFail]

variable (scope : (gangScopeBad s (ctxDeck q c) g || deckFb s (ctxDeck q c) == 15) = false)
include scope

theorem saveaccAt_of_split {k : Nat} (h : (addressed s (ctxDeck q c) g).find? (fun k => splitsPair (slotSet sl) (tagOf (deckOf s k))) = some k)
    (par : Ecc) : saveaccAt s q c b m par = refuseHead (raiseShape s 0x09 q c b m (some k)) q c m := by
  simp only [saveaccAt, op, scope, Bool.false_eq_true, if_false, h, shapeFail]

variable (whole : (addressed s (ctxDeck q c) g).find? (fun k => splitsPair (slotSet sl) (tagOf (deckOf s k))) = none)
include whole

theorem saveaccAt_of_outside {x : Nat} (h : firstOutside s b (saveRows s (ctxDeck q c) g a (slotSet sl)) = some x) (par : Ecc) :
    saveaccAt s q c b m par = refuseHead (raiseCtx s q c 0x33 b x) q c m := by
  unfold saveRows at h
  simp only [saveaccAt, op, scope, Bool.false_eq_true, if_false, whole, h]

/-- A SAVEACC that has passed its checks starts, and sends its writes. -/
theorem saveaccAt_of_good (h : firstOutside s b (saveRows s (ctxDeck q c) g a (slotSet sl)) = none) :
    saveaccAt s q c b m .ok =
      let p := startRun { s with free := ((addressed s (ctxDeck q c) g).foldl (savePort (slotSet sl)) s).free } q c b m (addressed s (ctxDeck q c) g)
      sendWrites p.1 p.2 q c b (addressed s (ctxDeck q c) g) false false (saveWrites s (ctxDeck q c) g a (slotSet sl)) := by
  unfold saveRows at h
  simp only [saveaccAt, op, scope, Bool.false_eq_true, if_false, whole, h, accEcc, saveWrites]

end Saveacc

/-! ### RESTACC (R302, R303) -/

/-- The state pages of decks at their addresses, as HBM holds them. -/
def pagesIn (s : State) (l : List (Nat × Nat)) : List (Nat × Nat × List Byte) :=
  l.map (fun e => (e.1, e.2, hbmRead s (e.2 + 0x100000) 4096))

theorem readPages_of_readable {s : State} {b : Nat} (w : Nat → Nat → Requester) {l : List (Nat × Nat)}
    (h : ∀ e ∈ l, Readable s b (e.2 + 0x100000) 4096) : readPages w b {} l s = (s, some (pagesIn s l)) := by
  have fold : ∀ (l : List (Nat × Nat)) (pre : List (Nat × Nat × List Byte)), (∀ e ∈ l, Readable s b (e.2 + 0x100000) 4096) →
      l.foldl (readPage w b {}) (s, some pre) = (s, some (pre ++ pagesIn s l)) := by
    intro l
    induction l with
    | nil => intro pre _; simp [pagesIn]
    | cons e r ih =>
      intro pre h
      have one : readPage w b {} (s, some pre) e = (s, some (pre ++ [(e.1, e.2, hbmRead s (e.2 + 0x100000) 4096)])) := by
        simp only [readPage, stepRead_of_readable _ (h e (by simp)), readAs, Option.map_some]
      rw [List.foldl_cons, one, ih _ fun x hx => h x (by simp [hx])]
      simp [pagesIn]
  exact (fold l [] h).trans (by rw [List.nil_append])

/-- A slot of a deck set to its image. -/
def restoredImage (s : State) (e : Nat × Nat × List Byte) (v : State) (i : Nat) : State :=
  setDeck v e.1 (restoreSlot e.2.2 (hbmRead s (e.2.1 + i * 0x40000) 0x40000) (deckOf v e.1) i)

theorem sameMemory_restoredImage {s v : State} (h : SameMemory s v) (e : Nat × Nat × List Byte) (i : Nat) :
    SameMemory s (restoredImage s e v i) := by
  unfold restoredImage
  exact h.trans (sameMemory_setDeck ..)

/-- One slot of a deck whose image can be read is set to its image. -/
theorem restoreImage_of_readable {s v : State} {b i : Nat} (w : Nat → Nat → Requester) (e : Nat × Nat × List Byte)
    (h : Readable s b (e.2.1 + i * 0x40000) 0x40000) (same : SameMemory s v) :
    restoreImage w b {} e (v, true) i = (restoredImage s e v i, true) := by
  unfold restoreImage restoredImage
  rw [stepRead_of_readable _ (same.readable h), same.read]
  rfl

theorem restoreImages_of_readable {s : State} {b : Nat} (w : Nat → Nat → Requester) (e : Nat × Nat × List Byte) {sel : List Nat}
    (h : ∀ i ∈ sel, Readable s b (e.2.1 + i * 0x40000) 0x40000) : ∀ {v : State}, SameMemory s v →
    sel.foldl (restoreImage w b {} e) (v, true) = (sel.foldl (restoredImage s e) v, true) ∧ SameMemory s (sel.foldl (restoredImage s e) v) := by
  induction sel with
  | nil => exact fun same => ⟨rfl, same⟩
  | cons i r ih =>
    intro v same
    rw [List.foldl_cons, restoreImage_of_readable w e (h i (by simp)) same, List.foldl_cons]
    exact ih (fun j hj => h j (by simp [hj])) (sameMemory_restoredImage same e i)

theorem restoreAll_of_readable {s : State} {b : Nat} (w : Nat → Nat → Requester) {sel : List Nat} {l : List (Nat × Nat × List Byte)}
    (h : ∀ e ∈ l, ∀ i ∈ sel, Readable s b (e.2.1 + i * 0x40000) 0x40000) :
    restoreAll w b {} sel l s = (l.foldl (fun u e => sel.foldl (restoredImage s e) u) s, true) := by
  have fold : ∀ (l : List (Nat × Nat × List Byte)) (v : State), SameMemory s v →
      (∀ e ∈ l, ∀ i ∈ sel, Readable s b (e.2.1 + i * 0x40000) 0x40000) →
      l.foldl (fun (a : State × Bool) e => sel.foldl (restoreImage w b {} e) a) (v, true) =
        (l.foldl (fun u e => sel.foldl (restoredImage s e) u) v, true) := by
    intro l
    induction l with
    | nil => exact fun _ _ _ => rfl
    | cons e r ih =>
      intro v same h
      obtain ⟨eq, same'⟩ := restoreImages_of_readable w e (h e (by simp)) same
      rw [List.foldl_cons, List.foldl_cons, eq]
      exact ih _ same' fun x hx => h x (by simp [hx])
  exact fold l s ⟨fun _ => rfl, fun _ => rfl, fun _ => rfl⟩ h

/-- The addressed decks with the addresses of their images. -/
def imagesAt (s : State) (d : Nat) (g : Bool) (a : Nat) : List (Nat × Nat) :=
  (addressed s d g).zipIdx.map (fun k => (k.1, a * 4096 + k.2 * 0x101000))

theorem saveRows_eq (s : State) (d : Nat) (g : Bool) (a : Nat) (sel : List Nat) :
    saveRows s d g a sel = (imagesAt s d g a).flatMap (fun e => imageExtents e.2 sel) := by
  unfold saveRows imagesAt
  rw [List.flatMap_map]

theorem readable_images {s : State} {b d a : Nat} {g : Bool} {sel : List Nat} (h : ∀ e ∈ saveRows s d g a sel, Readable s b e.1 e.2)
    {e : Nat × Nat} (he : e ∈ imagesAt s d g a) :
    Readable s b (e.2 + 0x100000) 4096 ∧ ∀ i ∈ sel, Readable s b (e.2 + i * 0x40000) 0x40000 := by
  have inRows : ∀ x ∈ imageExtents e.2 sel, Readable s b x.1 x.2 := fun x hx =>
    h x (by rw [saveRows_eq]; exact List.mem_flatMap.2 ⟨e, he, hx⟩)
  refine ⟨inRows (e.2 + 0x100000, 4096) (by simp [imageExtents]), fun i hi => inRows (e.2 + i * 0x40000, 0x40000) ?_⟩
  exact List.mem_append_left _ (List.mem_map.2 ⟨i, hi, rfl⟩)

section Restacc
variable {s : State} {q c b sl a : Nat} {g : Bool} {m : QCmd} (op : opOf m.word = .restacc sl g a)
  (scope : (gangScopeBad s (ctxDeck q c) g || deckFb s (ctxDeck q c) == 15) = false)
include op scope

theorem restaccAt_of_outside {x : Nat} (h : firstOutside s b (saveRows s (ctxDeck q c) g a (slotSet sl)) = some x) (mem : HbmOutcome) :
    restaccAt s q c b m mem = refuseHead (raiseCtx s q c 0x33 b x) q c m := by
  rw [saveRows_eq] at h
  unfold imagesAt at h
  simp only [restaccAt, op, scope, Bool.false_eq_true, if_false, h]

variable (inside : firstOutside s b (saveRows s (ctxDeck q c) g a (slotSet sl)) = none)
include inside

theorem restaccAt_of_noRoom (h : stepRoom s (addressed s (ctxDeck q c) g) = false) (mem : HbmOutcome) : restaccAt s q c b m mem = s := by
  rw [saveRows_eq] at inside
  unfold imagesAt at inside
  simp only [restaccAt, op, scope, Bool.false_eq_true, if_false, inside, h, Bool.not_false, if_true]

/-- A RESTACC all of whose pages and images can be read. -/
theorem restaccAt_of_readable (room : stepRoom s (addressed s (ctxDeck q c) g) = true)
    (h : ∀ e ∈ saveRows s (ctxDeck q c) g a (slotSet sl), Readable s b e.1 e.2) :
    let l := pagesIn s (imagesAt s (ctxDeck q c) g a)
    (∀ e, l.find? (fun e => leAt e.2.2 0x9C 4 != (deckOf s e.1).gang.toNat) = some e →
      restaccAt s q c b m {} = refuseHead (raiseBerth s 1 e.1 0x0C b (leAt e.2.2 0x9C 4 + (deckOf s e.1).gang.toNat * 2 ^ 32)) q c m) ∧
    (l.find? (fun e => leAt e.2.2 0x9C 4 != (deckOf s e.1).gang.toNat) = none →
      l.find? (fun e => splitsPair (slotSet sl) (pageTag e.2.2)) = none →
      restaccAt s q c b m {} = headDone (l.foldl (fun u e => (slotSet sl).foldl (restoredImage s e) u) s) q c b m) := by
  have pages := readPages_of_readable (fun _ => ctxRequester s q c b) fun e he => (readable_images h he).1
  have images := restoreAll_of_readable (s := s) (b := b) (fun _ => ctxRequester s q c b)
    (l := pagesIn s (imagesAt s (ctxDeck q c) g a)) (sel := slotSet sl) fun e he i hi => by
      obtain ⟨x, hx, rfl⟩ := List.mem_map.1 he
      exact (readable_images h hx).2 i hi
  rw [saveRows_eq] at inside
  unfold imagesAt at *
  refine ⟨fun e found => ?_, fun same whole => ?_⟩
  · simp only [restaccAt, op, scope, Bool.false_eq_true, if_false, inside, room, Bool.not_true, pages, found, restoreShape]
  · simp only [restaccAt, op, scope, Bool.false_eq_true, if_false, inside, room, Bool.not_true, pages, same, whole, images, if_true]

end Restacc

/-- A command whose writes are done completes, or leaves where it failed. -/
theorem completeWrites_of_done {s : State} {q c n : Nat} {r : Run} (oldest : oldestRun s q c = some r) (op : opcodeOf r.cmd.word = n)
    (moves : taskMoves s r.berth = true) (done : writesDone s r = true) :
    completeWrites s q c n =
      if r.failed then failRun (ackHold s r.berth r.id) r.id else runDone (ackHold s r.berth r.id) r := by
  simp only [completeWrites, oldest, op, moves, done, beq_self_eq_true, Bool.and_self, if_true]

/-- Settles O16: SAVEACC starts and sends its writes; RESTACC reads pages and images that meet no error, and sets the slots. -/
theorem saveaccAndRestaccExecute : Obligations.SaveaccAndRestaccExecute := by
  refine ⟨fun s q c => ⟨fun b m sl g a par fresh head op => ⟨fun busy => ?_, fun idle => ?_⟩, fun r oldest op moves done => ?_⟩,
    fun s q c b m sl a g head op => ⟨fun mem busy => ?_, fun idle scope => ?_⟩⟩
  · show execSaveacc q c par s = _
    simp only [execSaveacc, head, busy, if_true]
  · have runs : ∀ par, exec (.saveacc q c par) s = .next (saveaccAt s q c b m par) := fun par => by
      show execSaveacc q c par s = _
      simp only [execSaveacc, head, idle, Bool.false_eq_true, if_false]
    simp only [runs, Host.Outcome.next.injEq]
    refine ⟨fun scope => saveaccAt_of_scope op scope par, fun scope => ⟨fun k split => saveaccAt_of_split op scope split par,
      fun whole => ⟨fun x h => saveaccAt_of_outside op scope whole h par, fun inside => ⟨_, saveaccAt_of_good op scope whole inside, ?_⟩⟩⟩⟩
    generalize ((addressed s (ctxDeck q c) g).foldl (savePort (slotSet sl)) s).free = f
    have found := runOf_startRun (s := { s with free := f }) fresh q c b m (addressed s (ctxDeck q c) g)
    obtain ⟨hbm, decks, words⟩ := startRun_keeps { s with free := f } q c b m (addressed s (ctxDeck q c) g)
    obtain ⟨kept, todo, outs, left⟩ := sendWrites_keeps found q c b (addressed s (ctxDeck q c) g) false
      (saveWrites s (ctxDeck q c) g a (slotSet sl))
    refine ⟨(of_withoutIssue State.hbm (fun _ => rfl) kept).trans hbm, (of_withoutIssue State.decks (fun _ => rfl) kept).trans decks,
      _, (mem_of_runOf left).1, nextId_popHead { s with free := f } q c, rfl, rfl, rfl, rfl, ?_⟩
    exact (of_withoutIssue (fun t => (ctxOf t q c).queue.map (·.word)) (fun _ => rfl) kept).trans words
  · have runs : exec (.saveaccComplete q c) s = .next (completeWrites s q c 0x11) := rfl
    rw [runs, completeWrites_of_done oldest op moves done]
    exact ⟨fun failed => by rw [if_pos failed], fun good => by rw [if_neg (by simp [good])]⟩
  · show execRestacc q c mem s = _
    simp only [execRestacc, head, busy, if_true]
  · have runs : ∀ mem, exec (.restacc q c mem) s = .next (restaccAt s q c b m mem) := fun mem => by
      show execRestacc q c mem s = _
      simp only [execRestacc, head, idle, Bool.false_eq_true, if_false]
    simp only [runs, Host.Outcome.next.injEq]
    refine ⟨fun x mem h => restaccAt_of_outside op scope h mem, fun mem inside room => restaccAt_of_noRoom op scope inside room mem,
      fun l inside room readable hl => ?_⟩
    have pages : l = pagesIn s (imagesAt s (ctxDeck q c) g a) := by
      rw [hl, pagesIn, imagesAt, List.map_map]; rfl
    rw [pages]
    exact restaccAt_of_readable op scope inside room readable

end Sys2Proof.Proofs
end

section
/-! Completion of DRAIN with its sounding records (R193, R210), and FMTSEL (R205-R208) (O20, O21). -/

namespace Sys2Proof.Proofs
open Sys2Proof Sys2Proof.Machine Sys2Proof.Safety Sys2Proof.Laws

/-! ### Writes within a step (R339, R368) -/

/-- Where no thread carries a SCATTER, a write meets no table row. -/
theorem rowsMet_of_idle {s : State} (h : ∀ e ∈ s.quays, e.2.threads = []) (u : BitVec 16) (row : Option (Nat × Nat)) (a len : Nat) :
    rowsMet s u row a len = [] := by
  unfold rowsMet
  rw [List.flatMap_eq_nil_iff]
  intro e he
  rw [h e he, List.filterMap_nil]

theorem stepWrite_of_idle {s : State} (h : ∀ e ∈ s.quays, e.2.threads = []) (w : Requester) (a : Nat) (data : List Byte) :
    stepWrite s w a data none = (hbmWrite s a data, true) := by
  simp only [stepWrite, meetWrites, rowsMet_of_idle h, List.isEmpty_nil, if_true, undefineAll, List.foldl_nil, Option.bind_none]

/-- A write within a step that is not lost changes memory alone. -/
theorem withoutMemory_stepWrite_late (s : State) (w : Requester) (a : Nat) (data : List Byte) :
    withoutMemory (stepWrite s w a data none).1 = withoutMemory s ∧ (stepWrite s w a data none).2 = true := by
  refine ⟨?_, rfl⟩
  show withoutMemory (undefineAll (hbmWrite (meetWrites s (sourceId w.level w.unit 0) none a data.length).1 a data) _) = _
  rw [withoutMemory_undefineAll, withoutMemory_hbmWrite, withoutMemory_meetWrites]

theorem decks_of_withoutMemory {s t : State} (h : withoutMemory t = withoutMemory s) : t.decks = s.decks :=
  show (withoutMemory t).decks = (withoutMemory s).decks from congrArg State.decks h

theorem berths_of_withoutMemory {s t : State} (h : withoutMemory t = withoutMemory s) : t.berths = s.berths :=
  show (withoutMemory t).berths = (withoutMemory s).berths from congrArg State.berths h

/-! ### A DRAIN that flushes (R193) -/

/-- The accumulator of a deck's reduction stream emptied, its sounding record written to its place in the log. -/
def flushedSound (log l step : Nat) (t : State) (k : Nat) : State :=
  setDeck (hbmWrite t (log + ((l * 16 + step) * 16 + k) * 128) (soundRecord (deckOf t k).snd l step)) k
    { deckOf t k with snd := {} }

/-- One member's record written: its accumulator is empty, and every other deck is as it was. -/
theorem flushSound_keeps (r : Run) (l step : Nat) (a : State × Bool) (k : Nat) :
    (flushSound r l step none a k).2 = a.2 ∧ (flushSound r l step none a k).1.berths = a.1.berths ∧
      ∀ j, deckOf (flushSound r l step none a k).1 j = if k = j then { deckOf a.1 k with snd := {} } else deckOf a.1 j := by
  have kept := withoutMemory_stepWrite_late a.1 (ctxRequester a.1 r.q r.c r.berth 4)
    ((berthOf a.1 r.berth).cfg.sndLog + ((l * 16 + step) * 16 + k) * 128) (soundRecord (deckOf a.1 k).snd l step)
  refine ⟨Bool.and_true _, ?_, fun j => ?_⟩
  · exact (berths_of_withoutMemory kept.1 :)
  unfold flushSound
  dsimp only
  rw [deckOf_setDeck, deckOf_of_decks (decks_of_withoutMemory kept.1)]

theorem flushSounds_keep (r : Run) (l step : Nat) (ds : List Nat) (a : State × Bool) :
    (ds.foldl (flushSound r l step none) a).2 = a.2 ∧
      (∀ k ∈ ds, (deckOf (ds.foldl (flushSound r l step none) a).1 k).snd = {}) ∧
      ∀ k, k ∉ ds → deckOf (ds.foldl (flushSound r l step none) a).1 k = deckOf a.1 k := by
  refine ⟨read_foldl_untouched _ Prod.snd ds (fun a k _ => (flushSound_keeps r l step a k).1) a, fun k hk => ?_, fun k hk => ?_⟩
  · refine foldl_reaches _ (fun a : State × Bool => (deckOf a.1 k).snd = {}) hk (fun a => ?_) (fun a j h => ?_) a
    · rw [(flushSound_keeps r l step a k).2.2, if_pos rfl]
    · rw [(flushSound_keeps r l step a j).2.2]
      split
      · rfl
      · exact h
  · refine read_foldl_untouched _ (fun a : State × Bool => deckOf a.1 k) ds (fun a j hj => ?_) a
    rw [(flushSound_keeps r l step a j).2.2, if_neg (fun e : j = k => hk (e ▸ hj))]

/-- A write to HBM leaves the threads of the gather engines. -/
theorem idle_hbmWrite {s : State} (h : ∀ e ∈ s.quays, e.2.threads = []) (a : Nat) (data : List Byte) :
    ∀ e ∈ (hbmWrite s a data).quays, e.2.threads = [] := by
  have blocks : ((blockAddrs a data.length).foldl (fun t b => writeBlock t a data b) s).quays = s.quays :=
    foldl_keeps State.quays (fun t b => by unfold writeBlock; dsimp only; split <;> rfl) _ s
  unfold hbmWrite
  split
  · exact h
  · intro e he
    unfold invalidate at he
    dsimp only at he
    rw [blocks] at he
    obtain ⟨e', he', rfl⟩ := List.mem_map.1 he
    exact h e' he'

/-- Where no SCATTER is in progress a flush writes the records and empties the accumulators, and no more. -/
theorem flushSounds_of_idle (r : Run) (l step : Nat) (ds : List Nat) {log : Nat} {s : State} (h : ∀ e ∈ s.quays, e.2.threads = [])
    (hlog : (berthOf s r.berth).cfg.sndLog = log) :
    (ds.foldl (flushSound r l step none) (s, true)).1 = ds.foldl (flushedSound log l step) s := by
  induction ds generalizing s with
  | nil => rfl
  | cons k ds ih =>
    have one : flushSound r l step none (s, true) k = (flushedSound log l step s k, true) := by
      simp only [flushSound, stepWrite_of_idle h, Bool.and_self, flushedSound, hlog]
    have berths : (flushedSound log l step s k).berths = s.berths := by
      unfold flushedSound
      rw [setDeck_berths]
      exact berths_of_withoutMemory (withoutMemory_hbmWrite ..)
    rw [List.foldl_cons, List.foldl_cons, one]
    exact ih (idle_hbmWrite h _ _) (by rw [berthOf, berths]; exact hlog)

section Complete
variable {s : State} {q : Fin 4} {c : Fin 18} {r : Run} {o : DrainOps} (oldest : oldestRun s q c = some r)
  (op : opOf r.cmd.word = .drain o) (moves : taskMoves s r.berth = true)
include oldest op moves

theorem exec_drainComplete (mem : HbmOutcome) : exec (.drainComplete q c mem) s =
    .next (if writesDone s r && r.rows.isEmpty && (!o.flush || stepRoom s r.decks) then drainEnd s r o mem.late else s) := by
  show execDrainComplete q c mem s = _
  simp only [execDrainComplete, oldest, op, moves, Bool.true_and]

theorem exec_drainComplete_plain (done : (writesDone s r && r.rows.isEmpty) = true) (plain : o.flush = false) (mem : HbmOutcome) :
    exec (.drainComplete q c mem) s =
      .next (if r.failed then failRun (ackHold s r.berth r.id) r.id else runDone (ackHold s r.berth r.id) r) := by
  rw [exec_drainComplete oldest op moves]
  simp only [done, plain, Bool.not_false, Bool.true_or, Bool.and_self, if_true, drainEnd, Bool.false_eq_true, if_false, Bool.not_true,
    Bool.or_false]

end Complete

/-- Settles O20: a flush writes its records one member after the other, none of which is lost. -/
theorem drainCompletesAndFlushes : Obligations.DrainCompletesAndFlushes := by
  intro s q c r o oldest op moves
  refine ⟨fun mem wait => ?_, fun mem done plain failed => ?_, fun mem done plain good => ?_, fun done flush room good => ?_⟩
  · have stays : (writesDone s r && r.rows.isEmpty && (!o.flush || stepRoom s r.decks)) = false := by
      rcases wait with h | ⟨flush, room⟩
      · rw [h, Bool.false_and]
      · rw [flush, room, Bool.not_true, Bool.or_self, Bool.and_false]
    rw [exec_drainComplete oldest op moves, stays, if_neg (by simp)]
  · rw [exec_drainComplete_plain oldest op moves done plain, if_pos failed]
  · rw [exec_drainComplete_plain oldest op moves done plain, if_neg (by simp [good])]
  · obtain ⟨whole, emptied, others⟩ := flushSounds_keep r o.l o.step r.decks (s, true)
    refine ⟨(r.decks.foldl (flushSound r o.l o.step none) (s, true)).1, ?_, emptied, others, fun idle => ?_⟩
    · rw [exec_drainComplete oldest op moves]
      simp only [done, flush, room, Bool.or_true, Bool.and_self, if_true, drainEnd, whole, good, Bool.not_true, Bool.or_self,
        Bool.false_eq_true, if_false]
    · have flushed := flushSounds_of_idle r o.l o.step r.decks idle rfl
      unfold flushedSound at flushed
      exact flushed

/-! ### FMTSEL (R205-R208) -/

theorem readRecords_of_readable {s : State} {b : Nat} (w : Requester) {l : List Nat} (h : ∀ a ∈ l, Readable s b a 128) :
    readRecords w b {} l s = (s, some (l.map (fun a => hbmRead s a 128))) := by
  have fold : ∀ (l : List Nat) (pre : List (List Byte)), (∀ a ∈ l, Readable s b a 128) →
      l.foldl (readRecord w b {}) (s, some pre) = (s, some (pre ++ l.map (fun a => hbmRead s a 128))) := by
    intro l
    induction l with
    | nil => intro pre _; rw [List.map_nil, List.append_nil]; rfl
    | cons a r ih =>
      intro pre h
      have one : readRecord w b {} (s, some pre) a = (s, some (pre ++ [hbmRead s a 128])) := by
        simp only [readRecord, stepRead_of_readable _ (h a (by simp)), readAs, Option.map_some]
      rw [List.foldl_cons, one, ih _ fun x hx => h x (by simp [hx]), List.map_cons, List.append_assoc]
      rfl
  exact (fold l [] h).trans (by rw [List.nil_append])

/-- The fields of a layer format table entry: its code, its mark, and whether it fell back. -/
theorem fmtWord_fields {n code : Nat} (fall mx : Bool) (h : code < 8) :
    fmtWord n fall mx code % 16 = code ∧ bit (fmtWord n fall mx code) 4 = true ∧ bit (fmtWord n fall mx code) 7 = fall := by
  have fields : ∀ f m : Bool, ∀ c < 8, (flagAt f 7 + flagAt m 5 + 16 + c) % 16 = c ∧ (flagAt f 7 + flagAt m 5 + 16 + c).testBit 4 = true ∧
      (flagAt f 7 + flagAt m 5 + 16 + c).testBit 7 = f ∧ flagAt f 7 + flagAt m 5 + 16 + c < 2 ^ 8 := by decide
  obtain ⟨h1, h2, h3, small⟩ := fields fall (mx && decide (3 ≤ code ∧ code ≤ 7)) code h
  have split : fmtWord n fall mx code = 2 ^ 8 * n + (flagAt fall 7 + flagAt (mx && decide (3 ≤ code ∧ code ≤ 7)) 5 + 16 + code) := by
    unfold fmtWord
    omega
  generalize flagAt fall 7 + flagAt (mx && decide (3 ≤ code ∧ code ≤ 7)) 5 + 16 + code = low at *
  refine ⟨by omega, ?_, ?_⟩
  · rw [bit, split, Nat.testBit_two_pow_mul_add _ small, if_pos (by omega), h2]
  · rw [bit, split, Nat.testBit_two_pow_mul_add _ small, if_pos (by omega), h3]

theorem code_lt_of_mem_fmtOrder : ∀ c ∈ fmtOrder, c.1 < 8 := by decide

/-- A candidate set with a bit below 8 has a candidate in the order of R207. -/
theorem exists_candidate {cand : Nat} (h : cand % 256 ≠ 0) : fmtOrder.filter (fun c => bit cand c.1) ≠ [] := by
  intro none
  have off : ∀ i < 8, cand.testBit i = false := by
    intro i hi
    have inOrder : ∀ i < 8, ∃ c ∈ fmtOrder, c.1 = i := by decide
    obtain ⟨c, hc, rfl⟩ := inOrder i hi
    have := (List.filter_eq_nil_iff.1 none) c hc
    simpa [bit] using this
  refine h (Nat.eq_of_testBit_eq fun i => ?_)
  rw [show 256 = 2 ^ 8 from rfl, Nat.testBit_mod_two_pow, Nat.zero_testBit]
  by_cases hi : i < 8
  · simp [off i hi]
  · simp [hi]

/-- The format chosen is a candidate, and passes unless the entry says that it fell back. -/
theorem fmtChoose_candidate {recs : List (List Byte)} {cand margin thresh w : Nat} {mx : Bool} (h : cand % 256 ≠ 0)
    (chosen : fmtChoose recs cand margin thresh mx = some w) :
    bit cand (w % 16) = true ∧ bit w 4 = true ∧
      (bit w 7 = false → ∃ x, (w % 16, x) ∈ fmtOrder ∧ fmtPasses recs margin thresh (w % 16, x) = true) := by
  unfold fmtChoose at chosen
  split at chosen
  · cases chosen
  · dsimp only at chosen
    cases found : (fmtOrder.filter (fun c => bit cand c.1)).find? (fmtPasses recs margin thresh) with
    | some c =>
      rw [found] at chosen
      obtain rfl := Option.some.inj chosen
      obtain ⟨inOrder, isCand⟩ := List.mem_filter.1 (List.mem_of_find?_eq_some found)
      obtain ⟨code, mark, -⟩ := fmtWord_fields (n := recs.length) false mx (code_lt_of_mem_fmtOrder c inOrder)
      rw [code]
      exact ⟨isCand, mark, fun _ => ⟨c.2, inOrder, List.find?_some found⟩⟩
    | none =>
      rw [found] at chosen
      obtain rfl := Option.some.inj chosen
      have last := List.getLast?_eq_some_getLast (exists_candidate (cand := cand) h)
      generalize List.getLast _ _ = c at last
      obtain ⟨inOrder, isCand⟩ := List.mem_filter.1 (List.mem_of_getLast? last)
      obtain ⟨code, mark, fell⟩ := fmtWord_fields (n := recs.length) true mx (code_lt_of_mem_fmtOrder c inOrder)
      rw [last, Option.map_some, Option.getD_some, code]
      exact ⟨isCand, mark, fun h => absurd (fell.symm.trans h) (by simp)⟩

/-- Settles O21: the records read meet no error, and the entry's fields name the candidate chosen. -/
theorem fmtselChoosesACandidate : Obligations.FmtselChoosesACandidate := by
  refine ⟨fun s q c b m l t wm1 decks cand margin thresh mx at_ head op hat => ?_, fun s w a data idle => stepWrite_of_idle idle w a data,
    fun recs cand margin thresh w mx some _ chosen => fmtChoose_candidate some chosen⟩
  have guard : ((List.range 16).any (fun k => bit decks k && !bit (berthOf s b).cfg.decks.toNat k) = true) ↔
      ∃ k, k < 16 ∧ bit decks k = true ∧ bit (berthOf s b).cfg.decks.toNat k = false := by simp
  refine ⟨fun mem busy => ?_, fun mem idle bad => ?_, fun idle some layer inBerth => ⟨fun mem room => ?_, fun room readable => ?_⟩⟩
  · show execFmtsel q c mem s = _
    simp only [execFmtsel, head, busy, if_true]
  · show execFmtsel q c mem s = _
    rw [← guard] at bad
    simp only [execFmtsel, head, idle, Bool.false_eq_true, if_false, fmtselAt, op, bad, if_true, shapeFail]
  · have good : ¬ (cand % 256 = 0 ∨ (berthOf s b).cfg.nl ≤ l ∨
        (List.range 16).any (fun k => bit decks k && !bit (berthOf s b).cfg.decks.toNat k) = true) := by
      rw [guard]
      rintro (h | h | ⟨k, hk, on, off⟩)
      · exact some h
      · omega
      · exact absurd ((inBerth k hk on).symm.trans off) (by simp)
    show execFmtsel q c mem s = _
    simp only [execFmtsel, head, idle, Bool.false_eq_true, if_false, fmtselAt, op, good, room, Bool.not_false, if_true]
  · have good : ¬ (cand % 256 = 0 ∨ (berthOf s b).cfg.nl ≤ l ∨
        (List.range 16).any (fun k => bit decks k && !bit (berthOf s b).cfg.decks.toNat k) = true) := by
      rw [guard]
      rintro (h | h | ⟨k, hk, on, off⟩)
      · exact some h
      · omega
      · exact absurd ((inBerth k hk on).symm.trans off) (by simp)
    subst hat
    show execFmtsel q c {} s = _
    simp only [execFmtsel, head, idle, Bool.false_eq_true, if_false, fmtselAt, op, good, room, Bool.not_true,
      readRecords_of_readable (ctxRequester s q c b 0) readable, fmtselEnd]
    split
    · next none => simp only [none]
    · next w chosen => simp only [chosen, (withoutMemory_stepWrite_late s _ _ _).2, if_true]

end Sys2Proof.Proofs
end

section
/-! The gather engine: commands of the index form and recalls start, threads act, and runs complete (R306, R307, R353-R372) (O22, O23). -/

namespace Sys2Proof.Proofs
open Sys2Proof Sys2Proof.Machine Sys2Proof.Safety Sys2Proof.Laws

/-! ### Starting (R306, R307, R353-R355) -/

/-- A command that starts, its run then given a gather part. -/
theorem startRun_gather {s : State} (fresh : NamesFresh s) (q c b : Nat) (m : QCmd) (decks : List Nat) (g : GatherRun) :
    ∃ t y, (match runOf (startRun s q c b m decks).1 (startRun s q c b m decks).2 with
      | some x => setRun (startRun s q c b m decks).1 { x with gather := g }
      | none => (startRun s q c b m decks).1) = t ∧ t.hbm = s.hbm ∧ y ∈ t.runs ∧ Started s t q c b m y ∧ y.gather = g := by
  have found := runOf_startRun fresh q c b m decks
  obtain ⟨hbm, -, words⟩ := startRun_keeps s q c b m decks
  rw [found]
  have mem := runOf_setRun_same (r := { startedRun s q c b m decks with gather := g }) (mem_of_runOf found).1 rfl
  exact ⟨_, _, rfl, hbm, (mem_of_runOf mem).1, ⟨nextId_popHead s q c, rfl, rfl, rfl, rfl, words⟩, rfl⟩

section Index
variable {s : State} {q b kind x ld ir count desc : Nat} {m : QCmd} (op : opOf m.word = .gatherIndex kind x ld ir count desc)
include op

theorem gatherAt_of_noStash (h : (tileOf s (4 * q + ld) ir).role ≠ .stash) (mem : HbmOutcome) :
    gatherAt s q b m mem = refuseHead (raiseShape s 0x09 q 16 b m (some (4 * q + ld))) q 16 m := by
  simp only [gatherAt, op, bne_iff_ne, ne_eq, h, not_false_eq_true, if_true, shapeFail]

variable (stash : (tileOf s (4 * q + ld) ir).role = .stash) (readable : Readable s b (desc * 64) 64)
include stash readable

/-- With a stash and a descriptor that can be read the checks of the descriptor decide. -/
theorem gatherAt_of_readable : gatherAt s q b m {} =
    let t := tileOf s (4 * q + ld) ir
    let bytes := hbmRead s (desc * 64) 64
    if gdescBad bytes kind count (tileRows t * t.cols) then refuseHead (raiseBerth s 2 q 0x26 b (desc * 64)) q 16 m
    else if !(gdesc bytes).inHbm && (t.fmt != 0 || t.mx) then refuseHead (raiseShape s 0x09 q 16 b m (some (4 * q + ld))) q 16 m
    else if count = 0 then headDone s q 16 b m
    else (match runOf (startRun s q 16 b m [4 * q + ld]).1 (startRun s q 16 b m [4 * q + ld]).2 with
      | some x => setRun (startRun s q 16 b m [4 * q + ld]).1 { x with gather := { desc := bytes, count := count } }
      | none => (startRun s q 16 b m [4 * q + ld]).1) := by
  simp only [gatherAt, op, stash, bne_self_eq_false, Bool.false_eq_true, if_false, stepRead_of_readable _ readable, shapeFail] <;> rfl

end Index

/-- The three instructions of the index form start a command of their opcode. -/
theorem exec_gatherStart {q : Fin 4} {mem : HbmOutcome} {i : Instr} {op : Nat}
    (h : (i, op) ∈ [(Instr.gather q mem, 0x20), (Instr.scatter q mem, 0x21), (Instr.prefetch q mem, 0x22)]) (s : State) :
    exec i s = .next (gatherStart s q op mem) := by
  simp only [List.mem_cons, Prod.mk.injEq, List.not_mem_nil, or_false] at h
  obtain ⟨rfl, rfl⟩ | ⟨rfl, rfl⟩ | ⟨rfl, rfl⟩ := h <;> rfl

/-! ### A free thread takes a position (R357-R360) -/

theorem rowFails_setRun (s : State) (r : Run) (b : Nat) (a : Int) (len : Nat) : rowFails (setRun s r) b a len = rowFails s b a len := by
  have same : SameMemory s (setRun s r) := ⟨fun _ => rfl, fun _ => rfl, fun _ => rfl⟩
  unfold rowFails outside
  rw [same.outsideFrom]

section Position
variable {s u : State} {q n : Nat} {r : Run} {ecc : Ecc} {mem : HbmOutcome} {ws : List Nat}
  (words : listWords s r (gdesc r.gather.desc)
    ((gdesc r.gather.desc).first + (if (gdesc r.gather.desc).wpair then 2 else 1) * r.gather.next)
    (if (gdesc r.gather.desc).wpair then 2 else 1) ecc mem = (u, some ws))
include words

/-- An index beyond the table stops the command. -/
theorem takePosition_of_beyond (some : nth 0 ws 0 ≠ 0xFFFFFFFF) (beyond : (gdesc r.gather.desc).nrows ≤ nth 0 ws 0) :
    takePosition s q n r ecc mem = stopGather (raiseBerth u 2 q 0x27 r.berth (r.gather.next + nth 0 ws 0 * 2 ^ 32)) r.id := by
  simp only [takePosition, words]
  rw [if_pos ⟨some, beyond⟩]

variable (within : ¬ (nth 0 ws 0 ≠ 0xFFFFFFFF ∧ (gdesc r.gather.desc).nrows ≤ nth 0 ws 0))
include within

/-- A null index without effect is passed over. -/
theorem takePosition_of_null (h : positionActs (gdesc r.gather.desc) (gatherKind r) (nth 0 ws 0) = false) :
    takePosition s q n r ecc mem = setRun u { r with gather := { r.gather with next := r.gather.next + 1 } } := by
  simp only [takePosition, words]
  rw [if_neg within, h]
  rfl

variable (acts : positionActs (gdesc r.gather.desc) (gatherKind r) (nth 0 ws 0) = true)
include acts

/-- An extent outside the windows stops the command. -/
theorem takePosition_of_outside {a : Nat} {l : List Nat}
    (h : (positionRows (gdesc r.gather.desc) (gatherKind r) (nth 0 ws 0) r.gather.next).filterMap (fun e => rowFails u r.berth e.1 e.2) = a :: l) :
    takePosition s q n r ecc mem =
      stopGather (raiseBerth (setRun u { r with gather := { r.gather with next := r.gather.next + 1 } }) 2 q 0x33 r.berth a) r.id := by
  simp only [takePosition, words]
  rw [if_neg within, acts]
  simp only [Bool.not_true, Bool.false_eq_true, if_false, rowFails_setRun, h]

/-- The thread that holds a position. -/
def positionThread (r : Run) (ws : List Nat) : Thread :=
  let g := gdesc r.gather.desc
  let x := nth 0 ws 0
  { run := r.id, pos := r.gather.next, index := x, weight := if g.wpair then BitVec.ofNat 32 (nth 0 ws 1) else 0x3F800000,
    row := if x = 0xFFFFFFFF then 0 else (rowAddress g.tbl g.tblStride x).toNat,
    cont := if gatherKind r = 2 then 0 else (rowAddress g.cont g.contStride r.gather.next).toNat, len := g.len,
    scatter := gatherKind r == 1 }

theorem takePosition_of_good
    (h : (positionRows (gdesc r.gather.desc) (gatherKind r) (nth 0 ws 0) r.gather.next).filterMap (fun e => rowFails u r.berth e.1 e.2) = []) :
    takePosition s q n r ecc mem =
      setThread (setRun u { r with gather := { r.gather with next := r.gather.next + 1 } }) q n (positionThread r ws) := by
  simp only [takePosition, words]
  rw [if_neg within, acts]
  simp only [Bool.not_true, Bool.false_eq_true, if_false, rowFails_setRun, h, positionThread]

end Position

theorem thread_setThread (s : State) (q n : Nat) (t d : Thread) : tget d (quayOf (setThread s q n t) q).threads n = t := by
  unfold setThread
  rw [quayOf_setQuay, if_pos rfl]
  exact tget_tput_same ..

theorem positionActs_iff (g : GDesc) (kind x : Nat) :
    positionActs g kind x = true ↔ x ≠ 0xFFFFFFFF ∨ kind = 0 ∧ g.nullz = true := by
  simp [positionActs]

/-! ### Thread actions (R364-R366) -/

section Action
variable {s : State} {q : Fin 4} (moves : gatherMoves s q = true) {n : Nat} (ready : nextReady s q = some n)
include moves ready

theorem exec_action_of_carrying (carries : thas (quayOf s q).threads n = true) (ecc : Ecc) (mem : HbmOutcome) :
    exec (.gatherThreadAction q ecc mem) s = .next (threadAct (setQuay s q { quayOf s q with nextThread := (n + 1) % 128 }) q n
      (tget { run := 0, pos := 0, index := 0, weight := 0 } (quayOf s q).threads n)) := by
  show execGatherThreadAction q ecc mem s = _
  simp only [execGatherThreadAction, moves, if_true, threadAction, ready, carries]

theorem exec_action_of_free (free : thas (quayOf s q).threads n = false) {r : Run} (run : dispatching s q = some r) (index : r.gather.pages = [])
    (ecc : Ecc) (mem : HbmOutcome) : exec (.gatherThreadAction q ecc mem) s =
      .next (takePosition (setQuay s q { quayOf s q with nextThread := (n + 1) % 128 }) q n r ecc mem) := by
  show execGatherThreadAction q ecc mem s = _
  simp only [execGatherThreadAction, moves, if_true, threadAction, ready, free, Bool.false_eq_true, if_false, run, index, List.isEmpty_nil]

end Action

/-- Settles O22: starting by the checks of the descriptor, a thread's position by what its index list gives, completion by `gatherDone`. -/
theorem gatherEnginesStartStepAndComplete : Obligations.GatherEnginesStartStepAndComplete := by
  refine ⟨fun s q b m kind x ld ir count desc mem i op fresh hi head hop => ?_, fun s q ecc mem => ⟨fun stop => ?_, fun none => ?_,
    fun n moves ready carries => exec_action_of_carrying moves ready carries ecc mem,
    fun n r u ws moves ready free run index words => ?_⟩, fun s q r found hq hc moves => ⟨fun busy => ?_, fun done => ?_⟩⟩
  · rw [exec_gatherStart hi]
    have starts : (gatherRoom s q && stepRoom s [16 + q]) = true → gatherStart s q op mem = gatherAt s q b m mem := fun room => by
      simp only [gatherStart, head, room, if_true]
    refine ⟨fun full => ?_, fun room noStash => ?_, fun bytes room stash hmem readable hbytes => ?_⟩
    · simp only [gatherStart, head, full, Bool.false_eq_true, if_false]
    · rw [starts room, gatherAt_of_noStash hop noStash]
    · subst hmem hbytes
      rw [starts room, gatherAt_of_readable hop stash readable]
      dsimp only
      refine ⟨fun bad => by rw [if_pos bad], fun good => ⟨fun inReg other => ?_, fun fits => ⟨fun zero => ?_, fun some => ?_⟩⟩⟩
      · have : (!(gdesc (hbmRead s (desc * 64) 64)).inHbm && ((tileOf s (4 * q + ld) ir).fmt != 0 || (tileOf s (4 * q + ld) ir).mx)) = true := by
          simpa [inReg] using other
        rw [if_neg (by simp [good]), if_pos this]
      · have : ¬ (!(gdesc (hbmRead s (desc * 64) 64)).inHbm && ((tileOf s (4 * q + ld) ir).fmt != 0 || (tileOf s (4 * q + ld) ir).mx)) = true := by
          rcases fits with h | ⟨h1, h2⟩ <;> simp [*]
        rw [if_neg (by simp [good]), if_neg this, if_pos zero]
      · have : ¬ (!(gdesc (hbmRead s (desc * 64) 64)).inHbm && ((tileOf s (4 * q + ld) ir).fmt != 0 || (tileOf s (4 * q + ld) ir).mx)) = true := by
          rcases fits with h | ⟨h1, h2⟩ <;> simp [*]
        rw [if_neg (by simp [good]), if_neg this, if_neg some]
        obtain ⟨t, y, eq, hbm, mem, started, gather⟩ := startRun_gather fresh q 16 b m [4 * q + ld] { desc := hbmRead s (desc * 64) 64, count := count }
        exact ⟨t, congrArg _ eq, hbm, y, mem, started, gather⟩
  · show execGatherThreadAction q ecc mem s = _
    simp only [execGatherThreadAction, stop, Bool.false_eq_true, if_false]
  · show execGatherThreadAction q ecc mem s = _
    simp only [execGatherThreadAction, threadAction, none, ite_self]
  · rw [exec_action_of_free moves ready free run index]
    refine ⟨fun some beyond => by rw [takePosition_of_beyond words some beyond], fun null idle => ?_, fun acts => ?_⟩
    · rw [takePosition_of_null words (fun h => h.1 null)]
      refine Bool.eq_false_iff.mpr fun acts => ?_
      rw [positionActs_iff] at acts
      exact acts.elim (fun h => h null) idle
    · have within : ¬ (nth 0 ws 0 ≠ 0xFFFFFFFF ∧ (gdesc r.gather.desc).nrows ≤ nth 0 ws 0) := by
        rintro ⟨some, beyond⟩
        rcases acts with ⟨null, -⟩ | ⟨-, inTable⟩
        · exact some null
        · omega
      have acts' : positionActs (gdesc r.gather.desc) (gatherKind r) (nth 0 ws 0) = true := by
        rw [positionActs_iff]
        exact acts.elim (fun h => .inr h.2) (fun h => .inl h.1)
      refine ⟨fun a l fails => by rw [takePosition_of_outside words within acts' fails], fun good => ?_⟩
      refine ⟨_, congrArg _ (takePosition_of_good words within acts' good), ?_⟩
      dsimp only
      rw [thread_setThread]
      exact ⟨rfl, rfl, rfl, rfl, fun some => if_neg some, fun kind => if_neg kind⟩
  · show Host.Outcome.next (gatherComplete s q r.id) = _
    simp only [gatherComplete, found, busy, Bool.and_false, Bool.false_eq_true, if_false]
  · show Host.Outcome.next (gatherComplete s q r.id) = _
    simp only [gatherComplete, found, hq, hc, moves, done, beq_self_eq_true, Bool.and_self, if_true]

/-! ### Recall (R307, R369, R370) -/

theorem berths_ackRecall (s : State) (b run p : Nat) : (ackRecall s b run p).berths = s.berths := by
  unfold ackRecall
  split
  · next n _ =>
    have only := setReqs_only s n (dropFirst (fun x => x.kind == .recall run p) (connOf s n).reqs)
    rw [OnlyRecords] at only
    rw [only]
  · rfl

/-- A page whose pieces have all been written is resident in its frame, and no recall brings it back. -/
theorem pageDone_spec (s : State) (r : Run) (p f : Nat) :
    (pageDone s r p f).hbm = s.hbm ∧ pageState (pageDone s r p f) r.berth p = .resident f ∧
      thas (berthOf (pageDone s r p f) r.berth).hold.recalling p = false := by
  have gone : ∀ l : Tbl Nat, thas (tdel l p) p = false := by
    intro l
    induction l with
    | nil => rfl
    | cons e l ih =>
      obtain ⟨j, v⟩ := e
      by_cases h : j = p
      · subst h
        simpa [tdel] using ih
      · have : tdel ((j, v) :: l) p = (j, v) :: tdel l p := by simp [tdel, h]
        rw [this]
        simp [thas, h, ih]
  refine ⟨rfl, ?_, ?_⟩
  · simp only [pageDone, makeResident, setHold, pageState, berthOf_setRun, berthOf_setBerth, if_true]
    exact tget_tput_same ..
  · simp only [pageDone, makeResident, setHold, berthOf_setRun, berthOf_setBerth, if_true]
    exact gone _

/-- Settles O23: a recall starts over its pages; its pieces go to their page's frame, and the last makes it resident. -/
theorem recallStartsAndBringsPagesBack : Obligations.RecallStartsAndBringsPagesBack := by
  refine ⟨fun s q b m kind first count fresh head op => ?_, fun s q run page piece n data r c th found moves len phase thread conn usable => ?_,
    fun s q ecc mem page piece n r th moves ready carries thread found phase todo hpage => ?_⟩
  · have runs : exec (.gatherRecall q) s = .next (if gatherRoom s q then recallAt s q b m else s) := by
      show execGatherRecall q s = _
      simp only [execGatherRecall, head]
    rw [runs]
    refine ⟨fun full => by rw [if_neg (by simp [full])], fun room beyond => ?_, fun room within => ?_⟩
    · rw [if_pos room]
      simp only [recallAt, op]
      rw [if_pos beyond]
    · obtain ⟨t, y, eq, hbm, mem, started, gather⟩ := startRun_gather fresh q 16 b m []
        { pages := (List.range count).map (fun i => first + i), count := 32 * count }
      refine ⟨t, ?_, hbm, y, mem, started, by rw [gather], by rw [gather], by rw [gather]⟩
      rw [if_pos room]
      simp only [recallAt, op]
      rw [if_neg (by omega)]
      exact congrArg _ eq
  · have runs : exec (.recallPieceDone q run page piece data) s = .next (pieceDone s q n r th page piece data) := by
      show execRecallPieceDone q run page piece data s = _
      simp only [execRecallPieceDone, recallPiece, found, thread, moves, phase, len, conn, usable, beq_self_eq_true, decide_true, Bool.and_self, if_true]
    rw [runs]
    refine ⟨fun spoiled => by simp only [pieceDone, spoiled, if_true], fun whole => ?_⟩
    have berth : berthOf (ackRecall s r.berth r.id page) r.berth = berthOf s r.berth := by
      unfold berthOf
      rw [berths_ackRecall]
    simp only [pieceDone, whole, Bool.false_eq_true, if_false, berth]
  · have found' : runOf (setQuay s q { quayOf s q with nextThread := (n + 1) % 128 }) th.run = some r := found
    have runs : exec (.gatherThreadAction q ecc mem) s = .next (pieceWritten (freeThread (setQuay s q
        { quayOf s q with nextThread := (n + 1) % 128 }) q n) r page piece) := by
      rw [exec_action_of_carrying moves ready carries, thread]
      simp only [threadAct, found', phase, todo, hpage, List.isEmpty_nil, Bool.not_true, Bool.false_eq_true, if_false,
        Nat.reduceEqDiff]
    rw [runs]
    have count : (((page, piece) :: r.gather.pieces).filter (fun e => e.1 == page)).length =
        (r.gather.pieces.filter (fun e => e.1 == page)).length + 1 := by
      rw [List.filter_cons_of_pos (by simp), List.length_cons]
    refine ⟨fun more => ?_, fun last => ?_⟩
    · simp only [pieceWritten]
      rw [if_neg (by rw [count]; omega)]
    · refine ⟨_, rfl, ?_⟩
      simp only [pieceWritten]
      rw [if_pos (by rw [count]; omega)]
      exact pageDone_spec _ _ page _

end Sys2Proof.Proofs
end

section
/-! The collective engine's commands: REDUCE, NORM and XFER start, complete and time out (R308-R311, R445-R457) (O24). -/

namespace Sys2Proof.Proofs
open Sys2Proof Sys2Proof.Machine Sys2Proof.Safety Sys2Proof.Laws

/-! ### A command that starts and takes its engine's part of the run -/

section Starts
variable {s u : State} {q c b : Nat} {m : QCmd} {ds : List Nat} (next : u.nextId = s.nextId)
include next

theorem startRun_id : (startRun u q c b m ds).2 = s.nextId := (nextId_popHead u q c).trans next

variable (fresh : NamesFresh s) (runs : u.runs = s.runs)
include fresh runs

theorem runOf_startRun_of : runOf (startRun u q c b m ds).1 s.nextId = some (startedRun u q c b m ds) := by
  have fresh' : NamesFresh u := by unfold NamesFresh; rw [runs, next]; exact fresh
  have found := runOf_startRun fresh' q c b m ds
  rwa [startRun_id next] at found

variable (ctx : ctxOf u q c = ctxOf s q c)
include ctx

/-- The run of a command that has started, its engine's part set. -/
theorem started_setRun {y : Run} (id : y.id = s.nextId) (hq : y.q = q) (hc : y.c = c) (hb : y.berth = b) (hm : y.cmd = m) :
    y ∈ (setRun (startRun u q c b m ds).1 y).runs ∧ Started s (setRun (startRun u q c b m ds).1 y) q c b m y := by
  have found := runOf_startRun_of (b := b) (m := m) (ds := ds) (q := q) (c := c) next fresh runs
  obtain ⟨mem, hid⟩ := mem_of_runOf found
  refine ⟨(mem_of_runOf (runOf_setRun_same (r := y) mem (hid.trans id.symm))).1, id, hq, hc, hb, hm, ?_⟩
  rw [← ctx, ← (startRun_keeps u q c b m ds).2.2]
  rfl

end Starts

theorem berths_startRun (s : State) (q c b : Nat) (m : QCmd) (ds : List Nat) : (startRun s q c b m ds).1.berths = s.berths := by
  have only := popHead_only s q c
  rw [OnlyFlags] at only
  show (popHead s q c).berths = _
  rw [only]

theorem SameMemory.firstOutside {s t : State} (h : SameMemory s t) (b : Nat) (l : List (Nat × Nat)) :
    firstOutside t b l = firstOutside s b l := by
  induction l with
  | nil => rfl
  | cons e l ih => simp only [Machine.firstOutside, outside, h.outsideFrom, ih]

theorem sameMemory_takeSeq (s : State) (b stream : Nat) : SameMemory s (takeSeq s b stream).1 := ⟨fun _ => rfl, fun _ => rfl, fun _ => rfl⟩

/-! ### REDUCE (R308, R309, R445-R449) -/

/-- The run of a REDUCE that has started over its group. -/
def reduceRun (s : State) (q b : Nat) (m : QCmd) (o : ReduceOps) : Run :=
  { startedRun (takeSeq s b o.rstream).1 q 17 b m [] with
    coll := { group := o.group, seq := (takeSeq s b o.rstream).2, kind := o.kind, len := o.len, src := if o.fromHbm then 1 else 0 },
    todo := if o.fromHbm then readReqs 3 [20] o.saddr (4 * o.len) else [] }

section Reduce
variable {s : State} {q b : Nat} {m : QCmd} {o : ReduceOps} {g : Group} (group : (berthOf s b).cfg.groups[o.group]? = some g)
include group

theorem reduceAt_of_shape (kind : o.kind = 1) (len : o.len % g.n ≠ 0) : reduceAt s q b m o = refuseHead
    (raiseBerth (takeSeq s b o.rstream).1 2 q 0x28 b (collDetail o.rstream (tget 0 (berthOf s b).seqs o.rstream))) q 17 m := by
  simp only [reduceAt, group, kind, decide_true, Bool.true_and, bne_iff_ne, ne_eq, len, not_false_eq_true, if_true]
  rfl

variable (shape : o.kind ≠ 1 ∨ o.len % g.n = 0)
include shape

theorem reduceAt_of_outside {a : Nat} (out : firstOutside s b (reduceExtents o g.n) = some a) :
    reduceAt s q b m o = refuseHead (raiseCtx (takeSeq s b o.rstream).1 q 17 0x33 b a) q 17 m := by
  have fits : ¬ (decide (o.kind = 1) && o.len % g.n != 0) = true := by rcases shape with h | h <;> simp [h]
  simp only [reduceAt, group, if_neg fits, (sameMemory_takeSeq s b o.rstream).firstOutside, out]

variable (inside : firstOutside s b (reduceExtents o g.n) = none)
include inside

theorem reduceAt_of_empty (len : o.len = 0) : reduceAt s q b m o = headDone (takeSeq s b o.rstream).1 q 17 b m := by
  have fits : ¬ (decide (o.kind = 1) && o.len % g.n != 0) = true := by rcases shape with h | h <;> simp [h]
  simp only [reduceAt, group, if_neg fits, (sameMemory_takeSeq s b o.rstream).firstOutside, inside]
  rw [if_pos len]

theorem reduceAt_of_good (fresh : NamesFresh s) (len : o.len ≠ 0) : reduceAt s q b m o =
    let u := setRun (startRun (takeSeq s b o.rstream).1 q 17 b m []).1 (reduceRun s q b m o)
    deliverRows b o.rstream (u.runs.length + 1) (pumpRun (issueRun (beginGroup u s.nextId) s.nextId) s.nextId) := by
  have fits : ¬ (decide (o.kind = 1) && o.len % g.n != 0) = true := by rcases shape with h | h <;> simp [h]
  have id := startRun_id (b := b) (m := m) (ds := []) (q := q) (c := 17) (s := s) (u := (takeSeq s b o.rstream).1) rfl
  have found := runOf_startRun_of (b := b) (m := m) (ds := []) (q := q) (c := 17) (s := s) (u := (takeSeq s b o.rstream).1) rfl fresh rfl
  simp only [reduceAt, group, if_neg fits, (sameMemory_takeSeq s b o.rstream).firstOutside, inside]
  rw [if_neg len]
  simp only [id, found, reduceRun]

end Reduce

/-! ### NORM (R310) -/

/-- The run of a NORM that has started over its group. -/
def normRun (s u : State) (q b : Nat) (m : QCmd) (grp : Nat) (own : List Byte) : Run :=
  { startedRun u q 17 b m [] with coll := { group := grp, seq := (takeSeq s b 0).2, kind := 0, len := 1, src := 2, own := own } }

/-- The state of a NORM in which the counter has been taken and the accumulators are cleared. -/
def normCleared (s : State) (b acc : Nat) : State :=
  (berthDecks s b).foldl (clearNorm acc) { (takeSeq s b 0).1 with free := (takeSeq s b 0).1.free + (berthDecks s b).length + 1 }

theorem clearNorms_only (acc : Nat) (l : List Nat) (s : State) : OnlyDecks s (l.foldl (clearNorm acc) s) :=
  OnlyDecks.foldl (f := clearNorm acc) (fun _ _ => rfl) l s

theorem clearNorms_decks (acc : Nat) (l : List Nat) (s : State) :
    (∀ d ∈ l, tget 0 (deckOf (l.foldl (clearNorm acc) s) d).nacc acc = 0) ∧
      ∀ d, d ∉ l → deckOf (l.foldl (clearNorm acc) s) d = deckOf s d := by
  have deck : ∀ (t : State) (k d : Nat), deckOf (clearNorm acc t k) d =
      if k = d then { deckOf t k with nacc := tput (deckOf t k).nacc acc 0 } else deckOf t d := fun t k d => deckOf_setDeck ..
  refine ⟨fun d hd => ?_, fun d hd => ?_⟩
  · refine foldl_reaches (clearNorm acc) (fun t => tget 0 (deckOf t d).nacc acc = 0) hd (fun t => ?_) (fun t k h => ?_) s
    · rw [deck, if_pos rfl]
      exact tget_tput_same ..
    · rw [deck]
      split
      · next same => exact tget_tput_same ..
      · exact h
  · refine read_foldl_untouched (clearNorm acc) (fun t => deckOf t d) l (fun t k hk => ?_) s
    rw [deck, if_neg (fun e : k = d => hd (e ▸ hk))]

section Norm
variable {s : State} {q b acc grp n f : Nat} {m : QCmd}

theorem normAt_of_outside {a : Nat}
    (h : firstOutside s b [((berthOf s b).cfg.scalar + 4 * n, 4), ((berthOf s b).cfg.scalar + 4 * f, 4)] = some a) :
    normAt s q b m acc grp n f = refuseHead (raiseCtx s q 17 0x33 b a) q 17 m := by
  simp only [normAt, h]

theorem normAt_of_good (fresh : NamesFresh s) {g : Group} (group : (berthOf s b).cfg.groups[grp]? = some g)
    (h : firstOutside s b [((berthOf s b).cfg.scalar + 4 * n, 4), ((berthOf s b).cfg.scalar + 4 * f, 4)] = none) :
    normAt s q b m acc grp n f =
      let y := normRun s (normCleared s b acc) q b m grp (natLe 4 (normSum (s.free + (berthDecks s b).length)
        ((berthDecks s b).zipIdx.map (fun e => normWord s acc e.1 e.2))).toNat)
      pumpRun (beginGroup (setRun (startRun (normCleared s b acc) q 17 b m []).1 y) s.nextId) s.nextId := by
  have only := clearNorms_only acc (berthDecks s b)
    { (takeSeq s b 0).1 with free := (takeSeq s b 0).1.free + (berthDecks s b).length + 1 }
  have runs : (normCleared s b acc).runs = s.runs := by unfold normCleared; rw [only]; rfl
  have next : (normCleared s b acc).nextId = s.nextId := by unfold normCleared; rw [only]; rfl
  have id := startRun_id (b := b) (m := m) (ds := []) (q := q) (c := 17) next
  have found := runOf_startRun_of (b := b) (m := m) (ds := []) (q := q) (c := 17) next fresh runs
  unfold normCleared at id found ⊢
  simp only [normAt, h, group, id, setColl, found, normRun]

end Norm

/-! ### XFER (R311, R441) -/

/-- The run of an XFER that has started. -/
def xferRun (u : State) (q b : Nat) (m : QCmd) (o : XferOps) (sails : List Nat) : Run :=
  { startedRun u q 17 b m [] with todo := readReqs 3 [20] o.laddr o.len, coll := { sails := sails } }

theorem xferSails_keeps (s : State) (o : XferOps) : (xferSails s o).1.runs = s.runs ∧ (xferSails s o).1.nextId = s.nextId ∧
    (xferSails s o).1.quays = s.quays ∧ (xferSails s o).1.hbm = s.hbm := by
  unfold xferSails bindSailings
  dsimp only
  split
  · split <;> exact ⟨rfl, rfl, rfl, rfl⟩
  · exact ⟨rfl, rfl, rfl, rfl⟩

theorem xferAt_of_good {s : State} {q b : Nat} {m : QCmd} {o : XferOps} (fresh : NamesFresh s) (some : o.len ≠ 0 ∨ o.imm = true)
    (inside : firstOutside s b [(o.laddr, o.len)] = none) (usable : connUsable s o.conn = true) :
    xferAt s q b m o = pumpRun (issueRun (setRun (startRun (xferSails s o).1 q 17 b m []).1
      (xferRun (xferSails s o).1 q b m o (xferSails s o).2)) s.nextId) s.nextId := by
  obtain ⟨runs, next, -, -⟩ := xferSails_keeps s o
  have id := startRun_id (b := b) (m := m) (ds := []) (q := q) (c := 17) next
  have found := runOf_startRun_of (b := b) (m := m) (ds := []) (q := q) (c := 17) next fresh runs
  have busy : ¬ (decide (o.len = 0) && !o.imm) = true := by rcases some with h | h <;> simp [h]
  simp only [xferAt, if_neg busy, inside, usable, Bool.not_true, Bool.false_eq_true, if_false, id, found]
  rfl

/-- Settles O24: each command's start by its checks, and its run as it is started. -/
theorem collectiveCommandsExecute : Obligations.CollectiveCommandsExecute := by
  refine ⟨fun s q b m o g fresh head op group => ⟨fun full => ?_, fun room => ⟨fun kind len => ?_, fun shape => ⟨fun a out => ?_,
      fun inside => ⟨fun empty => ?_, fun some => ?_⟩⟩⟩⟩,
    fun s q r found hq moves => ⟨fun op => ⟨fun failed => ?_, fun good done last => ?_, fun good more => ?_⟩,
      fun coll waits => ⟨fun early => ?_, fun late => ?_⟩⟩,
    fun s q b m acc grp n f k fresh head op => ⟨fun full => ?_, fun a room out => ?_, fun g room group inside => ?_⟩,
    fun s q b m o fresh head op => ⟨fun full => ?_, fun room empty plain => ?_, fun room some => ⟨fun a out => ?_,
      fun inside => ⟨fun broken => ?_, fun usable => ?_⟩⟩⟩,
    fun s q r found hq moves op => ⟨fun failed => ?_, fun good done => ?_, fun good more => ?_⟩⟩
  · show Host.Outcome.next (reduceStart s q) = _
    simp only [reduceStart, head, op, full, Bool.false_eq_true, if_false]
  · have starts : exec (.reduce q) s = .next (reduceAt s q b m o) := by
      show Host.Outcome.next (reduceStart s q) = _
      simp only [reduceStart, head, op, room, if_true]
    rw [starts, reduceAt_of_shape group kind len]
  · have starts : exec (.reduce q) s = .next (reduceAt s q b m o) := by
      show Host.Outcome.next (reduceStart s q) = _
      simp only [reduceStart, head, op, room, if_true]
    rw [starts, reduceAt_of_outside group shape out]
  · have starts : exec (.reduce q) s = .next (reduceAt s q b m o) := by
      show Host.Outcome.next (reduceStart s q) = _
      simp only [reduceStart, head, op, room, if_true]
    rw [starts, reduceAt_of_empty group shape inside empty]
  · have starts : exec (.reduce q) s = .next (reduceAt s q b m o) := by
      show Host.Outcome.next (reduceStart s q) = _
      simp only [reduceStart, head, op, room, if_true]
    have run := started_setRun (u := (takeSeq s b o.rstream).1) (q := q) (c := 17) (b := b) (m := m) (ds := []) rfl fresh rfl rfl
      (y := reduceRun s q b m o) (nextId_popHead ..) rfl rfl rfl rfl
    refine ⟨setRun (startRun (takeSeq s b o.rstream).1 q 17 b m []).1 (reduceRun s q b m o), reduceRun s q b m o, ?_, run.1, run.2, ?_,
      rfl, rfl, rfl, rfl, ?_, rfl⟩
    · rw [starts, reduceAt_of_good group shape inside fresh some]
    · exact (startRun_keeps (takeSeq s b o.rstream).1 q 17 b m []).1
    · have berths : berthOf (setRun (startRun (takeSeq s b o.rstream).1 q 17 b m []).1 (reduceRun s q b m o)) b =
          berthOf (takeSeq s b o.rstream).1 b := by
        unfold berthOf
        rw [setRun_berths, berths_startRun]
      rw [berths, takeSeq, berthOf_setBerth, if_pos rfl]
      exact tget_tput_same ..
  · show Host.Outcome.next (reduceComplete s q r.id) = _
    simp only [reduceComplete, found, hq, op, moves, failed, beq_self_eq_true, Bool.and_self, if_true]
  · have final : (r.coll.kind == 0 && (runGroup s r).chain != 0xFF) = false := by rcases last with h | h <;> simp [h]
    show Host.Outcome.next (reduceComplete s q r.id) = _
    simp only [reduceComplete, found, hq, op, moves, good, done, final, beq_self_eq_true, Bool.and_self, if_true, Bool.not_false,
      Bool.false_eq_true, if_false]
  · show Host.Outcome.next (reduceComplete s q r.id) = _
    simp only [reduceComplete, found, good, more, Bool.false_and, Bool.false_eq_true, if_false, ite_self]
  · show Host.Outcome.next (collTmo s q r.id) = _
    simp only [collTmo, found, decide_eq_false (Nat.not_le.2 early), Bool.and_false, Bool.false_eq_true, if_false]
  · have raised := withoutRaised_raiseBerth s 2 q 0x2A r.berth (collDetail (runReduce r).rstream r.coll.seq)
    have same : runOf (raiseBerth s 2 q 0x2A r.berth (collDetail (runReduce r).rstream r.coll.seq)) r.id = some r := by
      unfold runOf
      rw [runs_of_raised raised]
      exact found
    have time : (raiseBerth s 2 q 0x2A r.berth (collDetail (runReduce r).rstream r.coll.seq)).time = s.time :=
      show (withoutRaised _).time = (withoutRaised s).time from congrArg State.time raised
    show Host.Outcome.next (collTmo s q r.id) = _
    simp only [collTmo, found, hq, coll, moves, waits, late, beq_self_eq_true, Bool.not_false, decide_true, Bool.and_self, if_true,
      noteSeg, setColl, same, time]
  · show Host.Outcome.next (normStart s q) = _
    simp only [normStart, head, op, full, Bool.false_eq_true, if_false]
  · show Host.Outcome.next (normStart s q) = _
    simp only [normStart, head, op, room, if_true, normAt_of_outside out]
  · have starts : exec (.norm q) s = .next (normAt s q b m acc grp n f) := by
      show Host.Outcome.next (normStart s q) = _
      simp only [normStart, head, op, room, if_true]
    have only : OnlyDecks { (takeSeq s b 0).1 with free := (takeSeq s b 0).1.free + (berthDecks s b).length + 1 } (normCleared s b acc) :=
      clearNorms_only acc (berthDecks s b) _
    rw [OnlyDecks] at only
    have runs : (normCleared s b acc).runs = s.runs := by rw [only]; rfl
    have next : (normCleared s b acc).nextId = s.nextId := by rw [only]; rfl
    have ctx : ctxOf (normCleared s b acc) q 17 = ctxOf s q 17 := by rw [only]; rfl
    have hbm : (normCleared s b acc).hbm = s.hbm := by rw [only]; rfl
    have decks := clearNorms_decks acc (berthDecks s b)
      { (takeSeq s b 0).1 with free := (takeSeq s b 0).1.free + (berthDecks s b).length + 1 }
    have run := fun own => started_setRun (u := normCleared s b acc) (q := q) (c := 17) (b := b) (m := m) (ds := []) next fresh runs ctx
      (y := normRun s (normCleared s b acc) q b m grp own) ((nextId_popHead ..).trans next) rfl rfl rfl rfl
    have kept := startRun_keeps (normCleared s b acc) q 17 b m []
    refine ⟨_, _, starts.trans (congrArg _ (normAt_of_good fresh group inside)), (run _).1, (run _).2, kept.1.trans hbm, rfl, rfl, rfl, rfl, rfl,
      fun d hd => ?_, fun d hd => ?_⟩
    · rw [deckOf_setRun, deckOf_of_decks kept.2.1]
      exact decks.1 d hd
    · rw [deckOf_setRun, deckOf_of_decks kept.2.1]
      exact decks.2 d hd
  · show Host.Outcome.next (xferStart s q) = _
    simp only [xferStart, head, op, full, Bool.false_eq_true, if_false]
  · show Host.Outcome.next (xferStart s q) = _
    simp only [xferStart, head, op, room, if_true, xferAt, empty, plain, decide_true, Bool.not_false, Bool.and_self]
  · have busy : ¬ (decide (o.len = 0) && !o.imm) = true := by rcases some with h | h <;> simp [h]
    show Host.Outcome.next (xferStart s q) = _
    simp only [xferStart, head, op, room, if_true, xferAt, if_neg busy, out]
  · have busy : ¬ (decide (o.len = 0) && !o.imm) = true := by rcases some with h | h <;> simp [h]
    show Host.Outcome.next (xferStart s q) = _
    simp only [xferStart, head, op, room, if_true, xferAt, if_neg busy, inside, broken, Bool.not_false, connRefused]
  · have starts : exec (.xfer q) s = .next (xferAt s q b m o) := by
      show Host.Outcome.next (xferStart s q) = _
      simp only [xferStart, head, op, room, if_true]
    obtain ⟨runs, next, quays, hbm⟩ := xferSails_keeps s o
    have ctx : ctxOf (xferSails s o).1 q 17 = ctxOf s q 17 := by unfold ctxOf quayOf; rw [quays]
    have run := started_setRun (u := (xferSails s o).1) (q := q) (c := 17) (b := b) (m := m) (ds := []) next fresh runs ctx
      (y := xferRun (xferSails s o).1 q b m o (xferSails s o).2) ((nextId_popHead ..).trans next) rfl rfl rfl rfl
    exact ⟨_, _, starts.trans (congrArg _ (xferAt_of_good fresh some inside usable)), run.1, run.2,
      (startRun_keeps (xferSails s o).1 q 17 b m []).1.trans hbm, rfl, rfl⟩
  · show Host.Outcome.next (xferComplete s q r.id) = _
    simp only [xferComplete, found, hq, op, moves, failed, beq_self_eq_true, Bool.and_self, if_true]
  · obtain ⟨out, usable⟩ := done
    show Host.Outcome.next (xferComplete s q r.id) = _
    simp only [xferComplete, found, hq, op, moves, good, out, usable, beq_self_eq_true, decide_true, Bool.and_self, if_true,
      Bool.false_eq_true, if_false]
  · show Host.Outcome.next (xferComplete s q r.id) = _
    simp only [xferComplete, found, good, decide_eq_false (Nat.not_le.2 more), Bool.false_and, Bool.false_eq_true, if_false, ite_self]

end Sys2Proof.Proofs
end

section
/-! The plans of a reduction and its lanes: what is sent is what is expected (R447), and how a lane takes and adds segments
(R444-R453) (O25, O26). -/

namespace Sys2Proof.Proofs
open Sys2Proof Sys2Proof.Machine Sys2Proof.Safety Sys2Proof.Laws

/-! ### The plans (R447) -/

/-- The rank behind `r` in a ring of `n`. -/
theorem next_rank {n r : Nat} (h : r < n) : (r + 1) % n = if r + 1 = n then 0 else r + 1 := by
  split
  · next e => rw [e, Nat.mod_self]
  · exact Nat.mod_eq_of_lt (by omega)

theorem mem_ringSteps {n t : Nat} (h : t ∈ ringSteps n) : 1 ≤ t ∧ t < n := by
  obtain ⟨i, hi, rfl⟩ := List.mem_map.1 h
  have := List.mem_range.1 hi
  omega

/-- The chunk that a rank sends in a reduce step is the one that the next rank expects. -/
theorem reduce_chunk {n r t : Nat} (hr : r < n) (ht : 1 ≤ t ∧ t < n) : (r + n - t) % n = ((r + 1) % n + n - 1 - t + n) % n := by
  rw [next_rank hr]
  split
  · have : 0 + n - 1 - t + n = r + n - t := by omega
    rw [this]
  · have : r + 1 + n - 1 - t + n = r + n - t + n := by omega
    rw [this, Nat.add_mod_right]

/-- The chunk that a rank sends in a gather step is the one that the next rank expects. -/
theorem gather_chunk {n r t : Nat} (hr : r < n) (ht : 1 ≤ t ∧ t < n) : (r + n - t + 1) % n = ((r + 1) % n + n - t) % n := by
  rw [next_rank hr]
  split
  · have : r + n - t + 1 = 0 + n - t + n := by omega
    rw [this, Nat.add_mod_right]
  · have : r + 1 + n - t = r + n - t + 1 := by omega
    rw [this]

theorem flatMap_congr_on {α β : Type} {l : List α} {f g : α → List β} (h : ∀ x ∈ l, f x = g x) : l.flatMap f = l.flatMap g := by
  rw [List.flatMap_def, List.flatMap_def, List.map_congr_left h]

/-- Settles O25: in the relay by the place of the rank, in the ring step by step. -/
theorem segmentsSentAreExpected : Obligations.SegmentsSentAreExpected := by
  intro n r kind len seg hn hr
  have next := next_rank hr
  simp only [sendPlan, recvPlan, if_neg (show ¬ n < 2 by omega)]
  by_cases relay : isRelay kind len n = true
  · rw [if_pos relay, if_pos relay, next]
    by_cases last : r + 1 = n
    · have h1 : ¬ r < n - 1 := by omega
      have h2 : ¬ r + 2 < n := by omega
      simp only [last, if_true, h1, h2, if_false, Nat.lt_irrefl, List.append_nil, List.nil_append, if_pos (show 0 + 1 < n by omega)]
    · have h1 : r < n - 1 := by omega
      simp only [if_neg last, h1, if_true, Nat.succ_pos]
  · rw [if_neg relay, if_neg relay]
    congr 1
    · congr 1
      exact flatMap_congr_on fun t ht => by rw [reduce_chunk hr (mem_ringSteps ht)]
    · congr 1
      exact flatMap_congr_on fun t ht => by rw [gather_chunk hr (mem_ringSteps ht)]

/-! ### Elements added (R451) -/

/-- A word of a list of words in bytes. -/
theorem leAt_words (f : Nat → Word) {n i : Nat} (h : i < n) :
    leAt ((List.range n).flatMap (fun k => natLe 4 (f k).toNat)) (4 * i) 4 = (f i).toNat := by
  obtain ⟨k, rfl⟩ : ∃ k, n = i + (k + 1) := ⟨n - i - 1, by omega⟩
  have split : (List.range (i + (k + 1))).flatMap (fun k => natLe 4 (f k).toNat) =
      (List.range i).flatMap (fun k => natLe 4 (f k).toNat) ++ (natLe 4 (f i).toNat ++
        (List.range k).flatMap (fun j => natLe 4 (f (i + (j + 1))).toNat)) := by
    rw [List.range_add, List.flatMap_append, List.range_succ_eq_map, List.map_cons, List.flatMap_cons, List.map_map, List.flatMap_map]
    rfl
  have len : ((List.range i).flatMap (fun k => natLe 4 (f k).toNat)).length = 4 * i := by
    rw [length_flatMap_range i 4 _ fun k => length_natLe _ _, Nat.mul_comm]
  rw [split, ← len, leAt_append]
  exact Nat.mod_eq_of_lt (f i).isLt

/-- An element of the sum of two byte lists. -/
theorem addBytes_word (int : Bool) (a b : List Byte) {n i : Nat} (h : i < n) :
    BitVec.ofNat 32 (leAt (addBytes int n a b).1 (4 * i) 4) =
      (addElem int (BitVec.ofNat 32 (leAt a (4 * i) 4)) (BitVec.ofNat 32 (leAt b (4 * i) 4))).1 := by
  unfold addBytes
  dsimp only
  rw [List.flatMap_map, leAt_words (fun k => (addElem int (BitVec.ofNat 32 (leAt a (4 * k) 4)) (BitVec.ofNat 32 (leAt b (4 * k) 4))).1) h,
    BitVec.ofNat_toNat, BitVec.setWidth_eq]

/-- A segment's elements added to the own contribution. -/
theorem addPart_of_own (s : State) (r : Run) (g : CollSeg) (c : Nat) (data : List Byte) {v : CollPart} (h : v.pieces = []) :
    (addPart s r g c data v).1 = { v with
      total := v.total + c + 1, own := true,
      pieces := [{ contrib := c + 1, thin := false, unred := false,
                   data := (addBytes (runReduce r).int32 g.elems (ownBytes s r (segStart s r g) g.elems) data).1 }] } := by
  simp only [addPart, h]

/-! ### A segment reaches its lane (R444, R445) -/

section Receive
variable {s u : State} {k : Packet} {n : Nat} {d : List Byte} (taken : accept s k .data = (u, some n)) (named : groupNames s n = true)
include taken named

theorem exec_segmentReceive (key : k.rkey = (connOf u n).lkey) :
    exec (.segmentReceive k d) s = .next (segmentAt u k.port.val n d) := by
  show execSegmentReceive k d s = _
  simp only [execSegmentReceive, taken, named, if_true, segmentIn, key, bne_self_eq_false, Bool.false_eq_true, if_false]

end Receive

/-- The header of a segment names its operation. -/
theorem segmentAt_of_whole {u : State} {p n : Nat} {d : List Byte} (len : 32 ≤ d.length) (version : leAt (d.take 32) 0 1 = 1)
    (epoch : leAt (d.take 32) 6 2 = (berthOf u (connOf u n).berth).epoch.toNat) :
    segmentAt u p n d =
      let x : Segment := { conn := n, header := d.take 32, data := d.drop 32 }
      let hold := acknowledge (setPort u p { portOf u p with segs := (portOf u p).segs ++ [x] }) n (packetsOf d.length)
      match streamRun u (connOf u n).berth (leAt (d.take 32) 4 1) (leAt (d.take 32) 8 4) with
      | some r =>
        if laneStore (portOf u p) + d.length ≤ 4194304 then
          if segMatches u r x then acknowledge (noteSeg (takeSegment u p r x) r.id) n (packetsOf d.length) else hold
        else notReady u n
      | none =>
        if leAt (d.take 32) 8 4 < (tget (0 : Word) (berthOf u (connOf u n).berth).seqs (leAt (d.take 32) 4 1)).toNat
        then acknowledge u n (packetsOf d.length)
        else if laneStore (portOf u p) + d.length ≤ 4194304 then hold else notReady u n := by
  have whole : (decide (d.length < 32) || leAt (d.take 32) 0 1 != 1 ||
      leAt (d.take 32) 6 2 != (berthOf u (connOf u n).berth).epoch.toNat) = false := by
    simp [version, epoch, Nat.not_lt.2 len]
  simp only [segmentAt, whole, Bool.false_eq_true, if_false]
  by_cases room : laneStore (portOf u p) + d.length ≤ 4194304
  · simp only [room, decide_true, Bool.not_true, Bool.false_eq_true, if_false, if_true] <;> rfl
  · simp only [room, decide_false, Bool.not_false, if_true, if_false] <;> rfl

theorem segmentAt_of_foreign {u : State} {p n : Nat} {d : List Byte}
    (h : d.length < 32 ∨ leAt (d.take 32) 0 1 ≠ 1 ∨ leAt (d.take 32) 6 2 ≠ (berthOf u (connOf u n).berth).epoch.toNat) :
    segmentAt u p n d = acknowledge u n (packetsOf d.length) := by
  have foreign : (decide (d.length < 32) || leAt (d.take 32) 0 1 != 1 ||
      leAt (d.take 32) 6 2 != (berthOf u (connOf u n).berth).epoch.toNat) = true := by
    rcases h with h | h | h <;> simp [h]
  simp only [segmentAt, foreign, if_true]

/-- Settles O26: a segment's reception by its header and its lane's room, an addition by its elements. -/
theorem laneTakesAndAddsSegments : Obligations.LaneTakesAndAddsSegments := by
  refine ⟨fun s u k n d taken => ⟨fun unnamed => ?_, fun named key => ?_, fun named key => ⟨fun foreign => ?_, fun len version epoch => ?_⟩⟩,
    fun s p errors => ⟨fun empty => ?_, fun x l r work run => ⟨fun wait => ?_, fun ready => ?_⟩, fun x l work run => ?_⟩,
    fun s r g c i data v own hi => ?_⟩
  · show execSegmentReceive k d s = _
    simp only [execSegmentReceive, taken, unnamed, Bool.false_eq_true, if_false]
  · show execSegmentReceive k d s = _
    simp only [execSegmentReceive, taken, named, if_true, segmentIn, bne_iff_ne, ne_eq, key, not_false_eq_true]
  · rw [exec_segmentReceive taken named key, segmentAt_of_foreign foreign]
  · rw [exec_segmentReceive taken named key, segmentAt_of_whole len version epoch]
    dsimp only
    refine ⟨fun none => ?_, fun r run => ?_⟩
    · rw [none]
      refine ⟨fun past => by rw [if_pos past], fun future => ⟨fun full => ?_, fun room => ?_⟩⟩
      · rw [if_neg (Nat.not_lt.2 future), if_neg (Nat.not_le.2 full)]
      · rw [if_neg (Nat.not_lt.2 future), if_pos room]
    · rw [run]
      refine ⟨fun full => ?_, fun room fits => ?_, fun room other => ?_⟩
      · dsimp only
        rw [if_neg (Nat.not_le.2 full)]
      · dsimp only
        rw [if_pos room, if_pos fits]
      · dsimp only
        rw [if_pos room, if_neg (by simp [other])]
  · show Host.Outcome.next (segmentAddDone s p errors) = _
    simp only [segmentAddDone, empty]
  · show Host.Outcome.next (segmentAddDone s p errors) = _
    simp only [segmentAddDone, work, run, wait, Bool.false_eq_true, if_false]
  · show Host.Outcome.next (segmentAddDone s p errors) = _
    simp only [segmentAddDone, work, run, ready, if_true, popAdding, List.drop_succ_cons, List.drop_zero]
  · show Host.Outcome.next (segmentAddDone s p errors) = _
    simp only [segmentAddDone, work, run, popAdding, List.drop_succ_cons, List.drop_zero]
  · rw [addPart_of_own s r g c data own]
    refine ⟨rfl, rfl, rfl, ?_⟩
    dsimp only
    rw [List.flatMap_singleton, addBytes_word _ _ _ hi]
    unfold addElem
    split <;> rfl

end Sys2Proof.Proofs
end

section
/-! Tide time: PTP (R418-R422), lock, holdover and pulses (R424, R425, R428), timetables (R432-R435) and sailings (R436-R442)
(O27, O28, O29, O30). -/

namespace Sys2Proof.Proofs
open Sys2Proof Sys2Proof.Machine Sys2Proof.Safety Sys2Proof.Laws

/-- The occurrence of a chip-level source that names no berth and no task. -/
def chipOcc (s : State) (unit code detail : Nat) : Occ :=
  { source := sourceId 3 unit code, cls := faultClass s code, berth := none, task := 0, tide := s.time.tide, at_ := s.time.mono,
    detail := BitVec.ofNat 64 detail, fromTask := false }

theorem unsigned_lt (w : Nat) (i : Int) : unsigned w i < 2 ^ w := by
  have pos : (0 : Int) < ((2 ^ w : Nat) : Int) := Int.natCast_pos.mpr (Nat.two_pow_pos w)
  have lower := Int.emod_nonneg i (Int.ne_of_gt pos)
  have upper := Int.emod_lt_of_pos i pos
  unfold unsigned
  omega

/-! ### PTP (R418-R422) -/

/-- The time unit once an offset has been measured, before it loses SYNC or steps. -/
def offsetTime (t : TimeUnit) (o : Int) : TimeUnit :=
  { t with
    st := afterOffset t.st o, offset := o, holdSince := none, slew := -o,
    okSince := if o.natAbs ≤ 500 then (match t.okSince with
      | some a => some a
      | none => some t.mono) else none }

theorem loseSync_eq (s : State) (detail : Nat) :
    ∃ more, loseSync s detail = { s with time := { s.time with syncLost := true }, occ := s.occ ++ more } := by
  unfold loseSync
  split
  next lost => exact ⟨[], by rw [← lost, List.append_nil]⟩
  · exact ⟨[chipOcc (setTime s fun t => { t with syncLost := true }) 1 0x51 detail], rfl⟩

theorem loseSync_if_far (s : State) (o : Int) :
    ∃ more, (if 2000 < o.natAbs then loseSync s 0 else s) =
      { s with time := { s.time with syncLost := s.time.syncLost || decide (2000 < o.natAbs) }, occ := s.occ ++ more } := by
  split
  next far =>
    obtain ⟨more, h⟩ := loseSync_eq s 0
    exact ⟨more, by rw [h, decide_eq_true far, Bool.or_true]⟩
  next near => exact ⟨[], by rw [decide_eq_false near, Bool.or_false, List.append_nil]⟩

/-- The time unit after tide time has stepped. -/
def steppedTime (t : TimeUnit) (by_ : Int) : TimeUnit :=
  { t with tide := (((t.tide : Int) + by_) % (2 ^ 64 : Int)).toNat, slew := 0 }

theorem stepTime_eq (s : State) (by_ : Int) :
    ∃ x, stepTime s by_ = { s with time := steppedTime s.time by_, occ := s.occ ++ [x] } ∧ x.source = sourceId 3 1 0x50 ∧
      x.detail.toNat = unsigned 64 by_ :=
  ⟨_, rfl, rfl, by
    change (BitVec.ofNat 64 (unsigned 64 by_)).toNat = _
    rw [BitVec.toNat_ofNat, Nat.mod_eq_of_lt (unsigned_lt 64 by_)]⟩

/-- The servo's part of a measured offset: the time unit set, and SYNC_LOST beyond 2,000 ns. -/
def offsetTaken (s : State) (o : Int) : State :=
  if 2000 < o.natAbs then loseSync (setTime s fun t => offsetTime t o) 0 else setTime s fun t => offsetTime t o

theorem measureOffset_eq_of_taken (s : State) (o : Int) :
    measureOffset s o = if 100000 < o.natAbs || !s.time.stepped then
      stepTime (setTime (offsetTaken s o) fun t => { t with stepped := true }) (-o) else offsetTaken s o := rfl

/-- A measured offset sets the time unit; SYNC_LOST follows beyond 2,000 ns, and tide time steps beyond 100 µs and at the first lock. -/
theorem measureOffset_eq (s : State) (o : Int) :
    ∃ u more, measureOffset s o = { s with time := u, occ := s.occ ++ more } ∧
      ((100000 < o.natAbs ∨ s.time.stepped = false) →
        u = steppedTime { offsetTime s.time o with syncLost := s.time.syncLost || decide (2000 < o.natAbs), stepped := true } (-o) ∧
        ∃ x ∈ more, x.source = sourceId 3 1 0x50 ∧ x.detail.toNat = unsigned 64 (-o)) ∧
      (o.natAbs ≤ 100000 → s.time.stepped = true →
        u = { offsetTime s.time o with syncLost := s.time.syncLost || decide (2000 < o.natAbs) }) := by
  obtain ⟨m, lost⟩ : ∃ more, offsetTaken s o = _ := loseSync_if_far (setTime s fun t => offsetTime t o) o
  by_cases far : 100000 < o.natAbs ∨ s.time.stepped = false
  · obtain ⟨x, stepped, source, detail⟩ := stepTime_eq { s with
      time := { offsetTime s.time o with syncLost := s.time.syncLost || decide (2000 < o.natAbs), stepped := true },
      occ := s.occ ++ m } (-o)
    refine ⟨_, m ++ [x], ?_, fun _ => ⟨rfl, x, by simp, source, detail⟩, fun near set => ?_⟩
    · have cond : (decide (100000 < o.natAbs) || !s.time.stepped) = true := by simpa using far
      rw [measureOffset_eq_of_taken, if_pos cond, lost, ← List.append_assoc]
      exact stepped
    · rw [set] at far
      simp at far
      omega
  · have cond : ¬ (decide (100000 < o.natAbs) || !s.time.stepped) = true := by simpa using far
    refine ⟨_, m, ?_, fun h => absurd h far, fun _ _ => rfl⟩
    rw [measureOffset_eq_of_taken, if_neg cond]
    exact lost

/-- A message that leaves is sent with its fields, and its time is noted. -/
theorem ptpSend_of_due {s : State} {p k : Nat} {m : PtpKind} (runs : ptpRuns s p k = true) (leaves : ptpLeaves s p k m = true)
    (due : ptpDue s p k m = true) :
    ptpSend s p k m = setLink (send s (.ptp p k m (ptpFields s m))) p k
      { linkOf s p k with ptpAt := tput (linkOf s p k).ptpAt (ptpIndex m) s.time.mono } := by
  simp only [ptpSend, runs, leaves, due, Bool.and_self, if_true]

theorem ptpSend_of_kept {s : State} {p k : Nat} {m : PtpKind}
    (h : ptpRuns s p k = false ∨ ptpLeaves s p k m = false ∨ ptpDue s p k m = false) : ptpSend s p k m = s := by
  unfold ptpSend
  rw [if_neg]
  rw [Bool.and_eq_true, Bool.and_eq_true]
  rintro ⟨⟨runs, leaves⟩, due⟩
  simp [runs, leaves, due] at h

theorem ptpDue_eq_false_iff (s : State) (p k : Nat) (m : PtpKind) :
    ptpDue s p k m = false ↔ ∃ e, (linkOf s p k).ptpAt.find? (fun e => e.1 == ptpIndex m) = some e ∧
      s.time.mono < e.2 + (if m = .announce then 1000000000 else 62500000) := by
  unfold ptpDue
  split
  next e found =>
    have interval : ptpInterval m = if m = .announce then 1000000000 else 62500000 := by cases m <;> rfl
    rw [decide_eq_false_iff_not, Nat.not_le, interval]
    exact ⟨fun h => ⟨e, found, h⟩, fun ⟨x, eq, h⟩ => Option.some.inj (found.symm.trans eq) ▸ h⟩
  next none => simp [none]

/-- The fields of a message begin with the domain. -/
def ptpRest (s : State) (m : PtpKind) : List Nat := (ptpFields s m).tail

theorem ptpFields_eq (s : State) (m : PtpKind) : ptpFields s m = ptpDomain s :: ptpRest s m := by cases m <;> rfl

/-- Settles O27: what a message received changes follows from `measureOffset_eq`, what is sent from `ptpSend_of_due`. -/
theorem ptpSteersTideTimeAndIsPassedOn : Obligations.PtpSteersTideTimeAndIsPassedOn := by
  unfold Obligations.PtpSteersTideTimeAndIsPassedOn
  refine ⟨fun s p k d => ⟨fun m off => ?_, fun o other => ?_, fun o runs mine slave => ?_, fun runs mine master => ?_, ?_⟩,
    fun s p k => ⟨fun m off => ?_, fun m => ptpDue_eq_false_iff s p k m, fun slave => ⟨?_, ?_⟩, fun master => ?_,
      fun m runs due leaves => ?_⟩⟩
  · show Host.Outcome.next (ptpReceive s p k m) = _
    simp only [ptpReceive, off, Bool.not_false, if_true]
  · show Host.Outcome.next (ptpReceive s p k (.sync d o)) = _
    have not : ¬ (d = ptpDomain s ∧ s.time.slave = some (p.val, k.val)) :=
      fun both => other.elim (fun h => h both.1) (fun h => h both.2)
    simp only [ptpReceive, if_neg not, ite_self]
  · obtain ⟨u, more, h, far, near⟩ := measureOffset_eq s o
    have step : exec (.ptpMessageReceive p k (.sync d o)) s = .next { s with time := u, occ := s.occ ++ more } := by
      show Host.Outcome.next (ptpReceive s p k (.sync d o)) = _
      simp only [ptpReceive, runs, Bool.not_true, Bool.false_eq_true, if_false, if_pos (And.intro mine slave), h]
    have shape : u.offset = o ∧ u.holdSince = none ∧ u.st = afterOffset s.time.st o ∧
        u.syncLost = (s.time.syncLost || decide (2000 < o.natAbs)) ∧ u.okSince = (offsetTime s.time o).okSince := by
      by_cases c : 100000 < o.natAbs ∨ s.time.stepped = false
      · rw [(far c).1]
        exact ⟨rfl, rfl, rfl, rfl, rfl⟩
      · rw [near (by omega) (by simpa using fun h => c (.inr h))]
        exact ⟨rfl, rfl, rfl, rfl, rfl⟩
    obtain ⟨offset, hold, st, lost, ok⟩ := shape
    refine ⟨_, step, rfl, offset, hold, st, lost, fun small => ?_, fun big => ?_, fun small set => ?_, fun c => ?_⟩
    · show u.okSince ≠ none
      rw [ok]
      simp only [offsetTime, small, if_true]
      split <;> simp
    · show u.okSince = none
      rw [ok]
      simp only [offsetTime, if_neg (Nat.not_le.mpr big)]
    · show u.tide = _ ∧ u.slew = _
      rw [near small set]
      exact ⟨rfl, rfl⟩
    · obtain ⟨eq, x, mem, source, detail⟩ := far c
      show u.tide = _ ∧ u.slew = _ ∧ u.stepped = _ ∧ _
      rw [eq]
      exact ⟨rfl, rfl, rfl, x, List.mem_append_right _ mem, source, detail⟩
  · show Host.Outcome.next (ptpReceive s p k (.delayReq d)) = _
    simp only [ptpReceive, runs, Bool.not_true, Bool.false_eq_true, if_false, if_pos (And.intro mine master)]
  · intro p1 cl ac va p2 id st runs mine
    show Host.Outcome.next (ptpReceive s p k (.announce d p1 cl ac va p2 id st)) = _
    simp only [ptpReceive, runs, Bool.not_true, Bool.false_eq_true, if_false, if_pos mine]
    rfl
  · exact congrArg _ (ptpSend_of_kept (off.imp_right .inr))
  · exact congrArg _ (ptpSend_of_kept (.inr (.inl (by simp [ptpLeaves, slave]))))
  · exact congrArg _ (ptpSend_of_kept (.inr (.inl (by simp [ptpLeaves, slave]))))
  · exact congrArg _ (ptpSend_of_kept (.inr (.inl (by simp [ptpLeaves, master]))))
  · have goes : ptpLeaves s p k m = true := by
      by_cases c : m = .delayReq
      · simp [ptpLeaves, c, leaves.mp c]
      · have master : s.time.slave ≠ some (p.val, k.val) := fun h => c (leaves.mpr h)
        rw [ptpLeaves, beq_eq_false_iff_ne.mpr c, beq_eq_false_iff_ne.mpr master]
        rfl
    refine ⟨_, ptpRest s m, congrArg Host.Outcome.next (ptpSend_of_due runs goes due), ?_, ?_, ?_, ?_, ?_⟩
    · rw [← ptpFields_eq]
      rfl
    · rw [linkOf_setLink, if_pos ⟨rfl, rfl⟩]
    · rintro rfl
      rfl
    · rintro rfl
      rfl
    · rintro rfl slave
      simp only [ptpRest, ptpFields, announced, slave]
      rfl

/-! ### Lock, holdover and pulses (R422, R424, R425, R428) -/

/-- The slave port has lost its master, and no other master counts. -/
theorem loseMaster_of_alone {s : State} {k : Nat × Nat} (slave : s.time.slave = some k)
    (alone : bestMaster { s with time := { s.time with bases := tdel s.time.bases (4 * k.1 + k.2) } } = none) :
    loseMaster s = { s with time := { s.time with
      slave := none, okSince := none, bases := tdel s.time.bases (4 * k.1 + k.2),
      holdSince := if s.time.st = .locked then some s.time.mono else s.time.holdSince,
      st := if s.time.st = .locked then .holdover else if s.time.st = .locking then .free else s.time.st } } := by
  have same : ∀ t : State, bestMaster t = none → decideMaster t = t := fun t h => by simp only [decideMaster, h]
  unfold loseMaster
  simp only [slave]
  exact same _ alone

/-- A rejected pulse is counted up to 65,535, and may be told; the last accepted edge and tide time stay. -/
theorem rejectPps_spec (s : State) :
    (rejectPps s).time.ppsRejects.toNat = min (s.time.ppsRejects.toNat + 1) 65535 ∧
      (rejectPps s).time.ppsLast = s.time.ppsLast ∧ (rejectPps s).time.tide = s.time.tide := by
  have time : (rejectPps s).time =
      { s.time with ppsRejects := BitVec.ofNat 16 (min (s.time.ppsRejects.toNat + 1) 0xFFFF) } := by
    unfold rejectPps
    dsimp only
    split <;> rfl
  rw [time]
  refine ⟨?_, rfl, rfl⟩
  rw [BitVec.toNat_ofNat]
  omega

/-- An accepted edge is timestamped; the count of rejected pulses stays, and where PPS_IN does not discipline tide time that too. -/
theorem acceptPps_spec (s : State) (discipline : Bool) :
    (acceptPps s discipline).time.ppsLast = s.time.tide ∧ (acceptPps s discipline).time.ppsMono = some s.time.mono ∧
      (acceptPps s discipline).time.ppsRejects = s.time.ppsRejects ∧
      (discipline = false → (acceptPps s discipline).time.ppsOk = false ∧ (acceptPps s discipline).time.tide = s.time.tide ∧
        (acceptPps s discipline).time.slew = s.time.slew) := by
  cases discipline with
  | false => exact ⟨rfl, rfl, rfl, fun _ => ⟨rfl, rfl, rfl⟩⟩
  | true =>
    unfold acceptPps
    dsimp only
    split
    · split <;> exact ⟨rfl, rfl, rfl, fun h => absurd h (by decide)⟩
    · exact ⟨rfl, rfl, rfl, fun h => absurd h (by decide)⟩

/-- Settles O28: the timers of lock and holdover by their conditions, a pulse by `rejectPps_spec` and `acceptPps_spec`. -/
theorem lockHoldoverAndPulses : Obligations.LockHoldoverAndPulses := by
  unfold Obligations.LockHoldoverAndPulses
  refine ⟨fun s => ⟨fun k e slave base => ⟨fun early => ?_, fun late alone => ?_⟩, fun a ok => ⟨fun early => ?_, fun late => ?_⟩,
    fun a hold st free => ⟨fun early => ?_, fun late good => ?_⟩, fun slave alone gm phase late other => ?_⟩,
    fun s high => ⟨rfl, fun off1 off2 => ?_, fun mode => ⟨fun bad => ?_, fun long short near => ?_⟩, fun a last => ⟨fun late => ?_, fun early => ?_⟩⟩⟩
  · show Host.Outcome.next (announceTimeout s) = _
    have still : ¬ e.2.at_ + announceTmo ≤ s.time.mono := Nat.not_le.mpr early
    simp only [announceTimeout, slave, base, if_neg still]
  · show Host.Outcome.next (announceTimeout s) = _
    have silent : e.2.at_ + announceTmo ≤ s.time.mono := late
    rw [← loseMaster_of_alone slave alone]
    simp only [announceTimeout, slave, base, if_pos silent]
  · show Host.Outcome.next (lockQualify s) = _
    simp only [lockQualify, ok, if_neg (Nat.not_le.mpr early)]
  · show Host.Outcome.next (lockQualify s) = _
    conv => lhs; simp only [lockQualify, ok, if_pos late]
    rfl
  · show Host.Outcome.next (holdoverTimeout s) = _
    simp only [holdoverTimeout, hold, decide_eq_false (Nat.not_le.mpr early), Bool.and_false, Bool.false_eq_true, if_false]
  · show Host.Outcome.next (holdoverTimeout s) = _
    conv => lhs; simp only [holdoverTimeout, hold, st, free, decide_eq_true late, loseSync, good, beq_self_eq_true, Option.isNone_none, Bool.and_self,
      if_true, Bool.false_eq_true, if_false]
    rfl
  · show Host.Outcome.next (announceTimeout s) = _
    have cond : ((bestMaster s).isNone && gmEn s && decide (6 ≤ s.boot.phase ∧ announceTmo ≤ s.time.mono) && s.time.st != .grandmaster) = true := by
      simp [alone, gm, phase, announceTmo, late, other]
    conv => lhs; simp only [announceTimeout, slave, cond, if_true]
    rfl
  · show Host.Outcome.next (ppsIn s high) = _
    simp only [ppsIn, if_neg (not_or.mpr ⟨off1, off2⟩)]
  · obtain ⟨count, last, tide⟩ := rejectPps_spec s
    refine ⟨rejectPps s, ?_, count, last, tide⟩
    show Host.Outcome.next (ppsIn s high) = _
    simp only [ppsIn, if_pos mode, if_pos bad]
  · obtain ⟨last, mono, count, plain⟩ := acceptPps_spec s (regBits s (ttBase + 0x14) 30 29 == 2)
    refine ⟨acceptPps s (regBits s (ttBase + 0x14) 30 29 == 2), ?_, last, mono, count, fun one => plain (by simp [one])⟩
    have good : ¬ (high < 100 ∨ 500000000 < high ∨ regBits s (ttBase + 0x14) 30 29 = 2 ∧ 1000000 < (fromSecond s.time.tide).natAbs) := by
      rintro (h | h | ⟨two, far⟩)
      · omega
      · omega
      · exact absurd (near two) (Nat.not_le.mpr far)
    show Host.Outcome.next (ppsIn s high) = _
    simp only [ppsIn, if_pos mode, if_neg good]
  · conv => lhs; simp only [exec, execPpsInTimeout, last, if_pos late]
    rfl
  · simp only [exec, execPpsInTimeout, last, if_neg (Nat.not_lt.mpr early)]

/-! ### Timetables (R432-R435) -/

/-- A read within a step of an extent that holds poison fails, and raises an occurrence. -/
theorem stepRead_of_poison {s : State} {b a len : Nat} (w : Requester) (inside : outside s b a len = none) (poison : poisonIn s a len ≠ []) :
    ∃ detail, stepRead s w b a len {} = (raiseReq s w w.level w.unit 0x32 detail, none) := by
  cases found : poisonIn s a len with
  | nil => exact absurd found poison
  | cons x r =>
    exact ⟨poisonDetail s x, by
      simp only [stepRead, inside, readAllowed, readFound, readErrors, odeccAdd, List.filter_nil, List.foldl_nil, if_true, found,
        Bool.false_eq_true, if_false]⟩

/-- Images that lie outside the windows are not read, and clean ones are read without a change. -/
theorem tblRead_of_clean {s : State}
    (h : ∀ b, s.man.mgmtBerth = some b → outside s b (tblBase s) 0x400000 = none → poisonIn s (tblBase s) 0x400000 = []) :
    tblRead s {} = (s, true) := by
  unfold tblRead
  split
  · rfl
  next b berth =>
    unfold tblReadAt
    split
    · rfl
    next within =>
      have inside : outside s b (tblBase s) 0x400000 = none := by simpa using within
      simp only [stepRead_of_readable _ ⟨inside, h b berth inside⟩, Option.isSome_some]

theorem tblRead_of_poison {s : State} {b : Nat} (berth : s.man.mgmtBerth = some b) (inside : outside s b (tblBase s) 0x400000 = none)
    (poison : poisonIn s (tblBase s) 0x400000 ≠ []) : ∃ u, tblRead s {} = (u, false) ∧ u.time = s.time := by
  obtain ⟨detail, read⟩ := stepRead_of_poison { level := 3, unit := 1, berth := none, task := none, cls := 3 } inside poison
  refine ⟨raiseReq s { level := 3, unit := 1, berth := none, task := none, cls := 3 } 3 1 0x32 detail, ?_, rfl⟩
  simp only [tblRead, berth, tblReadAt, inside, Option.isSome_none, Bool.false_eq_true, if_false, read]

/-- Settles O29: each step of a load by its condition; `tblRead_of_clean` and `tblRead_of_poison` give the read of the images. -/
theorem timetableLoadsWholeOrNotAtAll : Obligations.TimetableLoadsWholeOrNotAtAll := by
  unfold Obligations.TimetableLoadsWholeOrNotAtAll
  refine fun s => ⟨fun loading => ?_, fun other => ?_, fun mem other => ?_, fun loading => ⟨fun mem past => ?_,
    fun b future berth inside poison => ?_, fun future clean => ⟨fun e refused => ?_, fun accepted => ?_⟩, fun future => ?_⟩,
    fun waiting => ⟨fun early => ?_, fun late => ?_⟩, fun idle => ?_⟩
  · show Host.Outcome.next (tblGo s) = _
    simp only [tblGo, if_pos loading]
  · show Host.Outcome.next (tblGo s) = _
    simp only [tblGo, if_neg other]
    rfl
  · show Host.Outcome.next (tblDone s mem) = _
    simp only [tblDone, if_pos other]
  · show Host.Outcome.next (tblDone s mem) = _
    simp only [tblDone, loading, ne_eq, not_true_eq_false, if_false, if_pos past]
    rfl
  · obtain ⟨u, read, time⟩ := tblRead_of_poison berth inside poison
    refine ⟨tblDiscard u, ?_, rfl, rfl, (congrArg TimeUnit.active time : u.time.active = s.time.active)⟩
    show Host.Outcome.next (tblDone s {}) = _
    simp only [tblDone, loading, ne_eq, not_true_eq_false, if_false, if_neg (Nat.not_le.mpr future), read, Bool.not_false, if_true]
  · show Host.Outcome.next (tblDone s {}) = _
    simp only [tblDone, loading, ne_eq, not_true_eq_false, if_false, if_neg (Nat.not_le.mpr future), tblRead_of_clean clean, Bool.not_true,
      Bool.false_eq_true, refused]
    rfl
  · show Host.Outcome.next (tblDone s {}) = _
    simp only [tblDone, loading, ne_eq, not_true_eq_false, if_false, if_neg (Nat.not_le.mpr future), tblRead_of_clean clean, Bool.not_true,
      Bool.false_eq_true, accepted]
    rfl
  · show Host.Outcome.next (tblActivate s) = _
    simp only [tblActivate, loading, if_neg (Nat.not_le.mpr future)]
  · show Host.Outcome.next (tblActivate s) = _
    simp only [tblActivate, waiting, if_neg (Int.not_le.mpr early)]
  · show Host.Outcome.next (tblActivate s) = _
    simp only [tblActivate, waiting, if_pos late]
    rfl
  · show Host.Outcome.next (tblActivate s) = _
    simp only [tblActivate, idle]

/-! ### Sailings (R436-R442, R470) -/

/-- The sailings of a port that is up, unsplit and in scheduled mode follow the kind of their entry. -/
theorem sailingBoundary_of_open {s : State} {p : Nat} (sched : scheduled s = true)
    (up : (portOf s p).state = .up ∨ (portOf s p).state = .remapped) (whole : splitOf s p = 0) :
    sailingBoundary s p =
      if bits (sailEntry s (lportOf s p) (sailAt s s.time.tide)) 63 62 = 1 then
        (if (portOf s p).sailed = some (sailAt s s.time.tide) then gap s p (sailAt s s.time.tide)
         else localSailing s p (sailAt s s.time.tide) (bits (sailEntry s (lportOf s p) (sailAt s s.time.tide)) 39 27))
      else if bits (sailEntry s (lportOf s p) (sailAt s s.time.tide)) 63 62 = 2 then
        (if (portOf s p).sailed = some (sailAt s s.time.tide) then s
         else transitSailing s p (sailAt s s.time.tide) (bits (sailEntry s (lportOf s p) (sailAt s s.time.tide)) 61 59))
      else gap s p (sailAt s s.time.tide) := by
  have cond : (!scheduled s || !((portOf s p).state == .up || (portOf s p).state == .remapped) || splitOf s p != 0) = false := by
    rcases up with up | up <;> simp [sched, whole, up]
  unfold sailingBoundary
  simp only [cond, Bool.false_eq_true, if_false]

theorem sailingBoundary_of_closed {s : State} {p : Nat}
    (h : scheduled s = false ∨ ((portOf s p).state ≠ .up ∧ (portOf s p).state ≠ .remapped) ∨ splitOf s p ≠ 0) : sailingBoundary s p = s := by
  have cond : (!scheduled s || !((portOf s p).state == .up || (portOf s p).state == .remapped) || splitOf s p != 0) = true := by
    rcases h with h | ⟨h, k⟩ | h <;> simp [*]
  unfold sailingBoundary
  simp only [cond, if_true]

/-- Settles O30: `sailingBoundary_of_open` gives the kinds of entries, `localSailing` its cases. -/
theorem sailingsServeWhatTheyCarry : Obligations.SailingsServeWhatTheyCarry := by
  unfold Obligations.SailingsServeWhatTheyCarry
  refine fun s p => ⟨fun closed => congrArg _ (sailingBoundary_of_closed closed), fun k e sched up whole hk he => ?_, fun none => ?_,
    fun a at_ early => ?_, fun some_ late => ?_⟩
  · subst hk he
    have run : exec (.sailingBoundary p) s = _ := congrArg Host.Outcome.next (sailingBoundary_of_open (p := p.val) sched up whole)
    refine ⟨fun n1 n2 => run.trans (by rw [if_neg n1, if_neg n2]), fun own unused => ?_, fun transit used => ?_, fun transit unused => ?_⟩
    · have go := run.trans (by rw [if_pos own, if_neg unused])
      refine ⟨fun unbound => go.trans (by simp only [localSailing, unbound]), fun r b bound sails => ⟨fun miss => go.trans ?_,
        fun here fits => ⟨fun unready => go.trans ?_, fun ready => go.trans ?_⟩⟩⟩
      · simp only [localSailing, bound, sails, Option.getD_some]
        rcases miss with h | h
        · rw [if_pos h]
        · simp only [h, Bool.false_eq_true, if_false, ite_self]
      · simp only [localSailing, bound, sails, Option.getD_some, if_neg (Nat.not_lt.mpr here), fits, unready, Bool.false_eq_true, if_false, if_true]
      · simp only [localSailing, bound, sails, Option.getD_some, if_neg (Nat.not_lt.mpr here), fits, ready, if_true]
        rfl
    · exact run.trans (by rw [if_neg (by omega), if_pos transit, if_pos used])
    · exact run.trans (by rw [if_neg (by omega), if_pos transit, if_neg unused])
  · show Host.Outcome.next (sailingLate s p) = _
    simp only [sailingLate, none, bne_self_eq_false, Bool.false_and, Bool.false_eq_true, if_false]
  · show Host.Outcome.next (sailingLate s p) = _
    simp only [sailingLate, at_, decide_eq_false (Nat.not_le.mpr early), Bool.and_false, Bool.false_eq_true, if_false]
  · show Host.Outcome.next (sailingLate s p) = _
    cases at_ : (portOf s p).lateAt with
    | none => simp only [sailingLate, at_, bne_iff_ne.mpr some_, Bool.and_self, if_true]
    | some a => simp only [sailingLate, at_, decide_eq_true (late a at_), bne_iff_ne.mpr some_, Bool.and_self, if_true]

end Sys2Proof.Proofs
end

section
/-! Ports: bring-up and landing cards (R385-R388, R413-R416), settings, flow and congestion control, retransmission and transit
(R378-R383, R394-R412, R468-R472) (O31, O32). -/

namespace Sys2Proof.Proofs
open Sys2Proof Sys2Proof.Machine Sys2Proof.Safety Sys2Proof.Laws

/-! ### What the operations on a port keep -/

theorem portOf_setLink (s : State) (p k i : Nat) (x : Link) : portOf (setLink s p k x) i =
    if p = i then { portOf s p with links := tput (portOf s p).links k x } else portOf s i := portOf_setPort s p i _

@[simp] theorem state_setLink (s : State) (p k i : Nat) (x : Link) : (portOf (setLink s p k x) i).state = (portOf s i).state := by
  rw [portOf_setLink]
  split
  next h => rw [h]
  · rfl

@[simp] theorem lportOf_setLink (s : State) (p k i : Nat) (x : Link) : lportOf (setLink s p k x) i = lportOf s i := by
  unfold lportOf
  rw [portOf_setLink]
  split
  next h => rw [h]
  · rfl

/-- A port's state changes the port and the alerts. -/
theorem setPortState_eq (s : State) (p : Nat) (st : PortState) (cause : Nat) : setPortState s p st cause =
    { setPort s p { portOf s p with state := st, qcause := cause } with pw := (setPortState s p st cause).pw } := by
  unfold setPortState
  dsimp only
  split <;> rfl

theorem portOf_setPortState (s : State) (p : Nat) (st : PortState) (cause : Nat) :
    portOf (setPortState s p st cause) p = { portOf s p with state := st, qcause := cause } := by
  rw [setPortState_eq]
  exact (portOf_setPort s p p _).trans (if_pos rfl)

@[simp] theorem linkOf_setPortState (s : State) (p : Nat) (st : PortState) (cause i j : Nat) :
    linkOf (setPortState s p st cause) i j = linkOf s i j := by
  rw [setPortState_eq]
  change tget {} (portOf (setPort s p _) i).links j = tget {} (portOf s i).links j
  rw [portOf_setPort]
  split
  next h => rw [h]
  · rfl

/-- The own card on a port names the port's state and its logical port, which a link does not touch. -/
theorem ownCard_setLink (s : State) (p k i : Nat) (x : Link) : ownCard (setLink s p k x) i = ownCard s i := by
  unfold ownCard
  simp only [state_setLink, lportOf_setLink]
  rfl

theorem cardTlv_eq (info : List Byte) : cardTlv info = [0xFE, 0x14, 0x4A, 0xC2, 0xE5, 0x01] ++ info := by
  have head : (natLe 2 (127 * 2 ^ 9 + 20)).reverse ++ (natLe 3 cardCompany).reverse ++ natLe 1 1 =
      ([0xFE, 0x14, 0x4A, 0xC2, 0xE5, 0x01] : List Byte) := by decide
  exact congrArg (· ++ info) head

/-- A card that leaves is the TLV of the own card, and its time and content are noted. -/
theorem sendCard_spec (s : State) (p k : Nat) :
    (sendCard s p k).out = s.out ++ [.card p k ([0xFE, 0x14, 0x4A, 0xC2, 0xE5, 0x01] ++ ownCard s p) 120] ∧
      linkOf (sendCard s p k) p k = { linkOf s p k with sentAt := some s.time.mono, sent := ownCard s p } ∧
      (portOf (sendCard s p k) p).state = (portOf s p).state ∧ ownCard (sendCard s p k) p = ownCard s p := by
  refine ⟨?_, ?_, ?_, ?_⟩
  · rw [← cardTlv_eq]
    rfl
  · exact (linkOf_setLink ..).trans (if_pos ⟨rfl, rfl⟩)
  · exact state_setLink ..
  · exact ownCard_setLink ..

/-! ### Bring-up (R385) -/

/-- A port without a link that is up is training while it is brought up. -/
def trainingPort (s : State) (p : Nat) : State := if anyUp s p then s else setPortState s p .training 0

theorem linkOf_trainingPort (s : State) (p i j : Nat) : linkOf (trainingPort s p) i j = linkOf s i j := by
  unfold trainingPort
  split
  · rfl
  · exact linkOf_setPortState ..

theorem state_trainingPort (s : State) (p : Nat) :
    (portOf (trainingPort s p) p).state = if anyUp s p then (portOf s p).state else .training := by
  unfold trainingPort
  split
  · rfl
  · rw [portOf_setPortState]

theorem occ_trainingPort (s : State) (p : Nat) : (trainingPort s p).occ = s.occ := by
  unfold trainingPort
  split
  · rfl
  · rw [setPortState_eq]
    rfl

theorem bringup_of_closed {s : State} {p k : Nat} (plan : planKind s p ≠ 1 ∨ subPorts s p = 1)
    (h : mayBringUp s p k = false ∨ (linkOf s p k).step = 4) (o : StepOutcome) : bringup s p k o = s := by
  have whole : ¬ (planKind s p = 1 ∧ subPorts s p ≠ 1 ∧ ¬ portFenced s p) :=
    fun h => plan.elim (fun n => n h.1) (fun e => h.2.1 e)
  have cond : (!mayBringUp s p k || (linkOf s p k).step == 4) = true := by
    rcases h with h | h <;> simp [h]
  simp only [bringup, if_neg whole, cond, if_true]

section BringUp

variable {s : State} {p k n : Nat} (plan : planKind s p ≠ 1 ∨ subPorts s p = 1) (may : mayBringUp s p k = true)
  (down : (linkOf s p k).step ≠ 4) (next : n = nextStep s p (linkOf s p k).step)
include plan may down next

/-- An attempt at a step that is done. -/
theorem bringup_done : bringup s p k .done =
    if stepInTime s (linkOf s p k) n then
      (if n = 4 then
        classify (sendCard (if anyUp s p
          then setLink (trainingPort s p) p k { linkOf s p k with step := 4, fails := 0, since := none, upAt := s.time.mono }
          else setPortState (setLink (trainingPort s p) p k
            { linkOf s p k with step := 4, fails := 0, since := none, upAt := s.time.mono }) p .awaiting 0) p k) p
       else setLink (trainingPort s p) p k { linkOf s p k with step := n, since := some s.time.mono })
    else trainingPort s p := by
  subst next
  have whole : ¬ (planKind s p = 1 ∧ subPorts s p ≠ 1 ∧ ¬ portFenced s p) :=
    fun h => plan.elim (fun n => n h.1) (fun e => h.2.1 e)
  have cond : (!mayBringUp s p k || (linkOf s p k).step == 4) = false := by simp [may, down]
  simp only [bringup, if_neg whole, cond, Bool.false_eq_true, if_false]
  cases stepInTime s (linkOf s p k) (nextStep s p (linkOf s p k).step) <;> rfl

/-- A link of which an attempt at step `n` has failed (R385). -/
def failedLink (s : State) (x : Link) (n : Nat) : Link :=
  { x with step := 0, fails := x.fails + 1, since := some (s.time.mono + retryAfter n (x.fails + 1)) }

/-- An attempt at a step that has failed. -/
theorem bringup_failed : bringup s p k .failed =
    if n = 4 ∨ stepOver s (linkOf s p k) n = false then trainingPort s p
    else if (linkOf s p k).fails + 1 = 8 then
      raiseChip (setLink (trainingPort s p) p k (failedLink s (linkOf s p k) n)) (8 + p) 0x41 (8 + n % 4 * 256)
    else setLink (trainingPort s p) p k (failedLink s (linkOf s p k) n) := by
  subst next
  have whole : ¬ (planKind s p = 1 ∧ subPorts s p ≠ 1 ∧ ¬ portFenced s p) :=
    fun h => plan.elim (fun n => n h.1) (fun e => h.2.1 e)
  have cond : (!mayBringUp s p k || (linkOf s p k).step == 4) = false := by simp [may, down]
  have guard : (decide (nextStep s p (linkOf s p k).step = 4) || !stepOver s (linkOf s p k) (nextStep s p (linkOf s p k).step)) = true ↔
      (nextStep s p (linkOf s p k).step = 4 ∨ stepOver s (linkOf s p k) (nextStep s p (linkOf s p k).step) = false) := by
    rw [Bool.or_eq_true, decide_eq_true_iff, Bool.not_eq_true']
  simp only [bringup, if_neg whole, cond, Bool.false_eq_true, if_false, guard]
  rfl

end BringUp

theorem stepInTime_iff (s : State) (x : Link) (n : Nat) :
    stepInTime s x n = true ↔ ∀ a, x.since = some a → a ≤ s.time.mono ∧ s.time.mono ≤ a + stepLimit n := by
  unfold stepInTime
  split
  next a h => simp [h]
  next h => simp [h]

theorem stepOver_iff (s : State) (x : Link) (n : Nat) :
    stepOver s x n = true ↔ ∀ a, x.since = some a → a + stepLimit n ≤ s.time.mono := by
  unfold stepOver
  split
  next a h => simp [h]
  next h => simp [h]

/-- The last step of bring-up on a port without a link: the link is up, the port awaits a card, and its own leaves. -/
theorem bringup_last {s : State} {p k : Nat} (plan : planKind s p ≠ 1 ∨ subPorts s p = 1) (may : mayBringUp s p k = true)
    (down : (linkOf s p k).step ≠ 4) (last : nextStep s p (linkOf s p k).step = 4) (ontime : stepInTime s (linkOf s p k) 4 = true)
    (alone : anyUp s p = false) :
    ∃ u, bringup s p k .done = classify u p ∧ linkUp u p k = true ∧ (linkOf u p k).upAt = s.time.mono ∧ (portOf u p).state = .awaiting ∧
      u.out = s.out ++ [.card p k ([0xFE, 0x14, 0x4A, 0xC2, 0xE5, 0x01] ++ ownCard u p) 120] := by
  obtain ⟨v, hv, link, state, out⟩ : ∃ v, v = setPortState (setLink (trainingPort s p) p k
      { linkOf s p k with step := 4, fails := 0, since := none, upAt := s.time.mono }) p .awaiting 0 ∧
      linkOf v p k = { linkOf s p k with step := 4, fails := 0, since := none, upAt := s.time.mono } ∧
      (portOf v p).state = .awaiting ∧ v.out = s.out := by
    refine ⟨_, rfl, ?_, ?_, ?_⟩
    · rw [linkOf_setPortState, linkOf_setLink, if_pos ⟨rfl, rfl⟩]
    · rw [portOf_setPortState]
    · rw [setPortState_eq]
      change (trainingPort s p).out = s.out
      unfold trainingPort
      rw [if_neg (by simp [alone]), setPortState_eq]
      rfl
  obtain ⟨sent, sentLink, sentState, card⟩ := sendCard_spec v p k
  refine ⟨sendCard v p k, ?_, ?_, ?_, sentState.trans state, ?_⟩
  · rw [bringup_done plan may down last.symm, if_pos ontime, if_pos rfl, if_neg (by simp [alone]), hv]
  · simp only [linkUp, sentLink, link]
    rfl
  · rw [sentLink, link]
  · rw [sent, out, card]

/-- The card that an information string gives (R388). -/
def heardCard (s : State) (info : List Byte) (ttl : Nat) (mac : BitVec 48) : Card :=
  { sys := BitVec.ofNat 8 (leAt info 1 1), device := BitVec.ofNat 14 (leAt info 2 2), port := leAt info 4 1 % 8,
    role := BitVec.ofNat 8 (leAt info 5 1), flags := BitVec.ofNat 8 (leAt info 6 1), ttFmt := BitVec.ofNat 8 (leAt info 7 1),
    contract := BitVec.ofNat 16 (leAt info 8 2), fw := BitVec.ofNat 32 (leAt info 12 4), mac := mac, at_ := s.time.mono, ttl := ttl }

theorem cardReceive_of_whole {s : State} {p k : Nat} {info : List Byte} (ttl : Nat) (mac : BitVec 48) (up : linkUp s p k = true)
    (len : info.length = 16) (version : leAt info 0 1 = 1) : cardReceive s p k 0x4AC2E5 1 info ttl mac =
      classify (setLink s p k { linkOf s p k with card := some (heardCard s info ttl mac) }) p := by
  have cond : (linkUp s p k && 0x4AC2E5 == cardCompany && 1 == 1 && info.length == 16 && leAt info 0 1 == 1) = true := by
    simp [up, len, version, cardCompany]
  unfold cardReceive
  rw [if_pos cond]
  rfl

theorem stepLimit_eq (n : Nat) : stepLimit n = if n ≤ 2 then 500000000 else if n = 3 then 10000000 else 1000000 := rfl

/-- Settles O31: bring-up by `bringup_done` and `bringup_failed`, the rest by its conditions. -/
theorem linksAndLandingCards : Obligations.LinksAndLandingCards := by
  unfold Obligations.LinksAndLandingCards
  refine ⟨fun s p k => ⟨fun plan => ⟨fun closed o => congrArg Host.Outcome.next (bringup_of_closed plan closed o), fun n limit may down next hl =>
    ⟨fun a since out => ?_, fun a since early => ?_, fun ontime other => ?_, fun ended other => ?_, fun ontime last alone => ?_⟩⟩,
    fun cause down => ?_, fun cause up => ?_, fun c u down => ?_, fun c u up => ⟨fun within => ?_, fun set above => ?_⟩,
    fun l => ⟨fun none => ?_, fun fitted free => ?_⟩⟩,
    fun s p k => ⟨fun none => ?_, fun up due => ?_, fun company sub info ttl mac bad => ?_, fun info ttl mac up len version => ?_,
      fun c card => ⟨fun early => ?_, fun late plan => ?_⟩, ?_⟩⟩
  · refine ⟨_, congrArg Host.Outcome.next (bringup_done plan may down next), ?_⟩
    have late : ¬ stepInTime s (linkOf s p k) n = true := by
      rw [stepInTime_iff, stepLimit_eq, ← hl]
      intro h
      have := h a since
      omega
    rw [if_neg late, linkOf_trainingPort]
  · refine ⟨_, congrArg Host.Outcome.next (bringup_failed plan may down next), ?_⟩
    have going : stepOver s (linkOf s p k) n = false := by
      rw [← Bool.not_eq_true, stepOver_iff, stepLimit_eq, ← hl]
      intro h
      have := h a since
      omega
    rw [if_pos (.inr going), linkOf_trainingPort]
  · refine ⟨_, congrArg Host.Outcome.next (bringup_done plan may down next), ?_⟩
    have inTime : stepInTime s (linkOf s p k) n = true := by
      rw [stepInTime_iff, stepLimit_eq, ← hl]
      exact ontime
    rw [if_pos inTime, if_neg other, linkOf_setLink, if_pos ⟨rfl, rfl⟩, state_setLink]
    exact ⟨rfl, rfl, state_trainingPort s p⟩
  · have done : ¬ (n = 4 ∨ stepOver s (linkOf s p k) n = false) := by
      rw [← Bool.not_eq_true, stepOver_iff, stepLimit_eq, ← hl]
      exact fun h => h.elim other fun h => h ended
    have link := (linkOf_setLink (trainingPort s p) p k p k (failedLink s (linkOf s p k) n)).trans (if_pos ⟨rfl, rfl⟩)
    have run := bringup_failed plan may down next
    rw [if_neg done] at run
    by_cases eighth : (linkOf s p k).fails = 7
    · rw [if_pos (by omega)] at run
      exact ⟨_, congrArg Host.Outcome.next run, congrArg Link.step link, congrArg Link.fails link, congrArg Link.since link,
        fun h => absurd eighth h, fun _ => ⟨_, congrArg (· ++ _) (occ_trainingPort s p), rfl⟩⟩
    · rw [if_neg (by omega)] at run
      exact ⟨_, congrArg Host.Outcome.next run, congrArg Link.step link, congrArg Link.fails link, congrArg Link.since link,
        fun _ => occ_trainingPort s p, fun h => absurd h eighth⟩
  · obtain ⟨u, run, rest⟩ := bringup_last plan may down (next.symm.trans last)
      ((stepInTime_iff ..).mpr fun a since => by rw [stepLimit_eq, ← last, ← hl]; exact ontime a since) alone
    exact ⟨u, congrArg Host.Outcome.next run, rest⟩
  · show Host.Outcome.next (loseLink s p k cause) = _
    simp only [loseLink, down, Bool.false_eq_true, if_false]
  · show Host.Outcome.next (loseLink s p k cause) = _
    simp only [loseLink, up, if_true]
  · show Host.Outcome.next (fecWindow s p k c u) = _
    simp only [fecWindow, down, Bool.false_eq_true, if_false]
  · show Host.Outcome.next (fecWindow s p k c u) = _
    have not : ¬ (regBits s (ptBase p + 0x28) 15 0 ≠ 0 ∧ regBits s (ptBase p + 0x28) 15 0 < u) := by omega
    simp only [fecWindow, up, if_true, if_neg not]
  · show Host.Outcome.next (fecWindow s p k c u) = _
    simp only [fecWindow, up, if_true, if_pos (And.intro set above)]
  · show Host.Outcome.next (serdesFails s p l.toNat) = _
    have cond : (fittedPort s p && !portFenced s p) = false := by
      rcases none with h | h <;> simp [h]
    simp only [serdesFails, cond, Bool.false_eq_true, if_false]
  · show Host.Outcome.next (serdesFails s p l.toNat) = _
    simp only [serdesFails, fitted, free, Bool.not_false, Bool.and_self, if_true]
  · have cond : (linkUp s p k && cardDue s p k) = false := by
      rcases none with h | h <;> simp [h]
    simp only [exec, execLandingCardSend, cond, Bool.false_eq_true, if_false]
  · obtain ⟨out, link, -, -⟩ := sendCard_spec s p k
    refine ⟨sendCard s p k, ?_, out, ?_, ?_⟩
    · simp only [exec, execLandingCardSend, up, due, Bool.and_self, if_true]
    · rw [link]
    · rw [link]
  · show Host.Outcome.next (cardReceive s p k company sub info ttl mac) = _
    have cond : ¬ (linkUp s p k && company == cardCompany && sub == 1 && info.length == 16 && leAt info 0 1 == 1) = true := by
      simp only [Bool.and_eq_true, beq_iff_eq]
      rintro ⟨⟨⟨⟨up, mine⟩, one⟩, len⟩, version⟩
      rcases bad with h | h | h | h | h
      · simp [up] at h
      · exact h mine
      · exact h one
      · exact h len
      · exact h version
    simp only [cardReceive, if_neg cond]
  · refine ⟨setLink s p k { linkOf s p k with card := some (heardCard s info ttl mac) }, heardCard s info ttl mac,
      congrArg Host.Outcome.next (cardReceive_of_whole ttl mac up len version), rfl, ?_, rfl, rfl, rfl, rfl, rfl, rfl, rfl, rfl⟩
    rw [linkOf_setLink, if_pos ⟨rfl, rfl⟩]
  · simp only [exec, execLandingCardTtlExpire, card, if_neg (Nat.not_le.mpr early)]
  · simp only [exec, execLandingCardTtlExpire, card, if_pos late, loseCard, if_neg plan]
  · simp only [exec, execCardAwaitTimeout, cardLate, Bool.and_eq_true, beq_iff_eq, decide_eq_true_iff]

end Sys2Proof.Proofs
end

section
/-! Port settings, transit, priority flow control, retransmission and congestion control (R378-R383, R394-R412, R468-R472) (O32). -/

namespace Sys2Proof.Proofs
open Sys2Proof Sys2Proof.Machine Sys2Proof.Safety Sys2Proof.Laws

/-! ### Mode and plan (R382) -/

theorem linkUp_of_noneUp {s : State} {p k : Nat} (h : anyUp s p = false) (hk : k < 4) : linkUp s p k = false := by
  refine Bool.eq_false_iff.mpr fun up => ?_
  have some : anyUp s p = true := List.any_eq_true.mpr ⟨k, List.mem_range.mpr hk, up⟩
  exact Bool.false_ne_true (h.symm.trans some)

/-- The links of a port, taken back to the beginning of their bring-up. -/
def linksTaken (s : State) (p : Nat) (l : List Nat) : State :=
  l.foldl (fun t k => setLink t p k { linkOf t p k with step := 0, fails := 0, since := none }) s

theorem linksTaken_cons (s : State) (p k : Nat) (l : List Nat) : linksTaken s p (k :: l) =
    linksTaken (setLink s p k { linkOf s p k with step := 0, fails := 0, since := none }) p l := rfl

theorem step_linksTaken (p k : Nat) (l : List Nat) : ∀ s : State, k ∈ l ∨ (linkOf s p k).step = 0 → (linkOf (linksTaken s p l) p k).step = 0 := by
  induction l with
  | nil => exact fun s h => h.resolve_left (List.not_mem_nil)
  | cons i r ih =>
    intro s h
    rw [linksTaken_cons]
    refine ih _ ?_
    rw [linkOf_setLink]
    split
    · exact .inr rfl
    next other => exact h.imp (fun mem => (List.mem_cons.mp mem).resolve_left fun eq => other ⟨rfl, eq.symm⟩) id

theorem portMode_linksTaken (s : State) (p : Nat) (l : List Nat) : portMode (linksTaken s p l) p = portMode s p :=
  foldl_keeps (f := fun t k => setLink t p k { linkOf t p k with step := 0, fails := 0, since := none })
    (fun t => portMode t p) (fun _ _ => rfl) l s

/-- A register of a port set to a new mode reads back. -/
theorem portMode_regSet (s : State) (p new : Nat) (h : new < 2 ^ 32) :
    portMode (regSet s (mgBase + 0x100 + 8 * p) (BitVec.ofNat 32 new)) p = new := by
  rw [portMode, regGet_regSet, if_pos rfl, BitVec.toNat_ofNat, Nat.mod_eq_of_lt h]

theorem portPlan_regSet (s : State) (p new : Nat) (h : new < 2 ^ 32) :
    portPlan (regSet s (mgBase + 0x104 + 8 * p) (BitVec.ofNat 32 new)) p = new := by
  rw [portPlan, regGet_regSet, if_pos rfl, BitVec.toNat_ofNat, Nat.mod_eq_of_lt h]

/-- The mode that a write of valid encodings gives. -/
def newMode (v : Nat) : Nat := bits v 31 31 * 2 ^ 31 + bits v 30 28 * 2 ^ 28 + bits v 27 26 * 2 ^ 26

theorem newMode_lt {v : Nat} (media : bits v 30 28 ≤ 2) (split : bits v 27 26 ≤ 2) : newMode v < 2 ^ 32 := by
  have en : bits v 31 31 < 2 := by
    simp only [bits]
    omega
  unfold newMode
  omega

/-- A changed mode of a port without a link that is up. -/
theorem modeWrite_of_changed {s : State} {p : Nat} {v : Word} (fitted : fittedPort s p = true) (media : bits v.toNat 30 28 ≤ 2)
    (split : bits v.toNat 27 26 ≤ 2) (changed : newMode v.toNat ≠ portMode s p) (down : anyUp s p = false) :
    portMode (modeWrite s p v) p = newMode v.toNat ∧ ∀ k, k < 4 → (linkOf (modeWrite s p v) p k).step = 0 := by
  have kept : (List.range 4).foldl (fun t k => loseLink t p k 4) s = s := by
    have lose : ∀ k, k < 4 → loseLink s p k 4 = s := fun k hk => by
      simp only [loseLink, linkUp_of_noneUp down hk, Bool.false_eq_true, if_false]
    have four : List.range 4 = [0, 1, 2, 3] := rfl
    rw [four, List.foldl_cons, List.foldl_cons, List.foldl_cons, List.foldl_cons, List.foldl_nil]
    rw [lose 0 (by omega), lose 1 (by omega), lose 2 (by omega), lose 3 (by omega)]
  obtain ⟨w, hw⟩ : ∃ w, w = linksTaken (regSet s (mgBase + 0x100 + 8 * p) (BitVec.ofNat 32 (newMode v.toNat))) p (List.range 4) := ⟨_, rfl⟩
  have mode : portMode w p = newMode v.toNat := by
    rw [hw, portMode_linksTaken, portMode_regSet s p _ (newMode_lt media split)]
  have steps : ∀ k, k < 4 → (linkOf w p k).step = 0 := fun k hk => by
    rw [hw]
    exact step_linksTaken p k _ _ (.inl (List.mem_range.mpr hk))
  have run : modeWrite s p v = if portFenced w p then w else setPortState w p (downState w p) (downCause w p) := by
    have changed' : ¬ (bits v.toNat 31 31 * 2 ^ 31 + bits v.toNat 30 28 * 2 ^ 28 + bits v.toNat 27 26 * 2 ^ 26 = portMode s p) := changed
    simp only [modeWrite, fitted, Bool.not_true, Bool.false_eq_true, if_false, if_pos media, if_pos split, if_neg changed', kept, hw]
    rfl
  rw [run]
  split
  · exact ⟨mode, steps⟩
  · refine ⟨?_, fun k hk => ?_⟩
    · rw [setPortState_eq]
      exact mode
    · rw [linkOf_setPortState]
      exact steps k hk

theorem modeWrite_of_same {s : State} {p : Nat} {v : Word} (fitted : fittedPort s p = true) (media : bits v.toNat 30 28 ≤ 2)
    (split : bits v.toNat 27 26 ≤ 2) (same : newMode v.toNat = portMode s p) : modeWrite s p v = s := by
  have same' : bits v.toNat 31 31 * 2 ^ 31 + bits v.toNat 30 28 * 2 ^ 28 + bits v.toNat 27 26 * 2 ^ 26 = portMode s p := same
  simp only [modeWrite, fitted, Bool.not_true, Bool.false_eq_true, if_false, if_pos media, if_pos split, if_pos same']

/-- A plan of a port to another module sets the plan, and the port is classified, or takes the state of a port without links. -/
theorem planWrite_of_foreign {s : State} {p : Nat} {v : Word} (fitted : fittedPort s p = true) (kind : bits v.toNat 31 30 = 2) :
    ∃ u, portPlan u p = bits v.toNat 31 5 * 32 ∧ planWrite s p v =
      if anyUp u p then classify u p else if portFenced u p then u else setPortState u p (downState u p) (downCause u p) := by
  have lt := v.isLt
  have value : 2 * 2 ^ 30 + bits v.toNat 29 5 * 32 = bits v.toNat 31 5 * 32 ∧ bits v.toNat 31 5 * 32 < 2 ^ 32 := by
    simp only [bits, Nat.shiftRight_eq_div_pow] at kind ⊢
    omega
  obtain ⟨eq, small⟩ := value
  refine ⟨regSet s (mgBase + 0x104 + 8 * p) (BitVec.ofNat 32 (2 * 2 ^ 30 + bits v.toNat 29 5 * 32)), ?_, ?_⟩
  · rw [eq, portPlan_regSet _ _ _ small]
  · simp only [planWrite, fitted, Bool.not_true, Bool.false_eq_true, if_false, kind, Nat.le_refl, if_true, Nat.reduceEqDiff,
      false_and, or_self]

/-! ### Addresses (R377, R378) -/

theorem ownsAddress_iff (s : State) (a : BitVec 128) : ownsAddress s a = true ↔
    ∃ r j, r < 8 ∧ j < 4 ∧ fittedPort s r = true ∧ j < subPorts s r ∧ ownAddress s r j = a.toNat := by
  unfold ownsAddress
  rw [List.any_eq_true]
  constructor
  · rintro ⟨i, mem, h⟩
    have lt := List.mem_range.mp mem
    obtain ⟨⟨fitted, sub⟩, eq⟩ : (fittedPort s (i / 4) = true ∧ i % 4 < subPorts s (i / 4)) ∧ ownAddress s (i / 4) (i % 4) = a.toNat := by
      simpa using h
    exact ⟨i / 4, i % 4, by omega, by omega, fitted, sub, eq⟩
  · rintro ⟨r, j, hr, hj, fitted, sub, eq⟩
    have quot : (4 * r + j) / 4 = r := by omega
    have rest : (4 * r + j) % 4 = j := by omega
    refine ⟨4 * r + j, List.mem_range.mpr (by omega), ?_⟩
    rw [quot, rest]
    simp [fitted, sub, eq]

/-! ### Transit (R468-R472) -/

/-- What transit frames a port holds does not pause it. -/
theorem paused_transit (s : State) (q n : Nat) (l : List Transit) :
    paused (setPort s q { portOf s q with transit := l }) q n = paused s q n := by
  unfold paused
  rw [portOf_setPort, if_pos rfl]
  rfl

/-- The one transit frame that a port holds leaves it, or waits there while its priority is paused. -/
theorem flushTransit_one {s : State} {q : Nat} {f : TransitFrame} {y : Port} (hy : portOf s q = y) {e : Transit} (he : e.frame = f)
    (held : y.transit = [e]) :
    (portOf (flushTransit s q) q).transit = [] ∧
      (paused s q f.pcp = false → (flushTransit s q).out = s.out ++ [.transit q { f with hop := f.hop - 1 }]) ∧
      (paused s q f.pcp = true → (flushTransit s q).out = s.out ∧
        (portOf (flushTransit s q) q).held = y.held ++ [(f.pcp, .transit q { f with hop := f.hop - 1 })]) := by
  obtain ⟨w, hw⟩ : ∃ w, w = setPort s q { y with transit := [] } := ⟨_, rfl⟩
  have port : portOf w q = { y with transit := [] } := by rw [hw, portOf_setPort, if_pos rfl]
  have same : paused w q f.pcp = paused s q f.pcp := by
    unfold paused
    rw [port, hy, hw]
    rfl
  have run : flushTransit s q = sendFrame w q f.pcp (.transit q { f with hop := f.hop - 1 }) := by
    simp only [flushTransit, hy, held, List.foldl_cons, List.foldl_nil, sendTransit, he, hw]
  rw [run, ← same]
  unfold sendFrame
  cases paused w q f.pcp with
  | false =>
    refine ⟨?_, fun _ => ?_, fun h => absurd h (by decide)⟩
    · exact congrArg Port.transit port
    · rw [hw]
      rfl
  | true =>
    refine ⟨?_, fun h => absurd h (by decide), fun _ => ⟨?_, ?_⟩⟩
    · rw [if_pos rfl, portOf_setPort, if_pos rfl, port]
    · rw [hw]
      rfl
    · rw [if_pos rfl, portOf_setPort, if_pos rfl, port]

/-- A transit frame to another module that arrives on a port that is up. -/
theorem transitFrame_of_up {s : State} {p : Nat} {f : TransitFrame} (link : anyUp s p = true)
    (foreign : f.sys.toNat ≠ ownSys s ∨ f.device.toNat ≠ ownDevice s) (up : (portOf s p).state = .up ∨ (portOf s p).state = .remapped) :
    (transitPort s p f = none → transitFrame s p f = countDrop s p) ∧
      ∀ q, transitPort s p f = some q →
        transitFrame s p f = if scheduled s then setPort s q { portOf s q with
            transit := (portOf s q).transit ++ [{ frame := f, at_ := s.time.tide }] }
          else flushTransit (setPort s q { portOf s q with transit := (portOf s q).transit ++ [{ frame := f, at_ := s.time.tide }] }) q := by
  have mine : (!anyUp s p || (f.sys.toNat == ownSys s && f.device.toNat == ownDevice s)) = false := by
    rcases foreign with h | h <;> simp [link, h]
  have open_ : (!((portOf s p).state == .up || (portOf s p).state == .remapped)) = false := by
    rcases up with h | h <;> simp [h]
  refine ⟨fun none => ?_, fun q some_ => ?_⟩
  · simp only [transitFrame, mine, open_, Bool.false_eq_true, if_false, none]
  · simp only [transitFrame, mine, open_, Bool.false_eq_true, if_false, some_]
    rfl

/-! ### Priority flow control (R394-R397) -/

@[simp] theorem pfcOf_setPfc (s : State) (p n : Nat) (x : Pfc) : pfcOf (setPfc s p n x) p n = x := by
  unfold pfcOf setPfc
  rw [portOf_setPort, if_pos rfl]
  exact tget_tput_same ..

theorem pfcFrame_of_enabled {s : State} {p n : Nat} (link : anyUp s p = true) (quar : (portOf s p).state ≠ .quarantined)
    (wait : (portOf s p).state ≠ .awaiting) (on : bit (regGet s (ptBase p + 0x20)).toNat n = true) :
    pfcFrame s p n true = setPfc s p n { pfcOf s p n with
        lastXoff := s.time.mono,
        pausedAt := if (pfcOf s p n).ignoring then none else some ((pfcOf s p n).pausedAt.getD s.time.mono) } ∧
      pfcFrame s p n false = releaseHeld (setPfc s p n { pfcOf s p n with pausedAt := none }) p n := by
  have heard : ¬ ((portOf s p).state = .quarantined ∨ (portOf s p).state = .awaiting) := fun h => h.elim quar wait
  constructor
  · simp only [pfcFrame, link, Bool.not_true, Bool.false_eq_true, if_false, if_neg heard, on, if_true]
    cases (pfcOf s p n).pausedAt <;> rfl
  · simp only [pfcFrame, link, Bool.not_true, Bool.false_eq_true, if_false, if_neg heard, on]

/-! ### Retransmission (R403) and congestion control (R410-R412) -/

/-- The connection whose oldest request is tried once more. -/
def triedConn (c : Conn) (until_ : Option Nat) : Conn := { c with tries := c.tries + 1, rnrUntil := until_ }

theorem retry_of_left {s : State} {n : Nat} (some_ : (connOf s n).reqs ≠ []) (left : (connOf s n).tries < (connOf s n).retry) (w : Nat) :
    retry s n none = resend (setConn s n (triedConn (connOf s n) none)) n ∧
      retry s n (some w) = setConn s n (triedConn (connOf s n) (some (s.time.mono + w))) := by
  have full : (connOf s n).reqs.isEmpty = false := by simpa using some_
  constructor
  · simp only [retry, full, Bool.false_eq_true, if_false, if_neg (Nat.not_le.mpr left), Option.isSome_none]
    rfl
  · simp only [retry, full, Bool.false_eq_true, if_false, if_neg (Nat.not_le.mpr left), Option.isSome_some, if_true]
    rfl

theorem retry_of_used {s : State} {n : Nat} (some_ : (connOf s n).reqs ≠ []) (used : (connOf s n).retry ≤ (connOf s n).tries)
    (w : Option Nat) : retry s n w = connTimeLimit s n := by
  have full : (connOf s n).reqs.isEmpty = false := by simpa using some_
  simp only [retry, full, Bool.false_eq_true, if_false, if_pos used]

theorem nakReceive_of_carried {s : State} {n : Nat} (usable : connUsable s n = true) (carried : carries s n = true) (m w : Nat) :
    nakReceive s n .sequence m w = retry (ackRequests s n m) n none ∧
      nakReceive s n .rnr m w = retry (ackRequests s n m) n (some w) ∧
      nakReceive s n .remoteAccess m w = connFail (ackRequests s n m) n 1 true ∧
      nakReceive s n .invalidRequest m w = connFail (ackRequests s n m) n 2 true := by
  simp only [nakReceive, nakReason, usable, carried, Bool.not_true, Bool.or_self, Bool.false_eq_true, if_false, and_self]

theorem ackRequests_zero (s : State) (n : Nat) : ackRequests s n 0 = s := by
  simp only [ackRequests, if_true]

theorem retransmit_eq {s : State} {n : Nat} {x : OutReq} {l : List OutReq} (usable : connUsable s n = true) (reqs : (connOf s n).reqs = x :: l)
    (sent : x.unsent = none) (free : (connOf s n).rnrUntil = none) :
    retransmit s n 0 = if x.at_ + 4096 * 2 ^ (connOf s n).tmo ≤ s.time.mono then retry s n none else s := by
  have passed : timeoutPassed s n = decide (x.at_ + connTimeout (connOf s n) ≤ s.time.mono) := by
    simp only [timeoutPassed, reqs, sent, free, Option.isNone_none, Bool.true_and]
  simp only [retransmit, ackRequests, if_true, usable, Bool.true_and, passed, decide_eq_true_iff]
  rfl

/-- A connection whose requests have been sent again. -/
def resentConn (s : State) (c : Conn) : Conn :=
  { c with rnrUntil := none, reqs := c.reqs.map (fun y => if y.unsent.isSome then y else { y with at_ := s.time.mono }) }

/-- The requests of a connection that is usable and carried leave again. -/
theorem out_resend {s : State} {n : Nat} {x : OutReq} {l : List OutReq} (usable : connUsable s n = true) (carried : carries s n = true)
    (reqs : (connOf s n).reqs = x :: l) (open_ : paused s (connPort s n) (kindPcp s n x.kind false) = false) :
    ∃ f, (resend s n).out = s.out ++ [.roce n f .resend] := by
  obtain ⟨w, hw⟩ : ∃ w, w = setConn s n (resentConn s (connOf s n)) := ⟨_, rfl⟩
  have conn : connOf w n = resentConn s (connOf s n) := by rw [hw, connOf_setConn, if_pos rfl]
  have port : connPort w n = connPort s n := by
    rw [connPort, conn, hw]
    rfl
  have goes : (connUsable w n && carries w n) = true := by
    rw [Bool.and_eq_true]
    constructor
    · rw [connUsable, conn]
      exact usable
    · refine Eq.trans ?_ carried
      simp only [carries, port, connMgmt, conn]
      rw [hw]
      rfl
  have free : paused w (connPort w n) (kindPcp s n x.kind false) = false := by
    rw [port]
    refine Eq.trans ?_ open_
    rw [hw]
    rfl
  have run : resend s n = sendOn w n (kindPcp s n x.kind false) .resend false := by
    rw [hw, resentConn]
    simp only [resend, reqs]
  refine ⟨frameOf w n (kindPcp s n x.kind false) .resend false, ?_⟩
  rw [run, sendOn, if_pos goes, sendFrame, free, hw]
  rfl

/-- A CNP cuts the rate where congestion control runs and a period has passed since the last cut. -/
theorem cnpReceive_eq (s : State) (n : Nat) : cnpReceive s n false =
    if connUsable s n = true ∧ carries s n = true ∧ bit (ccOf s n) 31 = true ∧
        (∀ a, (connOf s n).cutAt = some a → a + ccPeriod s n ≤ s.time.mono) then
      setConn s n { connOf s n with rate := max 1024 ((connOf s n).rate * (16 - bits (ccOf s n) 15 12) / 16),
                                    cutAt := some s.time.mono, riseAt := s.time.mono }
    else s := by
  unfold cnpReceive
  dsimp only
  have floor : fullRate / 1024 = 1024 := rfl
  rw [floor]
  refine ite_congr (propext ?_) (fun _ => rfl) (fun _ => rfl)
  cases (connOf s n).cutAt with
  | none => simp [and_assoc]
  | some a => simp [and_assoc]

/-- Settles O32: each setting, frame and packet by the lemma about its function. -/
theorem portSettingsTransitAndFlow : Obligations.PortSettingsTransitAndFlow := by
  unfold Obligations.PortSettingsTransitAndFlow
  refine ⟨fun s p => ⟨fun v absent => ⟨?_, ?_⟩, fun v fitted media split => ⟨fun same => ?_, fun changed down => ?_⟩, fun v fitted kind => ?_,
    fun h v => rfl, fun k f down => ?_, fun k f up mem => ?_, fun k j r a up fitted sub own => ?_, fun k a up foreign => ?_, fun f down => ?_,
    fun f link foreign => ⟨fun n1 n2 => ?_, fun up => ⟨fun none => ?_, fun q goes sched => ?_, fun q goes free empty => ?_⟩⟩⟩,
    fun s p n => ⟨fun x link quar wait => ⟨fun off => ?_, fun on => ⟨?_, ?_⟩⟩, fun a paused => ?_, ?_⟩,
    fun s n => ⟨fun k m w down => ⟨?_, ?_⟩, fun m w usable carried => ?_, fun w usable carried some_ => ⟨fun left => ⟨?_, ?_⟩, fun used => ⟨?_, ?_⟩⟩,
      fun x l usable reqs sent free => ⟨fun early => ?_, fun late => ⟨fun left => ?_, fun used => ?_⟩⟩, fun free => ?_, fun t until_ => ?_,
      fun x l usable carried reqs open_ => out_resend usable carried reqs open_, ?_, ?_, fun usable => ?_⟩⟩
  · show Host.Outcome.next (modeWrite s p v) = _
    simp only [modeWrite, absent, Bool.not_false, if_true]
  · show Host.Outcome.next (planWrite s p v) = _
    simp only [planWrite, absent, Bool.not_false, if_true]
  · exact congrArg Host.Outcome.next (modeWrite_of_same fitted media split same)
  · exact ⟨_, rfl, modeWrite_of_changed fitted media split changed down⟩
  · obtain ⟨u, plan, run⟩ := planWrite_of_foreign fitted kind
    exact ⟨u, plan, congrArg Host.Outcome.next run⟩
  · show Host.Outcome.next (neighbor s p k f) = _
    simp only [neighbor, down, Bool.not_false, if_true]
  · show Host.Outcome.next (neighbor s p k f) = _
    simp only [List.mem_cons, List.not_mem_nil, or_false] at mem
    rcases mem with rfl | rfl | rfl <;> simp only [neighbor, up, Bool.not_true, Bool.false_eq_true, if_false]
  · show Host.Outcome.next (neighbor s p k (.solicitation a)) = _
    have mine : ownsAddress s a = true := (ownsAddress_iff s a).mpr ⟨r, j, r.isLt, j.isLt, fitted, sub, own⟩
    simp only [neighbor, up, Bool.not_true, Bool.false_eq_true, if_false, mine, if_true]
  · show Host.Outcome.next (neighbor s p k (.solicitation a)) = _
    have other : ownsAddress s a = false := by
      rw [← Bool.not_eq_true, ownsAddress_iff]
      rintro ⟨r, j, hr, hj, -, -, eq⟩
      exact foreign r j hr hj eq
    simp only [neighbor, up, Bool.not_true, Bool.false_eq_true, if_false, other]
  · show Host.Outcome.next (transitFrame s p f) = _
    simp only [transitFrame, down, Bool.not_false, Bool.true_or, if_true]
  · show Host.Outcome.next (transitFrame s p f) = _
    have mine : (!anyUp s p || (f.sys.toNat == ownSys s && f.device.toNat == ownDevice s)) = false := by
      rcases foreign with h | h <;> simp [link, h]
    have closed : (!((portOf s p).state == .up || (portOf s p).state == .remapped)) = true := by simp [n1, n2]
    simp only [transitFrame, mine, closed, Bool.false_eq_true, if_false, if_true]
  · exact congrArg Host.Outcome.next ((transitFrame_of_up link foreign up).1 none)
  · exact congrArg Host.Outcome.next (((transitFrame_of_up link foreign up).2 q goes).trans (if_pos sched))
  · obtain ⟨gone, out, held⟩ := flushTransit_one (q := q) (f := f) (portOf_setPort s q q { portOf s q with
      transit := (portOf s q).transit ++ [{ frame := f, at_ := s.time.tide }] } |>.trans (if_pos rfl))
      (e := { frame := f, at_ := s.time.tide }) rfl (by simp [empty])
    rw [paused_transit] at out held
    exact ⟨_, congrArg Host.Outcome.next (((transitFrame_of_up link foreign up).2 q goes).trans (if_neg (by simp [free]))), gone, out, held⟩
  · show Host.Outcome.next (pfcFrame s p n x) = _
    have heard : ¬ ((portOf s p).state = .quarantined ∨ (portOf s p).state = .awaiting) := fun h => h.elim quar wait
    simp only [pfcFrame, link, Bool.not_true, Bool.false_eq_true, if_false, if_neg heard, off, Bool.not_false, if_true]
  · exact congrArg Host.Outcome.next (pfcFrame_of_enabled link quar wait on).2
  · refine ⟨_, congrArg Host.Outcome.next (pfcFrame_of_enabled link quar wait on).1, ?_, fun ignoring => ?_, fun heeding => ?_⟩
    · rw [pfcOf_setPfc]
    · rw [pfcOf_setPfc]
      exact if_pos ignoring
    · rw [pfcOf_setPfc]
      exact if_neg (by simp [heeding])
  · show Host.Outcome.next (pfcWatchdog s p n) = _
    simp only [pfcWatchdog, paused]
  · show Host.Outcome.next (pfcRearm s p n) = _
    simp only [pfcRearm, Bool.and_eq_true, decide_eq_true_iff]
  · show Host.Outcome.next (nakReceive s n k m w) = _
    simp only [nakReceive, down, Bool.not_false, Bool.true_or, if_true]
  · show Host.Outcome.next (retransmit s n m) = _
    simp only [retransmit, down, Bool.false_and, Bool.false_eq_true, if_false]
  · obtain ⟨-, -, access, invalid⟩ := nakReceive_of_carried usable carried m w
    exact ⟨congrArg Host.Outcome.next access, congrArg Host.Outcome.next invalid⟩
  · obtain ⟨sequence, -, -, -⟩ := nakReceive_of_carried usable carried 0 w
    rw [ackRequests_zero, (retry_of_left some_ left w).1] at sequence
    exact congrArg Host.Outcome.next sequence
  · obtain ⟨-, rnr, -, -⟩ := nakReceive_of_carried usable carried 0 w
    rw [ackRequests_zero, (retry_of_left some_ left w).2] at rnr
    exact congrArg Host.Outcome.next rnr
  · obtain ⟨sequence, -, -, -⟩ := nakReceive_of_carried usable carried 0 w
    rw [ackRequests_zero, retry_of_used some_ used] at sequence
    exact congrArg Host.Outcome.next sequence
  · obtain ⟨-, rnr, -, -⟩ := nakReceive_of_carried usable carried 0 w
    rw [ackRequests_zero, retry_of_used some_ used] at rnr
    exact congrArg Host.Outcome.next rnr
  · exact congrArg Host.Outcome.next ((retransmit_eq usable reqs sent free).trans (if_neg (Nat.not_le.mpr early)))
  · have run := (retransmit_eq usable reqs sent free).trans (if_pos late)
    rw [(retry_of_left (by simp [reqs]) left 0).1] at run
    exact congrArg Host.Outcome.next run
  · have run := (retransmit_eq usable reqs sent free).trans (if_pos late)
    rw [retry_of_used (by simp [reqs]) used] at run
    exact congrArg Host.Outcome.next run
  · show Host.Outcome.next (rnrRetry s n) = _
    simp only [rnrRetry, free]
  · show Host.Outcome.next (rnrRetry s n) = _
    simp only [rnrRetry, until_, Bool.and_eq_true, decide_eq_true_iff]
  · refine ⟨_, congrArg Host.Outcome.next (cnpReceive_eq s n), fun changed => ?_, fun usable carried on first => ?_, fun a cut early => ?_⟩
    · split at changed
      next cond =>
        rw [if_pos cond, connOf_setConn, if_pos rfl]
        exact ⟨rfl, rfl⟩
      · exact absurd rfl changed
    · rw [if_pos ⟨usable, carried, on, fun a h => by simp [first] at h⟩, connOf_setConn, if_pos rfl]
    · rw [if_neg]
      rintro ⟨-, -, -, late⟩
      exact absurd (late a cut) (Nat.not_le.mpr early)
  · show Host.Outcome.next (cnpReceive s n true) = _
    simp only [cnpReceive, Bool.not_true, Bool.and_false, Bool.false_and, Bool.false_eq_true, if_false]
  · refine ⟨rateIncrease s n, rfl, fun off => ?_, fun on due => ?_, fun on early => ?_⟩
    · simp only [rateIncrease, usable, off, Bool.not_true, Bool.not_false, Bool.false_eq_true, if_false, if_true, connOf_setConn]
      rfl
    · have run : rateIncrease s n = setConn s n { connOf s n with
          rate := min fullRate ((connOf s n).rate + bits (ccOf s n) 23 16 * 4096), riseAt := s.time.mono } := by
        simp only [rateIncrease, usable, on, Bool.not_true, Bool.false_eq_true, if_false, if_pos due]
      rw [run, connOf_setConn, if_pos rfl]
      exact ⟨rfl, rfl⟩
    · simp only [rateIncrease, usable, on, Bool.not_true, Bool.false_eq_true, if_false, if_neg (Nat.not_le.mpr early)]

end Sys2Proof.Proofs
end

section
/-! Inbound RDMA: accesses of HBM, control space and the debug view, command memory, and messages (R34-R43, R250-R252, R329-R331,
R398-R402, R444, R491-R493, R618) (O33, O34, O35). -/

namespace Sys2Proof.Proofs
open Sys2Proof Sys2Proof.Machine Sys2Proof.Safety Sys2Proof.Laws

theorem inbound_of_dropped {s u : State} {k : Packet} {what : Carried} (h : accept s k what = (u, none)) (act : State → Nat → State) :
    inbound s k what act = u := by
  simp only [inbound, h]

theorem inbound_of_accepted {s u : State} {k : Packet} {what : Carried} {n : Nat} (h : accept s k what = (u, some n))
    (act : State → Nat → State) : inbound s k what act = act u n := by
  simp only [inbound, h]

theorem targetAt_hbm {a : Nat} (h : a < 2 ^ 38) : targetAt a = .hbm := if_pos h

/-! ### Writes and reads on an accepted connection -/

section Accepted

variable {u : State} {k : Packet} {n a : Nat}

theorem writeIn_of_wrongKey (key : k.rkey ≠ (connOf u n).lkey) (d : List Byte) (arm : Bool) (mem : HbmOutcome) :
    writeIn u k n a d arm mem = windowFail u k.port.val n a := by
  simp only [writeIn, bne_iff_ne.mpr key, if_true]

theorem readIn_of_wrongKey (key : k.rkey ≠ (connOf u n).lkey) (len : Nat) (mem : HbmOutcome) :
    readIn u k n a len mem = windowFail u k.port.val n a := by
  simp only [readIn, bne_iff_ne.mpr key, if_true]

variable (key : k.rkey = (connOf u n).lkey)
include key

theorem writeIn_hbm (h : a < 2 ^ 38) (d : List Byte) (arm : Bool) (mem : HbmOutcome) :
    writeIn u k n a d arm mem = hbmIn u k.port.val n a d mem := by
  simp only [writeIn, key, bne_self_eq_false, Bool.false_eq_true, if_false, targetAt_hbm h]

theorem readIn_hbm (h : a < 2 ^ 38) (len : Nat) (mem : HbmOutcome) : readIn u k n a len mem = hbmOut u k n a len mem := by
  simp only [readIn, key, bne_self_eq_false, Bool.false_eq_true, if_false, targetAt_hbm h]

theorem writeIn_cmd {q off : Nat} (target : targetAt a = .cmd q off) (d : List Byte) (arm : Bool) (mem : HbmOutcome) :
    writeIn u k n a d arm mem = cmdWrite u n q off d arm := by
  simp only [writeIn, key, bne_self_eq_false, Bool.false_eq_true, if_false, target]

/-- Control space of a connection without CTRL: a window failure, as the debug view is refused. -/
theorem writeIn_closed (plain : (connOf u n).ctrl = false) (d : List Byte) (arm : Bool) (mem : HbmOutcome) :
    (targetAt a = .ctrl → writeIn u k n a d arm mem = windowFail u k.port.val n a) ∧
      ∀ b off, targetAt a = .debug b off → writeIn u k n a d arm mem = accessFail u n := by
  refine ⟨fun target => ?_, fun b off target => ?_⟩
  · simp only [writeIn, key, bne_self_eq_false, Bool.false_eq_true, if_false, target, plain, Bool.not_false, if_true]
  · simp only [writeIn, key, bne_self_eq_false, Bool.false_eq_true, if_false, target, plain, Bool.false_and]

theorem readIn_closed (plain : (connOf u n).ctrl = false) (len : Nat) (mem : HbmOutcome) :
    (targetAt a = .ctrl → readIn u k n a len mem = windowFail u k.port.val n a) ∧
      ∀ b off, targetAt a = .debug b off → readIn u k n a len mem = accessFail u n := by
  refine ⟨fun target => ?_, fun b off target => ?_⟩
  · simp only [readIn, key, bne_self_eq_false, Bool.false_eq_true, if_false, target, plain, Bool.not_false, if_true]
  · simp only [readIn, key, bne_self_eq_false, Bool.false_eq_true, if_false, target, plain, Bool.false_and]

theorem writeIn_ctrl (ctrl : (connOf u n).ctrl = true) (target : targetAt a = .ctrl) {d : List Byte} (aligned : a % 4 = 0)
    (words : d.length % 4 = 0) (stays : staysIn a d.length = true) (still : restarts n a d.length = false) (arm : Bool) (mem : HbmOutcome) :
    writeIn u k n a d arm mem = acknowledge (ctrlWrite u a d) n (packetsOf d.length) := by
  have whole : ¬ (a % 4 ≠ 0 ∨ d.length % 4 ≠ 0 ∨ staysIn a d.length = false) := by simp [aligned, words, stays]
  simp only [writeIn, key, bne_self_eq_false, Bool.false_eq_true, if_false, target, ctrl, Bool.not_true, if_neg whole, still]

theorem readIn_ctrl (ctrl : (connOf u n).ctrl = true) (target : targetAt a = .ctrl) {len : Nat} (aligned : a % 4 = 0)
    (words : len % 4 = 0) (stays : staysIn a len = true) (mem : HbmOutcome) :
    readIn u k n a len mem = respond (ctrlRead (len / 4) a u).1 k n (ctrlRead (len / 4) a u).2 := by
  have whole : ¬ (a % 4 ≠ 0 ∨ len % 4 ≠ 0 ∨ staysIn a len = false) := by simp [aligned, words, stays]
  simp only [readIn, key, bne_self_eq_false, Bool.false_eq_true, if_false, target, ctrl, Bool.not_true, if_neg whole]

end Accepted

/-! ### HBM (R321, R330, R338) -/

theorem hbmRefused_of_plain {u : State} {n : Nat} (plain : (connOf u n).ctrl = false) (a len : Nat) :
    hbmRefused u n a len = (outside u (connOf u n).berth a (max 1 len)).map some := by
  simp only [hbmRefused, plain, Bool.false_eq_true, if_false]

theorem hbmIn_of_plain {u : State} {n a : Nat} {d : List Byte} (plain : (connOf u n).ctrl = false) (p : Nat) (mem : HbmOutcome) :
    (∀ x, outside u (connOf u n).berth a (max 1 d.length) = some x → hbmIn u p n a d mem = windowFail u p n x) ∧
      (outside u (connOf u n).berth a (max 1 d.length) = none →
        (stepRoom u [20] = false → hbmIn u p n a d mem = u) ∧
        (stepRoom u [20] = true → (∀ e ∈ u.quays, e.2.threads = []) →
          hbmIn u p n a d {} = hbmInEnd (hbmWrite u a d) p n d.length (partPoison u a d.length) true)) := by
  refine ⟨fun x refused => ?_, fun inside => ⟨fun full => ?_, fun room idle => ?_⟩⟩
  · simp only [hbmIn, hbmRefused_of_plain plain, refused, Option.map_some, hbmRefuse]
  · simp only [hbmIn, hbmRefused_of_plain plain, inside, Option.map_none, full, Bool.false_eq_true, if_false]
  · simp only [hbmIn, hbmRefused_of_plain plain, inside, Option.map_none, room, if_true, stepWrite_of_idle idle]

theorem readAllowed_of_clean {u : State} {a len : Nat} (w : Requester) (clean : poisonIn u a len = []) :
    readAllowed u w a len {} = (u, some (hbmRead u a len)) := by
  simp only [readAllowed, readFound, readErrors, odeccAdd, List.filter_nil, List.foldl_nil, if_true, clean, tget, map_zipIdx_fst]

theorem hbmOut_of_plain {u : State} {n a len : Nat} (plain : (connOf u n).ctrl = false) (k : Packet) (mem : HbmOutcome) :
    (∀ x, outside u (connOf u n).berth a (max 1 len) = some x → hbmOut u k n a len mem = windowFail u k.port.val n x) ∧
      (outside u (connOf u n).berth a (max 1 len) = none →
        (stepRoom u [20] = false → hbmOut u k n a len mem = u) ∧
        (stepRoom u [20] = true → poisonIn u a len = [] → hbmOut u k n a len {} = respond u k n (hbmRead u a len))) := by
  refine ⟨fun x refused => ?_, fun inside => ⟨fun full => ?_, fun room clean => ?_⟩⟩
  · simp only [hbmOut, hbmRefused_of_plain plain, refused, Option.map_some, hbmRefuse]
  · simp only [hbmOut, hbmRefused_of_plain plain, inside, Option.map_none, full, Bool.false_eq_true, if_false]
  · simp only [hbmOut, hbmRefused_of_plain plain, inside, Option.map_none, room, if_true, readAllowed_of_clean _ clean]

/-- Settles O33: an accepted access by the key, then by its target. -/
theorem inboundAccessIsChecked : Obligations.InboundAccessIsChecked := by
  unfold Obligations.InboundAccessIsChecked
  refine ⟨fun s u k a d mem dropped => congrArg Host.Outcome.next (inbound_of_dropped dropped _),
    fun s u k a len mem dropped => congrArg Host.Outcome.next (inbound_of_dropped dropped _), fun s u k n a d mem taken => ?_,
    fun s u k n a len mem taken => ?_⟩
  · have run : ∀ m, exec (.inboundRdmaWrite k a d m) s = .next (writeIn u k n a d false m) :=
      fun m => congrArg Host.Outcome.next (inbound_of_accepted taken _)
    refine ⟨fun key => ?_, fun key => ⟨fun low plain => ?_, fun target plain => ?_, fun b off target plain => ?_,
      fun ctrl target aligned words stays still => ?_⟩⟩
    · rw [run, writeIn_of_wrongKey key]
    · simp only [run, writeIn_hbm key low]
      obtain ⟨refused, within⟩ := hbmIn_of_plain (a := a) (d := d) plain k.port.val mem
      refine ⟨fun x out => by rw [refused x out], fun inside => ⟨fun full => by rw [(within inside).1 full], fun room idle => ?_⟩⟩
      rw [(within inside).2 room idle]
      exact ⟨fun clean => by rw [clean]; rfl, fun x bad => by rw [bad]; rfl⟩
    · rw [run, (writeIn_closed key plain d false mem).1 target]
    · rw [run, (writeIn_closed key plain d false mem).2 b off target]
    · rw [run, writeIn_ctrl key ctrl target aligned words stays still]
  · have run : ∀ m, exec (.inboundRdmaRead k a len m) s = .next (readIn u k n a len m) :=
      fun m => congrArg Host.Outcome.next (inbound_of_accepted taken _)
    refine ⟨fun key => ?_, fun key => ⟨fun low plain => ?_, fun target plain => ?_, fun b off target plain => ?_,
      fun ctrl target aligned words stays => ?_⟩⟩
    · rw [run, readIn_of_wrongKey key]
    · simp only [run, readIn_hbm key low]
      obtain ⟨refused, within⟩ := hbmOut_of_plain (a := a) (len := len) plain k mem
      exact ⟨fun x out => by rw [refused x out], fun inside => ⟨fun full => by rw [(within inside).1 full],
        fun room clean => by rw [(within inside).2 room clean]⟩⟩
    · rw [run, (readIn_closed key plain len mem).1 target]
    · rw [run, (readIn_closed key plain len mem).2 b off target]
    · rw [run, readIn_ctrl key ctrl target aligned words stays]

/-! ### Command memory (R248-R252, R618) -/

theorem isCmd_of_target {a q off : Nat} (target : targetAt a = .cmd q off) : isCmd a = true := by
  simp only [isCmd, target]

theorem slotCtx_lt {s : State} {q off c : Nat} (h : slotCtx s q off = some c) : c < 18 :=
  List.mem_range.mp (List.mem_of_find?_eq_some h)

theorem cmdWrite_of_refused {u : State} {n q off : Nat} {d : List Byte}
    (h : accessBerth u q off d.length = none ∨ wholeCommands off d.length = false) (arm : Bool) : cmdWrite u n q off d arm = accessFail u n := by
  cases berth : accessBerth u q off d.length with
  | none => simp only [cmdWrite, berth]
  | some b =>
    have cut : wholeCommands off d.length = false := h.resolve_left (by simp [berth])
    simp only [cmdWrite, berth, cut, Bool.not_false, Bool.true_or, if_true]

section Own

variable {u : State} {n q off b : Nat} {d : List Byte} (berth : accessBerth u q off d.length = some b)
  (whole : wholeCommands off d.length = true) (own : (connOf u n).berth = b ∨ (connOf u n).ctrl = true)
include berth whole own

/-- A write into a half that is in use raises its source, with the number of the context of its first slot. -/
theorem cmdWrite_of_busy (busy : halfWritable u q b (off / 0x40000) = false) : ∃ x, x < 2 ^ 16 ∧ ∀ arm,
    cmdWrite u n q off d arm = accessFail (raiseInbound u n 2 q 0x22 (b + off / 0x40000 * 16 + x * 2 ^ 8)) n := by
  refine ⟨(slotCtx u q (off % 0x40000 / 32)).getD 0, ?_, fun arm => ?_⟩
  · cases found : slotCtx u q (off % 0x40000 / 32) with
    | none => exact Nat.two_pow_pos 16
    | some c => exact Nat.lt_trans (slotCtx_lt found) (by decide)
  · have mine : (!wholeCommands off d.length || !((connOf u n).ctrl || (connOf u n).berth == b)) = false := by
      rcases own with h | h <;> simp [whole, h]
    simp only [cmdWrite, berth, mine, Bool.false_eq_true, if_false, busy, Bool.not_false, if_true]

theorem cmdWrite_of_writable (free : halfWritable u q b (off / 0x40000) = true) :
    cmdWrite u n q off d false = acknowledge { u with cmdMem := u.cmdMem.writeBytes (q * 0x80000 + off) d } n (packetsOf d.length) ∧
      cmdWrite u n q off d true = acknowledge (setHalf { u with cmdMem := u.cmdMem.writeBytes (q * 0x80000 + off) d } q b
        (off / 0x40000) { halfOf u q b (off / 0x40000) with armed := true, gen := (halfOf u q b (off / 0x40000)).gen + 1 })
        n (packetsOf d.length) := by
  have mine : (!wholeCommands off d.length || !((connOf u n).ctrl || (connOf u n).berth == b)) = false := by
    rcases own with h | h <;> simp [whole, h]
  constructor
  · simp only [cmdWrite, berth, mine, Bool.false_eq_true, if_false, free, Bool.not_true]
  · simp only [cmdWrite, berth, mine, Bool.false_eq_true, if_false, free, Bool.not_true, if_true] <;> rfl

end Own

/-- Settles O34: an access of command memory by `cmdWrite` and `cmdRead`, an immediate by `writeImm`. -/
theorem commandMemoryIsWrittenArmedAndRead : Obligations.CommandMemoryIsWrittenArmedAndRead := by
  unfold Obligations.CommandMemoryIsWrittenArmedAndRead
  refine ⟨fun s k a len d other => ⟨?_, ?_, ?_⟩, fun s u k a d dropped mine => ⟨?_, ?_⟩, fun s u k a len dropped mine => ?_,
    fun s u k n q off b a d imm mem taken key target => ?_, fun s u k n q off a len taken key target stays whole own => ?_,
    fun s u k n a d mem taken group => ?_⟩
  · simp only [exec, execCmdMemWrite, other, Bool.false_eq_true, if_false]
  · simp only [exec, execCmdHalfArm, other, Bool.false_eq_true, if_false]
  · simp only [exec, execCmdMemRead, other, Bool.false_eq_true, if_false]
  · simp only [exec, execCmdMemWrite, mine, if_true, inbound_of_dropped dropped]
  · simp only [exec, execCmdHalfArm, mine, if_true, inbound_of_dropped dropped]
  · simp only [exec, execCmdMemRead, mine, if_true, inbound_of_dropped dropped]
  · have write : exec (.cmdMemWrite k a d) s = .next (cmdWrite u n q off d false) := by
      simp only [exec, execCmdMemWrite, isCmd_of_target target, if_true, inbound_of_accepted taken, writeIn_cmd key target]
    have arm : exec (.cmdHalfArm k a d) s = .next (cmdWrite u n q off d true) := by
      simp only [exec, execCmdHalfArm, isCmd_of_target target, if_true, inbound_of_accepted taken, writeIn_cmd key target]
    rw [write, arm]
    refine ⟨fun refused => ⟨?_, ?_⟩, fun berth whole own => ⟨fun busy => ?_, fun free => ⟨?_, ?_, fun plain => ?_⟩⟩⟩
    · rw [cmdWrite_of_refused refused]
    · rw [cmdWrite_of_refused refused]
    · obtain ⟨x, small, fail⟩ := cmdWrite_of_busy berth whole own busy
      exact ⟨x, small, congrArg _ (fail false)⟩
    · rw [(cmdWrite_of_writable berth whole own free).1]
    · rw [(cmdWrite_of_writable berth whole own free).2]
    · have cond : (groupNames u n && imm == 0xC0110000) = false := by
        rcases plain with h | h
        · rw [h, Bool.false_and]
        · rw [beq_false_of_ne h, Bool.and_false]
      simp only [exec, execInboundWriteImm, inbound_of_accepted taken, writeImm, cond, Bool.false_eq_true, if_false, writeIn_cmd key target]
  · have mine : (wholeCommands off len && ((connOf u n).ctrl || accessBerth u q off len == some (connOf u n).berth)) = true := by
      rcases own with h | h <;> simp [whole, h]
    simp only [exec, execCmdMemRead, isCmd_of_target target, if_true, inbound_of_accepted taken, readIn, key, bne_self_eq_false,
      Bool.false_eq_true, if_false, target, stays, cmdRead, mine]
  · have cond : (groupNames u n && (0xC0110000 : Word) == 0xC0110000) = true := by simp [group]
    simp only [exec, execInboundWriteImm, inbound_of_accepted taken, writeImm, cond, if_true]

/-! ### Messages (R402, R491-R493) -/

/-- Settles O35: a SEND that is no ferry message goes to the landing of its connection. -/
theorem inboundSendReachesItsLanding : Obligations.InboundSendReachesItsLanding := by
  unfold Obligations.InboundSendReachesItsLanding
  refine fun s u k n d => ⟨fun dropped => congrArg Host.Outcome.next (inbound_of_dropped dropped _), fun taken => ?_⟩
  have run : exec (.inboundSend k d) s = .next (sendIn u n d) := congrArg Host.Outcome.next (inbound_of_accepted taken _)
  rw [run]
  refine ⟨fun long => ?_, fun l short plain hl => ?_⟩
  · simp only [sendIn, if_pos long]
  · subst hl
    have land : sendIn u n d = landMsg u n (if n = 0 ∨ (connOf u n).mgmt = true then 16 else (connOf u n).berth) d := by
      simp only [sendIn, if_neg (Nat.not_lt.mpr short), plain, Bool.false_and, Bool.false_eq_true, if_false]
    rw [land]
    generalize (if n = 0 ∨ (connOf u n).mgmt = true then 16 else (connOf u n).berth) = l
    refine ⟨fun full => ?_, fun opened room few cut => ?_, fun opened room few long => ?_⟩
    · have cond : ((landOf u l).closed || decide (64 ≤ (landOf u l).bufs.length) || decide (32 < (landOf u l).waiting.length)) = true := by
        rcases full with h | h | h <;> simp [h]
      simp only [landMsg, cond, if_true]
    · have cond : ((landOf u l).closed || decide (64 ≤ (landOf u l).bufs.length) || decide (32 < (landOf u l).waiting.length)) = false := by
        simp [opened, room, few]
      simp only [landMsg, cond, Bool.false_eq_true, if_false, if_neg (Nat.not_le.mpr cut)]
    · have cond : ((landOf u l).closed || decide (64 ≤ (landOf u l).bufs.length) || decide (32 < (landOf u l).waiting.length)) = false := by
        simp [opened, room, few]
      simp only [landMsg, cond, Bool.false_eq_true, if_false, if_pos long]

end Sys2Proof.Proofs
end

section
/-! Registers and SMBus: where the blocks lie, what writes and reads change (R16-R18, R34-R40, R228, R426, R461, R529, R609-R612)
(O37, O39). -/

namespace Sys2Proof.Proofs
open Sys2Proof Sys2Proof.Machine Sys2Proof.Safety Sys2Proof.Laws

/-! ### Where the blocks lie (R34) -/

theorem blockAt_eq_sc_iff {a o : Nat} (h : blockAt a = some (.sc, o)) : a = scBase + o := by
  unfold blockAt at h
  split at h
  · exact absurd h (by simp)
  split at h
  · exact absurd h (by simp)
  split at h
  · exact absurd h (by simp)
  split at h
  next inside =>
    have offset : a - scBase = o := by simpa using h
    omega
  iterate 5
    split at h
    · exact absurd h (by simp)
  exact absurd h (by simp)

/-- From the first quay on, the blocks are those of the quays, the decks and the ports. -/
theorem blockAt_of_units {a : Nat} (h : qyBase 0 ≤ a) : blockAt a =
    if qyBase 0 ≤ a ∧ a < qyBase 4 then some (.qy ((a - qyBase 0) / 0x100000), (a - qyBase 0) % 0x100000)
    else if dkBase 0 ≤ a ∧ a < dkBase 16 then some (.dk ((a - dkBase 0) / 0x10000), (a - dkBase 0) % 0x10000)
    else if ptBase 0 ≤ a ∧ a < ptBase 8 then some (.pt ((a - ptBase 0) / 0x10000), (a - ptBase 0) % 0x10000)
    else none := by
  have beyond : fcBase ≤ a ∧ ttBase ≤ a ∧ scBase ≤ a ∧ pwBase ≤ a ∧ mwBase ≤ a ∧ mwBase + 0x10000 ≤ a := by
    simp only [fcBase, ttBase, scBase, pwBase, mwBase, qyBase] at h ⊢
    omega
  obtain ⟨fc, tt, sc, pw, mw, units⟩ := beyond
  unfold blockAt
  rw [if_neg fun x => absurd x.2 (Nat.not_lt.mpr fc), if_neg fun x => absurd x.2 (Nat.not_lt.mpr tt),
    if_neg fun x => absurd x.2 (Nat.not_lt.mpr sc), if_neg fun x => absurd x.2 (Nat.not_lt.mpr pw),
    if_neg fun x => absurd x.2 (Nat.not_lt.mpr mw), if_neg fun x => absurd x.2 (Nat.not_lt.mpr units)]

theorem blockAt_qy {q o : Nat} (hq : q < 4) (ho : o < 0x100000) : blockAt (qyBase q + o) = some (.qy q, o) := by
  have place : qyBase 0 ≤ qyBase q + o ∧ qyBase q + o < qyBase 4 ∧ (qyBase q + o - qyBase 0) / 0x100000 = q ∧
      (qyBase q + o - qyBase 0) % 0x100000 = o := by
    simp only [qyBase]
    omega
  obtain ⟨lower, upper, quot, rest⟩ := place
  rw [blockAt_of_units lower, if_pos ⟨lower, upper⟩, quot, rest]

theorem blockAt_dk {d o : Nat} (hd : d < 16) (ho : o < 0x10000) : blockAt (dkBase d + o) = some (.dk d, o) := by
  have place : qyBase 4 ≤ dkBase d + o ∧ dkBase 0 ≤ dkBase d + o ∧ dkBase d + o < dkBase 16 ∧ (dkBase d + o - dkBase 0) / 0x10000 = d ∧
      (dkBase d + o - dkBase 0) % 0x10000 = o := by
    simp only [qyBase, dkBase]
    omega
  obtain ⟨units, lower, upper, quot, rest⟩ := place
  rw [blockAt_of_units (Nat.le_trans (by decide) units), if_neg fun x => absurd x.2 (Nat.not_lt.mpr units), if_pos ⟨lower, upper⟩, quot, rest]

theorem blockAt_pt {p o : Nat} (hp : p < 8) (ho : o < 0x10000) : blockAt (ptBase p + o) = some (.pt p, o) := by
  have place : qyBase 4 ≤ ptBase p + o ∧ dkBase 16 ≤ ptBase p + o ∧ ptBase 0 ≤ ptBase p + o ∧ ptBase p + o < ptBase 8 ∧
      (ptBase p + o - ptBase 0) / 0x10000 = p ∧ (ptBase p + o - ptBase 0) % 0x10000 = o := by
    simp only [qyBase, dkBase, ptBase]
    omega
  obtain ⟨units, decks, lower, upper, quot, rest⟩ := place
  rw [blockAt_of_units (Nat.le_trans (by decide) units), if_neg fun x => absurd x.2 (Nat.not_lt.mpr units),
    if_neg fun x => absurd x.2 (Nat.not_lt.mpr decks), if_pos ⟨lower, upper⟩, quot, rest]

theorem blockAt_mg {a : Nat} (lo : mgBase ≤ a) (hi : a < fcBase) : blockAt a = some (.mg, a - mgBase) := if_pos ⟨lo, hi⟩

/-! ### Writes -/

/-- The bits that DEBUG_REQ over SMBus tells apart from the control window are all that the two ways differ in. -/
theorem regWrite_smbus (s : State) {a : Nat} (h : a ≠ scBase + 4) (v : Word) : regWrite s true a v = regWrite s false a v := by
  unfold regWrite
  split
  · rfl
  · split
    case h_4 o block =>
      have other : o ≠ 4 := fun h4 => h (h4 ▸ blockAt_eq_sc_iff block)
      unfold scWrite
      rw [if_neg other, if_neg other]
    all_goals rfl

theorem regWrite_outside (s : State) (smbus : Bool) {a : Nat} (h : a % 4 ≠ 0 ∨ blockAt a = none) (v : Word) : regWrite s smbus a v = s := by
  unfold regWrite
  rcases h with h | h
  · rw [if_pos h]
  · split
    · rfl
    · simp only [h]

theorem regWrite_dk (s : State) (smbus : Bool) {d o : Nat} (hd : d < 16) (ho : o < 0x10000) (aligned : o % 4 = 0) (v : Word) :
    regWrite s smbus (dkBase d + o) v = dkWrite s d o v := by
  have word : (dkBase d + o) % 4 = 0 := by
    simp only [dkBase]
    omega
  simp only [regWrite, word, ne_eq, not_true_eq_false, if_false, blockAt_dk hd ho]

/-- The number of a double word made of two words. -/
theorem toNat_halves (hi lo : Nat) (h : hi < 2 ^ 32) (l : lo < 2 ^ 32) : (BitVec.ofNat 64 (hi * 2 ^ 32 + lo)).toNat = hi * 2 ^ 32 + lo := by
  rw [BitVec.toNat_ofNat]
  omega

/-- A write of a half of a norm accumulator. -/
theorem dkWrite_norm {s : State} {d i k : Nat} (fenced : deckFenced s d = false) (hi : i < 4) (hk : k = 0 ∨ k = 4) (v : Word) :
    dkWrite s d (0x200 + (8 * i + k)) v = setDeck s d { deckOf s d with nacc := tput (deckOf s d).nacc i (BitVec.ofNat 64
      (if k = 0 then (tget 0 (deckOf s d).nacc i).toNat / 2 ^ 32 * 2 ^ 32 + v.toNat
       else v.toNat * 2 ^ 32 + (tget 0 (deckOf s d).nacc i).toNat % 2 ^ 32)) } := by
  have inside : 0x200 ≤ 0x200 + (8 * i + k) ∧ (decide (0x200 + (8 * i + k) < 0x220) && !deckFenced s d) = true := by
    rw [fenced, decide_eq_true (by omega)]
    exact ⟨by omega, rfl⟩
  have index : (0x200 + (8 * i + k) - 0x200) / 8 = i := by omega
  have half : ((0x200 + (8 * i + k)) % 8 = 0) = (k = 0) := by
    rw [eq_iff_iff]
    omega
  have word := (tget 0 (deckOf s d).nacc i).isLt
  have upper : bits (tget 0 (deckOf s d).nacc i).toNat 63 32 = (tget 0 (deckOf s d).nacc i).toNat / 2 ^ 32 := by
    simp only [bits, Nat.shiftRight_eq_div_pow]
    omega
  have lower : bits (tget 0 (deckOf s d).nacc i).toNat 31 0 = (tget 0 (deckOf s d).nacc i).toNat % 2 ^ 32 := by
    simp only [bits, Nat.shiftRight_eq_div_pow]
    omega
  unfold dkWrite
  simp only [index, half, upper, lower]
  rw [if_pos inside]

/-- A half of a norm accumulator takes the word written, and the other half stays. -/
theorem regWrite_norm {s : State} {d i k : Nat} (hd : d < 16) (fenced : deckFenced s d = false) (hi : i < 4) (hk : k = 0 ∨ k = 4) (v : Word) :
    ∃ t, regWrite s false (dkBase d + (0x200 + (8 * i + k))) v = t ∧ t = { s with decks := t.decks } ∧
      deckOf t d = { deckOf s d with nacc := (deckOf t d).nacc } ∧
      (tget 0 (deckOf t d).nacc i).toNat =
        if k = 0 then (tget 0 (deckOf s d).nacc i).toNat / 2 ^ 32 * 2 ^ 32 + v.toNat
        else v.toNat * 2 ^ 32 + (tget 0 (deckOf s d).nacc i).toNat % 2 ^ 32 := by
  have word := (tget 0 (deckOf s d).nacc i).isLt
  have vlt := v.isLt
  refine ⟨_, (regWrite_dk s false hd (by omega) (by omega) v).trans (dkWrite_norm fenced hi hk v), rfl, ?_, ?_⟩
  · rw [deckOf_setDeck, if_pos rfl]
  · rw [deckOf_setDeck, if_pos rfl]
    dsimp only
    rw [tget_tput_same]
    split
    · exact toNat_halves _ _ (by omega) (by omega)
    · exact toNat_halves _ _ (by omega) (by omega)

/-- A class written to a source that has one. -/
theorem sevWrite_spec (s : State) {n d : Nat} (hd : faultDefault n = some d) (v : Word) :
    sevWrite s n v = { s with rw := (sevWrite s n v).rw } ∧
      faultClass (sevWrite s n v) n = (if 5 < bits v.toNat 2 0 ∨ (faultRaiseOnly n = true ∧ bits v.toNat 2 0 < d) then faultClass s n
        else bits v.toNat 2 0) ∧
      ∀ a, a ≠ fcSevAddr n → tget 0 (sevWrite s n v).rw a = tget 0 s.rw a := by
  simp only [sevWrite, hd]
  split
  · exact ⟨rfl, rfl, fun _ _ => rfl⟩
  · refine ⟨rfl, ?_, fun a other => tget_tput_ne _ _ _ _ _ other.symm⟩
    have small : bits v.toNat 2 0 < 8 := Nat.mod_lt _ (by decide)
    rw [faultClass, regGet_regSet, if_pos rfl, BitVec.toNat_ofNat]
    omega

/-- Coordinates taken: the register as written, and the end of the Coordinates phase. -/
theorem coordWrite_spec {s : State} (h : regBits s (mgBase + 0x20) 31 31 = 0) (v : Word) :
    coordWrite s v = { s with rw := (coordWrite s v).rw, boot := (coordWrite s v).boot } ∧
      (coordWrite s v).boot = { s.boot with phase := if bit v.toNat 31 = true ∧ s.boot.phase = 5 then 6 else s.boot.phase } := by
  have open_ : ¬ regBits s (mgBase + 0x20) 31 31 = 1 := by omega
  unfold coordWrite
  rw [if_neg open_]
  dsimp only
  split
  next ends =>
    have ends' : bit v.toNat 31 = true ∧ s.boot.phase = 5 := by simpa using ends
    exact ⟨rfl, by rw [if_pos ends']; rfl⟩
  next goes =>
    have goes' : ¬ (bit v.toNat 31 = true ∧ s.boot.phase = 5) := by simpa using goes
    exact ⟨rfl, by rw [if_neg goes']; rfl⟩

/-- Settles O37: each register by the lemma about its write. -/
theorem registerWritesFollowTheirFields : Obligations.RegisterWritesFollowTheirFields := by
  unfold Obligations.RegisterWritesFollowTheirFields
  refine fun s v => ⟨fun a out => congrArg Host.Outcome.next (regWrite_outside s false out v), fun n hn none => ?_, fun n d hn some_ => ?_,
    fun valid => congrArg Host.Outcome.next (coordWrite_of_valid valid v), fun free => ?_, congrArg Host.Outcome.next (regWrite_coord s false v),
    fun d i hd hi fenced => ⟨?_, ?_⟩, fun b => ⟨fun busy => ?_, fun idle => ?_⟩, fun i n pec => ⟨fun bad => ?_, fun up other => ?_⟩⟩
  · refine congrArg Host.Outcome.next ((regWrite_sev s false v hn).trans ?_)
    simp only [sevWrite, none]
  · exact ⟨_, congrArg Host.Outcome.next (regWrite_sev s false v hn), sevWrite_spec s some_ v⟩
  · obtain ⟨shape, boot⟩ := coordWrite_spec free v
    exact ⟨_, rfl, shape, regGet_coordWrite_of_not_valid (by omega) v, boot⟩
  · obtain ⟨t, run, shape, deck, value⟩ := regWrite_norm hd fenced hi (.inl rfl) v
    rw [Nat.add_zero, ← Nat.add_assoc] at run
    exact ⟨t, congrArg Host.Outcome.next run, shape, deck, value⟩
  · obtain ⟨t, run, shape, deck, value⟩ := regWrite_norm hd fenced hi (.inr rfl) v
    have address : dkBase d + (0x200 + (8 * i + 4)) = dkBase d + 0x204 + 8 * i := by omega
    rw [address] at run
    exact ⟨t, congrArg Host.Outcome.next run, shape, deck, value⟩
  · show Host.Outcome.next (holdReset s b) = _
    simp only [holdReset, beq_eq_false_iff_ne.mpr busy, Bool.false_eq_true, if_false]
  · refine ⟨resetHold s b, ?_, rfl, fun c other => ?_, ?_⟩
    · show Host.Outcome.next (holdReset s b) = _
      simp only [holdReset, beq_iff_eq, idle, if_true]
    · simp only [resetHold, setHold, berthOf_setBerth, if_neg other.symm]
    · simp only [resetHold, setHold, berthOf_setBerth, if_true]
      exact ⟨rfl, rfl, trivial⟩
  · have cond : (smbusUp s && n == 6 && pec) = false := by
      rcases bad with h | h | h <;> simp [h]
    simp only [exec, execSmbRegWrite, cond, Bool.false_eq_true, if_false]
  · simp only [exec, execSmbRegWrite, up, beq_self_eq_true, Bool.and_self, if_true, execRegisterWrite, regWrite_smbus s other]

/-! ### Reads -/

theorem execRead_of_closed {s : State} {a : Nat} (h : regOpen s a = false) : exec (.rcRegisterRead a) s = .next (readEffect s a) := by
  simp only [exec, execRcRegisterRead, regRead, h, Bool.false_eq_true, if_false]

theorem mod_four_ptBase (p o : Nat) (h : o % 4 = 0) : (ptBase p + o) % 4 = 0 := by
  simp only [ptBase]
  omega

theorem mod_four_qyBase (q o : Nat) (h : o % 4 = 0) : (qyBase q + o) % 4 = 0 := by
  simp only [qyBase]
  omega

theorem mod_four_dkBase (d o : Nat) (h : o % 4 = 0) : (dkBase d + o) % 4 = 0 := by
  simp only [dkBase]
  omega

/-- An address that holds no register reads as zero, and a read of it changes nothing. -/
theorem read_outside (s : State) {a : Nat} (h : a % 4 ≠ 0 ∨ blockAt a = none) :
    regValue s a = 0 ∧ exec (.rcRegisterRead a) s = .next s := by
  by_cases cut : a % 4 = 0
  · have none := h.resolve_left (not_not_intro cut)
    constructor
    · simp only [regValue, cut, none, ne_eq, not_true_eq_false, if_false] <;>
      rfl
    · rw [execRead_of_closed (by simp only [regOpen, none, Bool.and_false])]
      simp only [readEffect, none, ite_self]
  · constructor
    · simp only [regValue, ne_eq, cut, not_false_eq_true, if_true]
    · rw [execRead_of_closed (by simp only [regOpen, beq_eq_false_iff_ne.mpr cut, Bool.false_and])]
      simp only [readEffect, ne_eq, cut, not_false_eq_true, if_true]

/-! #### Ports -/

theorem regValue_pt (s : State) {p o : Nat} (hp : p < 8) (ho : o < 0x10000) (aligned : o % 4 = 0) :
    regValue s (ptBase p + o) = BitVec.ofNat 32 (ptValue s p o) := by
  simp only [regValue, mod_four_ptBase p o aligned, ne_eq, not_true_eq_false, if_false, blockAt_pt hp ho]

theorem execRead_pt (s : State) {p o : Nat} (hp : p < 8) (ho : o < 0x10000) (aligned : o % 4 = 0) :
    exec (.rcRegisterRead (ptBase p + o)) s = .next (ptClear s p o) := by
  rw [execRead_of_closed (by simp only [regOpen, blockAt_pt hp ho, Bool.and_false])]
  simp only [readEffect, mod_four_ptBase p o aligned, ne_eq, not_true_eq_false, if_false, blockAt_pt hp ho]

/-- A port whose counters alone differ. -/
structure SamePort (x y : Port) : Prop where
  state : y.state = x.state
  qcause : y.qcause = x.qcause
  swap : y.swap = x.swap
  links : y.links = x.links
  laneFenced : y.laneFenced = x.laneFenced

/-- A port whose counter at an offset of its block does not differ (R413). -/
structure SameCounter (x y : Port) (o : Nat) : Prop where
  fecCorr : o = 0x40 → y.fecCorr = x.fecCorr
  fecUncorr : o = 0x44 → y.fecUncorr = x.fecUncorr
  rxDrop : o = 0x48 → y.rxDrop = x.rxDrop
  linkDown : o = 0x4C → y.linkDown = x.linkDown
  sailLate : o = 0x50 → y.sailLate = x.sailLate
  laneRetry : o = 0x58 → y.laneRetry = x.laneRetry

/-- What a port's registers read depends on the port's counter at the offset, and on the port but its counters. -/
theorem ptValue_congr (s : State) (p : Nat) (y : Port) {r o : Nat} (same : SamePort (portOf s r) (portOf (setPort s p y) r))
    (counter : SameCounter (portOf s r) (portOf (setPort s p y) r) o) : ptValue (setPort s p y) r o = ptValue s r o := by
  obtain ⟨state, qcause, swap, links, fenced⟩ := same
  have link : ∀ k, linkOf (setPort s p y) r k = linkOf s r k := fun k => by rw [linkOf, linkOf, links]
  have lport : lportOf (setPort s p y) r = lportOf s r := by rw [lportOf, lportOf, swap]
  have code : portCode (setPort s p y) r = portCode s r := by
    simp only [portCode, state]
    rfl
  have carried : ptCarried (setPort s p y) r = ptCarried s r := by
    unfold ptCarried
    rw [lport, state]
    rfl
  have card : cardOn (setPort s p y) r = cardOn s r := by simp only [cardOn, link]
  have up : ∀ k, linkUp (setPort s p y) r k = linkUp s r k := fun k => by rw [linkUp, linkUp, link]
  unfold ptValue
  simp only [code, carried, card, up, qcause, fenced]
  refine ite_congr rfl (fun _ => rfl) fun _ => ite_congr rfl (fun _ => rfl) fun _ => ite_congr rfl (fun _ => rfl) fun _ =>
    ite_congr rfl (fun _ => rfl) fun _ => ite_congr rfl (fun _ => rfl) fun _ => ite_congr rfl (fun _ => rfl) fun _ =>
    ite_congr rfl (fun h => congrArg _ (counter.fecCorr h)) fun _ => ite_congr rfl (fun h => congrArg _ (counter.fecUncorr h)) fun _ =>
    ite_congr rfl (fun h => congrArg _ (counter.rxDrop h)) fun _ => ite_congr rfl (fun h => congrArg _ (counter.linkDown h)) fun _ =>
    ite_congr rfl (fun h => congrArg _ (counter.sailLate h)) fun _ => ite_congr rfl (fun _ => rfl) fun _ =>
    ite_congr rfl (fun h => congrArg _ (counter.laneRetry h)) fun _ => rfl

/-- A counter of a port cleared leaves what every other register of a port reads. -/
theorem ptValue_setPort {s : State} {p : Nat} {y : Port} (same : SamePort (portOf s p) y) {r o : Nat}
    (counter : r = p → SameCounter (portOf s p) y o) : ptValue (setPort s p y) r o = ptValue s r o := by
  by_cases own : r = p
  · have port : portOf (setPort s p y) r = y := by rw [portOf_setPort, if_pos own.symm]
    exact ptValue_congr s p y (by rw [port, own]; exact same) (by rw [port, own]; exact counter own)
  · have port : portOf (setPort s p y) r = portOf s r := by rw [portOf_setPort, if_neg (Ne.symm own)]
    exact ptValue_congr s p y (by rw [port]; exact ⟨rfl, rfl, rfl, rfl, rfl⟩)
      (by rw [port]; exact ⟨fun _ => rfl, fun _ => rfl, fun _ => rfl, fun _ => rfl, fun _ => rfl, fun _ => rfl⟩)


/-- A read of an RC register of a fitted port clears it. -/
theorem ptClear_spec {s : State} {p o : Nat} (fitted : fittedPort s p = true) (ho : o ∈ [0x40, 0x44, 0x48, 0x4C, 0x50, 0x58]) :
    ∃ y, ptClear s p o = setPort s p y ∧ SamePort (portOf s p) y ∧ (∀ o', o' ≠ o → SameCounter (portOf s p) y o') ∧
      ptValue (setPort s p y) p o = 0 := by
  have port : ∀ y, portOf (setPort s p y) p = y := fun y => by rw [portOf_setPort, if_pos rfl]
  have fit : ∀ y, fittedPort (setPort s p y) p = true := fun _ => fitted
  simp only [List.mem_cons, List.not_mem_nil, or_false] at ho
  rcases ho with rfl | rfl | rfl | rfl | rfl | rfl
  · exact ⟨{ portOf s p with fecCorr := 0 }, by simp [ptClear, fitted], ⟨rfl, rfl, rfl, rfl, rfl⟩, fun o' ne =>
      ⟨fun h => absurd h ne, fun _ => rfl, fun _ => rfl, fun _ => rfl, fun _ => rfl, fun _ => rfl⟩, by simp [ptValue, port, fit]⟩
  · exact ⟨{ portOf s p with fecUncorr := 0 }, by simp [ptClear, fitted], ⟨rfl, rfl, rfl, rfl, rfl⟩, fun o' ne =>
      ⟨fun _ => rfl, fun h => absurd h ne, fun _ => rfl, fun _ => rfl, fun _ => rfl, fun _ => rfl⟩, by simp [ptValue, port, fit]⟩
  · exact ⟨{ portOf s p with rxDrop := 0 }, by simp [ptClear, fitted], ⟨rfl, rfl, rfl, rfl, rfl⟩, fun o' ne =>
      ⟨fun _ => rfl, fun _ => rfl, fun h => absurd h ne, fun _ => rfl, fun _ => rfl, fun _ => rfl⟩, by simp [ptValue, port, fit]⟩
  · exact ⟨{ portOf s p with linkDown := 0 }, by simp [ptClear, fitted], ⟨rfl, rfl, rfl, rfl, rfl⟩, fun o' ne =>
      ⟨fun _ => rfl, fun _ => rfl, fun _ => rfl, fun h => absurd h ne, fun _ => rfl, fun _ => rfl⟩, by simp [ptValue, port, fit]⟩
  · exact ⟨{ portOf s p with sailLate := 0 }, by simp [ptClear, fitted], ⟨rfl, rfl, rfl, rfl, rfl⟩, fun o' ne =>
      ⟨fun _ => rfl, fun _ => rfl, fun _ => rfl, fun _ => rfl, fun h => absurd h ne, fun _ => rfl⟩, by simp [ptValue, port, fit]⟩
  · exact ⟨{ portOf s p with laneRetry := 0 }, by simp [ptClear, fitted], ⟨rfl, rfl, rfl, rfl, rfl⟩, fun o' ne =>
      ⟨fun _ => rfl, fun _ => rfl, fun _ => rfl, fun _ => rfl, fun _ => rfl, fun h => absurd h ne⟩, by simp [ptValue, port, fit]⟩

theorem regValue_setPort {s : State} {p o : Nat} {y : Port} (same : SamePort (portOf s p) y)
    (rest : ∀ o', o' ≠ o → SameCounter (portOf s p) y o') {r o' : Nat} (hr : r < 8) (ho : o' < 0x10000) (ne : (r, o') ≠ (p, o)) :
    regValue (setPort s p y) (ptBase r + o') = regValue s (ptBase r + o') := by
  by_cases aligned : o' % 4 = 0
  · rw [regValue_pt _ hr ho aligned, regValue_pt _ hr ho aligned,
      ptValue_setPort same fun own => rest o' fun h => ne (Prod.ext own h)]
  · have cut : (ptBase r + o') % 4 ≠ 0 := by
      simp only [ptBase]
      omega
    rw [(read_outside _ (.inl cut)).1, (read_outside _ (.inl cut)).1]

/-! #### Stacks, decks and the rest -/

/-- A read of a counter of a stack clears it. -/
theorem read_stack (s : State) {k o : Nat} (hk : k < 16) (ho : o ∈ [4, 8, 0xC]) :
    ∃ t, exec (.rcRegisterRead (qyBase (k / 4) + (0x200 + 16 * (k % 4) + o))) s = .next t ∧ t = { s with stk := t.stk } ∧
      regValue t (qyBase (k / 4) + (0x200 + 16 * (k % 4) + o)) = 0 := by
  have small : o = 4 ∨ o = 8 ∨ o = 0xC := by simpa using ho
  have aligned : (qyBase (k / 4) + (0x200 + 16 * (k % 4) + o)) % 4 = 0 := mod_four_qyBase _ _ (by omega)
  have block : blockAt (qyBase (k / 4) + (0x200 + 16 * (k % 4) + o)) = some (.qy (k / 4), 0x200 + 16 * (k % 4) + o) :=
    blockAt_qy (by omega) (by omega)
  have stack : 4 * (k / 4) + (0x200 + 16 * (k % 4) + o - 0x200) / 16 = k := by omega
  have offset : (0x200 + 16 * (k % 4) + o) % 16 = o := by omega
  have run : exec (.rcRegisterRead (qyBase (k / 4) + (0x200 + 16 * (k % 4) + o))) s = .next (stackClear s k o) := by
    rw [execRead_of_closed (by simp only [regOpen, block, Bool.and_false])]
    simp only [readEffect, aligned, ne_eq, not_true_eq_false, if_false, block, stack, offset]
    rw [if_pos ⟨by omega, by omega⟩]
  have value : ∀ t : State, regValue t (qyBase (k / 4) + (0x200 + 16 * (k % 4) + o)) = BitVec.ofNat 32 (stackValue t k o) := fun t => by
    have field : qyValue t (k / 4) (0x200 + 16 * (k % 4) + o) = stackValue t k o := by
      unfold qyValue
      rw [if_neg (by omega), if_neg (by omega), if_neg (by omega), if_pos (by omega), stack, offset]
    simp only [regValue, aligned, ne_eq, not_true_eq_false, if_false, block, field]
  refine ⟨stackClear s k o, run, ?_, ?_⟩
  · unfold stackClear
    dsimp only
    repeat' split
    all_goals rfl
  · rw [value]
    by_cases there : populated s k = true
    · have there' : ∀ x, populated (setStack s k x) k = true := fun _ => there
      rcases small with rfl | rfl | rfl <;> simp [stackClear, stackValue, there, there']
    · have gone : populated s k = false := by simpa using there
      simp [stackClear, stackValue, gone]

/-- A read of a count of skipped blocks of a deck that is not fenced. -/
theorem read_deck {s : State} {d o : Nat} (hd : d < 16) (fenced : deckFenced s d = false) (ho : o = 0x48 ∨ o = 0x4C) :
    exec (.rcRegisterRead (dkBase d + o)) s =
      .next (if o = 0x48 then setDeck s d { deckOf s d with skipMiss := 0 } else setDeck s d { deckOf s d with skipDone := 0 }) := by
  have block : blockAt (dkBase d + o) = some (.dk d, o) := blockAt_dk hd (by omega)
  have aligned : (dkBase d + o) % 4 = 0 := mod_four_dkBase _ _ (by omega)
  rw [execRead_of_closed (by simp only [regOpen, block, fenced, Bool.false_and, Bool.and_false])]
  simp only [readEffect, aligned, ne_eq, not_true_eq_false, if_false, block, fenced, Bool.false_eq_true]
  rcases ho with rfl | rfl <;> rfl

theorem read_mg (s : State) {a : Nat} (lo : mgBase ≤ a) (hi : a < fcBase) : exec (.rcRegisterRead a) s = .next s := by
  rw [execRead_of_closed (by simp only [regOpen, blockAt_mg lo hi, Bool.and_false])]
  simp only [readEffect, blockAt_mg lo hi, ite_self]

/-- What a read changes leaves what the module has sent, and the SMBus port. -/
theorem readEffect_only (s : State) (a : Nat) : readEffect s a = { s with
    fc := (readEffect s a).fc, time := (readEffect s a).time, pw := (readEffect s a).pw, berths := (readEffect s a).berths,
    stk := (readEffect s a).stk, decks := (readEffect s a).decks, ports := (readEffect s a).ports } := by
  unfold readEffect stackClear ptClear
  dsimp only
  split
  · rfl
  · split
    case h_8 => rfl
    all_goals
      repeat' split
      all_goals rfl

theorem regRead_keeps (s : State) (a : Nat) :
    (regRead s a).2 = regValue s a ∧ (regRead s a).1.out = s.out ∧ (regRead s a).1.smb = s.smb := by
  refine ⟨rfl, ?_, ?_⟩
  · simp only [regRead]
    rw [readEffect_only]
    split <;> rfl
  · simp only [regRead]
    rw [readEffect_only]
    split <;> rfl

/-- A read of TT_NOW_LO latches the upper half of tide time. -/
theorem read_now (s : State) : exec .ttNowLoRead s =
    .next { s with time := { s.time with latchHi := BitVec.ofNat 32 (bits s.time.tide 63 32) } } := by
  have block : blockAt ttBase = some (.tt, 0) := by decide
  have aligned : ttBase % 4 = 0 := by decide
  have closed : regOpen s ttBase = false := by simp only [regOpen, block, Bool.and_false]
  simp only [exec, execTtNowLoRead, regRead, closed, Bool.false_eq_true, if_false, readEffect, aligned, ne_eq, not_true_eq_false, block, if_true]
  rfl

/-- Settles O39: what a read clears by the block of its address. -/
theorem registerReadsClearAndLatch : Obligations.RegisterReadsClearAndLatch := by
  unfold Obligations.RegisterReadsClearAndLatch
  refine fun s => ⟨fun a out => read_outside s out, ?_, ?_, ?_, fun p o hp fitted ho => ?_, fun k o hk ho => ?_, fun d hd fenced => ⟨?_, ?_⟩,
    fun a lo hi => read_mg s lo hi, ?_, fun i n pec => ?_, fun down => ?_, fun up => ?_⟩
  · have block : blockAt (fcBase + 8) = some (.fc, 8) := by decide
    have aligned : (fcBase + 8) % 4 = 0 := by decide
    rw [execRead_of_closed (by simp only [regOpen, block, Bool.and_false])]
    simp only [readEffect, aligned, ne_eq, not_true_eq_false, if_false, block, if_true]
  · have block : blockAt (pwBase + 0xC) = some (.pw, 0xC) := by decide
    have aligned : (pwBase + 0xC) % 4 = 0 := by decide
    have closed : regOpen s (pwBase + 0xC) = false := by simp [regOpen, block]
    rw [execRead_of_closed closed]
    simp only [readEffect, aligned, ne_eq, not_true_eq_false, if_false, block, if_true]
  · have block : blockAt (ttBase + 0x14) = some (.tt, 0x14) := by decide
    have aligned : (ttBase + 0x14) % 4 = 0 := by decide
    rw [execRead_of_closed (by simp only [regOpen, block, Bool.and_false])]
    simp only [readEffect, aligned, ne_eq, not_true_eq_false, if_false, block, Nat.reduceEqDiff, if_true]
    rfl
  · have place : o < 0x10000 ∧ o % 4 = 0 := by
      simp only [List.mem_cons, List.not_mem_nil, or_false] at ho
      omega
    obtain ⟨y, clear, same, rest, zero⟩ := ptClear_spec fitted ho
    refine ⟨setPort s p y, (execRead_pt s hp place.1 place.2).trans (congrArg _ clear), rfl, ?_, fun r o' hr ho' ne =>
      regValue_setPort same rest hr ho' ne⟩
    rw [regValue_pt _ hp place.1 place.2, zero]
    rfl
  · obtain ⟨t, run, shape, zero⟩ := read_stack s hk ho
    simp only [← Nat.add_assoc] at run zero
    exact ⟨t, run, shape, zero⟩
  · exact read_deck hd fenced (.inl rfl)
  · exact read_deck hd fenced (.inr rfl)
  · have high : blockAt (ttBase + 4) = some (.tt, 4) := by decide
    have low : blockAt ttBase = some (.tt, 0) := by decide
    have aligned : (ttBase + 4) % 4 = 0 ∧ ttBase % 4 = 0 := by decide
    refine ⟨_, read_now s, rfl, ?_, ?_⟩
    · simp only [regValue, aligned, ne_eq, not_true_eq_false, if_false, high, ttValue, Nat.reduceEqDiff, if_true, bits,
        Nat.shiftRight_eq_div_pow, BitVec.toNat_ofNat, Nat.mod_mod]
    · simp only [regValue, aligned, ne_eq, not_true_eq_false, if_false, low, ttValue, if_true, bits, BitVec.toNat_ofNat, Nat.shiftRight_zero,
        Nat.mod_mod]
  · simp only [exec, execSmbRegPoint, Bool.and_eq_true, beq_iff_eq, and_assoc]
  · simp only [exec, execSmbRegRead, down, Bool.false_eq_true, if_false]
  · obtain ⟨v, out, smb⟩ := regRead_keeps s (indexAddr s.smb.pointer.toNat)
    refine ⟨smbRead s, ?_, ?_, ?_, BitVec.toNat_add s.smb.pointer 1⟩
    · simp only [exec, execSmbRegRead, up, if_true]
    · have back : ∀ r : State, r.out = s.out → r.smb = s.smb → { r with out := s.out, smb := s.smb } = r := fun r h1 h2 => by
        rw [← h1, ← h2]
      exact congrArg Host.Outcome.next (back _ out smb).symm
    · show (regRead s (indexAddr s.smb.pointer.toNat)).1.out ++ [.smbus (regRead s (indexAddr s.smb.pointer.toNat)).2] = _
      rw [out, v]

end Sys2Proof.Proofs
end

section
/-! Management commands: connection 0, the clearing of records, debug, policy, and SMBus alerts (R405, R541, R582, R585, R609-R612) (O40). -/

namespace Sys2Proof.Proofs
open Sys2Proof Sys2Proof.Machine Sys2Proof.Safety Sys2Proof.Laws

/-! ### What the failure of requests changes -/

/-- The state but what the failure of a request changes: runs, holds, decks, threads, transactions and occurrences. -/
def withoutWork (s : State) : State :=
  { s with runs := [], berths := [], decks := [], quays := [], trk := [], fabric := {}, occ := [], ends := [] }

theorem withoutWork_raise (s : State) (level unit code : Nat) (berth : Option Nat) (task : Option Word) (detail : Nat) :
    withoutWork (raise s level unit code berth task detail) = withoutWork s := by rw [raise_only]; rfl

theorem withoutWork_failRemote (s : State) (id page : Nat) : withoutWork (failRemote s id page) = withoutWork s := by
  unfold failRemote
  split
  · split
    · rfl
    · exact withoutWork_raise ..
  · rfl

theorem withoutWork_failRun (s : State) (id : Nat) : withoutWork (failRun s id) = withoutWork s := by
  unfold failRun
  split
  · rw [inuseDown_only]
    rfl
  · rfl

theorem withoutWork_loseRun (s : State) (id : Nat) : withoutWork (loseRun s id) = withoutWork s := by
  unfold loseRun
  split
  · dsimp only
    split
    · exact withoutWork_failRun ..
    · rfl
  · rfl

theorem withoutWork_stopRecall (s : State) (id : Nat) : withoutWork (stopRecall s id) = withoutWork s := by
  unfold stopRecall
  split <;> rfl

theorem withoutWork_failReq (s : State) (x : OutReq) : withoutWork (failReq s x) = withoutWork s := by
  unfold failReq
  split
  · exact withoutWork_loseRun ..
  · exact withoutWork_loseRun ..
  · dsimp only
    split
    · exact withoutWork_failRemote ..
    · exact withoutWork_failRemote ..
  · exact (withoutWork_stopRecall ..).trans (withoutWork_failRemote ..)
  · rfl

/-- What does not depend on what a failing request changes is as it was. -/
theorem of_withoutWork {α : Type} (part : State → α) (h : ∀ s, part (withoutWork s) = part s) {s t : State}
    (k : withoutWork t = withoutWork s) : part t = part s := by
  rw [← h t, k, h s]

/-! ### Connection 0 (R405) -/

/-- The outstanding requests of connection 0 fail, and of connections, registers and rings nothing else changes. -/
theorem withoutWork_failMgmt (s : State) : withoutWork (failMgmt s) = withoutWork (setConn s 0 { connOf s 0 with reqs := [] }) :=
  foldl_keeps (f := failReq) withoutWork withoutWork_failReq _ _

theorem regGet_failMgmt (s : State) (a : Nat) : regGet (failMgmt s) a = regGet s a :=
  (of_withoutWork (fun t => regGet t a) (fun _ => rfl) (withoutWork_failMgmt s)).trans (regGet_setConn ..)

theorem connOf_failMgmt (s : State) : connOf (failMgmt s) 0 = { connOf s 0 with reqs := [] } :=
  (of_withoutWork (fun t => connOf t 0) (fun _ => rfl) (withoutWork_failMgmt s)).trans ((connOf_setConn ..).trans (if_pos rfl))

theorem regGet_ctlFields (s : State) (v : Word) (a : Nat) (h : a ≠ mgBase + 0x17C) : regGet (ctlFields s v) a = regGet s a := by
  rw [ctlFields, regGet_regSet, if_neg h.symm]

/-- The fields that MG_MGMT_CTL takes from a write (R18, R405). -/
theorem ctlFields_spec (s : State) (v : Word) :
    regBits (ctlFields s v) (mgBase + 0x17C) 30 28 = bits v.toNat 30 28 ∧ regBits (ctlFields s v) (mgBase + 0x17C) 27 26 = bits v.toNat 27 26 ∧
      regBits (ctlFields s v) (mgBase + 0x17C) 21 19 = bits v.toNat 21 19 ∧ regBits (ctlFields s v) (mgBase + 0x17C) 25 22 =
        if bits v.toNat 25 22 = 0 then bits (regGet s (mgBase + 0x17C)).toNat 25 22 else bits v.toNat 25 22 := by
  have small : (if bits v.toNat 25 22 = 0 then bits (regGet s (mgBase + 0x17C)).toNat 25 22 else bits v.toNat 25 22) < 16 := by
    split <;> exact Nat.mod_lt _ (by decide)
  have lt := v.isLt
  simp only [regBits, ctlFields, regGet_regSet, if_true, BitVec.toNat_ofNat]
  generalize (if bits v.toNat 25 22 = 0 then bits (regGet s (mgBase + 0x17C)).toNat 25 22 else bits v.toNat 25 22) = tmo at small ⊢
  simp only [bits, Nat.shiftRight_eq_div_pow]
  omega

/-- The fields of MG_MGMT_CTL other than VALID are those of the value written. -/
theorem bits_or_valid (v : Word) {hi lo : Nat} (h : hi < 31) (l : lo ≤ hi) : bits (v ||| 0x80000000).toNat hi lo = bits v.toNat hi lo := by
  apply Nat.eq_of_testBit_eq
  intro i
  simp only [bits, Nat.testBit_mod_two_pow, Nat.testBit_shiftRight, BitVec.toNat_or, Nat.testBit_or]
  by_cases c : i < hi + 1 - lo
  · have clear : (0x80000000 : Word).toNat.testBit (lo + i) = false :=
      (Nat.testBit_two_pow (n := 31)).trans (decide_eq_false (by omega))
    rw [clear, Bool.or_false]
  · rw [decide_eq_false c, Bool.false_and, Bool.false_and]

/-- The state in which connection 0 starts afresh. -/
theorem mgmtRestart_spec (s : State) (v : Word) (a : Nat) (h : a ≠ mgBase + 0x17C) :
    regGet (failMgmt (ctlFields (dropHeld s 0) v)) a = regGet s a := by
  rw [regGet_failMgmt, regGet_ctlFields _ _ _ h]
  rfl

theorem connOf_mgmtRestart (s : State) (v : Word) :
    connOf (mgmtRestart s v) 0 = mgmtConn (failMgmt (ctlFields (dropHeld s 0) v)) := by
  unfold mgmtRestart
  exact tget_tput_same ..

/-! ### SMBus alerts (R612) -/

theorem alertN_answered (s : State) : alertN { s with pw := { s.pw with answered := true } } = false := by
  simp only [alertN, Bool.not_true, Bool.and_false]

theorem mayReport_noteReport (s : State) (code key : Nat) {every : Nat} (h : 0 < every) : mayReport (noteReport s code key) code key every = false := by
  unfold mayReport noteReport
  simp only [List.find?_cons, beq_self_eq_true]
  exact decide_eq_false (by omega)

/-- Settles O40: each command by the lemma about its function; connection 0 by what the failure of requests leaves. -/
theorem managementCommandsExecute : Obligations.ManagementCommandsExecute := by
  unfold Obligations.ManagementCommandsExecute
  refine fun s v => ⟨?_, ?_, fun n => ?_, ?_, fun o debug => ?_, fun o plain => ?_, fun locked => ?_, fun free => ?_, ?_, fun t run up => ?_,
    fun c low up may => ?_, fun c low none => ?_⟩
  · obtain ⟨lport, sub, retry, tmo⟩ := ctlFields_spec (dropHeld s 0) (v ||| 0x80000000)
    have ctl : ∀ hi lo, regBits (failMgmt (ctlFields (dropHeld s 0) (v ||| 0x80000000))) (mgBase + 0x17C) hi lo =
        regBits (ctlFields (dropHeld s 0) (v ||| 0x80000000)) (mgBase + 0x17C) hi lo := fun hi lo => by
      rw [regBits, regBits, regGet_failMgmt]
    have other := mgmtRestart_spec s (v ||| 0x80000000)
    refine ⟨mgmtRestart s (v ||| 0x80000000), rfl, ?_⟩
    rw [connOf_mgmtRestart]
    refine ⟨rfl, rfl, rfl, rfl, (ctl 30 28).trans ?_, (ctl 27 26).trans ?_, (ctl 21 19).trans ?_, (ctl 25 22).trans ?_,
      congrArg BitVec.toNat (other (mgBase + 0x170) (by decide)), ?_, ?_, ?_, ?_⟩
    · rw [lport, bits_or_valid v (by decide) (by decide)]
    · rw [sub, bits_or_valid v (by decide) (by decide)]
    · rw [retry, bits_or_valid v (by decide) (by decide)]
    · rw [tmo, bits_or_valid v (by decide) (by decide)]
      rfl
    · show BitVec.ofNat 32 (regGet _ (mgBase + 0x178)).toNat = _
      rw [other _ (by decide), BitVec.ofNat_toNat, BitVec.setWidth_eq]
    · show BitVec.ofNat 32 (regGet _ (mgBase + 0x194)).toNat = _
      rw [other _ (by decide), BitVec.ofNat_toNat, BitVec.setWidth_eq]
    · show regPair _ (mgBase + 0x188) = _
      rw [regPair, other _ (by decide), other _ (by decide)]
      rfl
    · show regBits _ (mgBase + 0x190) 4 0 = _
      rw [regBits, other _ (by decide)]
      rfl
  · refine ⟨_, rfl, fun valid => ?_⟩
    simp only [mgmtStop, valid, if_true, connOf_setConn, connOf_failMgmt, and_self]
  · refine ⟨_, rfl, rfl, fun e => ?_⟩
    simp only [clearRecs, List.mem_filter, Bool.not_eq_true', Bool.and_eq_false_iff, beq_eq_false_iff_ne, decide_eq_false_iff_not]
    rw [Classical.not_and_iff_not_or_not, Classical.not_and_iff_not_or_not, Bool.not_eq_true, or_assoc]
  · refine ⟨_, rfl, rfl, fun e => ?_⟩
    simp only [clearRecs, List.mem_filter, Bool.true_and, Bool.not_eq_true', decide_eq_false_iff_not, Nat.not_le]
  · show Host.Outcome.next (debugRequest s o) = _
    simp only [debugRequest, debug, if_true]
  · have run : exec (.scDebugReq o) s = .next (raiseChip (extendStat { s with sec := { s.sec with debug := true, keysCleared := true } }) 2 0x74
        (flagAt o 0)) := by
      show Host.Outcome.next (debugRequest s o) = _
      simp only [debugRequest, plain, Bool.false_eq_true, if_false]
    refine ⟨_, run, rfl, rfl, rfl, fun _ => rfl, _, rfl, rfl, ?_⟩
    cases o <;> rfl
  · show Host.Outcome.next (policyWrite s v) = _
    simp only [policyWrite, locked, if_true]
  · have policy : regGet (policyWrite s v) (scBase + 8) = v &&& 3 := by
      simp only [policyWrite, free, Bool.false_eq_true, if_false]
      have set : regGet (regSet s (scBase + 8) (v &&& 3)) (scBase + 8) = v &&& 3 := (regGet_regSet ..).trans (if_pos rfl)
      split
      · exact set
      · exact set
    refine ⟨policyWrite s v, rfl, ?_, policy, fun off => ?_, ?_⟩
    · simp only [policyWrite, free, Bool.false_eq_true, if_false]
      split <;> rfl
    · simp only [policyWrite, free, off, Bool.false_eq_true, if_false]
      rfl
    · rw [policyLocked, policy, bit, bit, BitVec.toNat_and, Nat.testBit_and]
      exact Bool.and_true _
  · simp only [exec, execSmbAlertResponse, Bool.and_eq_true]
    rfl
  · rw [exec, execSmbAlertResponse, Host.Outcome.next.injEq] at run
    rw [← run, up, Bool.true_and]
    split
    · exact alertN_answered s
    next silent => simpa using silent
  · have run : exec (.smbusTmo c low) s = .next (noteReport (raiseChip s 3 0x88 (c.toNat + flagAt low 8)) 0x88 0) := by
      simp only [exec, execSmbusTmo, up, may, Bool.and_self, if_true]
    refine ⟨_, _, run, rfl, rfl, ?_, mayReport_noteReport _ _ _ (by decide)⟩
    have small := c.isLt
    have detail : c.toNat + flagAt low 8 = c.toNat + if low then 256 else 0 := by cases low <;> rfl
    show (BitVec.ofNat 64 (c.toNat + flagAt low 8)).toNat = _
    rw [detail, BitVec.toNat_ofNat]
    split <;> omega
  · have cond : (smbusUp s && mayReport s 0x88 0 1000000000) = false := by
      rcases none with h | h <;> simp [h]
    simp only [exec, execSmbusTmo, cond, Bool.false_eq_true, if_false]

end Sys2Proof.Proofs
end


section
/-! The first message of a landing: which row handles it, and what the row leaves of a message that is taken (R491-R498, R517, R518). -/

namespace Sys2Proof.Proofs

open Sys2Proof Sys2Proof.Machine Sys2Proof.Safety Sys2Proof.Laws

/-! ### A row and the message at the front -/

/-- A row does nothing on a landing without messages. -/
theorem onMsg_of_empty {s : State} {l type : Nat} (act : State → Msg → Header → State) (h : (landOf s l).bufs = []) :
    onMsg s l type act = s := by
  simp [onMsg, h]

/-- A row leaves a message that is not its own, or while a LOAD_MANIFEST holds the management landing. -/
theorem onMsg_of_other {s : State} {l type : Nat} {m : Msg} {rest : List Msg} (act : State → Msg → Header → State)
    (hBufs : (landOf s l).bufs = m :: rest)
    (h : leAt m.data 0 1 ≠ type ∨ m.data.length < 32 ∨ (l = 16 ∧ s.load.isSome = true)) : onMsg s l type act = s := by
  have held : (leAt m.data 0 1 = type && decide (32 ≤ m.data.length) && !(l == 16 && s.load.isSome)) = false := by
    rcases h with other | short | ⟨at16, loading⟩
    · simp [other]
    · simp [Nat.not_le.mpr short]
    · simp [at16, loading]
  simp only [onMsg, hBufs, held, Bool.false_eq_true, if_false]

/-- The one message of a landing, out of sequence: it leaves its buffer and is answered. -/
theorem onMsg_of_seqStatus {s : State} {l type st : Nat} {m : Msg} (act : State → Msg → Header → State) (hBufs : (landOf s l).bufs = [m])
    (hType : leAt m.data 0 1 = type) (hLen : 32 ≤ m.data.length) (hLoad : l = 16 → s.load = none)
    (hSeq : seqStatus (landOf s l) (headerOf m.data) = some st) :
    onMsg s l type act = answer (popMsg s l) l (headerOf m.data) st [] := by
  have popped : seqStatus (landOf (popMsg s l) l) (headerOf m.data) = some st := by rwa [landOf_popMsg_same]
  have handled : handle s l m.data (fun t h => act t m h) = answer (popMsg s l) l (headerOf m.data) st [] := by
    simp only [handle, popped]
  rw [onMsg_of_front act hBufs hType hLen hLoad, handled]
  exact nextMsg_of_bufs_nil (by simp [landOf_popMsg_same, hBufs])

/-- A message that is taken: its row acts on it, and the landing goes on to its next message. -/
theorem onMsg_of_taken {s : State} {l type : Nat} {m : Msg} (act : State → Msg → Header → State) (h : Taken s l type m) :
    onMsg s l type act = nextMsg (act (received s l m) m (headerOf m.data)) l := by
  obtain ⟨hBufs, hLen, hType, hLoad, hSeq, hEarly⟩ := h
  have popped : seqStatus (landOf (popMsg s l) l) (headerOf m.data) = none := by rwa [landOf_popMsg_same]
  have handled : handle s l m.data (fun t h => act t m h) = act (received s l m) m (headerOf m.data) := by
    rw [received] at hEarly ⊢
    simp [handle, popped, hEarly]
  rw [onMsg_of_front act hBufs hType hLen hLoad, handled]

/-- A message that is taken leaves its landing empty. -/
theorem bufs_received_of_taken {s : State} {l type : Nat} {m : Msg} (h : Taken s l type m) : (landOf (received s l m) l).bufs = [] := by
  obtain ⟨hBufs, -⟩ := h
  simp [hBufs]

/-- A message that is taken and whose row brings none: what its row makes of it is all. -/
theorem onMsg_of_taken_last {s : State} {l type : Nat} {m : Msg} (act : State → Msg → Header → State) (h : Taken s l type m)
    (last : (landOf (act (received s l m) m (headerOf m.data)) l).bufs = (landOf (received s l m) l).bufs) :
    onMsg s l type act = act (received s l m) m (headerOf m.data) := by
  rw [onMsg_of_taken act h, nextMsg_of_bufs_nil (last.trans (bufs_received_of_taken h))]

/-- H moves to the HSEQ of a message taken in sequence; a QUERY leaves it. -/
theorem h_received (s : State) (l : Nat) (m : Msg) :
    (landOf (received s l m) l).h = if (headerOf m.data).type = 6 then (landOf s l).h else (headerOf m.data).hseq := by
  unfold received
  split
  · rw [landOf_popMsg_same]
  · rw [landOf_setLand, if_pos rfl]

/-- A message out of sequence is a DUPLICATE or leaves a SEQ_GAP. -/
theorem seqStatus_cases {x : LandingSt} {h : Header} {st : Nat} (hs : seqStatus x h = some st) : st = 9 ∨ st = 10 := by
  unfold seqStatus at hs
  split at hs
  · cases hs
  · split at hs <;> cases hs
    · exact .inl rfl
    · exact .inr rfl

/-! ### LOAD_MANIFEST in front -/

@[simp] theorem earlyStatus_received (s : State) (l k : Nat) (m : Msg) (d : List Byte) :
    earlyStatus (received s l m) k d = earlyStatus s k d := by
  unfold received
  split <;> rfl

@[simp] theorem berthDefined_received (s : State) (l : Nat) (m : Msg) (b : Nat) : berthDefined (received s l m) b = berthDefined s b := by
  unfold received
  split <;> rfl

/-- A LOAD_MANIFEST that is not to be taken is handled like any other message. -/
theorem loadManifest_of_not_taken {s : State} (h : loadTaken s = false) : loadManifest s = onMsg s 16 7 doLoad := by
  simp [loadManifest, h]

theorem loadTaken_of_empty {s : State} (h : (landOf s 16).bufs = []) : loadTaken s = false := by
  simp [loadTaken, h]

theorem loadTaken_of_other {s : State} {m : Msg} {rest : List Msg} (hBufs : (landOf s 16).bufs = m :: rest)
    (h : leAt m.data 0 1 ≠ 7 ∨ m.data.length < 32 ∨ s.load.isSome = true) : loadTaken s = false := by
  have type : (headerOf m.data).type = leAt m.data 0 1 := rfl
  rcases h with other | short | loading
  · simp [loadTaken, hBufs, type, other]
  · simp [loadTaken, hBufs, Nat.not_le.mpr short]
  · simp [loadTaken, hBufs, Option.isNone_iff_eq_none, Option.isSome_iff_ne_none.mp loading]

theorem loadTaken_of_refused {s : State} {m : Msg} {rest : List Msg} (hBufs : (landOf s 16).bufs = m :: rest)
    (h : (seqStatus (landOf s 16) (headerOf m.data)).isSome = true ∨ (earlyStatus s 16 m.data).isSome = true) : loadTaken s = false := by
  rcases h with outOfSequence | early
  · simp [loadTaken, hBufs, Option.isSome_iff_ne_none.mp outOfSequence]
  · simp [loadTaken, hBufs, early]

/-! ### The rows of the message types -/

/-- The messages that have a row, each with the type of its messages and on the landing that the row serves. -/
def RowOf (i : Instr) (l : Fin 17) (type : Nat) : Prop :=
  (∃ (cuts : List (Nat × Nat)) (mem : HbmOutcome), (i, type) ∈ [(Instr.startTask l, 1), (Instr.abort l, 2), (Instr.preempt l cuts, 3),
    (Instr.resume l mem, 4), (Instr.disableBerth l, 5), (Instr.query l, 6)]) ∨
  (l.val = 16 ∧ (i, type) ∈ [(Instr.loadManifest, 7), (Instr.diagBist, 0x10), (Instr.diagAttest, 0x11), (Instr.diagExtend, 0x12),
    (Instr.diagFwWrite, 0x13), (Instr.diagFwActivate, 0x14), (Instr.diagLog, 0x15)])

/-- Every message type is handled by `onMsg` in its row, a LOAD_MANIFEST where it is not to be taken. -/
theorem exec_row {i : Instr} {l : Fin 17} {type : Nat} (row : RowOf i l type) (s : State)
    (hLoad : l.val = 16 → type = 7 → loadTaken s = false) : ∃ act, exec i s = .next (onMsg s l type act) := by
  rcases row with ⟨cuts, mem, listed⟩ | ⟨at16, listed⟩
  · simp only [List.mem_cons, Prod.mk.injEq, List.not_mem_nil, or_false] at listed
    rcases listed with ⟨rfl, rfl⟩ | ⟨rfl, rfl⟩ | ⟨rfl, rfl⟩ | ⟨rfl, rfl⟩ | ⟨rfl, rfl⟩ | ⟨rfl, rfl⟩
    · exact ⟨doStart l, rfl⟩
    · exact ⟨doAbort l, rfl⟩
    · exact ⟨doPreempt l cuts, rfl⟩
    · exact ⟨doResume l mem, rfl⟩
    · exact ⟨doDisable l, rfl⟩
    · exact ⟨doQuery l, rfl⟩
  · rw [at16]
    simp only [List.mem_cons, Prod.mk.injEq, List.not_mem_nil, or_false] at listed
    rcases listed with ⟨rfl, rfl⟩ | ⟨rfl, rfl⟩ | ⟨rfl, rfl⟩ | ⟨rfl, rfl⟩ | ⟨rfl, rfl⟩ | ⟨rfl, rfl⟩ | ⟨rfl, rfl⟩
    · exact ⟨doLoad, congrArg Host.Outcome.next (loadManifest_of_not_taken (hLoad at16 rfl))⟩
    · exact ⟨doBist, rfl⟩
    · exact ⟨doAttest, rfl⟩
    · exact ⟨doExtend, rfl⟩
    · exact ⟨doFwWrite, rfl⟩
    · exact ⟨doFwActivate, rfl⟩
    · exact ⟨doLog, rfl⟩

/-- The row of type 6 is QUERY's. -/
theorem row_of_query {i : Instr} {l : Fin 17} (row : RowOf i l 6) : i = .query l := by
  rcases row with ⟨cuts, mem, listed⟩ | ⟨-, listed⟩
  · simpa using listed
  · simp at listed

/-! ### QUERY -/

@[simp] theorem bufs_queryReply (s : State) (l : Nat) (h : Header) (t j : Nat) : (landOf (queryReply l h s t) j).bufs = (landOf s j).bufs :=
  bufs_emit ..

theorem bufs_queryReplies (l : Nat) (h : Header) (ts : List Nat) (j : Nat) (s : State) :
    (landOf (ts.foldl (queryReply l h) s) j).bufs = (landOf s j).bufs :=
  foldl_keeps (f := queryReply l h) (fun t => (landOf t j).bufs) (fun t k => bufs_queryReply t l h k j) ts s

/-- QUERY leaves the messages of its landing. -/
theorem bufs_doQuery (l : Nat) (s : State) (m : Msg) (h : Header) (j : Nat) : (landOf (doQuery l s m h) j).bufs = (landOf s j).bufs := by
  unfold doQuery
  split
  case isTrue => rfl
  split
  case isTrue => exact bufs_queryReply ..
  split
  case isTrue => exact bufs_queryReplies ..
  exact bufs_queryReply ..

theorem exec_query_of_taken {s : State} {l : Fin 17} {m : Msg} (h : Taken s l 6 m) :
    exec (.query l) s = .next (doQuery l (received s l m) m (headerOf m.data)) :=
  congrArg Host.Outcome.next (onMsg_of_taken_last (doQuery l) h (bufs_doQuery ..))

/-- Settles O41: every listed command is `onMsg` at its type, so each clause is what `onMsg` does with the message in front. -/
theorem messagesAreTakenInOrder : Obligations.MessagesAreTakenInOrder := by
  unfold Obligations.MessagesAreTakenInOrder
  intro s l cuts mem i type listed
  have row : RowOf i l type := listed.imp_left (fun h => ⟨cuts, mem, h⟩)
  refine ⟨fun hBufs => ?_, fun m rest hBufs => ⟨fun other => ?_, fun hType hLen hLoad last => ⟨fun st hSeq => ⟨seqStatus_cases hSeq, ?_⟩,
    fun st hSeq hEarly => ⟨?_, ?_⟩⟩, fun hTaken query => ?_⟩⟩
  case refine_1 =>
    obtain ⟨act, run⟩ := exec_row row s (fun at16 _ => loadTaken_of_empty (by rwa [at16] at hBufs))
    rw [run, onMsg_of_empty act hBufs]
  case refine_2 =>
    have notTaken (at16 : l.val = 16) (load : type = 7) : loadTaken s = false :=
      loadTaken_of_other (by rwa [at16] at hBufs) (by rw [load] at other; exact other.imp_right (.imp_right And.right))
    obtain ⟨act, run⟩ := exec_row row s notTaken
    rw [run, onMsg_of_other act hBufs other]
  case refine_3 =>
    have notTaken (at16 : l.val = 16) (_ : type = 7) : loadTaken s = false :=
      loadTaken_of_refused (by rwa [at16] at hBufs) (.inl (by rw [← at16, hSeq]; rfl))
    obtain ⟨act, run⟩ := exec_row row s notTaken
    rw [run, onMsg_of_seqStatus act (by rw [hBufs, last]) hType hLen hLoad hSeq]
  case refine_4 =>
    have notTaken (at16 : l.val = 16) (_ : type = 7) : loadTaken s = false :=
      loadTaken_of_refused (by rwa [at16] at hBufs) (.inr (by rw [← earlyStatus_received s l 16 m, ← at16, hEarly]; rfl))
    obtain ⟨act, run⟩ := exec_row row s notTaken
    exact run.trans (congrArg Host.Outcome.next (onMsg_of_earlyStatus act (by rw [hBufs, last]) hType hLen hLoad hSeq hEarly))
  case refine_5 =>
    rw [h_received, ← hType]
    rfl
  case refine_6 =>
    subst query
    rw [row_of_query row]
    rw [exec_query_of_taken hTaken]
    refine ⟨fun silent => ?_, fun asked => ⟨fun berth => ?_, fun at16 one => ?_, fun at16 all => ?_⟩⟩
    · rw [doQuery, if_pos silent]
    · rw [doQuery, if_neg (by simp [asked]), if_pos berth]
    · rw [doQuery, if_neg (by simp [asked]), if_neg (by simp [at16]), if_neg (by simp [one])]
    · rw [doQuery, if_neg (by simp [asked]), if_neg (by simp [at16]), if_pos all]
      rw [funext (berthDefined_received s l m)]

end Sys2Proof.Proofs
end


section
/-! START_TASK: the contexts that it names start, the berth's others stay idle, and its flags are zero (R241, R505, R506). -/

namespace Sys2Proof.Proofs

open Sys2Proof Sys2Proof.Machine Sys2Proof.Safety Sys2Proof.Laws

/-! ### The settings of the module -/

/-- A state that holds the settings of the module alone. -/
def settings (s : State) : State :=
  { rw := s.rw, time := s.time, man := s.man, windows := s.windows, gangs := s.gangs, cmdMem := s.cmdMem, boot := s.boot,
    flash := s.flash, sec := s.sec, pw := s.pw }

/-- States that hold the same settings keep them. -/
theorem settingsKept_of {s t : State} (h : settings t = settings s) : SettingsKept s t := by
  have same {β : Type} (part : State → β) : part (settings t) = part (settings s) := congrArg part h
  exact ⟨same State.rw, same State.time, same State.man, same State.windows, same State.gangs, same State.cmdMem, same State.boot,
    same State.flash, same State.sec, same State.pw⟩

theorem settings_of_onlyRecords {s t : State} (h : OnlyRecords s t) : settings t = settings s := by rw [OnlyRecords] at h; rw [h]; rfl

/-! ### What records leave -/

theorem berthOf_of_onlyRecords {s t : State} (h : OnlyRecords s t) (b : Nat) : berthOf t b = berthOf s b := by
  rw [OnlyRecords] at h; rw [h]; rfl

theorem berthOf_of_onlyFlags {s t : State} (h : OnlyFlags s t) (b : Nat) : berthOf t b = berthOf s b := by
  rw [OnlyFlags] at h; rw [h]; rfl

theorem answer_only (s : State) (l : Nat) (h : Header) (status : Nat) (rest : List Byte) : OnlyRecords s (answer s l h status rest) :=
  emit_only ..

theorem received_only (s : State) (l : Nat) (m : Msg) : OnlyRecords s (received s l m) := by
  unfold received
  split <;> rfl

/-- A row that answers with a status alone. -/
theorem answers_of_taken {s : State} {l type st : Nat} {m : Msg} {i : Instr} (act : State → Msg → Header → State)
    (run : exec i s = .next (onMsg s l type act)) (h : Taken s l type m)
    (status : act (received s l m) m (headerOf m.data) = answer (received s l m) l (headerOf m.data) st []) : Answers s i l m st := by
  rw [Answers, run, onMsg_of_taken_last act h (by rw [status]; exact bufs_answer ..), status]

/-! ### The contexts that a START_TASK names -/

theorem nodup_of_nodup_map {α β : Type} {f : α → β} {l : List α} (h : (l.map f).Nodup) : l.Nodup :=
  (List.pairwise_map.mp h).imp fun apart same => apart (congrArg f same)

theorem eq_of_nodup_map {α β : Type} {f : α → β} {l : List α} (h : (l.map f).Nodup) {x y : α} (hx : x ∈ l) (hy : y ∈ l)
    (same : f x = f y) : x = y := by
  induction l with
  | nil => exact absurd hx List.not_mem_nil
  | cons z l ih =>
    obtain ⟨fresh, rest⟩ := List.nodup_cons.mp h
    rcases List.mem_cons.mp hx with rfl | inTail
    · rcases List.mem_cons.mp hy with rfl | hy
      · rfl
      · exact absurd (same ▸ List.mem_map_of_mem hy) fresh
    · rcases List.mem_cons.mp hy with rfl | hy
      · exact absurd (same ▸ List.mem_map_of_mem inTail) fresh
      · exact ih rest inTail hy

theorem keys_startList (d : List Byte) : (startList d).map Prod.fst = startCtxs d := by
  have numbered : ((List.range (startCtxs d).length).zip (startCtxs d)).map Prod.snd = startCtxs d := List.map_snd_zip (by simp)
  rw [startList, List.map_map]
  exact numbered

theorem nodup_startCtxs (d : List Byte) : (startCtxs d).Nodup := List.nodup_range.filter _

theorem nodup_startList (d : List Byte) : (startList d).Nodup := nodup_of_nodup_map (f := Prod.fst) (by rw [keys_startList]; exact nodup_startCtxs d)

theorem key_mem_startCtxs {d : List Byte} {e : Nat × Nat} (h : e ∈ startList d) : e.1 ∈ startCtxs d := by
  rw [← keys_startList]
  exact List.mem_map_of_mem h

/-- A START_TASK names a context once. -/
theorem startList_inj {d : List Byte} {e f : Nat × Nat} (he : e ∈ startList d) (hf : f ∈ startList d) (h : f.1 = e.1) : f = e :=
  eq_of_nodup_map (f := Prod.fst) (by rw [keys_startList]; exact nodup_startCtxs d) hf he h

/-! ### Contexts by their numbers -/

/-- The context with a number. -/
def ctxAt (s : State) (n : Nat) : Ctx := ctxOf s (n / 18) (n % 18)

theorem ctxAt_setCtx (s : State) (k : Nat) (x : Ctx) (n : Nat) :
    ctxAt (setCtx s (k / 18) (k % 18) x) n = if k = n then x else ctxAt s n := by
  have same : (k / 18 = n / 18 ∧ k % 18 = n % 18) ↔ k = n := by omega
  unfold ctxAt
  rw [ctxOf_setCtx]
  simp only [same]

/-- A context as START_TASK starts it. -/
def startedCtx (pc : Nat) (x : Ctx) : Ctx :=
  { x with mode := .running, stall := .none, pc := pc, cnt := [], cmp := [], queue := [], held := none, occ := none, timer := {},
           named := true, endDone := false, endSeen := false }

/-- A context that is not named. -/
def idledCtx (x : Ctx) : Ctx := { x with mode := .idle, named := false, endDone := false, endSeen := false }

theorem ctxAt_startCtx (s : State) (e : Nat × Nat) (n : Nat) :
    ctxAt (startCtx s e) n = if e.1 = n then startedCtx e.2 (ctxAt s e.1) else ctxAt s n := ctxAt_setCtx ..

theorem ctxAt_idleCtx (s : State) (k n : Nat) : ctxAt (idleCtx s k) n = if k = n then idledCtx (ctxAt s k) else ctxAt s n := ctxAt_setCtx ..

/-- The state in which the contexts of a berth are idle and those that are named have started. -/
def contextsStarted (s : State) (b : Nat) (d : List Byte) : State := (startList d).foldl startCtx ((berthCtxs s b).foldl idleCtx s)

theorem mem_berthCtxs {s : State} {b n : Nat} : n ∈ berthCtxs s b ↔ n < 72 ∧ (ctxAt s n).berth = some b := by
  simp [berthCtxs, ctxAt]

/-- What a start takes from a context does not depend on its having been idled. -/
theorem startedCtx_idled (pc n : Nat) (l : List Nat) (s : State) :
    startedCtx pc (ctxAt (l.foldl idleCtx s) n) = startedCtx pc (ctxAt s n) := by
  refine foldl_keeps (f := idleCtx) (fun t => startedCtx pc (ctxAt t n)) (fun t k => ?_) l s
  simp only [ctxAt_idleCtx]
  split
  case isTrue same => rw [same]; rfl
  case isFalse => rfl

theorem ctxAt_contextsStarted_named {s : State} {b : Nat} {d : List Byte} {e : Nat × Nat} (h : e ∈ startList d) :
    ctxAt (contextsStarted s b d) e.1 = startedCtx e.2 (ctxAt s e.1) := by
  have once := read_foldl_once startCtx (fun t => ctxAt t e.1) (startedCtx e.2) h (nodup_startList d)
    (fun t => by simp only [ctxAt_startCtx, if_true])
    (fun t f hf other => by
      simp only [ctxAt_startCtx]
      exact if_neg (fun same => other (startList_inj h hf same)))
    ((berthCtxs s b).foldl idleCtx s)
  exact once.trans (startedCtx_idled ..)

/-- Starting contexts leaves a context that is not among them. -/
theorem ctxAt_startCtxs_other {d : List Byte} {n : Nat} (h : n ∉ startCtxs d) (s : State) :
    ctxAt ((startList d).foldl startCtx s) n = ctxAt s n := by
  refine read_foldl_untouched startCtx (fun t => ctxAt t n) (startList d) (fun t e he => ?_) s
  simp only [ctxAt_startCtx]
  exact if_neg (fun same => h (by rw [← same]; exact key_mem_startCtxs he))

theorem ctxAt_contextsStarted_idle {s : State} {b n : Nat} {d : List Byte} (hn : n ∈ berthCtxs s b) (h : n ∉ startCtxs d) :
    (ctxAt (contextsStarted s b d) n).mode = .idle ∧ (ctxAt (contextsStarted s b d) n).named = false := by
  rw [contextsStarted, ctxAt_startCtxs_other h]
  refine foldl_reaches idleCtx (fun t => (ctxAt t n).mode = .idle ∧ (ctxAt t n).named = false) hn (fun t => ?_) (fun t k hk => ?_) s
  · rw [ctxAt_idleCtx, if_pos rfl]
    exact ⟨rfl, rfl⟩
  · rw [ctxAt_idleCtx]
    split
    · exact ⟨rfl, rfl⟩
    · exact hk

theorem ctxAt_contextsStarted_other {s : State} {b n : Nat} {d : List Byte} (hn : n ∉ berthCtxs s b) (h : n ∉ startCtxs d) :
    ctxAt (contextsStarted s b d) n = ctxAt s n := by
  rw [contextsStarted, ctxAt_startCtxs_other h]
  refine read_foldl_untouched idleCtx (fun t => ctxAt t n) (berthCtxs s b) (fun t k hk => ?_) s
  simp only [ctxAt_idleCtx]
  exact if_neg (fun same => hn (by rwa [← same]))

/-! ### The flags of the berth -/

/-- A flag set to zero leaves a flag that is zero so. -/
theorem flagVal_flagPut_zero {s : State} {j k : FlagKey} (h : flagVal s k = 0) : flagVal (flagPut s j 0) k = 0 := by
  have put (f : Tbl (BitVec 16)) (i i' : Nat) (hz : (tget 0 f i').toNat = 0) : (tget 0 (tput f i (0 : BitVec 16)) i').toNat = 0 := by
    rw [tget_tput]
    split
    · rfl
    · exact hz
  match j, k, h with
  | .quay q f, .quay r g, h => exact put s.qflags _ _ h
  | .chip f, .chip g, h => exact put s.cflags _ _ h
  | .quay q f, .chip g, h => exact h
  | .chip f, .quay r g, h => exact h

/-- Flags set to zero one after another are zero. -/
theorem flagVal_zeroed {ks : List FlagKey} {k : FlagKey} (h : k ∈ ks) (s : State) :
    flagVal (ks.foldl (fun t j => flagPut t j 0) s) k = 0 :=
  foldl_reaches _ (fun t => flagVal t k = 0) h (fun t => flagVal_flagPut t k 0) (fun _ _ hz => flagVal_flagPut_zero hz) s

theorem onlyFlags_foldl {α : Type} {f : State → α → State} (hf : ∀ s a, OnlyFlags s (f s a)) (l : List α) (s : State) :
    OnlyFlags s (l.foldl f s) :=
  List.foldlRecOn (motive := OnlyFlags s) l f rfl (fun _ h a _ => OnlyFlags.trans h (hf _ a))

/-! ### The decks of the task -/

/-- The sum of the powers of two of the numbers below `n` that `p` picks has just their bits. -/
theorem testBit_sum_filter (p : Nat → Bool) (n d : Nat) :
    ((List.range n).filter p).foldl (fun a k => a + 2 ^ k) 0 < 2 ^ n ∧
      Nat.testBit (((List.range n).filter p).foldl (fun a k => a + 2 ^ k) 0) d = (decide (d < n) && p d) := by
  induction n with
  | zero => simp
  | succ n ih =>
    obtain ⟨below, bits⟩ := ih
    rw [List.range_succ, List.filter_append, List.foldl_append]
    generalize ((List.range n).filter p).foldl (fun a k => a + 2 ^ k) 0 = v at below bits
    have next : 2 ^ (n + 1) = 2 ^ n + 2 ^ n := by omega
    cases hp : p n with
    | false =>
      simp only [List.filter_cons, List.filter_nil, hp, Bool.false_eq_true, if_false, List.foldl_nil]
      refine ⟨by omega, bits.trans ?_⟩
      by_cases same : d = n
      · simp [same, hp]
      · simp [show d < n + 1 ↔ d < n by omega]
    | true =>
      simp only [List.filter_cons, List.filter_nil, hp, if_true, List.foldl_cons, List.foldl_nil]
      refine ⟨by omega, ?_⟩
      rw [Nat.add_comm v]
      rcases Nat.lt_trichotomy d n with less | same | more
      · rw [Nat.testBit_two_pow_add_gt less, bits]
        simp [less, Nat.lt_succ_of_lt less]
      · rw [same, Nat.testBit_two_pow_add_eq, Nat.testBit_lt_two_pow below]
        simp [hp]
      · have big : 2 ^ n + v < 2 ^ d := by
          have := Nat.pow_le_pow_right (n := 2) (by decide) more
          omega
        rw [Nat.testBit_lt_two_pow big]
        simp [show ¬ d < n + 1 by omega]

/-- The decks that a task uses, as its berth keeps them: the berth's decks that are not fenced. -/
theorem bit_taskDecks (s : State) (b : Nat) {d : Nat} (hd : d < 16) :
    bit (BitVec.ofNat 16 (((berthDecks s b).filter (fun k => !deckFenced s k)).foldl (fun a k => a + 2 ^ k) 0)).toNat d = true ↔
      d ∈ berthDecks s b ∧ deckFenced s d = false := by
  have sum := testBit_sum_filter (fun k => bit (berthOf s b).cfg.decks.toNat k && !deckFenced s k) 16 d
  obtain ⟨below, bits⟩ := sum
  have picked : (berthDecks s b).filter (fun k => !deckFenced s k) =
      (List.range 16).filter (fun k => bit (berthOf s b).cfg.decks.toNat k && !deckFenced s k) := by
    rw [berthDecks, List.filter_filter]
    simp only [Bool.and_comm]
  rw [picked, BitVec.toNat_ofNat, Nat.mod_eq_of_lt below, bit, bits]
  simp [berthDecks, hd]

/-! ### A task starts -/

/-- The state in which the contexts have started and the flags of the berth are zero. -/
def flagsZeroed (s : State) (b : Nat) (d : List Byte) : State :=
  (berthFlags s b).foldl (fun t k => flagPut t k 0) (contextsStarted s b d)

/-- The berth whose task starts. -/
def startedBerth (s : State) (l b : Nat) (task : Word) (d : List Byte) : Berth :=
  { berthOf s b with
    st := .running, cur := some task, fromMgmt := l == 16, startTide := s.time.tide, ranFor := 0, ranSince := s.time.mono, suspFor := 0,
    epoch := BitVec.ofNat 16 (leAt d 0x20 2), seqs := [], bseq := 0,
    taskDecks := BitVec.ofNat 16 (((berthDecks s b).filter (fun k => !deckFenced s k)).foldl (fun a k => a + 2 ^ k) 0),
    ended := none, preemptOwed := none, afterEnd := .idle, suspended := [], freed := [], restore := .waiting,
    hold := { (berthOf s b).hold with taskSpilled := false } }

theorem contextsStarted_only (s : State) (b : Nat) (d : List Byte) : OnlyFlags s (contextsStarted s b d) :=
  OnlyFlags.trans (onlyFlags_foldl (f := idleCtx) (fun _ _ => rfl) _ s) (onlyFlags_foldl (f := startCtx) (fun _ _ => rfl) _ _)

theorem flagsZeroed_only (s : State) (b : Nat) (d : List Byte) : OnlyFlags s (flagsZeroed s b d) :=
  OnlyFlags.trans (contextsStarted_only s b d) (onlyFlags_foldl (fun t k => flagPut_only t k 0) _ _)

/-- The last part of a start: what it makes of the state in which contexts and flags are ready. -/
def taskOn (s r : State) (l b : Nat) (task : Word) (d : List Byte) : State :=
  dropOldSegs (setBerth r b
    { berthOf r b with
      st := .running, cur := some task, fromMgmt := l == 16, startTide := s.time.tide, ranFor := 0, ranSince := s.time.mono, suspFor := 0,
      epoch := BitVec.ofNat 16 (leAt d 0x20 2), seqs := [], bseq := 0,
      taskDecks := BitVec.ofNat 16 (((berthDecks r b).filter (fun k => !deckFenced r k)).foldl (fun a k => a + 2 ^ k) 0),
      ended := none, preemptOwed := none, afterEnd := .idle, suspended := [], freed := [], restore := .waiting,
      hold := { (berthOf r b).hold with taskSpilled := false } }) b (leAt d 0x20 2)

theorem startTask_eq (s : State) (l b : Nat) (task : Word) (d : List Byte) :
    startTask s l b task d = dropOldSegs (setBerth (flagsZeroed s b d) b (startedBerth s l b task d)) b (leAt d 0x20 2) := by
  have parts : startTask s l b task d =
      taskOn s ((berthFlags (contextsStarted s b d) b).foldl (fun t k => flagPut t k 0) (contextsStarted s b d)) l b task d := by
    simp only [startTask, taskOn, contextsStarted]
  have flags : berthFlags (contextsStarted s b d) b = berthFlags s b := by
    unfold berthFlags
    rw [berthOf_of_onlyFlags (contextsStarted_only s b d)]
  have zeroed := flagsZeroed_only s b d
  have same : berthOf (flagsZeroed s b d) b = berthOf s b := berthOf_of_onlyFlags zeroed b
  have decks : (flagsZeroed s b d).decks = s.decks := by rw [OnlyFlags] at zeroed; rw [zeroed]
  have fenced : deckFenced (flagsZeroed s b d) = deckFenced s := by
    funext k
    unfold deckFenced deckOf
    rw [decks]
  have own : berthDecks (flagsZeroed s b d) b = berthDecks s b := by
    unfold berthDecks
    rw [same]
  rw [parts, flags]
  change taskOn s (flagsZeroed s b d) l b task d = _
  rw [taskOn, same, own, fenced, startedBerth]

theorem berthOf_startTask (s : State) (l b : Nat) (task : Word) (d : List Byte) (c : Nat) :
    berthOf (startTask s l b task d) c = if b = c then startedBerth s l b task d else berthOf s c := by
  have set : berthOf (startTask s l b task d) c = berthOf (setBerth (flagsZeroed s b d) b (startedBerth s l b task d)) c := by
    rw [startTask_eq]; rfl
  rw [set, berthOf_setBerth, berthOf_of_onlyFlags (flagsZeroed_only s b d)]

theorem ctxAt_startTask (s : State) (l b : Nat) (task : Word) (d : List Byte) (n : Nat) :
    ctxAt (startTask s l b task d) n = ctxAt (contextsStarted s b d) n := by
  have quays : (flagsZeroed s b d).quays = (contextsStarted s b d).quays :=
    foldl_keeps (f := fun t k => flagPut t k 0) (fun t => t.quays) (fun t k => flagPut_quays t k 0) _ _
  rw [startTask_eq]
  change tget {} (tget {} (flagsZeroed s b d).quays (n / 18)).ctxs (n % 18) = _
  rw [quays]
  rfl

theorem flagVal_startTask {s : State} {b : Nat} {k : FlagKey} (l : Nat) (task : Word) (d : List Byte) (h : k ∈ berthFlags s b) :
    flagVal (startTask s l b task d) k = 0 := by
  rw [startTask_eq]
  have kept : flagVal (dropOldSegs (setBerth (flagsZeroed s b d) b (startedBerth s l b task d)) b (leAt d 0x20 2)) k =
      flagVal (flagsZeroed s b d) k := by cases k <;> rfl
  exact kept.trans (flagVal_zeroed h _)

/-- The state without what a start changes: contexts, flags, berths and what ports hold. -/
def withoutStart (s : State) : State :=
  { s with quays := [], qflags := [], cflags := [], waits := [], occ := [], ends := [], berths := [], ports := [] }

theorem withoutStart_dropOldSegs (s : State) (b : Nat) (x : Berth) (c epoch : Nat) :
    withoutStart (dropOldSegs (setBerth s b x) c epoch) = withoutStart s := rfl

theorem withoutStart_startTask (s : State) (l b : Nat) (task : Word) (d : List Byte) :
    withoutStart (startTask s l b task d) = withoutStart s := by
  have zeroed := flagsZeroed_only s b d
  rw [OnlyFlags] at zeroed
  rw [startTask_eq, withoutStart_dropOldSegs, zeroed]
  rfl

theorem lands_of_withoutStart {s t : State} (h : withoutStart t = withoutStart s) : t.landings = s.landings :=
  congrArg (fun u => u.landings) h

theorem lands_startTask (s : State) (l b : Nat) (task : Word) (d : List Byte) : (startTask s l b task d).landings = s.landings :=
  lands_of_withoutStart (withoutStart_startTask s l b task d)

/-! ### START_TASK -/

@[simp] theorem bistHolds_received (s : State) (l : Nat) (m : Msg) (b : Nat) : bistHolds (received s l m) b = bistHolds s b := by
  unfold received
  split <;> rfl

@[simp] theorem ctxStarts_received (s : State) (l : Nat) (m : Msg) (b n pc : Nat) : ctxStarts (received s l m) b n pc = ctxStarts s b n pc := by
  unfold received
  split <;> rfl

/-- Whether every context that a message names may start, and it names one. -/
theorem startRefused_iff (s : State) (b : Nat) (d : List Byte) :
    ((startList d).isEmpty || !(startList d).all (fun e => ctxStarts s b e.1 e.2)) = true ↔
      startList d = [] ∨ ∃ e ∈ startList d, ctxStarts s b e.1 e.2 = false := by
  simp

/-- A START_TASK that starts its task: the task is started, then the message answered. -/
theorem exec_startTask_of_started {s : State} {l : Fin 17} {m : Msg} (h : Taken s l 1 m)
    (hIdle : (berthOf s ((headerOf m.data).berth % 16)).st = .idle) (hBist : bistHolds s ((headerOf m.data).berth % 16) = false)
    (hNamed : startList m.data ≠ [])
    (hStarts : ∀ e ∈ startList m.data, ctxStarts s ((headerOf m.data).berth % 16) e.1 e.2 = true) :
    exec (.startTask l) s = .next (answer (startTask (received s l m) l ((headerOf m.data).berth % 16) (headerOf m.data).task m.data) l
      (headerOf m.data) 0 []) := by
  have free : ¬((berthOf (received s l m) ((headerOf m.data).berth % 16)).st ≠ .idle ∨
      bistHolds (received s l m) ((headerOf m.data).berth % 16) = true) := by
    simp [hIdle, hBist]
  have good : ¬((startList m.data).isEmpty ||
      !(startList m.data).all (fun e => ctxStarts (received s l m) ((headerOf m.data).berth % 16) e.1 e.2)) = true := by
    rw [startRefused_iff]
    rintro (none | ⟨e, he, bad⟩)
    · exact hNamed none
    · rw [ctxStarts_received, hStarts e he] at bad
      cases bad
  have act : doStart l (received s l m) m (headerOf m.data) =
      answer (startTask (received s l m) l ((headerOf m.data).berth % 16) (headerOf m.data).task m.data) l (headerOf m.data) 0 [] := by
    simp only [doStart, if_neg free, if_neg good]
  have last : (landOf (doStart l (received s l m) m (headerOf m.data)) l).bufs = (landOf (received s l m) l).bufs := by
    rw [act, bufs_answer]
    unfold landOf
    rw [lands_startTask]
  rw [← act]
  exact congrArg Host.Outcome.next (onMsg_of_taken_last (doStart l) h last)

/-- Settles O42: what a start leaves of contexts, flags and berth is read off `startTask_eq`, and its REPLY changes records alone. -/
theorem startTaskRunsTheNamedContexts : Obligations.StartTaskRunsTheNamedContexts := by
  unfold Obligations.StartTaskRunsTheNamedContexts
  rintro s l m b hTaken rfl
  refine ⟨fun busy => ?_, fun hIdle hBist => ⟨fun refused => ?_, fun hNamed hStarts => ?_⟩⟩
  case refine_1 =>
    refine answers_of_taken (doStart l) rfl hTaken ?_
    rw [doStart, if_pos (by simpa using busy)]
  case refine_2 =>
    have free : ¬((berthOf (received s l m) ((headerOf m.data).berth % 16)).st ≠ .idle ∨
        bistHolds (received s l m) ((headerOf m.data).berth % 16) = true) := by
      simp [hIdle, hBist]
    refine answers_of_taken (doStart l) rfl hTaken ?_
    rw [doStart, if_neg free, if_pos ((startRefused_iff _ _ _).mpr (by simpa using refused))]
  case refine_3 =>
    refine ⟨_, exec_startTask_of_started hTaken hIdle hBist hNamed hStarts, ?_⟩
    generalize hb : (headerOf m.data).berth % 16 = b at *
    have taken := received_only s l m
    generalize hr : received s l m = r at *
    have same (c : Nat) : berthOf r c = berthOf s c := berthOf_of_onlyRecords taken c
    have sameCtx (n : Nat) : ctxAt r n = ctxAt s n := OnlyRecords.ctx taken _ _
    have replied := answer_only (startTask r l b (headerOf m.data).task m.data) l (headerOf m.data) 0 []
    generalize ht : answer (startTask r l b (headerOf m.data).task m.data) l (headerOf m.data) 0 [] = t at *
    have own : berthOf t b = startedBerth r l b (headerOf m.data).task m.data := by
      rw [berthOf_of_onlyRecords replied, berthOf_startTask, if_pos rfl]
    have ctx (n : Nat) : ctxAt t n = ctxAt (contextsStarted r b m.data) n := (OnlyRecords.ctx replied _ _).trans (ctxAt_startTask ..)
    have rest : withoutStart (startTask r l b (headerOf m.data).task m.data) = withoutStart r := withoutStart_startTask ..
    have time : r.time = s.time := by rw [OnlyRecords] at taken; rw [taken]
    have kept {β : Type} (part : State → β) (hp : ∀ u v, OnlyRecords u v → part v = part u) (hm : ∀ u, part (withoutStart u) = part u) :
        part t = part s := by
      rw [hp _ _ replied, ← hm, rest, hm, hp _ _ taken]
    have named (n : Nat) (hn : n ∈ startCtxs m.data) : (ctxAt s n).berth = some b := by
      rw [← keys_startList] at hn
      obtain ⟨e, he, rfl⟩ := List.mem_map.mp hn
      have starts := hStarts e he
      simp only [ctxStarts, Bool.and_eq_true, beq_iff_eq] at starts
      exact starts.1.1
    refine ⟨by rw [own]; rfl, by rw [own]; rfl, by rw [own]; rfl, by rw [own, ← time]; rfl, by rw [own]; rfl, fun e he => ?_,
      fun n hn hBerth hOther => ?_, fun n hn hBerth => ?_, fun k hk => ?_, fun d hd => ?_, fun c hc => ?_, ?_, ?_, ?_, ?_⟩
    · exact (ctx e.1).trans ((ctxAt_contextsStarted_named he).trans (congrArg (startedCtx e.2) (sameCtx e.1)))
    · have idle := ctxAt_contextsStarted_idle (s := r) (b := b) (mem_berthCtxs.mpr ⟨hn, (congrArg Ctx.berth (sameCtx n)).trans hBerth⟩) hOther
      rw [← ctx n] at idle
      exact idle
    · have foreign : n ∉ berthCtxs r b := fun own => hBerth ((congrArg Ctx.berth (sameCtx n)).symm.trans (mem_berthCtxs.mp own).2)
      exact (ctx n).trans ((ctxAt_contextsStarted_other foreign (fun own => hBerth (named n own))).trans (sameCtx n))
    · have flags : berthFlags r b = berthFlags s b := by
        unfold berthFlags
        rw [same]
      rw [replied.flag, flagVal_startTask l _ _ (by rwa [flags])]
    · have decks : r.decks = s.decks := by rw [OnlyRecords] at taken; rw [taken]
      have fenced : deckFenced r d = deckFenced s d := by
        unfold deckFenced deckOf
        rw [decks]
      have held : berthDecks r b = berthDecks s b := by
        unfold berthDecks
        rw [same]
      rw [own, ← fenced, ← held]
      exact bit_taskDecks r b hd
    · rw [berthOf_of_onlyRecords replied, berthOf_startTask, if_neg (Ne.symm hc), same]
    · exact kept State.hbm (fun u v h => by rw [OnlyRecords] at h; rw [h]) (fun _ => rfl)
    · exact kept State.decks (fun u v h => by rw [OnlyRecords] at h; rw [h]) (fun _ => rfl)
    · exact kept State.runs (fun u v h => by rw [OnlyRecords] at h; rw [h]) (fun _ => rfl)
    · exact settingsKept_of (kept settings (fun _ _ => settings_of_onlyRecords) (fun _ => rfl))

end Sys2Proof.Proofs
end


section
/-! What an end other than completion leaves of a task: its contexts idle, no command of it running and no wait of it left; the settings of the
module, its landings and the other berths stay as they were (R127, R273, R507). -/

namespace Sys2Proof.Proofs

open Sys2Proof Sys2Proof.Machine Sys2Proof.Safety Sys2Proof.Laws

/-! ### What an end touches beside contexts -/

/-- The state without deck memories, HBM and the free values. -/
def withoutStores (s : State) : State := { s with decks := [], hbm := {}, poison := [], fabric := {}, free := 0 }

theorem of_withoutStores {β : Type} (part : State → β) (hm : ∀ u, part (withoutStores u) = part u) {s t : State}
    (h : withoutStores t = withoutStores s) : part t = part s := by rw [← hm, h, hm]

theorem withoutStores_hbmUndefine (s : State) (a len : Nat) : withoutStores (hbmUndefine s a len) = withoutStores s :=
  foldl_keeps (f := fun (t : State) (r : Nat × Nat) => { t with hbm := t.hbm.undefine r.1 r.2 (freshGen s).1 }) withoutStores (fun _ _ => rfl) _ (freshGen s).2

theorem withoutStores_inuseDown (s : State) (uses : List (Nat × Nat)) : withoutStores (inuseDown s uses) = withoutStores s :=
  foldl_keeps (f := inuseStep false) withoutStores (fun _ _ => rfl) uses s

theorem withoutStores_freshWord (s : State) : withoutStores (freshWord s).2 = withoutStores s := rfl

theorem withoutStores_undefineBuf (s : State) (x : BufDest) : withoutStores (undefineBuf s x) = withoutStores s := rfl

theorem withoutStores_ruinSave (s : State) (d : Nat) : withoutStores (ruinSave s d) = withoutStores s := by
  unfold ruinSave
  split
  · exact withoutStores_hbmUndefine ..
  · rfl

/-- Values drawn one after another change only what has been drawn. -/
theorem withoutStores_drawn (l : List Nat) (a : List DWord × State) :
    withoutStores (l.foldl (fun (a : List DWord × State) _ => ((a.1 ++ [(freshWord a.2).1], (freshWord a.2).2) : List DWord × State)) a).2 =
      withoutStores a.2 :=
  foldl_keeps (f := fun (a : List DWord × State) (_ : Nat) => ((a.1 ++ [(freshWord a.2).1], (freshWord a.2).2) : List DWord × State))
    (fun a => withoutStores a.2) (fun _ _ => rfl) l a

theorem withoutStores_setDeck (s : State) (d : Nat) (x : Deck) : withoutStores (setDeck s d x) = withoutStores s := rfl

theorem withoutStores_ruinDeck (s : State) (d : Nat) : withoutStores (ruinDeck s d) = withoutStores s := by
  unfold ruinDeck
  dsimp only
  rw [withoutStores_setDeck, withoutStores_drawn]
  rfl

/-- A run that is flushed leaves; beside it only stores change. -/
theorem withoutStores_flushRun (s : State) (r : Run) : withoutStores (flushRun s r) = withoutStores (dropRun s r.id) := by
  have drop {t : State} (h : withoutStores t = withoutStores s) : withoutStores (dropRun t r.id) = withoutStores (dropRun s r.id) :=
    congrArg (fun u => dropRun u r.id) h
  unfold flushRun
  dsimp only
  refine drop ?_
  calc withoutStores (spoilFlight _ r) = withoutStores _ := rfl
    _ = withoutStores _ := foldl_keeps (f := fun t (e : Nat × Nat) => hbmUndefine t e.1 e.2) withoutStores
        (fun t e => withoutStores_hbmUndefine t e.1 e.2) _ _
    _ = withoutStores (inuseDown s r.cmd.uses) := foldl_keeps (f := undefineBuf) withoutStores withoutStores_undefineBuf _ _
    _ = withoutStores s := withoutStores_inuseDown ..

/-! ### Contexts that stop -/

/-- What a stopped context is known to be: of its berth as before, idle, unnamed, holding and queuing nothing. -/
def StoppedCtx (x y : Ctx) : Prop := y.berth = x.berth ∧ y.mode = .idle ∧ y.queue = [] ∧ y.held = none

theorem ctxOf_of_withoutStores {s t : State} (h : withoutStores t = withoutStores s) (q c : Nat) : ctxOf t q c = ctxOf s q c :=
  of_withoutStores (fun u => ctxOf u q c) (fun _ => rfl) h

/-- Stopping a context replaces it by one that is stopped; beside it only stores change. -/
theorem stopCtx_spec (s : State) (q c : Nat) : ∃ x, StoppedCtx (ctxOf s q c) x ∧ withoutStores (stopCtx s q c) = withoutStores (setCtx s q c x) := by
  have set {u : State} (h : withoutStores u = withoutStores s) (x : Ctx) : withoutStores (setCtx u q c x) = withoutStores (setCtx s q c x) :=
    congrArg (fun u => setCtx u q c x) h
  have released := withoutStores_inuseDown s ((ctxOf s q c).queue.flatMap (fun m => m.uses))
  unfold stopCtx
  dsimp only
  generalize inuseDown s ((ctxOf s q c).queue.flatMap (fun m => m.uses)) = u at released ⊢
  refine ⟨_, ?_, set ?_ _⟩
  · exact ⟨rfl, rfl, rfl, rfl⟩
  · simp only [withoutStores_freshWord, released]

/-- Contexts that stop one after another, by their numbers. -/
def stopCtxs (l : List Nat) (s : State) : State := l.foldl (fun t n => stopCtx t (n / 18) (n % 18)) s

/-- The state without stores and contexts. -/
def withoutCtxs (s : State) : State := { withoutStores s with quays := [] }

theorem withoutCtxs_stopCtxs (l : List Nat) (s : State) : withoutCtxs (stopCtxs l s) = withoutCtxs s := by
  refine foldl_keeps (f := fun t n => stopCtx t (n / 18) (n % 18)) withoutCtxs (fun t n => ?_) l s
  obtain ⟨x, -, stop⟩ := stopCtx_spec t (n / 18) (n % 18)
  exact congrArg (fun u : State => { u with quays := [] }) stop

theorem ctxAt_stopCtx (s : State) (k n : Nat) :
    (k = n → StoppedCtx (ctxAt s n) (ctxAt (stopCtx s (k / 18) (k % 18)) n)) ∧ (k ≠ n → ctxAt (stopCtx s (k / 18) (k % 18)) n = ctxAt s n) := by
  obtain ⟨x, stopped, stop⟩ := stopCtx_spec s (k / 18) (k % 18)
  have at_ : ctxAt (stopCtx s (k / 18) (k % 18)) n = if k = n then x else ctxAt s n := (ctxOf_of_withoutStores stop _ _).trans (ctxAt_setCtx ..)
  constructor
  · rintro rfl
    rw [at_, if_pos rfl]
    exact stopped
  · intro other
    rw [at_, if_neg other]

/-- Every context among those that stop is idle afterwards, with nothing queued and nothing held. -/
theorem stopped_stopCtxs {l : List Nat} {n : Nat} (h : n ∈ l) (s : State) :
    (ctxAt (stopCtxs l s) n).mode = .idle ∧ (ctxAt (stopCtxs l s) n).queue = [] ∧ (ctxAt (stopCtxs l s) n).held = none := by
  refine foldl_reaches (fun t n => stopCtx t (n / 18) (n % 18))
    (fun t => (ctxAt t n).mode = .idle ∧ (ctxAt t n).queue = [] ∧ (ctxAt t n).held = none) h (fun t => ?_) (fun t k hk => ?_) s
  · exact ((ctxAt_stopCtx t n n).1 rfl).2
  · by_cases same : k = n
    · exact ((ctxAt_stopCtx t k n).1 same).2
    · rw [(ctxAt_stopCtx t k n).2 same]
      exact hk

/-! ### The halves and the flags of the berth -/

/-- The state without stores, contexts, flags, halves, waits, runs, and what ports and quays hold for a task. -/
def withoutTask (s : State) : State :=
  { withoutStores s with quays := [], qflags := [], cflags := [], halves := [], waits := [], runs := [], ports := [] }

theorem of_withoutTask {β : Type} (part : State → β) (hm : ∀ u, part (withoutTask u) = part u) {s t : State}
    (h : withoutTask t = withoutTask s) : part t = part s := by rw [← hm, h, hm]

theorem withoutTask_of_ctxs {s t : State} (h : withoutCtxs t = withoutCtxs s) : withoutTask t = withoutTask s :=
  congrArg (fun u : State => { u with qflags := [], cflags := [], halves := [], waits := [], runs := [], ports := [] }) h

theorem withoutTask_of_stores {s t : State} (h : withoutStores t = withoutStores s) : withoutTask t = withoutTask s :=
  withoutTask_of_ctxs (congrArg (fun u : State => { u with quays := [] }) h)

/-- Halves alone change before the berth is told which ones. -/
theorem freeHalves_eq (s : State) (b : Nat) : ∃ hs x, freeHalves s b = setBerth { s with halves := hs } b x ∧
    { x with freed := (berthOf s b).freed } = berthOf s b := by
  have only (l : List (Nat × Nat)) : ∀ u : State,
      ∃ hs, l.foldl (fun t k => setHalf t k.1 b k.2 { halfOf t k.1 b k.2 with armed := false }) u = { u with halves := hs } := by
    induction l with
    | nil => exact fun u => ⟨u.halves, rfl⟩
    | cons k l ih =>
      intro u
      obtain ⟨hs, h⟩ := ih (setHalf u k.1 b k.2 { halfOf u k.1 b k.2 with armed := false })
      exact ⟨hs, h⟩
  unfold freeHalves
  dsimp only
  generalize ((List.range 4).flatMap fun q => _) = keys
  obtain ⟨hs, h⟩ := only keys s
  rw [h]
  exact ⟨hs, _, rfl, rfl⟩

theorem undefineFlags_keeps {β : Type} (part : State → β) (hf : ∀ (s : State) k v, part (flagPut s k v) = part s)
    (hn : ∀ s : State, part (freshWord s).2 = part s) (keys : List FlagKey) (s : State) : part (undefineFlags keys s) = part s :=
  foldl_keeps (f := fun t k => flagPut (freshWord t).2 k ((freshWord t).1.toNat % 65536)) part
    (fun t _ => (hf _ _ _).trans (hn t)) keys s

theorem withoutTask_undefineFlags (keys : List FlagKey) (s : State) : withoutTask (undefineFlags keys s) = withoutTask s :=
  undefineFlags_keeps withoutTask (fun _ j _ => by cases j <;> rfl) (fun _ => rfl) keys s

/-! ### Tables -/

/-- An entry written twice is the one written last. -/
theorem tput_tput {α : Type} (t : Tbl α) (k : Nat) (v w : α) : tput (tput t k v) k w = tput t k w := by
  induction t with
  | nil => simp [tput]
  | cons e t ih =>
    obtain ⟨j, u⟩ := e
    by_cases before : k < j
    · simp [tput, before]
    · by_cases same : k = j
      · simp [tput, same]
      · simp [tput, before, same, ih]

theorem setBerth_setBerth (s : State) (b : Nat) (x y : Berth) : setBerth (setBerth s b x) b y = setBerth s b y :=
  congrArg (fun t : Tbl Berth => { s with berths := t }) (tput_tput s.berths b x y)

/-- A table whose values all change by `f`, which the default does not notice. -/
theorem tget_map_values {α : Type} {d : α} {f : α → α} (hd : f d = d) (l : Tbl α) (n : Nat) :
    tget d (l.map (fun e => (e.1, f e.2))) n = f (tget d l n) := by
  induction l with
  | nil => exact hd.symm
  | cons e l ih =>
    by_cases same : e.1 = n
    · simp [tget, same]
    · simpa [tget, same] using ih


/-! ### The stages of an end -/

/-- The registers of suspended passes are out of use, where the passes have not been re-entered. -/
def releasePasses (x : Berth) (s : State) : State :=
  if x.st == .suspending then s else x.suspended.foldl (fun t e => inuseDown t e.cmd.uses) s

/-- The waits of a berth end. -/
def endWaits (b : Nat) (s : State) : State := { s with waits := s.waits.filter (fun w => (ctxOf s w.q w.c).berth != some b) }

/-- The runs of a berth are flushed. -/
def flushRuns (b : Nat) (s : State) : State := (s.runs.filter (fun r => r.berth == b)).foldl flushRun s

/-- A quay without the threads of runs that are gone. -/
def livingThreads (s : State) (x : Quay) : Quay := { x with threads := x.threads.filter (fun t => (runOf s t.2.run).isSome) }

/-- The threads without a run and the segments held for a berth are gone. -/
def endTransfers (b : Nat) (s : State) : State :=
  { s with
    quays := s.quays.map (fun e => (e.1, livingThreads s e.2)),
    ports := s.ports.map (fun e => (e.1, { e.2 with
      segs := e.2.segs.filter (fun g => (connOf s g.conn).berth != b),
      adding := e.2.adding.filter (fun g => (connOf s g.conn).berth != b) })) }

/-- The save areas are undefined, where a pre-emption was not over. -/
def ruinSaves (x : Berth) (b : Nat) (s : State) : State :=
  if x.st == .suspending || x.st == .suspended || x.st == .resuming then (usedDecks s b).foldl ruinSave s else s

/-- What an end leaves before the berth and its flags are set. -/
def emptied (s : State) (b : Nat) : State :=
  let s0 := freeHalves s b
  let s1 := stopCtxs ((berthCtxs s0 b).filter (fun n => (ctxOf s0 (n / 18) (n % 18)).named)) s0
  let s3 := flushRuns b (endWaits b (releasePasses (berthOf s b) s1))
  ruinSaves (berthOf s b) b (endTransfers b ((usedDecks s3 b).foldl ruinDeck s3))

theorem stopTask_eq (s : State) (b : Nat) :
    stopTask s b = undefineFlags (berthFlags (emptied s b) b) (setBerth (emptied s b) b
      { berthOf (emptied s b) b with suspended := [], hold := { (berthOf (emptied s b) b).hold with recalling := [] } }) := by
  simp only [stopTask, emptied, stopCtxs, flushRuns, endWaits, releasePasses, endTransfers, livingThreads, ruinSaves]

theorem withoutStores_releasePasses (x : Berth) (s : State) : withoutStores (releasePasses x s) = withoutStores s := by
  unfold releasePasses
  split
  · rfl
  · exact foldl_keeps (f := fun t (e : SuspendedPass) => inuseDown t e.cmd.uses) withoutStores (fun t e => withoutStores_inuseDown t _) _ _

theorem withoutStores_ruinSaves (x : Berth) (b : Nat) (s : State) : withoutStores (ruinSaves x b s) = withoutStores s := by
  unfold ruinSaves
  split
  · exact foldl_keeps (f := ruinSave) withoutStores withoutStores_ruinSave _ _
  · rfl

theorem withoutStores_ruinDecks (l : List Nat) (s : State) : withoutStores (l.foldl ruinDeck s) = withoutStores s :=
  foldl_keeps (f := ruinDeck) withoutStores withoutStores_ruinDeck l s

theorem runs_flushRun (s : State) (r : Run) : (flushRun s r).runs = s.runs.filter (fun x => x.id != r.id) :=
  of_withoutStores (fun u => u.runs) (fun _ => rfl) (withoutStores_flushRun s r)

/-- What runs are flushed leaves. -/
theorem runs_flushed (l : List Run) (s : State) :
    ∀ r ∈ (l.foldl flushRun s).runs, r ∈ s.runs ∧ r ∉ l := by
  induction l generalizing s with
  | nil => exact fun r h => ⟨h, List.not_mem_nil⟩
  | cons x l ih =>
    intro r h
    obtain ⟨kept, other⟩ := ih (flushRun s x) r h
    rw [runs_flushRun, List.mem_filter] at kept
    refine ⟨kept.1, fun hr => ?_⟩
    rcases List.mem_cons.mp hr with rfl | hr
    · simp at kept
    · exact other hr

theorem runs_flushRuns {b : Nat} {s : State} {r : Run} (h : r ∈ (flushRuns b s).runs) : r.berth ≠ b := by
  obtain ⟨kept, other⟩ := runs_flushed _ s r h
  intro own
  exact other (List.mem_filter.mpr ⟨kept, by simp [own]⟩)

/-- The state without stores and runs. -/
def withoutRuns (s : State) : State := { withoutStores s with runs := [] }

theorem withoutRuns_flushRuns (b : Nat) (s : State) : withoutRuns (flushRuns b s) = withoutRuns s :=
  foldl_keeps (f := flushRun) withoutRuns
    (fun t r => congrArg (fun u : State => { u with runs := [] }) (withoutStores_flushRun t r)) _ _

theorem ctxOf_endTransfers (b : Nat) (s : State) (q c : Nat) : ctxOf (endTransfers b s) q c = ctxOf s q c := by
  have quay : quayOf (endTransfers b s) q = livingThreads s (quayOf s q) := tget_map_values rfl ..
  unfold ctxOf
  rw [quay]
  rfl

theorem withoutTask_setBerth (s : State) (b : Nat) (x : Berth) : withoutTask (setBerth s b x) = setBerth (withoutTask s) b x := rfl

theorem withoutTask_endTransfers (b : Nat) (s : State) : withoutTask (endTransfers b s) = withoutTask s := rfl

theorem withoutTask_endWaits (b : Nat) (s : State) : withoutTask (endWaits b s) = withoutTask s := rfl

theorem ctxOf_endWaits (b : Nat) (s : State) (q c : Nat) : ctxOf (endWaits b s) q c = ctxOf s q c := rfl

theorem waits_endTransfers (b : Nat) (s : State) : (endTransfers b s).waits = s.waits := rfl

theorem runs_endTransfers (b : Nat) (s : State) : (endTransfers b s).runs = s.runs := rfl

theorem of_withoutRuns {β : Type} (part : State → β) (hm : ∀ u, part (withoutRuns u) = part u) {s t : State}
    (h : withoutRuns t = withoutRuns s) : part t = part s := by rw [← hm, h, hm]

theorem withoutTask_of_runs {s t : State} (h : withoutRuns t = withoutRuns s) : withoutTask t = withoutTask s :=
  congrArg (fun u : State => { u with quays := [], qflags := [], cflags := [], halves := [], waits := [], ports := [] }) h

/-- Contexts, waits and runs through the last stages of an end. -/
theorem lastStages_spec (x : Berth) (b : Nat) (l : List Nat) (s : State) :
    withoutTask (ruinSaves x b (endTransfers b (l.foldl ruinDeck s))) = withoutTask s ∧
    (∀ q c, ctxOf (ruinSaves x b (endTransfers b (l.foldl ruinDeck s))) q c = ctxOf s q c) ∧
    (ruinSaves x b (endTransfers b (l.foldl ruinDeck s))).waits = s.waits ∧
    (ruinSaves x b (endTransfers b (l.foldl ruinDeck s))).runs = s.runs := by
  have saves := withoutStores_ruinSaves x b (endTransfers b (l.foldl ruinDeck s))
  have decks := withoutStores_ruinDecks l s
  refine ⟨?_, fun q c => ?_, ?_, ?_⟩
  · rw [withoutTask_of_stores saves, withoutTask_endTransfers, withoutTask_of_stores decks]
  · rw [ctxOf_of_withoutStores saves, ctxOf_endTransfers, ctxOf_of_withoutStores decks]
  · rw [of_withoutStores (fun u => u.waits) (fun _ => rfl) saves, waits_endTransfers, of_withoutStores (fun u => u.waits) (fun _ => rfl) decks]
  · rw [of_withoutStores (fun u => u.runs) (fun _ => rfl) saves, runs_endTransfers, of_withoutStores (fun u => u.runs) (fun _ => rfl) decks]

/-- Contexts, waits and runs through the stages before. -/
theorem firstStages_spec (x : Berth) (b : Nat) (s : State) :
    withoutTask (flushRuns b (endWaits b (releasePasses x s))) = withoutTask s ∧
    (∀ q c, ctxOf (flushRuns b (endWaits b (releasePasses x s))) q c = ctxOf s q c) ∧
    (flushRuns b (endWaits b (releasePasses x s))).waits = s.waits.filter (fun w => (ctxOf s w.q w.c).berth != some b) ∧
    ∀ r ∈ (flushRuns b (endWaits b (releasePasses x s))).runs, r.berth ≠ b := by
  have released := withoutStores_releasePasses x s
  have flushed := withoutRuns_flushRuns b (endWaits b (releasePasses x s))
  have waits : (releasePasses x s).waits = s.waits := of_withoutStores (fun u => u.waits) (fun _ => rfl) released
  have ctx := ctxOf_of_withoutStores released
  refine ⟨?_, fun q c => ?_, ?_, fun r => runs_flushRuns⟩
  · rw [withoutTask_of_runs flushed, withoutTask_endWaits, withoutTask_of_stores released]
  · rw [of_withoutRuns (fun u => ctxOf u q c) (fun _ => rfl) flushed, ctxOf_endWaits, ctxOf_of_withoutStores released]
  · rw [of_withoutRuns (fun u => u.waits) (fun _ => rfl) flushed]
    simp only [endWaits, ctx, waits]

theorem mem_berthCtxs_of {s t : State} (h : ∀ n, ctxAt t n = ctxAt s n) (b : Nat) : berthCtxs t b = berthCtxs s b :=
  List.filter_congr (fun n _ => by
    have same : ctxOf t (n / 18) (n % 18) = ctxOf s (n / 18) (n % 18) := h n
    rw [same])

theorem ctxAt_freeHalves (s : State) (b n : Nat) : ctxAt (freeHalves s b) n = ctxAt s n := by
  obtain ⟨hs, x, freed, -⟩ := freeHalves_eq s b
  rw [freed]
  rfl

/-- Contexts of a berth that a task names. -/
def namedCtxs (s : State) (b : Nat) : List Nat := (berthCtxs s b).filter (fun n => (ctxAt s n).named)

theorem mem_namedCtxs {s : State} {b n : Nat} : n ∈ namedCtxs s b ↔ n < 72 ∧ (ctxAt s n).berth = some b ∧ (ctxAt s n).named = true := by
  rw [namedCtxs, List.mem_filter, mem_berthCtxs, and_assoc]

theorem namedCtxs_freeHalves (s : State) (b : Nat) : namedCtxs (freeHalves s b) b = namedCtxs s b := by
  unfold namedCtxs
  rw [mem_berthCtxs_of (ctxAt_freeHalves s b)]
  exact List.filter_congr (fun n _ => by rw [ctxAt_freeHalves])

/-- What a berth keeps when its task stops: everything but the halves to be reported, the suspended passes and the recalls of its hold. -/
def BerthStops (x y : Berth) : Prop := { y with freed := x.freed, suspended := x.suspended, hold := x.hold } = x

theorem emptied_spec (s : State) (b : Nat) : ∃ x, BerthStops (berthOf s b) x ∧ withoutTask (emptied s b) = withoutTask (setBerth s b x) ∧
    Stopped s (emptied s b) b := by
  obtain ⟨hs, x, freed, own⟩ := freeHalves_eq s b
  have halves : withoutTask (freeHalves s b) = withoutTask (setBerth s b x) := by rw [freed]; rfl
  have ctxs := withoutCtxs_stopCtxs (namedCtxs (freeHalves s b) b) (freeHalves s b)
  obtain ⟨task1, ctx1, waits1, runs1⟩ := firstStages_spec (berthOf s b) b (stopCtxs (namedCtxs (freeHalves s b) b) (freeHalves s b))
  obtain ⟨task2, ctx2, waits2, runs2⟩ := lastStages_spec (berthOf s b) b (usedDecks (flushRuns b (endWaits b (releasePasses (berthOf s b)
      (stopCtxs (namedCtxs (freeHalves s b) b) (freeHalves s b))))) b) (flushRuns b (endWaits b (releasePasses (berthOf s b)
      (stopCtxs (namedCtxs (freeHalves s b) b) (freeHalves s b)))))
  have stages : emptied s b = ruinSaves (berthOf s b) b (endTransfers b ((usedDecks (flushRuns b (endWaits b (releasePasses (berthOf s b)
      (stopCtxs (namedCtxs (freeHalves s b) b) (freeHalves s b))))) b).foldl ruinDeck (flushRuns b (endWaits b (releasePasses (berthOf s b)
      (stopCtxs (namedCtxs (freeHalves s b) b) (freeHalves s b))))))) := rfl
  rw [← stages] at task2 ctx2 waits2 runs2
  have ctx (q c : Nat) : ctxOf (emptied s b) q c = ctxOf (stopCtxs (namedCtxs s b) (freeHalves s b)) q c := by
    rw [ctx2, ctx1, namedCtxs_freeHalves]
  refine ⟨x, ?_, ?_, fun n hn hBerth hNamed => ?_, fun r hr => ?_, fun w hw => ?_⟩
  · exact congrArg (fun y : Berth => { y with suspended := (berthOf s b).suspended, hold := (berthOf s b).hold }) own
  · rw [task2, task1, withoutTask_of_ctxs ctxs, halves]
  · have stopped := stopped_stopCtxs (mem_namedCtxs.mpr ⟨hn, hBerth, hNamed⟩) (freeHalves s b)
    unfold ctxAt at stopped
    rwa [← ctx] at stopped
  · rw [runs2] at hr
    exact runs1 r hr
  · rw [waits2, waits1, List.mem_filter] at hw
    rw [ctx, ← namedCtxs_freeHalves]
    simpa using hw.2

/-- An end stops a task: what `Stopped` says, the berth keeps the rest of what it is, and beside the task nothing changes. -/
theorem stopTask_spec (s : State) (b : Nat) : ∃ x, BerthStops (berthOf s b) x ∧ withoutTask (stopTask s b) = withoutTask (setBerth s b x) ∧
    Stopped s (stopTask s b) b := by
  obtain ⟨x, own, task, ctxs, runs, waits⟩ := emptied_spec s b
  have mine : berthOf (emptied s b) b = x := by
    have set : berthOf (emptied s b) b = berthOf (setBerth s b x) b := of_withoutTask (fun u => berthOf u b) (fun _ => rfl) task
    rw [set, berthOf_setBerth, if_pos rfl]
  rw [stopTask_eq, mine]
  generalize berthFlags (emptied s b) b = keys
  have ctx (q c : Nat) : ctxOf (undefineFlags keys (setBerth (emptied s b) b
      { x with suspended := [], hold := { x.hold with recalling := [] } })) q c = ctxOf (emptied s b) q c :=
    undefineFlags_keeps (fun u => ctxOf u q c) (fun _ j _ => by cases j <;> rfl) (fun _ => rfl) keys _
  refine ⟨{ x with suspended := [], hold := { x.hold with recalling := [] } }, own, ?_, fun n hn hBerth hNamed => ?_, fun r hr => ?_,
    fun w hw => ?_⟩
  · rw [withoutTask_undefineFlags, withoutTask_setBerth, task, withoutTask_setBerth, setBerth_setBerth, withoutTask_setBerth]
  · rw [ctx]
    exact ctxs n hn hBerth hNamed
  · rw [undefineFlags_keeps (fun u => u.runs) (fun _ j _ => by cases j <;> rfl) (fun _ => rfl)] at hr
    exact runs r hr
  · rw [undefineFlags_keeps (fun u => u.waits) (fun _ j _ => by cases j <;> rfl) (fun _ => rfl)] at hw
    rw [ctx]
    exact waits w hw

/-! ### The latch of an end -/

/-- The end that a latch keeps for the COMPLETION. -/
def latchedInfo (s : State) (b : Nat) (info : EndInfo) : EndInfo :=
  { info with tide := s.time.tide, at_ := s.time.mono, elapsed := ranTotal s b }

theorem latchEnd_of_not_live {s : State} {b : Nat} (h : taskLive s b = false) (info : EndInfo) (after : BerthState) :
    latchEnd s b info after = s := by
  simp [latchEnd, h]

/-- An end other than completion that is latched: the task has stopped, its berth keeps the end, and nothing else changes. -/
theorem latchEnd_of_live {s : State} {b : Nat} {info : EndInfo} (live : taskLive s b = true) (stops : info.status ≠ 0) (after : BerthState) :
    ∃ x, x.ended = some (latchedInfo s b info) ∧ x.afterEnd = after ∧ x.st = (berthOf s b).st ∧ x.cur = (berthOf s b).cur ∧
      withoutTask (latchEnd s b info after) = withoutTask (setBerth s b x) ∧ Stopped s (latchEnd s b info after) b := by
  obtain ⟨y, own, task, stopped⟩ := stopTask_spec s b
  have mine : berthOf (stopTask s b) b = y := by
    have set : berthOf (stopTask s b) b = berthOf (setBerth s b y) b := of_withoutTask (fun u => berthOf u b) (fun _ => rfl) task
    rw [set, berthOf_setBerth, if_pos rfl]
  have latched (z : Berth) : withoutTask (setBerth (stopTask s b) b z) = withoutTask (setBerth s b z) := by
    rw [withoutTask_setBerth, task, withoutTask_setBerth, setBerth_setBerth, withoutTask_setBerth]
  have kept {β : Type} (part : Berth → β) (hp : ∀ (z : Berth) f u h, part { z with freed := f, suspended := u, hold := h } = part z) :
      part y = part (berthOf s b) := (hp y _ _ _).symm.trans (congrArg part own)
  unfold latchEnd
  rw [if_pos live]
  dsimp only
  rw [if_neg stops, mine]
  refine ⟨_, ?_, ?_, ?_, ?_, latched _, stopped⟩
  · rfl
  · rfl
  · exact kept Berth.st (fun _ _ _ _ => rfl)
  · exact kept Berth.cur (fun _ _ _ _ => rfl)

theorem berthOf_of_withoutTask {s t : State} {b : Nat} {x : Berth} (h : withoutTask t = withoutTask (setBerth s b x)) (c : Nat) :
    berthOf t c = if b = c then x else berthOf s c := by
  rw [of_withoutTask (fun u => berthOf u c) (fun _ => rfl) h, berthOf_setBerth]

theorem landOf_of_withoutTask {s t : State} {b : Nat} {x : Berth} (h : withoutTask t = withoutTask (setBerth s b x)) (j : Nat) :
    landOf t j = landOf s j := of_withoutTask (s := setBerth s b x) (fun u => landOf u j) (fun _ => rfl) h

theorem settings_of_withoutTask {s t : State} {b : Nat} {x : Berth} (h : withoutTask t = withoutTask (setBerth s b x)) :
    settings t = settings s := of_withoutTask (s := setBerth s b x) settings (fun _ => rfl) h

theorem stopped_of_ctxs {s r t : State} {b : Nat} (h : ∀ q c, ctxOf r q c = ctxOf s q c) (k : Stopped r t b) : Stopped s t b := by
  obtain ⟨ctxs, rest⟩ := k
  refine ⟨fun n hn hBerth hNamed => ctxs n hn ?_ ?_, rest⟩
  · rw [h]; exact hBerth
  · rw [h]; exact hNamed

end Sys2Proof.Proofs
end


section
/-! ABORT, PREEMPT, RESUME and DISABLE_BERTH as they are taken (R121, R507, R510-R515). -/

namespace Sys2Proof.Proofs

open Sys2Proof Sys2Proof.Machine Sys2Proof.Safety Sys2Proof.Laws

/-! ### What a record leaves of a landing -/

/-- What a landing keeps when a record joins its ring: everything but the sequence, the losses and the records that wait. -/
theorem land_emit {β : Type} (part : LandingSt → β) (hp : ∀ (x : LandingSt) d n w, part { x with dseq := d, lost := n, waiting := w } = part x)
    (s : State) (l : Nat) (r : Rec) (j : Nat) : part (landOf (emit s l r) j) = part (landOf s j) := by
  have set (x : LandingSt) (h : part x = part (landOf s l)) : part (landOf (setLand s l x) j) = part (landOf s j) := by
    rw [landOf_setLand]
    split
    case isTrue same => rw [h, same]
    case isFalse => rfl
  have written : part (landOf (writeRecord s l r) j) = part (landOf s j) := by
    have numbered (c : Nat) (k : ReqKind) (p : Nat) (w : Roce) :
        part (landOf (request (setLand s l { landOf s l with dseq := (landOf s l).dseq + 1, lost := 0 }) c k p w) j) = part (landOf s j) := by
      rw [landOf_request]
      exact set _ (hp (landOf s l) _ _ (landOf s l).waiting)
    unfold writeRecord
    dsimp only
    split
    · exact numbered ..
    · exact numbered ..
  unfold emit
  dsimp only
  split
  · exact written
  · split
    · exact set _ (hp (landOf s l) (landOf s l).dseq _ (landOf s l).waiting)
    · exact set _ (hp (landOf s l) (landOf s l).dseq (landOf s l).lost _)

theorem h_answer (s : State) (l : Nat) (h : Header) (status : Nat) (rest : List Byte) (j : Nat) :
    (landOf (answer s l h status rest) j).h = (landOf s j).h := land_emit LandingSt.h (fun _ _ _ _ => rfl) ..

/-- H has moved to the HSEQ of a message that is taken and is no QUERY. -/
theorem h_received_of_taken {s : State} {l type : Nat} {m : Msg} (h : Taken s l type m) (task : type ≠ 6) :
    (landOf (received s l m) l).h = (headerOf m.data).hseq := by
  obtain ⟨-, -, hType, -⟩ := h
  have other : (headerOf m.data).type ≠ 6 := fun query => task (hType.symm.trans query)
  rw [h_received, if_neg other]

/-! ### ABORT (R510) -/

theorem doAbort_of_current {r : State} {l : Nat} (m : Msg) {h : Header} (cur : (berthOf r (h.berth % 16)).cur = some h.task) :
    doAbort l r m h = latchEnd (answer r l h 0x00 []) (h.berth % 16) { status := 1, cause := 1, hseq := h.hseq } .idle := if_pos cur

/-- What ABORT answers for a task that is not the current one. -/
theorem doAbort_of_other {r : State} {l : Nat} (m : Msg) {h : Header} (cur : (berthOf r (h.berth % 16)).cur ≠ some h.task) :
    doAbort l r m h = answer r l h (if (berthOf r (h.berth % 16)).last = some h.task then 4 else 3) [] := by
  rw [doAbort, if_neg cur]
  split <;> rfl

/-- ABORT of the current task: its end is latched. -/
theorem abort_ends {s : State} {l : Fin 17} {m : Msg} (hTaken : Taken s l 2 m)
    (cur : (berthOf s ((headerOf m.data).berth % 16)).cur = some (headerOf m.data).task)
    (open_ : (berthOf s ((headerOf m.data).berth % 16)).ended = none) :
    ∃ t e, exec (.abort l) s = .next t ∧ (berthOf t ((headerOf m.data).berth % 16)).ended = some e ∧ e.status = 1 ∧ e.cause = 1 ∧
      e.hseq = (headerOf m.data).hseq ∧ e.tide = s.time.tide ∧ Stopped s t ((headerOf m.data).berth % 16) ∧
      (landOf t l).h = (headerOf m.data).hseq ∧ SettingsKept s t ∧ ∀ c, c ≠ (headerOf m.data).berth % 16 → berthOf t c = berthOf s c := by
  have act := doAbort_of_current (l := l.val) m
    ((congrArg Berth.cur (berthOf_of_onlyRecords (received_only s l m) ((headerOf m.data).berth % 16))).trans cur)
  have replied := (received_only s l m).trans (answer_only (received s l m) l (headerOf m.data) 0 [])
  have head := (h_answer (received s l m) l (headerOf m.data) 0 [] l).trans (h_received_of_taken hTaken (by decide))
  have full : (landOf (answer (received s l m) l (headerOf m.data) 0 []) l).bufs = (landOf (received s l m) l).bufs := bufs_answer ..
  have run := onMsg_of_taken_last (doAbort l) hTaken
  generalize answer (received s l m) l (headerOf m.data) 0 [] = r at act replied head full
  generalize hb : (headerOf m.data).berth % 16 = b at *
  have same (c : Nat) : berthOf r c = berthOf s c := berthOf_of_onlyRecords replied c
  have live : taskLive r b = true := by simp [taskLive, same, cur, open_]
  obtain ⟨x, ended, -, -, -, task, stopped⟩ := latchEnd_of_live (info := { status := 1, cause := 1, hseq := (headerOf m.data).hseq }) live
    (Nat.succ_ne_zero 0) .idle
  rw [act, landOf_of_withoutTask task] at run
  refine ⟨_, latchedInfo r b { status := 1, cause := 1, hseq := (headerOf m.data).hseq }, congrArg Host.Outcome.next (run full), ?_, rfl, rfl,
    rfl, ?_, stopped_of_ctxs (fun q c => replied.ctx q c) stopped, ?_, ?_, fun c hc => ?_⟩
  · rw [berthOf_of_withoutTask task, if_pos rfl, ended]
  · have time : r.time = s.time := by rw [OnlyRecords] at replied; rw [replied]
    exact congrArg TimeUnit.tide time
  · rw [landOf_of_withoutTask task, head]
  · exact settingsKept_of ((settings_of_withoutTask task).trans (settings_of_onlyRecords replied))
  · rw [berthOf_of_withoutTask task, if_neg (Ne.symm hc), same]

/-! ### PREEMPT (R121, R511, R512) -/

/-- The state without what cutting and restoring passes may change. -/
def withoutRestore (s : State) : State := { withoutArray s with stk := [], poison := [], hbm := {}, berths := [], nextId := 0 }

theorem of_withoutRestore {β : Type} (part : State → β) (hm : ∀ u, part (withoutRestore u) = part u) {s t : State}
    (h : withoutRestore t = withoutRestore s) : part t = part s := by rw [← hm, h, hm]

theorem withoutRestore_of_array {s t : State} (h : withoutArray t = withoutArray s) : withoutRestore t = withoutRestore s :=
  congrArg (fun u : State => { u with stk := [], poison := [], hbm := {}, berths := [], nextId := 0 }) h

theorem withoutArray_undoPasses (o : PassOps) (r : Run) (l : List Nat) (s : State) :
    withoutArray (l.foldl (undoPass o r) s) = withoutArray s :=
  foldl_keeps (f := undoPass o r) withoutArray (fun _ _ => rfl) l s

/-- The clamps of a run show in its decks, where the run is still there. -/
def shownCut (s : State) (id slot : Nat) : State :=
  match runOf s id with
  | some x => showClamps s x slot
  | none => s

/-- The berth of a run knows its pass as suspended. -/
def passSuspended (r : Run) (step : Nat) (s : State) : State :=
  setBerth s r.berth { berthOf s r.berth with
    suspended := (berthOf s r.berth).suspended ++ [{ q := r.q, c := r.c, cmd := r.cmd, quad := r.pass.quad, step := step }] }

theorem cutPass_eq (s : State) (r : Run) (o : PassOps) (step : Nat) :
    ∃ r1 part, cutPass s r o step = passSuspended r step (shownCut (streamPart (r.decks.foldl (undoPass o r) s) r1 o part) r.id o.slot) :=
  ⟨_, _, rfl⟩

theorem withoutArray_shownCut (s : State) (id slot : Nat) : withoutArray (shownCut s id slot) = withoutArray s := by
  unfold shownCut
  split
  · exact withoutArray_showClamps ..
  · rfl

theorem withoutRestore_setBerth (s : State) (b : Nat) (x : Berth) : withoutRestore (setBerth s b x) = withoutRestore s := rfl

/-- A berth without its suspended passes. -/
def lessSuspended (x : Berth) : Berth := { x with suspended := [] }

theorem passSuspended_keeps (r : Run) (step : Nat) (s : State) :
    withoutRestore (passSuspended r step s) = withoutRestore s ∧
      ∀ c, lessSuspended (berthOf (passSuspended r step s) c) = lessSuspended (berthOf s c) := by
  refine ⟨rfl, fun c => ?_⟩
  unfold passSuspended
  rw [berthOf_setBerth]
  split
  case isTrue same => rw [same]; rfl
  case isFalse => rfl

theorem berthOf_of_withoutArray {s t : State} (h : withoutArray t = withoutArray s) (c : Nat) : berthOf t c = berthOf s c := by
  have berths : (withoutArray t).berths = (withoutArray s).berths := by rw [h]
  exact congrArg (fun l => tget ({} : Berth) l c) berths

/-- A pass that is cut: beside its decks and its run, its berth alone knows it as suspended. -/
theorem cutPass_keeps (s : State) (r : Run) (o : PassOps) (step : Nat) :
    withoutRestore (cutPass s r o step) = withoutRestore s ∧
      ∀ c, lessSuspended (berthOf (cutPass s r o step) c) = lessSuspended (berthOf s c) := by
  obtain ⟨r1, part, cut⟩ := cutPass_eq s r o step
  have shown : withoutArray (shownCut (streamPart (r.decks.foldl (undoPass o r) s) r1 o part) r.id o.slot) = withoutArray s := by
    rw [withoutArray_shownCut, (streamPart_keeps ..).1, withoutArray_undoPasses]
  obtain ⟨rest, berths⟩ := passSuspended_keeps r step (shownCut (streamPart (r.decks.foldl (undoPass o r) s) r1 o part) r.id o.slot)
  rw [cut]
  exact ⟨rest.trans (withoutRestore_of_array shown), fun c => (berths c).trans (by rw [berthOf_of_withoutArray shown])⟩

theorem cutAll_keeps (b : Nat) (cuts : List (Nat × Nat)) (s : State) :
    withoutRestore (cutAll b cuts s) = withoutRestore s ∧ ∀ c, lessSuspended (berthOf (cutAll b cuts s) c) = lessSuspended (berthOf s c) := by
  refine List.foldlRecOn (motive := fun t => withoutRestore t = withoutRestore s ∧
    ∀ c, lessSuspended (berthOf t c) = lessSuspended (berthOf s c)) cuts _ ⟨rfl, fun _ => rfl⟩ (fun t ht e _ => ?_)
  split
  case h_2 => exact ht
  next r _ =>
    split
    case h_2 => exact ht
    next o _ =>
      dsimp only
      split
      case isFalse => exact ht
      case isTrue =>
        obtain ⟨rest, berths⟩ := cutPass_keeps t r o e.2
        exact ⟨rest.trans ht.1, fun c => (berths c).trans (ht.2 c)⟩

/-- A berth whose task is being suspended. -/
def suspendingBerth (l : Nat) (h : Header) (x : Berth) : Berth :=
  { x with st := .suspending, preemptOwed := some { landing := l, berth := h.berth % 16, hseq := h.hseq, task := h.task, type := 3 } }

theorem doPreempt_of_running {r : State} {l : Nat} {cuts : List (Nat × Nat)} (m : Msg) {h : Header}
    (cur : (berthOf r (h.berth % 16)).cur = some h.task) (open_ : (berthOf r (h.berth % 16)).ended = none)
    (running : (berthOf r (h.berth % 16)).st = .running) :
    doPreempt l cuts r m h = cutAll (h.berth % 16) cuts (setBerth r (h.berth % 16) (suspendingBerth l h (berthOf r (h.berth % 16)))) := by
  simp only [doPreempt, cur, open_, running, Option.isSome_none, Bool.false_eq_true, if_true, if_false, suspendingBerth]

theorem settings_of_withoutRestore {s t : State} (h : withoutRestore t = withoutRestore s) : settings t = settings s :=
  of_withoutRestore settings (fun _ => rfl) h

theorem landOf_of_withoutRestore {s t : State} (h : withoutRestore t = withoutRestore s) (j : Nat) : landOf t j = landOf s j :=
  of_withoutRestore (fun u => landOf u j) (fun _ => rfl) h

/-- PREEMPT of the running task: the task is suspending, and its REPLY is owed. -/
theorem preempt_suspends {s : State} {l : Fin 17} {m : Msg} {cuts : List (Nat × Nat)} (hTaken : Taken s l 3 m)
    (cur : (berthOf s ((headerOf m.data).berth % 16)).cur = some (headerOf m.data).task)
    (open_ : (berthOf s ((headerOf m.data).berth % 16)).ended = none)
    (running : (berthOf s ((headerOf m.data).berth % 16)).st = .running) :
    ∃ t, exec (.preempt l cuts) s = .next t ∧ (berthOf t ((headerOf m.data).berth % 16)).st = .suspending ∧
      (berthOf t ((headerOf m.data).berth % 16)).cur = (berthOf s ((headerOf m.data).berth % 16)).cur ∧
      (∃ o, (berthOf t ((headerOf m.data).berth % 16)).preemptOwed = some o ∧ o.hseq = (headerOf m.data).hseq ∧ o.landing = l.val) ∧
      SettingsKept s t ∧ (cuts = [] → t = { received s l m with berths := t.berths }) := by
  have taken := received_only s l m
  have act := doPreempt_of_running (r := received s l m) (l := l.val) (cuts := cuts) m (h := headerOf m.data)
    (by rw [berthOf_received]; exact cur) (by rw [berthOf_received]; exact open_) (by rw [berthOf_received]; exact running)
  obtain ⟨rest, berths⟩ := cutAll_keeps ((headerOf m.data).berth % 16) cuts (setBerth (received s l m) ((headerOf m.data).berth % 16)
    (suspendingBerth l (headerOf m.data) (berthOf (received s l m) ((headerOf m.data).berth % 16))))
  rw [withoutRestore_setBerth] at rest
  have own := berths ((headerOf m.data).berth % 16)
  have run := onMsg_of_taken_last (doPreempt l cuts) hTaken (by rw [act, landOf_of_withoutRestore rest])
  rw [act] at run
  rw [berthOf_setBerth, if_pos rfl] at own
  rw [berthOf_received] at own rest run
  have kept {β : Type} (part : Berth → β) (hp : ∀ x, part (lessSuspended x) = part x) := (hp _).symm.trans ((congrArg part own).trans (hp _))
  refine ⟨_, congrArg Host.Outcome.next run, kept Berth.st (fun _ => rfl), kept Berth.cur (fun _ => rfl),
    ⟨_, kept Berth.preemptOwed (fun _ => rfl), rfl, rfl⟩, ?_, ?_⟩
  · exact settingsKept_of ((settings_of_withoutRestore rest).trans (settings_of_onlyRecords taken))
  · rintro rfl
    rfl

/-! ### What restoring a task leaves (R125) -/

theorem withoutRestore_of_raised {s t : State} (h : withoutRaised t = withoutRaised s) : withoutRestore t = withoutRestore s :=
  withoutRestore_of_array (withoutArray_of_raised h)

theorem withoutRestore_raise (s : State) (level unit code : Nat) (berth : Option Nat) (task : Option Word) (detail : Nat) :
    withoutRestore (raise s level unit code berth task detail) = withoutRestore s := withoutRestore_of_raised (withoutRaised_raise ..)

theorem withoutRestore_raiseReq (s : State) (w : Requester) (level unit code detail : Nat) :
    withoutRestore (raiseReq s w level unit code detail) = withoutRestore s := withoutRestore_raise ..

theorem withoutRestore_raiseBerth (s : State) (level unit code b detail : Nat) :
    withoutRestore (raiseBerth s level unit code b detail) = withoutRestore s := withoutRestore_of_raised (withoutRaised_raiseBerth ..)

theorem withoutRestore_corrBlock (w : Requester) (s : State) (a : Nat) : withoutRestore (corrBlock w s a) = withoutRestore s := by
  have counted (may : Bool) (x y : Stack) : withoutRestore (if may then raiseReq (setStack s (stackAt s a) x) w 2 (16 + stackAt s a) 0x30
      (blockDetail s a) else setStack s (stackAt s a) y) = withoutRestore s := by
    cases may with
    | true => exact withoutRestore_raiseReq ..
    | false => rfl
  exact counted ..

theorem withoutRestore_blockRead (w : Requester) (s : State) (e : BlockErr) : withoutRestore (blockRead w s e).1 = withoutRestore s := by
  have back (t : State) (b : Nat) (data : List Byte) : withoutRestore (writeBack t b data) = withoutRestore t := by
    unfold writeBack
    split <;> rfl
  unfold blockRead
  dsimp only
  split
  · rfl
  · split
    · exact withoutRestore_raiseReq ..
    · dsimp only
      split
      · split
        · rw [back, withoutRestore_corrBlock]
        · exact back ..
      · split
        · exact withoutRestore_corrBlock ..
        · rfl

theorem withoutRestore_readErrors (w : Requester) (errs : List BlockErr) (a len : Nat) (s : State) :
    withoutRestore (readErrors w errs a len s).1 = withoutRestore s :=
  foldl_keeps (f := fun (p : State × List Host.Cell × Bool) e =>
    ((blockRead w p.1 e).1, p.2.1 ++ (blockRead w p.1 e).2.1, p.2.2 || (blockRead w p.1 e).2.2)) (fun p => withoutRestore p.1)
    (fun _ _ => withoutRestore_blockRead ..) _ _

theorem withoutRestore_odeccAdd (s : State) (a n : Nat) : withoutRestore (odeccAdd s a n) = withoutRestore s := by
  unfold odeccAdd
  split <;> rfl

theorem withoutRestore_readFound (s : State) (w : Requester) (a len : Nat) (mem : HbmOutcome) :
    withoutRestore (readFound s w a len mem).1 = withoutRestore s := by
  have errors := (withoutRestore_readErrors w mem.errs a len (odeccAdd s a mem.onDie)).trans (withoutRestore_odeccAdd s a mem.onDie)
  unfold readFound
  dsimp only
  split
  · dsimp only
    split
    · exact errors
    · exact (withoutRestore_raiseReq ..).trans errors
  · exact errors

theorem withoutRestore_stepRead (s : State) (w : Requester) (b a len : Nat) (mem : HbmOutcome) :
    withoutRestore (stepRead s w b a len mem).1 = withoutRestore s := by
  unfold stepRead
  split
  · exact withoutRestore_raiseReq ..
  · unfold readAllowed
    split
    · split
      · exact withoutRestore_raiseReq ..
      · exact withoutRestore_readFound ..
    · exact withoutRestore_readFound ..

theorem withoutRestore_readAs {α : Type} (p : State × Option (List Byte)) (f : List Byte → α) :
    withoutRestore (readAs p f).1 = withoutRestore p.1 := rfl

theorem withoutRestore_readPage (w : Nat → Nat → Requester) (b : Nat) (mem : HbmOutcome) (a : State × Option (List (Nat × Nat × List Byte)))
    (e : Nat × Nat) : withoutRestore (readPage w b mem a e).1 = withoutRestore a.1 := by
  unfold readPage
  split
  · rfl
  · rw [withoutRestore_readAs, withoutRestore_stepRead]

theorem withoutRestore_readPages (w : Nat → Nat → Requester) (b : Nat) (mem : HbmOutcome) (l : List (Nat × Nat)) (s : State) :
    withoutRestore (readPages w b mem l s).1 = withoutRestore s :=
  foldl_keeps (f := readPage w b mem) (fun a => withoutRestore a.1) (withoutRestore_readPage w b mem) l (s, some [])

theorem withoutRestore_restoreFrom (e : Nat × Nat × List Byte) (i : Nat) (ok : Bool) (p : State × Option (List Byte)) :
    withoutRestore (restoreFrom e i ok p).1 = withoutRestore p.1 := by
  unfold restoreFrom
  split <;> rfl

theorem withoutRestore_restoreAll (w : Nat → Nat → Requester) (b : Nat) (mem : HbmOutcome) (sel : List Nat)
    (l : List (Nat × Nat × List Byte)) (s : State) : withoutRestore (restoreAll w b mem sel l s).1 = withoutRestore s := by
  have image (e : Nat × Nat × List Byte) (z : State × Bool) (i : Nat) : withoutRestore (restoreImage w b mem e z i).1 = withoutRestore z.1 := by
    rw [restoreImage, withoutRestore_restoreFrom, withoutRestore_stepRead]
  exact foldl_keeps (f := fun (a : State × Bool) e => sel.foldl (restoreImage w b mem e) a) (fun a => withoutRestore a.1)
    (fun a e => foldl_keeps (f := restoreImage w b mem e) (fun a => withoutRestore a.1) (image e) sel a) l (s, true)

theorem withoutRestore_enterPass (s : State) (r : Run) (o : PassOps) (from_ : Nat) (clear : Bool) (pre : List (Nat × Mem)) :
    withoutRestore (enterPass s r o from_ clear pre) = withoutRestore s := by
  obtain ⟨bind, p, groups, e⟩ := enterPass_eq s r o from_ clear pre
  rw [e]
  exact withoutRestore_of_array (streamPart_keeps ..).1

theorem withoutRestore_freshId (s : State) (runs : List Run) :
    withoutRestore { (freshId s).2 with runs := runs } = withoutRestore s := rfl

theorem withoutRestore_reenterPass (b : Nat) (s : State) (x : SuspendedPass) : withoutRestore (reenterPass b s x) = withoutRestore s := by
  unfold reenterPass
  split
  · dsimp only
    rw [withoutRestore_enterPass, withoutRestore_freshId]
  · rfl

theorem withoutRestore_reenterAll (s : State) (b : Nat) (l : List (Nat × Nat × List Byte)) :
    withoutRestore (reenterAll s b l) = withoutRestore s := by
  unfold reenterAll
  dsimp only
  rw [foldl_keeps (f := reenterPass b) withoutRestore (withoutRestore_reenterPass b),
    foldl_keeps (f := fun t (e : SuspendedPass) => inuseDown t e.cmd.uses) withoutRestore
      (fun t e => withoutRestore_of_array (inuseDown_keeps t e.cmd.uses).1), withoutRestore_setBerth]

theorem withoutRestore_setRestore (s : State) (b : Nat) (r : Restore) : withoutRestore (setRestore s b r) = withoutRestore s := rfl

theorem withoutRestore_restorePages (s : State) (b : Nat) (mem : HbmOutcome) (l : List (Nat × Nat × List Byte)) :
    withoutRestore (restorePages s b mem l) = withoutRestore s := by
  unfold restorePages
  split
  · exact (withoutRestore_setRestore ..).trans (withoutRestore_raiseBerth ..)
  · dsimp only
    split
    · exact (withoutRestore_reenterAll ..).trans (withoutRestore_restoreAll ..)
    · exact (withoutRestore_setRestore ..).trans (withoutRestore_restoreAll ..)

theorem withoutRestore_restoreTask (s : State) (b : Nat) (mem : HbmOutcome) : withoutRestore (restoreTask s b mem) = withoutRestore s := by
  unfold restoreTask
  split
  · exact (withoutRestore_setRestore ..).trans (withoutRestore_raiseBerth ..)
  · dsimp only
    split
    · exact (withoutRestore_setRestore ..).trans (withoutRestore_readPages ..)
    · exact (withoutRestore_restorePages ..).trans (withoutRestore_readPages ..)

/-! ### RESUME (R514, R576) -/

/-- A berth whose task is resuming. -/
def resumingBerth (s : State) (x : Berth) : Berth :=
  { x with st := .resuming, suspFor := x.suspFor + (s.time.mono - x.suspSince), ranSince := s.time.mono, restore := .waiting }

/-- The state in which a RESUME has been answered, its timers going on and its decks still to be restored. -/
def resuming (r : State) (l : Nat) (h : Header) : State :=
  answer (mapTimers (setBerth r (h.berth % 16) (resumingBerth r (berthOf r (h.berth % 16)))) (h.berth % 16)
    (timerGo (setBerth r (h.berth % 16) (resumingBerth r (berthOf r (h.berth % 16)))))) l h 0x00 []

theorem doResume_of_suspended {r : State} {l : Nat} {mem : HbmOutcome} (m : Msg) {h : Header}
    (cur : (berthOf r (h.berth % 16)).cur = some h.task) (open_ : (berthOf r (h.berth % 16)).ended = none)
    (suspended : (berthOf r (h.berth % 16)).st = .suspended) :
    doResume l mem r m h = tryRestore (resuming r l h) (h.berth % 16) mem := by
  have goes : ((berthOf r (h.berth % 16)).ended.isSome || (berthOf r (h.berth % 16)).st != .suspended) = false := by
    simp [open_, suspended]
  simp only [doResume, cur, goes, Bool.false_eq_true, if_true, if_false, resuming, resumingBerth]

theorem berthOf_mapTimers (s : State) (b : Nat) (f : Timer → Timer) (c : Nat) : berthOf (mapTimers s b f) c = berthOf s c := rfl

theorem resuming_only (r : State) (l : Nat) (h : Header) :
    OnlyRecords (mapTimers (setBerth r (h.berth % 16) (resumingBerth r (berthOf r (h.berth % 16)))) (h.berth % 16)
      (timerGo (setBerth r (h.berth % 16) (resumingBerth r (berthOf r (h.berth % 16)))))) (resuming r l h) := answer_only ..

theorem berthOf_resuming (r : State) (l : Nat) (h : Header) (c : Nat) : berthOf (resuming r l h) c =
    if h.berth % 16 = c then resumingBerth r (berthOf r (h.berth % 16)) else berthOf r c := by
  rw [berthOf_of_onlyRecords (resuming_only r l h), berthOf_mapTimers, berthOf_setBerth]

/-- What the start of a resumption leaves of the parts that `part` reads. -/
theorem of_resuming {β : Type} (part : State → β) (hp : ∀ u v, OnlyRecords u v → part v = part u)
    (hm : ∀ u b f, part (mapTimers u b f) = part u) (hb : ∀ u b x, part (setBerth u b x) = part u) (r : State) (l : Nat) (h : Header) :
    part (resuming r l h) = part r := by
  rw [hp _ _ (resuming_only r l h), hm, hb]

theorem bistHolds_congr {s t : State} (hd : t.diag = s.diag) (hc : ∀ c, (berthOf t c).cfg = (berthOf s c).cfg) (b : Nat) :
    bistHolds t b = bistHolds s b := by
  have held (d : Nat) : deckBerth t d = deckBerth s d := by
    unfold deckBerth
    simp only [hc]
  unfold bistHolds
  rw [hd]
  split
  · rw [held]
  · rfl

theorem decksRoom_congr {s t : State} {b : Nat} (htrk : t.trk = s.trk) (halloc : t.trkAlloc = s.trkAlloc) (hd : t.decks = s.decks)
    (hb : (berthOf t b).taskDecks = (berthOf s b).taskDecks) : decksRoom t b = decksRoom s b := by
  have open_ (n : Nat) : allotOpen t n = allotOpen s n := by
    unfold allotOpen allotUsed allotSize deckFenced deckOf
    rw [htrk, halloc, hd]
  have used : usedDecks t b = usedDecks s b := by
    unfold usedDecks
    rw [hb]
  unfold decksRoom stepRoom
  rw [used, funext open_]

theorem restoreReady_resuming (r : State) (l : Nat) (h : Header) :
    restoreReady (resuming r l h) (h.berth % 16) = (!bistHolds r (h.berth % 16) && decksRoom r (h.berth % 16)) := by
  have cfg (c : Nat) : (berthOf (resuming r l h) c).cfg = (berthOf r c).cfg := by
    rw [berthOf_resuming]
    split
    case isTrue same => rw [same]; rfl
    case isFalse => rfl
  have bist := bistHolds_congr (of_resuming State.diag (fun u v k => by rw [OnlyRecords] at k; rw [k]) (fun _ _ _ => rfl) (fun _ _ _ => rfl) r l h)
    cfg (h.berth % 16)
  have room := decksRoom_congr (b := h.berth % 16)
    (of_resuming State.trk (fun u v k => by rw [OnlyRecords] at k; rw [k]) (fun _ _ _ => rfl) (fun _ _ _ => rfl) r l h)
    (of_resuming State.trkAlloc (fun u v k => by rw [OnlyRecords] at k; rw [k]) (fun _ _ _ => rfl) (fun _ _ _ => rfl) r l h)
    (of_resuming State.decks (fun u v k => by rw [OnlyRecords] at k; rw [k]) (fun _ _ _ => rfl) (fun _ _ _ => rfl) r l h)
    (by rw [berthOf_resuming, if_pos rfl]; rfl)
  have waiting : (berthOf (resuming r l h) (h.berth % 16)).restore = .waiting := by rw [berthOf_resuming, if_pos rfl]; rfl
  rw [restoreReady, waiting, bist, room]
  rfl

theorem bufs_resuming (r : State) (l : Nat) (h : Header) (j : Nat) : (landOf (resuming r l h) j).bufs = (landOf r j).bufs := by
  unfold resuming
  rw [bufs_answer]
  rfl

@[simp] theorem decksRoom_received (s : State) (l : Nat) (m : Msg) (b : Nat) : decksRoom (received s l m) b = decksRoom s b := by
  unfold received
  split <;> rfl

/-- RESUME of the suspended task: it is resuming, and its decks are restored as soon as they can be. -/
theorem exec_resume_of_suspended {s : State} {l : Fin 17} {m : Msg} {mem : HbmOutcome} (hTaken : Taken s l 4 m)
    (cur : (berthOf s ((headerOf m.data).berth % 16)).cur = some (headerOf m.data).task)
    (open_ : (berthOf s ((headerOf m.data).berth % 16)).ended = none)
    (suspended : (berthOf s ((headerOf m.data).berth % 16)).st = .suspended) :
    exec (.resume l mem) s = .next (if bistHolds s ((headerOf m.data).berth % 16) = false ∧ decksRoom s ((headerOf m.data).berth % 16) = true
      then restoreTask (resuming (received s l m) l (headerOf m.data)) ((headerOf m.data).berth % 16) mem
      else resuming (received s l m) l (headerOf m.data)) := by
  have act := doResume_of_suspended (r := received s l m) (l := l.val) (mem := mem) m (h := headerOf m.data)
    (by rw [berthOf_received]; exact cur) (by rw [berthOf_received]; exact open_) (by rw [berthOf_received]; exact suspended)
  have ready := restoreReady_resuming (received s l m) l (headerOf m.data)
  rw [bistHolds_received, decksRoom_received] at ready
  have chosen : tryRestore (resuming (received s l m) l (headerOf m.data)) ((headerOf m.data).berth % 16) mem =
      if bistHolds s ((headerOf m.data).berth % 16) = false ∧ decksRoom s ((headerOf m.data).berth % 16) = true
      then restoreTask (resuming (received s l m) l (headerOf m.data)) ((headerOf m.data).berth % 16) mem
      else resuming (received s l m) l (headerOf m.data) := by
    rw [tryRestore, ready]
    simp only [Bool.and_eq_true, Bool.not_eq_true']
  have last : (landOf (doResume l mem (received s l m) m (headerOf m.data)) l).bufs = (landOf (received s l m) l).bufs := by
    rw [act, tryRestore]
    split
    · rw [landOf_of_withoutRestore (withoutRestore_restoreTask ..), bufs_resuming]
    · exact bufs_resuming ..
  rw [← chosen, ← act]
  exact congrArg Host.Outcome.next (onMsg_of_taken_last (doResume l mem) hTaken last)

/-! ### DISABLE_BERTH (R515) -/

/-- A berth without a live task stops: its named contexts are idle with nothing queued, and beside the task's own parts nothing changes. -/
theorem stopIdle_spec (s : State) (b : Nat) : ∃ x, withoutTask (stopIdle s b) = withoutTask (setBerth s b x) ∧
    ∀ n, n < 72 → (ctxOf s (n / 18) (n % 18)).berth = some b → (ctxOf s (n / 18) (n % 18)).named = true →
      (ctxOf (stopIdle s b) (n / 18) (n % 18)).mode = .idle ∧ (ctxOf (stopIdle s b) (n / 18) (n % 18)).queue = [] := by
  obtain ⟨hs, x, freed, -⟩ := freeHalves_eq s b
  have halves : withoutTask (freeHalves s b) = withoutTask (setBerth s b x) := by rw [freed]; rfl
  have ctxs := withoutCtxs_stopCtxs (namedCtxs s b) (freeHalves s b)
  have parts : stopIdle s b = undefineFlags (berthFlags (stopCtxs (namedCtxs s b) (freeHalves s b)) b)
      (stopCtxs (namedCtxs s b) (freeHalves s b)) := rfl
  refine ⟨x, ?_, fun n hn hBerth hNamed => ?_⟩
  · rw [parts, withoutTask_undefineFlags, withoutTask_of_ctxs ctxs, halves]
  · obtain ⟨mode, queue, -⟩ := stopped_stopCtxs (mem_namedCtxs.mpr ⟨hn, hBerth, hNamed⟩) (freeHalves s b)
    have ctx : ctxAt (stopIdle s b) n = ctxAt (stopCtxs (namedCtxs s b) (freeHalves s b)) n := by
      rw [parts]
      exact undefineFlags_keeps (fun u => ctxAt u n) (fun _ j _ => by cases j <;> rfl) (fun _ => rfl) _ _
    rw [← ctx] at mode queue
    exact ⟨mode, queue⟩

/-- A berth that is being disabled. -/
def disablingBerth (s : State) (l : Nat) (h : Header) (x : Berth) : Berth :=
  { x with st := .disabling, disableAt := s.time.mono,
           disableOwed := some { landing := l, berth := h.berth % 16, hseq := h.hseq, task := h.task, type := 5 } }

/-- What DISABLE_BERTH does first: it ends the live task, or stops what the berth still has. -/
def disableStop (s : State) (h : Header) : State :=
  if taskLive s (h.berth % 16) then latchEnd s (h.berth % 16) { status := 2, cause := 3, hseq := h.hseq } .disabled
  else stopIdle s (h.berth % 16)

theorem doDisable_eq (l : Nat) (s : State) (m : Msg) (h : Header) : doDisable l s m h =
    setBerth (disableStop s h) (h.berth % 16) (disablingBerth s l h (berthOf (disableStop s h) (h.berth % 16))) := rfl

theorem disableStop_spec (s : State) (h : Header) : ∃ x, withoutTask (disableStop s h) = withoutTask (setBerth s (h.berth % 16) x) ∧
    (∀ n, n < 72 → (ctxOf s (n / 18) (n % 18)).berth = some (h.berth % 16) → (ctxOf s (n / 18) (n % 18)).named = true →
      (ctxOf (disableStop s h) (n / 18) (n % 18)).mode = .idle ∧ (ctxOf (disableStop s h) (n / 18) (n % 18)).queue = []) ∧
    (taskLive s (h.berth % 16) = true → Stopped s (disableStop s h) (h.berth % 16) ∧
      x.ended = some (latchedInfo s (h.berth % 16) { status := 2, cause := 3, hseq := h.hseq })) := by
  unfold disableStop
  split
  case isTrue live =>
    obtain ⟨x, ended, -, -, -, task, stopped⟩ := latchEnd_of_live (info := { status := 2, cause := 3, hseq := h.hseq }) live
      (Nat.succ_ne_zero 1) .disabled
    refine ⟨x, task, fun n hn hBerth hNamed => ?_, fun _ => ⟨stopped, ended⟩⟩
    obtain ⟨mode, queue, -⟩ := stopped.1 n hn hBerth hNamed
    exact ⟨mode, queue⟩
  case isFalse idle =>
    obtain ⟨x, task, ctxs⟩ := stopIdle_spec s (h.berth % 16)
    exact ⟨x, task, ctxs, fun live => absurd live idle⟩

/-! ### The four messages together -/

theorem doAbort_late {r : State} {l : Nat} (m : Msg) {h : Header} (cur : (berthOf r (h.berth % 16)).cur = some h.task)
    (past : (berthOf r (h.berth % 16)).ended.isSome = true) : doAbort l r m h = answer r l h 0 [] := by
  rw [doAbort_of_current m cur]
  refine latchEnd_of_not_live ?_ _ _
  rw [taskLive, berthOf_of_onlyRecords (answer_only r l h 0 [])]
  simp [past]

/-- What PREEMPT answers when there is nothing to suspend. -/
theorem doPreempt_refused {r : State} {l : Nat} {cuts : List (Nat × Nat)} (m : Msg) {h : Header} :
    ((berthOf r (h.berth % 16)).cur = some h.task → (berthOf r (h.berth % 16)).ended = none → (berthOf r (h.berth % 16)).st ≠ .running →
      doPreempt l cuts r m h = answer r l h 6 []) ∧
    ((berthOf r (h.berth % 16)).cur = some h.task → (berthOf r (h.berth % 16)).ended.isSome = true →
      doPreempt l cuts r m h = answer r l h 5 []) ∧
    ((berthOf r (h.berth % 16)).cur ≠ some h.task →
      doPreempt l cuts r m h = answer r l h (if (berthOf r (h.berth % 16)).last = some h.task then 5 else 3) []) := by
  refine ⟨fun cur open_ st => ?_, fun cur past => ?_, fun cur => ?_⟩
  · simp only [doPreempt, cur, open_, st, Option.isSome_none, Bool.false_eq_true, if_true, if_false]
  · simp only [doPreempt, cur, past, if_true]
  · rw [doPreempt, if_neg cur]
    split <;> rfl

/-- What RESUME answers when there is nothing to resume. -/
theorem doResume_refused {r : State} {l : Nat} {mem : HbmOutcome} (m : Msg) {h : Header} :
    (((berthOf r (h.berth % 16)).cur = some h.task ∧
        ((berthOf r (h.berth % 16)).ended.isSome = true ∨ (berthOf r (h.berth % 16)).st ≠ .suspended)) ∨
      ((berthOf r (h.berth % 16)).cur ≠ some h.task ∧ (berthOf r (h.berth % 16)).last = some h.task) →
      doResume l mem r m h = answer r l h 6 []) ∧
    ((berthOf r (h.berth % 16)).cur ≠ some h.task → (berthOf r (h.berth % 16)).last ≠ some h.task →
      doResume l mem r m h = answer r l h 3 []) := by
  constructor
  · rintro (⟨cur, notNow⟩ | ⟨cur, last⟩)
    · have refused : ((berthOf r (h.berth % 16)).ended.isSome || (berthOf r (h.berth % 16)).st != .suspended) = true := by
        simpa using notNow
      simp only [doResume, cur, refused, if_true]
    · rw [doResume, if_neg cur, if_pos last]
  · intro cur last
    rw [doResume, if_neg cur, if_neg last]

/-- Settles O43: each message is its row's function on the state with the message taken; an end is `latchEnd`'s, whose effect `Stopped` says. -/
theorem taskMessagesEndSuspendAndResume : Obligations.TaskMessagesEndSuspendAndResume := by
  unfold Obligations.TaskMessagesEndSuspendAndResume
  rintro s l m b rfl
  have same := berthOf_received s l m ((headerOf m.data).berth % 16)
  refine ⟨fun hTaken => ⟨abort_ends hTaken, fun cur past => ?_, fun cur => ?_⟩,
    fun cuts hTaken => ⟨preempt_suspends hTaken, fun cur open_ st => ?_, fun cur past => ?_, fun cur => ?_⟩,
    fun mem hTaken => ⟨fun cur open_ suspended => ?_, fun refused => ?_, fun cur last => ?_⟩, fun hTaken => ?_⟩
  case refine_1 => exact answers_of_taken (doAbort l) rfl hTaken (doAbort_late m (by rwa [same]) (by rwa [same]))
  case refine_2 =>
    refine answers_of_taken (doAbort l) rfl hTaken ?_
    rw [doAbort_of_other m (by rwa [same]), same]
  case refine_3 => exact answers_of_taken (doPreempt l cuts) rfl hTaken ((doPreempt_refused m).1 (by rwa [same]) (by rwa [same]) (by rwa [same]))
  case refine_4 => exact answers_of_taken (doPreempt l cuts) rfl hTaken ((doPreempt_refused m).2.1 (by rwa [same]) (by rwa [same]))
  case refine_5 =>
    refine answers_of_taken (doPreempt l cuts) rfl hTaken ?_
    rw [(doPreempt_refused m).2.2 (by rwa [same]), same]
  case refine_6 =>
    have own := berthOf_resuming (received s l m) l (headerOf m.data) ((headerOf m.data).berth % 16)
    rw [if_pos rfl, same] at own
    have taken := received_only s l m
    have time : (received s l m).time = s.time := by rw [OnlyRecords] at taken; rw [taken]
    refine ⟨resuming (received s l m) l (headerOf m.data), by rw [own]; rfl, by rw [own]; rfl, ?_, ?_, by rw [own, ← time]; rfl,
      exec_resume_of_suspended hTaken cur open_ suspended⟩
    · exact (of_resuming State.decks (fun u v k => by rw [OnlyRecords] at k; rw [k]) (fun _ _ _ => rfl) (fun _ _ _ => rfl) ..).trans
        (by rw [OnlyRecords] at taken; rw [taken])
    · exact (of_resuming State.hbm (fun u v k => by rw [OnlyRecords] at k; rw [k]) (fun _ _ _ => rfl) (fun _ _ _ => rfl) ..).trans
        (by rw [OnlyRecords] at taken; rw [taken])
  case refine_7 => exact answers_of_taken (doResume l mem) rfl hTaken ((doResume_refused m).1 (by rwa [same]))
  case refine_8 => exact answers_of_taken (doResume l mem) rfl hTaken ((doResume_refused m).2 (by rwa [same]) (by rwa [same]))
  case refine_9 =>
    have taken := received_only s l m
    have act := doDisable_eq l (received s l m) m (headerOf m.data)
    have run := onMsg_of_taken_last (doDisable l) hTaken
    obtain ⟨x, task, ctxs, ended⟩ := disableStop_spec (received s l m) (headerOf m.data)
    have others (c : Nat) := berthOf_of_withoutTask task c
    have time : (received s l m).time = s.time := by rw [OnlyRecords] at taken; rw [taken]
    have ctx : ∀ q c, ctxOf (received s l m) q c = ctxOf s q c := taken.ctx
    have live : taskLive (received s l m) ((headerOf m.data).berth % 16) = taskLive s ((headerOf m.data).berth % 16) := by
      rw [taskLive, same, taskLive]
    rw [act] at run
    refine ⟨_, congrArg Host.Outcome.next (run (congrArg LandingSt.bufs (landOf_of_withoutTask task l))), ?_, ?_, ?_, ?_, ?_, ?_, ?_⟩
    · rw [berthOf_setBerth, if_pos rfl]; rfl
    · rw [berthOf_setBerth, if_pos rfl, ← time]; rfl
    · exact ⟨_, by rw [berthOf_setBerth, if_pos rfl]; rfl, rfl, rfl⟩
    · intro n hn hBerth hNamed
      exact ctxs n hn (by rw [ctx]; exact hBerth) (by rw [ctx]; exact hNamed)
    · intro going
      obtain ⟨stopped, info⟩ := ended (live.trans going)
      refine ⟨stopped_of_ctxs ctx stopped, latchedInfo (received s l m) ((headerOf m.data).berth % 16)
        { status := 2, cause := 3, hseq := (headerOf m.data).hseq }, ?_, rfl, rfl, rfl⟩
      rw [berthOf_setBerth, if_pos rfl, others, if_pos rfl]
      exact info
    · exact settingsKept_of ((settings_of_withoutTask task).trans (settings_of_onlyRecords taken))
    · intro c hc
      rw [berthOf_setBerth, if_neg (Ne.symm hc), others, if_neg (Ne.symm hc), berthOf_received]

end Sys2Proof.Proofs
end


section
/-! A request as it leaves on its connection (R377, R379, R398, R404). -/

namespace Sys2Proof.Proofs

open Sys2Proof Sys2Proof.Machine Sys2Proof.Safety Sys2Proof.Laws

/-- A state that holds what carries requests alone: connections, ports, registers, what is fitted, and what the manifest gives the module. -/
def carriage (s : State) : State := { fitted := s.fitted, rw := s.rw, man := s.man, conns := s.conns, ports := s.ports }

theorem kindPcp_carriage (s : State) (n : Nat) (kind : ReqKind) (sailing : Bool) :
    kindPcp (carriage s) n kind sailing = kindPcp s n kind sailing := by
  unfold kindPcp
  rfl

theorem leaves_carriage (s : State) (n : Nat) (kind : ReqKind) (m : Roce) : Leaves (carriage s) n kind m ↔ Leaves s n kind m := by
  have paused_ (p k : Nat) : paused (carriage s) p k = paused s p k := by
    unfold paused
    rw [show regGet (carriage s) (ptBase p + 0x20) = regGet s (ptBase p + 0x20) from regGet_same rfl rfl _]
    rfl
  have carries_ : carries (carriage s) n = carries s n := rfl
  have port : connPort (carriage s) n = connPort s n := rfl
  unfold Leaves
  rw [kindPcp_carriage, paused_, carries_, port]
  exact Iff.rfl

theorem leaves_of_carriage {s t : State} (h : carriage t = carriage s) {n : Nat} {kind : ReqKind} {m : Roce} (k : Leaves s n kind m) :
    Leaves t n kind m := by
  rw [← leaves_carriage, h, leaves_carriage]
  exact k

theorem leaving_carriage (s : State) (n : Nat) (kind : ReqKind) (m : Roce) : leaving (carriage s) n kind m = leaving s n kind m := by
  have frame (pcp : Nat) : frameOf (carriage s) n pcp m false = frameOf s n pcp m false := rfl
  rw [leaving, kindPcp_carriage, frame, leaving]

theorem leaving_of_carriage {s t : State} (h : carriage t = carriage s) (n : Nat) (kind : ReqKind) (m : Roce) :
    leaving t n kind m = leaving s n kind m := by
  rw [← leaving_carriage, h, leaving_carriage]

theorem conns_sendOn (s : State) (n pcp : Nat) (m : Roce) (sailing : Bool) : (sendOn s n pcp m sailing).conns = s.conns := by
  unfold sendOn sendFrame
  split
  · split <;> rfl
  · rfl

theorem connOf_of_conns {s t : State} (h : t.conns = s.conns) (n : Nat) : connOf t n = connOf s n := by unfold connOf; rw [h]

/-- A connection with a request outstanding, its packets counted. -/
def asking (c : Conn) (x : OutReq) (packets : Nat) : Conn := { c with reqs := c.reqs ++ [x], sqPsn := (c.sqPsn + packets) % 2 ^ 24 }

theorem request_of_mayAsk {s : State} {n : Nat} {m : Roce} (may : mayAsk (connOf s n) (isRead m) = true) (kind : ReqKind) (packets : Nat)
    (sailing : Bool) : request s n kind packets m sailing =
      sendOn (setConn s n (asking (connOf s n) { kind := kind, packets := packets, at_ := s.time.mono, read := isRead m, unsent := none }
        packets)) n (kindPcp s n kind sailing) m sailing := by
  simp only [request, may, if_true, asking]

theorem request_of_waiting {s : State} {n : Nat} {m : Roce} (may : mayAsk (connOf s n) (isRead m) = false) (kind : ReqKind) (packets : Nat)
    (sailing : Bool) : request s n kind packets m sailing = setConn s n (asking (connOf s n)
      { kind := kind, packets := packets, at_ := s.time.mono, read := isRead m, unsent := some m } packets) := by
  simp only [request, may, Bool.false_eq_true, if_false, asking]

/-- The requests of a connection on which one may be sent: the new one joins them, sent. -/
theorem reqs_request {s : State} {n : Nat} {m : Roce} (may : mayAsk (connOf s n) (isRead m) = true) (kind : ReqKind) (packets : Nat)
    (sailing : Bool) : (connOf (request s n kind packets m sailing) n).reqs =
      (connOf s n).reqs ++ [{ kind := kind, packets := packets, at_ := s.time.mono, read := isRead m, unsent := none }] := by
  rw [request_of_mayAsk may, connOf_of_conns (conns_sendOn ..), connOf_setConn, if_pos rfl]
  rfl

/-- What decides how a packet leaves a connection is not changed by its requests. -/
theorem sendOn_asking {s : State} {n : Nat} (x : OutReq) (packets pcp : Nat) (m : Roce) :
    connUsable (setConn s n (asking (connOf s n) x packets)) n = connUsable s n ∧
      carries (setConn s n (asking (connOf s n) x packets)) n = carries s n ∧
      connPort (setConn s n (asking (connOf s n) x packets)) n = connPort s n ∧
      frameOf (setConn s n (asking (connOf s n) x packets)) n pcp m false = frameOf s n pcp m false := by
  have port : connPort (setConn s n (asking (connOf s n) x packets)) n = connPort s n := by
    simp only [connPort, connOf_setConn, if_true]
    rfl
  refine ⟨?_, ?_, port, ?_⟩
  · simp only [connUsable, connOf_setConn, if_true, asking]
  · simp only [carries, port, connMgmt, connOf_setConn, if_true]
    rfl
  · simp only [frameOf, port, nextHop, connOf_setConn, if_true]
    rfl

/-- A request that leaves at once goes out in its frame. -/
theorem out_request {s : State} {n : Nat} {kind : ReqKind} {m : Roce} (h : Leaves s n kind m) (packets : Nat) :
    (request s n kind packets m).out = s.out ++ [leaving s n kind m] := by
  obtain ⟨may, usable, carried, free⟩ := h
  obtain ⟨usable', carried', port, frame⟩ := sendOn_asking (s := s) (n := n)
    { kind := kind, packets := packets, at_ := s.time.mono, read := isRead m, unsent := none } packets (kindPcp s n kind false) m
  have free' : paused (setConn s n (asking (connOf s n)
      { kind := kind, packets := packets, at_ := s.time.mono, read := isRead m, unsent := none } packets)) (connPort s n)
      (kindPcp s n kind false) = false := free
  rw [request_of_mayAsk may, sendOn, usable', carried', usable, carried, Bool.and_self, if_pos rfl, port, frame, sendFrame, free',
    if_neg Bool.false_ne_true]
  rfl

/-- A request on a connection that is not usable goes nowhere. -/
theorem out_request_of_unusable {s : State} {n : Nat} {m : Roce} (h : connUsable s n = false) (kind : ReqKind) (packets : Nat) :
    (request s n kind packets m).out = s.out := by
  cases may : mayAsk (connOf s n) (isRead m) with
  | false => rw [request_of_waiting may]; rfl
  | true =>
    have usable := (sendOn_asking (s := s) (n := n)
      { kind := kind, packets := packets, at_ := s.time.mono, read := isRead m, unsent := none } packets (kindPcp s n kind false) m).1
    rw [request_of_mayAsk may, sendOn, usable, h, Bool.false_and, if_neg Bool.false_ne_true]
    rfl

end Sys2Proof.Proofs
end

section
/-! The end of a task, its COMPLETION, and the records that wait for a ring (R499-R509). -/

namespace Sys2Proof.Proofs

open Sys2Proof Sys2Proof.Machine Sys2Proof.Safety Sys2Proof.Laws

/-! ### The home quay (R507, R508) -/

/-- A berth whose task an end has been latched for. -/
def latchedBerth (s : State) (b : Nat) (info : EndInfo) (after : BerthState) (x : Berth) : Berth :=
  { x with
    ended := some (latchedInfo s b info),
    suspFor := (berthOf s b).suspFor + (if (berthOf s b).st == .suspended then s.time.mono - (berthOf s b).suspSince else 0),
    afterEnd := after }

/-- Completion stops nothing: the berth alone keeps the end. -/
theorem latchEnd_of_completion {s : State} {b : Nat} {info : EndInfo} (live : taskLive s b = true) (done : info.status = 0)
    (after : BerthState) : latchEnd s b info after = setBerth s b (latchedBerth s b info after (berthOf s b)) := by
  unfold latchEnd
  rw [if_pos live]
  dsimp only
  rw [if_pos done]
  rfl

/-- Whatever ends a live task: the berth keeps the end, and beside the task nothing changes; all but completion stop it. -/
theorem latchEnd_spec {s : State} {b : Nat} (info : EndInfo) (live : taskLive s b = true) (after : BerthState) :
    ∃ x, x.ended = some (latchedInfo s b info) ∧ withoutTask (latchEnd s b info after) = withoutTask (setBerth s b x) ∧
      (info.status ≠ 0 → Stopped s (latchEnd s b info after) b) := by
  by_cases done : info.status = 0
  · exact ⟨_, rfl, congrArg withoutTask (latchEnd_of_completion live done after), fun stops => absurd done stops⟩
  · obtain ⟨x, ended, -, -, -, task, stopped⟩ := latchEnd_of_live live done after
    exact ⟨x, ended, task, fun _ => stopped⟩

theorem endNotify_of_seen {s : State} {q c b : Nat} (own : (ctxOf s q c).berth = some b) (live : taskLive s b = true)
    (done : (ctxOf s q c).endDone = true) (first : (ctxOf s q c).endSeen = false) : endNotify s q c =
      if allEnded (setCtx s q c { ctxOf s q c with endSeen := true }) b
      then latchEnd (setCtx s q c { ctxOf s q c with endSeen := true }) b { status := 0, cause := 0 } .idle
      else setCtx s q c { ctxOf s q c with endSeen := true } := by
  unfold endNotify
  simp only [own, live, done, first, Bool.not_false, Bool.and_self, if_true]

/-! ### COMPLETION (R509, R519) -/

theorem writeCompletion_only (s : State) (b : Nat) (e : EndInfo) : OnlyRecords s (writeCompletion s b e) := by
  unfold writeCompletion
  dsimp only
  split
  · exact (emit_only ..).trans (emit_only ..)
  · exact emit_only ..

theorem halfRecords_only (b : Nat) (l : List (Nat × Nat)) (s : State) : OnlyRecords s (l.foldl (fun t k => halfRecord t k.1 b k.2) s) :=
  List.foldlRecOn (motive := OnlyRecords s) l _ (.refl s) (fun _ h _ _ => h.trans (emit_only ..))

/-- A berth whose task is done with. -/
def finishedBerth (e : EndInfo) (st : BerthState) (x : Berth) : Berth :=
  { x with cur := none, last := x.cur, lastStatus := e.status, lastElapsed := e.elapsed, ended := none, freed := [], preemptOwed := none,
           st := st }

/-- A task is done with: records are written, and its berth is as `finishedBerth` says. -/
theorem finishTask_spec (s : State) (b : Nat) (e : EndInfo) (st : BerthState) :
    (∃ u, OnlyRecords s u ∧ OnlyRecords (setBerth u b (finishedBerth e st (berthOf s b))) (finishTask s b e st)) ∧
    ((berthOf s b).freed = [] → (berthOf s b).preemptOwed = none →
      finishTask s b e st = setBerth (writeCompletion s b e) b (finishedBerth e st (berthOf s b))) := by
  have written := writeCompletion_only s b e
  have same : berthOf (writeCompletion s b e) b = berthOf s b := berthOf_of_onlyRecords written b
  have halves := halfRecords_only b (berthOf s b).freed (writeCompletion s b e)
  have unfolded : finishTask s b e st =
      Option.elim (berthOf s b).preemptOwed
        (setBerth ((berthOf s b).freed.foldl (fun t k => halfRecord t k.1 b k.2) (writeCompletion s b e)) b (finishedBerth e st (berthOf s b)))
        (fun o => payOwed (setBerth ((berthOf s b).freed.foldl (fun t k => halfRecord t k.1 b k.2) (writeCompletion s b e)) b
          (finishedBerth e st (berthOf s b))) o 0x05) := by
    unfold finishTask finishedBerth
    dsimp only
    rw [same, berthOf_of_onlyRecords halves, same]
    cases (berthOf s b).preemptOwed <;> rfl
  rw [unfolded]
  constructor
  · refine ⟨_, written.trans halves, ?_⟩
    cases (berthOf s b).preemptOwed with
    | none => exact .refl _
    | some o => exact emit_only ..
  · intro noHalves noOwed
    rw [noHalves, noOwed]
    rfl

theorem berthOf_finishTask (s : State) (b : Nat) (e : EndInfo) (st : BerthState) (c : Nat) :
    berthOf (finishTask s b e st) c = if b = c then finishedBerth e st (berthOf s b) else berthOf s c := by
  obtain ⟨⟨u, before, after⟩, -⟩ := finishTask_spec s b e st
  rw [berthOf_of_onlyRecords after, berthOf_setBerth, berthOf_of_onlyRecords before]

/-- What writing records and setting a berth leaves. -/
theorem of_finishTask {β : Type} (part : State → β) (hp : ∀ u v, OnlyRecords u v → part v = part u)
    (hb : ∀ u b x, part (setBerth u b x) = part u) (s : State) (b : Nat) (e : EndInfo) (st : BerthState) :
    part (finishTask s b e st) = part s := by
  obtain ⟨⟨u, before, after⟩, -⟩ := finishTask_spec s b e st
  rw [hp _ _ after, hb, hp _ _ before]

/-! ### A record that waits (R501, R504) -/

/-- The packet of a record: the ring's next slot, and its bytes. -/
def recordWrite (s : State) (l : Nat) (r : Rec) : Roce :=
  .write (ringBase s l + 64 * (((landOf s l).dseq + 1).toNat % 2 ^ ringLog s l))
    (recordBytes r (r.hseq.getD (landOf s l).h) ((landOf s l).dseq + 1) (landOf s l).lost) none

/-- The state in which a record has taken its sequence number. -/
def numbered (s : State) (l : Nat) : State := setLand s l { landOf s l with dseq := (landOf s l).dseq + 1, lost := 0 }

/-- Writing a record: its number is taken, then its request is made; landings, connections and what is sent follow from these. -/
theorem writeRecord_spec (s : State) (l : Nat) (r : Rec) : ∃ fc, writeRecord s l r =
    { request (numbered s l) (ringConn (numbered s l) l) .record 1 (recordWrite s l r) with fc := fc } := by
  unfold writeRecord
  dsimp only
  split
  · exact ⟨_, rfl⟩
  · exact ⟨_, rfl⟩

/-- The record that has waited longest, written. -/
def ringWritten (s : State) (l : Nat) (r : Rec) (rest : List Rec) : State := writeRecord (setLand s l { landOf s l with waiting := rest }) l r

theorem landOf_writeRecord (s : State) (l : Nat) (r : Rec) (j : Nat) : landOf (writeRecord s l r) j = landOf (numbered s l) j := by
  obtain ⟨fc, h⟩ := writeRecord_spec s l r
  rw [h]
  exact landOf_request ..

theorem ringWrite_of_room {s : State} {l : Nat} {r : Rec} {rest : List Rec} (h : (landOf s l).waiting = r :: rest)
    (room : ringRoom s l = true) : ringWrite s l = ringWritten s l r rest := by
  simp only [ringWrite, h, room, if_true, ringWritten]

theorem ringWrite_of_none {s : State} {l : Nat} (h : (landOf s l).waiting = [] ∨ ringRoom s l = false) : ringWrite s l = s := by
  rcases h with none | full
  · simp only [ringWrite, none]
  · simp only [ringWrite, full, Bool.false_eq_true, if_false]
    split <;> rfl

theorem ringWritten_spec (s : State) (l : Nat) (r : Rec) (rest : List Rec) :
    landOf (ringWritten s l r rest) l = { landOf s l with waiting := rest, dseq := (landOf s l).dseq + 1, lost := 0 } ∧
    (∀ k, k ≠ l → landOf (ringWritten s l r rest) k = landOf s k) ∧
    (mayAsk (connOf s (ringConn s l)) false = true → (connOf (ringWritten s l r rest) (ringConn s l)).reqs =
      (connOf s (ringConn s l)).reqs ++ [{ kind := .record, packets := 1, at_ := s.time.mono, read := false, unsent := none }]) ∧
    (Leaves s (ringConn s l) .record (recordWrite s l r) →
      (ringWritten s l r rest).out = s.out ++ [leaving s (ringConn s l) .record (recordWrite s l r)]) := by
  have land (k : Nat) : landOf (ringWritten s l r rest) k = landOf (numbered (setLand s l { landOf s l with waiting := rest }) l) k :=
    landOf_writeRecord ..
  have same : landOf (setLand s l { landOf s l with waiting := rest }) l = { landOf s l with waiting := rest } := by
    rw [landOf_setLand, if_pos rfl]
  have packet : recordWrite (setLand s l { landOf s l with waiting := rest }) l r = recordWrite s l r := by
    unfold recordWrite
    rw [same]
    rfl
  obtain ⟨fc, written⟩ := writeRecord_spec (setLand s l { landOf s l with waiting := rest }) l r
  rw [packet] at written
  refine ⟨?_, fun k hk => ?_, fun may => ?_, fun leaves => ?_⟩
  · rw [land, numbered, same, landOf_setLand, if_pos rfl]
  · rw [land, numbered, landOf_setLand, if_neg (Ne.symm hk), landOf_setLand, if_neg (Ne.symm hk)]
  · rw [ringWritten, written]
    exact reqs_request (s := numbered (setLand s l { landOf s l with waiting := rest }) l) (m := recordWrite s l r) may .record 1 false
  · rw [ringWritten, written]
    have way : carriage (numbered (setLand s l { landOf s l with waiting := rest }) l) = carriage s := rfl
    exact (out_request (leaves_of_carriage way leaves) 1).trans (congrArg (fun o => s.out ++ [o]) (leaving_of_carriage way ..))

theorem exec_taskEndLatch_of_first {s : State} {b : Fin 16} {e : EndEvt} (first : firstEnd (endsFor s b) = some e) :
    exec (.taskEndLatch b) s = .next { latchEnd s b e.info .idle with
      ends := (latchEnd s b e.info .idle).ends.filter (fun y => y.berth != b.val) } := by
  show Host.Outcome.next (latchPending s b) = _
  simp only [latchPending, first]

theorem exec_taskEndLatch_of_none {s : State} {b : Fin 16} (h : taskLive s b = false ∨ firstEnd (endsFor s b) = none) :
    exec (.taskEndLatch b) s = .next { s with ends := s.ends.filter (fun y => y.berth != b.val) } := by
  cases first : firstEnd (endsFor s b) with
  | none =>
    show Host.Outcome.next (latchPending s b) = _
    simp only [latchPending, first]
  | some e =>
    have over_ : taskLive s b = false := h.resolve_right (by simp [first])
    rw [exec_taskEndLatch_of_first first, latchEnd_of_not_live over_]

theorem completeTask_of_open {s : State} {b : Nat} {e : EndInfo} (ended : (berthOf s b).ended = some e)
    (h : (berthOf s b).st = .disabling ∨ berthBusy s b = true ∨ faultOnWay s b e = true) : completeTask s b = s := by
  unfold completeTask
  simp only [ended]
  rw [if_pos (by simpa [or_assoc] using h)]

theorem completeTask_of_closed {s : State} {b : Nat} {e : EndInfo} (ended : (berthOf s b).ended = some e)
    (on : (berthOf s b).st ≠ .disabling) (idle : berthBusy s b = false) (told : faultOnWay s b e = false) :
    completeTask s b = finishTask s b e (berthOf s b).afterEnd := by
  unfold completeTask
  simp only [ended]
  rw [if_neg (by simp [on, idle, told])]

/-- Settles O45: an end is `latchEnd`'s, whose effect `latchEnd_spec` says; a task that is done with is `finishTask_spec`'s, and a record that
waits `ringWritten_spec`'s. -/
theorem taskEndsOnceAndIsRecorded : Obligations.TaskEndsOnceAndIsRecorded := by
  unfold Obligations.TaskEndsOnceAndIsRecorded
  refine ⟨fun s q c b own live done first => ?_, fun s b => ⟨fun e live first => ?_, exec_taskEndLatch_of_none, fun none => ⟨?_, ?_⟩,
    fun e ended => ⟨fun open_ => ?_, fun on idle told => ?_, fun early => ?_, fun late => ?_⟩,
    fun l => ⟨fun h => congrArg Host.Outcome.next (ringWrite_of_none h), fun r rest waiting room => ?_⟩⟩⟩
  case refine_1 =>
    have run := endNotify_of_seen own live done first
    refine ⟨fun more => ?_, fun all => ?_⟩
    · rw [more, if_neg Bool.false_ne_true] at run
      exact congrArg Host.Outcome.next run
    · rw [all, if_pos rfl, latchEnd_of_completion (s := setCtx s q c { ctxOf s q c with endSeen := true }) live rfl] at run
      refine ⟨_, _, congrArg Host.Outcome.next run, by rw [berthOf_setBerth, if_pos rfl]; rfl, rfl, rfl, rfl, rfl, fun d hd => ?_⟩
      rw [berthOf_setBerth, if_neg (Ne.symm hd), berthOf_setCtx]
  case refine_2 =>
    obtain ⟨x, ended, task, stopped⟩ := latchEnd_spec (s := s) (b := b) e.info live .idle
    have ends : (latchEnd s b e.info .idle).ends = s.ends := of_withoutTask (s := setBerth s b x) (fun u => u.ends) (fun _ => rfl) task
    have berths (c : Nat) := berthOf_of_withoutTask task c
    have own : berthOf (latchEnd s b e.info .idle) b = x := (berths b).trans (if_pos rfl)
    refine ⟨_, latchedInfo s b e.info, exec_taskEndLatch_of_first first, (congrArg Berth.ended own).trans ended, rfl, rfl, rfl, rfl,
      by rw [ends], stopped, settingsKept_of ?_, fun c hc => (berths c).trans (if_neg (Ne.symm hc))⟩
    have kept : settings (latchEnd s b e.info .idle) = settings s := settings_of_withoutTask task
    exact kept
  case refine_3 =>
    show Host.Outcome.next (completeTask s b) = _
    unfold completeTask
    simp only [none]
  case refine_4 =>
    show execTransactionAbandon b s = _
    unfold execTransactionAbandon
    simp only [none]
  case refine_5 => exact congrArg Host.Outcome.next (completeTask_of_open ended open_)
  case refine_6 =>
    have own := berthOf_finishTask s b e (berthOf s b).afterEnd b
    rw [if_pos rfl] at own
    refine ⟨_, congrArg Host.Outcome.next (completeTask_of_closed ended on idle told), by rw [own]; rfl, by rw [own]; rfl, by rw [own]; rfl,
      by rw [own]; rfl, by rw [own]; rfl, by rw [own]; rfl, by rw [own]; rfl, by rw [own]; rfl, fun noHalves noOwed => ?_, ?_, ?_,
      fun c hc => ?_⟩
    · rw [(finishTask_spec s b e _).2 noHalves noOwed]
      rfl
    · exact settingsKept_of (of_finishTask settings (fun _ _ => settings_of_onlyRecords) (fun _ _ _ => rfl) ..)
    · exact of_finishTask State.hbm (fun u v k => by rw [OnlyRecords] at k; rw [k]) (fun _ _ _ => rfl) ..
    · rw [berthOf_finishTask, if_neg (Ne.symm hc)]
  case refine_7 =>
    show execTransactionAbandon b s = _
    unfold execTransactionAbandon
    simp only [ended, if_neg (Nat.not_le.mpr early)]
  case refine_8 =>
    show execTransactionAbandon b s = _
    unfold execTransactionAbandon
    simp only [ended, if_pos late]
  case refine_9 =>
    obtain ⟨own, others, reqs, out⟩ := ringWritten_spec s l r rest
    have slot : ((landOf s l).dseq.toNat + 1) % 2 ^ 32 = ((landOf s l).dseq + 1).toNat := by simp [BitVec.toNat_add]
    refine ⟨_, congrArg Host.Outcome.next (ringWrite_of_room waiting room), own, others, reqs, ?_⟩
    rintro w rfl leaves
    rw [slot] at leaves ⊢
    exact out leaves

end Sys2Proof.Proofs
end


section
/-! Suspension, resumption and disabling complete (R121-R128, R406, R514, R515). -/

namespace Sys2Proof.Proofs

open Sys2Proof Sys2Proof.Machine Sys2Proof.Safety Sys2Proof.Laws

/-! ### Saving the decks of a task (R128) -/

/-- The state without what saving a deck changes: what the memory fabric changes, and the occurrences raised. -/
def withoutSave (s : State) : State := { withoutMemory s with occ := [], ends := [] }

theorem of_withoutSave {β : Type} (part : State → β) (hm : ∀ u, part (withoutSave u) = part u) {s t : State}
    (h : withoutSave t = withoutSave s) : part t = part s := by rw [← hm, h, hm]

theorem withoutSave_of_memory {s t : State} (h : withoutMemory t = withoutMemory s) : withoutSave t = withoutSave s :=
  congrArg (fun u : State => { u with occ := [], ends := [] }) h

theorem withoutSave_of_raised {s t : State} (h : withoutRaised t = withoutRaised s) : withoutSave t = withoutSave s :=
  congrArg (fun u : State => { u with fabric := {}, hbm := {}, poison := [], quays := [], free := 0 }) h

theorem withoutSave_stepWrite (s : State) (w : Requester) (a : Nat) (data : List Byte) (late : Option Nat) :
    withoutSave (stepWrite s w a data late).1 = withoutSave s := by
  have written := withoutSave_of_memory (withoutMemory_stepWrite s w a data).1
  unfold stepWrite at written ⊢
  dsimp only at written ⊢
  split
  · rw [withoutSave_of_memory (withoutMemory_hbmUndefine ..)]
    exact (withoutSave_of_raised (withoutRaised_raise ..)).trans written
  · exact written

theorem withoutSave_saveInto (b : Nat) (late : Option Nat) (a : State × Bool) (k base n : Nat) :
    withoutSave (saveInto b late a k base n).1 = withoutSave a.1 := by
  unfold saveInto
  split
  · exact withoutSave_of_raised (withoutRaised_raiseBerth ..)
  · exact withoutSave_stepWrite ..

theorem withoutSave_saveDeck (b : Nat) (late : Option Nat) (a : State × Bool) (k : Nat) :
    withoutSave (saveDeck b late a k).1 = withoutSave a.1 := by
  unfold saveDeck
  split
  · exact withoutSave_of_raised (withoutRaised_raiseBerth ..)
  · rw [withoutSave_saveInto]

/-- A berth whose suspended passes keep their counts. -/
def countedBerth (s : State) (b : Nat) : Berth := { berthOf s b with suspended := (berthOf s b).suspended.map (keepCounts s) }

theorem withoutSave_savedDecks (s : State) (b : Nat) (late : Option Nat) :
    withoutSave (savedDecks s b late).1 = withoutSave (setBerth s b (countedBerth s b)) :=
  foldl_keeps (f := saveDeck b late) (fun a => withoutSave a.1) (fun _ _ => withoutSave_saveDeck ..) _ _

/-- A berth whose task is suspended. -/
def suspendedBerth (s : State) (y : Berth) : Berth :=
  { y with st := .suspended, ranFor := y.ranFor + (s.time.mono - y.ranSince), suspSince := s.time.mono, preemptOwed := none }

/-- The state in which a task is suspended, its runs gone and its timers standing; its PREEMPT is still to be answered. -/
def suspendedState (s u : State) (b : Nat) : State :=
  let v := setBerth { u with runs := u.runs.filter (fun r => r.berth != b) } b (suspendedBerth s (berthOf u b))
  mapTimers v b (timerStop v)

/-- What is owed, paid where it is owed. -/
def payWhere (s : State) (o : Option Owed) (status : Nat) : State :=
  match o with
  | some o => payOwed s o status
  | none => s

theorem payWhere_only (s : State) (o : Option Owed) (status : Nat) : OnlyRecords s (payWhere s o status) := by
  cases o with
  | none => exact .refl s
  | some o => exact emit_only ..

theorem saveTask_of_saved {s : State} {b : Nat} {late : Option Nat} (h : endsFor (savedDecks s b late).1 b = []) :
    saveTask s b (berthOf s b) late = payWhere (suspendedState s (savedDecks s b late).1 b) (berthOf s b).preemptOwed 1 := by
  have saved : (usedDecks (setBerth s b (countedBerth s b)) b).foldl (saveDeck b late) (setBerth s b (countedBerth s b), true) =
      savedDecks s b late := rfl
  have parts : saveTask s b (berthOf s b) late =
      if !(endsFor ((usedDecks (setBerth s b (countedBerth s b)) b).foldl (saveDeck b late) (setBerth s b (countedBerth s b), true)).1 b).isEmpty
      then ((usedDecks (setBerth s b (countedBerth s b)) b).foldl (saveDeck b late) (setBerth s b (countedBerth s b), true)).1
      else payWhere (suspendedState s ((usedDecks (setBerth s b (countedBerth s b)) b).foldl (saveDeck b late)
        (setBerth s b (countedBerth s b), true)).1 b) (berthOf s b).preemptOwed 1 := rfl
  rw [parts, saved, h]
  exact if_neg (by simp)

theorem saveTask_of_ending {s : State} {b : Nat} {late : Option Nat} (h : endsFor (savedDecks s b late).1 b ≠ []) :
    saveTask s b (berthOf s b) late = (savedDecks s b late).1 := by
  have ending : (!(endsFor (savedDecks s b late).1 b).isEmpty) = true := by simpa using h
  exact if_pos ending

theorem suspendDone_of_ready {s : State} {b : Nat} {late : Option Nat} (st : (berthOf s b).st = .suspending) (live : taskLive s b = true)
    (done : enginesDone s b = true) (noEnds : endsFor s b = []) (room : decksRoom s b = true) :
    suspendDone s b none late = saveTask s b (berthOf s b) late := by
  simp only [suspendDone, st, live, done, noEnds, room, decide_true, List.isEmpty_nil, Bool.and_self, if_true]

theorem suspendDone_of_not_ready {s : State} {b : Nat} (p : Option (Nat × Nat)) (late : Option Nat)
    (h : (berthOf s b).st ≠ .suspending ∨ taskLive s b = false ∨ enginesDone s b = false ∨ endsFor s b ≠ [] ∨ decksRoom s b = false) :
    suspendDone s b p late = s := by
  refine if_neg ?_
  simp only [Bool.and_eq_true, decide_eq_true_eq, List.isEmpty_iff]
  rintro ⟨⟨⟨⟨st, live⟩, done⟩, noEnds⟩, room⟩
  rcases h with h | h | h | h | h
  · exact h st
  · simp [live] at h
  · simp [done] at h
  · exact h noEnds
  · simp [room] at h

/-- What suspension leaves beside the saved decks: contexts, waits, runs and the berth, and the record that answers the PREEMPT. -/
def withoutSuspension (s : State) : State := { withoutSave s with quays := [], waits := [], runs := [], berths := [] }

theorem withoutSuspension_suspendedState (s u : State) (b : Nat) : withoutSuspension (suspendedState s u b) = withoutSuspension u := rfl

theorem withoutSuspension_savedDecks (s : State) (b : Nat) (late : Option Nat) :
    withoutSuspension (savedDecks s b late).1 = withoutSuspension s :=
  congrArg (fun u : State => { u with quays := [], waits := [], runs := [], berths := [] }) (withoutSave_savedDecks s b late)

theorem of_withoutSuspension {β : Type} (part : State → β) (hm : ∀ u, part (withoutSuspension u) = part u) {s t : State}
    (h : withoutSuspension t = withoutSuspension s) : part t = part s := by rw [← hm, h, hm]

/-- What a suspended task leaves of the parts that suspension does not touch. -/
theorem of_suspendedState {β : Type} (part : State → β) (hm : ∀ u, part (withoutSuspension u) = part u) (s : State) (b : Nat)
    (late : Option Nat) : part (suspendedState s (savedDecks s b late).1 b) = part s :=
  of_withoutSuspension part hm ((withoutSuspension_suspendedState s _ b).trans (withoutSuspension_savedDecks s b late))

theorem berthOf_suspendedState (s : State) (b : Nat) (late : Option Nat) :
    berthOf (suspendedState s (savedDecks s b late).1 b) b = suspendedBerth s (countedBerth s b) := by
  have counted : berthOf (savedDecks s b late).1 b = countedBerth s b := by
    rw [of_withoutSave (fun u => berthOf u b) (fun _ => rfl) (withoutSave_savedDecks s b late), berthOf_setBerth, if_pos rfl]
  unfold suspendedState
  dsimp only
  rw [berthOf_mapTimers, berthOf_setBerth, if_pos rfl, counted]

theorem runs_suspendedState {s u : State} {b : Nat} {r : Run} (h : r ∈ (suspendedState s u b).runs) : r.berth ≠ b := by
  obtain ⟨x, hx, rfl⟩ := List.mem_map.mp h
  have own := (List.mem_filter.mp hx).2
  split
  · simpa using own
  · simpa using own

/-! ### The record of a REPLY on the management ring -/

theorem dseq_emit_of_room {s : State} {l : Nat} (r : Rec) (none : (landOf s l).waiting = []) (room : ringRoom s l = true) :
    (landOf (emit s l r) l).dseq = (landOf s l).dseq + 1 := by
  have now : emit s l r = writeRecord s l r := by
    simp only [emit, none, room, List.isEmpty_nil, Bool.and_self, if_true]
  rw [now, landOf_writeRecord, numbered, landOf_setLand, if_pos rfl]

theorem payOwed_management (s : State) {o : Owed} (h : o.landing = 16) (status : Nat) :
    ∃ r, payOwed s o status = emit s 16 r := by
  unfold payOwed reply
  rw [h]
  exact ⟨_, rfl⟩

theorem ringRoom_of_suspended (s : State) (b : Nat) (late : Option Nat) :
    ringRoom (suspendedState s (savedDecks s b late).1 b) 16 = ringRoom s 16 := by
  have kept {β : Type} (part : State → β) (hm : ∀ u, part (withoutSuspension u) = part u) := of_suspendedState part hm s b late
  have land := kept (fun u => landOf u 16) (fun _ => rfl)
  have usable := kept (fun u => connUsable u 0) (fun _ => rfl)
  have reg : regGet (suspendedState s (savedDecks s b late).1 b) (mgBase + 0x190) = regGet s (mgBase + 0x190) :=
    regGet_same (kept State.rw (fun _ => rfl)) (kept State.fitted (fun _ => rfl)) _
  have size := kept State.ringLog2 (fun _ => rfl)
  unfold ringRoom
  dsimp only at land usable ⊢
  rw [land, usable, reg]
  simp only [ringLog, if_true, size]

/-- A suspension whose decks have all been saved. -/
theorem suspends {s : State} {b : Fin 16} {mem : HbmOutcome} (st : (berthOf s b).st = .suspending) (live : taskLive s b = true)
    (done : enginesDone s b = true) (noEnds : endsFor s b = []) (room : decksRoom s b = true)
    (saved : endsFor (savedDecks s b mem.late).1 b = []) :
    ∃ t, exec (.suspendComplete b none mem) s = .next t ∧ (berthOf t b).st = .suspended ∧ (berthOf t b).suspSince = s.time.mono ∧
      (berthOf t b).cur = (berthOf s b).cur ∧ (berthOf t b).preemptOwed = none ∧ (∀ r ∈ t.runs, r.berth ≠ b.val) ∧
      t.hbm = (savedDecks s b mem.late).1.hbm ∧ t.decks = s.decks ∧ SettingsKept s t ∧
      (∀ o, (berthOf s b).preemptOwed = some o → o.landing = 16 → (landOf s 16).waiting = [] → ringRoom s 16 = true →
        (landOf t 16).dseq = (landOf s 16).dseq + 1) := by
  have run := (suspendDone_of_ready (late := mem.late) st live done noEnds room).trans (saveTask_of_saved saved)
  have paid := payWhere_only (suspendedState s (savedDecks s b mem.late).1 b) (berthOf s b).preemptOwed 1
  have own := (berthOf_of_onlyRecords paid b).trans (berthOf_suspendedState s b mem.late)
  refine ⟨_, congrArg Host.Outcome.next run, by rw [own]; rfl, by rw [own]; rfl, by rw [own]; rfl, by rw [own]; rfl, fun r hr => ?_, ?_, ?_,
    ?_, fun o owed at16 none free => ?_⟩
  · have runs : (payWhere (suspendedState s (savedDecks s b mem.late).1 b) (berthOf s b).preemptOwed 1).runs =
        (suspendedState s (savedDecks s b mem.late).1 b).runs := by rw [OnlyRecords] at paid; rw [paid]
    rw [runs] at hr
    exact runs_suspendedState hr
  · have hbm : (payWhere (suspendedState s (savedDecks s b mem.late).1 b) (berthOf s b).preemptOwed 1).hbm =
        (suspendedState s (savedDecks s b mem.late).1 b).hbm := by rw [OnlyRecords] at paid; rw [paid]
    exact hbm
  · have decks : (payWhere (suspendedState s (savedDecks s b mem.late).1 b) (berthOf s b).preemptOwed 1).decks =
        (suspendedState s (savedDecks s b mem.late).1 b).decks := by rw [OnlyRecords] at paid; rw [paid]
    exact decks.trans (of_suspendedState State.decks (fun _ => rfl) s b mem.late)
  · exact settingsKept_of ((settings_of_onlyRecords paid).trans (of_suspendedState settings (fun _ => rfl) s b mem.late))
  · obtain ⟨r, written⟩ := payOwed_management (suspendedState s (savedDecks s b mem.late).1 b) at16 1
    have land : landOf (suspendedState s (savedDecks s b mem.late).1 b) 16 = landOf s 16 :=
      of_suspendedState (fun u => landOf u 16) (fun _ => rfl) s b mem.late
    rw [owed, payWhere, written, dseq_emit_of_room r (by rw [land]; exact none) (by rw [ringRoom_of_suspended]; exact free), land]

/-! ### Resumption (R514, R576) -/

theorem tryRestore_of_ready {s : State} {b : Nat} (mem : HbmOutcome) (h : restoreReady s b = true) : tryRestore s b mem = restoreTask s b mem :=
  if_pos h

theorem tryRestore_of_not_ready {s : State} {b : Nat} (mem : HbmOutcome) (h : restoreReady s b = false) : tryRestore s b mem = s :=
  if_neg (by simp [h])

theorem restoreReady_of_not_waiting {s : State} {b : Nat} (h : (berthOf s b).restore ≠ .waiting) : restoreReady s b = false := by
  simp [restoreReady, h]

theorem resumeDone_of_idle {s : State} {b : Nat} (mem : HbmOutcome) (h : resumeGoes s b = false) : resumeDone s b mem = s :=
  if_neg (by simp [h])

/-- RESUME_COMPLETE, once the restore has been tried: the task runs where its decks are restored, else it goes on resuming. -/
theorem resumeDone_of_goes {s t : State} {b : Nat} {mem : HbmOutcome} (goes : resumeGoes s b = true) (tried : tryRestore s b mem = t) :
    (resumeGoes t b = true → (berthOf t b).restore = .done → resumeDone s b mem = setBerth t b { berthOf t b with st := .running }) ∧
    (resumeGoes t b = false ∨ (berthOf t b).restore ≠ .done → resumeDone s b mem = t) := by
  subst tried
  constructor
  · intro still done
    simp only [resumeDone, goes, if_true, still, done, beq_self_eq_true, Bool.and_self]
  · intro h
    have stays : (resumeGoes (tryRestore s b mem) b && (berthOf (tryRestore s b mem) b).restore == .done) = false := by
      rcases h with h | h
      · simp [h]
      · simp [h]
    simp only [resumeDone, goes, if_true, stays, Bool.false_eq_true, if_false]

/-! ### Connections that fail (R406, R407) -/

/-- Connections stay valid, and those in the error state stay there. -/
structure ConnsKept (s t : State) : Prop where
  valid (j : Nat) : (connOf t j).valid = (connOf s j).valid
  err (j : Nat) : (connOf s j).err = true → (connOf t j).err = true

theorem ConnsKept.refl (s : State) : ConnsKept s s := ⟨fun _ => rfl, fun _ => id⟩

theorem ConnsKept.trans {s t u : State} (h : ConnsKept s t) (k : ConnsKept t u) : ConnsKept s u :=
  ⟨fun j => (k.valid j).trans (h.valid j), fun j e => k.err j (h.err j e)⟩

theorem ConnsKept.of_conns {s t : State} (h : t.conns = s.conns) : ConnsKept s t :=
  ⟨fun j => by rw [connOf_of_conns h], fun j e => by rwa [connOf_of_conns h]⟩

theorem ConnsKept.foldl {α : Type} {f : State → α → State} (hf : ∀ s a, ConnsKept s (f s a)) (l : List α) (s : State) :
    ConnsKept s (l.foldl f s) := List.foldlRecOn (motive := ConnsKept s) l f (.refl s) (fun _ h a _ => h.trans (hf _ a))

theorem ConnsKept.setConn {s : State} {n : Nat} {x : Conn} (hv : x.valid = (connOf s n).valid)
    (he : (connOf s n).err = true → x.err = true) : ConnsKept s (setConn s n x) := by
  have same (j : Nat) : connOf (Machine.setConn s n x) j = if n = j then x else connOf s j := connOf_setConn ..
  refine ⟨fun j => ?_, fun j e => ?_⟩
  · rw [same]
    split
    case isTrue own => rw [← own, hv]
    case isFalse => rfl
  · rw [same]
    split
    case isTrue own => exact he (by rwa [own])
    case isFalse => exact e

theorem connsKept_request (s : State) (n : Nat) (kind : ReqKind) (packets : Nat) (m : Roce) : ConnsKept s (request s n kind packets m) := by
  cases may : mayAsk (connOf s n) (isRead m) with
  | true =>
    rw [request_of_mayAsk may]
    refine .trans ?_ (.of_conns (conns_sendOn ..))
    exact .setConn rfl id
  | false =>
    rw [request_of_waiting may]
    exact .setConn rfl id

theorem connsKept_emit (s : State) (l : Nat) (r : Rec) : ConnsKept s (emit s l r) := by
  unfold emit
  dsimp only
  split
  · obtain ⟨fc, h⟩ := writeRecord_spec s l r
    rw [h]
    have asked := connsKept_request (numbered s l) (ringConn (numbered s l) l) .record 1 (recordWrite s l r)
    exact .trans (t := numbered s l) (.of_conns rfl) (asked.trans (.of_conns rfl))
  · split <;> exact .of_conns rfl

/-- The state in which a connection is in the error state and its requests have still to fail. -/
def errored (s : State) (n reason : Nat) : State :=
  setConn (dropHeld s n) n { connOf s n with err := true, reason := reason, reqs := [], tries := 0, rnrUntil := none }

/-- A connection that fails without a record: it is in the error state, its requests have failed, and its records move. -/
theorem connFail_of_usable {s : State} {n : Nat} (reason : Nat) (h : (!(connOf s n).valid || (connOf s n).err) = false) :
    connFail s n reason false = ((List.range 16).filter (fun b => berthDefined s b && (berthOf s b).cfg.ringConn == n)).foldl moveWaiting
      ((connOf s n).reqs.foldl failReq (errored s n reason)) := by
  unfold connFail
  dsimp only
  rw [h, if_neg Bool.false_ne_true, if_neg Bool.false_ne_true]
  rfl

theorem moveWaiting_only (s : State) (b : Nat) : OnlyRecords s (moveWaiting s b) :=
  List.foldlRecOn (motive := OnlyRecords s) _ _ rfl (fun _ h _ _ => h.trans (emit_only ..))

theorem connsKept_moveWaiting (s : State) (b : Nat) : ConnsKept s (moveWaiting s b) :=
  .trans (t := setLand s b { landOf s b with waiting := [] }) (.of_conns rfl) (.foldl (fun t r => connsKept_emit t 16 r) _ _)

theorem conns_failReqs (l : List OutReq) (s : State) : (l.foldl failReq s).conns = s.conns :=
  of_withoutWork (fun u => u.conns) (fun _ => rfl) (foldl_keeps (f := failReq) withoutWork withoutWork_failReq l s)

theorem connsKept_connFail (s : State) (n reason : Nat) : ConnsKept s (connFail s n reason false) ∧
    ((connOf s n).valid = true → (connOf (connFail s n reason false) n).err = true) := by
  cases h : (!(connOf s n).valid || (connOf s n).err) with
  | true =>
    have kept : connFail s n reason false = s := if_pos h
    rw [kept]
    refine ⟨.refl s, fun valid => ?_⟩
    simpa [valid] using h
  | false =>
    rw [connFail_of_usable reason h]
    have set : ConnsKept s (errored s n reason) := .trans (t := dropHeld s n) (.of_conns rfl) (.setConn rfl (fun _ => rfl))
    have err : (connOf (errored s n reason) n).err = true := by rw [errored, connOf_setConn, if_pos rfl]
    have failed : ConnsKept (errored s n reason) ((connOf s n).reqs.foldl failReq (errored s n reason)) := .of_conns (conns_failReqs _ _)
    have moved := ConnsKept.foldl connsKept_moveWaiting ((List.range 16).filter (fun b =>
      berthDefined s b && (berthOf s b).cfg.ringConn == n)) ((connOf s n).reqs.foldl failReq (errored s n reason))
    exact ⟨(set.trans failed).trans moved, fun _ => moved.err n (failed.err n err)⟩

/-- The connections of a list that are valid are in the error state once they have failed. -/
theorem err_connFails {l : List Nat} {n : Nat} (hn : n ∈ l) (s : State) (valid : (connOf s n).valid = true) :
    (connOf (l.foldl (fun t n => connFail t n 0 false) s) n).err = true := by
  induction l generalizing s with
  | nil => exact absurd hn List.not_mem_nil
  | cons k l ih =>
    obtain ⟨kept, failed⟩ := connsKept_connFail s k 0
    by_cases same : k = n
    · subst same
      exact (ConnsKept.foldl (fun t n => (connsKept_connFail t n 0).1) l _).err k (failed valid)
    · exact ih ((List.mem_cons.mp hn).resolve_left (Ne.symm same)) _ ((kept.valid n).trans valid)

/-! ### What failing connections leave of the berths -/

/-- A berth without what it knows of its hold. -/
def lessHold (x : Berth) : Berth := { x with hold := {} }

theorem berths_raise (s : State) (level unit code : Nat) (berth : Option Nat) (task : Option Word) (detail : Nat) :
    (raise s level unit code berth task detail).berths = s.berths := by rw [raise_only]

theorem berths_inuseDown (s : State) (uses : List (Nat × Nat)) : (inuseDown s uses).berths = s.berths := by rw [inuseDown_only]

theorem berths_failRemote (s : State) (id page : Nat) : (failRemote s id page).berths = s.berths := by
  unfold failRemote
  split
  · split
    · rfl
    · exact berths_raise ..
  · rfl

theorem berths_loseRun (s : State) (id : Nat) : (loseRun s id).berths = s.berths := by
  unfold loseRun
  split
  · dsimp only
    split
    · unfold failRun
      split
      · exact berths_inuseDown ..
      · rfl
    · rfl
  · rfl

theorem lessHold_of_berths {s t : State} (h : t.berths = s.berths) (c : Nat) : lessHold (berthOf t c) = lessHold (berthOf s c) := by
  unfold berthOf
  rw [h]

theorem lessHold_stopRecall (s : State) (id c : Nat) : lessHold (berthOf (stopRecall s id) c) = lessHold (berthOf s c) := by
  unfold stopRecall
  split
  case h_2 => rfl
  next r _ =>
    have set (h : Hold) : lessHold (berthOf (setHold s r.berth h) c) = lessHold (berthOf s c) := by
      unfold setHold
      rw [berthOf_setBerth]
      split
      case isTrue same => rw [same]; rfl
      case isFalse => rfl
    exact set _

theorem lessHold_failReq (s : State) (x : OutReq) (c : Nat) : lessHold (berthOf (failReq s x) c) = lessHold (berthOf s c) := by
  unfold failReq
  split
  · exact lessHold_of_berths (berths_loseRun ..) c
  · exact lessHold_of_berths (berths_loseRun ..) c
  · dsimp only
    split
    · exact lessHold_of_berths (berths_failRemote ..) c
    · exact lessHold_of_berths (berths_failRemote ..) c
  · exact (lessHold_stopRecall ..).trans (lessHold_of_berths (berths_failRemote ..) c)
  · rfl

theorem lessHold_connFail (s : State) (n reason c : Nat) : lessHold (berthOf (connFail s n reason false) c) = lessHold (berthOf s c) := by
  cases h : (!(connOf s n).valid || (connOf s n).err) with
  | true => rw [show connFail s n reason false = s from if_pos h]
  | false =>
    rw [connFail_of_usable reason h, foldl_keeps (f := moveWaiting) (fun u => lessHold (berthOf u c))
      (fun t b => congrArg lessHold (berthOf_of_onlyRecords (moveWaiting_only t b) c)),
      foldl_keeps (f := failReq) (fun u => lessHold (berthOf u c)) (fun t x => lessHold_failReq t x c)]
    rfl

theorem windows_connFail (s : State) (n reason : Nat) : (connFail s n reason false).windows = s.windows := by
  cases h : (!(connOf s n).valid || (connOf s n).err) with
  | true => rw [show connFail s n reason false = s from if_pos h]
  | false =>
    have moved (t : State) (b : Nat) : (moveWaiting t b).windows = t.windows := by
      have only := moveWaiting_only t b
      rw [OnlyRecords] at only
      rw [only]
    rw [connFail_of_usable reason h, foldl_keeps (f := moveWaiting) (fun u => u.windows) moved,
      foldl_keeps (f := failReq) (fun u => u.windows) (fun t x => of_withoutWork (fun u => u.windows) (fun _ => rfl) (withoutWork_failReq t x))]
    rfl

/-! ### DISABLE_COMPLETE (R332, R515) -/

/-- The state without what abandoning transactions changes. -/
def withoutFlight (s : State) : State := { withoutMemory s with trk := [], nextId := 0, runs := [] }

theorem withoutFlight_issueAll (s : State) : withoutFlight (issueAll s) = withoutFlight s :=
  foldl_keeps (f := fun (t : State) (r : Run) => if r.todo.isEmpty then t else issueRun t r.id) withoutFlight (fun t r => by
    split
    · rfl
    · exact congrArg (fun u : State => { u with hbm := {}, poison := [], quays := [], free := 0 }) (withoutIssue_issueRun t r.id)) _ _

theorem withoutFlight_abandonBerth (s : State) (b : Nat) : withoutFlight (abandonBerth s b) = withoutFlight s := by
  unfold abandonBerth
  dsimp only
  rw [withoutFlight_issueAll, foldl_keeps (f := fun (t : State) (e : Trk) => hbmUndefine t e.req.addr e.req.len) withoutFlight
    (fun t e => congrArg (fun u : State => { u with trk := [], nextId := 0, runs := [] }) (withoutMemory_hbmUndefine t e.req.addr e.req.len))]
  rfl

theorem of_withoutFlight {β : Type} (part : State → β) (hm : ∀ u, part (withoutFlight u) = part u) {s t : State}
    (h : withoutFlight t = withoutFlight s) : part t = part s := by rw [← hm, h, hm]

/-- The state in which a berth has been taken from the module: nothing of it in flight, its connections failed, its hold lost, its windows
sealed. -/
def sealedOff (s : State) (b : Nat) : State := sealWindows (loseHold (failConns (abandonBerth s b) b) b) b

theorem berthOf_sealedOff (s : State) (b : Nat) :
    lessHold (berthOf (sealedOff s b) b) = lessHold (berthOf s b) ∧ (berthOf (sealedOff s b) b).hold.lost.isSome = true := by
  have failed : lessHold (berthOf (failConns (abandonBerth s b) b) b) = lessHold (berthOf s b) := by
    unfold failConns
    rw [foldl_keeps (f := fun t n => connFail t n 0 false) (fun u => lessHold (berthOf u b)) (fun t n => lessHold_connFail t n 0 b)]
    exact congrArg lessHold (of_withoutFlight (fun u => berthOf u b) (fun _ => rfl) (withoutFlight_abandonBerth s b))
  have own : berthOf (sealedOff s b) b = { berthOf (failConns (abandonBerth s b) b) b with
      hold := { (berthOf (failConns (abandonBerth s b) b) b).hold with lost := some (freshGen (failConns (abandonBerth s b) b)).1 } } := by
    have set : berthOf (sealedOff s b) b = berthOf (loseHold (failConns (abandonBerth s b) b) b) b := rfl
    rw [set]
    unfold loseHold setHold
    dsimp only
    rw [berthOf_setBerth, if_pos rfl]
    rfl
  rw [own]
  exact ⟨failed, rfl⟩

theorem windows_sealedOff (s : State) (b : Nat) : (sealedOff s b).windows =
    s.windows.map (fun w => if w.2.berth = b then (w.1, { w.2 with sealedW := true }) else w) := by
  have failed : (failConns (abandonBerth s b) b).windows = s.windows := by
    unfold failConns
    rw [foldl_keeps (f := fun t n => connFail t n 0 false) (fun u => u.windows) (fun t n => windows_connFail t n 0)]
    exact of_withoutFlight (fun u => u.windows) (fun _ => rfl) (withoutFlight_abandonBerth s b)
  have sealed_ : (sealedOff s b).windows = (failConns (abandonBerth s b) b).windows.map
      (fun w => if w.2.berth = b then (w.1, { w.2 with sealedW := true }) else w) := rfl
  rw [sealed_, failed]

/-- A table entry other than the default is listed. -/
theorem mem_keys_of_tget_ne {α : Type} {d : α} {t : Tbl α} {n : Nat} (h : tget d t n ≠ d) : n ∈ t.map (·.1) := by
  induction t with
  | nil => exact absurd rfl h
  | cons e t ih =>
    by_cases same : e.1 = n
    · simp [same]
    · simp only [tget, same, if_false] at h
      exact List.mem_cons_of_mem _ (ih h)

theorem listed_of_valid {s : State} {n : Nat} (valid : (connOf s n).valid = true) : n ∈ s.conns.map (·.1) := by
  refine Classical.byContradiction fun absent => ?_
  have none : connOf s n = {} := Classical.byContradiction fun other => absent (mem_keys_of_tget_ne (d := ({} : Conn)) other)
  rw [none] at valid
  cases valid

theorem err_failConns {u : State} {b n : Nat} (other : n ≠ 0) (valid : (connOf u n).valid = true) (own : (connOf u n).berth = b) :
    (connOf (failConns u b) n).err = true := by
  have mine : n ∈ (u.conns.map (·.1)).filter (fun n => n != 0 && (connOf u n).valid && (connOf u n).berth == b) :=
    List.mem_filter.mpr ⟨listed_of_valid valid, by simp [other, valid, own]⟩
  exact err_connFails mine u valid

theorem conns_sealWindows_loseHold (u : State) (b : Nat) : (sealWindows (loseHold u b) b).conns = u.conns := rfl

theorem err_sealedOff {s : State} {b n : Nat} (other : n ≠ 0) (valid : (connOf s n).valid = true) (own : (connOf s n).berth = b) :
    (connOf (sealedOff s b) n).err = true := by
  have same := connOf_of_conns (of_withoutFlight (fun u => u.conns) (fun _ => rfl) (withoutFlight_abandonBerth s b)) n
  rw [sealedOff, connOf_of_conns (conns_sealWindows_loseHold ..)]
  exact err_failConns other (by rw [same]; exact valid) (by rw [same]; exact own)

/-- A berth whose DISABLE_BERTH is answered. -/
def answeredBerth (x : Berth) : Berth := { x with disableOwed := none }

/-- The end of a disabled berth's task, or the halves that a berth without one has freed. -/
def disabledEnd (s : State) (b : Nat) (e : Option EndInfo) : State :=
  match e with
  | some e => finishTask s b e .disabled
  | none => setBerth ((berthOf s b).freed.foldl (fun t k => halfRecord t k.1 b k.2) s) b { berthOf s b with st := .disabled, freed := [] }

theorem disableDone_of_ready {s : State} {b : Nat} (st : (berthOf s b).st = .disabling)
    (over_ : berthBusy s b = false ∨ (berthOf s b).disableAt + 5000000 ≤ s.time.mono)
    (told : ∀ e, (berthOf s b).ended = some e → faultOnWay s b e = false) :
    disableDone s b = payWhere (setBerth (disabledEnd (sealedOff s b) b (berthOf s b).ended) b
      (answeredBerth (berthOf (disabledEnd (sealedOff s b) b (berthOf s b).ended) b))) (berthOf s b).disableOwed 0 := by
  have now : (berthBusy s b && !decide ((berthOf s b).disableAt + 5000000 ≤ s.time.mono)) = false := by
    rcases over_ with idle | late
    · simp [idle]
    · simp [late]
  cases ended : (berthOf s b).ended with
  | none =>
    simp only [disableDone, st, now, ended, bne_self_eq_false, Bool.or_self, Bool.false_eq_true, if_false, disabledEnd, sealedOff]
    cases (berthOf s b).disableOwed <;> rfl
  | some e =>
    simp only [disableDone, st, now, ended, told e ended, bne_self_eq_false, Bool.or_self, Bool.false_eq_true, if_false, disabledEnd,
      sealedOff]
    cases (berthOf s b).disableOwed <;> rfl

theorem disableDone_of_not_ready {s : State} {b : Nat}
    (h : (berthOf s b).st ≠ .disabling ∨ (berthBusy s b = true ∧ s.time.mono < (berthOf s b).disableAt + 5000000)) : disableDone s b = s := by
  have early : ((berthOf s b).st != .disabling || (berthBusy s b && !decide ((berthOf s b).disableAt + 5000000 ≤ s.time.mono))) = true := by
    rcases h with other | ⟨busy, early⟩
    · simp [other]
    · simp [busy, early]
  unfold disableDone
  dsimp only
  rw [early, Bool.true_or, if_pos rfl]

theorem connsKept_halfRecords (b : Nat) (l : List (Nat × Nat)) (s : State) :
    ConnsKept s (l.foldl (fun t k => halfRecord t k.1 b k.2) s) := .foldl (fun _ _ => connsKept_emit ..) l s

theorem connsKept_writeCompletion (s : State) (b : Nat) (e : EndInfo) : ConnsKept s (writeCompletion s b e) := by
  unfold writeCompletion
  dsimp only
  split
  · exact (connsKept_emit ..).trans (connsKept_emit ..)
  · exact connsKept_emit ..

theorem connsKept_payWhere (s : State) (o : Option Owed) (status : Nat) : ConnsKept s (payWhere s o status) := by
  cases o with
  | none => exact .refl s
  | some o => exact connsKept_emit ..

theorem connsKept_finishTask (s : State) (b : Nat) (e : EndInfo) (st : BerthState) : ConnsKept s (finishTask s b e st) := by
  have parts : finishTask s b e st = payWhere (setBerth ((berthOf (writeCompletion s b e) b).freed.foldl
      (fun t k => halfRecord t k.1 b k.2) (writeCompletion s b e)) b _) (berthOf (writeCompletion s b e) b).preemptOwed 5 := rfl
  rw [parts]
  exact ((connsKept_writeCompletion s b e).trans (connsKept_halfRecords ..)).trans
    (.trans (t := setBerth _ b _) (.of_conns rfl) (connsKept_payWhere ..))

/-- What a disabled berth's end leaves: the berth disabled with no end outstanding, its windows and connections as they were. -/
theorem disabledEnd_spec (s : State) (b : Nat) (e : Option EndInfo) :
    (berthOf (disabledEnd s b e) b).st = .disabled ∧ (e = (berthOf s b).ended → (berthOf (disabledEnd s b e) b).ended = none) ∧
      (berthOf (disabledEnd s b e) b).hold = (berthOf s b).hold ∧
      (disabledEnd s b e).windows = s.windows ∧ ConnsKept s (disabledEnd s b e) ∧
      (e.isSome = true → (berthOf (disabledEnd s b e) b).cur = none ∧ (berthOf (disabledEnd s b e) b).last = (berthOf s b).cur) := by
  cases e with
  | some e =>
    have own : berthOf (disabledEnd s b (some e)) b = finishedBerth e .disabled (berthOf s b) := by
      rw [disabledEnd, berthOf_finishTask, if_pos rfl]
    have conns : ConnsKept s (disabledEnd s b (some e)) := by
      rw [disabledEnd]
      exact connsKept_finishTask ..
    rw [own]
    refine ⟨rfl, fun _ => rfl, rfl, ?_, conns, fun _ => ⟨rfl, rfl⟩⟩
    rw [disabledEnd]
    exact of_finishTask State.windows (fun u v k => by rw [OnlyRecords] at k; rw [k]) (fun _ _ _ => rfl) ..
  | none =>
    have only := halfRecords_only b (berthOf s b).freed s
    have own : berthOf (disabledEnd s b none) b = { berthOf s b with st := .disabled, freed := [] } := by
      rw [disabledEnd, berthOf_setBerth, if_pos rfl]
    rw [own]
    refine ⟨rfl, fun open_ => open_.symm, rfl, ?_, ?_, fun h => nomatch h⟩
    · have windows : ((berthOf s b).freed.foldl (fun t k => halfRecord t k.1 b k.2) s).windows = s.windows := by
        rw [OnlyRecords] at only; rw [only]
      exact windows
    · exact .trans (connsKept_halfRecords b (berthOf s b).freed s) (.of_conns rfl)

/-- A berth that is disabled, once its transactions are over or 5 ms have passed. -/
theorem disables {s : State} {b : Fin 16} (st : (berthOf s b).st = .disabling)
    (past : berthBusy s b = false ∨ (berthOf s b).disableAt + 5000000 ≤ s.time.mono)
    (told : ∀ e, (berthOf s b).ended = some e → faultOnWay s b e = false) :
    ∃ t, exec (.disableComplete b) s = .next t ∧ (berthOf t b).st = .disabled ∧ (berthOf t b).ended = none ∧
      (berthOf t b).disableOwed = none ∧ (berthOf t b).hold.lost.isSome = true ∧
      t.windows = s.windows.map (fun w => if w.2.berth = b.val then (w.1, { w.2 with sealedW := true }) else w) ∧
      (∀ n, n ≠ 0 → (connOf s n).valid = true → (connOf s n).berth = b.val → (connOf t n).err = true) ∧
      ((berthOf s b).ended.isSome = true → (berthOf t b).cur = none ∧ (berthOf t b).last = (berthOf s b).cur) := by
  have run := disableDone_of_ready st past told
  obtain ⟨kept, lost⟩ := berthOf_sealedOff s b
  obtain ⟨st', ended, hold, windows, conns, over_⟩ := disabledEnd_spec (sealedOff s b) b (berthOf s b).ended
  have paid := payWhere_only (setBerth (disabledEnd (sealedOff s b) b (berthOf s b).ended) b
    (answeredBerth (berthOf (disabledEnd (sealedOff s b) b (berthOf s b).ended) b))) (berthOf s b).disableOwed 0
  have last := connsKept_payWhere (setBerth (disabledEnd (sealedOff s b) b (berthOf s b).ended) b
    (answeredBerth (berthOf (disabledEnd (sealedOff s b) b (berthOf s b).ended) b))) (berthOf s b).disableOwed 0
  have own : berthOf (payWhere (setBerth (disabledEnd (sealedOff s b) b (berthOf s b).ended) b
      (answeredBerth (berthOf (disabledEnd (sealedOff s b) b (berthOf s b).ended) b))) (berthOf s b).disableOwed 0) b =
      (answeredBerth (berthOf (disabledEnd (sealedOff s b) b (berthOf s b).ended) b)) :=
    (berthOf_of_onlyRecords paid b).trans ((berthOf_setBerth ..).trans (if_pos rfl))
  have same : (berthOf (sealedOff s b) b).ended = (berthOf s b).ended := congrArg (fun x => x.ended) kept
  refine ⟨_, congrArg Host.Outcome.next run, by rw [own]; exact st', by rw [own]; exact ended same.symm, by rw [own]; rfl, ?_, ?_,
    fun n other valid mine => ?_, fun isEnded => ?_⟩
  · rw [own]
    exact (congrArg (fun h : Hold => h.lost.isSome) hold).trans lost
  · have still : (payWhere (setBerth (disabledEnd (sealedOff s b) b (berthOf s b).ended) b
        (answeredBerth (berthOf (disabledEnd (sealedOff s b) b (berthOf s b).ended) b))) (berthOf s b).disableOwed 0).windows =
        (disabledEnd (sealedOff s b) b (berthOf s b).ended).windows := by
      rw [OnlyRecords] at paid; rw [paid]; rfl
    rw [still, windows, windows_sealedOff]
  · exact last.err n (conns.err n (err_sealedOff other valid mine))
  · obtain ⟨cur, ran⟩ := over_ isEnded
    have same : (berthOf (sealedOff s b) b).cur = (berthOf s b).cur := congrArg (fun x => x.cur) kept
    exact ⟨(congrArg Berth.cur own).trans cur, ((congrArg Berth.last own).trans ran).trans same⟩

/-- Settles O46: suspension is `suspends`, resumption `resumeDone_of_goes`, disabling `disables`; otherwise nothing happens. -/
theorem suspensionAndDisablingComplete : Obligations.SuspensionAndDisablingComplete := by
  unfold Obligations.SuspensionAndDisablingComplete
  intro s b mem
  refine ⟨fun p h => congrArg Host.Outcome.next (suspendDone_of_not_ready _ _ h), suspends, fun ending st live done noEnds room => ?_,
    fun goes done => ?_, ?_, fun h => ?_, fun h => congrArg Host.Outcome.next (disableDone_of_not_ready h), disables⟩
  case refine_1 =>
    exact congrArg Host.Outcome.next ((suspendDone_of_ready (late := mem.late) st live done noEnds room).trans (saveTask_of_ending ending))
  case refine_2 =>
    have tried : tryRestore s b mem = s := tryRestore_of_not_ready mem (restoreReady_of_not_waiting (by simp [done]))
    exact congrArg Host.Outcome.next ((resumeDone_of_goes goes tried).1 goes done)
  case refine_3 =>
    rintro t goes ready rfl
    have tried := tryRestore_of_ready mem ready
    exact ⟨fun still done => congrArg Host.Outcome.next ((resumeDone_of_goes goes tried).1 still done),
      fun stays => congrArg Host.Outcome.next ((resumeDone_of_goes goes tried).2 stays)⟩
  case refine_4 =>
    cases goes : resumeGoes s b with
    | false => exact congrArg Host.Outcome.next (resumeDone_of_idle mem goes)
    | true =>
      obtain ⟨notDone, notReady⟩ := h.resolve_left (by simp [goes])
      exact congrArg Host.Outcome.next ((resumeDone_of_goes goes (tryRestore_of_not_ready mem notReady)).2 (.inr notDone))

end Sys2Proof.Proofs
end


section
/-! The state right after reset (18_register_index.md). -/

namespace Sys2Proof.Proofs

open Sys2Proof Sys2Proof.Machine Sys2Proof.Safety Sys2Proof.Laws

/-- FC_SEV_n of a source holds its default class where nothing has been written. -/
theorem faultClass_of_default {s : State} (h : s.rw = []) {n c : Nat} (hn : n < 256) (hc : faultDefault n = some c) : faultClass s n = c := by
  have low := faultDefault_le_lock hc
  have kept : regGet s (fcSevAddr n) = rwReset s (fcSevAddr n) := by unfold regGet; rw [h]; rfl
  have range : fcBase + 0x400 ≤ fcSevAddr n ∧ fcSevAddr n < fcBase + 0x800 := by unfold fcSevAddr; omega
  have mg : fcSevAddr n ≠ mgBase + 0x17C ∧ fcSevAddr n ≠ mgBase + 0x190 ∧ fcSevAddr n ≠ fcBase + 4 := by
    unfold fcSevAddr fcBase mgBase; omega
  have index : (fcSevAddr n - fcBase - 0x400) / 4 = n := by unfold fcSevAddr; omega
  obtain ⟨mg1, mg2, fc⟩ := mg
  rw [faultClass, kept, rwReset, if_neg mg1, if_neg mg2, if_neg fc, if_pos range, index, hc, Option.getD_some, BitVec.toNat_ofNat]
  omega

theorem berth_reset (b : Nat) : (berthOf State.reset b).st = .undefined := rfl

theorem conn_reset (n : Nat) : (connOf State.reset n).valid = false := rfl

theorem ports_reset : ∀ p, p < 8 → (portOf State.reset p).state = .down ∧ lportOf State.reset p = p ∧ regValue State.reset (ptBase p) = 0 := by
  decide

theorem patience_reset : ∀ q, q < 4 → ∀ c, c < 18 → regValue State.reset (qyBase q + 0x400 + 0x40 * c + 8) = 0x186A0 := by decide

theorem gangs_reset : ∀ d, d < 16 → regValue State.reset (dkBase d + 0x50) = 0x0F000000 := by decide

theorem memWf_reset : MemWf State.reset := ⟨by decide, by decide, by decide, by decide⟩

/-- Settles O55: every register is read at the reset state. -/
theorem resetHoldsTheStatedValues : Obligations.ResetHoldsTheStatedValues := by
  unfold Obligations.ResetHoldsTheStatedValues
  refine ⟨rfl, rfl, rfl, rfl, rfl, rfl, rfl, rfl, memWf_reset, fun r hr => absurd hr List.not_mem_nil,
    fun n c => faultClass_of_default rfl, fun b _ => berth_reset b, fun n _ => conn_reset n, ports_reset, by decide, by decide, by decide,
    by decide, by decide, by decide, by decide, fun q c hq hc => patience_reset q hq c hc, gangs_reset⟩

end Sys2Proof.Proofs
end


section
/-! DK_GANG, which says whether a deck is fenced: no end of a task changes it, and no gang that is re-formed ends a fence (R96-R99, R535). -/

namespace Sys2Proof.Proofs

open Sys2Proof Sys2Proof.Machine Sys2Proof.Safety Sys2Proof.Laws

/-! ### What an end leaves of DK_GANG -/

/-- The DK_GANG words of the decks. -/
def gangsOf (s : State) (d : Nat) : Word := (deckOf s d).gang

theorem gangsOf_setDeck {s : State} {d : Nat} {x : Deck} (h : x.gang = (deckOf s d).gang) : gangsOf (setDeck s d x) = gangsOf s := by
  funext j
  unfold gangsOf
  rw [deckOf_setDeck]
  split
  · next same => rw [← same, h]
  · rfl

theorem gangsOf_setGang (s : State) (d : Nat) (w : Word) (j : Nat) : gangsOf (setGang s d w) j = if d = j then w else gangsOf s j := by
  unfold gangsOf setGang
  rw [deckOf_setDeck]
  split <;> rfl

theorem gangsOf_setCtx (s : State) (q c : Nat) (x : Ctx) : gangsOf (setCtx s q c x) = gangsOf s := rfl

theorem gangsOf_freshWord (s : State) : gangsOf (freshWord s).2 = gangsOf s := rfl

theorem gangsOf_endTransfers (b : Nat) (s : State) : gangsOf (endTransfers b s) = gangsOf s := rfl

theorem gangsOf_endWaits (b : Nat) (s : State) : gangsOf (endWaits b s) = gangsOf s := rfl

theorem gangsOf_inuseDown (s : State) (uses : List (Nat × Nat)) : gangsOf (inuseDown s uses) = gangsOf s :=
  foldl_keeps (f := inuseStep false) gangsOf (fun _ _ => gangsOf_setDeck rfl) uses s

theorem gangsOf_hbmUndefine (s : State) (a len : Nat) : gangsOf (hbmUndefine s a len) = gangsOf s :=
  foldl_keeps (f := fun (t : State) (r : Nat × Nat) => { t with hbm := t.hbm.undefine r.1 r.2 (freshGen s).1 }) gangsOf (fun _ _ => rfl) _
    (freshGen s).2

theorem gangsOf_undefineBuf (s : State) (x : BufDest) : gangsOf (undefineBuf s x) = gangsOf s := by
  unfold undefineBuf
  dsimp only
  refine (gangsOf_setDeck ?_).trans rfl
  split <;> rfl

theorem gangsOf_ruinDeck (s : State) (d : Nat) : gangsOf (ruinDeck s d) = gangsOf s := by
  unfold ruinDeck
  dsimp only
  refine (gangsOf_setDeck ?_).trans ?_
  · rfl
  exact foldl_keeps (f := fun (a : List DWord × State) (_ : Nat) => ((a.1 ++ [(freshWord a.2).1], (freshWord a.2).2) : List DWord × State))
    (fun a => gangsOf a.2) (fun _ _ => rfl) _ _

theorem gangsOf_ruinSave (s : State) (d : Nat) : gangsOf (ruinSave s d) = gangsOf s := by
  unfold ruinSave
  split
  · exact gangsOf_hbmUndefine ..
  · rfl

theorem gangsOf_flushRun (s : State) (r : Run) : gangsOf (flushRun s r) = gangsOf s := by
  unfold flushRun
  dsimp only
  calc gangsOf (dropRun (spoilFlight _ r) r.id) = gangsOf _ := rfl
    _ = gangsOf _ := foldl_keeps (f := fun t (e : Nat × Nat) => hbmUndefine t e.1 e.2) gangsOf
        (fun t e => gangsOf_hbmUndefine t e.1 e.2) _ _
    _ = gangsOf (inuseDown s r.cmd.uses) := foldl_keeps (f := undefineBuf) gangsOf gangsOf_undefineBuf _ _
    _ = gangsOf s := gangsOf_inuseDown ..

theorem gangsOf_stopCtx (s : State) (q c : Nat) : gangsOf (stopCtx s q c) = gangsOf s := by
  unfold stopCtx
  dsimp only
  rw [gangsOf_setCtx]
  simp only [gangsOf_freshWord, gangsOf_inuseDown]

theorem gangsOf_releasePasses (x : Berth) (s : State) : gangsOf (releasePasses x s) = gangsOf s := by
  unfold releasePasses
  split
  · rfl
  · exact foldl_keeps (f := fun t (e : SuspendedPass) => inuseDown t e.cmd.uses) gangsOf (fun t e => gangsOf_inuseDown t _) _ _

theorem gangsOf_ruinSaves (x : Berth) (b : Nat) (s : State) : gangsOf (ruinSaves x b s) = gangsOf s := by
  unfold ruinSaves
  split
  · exact foldl_keeps (f := ruinSave) gangsOf gangsOf_ruinSave _ _
  · rfl

theorem gangsOf_freeHalves (s : State) (b : Nat) : gangsOf (freeHalves s b) = gangsOf s := by
  unfold freeHalves
  dsimp only
  exact Eq.trans rfl (foldl_keeps (f := fun (t : State) (k : Nat × Nat) => setHalf t k.1 b k.2 { halfOf t k.1 b k.2 with armed := false }) gangsOf
    (fun _ _ => rfl) _ _)

theorem gangsOf_emptied (s : State) (b : Nat) : gangsOf (emptied s b) = gangsOf s := by
  unfold emptied
  dsimp only
  rw [gangsOf_ruinSaves, gangsOf_endTransfers, foldl_keeps (f := ruinDeck) gangsOf gangsOf_ruinDeck, flushRuns,
    foldl_keeps (f := flushRun) gangsOf gangsOf_flushRun, gangsOf_endWaits, gangsOf_releasePasses, stopCtxs,
    foldl_keeps (f := fun t n => stopCtx t (n / 18) (n % 18)) gangsOf (fun t n => gangsOf_stopCtx ..), gangsOf_freeHalves]

theorem gangsOf_stopTask (s : State) (b : Nat) : gangsOf (stopTask s b) = gangsOf s := by
  rw [stopTask_eq, undefineFlags_keeps gangsOf (fun _ j _ => by cases j <;> rfl) (fun _ => rfl)]
  exact Eq.trans rfl (gangsOf_emptied s b)

theorem gangsOf_latchEnd (s : State) (b : Nat) (info : EndInfo) (after : BerthState) : gangsOf (latchEnd s b info after) = gangsOf s := by
  unfold latchEnd
  split
  · refine Eq.trans rfl ?_
    split
    · rfl
    · exact gangsOf_stopTask s b
  · rfl

theorem gangsOf_haltBerth (s : State) (b : Nat) : gangsOf (haltBerth s b) = gangsOf s := by
  have latched := gangsOf_latchEnd s b { status := 1, cause := 4 } .halted
  unfold haltBerth
  split
  · rfl
  · dsimp only
    split
    · exact latched
    · split <;> exact latched

theorem deckFenced_eq (s : State) (d : Nat) : deckFenced s d = bit (gangsOf s d).toNat 30 := rfl

theorem deckFenced_of_gangs {s t : State} (h : gangsOf t = gangsOf s) (d : Nat) : deckFenced t d = deckFenced s d := by
  rw [deckFenced_eq, deckFenced_eq, h]

/-! ### A fence stays -/

/-- Every fenced deck stays fenced. -/
structure FencesKept (s t : State) : Prop where
  fenced : ∀ d, deckFenced s d = true → deckFenced t d = true

theorem FencesKept.of_gangs {s t : State} (h : gangsOf t = gangsOf s) : FencesKept s t :=
  ⟨fun d fenced => (deckFenced_of_gangs h d).trans fenced⟩

theorem FencesKept.trans {s t u : State} (h : FencesKept s t) (k : FencesKept t u) : FencesKept s u :=
  ⟨fun d fenced => k.fenced d (h.fenced d fenced)⟩

theorem deckFenced_setGang (s : State) (d : Nat) (w : Word) (j : Nat) :
    deckFenced (setGang s d w) j = if d = j then bit w.toNat 30 else deckFenced s j := by
  rw [deckFenced_eq, gangsOf_setGang]
  split <;> rfl

/-- The word of a fenced deck in no gang says that it is fenced. -/
theorem bit_leftWord {s : State} {d : Nat} (h : deckFenced s d = true) : bit (leftWord s d).toNat 30 = true := by
  have word : bit (noGangWord s d).toNat 30 = true := by
    rw [noGangWord, h]
    decide
  unfold bit at word ⊢
  rw [leftWord, BitVec.toNat_or, Nat.testBit_or, word, Bool.true_or]

/-- Setting the words of decks keeps the fences of the decks whose new words keep them. -/
theorem fencesKept_setGangs (word : State → Nat → Word) (l : List Nat) (s : State)
    (hw : ∀ t d, d ∈ l → FencesKept s t → deckFenced s d = true → bit (word t d).toNat 30 = true) :
    FencesKept s (l.foldl (fun t d => setGang t d (word t d)) s) := by
  refine List.foldlRecOn (motive := FencesKept s) l _ (FencesKept.of_gangs rfl) (fun t kept d hd => ⟨fun j fenced => ?_⟩)
  rw [deckFenced_setGang]
  split
  · next same => exact same ▸ hw t d hd kept (same ▸ fenced)
  · exact kept.fenced j fenced

/-- The element at a position that a test has found passes it. -/
theorem indexWhere_passes {α : Type} {p : α → Bool} (d : α) : ∀ {l : List α} {i : Nat}, indexWhere p l = some i → p (nth d l i) = true
  | [], _, h => by simp [indexWhere] at h
  | a :: r, i, h => by
    unfold indexWhere at h
    split at h
    · next passes =>
      cases h
      exact passes
    · obtain ⟨j, found, rfl⟩ := Option.map_eq_some_iff.mp h
      have passes : p (nth d r j) = true := indexWhere_passes d found
      exact passes

/-- A gang that is re-formed takes a shape without a fenced member, and halts its berth where it has none: no fence ends. -/
theorem fencesKept_refitGang (s : State) (g : Nat) : FencesKept s (refitGang s g) := by
  unfold refitGang
  cases shape : gangShape s g with
  | some i =>
    dsimp only
    have unfenced := indexWhere_passes { gmLog := 0, gnLog := 0, members := [] } shape
    refine fencesKept_setGangs _ _ s (fun t d _ kept fenced => ?_)
    split
    · next member =>
      have free := List.all_eq_true.mp unfenced d (List.contains_iff_mem.mp member)
      rw [fenced] at free
      exact absurd free (by decide)
    · exact bit_leftWord (kept.fenced d fenced)
  | none =>
    dsimp only
    have left := fencesKept_setGangs leftWord ((nth { gmLog := 0, gnLog := 0, members := [] } (tget ({} : Gang) s.gangs g).shapes 0).members.filter
      (deckFenced s)) s (fun t d _ kept fenced => bit_leftWord (kept.fenced d fenced))
    split
    · exact left.trans (FencesKept.of_gangs (gangsOf_haltBerth ..))
    · exact left

theorem fencesKept_refitGangs (s : State) : FencesKept s (refitGangs s) :=
  List.foldlRecOn (motive := FencesKept s) (brokenGangs s) refitGang (FencesKept.of_gangs rfl)
    (fun t kept g _ => kept.trans (fencesKept_refitGang t g))

theorem gangsOf_issueAll (s : State) : gangsOf (issueAll s) = gangsOf s :=
  of_withoutFlight gangsOf (fun _ => rfl) (withoutFlight_issueAll s)

/-- A deck that is masked is fenced. -/
theorem deckFenced_maskDeck (s : State) (d : Nat) : deckFenced (maskDeck s d) d = true := by
  have masked : gangsOf (maskDeck s d) d = BitVec.ofNat 32 ((deckOf s d).gang.toNat ||| 2 ^ 30) := by
    unfold maskDeck
    dsimp only
    rw [gangsOf_issueAll]
    refine (congrFun (gangsOf_setDeck ?_) d).trans ?_
    · rfl
    · rw [gangsOf_setGang, if_pos rfl]
  rw [deckFenced_eq, masked, BitVec.toNat_ofNat, bit, Nat.testBit_mod_two_pow, Nat.testBit_or, Nat.testBit_two_pow_self, Bool.or_true, Bool.and_true,
    decide_eq_true (by omega)]

/-- A deck whose fault has the class FENCE is fenced, whatever its gang takes up (R535). -/
theorem deckFenced_fenceDeck (s : State) (d : Nat) (source : BitVec 16) : deckFenced (fenceDeck s d source) d = true := by
  unfold fenceDeck
  by_cases fenced : deckFenced s d = true
  · rw [if_pos fenced]
    exact fenced
  · rw [if_neg fenced]
    split
    · exact deckFenced_maskDeck s d
    · exact (fencesKept_refitGangs _).fenced d (deckFenced_maskDeck _ d)

end Sys2Proof.Proofs
end


section
/-! The chip fault collector: how a fault is raised, which occurrence is taken first, the entry a record takes, what a new record leaves, and
what the classes do (R521-R545). -/

namespace Sys2Proof.Proofs

open Sys2Proof Sys2Proof.Machine Sys2Proof.Safety Sys2Proof.Laws

/-! ### What ends and halts leave -/

/-- The state without what an end, a halt and a re-formed gang change. -/
def withoutStop (s : State) : State := { withoutTask s with berths := [], ends := [] }

theorem of_withoutStop {β : Type} (part : State → β) (hm : ∀ u, part (withoutStop u) = part u) {s t : State}
    (h : withoutStop t = withoutStop s) : part t = part s := by rw [← hm, h, hm]

theorem withoutStop_setBerth (s : State) (b : Nat) (x : Berth) : withoutStop (setBerth s b x) = withoutStop s := rfl

theorem withoutStop_setGang (s : State) (d : Nat) (w : Word) : withoutStop (setGang s d w) = withoutStop s := rfl

theorem withoutStop_latchEnd (s : State) (b : Nat) (info : EndInfo) (after : BerthState) : withoutStop (latchEnd s b info after) = withoutStop s := by
  cases live : taskLive s b with
  | false => rw [latchEnd_of_not_live live]
  | true =>
    obtain ⟨x, -, task, -⟩ := latchEnd_spec info live after
    exact congrArg (fun u : State => { u with berths := [], ends := [] }) task

theorem withoutStop_latchPending (s : State) (b : Nat) : withoutStop (latchPending s b) = withoutStop s := by
  unfold latchPending
  dsimp only
  have ends (t : State) (l : List EndEvt) : withoutStop { t with ends := l } = withoutStop t := rfl
  rw [ends]
  split
  · exact withoutStop_latchEnd ..
  · rfl

theorem withoutStop_haltBerth (s : State) (b : Nat) : withoutStop (haltBerth s b) = withoutStop s := by
  have latched := withoutStop_latchEnd s b { status := 1, cause := 4 } .halted
  unfold haltBerth
  split
  · rfl
  · dsimp only
    split
    · exact latched
    · split
      · exact (withoutStop_setBerth ..).trans latched
      · exact (withoutStop_setBerth ..).trans latched

theorem withoutStop_setGangs (word : State → Nat → Word) (l : List Nat) (s : State) :
    withoutStop (l.foldl (fun t d => setGang t d (word t d)) s) = withoutStop s :=
  foldl_keeps (f := fun t d => setGang t d (word t d)) withoutStop (fun t d => withoutStop_setGang t d (word t d)) l s

theorem withoutStop_refitGang (s : State) (g : Nat) : withoutStop (refitGang s g) = withoutStop s := by
  unfold refitGang
  cases gangShape s g with
  | some i => exact withoutStop_setGangs _ _ s
  | none =>
    dsimp only
    split
    · exact (withoutStop_haltBerth ..).trans (withoutStop_setGangs leftWord _ s)
    · exact withoutStop_setGangs leftWord _ s

theorem withoutStop_refitGangs (s : State) : withoutStop (refitGangs s) = withoutStop s :=
  foldl_keeps (f := refitGang) withoutStop withoutStop_refitGang _ s

/-! ### A record leaves the store as it was, but for the number of the ring it goes to -/

theorem fc_request (s : State) (n : Nat) (kind : ReqKind) (packets : Nat) (m : Roce) (g : Bool) : (request s n kind packets m g).fc = s.fc := by
  unfold request
  dsimp only
  split
  · unfold sendOn
    split
    · unfold sendFrame
      split <;> rfl
    · rfl
  · rfl

/-- Stored records with new numbers in their rings. -/
def renumbered (seq : FaultRec → Word) (l : Tbl FaultRec) : Tbl FaultRec := l.map (fun e => (e.1, { e.2 with seq := seq e.2 }))

theorem fc_writeRecord (s : State) (l : Nat) (r : Rec) : ∃ seq, (writeRecord s l r).fc = { s.fc with recs := renumbered seq s.fc.recs } := by
  have sent (t : State) (m : Roce) (h : t.fc = s.fc) : (request t (ringConn s l) .record 1 m).fc = s.fc := (fc_request ..).trans h
  unfold writeRecord
  dsimp only
  generalize hu : request _ (ringConn s l) .record 1 _ = u
  have store : u.fc = s.fc := hu ▸ sent _ _ rfl
  split
  · next e _ =>
    refine ⟨fun x => if x.age = e then (landOf s l).dseq + 1 else x.seq, ?_⟩
    dsimp only
    rw [store]
    refine congrArg (fun l => ({ s.fc with recs := l } : Collector)) (List.map_congr_left (fun x _ => ?_))
    split
    · next same => simp only [same, if_true]
    · next other => simp only [other, if_false]
  · exact ⟨fun x => x.seq, store.trans (congrArg (fun l => ({ s.fc with recs := l } : Collector)) (List.map_id _).symm)⟩

/-- A record that joins a ring changes no stored record but in its number. -/
theorem fc_emit (s : State) (l : Nat) (r : Rec) : ∃ seq, (emit s l r).fc = { s.fc with recs := renumbered seq s.fc.recs } := by
  have same : ({ s.fc with recs := renumbered FaultRec.seq s.fc.recs } : Collector) = s.fc :=
    congrArg (fun l => ({ s.fc with recs := l } : Collector)) (List.map_id _)
  unfold emit
  dsimp only
  split
  · exact fc_writeRecord s l r
  · split
    · exact ⟨FaultRec.seq, same.symm⟩
    · exact ⟨FaultRec.seq, same.symm⟩

theorem thas_renumbered (seq : FaultRec → Word) (k : Nat) : ∀ l : Tbl FaultRec, thas (renumbered seq l) k = thas l k
  | [] => rfl
  | (j, v) :: r => by
    show (if j = k then true else thas (renumbered seq r) k) = if j = k then true else thas r k
    rw [thas_renumbered seq k r]

theorem thas_cons {α : Type} (j n : Nat) (w : α) (r : Tbl α) : thas ((j, w) :: r) n = (j == n || thas r n) := by
  by_cases h : j = n <;> simp [thas, h]

theorem thas_tput {α : Type} (k : Nat) (v : α) (n : Nat) : ∀ l : Tbl α, thas (tput l k v) n = (thas l n || k == n)
  | [] => by rw [tput, thas_cons, Bool.or_comm]
  | (j, w) :: r => by
    unfold tput
    split
    · rw [thas_cons, Bool.or_comm]
    · split
      · next same =>
        rw [thas_cons, thas_cons, same, Bool.or_comm (j == n), Bool.or_assoc, Bool.or_self]
      · rw [thas_cons, thas_cons, thas_tput k v n r, Bool.or_assoc]

/-! ### The store -/

theorem map_tput {α β : Type} (f : α → β) (k : Nat) (v : α) : ∀ l : Tbl α,
    (tput l k v).map (fun e => (e.1, f e.2)) = tput (l.map (fun e => (e.1, f e.2))) k (f v)
  | [] => rfl
  | (j, w) :: r => by
    simp only [tput, List.map_cons]
    split
    · rfl
    · split
      · rfl
      · simp only [List.map_cons, map_tput f k v r]

/-- What a search through a list ends with is one of its elements. -/
theorem mem_of_foldl_some {α : Type} {f : Option α → α → Option α} (hf : ∀ a e x, f a e = some x → x = e ∨ a = some x) {l : List α} {x : α}
    (h : l.foldl f none = some x) : x ∈ l := by
  have member : ∀ x, l.foldl f none = some x → x ∈ l :=
    List.foldlRecOn (motive := fun a => ∀ x, a = some x → x ∈ l) l f (fun x hx => nomatch hx) (fun a ha e he x hx => by
      rcases hf a e x hx with rfl | kept
      · exact he
      · exact ha x kept)
  exact member x h

/-- The oldest record of some classes is a stored one of these. -/
theorem oldestRec_spec {s : State} {lo hi n : Nat} (h : oldestRec s lo hi = some n) : ∃ r, (n, r) ∈ s.fc.recs ∧ r.cls ≤ hi := by
  obtain ⟨⟨m, r⟩, found, rfl⟩ := Option.map_eq_some_iff.mp h
  have member := mem_of_foldl_some (fun a e x hx => by
    split at hx
    · exact .inl (Option.some.inj hx).symm
    · split at hx
      · exact .inl (Option.some.inj hx).symm
      · exact .inr hx) found
  obtain ⟨stored, class_⟩ := List.mem_filter.mp member
  exact ⟨r, stored, (of_decide_eq_true class_).2⟩

/-- The collector takes a free entry for a new record, one below 192 for a low class, or that of a record of a lower class. -/
theorem entryFor_spec {s : State} {cls n : Nat} {repl : Bool} (h : entryFor s cls = some (n, repl)) :
    (repl = false → thas s.fc.recs n = false ∧ (cls < 3 → n < 192)) ∧
    (repl = true → ∃ r, (n, r) ∈ s.fc.recs ∧ r.cls < cls ∧ r.cls ≤ 2 ∧ 2 ≤ cls) := by
  unfold entryFor at h
  split at h
  · next m free =>
    cases h
    have empty := List.find?_some free
    have below := List.mem_range.mp (List.mem_of_find?_eq_some free)
    refine ⟨fun _ => ⟨by simpa using empty, fun low => ?_⟩, nofun⟩
    rwa [if_neg (by omega)] at below
  · split at h
    · cases h
    · next low =>
      split at h
      · next m oldest =>
        cases h
        obtain ⟨r, stored, class_⟩ := oldestRec_spec oldest
        exact ⟨nofun, fun _ => ⟨r, stored, Nat.lt_of_le_of_lt class_ (by omega), Nat.le_succ_of_le class_, by omega⟩⟩
      · split at h
        · cases h
        · next task =>
          obtain ⟨m, oldest, same⟩ := Option.map_eq_some_iff.mp h
          cases same
          obtain ⟨r, stored, class_⟩ := oldestRec_spec oldest
          exact ⟨nofun, fun _ => ⟨r, stored, Nat.lt_of_le_of_lt class_ (by omega), class_, by omega⟩⟩

/-- What a new record leaves in the store: its entry listed, and what was dropped counted. -/
theorem storeRec_of_none {s : State} {r : FaultRec} (h : entryFor s r.cls = none) :
    storeRec s r = { s with fc := { s.fc with drop := satInc s.fc.drop 1, ovf := true, age := s.fc.age + 1 } } := by
  simp only [storeRec, h]

theorem storeRec_of_some {s : State} {r : FaultRec} {n : Nat} {repl : Bool} (h : entryFor s r.cls = some (n, repl)) :
    storeRec s r = { s with
      fc := { s.fc with
              recs := tput s.fc.recs n r
              age := s.fc.age + 1
              drop := if repl then satInc s.fc.drop 1 else s.fc.drop
              ovf := if repl then true else s.fc.ovf } } := by
  cases repl <;> simp [storeRec, h]

/-! ### A new record -/

/-- The record of an occurrence. -/
def recordFor (s : State) (o : Occ) : FaultRec :=
  { source := o.source, cls := o.cls, berth := o.berth, seq := 0, task := o.task, count := 1, tide := o.tide, detail := o.detail, age := s.fc.age }

/-- PW_ALERT_STAT shows a record of a class from the threshold on. -/
def alerted (o : Occ) (s : State) : State := if regBits s (fcBase + 4) 2 0 ≤ o.cls then alertSet s 0 else s

/-- The ring of an occurrence. -/
def occRing (s : State) (o : Occ) : Nat :=
  match o.berth with
  | some b => ringOf s b
  | none => 16

/-- The state in which a new record has been stored and reported. -/
def announced (s : State) (o : Occ) : State :=
  emit (alerted o (storeRec s (recordFor s o))) (occRing (alerted o (storeRec s (recordFor s o))) o)
    { type := 4, berth := o.berth.getD 0xFF, hseq := none, task := o.task, tide := o.tide, body := faultBytes (recordFor s o),
      soft := decide (o.cls ≤ 1), entry := some s.fc.age }

theorem collect_of_new {s : State} {o : Occ} (h : foldsInto s o = none) : collect s o = react (announced s o) o := by
  simp only [collect, h]
  rfl

theorem fc_alerted (o : Occ) (s : State) : (alerted o s).fc = s.fc := by
  unfold alerted
  split <;> rfl

/-- Beside the store, the alerts and what records change, a new record changes nothing. -/
theorem announced_keeps {β : Type} (part : State → β) (hr : ∀ s t, OnlyRecords s t → part t = part s)
    (hp : ∀ s x, part { s with pw := x } = part s) (s : State) (o : Occ) : part (announced s o) = part s := by
  have stored : part (storeRec s (recordFor s o)) = part s := by
    refine hr _ _ ?_
    unfold storeRec
    dsimp only
    split <;> rfl
  refine (hr _ _ (emit_only ..)).trans (Eq.trans ?_ stored)
  unfold alerted
  split
  · exact hp ..
  · rfl

theorem fc_announced (s : State) (o : Occ) : ∃ seq, (announced s o).fc =
    { (storeRec s (recordFor s o)).fc with recs := renumbered seq (storeRec s (recordFor s o)).fc.recs } := by
  obtain ⟨seq, h⟩ := fc_emit (alerted o (storeRec s (recordFor s o))) (occRing (alerted o (storeRec s (recordFor s o))) o)
    { type := 4, berth := o.berth.getD 0xFF, hseq := none, task := o.task, tide := o.tide, body := faultBytes (recordFor s o),
      soft := decide (o.cls ≤ 1), entry := some s.fc.age }
  refine ⟨seq, h.trans ?_⟩
  rw [fc_alerted]

/-- A new record that finds no entry is counted as dropped. -/
theorem announced_of_none {s : State} {o : Occ} (h : entryFor s o.cls = none) :
    (∀ k, thas (announced s o).fc.recs k = thas s.fc.recs k) ∧ (announced s o).fc.drop = satInc s.fc.drop 1 ∧ (announced s o).fc.ovf = true := by
  obtain ⟨seq, store⟩ := fc_announced s o
  rw [store, storeRec_of_none h]
  exact ⟨fun k => thas_renumbered seq k _, rfl, rfl⟩

/-- A new record takes its entry; where it replaces one, that is counted. -/
theorem announced_of_some {s : State} {o : Occ} {n : Nat} {repl : Bool} (h : entryFor s o.cls = some (n, repl)) :
    (∀ k, thas (announced s o).fc.recs k = (thas s.fc.recs k || n == k)) ∧
    tget none ((announced s o).fc.recs.map (fun e => (e.1, some e.2.source))) n = some o.source ∧
    (announced s o).fc.drop = (if repl then satInc s.fc.drop 1 else s.fc.drop) ∧ (repl = true → (announced s o).fc.ovf = true) := by
  obtain ⟨seq, store⟩ := fc_announced s o
  have sources : (renumbered seq (tput s.fc.recs n (recordFor s o))).map (fun e => (e.1, some e.2.source)) =
      tput (s.fc.recs.map (fun e => (e.1, some e.2.source))) n (some o.source) := by
    rw [renumbered, List.map_map]
    exact map_tput (fun r : FaultRec => some r.source) n (recordFor s o) s.fc.recs
  rw [store, storeRec_of_some h]
  refine ⟨fun k => (thas_renumbered seq k _).trans (thas_tput ..), ?_, rfl, fun replaced => if_pos replaced⟩
  exact (congrArg (fun l => tget none l n) sources).trans (tget_tput_same ..)

/-! ### The order of occurrences -/

theorem occBefore_iff (a b : Occ) : occBefore a b = true ↔
    a.at_ < b.at_ ∨ a.at_ = b.at_ ∧ (@LT.lt Nat _ b.cls a.cls ∨ @Eq Nat a.cls b.cls ∧ a.source.toNat < b.source.toNat) := by
  simp [occBefore]

/-- The occurrence that is collected is one of those on their way, and no other precedes it (R528). -/
theorem firstOcc_spec : ∀ {l : List Occ} {o : Occ}, firstOcc l = some o → o ∈ l ∧ ∀ x ∈ l, occBefore x o = false
  | [], _, h => nomatch h
  | a :: r, o, h => by
    have strict : occBefore a a = false := Bool.eq_false_iff.mpr (fun h => by rw [occBefore_iff] at h; omega)
    unfold firstOcc at h
    split at h
    · next y found =>
      obtain ⟨member, least⟩ := firstOcc_spec found
      have chosen := Option.some.inj h
      split at chosen
      · next before =>
        subst chosen
        refine ⟨List.mem_cons_of_mem _ member, fun x hx => ?_⟩
        rcases List.mem_cons.mp hx with rfl | hx
        · refine Bool.eq_false_iff.mpr (fun after => ?_)
          rw [occBefore_iff] at before after
          omega
        · exact least x hx
      · next notBefore =>
        subst chosen
        refine ⟨List.mem_cons_self, fun x hx => ?_⟩
        rcases List.mem_cons.mp hx with rfl | hx
        · exact strict
        · refine Bool.eq_false_iff.mpr (fun after => ?_)
          have rest := Bool.eq_false_iff.mp (least x hx)
          rw [Ne, occBefore_iff] at rest
          rw [occBefore_iff] at notBefore after
          omega
    · next alone =>
      cases h
      cases r with
      | nil => exact ⟨List.mem_singleton_self a, fun x hx => List.mem_singleton.mp hx ▸ strict⟩
      | cons b r =>
        unfold firstOcc at alone
        split at alone <;> cases alone

/-! ### Halt and lock -/

theorem halt_of_onlyRecords_emit (s : State) (l : Nat) (r : Rec) : (emit s l r).fc.halt = s.fc.halt := by
  obtain ⟨seq, h⟩ := fc_emit s l r
  rw [h]

theorem halt_endLoad (s : State) : (endLoad s).fc.halt = s.fc.halt := by
  unfold endLoad
  split
  · rfl
  · dsimp only
    rw [reply, halt_of_onlyRecords_emit]
    refine (of_withoutStop (fun u => u.fc.halt) (fun _ => rfl) (withoutStop_refitGangs _)).trans ?_
    exact foldl_keeps (f := fun (t : State) b => setLand t b { landOf t b with closed := false }) (fun u => u.fc.halt) (fun _ _ => rfl) _ _

theorem halt_haltModule (s : State) : (haltModule s).fc.halt = true := by
  unfold haltModule
  dsimp only
  rw [halt_endLoad]
  exact foldl_keeps (f := fun t b => haltBerth (latchPending t b) b) (fun u => u.fc.halt)
    (fun t b => of_withoutStop (fun u => u.fc.halt) (fun _ => rfl) ((withoutStop_haltBerth ..).trans (withoutStop_latchPending ..))) _ _

/-! ### What is raised -/

theorem toNat_sourceId {level unit code : Nat} (hl : level < 4) (hu : unit < 64) (hc : code < 256) :
    (sourceId level unit code).toNat = level * 16384 + unit * 256 + code := by
  rw [sourceId, BitVec.toNat_ofNat]
  exact Nat.mod_eq_of_lt (by omega)

/-- The occurrence that is raised. -/
def raisedOcc (s : State) (level unit code : Nat) (b : Option Nat) (task : Option Word) (detail : Nat) : Occ :=
  { source := sourceId level unit code, cls := faultClass s code, berth := b, task := task.getD 0, tide := s.time.tide, at_ := s.time.mono,
    detail := BitVec.ofNat 64 detail, fromTask := task.isSome }

/-- The ending event that goes to the home quay of a task. -/
def raisedEnd (s : State) (level unit code b : Nat) (task : Word) : EndEvt :=
  { berth := b, task := task, sev := faultClass s code,
    info := { status := 1, cause := 2, source := sourceId level unit code, tide := s.time.tide, at_ := s.time.mono } }

theorem occ_raise (s : State) (level unit code : Nat) (b : Option Nat) (task : Option Word) (detail : Nat) :
    (raise s level unit code b task detail).occ = s.occ ++ [raisedOcc s level unit code b task detail] := by
  unfold raise
  dsimp only
  split
  · split <;> rfl
  · rfl

theorem ends_raise_of_none (s : State) (level unit code : Nat) {b : Option Nat} {task : Option Word} (detail : Nat)
    (h : b = none ∨ task = none ∨ faultClass s code < 2) : (raise s level unit code b task detail).ends = s.ends := by
  unfold raise
  dsimp only
  split
  · rcases h with free | free | low
    · cases free
    · cases free
    · rw [if_neg (by omega)]
  · rfl

theorem ends_raise_of_task (s : State) (level unit code b : Nat) (task : Word) (detail : Nat) (h : 2 ≤ faultClass s code) :
    (raise s level unit code (some b) (some task) detail).ends = s.ends ++ [raisedEnd s level unit code b task] := by
  simp only [raise, h, if_true]
  rfl

/-! ### What hardware detects by itself -/

theorem occ_raiseDeck (s : State) (level d code detail : Nat) :
    ∃ b task, (raiseDeck s level d code detail).occ = s.occ ++ [raisedOcc s level d code b task detail] := by
  unfold raiseDeck
  split
  · exact ⟨_, _, occ_raise ..⟩
  · exact ⟨_, _, occ_raise ..⟩

/-- The module without a line of a quay's schedule. -/
def lineLost (s : State) (q line : Nat) : State :=
  setQuay s q { quayOf s q with lines := (quayOf s q).lines.filter (fun l => l != line) }

/-- A line of the schedule whose parity fails is gone, and the fault names its quay. -/
theorem detect_pfsParity {s : State} (q : Fin 4) {line : Nat} (h : line ∈ (quayOf s q).lines) :
    line ∉ (quayOf (detect s (.pfsParity q line)) q).lines ∧ ∃ x, (detect s (.pfsParity q line)).occ = s.occ ++ [x] ∧ x.source = sourceId 2 q 0x2C := by
  have detected : detect s (.pfsParity q line) = raise (lineLost s q line) 2 q 0x2C none none (line / 2048) := by
    simp only [detect, List.contains_iff_mem.mpr h, if_true]
    rfl
  have quay : quayOf (detect s (.pfsParity q line)) q = { quayOf s q with lines := (quayOf s q).lines.filter (fun l => l != line) } := by
    rw [detected]
    refine Eq.trans (congrArg (fun u : State => quayOf u q) (raise_only (lineLost s q line) 2 q 0x2C none none (line / 2048))) ?_
    exact (quayOf_setQuay s q q _).trans (if_pos rfl)
  refine ⟨fun member => ?_, _, (congrArg State.occ detected).trans (occ_raise (lineLost s q line) ..), rfl⟩
  rw [quay] at member
  simpa using (List.mem_filter.mp member).2

/-- Replayed flits of a bridge are reported with the number of replays, where a report is due. -/
theorem occ_bridgeReplayed {s : State} {b : Nat} (n : Nat) (h : mayReport s 0x60 b 1000000 = true) :
    (bridgeReplayed s b n).occ = s.occ ++ [chipOcc s (4 + b) 0x60 (min 65535 (tget 0 s.fc.replays b + n))] := by
  simp only [bridgeReplayed, h, if_true]
  rfl

theorem toNat_detail {n : Nat} (h : n < 2 ^ 64) : (BitVec.ofNat 64 n).toNat = n := by
  rw [BitVec.toNat_ofNat, Nat.mod_eq_of_lt h]

/-! ### The obligation -/

theorem map_count_folded (n : Nat) (l : Tbl FaultRec) :
    (l.map (fun e => if e.1 = n then (n, { e.2 with count := min (e.2.count + 1) 0xFFFF }) else e)).map (fun e => (e.1, some e.2.count)) =
      l.map (fun e => (e.1, some (if e.1 = n then min (e.2.count + 1) 0xFFFF else e.2.count))) := by
  rw [List.map_map]
  refine List.map_congr_left (fun e _ => ?_)
  by_cases same : e.1 = n
  · simp only [Function.comp, same, if_true]
  · simp only [Function.comp, same, if_false]

/-- An occurrence that repeats a stored record is counted there, and nothing else changes. -/
theorem collect_of_fold {s : State} {o : Occ} {n : Nat} (h : foldsInto s o = some n) : collect s o =
    { s with fc := { s.fc with recs := s.fc.recs.map (fun e => if e.1 = n then (n, { e.2 with count := min (e.2.count + 1) 0xFFFF }) else e) } } := by
  simp only [collect, h]

theorem exec_faultCollect {s : State} {o : Occ} (h : firstOcc s.occ = some o) :
    exec (.faultCollect none) s = .next (collect { s with occ := dropFirst (fun x => x == o) s.occ } o) := by
  show Host.Outcome.next (faultCollect s none) = _
  simp only [faultCollect, h]

/-- What a class does: nothing below FENCE, a halt or a lock at the top, and a fence of the deck that a deck's source names. -/
theorem react_spec (s : State) (o : Occ) : (o.cls < 3 → react s o = s) ∧ (o.cls = 4 → (react s o).fc.halt = true) ∧
    (o.cls = 5 → (react s o).fc.halt = true ∧ (react s o).sec.keysCleared = true) ∧
    (o.cls = 3 → (o.source.toNat / 16384 = 0 ∨ o.source.toNat / 16384 = 1) → deckFenced (react s o) (o.source.toNat / 256 % 64) = true) := by
  refine ⟨fun low => ?_, fun halts => ?_, fun locks => ?_, fun fences deck => ?_⟩
  · have below (k : Nat) (hk : 3 ≤ k) : o.cls ≠ k := Nat.ne_of_lt (Nat.lt_of_lt_of_le low hk)
    rw [react, if_neg (below 3 (Nat.le_refl 3)), if_neg (below 4 (by decide)), if_neg (below 5 (by decide))]
  · rw [react, if_neg (by rw [halts]; decide), if_pos halts]
    exact halt_haltModule s
  · rw [react, if_neg (by rw [locks]; decide), if_neg (by rw [locks]; decide), if_pos locks]
    dsimp only [lockModule]
    exact ⟨halt_haltModule s, rfl⟩
  · rw [react, if_pos fences, fenceUnit]
    dsimp only
    rw [if_pos deck]
    exact deckFenced_fenceDeck ..

/-- Settles O48: the first occurrence is folded into the record that it repeats or stored as a new one, and its class is reacted to. -/
theorem faultsAreRaisedAndCollected : Obligations.FaultsAreRaisedAndCollected := by
  unfold Obligations.FaultsAreRaisedAndCollected
  intro s
  refine ⟨?raised, fun l o first => firstOcc_spec first, fun idle => ?idle, fun o u first hu => ⟨fun n folds => ?folds, fun new => ?new⟩,
    fun o => react_spec s o, fun cls n repl found _ => entryFor_spec found, fun f => rfl, fun d loc => ?uncorr, fun q slot => ?cmdmem,
    fun b dir fitted => ?bridge, fun b dir n bare => ?bare, fun b n fitted may => ?replays, fun q line listed => detect_pfsParity q listed⟩
  case raised =>
    rintro level unit code b task detail t hl hu hc rfl
    refine ⟨_, occ_raise .., toNat_sourceId hl hu hc, rfl, rfl, rfl, raise_only .., ends_raise_of_none s level unit code detail, ?_⟩
    rintro c k rfl rfl task
    exact ⟨_, ends_raise_of_task s level unit code c k detail task, rfl, rfl, rfl, rfl, rfl⟩
  case idle =>
    show Host.Outcome.next (faultCollect s none) = _
    simp only [faultCollect, idle, firstOcc]
  case folds =>
    subst hu
    refine ⟨_, (exec_faultCollect first).trans (congrArg Host.Outcome.next (collect_of_fold folds)), rfl, fun k => ?_⟩
    exact congrArg (fun l => tget none l k) (map_count_folded n s.fc.recs)
  case new =>
    subst hu
    refine ⟨_, (exec_faultCollect first).trans (congrArg Host.Outcome.next (collect_of_new new)), ?_⟩
    have kept {β : Type} (part : State → β) (hr : ∀ s t, OnlyRecords s t → part t = part s) (hp : ∀ s x, part { s with pw := x } = part s) :=
      announced_keeps part hr hp { s with occ := dropFirst (fun x => x == o) s.occ } o
    have rest : (announced { s with occ := dropFirst (fun x => x == o) s.occ } o).berths = s.berths ∧
        (announced { s with occ := dropFirst (fun x => x == o) s.occ } o).decks = s.decks ∧
        (announced { s with occ := dropFirst (fun x => x == o) s.occ } o).sec = s.sec :=
      ⟨kept State.berths (fun s t h => by rw [h]) (fun _ _ => rfl), kept State.decks (fun s t h => by rw [h]) (fun _ _ => rfl),
        kept State.sec (fun s t h => by rw [h]) (fun _ _ => rfl)⟩
    cases entry : entryFor s o.cls with
    | none =>
      obtain ⟨keys, drop, ovf⟩ := announced_of_none (s := { s with occ := dropFirst (fun x => x == o) s.occ }) entry
      exact ⟨fun k => (keys k).trans (Bool.or_false _).symm, ⟨drop, ovf⟩, rest⟩
    | some e =>
      obtain ⟨n, repl⟩ := e
      obtain ⟨keys, stored, drop, ovf⟩ := announced_of_some (s := { s with occ := dropFirst (fun x => x == o) s.occ }) entry
      exact ⟨keys, ⟨stored, drop, ovf⟩, rest⟩
  case uncorr =>
    obtain ⟨b, task, occ⟩ := occ_raiseDeck s 1 d.val 0x0E loc
    exact ⟨_, occ, rfl⟩
  case cmdmem => exact ⟨_, occ_raise .., rfl, toNat_detail (by omega)⟩
  case bridge =>
    refine ⟨chipOcc s (4 + b.val) 0x61 dir.val, ?_, rfl⟩
    simp only [detect, fitted, if_true]
    rfl
  case bare =>
    simp only [detect, bare, Bool.false_eq_true, if_false]
    exact ⟨trivial, trivial⟩
  case replays =>
    refine ⟨chipOcc s (4 + b.val) 0x60 (min 65535 (tget 0 s.fc.replays b.val + n)), ?_, rfl, toNat_detail (by omega)⟩
    simp only [detect, fitted, if_true]
    exact occ_bridgeReplayed n may

end Sys2Proof.Proofs
end


section
/-! The diagnostics on the management landing (R553, R563, R564, R573-R581). -/

namespace Sys2Proof.Proofs

open Sys2Proof Sys2Proof.Machine Sys2Proof.Safety Sys2Proof.Laws

/-! ### A diagnostic's row -/

/-- A message that is received changes its landing alone. -/
theorem received_lands (s : State) (l : Nat) (m : Msg) : received s l m = { s with landings := (received s l m).landings } := by
  unfold received
  split <;> rfl

/-- What a landing does not show is as before a message was received. -/
theorem of_received {β : Type} (part : State → β) (hp : ∀ s l, part { s with landings := l } = part s) (s : State) (l : Nat) (m : Msg) :
    part (received s l m) = part s :=
  (congrArg part (received_lands s l m)).trans (hp ..)

/-- The first message of the management landing is a diagnostic's, and its row answers it. -/
theorem diag_row {s : State} {m : Msg} {i : Instr} {type : Nat} {act : State → Msg → Header → State} (run : exec i s = .next (onMsg s 16 type act))
    (h : Taken s 16 type m) {u : State} {dresult : Nat} (answers : act (received s 16 m) m (headerOf m.data) = diagReply u (headerOf m.data) dresult)
    (quiet : (landOf u 16).bufs = (landOf (received s 16 m) 16).bufs) : exec i s = .next (diagReply u (headerOf m.data) dresult) := by
  rw [run, onMsg_of_taken_last act h (by rw [answers]; exact (bufs_answer ..).trans quiet), answers]

/-- What an answer leaves of a state: all but landings, connections, ports, what has been sent, and the fault collector. -/
theorem of_onlyRecords {β : Type} (part : State → β) (hp : ∀ s l c p o f, part { s with landings := l, conns := c, ports := p, out := o, fc := f } = part s)
    {s t : State} (h : OnlyRecords s t) : part t = part s :=
  (congrArg part h).trans (hp ..)

theorem of_diagReply {β : Type} (part : State → β) (hp : ∀ s l c p o f, part { s with landings := l, conns := c, ports := p, out := o, fc := f } = part s)
    (s : State) (h : Header) (dresult : Nat) : part (diagReply s h dresult) = part s :=
  of_onlyRecords part hp (answer_only ..)

theorem diag_received (s : State) (m : Msg) : (received s 16 m).diag = s.diag := of_received State.diag (fun _ _ => rfl) s 16 m

section
variable {s : State} {m : Msg}

/-- While a diagnostic is in progress another one is refused with DRESULT 1. -/
theorem diag_of_busy (busy : s.diag.busy = true) {i : Instr} {type : Nat} (row : (i, type) ∈ [(Instr.diagBist, 0x10), (Instr.diagAttest, 0x11),
      (Instr.diagExtend, 0x12), (Instr.diagFwWrite, 0x13), (Instr.diagFwActivate, 0x14), (Instr.diagLog, 0x15)]) (h : Taken s 16 type m) :
    exec i s = .next (diagReply (received s 16 m) (headerOf m.data) 1) := by
  have held : (received s 16 m).diag.busy = true := (congrArg Diag.busy (diag_received s m)).trans busy
  have untested : bistReady (received s 16 m) (leAt m.data 0x20 1) = false := by simp [bistReady, held]
  simp only [List.mem_cons, Prod.mk.injEq, List.not_mem_nil, or_false] at row
  rcases row with ⟨rfl, rfl⟩ | ⟨rfl, rfl⟩ | ⟨rfl, rfl⟩ | ⟨rfl, rfl⟩ | ⟨rfl, rfl⟩ | ⟨rfl, rfl⟩
  · exact diag_row (act := doBist) rfl h (by simp only [doBist, untested, Bool.false_eq_true, if_false]) rfl
  · exact diag_row (act := doAttest) rfl h (by simp only [doAttest, held, if_true]) rfl
  · exact diag_row (act := doExtend) rfl h (by simp only [doExtend, held, Bool.true_or, if_true]) rfl
  · exact diag_row (act := doFwWrite) rfl h (by simp only [doFwWrite, held, if_true]) rfl
  · exact diag_row (act := doFwActivate) rfl h (by simp only [doFwActivate, held, if_true]) rfl
  · exact diag_row (act := doLog) rfl h (by simp only [doLog, held, if_true]) rfl

end

/-! ### DIAG_BIST -/

section
variable {s : State} {m : Msg}

theorem bistReady_received (d : Nat) : bistReady (received s 16 m) d = bistReady s d :=
  of_received (fun u => bistReady u d) (fun _ _ => rfl) s 16 m

/-- States that a write to HBM does not tell apart. -/
structure SameHbm (s t : State) : Prop where
  windows : t.windows = s.windows
  fitted : t.fitted = s.fitted
  hbm : t.hbm = s.hbm
  poison : t.poison = s.poison

theorem SameHbm.hbmWrite {s t : State} (h : SameHbm s t) (a : Nat) (data : List Byte) : SameHbm (Machine.hbmWrite s a data) (Machine.hbmWrite t a data) := by
  have blocks (l : List Nat) : ∀ s t : State, SameHbm s t →
      SameHbm (l.foldl (fun t b => writeBlock t a data b) s) (l.foldl (fun t b => writeBlock t a data b) t) := by
    induction l with
    | nil => exact fun _ _ h => h
    | cons b l ih =>
      intro s t h
      obtain ⟨hbm, poison, windows, fitted⟩ := writeBlock_congr h.windows h.fitted h.hbm h.poison a data b
      exact ih _ _ ⟨windows, fitted, hbm, poison⟩
  unfold Machine.hbmWrite
  split
  · exact h
  · obtain ⟨windows, fitted, hbm, poison⟩ := blocks (blockAddrs a data.length) s t h
    exact ⟨windows, fitted, hbm, poison⟩

/-- The state in which a deck's test has begun. -/
def bistBegun (s : State) (m : Msg) (h : Header) (d : Nat) : State :=
  { bistSave (diagStart s m h 0 0) d with diag := { (bistSave (diagStart s m h 0 0) d).diag with bistDeck := some d } }

theorem withoutMemory_bistSave (s : State) (d : Nat) : withoutMemory (bistSave s d) = withoutMemory s := by
  unfold bistSave
  split
  · split
    · rfl
    · simp only [withoutMemory_hbmWrite]
  · rfl

theorem of_bistBegun {β : Type} (part : State → β) (hm : ∀ u, part (withoutMemory u) = part u) (hd : ∀ u x, part { u with diag := x } = part u)
    (s : State) (m : Msg) (h : Header) (d : Nat) : part (bistBegun s m h d) = part s := by
  have saved : part (bistSave (diagStart s m h 0 0) d) = part (diagStart s m h 0 0) := by rw [← hm, withoutMemory_bistSave, hm]
  exact (hd _ _).trans (saved.trans (hd s _))

theorem diag_bistBegun (s : State) (m : Msg) (h : Header) (d : Nat) : (bistBegun s m h d).diag = { (diagStart s m h 0 0).diag with bistDeck := some d } := by
  have shown (u : State) : (withoutMemory u).diag = u.diag := rfl
  have saved : (bistSave (diagStart s m h 0 0) d).diag = (diagStart s m h 0 0).diag := by rw [← shown, withoutMemory_bistSave, shown]
  exact congrArg (fun x : Diag => { x with bistDeck := some d }) saved

/-- A test that may start saves its deck to the area of the manifest; in harbour state nothing is saved. -/
theorem hbm_bistBegun (s : State) (m : Msg) (d : Nat) :
    (harbour s = true → (bistBegun (received s 16 m) m (headerOf m.data) d).hbm = s.hbm) ∧
    (∀ a x, harbour s = false → s.man.bistArea = some a → x = deckOf s d → (bistBegun (received s 16 m) m (headerOf m.data) d).hbm =
      (hbmWrite (hbmWrite (hbmWrite s a (x.buf0.readBytes 0 0x600000)) (a + 0x600000) (x.buf1.readBytes 0 0x600000)) (a + 0xC00000)
        ((List.range 4).flatMap (slotImage x) ++ statePage x [])).hbm) := by
  have same : SameHbm s (diagStart (received s 16 m) m (headerOf m.data) 0 0) :=
    ⟨of_received State.windows (fun _ _ => rfl) s 16 m, of_received State.fitted (fun _ _ => rfl) s 16 m,
      of_received State.hbm (fun _ _ => rfl) s 16 m, of_received State.poison (fun _ _ => rfl) s 16 m⟩
  have mode : harbour (diagStart (received s 16 m) m (headerOf m.data) 0 0) = harbour s := of_received harbour (fun _ _ => rfl) s 16 m
  have area : (diagStart (received s 16 m) m (headerOf m.data) 0 0).man = s.man := of_received State.man (fun _ _ => rfl) s 16 m
  have deck : deckOf (diagStart (received s 16 m) m (headerOf m.data) 0 0) d = deckOf s d := of_received (fun u => deckOf u d) (fun _ _ => rfl) s 16 m
  have begun : (bistBegun (received s 16 m) m (headerOf m.data) d).hbm = (bistSave (diagStart (received s 16 m) m (headerOf m.data) 0 0) d).hbm := rfl
  rw [begun]
  generalize diagStart (received s 16 m) m (headerOf m.data) 0 0 = u at same mode area deck
  constructor
  · intro on
    rw [← same.hbm, bistSave]
    split
    · rw [if_pos (mode.trans on)]
    · rfl
  · rintro a x off found rfl
    rw [bistSave, area, found]
    dsimp only
    rw [mode, off, deck, if_neg Bool.false_ne_true]
    exact (((same.hbmWrite _ _).hbmWrite _ _).hbmWrite _ _).hbm

/-- The deck's test: refused, or begun with the deck saved. -/
theorem diagBist_spec (h : Taken s 16 0x10 m) :
    (bistReady s (leAt m.data 0x20 1) = false → exec .diagBist s = .next (diagReply (received s 16 m) (headerOf m.data) 1)) ∧
    (bistReady s (leAt m.data 0x20 1) = true → ∃ t, exec .diagBist s = .next t ∧ t.diag.busy = true ∧ t.diag.type = 0x10 ∧
      t.diag.bistDeck = some (leAt m.data 0x20 1) ∧ t.diag.hseq = (headerOf m.data).hseq ∧ t.decks = s.decks ∧ t.berths = s.berths ∧
      (harbour s = true → t.hbm = s.hbm) ∧
      (∀ a x, harbour s = false → s.man.bistArea = some a → x = deckOf s (leAt m.data 0x20 1) →
        t.hbm = (hbmWrite (hbmWrite (hbmWrite s a (x.buf0.readBytes 0 0x600000)) (a + 0x600000) (x.buf1.readBytes 0 0x600000)) (a + 0xC00000)
          ((List.range 4).flatMap (slotImage x) ++ statePage x [])).hbm)) := by
  have ready := bistReady_received (s := s) (m := m) (leAt m.data 0x20 1)
  have type : (headerOf m.data).type = 0x10 := h.2.2.1
  constructor
  · intro refused
    exact diag_row (act := doBist) rfl h (by simp only [doBist, ready, refused, Bool.false_eq_true, if_false]) rfl
  · intro starts
    have begun : doBist (received s 16 m) m (headerOf m.data) =
        diagReply (bistBegun (received s 16 m) m (headerOf m.data) (leAt m.data 0x20 1)) (headerOf m.data) 0 := by
      simp only [doBist, ready, starts, if_true]
      rfl
    have quiet : (landOf (bistBegun (received s 16 m) m (headerOf m.data) (leAt m.data 0x20 1)) 16).bufs = (landOf (received s 16 m) 16).bufs :=
      of_bistBegun (fun u => (landOf u 16).bufs) (fun _ => rfl) (fun _ _ => rfl) ..
    have diag := (of_diagReply State.diag (fun _ _ _ _ _ _ => rfl) (bistBegun (received s 16 m) m (headerOf m.data) (leAt m.data 0x20 1))
      (headerOf m.data) 0).trans (diag_bistBegun ..)
    have hbm := of_diagReply State.hbm (fun _ _ _ _ _ _ => rfl) (bistBegun (received s 16 m) m (headerOf m.data) (leAt m.data 0x20 1))
      (headerOf m.data) 0
    obtain ⟨harbour, saved⟩ := hbm_bistBegun s m (leAt m.data 0x20 1)
    refine ⟨_, diag_row (act := doBist) rfl h begun quiet, congrArg Diag.busy diag, (congrArg Diag.type diag).trans type,
      congrArg Diag.bistDeck diag, congrArg Diag.hseq diag, ?_, ?_, fun on => hbm.trans (harbour on),
      fun a x off area deck => hbm.trans (saved a x off area deck)⟩
    · exact (of_diagReply State.decks (fun _ _ _ _ _ _ => rfl) ..).trans ((of_bistBegun State.decks (fun _ => rfl) (fun _ _ => rfl) ..).trans
        (of_received State.decks (fun _ _ => rfl) s 16 m))
    · exact (of_diagReply State.berths (fun _ _ _ _ _ _ => rfl) ..).trans ((of_bistBegun State.berths (fun _ => rfl) (fun _ _ => rfl) ..).trans
        (of_received State.berths (fun _ _ => rfl) s 16 m))

end

/-! ### DIAG_BIST_DONE -/

theorem diag_fenceDeck (s : State) (d : Nat) (source : BitVec 16) : (fenceDeck s d source).diag = s.diag := by
  have masked (u : State) : (maskDeck u d).diag = u.diag := by
    unfold maskDeck
    dsimp only
    rw [of_withoutFlight State.diag (fun _ => rfl) (withoutFlight_issueAll _)]
    rfl
  unfold fenceDeck
  split
  · rfl
  · split
    · exact masked s
    · refine (of_withoutStop State.diag (fun _ => rfl) (withoutStop_refitGangs _)).trans ((masked _).trans ?_)
      split
      · exact of_withoutStop State.diag (fun _ => rfl) ((withoutStop_latchEnd ..).trans (withoutStop_latchPending ..))
      · rfl

theorem raiseDeck_keeps {β : Type} (part : State → β) (hp : ∀ s o e, part { s with occ := o, ends := e } = part s) (s : State) (level d code detail : Nat) :
    part (raiseDeck s level d code detail) = part s := by
  unfold raiseDeck
  split
  · exact (congrArg part (raiseBerth_only ..)).trans (hp ..)
  · exact (congrArg part (raise_only ..)).trans (hp ..)

/-- What a deck's contents are lost to: stores alone. -/
theorem withoutStores_bistRuin (s : State) (d : Nat) : withoutStores (bistRuin s d) = withoutStores s := by
  unfold bistRuin
  dsimp only
  rw [withoutStores_setDeck]
  exact withoutStores_ruinDeck s d

theorem faultClass_diagEnd (s : State) (outcome code : Nat) : faultClass (diagEnd s outcome) code = faultClass s code := rfl

/-- A deck that fails its test is fenced, where BIST_DECK has the class FENCE. -/
theorem bistFail_spec {s : State} {d : Nat} (test : Nat) (fences : faultClass s 0x02 = 3) (hd : d < 16) :
    deckFenced (bistFail s d test) d = true ∧ (bistFail s d test).diag.busy = false ∧ (bistFail s d test).diag.outcome = 1 := by
  have source : (sourceId 0 d 0x02).toNat = d * 256 + 2 := by
    rw [toNat_sourceId (by decide) (by omega) (by decide)]
    omega
  have class_ : faultClass (raiseDeck (diagEnd (bistRuin s d) 1) 0 d 0x02 (test + 16)) ((sourceId 0 d 0x02).toNat % 256) = 3 := by
    have code : (d * 256 + 2) % 256 = 2 := by omega
    rw [source, code, ← fences]
    rw [raiseDeck_keeps (fun u => faultClass u 2) (fun _ _ _ => rfl), faultClass_diagEnd]
    exact of_withoutStores (fun u => faultClass u 2) (fun _ => rfl) (withoutStores_bistRuin s d)
  have unit : (d * 256 + 2) / 256 % 64 = d := by omega
  have level : (d * 256 + 2) / 16384 = 0 := by omega
  have fenced : bistFail s d test = fenceDeck (raiseDeck (diagEnd (bistRuin s d) 1) 0 d 0x02 (test + 16)) d (sourceId 0 d 0x02) := by
    rw [bistFail, fenceNow, if_pos class_, fenceUnit]
    dsimp only
    rw [source, unit, level, if_pos (.inl rfl)]
  have diag : (bistFail s d test).diag = (diagEnd (bistRuin s d) 1).diag := by
    rw [fenced, diag_fenceDeck]
    exact raiseDeck_keeps State.diag (fun _ _ _ => rfl) ..
  exact ⟨fenced ▸ deckFenced_fenceDeck .., congrArg Diag.busy diag, congrArg Diag.outcome diag⟩

/-! ### Bytes that go to the host -/

theorem carriage_received (s : State) (m : Msg) : carriage (received s 16 m) = carriage s := of_received carriage (fun _ _ => rfl) s 16 m

theorem usable_of_leaves {s : State} {n : Nat} {kind : ReqKind} {w : Roce} (h : Leaves s n kind w) : connUsable s n = true := h.2.1

/-- What a diagnostic asks or tells the host leaves over its connection. -/
theorem out_request_from {s u : State} {n packets : Nat} {w : Roce} (same : carriage u = carriage s) (out : u.out = s.out)
    (h : Leaves s n .diag w) : (request u n .diag packets w).out = s.out ++ [leaving s n .diag w] := by
  rw [out_request (leaves_of_carriage same h), out, leaving_of_carriage same]

theorem out_diagOutput {s u : State} {addr : Nat} {data : List Byte} (same : carriage u = carriage s) (out : u.out = s.out)
    (h : Leaves s u.diag.conn .diag (.write addr data none)) :
    (diagOutput u addr data).out = s.out ++ [leaving s u.diag.conn .diag (.write addr data none)] := by
  have usable := usable_of_leaves (leaves_of_carriage same h)
  rw [diagOutput, if_pos usable, out_request_from same out h]

theorem diagOutput_only (s : State) (addr : Nat) (data : List Byte) : OnlyRecords s (diagOutput s addr data) := by
  unfold diagOutput
  split
  · exact request_only ..
  · exact OnlyRecords.refl s

theorem landOf_diagOutput (s : State) (addr : Nat) (data : List Byte) (l : Nat) : landOf (diagOutput s addr data) l = landOf s l := by
  unfold diagOutput
  split
  · exact landOf_request ..
  · rfl

theorem length_slice (l : List Byte) (off len : Nat) : (slice l off len).length = len := by
  unfold slice
  simp only [List.length_append, List.length_replicate, List.length_take]
  omega

/-! ### DIAG_ATTEST and DIAG_LOG -/

section
variable {s : State} {m : Msg}

theorem length_attestBody (s : State) (nonce : List Byte) : (attestBody s nonce).length = 640 := by
  have measured : ((List.range 8).flatMap (fun i => slice (measOf s i) 0 64)).length = 8 * 64 :=
    length_flatMap_range 8 64 _ (fun i => length_slice ..)
  simp only [attestBody, List.length_append, length_natLe, length_slice, List.length_replicate, measured]

theorem length_logBytes (s : State) : (logBytes s).length = 8256 := by
  have entries : ((List.range 256).flatMap (fun n => (List.range 8).flatMap (fun w => natLe 4 (recWord s n w)))).length = 256 * (8 * 4) :=
    length_flatMap_range 256 (8 * 4) _ (fun n => length_flatMap_range 8 4 _ (fun w => length_natLe ..))
  simp only [logBytes, List.length_append, length_natLe, List.length_replicate, entries]

theorem diag_of_diagStart (h : Taken s 16 type m) (off len : Nat) : (diagStart (received s 16 m) m (headerOf m.data) off len).diag =
    { busy := true
      type := type
      hseq := (headerOf m.data).hseq
      conn := m.conn
      addr := leAt m.data 0x20 8
      off := off
      len := len } := by
  have named : (headerOf m.data).type = type := h.2.2.1
  rw [← named]
  rfl

/-- A report or a log of the host is started, or refused for its address. -/
theorem diag_output_row {i : Instr} {type len : Nat} {act : State → Msg → Header → State} {data : List Byte}
    (run : exec i s = .next (onMsg s 16 type act)) (h : Taken s 16 type m)
    (answers : act (received s 16 m) m (headerOf m.data) = diagReply
      (diagOutput (diagStart (received s 16 m) m (headerOf m.data) 0 len) (leAt m.data 0x20 8) data) (headerOf m.data) 0) :
    ∃ u, exec i s = .next (diagReply u (headerOf m.data) 0) ∧ u.diag.busy = true ∧ u.diag.type = type ∧ u.diag.len = len ∧
      u.diag.addr = leAt m.data 0x20 8 ∧ (Leaves s m.conn .diag (.write (leAt m.data 0x20 8) data none) →
        u.out = s.out ++ [leaving s m.conn .diag (.write (leAt m.data 0x20 8) data none)]) := by
  have diag : (diagOutput (diagStart (received s 16 m) m (headerOf m.data) 0 len) (leAt m.data 0x20 8) data).diag = _ :=
    (of_onlyRecords State.diag (fun _ _ _ _ _ _ => rfl) (diagOutput_only ..)).trans (diag_of_diagStart h 0 len)
  have out : (diagStart (received s 16 m) m (headerOf m.data) 0 len).out = s.out := of_received State.out (fun _ _ => rfl) s 16 m
  exact ⟨_, diag_row run h answers (congrArg LandingSt.bufs (landOf_diagOutput ..)), congrArg Diag.busy diag, congrArg Diag.type diag,
    congrArg Diag.len diag, congrArg Diag.addr diag, fun leaves => out_diagOutput (carriage_received s m) out leaves⟩

theorem diagAttest_spec (free : s.diag.busy = false) (h : Taken s 16 0x11 m) :
    (leAt m.data 0x20 8 % 64 ≠ 0 → exec .diagAttest s = .next (diagReply (received s 16 m) (headerOf m.data) 2)) ∧
    (leAt m.data 0x20 8 % 64 = 0 → ∃ u, exec .diagAttest s = .next (diagReply u (headerOf m.data) 0) ∧ u.diag.busy = true ∧
      u.diag.type = 0x11 ∧ u.diag.len = 760 ∧ u.diag.addr = leAt m.data 0x20 8 ∧
      (∃ sig : List Byte, sig.length = 114 ∧ (s.sec.keysCleared = true → sig = List.replicate 114 0) ∧
        ∀ w, w = Roce.write (leAt m.data 0x20 8) (attestBody s (slice m.data 0x30 32) ++ sig ++ List.replicate 6 0) none →
          Leaves s m.conn .diag w → u.out = s.out ++ [leaving s m.conn .diag w]) ∧
      (attestBody s (slice m.data 0x30 32)).length = 640) := by
  have free' : (received s 16 m).diag.busy = false := (congrArg Diag.busy (diag_received s m)).trans free
  have body : attestBody (received s 16 m) (slice m.data 0x30 32) = attestBody s (slice m.data 0x30 32) :=
    of_received (fun u => attestBody u (slice m.data 0x30 32)) (fun _ _ => rfl) s 16 m
  have sign : attestSign (received s 16 m) (attestBody s (slice m.data 0x30 32)) = attestSign s (attestBody s (slice m.data 0x30 32)) :=
    of_received (fun u => attestSign u (attestBody s (slice m.data 0x30 32))) (fun _ _ => rfl) s 16 m
  constructor
  · intro odd
    exact diag_row (act := doAttest) rfl h (by simp only [doAttest, free', odd, Bool.false_eq_true, if_false, ne_eq, not_false_eq_true, if_true]) rfl
  · intro even
    have starts : doAttest (received s 16 m) m (headerOf m.data) = diagReply (diagOutput (diagStart (received s 16 m) m (headerOf m.data) 0 760)
        (leAt m.data 0x20 8) (attestBody s (slice m.data 0x30 32) ++ attestSign s (attestBody s (slice m.data 0x30 32)) ++
          List.replicate 6 0)) (headerOf m.data) 0 := by
      simp only [doAttest, free', even, Bool.false_eq_true, if_false, ne_eq, not_true_eq_false, body, sign]
    obtain ⟨u, runs, busy, type, len, addr, out⟩ := diag_output_row (i := .diagAttest) (act := doAttest) rfl h starts
    refine ⟨u, runs, busy, type, len, addr, ⟨attestSign s (attestBody s (slice m.data 0x30 32)), ?_, fun cleared => ?_, ?_⟩, length_attestBody ..⟩
    · unfold attestSign
      split
      · exact List.length_replicate
      · exact length_slice ..
    · rw [attestSign, if_pos cleared]
    · rintro w rfl
      exact out

theorem diagLog_spec (free : s.diag.busy = false) (h : Taken s 16 0x15 m) :
    (leAt m.data 0x20 8 % 64 ≠ 0 → exec .diagLog s = .next (diagReply (received s 16 m) (headerOf m.data) 2)) ∧
    (leAt m.data 0x20 8 % 64 = 0 → ∃ u, exec .diagLog s = .next (diagReply u (headerOf m.data) 0) ∧ u.diag.busy = true ∧
      u.diag.type = 0x15 ∧ u.diag.len = 8256 ∧ (logBytes s).length = 8256 ∧
      (Leaves s m.conn .diag (.write (leAt m.data 0x20 8) (logBytes s) none) →
        u.out = s.out ++ [leaving s m.conn .diag (.write (leAt m.data 0x20 8) (logBytes s) none)])) := by
  have free' : (received s 16 m).diag.busy = false := (congrArg Diag.busy (diag_received s m)).trans free
  have log : logBytes (received s 16 m) = logBytes s := of_received logBytes (fun _ _ => rfl) s 16 m
  constructor
  · intro odd
    exact diag_row (act := doLog) rfl h (by simp only [doLog, free', odd, Bool.false_eq_true, if_false, ne_eq, not_false_eq_true, if_true]) rfl
  · intro even
    have starts : doLog (received s 16 m) m (headerOf m.data) = diagReply (diagOutput (diagStart (received s 16 m) m (headerOf m.data) 0 8256)
        (leAt m.data 0x20 8) (logBytes s)) (headerOf m.data) 0 := by
      simp only [doLog, free', even, Bool.false_eq_true, if_false, ne_eq, not_true_eq_false, log]
    obtain ⟨u, runs, busy, type, len, -, out⟩ := diag_output_row (i := .diagLog) (act := doLog) rfl h starts
    exact ⟨u, runs, busy, type, len, length_logBytes s, out⟩

/-! ### DIAG_EXTEND -/

theorem slice_slice (l : List Byte) (off len : Nat) : slice (slice l off len) 0 len = slice l off len := by
  have full := length_slice l off len
  generalize slice l off len = k at full
  rw [slice, List.drop_zero, List.take_of_length_le (by omega), full, Nat.sub_self]
  exact List.append_nil k

theorem measOf_extendM (s : State) (i : Nat) (d : List Byte) (j : Nat) :
    measOf (extendM s i d) j = if i = j then digest64 (measOf s i ++ slice d 0 64) else measOf s j := tget_tput ..

theorem measOf_diagEnd (s : State) (outcome i : Nat) : measOf (diagEnd s outcome) i = measOf s i := rfl

theorem diagExtend_spec (free : s.diag.busy = false) (h : Taken s 16 0x12 m) :
    (leAt m.data 0x20 1 < 4 ∨ 7 < leAt m.data 0x20 1 → exec .diagExtend s = .next (diagReply (received s 16 m) (headerOf m.data) 1)) ∧
    (4 ≤ leAt m.data 0x20 1 → leAt m.data 0x20 1 ≤ 7 → ∃ t, exec .diagExtend s = .next t ∧ t.diag.busy = false ∧ t.diag.outcome = 0 ∧
      measOf t (leAt m.data 0x20 1) = digest64 (measOf s (leAt m.data 0x20 1) ++ slice m.data 0x30 64) ∧
      ∀ i, i ≠ leAt m.data 0x20 1 → measOf t i = measOf s i) := by
  have free' : (received s 16 m).diag.busy = false := (congrArg Diag.busy (diag_received s m)).trans free
  constructor
  · intro other
    exact diag_row (act := doExtend) rfl h (by simp only [doExtend, free', other, decide_true, Bool.or_true, if_true]) rfl
  · intro low high
    have named : decide (leAt m.data 0x20 1 < 4 ∨ 7 < leAt m.data 0x20 1) = false := decide_eq_false (by omega)
    have extends_ : doExtend (received s 16 m) m (headerOf m.data) = diagReply (diagEnd (extendM (diagStart (received s 16 m) m (headerOf m.data) 0 0)
        (leAt m.data 0x20 1) (slice m.data 0x30 64)) 0) (headerOf m.data) 0 := by
      simp only [doExtend, free', named, Bool.or_self, Bool.false_eq_true, if_false]
    have register (i : Nat) : measOf (diagReply (diagEnd (extendM (diagStart (received s 16 m) m (headerOf m.data) 0 0)
        (leAt m.data 0x20 1) (slice m.data 0x30 64)) 0) (headerOf m.data) 0) i =
        if leAt m.data 0x20 1 = i then digest64 (measOf s (leAt m.data 0x20 1) ++ slice m.data 0x30 64) else measOf s i := by
      have start (j : Nat) : measOf (diagStart (received s 16 m) m (headerOf m.data) 0 0) j = measOf s j :=
        of_received (fun u => measOf u j) (fun _ _ => rfl) s 16 m
      rw [of_diagReply (fun u => measOf u i) (fun _ _ _ _ _ _ => rfl), measOf_diagEnd, measOf_extendM, start, start, slice_slice]
    have diag := of_diagReply State.diag (fun _ _ _ _ _ _ => rfl) (diagEnd (extendM (diagStart (received s 16 m) m (headerOf m.data) 0 0)
      (leAt m.data 0x20 1) (slice m.data 0x30 64)) 0) (headerOf m.data) 0
    have quiet (u : State) (d : List Byte) : landOf (diagEnd (extendM u (leAt m.data 0x20 1) d) 0) 16 = landOf u 16 := rfl
    refine ⟨_, diag_row (i := .diagExtend) (act := doExtend) rfl h extends_ (congrArg LandingSt.bufs (quiet ..)), congrArg Diag.busy diag, congrArg Diag.outcome diag, ?_, fun i other => ?_⟩
    · rw [register, if_pos rfl]
    · rw [register, if_neg (Ne.symm other)]

/-! ### DIAG_FW_WRITE and DIAG_FW_ACTIVATE -/

theorem diagFwWrite_spec (free : s.diag.busy = false) (h : Taken s 16 0x13 m) :
    (leAt m.data 0x20 8 % 64 ≠ 0 ∨ leAt m.data 0x28 4 % 4096 ≠ 0 ∨ leAt m.data 0x2C 4 % 64 ≠ 0 ∨ leAt m.data 0x2C 4 < 64 ∨
      1048576 < leAt m.data 0x2C 4 ∨ 0x1000000 < leAt m.data 0x28 4 + leAt m.data 0x2C 4 →
      exec .diagFwWrite s = .next (diagReply (received s 16 m) (headerOf m.data) 2)) ∧
    (leAt m.data 0x20 8 % 64 = 0 → leAt m.data 0x28 4 % 4096 = 0 → leAt m.data 0x2C 4 % 64 = 0 → 64 ≤ leAt m.data 0x2C 4 →
      leAt m.data 0x2C 4 ≤ 1048576 → leAt m.data 0x28 4 + leAt m.data 0x2C 4 ≤ 0x1000000 →
      ∃ u, exec .diagFwWrite s = .next (diagReply u (headerOf m.data) 0) ∧ u.diag.busy = true ∧ u.diag.off = leAt m.data 0x28 4 ∧
        u.diag.len = leAt m.data 0x2C 4 ∧ u.diag.conn = m.conn ∧
        (Leaves s m.conn .diag (.read (leAt m.data 0x20 8) (leAt m.data 0x2C 4)) →
          u.out = s.out ++ [leaving s m.conn .diag (.read (leAt m.data 0x20 8) (leAt m.data 0x2C 4))])) := by
  have free' : (received s 16 m).diag.busy = false := (congrArg Diag.busy (diag_received s m)).trans free
  constructor
  · intro bad
    exact diag_row (act := doFwWrite) rfl h (by simp only [doFwWrite, free', bad, Bool.false_eq_true, if_false, if_true]) rfl
  · intro addr off len low high fits
    have starts : doFwWrite (received s 16 m) m (headerOf m.data) = diagReply (request (diagStart (received s 16 m) m (headerOf m.data)
        (leAt m.data 0x28 4) (leAt m.data 0x2C 4)) m.conn .diag (packetsOf (leAt m.data 0x2C 4))
          (.read (leAt m.data 0x20 8) (leAt m.data 0x2C 4))) (headerOf m.data) 0 := by
      unfold doFwWrite
      dsimp only
      rw [free', if_neg Bool.false_ne_true, if_neg (by omega)]
    have diag := (of_onlyRecords State.diag (fun _ _ _ _ _ _ => rfl) (request_only (diagStart (received s 16 m) m (headerOf m.data)
      (leAt m.data 0x28 4) (leAt m.data 0x2C 4)) m.conn .diag (packetsOf (leAt m.data 0x2C 4))
        (.read (leAt m.data 0x20 8) (leAt m.data 0x2C 4)) false)).trans (diag_of_diagStart h ..)
    have out : (diagStart (received s 16 m) m (headerOf m.data) (leAt m.data 0x28 4) (leAt m.data 0x2C 4)).out = s.out :=
      of_received State.out (fun _ _ => rfl) s 16 m
    exact ⟨_, diag_row (i := .diagFwWrite) (act := doFwWrite) rfl h starts (congrArg LandingSt.bufs (landOf_request ..)), congrArg Diag.busy diag,
      congrArg Diag.off diag, congrArg Diag.len diag, congrArg Diag.conn diag, fun leaves => out_request_from (carriage_received s m) out leaves⟩

/-- The state in which the slot not booted has been selected. -/
def selected (s : State) (m : Msg) (h : Header) : State :=
  diagEnd (setCommit (regSet (diagStart s m h 0 0) (scBase + 0xC) (if !s.boot.slot then 1 else 0)) (!s.boot.slot) (leAt m.data 0x20 1 == 1)) 0

/-- SC_BOOT_SEL of the slot not booted. -/
theorem regGet_selected (s : State) (m : Msg) (h : Header) : regGet (selected s m h) (scBase + 0xC) = if s.boot.slot then 0 else 1 := by
  have kept (u : State) (slot on : Bool) (o a : Nat) : regGet (diagEnd (setCommit u slot on) o) a = regGet u a := rfl
  rw [selected, kept, regGet_regSet, if_pos rfl]
  cases s.boot.slot <;> rfl

/-- A diagnostic that starts and ends at once changes what the latest diagnostic shows alone. -/
theorem of_diagEnd_diagStart {β : Type} (part : State → β) (hd : ∀ u x, part { u with diag := x } = part u) (s : State) (m : Msg) (h : Header)
    (off len outcome : Nat) : part (diagEnd (diagStart s m h off len) outcome) = part s :=
  (hd (diagStart s m h off len) _).trans (hd s _)

theorem landOf_diagEnd (s : State) (outcome l : Nat) : landOf (diagEnd s outcome) l = landOf s l := rfl

theorem landOf_setCommit (s : State) (slot on : Bool) (l : Nat) : landOf (setCommit s slot on) l = landOf s l := rfl

theorem landOf_diagStart (s : State) (m : Msg) (h : Header) (off len l : Nat) : landOf (diagStart s m h off len) l = landOf s l := rfl

theorem landOf_selected (s : State) (m : Msg) (h : Header) (l : Nat) : landOf (selected s m h) l = landOf s l := by
  have kept (u : State) (a : Nat) (w : Word) : landOf (regSet u a w) l = landOf u l := rfl
  rw [selected, landOf_diagEnd, landOf_setCommit, kept, landOf_diagStart]

theorem regGet_diagReply (s : State) (h : Header) (dresult a : Nat) : regGet (diagReply s h dresult) a = regGet s a :=
  of_diagReply (fun u => regGet u a) (fun _ _ _ _ _ _ => rfl) s h dresult

theorem diagFwActivate_spec (free : s.diag.busy = false) (h : Taken s 16 0x14 m) :
    (imagePasses s (!s.boot.slot) = true → ∃ t, exec .diagFwActivate s = .next t ∧ t.diag.busy = false ∧ t.diag.outcome = 0 ∧
      regGet t (scBase + 0xC) = (if s.boot.slot then 0 else 1) ∧
      (if s.boot.slot then t.flash.commit0 else t.flash.commit1) = decide (leAt m.data 0x20 1 = 1)) ∧
    (imagePasses s (!s.boot.slot) = false → ∃ t, exec .diagFwActivate s = .next t ∧ t.diag.outcome = 3 ∧ t.diag.busy = false ∧
      t.flash = s.flash ∧ t.rw = s.rw) := by
  have free' : (received s 16 m).diag.busy = false := (congrArg Diag.busy (diag_received s m)).trans free
  have boot : (received s 16 m).boot = s.boot := of_received State.boot (fun _ _ => rfl) s 16 m
  have image (slot : Bool) : imagePasses (received s 16 m) slot = imagePasses s slot :=
    of_received (fun u => imagePasses u slot) (fun _ _ => rfl) s 16 m
  constructor
  · intro passes
    have selects : doFwActivate (received s 16 m) m (headerOf m.data) =
        diagReply (selected (received s 16 m) m (headerOf m.data)) (headerOf m.data) 0 := by
      simp only [doFwActivate, free', boot, image, passes, Bool.false_eq_true, if_false, if_true, selected]
    have kept {β : Type} (part : State → β) (hp : ∀ s l c p o f, part { s with landings := l, conns := c, ports := p, out := o, fc := f } = part s) :=
      of_diagReply part hp (selected (received s 16 m) m (headerOf m.data)) (headerOf m.data) 0
    have diag := kept State.diag (fun _ _ _ _ _ _ => rfl)
    have flash := kept State.flash (fun _ _ _ _ _ _ => rfl)
    refine ⟨_, diag_row (i := .diagFwActivate) (act := doFwActivate) rfl h selects (congrArg LandingSt.bufs (landOf_selected ..)), congrArg Diag.busy diag, congrArg Diag.outcome diag,
      ?_, ?_⟩
    · rw [regGet_diagReply, regGet_selected, boot]
    · rw [flash, selected, boot]
      cases s.boot.slot <;> exact Bool.beq_eq_decide_eq ..
  · intro fails
    have stays : doFwActivate (received s 16 m) m (headerOf m.data) =
        diagReply (diagEnd (diagStart (received s 16 m) m (headerOf m.data) 0 0) 3) (headerOf m.data) 0 := by
      simp only [doFwActivate, free', boot, image, fails, Bool.false_eq_true, if_false]
    have kept {β : Type} (part : State → β) (hp : ∀ s l c p o f, part { s with landings := l, conns := c, ports := p, out := o, fc := f } = part s) :=
      of_diagReply part hp (diagEnd (diagStart (received s 16 m) m (headerOf m.data) 0 0) 3) (headerOf m.data) 0
    have diag := kept State.diag (fun _ _ _ _ _ _ => rfl)
    have flash := of_diagEnd_diagStart State.flash (fun _ _ => rfl) (received s 16 m) m (headerOf m.data) 0 0 3
    have rw_ := of_diagEnd_diagStart State.rw (fun _ _ => rfl) (received s 16 m) m (headerOf m.data) 0 0 3
    refine ⟨_, diag_row (i := .diagFwActivate) (act := doFwActivate) rfl h stays (congrArg LandingSt.bufs (landOf_diagEnd ..)),
      congrArg Diag.outcome diag, congrArg Diag.busy diag, ?_, ?_⟩
    · rw [kept State.flash (fun _ _ _ _ _ _ => rfl), flash, of_received State.flash (fun _ _ => rfl)]
    · rw [kept State.rw (fun _ _ _ _ _ _ => rfl), rw_, of_received State.rw (fun _ _ => rfl)]

end

/-! ### DIAG_DONE -/

section
variable {s : State}

/-- The bytes that the host gave go to the slot not booted. -/
theorem fwDone_of_read {data : List Byte} (usable : connUsable s s.diag.conn = true) (whole : data.length = s.diag.len) :
    (fwDone s false data).diag.busy = false ∧ (fwDone s false data).diag.outcome = 0 ∧
    (if s.boot.slot then (fwDone s false data).flash.slot0 else (fwDone s false data).flash.slot1) =
      (slotOf s (!s.boot.slot)).writeBytes s.diag.off data ∧
    (if s.boot.slot then (fwDone s false data).flash.slot1 else (fwDone s false data).flash.slot0) = slotOf s s.boot.slot := by
  have only := setReqs_only s s.diag.conn (dropFirst (fun x => x.kind == .diag) (connOf s s.diag.conn).reqs)
  have boot := of_onlyRecords State.boot (fun _ _ _ _ _ _ => rfl) only
  have flash := of_onlyRecords State.flash (fun _ _ _ _ _ _ => rfl) only
  have written : fwDone s false data = diagEnd (flashWrite
      (setReqs s s.diag.conn (dropFirst (fun x => x.kind == .diag) (connOf s s.diag.conn).reqs)) s.diag.off data) 0 := by
    simp only [fwDone, usable, whole, Bool.not_true, Bool.or_self, bne_self_eq_false, Bool.false_eq_true, if_false]
  rw [written]
  generalize setReqs s s.diag.conn (dropFirst (fun x => x.kind == .diag) (connOf s s.diag.conn).reqs) = u at boot flash
  refine ⟨rfl, rfl, ?_⟩
  simp only [diagEnd, flashWrite, setCommit, slotOf, boot, flash]
  cases s.boot.slot <;> exact ⟨rfl, rfl⟩

theorem outputDone_of_usable (hostFailed : Bool) (usable : connUsable s s.diag.conn = true) : outputDone s hostFailed =
    diagEnd (diagOutput s (s.diag.addr + s.diag.len) (natLe 4 s.diag.hseq.toNat ++ natLe 1 (if hostFailed then 2 else 0) ++ natLe 3 0))
      (if hostFailed then 2 else 0) := by
  simp only [outputDone, usable, Bool.not_true, Bool.or_false]

theorem exec_diagDone_output (hostFailed : Bool) (data : List Byte) (busy : s.diag.busy = true) (copies : s.diag.type ≠ 0x13)
    (tests : s.diag.type ≠ 0x10) : exec (.diagDone hostFailed data) s = .next (outputDone s hostFailed) := by
  have t13 : (s.diag.type == 0x13) = false := beq_eq_false_iff_ne.mpr copies
  have t10 : (s.diag.type == 0x10) = false := beq_eq_false_iff_ne.mpr tests
  show Host.Outcome.next (if !s.diag.busy || s.diag.type == 0x10 then s else if s.diag.type == 0x13 then fwDone s hostFailed data
    else outputDone s hostFailed) = _
  rw [busy, t13, t10]
  rfl

end

/-! ### The obligation -/

/-- Settles O49: each row of the management landing refuses, starts or finishes its diagnostic. -/
theorem diagnosticsExecute : Obligations.DiagnosticsExecute := by
  unfold Obligations.DiagnosticsExecute
  intro s m
  refine ⟨fun busy i type row h => diag_of_busy busy row h, fun _ h => diagBist_spec h, fun idle f => ?idle, fun d tested => ⟨fun awake => ?passes,
    fun f fences hd _ => ?fails⟩, diagAttest_spec, diagExtend_spec, diagFwWrite_spec, diagFwActivate_spec, diagLog_spec, fun f d quiet => ?quiet,
    fun d busy copies usable whole => ?copied, fun f d w busy copies tests usable hw => ?told, fun f d busy copies tests lost => ?lost⟩
  case idle =>
    show Host.Outcome.next _ = _
    rw [idle]
  case passes =>
    show Host.Outcome.next _ = _
    rw [tested]
    dsimp only
    rw [bistPass, awake, if_neg Bool.false_ne_true, diagEnd]
  case fails =>
    obtain ⟨fenced, idle, outcome⟩ := bistFail_spec f.val fences hd
    refine ⟨bistFail s d f.val, ?_, fenced, idle, outcome⟩
    show Host.Outcome.next _ = _
    rw [tested]
  case quiet =>
    have none : (!s.diag.busy || s.diag.type == 0x10) = true := by
      rcases quiet with idle | test
      · rw [idle]
        rfl
      · rw [test]
        exact Bool.or_true _
    show Host.Outcome.next _ = _
    rw [if_pos none]
  case copied =>
    refine ⟨fwDone s false d, ?_, fwDone_of_read usable whole⟩
    show Host.Outcome.next _ = _
    rw [busy, copies]
    rfl
  case told =>
    subst hw
    have diag := of_onlyRecords State.diag (fun _ _ _ _ _ _ => rfl) (diagOutput_only s (s.diag.addr + s.diag.len)
      (natLe 4 s.diag.hseq.toNat ++ natLe 1 (if f then 2 else 0) ++ natLe 3 0))
    refine ⟨_, (exec_diagDone_output f d busy copies tests).trans (congrArg Host.Outcome.next (outputDone_of_usable f usable)), rfl, rfl,
      fun leaves => out_diagOutput rfl rfl leaves⟩
  case lost =>
    refine (exec_diagDone_output f d busy copies tests).trans (congrArg Host.Outcome.next ?_)
    simp only [outputDone, diagOutput, lost, Bool.not_false, Bool.or_true, if_true, Bool.false_eq_true, if_false, diagEnd]

end Sys2Proof.Proofs
end


section
/-! Ferry messages: their sequences, step barriers, health and the windows of silence (R473-R485). -/

namespace Sys2Proof.Proofs

open Sys2Proof Sys2Proof.Machine Sys2Proof.Safety Sys2Proof.Laws

/-! ### Numbers in messages -/

theorem leNat_lt : ∀ l : List Byte, leNat l < 256 ^ l.length
  | [] => by decide
  | b :: r => by
    have rest := leNat_lt r
    have byte : b.toNat < 256 := b.isLt
    rw [leNat, List.length_cons, Nat.pow_succ]
    omega

theorem leAt_lt (l : List Byte) (off len : Nat) : leAt l off len < 256 ^ len := by
  have below := leNat_lt (slice l off len)
  rwa [length_slice] at below

/-! ### Peers -/

theorem peerOf_setPeer {s : State} {p : Peer} {sys dev : Nat} (hs : p.sys.toNat = sys) (hd : p.device.toNat = dev) : peerOf (setPeer s p) sys dev = p := by
  have none : (s.ferry.peers.filter (fun x => !(x.sys == p.sys && x.device == p.device))).find?
      (fun x => x.sys.toNat == sys && x.device.toNat == dev) = none := by
    refine List.find?_eq_none.mpr (fun x hx same => ?_)
    obtain ⟨hsys, hdev⟩ := Bool.and_eq_true_iff.mp same
    have sys_ : x.sys = p.sys := BitVec.eq_of_toNat_eq ((beq_iff_eq.mp hsys).trans hs.symm)
    have dev_ : x.device = p.device := BitVec.eq_of_toNat_eq ((beq_iff_eq.mp hdev).trans hd.symm)
    have kept := (List.mem_filter.mp hx).2
    simp [sys_, dev_] at kept
  unfold peerOf setPeer
  dsimp only
  rw [List.find?_append, none]
  simp [hs, hd]

theorem peerOf_names (s : State) {sys dev : Nat} (hs : sys < 256) (hd : dev < 2 ^ 14) :
    (peerOf s sys dev).sys.toNat = sys ∧ (peerOf s sys dev).device.toNat = dev := by
  unfold peerOf
  cases found : s.ferry.peers.find? (fun p => p.sys.toNat == sys && p.device.toNat == dev) with
  | none => exact ⟨by simpa using hs, by simpa using hd⟩
  | some p =>
    obtain ⟨hsys, hdev⟩ := Bool.and_eq_true_iff.mp (List.find?_some (p := fun p : Peer => p.sys.toNat == sys && p.device.toNat == dev) found)
    exact ⟨beq_iff_eq.mp hsys, beq_iff_eq.mp hdev⟩

/-- What an ASEQ acknowledges is kept no longer. -/
theorem kept_ferryAcked (s : State) {sys dev : Nat} (hs : sys < 256) (hd : dev < 2 ^ 14) (a : Nat) :
    ∀ e ∈ (peerOf (ferryAcked s sys dev a) sys dev).kept, a < e.1 := by
  intro e he
  obtain ⟨names, named⟩ := peerOf_names s hs hd
  have left : peerOf (ferryAcked s sys dev a) sys dev =
      { peerOf s sys dev with kept := (peerOf s sys dev).kept.filter (fun m => decide (a < m.1)) } := peerOf_setPeer names named
  rw [left] at he
  exact of_decide_eq_true (List.mem_filter.mp he).2

/-! ### A message arrives -/

section
variable {s : State} {n type : Nat} {msg : List Byte} {act : State → Nat → Nat → List Byte → State}

/-- A message that cannot arrive where it is sent changes nothing. -/
theorem ferryTake_of_astray (h : ferryConn s n = false ∨ connUsable s n = false ∨ carries s n = false ∨ msg.length ≠ 64 ∨ leAt msg 0 1 ≠ type) :
    ferryTake s n type msg act = s := by
  have astray : (ferryConn s n && connUsable s n && carries s n && msg.length == 64 && leAt msg 0 1 == type) = false := by
    rcases h with h | h | h | h | h <;> simp [h]
  simp only [ferryTake, astray, Bool.false_eq_true, if_false]

theorem ferryHello_of_astray (h : ferryConn s n = false ∨ connUsable s n = false ∨ carries s n = false ∨ msg.length ≠ 64 ∨ leAt msg 0 1 ≠ 1) :
    ferryHello s n msg = s := by
  have astray : (ferryConn s n && connUsable s n && carries s n && msg.length == 64 && leAt msg 0 1 == 1) = false := by
    rcases h with h | h | h | h | h <;> simp [h]
  simp only [ferryHello, astray, Bool.false_eq_true, if_false]

theorem arrives (conn : ferryConn s n = true) (usable : connUsable s n = true) (carried : carries s n = true) (whole : msg.length = 64)
    (named : leAt msg 0 1 = type) : (ferryConn s n && connUsable s n && carries s n && msg.length == 64 && leAt msg 0 1 == type) = true := by
  simp [conn, usable, carried, whole, named]

/-- A message that arrives is acted on in its turn, discarded where it has been acted on, and answered with HELLO after a gap. -/
theorem ferryTake_of_arrival (here : (ferryConn s n && connUsable s n && carries s n && msg.length == 64 && leAt msg 0 1 == type) = true)
    {u : State} {p : Peer} {sys dev : Nat} (hs : sys = leAt msg 14 1) (hd : dev = leAt msg 12 2 % 2 ^ 14)
    (hu : u = ferryAcked (acknowledge s n 1) sys dev (leAt msg 8 4)) (hp : p = peerOf u sys dev) :
    (leAt msg 4 4 = p.acted + 1 → ferryTake s n type msg act = act (setPeer u { p with acted := leAt msg 4 4 }) sys dev (msg.drop 24)) ∧
    (leAt msg 4 4 ≤ p.acted → ferryTake s n type msg act = u) ∧
    (p.acted + 1 < leAt msg 4 4 → ferryTake s n type msg act = (ferryOut u sys dev (ferryBytes u 1 0 p.acted (natLe 1 0))).1) ∧
    ∀ e ∈ p.kept, leAt msg 8 4 < e.1 := by
  have sysBelow : sys < 256 := hs ▸ leAt_lt msg 14 1
  have devBelow : dev < 2 ^ 14 := hd ▸ Nat.mod_lt _ (by decide)
  subst hp hu
  have kept := kept_ferryAcked (acknowledge s n 1) sysBelow devBelow (leAt msg 8 4)
  subst hs hd
  simp only [ferryTake, here, if_true]
  refine ⟨fun next => if_pos next, fun past => ?_, fun gap => ?_, kept⟩
  · rw [if_neg (by omega), if_pos past]
  · rw [if_neg (by omega), if_neg (by omega)]
    rfl

end

/-! ### Step barriers (R479) -/

theorem barrierOf_names (s : State) (job n : Nat) (sys : Bool) :
    (barrierOf s job n sys).job = job ∧ (barrierOf s job n sys).bseq = n ∧ (barrierOf s job n sys).atSystem = sys := by
  unfold barrierOf
  cases found : s.ferry.barriers.find? (fun x => x.job == job && x.bseq == n && x.atSystem == sys) with
  | none => exact ⟨rfl, rfl, rfl⟩
  | some x =>
    have names := List.find?_some (p := fun x : Barrier => x.job == job && x.bseq == n && x.atSystem == sys) found
    simp only [Bool.and_eq_true, beq_iff_eq] at names
    exact ⟨names.1.1, names.1.2, names.2⟩

theorem barrierOf_setBarrier {s : State} {x : Barrier} {job n : Nat} {sys : Bool} (h : x.job = job ∧ x.bseq = n ∧ x.atSystem = sys) :
    barrierOf (setBarrier s x) job n sys = x := by
  obtain ⟨hj, hn, hs⟩ := h
  have none : (s.ferry.barriers.filter (fun y => !(y.job == x.job && y.bseq == x.bseq && y.atSystem == x.atSystem))).find?
      (fun y => y.job == job && y.bseq == n && y.atSystem == sys) = none := by
    refine List.find?_eq_none.mpr (fun y hy same => ?_)
    have kept := (List.mem_filter.mp hy).2
    rw [hj, hn, hs, same] at kept
    exact absurd kept (by decide)
  unfold barrierOf setBarrier dropBarrier
  dsimp only
  rw [List.find?_append, none]
  simp [hj, hn, hs]

/-- An ARRIVE of a worker: it names a job of the roster, adds to its sum, and releases it where the whole job is in the group. -/
theorem actArrive_of_worker {s : State} {sys dev : Nat} {body : List Byte} (worker : ownWorker s sys dev = true) {job n k : Nat}
    (hj : job = leAt body 0 2) (hn : n = leAt body 4 4) (hk : k = leAt body 8 4) :
    (rosterOf s job = none → actArrive s sys dev body = raiseChip s 0 0x5B (job + n * 2 ^ 32)) ∧
    (∀ r, rosterOf s job = some r → (barrierOf s job n false).sum + k < r.1 →
      (barrierOf (actArrive s sys dev body) job n false).sum = (barrierOf s job n false).sum + k ∧
      actArrive s sys dev body = { s with ferry := { s.ferry with barriers := (actArrive s sys dev body).ferry.barriers } }) ∧
    (∀ r, rosterOf s job = some r → (barrierOf s job n false).sum < r.1 → r.1 ≤ (barrierOf s job n false).sum + k → r.1 = r.2 →
      actArrive s sys dev body = groupRelease (setBarrier s (addArrive (barrierOf s job n false) sys dev k)) job n) := by
  have group : actArrive s sys dev body = groupArrive s sys dev job n k := by rw [actArrive, if_pos worker, hj, hn, hk]
  have sum : (addArrive (barrierOf s job n false) sys dev k).sum = (barrierOf s job n false).sum + k := rfl
  rw [group]
  refine ⟨fun missing => ?_, fun r listed below => ?_, fun r listed below reached whole => ?_⟩
  · simp only [groupArrive, missing, noRoster]
  · have waits : groupArrive s sys dev job n k = setBarrier s (addArrive (barrierOf s job n false) sys dev k) := by
      simp only [groupArrive, listed, sum]
      rw [if_neg (by omega)]
    have names : (addArrive (barrierOf s job n false) sys dev k).job = job ∧ (addArrive (barrierOf s job n false) sys dev k).bseq = n ∧
        (addArrive (barrierOf s job n false) sys dev k).atSystem = false := barrierOf_names s job n false
    rw [waits, barrierOf_setBarrier names]
    exact ⟨sum, rfl⟩
  · simp only [groupArrive, listed, sum]
    rw [if_pos ⟨below, reached⟩, if_pos whole]

/-- A step that acts on one element of a list alone acts once. -/
theorem foldl_acts_once {σ α : Type} {f : σ → α → σ} {s t : σ} {b : α} (hit : f s b = t) : ∀ {l : List α}, l.Nodup → b ∈ l →
    (∀ d ∈ l, d ≠ b → f s d = s ∧ f t d = t) → l.foldl f s = t
  | [], _, mem, _ => nomatch mem
  | d :: l, nodup, mem, other => by
    obtain ⟨fresh, nodup⟩ := List.nodup_cons.mp nodup
    rw [List.foldl_cons]
    by_cases same : d = b
    · subst same
      rw [hit]
      have still : ∀ l' : List α, (∀ e ∈ l', f t e = t) → l'.foldl f t = t := fun l' h => by
        induction l' with
        | nil => rfl
        | cons e l' ih => rw [List.foldl_cons, h e (by simp), ih (fun e he => h e (by simp [he]))]
      refine still l (fun e he => (other e (by simp [he]) ?_).2)
      rintro rfl
      exact fresh he
    · rw [(other d (by simp) same).1]
      exact foldl_acts_once hit nodup ((List.mem_cons.mp mem).resolve_left (Ne.symm same)) (fun e he => other e (by simp [he]))

/-- RELEASE at one berth. -/
def releaseAt (job n : Nat) (s : State) (b : Nat) : State :=
  if (berthOf s b).st != .undefined && (berthOf s b).cfg.job == some job && (berthOf s b).bseq.toNat == n then
    ((berthOf s b).cfg.relFlag.map (coreFlagUp s b)).getD s
  else s

theorem workerRelease_eq (s : State) (job n : Nat) : workerRelease s job n = (List.range 16).foldl (releaseAt job n) s := by
  unfold workerRelease
  congr 1
  funext t b
  unfold releaseAt
  dsimp only
  cases (berthOf t b).cfg.relFlag <;> rfl

/-- A RELEASE raises REL_FLAG of a berth that waits for it alone. -/
theorem flagVal_workerRelease {s : State} {b f job n : Nat} (hb : b < 16) (defined : (berthOf s b).st ≠ .undefined)
    (hjob : (berthOf s b).cfg.job = some job) (hn : (berthOf s b).bseq.toNat = n) (flag : (berthOf s b).cfg.relFlag = some f)
    (alone : ∀ d, d < 16 → d ≠ b → ¬((berthOf s d).st ≠ .undefined ∧ (berthOf s d).cfg.job = some job ∧ (berthOf s d).bseq.toNat = n))
    (unwaited : Unwaited s (.chip ((berthOf s b).cfg.cfBase + f))) (room : flagVal s (.chip ((berthOf s b).cfg.cfBase + f)) < 65535) :
    flagVal (workerRelease s job n) (.chip ((berthOf s b).cfg.cfBase + f)) = flagVal s (.chip ((berthOf s b).cfg.cfBase + f)) + 1 := by
  have berths (v d : Nat) : berthOf (flagPut s (.chip ((berthOf s b).cfg.cfBase + f)) v) d = berthOf s d :=
    berthOf_of_onlyFlags (flagPut_only ..) d
  have hit : releaseAt job n s b =
      flagPut s (.chip ((berthOf s b).cfg.cfBase + f)) (flagVal s (.chip ((berthOf s b).cfg.cfBase + f)) + 1) := by
    have waits : ((berthOf s b).st != .undefined && (berthOf s b).cfg.job == some job && (berthOf s b).bseq.toNat == n) = true := by
      simp [defined, hjob, hn]
    rw [releaseAt, if_pos waits, flag]
    show coreFlagUp s b f = _
    unfold coreFlagUp
    dsimp only
    rw [if_pos (by omega)]
    exact testWaits_unwaited _ _ (by rwa [Unwaited, flagPut_waits])
  have stays (t : State) (ht : ∀ d, berthOf t d = berthOf s d) (d : Nat) (hd : d < 16) (other : d ≠ b) : releaseAt job n t d = t := by
    have passed : ((berthOf t d).st != .undefined && (berthOf t d).cfg.job == some job && (berthOf t d).bseq.toNat == n) = false := by
      rw [ht]
      refine Bool.eq_false_iff.mpr (fun waits => alone d hd other ?_)
      simpa [and_assoc] using waits
    rw [releaseAt, passed, if_neg Bool.false_ne_true]
  rw [workerRelease_eq, foldl_acts_once hit List.nodup_range (List.mem_range.mpr hb) (fun d hd other =>
    ⟨stays s (fun _ => rfl) d (List.mem_range.mp hd) other, stays _ (berths _) d (List.mem_range.mp hd) other⟩), flagVal_flagPut,
    Nat.mod_eq_of_lt (by omega)]

/-! ### Windows of silence (R482-R484) -/

theorem winOf_names {l : List RepWindow} {k : Nat × Nat} {w : RepWindow} (h : winOf l k = some w) : w.sys.toNat = k.1 ∧ w.device.toNat = k.2 := by
  have names := List.find?_some (p := fun w : RepWindow => w.sys.toNat == k.1 && w.device.toNat == k.2) h
  simpa using names

theorem winOf_winDrop (l : List RepWindow) (k : Nat × Nat) : winOf (winDrop l k) k = none := by
  refine List.find?_eq_none.mpr (fun w hw same => ?_)
  have kept := (List.mem_filter.mp hw).2
  rw [same] at kept
  exact absurd kept (by decide)

theorem winOf_append {l : List RepWindow} {k : Nat × Nat} {w : RepWindow} (none : winOf l k = none) (hs : w.sys.toNat = k.1)
    (hd : w.device.toNat = k.2) : winOf (l ++ [w]) k = some w := by
  unfold winOf at none ⊢
  rw [List.find?_append, none]
  simp [hs, hd]

/-- A reporter's count changes no other reporter's. -/
theorem mem_addReporter {l : List (Nat × Nat)} {r n k x : Nat} (other : k ≠ r) : (k, x) ∈ addReporter l r n ↔ (k, x) ∈ l := by
  unfold addReporter
  split
  · rw [List.mem_map]
    constructor
    · rintro ⟨e, he, same⟩
      split at same
      · exact absurd (congrArg Prod.fst same).symm other
      · exact same ▸ he
    · exact fun h => ⟨(k, x), h, if_neg other⟩
  · rw [List.mem_append, List.mem_singleton]
    exact ⟨fun h => h.resolve_right (fun same => other (congrArg Prod.fst same)), .inl⟩

/-- The window that a report opens. -/
def newWindow (k : Nat × Nat) (now first : Nat) : RepWindow :=
  { sys := BitVec.ofNat 8 k.1, device := BitVec.ofNat 14 k.2, at_ := now, reasons := 0, first := first, reporters := [] }

/-- A report joins the window of its subject, or opens it. -/
theorem joinWindow_spec {l : List RepWindow} {key : Nat × Nat} (now r n reasons first : Nat) (own : winKey l key = key) (hs : key.1 < 256)
    (hd : key.2 < 2 ^ 14) : ∃ w, winOf (joinWindow l now key r n reasons first) key = some w ∧
      (winOf l key = none → w.at_ = now ∧ w.reasons = reasons ∧ w.first = first ∧ w.reporters = [(r, n)]) ∧
      (∀ v, winOf l key = some v → w.at_ = v.at_ ∧ w.first = v.first ∧ w.reasons = v.reasons ||| reasons ∧
        (∀ k, k ≠ r → ∀ x, (k, x) ∈ w.reporters ↔ (k, x) ∈ v.reporters)) := by
  have joined : joinWindow l now key r n reasons first = winDrop l key ++ [{ (winOf l key).getD (newWindow key now first) with
      reasons := ((winOf l key).getD (newWindow key now first)).reasons ||| reasons
      reporters := addReporter ((winOf l key).getD (newWindow key now first)).reporters r n }] := by
    unfold joinWindow
    dsimp only
    rw [own]
    rfl
  have names : ((winOf l key).getD (newWindow key now first)).sys.toNat = key.1 ∧
      ((winOf l key).getD (newWindow key now first)).device.toNat = key.2 := by
    cases found : winOf l key with
    | none => exact ⟨by simpa [newWindow] using hs, by simpa [newWindow] using hd⟩
    | some v => exact winOf_names found
  rw [joined]
  refine ⟨_, winOf_append (winOf_winDrop l key) names.1 names.2, fun new => ?_, fun v open_ => ?_⟩
  · rw [new]
    exact ⟨rfl, Nat.zero_or reasons, rfl, rfl⟩
  · rw [open_]
    exact ⟨rfl, rfl, rfl, fun k other x => mem_addReporter other⟩

/-! ### The obligation -/

/-- A worker's health is kept at its place in the ferry area. -/
theorem actHealth_of_worker {s : State} {sys dev : Nat} (body : List Byte) {a : Nat} (worker : ownWorker s sys dev = true)
    (area : s.man.ferryArea = some a) : ∃ u, actHealth s sys dev body = hbmWrite u (a + 0x40000000 + 64 * (dev % 256)) (slice body 0 40) ∧
      u.hbm = s.hbm ∧ tget 0 u.ferry.heard (dev % 256) = s.time.mono := by
  refine ⟨{ s with ferry := { s.ferry with
    heard := tput s.ferry.heard (dev % 256) s.time.mono
    kept := if s.ferry.kept.contains (dev % 256) then s.ferry.kept else s.ferry.kept ++ [dev % 256] } }, ?_, rfl, tget_tput_same ..⟩
  rw [actHealth, if_pos worker]
  simp only [groupHealth, area, workerBody]

/-- Settles O50: a message that arrives is taken in its sequence, and each type does what its row says. -/
theorem ferryMessagesAreActedOnInOrder : Obligations.FerryMessagesAreActedOnInOrder := by
  unfold Obligations.FerryMessagesAreActedOnInOrder
  intro s c msg
  refine ⟨fun i type act row => ?rows, fun conn usable carried whole named => ?hello, fun astray => ?noHello,
    fun sys dev body job n k hj hn hk worker => actArrive_of_worker worker hj hn hk,
    fun b f job n hb defined hjob hn flag alone unwaited room => flagVal_workerRelease hb defined hjob hn flag alone unwaited room,
    fun sys dev body a worker area => actHealth_of_worker body worker area,
    fun l now key r n reasons first own hs hd => joinWindow_spec now r n reasons first own hs hd⟩
  case rows =>
    have run : exec i s = .next (ferryTake s c.val type msg act) := by
      simp only [List.mem_cons, Prod.mk.injEq, List.not_mem_nil, or_false] at row
      rcases row with ⟨rfl, rfl, rfl⟩ | ⟨rfl, rfl, rfl⟩ | ⟨rfl, rfl, rfl⟩ | ⟨rfl, rfl, rfl⟩ | ⟨rfl, rfl, rfl⟩ | ⟨rfl, rfl, rfl⟩ <;> rfl
    rw [run]
    refine ⟨fun astray => congrArg Host.Outcome.next (ferryTake_of_astray astray), fun u p sys dev conn usable carried whole named hs hd hu hp => ?_⟩
    obtain ⟨acted, past, gap, kept⟩ := ferryTake_of_arrival (act := act) (arrives conn usable carried whole named) hs hd hu hp
    exact ⟨fun h => congrArg Host.Outcome.next (acted h), fun h => congrArg Host.Outcome.next (past h),
      fun h => congrArg Host.Outcome.next (gap h), kept⟩
  case hello =>
    show Host.Outcome.next (ferryHello s c.val msg) = _
    rw [ferryHello, if_pos (arrives conn usable carried whole named)]
  case noHello => exact congrArg Host.Outcome.next (ferryHello_of_astray astray)

end Sys2Proof.Proofs
end


section
/-! The ferry duties: barriers, health, silence, timetables and the appointment of ferrymasters (R473-R485). -/

namespace Sys2Proof.Proofs

open Sys2Proof Sys2Proof.Machine Sys2Proof.Safety Sys2Proof.Laws

/-! ### What sending a ferry message leaves -/

/-- The state without what a ferry message changes where it is sent. -/
def withoutTalk (s : State) : State :=
  { s with landings := [], conns := [], ports := [], out := [], fc := {}, occ := [], ferry := { s.ferry with peers := [] } }

theorem of_withoutTalk {β : Type} (part : State → β) (hm : ∀ u, part (withoutTalk u) = part u) {s t : State}
    (h : withoutTalk t = withoutTalk s) : part t = part s := by rw [← hm, h, hm]

theorem withoutTalk_of_onlyRecords {s t : State} (h : OnlyRecords s t) : withoutTalk t = withoutTalk s :=
  of_onlyRecords withoutTalk (fun _ _ _ _ _ _ => rfl) h

theorem withoutTalk_setPeer (s : State) (p : Peer) : withoutTalk (setPeer s p) = withoutTalk s := rfl

theorem withoutTalk_noConn (s : State) (sys dev : Nat) : withoutTalk (noConn s sys dev) = withoutTalk s := by
  unfold noConn
  split <;> rfl

theorem withoutTalk_ferryOut (s : State) (sys dev : Nat) (msg : List Byte) : withoutTalk (ferryOut s sys dev msg).1 = withoutTalk s := by
  unfold ferryOut
  split
  · exact withoutTalk_of_onlyRecords (request_only ..)
  · exact withoutTalk_noConn ..

theorem withoutTalk_sendHello (s : State) (sys dev : Nat) (new : Bool) : withoutTalk (sendHello s sys dev new) = withoutTalk s := by
  unfold sendHello
  dsimp only
  split
  · rw [withoutTalk_setPeer, withoutTalk_ferryOut]
  · exact withoutTalk_ferryOut ..

theorem withoutTalk_ferryTo (s : State) (sys dev type : Nat) (body : List Byte) : withoutTalk (ferryTo s sys dev type body) = withoutTalk s := by
  have greeted : withoutTalk (if (peerOf s sys dev).owed && (connTo s sys dev).isSome then sendHello s sys dev true else s) = withoutTalk s := by
    split
    · exact withoutTalk_sendHello ..
    · rfl
  unfold ferryTo
  generalize (if (peerOf s sys dev).owed && (connTo s sys dev).isSome then sendHello s sys dev true else s) = u at greeted ⊢
  dsimp only
  split
  · rw [withoutTalk_setPeer, withoutTalk_ferryOut, greeted]
  · rw [withoutTalk_ferryOut, greeted]

theorem withoutTalk_ferryRestart (s : State) (sys dev : Nat) (old : List (List Byte)) :
    withoutTalk (ferryRestart s sys dev old) = withoutTalk s :=
  (foldl_keeps (f := fun t m => ferryTo t sys dev (leAt m 0 1) (m.drop 1)) withoutTalk (fun _ _ => withoutTalk_ferryTo ..) old _).trans
    (withoutTalk_setPeer ..)

theorem withoutTalk_newMaster (s : State) (old dev : Nat) : withoutTalk (newMaster s old dev) = withoutTalk s := by
  unfold newMaster
  dsimp only
  rw [withoutTalk_ferryRestart, withoutTalk_sendHello, withoutTalk_setPeer, withoutTalk_setPeer]

theorem groupFm_ferryTo (s : State) (sys dev type : Nat) (body : List Byte) : groupFm (ferryTo s sys dev type body) = groupFm s :=
  of_withoutTalk groupFm (fun _ => rfl) (withoutTalk_ferryTo ..)

/-! ### A message takes its number (R476, R477) -/

/-- A peer to which a new message has gone: the message takes the next number, and the last 256 of them are kept. -/
def toldPeer (p : Peer) (type : Nat) (body : List Byte) : Peer :=
  { p with
    mseq := p.mseq + 1
    kept := (p.kept ++ [(p.mseq + 1, natLe 1 type ++ slice body 0 40)]).drop
      ((p.kept ++ [(p.mseq + 1, natLe 1 type ++ slice body 0 40)]).length - 256) }

section
variable {s : State} {sys dev : Nat} (type : Nat) (body : List Byte)

theorem ferryTo_of_conn {n : Nat} (conn : connTo s sys dev = some n) (greeted : (peerOf s sys dev).owed = false) : ferryTo s sys dev type body =
    setPeer (request s n .ferry 1 (.send (ferryBytes s type ((peerOf s sys dev).mseq + 1) (peerOf s sys dev).acted body)))
      (toldPeer (peerOf s sys dev) type body) := by
  simp only [ferryTo, greeted, Bool.false_and, Bool.false_eq_true, if_false, ferryOut, conn, if_true, toldPeer]

theorem ferryTo_spec {n : Nat} (hs : sys < 256) (hd : dev < 2 ^ 14) (conn : connTo s sys dev = some n) (greeted : (peerOf s sys dev).owed = false) :
    (∀ w, w = Roce.send (ferryBytes s type ((peerOf s sys dev).mseq + 1) (peerOf s sys dev).acted body) → Leaves s n .ferry w →
      (ferryTo s sys dev type body).out = s.out ++ [leaving s n .ferry w]) ∧
    (peerOf (ferryTo s sys dev type body) sys dev).mseq = (peerOf s sys dev).mseq + 1 ∧
    ((peerOf s sys dev).kept.length < 256 → (peerOf (ferryTo s sys dev type body) sys dev).kept =
      (peerOf s sys dev).kept ++ [((peerOf s sys dev).mseq + 1, natLe 1 type ++ slice body 0 40)]) := by
  obtain ⟨names, named⟩ := peerOf_names s hs hd
  have told (u : State) : peerOf (setPeer u (toldPeer (peerOf s sys dev) type body)) sys dev = toldPeer (peerOf s sys dev) type body :=
    peerOf_setPeer names named
  rw [ferryTo_of_conn type body conn greeted, told]
  refine ⟨fun w hw leaves => ?_, rfl, fun few => ?_⟩
  · subst hw
    exact out_request leaves 1
  · dsimp only [toldPeer]
    rw [List.length_append, List.length_singleton, Nat.sub_eq_zero_of_le (by omega), List.drop_zero]

theorem ferryTo_of_noConn (none : connTo s sys dev = none) : ferryTo s sys dev type body = noConn s sys dev := by
  simp only [ferryTo, none, Option.isSome_none, Bool.and_false, Bool.false_eq_true, if_false, ferryOut]

end

/-! ### BARRIER_ARRIVE (R479) -/

/-- The state in which a berth's arrival has been taken from its flag and counted. -/
def arrived (s : State) (b : Nat) (k : FlagKey) : State :=
  setBerth (flagPut s k (flagVal s k - 1)) b { berthOf s b with bseq := (berthOf s b).bseq + 1 }

theorem barrierArrive_spec (s : State) (b : Nat) : ((berthOf s b).cfg.barFlag = none → barrierArrive s b = s) ∧
    (∀ i k u, (berthOf s b).cfg.barFlag = some i → k = FlagKey.chip ((berthOf s b).cfg.cfBase + i) → u = arrived s b k →
      ((berthOf s b).st = .undefined ∨ flagVal s k = 0 → barrierArrive s b = s) ∧
      ((berthOf s b).st ≠ .undefined → 0 < flagVal s k →
        (selfGroup s = true → barrierArrive s b = groupArrive u (ownSys s) (ownDevice s) ((berthOf s b).cfg.job.getD 0xFFFF)
          ((berthOf s b).bseq + 1).toNat 1) ∧
        (selfGroup s = false → barrierArrive s b = ferryTo u (ownSys s) (gfmDevice s) 2
          (arriveBody ((berthOf s b).cfg.job.getD 0xFFFF) ((berthOf s b).bseq + 1).toNat 1)))) := by
  refine ⟨fun free => by simp only [barrierArrive, free], ?_⟩
  rintro i k u flag rfl rfl
  have self (j : Nat) : selfGroup (arrived s b (.chip j)) = selfGroup s := rfl
  have sys (j : Nat) : ownSys (arrived s b (.chip j)) = ownSys s := rfl
  have device (j : Nat) : ownDevice (arrived s b (.chip j)) = ownDevice s := rfl
  have master (j : Nat) : gfmDevice (arrived s b (.chip j)) = gfmDevice s := rfl
  refine ⟨fun nothing => ?_, fun defined positive => ?_⟩
  · simp only [barrierArrive, flag, if_pos nothing]
  · have counts : ¬((berthOf s b).st = .undefined ∨ flagVal s (FlagKey.chip ((berthOf s b).cfg.cfBase + i)) = 0) := by
      rintro (undefined | zero)
      · exact defined undefined
      · omega
    have counted : barrierArrive s b =
        if selfGroup (arrived s b (FlagKey.chip ((berthOf s b).cfg.cfBase + i)))
        then groupArrive (arrived s b (FlagKey.chip ((berthOf s b).cfg.cfBase + i)))
          (ownSys (arrived s b (FlagKey.chip ((berthOf s b).cfg.cfBase + i))))
          (ownDevice (arrived s b (FlagKey.chip ((berthOf s b).cfg.cfBase + i)))) ((berthOf s b).cfg.job.getD 0xFFFF)
          ((berthOf s b).bseq + 1).toNat 1
        else ferryTo (arrived s b (FlagKey.chip ((berthOf s b).cfg.cfBase + i)))
          (ownSys (arrived s b (FlagKey.chip ((berthOf s b).cfg.cfBase + i))))
          (gfmDevice (arrived s b (FlagKey.chip ((berthOf s b).cfg.cfBase + i)))) 2
          (arriveBody ((berthOf s b).cfg.job.getD 0xFFFF) ((berthOf s b).bseq + 1).toNat 1) := by
      unfold barrierArrive
      dsimp only
      rw [flag]
      dsimp only
      rw [if_neg counts]
      rfl
    rw [counted, self, sys, device, master]
    exact ⟨fun own => if_pos own, fun other => by rw [other, if_neg Bool.false_ne_true]⟩

/-! ### Health (R481) -/

/-- The tick of a second is noted. -/
def ticked (s : State) : State := { s with ferry := { s.ferry with healthAt := some s.time.mono } }

theorem healthTick_of_worker {s : State} (worker : groupFm s = false) :
    healthTick (ticked s) = ferryTo (ticked s) (ownSys s) (gfmDevice s) 4 (healthBody s) := by
  have self : selfGroup (ticked s) = false := by
    show (groupFm s && gfmDevice s == ownDevice s) = false
    rw [worker, Bool.false_and]
  have master : groupFm (ticked s) = false := worker
  unfold healthTick
  dsimp only
  rw [self, if_neg Bool.false_ne_true, groupFm_ferryTo, master, if_neg Bool.false_ne_true]
  rfl

theorem misses_ferryTo (s : State) (sys dev type : Nat) (body : List Byte) : (ferryTo s sys dev type body).ferry.misses = s.ferry.misses :=
  of_withoutTalk (fun u => u.ferry.misses) (fun _ => rfl) (withoutTalk_ferryTo ..)

theorem misses_hbmWrite (s : State) (a : Nat) (data : List Byte) : (hbmWrite s a data).ferry.misses = s.ferry.misses := by
  have shown (u : State) : (withoutMemory u).ferry.misses = u.ferry.misses := rfl
  rw [← shown, withoutMemory_hbmWrite, shown]

/-- What a module reports of itself, or sends to its group ferrymaster, leaves its registers and its manifest. -/
theorem reported_keeps {β : Type} (part : State → β) (hm : ∀ u, part (withoutMemory u) = part u) (ht : ∀ u, part (withoutTalk u) = part u)
    (hf : ∀ u f, part { u with ferry := f } = part u) (s : State) :
    part (if selfGroup s then groupHealth s (ownDevice s) (healthBody s) else ferryTo s (ownSys s) (gfmDevice s) 4 (healthBody s)) = part s := by
  split
  · unfold groupHealth
    dsimp only
    split
    · rw [← hm, withoutMemory_hbmWrite, hm]
      exact hf ..
    · exact hf ..
  · exact of_withoutTalk part ht (withoutTalk_ferryTo ..)

/-- The summary of a group ferrymaster clears its misses. -/
theorem misses_healthTick {s : State} {a : Nat} (master : groupFm s = true) (area : s.man.ferryArea = some a) :
    (healthTick (ticked s)).ferry.misses = 0 := by
  have kept := reported_keeps groupFm (fun _ => rfl) (fun _ => rfl) (fun _ _ => rfl) (ticked s)
  have man := reported_keeps State.man (fun _ => rfl) (fun _ => rfl) (fun _ _ => rfl) (ticked s)
  unfold healthTick
  dsimp only
  generalize (if selfGroup (ticked s) then groupHealth (ticked s) (ownDevice (ticked s)) (healthBody (ticked s))
    else ferryTo (ticked s) (ownSys (ticked s)) (gfmDevice (ticked s)) 4 (healthBody (ticked s))) = u at kept man
  have master' : groupFm u = true := kept.trans master
  have area' : u.man.ferryArea = some a := (congrArg Manifest.ferryArea man).trans area
  rw [master', if_pos rfl, area']
  dsimp only
  split
  · unfold systemHealth
    split
    · rw [misses_hbmWrite]
    · rfl
  · rw [misses_ferryTo]

/-! ### Windows that close (R483, R484) -/

/-- The tide-time windows of the group without one. -/
def groupClosed (s : State) (k : Nat × Nat) : State := { s with ferry := { s.ferry with groupWins := winDrop s.ferry.groupWins k } }

theorem groupClose_spec {s : State} {k : Nat × Nat} {w : RepWindow} (open_ : winOf s.ferry.groupWins k = some w) :
    (s.time.tide < w.at_ + 50000000 → groupClose s k = s) ∧
    (w.at_ + 50000000 ≤ s.time.tide → winOf (groupClosed s k).ferry.groupWins k = none ∧
      (systemFm s = true → groupClose s k = systemEvent (groupClosed s k) (ownDevice s / 256) (eventBody w w.reporters.length 1)) ∧
      (systemFm s = false → groupClose s k = ferryTo (groupClosed s k) (ownSys s) (sfmDevice s) 6 (eventBody w w.reporters.length 1))) := by
  have window : reportWindow = 50000000 := rfl
  refine ⟨fun early => ?_, fun late => ⟨winOf_winDrop .., fun master => ?_, fun other => ?_⟩⟩
  · simp only [groupClose, open_]
    rw [window, if_pos early]
  · have master' : systemFm (groupClosed s k) = true := master
    simp only [groupClose, open_]
    rw [window, if_neg (by omega)]
    exact if_pos master'
  · have other' : systemFm (groupClosed s k) = false := other
    simp only [groupClose, open_]
    rw [window, if_neg (by omega)]
    exact if_neg (Bool.eq_false_iff.mp other')

/-- The fields of an EVENT. -/
theorem eventBody_fields (w : RepWindow) (reporters groups : Nat) : leAt (slice (eventBody w reporters groups) 0 22) 0 1 = w.sys.toNat ∧
    leAt (slice (eventBody w reporters groups) 0 22) 2 2 = w.device.toNat ∧
    leAt (slice (eventBody w reporters groups) 0 22) 4 1 = w.reasons % 256 := by
  have length : (eventBody w reporters groups).length = 22 := by simp [eventBody]
  have whole : slice (eventBody w reporters groups) 0 22 = eventBody w reporters groups := by
    rw [slice, List.drop_zero, List.take_of_length_le (by omega), length]
    exact List.append_nil _
  have field (pre post : List Byte) (off len n : Nat) (hp : pre.length = off)
      (split : eventBody w reporters groups = pre ++ (natLe len n ++ post)) : leAt (eventBody w reporters groups) off len = n % 256 ^ len := by
    rw [split, ← hp]
    exact leAt_append ..
  rw [whole]
  refine ⟨?_, ?_, ?_⟩
  · rw [field [] _ 0 1 w.sys.toNat rfl (by simp only [eventBody, List.append_assoc]; rfl)]
    exact Nat.mod_eq_of_lt (by have := w.sys.isLt; omega)
  · rw [field (natLe 1 w.sys.toNat ++ natLe 1 0) _ 2 2 w.device.toNat (by simp) (by simp only [eventBody, List.append_assoc]; rfl)]
    exact Nat.mod_eq_of_lt (by have := w.device.isLt; omega)
  · rw [field (natLe 1 w.sys.toNat ++ (natLe 1 0 ++ natLe 2 w.device.toNat)) _ 4 1 w.reasons (by simp)
      (by simp only [eventBody, List.append_assoc]; rfl), Nat.pow_one]

/-- The system's windows without one. -/
def systemClosed (s : State) (k : Nat × Nat) : State := { s with ferry := { s.ferry with sysWins := winDrop s.ferry.sysWins k } }

/-- The PEER_EVENT record of a window. -/
def peerEvent (s : State) (w : RepWindow) : Rec :=
  { type := 5, berth := 0xFF, hseq := none, task := 0, tide := s.time.tide,
    body := slice (eventBody w (w.reporters.foldl (fun a e => a + e.2) 0) w.reporters.length) 0 22 }

theorem systemClose_spec {s : State} {k : Nat × Nat} {w : RepWindow} (open_ : winOf s.ferry.sysWins k = some w) :
    (s.time.tide < w.at_ + 50000000 → systemClose s k = s) ∧
    (w.at_ + 50000000 ≤ s.time.tide → systemClose s k = emit (systemClosed s k) 16 (peerEvent s w)) := by
  have window : reportWindow = 50000000 := rfl
  refine ⟨fun early => ?_, fun late => ?_⟩
  · simp only [systemClose, open_]
    rw [window, if_pos early]
  · simp only [systemClose, open_]
    rw [window, if_neg (by omega)]
    rfl

/-! ### Silence of a worker (R481) -/

theorem workerSilent_spec (s : State) (w : Nat) :
    (groupFm s = false ∨ s.time.mono < tget 0 s.ferry.heard w + 3000000000 → workerSilent s w = s) ∧
    (groupFm s = true → tget 0 s.ferry.heard w + 3000000000 ≤ s.time.mono → tget 0 (workerSilent s w).ferry.heard w = s.time.mono ∧
      (workerSilent s w).ferry.groupWins = joinWindow s.ferry.groupWins s.time.tide (ownSys s, ownDevice s / 256 * 256 + w) (ownDevice s % 256) 1 0
        s.time.tide ∧ workerSilent s w = { s with ferry := (workerSilent s w).ferry }) := by
  refine ⟨fun quiet => ?_, fun master late => ?_⟩
  · have silent : (groupFm s && decide (tget 0 s.ferry.heard w + 3000000000 ≤ s.time.mono)) = false := by
      rcases quiet with other | early
      · rw [other, Bool.false_and]
      · rw [decide_eq_false (by omega), Bool.and_false]
    unfold workerSilent
    dsimp only
    rw [silent, if_neg Bool.false_ne_true]
  · have counts : (groupFm s && decide (tget 0 s.ferry.heard w + 3000000000 ≤ s.time.mono)) = true := by rw [master, decide_eq_true late]; rfl
    unfold workerSilent
    dsimp only
    rw [counts, if_pos rfl]
    exact ⟨tget_tput_same .., rfl, rfl⟩

/-! ### Timetables (R480) -/

theorem missCheck_of_due {s : State} {p : Nat × Nat} (gens : List (Nat × Nat)) (plan : s.ferry.plan = some p)
    (late : p.1 + s.time.sailing * 10 * s.time.cycleLen ≤ s.time.tide) : ∃ u, withoutTalk u = withoutTalk s ∧ missCheck s gens = { u with
      ferry := { u.ferry with
                 plan := none
                 misses := min 65535 (u.ferry.misses +
                   (((workersOf s).filter (fun w => !gens.any (fun g => g.1 == w && g.2 == p.2))).length + if s.time.tblGen.toNat = p.2 then 0 else 1)) } } := by
  simp only [missCheck, plan]
  rw [if_neg (by omega)]
  generalize hu : List.foldl _ s (workersOf s) = u
  refine ⟨u, ?_, rfl⟩
  subst hu
  refine foldl_keeps withoutTalk (fun t w => ?_) _ s
  split
  · exact withoutTalk_of_onlyRecords (request_only ..)
  · exact withoutTalk_noConn ..

theorem missCheck_spec {s : State} {p : Nat × Nat} (gens : List (Nat × Nat)) (plan : s.ferry.plan = some p) :
    (s.time.tide < p.1 + s.time.sailing * 10 * s.time.cycleLen → missCheck s gens = s) ∧
    (p.1 + s.time.sailing * 10 * s.time.cycleLen ≤ s.time.tide → (missCheck s gens).ferry.plan = none ∧
      (missCheck s gens).ferry.misses = min 65535 (s.ferry.misses +
        (((workersOf s).filter (fun w => !gens.any (fun g => g.1 == w && g.2 == p.2))).length + if s.time.tblGen.toNat = p.2 then 0 else 1))) := by
  refine ⟨fun early => by simp only [missCheck, plan, if_pos early], fun late => ?_⟩
  obtain ⟨u, talked, checked⟩ := missCheck_of_due gens plan late
  have misses : u.ferry.misses = s.ferry.misses := of_withoutTalk (fun u => u.ferry.misses) (fun _ => rfl) talked
  rw [checked, misses]
  exact ⟨rfl, rfl⟩

/-! ### The appointment (R473, R474) -/

/-- GFM_DEVICE and SFM_DEVICE that a write of MG_FERRY leaves. -/
def groupField (s : State) (v : Word) : Nat :=
  if bits v.toNat 27 14 / 256 ≠ ownDevice s / 256 ∨ (bits v.toNat 31 31 = 1 ∧ bits v.toNat 27 14 ≠ ownDevice s) then gfmDevice s else bits v.toNat 27 14

def systemField (s : State) (v : Word) : Nat :=
  if bits v.toNat 30 30 = 1 ∧ bits v.toNat 13 0 ≠ ownDevice s then sfmDevice s else bits v.toNat 13 0

/-- MG_FERRY as a write leaves it. -/
def ferryWord (s : State) (v : Word) : Word :=
  BitVec.ofNat 32 (bits v.toNat 31 31 * 2 ^ 31 + bits v.toNat 30 30 * 2 ^ 30 + groupField s v * 2 ^ 14 + systemField s v)

theorem bits_lt (n hi lo : Nat) : bits n hi lo < 2 ^ (hi + 1 - lo) := Nat.mod_lt _ (Nat.two_pow_pos _)

theorem groupField_lt (s : State) (v : Word) : groupField s v < 2 ^ 14 := by
  unfold groupField
  split
  · exact bits_lt ..
  · exact bits_lt ..

theorem systemField_lt (s : State) (v : Word) : systemField s v < 2 ^ 14 := by
  unfold systemField
  split
  · exact bits_lt ..
  · exact bits_lt ..

/-- The fields of MG_FERRY read back. -/
theorem ferryWord_fields (s : State) (v : Word) : bits (ferryWord s v).toNat 31 31 = bits v.toNat 31 31 ∧
    bits (ferryWord s v).toNat 30 30 = bits v.toNat 30 30 ∧ bits (ferryWord s v).toNat 27 14 = groupField s v ∧
    bits (ferryWord s v).toNat 13 0 = systemField s v := by
  have group := groupField_lt s v
  have system := systemField_lt s v
  have top : bits v.toNat 31 31 < 2 := bits_lt ..
  have next : bits v.toNat 30 30 < 2 := bits_lt ..
  have word : (ferryWord s v).toNat = bits v.toNat 31 31 * 2 ^ 31 + bits v.toNat 30 30 * 2 ^ 30 + groupField s v * 2 ^ 14 + systemField s v := by
    rw [ferryWord, BitVec.toNat_ofNat]
    exact Nat.mod_eq_of_lt (by omega)
  rw [word]
  generalize bits v.toNat 31 31 = a at top
  generalize bits v.toNat 30 30 = b at next
  generalize groupField s v = c at group
  generalize systemField s v = d at system
  simp only [bits, Nat.shiftRight_eq_div_pow]
  omega

/-- A new ferrymaster's word is kept, whatever is told to whom. -/
theorem withoutTalk_ferryWrite (s : State) (v : Word) : withoutTalk (ferryWrite s v) = withoutTalk (regSet s (mgBase + 0x24) (ferryWord s v)) := by
  have master (c : Prop) [Decidable c] (u : State) (old dev : Nat) : withoutTalk (if c then newMaster u old dev else u) = withoutTalk u := by
    split
    · exact withoutTalk_newMaster ..
    · rfl
  unfold ferryWrite
  dsimp only
  rw [master, master]
  rfl

theorem regGet_ferryWrite (s : State) (v : Word) (a : Nat) : regGet (ferryWrite s v) a = if mgBase + 0x24 = a then ferryWord s v else regGet s a :=
  (of_withoutTalk (fun u => regGet u a) (fun _ => rfl) (withoutTalk_ferryWrite s v)).trans (regGet_regSet ..)

theorem ferryWrite_spec (s : State) (v : Word) : groupFm (ferryWrite s v) = bit v.toNat 31 ∧ systemFm (ferryWrite s v) = bit v.toNat 30 ∧
    gfmDevice (ferryWrite s v) = (if bits v.toNat 27 14 / 256 ≠ ownDevice s / 256 ∨ (bit v.toNat 31 = true ∧ bits v.toNat 27 14 ≠ ownDevice s)
      then gfmDevice s else bits v.toNat 27 14) ∧
    sfmDevice (ferryWrite s v) = (if bit v.toNat 30 = true ∧ bits v.toNat 13 0 ≠ ownDevice s then sfmDevice s else bits v.toNat 13 0) ∧
    ∀ a, a ≠ mgBase + 0x24 → tget 0 (ferryWrite s v).rw a = tget 0 s.rw a := by
  have single (k : Nat) : bits v.toNat k k = 1 ↔ bit v.toNat k = true := by
    have one : k + 1 - k = 1 := by omega
    rw [bits, one, bit, Nat.testBit_eq_decide_div_mod_eq, decide_eq_true_eq, Nat.shiftRight_eq_div_pow, Nat.pow_one]
  have flag (k : Nat) : (bits v.toNat k k == 1) = bit v.toNat k := Bool.eq_iff_iff.mpr (beq_iff_eq.trans (single k))
  have word : regGet (ferryWrite s v) (mgBase + 0x24) = ferryWord s v := (regGet_ferryWrite ..).trans (if_pos rfl)
  obtain ⟨group, system, gdev, sdev⟩ := ferryWord_fields s v
  refine ⟨?_, ?_, ?_, ?_, fun a other => ?_⟩
  · rw [groupFm, regBits, word, group, flag]
  · rw [systemFm, regBits, word, system, flag]
  · rw [gfmDevice, regBits, word, gdev, groupField]
    simp only [single]
  · rw [sfmDevice, regBits, word, sdev, systemField]
    simp only [single]
  · refine (of_withoutTalk (fun u => tget 0 u.rw a) (fun _ => rfl) (withoutTalk_ferryWrite s v)).trans ?_
    exact tget_tput_ne _ _ _ _ _ (Ne.symm other)

/-! ### The obligation -/

/-- Settles O51: each duty of the management core as its own rule has it. -/
theorem ferryDutiesExecute : Obligations.FerryDutiesExecute := by
  unfold Obligations.FerryDutiesExecute
  intro s
  refine ⟨fun b => ?barrier, fun sys dev type body n hs hd conn greeted => ferryTo_spec type body hs hd conn greeted,
    fun sys dev type body none may => ?noConn, fun early => ?early, fun late worker => ?worker, fun a late master area => ?master,
    fun w => ?silent, fun sys dev => ?windows, fun gens => ?misses, fun v => ⟨ferryWrite s v, rfl, ferryWrite_spec s v⟩⟩
  case barrier =>
    obtain ⟨none, some_⟩ := barrierArrive_spec s b.val
    refine ⟨fun free => congrArg Host.Outcome.next (none free), fun i k u flag hk hu => ?_⟩
    obtain ⟨nothing, counts⟩ := some_ i k u flag hk hu
    exact ⟨fun h => congrArg Host.Outcome.next (nothing h), fun defined positive =>
      ⟨fun own => congrArg Host.Outcome.next ((counts defined positive).1 own),
        fun other => congrArg Host.Outcome.next ((counts defined positive).2 other)⟩⟩
  case noConn =>
    refine ⟨chipOcc s 0 0x59 (sys + dev * 2 ^ 8), ?_, rfl⟩
    rw [ferryTo_of_noConn type body none, noConn, if_pos may]
    rfl
  case early =>
    show Host.Outcome.next _ = _
    rw [early, if_neg Bool.false_ne_true]
  case worker =>
    show Host.Outcome.next _ = _
    rw [late, if_pos rfl]
    exact congrArg Host.Outcome.next (healthTick_of_worker worker)
  case master =>
    refine ⟨healthTick (ticked s), ?_, misses_healthTick master area⟩
    show Host.Outcome.next _ = _
    rw [late, if_pos rfl]
    rfl
  case silent =>
    obtain ⟨quiet, counts⟩ := workerSilent_spec s w.val
    exact ⟨fun h => congrArg Host.Outcome.next (quiet h), fun master late => ⟨_, rfl, counts master late⟩⟩
  case windows =>
    refine ⟨fun none => ?_, fun none => ?_, fun w u open_ hu => ?_, fun w u open_ hu => ?_⟩
    · show Host.Outcome.next (groupClose s (sys.toNat, dev.toNat)) = _
      simp only [groupClose, none]
    · show Host.Outcome.next (systemClose s (sys.toNat, dev.toNat)) = _
      simp only [systemClose, none]
    · subst hu
      obtain ⟨early, late⟩ := groupClose_spec open_
      refine ⟨fun h => congrArg Host.Outcome.next (early h), fun h => ?_⟩
      obtain ⟨gone, master, other⟩ := late h
      exact ⟨gone, fun k => congrArg Host.Outcome.next (master k), fun k => congrArg Host.Outcome.next (other k)⟩
    · subst hu
      obtain ⟨early, late⟩ := systemClose_spec open_
      exact ⟨fun h => congrArg Host.Outcome.next (early h), fun h => ⟨peerEvent s w, congrArg Host.Outcome.next (late h), rfl, rfl,
        eventBody_fields ..⟩⟩
  case misses =>
    refine ⟨fun none => ?_, fun p plan => ?_⟩
    · show Host.Outcome.next (missCheck s gens) = _
      simp only [missCheck, none]
    · obtain ⟨early, late⟩ := missCheck_spec gens plan
      exact ⟨fun h => congrArg Host.Outcome.next (early h), fun h => ⟨_, rfl, late h⟩⟩

end Sys2Proof.Proofs
end


section
/-! What a port whose links go down leaves: occurrences are only added, and beside ports, connections, ferry and time nothing changes
(R385-R393, R416, R482). -/

namespace Sys2Proof.Proofs

open Sys2Proof Sys2Proof.Machine Sys2Proof.Safety Sys2Proof.Laws

/-- The state without ports, what is sent and shown over them, tide time, and the occurrences. -/
def withoutPorts (s : State) : State :=
  { s with
    ports := []
    conns := []
    landings := []
    out := []
    ferry := {}
    occ := []
    time := {}
    fc := { halt := s.fc.halt }
    pw := { s.pw with alert := 0, answered := false } }

theorem of_withoutPorts {β : Type} (part : State → β) (hm : ∀ u, part (withoutPorts u) = part u) {s t : State}
    (h : withoutPorts t = withoutPorts s) : part t = part s := by rw [← hm, h, hm]

/-- Ports have changed, but no link has come up, and occurrences have been added. -/
structure Grows (s t : State) : Prop where
  kept : withoutPorts t = withoutPorts s
  occ : ∃ l, t.occ = s.occ ++ l
  falls : ∀ p k, (linkOf s p k).step = 0 → (linkOf t p k).step = 0

theorem Grows.of_links {s t : State} (kept : withoutPorts t = withoutPorts s) (occ : t.occ = s.occ)
    (links : ∀ p, (portOf t p).links = (portOf s p).links) : Grows s t :=
  ⟨kept, ⟨[], occ.trans (List.append_nil _).symm⟩, fun p k down => by rwa [linkOf, links]⟩

theorem Grows.of_same {s t : State} (kept : withoutPorts t = withoutPorts s) (occ : t.occ = s.occ) (ports : t.ports = s.ports) : Grows s t :=
  .of_links kept occ (fun p => by rw [portOf, ports]; rfl)

theorem Grows.refl (s : State) : Grows s s := .of_same rfl rfl rfl

theorem Grows.trans {s t u : State} (h : Grows s t) (k : Grows t u) : Grows s u := by
  obtain ⟨l, hl⟩ := h.occ
  obtain ⟨r, hr⟩ := k.occ
  exact ⟨k.kept.trans h.kept, ⟨l ++ r, by rw [hr, hl, List.append_assoc]⟩, fun p i down => k.falls p i (h.falls p i down)⟩

theorem Grows.mem {s t : State} (h : Grows s t) {x : Occ} (hx : x ∈ s.occ) : x ∈ t.occ := by
  obtain ⟨l, hl⟩ := h.occ
  exact hl ▸ List.mem_append_left l hx

theorem Grows.foldl {α : Type} {f : State → α → State} (hf : ∀ s a, Grows s (f s a)) (l : List α) (s : State) : Grows s (l.foldl f s) := by
  induction l generalizing s with
  | nil => exact .refl s
  | cons a l ih => exact (hf s a).trans (ih _)

/-! ### Parts of the state -/

theorem grows_raiseChip (s : State) (unit code detail : Nat) : Grows s (raiseChip s unit code detail) :=
  ⟨rfl, ⟨[chipOcc s unit code detail], rfl⟩, fun _ _ down => down⟩

/-- A port that keeps its links. -/
theorem grows_setPort {s : State} {p : Nat} {x : Port} (h : x.links = (portOf s p).links) : Grows s (setPort s p x) := by
  refine .of_links rfl rfl (fun i => ?_)
  rw [portOf_setPort]
  split
  · next same => rw [h, same]
  · rfl

/-- A link that does not come up. -/
theorem grows_setLink {s : State} {p k : Nat} {x : Link} (h : x.step = (linkOf s p k).step ∨ x.step = 0) : Grows s (setLink s p k x) := by
  refine ⟨rfl, ⟨[], (List.append_nil _).symm⟩, fun i j down => ?_⟩
  rw [linkOf_setLink]
  split
  · next same =>
    obtain ⟨rfl, rfl⟩ := same
    rcases h with kept | gone
    · exact kept.trans down
    · exact gone
  · exact down

theorem grows_setTime (s : State) (f : TimeUnit → TimeUnit) : Grows s (setTime s f) := .of_same rfl rfl rfl

theorem grows_alertSet (s : State) (i : Nat) : Grows s (alertSet s i) := .of_same rfl rfl rfl

theorem links_request (s : State) (n : Nat) (kind : ReqKind) (packets : Nat) (m : Roce) (g : Bool) (p : Nat) :
    (portOf (request s n kind packets m g) p).links = (portOf s p).links := by
  have held (u : State) (i : Nat) (l : List (Nat × Out)) : (portOf (setPort u i { portOf u i with held := l }) p).links = (portOf u p).links := by
    rw [portOf_setPort]
    split
    · next same => rw [same]
    · rfl
  unfold request
  dsimp only
  split
  · unfold sendOn
    split
    · unfold sendFrame
      split
      · exact held ..
      · rfl
    · rfl
  · rfl

theorem grows_request (s : State) (n : Nat) (kind : ReqKind) (packets : Nat) (m : Roce) (g : Bool) : Grows s (request s n kind packets m g) := by
  have only := request_only s n kind packets m g
  have fc := fc_request s n kind packets m g
  have kept (l c p o) : withoutPorts { s with landings := l, conns := c, ports := p, out := o } = withoutPorts s := rfl
  rw [OnlyRecords, fc] at only
  exact .of_links ((congrArg withoutPorts only).trans (kept ..)) (of_onlyRecords State.occ (fun _ _ _ _ _ _ => rfl) (request_only ..))
    (links_request s n kind packets m g)

/-! ### Ferry messages -/

theorem grows_noConn (s : State) (sys dev : Nat) : Grows s (noConn s sys dev) := by
  unfold noConn
  split
  · exact (grows_raiseChip ..).trans (.of_same rfl rfl rfl)
  · exact .refl s

theorem grows_ferryOut (s : State) (sys dev : Nat) (msg : List Byte) : Grows s (ferryOut s sys dev msg).1 := by
  unfold ferryOut
  split
  · exact grows_request ..
  · exact grows_noConn ..

theorem grows_setPeer (s : State) (p : Peer) : Grows s (setPeer s p) := .of_same rfl rfl rfl

theorem grows_sendHello (s : State) (sys dev : Nat) (new : Bool) : Grows s (sendHello s sys dev new) := by
  unfold sendHello
  dsimp only
  split
  · exact (grows_ferryOut ..).trans (grows_setPeer ..)
  · exact grows_ferryOut ..

theorem grows_ferryTo (s : State) (sys dev type : Nat) (body : List Byte) : Grows s (ferryTo s sys dev type body) := by
  have greeted : Grows s (if (peerOf s sys dev).owed && (connTo s sys dev).isSome then sendHello s sys dev true else s) := by
    split
    · exact grows_sendHello ..
    · exact .refl s
  unfold ferryTo
  generalize (if (peerOf s sys dev).owed && (connTo s sys dev).isSome then sendHello s sys dev true else s) = u at greeted ⊢
  dsimp only
  split
  · exact greeted.trans ((grows_ferryOut ..).trans (grows_setPeer ..))
  · exact greeted.trans (grows_ferryOut ..)

theorem grows_setSilence (s : State) (x : Silence) : Grows s (setSilence s x) := .of_same rfl rfl rfl

theorem grows_groupSilent (s : State) (w sys dev reasons first : Nat) : Grows s (groupSilent s w sys dev reasons first) := .of_same rfl rfl rfl

theorem grows_sendSilent (s : State) (sys dev reasons first folded : Nat) : Grows s (sendSilent s sys dev reasons first folded) := by
  have sent (u : State) (w at_ : Nat) (body : List Byte) :
      Grows u (if selfGroup u then groupSilent u w sys dev reasons at_ else ferryTo u (ownSys u) (gfmDevice u) 5 body) := by
    split
    · exact grows_groupSilent ..
    · exact grows_ferryTo ..
  unfold sendSilent
  dsimp only
  refine Grows.trans ?_ (sent _ _ _ _)
  exact (grows_raiseChip ..).trans (grows_setSilence ..)

theorem grows_silentTrigger (s : State) (sys dev reason : Nat) : Grows s (silentTrigger s sys dev reason) := by
  unfold silentTrigger
  split
  · exact grows_sendSilent ..
  · dsimp only
    split
    · exact grows_setSilence ..
    · exact grows_sendSilent ..

/-! ### Classification -/

theorem grows_setPortState (s : State) (p : Nat) (st : PortState) (cause : Nat) : Grows s (setPortState s p st cause) := by
  unfold setPortState
  dsimp only
  split
  · exact grows_setPort rfl
  · refine Grows.trans ?_ (grows_alertSet ..)
    exact grows_setPort rfl

theorem grows_setLport (s : State) (p l : Nat) : Grows s (setLport s p l) := grows_setPort rfl

theorem grows_loseHeld (s : State) (p : Nat) : Grows s (loseHeld s p) := grows_setPort rfl

theorem grows_quarantine (s : State) (p cause : Nat) : Grows s (quarantine s p cause) := by
  have entered := (grows_setLport s p p).trans (grows_setPortState (setLport s p p) p .quarantined cause)
  unfold quarantine
  dsimp only
  split
  · exact entered
  · exact entered.trans (grows_raiseChip ..)

theorem grows_applyVerdict (s : State) (p : Nat) (v : Verdict) : Grows s (applyVerdict s p v) := by
  cases v with
  | up => exact (grows_setLport ..).trans (grows_setPortState ..)
  | await => exact (grows_setLport ..).trans (grows_setPortState ..)
  | quar c => exact grows_quarantine ..
  | swap q =>
    have swapped := (grows_setLport s p q).trans (grows_setPortState (setLport s p q) p .remapped 0)
    unfold applyVerdict
    dsimp only
    split
    · have both := swapped.trans ((grows_setLport _ q p).trans (grows_setPortState _ q .remapped 0))
      split
      · exact both
      · exact both.trans (grows_raiseChip ..)
    · exact (grows_quarantine ..).trans (grows_quarantine ..)

theorem grows_classifyOne (s : State) (p : Nat) : Grows s (classifyOne s p) := by
  unfold classifyOne
  split
  · exact grows_applyVerdict ..
  · exact .refl s

theorem grows_classify (s : State) (p : Nat) : Grows s (classify s p) := by
  have own : Grows s (if anyUp s p then s else if lportOf s p = p then s else setLport s p p) := by
    split
    · exact .refl s
    · split
      · exact .refl s
      · exact grows_setLport ..
  unfold classify
  dsimp only
  refine (own.trans (grows_classifyOne ..)).trans (Grows.foldl (fun t q => ?_) _ _)
  split
  · exact .refl t
  · exact grows_classifyOne ..

/-! ### Links that go down -/

theorem grows_loseCard (s : State) (p k : Nat) : Grows s (loseCard s p k) := by
  unfold loseCard
  split
  · exact .refl s
  · dsimp only
    split
    · refine Grows.trans ?_ (grows_silentTrigger ..)
      exact grows_setLink (.inl rfl)
    · exact grows_setLink (.inl rfl)

theorem grows_decideMaster (s : State) : Grows s (decideMaster s) := by
  unfold decideMaster
  split
  · exact .refl s
  · dsimp only
    split
    · exact grows_setTime ..
    · exact grows_setTime ..

theorem grows_loseMaster (s : State) : Grows s (loseMaster s) := by
  unfold loseMaster
  split
  · exact .refl s
  · exact (grows_setTime ..).trans (grows_decideMaster ..)

/-- A link is taken back to the beginning of its bring-up, and its card is lost. -/
def linkDropped (s : State) (p k : Nat) : State :=
  setLink (loseCard s p k) p k { linkOf (loseCard s p k) p k with step := 0, since := none, sentAt := none, sent := [], ptpAt := [] }

theorem grows_linkDropped (s : State) (p k : Nat) : Grows s (linkDropped s p k) := (grows_loseCard s p k).trans (grows_setLink (.inr rfl))

/-- What follows a link that has gone down: the time it gave is forgotten, and its port takes its state. -/
theorem dropLink_grows (s : State) (p k : Nat) : Grows (linkDropped s p k) (dropLink s p k) := by
  have master (c : Prop) [Decidable c] (u : State) : Grows u (if c then loseMaster u else u) := by
    split
    · exact grows_loseMaster u
    · exact .refl u
  have state (c : Bool) (u : State) : Grows u (if c then u else setPortState (loseHeld u p) p (downState u p) (downCause u p)) := by
    split
    · exact .refl u
    · exact (grows_loseHeld u p).trans (grows_setPortState ..)
  have class_ (c : Bool) (u : State) : Grows u (if c then classify u p else u) := by
    split
    · exact grows_classify u p
    · exact .refl u
  unfold dropLink
  dsimp only
  refine Grows.trans (Grows.trans (Grows.trans ?_ (master _ _)) (state _ _)) (class_ _ _)
  exact grows_setTime ..

theorem grows_dropLink (s : State) (p k : Nat) : Grows s (dropLink s p k) := (grows_linkDropped s p k).trans (dropLink_grows s p k)

theorem step_dropLink (s : State) (p k : Nat) : (linkOf (dropLink s p k) p k).step = 0 := by
  refine (dropLink_grows s p k).falls p k ?_
  rw [linkDropped, linkOf_setLink, if_pos ⟨rfl, rfl⟩]

/-- The links of a port go down. -/
def subsOff (s : State) (p : Nat) : State := (List.range 4).foldl (fun u k => dropLink u p k) s

theorem grows_subsOff (s : State) (p : Nat) : Grows s (subsOff s p) := Grows.foldl (fun u k => grows_dropLink u p k) _ s

/-- Steps that end a link each, and bring none up, end them all. -/
theorem falls_foldl {α : Type} {f : State → α → State} (hf : ∀ s a, Grows s (f s a)) {p k : Nat} {a : α}
    (ends : ∀ s, (linkOf (f s a) p k).step = 0) {l : List α} (h : a ∈ l) (s : State) : (linkOf (l.foldl f s) p k).step = 0 :=
  foldl_reaches f (fun t => (linkOf t p k).step = 0) h ends (fun t b down => (hf t b).falls p k down) s

theorem step_subsOff (s : State) (p : Nat) {k : Nat} (hk : k < 4) : (linkOf (subsOff s p) p k).step = 0 :=
  falls_foldl (f := fun u k => dropLink u p k) (fun u k => grows_dropLink u p k) (fun u => step_dropLink u p k) (List.mem_range.mpr hk) s

/-- The links of ports go down. -/
def linksOff (l : List Nat) (s : State) : State := l.foldl subsOff s

/-- Transit stops. -/
def transitOff (s : State) : State := { s with ports := s.ports.map (fun e => (e.1, { e.2 with transit := [] })) }

theorem portsOff_eq (s : State) : portsOff s = transitOff (linksOff (List.range 8) s) := by
  unfold portsOff linksOff transitOff
  rfl

theorem grows_linksOff (l : List Nat) (s : State) : Grows s (linksOff l s) := Grows.foldl grows_subsOff l s

theorem grows_transitOff (s : State) : Grows s (transitOff s) := by
  refine .of_links rfl rfl (fun p => ?_)
  have port : portOf (transitOff s) p = { portOf s p with transit := [] } := tget_map_values (f := fun x : Port => { x with transit := [] }) rfl s.ports p
  rw [port]

/-- All links of all ports go down. -/
theorem grows_portsOff (s : State) : Grows s (portsOff s) := by
  rw [portsOff_eq]
  exact (grows_linksOff _ s).trans (grows_transitOff _)

theorem linkUp_portsOff (s : State) {p k : Nat} (hp : p < 8) (hk : k < 4) : linkUp (portsOff s) p k = false := by
  have down : (linkOf (linksOff (List.range 8) s) p k).step = 0 :=
    falls_foldl grows_subsOff (fun u => step_subsOff u p hk) (List.mem_range.mpr hp) s
  rw [portsOff_eq, linkUp, (grows_transitOff _).falls p k down]
  rfl

end Sys2Proof.Proofs
end


section
/-! Resets, the input and the rails (R550, R587-R596). -/

namespace Sys2Proof.Proofs

open Sys2Proof Sys2Proof.Machine Sys2Proof.Safety Sys2Proof.Laws

/-! ### A full reset (R550, R556, R592) -/

/-- Every register of the security block resets to zero. -/
theorem rwReset_sc (s : State) {a : Nat} (lo : scBase ≤ a) (hi : a < pwBase) : rwReset s a = 0 := by
  simp only [scBase, pwBase] at lo hi
  unfold rwReset mgBase fcBase pwBase ttBase mwBase qyBase ptBase
  rw [if_neg (by omega), if_neg (by omega), if_neg (by omega), if_neg (by omega), if_neg (by omega), if_neg (by omega), if_neg (by omega),
    if_neg (by omega), if_neg (by omega), if_neg (by omega), if_neg (by omega), if_neg (by omega), if_neg (by omega), if_neg (by omega)]

/-- A register that a reset keeps holds its value, and another one of its block is zero. -/
theorem regGet_fullReset (s : State) (cycle : Bool) {a : Nat} (lo : scBase ≤ a) (hi : a < pwBase) :
    (a ∈ keptRegs s cycle → regGet (fullReset s cycle) a = regGet s a) ∧ (a ∉ keptRegs s cycle → regGet (fullReset s cycle) a = 0) := by
  have words : (fullReset s cycle).rw = (keptRegs s cycle).foldl (fun l a => tput l a (regGet s a)) [] := rfl
  refine ⟨fun kept => ?_, fun gone => ?_⟩
  · rw [regGet, words]
    exact tget_foldl_tput _ (fun a => a) (regGet s) (fun _ _ h => h) kept []
  · rw [regGet, words, tget_foldl_tput_ne _ (fun a => a) (regGet s) (i := a) (fun n hn same => gone (same ▸ hn))]
    exact rwReset_sc _ lo hi

theorem keptRegs_of_locked {s : State} {cycle : Bool} (h : policyLocked s = true) (hc : cycle = false) :
    keptRegs s cycle = (scBase + 0xC) :: (scBase + 8) :: (List.range 15).map (fun n => scBase + 0x40 + 4 * n) := by
  simp [keptRegs, h, hc]

theorem keptRegs_of_unlocked {s : State} {cycle : Bool} (h : policyLocked s = false ∨ cycle = true) : keptRegs s cycle = [scBase + 0xC] := by
  rcases h with h | h <;> simp [keptRegs, h]

theorem inSc {k : Nat} (h : k < 0x10000) : scBase ≤ scBase + k ∧ scBase + k < pwBase := by
  simp only [scBase, pwBase]
  omega

theorem resetLeaves_fullReset (s : State) (cycle : Bool) : ResetLeaves s (fullReset s cycle) cycle := by
  have reg {k : Nat} (h : k < 0x10000) := regGet_fullReset s cycle (inSc h).1 (inSc h).2
  have slot : scBase + 0xC ∈ keptRegs s cycle := by
    unfold keptRegs
    split <;> exact List.mem_cons_self
  have word {n : Nat} (hn : n < 15) : scBase + 0x40 + 4 * n = scBase + (0x40 + 4 * n) := Nat.add_assoc ..
  exact {
    pending := rfl
    fitted := rfl
    flash := rfl
    boot := rfl
    time := rfl
    man := rfl
    berths := rfl
    conns := rfl
    windows := rfl
    runs := rfl
    trk := rfl
    occ := rfl
    load := rfl
    meas := rfl
    hbm := ⟨s.free, Nat.le_refl _, rfl⟩
    recs := rfl
    halt := rfl
    debug := rfl
    keys := rfl
    slot := (reg (by decide)).1 slot
    locked := fun locked hc => by
      have kept := keptRegs_of_locked locked hc
      refine ⟨(reg (by decide)).1 (by simp [kept]), fun n hn => ?_⟩
      unfold keyWord
      rw [word hn]
      refine (reg (by omega)).1 ?_
      rw [kept, ← word hn]
      exact List.mem_cons_of_mem _ (List.mem_cons_of_mem _ (List.mem_map.mpr ⟨n, List.mem_range.mpr hn, rfl⟩))
    unlocked := fun h => by
      have kept := keptRegs_of_unlocked h
      refine ⟨(reg (by decide)).2 (by rw [kept, List.mem_singleton]; omega), fun n hn => ?_⟩
      unfold keyWord
      rw [word hn]
      exact (reg (by omega)).2 (by rw [kept, List.mem_singleton]; omega) }

/-- What a reset leaves does not rest on the power unit, neither before nor after it. -/
theorem resetLeaves_setPw {s t : State} {cycle : Bool} (h : ResetLeaves s t cycle) (x : Power) : ResetLeaves s { t with pw := x } cycle :=
  ⟨h.pending, h.fitted, h.flash, h.boot, h.time, h.man, h.berths, h.conns, h.windows, h.runs, h.trk, h.occ, h.load, h.meas, h.hbm, h.recs, h.halt,
    h.debug, h.keys, h.slot, h.locked, h.unlocked⟩

theorem resetLeaves_ofPw {s t : State} {cycle : Bool} {x : Power} {f : Nat} (hf : s.free ≤ f) (h : ResetLeaves { s with pw := x, free := f } t cycle) :
    ResetLeaves s t cycle := by
  obtain ⟨g, below, hbm⟩ := h.hbm
  exact ⟨h.pending, h.fitted, h.flash, h.boot, h.time, h.man, h.berths, h.conns, h.windows, h.runs, h.trk, h.occ, h.load, h.meas,
    ⟨g, Nat.le_trans hf below, hbm⟩, h.recs, h.halt, h.debug, h.keys, h.slot, h.locked, h.unlocked⟩

/-- Load rails that come up again right after a reset. -/
theorem resetLeaves_tryRestart {s t : State} {cycle : Bool} (h : ResetLeaves s t cycle) : ResetLeaves s (tryRestart t) cycle := by
  have start : t.boot.phaseAt = t.time.mono := by rw [h.boot, h.time]
  have boot : { t.boot with phaseAt := t.time.mono } = t.boot := by rw [← start]
  unfold tryRestart
  split
  · rw [boot]
    exact resetLeaves_setPw h _
  · exact h

/-! ### Power comes and goes (R588-R595) -/

theorem maxReading_none (a : Option Int) : maxReading a none = a := by cases a <;> rfl

theorem hottest_of_unread {s : State} (h : s.pw.sensors = []) : hottest s = none := by
  have unread (n : Nat) : junction s n = none := by
    unfold junction sensorOf
    rw [h]
    split <;> rfl
  unfold hottest
  simp only [unread, maxReading_none]
  exact foldl_keeps (f := fun (a : Option Int) (_ : Nat) => a) (fun a => a) (fun _ _ => rfl) _ _

theorem coolEnough_of_unread {s : State} (h : s.pw.sensors = []) : coolEnough s = true := by
  unfold coolEnough
  rw [hottest_of_unread h]

/-- A start of the load rails that is due goes on where VIN and the temperatures allow it. -/
theorem loadsOn_tryRestart {s : State} (hk : s.pw.hkOn = true) (due : s.pw.restart = true) :
    (tryRestart s).pw.loadsOn = (s.pw.loadsOn || decide (40000 ≤ s.pw.vinMv ∧ s.pw.vinMv ≤ 58000 ∧ coolEnough s = true)) := by
  unfold tryRestart
  rw [hk, due, Bool.and_self, Bool.true_and]
  by_cases vin : 40000 ≤ s.pw.vinMv ∧ s.pw.vinMv ≤ 58000
  · cases cool : coolEnough s with
    | true => simp [vin]
    | false => simp
  · have cold : ¬(40000 ≤ s.pw.vinMv ∧ s.pw.vinMv ≤ 58000 ∧ coolEnough s = true) := fun ⟨lo, hi, _⟩ => vin ⟨lo, hi⟩
    rw [decide_eq_false vin, decide_eq_false cold, Bool.or_false, Bool.false_and, if_neg Bool.false_ne_true]

theorem tryRestart_of_not_due {s : State} (h : s.pw.restart = false) : tryRestart s = s := by
  simp only [tryRestart, h, Bool.and_false, Bool.false_and, Bool.false_eq_true, if_false]

theorem powerUp_of_on {s : State} (h : s.pw.hkOn = true ∨ s.pw.vinMv < 30000) : powerUp s = s := by
  have stays : (s.pw.pwrEn && !s.pw.hkOn && decide (30000 ≤ s.pw.vinMv)) = false := by
    rcases h with on | low
    · rw [on, Bool.not_true, Bool.and_false, Bool.false_and]
    · rw [decide_eq_false (by omega), Bool.and_false]
  simp only [powerUp, stays, Bool.false_eq_true, if_false]

/-- Whether an interval without power has been long enough to be a power cycle, or a free value says so (R592). -/
def cycles (s : State) : Bool :=
  s.pw.offAt.elim true (fun a => decide (a + 100000000 ≤ s.time.mono)) || (freshWord s).1.toNat % 2 == 1

/-- The module as its housekeeping domain comes up. -/
def rising (s : State) (cycle : Bool) : State :=
  { fullReset (freshWord s).2 cycle with
    pw := { (fullReset (freshWord s).2 cycle).pw with hkOn := true, loadsOn := false, pg := false, restart := true, offAt := none } }

theorem powerUp_of_off {s : State} (en : s.pw.pwrEn = true) (off : s.pw.hkOn = false) (vin : 30000 ≤ s.pw.vinMv) :
    powerUp s = tryRestart (rising s (cycles s)) := by
  have comes : (s.pw.pwrEn && !s.pw.hkOn && decide (30000 ≤ s.pw.vinMv)) = true := by rw [en, off, decide_eq_true vin]; rfl
  have rises : ∃ c, powerUp s = tryRestart (rising s c) ∧ c = cycles s := by
    unfold powerUp
    rw [if_pos comes]
    refine ⟨_, rfl, ?_⟩
    split
    · next a at_ => rw [cycles, at_, Option.elim_some]
    · next never => rw [cycles, never, Option.elim_none]
  obtain ⟨c, up, rfl⟩ := rises
  exact up

theorem cycles_of_long {s : State} (h : s.pw.offAt = none ∨ ∃ a, s.pw.offAt = some a ∧ a + 100000000 ≤ s.time.mono) : cycles s = true := by
  rcases h with never | ⟨a, at_, long⟩
  · rw [cycles, never, Option.elim_none, Bool.true_or]
  · rw [cycles, at_, Option.elim_some, decide_eq_true long, Bool.true_or]

theorem resetLeaves_rising (s : State) : ResetLeaves s (rising s (cycles s)) (cycles s) :=
  resetLeaves_setPw (resetLeaves_ofPw (x := s.pw) (Nat.le_succ s.free) (resetLeaves_fullReset (freshWord s).2 (cycles s))) _

theorem rising_pw (s : State) (c : Bool) : (rising s c).pw.hkOn = true ∧ (rising s c).pw.restart = true ∧ (rising s c).pw.loadsOn = false ∧
    (rising s c).pw.pg = false ∧ (rising s c).pw.vinMv = s.pw.vinMv ∧ (rising s c).pw.sensors = [] := ⟨rfl, rfl, rfl, rfl, rfl, rfl⟩

theorem hkOn_tryRestart (s : State) : (tryRestart s).pw.hkOn = s.pw.hkOn := by
  unfold tryRestart
  split <;> rfl

theorem pg_tryRestart {s : State} (h : s.pw.pg = s.pw.loadsOn) : (tryRestart s).pw.pg = (tryRestart s).pw.loadsOn := by
  unfold tryRestart
  split
  · rfl
  · exact h

/-- The housekeeping domain comes up: everything is reset, and the load rails start where VIN allows it. -/
theorem powerUp_spec {s : State} (en : s.pw.pwrEn = true) (off : s.pw.hkOn = false) (vin : 30000 ≤ s.pw.vinMv) :
    ResetLeaves s (powerUp s) (cycles s) ∧ (powerUp s).pw.hkOn = true ∧
    (powerUp s).pw.loadsOn = decide (40000 ≤ s.pw.vinMv ∧ s.pw.vinMv ≤ 58000) ∧ (powerUp s).pw.pg = (powerUp s).pw.loadsOn := by
  obtain ⟨hk, due, loads, pg, mv, unread⟩ := rising_pw s (cycles s)
  rw [powerUp_of_off en off vin]
  refine ⟨resetLeaves_tryRestart (resetLeaves_rising s), (hkOn_tryRestart _).trans hk, ?_, pg_tryRestart (pg.trans loads.symm)⟩
  rw [loadsOn_tryRestart hk due, loads, mv, coolEnough_of_unread unread]
  simp

/-- Every rail goes off. -/
theorem powerOff_spec {s : State} (on : s.pw.hkOn = true) : (powerOff s).pw.hkOn = false ∧ (powerOff s).pw.loadsOn = false ∧
    (powerOff s).pw.pg = false ∧ (powerOff s).pw.pwrEn = s.pw.pwrEn ∧ (powerOff s).runs = [] ∧ (powerOff s).berths = [] ∧
    (powerOff s).flash = s.flash := by
  rw [powerOff, if_pos on]
  exact ⟨rfl, rfl, rfl, rfl, rfl, rfl, rfl⟩

/-! ### A module that halts (R538) -/

theorem endLoad_keeps {β : Type} (part : State → β) (hs : ∀ u, part (withoutStop u) = part u)
    (hr : ∀ s l c p o f, part { s with landings := l, conns := c, ports := p, out := o, fc := f } = part s)
    (hl : ∀ u x, part { u with load := x } = part u) (s : State) : part (endLoad s) = part s := by
  have land (u : State) (l : Nat) (x : LandingSt) : part (setLand u l x) = part u := of_onlyRecords part hr (rfl : OnlyRecords u (setLand u l x))
  unfold endLoad
  split
  · rfl
  · dsimp only
    rw [reply, of_onlyRecords part hr (emit_only ..), land, of_withoutStop part hs (withoutStop_refitGangs _)]
    rw [foldl_keeps (f := fun (t : State) b => setLand t b { landOf t b with closed := false }) part (fun t b => land t b _), hl]

theorem haltModule_keeps {β : Type} (part : State → β) (hs : ∀ u, part (withoutStop u) = part u)
    (hr : ∀ s l c p o f, part { s with landings := l, conns := c, ports := p, out := o, fc := f } = part s)
    (hl : ∀ u x, part { u with load := x } = part u) (s : State) : part (haltModule s) = part s := by
  unfold haltModule
  dsimp only
  rw [endLoad_keeps part hs hr hl, foldl_keeps (f := fun t b => haltBerth (latchPending t b) b) part
    (fun t b => of_withoutStop part hs ((withoutStop_haltBerth ..).trans (withoutStop_latchPending ..)))]
  exact of_onlyRecords part hr rfl

theorem occ_haltModule (s : State) : (haltModule s).occ = s.occ :=
  haltModule_keeps State.occ (fun _ => rfl) (fun _ _ _ _ _ _ => rfl) (fun _ _ => rfl) s

theorem pw_haltModule (s : State) : (haltModule s).pw = s.pw :=
  haltModule_keeps State.pw (fun _ => rfl) (fun _ _ _ _ _ _ => rfl) (fun _ _ => rfl) s

/-! ### Shutdown and orderly stop (R589-R591) -/

/-- What the power unit shows of the rails, and whether the module has halted. -/
def supply (s : State) : Bool × Bool × Nat × Nat × Bool := (s.pw.loadsOn, s.pw.pg, s.pw.state, s.pw.scause, s.fc.halt)

theorem loseLoads_keeps {β : Type} (part : State → β) (hd : ∀ u d x, part (setDeck u d x) = part u)
    (hm : ∀ u f h c, part { u with free := f, hbm := h, cmdMem := c } = part u) (s : State) : part (loseLoads s) = part s := by
  unfold loseLoads
  dsimp only
  rw [foldl_keeps part (fun t d => hd t d _)]
  exact hm s _ _ _

/-- The module as its load rails go off. -/
def shutting (s : State) (cause : Nat) : State :=
  { haltModule s with pw := { (haltModule s).pw with state := 3, scause := cause, loadsOn := false, pg := false, restart := false } }

theorem occ_shutting (s : State) (cause : Nat) : (shutting s cause).occ = s.occ := by
  have occ := occ_haltModule s
  unfold shutting
  generalize haltModule s = u at occ
  exact occ

theorem supply_shutting (s : State) (cause : Nat) : supply (shutting s cause) = (false, false, 3, cause, true) := by
  have halt := halt_haltModule s
  unfold shutting supply
  generalize haltModule s = u at halt
  rw [halt]

theorem occ_alertSet (s : State) (i : Nat) : (alertSet s i).occ = s.occ := rfl

theorem supply_alertSet (s : State) (i : Nat) : supply (alertSet s i) = supply s := rfl

theorem shutdown_of_off {s : State} (h : s.pw.loadsOn = false) (cause : Nat) : shutdown s cause = s := by
  simp only [shutdown, h, Bool.not_false, if_true]

theorem shutdown_of_on {s : State} (h : s.pw.loadsOn = true) (cause : Nat) :
    shutdown s cause = alertSet (loseLoads (portsOff (shutting s cause))) 6 := by
  simp only [shutdown, h, Bool.not_true, Bool.false_eq_true, if_false, shutting]

/-- What has been raised stays on its way through a shutdown. -/
theorem mem_occ_shutdown {s : State} {x : Occ} (hx : x ∈ s.occ) (cause : Nat) : x ∈ (shutdown s cause).occ := by
  cases on : s.pw.loadsOn with
  | false => rwa [shutdown_of_off on]
  | true =>
    rw [shutdown_of_on on]
    rw [occ_alertSet, loseLoads_keeps State.occ (fun _ _ _ => rfl) (fun _ _ _ _ => rfl)]
    refine (grows_portsOff (shutting s cause)).mem ?_
    rw [occ_shutting]
    exact hx

theorem shutDown_shutdown {s : State} (on : s.pw.loadsOn = true) (cause : Nat) : ShutDown (shutdown s cause) cause := by
  have kept : supply (shutdown s cause) = (false, false, 3, cause, true) := by
    rw [shutdown_of_on on, supply_alertSet, loseLoads_keeps supply (fun _ _ _ => rfl) (fun _ _ _ _ => rfl),
      of_withoutPorts supply (fun _ => rfl) (grows_portsOff _).kept, supply_shutting]
  simp only [supply, Prod.mk.injEq] at kept
  obtain ⟨loads, pg, state, scause, halt⟩ := kept
  exact ⟨halt, loads, pg, state, scause⟩

/-- No start of the load rails is due after a shutdown. -/
theorem restart_shutdown {s : State} (on : s.pw.loadsOn = true) (cause : Nat) : (shutdown s cause).pw.restart = false := by
  have shut : (shutting s cause).pw.restart = false := by
    unfold shutting
    generalize haltModule s = u
    rfl
  have alert (u : State) (i : Nat) : (alertSet u i).pw.restart = u.pw.restart := rfl
  rw [shutdown_of_on on, alert, loseLoads_keeps (fun u => u.pw.restart) (fun _ _ _ => rfl) (fun _ _ _ _ => rfl),
    of_withoutPorts (fun u => u.pw.restart) (fun _ => rfl) (grows_portsOff _).kept, shut]

/-- An orderly stop of a module that runs halts it, and takes none of its rails or occurrences. -/
theorem orderlyStop_spec (s : State) (cause : Nat) : (orderlyStop s cause).occ = s.occ ∧ (orderlyStop s cause).pw.loadsOn = s.pw.loadsOn ∧
    (s.pw.loadsOn = true → s.pw.state = 1 →
      (orderlyStop s cause).fc.halt = true ∧ (orderlyStop s cause).pw.state = 2 ∧ (orderlyStop s cause).pw.scause = cause) := by
  have occ := occ_haltModule s
  have loads : (haltModule s).pw.loadsOn = s.pw.loadsOn := by rw [pw_haltModule]
  have halt := halt_haltModule s
  unfold orderlyStop
  generalize haltModule s = u at occ loads halt
  split
  · next stopped => exact ⟨rfl, rfl, fun on ran => by simp [on, ran] at stopped⟩
  · exact ⟨occ, loads, fun _ _ => ⟨halt, rfl, rfl⟩⟩

/-- What the power unit raises. -/
theorem powerRaised {t : State} {s : State} {code detail : Nat} (small : detail < 2 ^ 64) (h : chipOcc s 3 code detail ∈ t.occ) :
    PowerRaised t code detail := ⟨_, h, rfl, toNat_detail small⟩

theorem mem_occ_raiseChip (s : State) (unit code detail : Nat) : chipOcc s unit code detail ∈ (raiseChip s unit code detail).occ :=
  List.mem_append_right _ (List.mem_singleton_self _)

/-! ### A deck's rail (R596) -/

theorem occ_fenceDeck (s : State) (d : Nat) (source : BitVec 16) : (fenceDeck s d source).occ = s.occ := by
  have masked (u : State) : (maskDeck u d).occ = u.occ := by
    unfold maskDeck
    dsimp only
    rw [of_withoutFlight State.occ (fun _ => rfl) (withoutFlight_issueAll _)]
    rfl
  unfold fenceDeck
  split
  · rfl
  · split
    · exact masked s
    · refine (of_withoutStop State.occ (fun _ => rfl) (withoutStop_refitGangs _)).trans ((masked _).trans ?_)
      split
      · exact of_withoutStop State.occ (fun _ => rfl) ((withoutStop_latchEnd ..).trans (withoutStop_latchPending ..))
      · rfl

/-- A source of level 0 or 1 whose class is FENCE fences its deck at once. -/
theorem fenceNow_of_deck {s : State} {level d code : Nat} (hl : level < 2) (hd : d < 16) (hc : code < 256) :
    fenceNow s (sourceId level d code) = if faultClass s code = 3 then fenceDeck s d (sourceId level d code) else s := by
  have source : (sourceId level d code).toNat = level * 16384 + d * 256 + code := toNat_sourceId (by omega) (by omega) hc
  have code_ : (level * 16384 + d * 256 + code) % 256 = code := by omega
  have unit : (level * 16384 + d * 256 + code) / 256 % 64 = d := by omega
  have level_ : (level * 16384 + d * 256 + code) / 16384 = level := by omega
  have deck : level = 0 ∨ level = 1 := by omega
  rw [fenceNow, source, code_, fenceUnit]
  dsimp only
  rw [source, unit, level_, if_pos deck]

/-! ### The obligation -/

/-- The module after RESET_N, while its load rails are off: a start of them is due. -/
def waitingReset (s : State) : State :=
  { fullReset s false with
    pw := { (fullReset s false).pw with restart := true, sensors := s.pw.sensors.map (fun e => (e.1, { val := e.2.val })) } }

theorem resetNAssert_spec (s : State) : (s.pw.hkOn = false → exec .resetNAssert s = .next s) ∧
    (s.pw.hkOn = true → s.pw.loadsOn = true → ∃ t, exec .resetNAssert s = .next t ∧ ResetLeaves s t false ∧ t.pw.loadsOn = true) ∧
    (s.pw.hkOn = true → s.pw.loadsOn = false → ∃ t u, exec .resetNAssert s = .next t ∧ ResetLeaves s t false ∧ u.fitted = s.fitted ∧
      u.pw.sensors = s.pw.sensors.map (fun e => (e.1, { val := e.2.val })) ∧
      (t.pw.loadsOn = decide (40000 ≤ s.pw.vinMv ∧ s.pw.vinMv ≤ 58000 ∧ coolEnough u = true))) := by
  have run : exec .resetNAssert s = .next (if !s.pw.hkOn then s else if s.pw.loadsOn then fullReset s false else tryRestart (waitingReset s)) := rfl
  rw [run]
  refine ⟨fun off => ?_, fun hk on => ⟨fullReset s false, ?_, resetLeaves_fullReset s false, on⟩, fun hk off =>
    ⟨tryRestart (waitingReset s), waitingReset s, ?_, resetLeaves_tryRestart (resetLeaves_setPw (resetLeaves_fullReset s false) _), rfl, rfl, ?_⟩⟩
  · rw [off]
    rfl
  · rw [hk, on]
    rfl
  · rw [hk, off]
    rfl
  · have loads : (waitingReset s).pw.loadsOn = false := off
    have vin : (waitingReset s).pw.vinMv = s.pw.vinMv := rfl
    rw [loadsOn_tryRestart (s := waitingReset s) hk rfl, loads, vin, Bool.false_or]

/-- VIN has been measured. -/
def measured (s : State) (mv : Nat) : State := { s with pw := { s.pw with vinMv := mv } }

/-- PWR_EN has been asserted. -/
def enabled (s : State) (mv : Nat) : State := { s with pw := { s.pw with pwrEn := true, vinMv := mv } }

theorem pwrEnAssert_spec (s : State) (mv : Nat) :
    (s.pw.hkOn = true ∨ mv < 30000 → exec (.pwrEnAssert mv) s = .next { s with pw := { s.pw with pwrEn := true, vinMv := mv } }) ∧
    (s.pw.hkOn = false → 30000 ≤ mv → ∃ t cycle, exec (.pwrEnAssert mv) s = .next t ∧ ResetLeaves s t cycle ∧ t.pw.hkOn = true ∧
      t.pw.loadsOn = decide (40000 ≤ mv ∧ mv ≤ 58000) ∧ t.pw.pg = t.pw.loadsOn ∧ (s.pw.offAt = none → cycle = true) ∧
      (∀ a, s.pw.offAt = some a → a + 100000000 ≤ s.time.mono → cycle = true)) := by
  refine ⟨fun stays => congrArg Host.Outcome.next (powerUp_of_on stays), fun off vin => ?_⟩
  obtain ⟨reset, hk, loads, pg⟩ := powerUp_spec (s := enabled s mv) rfl off vin
  exact ⟨powerUp (enabled s mv), cycles (enabled s mv), rfl, resetLeaves_ofPw (Nat.le_refl _) reset, hk, loads, pg,
    fun never => cycles_of_long (.inl never), fun a at_ long => cycles_of_long (.inr ⟨a, at_, long⟩)⟩

theorem pwrEnDeassert_spec (s : State) (mv : Nat) :
    (s.pw.hkOn = true → ∀ v, v = none ∨ (∃ n, v = some n ∧ n < 30000) → ∃ t, exec (.pwrEnDeassert v) s = .next t ∧ t.pw.hkOn = false ∧
      t.pw.loadsOn = false ∧ t.pw.pg = false ∧ t.pw.pwrEn = (s.pw.pwrEn && v.isSome) ∧ t.runs = [] ∧ t.berths = [] ∧ t.flash = s.flash) ∧
    (30000 ≤ mv → exec (.pwrEnDeassert (some mv)) s = .next s) := by
  refine ⟨fun on v hv => ?_, fun high => ?_⟩
  · rcases hv with rfl | ⟨n, rfl, low⟩
    · obtain ⟨hk, loads, pg, en, runs, berths, flash⟩ := powerOff_spec (s := { s with pw := { s.pw with pwrEn := false } }) on
      exact ⟨_, rfl, hk, loads, pg, en.trans (Bool.and_false _).symm, runs, berths, flash⟩
    · obtain ⟨hk, loads, pg, en, runs, berths, flash⟩ := powerOff_spec (s := measured s n) on
      exact ⟨_, congrArg Host.Outcome.next (if_pos low), hk, loads, pg, en.trans (Bool.and_true _).symm, runs, berths, flash⟩
  · exact congrArg Host.Outcome.next (if_neg (by omega))

/-- What the fast throttle notes of an input that rises. -/
def recovered (s : State) (mv : Nat) : Power :=
  { s.pw with vinMv := mv, fastAt := if s.pw.vinMv < 40000 ∧ 0 < s.pw.qFast then some s.time.mono else s.pw.fastAt }

theorem exec_vinRecovers (s : State) (mv : Nat) : exec (.vinRecovers mv) s = .next (tryRestart (powerUp { s with pw := recovered s mv })) := by
  show Host.Outcome.next (tryRestart (powerUp { fastUntil s with pw := { (fastUntil s).pw with vinMv := mv } })) = _
  unfold fastUntil recovered
  by_cases fast : s.pw.vinMv < 40000 ∧ 0 < s.pw.qFast
  · rw [if_pos fast, if_pos fast]
  · rw [if_neg fast, if_neg fast]

theorem vinRecovers_spec (s : State) (mv : Nat) :
    (∀ u, s.pw.hkOn = true → s.pw.restart = false →
      u = { s.pw with vinMv := mv, fastAt := if s.pw.vinMv < 40000 ∧ 0 < s.pw.qFast then some s.time.mono else s.pw.fastAt } →
      exec (.vinRecovers mv) s = .next { s with pw := u }) ∧
    (s.pw.hkOn = true → s.pw.restart = true → coolEnough s = true → ∃ t, exec (.vinRecovers mv) s = .next t ∧
      t.pw.loadsOn = (s.pw.loadsOn || decide (40000 ≤ mv ∧ mv ≤ 58000)) ∧
      t = { s with pw := t.pw, boot := { s.boot with phaseAt := t.boot.phaseAt } }) ∧
    (s.pw.hkOn = false → s.pw.pwrEn = true → 30000 ≤ mv → ∃ t cycle, exec (.vinRecovers mv) s = .next t ∧ ResetLeaves s t cycle ∧
      t.pw.hkOn = true) := by
  refine ⟨fun u on quiet hu => ?_, fun on due cool => ?_, fun off en vin => ?_⟩
  · subst hu
    rw [exec_vinRecovers, powerUp_of_on (s := { s with pw := recovered s mv }) (.inl on), tryRestart_of_not_due (s := { s with pw := recovered s mv }) quiet]
    rfl
  · have cool' : coolEnough { s with pw := recovered s mv } = true := cool
    refine ⟨_, (exec_vinRecovers s mv).trans (congrArg (fun u => Host.Outcome.next (tryRestart u)) (powerUp_of_on (.inl on))), ?_, ?_⟩
    · rw [loadsOn_tryRestart (s := { s with pw := recovered s mv }) on due, cool']
      simp [recovered]
    · unfold tryRestart
      split <;> rfl
  · obtain ⟨reset, hk, -, -⟩ := powerUp_spec (s := { s with pw := recovered s mv }) en off vin
    exact ⟨_, _, exec_vinRecovers s mv, resetLeaves_tryRestart (resetLeaves_ofPw (Nat.le_refl _) reset), (hkOn_tryRestart _).trans hk⟩

/-- An input that is supervised: nothing while the housekeeping domain is off or the limit is not passed, else what the fault brings. -/
theorem supervised {s t : State} {c : Instr} {on past : Bool} (run : exec c s = .next (if on && past then t else s)) :
    (on = false ∨ past = false → exec c s = .next s) ∧ (on = true → past = true → exec c s = .next t) := by
  refine ⟨fun none => ?_, fun h k => by rw [run, h, k]; rfl⟩
  rcases none with h | h
  · rw [run, h]
    rfl
  · rw [run, h, Bool.and_false]
    rfl

theorem deckPwr_spec (s : State) (d r : Fin 16) : (s.pw.loadsOn = false ∨ deckFenced s d = true → exec (.deckPwr d r) s = .next s) ∧
    (s.pw.loadsOn = true → deckFenced s d = false → ∃ t x, exec (.deckPwr d r) s = .next t ∧ x ∈ t.occ ∧ x.source = sourceId 1 d 0x0F ∧
      (faultClass s 0x0F = 3 → deckFenced t d = true)) := by
  obtain ⟨quiet, fails⟩ := supervised (s := s) (c := .deckPwr d r) (on := s.pw.loadsOn) (past := !deckFenced s d.val)
    (t := fenceNow (raiseDeck s 1 d.val 0x0F r.val) (sourceId 1 d.val 0x0F)) rfl
  refine ⟨fun h => quiet (h.imp_right fun fenced => by rw [fenced]; rfl), fun on free => ?_⟩
  obtain ⟨b, task, occ⟩ := occ_raiseDeck s 1 d.val 0x0F r.val
  have class_ : faultClass (raiseDeck s 1 d.val 0x0F r.val) 0x0F = faultClass s 0x0F := raiseDeck_keeps (fun u => faultClass u 0x0F) (fun _ _ _ => rfl) ..
  refine ⟨_, raisedOcc s 1 d.val 0x0F b task r.val, fails on (by rw [free]; rfl), ?_, rfl, fun fences => ?_⟩
  · rw [fenceNow_of_deck (by decide) d.isLt (by decide), apply_ite State.occ, occ_fenceDeck, ite_self, occ]
    exact List.mem_append_right _ (List.mem_singleton_self _)
  · rw [fenceNow_of_deck (by decide) d.isLt (by decide), if_pos (class_.trans fences)]
    exact deckFenced_fenceDeck ..

/-- Settles O52: RESET_N, PWR_EN and VIN, and what the supervision of the input and the rails does. -/
theorem resetsAndSupplyAreSupervised : Obligations.ResetsAndSupplyAreSupervised := by
  unfold Obligations.ResetsAndSupplyAreSupervised
  intro s mv
  obtain ⟨reset1, reset2, reset3⟩ := resetNAssert_spec s
  obtain ⟨assert1, assert2⟩ := pwrEnAssert_spec s mv
  obtain ⟨off1, off2⟩ := pwrEnDeassert_spec s mv
  obtain ⟨vin1, vin2, vin3⟩ := vinRecovers_spec s mv
  obtain ⟨ov1, ov2⟩ := supervised (s := s) (c := .vinOv mv) (on := s.pw.hkOn) (past := decide (60000 < mv))
    (t := shutdown (raiseChip (measured s mv) 3 0x80 (mv % 2 ^ 17)) 1) rfl
  obtain ⟨uv1, uv2⟩ := supervised (s := s) (c := .vinUv mv) (on := s.pw.hkOn) (past := decide (mv < 39000))
    (t := orderlyStop (raiseChip (measured s mv) 3 0x81 mv) 2) rfl
  obtain ⟨bo1, bo2⟩ := supervised (s := s) (c := .vinBrownout mv) (on := s.pw.hkOn) (past := decide (mv < 36000))
    (t := shutdown (raiseChip (measured s mv) 3 0x81 (mv + 2 ^ 16)) 2) rfl
  refine ⟨reset1, reset2, reset3, assert1, assert2, off1, off2, vin1, vin2, vin3,
    fun h => ov1 (h.imp_right fun k => decide_eq_false (by omega)), fun on past => ⟨_, ov2 on (decide_eq_true past), ?_, fun loads => ?_⟩,
    fun h => uv1 (h.imp_right fun k => decide_eq_false (by omega)), fun on past => ⟨_, uv2 on (decide_eq_true past), ?_⟩,
    fun h => bo1 (h.imp_right fun k => decide_eq_false (by omega)), fun on past => ⟨_, bo2 on (decide_eq_true past), ?_, fun loads => ?_⟩,
    fun i j h => ?_, fun d r => deckPwr_spec s d r⟩
  · exact powerRaised (by omega) (mem_occ_shutdown (mem_occ_raiseChip ..) 1)
  · exact shutDown_shutdown (s := raiseChip (measured s mv) 3 0x80 (mv % 2 ^ 17)) loads 1
  · obtain ⟨occ, rails, stops⟩ := orderlyStop_spec (raiseChip (measured s mv) 3 0x81 mv) 2
    exact ⟨powerRaised (by omega) (occ ▸ mem_occ_raiseChip ..), rails, stops⟩
  · exact powerRaised (by omega) (mem_occ_shutdown (mem_occ_raiseChip ..) 2)
  · exact shutDown_shutdown (s := raiseChip (measured s mv) 3 0x81 (mv + 2 ^ 16)) loads 2
  · obtain ⟨quiet, fails⟩ := supervised (s := s) (c := .railFail i j h) (on := s.pw.hkOn) (past := s.pw.loadsOn)
      (t := shutdown (raiseChip s 3 0x86 ((i.val + 1) * 4 + j.val + flagAt h 8)) 4) rfl
    have detail : (i.val + 1) * 4 + j.val + flagAt h 8 = (i.val + 1) * 4 + j.val + if h then 256 else 0 := rfl
    refine ⟨quiet, fun on loads => ⟨_, fails on loads, ?_, shutDown_shutdown (s := raiseChip s 3 0x86 _) loads 4⟩⟩
    rw [detail]
    refine powerRaised ?_ (mem_occ_shutdown (mem_occ_raiseChip ..) 4)
    split <;> omega

end Sys2Proof.Proofs
end


section
/-! Throttling, the sensors, the reference clock and the wear monitors (R597-R608). -/

namespace Sys2Proof.Proofs

open Sys2Proof Sys2Proof.Machine Sys2Proof.Safety Sys2Proof.Laws

/-! ### Throttling (R597-R600) -/

theorem toNat_satInc16 (w : BitVec 16) : (satInc16 w).toNat = min (w.toNat + 1) 65535 := by
  rw [satInc16, BitVec.toNat_ofNat]
  exact Nat.mod_eq_of_lt (by omega)

/-- An entry of a source is counted and shown, and may be reported. -/
structure Entered (s t : State) : Prop where
  only : t = { s with pw := t.pw, fc := t.fc, occ := t.occ }
  levels : (t.pw.watts, t.pw.qLim, t.pw.qFast, t.pw.qTh, t.pw.vinMv, t.pw.fastHeld, t.pw.restart) =
    (s.pw.watts, s.pw.qLim, s.pw.qFast, s.pw.qTh, s.pw.vinMv, s.pw.fastHeld, s.pw.restart)
  sensors : t.pw.sensors = s.pw.sensors
  occ : ∀ x ∈ s.occ, x ∈ t.occ

theorem Entered.refl (s : State) : Entered s s := ⟨rfl, rfl, rfl, fun _ h => h⟩

/-- What an entry counts: that of the power sources, and that of the thermal one. -/
def events (s : State) : BitVec 16 × BitVec 16 := (s.pw.evPower, s.pw.evTherm)

theorem powerEntry_spec (s : State) (fast over_ : Bool) : Entered s (powerEntry s fast over_) ∧
    events (powerEntry s fast over_) = (satInc16 s.pw.evPower, s.pw.evTherm) := by
  unfold powerEntry
  dsimp only
  split
  · exact ⟨⟨rfl, rfl, rfl, fun x hx => List.mem_append_left _ hx⟩, rfl⟩
  · exact ⟨⟨rfl, rfl, rfl, fun x hx => hx⟩, rfl⟩

theorem thermEntry_spec (s : State) : Entered s (thermEntry s) ∧ events (thermEntry s) = (s.pw.evPower, satInc16 s.pw.evTherm) := by
  unfold thermEntry
  dsimp only
  split
  · exact ⟨⟨rfl, rfl, rfl, fun x hx => List.mem_append_left _ hx⟩, rfl⟩
  · exact ⟨⟨rfl, rfl, rfl, fun x hx => hx⟩, rfl⟩

theorem Entered.trans {s t u : State} (h : Entered s t) (k : Entered t u) : Entered s u :=
  ⟨by rw [k.only, h.only], k.levels.trans h.levels, k.sensors.trans h.sensors, fun x hx => k.occ x (h.occ x hx)⟩

/-- The levels after a tick. -/
def ticking (s : State) (w : Nat) : State :=
  { s with pw := { s.pw with
    tickAt := some s.time.mono
    watts := BitVec.ofNat 16 (min w 0xFFFF)
    qLim := nextLim s.pw.qLim (min w 0xFFFF) (regBits s (pwBase + 4) 15 0)
    qTh := nextTh s.pw.qTh (hottest s) } }

/-- The entry of the limit source, and after it that of the thermal source. -/
def limEntry (s : State) (w : Nat) : State :=
  if s.pw.qLim = 0 ∧ 0 < nextLim s.pw.qLim (min w 0xFFFF) (regBits s (pwBase + 4) 15 0) then powerEntry (ticking s w) false false else ticking s w

def thEntry (s u : State) : State := if s.pw.qTh = 0 ∧ 0 < nextTh s.pw.qTh (hottest s) then thermEntry u else u

theorem throttleTick_eq (s : State) (w : Nat) :
    throttleTick { s with pw := { s.pw with tickAt := some s.time.mono } } w = thEntry s (limEntry s w) := rfl

theorem limEntry_spec (s : State) (w : Nat) : Entered (ticking s w) (limEntry s w) ∧
    (limEntry s w).pw.evTherm = s.pw.evTherm ∧
    (limEntry s w).pw.evPower.toNat = if s.pw.qLim = 0 ∧ 0 < nextLim s.pw.qLim (min w 0xFFFF) (regBits s (pwBase + 4) 15 0)
      then min (s.pw.evPower.toNat + 1) 65535 else s.pw.evPower.toNat := by
  unfold limEntry
  split
  · obtain ⟨entered, counted⟩ := powerEntry_spec (ticking s w) false false
    exact ⟨entered, congrArg Prod.snd counted, (congrArg (fun e => e.1.toNat) counted).trans (toNat_satInc16 _)⟩
  · exact ⟨.refl _, rfl, rfl⟩

theorem thEntry_spec (s u : State) : Entered u (thEntry s u) ∧ (thEntry s u).pw.evPower = u.pw.evPower ∧
    (thEntry s u).pw.evTherm.toNat = if s.pw.qTh = 0 ∧ 0 < nextTh s.pw.qTh (hottest s)
      then min (u.pw.evTherm.toNat + 1) 65535 else u.pw.evTherm.toNat := by
  unfold thEntry
  split
  · obtain ⟨entered, counted⟩ := thermEntry_spec u
    exact ⟨entered, congrArg Prod.fst counted, (congrArg (fun e => e.2.toNat) counted).trans (toNat_satInc16 _)⟩
  · exact ⟨.refl _, rfl, rfl⟩

/-- A tick steps both levels by their rules, and counts the entries of their sources. -/
theorem throttleTick_spec (s : State) {w : Nat} (hw : w ≤ 65535) : ∃ t, throttleTick { s with pw := { s.pw with tickAt := some s.time.mono } } w = t ∧
    t.pw.watts.toNat = w ∧ t.pw.qFast = s.pw.qFast ∧ t.pw.qLim = nextLim s.pw.qLim w (regBits s (pwBase + 4) 15 0) ∧
    t.pw.qTh = nextTh s.pw.qTh (hottest s) ∧
    t.pw.evPower.toNat = (if s.pw.qLim = 0 ∧ 0 < t.pw.qLim then min (s.pw.evPower.toNat + 1) 65535 else s.pw.evPower.toNat) ∧
    t.pw.evTherm.toNat = (if s.pw.qTh = 0 ∧ 0 < t.pw.qTh then min (s.pw.evTherm.toNat + 1) 65535 else s.pw.evTherm.toNat) ∧
    t = { s with pw := t.pw, fc := t.fc, occ := t.occ } := by
  have small : min w 0xFFFF = w := by omega
  obtain ⟨lim, therm, power⟩ := limEntry_spec s w
  obtain ⟨th, power', therm'⟩ := thEntry_spec s (limEntry s w)
  have all := lim.trans th
  have levels := all.levels
  simp only [ticking, Prod.mk.injEq] at levels
  obtain ⟨watts, qLim, qFast, qTh, -, -, -⟩ := levels
  refine ⟨_, throttleTick_eq s w, ?_, qFast, ?_, qTh, ?_, ?_, ?_⟩
  · rw [watts, small, BitVec.toNat_ofNat]
    exact Nat.mod_eq_of_lt (by omega)
  · rw [qLim, small]
  · rw [qLim, power', power]
  · rw [qTh, therm', therm]
  · exact all.only

theorem nextTh_none (q : Nat) : nextTh q none = q := rfl

theorem nextTh_some (q : Nat) (v : Int) : nextTh q (some v) = if 100 ≤ v then min 56 (q + 2) else if v ≤ 97 then q - 1 else q := rfl

/-- A fast trigger sets the level of the fast source to 32. -/
theorem fastThrottle_spec (s : State) (over_ : Bool) : Entered { s with pw := { s.pw with qFast := 32, fastAt := some s.time.mono } } (fastThrottle s over_) := by
  unfold fastThrottle
  dsimp only
  split
  · exact (powerEntry_spec _ true over_).1
  · exact .refl _

/-! ### Sensors (R601-R605) -/

theorem sensorOf_setSensor (s : State) (n j : Nat) (x : Sensor) : sensorOf (setSensor s n x) j = if n = j then x else sensorOf s j := tget_tput ..

theorem sensorOf_setSensor_same (s : State) (n : Nat) (x : Sensor) : sensorOf (setSensor s n x) n = x := (sensorOf_setSensor ..).trans (if_pos rfl)

/-- A reading is noted with its moment. -/
def readNow (s : State) (n : Nat) : State := setSensor s n { sensorOf s n with readAt := some s.time.mono }

section
variable {s : State} {n : Nat} {raw : Int}

/-- A sensor that is off, fenced off by its failures or not due is not read. -/
theorem sensorReading_of_quiet (h : sensorFitted s n = false ∨ (sensorOf s n).failed = true ∨ due s (sensorOf s n).readAt (sensorPeriod n) = false) :
    sensorReading s n raw = s := by
  have quiet : (!s.pw.hkOn || !sensorFitted s n || (sensorOf s n).failed || !due s (sensorOf s n).readAt (sensorPeriod n)) = true := by
    rcases h with h | h | h <;> simp [h]
  rw [sensorReading, if_pos quiet]

/-- A reading that is due: accepted or discarded, and where no start of the rails is due that is all. -/
theorem sensorReading_of_due (on : s.pw.hkOn = true) (fitted : sensorFitted s n = true) (works : (sensorOf s n).failed = false)
    (late : due s (sensorOf s n).readAt (sensorPeriod n) = true) : sensorReading s n raw =
      tryRestart (if plausible (sensorOf s n) n raw then acceptReading (readNow s n) n raw else discardReading (readNow s n) n raw) := by
  have same : plausible { sensorOf s n with readAt := some s.time.mono } n raw = plausible (sensorOf s n) n raw := rfl
  have loud : (!s.pw.hkOn || !sensorFitted s n || (sensorOf s n).failed || !due s (sensorOf s n).readAt (sensorPeriod n)) = false := by
    rw [on, fitted, works, late]
    rfl
  unfold sensorReading
  dsimp only
  rw [loud, if_neg Bool.false_ne_true, sensorOf_setSensor_same, same]
  rfl

/-- How often in a row a junction has been at or above 110 °C. -/
def hotRow (x : Sensor) (v : Int) : Nat := if 110 ≤ v then x.hot + 1 else 0

theorem junctionRead_of_cool (h : hotRow (sensorOf s n) raw ≠ 2) :
    junctionRead s n raw = setSensor s n { sensorOf s n with hot := hotRow (sensorOf s n) raw } := by
  unfold hotRow at h ⊢
  unfold junctionRead
  dsimp only
  rw [if_neg h]

theorem junctionRead_of_hot (h : hotRow (sensorOf s n) raw = 2) : junctionRead s n raw =
    shutdown (raiseChip (setSensor s n { sensorOf s n with hot := 2 }) 3 0x84 (raw.toNat % 256 + sensorDie n * 2 ^ 8 + n * 2 ^ 16)) 3 := by
  unfold hotRow at h
  unfold junctionRead
  dsimp only
  rw [if_pos h, h]

/-- The inlet has been read: only the power unit notes it, and no sensor. -/
theorem inletRead_only (s : State) (v : Int) : ∃ x, inletRead s v = { s with pw := x } ∧ x.sensors = s.pw.sensors ∧ x.restart = s.pw.restart := by
  unfold inletRead
  split
  · exact ⟨_, rfl, rfl, rfl⟩
  · dsimp only
    split
    · exact ⟨_, rfl, rfl, rfl⟩
    · exact ⟨_, rfl, rfl, rfl⟩

/-- A reading accepted, before what it means for its kind of sensor. -/
def takenReading (s : State) (n : Nat) (raw : Int) : State := setSensor s n { sensorOf s n with val := some raw, bad := 0 }

/-- What an accepted reading leaves, where no junction has been hot twice. -/
structure ReadingTaken (s t : State) (n : Nat) (raw : Int) : Prop where
  val : (sensorOf t n).val = some raw
  bad : (sensorOf t n).bad = 0
  vin : n = 24 → t.pw.vin = BitVec.ofInt 17 raw
  iin : n = 25 → t.pw.iin = BitVec.ofInt 16 raw
  only : t = { s with pw := t.pw }
  restart : t.pw.restart = s.pw.restart

theorem acceptReading_spec (cool : n < 24 → raw < 110 ∨ (sensorOf s n).hot = 0) : ReadingTaken s (acceptReading s n raw) n raw := by
  have taken : sensorOf (takenReading s n raw) n = { sensorOf s n with val := some raw, bad := 0 } := sensorOf_setSensor_same ..
  have accepted : acceptReading s n raw = if n < 24 then junctionRead (takenReading s n raw) n raw
      else if n = 24 then { takenReading s n raw with pw := { (takenReading s n raw).pw with vin := BitVec.ofInt 17 raw } }
      else if n = 25 then { takenReading s n raw with pw := { (takenReading s n raw).pw with iin := BitVec.ofInt 16 raw } }
      else if n = 26 then inletRead (takenReading s n raw) raw
      else takenReading s n raw := rfl
  rw [accepted]
  split
  · next junction =>
    have row : hotRow (sensorOf (takenReading s n raw) n) raw ≠ 2 := by
      rw [taken, hotRow]
      dsimp only
      rcases cool junction with below | first
      · rw [if_neg (by omega)]
        decide
      · split <;> omega
    rw [junctionRead_of_cool row]
    have read := sensorOf_setSensor_same (takenReading s n raw) n
      { sensorOf (takenReading s n raw) n with hot := hotRow (sensorOf (takenReading s n raw) n) raw }
    exact ⟨by rw [read, taken], by rw [read, taken], fun _ => by omega, fun _ => by omega, rfl, rfl⟩
  · split
    · exact ⟨congrArg Sensor.val taken, congrArg Sensor.bad taken, fun _ => rfl, fun _ => by omega, rfl, rfl⟩
    · split
      · exact ⟨congrArg Sensor.val taken, congrArg Sensor.bad taken, fun _ => by omega, fun _ => rfl, rfl, rfl⟩
      · split
        · obtain ⟨x, only, sensors, restart⟩ := inletRead_only (takenReading s n raw) raw
          have read : sensorOf { takenReading s n raw with pw := x } n = sensorOf (takenReading s n raw) n := by
            unfold sensorOf
            rw [sensors]
          rw [only]
          exact ⟨by rw [read, taken], by rw [read, taken], fun _ => by omega, fun _ => by omega, rfl, restart⟩
        · exact ⟨congrArg Sensor.val taken, congrArg Sensor.bad taken, fun _ => by omega, fun _ => by omega, rfl, rfl⟩

/-- A raise that shuts the module down. -/
theorem shutdown_raiseChip (s : State) (on : s.pw.loadsOn = true) (code detail cause : Nat) (small : detail < 2 ^ 64) :
    ShutDown (shutdown (raiseChip s 3 code detail) cause) cause ∧ PowerRaised (shutdown (raiseChip s 3 code detail) cause) code detail ∧
    (shutdown (raiseChip s 3 code detail) cause).pw.restart = false := by
  have raised := mem_occ_raiseChip s 3 code detail
  have loads : (raiseChip s 3 code detail).pw.loadsOn = true := on
  generalize raiseChip s 3 code detail = u at raised loads
  exact ⟨shutDown_shutdown loads cause, powerRaised small (mem_occ_shutdown raised cause), restart_shutdown loads cause⟩

/-- The second junction reading in a row at or above 110 °C shuts the module down (R602). -/
theorem acceptReading_of_hot (junction : n < 24) (hot : 110 ≤ raw) (second : (sensorOf s n).hot = 1) (loads : s.pw.loadsOn = true) :
    ShutDown (acceptReading s n raw) 3 ∧ PowerRaised (acceptReading s n raw) 0x84 (raw.toNat % 256 + sensorDie n * 256 + n * 65536) ∧
    (acceptReading s n raw).pw.restart = false := by
  have accepted : acceptReading s n raw = junctionRead (takenReading s n raw) n raw := if_pos junction
  have taken : sensorOf (takenReading s n raw) n = { sensorOf s n with val := some raw, bad := 0 } := sensorOf_setSensor_same ..
  have row : hotRow (sensorOf (takenReading s n raw) n) raw = 2 := by
    rw [taken, hotRow, if_pos hot]
    dsimp only
    rw [second]
  have die : sensorDie n ≤ 3 := by
    unfold sensorDie
    repeat' split
    all_goals omega
  rw [accepted, junctionRead_of_hot row]
  exact shutdown_raiseChip (setSensor (takenReading s n raw) n _) loads 0x84 _ 3 (by omega)

/-- A discarded reading leaves the last value; the third in a row fails the sensor (R605). -/
theorem discardReading_of_few (few : (sensorOf s n).bad < 2) :
    discardReading s n raw = setSensor s n { sensorOf s n with bad := (sensorOf s n).bad + 1 } := by
  unfold discardReading
  dsimp only
  rw [if_pos few]

/-- A sensor that fails, before what both sensors of the input together mean. -/
def failedSensor (s : State) (n : Nat) (raw : Int) : State :=
  raiseChip (setSensor s n { sensorOf s n with bad := 3, failed := true }) 3 0x85 (n + unsigned 32 raw * 2 ^ 16)

theorem failedSensor_spec (s : State) (n : Nat) (raw : Int) : (sensorOf (failedSensor s n raw) n).failed = true ∧
    chipOcc (setSensor s n { sensorOf s n with bad := 3, failed := true }) 3 0x85 (n + unsigned 32 raw * 2 ^ 16) ∈ (failedSensor s n raw).occ ∧
    failedSensor s n raw = { s with pw := (failedSensor s n raw).pw, occ := (failedSensor s n raw).occ } ∧
    (failedSensor s n raw).pw.restart = s.pw.restart :=
  ⟨congrArg Sensor.failed (sensorOf_setSensor_same s n _), mem_occ_raiseChip .., rfl, rfl⟩

/-- The fast throttle held, where both sensors of the input have failed. -/
theorem entered_held (s : State) : Entered { s with pw := { s.pw with fastHeld := true, qFast := 32, fastAt := some s.time.mono } }
    (fastThrottle { s with pw := { s.pw with fastHeld := true } } false) :=
  fastThrottle_spec { s with pw := { s.pw with fastHeld := true } } false

theorem discardReading_of_third (third : 2 ≤ (sensorOf s n).bad) (hn : n < 28) :
    (sensorOf (discardReading s n raw) n).failed = true ∧ PowerRaised (discardReading s n raw) 0x85 (n + unsigned 32 raw * 65536) ∧
    discardReading s n raw = { s with pw := (discardReading s n raw).pw, fc := (discardReading s n raw).fc, occ := (discardReading s n raw).occ } ∧
    (discardReading s n raw).pw.restart = s.pw.restart := by
  have small : n + unsigned 32 raw * 65536 < 2 ^ 64 := by
    have := unsigned_lt 32 raw
    omega
  have discarded : discardReading s n raw =
      if (n = 24 ∨ n = 25) ∧ (sensorOf (failedSensor s n raw) 24).failed ∧ (sensorOf (failedSensor s n raw) 25).failed then
        fastThrottle { failedSensor s n raw with pw := { (failedSensor s n raw).pw with fastHeld := true } } false
      else failedSensor s n raw := if_neg (by omega)
  obtain ⟨failed, raised, only, restart⟩ := failedSensor_spec s n raw
  generalize failedSensor s n raw = u at discarded failed raised only restart
  rw [discarded]
  split
  · have held := entered_held u
    generalize fastThrottle { u with pw := { u.pw with fastHeld := true } } false = v at held
    have levels := held.levels
    simp only [Prod.mk.injEq] at levels
    obtain ⟨-, -, -, -, -, -, kept⟩ := levels
    refine ⟨?_, powerRaised small (held.occ _ raised), ?_, kept.trans restart⟩
    · rw [← failed]
      unfold sensorOf
      rw [held.sensors]
    · rw [held.only, only]
  · exact ⟨failed, powerRaised small raised, only ▸ rfl, restart⟩

end

theorem exec_sensorReading (s : State) (n : Fin 28) (raw : Int) : exec (.sensorReading n raw) s = .next (sensorReading s n.val raw) := rfl

/-- A reading that is due while no start of the rails is: accepted or discarded. -/
theorem sensorReading_takes {s : State} {n : Nat} {raw : Int} (on : s.pw.hkOn = true) (fitted : sensorFitted s n = true)
    (works : (sensorOf s n).failed = false) (late : due s (sensorOf s n).readAt (sensorPeriod n) = true) {t : State}
    (taken : (if plausible (sensorOf s n) n raw then acceptReading (readNow s n) n raw else discardReading (readNow s n) n raw) = t)
    (restart : t.pw.restart = false) : sensorReading s n raw = t := by
  rw [sensorReading_of_due on fitted works late, taken, tryRestart_of_not_due restart]

/-- A sensor after the moment of its reading has been noted. -/
theorem sensorOf_readNow (s : State) (n : Nat) : sensorOf (readNow s n) n = { sensorOf s n with readAt := some s.time.mono } :=
  sensorOf_setSensor_same ..

/-! ### The reference clock (R606) -/

/-- REFCLK has failed: what is raised and noted before the ports go down. -/
def clockLost (s : State) (missing : Bool) (ppm : Int) : State :=
  let s1 := if missing then s else { s with pw := { s.pw with clkPpm := ppmField ppm } }
  { s1 with
    pw := { s1.pw with clkOk := false }
    occ := s1.occ ++ [chipOcc s1 1 0x55 (flagAt (!missing) 0 + s1.pw.clkPpm.toNat * 2 ^ 16)] }

/-- The module stops in order where it ran. -/
def clockStop (s : State) : State :=
  if s.pw.state = 1 then alertSet { s with pw := { s.pw with state := 2, scause := 5 } } 6 else s

theorem refclk_of_fail (s : State) {missing : Bool} {ppm : Int} (h : missing = true ∨ 500 < ppm ∨ ppm < -500) :
    refclk s missing ppm = portsOff (clockStop (clockLost s missing ppm)) := by
  have fails : (missing || decide (500 < ppm ∨ ppm < -500)) = true := by
    rcases h with h | h
    · rw [h, Bool.true_or]
    · rw [decide_eq_true h, Bool.or_true]
  unfold refclk
  dsimp only
  rw [if_pos fails]
  rfl

/-- What the loss of the clock shows of the power unit. -/
def clockParts (s : State) : Bool × Nat × Nat := (s.pw.clkOk, s.pw.state, s.pw.scause)

theorem clockStop_spec (s : State) : (clockStop s).occ = s.occ ∧ (clockStop s).pw.clkOk = s.pw.clkOk ∧
    (s.pw.state = 1 → (clockStop s).pw.state = 2 ∧ (clockStop s).pw.scause = 5) := by
  unfold clockStop
  split
  · exact ⟨rfl, rfl, fun _ => ⟨rfl, rfl⟩⟩
  · next stopped => exact ⟨rfl, rfl, fun ran => absurd ran stopped⟩

theorem clockLost_spec (s : State) (missing : Bool) (ppm : Int) : (clockLost s missing ppm).pw.clkOk = false ∧
    (clockLost s missing ppm).pw.state = s.pw.state ∧ ∃ x ∈ (clockLost s missing ppm).occ, x.source = sourceId 3 1 0x55 := by
  refine ⟨rfl, ?_, _, List.mem_append_right _ (List.mem_singleton_self _), rfl⟩
  cases missing <;> rfl

theorem refclk_spec (s : State) {missing : Bool} {ppm : Int} (h : missing = true ∨ 500 < ppm ∨ ppm < -500) :
    ∃ x, (refclk s missing ppm).pw.clkOk = false ∧ x ∈ (refclk s missing ppm).occ ∧ x.source = sourceId 3 1 0x55 ∧
      (∀ p k, p < 8 → k < 4 → linkUp (refclk s missing ppm) p k = false) ∧
      (s.pw.state = 1 → (refclk s missing ppm).pw.state = 2 ∧ (refclk s missing ppm).pw.scause = 5) := by
  obtain ⟨lost, state, x, raised, source⟩ := clockLost_spec s missing ppm
  obtain ⟨occ, clk, stop⟩ := clockStop_spec (clockLost s missing ppm)
  rw [refclk_of_fail s h]
  generalize clockStop (clockLost s missing ppm) = u at occ clk stop
  have off := grows_portsOff u
  have kept : clockParts (portsOff u) = clockParts u := of_withoutPorts clockParts (fun _ => rfl) off.kept
  simp only [clockParts, Prod.mk.injEq] at kept
  obtain ⟨clk', state', scause'⟩ := kept
  refine ⟨x, by rw [clk', clk, lost], off.mem (by rwa [occ]), source, fun p k hp hk => linkUp_portsOff u hp hk, fun ran => ?_⟩
  rw [state', scause']
  exact stop (state.trans ran)

theorem refclk_of_near (s : State) {ppm : Int} (low : -500 ≤ ppm) (high : ppm ≤ 500) :
    refclk s false ppm = { s with pw := { s.pw with clkOk := true, clkPpm := BitVec.ofInt 16 ppm } } := by
  have near : (false || decide (500 < ppm ∨ ppm < -500)) = false := by
    rw [Bool.false_or, decide_eq_false]
    omega
  have shown : ppmField ppm = BitVec.ofInt 16 ppm := by rw [ppmField, show max (-32768) (min 32767 ppm) = ppm by omega]
  unfold refclk
  dsimp only
  rw [near, if_neg Bool.false_ne_true, if_neg Bool.false_ne_true, shown]

/-! ### Wear (R607, R608) -/

/-- The least of a list and its place. -/
theorem leastDays_spec (l : List Nat) (i : Nat) : match leastDays l i with
    | none => l = []
    | some e => e.1 ∈ l ∧ (∀ x ∈ l, e.1 ≤ x) ∧ i ≤ e.2 ∧ e.2 < i + l.length := by
  induction l generalizing i with
  | nil => rfl
  | cons d r ih =>
    have rest := ih (i + 1)
    unfold leastDays
    generalize leastDays r (i + 1) = e at rest
    cases e with
    | none =>
      subst rest
      exact ⟨List.mem_singleton_self _, fun x hx => Nat.le_of_eq (List.mem_singleton.mp hx).symm, Nat.le_refl _, by simp⟩
    | some e =>
      obtain ⟨mem, least, first, last⟩ := rest
      dsimp only
      split
      · next less =>
        refine ⟨List.mem_cons_of_mem _ mem, fun x hx => ?_, by omega, by rw [List.length_cons]; omega⟩
        rcases List.mem_cons.mp hx with rfl | hx
        · omega
        · exact least x hx
      · next more =>
        refine ⟨List.mem_cons_self, fun x hx => ?_, Nat.le_refl _, by rw [List.length_cons]; omega⟩
        rcases List.mem_cons.mp hx with rfl | hx
        · omega
        · exact Nat.le_trans (Nat.not_lt.mp more) (least x hx)

/-- The fewest days to a threshold with its place. -/
def fewest (days : List Nat) : Nat × Nat := (leastDays (days.take 4) 0).getD (0xFFFF, 0)

theorem fewest_spec (days : List Nat) : (min (fewest days).1 0xFFFF = 65535 ∨ min (fewest days).1 0xFFFF ∈ days.take 4) ∧
    (∀ x ∈ days.take 4, min (fewest days).1 0xFFFF ≤ x) ∧ (fewest days).2 < 4 := by
  have least := leastDays_spec (days.take 4) 0
  unfold fewest
  generalize leastDays (days.take 4) 0 = e at least
  cases e with
  | none =>
    have nil : days.take 4 = [] := least
    rw [nil]
    exact ⟨.inl rfl, fun x hx => absurd hx List.not_mem_nil, by decide⟩
  | some e =>
    obtain ⟨mem, least, -, last⟩ := least
    have short := List.length_take_le 4 days
    rw [Option.getD_some]
    refine ⟨?_, fun x hx => Nat.le_trans (Nat.min_le_left ..) (least x hx), by omega⟩
    rcases Nat.le_total e.1 65535 with le | le
    · exact .inr ((Nat.min_eq_left le).symm ▸ mem)
    · exact .inl (Nat.min_eq_right le)

/-- A value that fits its word is read back. -/
theorem toNat_ofNat_of_lt {w n : Nat} (h : n < 2 ^ w) : (BitVec.ofNat w n).toNat = n := by
  rw [BitVec.toNat_ofNat, Nat.mod_eq_of_lt h]

/-- What the wear monitors show. -/
def monitors (s : State) (ro : List Nat) (hbm eye cap : Nat) (days : List Nat) : State :=
  { s with pw := { s.pw with
    wearRo := ro.zipIdx.map (fun e => (e.2, BitVec.ofNat 32 (min e.1 0xFFFFFFFF))), wearHbm := BitVec.ofNat 32 (min hbm 0xFFFFFFFF),
    wearEye := BitVec.ofNat 32 (min eye 0xFFFF), wearCap := BitVec.ofNat 32 (min cap 0xFFFFFFFF),
    wearEol := BitVec.ofNat 32 (min (fewest days).1 0xFFFF + (fewest days).2 * 2 ^ 16),
    wearBelow := decide (min (fewest days).1 0xFFFF < regBits s (pwBase + 0x104) 15 0) } }

/-- The monitors are shown; the first time that a threshold is near, this is raised. -/
theorem wearCompute_eq (s : State) (ro : List Nat) (hbm eye cap : Nat) (days : List Nat) :
    wearCompute s ro hbm eye cap days =
      if (monitors s ro hbm eye cap days).pw.wearBelow && !s.pw.wearBelow then
        alertSet (raiseChip (monitors s ro hbm eye cap days) 3 0x87 (min (fewest days).1 0xFFFF + (fewest days).2 * 2 ^ 16)) 3
      else monitors s ro hbm eye cap days := rfl

/-- What a WEAR_COMPUTE leaves. -/
structure WearShown (s t : State) (b h e cap : Nat) (days : List Nat) : Prop where
  listed : t.pw.wearEol.toNat % 65536 = 65535 ∨ t.pw.wearEol.toNat % 65536 ∈ days.take 4
  least : ∀ x ∈ days.take 4, t.pw.wearEol.toNat % 65536 ≤ x
  ro : (tget 0 t.pw.wearRo 1).toNat = min b 0xFFFFFFFF
  hbm : t.pw.wearHbm.toNat = min h 0xFFFFFFFF
  eye : t.pw.wearEye.toNat = min e 0xFFFF
  cap : t.pw.wearCap.toNat = min cap 0xFFFFFFFF
  below : t.pw.wearBelow = decide (t.pw.wearEol.toNat % 65536 < regBits s (pwBase + 0x104) 15 0)

theorem wearShown_monitors (s : State) (a b c d h e cap : Nat) (days : List Nat) :
    WearShown s (monitors s [a, b, c, d] h e cap days) b h e cap days := by
  obtain ⟨listed, least, place⟩ := fewest_spec days
  have eol : (monitors s [a, b, c, d] h e cap days).pw.wearEol.toNat = min (fewest days).1 0xFFFF + (fewest days).2 * 2 ^ 16 :=
    toNat_ofNat_of_lt (by omega)
  have low : (monitors s [a, b, c, d] h e cap days).pw.wearEol.toNat % 65536 = min (fewest days).1 0xFFFF := by omega
  exact ⟨by rwa [low], by rwa [low], toNat_ofNat_of_lt (by omega), toNat_ofNat_of_lt (by omega), toNat_ofNat_of_lt (by omega),
    toNat_ofNat_of_lt (by omega), by rw [low]; rfl⟩

theorem wearCompute_spec (s : State) (a b c d h e cap : Nat) (days : List Nat) : ∃ t, wearCompute s [a, b, c, d] h e cap days = t ∧
    WearShown s t b h e cap days ∧ (t.pw.wearBelow = true → s.pw.wearBelow = false → PowerRaised t 0x87 t.pw.wearEol.toNat) ∧
    t = { s with pw := t.pw, occ := t.occ } := by
  obtain ⟨-, -, place⟩ := fewest_spec days
  have shown := wearShown_monitors s a b c d h e cap days
  have eol : (monitors s [a, b, c, d] h e cap days).pw.wearEol.toNat = min (fewest days).1 0xFFFF + (fewest days).2 * 2 ^ 16 :=
    toNat_ofNat_of_lt (by omega)
  have only : monitors s [a, b, c, d] h e cap days = { s with pw := (monitors s [a, b, c, d] h e cap days).pw } := rfl
  rw [wearCompute_eq]
  generalize monitors s [a, b, c, d] h e cap days = u at shown eol only
  refine ⟨_, rfl, ?_⟩
  split
  · obtain ⟨listed, least, ro, hbm, eye, cap, below⟩ := shown
    refine ⟨⟨listed, least, ro, hbm, eye, cap, below⟩, fun _ _ => ?_, ?_⟩
    · rw [← eol]
      exact powerRaised (by omega) (mem_occ_raiseChip ..)
    · rw [only]
      rfl
  · next quiet =>
    refine ⟨shown, fun now before => absurd (by rw [now, before]; rfl) quiet, ?_⟩
    rw [only]

/-! ### The obligation -/

section
variable {s : State} (on : s.pw.hkOn = true)
include on

/-- A tick that is due. -/
theorem exec_throttleTick {w : Nat} (late : due s s.pw.tickAt 1000000 = true) :
    exec (.throttleTick w) s = .next (throttleTick { s with pw := { s.pw with tickAt := some s.time.mono } } w) :=
  (supervised (c := .throttleTick w) rfl).2 on late

theorem exec_fastThrottleTrigger {fell mv ca : Nat} (trips : 3000 < fell ∨ mv < 40000 ∨ 6500 < ca) :
    exec (.fastThrottleTrigger fell mv ca) s =
      .next (fastThrottle { s with pw := { s.pw with vinMv := mv } } (decide (6500 < ca))) :=
  (supervised (c := .fastThrottleTrigger fell mv ca) rfl).2 on (decide_eq_true trips)

theorem exec_fastThrottleDecay (held : s.pw.fastHeld = false) (volts : 40000 ≤ s.pw.vinMv) (late : due s s.pw.fastAt 1000000 = true) :
    exec .fastThrottleDecay s = .next { s with pw := { s.pw with qFast := s.pw.qFast - 8, fastAt := some s.time.mono } } :=
  (supervised (c := .fastThrottleDecay) (on := s.pw.hkOn && !s.pw.fastHeld && decide (40000 ≤ s.pw.vinMv)) rfl).2
    (by rw [on, held, decide_eq_true volts]; rfl) late

omit on in
theorem exec_fastThrottleDecay_of_held (h : s.pw.fastHeld = true ∨ s.pw.vinMv < 40000 ∨ due s s.pw.fastAt 1000000 = false) :
    exec .fastThrottleDecay s = .next s := by
  refine (supervised (c := .fastThrottleDecay) (on := s.pw.hkOn && !s.pw.fastHeld && decide (40000 ≤ s.pw.vinMv)) rfl).1 ?_
  rcases h with held | low | early
  · exact .inl (by rw [held, Bool.not_true, Bool.and_false, Bool.false_and])
  · exact .inl (by rw [decide_eq_false (Nat.not_le.mpr low), Bool.and_false])
  · exact .inr early

theorem exec_refclkFail (m : Bool) (ppm : Int) : exec (.refclkFail m ppm) s = .next (refclk s m ppm) := by
  show Host.Outcome.next (if s.pw.hkOn then refclk s m ppm else s) = _
  rw [if_pos on]

theorem exec_wearCompute {a b c d h e cap : Nat} {days : List Nat} (late : due s s.pw.wearAt 3600000000000 = true) :
    exec (.wearCompute a b c d h e cap days) s =
      .next (wearCompute { s with pw := { s.pw with wearAt := some s.time.mono } } [a, b, c, d] h e cap days) :=
  (supervised (c := .wearCompute a b c d h e cap days) rfl).2 on late

end

/-- Settles O53: both levels step by their rules, a reading is taken or discarded, and the clock and the monitors as R597 to R608 say. -/
theorem throttleSensorsAndWear : Obligations.ThrottleSensorsAndWear := by
  unfold Obligations.ThrottleSensorsAndWear
  intro s on
  refine ⟨fun w early => (supervised (c := .throttleTick w) rfl).1 (.inr early), fun w hw late => ?_, fun fell mv ca => ⟨?_, fun trips => ?_⟩,
    exec_fastThrottleDecay on, exec_fastThrottleDecay_of_held, fun n raw => ⟨fun quiet => ?_, fun fitted works late restart => ?_⟩,
    fun m ppm fails => ?_, fun ppm low high => ?_, fun a b c d h e cap days early => ?_, fun a b c d h e cap days late => ?_⟩
  · obtain ⟨t, tick, watts, fast, lim, th, power, therm, only⟩ := throttleTick_spec s hw
    refine ⟨t, (exec_throttleTick on late).trans (congrArg Host.Outcome.next tick), watts, fast, lim, fun unread => ?_, fun v read => ?_,
      power, therm, only⟩
    · rw [th, unread, nextTh_none]
    · rw [th, read, nextTh_some]
  · intro slow high low
    exact (supervised (c := .fastThrottleTrigger fell mv ca) rfl).1 (.inr (decide_eq_false (by omega)))
  · have entered := fastThrottle_spec { s with pw := { s.pw with vinMv := mv } } (decide (6500 < ca))
    have levels := entered.levels
    simp only [Prod.mk.injEq] at levels
    obtain ⟨-, lim, fast, th, vin, -, -⟩ := levels
    exact ⟨_, exec_fastThrottleTrigger on trips, fast, vin, lim, th, entered.only⟩
  · rw [exec_sensorReading, sensorReading_of_quiet quiet]
  · have now := sensorOf_readNow s n.val
    refine ⟨fun fits cool => ?_, fun fits junction hot second loads => ?_, fun odd few => ?_, fun odd third => ?_⟩
    · have taken : ReadingTaken (readNow s n) (acceptReading (readNow s n) n raw) n raw := by
        refine acceptReading_spec (fun junction => ?_)
        rw [now]
        exact cool junction
      refine ⟨_, congrArg Host.Outcome.next (sensorReading_takes on fitted works late (if_pos fits) (taken.restart.trans restart)),
        taken.val, taken.bad, taken.vin, taken.iin, taken.only⟩
    · have second' : (sensorOf (readNow s n) n).hot = 1 := by rw [now]; exact second
      obtain ⟨shut, raised, off⟩ := acceptReading_of_hot (s := readNow s n) junction hot second' loads
      exact ⟨_, congrArg Host.Outcome.next (sensorReading_takes on fitted works late (if_pos fits) off), shut, raised⟩
    · have rejected : (if plausible (sensorOf s n) n raw then acceptReading (readNow s n) n raw else discardReading (readNow s n) n raw) =
          setSensor (readNow s n) n { sensorOf (readNow s n) n with bad := (sensorOf (readNow s n) n).bad + 1 } := by
        rw [if_neg (Bool.eq_false_iff.mp odd)]
        refine discardReading_of_few ?_
        rw [now]
        exact few
      refine ⟨_, congrArg Host.Outcome.next (sensorReading_takes on fitted works late rejected restart), ?_, ?_, ?_, rfl⟩
      · rw [sensorOf_setSensor_same, now]
      · rw [sensorOf_setSensor_same, now]
        exact works
      · rw [sensorOf_setSensor_same, now]
    · have third' : 2 ≤ (sensorOf (readNow s n) n).bad := by rw [now]; exact third
      obtain ⟨failed, raised, only, kept⟩ := discardReading_of_third (s := readNow s n) (raw := raw) third' n.isLt
      exact ⟨_, congrArg Host.Outcome.next (sensorReading_takes on fitted works late (if_neg (Bool.eq_false_iff.mp odd)) (kept.trans restart)),
        failed, raised, only⟩
  · obtain ⟨x, spec⟩ := refclk_spec s fails
    exact ⟨_, x, exec_refclkFail on m ppm, spec⟩
  · rw [exec_refclkFail on, refclk_of_near s low high]
  · exact (supervised (c := .wearCompute a b c d h e cap days) rfl).1 (.inr early)
  · obtain ⟨t, shown, ⟨listed, least, ro, hbm, eye, cap', below⟩, raised, only⟩ :=
      wearCompute_spec { s with pw := { s.pw with wearAt := some s.time.mono } } a b c d h e cap days
    exact ⟨t, (exec_wearCompute on late).trans (congrArg Host.Outcome.next shown), listed, least, ro, hbm, eye, cap', below, raised, only⟩

end Sys2Proof.Proofs
end


section
/-! Start-up and security (R546-R564, R582-R586, R622). -/

namespace Sys2Proof.Proofs

open Sys2Proof Sys2Proof.Machine Sys2Proof.Safety Sys2Proof.Laws

/-! ### Harbour state -/

/-- Harbour state entered for a cause, where no other is shown. -/
theorem enterHarbour_spec (s : State) (cause : Nat) : (enterHarbour s cause).boot.phase = 8 ∧
    (s.boot.hcause = 0 → (enterHarbour s cause).boot.hcause = cause) ∧ enterHarbour s cause = { s with boot := (enterHarbour s cause).boot } := by
  refine ⟨rfl, fun first => ?_, rfl⟩
  show (if s.boot.hcause = 0 then cause else min s.boot.hcause cause) = cause
  rw [if_pos first]

/-- A failure of the security unit that ends start-up: its occurrence, and harbour state with its cause. -/
theorem enterHarbour_raiseChip (s : State) (code detail cause : Nat) : ∃ t x, enterHarbour (raiseChip s 2 code detail) cause = t ∧ t.boot.phase = 8 ∧
    (s.boot.hcause = 0 → t.boot.hcause = cause) ∧ t.occ = s.occ ++ [x] ∧ t = { s with boot := t.boot, occ := t.occ } ∧
    x.source = sourceId 3 2 code := by
  obtain ⟨phase, cause', -⟩ := enterHarbour_spec (raiseChip s 2 code detail) cause
  exact ⟨_, chipOcc s 2 code detail, rfl, phase, cause', rfl, rfl, rfl⟩

/-! ### The ROM check (R547, R551) -/

section
variable {s : State} {ok : Bool} {a : Fin 8}

theorem bootRomCheck_of_not_due (h : s.pw.pg = false ∨ s.boot.phase ≠ 0 ∨ s.boot.romDone = true ∨ s.boot.heldReset = true) :
    exec (.bootRomCheck ok a) s = .next s := by
  have idle : (!(s.pw.pg && s.boot.phase == 0 && !s.boot.romDone && !s.boot.heldReset)) = true := by
    rcases h with h | h | h | h <;> simp [h]
  show Host.Outcome.next (if !(s.pw.pg && s.boot.phase == 0 && !s.boot.romDone && !s.boot.heldReset) then s else _) = _
  rw [if_pos idle]

/-- The ROM has been checked: the SMBus address is latched. -/
def romChecked (s : State) (a : Fin 8) : State :=
  { s with boot := { s.boot with romDone := true }, smb := { s.smb with address := 0x60 + a.val } }

theorem exec_bootRomCheck (good : s.pw.pg = true) (phase : s.boot.phase = 0) (rom : s.boot.romDone = false) (held : s.boot.heldReset = false) :
    exec (.bootRomCheck ok a) s = .next (if !ok || phaseLate s 5000000 then { s with boot := { s.boot with heldReset := true } }
      else if lockHeld s then enterHarbour (romChecked s a) 5 else setPhase (romChecked s a) 1) := by
  have starts : (!(s.pw.pg && s.boot.phase == 0 && !s.boot.romDone && !s.boot.heldReset)) = false := by
    rw [good, phase, rom, held]
    rfl
  show Host.Outcome.next (if !(s.pw.pg && s.boot.phase == 0 && !s.boot.romDone && !s.boot.heldReset) then s else _) = _
  rw [starts, if_neg Bool.false_ne_true]
  rfl

theorem bootRomCheck_passes (good : s.pw.pg = true) (phase : s.boot.phase = 0) (rom : s.boot.romDone = false) (held : s.boot.heldReset = false)
    (timely : phaseLate s 5000000 = false) : ∃ t, exec (.bootRomCheck true a) s = .next t ∧ t = { s with boot := t.boot, smb := t.smb } ∧
      t.smb.address = 0x60 + a.val ∧ t.boot.romDone = true ∧ smbusUp t = s.pw.hkOn ∧
      (lockHeld s = false → t.boot.phase = 1) ∧ (lockHeld s = true → t.boot.phase = 8 ∧ (s.boot.hcause = 0 → t.boot.hcause = 5)) := by
  have up (t : State) (hk : t.pw.hkOn = s.pw.hkOn) (done : t.boot.romDone = true) (free : t.boot.heldReset = s.boot.heldReset) :
      smbusUp t = s.pw.hkOn := by
    rw [smbusUp, hk, done, free, held, Bool.and_true, Bool.not_false, Bool.and_true]
  rw [exec_bootRomCheck good phase rom held, timely]
  cases locked : lockHeld s with
  | false => exact ⟨_, rfl, rfl, rfl, rfl, up _ rfl rfl rfl, fun _ => rfl, fun h => absurd h Bool.false_ne_true⟩
  | true =>
    obtain ⟨phase, cause, -⟩ := enterHarbour_spec (romChecked s a) 5
    exact ⟨_, rfl, rfl, rfl, rfl, up _ rfl rfl rfl, fun h => absurd h.symm Bool.false_ne_true, fun _ => ⟨phase, cause⟩⟩

end

/-! ### Signed boot (R547, R553, R554) -/

section
variable {s : State} {b : Bool}

theorem selectedSlot_of (h : regBits s (scBase + 0xC) 0 0 = if b then 1 else 0) : selectedSlot s = b := by
  cases b <;> simp [selectedSlot, h]

/-- Whether a slot boots within its time. -/
def boots (s : State) (b : Bool) (limit : Nat) : Bool := imagePasses s b && !phaseLate s limit

theorem boots_of_passes {limit : Nat} (h : imagePasses s b = true) (k : phaseLate s limit = false) : boots s b limit = true := by
  rw [boots, h, k]
  rfl

theorem boots_of_fails {limit : Nat} (h : imagePasses s b = false ∨ phaseLate s limit = true) : boots s b limit = false := by
  rcases h with h | h
  · rw [boots, h, Bool.false_and]
  · rw [boots, h, Bool.not_true, Bool.and_false]

/-- The detail of a failed signed boot. -/
def bootDetail (s : State) (b : Bool) : Nat := flagAt b 0 + flagAt (decide (imageSvn s b < s.flash.svnMin.toNat)) 1 + flagAt true 2

theorem signedBoot_eq (phase : s.boot.phase = 1) (selected : selectedSlot s = b) : signedBoot s =
    if boots s b 80000000 then bootSlot s b false else if boots s (!b) 160000000 then bootSlot s (!b) true
    else enterHarbour (raiseChip s 2 0x70 (bootDetail s b)) 1 := by
  unfold signedBoot
  dsimp only
  rw [selected, if_neg (fun h => h phase)]
  rfl

theorem signedBoot_of_other_phase (phase : s.boot.phase ≠ 1) : signedBoot s = s := if_pos phase

/-- An image that is booted. -/
theorem bootSlot_spec (s : State) (b fallback : Bool) : bootSlot s b fallback = { s with boot := (bootSlot s b fallback).boot } ∧
    (bootSlot s b fallback).boot.slot = b ∧ (bootSlot s b fallback).boot.fallback = fallback ∧ (bootSlot s b fallback).boot.phase = 2 ∧
    (bootSlot s b fallback).boot.fwSvn.toNat = imageSvn s b ∧ (bootSlot s b fallback).boot.digest = imageDigest s b :=
  ⟨rfl, rfl, rfl, rfl, toNat_ofNat_of_lt (leAt_lt _ 8 2), rfl⟩

end

/-! ### The key store (R547, R556) -/

section
variable {s : State} {ok : Bool}

theorem exec_keyStoreCheck (phase : s.boot.phase = 2) : exec (.keyStoreCheck ok) s = .next
    (if !ok || phaseLate s 2000000 then enterHarbour (raiseChip s 2 0x72 0) 2
     else setPhase { s with sec := { s.sec with identity := !s.sec.keysCleared } } 3) := by
  show Host.Outcome.next (if s.boot.phase ≠ 2 then s else _) = _
  rw [if_neg (fun h => h phase)]

theorem exec_keyStoreCheck_of_other_phase (phase : s.boot.phase ≠ 2) : exec (.keyStoreCheck ok) s = .next s := by
  show Host.Outcome.next (if s.boot.phase ≠ 2 then s else _) = _
  rw [if_pos phase]

end

/-! ### Power-up BIST (R557, R622) -/

theorem boot_fenceDeck (s : State) (d : Nat) (source : BitVec 16) : (fenceDeck s d source).boot = s.boot := by
  have masked (u : State) : (maskDeck u d).boot = u.boot := by
    unfold maskDeck
    dsimp only
    rw [of_withoutFlight State.boot (fun _ => rfl) (withoutFlight_issueAll _)]
    rfl
  unfold fenceDeck
  split
  · rfl
  · split
    · exact masked s
    · refine (of_withoutStop State.boot (fun _ => rfl) (withoutStop_refitGangs _)).trans ((masked _).trans ?_)
      split
      · exact of_withoutStop State.boot (fun _ => rfl) ((withoutStop_latchEnd ..).trans (withoutStop_latchPending ..))
      · rfl

/-- A deck noted among those that start-up fenced. -/
def noteFenced (s : State) (d : Nat) : State := { s with boot := { s.boot with fenced := s.boot.fenced ||| BitVec.ofNat 16 (2 ^ d) } }

/-- A deck that fails is fenced, and noted. -/
theorem bistUnit_deck (s : State) (d : Fin 16) (test : Fin 4) : deckFenced (bistUnit s (.deck d test)) d = true ∧
    bit (bistUnit s (.deck d test)).boot.fenced.toNat d = true ∧ (bistUnit s (.deck d test)).boot.phase = s.boot.phase := by
  have failed : bistUnit s (.deck d test) = noteFenced (fenceDeck (raiseDeck s 0 d.val 0x02 test.val) d.val (sourceId 0 d.val 0x02)) d := rfl
  have fenced := deckFenced_fenceDeck (raiseDeck s 0 d.val 0x02 test.val) d.val (sourceId 0 d.val 0x02)
  have boot : (fenceDeck (raiseDeck s 0 d.val 0x02 test.val) d.val (sourceId 0 d.val 0x02)).boot = s.boot :=
    (boot_fenceDeck ..).trans (raiseDeck_keeps State.boot (fun _ _ _ => rfl) ..)
  rw [failed]
  generalize fenceDeck (raiseDeck s 0 d.val 0x02 test.val) d.val (sourceId 0 d.val 0x02) = u at fenced boot
  refine ⟨fenced, ?_, (congrArg Boot.phase boot :)⟩
  have power : 2 ^ d.val < 2 ^ 16 := Nat.pow_lt_pow_right (by decide) d.isLt
  show Nat.testBit (u.boot.fenced ||| BitVec.ofNat 16 (2 ^ d.val)).toNat d = true
  rw [BitVec.toNat_or, Nat.testBit_or, toNat_ofNat_of_lt power, Nat.testBit_two_pow_self, Bool.or_true]

section
variable {s : State} (phase : s.boot.phase = 3)
include phase

theorem exec_powerUpBist (l : List BistFailure) : exec (.powerUpBist l) s = .next
    (if (l.filterMap (bistCause s)).isEmpty && (l.foldl bistUnit s).boot.phase == 3 then setPhase (l.foldl bistUnit s) 4
     else (l.filterMap (bistCause s)).foldl enterHarbour (l.foldl bistUnit s)) := by
  show Host.Outcome.next (if s.boot.phase ≠ 3 then s else _) = _
  rw [if_neg (fun h => h phase)]

/-- A failing unit without a cause of harbour state. -/
theorem powerUpBist_goes_on {f : BistFailure} (h : bistCause s f = none) (kept : (bistUnit s f).boot.phase = s.boot.phase) :
    exec (.powerUpBist [f]) s = .next (setPhase (bistUnit s f) 4) := by
  have going : (([f].filterMap (bistCause s)).isEmpty && ([f].foldl bistUnit s).boot.phase == 3) = true := by
    rw [List.filterMap_cons_none h, List.foldl_cons, List.foldl_nil, kept, phase]
    rfl
  rw [exec_powerUpBist phase, if_pos going]
  rfl

/-- A failing unit with a cause of harbour state. -/
theorem powerUpBist_stops {f : BistFailure} {cause : Nat} (h : bistCause s f = some cause) :
    exec (.powerUpBist [f]) s = .next (enterHarbour (bistUnit s f) cause) := by
  rw [exec_powerUpBist phase, List.filterMap_cons_some h]
  rfl

theorem powerUpBist_nil : exec (.powerUpBist []) s = .next { s with boot := { s.boot with phase := 4, phaseAt := s.time.mono } } := by
  have going : (([] : List BistFailure).filterMap (bistCause s)).isEmpty = true ∧ (([] : List BistFailure).foldl bistUnit s).boot.phase = 3 := ⟨rfl, phase⟩
  rw [exec_powerUpBist phase, going.1, going.2]
  rfl

theorem powerUpBist_deck (d : Fin 16) (test : Fin 4) : ∃ t, exec (.powerUpBist [.deck d test]) s = .next t ∧ deckFenced t d = true ∧
    bit t.boot.fenced.toNat d = true ∧ t.boot.phase = 4 := by
  obtain ⟨fenced, noted, kept⟩ := bistUnit_deck s d test
  exact ⟨_, powerUpBist_goes_on phase rfl kept, fenced, noted, rfl⟩

theorem powerUpBist_chip (u : BitVec 8) : ∃ t, exec (.powerUpBist [.chip u]) s = .next t ∧ t.boot.phase = 8 ∧
    (s.boot.hcause = 0 → t.boot.hcause = 3) := by
  obtain ⟨ended, cause, -⟩ := enterHarbour_spec (bistUnit s (.chip u)) 3
  exact ⟨_, powerUpBist_stops phase rfl, ended, cause⟩

theorem powerUpBist_stack (k : Fin 16) (band : Bool) (there : populated s k = true) : ∃ t x, exec (.powerUpBist [.stack k band]) s = .next t ∧
    t.boot.phase = 8 ∧ (s.boot.hcause = 0 → t.boot.hcause = 4) ∧ x ∈ t.occ ∧ x.source = sourceId 2 (16 + k.val) 0x3A := by
  have failed : bistUnit s (.stack k band) = raise s 2 (16 + k.val) 0x3A none none (k.val + flagAt band 4) := if_pos there
  have cause : bistCause s (.stack k band) = some 4 := if_pos there
  obtain ⟨ended, shown, -⟩ := enterHarbour_spec (bistUnit s (.stack k band)) 4
  have boot : (bistUnit s (.stack k band)).boot = s.boot := by rw [failed]; rfl
  rw [boot] at shown
  have raised : raisedOcc s 2 (16 + k.val) 0x3A none none (k.val + flagAt band 4) ∈ (bistUnit s (.stack k band)).occ := by
    rw [failed, occ_raise]
    exact List.mem_append_right _ (List.mem_singleton_self _)
  exact ⟨_, _, powerUpBist_stops phase cause, ended, shown, raised, rfl⟩

end

/-! ### Measurement and readiness (R549, R555, R563) -/

/-- M0 is extended by the firmware digest and M1 by that of SC_STAT; no other register moves. -/
theorem measure_spec {s : State} (phase : s.boot.phase = 4) : ∃ t, exec .measure s = .next t ∧ t = { s with boot := t.boot, sec := t.sec } ∧
    measOf t 0 = digest64 (measOf s 0 ++ slice s.boot.digest 0 64) ∧ (∀ i, 1 < i → measOf t i = measOf s i) ∧
    t.boot.phase = (if regBits s (mgBase + 0x20) 31 31 = 1 then 6 else 5) := by
  have run : exec .measure s =
      .next (setPhase (extendStat (extendM s 0 s.boot.digest)) (if regBits s (mgBase + 0x20) 31 31 = 1 then 6 else 5)) := by
    show Host.Outcome.next (if s.boot.phase ≠ 4 then s else _) = _
    rw [if_neg (fun h => h phase)]
  have meas (i n : Nat) : measOf (setPhase (extendStat (extendM s 0 s.boot.digest)) n) i =
      measOf (extendM (extendM s 0 s.boot.digest) 1 (digest64 (natLe 4 (scStat (extendM s 0 s.boot.digest))))) i := rfl
  refine ⟨_, run, rfl, ?_, fun i hi => ?_, rfl⟩
  · rw [meas, measOf_extendM, if_neg (by decide), measOf_extendM, if_pos rfl]
  · rw [meas, measOf_extendM, if_neg (by omega), measOf_extendM, if_neg (by omega)]

theorem commitSvn_spec (s : State) : commitSvn s = { s with flash := (commitSvn s).flash } ∧
    (commitSvn s).flash.svnMin.toNat = if s.boot.commitSvn then max s.flash.svnMin.toNat s.boot.fwSvn.toNat else s.flash.svnMin.toNat := by
  unfold commitSvn
  cases s.boot.commitSvn with
  | false => exact ⟨rfl, rfl⟩
  | true =>
    rw [Bool.true_and, if_pos rfl]
    split
    · next older => exact ⟨rfl, (Nat.max_eq_right (Nat.le_of_lt (of_decide_eq_true older))).symm⟩
    · next newer => exact ⟨rfl, (Nat.max_eq_left (Nat.not_lt.mp fun h => newer (decide_eq_true h))).symm⟩

theorem moduleReady_spec {s : State} (phase : s.boot.phase = 6) (coord : regBits s (mgBase + 0x20) 31 31 = 1)
    (timed : s.time.st = .locked ∨ s.time.st = .grandmaster) : ∃ t, exec .moduleReady s = .next t ∧ t.boot.ready = true ∧ t.boot.phase = 7 ∧
      t.flash.svnMin.toNat = (if s.boot.commitSvn then max s.flash.svnMin.toNat s.boot.fwSvn.toNat else s.flash.svnMin.toNat) ∧
      t = { s with boot := t.boot, pw := t.pw, flash := t.flash } := by
  have ready : moduleReady s = commitSvn (alertSet { s with boot := { s.boot with phase := 7, ready := true } } 4) := if_pos ⟨phase, coord, timed⟩
  obtain ⟨only, svn⟩ := commitSvn_spec (alertSet { s with boot := { s.boot with phase := 7, ready := true } } 4)
  refine ⟨_, congrArg Host.Outcome.next ready, ?_, ?_, svn, ?_⟩
  · rw [only]
    rfl
  · rw [only]
    rfl
  · rw [only]
    rfl

/-! ### Violations and JTAG (R583, R586) -/

theorem secViol_spec (s : State) (k : Fin 3) : ∃ t x, exec (.secViol k) s = .next t ∧ t.occ = s.occ ++ [x] ∧ t = { s with boot := t.boot, occ := t.occ } ∧
    x.source = sourceId 3 2 0x73 ∧ x.detail.toNat = k.val ∧ (s.boot.phase < 7 → s.boot.heldReset = false → t.boot.phase = 8) ∧
    (7 ≤ s.boot.phase ∨ s.boot.heldReset = true → t.boot = s.boot) := by
  have run : exec (.secViol k) s =
      .next (if startingUp s then enterHarbour (raiseChip s 2 0x73 k.val) 6 else raiseChip s 2 0x73 k.val) := rfl
  have detail : (chipOcc s 2 0x73 k.val).detail.toNat = k.val := toNat_detail (by omega)
  cases starting : startingUp s with
  | false =>
    rw [starting] at run
    refine ⟨_, chipOcc s 2 0x73 k.val, run, rfl, rfl, rfl, detail, fun early free => ?_, fun _ => rfl⟩
    rw [startingUp, decide_eq_true early, free] at starting
    exact absurd starting.symm Bool.false_ne_true
  | true =>
    rw [starting] at run
    refine ⟨_, chipOcc s 2 0x73 k.val, run, rfl, rfl, rfl, detail, fun _ _ => rfl, fun late => ?_⟩
    rw [startingUp, Bool.and_eq_true, decide_eq_true_eq] at starting
    obtain ⟨early, free⟩ := starting
    rcases late with late | held
    · omega
    · rw [held] at free
      exact absurd free Bool.false_ne_true

/-- The registers that a scan keeps. -/
def scanKept : List Nat := (scBase + 8) :: (scBase + 12) :: (List.range 15).map (fun n => scBase + 0x40 + 4 * n)

/-- What a scan leaves of a state's parts that no scan reaches. -/
theorem scanState_keeps (s : State) : (scanState s).pending = s.pending ∧ (scanState s).fitted = s.fitted ∧ (scanState s).flash = s.flash ∧
    (scanState s).sec.debug = s.sec.debug ∧ (scanState s).fc.recs = s.fc.recs ∧
    (scanState s).rw = scanKept.foldl (fun t a => tput t a (regGet s a)) (Config.scannedState s.free).rw := by
  unfold scanState scanKept
  generalize Config.scannedState s.free = f
  dsimp only
  generalize List.map _ (List.range 16) = decks
  exact ⟨rfl, rfl, rfl, rfl, rfl, rfl⟩

theorem regGet_scanState (s : State) {a : Nat} (h : a ∈ scanKept) : regGet (scanState s) a = regGet s a := by
  obtain ⟨-, -, -, -, -, rw_⟩ := scanState_keeps s
  rw [regGet, rw_]
  exact tget_foldl_tput _ (fun a => a) (regGet s) (fun _ _ h => h) h _

theorem keyWord_scanState (s : State) {n : Nat} (hn : n < 15) : keyWord (scanState s) n = keyWord s n :=
  regGet_scanState s (List.mem_cons_of_mem _ (List.mem_cons_of_mem _ (List.mem_map.mpr ⟨n, List.mem_range.mpr hn, rfl⟩)))

/-- Settles O54: start-up by its phases, the violations and JTAG, as R546 to R564 and R582 to R586 say. -/
theorem startUpAndSecurityProceed : Obligations.StartUpAndSecurityProceed := by
  unfold Obligations.StartUpAndSecurityProceed
  intro s
  refine ⟨fun ok a => ⟨bootRomCheck_of_not_due, fun good phase rom held => ⟨?_, fun late => ?_, bootRomCheck_passes good phase rom held⟩⟩,
    fun phase => congrArg Host.Outcome.next (signedBoot_of_other_phase phase), fun b phase selected => ⟨fun passes timely => ?_,
      fun fails passes timely => ?_, fun fails fails' => ?_⟩,
    fun ok => exec_keyStoreCheck_of_other_phase, fun phase timely => ?_, fun ok phase fails => ?_, fun l phase => ?_,
    fun phase => ⟨powerUpBist_nil phase, powerUpBist_deck phase, powerUpBist_chip phase, powerUpBist_stack phase⟩,
    fun phase => ?_, measure_spec, fun waits => congrArg Host.Outcome.next (if_neg waits), moduleReady_spec, secViol_spec s,
    fun op idle => ?_, fun op debug scans => ?_⟩
  · rw [exec_bootRomCheck good phase rom held]
    rfl
  · rw [exec_bootRomCheck good phase rom held, late]
    rfl
  · have run := signedBoot_eq phase (selectedSlot_of selected)
    rw [boots_of_passes passes timely, if_pos rfl] at run
    obtain ⟨only, slot, fallback, next, svn, digest⟩ := bootSlot_spec s b false
    exact ⟨_, congrArg Host.Outcome.next run, only, slot, fallback, next, svn, digest⟩
  · have run := signedBoot_eq phase (selectedSlot_of selected)
    rw [boots_of_fails fails, boots_of_passes passes timely, if_neg Bool.false_ne_true, if_pos rfl] at run
    obtain ⟨only, slot, fallback, next, svn, -⟩ := bootSlot_spec s (!b) true
    exact ⟨_, congrArg Host.Outcome.next run, only, slot, fallback, next, svn⟩
  · have run := signedBoot_eq phase (selectedSlot_of selected)
    rw [boots_of_fails fails, boots_of_fails fails', if_neg Bool.false_ne_true, if_neg Bool.false_ne_true] at run
    obtain ⟨t, x, harbour, spec⟩ := enterHarbour_raiseChip s 0x70 (bootDetail s b) 1
    exact ⟨t, x, congrArg Host.Outcome.next (run.trans harbour), spec⟩
  · rw [exec_keyStoreCheck phase, timely]
    rfl
  · have failed : (!ok || phaseLate s 2000000) = true := by
      rcases fails with h | h
      · rw [h]
        rfl
      · rw [h, Bool.or_true]
    obtain ⟨t, x, harbour, spec⟩ := enterHarbour_raiseChip s 0x72 0 2
    refine ⟨t, x, ?_, spec⟩
    rw [exec_keyStoreCheck phase, if_pos failed, harbour]
  · exact congrArg Host.Outcome.next (if_pos phase)
  · exact congrArg Host.Outcome.next (if_pos phase)
  · rcases idle with off | harmless
    · cases op
      case privateInstruction | internalScan => exact congrArg Host.Outcome.next (if_neg (by rw [off]; exact Bool.false_ne_true))
      all_goals rfl
    · simp only [List.mem_cons, List.not_mem_nil, or_false] at harmless
      rcases harmless with rfl | rfl | rfl | rfl <;> rfl
  · have run : exec (.jtagAccess op) s = .next (scanState s) := by
      simp only [List.mem_cons, List.not_mem_nil, or_false] at scans
      rcases scans with rfl | rfl
      · exact congrArg Host.Outcome.next (if_pos debug)
      · exact congrArg Host.Outcome.next (if_pos debug)
    obtain ⟨pending, fitted, flash, latched, recs, -⟩ := scanState_keeps s
    exact ⟨_, run, pending, fitted, flash, latched.trans debug, recs, regGet_scanState s List.mem_cons_self, fun n hn => keyWord_scanState s hn⟩

end Sys2Proof.Proofs
end


section
/-! LOAD_MANIFEST and what is answered on the management landing (R502, R568, R569). -/

namespace Sys2Proof.Proofs

open Sys2Proof Sys2Proof.Machine Sys2Proof.Safety Sys2Proof.Laws

/-! ### Entries that each step of a fold makes of their own -/

/-- A fold whose steps each replace their own entry. -/
theorem foldl_own {σ β : Type} {get : σ → Nat → β} {f : σ → Nat → σ} {g : Nat → β → β}
    (own : ∀ s a j, get (f s a) j = if a = j then g j (get s j) else get s j) {l : List Nat} (once : l.Nodup) (s : σ) (j : Nat) :
    get (l.foldl f s) j = if j ∈ l then g j (get s j) else get s j := by
  induction l generalizing s with
  | nil => rfl
  | cons a l ih =>
    obtain ⟨fresh, once⟩ := List.nodup_cons.mp once
    rw [List.foldl_cons, ih once, own]
    by_cases same : a = j
    · subst same
      rw [if_neg fresh, if_pos rfl, if_pos List.mem_cons_self]
    · rw [if_neg same]
      by_cases mem : j ∈ l
      · rw [if_pos mem, if_pos (List.mem_cons_of_mem a mem)]
      · rw [if_neg mem, if_neg (fun h => (List.mem_cons.mp h).elim (fun e => same e.symm) mem)]

/-- The same of a fold over the numbers below `n`. -/
theorem foldl_range_own {σ β : Type} {get : σ → Nat → β} {f : σ → Nat → σ} {g : Nat → β → β}
    (own : ∀ s a j, get (f s a) j = if a = j then g j (get s j) else get s j) (n : Nat) (s : σ) (j : Nat) :
    get ((List.range n).foldl f s) j = if j < n then g j (get s j) else get s j := by
  rw [foldl_own own List.nodup_range]
  simp only [List.mem_range]

/-! ### The berth landings close and open -/

/-- One landing closed, or opened. -/
def closeLand (on : Bool) (s : State) (b : Nat) : State := setLand s b { landOf s b with closed := on }

theorem landOf_closeLandings (s : State) (on : Bool) (j : Nat) :
    landOf (closeLandings s on) j = if j < 16 then { landOf s j with closed := on } else landOf s j := by
  have own (t : State) (a i : Nat) : landOf (closeLand on t a) i = if a = i then { landOf t i with closed := on } else landOf t i := by
    rw [closeLand, landOf_setLand]
    split
    · next same => rw [same]
    · rfl
  exact foldl_range_own (g := fun _ (x : LandingSt) => { x with closed := on }) own 16 s j

theorem landOf_closeLandings_16 (s : State) (on : Bool) : landOf (closeLandings s on) 16 = landOf s 16 := by
  rw [landOf_closeLandings, if_neg (by decide)]

theorem closed_closeLandings (s : State) (on : Bool) {b : Nat} (hb : b < 16) : (landOf (closeLandings s on) b).closed = on := by
  rw [landOf_closeLandings, if_pos hb]

theorem bufs_closeLandings (s : State) (on : Bool) (j : Nat) : (landOf (closeLandings s on) j).bufs = (landOf s j).bufs := by
  rw [landOf_closeLandings]
  split <;> rfl

/-- Only landings change where they close or open. -/
theorem closeLandings_only (s : State) (on : Bool) : closeLandings s on = { s with landings := (closeLandings s on).landings } :=
  List.foldlRecOn (motive := fun t : State => t = { s with landings := t.landings }) (List.range 16) (closeLand on) rfl
    (fun t h b _ => by rw [closeLand, h]; rfl)

theorem of_closeLandings {β : Type} (part : State → β) (hp : ∀ s l, part { s with landings := l } = part s) (s : State) (on : Bool) :
    part (closeLandings s on) = part s := (congrArg part (closeLandings_only s on)).trans (hp ..)

/-! ### LOAD_MANIFEST that is taken -/

theorem earlyStatus_lands (s : State) (lands : Tbl LandingSt) (l : Nat) (d : List Byte) :
    earlyStatus { s with landings := lands } l d = earlyStatus s l d := rfl

section
variable {s : State} {m : Msg} (h : Taken s 16 7 m)
include h

theorem loadTaken_of_taken : loadTaken s = true := by
  obtain ⟨hBufs, hLen, hType, hLoad, hSeq, hEarly⟩ := h
  have type : (headerOf m.data).type = 7 := hType
  have early : earlyStatus s 16 m.data = none := by rwa [earlyStatus_received] at hEarly
  rw [loadTaken, hBufs]
  simp only [type, hLoad rfl, hLen, hSeq, early]
  rfl

/-- The message is taken from the closed landings too. -/
theorem taken_closeLandings (on : Bool) : Taken (closeLandings s on) 16 7 m := by
  obtain ⟨hBufs, hLen, hType, hLoad, hSeq, hEarly⟩ := h
  rw [earlyStatus_received] at hEarly
  have early : earlyStatus (closeLandings s on) 16 m.data = earlyStatus s 16 m.data :=
    of_closeLandings (fun u => earlyStatus u 16 m.data) (fun u l => earlyStatus_lands u l 16 m.data) s on
  have load : (closeLandings s on).load = s.load := of_closeLandings State.load (fun _ _ => rfl) s on
  have land : landOf (closeLandings s on) 16 = landOf s 16 := landOf_closeLandings_16 s on
  generalize closeLandings s on = u at early load land
  rw [Taken, land, earlyStatus_received, early, load]
  exact ⟨hBufs, hLen, hType, hLoad, hSeq, hEarly⟩

/-- While a berth landing holds messages, the berth landings close and no more. -/
theorem exec_loadManifest_of_full (full : ∃ b, b < 16 ∧ (landOf s b).bufs ≠ []) : exec .loadManifest s = .next (closeLandings s true) := by
  obtain ⟨b, hb, some_⟩ := full
  have waits : ((List.range 16).all (fun b => (landOf (closeLandings s true) b).bufs.isEmpty)) = false := by
    refine List.all_eq_false.mpr ⟨b, List.mem_range.mpr hb, ?_⟩
    rw [bufs_closeLandings, List.isEmpty_iff]
    exact some_
  show Host.Outcome.next (loadManifest s) = _
  rw [loadManifest, loadTaken_of_taken h, if_pos rfl]
  dsimp only
  rw [waits, if_neg Bool.false_ne_true]

/-- With every berth landing empty the load goes on. -/
theorem exec_loadManifest (empty : ∀ b, b < 16 → (landOf s b).bufs = []) :
    exec .loadManifest s = .next (onMsg (closeLandings s true) 16 7 doLoad) := by
  have done : ((List.range 16).all (fun b => (landOf (closeLandings s true) b).bufs.isEmpty)) = true := by
    refine List.all_eq_true.mpr (fun b hb => ?_)
    rw [bufs_closeLandings, empty b (List.mem_range.mp hb)]
    rfl
  show Host.Outcome.next (loadManifest s) = _
  rw [loadManifest, loadTaken_of_taken h, if_pos rfl]
  dsimp only
  rw [done, if_pos rfl]

end

theorem landOf_received_ne (s : State) (m : Msg) {l j : Nat} (h : l ≠ j) : landOf (received s l m) j = landOf s j := by
  have popped : landOf (popMsg s l) j = landOf s j := (landOf_setLand ..).trans (if_neg h)
  unfold received
  split
  · exact popped
  · rw [landOf_setLand, if_neg h, popped]

/-- The state in which LOAD_MANIFEST is judged. -/
def judging (s : State) (m : Msg) : State := received (closeLandings s true) 16 m

theorem of_judging {β : Type} (part : State → β) (hp : ∀ s l, part { s with landings := l } = part s) (s : State) (m : Msg) :
    part (judging s m) = part s := (of_received part hp ..).trans (of_closeLandings part hp ..)

theorem bufs_loadReply (s : State) (hseq : Word) (result type off : Nat) (digest : List Byte) (j : Nat) :
    (landOf (loadReply s hseq result type off digest) j).bufs = (landOf s j).bufs := bufs_emit ..

section
variable {s : State} {m : Msg}

theorem doLoad_of_busy (h : allIdle s = false) : doLoad s m (headerOf m.data) = answer (closeLandings s false) 16 (headerOf m.data) 0x0E [] := by
  rw [doLoad, h, Bool.not_false, if_pos rfl]

theorem doLoad_of_unready (idle : allIdle s = true) (h : s.boot.ready = false) :
    doLoad s m (headerOf m.data) = loadReply (closeLandings s false) (headerOf m.data).hseq 1 0 0 [] := by
  rw [doLoad, idle, h, Bool.not_true, if_neg Bool.false_ne_true, Bool.not_false, if_pos rfl]

theorem doLoad_of_testing (idle : allIdle s = true) (ready : s.boot.ready = true) (busy : s.diag.busy = true) (type : s.diag.type = 0x10) :
    doLoad s m (headerOf m.data) = loadReply (closeLandings s false) (headerOf m.data).hseq 7 0 0 [] := by
  rw [doLoad, idle, ready, busy, type, Bool.not_true, if_neg Bool.false_ne_true, if_neg Bool.false_ne_true, beq_self_eq_true, Bool.true_and, if_pos rfl]

/-- The load that is asked for: the message keeps its buffer. -/
def loading (s : State) (m : Msg) : State :=
  { setLand s 16 { landOf s 16 with bufs := m :: (landOf s 16).bufs } with
    load := some { conn := m.conn, hseq := (headerOf m.data).hseq, addr := leAt m.data 0x20 8, len := leAt m.data 0x28 4 } }

theorem doLoad_of_going (idle : allIdle s = true) (ready : s.boot.ready = true) (free : s.diag.busy = false ∨ s.diag.type ≠ 0x10) :
    doLoad s m (headerOf m.data) = request (loading s m) m.conn .manifest (packetsOf (leAt m.data 0x28 4))
      (.read (leAt m.data 0x20 8) (leAt m.data 0x28 4)) := by
  have goes : (s.diag.busy && s.diag.type == 0x10) = false := by
    rcases free with h | h
    · rw [h, Bool.false_and]
    · rw [beq_false_of_ne h, Bool.and_false]
  rw [doLoad, idle, ready, goes, Bool.not_true, if_neg Bool.false_ne_true, if_neg Bool.false_ne_true, if_neg Bool.false_ne_true]
  rfl

end

/-- A management landing that a load holds does not go on. -/
theorem nextMsg_of_loading {s : State} (h : s.load.isSome = true) : nextMsg s 16 = s := by
  rw [nextMsg, clearFront]
  split
  · rw [h]
    rfl
  · rfl

section
variable {s : State} {m : Msg}

/-- What a request asked over a connection leaves, but for the connection, its port and its frame. -/
theorem request_leaves (s : State) (n : Nat) (kind : ReqKind) (packets : Nat) (w : Roce) :
    request s n kind packets w = { s with
      conns := (request s n kind packets w).conns
      ports := (request s n kind packets w).ports
      out := (request s n kind packets w).out } := by
  have only := request_only s n kind packets w false
  have fc := fc_request s n kind packets w false
  have lands : (request s n kind packets w).landings = s.landings := by
    unfold request sendOn sendFrame
    dsimp only
    split
    · split
      · split <;> rfl
      · rfl
    · rfl
  rw [OnlyRecords, fc, lands] at only
  exact only

/-- LOAD_MANIFEST where nothing stands against it: the manifest is read over the connection that brought the message. -/
theorem exec_loadManifest_of_going (h : Taken s 16 7 m) (empty : ∀ b, b < 16 → (landOf s b).bufs = []) (idle : allIdle s = true)
    (ready : s.boot.ready = true) (free : s.diag.busy = false ∨ s.diag.type ≠ 0x10) : ∃ t, exec .loadManifest s = .next t ∧
      t.load = some { conn := m.conn, hseq := (headerOf m.data).hseq, addr := leAt m.data 0x20 8, len := leAt m.data 0x28 4 } ∧
      (∀ b, b < 16 → (landOf t b).closed = true) ∧ (landOf t 16).bufs = [m] ∧ (landOf t 16).h = (headerOf m.data).hseq ∧
      (Leaves s m.conn .manifest (.read (leAt m.data 0x20 8) (leAt m.data 0x28 4)) →
        t.out = s.out ++ [leaving s m.conn .manifest (.read (leAt m.data 0x20 8) (leAt m.data 0x28 4))]) ∧
      (connUsable s m.conn = false → t.out = s.out) ∧
      t = { s with load := t.load, landings := t.landings, conns := t.conns, ports := t.ports, out := t.out } := by
  have taken := taken_closeLandings h true
  have idle' : allIdle (judging s m) = true := (of_judging allIdle (fun _ _ => rfl) s m).trans idle
  have ready' : (judging s m).boot.ready = true := (of_judging (fun u => u.boot.ready) (fun _ _ => rfl) s m).trans ready
  have free' : (judging s m).diag.busy = false ∨ (judging s m).diag.type ≠ 0x10 := by
    rwa [of_judging State.diag (fun _ _ => rfl) s m]
  have asked : onMsg (closeLandings s true) 16 7 doLoad = nextMsg (request (loading (judging s m) m) m.conn .manifest
      (packetsOf (leAt m.data 0x28 4)) (.read (leAt m.data 0x20 8) (leAt m.data 0x28 4))) 16 := by
    rw [onMsg_of_taken doLoad taken]
    exact congrArg (fun t => nextMsg t 16) (doLoad_of_going idle' ready' free')
  have lands (j : Nat) : landOf (loading (judging s m) m) j =
      if 16 = j then { landOf (judging s m) 16 with bufs := m :: (landOf (judging s m) 16).bufs } else landOf (judging s m) j :=
    landOf_setLand (judging s m) 16 j _
  have land16 : landOf (loading (judging s m) m) 16 = { landOf (judging s m) 16 with bufs := m :: (landOf (judging s m) 16).bufs } := by
    rw [lands, if_pos rfl]
  have closed (b : Nat) (hb : b < 16) : (landOf (loading (judging s m) m) b).closed = true := by
    rw [lands, if_neg (by omega), judging, landOf_received_ne _ _ (by omega)]
    exact closed_closeLandings s true hb
  have same : carriage (loading (judging s m) m) = carriage s := of_judging carriage (fun _ _ => rfl) s m
  have out : (loading (judging s m) m).out = s.out := of_judging State.out (fun _ _ => rfl) s m
  have usable : connUsable (loading (judging s m) m) m.conn = connUsable s m.conn :=
    of_judging (fun u => connUsable u m.conn) (fun _ _ => rfl) s m
  have only : loading (judging s m) m = { s with load := (loading (judging s m) m).load, landings := (loading (judging s m) m).landings } := by
    rw [loading, judging, received_lands, closeLandings_only]
    rfl
  have load : (loading (judging s m) m).load =
      some { conn := m.conn, hseq := (headerOf m.data).hseq, addr := leAt m.data 0x20 8, len := leAt m.data 0x28 4 } := rfl
  have bufs : (landOf (loading (judging s m) m) 16).bufs = [m] := by
    rw [land16, judging, bufs_received_of_taken taken]
  have moved : (landOf (loading (judging s m) m) 16).h = (headerOf m.data).hseq := by
    rw [land16]
    exact h_received_of_taken taken (by decide)
  generalize loading (judging s m) m = u at asked closed same out usable only load bufs moved
  have frame := request_leaves u m.conn .manifest (packetsOf (leAt m.data 0x28 4)) (.read (leAt m.data 0x20 8) (leAt m.data 0x28 4))
  have load' : (request u m.conn .manifest (packetsOf (leAt m.data 0x28 4)) (.read (leAt m.data 0x20 8) (leAt m.data 0x28 4))).load = u.load := by
    rw [frame]
  rw [nextMsg_of_loading (by rw [load', load]; rfl)] at asked
  refine ⟨_, (exec_loadManifest h empty).trans (congrArg Host.Outcome.next asked), load'.trans load, fun b hb => ?_, ?_, ?_, fun leaves => ?_,
    fun off => ?_, ?_⟩
  · rw [landOf_request]
    exact closed b hb
  · rw [landOf_request]
    exact bufs
  · rw [landOf_request]
    exact moved
  · rw [out_request (leaves_of_carriage same leaves), out, leaving_of_carriage same]
  · rw [out_request_of_unusable (usable.trans off), out]
  · rw [frame, only]

/-- LOAD_MANIFEST that is refused by its own checks. -/
theorem exec_loadManifest_of_refused (h : Taken s 16 7 m) (empty : ∀ b, b < 16 → (landOf s b).bufs = []) {u t : State}
    (act : doLoad (judging s m) m (headerOf m.data) = t) (kept : (landOf t 16).bufs = (landOf u 16).bufs)
    (same : (landOf u 16).bufs = (landOf (judging s m) 16).bufs) : exec .loadManifest s = .next t := by
  have taken := taken_closeLandings h true
  rw [exec_loadManifest h empty]
  refine congrArg Host.Outcome.next ((onMsg_of_taken_last doLoad taken ?_).trans act)
  exact (congrArg (fun x => (landOf x 16).bufs) act).trans (kept.trans same)

end

/-! ### What is answered on the management landing -/

/-- What a record for the management ring changes: the management landing, the frame, and connection 0, which stays as it is but for its
requests. -/
structure Talks (s t : State) : Prop where
  only : t = { s with landings := t.landings, conns := t.conns, ports := t.ports, out := t.out }
  others : ∀ j, j ≠ 16 → landOf t j = landOf s j
  conns : ∀ n, n ≠ 0 → connOf t n = connOf s n
  zero : (connOf t 0).valid = (connOf s 0).valid ∧ (connOf t 0).rqpn = (connOf s 0).rqpn

theorem Talks.refl (s : State) : Talks s s := ⟨rfl, fun _ _ => rfl, fun _ _ => rfl, rfl, rfl⟩

theorem Talks.trans {s t u : State} (h : Talks s t) (k : Talks t u) : Talks s u :=
  ⟨by rw [k.only, h.only], fun j hj => (k.others j hj).trans (h.others j hj), fun n hn => (k.conns n hn).trans (h.conns n hn),
    k.zero.1.trans h.zero.1, k.zero.2.trans h.zero.2⟩

/-- What no landing, connection or frame shows stays. -/
theorem of_talks {β : Type} (part : State → β) (hp : ∀ s l c p o, part { s with landings := l, conns := c, ports := p, out := o } = part s)
    {s t : State} (h : Talks s t) : part t = part s := (congrArg part h.only).trans (hp ..)

theorem talks_setLand (s : State) (x : LandingSt) : Talks s (setLand s 16 x) :=
  ⟨rfl, fun _ hj => (landOf_setLand ..).trans (if_neg hj.symm), fun _ _ => rfl, rfl, rfl⟩

theorem talks_request (s : State) (kind : ReqKind) (packets : Nat) (w : Roce) : Talks s (request s 0 kind packets w) := by
  have asked (x : OutReq) : Talks s (setConn s 0 (asking (connOf s 0) x packets)) := by
    refine ⟨rfl, fun _ _ => rfl, fun n hn => (connOf_setConn ..).trans (if_neg hn.symm), ?_⟩
    rw [show connOf (setConn s 0 (asking (connOf s 0) x packets)) 0 = asking (connOf s 0) x packets from (connOf_setConn ..).trans (if_pos rfl)]
    exact ⟨rfl, rfl⟩
  have sent (t : State) (pcp : Nat) (h : Talks s t) : Talks s (sendOn t 0 pcp w false) := by
    refine h.trans ⟨?_, fun j _ => landOf_sendOn .., fun n _ => by rw [connOf, conns_sendOn]; rfl, ?_⟩
    · unfold sendOn sendFrame
      split
      · split <;> rfl
      · rfl
    · rw [connOf, conns_sendOn]
      exact ⟨rfl, rfl⟩
  cases may : mayAsk (connOf s 0) (isRead w) with
  | true =>
    rw [request_of_mayAsk may]
    exact sent _ _ (asked _)
  | false =>
    rw [request_of_waiting may]
    exact asked _

/-- A record without a number in the store joins the management ring. -/
theorem talks_emit (s : State) {r : Rec} (h : r.entry = none) : Talks s (emit s 16 r) := by
  have written : Talks s (writeRecord s 16 r) := by
    unfold writeRecord
    dsimp only
    rw [h]
    exact (talks_setLand s _).trans (talks_request ..)
  unfold emit
  dsimp only
  split
  · exact written
  · split <;> exact talks_setLand ..

theorem talks_answer (s : State) (h : Header) (status : Nat) (rest : List Byte) : Talks s (answer s 16 h status rest) := talks_emit s rfl

theorem talks_loadReply (s : State) (hseq : Word) (result type off : Nat) (digest : List Byte) : Talks s (loadReply s hseq result type off digest) :=
  talks_emit s rfl

/-- A message that no row acts on is answered at most. -/
theorem talks_handle (s : State) (d : List Byte) : Talks s (handle s 16 d (fun t _ => t)) := by
  have popped : Talks s (popMsg s 16) := talks_setLand ..
  unfold handle
  dsimp only
  split
  · exact popped.trans (talks_answer ..)
  · have moved : Talks s (if (headerOf d).type = 6 then popMsg s 16
        else setLand (popMsg s 16) 16 { landOf (popMsg s 16) 16 with h := (headerOf d).hseq }) := by
      split
      · exact popped
      · exact popped.trans (talks_setLand ..)
    generalize (if (headerOf d).type = 6 then popMsg s 16
        else setLand (popMsg s 16) 16 { landOf (popMsg s 16) 16 with h := (headerOf d).hseq }) = u at moved
    split
    · exact moved.trans (talks_answer ..)
    · exact moved

theorem talks_nextMsg (s : State) : Talks s (nextMsg s 16) := by
  have fuel (n : Nat) : ∀ s, Talks s (clearFront 16 n s) := by
    induction n with
    | zero => exact Talks.refl
    | succ n ih =>
      intro s
      rw [clearFront]
      split
      · split
        · exact .refl s
        · exact (talks_handle ..).trans (ih _)
      · exact .refl s
  exact fuel 64 s

end Sys2Proof.Proofs
end


section
/-! MANIFEST_VERIFY_DONE: what has been read is checked in order (R404, R568, R569). -/

namespace Sys2Proof.Proofs

open Sys2Proof Sys2Proof.Machine Sys2Proof.Safety Sys2Proof.Laws

/-! ### What the end of a read leaves -/

/-- Only landings, connections, ports and frames have changed. -/
structure Carried (s t : State) : Prop where
  only : t = { s with landings := t.landings, conns := t.conns, ports := t.ports, out := t.out }

theorem Carried.trans {s t u : State} (h : Carried s t) (k : Carried t u) : Carried s u := ⟨by rw [k.only, h.only]⟩

theorem of_carried {β : Type} (part : State → β) (hp : ∀ s l c p o, part { s with landings := l, conns := c, ports := p, out := o } = part s)
    {s t : State} (h : Carried s t) : part t = part s := (congrArg part h.only).trans (hp ..)

theorem carried_sendOn (s : State) (n pcp : Nat) (m : Roce) (sailing : Bool) : Carried s (sendOn s n pcp m sailing) := by
  unfold sendOn sendFrame
  split
  · split
    · exact ⟨rfl⟩
    · exact ⟨rfl⟩
  · exact ⟨rfl⟩

theorem carried_sendWaiting (n k : Nat) : ∀ s : State, Carried s (sendWaiting n k s) := by
  induction k with
  | zero => exact fun s => ⟨rfl⟩
  | succ k ih =>
    intro s
    unfold sendWaiting
    dsimp only
    split
    · split
      · split
        · refine .trans ?_ (ih _)
          refine .trans ?_ (carried_sendOn ..)
          exact ⟨rfl⟩
        · exact ⟨rfl⟩
      · exact ⟨rfl⟩
    · exact ⟨rfl⟩

theorem carried_setReqs (s : State) (n : Nat) (l : List OutReq) : Carried s (setReqs s n l) := by
  refine .trans ?_ (carried_sendWaiting n l.length _)
  exact ⟨rfl⟩

/-- The state after the end of the read. -/
def readEnded (s : State) (ld : Load) : State := setReqs s ld.conn (dropFirst (fun x => x.kind == .manifest) (connOf s ld.conn).reqs)

/-- The bytes read, none over a connection that has failed. -/
def readOver (s : State) (ld : Load) (r : Option (List Byte)) : Option (List Byte) := if connUsable s ld.conn then r else none

theorem verdictOf_frame (s : State) (a : Tbl LandingSt) (b : Tbl Conn) (c : Tbl Port) (o : List Out) (l : Load) (r : Option (List Byte)) :
    verdictOf { s with landings := a, conns := b, ports := c, out := o } l r = verdictOf s l r := rfl

/-- What is judged does not depend on landings, connections or ports. -/
theorem verdictOf_carried {s u : State} (h : Carried s u) (ld : Load) (r : Option (List Byte)) : verdictOf u ld r = verdictOf s ld r :=
  of_carried (fun v => verdictOf v ld r) (fun s l c p o => verdictOf_frame s l c p o ld r) h

/-! ### The verdict (R568) -/

section
variable {s : State} {ld : Load} {d : List Byte} (length : d.length = ld.len) (same : leAt d 8 4 = ld.len)
include length same

theorem verdictOf_of_read : verdictOf s ld (some d) =
    if !(framingBad d).isEmpty then (3, framingBad d)
    else if digest64 (d.take (trailerAt d)) != manDigest d then (4, [0])
    else if manSigned d && !ed448Verify (manifestKey s) (manDigest d) (slice d (d.length - 114) 114) then (5, [0])
    else if !manSigned d && bit (regGet s (scBase + 8)).toNat 1 then (5, [0])
    else if !(rejected s d).isEmpty then (6, rejected s d)
    else (0, [0]) :=
  if_neg fun h => h.elim (fun n => n length) (fun n => n same)

theorem verdictOf_of_unframed (h : framingBad d ≠ []) : (verdictOf s ld (some d)).1 = 3 := by
  have broken : (!(framingBad d).isEmpty) = true := by rwa [Bool.not_eq_true', List.isEmpty_eq_false_iff]
  rw [verdictOf_of_read length same, if_pos broken]

theorem verdictOf_of_framed (h : framingBad d = []) : verdictOf s ld (some d) =
    if digest64 (d.take (trailerAt d)) != manDigest d then (4, [0])
    else if manSigned d && !ed448Verify (manifestKey s) (manDigest d) (slice d (d.length - 114) 114) then (5, [0])
    else if !manSigned d && bit (regGet s (scBase + 8)).toNat 1 then (5, [0])
    else if !(rejected s d).isEmpty then (6, rejected s d)
    else (0, [0]) := by
  rw [verdictOf_of_read length same, h, List.isEmpty_nil, Bool.not_true, if_neg Bool.false_ne_true]

theorem verdictOf_of_other_digest (h : framingBad d = []) (k : digest64 (d.take (trailerAt d)) ≠ manDigest d) :
    (verdictOf s ld (some d)).1 = 4 := by
  rw [verdictOf_of_framed length same h, if_pos (bne_iff_ne.mpr k)]

theorem verdictOf_of_digest (h : framingBad d = []) (k : digest64 (d.take (trailerAt d)) = manDigest d) : verdictOf s ld (some d) =
    if manSigned d && !ed448Verify (manifestKey s) (manDigest d) (slice d (d.length - 114) 114) then (5, [0])
    else if !manSigned d && bit (regGet s (scBase + 8)).toNat 1 then (5, [0])
    else if !(rejected s d).isEmpty then (6, rejected s d)
    else (0, [0]) := by
  have agree : (digest64 (d.take (trailerAt d)) != manDigest d) = false := by rw [k, bne_self_eq_false]
  rw [verdictOf_of_framed length same h, agree, if_neg Bool.false_ne_true]

/-- The signature is judged last before the sections. -/
theorem verdictOf_of_signature (h : framingBad d = []) (k : digest64 (d.take (trailerAt d)) = manDigest d) :
    (manSigned d = false → bit (regGet s (scBase + 8)).toNat 1 = true → (verdictOf s ld (some d)).1 = 5) ∧
    (manSigned d = true → ed448Verify (manifestKey s) (manDigest d) (slice d (d.length - 114) 114) = false →
      (verdictOf s ld (some d)).1 = 5) ∧
    (manSigned d = false → bit (regGet s (scBase + 8)).toNat 1 = false →
      (verdictOf s ld (some d)).1 = if rejected s d = [] then 0 else 6) := by
  rw [verdictOf_of_digest length same h k]
  refine ⟨fun plain only => ?_, fun signed wrong => ?_, fun plain any => ?_⟩
  · rw [plain, only, Bool.false_and, if_neg Bool.false_ne_true, Bool.not_false, Bool.and_self, if_pos rfl]
  · rw [signed, wrong, Bool.not_false, Bool.and_self, if_pos rfl]
  · rw [plain, any, Bool.false_and, if_neg Bool.false_ne_true, Bool.and_false, if_neg Bool.false_ne_true]
    cases rejected s d <;> rfl

end

/-! ### A load that fails -/

/-- A failed check, raised. -/
def loadFault (s : State) (d : List Byte) (result code : Nat) : State :=
  if result = 5 then raiseChip s 2 0x71 (if manSigned d then 0 else 1) else raiseChip s 0 0x5C code

theorem loadFault_spec (s : State) (d : List Byte) (result code : Nat) : loadFault s d result code = { s with occ := (loadFault s d result code).occ } ∧
    ∃ x ∈ (loadFault s d result code).occ, x.source = if result = 5 then sourceId 3 2 0x71 else sourceId 3 0 0x5C := by
  unfold loadFault
  split
  · exact ⟨rfl, _, mem_occ_raiseChip .., rfl⟩
  · exact ⟨rfl, _, mem_occ_raiseChip .., rfl⟩

/-- The type of a section and the offset that a failed check names, two free values. -/
def loadPlace (s : State) (types : List Nat) : Nat × Nat :=
  (nth 0 types ((freshWord s).1.toNat % types.length), (freshWord (freshWord s).2).1.toNat % 2 ^ 32)

theorem failLoad_eq (s : State) (l : Load) (d : List Byte) (result : Nat) (types : List Nat) : failLoad s l d result types =
    rejectLoad (loadFault { s with free := s.free + 1 + 1 } d result
      (result + (loadPlace s types).1 * 2 ^ 8 + (loadPlace s types).2 * 2 ^ 32)) l result (loadPlace s types).1 (loadPlace s types).2
      (if result = 2 then [] else manDigest d) := rfl

/-- The landings open again after a load. -/
def loadClosed (s : State) : State := closeLandings { s with load := none } false

theorem brokenGangs_congr {s t : State} (gangs : t.gangs = s.gangs) (decks : t.decks = s.decks) : brokenGangs t = brokenGangs s := by
  unfold brokenGangs deckFenced deckFb deckOf
  rw [gangs, decks]

/-- A load that ends without a change. -/
structure LoadRejected (s t : State) : Prop where
  load : t.load = none
  man : t.man = s.man
  windows : t.windows = s.windows
  sec : t.sec = s.sec
  occ : t.occ = s.occ
  closed : ∀ b, b < 16 → (landOf t b).closed = false
  only : brokenGangs s = [] → t = { s with load := none, landings := t.landings, conns := t.conns, ports := t.ports, out := t.out }

theorem loadRejected_refit (s : State) : LoadRejected s (refitGangs (loadClosed s)) := by
  have only : loadClosed s = { s with load := none, landings := (loadClosed s).landings } := closeLandings_only ..
  have load : (loadClosed s).load = none := by rw [only]
  have man : (loadClosed s).man = s.man := by rw [only]
  have windows : (loadClosed s).windows = s.windows := by rw [only]
  have sec : (loadClosed s).sec = s.sec := by rw [only]
  have occ : (loadClosed s).occ = s.occ := by rw [only]
  have broken : brokenGangs (loadClosed s) = brokenGangs s := brokenGangs_congr (by rw [only]) (by rw [only])
  have closed (b : Nat) (hb : b < 16) : (landOf (loadClosed s) b).closed = false := closed_closeLandings _ false hb
  generalize loadClosed s = u at only load man windows sec occ broken closed
  have refit := withoutStop_refitGangs u
  refine ⟨(of_withoutStop State.load (fun _ => rfl) refit).trans load, (of_withoutStop State.man (fun _ => rfl) refit).trans man,
    (of_withoutStop State.windows (fun _ => rfl) refit).trans windows, (of_withoutStop State.sec (fun _ => rfl) refit).trans sec,
    (of_withoutStop State.occ (fun _ => rfl) refit).trans occ, fun b hb => ?_, fun whole => ?_⟩
  · rw [of_withoutStop (fun v => landOf v b) (fun _ => rfl) refit, closed b hb]
  · have same : refitGangs u = u := by rw [refitGangs, broken, whole]; rfl
    rw [same]
    rw [only]

theorem LoadRejected.talks {s t u : State} (h : LoadRejected s t) (k : Talks t u) : LoadRejected s u :=
  ⟨(of_talks State.load (fun _ _ _ _ _ => rfl) k).trans h.load, (of_talks State.man (fun _ _ _ _ _ => rfl) k).trans h.man,
    (of_talks State.windows (fun _ _ _ _ _ => rfl) k).trans h.windows, (of_talks State.sec (fun _ _ _ _ _ => rfl) k).trans h.sec,
    (of_talks State.occ (fun _ _ _ _ _ => rfl) k).trans h.occ,
    fun b hb => by rw [k.others b (by omega)]; exact h.closed b hb, fun whole => by rw [k.only, h.only whole]⟩

theorem loadRejected_rejectLoad (s : State) (l : Load) (result type off : Nat) (digest : List Byte) :
    LoadRejected s (rejectLoad s l result type off digest) :=
  (loadRejected_refit s).talks (((talks_setLand ..).trans (talks_loadReply ..)).trans (talks_nextMsg _))

/-- What a failed check leaves of the state in which it was found. -/
structure LoadFailed (s t : State) (result : Nat) : Prop where
  load : t.load = none
  man : t.man = s.man
  windows : t.windows = s.windows
  sec : t.sec = s.sec
  raised : ∃ x ∈ t.occ, x.source = if result = 5 then sourceId 3 2 0x71 else sourceId 3 0 0x5C
  closed : ∀ b, b < 16 → (landOf t b).closed = false
  only : brokenGangs s = [] → t = { s with
    load := none, landings := t.landings, conns := t.conns, ports := t.ports, out := t.out, occ := t.occ, free := t.free }

theorem loadFailed_failLoad (s : State) (l : Load) (d : List Byte) (result : Nat) (types : List Nat) :
    LoadFailed s (failLoad s l d result types) result := by
  rw [failLoad_eq]
  generalize loadPlace s types = place
  obtain ⟨only, x, mem, source⟩ := loadFault_spec { s with free := s.free + 1 + 1 } d result (result + place.1 * 2 ^ 8 + place.2 * 2 ^ 32)
  generalize loadFault { s with free := s.free + 1 + 1 } d result (result + place.1 * 2 ^ 8 + place.2 * 2 ^ 32) = u at only mem
  have rejected := loadRejected_rejectLoad u l result place.1 place.2 (if result = 2 then [] else manDigest d)
  generalize rejectLoad u l result place.1 place.2 (if result = 2 then [] else manDigest d) = t at rejected
  refine ⟨rejected.load, ?_, ?_, ?_, ⟨x, by rwa [rejected.occ], source⟩, rejected.closed, fun whole => ?_⟩
  · rw [rejected.man, only]
  · rw [rejected.windows, only]
  · rw [rejected.sec, only]
  · have broken : brokenGangs u = brokenGangs s := brokenGangs_congr (by rw [only]) (by rw [only])
    rw [rejected.only (broken.trans whole), only]

theorem LoadFailed.of_carried {s u t : State} {result : Nat} (h : Carried s u) (k : LoadFailed u t result) : LoadFailed s t result := by
  have broken : brokenGangs u = brokenGangs s := brokenGangs_congr (by rw [h.only]) (by rw [h.only])
  refine ⟨k.load, k.man.trans ?_, k.windows.trans ?_, k.sec.trans ?_, k.raised, k.closed, fun whole => ?_⟩
  · rw [h.only]
  · rw [h.only]
  · rw [h.only]
  · rw [k.only (broken.trans whole), h.only]

/-! ### MANIFEST_VERIFY_DONE -/

section
variable {s : State} {ld : Load} (load : s.load = some ld) (waits : ld.verified = none)
include load waits

theorem verifyDone_eq (r : Option (List Byte)) : verifyDone s r =
    if (verdictOf (readEnded s ld) ld (readOver s ld r)).1 = 0 then { readEnded s ld with load := some { ld with verified := readOver s ld r } }
    else failLoad (readEnded s ld) ld ((readOver s ld r).getD []) (verdictOf (readEnded s ld) ld (readOver s ld r)).1
      (verdictOf (readEnded s ld) ld (readOver s ld r)).2 := by
  unfold verifyDone
  rw [load]
  dsimp only
  rw [waits]
  rfl

theorem exec_manifestVerifyDone_of_passed {r : Option (List Byte)} (h : (verdictOf (readEnded s ld) ld (readOver s ld r)).1 = 0) :
    exec (.manifestVerifyDone r) s = .next { readEnded s ld with load := some { ld with verified := readOver s ld r } } :=
  congrArg Host.Outcome.next ((verifyDone_eq load waits r).trans (if_pos h))

theorem exec_manifestVerifyDone_of_failed {r : Option (List Byte)} (h : (verdictOf (readEnded s ld) ld (readOver s ld r)).1 ≠ 0) :
    ∃ t, exec (.manifestVerifyDone r) s = .next t ∧ LoadFailed s t (verdictOf (readEnded s ld) ld (readOver s ld r)).1 :=
  ⟨_, congrArg Host.Outcome.next ((verifyDone_eq load waits r).trans (if_neg h)),
    .of_carried (carried_setReqs ..) (loadFailed_failLoad ..)⟩

end

theorem exec_manifestVerifyDone_of_none {s : State} (h : s.load = none) (r : Option (List Byte)) : exec (.manifestVerifyDone r) s = .next s := by
  show Host.Outcome.next (verifyDone s r) = _
  rw [verifyDone, h]

end Sys2Proof.Proofs
end


section
/-! Berths, decks, gangs and quays as a manifest leaves them (R98, R239, R246, R537, R570). -/

namespace Sys2Proof.Proofs

open Sys2Proof Sys2Proof.Machine Sys2Proof.Safety Sys2Proof.Laws

/-! ### A gang is formed -/

/-- Gang words have changed, and berths without a task have halted. -/
structure Refit (s t : State) : Prop where
  only : t = { s with decks := t.decks, berths := t.berths }
  deck : ∀ k, ∃ w, deckOf t k = { deckOf s k with gang := w }
  berth : ∀ b, berthOf t b = berthOf s b ∨ (berthOf t b = { berthOf s b with st := .halted } ∧ (berthOf s b).st ≠ .undefined)

theorem Refit.refl (s : State) : Refit s s := ⟨rfl, fun k => ⟨(deckOf s k).gang, rfl⟩, fun _ => .inl rfl⟩

theorem Refit.trans {s t u : State} (h : Refit s t) (k : Refit t u) : Refit s u := by
  refine ⟨by rw [k.only, h.only], fun i => ?_, fun b => ?_⟩
  · obtain ⟨v, hv⟩ := h.deck i
    obtain ⟨w, hw⟩ := k.deck i
    exact ⟨w, by rw [hw, hv]⟩
  · rcases k.berth b with same | ⟨halts, defined⟩
    · rw [same]
      exact h.berth b
    · rcases h.berth b with same' | ⟨halts', defined'⟩
      · rw [same'] at halts defined
        exact .inr ⟨halts, defined⟩
      · rw [halts'] at halts
        exact .inr ⟨halts, defined'⟩

/-- No berth has a task. -/
structure Quiet (s : State) : Prop where
  cur : ∀ b, b < 16 → (berthOf s b).cur = none

theorem Quiet.refit {s t : State} (h : Quiet s) (k : Refit s t) : Quiet t := by
  refine ⟨fun b hb => ?_⟩
  rcases k.berth b with same | ⟨halts, -⟩
  · rw [same, h.cur b hb]
  · rw [halts]
    exact h.cur b hb

theorem refit_setGang (s : State) (d : Nat) (w : Word) : Refit s (setGang s d w) := by
  refine ⟨rfl, fun k => ?_, fun _ => .inl rfl⟩
  rw [setGang, deckOf_setDeck]
  split
  · next same => exact ⟨w, by rw [same]⟩
  · exact ⟨(deckOf s k).gang, rfl⟩

theorem refit_setGangs (word : State → Nat → Word) (l : List Nat) (s : State) : Refit s (l.foldl (fun t d => setGang t d (word t d)) s) :=
  List.foldlRecOn (motive := Refit s) l (fun t d => setGang t d (word t d)) (.refl s) (fun t h d _ => h.trans (refit_setGang t d _))

theorem refit_haltBerth {s : State} {b : Nat} (h : (berthOf s b).cur = none) : Refit s (haltBerth s b) := by
  have idle : taskLive s b = false := by rw [taskLive, h]; rfl
  unfold haltBerth
  dsimp only
  rw [latchEnd_of_not_live idle]
  split
  · exact .refl s
  · next defined =>
    split
    · exact .refl s
    · have free : (berthOf s b).cur.isSome = false := by rw [h]; rfl
      rw [free, if_neg Bool.false_ne_true]
      refine ⟨rfl, fun k => ⟨(deckOf s k).gang, rfl⟩, fun j => ?_⟩
      rw [berthOf_setBerth]
      split
      · next same =>
        subst same
        refine .inr ⟨rfl, fun undefined => defined ?_⟩
        rw [berthDefined, undefined]
        rfl
      · exact .inl rfl

theorem refit_refitGang {s : State} (h : Quiet s) (g : Nat) : Refit s (refitGang s g) := by
  unfold refitGang
  dsimp only
  split
  · exact refit_setGangs _ _ s
  · have left := refit_setGangs leftWord ((nth { gmLog := 0, gnLog := 0, members := [] } (tget ({} : Gang) s.gangs g).shapes 0).members.filter
      (deckFenced s)) s
    split
    · next b hb =>
      have below : b < 16 := List.mem_range.mp (List.mem_of_find?_eq_some hb)
      exact left.trans (refit_haltBerth ((h.refit left).cur b below))
    · exact left

/-- The primary shape of a gang. -/
def primary (s : State) (g : Nat) : Shape := nth { gmLog := 0, gnLog := 0, members := [] } (tget ({} : Gang) s.gangs g).shapes 0

/-- The words of a gang in its primary shape. -/
def formed (s : State) (g : Nat) : State := (primary s g).members.foldl (fun t k => setGang t k (gangWord t g 0 k)) s

theorem applyGang_eq (s : State) (g : Nat) : applyGang s g =
    if (primary s g).members.any (deckFenced (formed s g)) then refitGang (formed s g) g else formed s g := rfl

theorem refit_applyGang {s : State} (h : Quiet s) (g : Nat) : Refit s (applyGang s g) := by
  have words : Refit s (formed s g) := refit_setGangs (fun t k => gangWord t g 0 k) _ s
  rw [applyGang_eq]
  split
  · exact words.trans (refit_refitGang (h.refit words) g)
  · exact words

theorem refit_applyGangs {s : State} (h : Quiet s) (l : List Nat) : Refit s (l.foldl applyGang s) :=
  List.foldlRecOn (motive := Refit s) l applyGang (.refl s) (fun _ k g _ => k.trans (refit_applyGang (h.refit k) g))

/-! ### Without a fence no gang is broken -/

/-- A shape whose fields fit their places in a gang word. -/
structure Fits (x : Shape) : Prop where
  rows : x.gmLog < 8
  cols : x.gnLog < 8
  size : x.members.length ≤ 16
  members : ∀ m ∈ x.members, m < 256

theorem fits_empty : Fits { gmLog := 0, gnLog := 0, members := [] } := ⟨by decide, by decide, by decide, fun _ h => absurd h List.not_mem_nil⟩

theorem fits_shapeOf (n : Nat) : Fits (shapeOf n) := by
  refine ⟨bits_lt n 6 4, bits_lt n 2 0, ?_, fun m hm => ?_⟩
  · rw [shapeOf, List.length_map, List.length_range]
    exact Nat.min_le_right ..
  · obtain ⟨i, -, rfl⟩ := List.mem_map.mp hm
    have below := bits_lt n (71 + 8 * i) (64 + 8 * i)
    rwa [show 71 + 8 * i + 1 - (64 + 8 * i) = 8 by omega] at below

/-- What a manifest's gang table gives holds of the default too. -/
theorem tget_of_forall {α : Type} {P : α → Prop} {e : α} (he : P e) {l : Tbl α} (h : ∀ x ∈ l, P x.2) (k : Nat) : P (tget e l k) := by
  induction l with
  | nil => exact he
  | cons x l ih =>
    rw [tget]
    split
    · exact h x List.mem_cons_self
    · exact ih (fun y hy => h y (List.mem_cons_of_mem x hy))

theorem fits_primary {s : State} {d : List Byte} (h : s.gangs = manGangs d) (g : Nat) : Fits (primary s g) := by
  refine tget_of_forall (P := fun x : Gang => Fits (nth { gmLog := 0, gnLog := 0, members := [] } x.shapes 0)) (e := {}) fits_empty
    (fun x hx => ?_) g
  rw [h] at hx
  obtain ⟨r, -, rfl⟩ := List.mem_map.mp hx
  cases r.ents with
  | nil => exact fits_empty
  | cons n rest => exact fits_shapeOf n

theorem indexWhere_lt {α : Type} {p : α → Bool} : ∀ {l : List α} {i : Nat}, indexWhere p l = some i → i < l.length
  | [], _, h => by simp [indexWhere] at h
  | a :: r, i, h => by
    unfold indexWhere at h
    split at h
    · cases h
      exact Nat.zero_lt_succ _
    · obtain ⟨j, hj, rfl⟩ := Option.map_eq_some_iff.mp h
      exact Nat.succ_lt_succ (indexWhere_lt hj)

/-- The word of an unfenced deck in its gang's primary shape says that it is not fenced. -/
theorem bit_gangWord {s : State} {g d : Nat} (fits : Fits (primary s g)) (hg : g < 16) (h : deckFenced s d = false) :
    bit (gangWord s g 0 d).toNat 30 = false := by
  obtain ⟨rows, cols, size, members⟩ := fits
  have place : (indexWhere (· == d) (primary s g).members).getD 0 < 16 := by
    cases found : indexWhere (· == d) (primary s g).members with
    | none => decide
    | some i => exact Nat.lt_of_lt_of_le (indexWhere_lt found) size
  have lead : (primary s g).members.foldl min ((primary s g).members.headD 0) < 256 := by
    refine Nat.lt_of_le_of_lt (foldl_min_le _ _).1 ?_
    cases list : (primary s g).members with
    | nil => decide
    | cons m rest => exact members m (list ▸ List.mem_cons_self)
  have word : gangWord s g 0 d = BitVec.ofNat 32 (flagAt (tget ({} : Gang) s.gangs g).quad 31 + flagAt (deckFenced s d) 30 + 0 * 2 ^ 24 + g * 2 ^ 20 +
      (primary s g).members.foldl min ((primary s g).members.headD 0) * 2 ^ 16 + (primary s g).gmLog * 2 ^ 12 + (primary s g).gnLog * 2 ^ 8 +
      (indexWhere (· == d) (primary s g).members).getD 0 / 2 ^ (primary s g).gnLog * 16 +
      (indexWhere (· == d) (primary s g).members).getD 0 % 2 ^ (primary s g).gnLog) := rfl
  rw [word, h]
  generalize (primary s g).members.foldl min ((primary s g).members.headD 0) = lead_ at lead
  generalize (indexWhere (· == d) (primary s g).members).getD 0 = place_ at place
  generalize (primary s g).gmLog = gm at rows
  generalize (primary s g).gnLog = gn at cols
  have row : place_ / 2 ^ gn ≤ place_ := Nat.div_le_self ..
  have col : place_ % 2 ^ gn ≤ place_ := Nat.mod_le ..
  generalize place_ / 2 ^ gn = row_ at row
  generalize place_ % 2 ^ gn = col_ at col
  have clear {n : Nat} (hn : n < 2 ^ 32) (even : n / 2 ^ 30 % 2 = 0) : bit (BitVec.ofNat 32 n).toNat 30 = false := by
    rw [toNat_ofNat_of_lt hn, bit, Nat.testBit_eq_decide_div_mod_eq, even]
    rfl
  cases (tget ({} : Gang) s.gangs g).quad with
  | false =>
    simp only [flagAt, Bool.false_eq_true, if_false]
    exact clear (by omega) (by omega)
  | true =>
    simp only [flagAt, Bool.false_eq_true, if_false, if_true]
    exact clear (by omega) (by omega)

/-- Gangs are formed without a fence, and no berth halts. -/
structure Whole (s t : State) : Prop where
  berths : t.berths = s.berths
  gangs : t.gangs = s.gangs
  unfenced : ∀ k, deckFenced t k = false

theorem whole_formed {s : State} {g : Nat} (fits : Fits (primary s g)) (hg : g < 16) (h : ∀ k, deckFenced s k = false) : Whole s (formed s g) := by
  refine List.foldlRecOn (motive := Whole s) _ (fun t k => setGang t k (gangWord t g 0 k)) ⟨rfl, rfl, h⟩ (fun t whole k _ => ?_)
  have same : primary t g = primary s g := by rw [primary, whole.gangs]; rfl
  refine ⟨whole.berths, whole.gangs, fun j => ?_⟩
  rw [deckFenced_setGang]
  split
  · exact bit_gangWord (same ▸ fits) hg (whole.unfenced k)
  · exact whole.unfenced j

theorem whole_applyGang {s : State} {g : Nat} (fits : Fits (primary s g)) (hg : g < 16) (h : ∀ k, deckFenced s k = false) :
    Whole s (applyGang s g) := by
  have whole := whole_formed fits hg h
  have unbroken : ¬ (primary s g).members.any (deckFenced (formed s g)) = true := by
    rw [List.any_eq_true]
    rintro ⟨k, -, fenced⟩
    rw [whole.unfenced k] at fenced
    exact absurd fenced Bool.false_ne_true
  rw [applyGang_eq, if_neg unbroken]
  exact whole

theorem whole_applyGangs {s : State} {d : List Byte} (hs : s.gangs = manGangs d) (h : ∀ k, deckFenced s k = false) {l : List Nat}
    (hl : ∀ g ∈ l, g < 16) : Whole s (l.foldl applyGang s) := by
  refine List.foldlRecOn (motive := Whole s) l applyGang ⟨rfl, rfl, h⟩ (fun t whole g hg => ?_)
  have next := whole_applyGang (fits_primary (whole.gangs.trans hs) g) (hl g hg) whole.unfenced
  exact ⟨next.berths.trans whole.berths, next.gangs.trans whole.gangs, next.unfenced⟩

/-! ### Berths, decks and quays -/

/-- The state without what the manifest's units are. -/
def withoutUnits (s : State) : State := { s with berths := [], rw := [], decks := [], waits := [], quays := [] }

theorem of_withoutUnits {β : Type} (part : State → β) (hm : ∀ u, part (withoutUnits u) = part u) {s t : State}
    (h : withoutUnits t = withoutUnits s) : part t = part s := by rw [← hm, h, hm]

/-- A berth as the manifest leaves it. -/
def berthAs (d : List Byte) (b : Nat) (x : Berth) : Berth :=
  (recOf d 1 b).elim { last := x.last, lastStatus := x.lastStatus, lastElapsed := x.lastElapsed, epoch := x.epoch }
    (fun r => { last := x.last, lastStatus := x.lastStatus, lastElapsed := x.lastElapsed, epoch := x.epoch, cfg := berthCfg d r, st := .idle })

theorem applyBerth_spec (d : List Byte) (s : State) (b : Nat) : ∃ w, applyBerth d s b = { setBerth s b (berthAs d b (berthOf s b)) with rw := w } := by
  unfold applyBerth berthAs
  dsimp only
  cases recOf d 1 b with
  | none => exact ⟨s.rw, rfl⟩
  | some r => exact ⟨_, rfl⟩

theorem berthOf_applyBerth (d : List Byte) (s : State) (b j : Nat) :
    berthOf (applyBerth d s b) j = if b = j then berthAs d j (berthOf s j) else berthOf s j := by
  obtain ⟨w, h⟩ := applyBerth_spec d s b
  rw [h]
  refine (berthOf_setBerth ..).trans ?_
  split
  · next same => rw [same]
  · rfl

theorem withoutUnits_applyBerth (d : List Byte) (s : State) (b : Nat) : withoutUnits (applyBerth d s b) = withoutUnits s := by
  obtain ⟨w, h⟩ := applyBerth_spec d s b
  rw [h]
  rfl

/-- A deck as the manifest leaves it. -/
def deckAs (old : State) (d : List Byte) (k : Nat) (x : Deck) : Deck :=
  let was := deckBerth old k
  let now := manDeckBerth d k
  let zero := was != now && (was.isSome || !x.hadBerth)
  { x with tiles := [], descs := [], zrecs := [], fore1 := false, nacc := [], snd := {}, hadBerth := x.hadBerth || now.isSome,
           saveBase := (recOf d 3 k).map (fun r => fld r 0),
           buf0 := if zero then {} else x.buf0, buf1 := if zero then {} else x.buf1,
           gang := BitVec.ofNat 32 (0x0F000000 + flagAt (bit x.gang.toNat 30) 30) }

theorem applyDeck_eq (old : State) (d : List Byte) (s : State) (k : Nat) : applyDeck old d s k = setDeck s k (deckAs old d k (deckOf s k)) := by
  unfold applyDeck deckAs
  dsimp only
  cases recOf d 3 k <;> rfl

theorem deckOf_applyDeck (old : State) (d : List Byte) (s : State) (k j : Nat) :
    deckOf (applyDeck old d s k) j = if k = j then deckAs old d j (deckOf s j) else deckOf s j := by
  rw [applyDeck_eq, deckOf_setDeck]
  split
  · next same => rw [same]
  · rfl

theorem withoutUnits_applyDeck (old : State) (d : List Byte) (s : State) (k : Nat) : withoutUnits (applyDeck old d s k) = withoutUnits s := by
  rw [applyDeck_eq]
  rfl

theorem berths_applyDeck (old : State) (d : List Byte) (s : State) (k : Nat) : (applyDeck old d s k).berths = s.berths := by
  rw [applyDeck_eq]
  rfl

/-- The word of an unfenced deck in no gang says that it is not fenced. -/
theorem bit_gang_deckAs {old : State} {d : List Byte} {k : Nat} {x : Deck} (h : bit x.gang.toNat 30 = false) :
    bit (deckAs old d k x).gang.toNat 30 = false := by
  show bit (BitVec.ofNat 32 (0x0F000000 + flagAt (bit x.gang.toNat 30) 30)).toNat 30 = false
  rw [h]
  rfl

/-- The contexts of a quay as the manifest leaves them. -/
def ctxsAs (d : List Byte) (q : Nat) : Tbl Ctx :=
  (List.range 18).map (fun c => (c, { berth := manCtxBerth d q c, start := (manRegion d q c).1, len := (manRegion d q c).2 }))

theorem quayOf_applyQuay (d : List Byte) (s : State) (q j : Nat) : quayOf (applyQuay d s q) j =
    if q = j then { ctxs := ctxsAs d j, fills := (quayOf s j).fills.map (fun f => (f.1, true, f.2.2)) } else quayOf s j := by
  refine (quayOf_setQuay ..).trans ?_
  split
  · next same => rw [← same]; rfl
  · rfl

theorem ctxOf_applyQuays (d : List Byte) (s : State) {q c : Nat} (hq : q < 4) (hc : c < 18) : ctxOf ((List.range 4).foldl (applyQuay d) s) q c =
    { berth := manCtxBerth d q c, start := (manRegion d q c).1, len := (manRegion d q c).2 } := by
  have quay := foldl_range_own (get := quayOf) (f := applyQuay d)
    (g := fun j x => { ctxs := ctxsAs d j, fills := x.fills.map (fun f => (f.1, true, f.2.2)) }) (fun t a j => quayOf_applyQuay d t a j) 4 s q
  rw [ctxOf, quay, if_pos hq]
  exact tget_map_self ({} : Ctx) (fun c => ({ berth := manCtxBerth d q c, start := (manRegion d q c).1, len := (manRegion d q c).2 } : Ctx)) (List.mem_range.mpr hc)

/-! ### The units together -/

/-- Berths and decks as the manifest leaves them. -/
def unitsApplied (old : State) (d : List Byte) (s : State) : State :=
  (List.range 16).foldl (applyDeck old d) ((List.range 16).foldl (applyBerth d) s)

/-- No command waits. -/
def noWaits (s : State) : State := { s with waits := [] }

/-- Berths, decks and quays as the manifest leaves them, before its gangs are formed. -/
def unitsPlain (old : State) (d : List Byte) (s : State) : State :=
  (List.range 4).foldl (applyQuay d) (noWaits (unitsApplied old d s))

theorem applyUnits_eq (old : State) (d : List Byte) (s : State) :
    applyUnits old d s = ((manGangs d).map (·.1)).foldl applyGang (unitsPlain old d s) := rfl

section
variable (old : State) (d : List Byte) (s : State)

/-- Forming contexts changes the quays alone. -/
theorem of_quays {β : Type} (part : State → β) (hw : ∀ t, part (noWaits t) = part t) (hp : ∀ t q x, part (setQuay t q x) = part t) :
    part (unitsPlain old d s) = part (unitsApplied old d s) :=
  (foldl_keeps (f := applyQuay d) part (fun t q => hp t q _) (List.range 4) _).trans (hw _)

theorem berths_unitsApplied : (unitsApplied old d s).berths = ((List.range 16).foldl (applyBerth d) s).berths :=
  foldl_keeps (f := applyDeck old d) State.berths (fun t k => berths_applyDeck old d t k) (List.range 16) _

theorem withoutUnits_unitsPlain : withoutUnits (unitsPlain old d s) = withoutUnits s := by
  have decks : withoutUnits (unitsApplied old d s) = withoutUnits ((List.range 16).foldl (applyBerth d) s) :=
    foldl_keeps (f := applyDeck old d) withoutUnits (fun t k => withoutUnits_applyDeck old d t k) (List.range 16) _
  have berths : withoutUnits ((List.range 16).foldl (applyBerth d) s) = withoutUnits s :=
    foldl_keeps (f := applyBerth d) withoutUnits (fun t k => withoutUnits_applyBerth d t k) (List.range 16) _
  exact (of_quays old d s withoutUnits (fun _ => rfl) (fun _ _ _ => rfl)).trans (decks.trans berths)

theorem berthOf_unitsPlain {b : Nat} (hb : b < 16) : berthOf (unitsPlain old d s) b = berthAs d b (berthOf s b) := by
  have berths : (unitsPlain old d s).berths = ((List.range 16).foldl (applyBerth d) s).berths :=
    (of_quays old d s State.berths (fun _ => rfl) (fun _ _ _ => rfl)).trans (berths_unitsApplied old d s)
  have own := foldl_range_own (get := berthOf) (g := berthAs d) (fun t a j => berthOf_applyBerth d t a j) 16 s b
  rw [if_pos hb] at own
  rw [← own, berthOf, berths, berthOf]

theorem deckOf_unitsPlain (k : Nat) : deckOf (unitsPlain old d s) k = if k < 16 then deckAs old d k (deckOf s k) else deckOf s k := by
  have decks : (unitsPlain old d s).decks = (unitsApplied old d s).decks := of_quays old d s State.decks (fun _ => rfl) (fun _ _ _ => rfl)
  have own := foldl_range_own (get := deckOf) (g := deckAs old d) (fun t a j => deckOf_applyDeck old d t a j) 16
    ((List.range 16).foldl (applyBerth d) s) k
  have before : deckOf ((List.range 16).foldl (applyBerth d) s) k = deckOf s k :=
    foldl_keeps (f := applyBerth d) (fun t => deckOf t k) (fun t b => by
      obtain ⟨w, h⟩ := applyBerth_spec d t b
      rw [h]
      rfl) (List.range 16) s
  rw [before] at own
  rw [← own, deckOf, decks, unitsApplied, deckOf]

theorem waits_unitsPlain : (unitsPlain old d s).waits = [] :=
  foldl_keeps (f := applyQuay d) State.waits (fun _ _ => rfl) (List.range 4) (noWaits (unitsApplied old d s))

theorem quiet_unitsPlain : Quiet (unitsPlain old d s) := by
  refine ⟨fun b hb => ?_⟩
  rw [berthOf_unitsPlain old d s hb, berthAs]
  cases recOf d 1 b <;> rfl

/-- What the manifest's gangs leave of its units. -/
theorem refit_applyUnits : Refit (unitsPlain old d s) (applyUnits old d s) := by
  rw [applyUnits_eq]
  exact refit_applyGangs (quiet_unitsPlain old d s) _

theorem withoutUnits_applyUnits : withoutUnits (applyUnits old d s) = withoutUnits s := by
  rw [← withoutUnits_unitsPlain old d s]
  have refit := refit_applyUnits old d s
  generalize applyUnits old d s = t at refit ⊢
  generalize unitsPlain old d s = u at refit ⊢
  rw [refit.only]
  rfl

theorem waits_applyUnits : (applyUnits old d s).waits = [] := by
  have refit := refit_applyUnits old d s
  have plain := waits_unitsPlain old d s
  generalize unitsPlain old d s = u at refit plain
  rw [refit.only]
  exact plain

theorem ctxOf_applyUnits {q c : Nat} (hq : q < 4) (hc : c < 18) : ctxOf (applyUnits old d s) q c =
    { berth := manCtxBerth d q c, start := (manRegion d q c).1, len := (manRegion d q c).2 } := by
  have refit := refit_applyUnits old d s
  have plain : ctxOf (unitsPlain old d s) q c = { berth := manCtxBerth d q c, start := (manRegion d q c).1, len := (manRegion d q c).2 } :=
    ctxOf_applyQuays d (noWaits (unitsApplied old d s)) hq hc
  generalize unitsPlain old d s = u at refit plain
  rw [refit.only, ← plain]
  rfl

/-- A deck keeps its accumulators and nothing staged. -/
theorem deckOf_applyUnits {k : Nat} (hk : k < 16) : (deckOf (applyUnits old d s) k).tiles = [] ∧ (deckOf (applyUnits old d s) k).descs = [] ∧
    (deckOf (applyUnits old d s) k).zrecs = [] ∧ (deckOf (applyUnits old d s) k).fore1 = false ∧
    (deckOf (applyUnits old d s) k).acc = (deckOf s k).acc := by
  obtain ⟨w, h⟩ := (refit_applyUnits old d s).deck k
  rw [deckOf_unitsPlain, if_pos hk] at h
  rw [h]
  exact ⟨rfl, rfl, rfl, rfl, rfl⟩

/-- A berth that the manifest does not define. -/
theorem berthOf_applyUnits_of_none {b : Nat} (hb : b < 16) (h : recOf d 1 b = none) : (berthOf (applyUnits old d s) b).st = .undefined := by
  have plain : (berthOf (unitsPlain old d s) b).st = .undefined := by
    rw [berthOf_unitsPlain old d s hb, berthAs, h]
    rfl
  rcases (refit_applyUnits old d s).berth b with same | ⟨-, defined⟩
  · rw [same, plain]
  · exact absurd plain defined

/-- A berth that the manifest defines: idle, or halted by a gang without a shape. -/
theorem berthOf_applyUnits_of_some {b : Nat} {r : MRec} (hb : b < 16) (h : recOf d 1 b = some r) :
    (berthOf (applyUnits old d s) b).cfg = berthCfg d r ∧
    ((berthOf (applyUnits old d s) b).st = .idle ∨ (berthOf (applyUnits old d s) b).st = .halted) ∧
    (berthOf (applyUnits old d s) b).cur = none ∧ (berthOf (applyUnits old d s) b).last = (berthOf s b).last := by
  have plain : berthOf (unitsPlain old d s) b = {
      last := (berthOf s b).last, lastStatus := (berthOf s b).lastStatus, lastElapsed := (berthOf s b).lastElapsed,
      epoch := (berthOf s b).epoch, cfg := berthCfg d r, st := .idle } := by
    rw [berthOf_unitsPlain old d s hb, berthAs, h]
    rfl
  rcases (refit_applyUnits old d s).berth b with same | ⟨halts, -⟩
  · rw [same, plain]
    exact ⟨rfl, .inl rfl, rfl, rfl⟩
  · rw [halts, plain]
    exact ⟨rfl, .inr rfl, rfl, rfl⟩

/-- Without a fence every berth that the manifest defines is idle. -/
theorem berthOf_applyUnits_of_whole {b : Nat} {r : MRec} (hb : b < 16) (h : recOf d 1 b = some r) (gangs : s.gangs = manGangs d)
    (unfenced : ∀ k, deckFenced s k = false) (small : ∀ e ∈ manGangs d, e.1 < 16) : (berthOf (applyUnits old d s) b).st = .idle := by
  have plain (k : Nat) : deckFenced (unitsPlain old d s) k = false := by
    rw [deckFenced, deckOf_unitsPlain]
    split
    · exact bit_gang_deckAs (unfenced k)
    · exact unfenced k
  have gangs' : (unitsPlain old d s).gangs = manGangs d :=
    (of_withoutUnits State.gangs (fun _ => rfl) (withoutUnits_unitsPlain old d s)).trans gangs
  have whole : Whole (unitsPlain old d s) (applyUnits old d s) := by
    rw [applyUnits_eq]
    refine whole_applyGangs gangs' plain (fun g hg => ?_)
    obtain ⟨e, he, rfl⟩ := List.mem_map.mp hg
    exact small e he
  have same : berthOf (applyUnits old d s) b = berthOf (unitsPlain old d s) b := by rw [berthOf, whole.berths]; rfl
  rw [same, berthOf_unitsPlain old d s hb, berthAs, h]
  rfl

end

end Sys2Proof.Proofs
end


section
/-! MANIFEST_APPLY: tables, registers and ports, and the manifest applied whole (R324, R404, R413, R502, R531, R563, R570). -/

namespace Sys2Proof.Proofs

open Sys2Proof Sys2Proof.Machine Sys2Proof.Safety Sys2Proof.Laws

/-! ### Tables (R324, R328, R404, R502) -/

/-- The state without what the manifest's tables are. -/
def withoutTables (s : State) : State :=
  { s with landings := [], conns := [], ports := [], out := [], fc := {}, windows := [], gangs := [], halves := [], hbm := {}, poison := [] }

theorem of_withoutTables {β : Type} (part : State → β) (hm : ∀ u, part (withoutTables u) = part u) {s t : State}
    (h : withoutTables t = withoutTables s) : part t = part s := by rw [← hm, h, hm]

/-- The records of a berth landing that wait go to the management ring: connection 0 keeps its peer, and no buffer changes. -/
theorem conn0_emit (s : State) (r : Rec) : (connOf (emit s 16 r) 0).valid = (connOf s 0).valid ∧ (connOf (emit s 16 r) 0).rqpn = (connOf s 0).rqpn := by
  unfold emit
  dsimp only
  split
  · obtain ⟨fc, h⟩ := writeRecord_spec s 16 r
    rw [h]
    exact (talks_request (numbered s 16) .record 1 (recordWrite s 16 r)).zero
  · split <;> exact ⟨rfl, rfl⟩

/-- What a record for the management ring shows of connection 0. -/
def peer0 (s : State) : Bool × Nat := ((connOf s 0).valid, (connOf s 0).rqpn)

theorem peer0_moveWaiting (s : State) (b : Nat) : peer0 (moveWaiting s b) = peer0 s :=
  foldl_keeps (f := fun t r => emit t 16 r) peer0 (fun t r => Prod.ext (conn0_emit t r).1 (conn0_emit t r).2) _
    (setLand s b { landOf s b with waiting := [] })

theorem bufs_moveWaiting (s : State) (b j : Nat) : (landOf (moveWaiting s b) j).bufs = (landOf s j).bufs := by
  refine (foldl_keeps (f := fun t r => emit t 16 r) (fun t => (landOf t j).bufs) (fun t r => bufs_emit ..) _
    (setLand s b { landOf s b with waiting := [] })).trans ?_
  rw [landOf_setLand]
  split
  · next same => rw [← same]
  · rfl

/-- The berth landings afresh. -/
def freshLands (s : State) : State := (List.range 16).foldl (fun t b => setLand t b {}) s

/-- Every record that waits at a berth landing has moved. -/
def moved (s : State) : State := (List.range 16).foldl moveWaiting s

theorem applyLandings_eq (s : State) : applyLandings s = freshLands (moved s) := rfl

theorem landOf_freshLands (s : State) (j : Nat) : landOf (freshLands s) j = if j < 16 then {} else landOf s j :=
  foldl_range_own (get := landOf) (f := fun t b => setLand t b {}) (g := fun _ _ => {}) (fun _ _ _ => landOf_setLand ..) 16 s j

theorem of_freshLands {β : Type} (part : State → β) (hp : ∀ s b x, part (setLand s b x) = part s) (s : State) : part (freshLands s) = part s :=
  foldl_keeps (f := fun t b => setLand t b {}) part (fun t b => hp t b {}) (List.range 16) s

theorem withoutTables_applyLandings (s : State) : withoutTables (applyLandings s) = withoutTables s := by
  have records (t : State) (b : Nat) : withoutTables (moveWaiting t b) = withoutTables t := by
    rw [moveWaiting_only t b]
    rfl
  exact (of_freshLands withoutTables (fun _ _ _ => rfl) _).trans (foldl_keeps (f := moveWaiting) withoutTables records (List.range 16) s)

theorem landOf_applyLandings (s : State) {b : Nat} (hb : b < 16) : landOf (applyLandings s) b = {} := by
  rw [applyLandings_eq, landOf_freshLands, if_pos hb]

theorem bufs_applyLandings (s : State) : (landOf (applyLandings s) 16).bufs = (landOf s 16).bufs := by
  rw [applyLandings_eq, landOf_freshLands, if_neg (by decide)]
  exact foldl_keeps (f := moveWaiting) (fun t => (landOf t 16).bufs) (fun t b => bufs_moveWaiting t b 16) (List.range 16) s

theorem peer0_applyLandings (s : State) : peer0 (applyLandings s) = peer0 s :=
  (of_freshLands peer0 (fun _ _ _ => rfl) _).trans (foldl_keeps (f := moveWaiting) peer0 peer0_moveWaiting (List.range 16) s)

theorem connOf_applyConns_zero (d : List Byte) (s : State) : connOf (applyConns d s) 0 = connOf s 0 := by
  rw [connOf, applyConns, tget, if_pos rfl]

/-- The entry of a table that lists it first. -/
theorem tget_of_find {α : Type} (e : α) {l : Tbl α} {n : Nat} {x : α} (h : l.find? (fun y => y.1 == n) = some (n, x)) : tget e l n = x := by
  induction l with
  | nil => cases h
  | cons y l ih =>
    rw [List.find?_cons] at h
    rw [tget]
    cases same : y.1 == n with
    | true =>
      rw [same] at h
      rw [if_pos (eq_of_beq same), Option.some.inj h]
    | false =>
      rw [same] at h
      rw [if_neg (ne_of_beq_false same)]
      exact ih h

/-- A connection of the manifest is ready from now on. -/
theorem connOf_applyConns {d : List Byte} {n : Nat} {c : Conn} (s : State) (hn : n ≠ 0)
    (h : (manConns d).find? (fun e => e.1 == n) = some (n, c)) : connOf (applyConns d s) n = { c with riseAt := s.time.mono } := by
  have kept : ((manConns d).filter (fun e => e.1 != 0)).find? (fun e => e.1 == n) = some (n, c) := by
    rw [List.find?_filter, ← h]
    refine congrArg (fun p => (manConns d).find? p) (funext fun e => ?_)
    cases same : e.1 == n with
    | true => rw [eq_of_beq same, bne_iff_ne.mpr hn]; rfl
    | false => exact decide_eq_false (fun both => Bool.false_ne_true both.2)
  have ready : (((manConns d).filter (fun e => e.1 != 0)).map (fun e => (e.1, { e.2 with riseAt := s.time.mono }))).find? (fun e => e.1 == n) =
      some (n, { c with riseAt := s.time.mono }) := by
    rw [List.find?_map]
    exact congrArg (Option.map _) kept
  exact (if_neg hn.symm).trans (tget_of_find _ ready)

/-- The tables of the manifest in a state. -/
def tablesOf (d : List Byte) (s : State) : State := { applyConns d s with windows := manWindows d, gangs := manGangs d, halves := [] }

theorem withoutTables_tablesOf (d : List Byte) (s : State) : withoutTables (tablesOf d s) = withoutTables s := rfl

/-- The tables before the windows' footprints are zeroed. -/
def tablesSet (d : List Byte) (s : State) : State := tablesOf d (applyLandings s)

theorem zeroWindow_keeps {β : Type} (part : State → β) (hp : ∀ s m p, part { s with hbm := m, poison := p } = part s) (old s : State)
    (e : Nat × Window) : part (zeroWindow old s e) = part s := by
  unfold zeroWindow
  dsimp only
  split
  · rfl
  · exact foldl_keeps (f := fun t k => zeroKeys t (k * 2 ^ 34 + (footprint old e.2).2.1) (k * 2 ^ 34 + (footprint old e.2).2.1 + (footprint old e.2).2.2))
      part (fun t k => hp t _ _) _ s

theorem of_applyTables {β : Type} (part : State → β) (hp : ∀ s m p, part { s with hbm := m, poison := p } = part s) (d : List Byte) (s : State) :
    part (applyTables d s) = part (tablesSet d s) :=
  foldl_keeps (f := zeroWindow s) part (fun t e => zeroWindow_keeps part hp s t e) (manEnabled d) (tablesSet d s)

theorem withoutTables_applyTables (d : List Byte) (s : State) : withoutTables (applyTables d s) = withoutTables s :=
  (of_applyTables withoutTables (fun _ _ _ => rfl) d s).trans ((withoutTables_tablesOf d (applyLandings s)).trans (withoutTables_applyLandings s))

/-! ### Registers and system fields (R337, R413, R429, R531, R563) -/

/-- The state without registers, ports, frames, allotments and the time unit. -/
def withoutWires (s : State) : State := { s with rw := [], ports := [], out := [], trkAlloc := [], time := {} }

theorem of_withoutWires {β : Type} (part : State → β) (hm : ∀ u, part (withoutWires u) = part u) {s t : State}
    (h : withoutWires t = withoutWires s) : part t = part s := by rw [← hm, h, hm]

theorem withoutWires_releaseHeld (s : State) (p n : Nat) : withoutWires (releaseHeld s p n) = withoutWires s :=
  foldl_keeps (f := fun t (e : Nat × Out) => send t e.2) withoutWires (fun _ _ => rfl) _
    (setPort s p { portOf s p with held := (portOf s p).held.filter (fun e => e.1 != n) })

theorem withoutWires_pfcWrite (s : State) (p : Nat) (v : Word) : withoutWires (pfcWrite s p v) = withoutWires s := by
  unfold pfcWrite
  dsimp only
  generalize (if (s.man.loaded && bit v.toNat s.man.prioSched) = true then _ else _) = en
  refine (foldl_keeps (part := withoutWires) (fun t i => ?_) _ _).trans ?_
  · split
    · rfl
    · split
      · exact withoutWires_releaseHeld ..
      · rfl
  · rfl

theorem withoutWires_applyPfc (d : List Byte) (s : State) : withoutWires (applyPfc d s) = withoutWires s := by
  refine foldl_keeps (part := withoutWires) (fun t p => ?_) _ s
  split
  · exact withoutWires_pfcWrite ..
  · rfl

theorem withoutWires_allotments (s : State) : withoutWires { s with trkAlloc := [] } = withoutWires s := rfl

theorem withoutWires_applyTrk (s : State) : withoutWires (applyTrk s) = withoutWires s :=
  (withoutWires_allotments _).trans <| foldl_keeps (f := fun t n => regSet t (mwBase + 0x200 + 4 * n) (BitVec.ofNat 32 (allotReset n))) withoutWires (fun _ _ => rfl) (List.range 21) s

/-- The severity of a code by default. -/
def sevDefault (t : State) (n : Nat) : State := match faultDefault n with
  | some c => regSet t (fcSevAddr n) (BitVec.ofNat 32 c)
  | none => t

/-- A severity of the list. -/
def sevSet (t : State) (e : Nat × Nat) : State := regSet t (fcSevAddr e.1) (BitVec.ofNat 32 e.2)

theorem applySev_eq (d : List Byte) (s : State) : applySev d s = (manSev d).foldl sevSet ((List.range 256).foldl sevDefault s) := rfl

theorem withoutWires_applySev (d : List Byte) (s : State) : withoutWires (applySev d s) = withoutWires s := by
  refine (foldl_keeps (f := sevSet) withoutWires (fun _ _ => rfl) (manSev d) _).trans
    (foldl_keeps (f := sevDefault) withoutWires (fun t n => ?_) (List.range 256) s)
  unfold sevDefault
  split <;> rfl

/-- The system fields, and M2 extended by the digest. -/
def systemSet (d : List Byte) (s : State) : State := extendM { s with man := manGlobal d, sec := { s.sec with digest := manDigest d } } 2 (manDigest d)

theorem withoutWires_applyGlobal (d : List Byte) (s : State) : withoutWires (applyGlobal d s) = withoutWires (systemSet d s) :=
  (withoutWires_applySev ..).trans (.trans (by rfl) ((withoutWires_applyPfc ..).trans (withoutWires_applyTrk ..)))

/-! ### Severities (R531) -/

theorem fcSevAddr_inj {m n : Nat} (h : fcSevAddr m = fcSevAddr n) : m = n := by
  unfold fcSevAddr at h
  omega

theorem faultClass_sevSet (t : State) (e : Nat × Nat) (n : Nat) : faultClass (sevSet t e) n = if e.1 = n then e.2 % 8 else faultClass t n := by
  rw [faultClass, sevSet, regGet_regSet]
  split
  · next same =>
    rw [if_pos (fcSevAddr_inj same), BitVec.toNat_ofNat]
    omega
  · next other => rw [if_neg (fun same => other (congrArg fcSevAddr same)), faultClass]

theorem faultClass_sevDefault (t : State) (a n : Nat) : faultClass (sevDefault t a) n =
    if a = n then ((faultDefault n).map (· % 8)).getD (faultClass t n) else faultClass t n := by
  unfold sevDefault
  split
  · next c hc =>
    refine (faultClass_sevSet t (a, c) n).trans ?_
    split
    · next same =>
      rw [← same, hc]
      rfl
    · rfl
  · next none_ =>
    split
    · next same =>
      rw [← same, none_]
      rfl
    · rfl

theorem faultClass_sevSets {l : List (Nat × Nat)} {n : Nat} (h : ∀ e ∈ l, e.1 ≠ n) (t : State) : faultClass (l.foldl sevSet t) n = faultClass t n :=
  List.foldlRecOn (motive := fun u => faultClass u n = faultClass t n) l sevSet rfl
    (fun u hu e he => by rw [faultClass_sevSet, if_neg (h e he), hu])

/-- A code that the list leaves has its default. -/
theorem faultClass_applySev_of_default {d : List Byte} {n c : Nat} (s : State) (hn : n < 256) (hc : faultDefault n = some c)
    (h : ∀ e ∈ manSev d, e.1 ≠ n) : faultClass (applySev d s) n = c := by
  have low := faultDefault_le_lock hc
  have own := foldl_range_own (get := faultClass) (f := sevDefault) (g := fun n x => ((faultDefault n).map (· % 8)).getD x)
    (fun t a j => faultClass_sevDefault t a j) 256 s n
  rw [applySev_eq, faultClass_sevSets h, own, if_pos hn, hc]
  exact Nat.mod_eq_of_lt (by omega)

/-- The last entry of a code in the list is its class. -/
theorem faultClass_applySev_of_listed {d : List Byte} {l1 l2 : List (Nat × Nat)} {n c : Nat} (s : State) (list : manSev d = l1 ++ (n, c) :: l2)
    (last : ∀ e ∈ l2, e.1 ≠ n) : faultClass (applySev d s) n = c % 8 := by
  rw [applySev_eq, list, List.foldl_append, List.foldl_cons, faultClass_sevSets last, faultClass_sevSet, if_pos rfl]

/-! ### Ports (R388, R570) -/

/-- The state without ports, occurrences and the alert that a port's state gives. -/
def withoutSigns (s : State) : State := { s with ports := [], occ := [], pw := { s.pw with alert := 0, answered := false } }

theorem of_withoutSigns {β : Type} (part : State → β) (hm : ∀ u, part (withoutSigns u) = part u) {s t : State}
    (h : withoutSigns t = withoutSigns s) : part t = part s := by rw [← hm, h, hm]

theorem withoutSigns_setPortState (s : State) (p : Nat) (st : PortState) (cause : Nat) : withoutSigns (setPortState s p st cause) = withoutSigns s := by
  unfold setPortState
  dsimp only
  split <;> rfl

theorem withoutSigns_raiseChip (s : State) (unit code detail : Nat) : withoutSigns (raiseChip s unit code detail) = withoutSigns s := rfl

theorem withoutSigns_setLport (s : State) (p l : Nat) : withoutSigns (setLport s p l) = withoutSigns s := rfl

theorem withoutSigns_quarantine (s : State) (p cause : Nat) : withoutSigns (quarantine s p cause) = withoutSigns s := by
  have entered : withoutSigns (setPortState (setLport s p p) p .quarantined cause) = withoutSigns s := withoutSigns_setPortState ..
  unfold quarantine
  dsimp only
  split
  · exact entered
  · exact (withoutSigns_raiseChip ..).trans entered

theorem withoutSigns_applyVerdict (s : State) (p : Nat) (v : Verdict) : withoutSigns (applyVerdict s p v) = withoutSigns s := by
  cases v with
  | up => exact withoutSigns_setPortState ..
  | await => exact withoutSigns_setPortState ..
  | quar c => exact withoutSigns_quarantine ..
  | swap q =>
    have swapped : withoutSigns (setPortState (setLport s p q) p .remapped 0) = withoutSigns s :=
      (withoutSigns_setPortState ..).trans (withoutSigns_setLport ..)
    unfold applyVerdict
    dsimp only
    generalize setPortState (setLport s p q) p .remapped 0 = u at swapped ⊢
    split
    · have both : withoutSigns (setPortState (setLport u q p) q .remapped 0) = withoutSigns s :=
        (withoutSigns_setPortState ..).trans ((withoutSigns_setLport ..).trans swapped)
      split
      · exact both
      · exact (withoutSigns_raiseChip ..).trans both
    · exact (withoutSigns_quarantine ..).trans (withoutSigns_quarantine ..)

theorem withoutSigns_classifyOne (s : State) (p : Nat) : withoutSigns (classifyOne s p) = withoutSigns s := by
  unfold classifyOne
  split
  · exact withoutSigns_applyVerdict ..
  · rfl

theorem withoutSigns_classifyAll (s : State) : withoutSigns (classifyAll s) = withoutSigns s :=
  foldl_keeps (f := classifyOne) withoutSigns withoutSigns_classifyOne (List.range 8) s

theorem withoutSigns_ports (s : State) (x : Tbl Port) : withoutSigns { s with ports := x } = withoutSigns s := rfl

theorem withoutSigns_applyPorts (s : State) : withoutSigns (applyPorts s) = withoutSigns s :=
  (withoutSigns_classifyAll _).trans (withoutSigns_ports s _)

end Sys2Proof.Proofs
end


section
/-! The manifest: loaded, checked and applied whole (R404, R502, R531, R563-R572). -/

namespace Sys2Proof.Proofs

open Sys2Proof Sys2Proof.Machine Sys2Proof.Safety Sys2Proof.Laws

/-! ### The stages of MANIFEST_APPLY -/

/-- Berths, decks, gangs and quays of a manifest over its tables. -/
def unitsOf (s : State) (d : List Byte) : State := applyUnits s d (applyTables d s)

/-- The manifest in force, its message not yet answered. -/
def inForce (s : State) (d : List Byte) : State := { applyPorts (applyGlobal d (unitsOf s d)) with load := none }

/-- Its message has left its buffer, and its REPLY has joined the management ring. -/
def manReplied (s : State) (ld : Load) (d : List Byte) : State := loadReply (popMsg (inForce s d) 16) ld.hseq 0 0 0 (manDigest d)

theorem applyManifest_eq (s : State) (ld : Load) (d : List Byte) : applyManifest s ld d = nextMsg (manReplied s ld d) 16 := rfl

section
variable (s : State) (ld : Load) (d : List Byte)

/-- Ports, registers and the system fields leave a part of the state as the units left it. -/
theorem of_inForce {β : Type} (part : State → β) (hl : ∀ u, part { u with load := none } = part u) (hs : ∀ u, part (withoutSigns u) = part u)
    (hw : ∀ u, part (withoutWires u) = part u) : part (inForce s d) = part (systemSet d (unitsOf s d)) :=
  (hl _).trans ((of_withoutSigns part hs (withoutSigns_applyPorts _)).trans (of_withoutWires part hw (withoutWires_applyGlobal ..)))

theorem talks_manReplied : Talks (inForce s d) (manReplied s ld d) := (talks_setLand ..).trans (talks_loadReply ..)

/-- What the system fields leave of the units. -/
theorem of_systemSet {β : Type} (part : State → β) (hp : ∀ u x y, part { u with man := x, sec := y } = part u) (u : State) :
    part (systemSet d u) = part u := hp u _ _

/-- The tables leave a part of the units as it is. -/
theorem of_unitsOf {β : Type} (part : State → β) (hm : ∀ u, part (withoutUnits u) = part u) : part (unitsOf s d) = part (applyTables d s) :=
  of_withoutUnits part hm (withoutUnits_applyUnits ..)

/-- What no unit and no table is stays. -/
theorem of_unchanged {β : Type} (part : State → β) (hm : ∀ u, part (withoutUnits u) = part u) (ht : ∀ u, part (withoutTables u) = part u) :
    part (unitsOf s d) = part s := (of_unitsOf s d part hm).trans (of_withoutTables part ht (withoutTables_applyTables ..))

end

theorem landOf_tablesOf (d : List Byte) (u : State) (j : Nat) : landOf (tablesOf d u) j = landOf u j := rfl

theorem connOf_tablesOf (d : List Byte) (u : State) (n : Nat) : connOf (tablesOf d u) n = connOf (applyConns d u) n := rfl

theorem faultClass_load (u : State) (n : Nat) : faultClass { u with load := none } n = faultClass u n := rfl

theorem applyGlobal_eq (d : List Byte) (u : State) :
    applyGlobal d u = applySev d (applySched d (applyPfc d (applyTrk (systemSet d u)))) := rfl

/-! ### What the message's answer leaves -/

/-- The manifest in force, and the landing's buffers empty. -/
theorem exec_manifestApply {s : State} {ld : Load} {d : List Byte} {m : Msg} (load : s.load = some ld) (read : ld.verified = some d)
    (bufs : (landOf s 16).bufs = [m]) : exec .manifestApply s = .next (manReplied s ld d) ∧ (landOf (manReplied s ld d) 16).bufs = [] := by
  have before : (landOf (inForce s d) 16).bufs = [m] := by
    have stays := of_inForce s d (fun u => (landOf u 16).bufs) (fun _ => rfl) (fun _ => rfl) (fun _ => rfl)
    have tables : (landOf (applyTables d s) 16).bufs = (landOf (tablesSet d s) 16).bufs :=
      of_applyTables (fun u => (landOf u 16).bufs) (fun _ _ _ => rfl) d s
    rw [stays, of_systemSet d (fun u => (landOf u 16).bufs) (fun _ _ _ => rfl), of_unitsOf s d (fun u => (landOf u 16).bufs) (fun _ => rfl),
      tables, tablesSet, landOf_tablesOf, bufs_applyLandings, bufs]
  have after : (landOf (manReplied s ld d) 16).bufs = [] := by
    rw [manReplied, bufs_loadReply, popMsg, landOf_setLand, if_pos rfl, before]
    rfl
  refine ⟨?_, after⟩
  have run : exec .manifestApply s = .next (applyManifest s ld d) := by
    show execManifestApply s = _
    rw [execManifestApply, load]
    dsimp only
    rw [read]
  rw [run, applyManifest_eq, nextMsg_of_bufs_nil after]

section
variable (s : State) (ld : Load) (d : List Byte)

/-- What the answer and the ports do not show is as the system fields leave it. -/
theorem of_manReplied {β : Type} (part : State → β) (hp : ∀ s l c p o, part { s with landings := l, conns := c, ports := p, out := o } = part s)
    (hl : ∀ u, part { u with load := none } = part u) (hs : ∀ u, part (withoutSigns u) = part u) (hw : ∀ u, part (withoutWires u) = part u) :
    part (manReplied s ld d) = part (systemSet d (unitsOf s d)) :=
  (of_talks part hp (talks_manReplied s ld d)).trans (of_inForce s d part hl hs hw)

theorem units_manReplied {β : Type} (part : State → β) (hp : ∀ s l c p o, part { s with landings := l, conns := c, ports := p, out := o } = part s)
    (hl : ∀ u, part { u with load := none } = part u) (hs : ∀ u, part (withoutSigns u) = part u) (hw : ∀ u, part (withoutWires u) = part u)
    (hy : ∀ u x y, part { u with man := x, sec := y } = part u) : part (manReplied s ld d) = part (unitsOf s d) :=
  (of_manReplied s ld d part hp hl hs hw).trans (of_systemSet d part hy _)

/-- The manifest's own tables. -/
structure TablesInForce (t : State) (d : List Byte) : Prop where
  windows : t.windows = manWindows d
  gangs : t.gangs = manGangs d
  halves : t.halves = []

theorem tablesInForce_applyTables : TablesInForce (applyTables d s) d :=
  ⟨of_applyTables State.windows (fun _ _ _ => rfl) d s, of_applyTables State.gangs (fun _ _ _ => rfl) d s,
    of_applyTables State.halves (fun _ _ _ => rfl) d s⟩

theorem tablesInForce_manReplied : TablesInForce (manReplied s ld d) d := by
  obtain ⟨windows, gangs, halves⟩ := tablesInForce_applyTables s d
  refine ⟨?_, ?_, ?_⟩
  · rw [units_manReplied s ld d State.windows (fun _ _ _ _ _ => rfl) (fun _ => rfl) (fun _ => rfl) (fun _ => rfl) (fun _ _ _ => rfl),
      of_unitsOf s d State.windows (fun _ => rfl), windows]
  · rw [units_manReplied s ld d State.gangs (fun _ _ _ _ _ => rfl) (fun _ => rfl) (fun _ => rfl) (fun _ => rfl) (fun _ _ _ => rfl),
      of_unitsOf s d State.gangs (fun _ => rfl), gangs]
  · rw [units_manReplied s ld d State.halves (fun _ _ _ _ _ => rfl) (fun _ => rfl) (fun _ => rfl) (fun _ => rfl) (fun _ _ _ => rfl),
      of_unitsOf s d State.halves (fun _ => rfl), halves]

/-- M2 is extended by the digest, which is kept; no other measurement moves. -/
theorem measured_manReplied : (manReplied s ld d).man = manGlobal d ∧ (manReplied s ld d).sec.digest = manDigest d ∧
    measOf (manReplied s ld d) 2 = digest64 (measOf s 2 ++ slice (manDigest d) 0 64) ∧
    (∀ i, i ≠ 2 → measOf (manReplied s ld d) i = measOf s i) := by
  have meas (i : Nat) : measOf (manReplied s ld d) i =
      if 2 = i then digest64 (measOf (unitsOf s d) 2 ++ slice (manDigest d) 0 64) else measOf (unitsOf s d) i := by
    rw [of_manReplied s ld d (fun u => measOf u i) (fun _ _ _ _ _ => rfl) (fun _ => rfl) (fun _ => rfl) (fun _ => rfl)]
    exact measOf_extendM ..
  have before (i : Nat) : measOf (unitsOf s d) i = measOf s i := of_unchanged s d (fun u => measOf u i) (fun _ => rfl) (fun _ => rfl)
  refine ⟨of_manReplied s ld d State.man (fun _ _ _ _ _ => rfl) (fun _ => rfl) (fun _ => rfl) (fun _ => rfl),
    of_manReplied s ld d (fun u => u.sec.digest) (fun _ _ _ _ _ => rfl) (fun _ => rfl) (fun _ => rfl) (fun _ => rfl), ?_, fun i hi => ?_⟩
  · rw [meas, if_pos rfl, before]
  · rw [meas, if_neg hi.symm, before]

/-- The berth landings are afresh. -/
theorem landOf_manReplied {b : Nat} (hb : b < 16) : landOf (manReplied s ld d) b = {} := by
  have tables : landOf (applyTables d s) b = landOf (tablesSet d s) b := of_applyTables (fun u => landOf u b) (fun _ _ _ => rfl) d s
  rw [(talks_manReplied s ld d).others b (by omega), of_inForce s d (fun u => landOf u b) (fun _ => rfl) (fun _ => rfl) (fun _ => rfl),
    of_systemSet d (fun u => landOf u b) (fun _ _ _ => rfl), of_unitsOf s d (fun u => landOf u b) (fun _ => rfl), tables, tablesSet,
    landOf_tablesOf, landOf_applyLandings s hb]

theorem connOf_inForce (n : Nat) : connOf (inForce s d) n = connOf (applyConns d (applyLandings s)) n := by
  have tables : connOf (applyTables d s) n = connOf (tablesSet d s) n := of_applyTables (fun u => connOf u n) (fun _ _ _ => rfl) d s
  rw [of_inForce s d (fun u => connOf u n) (fun _ => rfl) (fun _ => rfl) (fun _ => rfl), of_systemSet d (fun u => connOf u n) (fun _ _ _ => rfl),
    of_unitsOf s d (fun u => connOf u n) (fun _ => rfl), tables, tablesSet, connOf_tablesOf]

/-- Connection 0 keeps its peer. -/
theorem conn0_manReplied : (connOf (manReplied s ld d) 0).valid = (connOf s 0).valid ∧ (connOf (manReplied s ld d) 0).rqpn = (connOf s 0).rqpn := by
  obtain ⟨valid, rqpn⟩ := (talks_manReplied s ld d).zero
  have peer := peer0_applyLandings s
  simp only [peer0, Prod.mk.injEq] at peer
  rw [valid, rqpn, connOf_inForce, connOf_applyConns_zero]
  exact peer

theorem connOf_manReplied {n : Nat} {c : Conn} (hn : n ≠ 0) (h : (manConns d).find? (fun e => e.1 == n) = some (n, c)) :
    connOf (manReplied s ld d) n = { c with riseAt := s.time.mono } := by
  have time : (applyLandings s).time = s.time := of_withoutTables State.time (fun _ => rfl) (withoutTables_applyLandings s)
  rw [(talks_manReplied s ld d).conns n hn, connOf_inForce, connOf_applyConns _ hn h, time]

/-- The classes are those that the severities give. -/
theorem faultClass_manReplied : ∃ u, ∀ n, faultClass (manReplied s ld d) n = faultClass (applySev d u) n := by
  refine ⟨applySched d (applyPfc d (applyTrk (systemSet d (unitsOf s d)))), fun n => ?_⟩
  rw [of_talks (fun u => faultClass u n) (fun _ _ _ _ _ => rfl) (talks_manReplied s ld d)]
  have ports := of_withoutSigns (fun u => faultClass u n) (fun _ => rfl) (withoutSigns_applyPorts (applyGlobal d (unitsOf s d)))
  rw [← applyGlobal_eq, ← ports]
  exact faultClass_load _ n

theorem berthOf_manReplied (b : Nat) : berthOf (manReplied s ld d) b = berthOf (unitsOf s d) b :=
  units_manReplied s ld d (fun u => berthOf u b) (fun _ _ _ _ _ => rfl) (fun _ => rfl) (fun _ => rfl) (fun _ => rfl) (fun _ _ _ => rfl)

theorem deckOf_manReplied (k : Nat) : deckOf (manReplied s ld d) k = deckOf (unitsOf s d) k :=
  units_manReplied s ld d (fun u => deckOf u k) (fun _ _ _ _ _ => rfl) (fun _ => rfl) (fun _ => rfl) (fun _ => rfl) (fun _ _ _ => rfl)

theorem ctxOf_manReplied (q c : Nat) : ctxOf (manReplied s ld d) q c = ctxOf (unitsOf s d) q c :=
  units_manReplied s ld d (fun u => ctxOf u q c) (fun _ _ _ _ _ => rfl) (fun _ => rfl) (fun _ => rfl) (fun _ => rfl) (fun _ _ _ => rfl)

/-- A berth that the manifest defines. -/
theorem berth_manReplied {b : Nat} {r : MRec} (hb : b < 16) (h : recOf d 1 b = some r) :
    (berthOf (manReplied s ld d) b).cfg = berthCfg d r ∧
    ((berthOf (manReplied s ld d) b).st = .idle ∨ (berthOf (manReplied s ld d) b).st = .halted) ∧
    (berthOf (manReplied s ld d) b).cur = none ∧
    ((∀ k, deckFenced s k = false) → (∀ e ∈ manGangs d, e.1 < 16) → (berthOf (manReplied s ld d) b).st = .idle) ∧
    (berthOf (manReplied s ld d) b).last = (berthOf s b).last := by
  have tables {β : Type} (part : State → β) (hm : ∀ u, part (withoutTables u) = part u) : part (applyTables d s) = part s :=
    of_withoutTables part hm (withoutTables_applyTables d s)
  obtain ⟨cfg, st, cur, last⟩ := berthOf_applyUnits_of_some s d (applyTables d s) hb h
  rw [berthOf_manReplied]
  refine ⟨cfg, st, cur, fun unfenced small => ?_, last.trans ?_⟩
  · refine berthOf_applyUnits_of_whole s d (applyTables d s) hb h (tablesInForce_applyTables s d).gangs (fun k => ?_) small
    rw [tables (fun u => deckFenced u k) (fun _ => rfl), unfenced k]
  · rw [tables (fun u => (berthOf u b).last) (fun _ => rfl)]

theorem deck_manReplied {k : Nat} (hk : k < 16) : (deckOf (manReplied s ld d) k).tiles = [] ∧ (deckOf (manReplied s ld d) k).descs = [] ∧
    (deckOf (manReplied s ld d) k).zrecs = [] ∧ (deckOf (manReplied s ld d) k).fore1 = false ∧
    (deckOf (manReplied s ld d) k).acc = (deckOf s k).acc := by
  obtain ⟨tiles, descs, zrecs, fore, acc⟩ := deckOf_applyUnits s d (applyTables d s) hk
  have tables : (deckOf (applyTables d s) k).acc = (deckOf s k).acc :=
    of_withoutTables (fun u => (deckOf u k).acc) (fun _ => rfl) (withoutTables_applyTables d s)
  rw [deckOf_manReplied]
  exact ⟨tiles, descs, zrecs, fore, acc.trans tables⟩

end

theorem exec_manifestApply_of_idle {s : State} (h : s.load = none ∨ ∃ ld, s.load = some ld ∧ ld.verified = none) :
    exec .manifestApply s = .next s := by
  show execManifestApply s = _
  rcases h with none_ | ⟨ld, load, waits⟩
  · rw [execManifestApply, none_]
  · rw [execManifestApply, load]
    dsimp only
    rw [waits]

/-! ### The obligation -/

/-- LOAD_MANIFEST that is taken. -/
theorem loadManifest_taken {s : State} {m : Msg} (h : Taken s 16 7 m) (empty : ∀ b, b < 16 → (landOf s b).bufs = []) :
    (allIdle s = false → exec .loadManifest s = .next (answer (closeLandings (judging s m) false) 16 (headerOf m.data) 0x0E [])) ∧
    (allIdle s = true → s.boot.ready = false → exec .loadManifest s =
      .next (loadReply (closeLandings (judging s m) false) (headerOf m.data).hseq 1 0 0 [])) ∧
    (allIdle s = true → s.boot.ready = true → s.diag.busy = true → s.diag.type = 0x10 → exec .loadManifest s =
      .next (loadReply (closeLandings (judging s m) false) (headerOf m.data).hseq 7 0 0 [])) := by
  have idle : allIdle (judging s m) = allIdle s := of_judging allIdle (fun _ _ => rfl) s m
  have boot : (judging s m).boot = s.boot := of_judging State.boot (fun _ _ => rfl) s m
  have diag : (judging s m).diag = s.diag := of_judging State.diag (fun _ _ => rfl) s m
  refine ⟨fun busy => ?_, fun free unready => ?_, fun free ready testing type => ?_⟩
  · exact exec_loadManifest_of_refused h empty (doLoad_of_busy (idle.trans busy)) (bufs_answer ..) (bufs_closeLandings ..)
  · exact exec_loadManifest_of_refused h empty (doLoad_of_unready (idle.trans free) (boot ▸ unready)) (bufs_loadReply ..) (bufs_closeLandings ..)
  · exact exec_loadManifest_of_refused h empty (doLoad_of_testing (idle.trans free) (boot ▸ ready) (diag ▸ testing) (diag ▸ type))
      (bufs_loadReply ..) (bufs_closeLandings ..)

/-- Settles O47: LOAD_MANIFEST, the checks in their order, and the stages of the apply step, each by what it leaves. -/
theorem manifestIsCheckedAndAppliedWhole : Obligations.ManifestIsCheckedAndAppliedWhole := by
  unfold Obligations.ManifestIsCheckedAndAppliedWhole
  refine ⟨fun s m => ⟨fun taken => ⟨exec_loadManifest_of_full taken, fun empty => ?_⟩, fun r => ?_, fun r ld u got load waits hgot hu => ?_⟩,
    fun s ld => ⟨fun none_ => exec_manifestApply_of_idle (.inl none_), fun load waits => exec_manifestApply_of_idle (.inr ⟨ld, load, waits⟩),
      fun d m load read bufs => ?_⟩⟩
  · obtain ⟨busy, unready, testing⟩ := loadManifest_taken taken empty
    exact ⟨busy, unready, testing, fun v b hb => closed_closeLandings v false hb, exec_loadManifest_of_going taken empty⟩
  · exact fun none_ => exec_manifestVerifyDone_of_none none_ r
  · have over_ : got = readOver s ld r := hgot
    have ended : u = readEnded s ld := hu
    have same (read : Option (List Byte)) : verdictOf u ld read = verdictOf s ld read := ended ▸ verdictOf_carried (carried_setReqs ..) ld read
    refine ⟨fun passed => ?_, fun failed => ?_, fun unread => ?_, fun d hd length len => ?_⟩
    · subst over_ ended
      exact exec_manifestVerifyDone_of_passed load waits passed
    · subst over_ ended
      obtain ⟨t, run, left⟩ := exec_manifestVerifyDone_of_failed load waits failed
      obtain ⟨x, mem, source⟩ := left.raised
      exact ⟨t, x, run, left.load, left.man, left.windows, left.sec, left.only, mem, source, left.closed⟩
    · rw [unread]
      rfl
    · rw [hd, same]
      exact ⟨verdictOf_of_unframed length len, verdictOf_of_other_digest length len, verdictOf_of_signature length len⟩
  · obtain ⟨run, emptied⟩ := exec_manifestApply load read bufs
    obtain ⟨windows, gangs, halves⟩ := tablesInForce_manReplied s ld d
    obtain ⟨man, digest, m2, others⟩ := measured_manReplied s ld d
    obtain ⟨valid, rqpn⟩ := conn0_manReplied s ld d
    obtain ⟨u, classes⟩ := faultClass_manReplied s ld d
    refine ⟨manReplied s ld d, run, ?_, man, windows, gangs, halves, ?_, digest, m2, others, fun b hb => landOf_manReplied s ld d hb, emptied,
      fun b hb => ⟨fun none_ => ?_, fun r => berth_manReplied s ld d hb⟩, fun q c hq hc => ?_, valid, rqpn,
      fun n c hn => connOf_manReplied s ld d hn, fun n c hn hc unlisted => ?_, fun l1 n c l2 list last => ?_, fun k => deck_manReplied s ld d⟩
    · exact of_talks State.load (fun _ _ _ _ _ => rfl) (talks_manReplied s ld d)
    · rw [units_manReplied s ld d State.waits (fun _ _ _ _ _ => rfl) (fun _ => rfl) (fun _ => rfl) (fun _ => rfl) (fun _ _ _ => rfl)]
      exact waits_applyUnits s d _
    · rw [berthOf_manReplied]
      exact berthOf_applyUnits_of_none s d _ hb none_
    · rw [ctxOf_manReplied]
      exact ctxOf_applyUnits s d _ hq hc
    · rw [classes, faultClass_applySev_of_default u hn hc unlisted]
    · rw [classes, faultClass_applySev_of_listed u list last]

end Sys2Proof.Proofs
end
